-- ==== Sys2Proof/Word.lean ====
section
/-! DEFINITION. The word types of the Avmir 1728 module: bytes, 32-bit and 64-bit words, module addresses and
the index types of the parts that the module has a fixed number of (R8, R9, R11, R16, R126, R337, R343). -/

namespace Sys2Proof

/-- One byte of a memory (R123, "Multi-byte values in memory and instruction words are little-endian"). -/
abbrev Byte := BitVec 8
/-- A 32-bit lane, scalar register or memory word (R93, R130). -/
abbrev W32 := BitVec 32
/-- A 64-bit word (R123, R205). -/
abbrev W64 := BitVec 64
/-- A 48-bit module address (R160). -/
abbrev MAddr := BitVec 48

/-- Linear core index 0 to 1727 (R11). -/
abbrev CoreId := Fin 1728
/-- PCIe function 0 to 15 (R337). -/
abbrev FnId := Fin 16
/-- Felvas port 0 to 31 (R9). -/
abbrev PortId := Fin 32
/-- Clock region 0 to 51 (R11). -/
abbrev RegionId := Fin 52
/-- I/O die 0 to 3 (R8). -/
abbrev IoDie := Fin 4
/-- Compute die 0 to 11 (R11). -/
abbrev DieId := Fin 12
/-- Partition 0 to 11 (R343). -/
abbrev PartId := Fin 12
/-- Submission or completion ring 0 to 15 (R348). -/
abbrev RingId := Fin 16

end Sys2Proof
end

