-- ==== Sys2Proof/Types.lean ====
section
/-! DEFINITION. The plain types that commands carry and the state holds: codes of the spec's tables, descriptors,
flits, executables, manifests. -/

namespace Sys2Proof

/-- The five engines of a core, with the numbers of R126. -/
inductive Eng where
  | mxe | vxe | txe | gxe | fxe
  deriving DecidableEq, Repr

/-- Engine number (R126). -/
def Eng.num : Eng → Nat
  | .mxe => 0 | .vxe => 1 | .txe => 2 | .gxe => 3 | .fxe => 4

/-- The two grades (R4). -/
inductive Grade where
  | f | s
  deriving DecidableEq, Repr

/-- Fault causes (R371). -/
inductive Cause where
  | eccCorrected | eccUncorrectable | checkLaneMismatch | residueMismatch | signatureMismatch
  | bobbinUnderrun | bobbinOverrun | scopeMismatch | loopBound | absentEngine | scaleSpan | accumRange
  | frameOverrun | warpLate | linkDown | timeOffset | weftTimeout | accessDenied | queueStall
  | marginCritical | thermalLimit | powerLimit | skeinMismatch | fencedTarget | clockFault | controlParity
  deriving DecidableEq, Repr

/-- Value of a cause (table "Fault cause codes", R371). -/
def Cause.code : Cause → Byte
  | .eccCorrected => 0x01 | .eccUncorrectable => 0x02 | .checkLaneMismatch => 0x03 | .residueMismatch => 0x04
  | .signatureMismatch => 0x05 | .bobbinUnderrun => 0x06 | .bobbinOverrun => 0x07 | .scopeMismatch => 0x08
  | .loopBound => 0x09 | .absentEngine => 0x0A | .scaleSpan => 0x0B | .accumRange => 0x0C
  | .frameOverrun => 0x0D | .warpLate => 0x0E | .linkDown => 0x0F | .timeOffset => 0x10 | .weftTimeout => 0x11
  | .accessDenied => 0x12 | .queueStall => 0x13 | .marginCritical => 0x14 | .thermalLimit => 0x15
  | .powerLimit => 0x16 | .skeinMismatch => 0x17 | .fencedTarget => 0x18 | .clockFault => 0x19
  | .controlParity => 0x1A

/-- Fault classes (R373), with the codes of the fault record (R370). -/
inductive FaultClass where
  | corrected | contained | persistent | fatal
  deriving DecidableEq, Repr

/-- Class code of a fault record (R370). -/
def FaultClass.code : FaultClass → Byte
  | .corrected => 0 | .contained => 1 | .persistent => 2 | .fatal => 3

/-- Completion status codes (R355). -/
inductive Status where
  | done | doneRetried | abandonedFault | abandonedPreempt | abandonedReset | abandonedSkein
  | rejectedFormat | rejectedCapability | rejectedGeneration | rejectedState | rejectedLibrary
  | duplicate | timeout
  deriving DecidableEq, Repr

/-- Value of a status (table "Completion status codes", R355). -/
def Status.code : Status → Byte
  | .done => 0x00 | .doneRetried => 0x01 | .abandonedFault => 0x10 | .abandonedPreempt => 0x11
  | .abandonedReset => 0x12 | .abandonedSkein => 0x13 | .rejectedFormat => 0x20 | .rejectedCapability => 0x21
  | .rejectedGeneration => 0x22 | .rejectedState => 0x23 | .rejectedLibrary => 0x24 | .duplicate => 0x30
  | .timeout => 0x40

/-- Pass states, in the order of the table "Pass states" (before R218), which trace type 0x20 counts from 0 (R441). -/
inductive PassState where
  | queued | admitted | agreeing | running | gating | quiescing | complete
  deriving DecidableEq, Repr

/-- Code of a pass state in a trace entry (R441). -/
def PassState.code : PassState → Byte
  | .queued => 0 | .admitted => 1 | .agreeing => 2 | .running => 3 | .gating => 4 | .quiescing => 5 | .complete => 6

/-- Skein states with the codes of FAB_SKEIN_STATUS (R301). -/
inductive SkeinState where
  | none | forming | formed | detached | broken | dissolving
  deriving DecidableEq, Repr

/-- Code in FAB_SKEIN_STATUS.state. -/
def SkeinState.code : SkeinState → Byte
  | .none => 0 | .forming => 1 | .formed => 2 | .detached => 3 | .broken => 4 | .dissolving => 5

/-- Ring states (R350). -/
inductive RingState where
  | disabled | enabled | draining | error
  deriving DecidableEq, Repr

/-- Port states (FAB_PORT_STATUS, R251, R252). -/
inductive PortState where
  | disabled | training | weftOnly | full | down
  deriving DecidableEq, Repr

/-- Why a member has abandoned its attempt, as the table "Causes of a stop" groups the other members' statuses (R219, R221). -/
inductive PeerStop where
  /-- A contained fault. -/
  | fault
  /-- Forced pre-emption. -/
  | preempt
  /-- A reset. -/
  | reset
  /-- The pass watchdog. -/
  | watchdog
  deriving DecidableEq, Repr

/-- Bobbin states (R181, R182). -/
inductive BobState where
  | empty | filling | full | draining
  deriving DecidableEq, Repr

/-- Code in the bobbin state word (R181). -/
def BobState.code : BobState → Nat
  | .empty => 0 | .filling => 1 | .full => 2 | .draining => 3

/-- Generation states (table "Generation states", before R330). -/
inductive GenState where
  | prepared | loading | active | rolling | incomplete | retired
  deriving DecidableEq, Repr

/-- Code in ING_GEN_STATUS.state; RETIRED has none there and reads 0. -/
def GenState.code : GenState → Byte
  | .retired => 0 | .loading => 1 | .active => 2 | .rolling => 3 | .incomplete => 4 | .prepared => 5

/-- How a generation was committed (R331, R334 "the mode"). -/
inductive SwapMode where
  | staged | rolling
  deriving DecidableEq, Repr

/-- Core service states (FAB_CORE_STATE.state, R238). -/
inductive CoreSvc where
  | inService | fenced | bypassed | outOfService
  deriving DecidableEq, Repr

/-- Code in FAB_CORE_STATE.state. -/
def CoreSvc.code : CoreSvc → Byte
  | .inService => 0 | .fenced => 1 | .bypassed => 2 | .outOfService => 3

/-- Scopes in increasing order of extent (R194). Codes 5 to 7 are reserved and have no constructor. -/
inductive Scope where
  | engine | core | die | module | skein
  deriving DecidableEq, Repr

/-- Scope code (R194). -/
def Scope.code : Scope → Nat
  | .engine => 0 | .core => 1 | .die => 2 | .module => 3 | .skein => 4

/-- Module resets (table "Reset types", before R423) with the codes of PWR_RESET_CAUSE. -/
inductive ResetCause where
  | cold | perst | moduleWarm | keyedWarm | tamper | trip
  deriving DecidableEq, Repr

/-- Code in PWR_RESET_CAUSE.cause. -/
def ResetCause.code : ResetCause → Byte
  | .cold => 0 | .perst => 1 | .moduleWarm => 2 | .keyedWarm => 3 | .tamper => 4 | .trip => 5

/-- Tamper sensors with the codes of SEC_TAMPER.sensor (R401). -/
inductive TamperSensor where
  | rail | reference | temperature | lidMesh
  deriving DecidableEq, Repr

/-- Code in SEC_TAMPER.sensor. -/
def TamperSensor.code : TamperSensor → Byte
  | .rail => 1 | .reference => 2 | .temperature => 3 | .lidMesh => 4

/-- JTAG instructions (R455). -/
inductive JtagInstr where
  | bypass | idcode | samplePreload | extest | clamp | highz | extestPulse | extestTrain
  deriving DecidableEq, Repr

/-- Weft flit types (R228, R254). -/
inductive WType where
  | write | readReq | readReply | atomic | atomicReply | ack | increment | fencedTarget
  deriving DecidableEq, Repr

/-- Weft type code (R228). -/
def WType.code : WType → Nat
  | .write => 0 | .readReq => 1 | .readReply => 2 | .atomic => 3 | .atomicReply => 4 | .ack => 5
  | .increment => 6 | .fencedTarget => 7

/-- What a code check finds in one memory word (R177): a correctable error, or one that is detected and not
corrected. A word without a mark is free of error. -/
inductive EccMark where
  | correctable | uncorrectable
  deriving DecidableEq, Repr

/-- A weft flit: the header fields of R254 (module level) and R228 (mesh level), and the 64 payload bytes laid out
as the table "Weft payloads" (R265), byte i in bits [8i+7:8i]. -/
structure WeftFlit where
  kind : WType
  /-- Tag from the originator's pool, 14 bits (R266). -/
  tag : BitVec 14
  /-- Originating module for requests; the replying module for types 2, 4, 5 and 7 (R254). -/
  src : BitVec 12
  /-- Destination module; for replies, the module that originated the request (R254). -/
  dst : BitVec 12
  /-- 0 for the first transmission, then 1 to 3 (R254). -/
  attempt : BitVec 2
  /-- Links crossed before this one, 0 to 7 (R254). -/
  hops : BitVec 3
  /-- Mesh header src: originating core, or 1,728 + 24 × die + column (R228). -/
  srcNode : BitVec 11
  payload : BitVec 512
  /-- Errors that the memory code of the source carries with the data, by distance from its first byte (R101, R228). -/
  marks : List (Nat × EccMark) := []
  deriving DecidableEq, Repr

/-- A stitch message: type and 19 bytes (R259). -/
structure StitchMsg where
  mtype : Byte
  msg : BitVec 152
  deriving DecidableEq, Repr

/-- A latent single hardware fault of an engine's own logic (R364), by the check that detects it: the check
raises its fault when the next instruction whose result it covers issues. -/
inductive Upset where
  /-- Instruction word parity at issue, CONTROL_PARITY 0x05 (R129). -/
  | issueParity
  /-- VXE significand residue, RESIDUE_MISMATCH 0x01 (R99). -/
  | significand
  /-- VXE exponent and sign compare, RESIDUE_MISMATCH 0x02 (R99). -/
  | expSign
  /-- VXE function unit tables or residue, RESIDUE_MISMATCH 0x03 (R99). -/
  | functionUnit
  /-- TXE dual compute, RESIDUE_MISMATCH 0x08 (R101). -/
  | moveCompare
  /-- GXE duplicated networks or counters, RESIDUE_MISMATCH 0x09 (R112). -/
  | gatherCompare
  /-- FXE exact reduction residues, RESIDUE_MISMATCH 0x10 (R119). -/
  | fabricExact
  /-- FXE canonical reduction residues, RESIDUE_MISMATCH 0x11 (R119). -/
  | fabricCanon
  /-- MXE stagger parity, CHECK_LANE_MISMATCH 0x02 (R86). -/
  | stagger
  /-- MXE drain converters disagree, CHECK_LANE_MISMATCH 0x03 (R82). -/
  | converter
  /-- A flipped bit of the long accumulators, CHECK_LANE_MISMATCH 0x01 at the next compare (R85). -/
  | accumulator
  /-- One flipped bit of a vector register, ECC_CORRECTED 0x30 at its next read (R99). -/
  | vregSingle (v : Fin 64)
  /-- Two flipped bits of one lane word of a vector register, ECC_UNCORRECTABLE 0x30 at its next read (R99). -/
  | vregDouble (v : Fin 64)
  deriving DecidableEq, Repr

/-- A fault record (R370). The sequence number is given by the collector. -/
structure FaultRecord where
  timebase : W64
  frame : W64
  /-- Linear core index, 0x1000 + n for I/O die n, 0xFFFF for none. -/
  core : BitVec 16
  /-- Engine number, or 0xFF for none. -/
  engine : Byte
  cause : Cause
  detail : Byte
  cls : FaultClass
  /-- Attempt number, or 0xFF for no pass. -/
  attempt : Byte
  /-- Bits [3:0] function; bit 7 set when no pass was touched. -/
  function : Byte
  pass : W32
  seq : W32
  deriving DecidableEq, Repr

/-! ### The executable, as PROGRAM_LOAD reads it (R208 to R210)

The layouts of sections 0x03, 0x04, 0x07, 0x08, 0x0A to 0x0E are left open by the spec, so the command carries the
sections as structured data; the header fields and the section table are carried as they stand. -/

/-- Section table entry (R208). -/
structure SecEntry where
  stype : BitVec 16
  reserved : BitVec 16
  length : Nat
  offset : Nat
  deriving DecidableEq, Repr

/-- Executable header, 128 bytes (R208). -/
structure ExeHeader where
  magic : BitVec 32
  formatMajor : BitVec 16
  formatMinor : BitVec 16
  caps : BitVec 32
  libAbi : BitVec 16
  latVersion : BitVec 16
  libManifest : BitVec 256
  weightManifest : BitVec 256
  gridW : Nat
  gridH : Nat
  skeinSize : Nat
  pcMin : BitVec 8
  pcMax : BitVec 8
  flags : BitVec 8
  retries : BitVec 8
  grace : BitVec 16
  stall : BitVec 32
  passLimit : BitVec 32
  kernels : Nat
  coresMin : Nat
  coresMax : Nat
  reserved : BitVec 160
  deriving DecidableEq, Repr

/-- Kernel table entry (section 0x01). -/
structure KernelEntry where
  frames : Nat
  barrier : Nat
  deriving DecidableEq, Repr

/-- Member map entry (section 0x02): virtual module, nominal compute die, nominal local index. -/
structure MemberEntry where
  vmodule : Nat
  die : Nat
  localIdx : Nat
  deriving DecidableEq, Repr

/-- The five streams of one virtual core (section 0x03). -/
structure Streams where
  mxe : List W64
  vxe : List W64
  txe : List W64
  gxe : List W64
  fxe : List W64
  deriving DecidableEq, Repr

/-- One entry of the memory image section (0x04). -/
structure ImageEntry where
  vcore : Nat
  /-- 1 activation memory, 2 partial-sum memory. -/
  space : Nat
  offset : Nat
  data : List Byte
  /-- True when the entry runs past the end of its section (R218). -/
  pastEnd : Bool
  deriving DecidableEq, Repr

/-- One bobbin descriptor (section 0x05, R179) with its virtual core and bobbin number. -/
structure BobbinEntry where
  vcore : Nat
  number : Nat
  desc : BitVec 128
  deriving DecidableEq, Repr

/-- Warp entry (R210), with the virtual core that owns it and the attach column offset of its route record (R463),
and, for a receive entry of a reduction, the reduction entry number it feeds. -/
structure WarpEntry where
  vcore : Nat
  kind : Byte
  port : Nat
  peer : Nat
  frame : Nat
  firstSg : Nat
  firstPos : Nat
  flits : Nat
  perSg : Nat
  counter : Byte
  latClass : Nat
  /-- A reserved byte is not zero. -/
  reserved : Bool
  reduction : Option Nat
  deriving DecidableEq, Repr

/-- Collective entry (section 0x07, R113, R115): the completion counter of one FSCOL group. -/
structure CollEntry where
  counter : Byte
  /-- The group: the virtual module and virtual core of every contributor. -/
  group : List (Nat × Nat)
  /-- Operation and lane width of the group's FSCOLs, which a member on the way combines with (R260). -/
  op : Nat
  narrow : Bool
  /-- Child ports below which members contribute: virtual module and port (R260). -/
  subtrees : List (Nat × Nat)
  deriving DecidableEq, Repr

/-- One contributor of a reduction entry (R118): the virtual core, its node of the tree over n. -/
structure RedNode where
  /-- Virtual module that contributes. -/
  vmodule : Nat
  vcore : Nat
  first : Nat
  len : Nat
  deriving DecidableEq, Repr

/-- Reduction entry (section 0x08, R116 to R118). -/
structure RedEntry where
  /-- 1 exact (FRDX), 2 canonical (FRDC). -/
  kind : Nat
  counter : Byte
  /-- Tree length n of a canonical reduction. -/
  n : Nat
  /-- The contributors, in ascending reduction index. -/
  nodes : List RedNode
  /-- Virtual module of the entry's root. -/
  root : Nat
  /-- Virtual element index of the first element (R117). -/
  base : Nat
  deriving DecidableEq, Repr

/-- Barrier entry (R210): kernel, final, engines mask, predicted signatures of engines 0 to 4. -/
structure BarrierEntry where
  vcore : Nat
  kernel : Nat
  final : Nat
  engines : BitVec 8
  sig : List W32
  reservedZero : Bool
  deriving DecidableEq, Repr

/-- Output table entry (section 0x0A): host buffer, host byte offset, source range, in hashing order. -/
structure OutputEntry where
  buffer : Nat
  hostOffset : Nat
  vcore : Nat
  space : Nat
  offset : Nat
  length : Nat
  indexBase : W64
  deriving DecidableEq, Repr

/-- Input table entry (section 0x0B). -/
structure InputEntry where
  buffer : Nat
  hostOffset : Nat
  vcore : Nat
  space : Nat
  offset : Nat
  length : Nat
  deriving DecidableEq, Repr

/-- A persistent-write or retained region (sections 0x0C and 0x0D, R223). -/
structure RegionEntry where
  vcore : Nat
  space : Nat
  offset : Nat
  length : Nat
  deriving DecidableEq, Repr

/-- Adjacency table entry (section 0x0E): a TNBR pair with direction, or a TMRD rectangle origin and size. -/
structure AdjEntry where
  rectangle : Bool
  a : Nat
  b : Nat
  /-- Direction 0 to 3 for a pair (R100). -/
  dir : Nat
  /-- Width and height for a rectangle. -/
  dx : Nat
  dy : Nat
  deriving DecidableEq, Repr

/-- Tensor record (R320). -/
structure TensorRec where
  tensor : Nat
  kind : Nat
  fmt : Nat
  width : Nat
  flags : Nat
  entries : Nat
  entryBase : Nat
  sideBase : Nat
  entryStride : Nat
  sideStride : Nat
  scaleMin : Int
  scaleMax : Int
  deriving DecidableEq, Repr

/-- First and last kernel that read a weight block (section 0x0F, R321). -/
structure BlockUse where
  first : Nat
  last : Nat
  deriving DecidableEq, Repr

/-- A Derpex executable (R208, R209). -/
structure Exe where
  /-- The whole file as submitted, whose SHA-256 is the executable hash (R208). -/
  file : List Byte
  header : ExeHeader
  sections : List SecEntry
  kernels : List KernelEntry
  members : List MemberEntry
  streams : List Streams
  images : List ImageEntry
  bobbins : List BobbinEntry
  warps : List WarpEntry
  colls : List CollEntry
  reds : List RedEntry
  barriers : List BarrierEntry
  outputs : List OutputEntry
  inputs : List InputEntry
  persistent : List RegionEntry
  retained : List RegionEntry
  adjacency : List AdjEntry
  tensors : List TensorRec
  blockUse : List BlockUse
  /-- First 8 bytes of the SHA-256 over the slot-map, collective and reduction sections (R304). -/
  slotMapHash : W64
  deriving DecidableEq, Repr

/-- A route record of the load image (R463). -/
structure RouteRec where
  entry : Nat
  column : Nat
  reserved : Byte
  deriving DecidableEq, Repr

/-- The load image (R463). A load image of length 0 is `none` at the command. -/
structure LoadImage where
  magic : BitVec 32
  vmodule : Nat
  cores : List Nat
  routes : List RouteRec
  reserved : BitVec 32
  exec : BitVec 256
  deriving DecidableEq, Repr

/-! ### Library, manifests, generation lists, certificates -/

/-- Per-engine part of a manifest entry (R462). -/
structure LibEngine where
  entry : Nat
  start : Nat
  base : Nat
  perUnit : Nat
  deriving DecidableEq, Repr

/-- Library manifest entry (R152, R462). -/
structure LibEntry where
  number : Nat
  engines : BitVec 8
  loopDepth : Nat
  callDepth : Nat
  sizeReg : Byte
  maxN : Nat
  /-- Engines 0 to 4. -/
  eng : List LibEngine
  sRead : W32
  sWritten : W32
  aRead : BitVec 16
  aWritten : BitVec 16
  counters : Byte
  scratch : Nat
  caps : W32
  reservedZero : Bool
  deriving DecidableEq, Repr

/-- A library image as submitted (R462), with its bytes for signature and hash (R393). -/
structure LibImage where
  magic : BitVec 32
  minor : BitVec 16
  abi : BitVec 16
  routines : Nat
  manifestOff : Nat
  manifestLen : Nat
  bodyOff : Nat
  bodyLen : Nat
  reservedZero : Bool
  entries : List LibEntry
  body : List W64
  /-- The manifest's bytes, as they stand in the image (R462). -/
  manifestBytes : List Byte
  /-- Every byte before the key certificate (R393). -/
  signedBytes : List Byte
  /-- Key certificate of usage 0x02, 128 bytes and its signature (R391, R393). -/
  cert : List Byte
  signature : List Byte
  deriving DecidableEq, Repr

/-- Weight manifest (R320). -/
structure Manifest where
  magic : BitVec 32
  format : BitVec 16
  blocks : Nat
  shards : Nat
  vmodules : Nat
  copyLen : Nat
  reservedZero : Bool
  tensors : List TensorRec
  /-- The document's bytes, for its signature and hash. -/
  bytes : List Byte
  signature : List Byte
  deriving DecidableEq, Repr

/-- Shard entry of a generation list (R320). -/
structure ShardEntry where
  index : Nat
  block : Nat
  vmodule : Nat
  vcore : Nat
  offset : Nat
  sha : BitVec 256
  deriving DecidableEq, Repr

/-- Generation list (R320, R321). -/
structure GenList where
  magic : BitVec 32
  generation : BitVec 32
  manifest : BitVec 256
  count : Nat
  reservedZero : Bool
  entries : List ShardEntry
  bytes : List Byte
  signature : List Byte
  deriving DecidableEq, Repr

/-- Shard record as it lies in a staging slot (R322). -/
structure ShardRec where
  magic : BitVec 32
  generation : BitVec 32
  index : Nat
  mprefix : BitVec 128
  nonce : BitVec 96
  reservedZero : Bool
  ciphertext : List Byte
  tag : BitVec 128
  deriving DecidableEq, Repr

/-- One child of a distribution entry: its module and the virtual modules its subtree stores (R327). -/
structure DistChild where
  module : BitVec 12
  lo : Nat
  hi : Nat
  deriving DecidableEq, Repr

/-- The parts of a Vedihar request that every message carries (R358, R359). -/
structure Mbx where
  f : FnId
  major : Byte
  minor : Byte
  seq : W32
  /-- Host address of the response buffer. -/
  respAddr : W64
  /-- Length of the response buffer. -/
  respLen : Nat
  deriving DecidableEq, Repr

/-- What the start-up self-test finds (R227, R242, R245): the environment supplies it with the start-up commands. -/
structure SelfTest where
  fenced : List CoreId
  bypassed : List CoreId
  diesOut : List DieId
  /-- A link with more failed wires than spares (R227). -/
  linkBeyondRepair : Bool
  /-- The stitch hub of IO0 fails its self-test (R245). -/
  io0HubFails : Bool
  /-- Randomness drawn by ML-KEM.KeyGen (R398, R399). -/
  kemSeed : BitVec 512
  deriving DecidableEq, Repr

/-- The set-up registers a host write may name (R342). Register groups with a command of their own (SET_LOCK,
SET_PART, SET_FUNC, SET_QOS, rings, fence requests, ...) are written through that command. -/
inductive RegId where
  | setLock
  | setPart (p : PartId)
  | setFunc (f : FnId)
  | setQos (f : FnId)
  | rngDbr
  | rngPoll
  | rngSq (r : RingId)
  | rngCq (r : RingId)
  | irqMod (v : Fin 128)
  | clkTimeCtrl
  | clkStepReq
  | clkStretchCfg
  | pwrCap
  | pwrTempCfg
  | fabMeshMode
  | fabPortCtrl (n : PortId)
  | fabModuleId
  | fabWeftCfg
  | fabWeftRoute (m : Fin 4096)
  | fabStitchTree
  | fabStitchChildren
  | fabSkeinCfg
  | ingDistCfg
  | chkScrub
  | chkFenceCfg
  | obsCtrl
  | obsCntCfg (p : PartId) (i : Fin 6)
  | obsDye
  /-- A register address of PF BAR0 that no register has (R6). -/
  | reserved (offset : BitVec 24)
  deriving DecidableEq, Repr

/-- W1C flags (R342). -/
inductive W1c where
  | ingDistFailValid | chkScrubErrValid | secTamperNew
  deriving DecidableEq, Repr

/-- Which half of a latched 64-bit counter is read (R275, R298). -/
inductive TbReg where
  | timebaseLo | timebaseHi | frameLo | frameHi
  deriving DecidableEq, Repr

/-- Scrubbed memories of a core (R378). -/
inductive ScrubMem where
  | activation | partialSum | instruction
  deriving DecidableEq, Repr

/-- PLDM sensors that a subscription may name (R453). -/
inductive PldmSensor where
  | inVoltage | inCurrent | inPower | maxTj | dieTj (die : Fin 64) | moduleState
  deriving DecidableEq, Repr

end Sys2Proof
end

