-- ==== Sys2Proof/Syntax.lean ====
section
/-! DEFINITION. The commands of the module: one constructor per row of spec/opcode_table.json. An engine
instruction carries the modifier [55:48] and the operands [47:0] of its 64-bit word (R123), so that a reserved field
can reach the engine; a host or link event carries what the host memory or the link delivers with it. -/

namespace Sys2Proof

/-- How a weft flit reaches this module: over its own mesh, or as a link flit at a port (R254, R263). -/
inductive WeftVia where
  | mesh (flit : WeftFlit)
  /-- `free`: outputs that no other weft flit takes, of the I/O die (bit 0: into the mesh) and of the routers that the flit
  meets. -/
  | port (p : PortId) (hdr : W64) (payload : BitVec 512) (free : List (BitVec 5))
  deriving DecidableEq, Repr

/-- A core's join at its stitch node, with the node that finds a parity error in its word, if any (R243, R245). -/
structure CoreJoin where
  core : CoreId
  parity : Option CoreId
  deriving DecidableEq, Repr

/-- What a weft flit meets on its way: the outputs that no other weft flit takes, router by router, and the node that finds a
parity error in its header, if any (R228, R233). -/
structure MeshOuts where
  free : List (BitVec 5)
  parity : Option CoreId
  deriving DecidableEq, Repr

/-- A delivery entry of a core's hold buffer (R230), with the node on the way of its flit that finds a parity error in the
header, if any (R228). -/
structure HoldEntry where
  entry : Fin 128
  parity : Option CoreId
  deriving DecidableEq, Repr

/-- A core at one of its kernel cycles. -/
structure CoreCycle where
  core : CoreId
  cycle : Nat
  deriving DecidableEq, Repr

/-- A port's time sample, with the frame epoch of the peer, which a child takes from its parent (R305). -/
structure PeerTime where
  port : PortId
  epoch : W64
  deriving DecidableEq, Repr

/-- A port's abandon notice, with the reason at the member that stopped the pass (R219). -/
structure PeerNotice where
  port : PortId
  why : PeerStop
  deriving DecidableEq, Repr

/-- What the exchange of alignment flits measures, in ns: the round trip and the peer's turnaround (R251). -/
structure Alignment where
  roundTrip : Nat
  turnaround : Nat
  deriving DecidableEq, Repr

/-- A latched register, read so many ticks after the start of the current slot group (R275). -/
structure TimedRead where
  reg : TbReg
  ticks : Nat
  deriving DecidableEq, Repr

/-- The commands. -/
inductive Instr where
  -- Matrix engine (R69): core, modifier [55:48], operands [47:0]
  /-- MCFG -/
  | mcfg (c : CoreId) (m : Byte) (w : BitVec 48)
  /-- MDCFG -/
  | mdcfg (c : CoreId) (m : Byte) (w : BitVec 48)
  /-- MLW -/
  | mlw (c : CoreId) (m : Byte) (w : BitVec 48)
  /-- MMUL -/
  | mmul (c : CoreId) (m : Byte) (w : BitVec 48)
  /-- MLDL -/
  | mldl (c : CoreId) (m : Byte) (w : BitVec 48)
  /-- MDRN -/
  | mdrn (c : CoreId) (m : Byte) (w : BitVec 48)
  /-- MDRNL -/
  | mdrnl (c : CoreId) (m : Byte) (w : BitVec 48)
  /-- MCLR -/
  | mclr (c : CoreId) (m : Byte) (w : BitVec 48)
  -- Vector engine (R93)
  /-- VLD -/
  | vld (c : CoreId) (m : Byte) (w : BitVec 48)
  /-- VST -/
  | vst (c : CoreId) (m : Byte) (w : BitVec 48)
  /-- VADD -/
  | vadd (c : CoreId) (w : BitVec 48)
  /-- VSUB -/
  | vsub (c : CoreId) (w : BitVec 48)
  /-- VMUL -/
  | vmul (c : CoreId) (w : BitVec 48)
  /-- VMIN -/
  | vmin (c : CoreId) (w : BitVec 48)
  /-- VMAX -/
  | vmax (c : CoreId) (w : BitVec 48)
  /-- VFMA -/
  | vfma (c : CoreId) (m : Byte) (w : BitVec 48)
  /-- VCMP -/
  | vcmp (c : CoreId) (m : Byte) (w : BitVec 48)
  /-- VSEL -/
  | vsel (c : CoreId) (m : Byte) (w : BitVec 48)
  /-- VINT -/
  | vint (c : CoreId) (m : Byte) (w : BitVec 48)
  /-- VCVT -/
  | vcvt (c : CoreId) (m : Byte) (w : BitVec 48)
  /-- VFN -/
  | vfn (c : CoreId) (m : Byte) (w : BitVec 48)
  /-- VRED -/
  | vred (c : CoreId) (m : Byte) (w : BitVec 48)
  /-- VBCAST -/
  | vbcast (c : CoreId) (m : Byte) (w : BitVec 48)
  /-- VTOS -/
  | vtos (c : CoreId) (m : Byte) (w : BitVec 48)
  -- Move engine (R100)
  /-- TCPY -/
  | tcpy (c : CoreId) (m : Byte) (w : BitVec 48)
  /-- TTILE -/
  | ttile (c : CoreId) (m : Byte) (w : BitVec 48)
  /-- TSHUF -/
  | tshuf (c : CoreId) (m : Byte) (w : BitVec 48)
  /-- TCVT -/
  | tcvt (c : CoreId) (m : Byte) (w : BitVec 48)
  /-- TQNT -/
  | tqnt (c : CoreId) (m : Byte) (w : BitVec 48)
  /-- TNBR -/
  | tnbr (c : CoreId) (m : Byte) (w : BitVec 48)
  /-- TMRD -/
  | tmrd (c : CoreId) (m : Byte) (w : BitVec 48)
  -- Gather engine (R108)
  /-- GROWS -/
  | grows (c : CoreId) (m : Byte) (w : BitVec 48)
  /-- GTOPK -/
  | gtopk (c : CoreId) (m : Byte) (w : BitVec 48)
  /-- GDISP -/
  | gdisp (c : CoreId) (m : Byte) (w : BitVec 48)
  -- Fabric engine (R113)
  /-- FSEND -/
  | fsend (c : CoreId) (m : Byte) (w : BitVec 48)
  /-- FRECV -/
  | frecv (c : CoreId) (m : Byte) (w : BitVec 48)
  /-- FSCOL -/
  | fscol (c : CoreId) (m : Byte) (w : BitVec 48)
  /-- FRDX -/
  | frdx (c : CoreId) (m : Byte) (w : BitVec 48)
  /-- FRDC -/
  | frdc (c : CoreId) (m : Byte) (w : BitVec 48)
  /-- FWPUT -/
  | fwput (c : CoreId) (m : Byte) (w : BitVec 48)
  /-- FWGET -/
  | fwget (c : CoreId) (m : Byte) (w : BitVec 48)
  /-- FWATM -/
  | fwatm (c : CoreId) (m : Byte) (w : BitVec 48)
  -- Control instructions (R133), for any engine
  /-- NOP -/
  | nop (c : CoreId) (e : Eng) (m : Byte) (w : BitVec 48)
  /-- PAD -/
  | pad (c : CoreId) (e : Eng) (m : Byte) (w : BitVec 48)
  /-- LOOP -/
  | loop (c : CoreId) (e : Eng) (m : Byte) (w : BitVec 48)
  /-- ENDLOOP -/
  | endloop (c : CoreId) (e : Eng) (m : Byte) (w : BitVec 48)
  /-- CALL -/
  | call (c : CoreId) (e : Eng) (m : Byte) (w : BitVec 48)
  /-- RET -/
  | ret (c : CoreId) (e : Eng) (m : Byte) (w : BitVec 48)
  /-- WAIT -/
  | wait (c : CoreId) (e : Eng) (m : Byte) (w : BitVec 48)
  /-- SIGNAL -/
  | signal (c : CoreId) (e : Eng) (m : Byte) (w : BitVec 48)
  /-- RELEASE -/
  | release (c : CoreId) (e : Eng) (m : Byte) (w : BitVec 48)
  /-- ACQUIRE -/
  | acquire (c : CoreId) (e : Eng) (m : Byte) (w : BitVec 48)
  /-- BARRIER -/
  | barrier (c : CoreId) (e : Eng) (m : Byte) (w : BitVec 48)
  -- Register instructions (R131), for any engine
  /-- SSET -/
  | sset (c : CoreId) (e : Eng) (m : Byte) (w : BitVec 48)
  /-- SOP -/
  | sop (c : CoreId) (e : Eng) (m : Byte) (w : BitVec 48)
  /-- SOPI -/
  | sopi (c : CoreId) (e : Eng) (m : Byte) (w : BitVec 48)
  /-- ASET -/
  | aset (c : CoreId) (e : Eng) (m : Byte) (w : BitVec 48)
  /-- AADD -/
  | aadd (c : CoreId) (e : Eng) (m : Byte) (w : BitVec 48)
  /-- SLD -/
  | sld (c : CoreId) (e : Eng) (m : Byte) (w : BitVec 48)
  /-- SST -/
  | sst (c : CoreId) (e : Eng) (m : Byte) (w : BitVec 48)
  /-- SRD -/
  | srd (c : CoreId) (e : Eng) (m : Byte) (w : BitVec 48)
  -- Core events
  /-- ABSENT_ENGINE_DELIVERY -/
  | absentEngineDelivery (c : CoreId) (e : Eng) (word : W64)
  /-- STALL_LIMIT_EXPIRY -/
  | stallLimitExpiry (c : CoreId) (e : Eng)
  /-- GRACE_WINDOW_EXPIRY -/
  | graceWindowExpiry (c : CoreId) (e : Eng)
  /-- RELEASE_APPLY -/
  | releaseApply (c : CoreId) (e : Eng)
  /-- CORE_BARRIER_JOIN -/
  | coreBarrierJoin (c : CoreJoin)
  -- Mesh, weft and warp events
  /-- WEFT_INJECTION -/
  | weftInjection (c : CoreId) (cycle : Nat) (outs : MeshOuts)
  /-- WARP_DELIVERY -/
  | warpDelivery (c : CoreId) (entry : HoldEntry)
  /-- WEFT_ACCESS_LAND -/
  | weftAccessLand (c : CoreCycle)
  /-- CORE_QUEUE_TIMEOUT -/
  | coreQueueTimeout (c : CoreId)
  /-- WARP_FLIT_ARRIVAL -/
  | warpFlitArrival (p : PortId) (hdr : W64) (payload : BitVec 512)
  /-- WARP_DEADLINE -/
  | warpDeadline (p : PortId) (frame : Nat) (sg : Fin 100) (pos : Fin 44)
  /-- WEFT_WRITE -/
  | weftWrite (v : WeftVia)
  /-- WEFT_READ_REQUEST -/
  | weftReadRequest (v : WeftVia)
  /-- WEFT_READ_REPLY -/
  | weftReadReply (v : WeftVia)
  /-- WEFT_ATOMIC -/
  | weftAtomic (v : WeftVia)
  /-- WEFT_ATOMIC_REPLY -/
  | weftAtomicReply (v : WeftVia)
  /-- WEFT_ACKNOWLEDGEMENT -/
  | weftAcknowledgement (v : WeftVia)
  /-- WEFT_COUNTER_INCREMENT -/
  | weftCounterIncrement (v : WeftVia)
  /-- FENCED_TARGET_REPLY -/
  | fencedTargetReply (v : WeftVia)
  /-- WEFT_TIMEOUT_EXPIRY -/
  | weftTimeoutExpiry (tag : BitVec 14)
  /-- WEFT_LIFETIME_EXPIRY -/
  | weftLifetimeExpiry (tag : BitVec 14)
  /-- REPLAY_ENTRY_EXPIRY -/
  | replayEntryExpiry (src : BitVec 12) (tag : BitVec 14)
  -- Stitch and skein events: the port holds what its latest stitch flit carried
  /-- STITCH_FLIT_RECEIVE: `ticks` from the start of the current slot group to the arrival -/
  | stitchFlitReceive (p : PortId) (ticks : Nat) (hdr : W64) (payload : BitVec 512)
  /-- TIME_SAMPLE -/
  | timeSample (p : PeerTime)
  /-- TIME_SAMPLE_LOSS -/
  | timeSampleLoss
  /-- ABANDON_NOTICE -/
  | abandonNotice (p : PeerNotice)
  /-- STEP_ANNOUNCEMENT -/
  | stepAnnouncement (p : PortId)
  /-- BARRIER_JOIN -/
  | barrierJoin (p : PortId)
  /-- BARRIER_RESULT -/
  | barrierResult (p : PortId)
  /-- FSCOL_CONTRIBUTION -/
  | fscolContribution (p : PortId)
  /-- FSCOL_RESULT -/
  | fscolResult (p : PortId)
  /-- PASS_OFFER -/
  | passOffer (p : PortId)
  /-- AGREEMENT_RECORD_PART -/
  | agreementRecordPart (p : PortId)
  /-- FORMED -/
  | formed (p : PortId)
  /-- REFUSED -/
  | refused (p : PortId)
  /-- LEAVE -/
  | leave (p : PortId)
  /-- READMIT -/
  | readmit (p : PortId)
  /-- BROKEN -/
  | broken (p : PortId)
  /-- DISSOLVE -/
  | dissolve (p : PortId)
  /-- FORMATION_TIMEOUT -/
  | formationTimeout
  /-- AUTO_REJOIN -/
  | autoRejoin
  -- Clock, time and port events
  /-- SLOT_GROUP_START -/
  | slotGroupStart
  /-- FRAME_START -/
  | frameStart
  /-- BARRIER_JOIN_DEADLINE -/
  | barrierJoinDeadline (f : FnId)
  /-- STEP_FRAME -/
  | stepFrame
  /-- STRETCH -/
  | stretch (r : RegionId) (cycle : Nat) (replica : Bool)
  /-- STRETCH_TOKEN -/
  | stretchToken (r : RegionId) (cycle : Nat)
  /-- LOCK_MONITOR_FAULT -/
  | lockMonitorFault (r : Option RegionId)
  /-- TIME_IN_EDGE: `ticks` from the start of the current slot group to the edge -/
  | timeInEdge (ticks highNs riseNs : Nat)
  /-- TIME_OUT_PULSE -/
  | timeOutPulse
  /-- PORT_DOWN -/
  | portDown (p : PortId)
  /-- PORT_TRAINING_COMPLETE -/
  | portTrainingComplete (p : PortId) (delay : Alignment) (fecClean : Bool)
  /-- MESH_MODE_CHANGE -/
  | meshModeChange
  -- Host rings and descriptors
  /-- DOORBELL_POLL -/
  | doorbellPoll (f : FnId) (tails heads : List W64) (mbxAddr mbxSeq : W64)
  /-- DESCRIPTOR_FETCH -/
  | descriptorFetch (f : FnId) (r : RingId) (d : BitVec 512)
  /-- NOP_DESCRIPTOR -/
  | nopDescriptor (f : FnId) (r : RingId) (i : BitVec 12)
  /-- PASS_SUBMIT -/
  | passSubmit (f : FnId) (r : RingId) (i : BitVec 12) (bufs : List W64)
  /-- PROGRAM_LOAD -/
  | programLoad (f : FnId) (r : RingId) (i : BitVec 12) (x : Exe) (img : Option LoadImage)
  /-- WEIGHT_SHARD -/
  | weightShard (f : FnId) (r : RingId) (i : BitVec 12) (rec : Option ShardRec)
  /-- GEN_COMMIT_STAGED -/
  | genCommitStaged (f : FnId) (r : RingId) (i : BitVec 12)
  /-- GEN_COMMIT_ROLLING -/
  | genCommitRolling (f : FnId) (r : RingId) (i : BitVec 12)
  /-- GEN_COMMIT_ABORT -/
  | genCommitAbort (f : FnId) (r : RingId) (i : BitVec 12)
  /-- FENCE -/
  | fence (f : FnId) (r : RingId) (i : BitVec 12)
  /-- COPY -/
  | copy (f : FnId) (r : RingId) (i : BitVec 12) (data : List Byte)
  /-- SKEIN_CTL_FORM -/
  | skeinCtlForm (f : FnId) (r : RingId) (i : BitVec 12) (plan : List (BitVec 12))
  /-- SKEIN_CTL_DISSOLVE -/
  | skeinCtlDissolve (f : FnId) (r : RingId) (i : BitVec 12)
  /-- SKEIN_CTL_PREEMPT -/
  | skeinCtlPreempt (f : FnId) (r : RingId) (i : BitVec 12)
  /-- SKEIN_CTL_RESUME -/
  | skeinCtlResume (f : FnId) (r : RingId) (i : BitVec 12)
  -- Pass lifecycle
  /-- PREEMPT_DEADLINE -/
  | preemptDeadline (f : FnId)
  /-- PASS_ADMIT -/
  | passAdmit (p : PartId)
  /-- PASS_AGREE -/
  | passAgree (f : FnId)
  /-- MEMORY_IMAGE_LOAD -/
  | memoryImageLoad (f : FnId) (inputs : List (List Byte)) (images : List ImageEntry)
  /-- FINAL_GATE -/
  | finalGate (f : FnId)
  /-- GATE_RESULT -/
  | gateResult (f : FnId)
  /-- OUTPUT_WRITE_ERROR -/
  | outputWriteError (f : FnId)
  /-- QUIESCE_COMPLETE -/
  | quiesceComplete (f : FnId)
  /-- PASS_WATCHDOG -/
  | passWatchdog (f : FnId)
  -- Integrity
  /-- FAULT_RECORD_DELIVERY -/
  | faultRecordDelivery (d : Fin 16)
  /-- DIE_HEARTBEAT -/
  | dieHeartbeat (d : Fin 16)
  /-- HEARTBEAT_TIMEOUT -/
  | heartbeatTimeout (d : Fin 16)
  /-- FATAL_FAULT -/
  | fatalFault (cause : Cause) (detail : Byte) (core : BitVec 16)
  /-- WEIGHT_SCRUB_READ -/
  | weightScrubRead (c : CoreId) (word : Fin 1572864)
  /-- MEMORY_SCRUB_READ -/
  | memoryScrubRead (c : CoreId) (mem : ScrubMem) (word : Nat)
  -- Weight ingest
  /-- SHARD_RECORD_PROCESS -/
  | shardRecordProcess (d : IoDie) (slot : Fin 15)
  /-- SHARD_WRITE -/
  | shardWrite (d : IoDie) (slot : Fin 15)
  /-- SHARD_COMMIT -/
  | shardCommit (d : IoDie) (slot : Fin 15)
  /-- INGEST_REQUEST -/
  | ingestRequest (d : IoDie) (notice : BitVec 128)
  /-- INGEST_READY -/
  | ingestReady (d : IoDie) (notice : BitVec 128)
  /-- INGEST_ACK -/
  | ingestAck (d : IoDie) (notice : BitVec 128)
  /-- INGEST_NACK -/
  | ingestNack (d : IoDie) (notice : BitVec 128)
  /-- REQUEST_TIMEOUT -/
  | requestTimeout (f : FnId) (gen : W32) (index : Nat)
  /-- TEASEL_ZEROING_COMPLETE -/
  | teaselZeroingComplete (f : FnId) (weight : Bool)
  -- Power, start-up and resets
  /-- POWER_SAMPLE -/
  | powerSample (mv tenMa : Nat)
  /-- TEMPERATURE_SAMPLE -/
  | temperatureSample (t : List (Int × Int))
  /-- POWER_WISH_EVALUATION -/
  | powerWishEvaluation
  /-- LOCAL_STEP -/
  | localStep
  /-- RAIL_EXCURSION -/
  | railExcursion (rail : Fin 7)
  /-- TAMPER_EVENT -/
  | tamperEvent (sensor : TamperSensor) (place : Byte)
  /-- INPUT_GOOD -/
  | inputGood (st : SelfTest)
  /-- INPUT_LOST -/
  | inputLost
  /-- PERST_ASSERT -/
  | perstAssert
  /-- PERST_DEASSERT -/
  | perstDeassert (st : SelfTest)
  /-- FLR -/
  | flr (f : FnId)
  /-- WARM_RESET_START -/
  | warmResetStart (kemSeed : BitVec 512)
  /-- TREE_GENERATION_COMPLETE -/
  | treeGenerationComplete
  /-- DUMP_LATCH -/
  | dumpLatch
  /-- IRQ_DELAY_EXPIRY -/
  | irqDelayExpiry (f : FnId) (v : Fin 128)
  -- Vedihar messages
  /-- DIE_IDENTITY_RECORDS -/
  | dieIdentityRecords (q : Mbx)
  /-- CERTIFICATE_CHAIN -/
  | certificateChain (q : Mbx)
  /-- ENCAPSULATION_KEY -/
  | encapsulationKey (q : Mbx)
  /-- ATTESTATION_REPORT -/
  | attestationReport (q : Mbx) (nonce : BitVec 256) (fn : Byte)
  /-- LIBRARY_LOAD -/
  | libraryLoad (q : Mbx) (img : LibImage)
  /-- LIBRARY_QUERY -/
  | libraryQuery (q : Mbx)
  /-- WEIGHT_SESSION_OPEN -/
  | weightSessionOpen (q : Mbx)
  /-- OWNER_KEY -/
  | ownerKey (q : Mbx) (key : List Byte)
  /-- WEIGHT_MANIFEST -/
  | weightManifest (q : Mbx) (doc : Manifest)
  /-- GENERATION_LIST -/
  | generationList (q : Mbx) (doc : GenList)
  /-- WRAPPED_KEY -/
  | wrappedKey (q : Mbx) (gen : W32) (ct : List Byte)
  /-- DISTRIBUTION_ENTRY -/
  | distributionEntry (q : Mbx) (gen : W32) (parent : Option (BitVec 12)) (children : List DistChild)
  /-- WEIGHT_SESSION_CLOSE -/
  | weightSessionClose (q : Mbx)
  /-- MODULE_WARM -/
  | moduleWarm (q : Mbx)
  /-- KEYED_WARM -/
  | keyedWarm (q : Mbx)
  /-- RETENTION_TICKET -/
  | retentionTicket (q : Mbx) (gen : W32) (ct : List Byte)
  /-- SKEIN_RESET -/
  | skeinReset (q : Mbx)
  /-- DEBUG_CHALLENGE -/
  | debugChallenge (q : Mbx)
  /-- DEBUG_UNLOCK -/
  | debugUnlock (q : Mbx) (challenge : BitVec 256) (serial : W64) (mask : W32) (sig cert : List Byte)
  /-- DUMP_BUFFER_SETUP -/
  | dumpBufferSetup (q : Mbx) (addr : W64) (slots : Nat)
  /-- LOG_RING_SETUP -/
  | logRingSetup (q : Mbx) (addr : W64) (log2 : Nat)
  /-- TRACE_RING_SETUP -/
  | traceRingSetup (q : Mbx) (addr : W64) (log2 : Nat) (mask : Byte)
  /-- OBSERVATION_QUERY -/
  | observationQuery (q : Mbx)
  -- Host register and window accesses
  /-- SET_LOCK_WRITE -/
  | setLockWrite (f : FnId) (v : Bool)
  /-- SET_PART_WRITE -/
  | setPartWrite (f : FnId) (p : PartId) (v : W32)
  /-- SET_FUNC_WRITE -/
  | setFuncWrite (w : FnId) (f : FnId) (v : W64)
  /-- SET_QOS_APPLY -/
  | setQosApply (p : PartId)
  /-- RING_ENABLE -/
  | ringEnable (f : FnId) (cq : Bool) (r : RingId)
  /-- RING_DISABLE -/
  | ringDisable (f : FnId) (cq : Bool) (r : RingId)
  /-- FENCE_REQ -/
  | fenceReq (c : CoreId)
  /-- BYPASS_REQ -/
  | bypassReq (c : CoreId)
  /-- OOS_REQ -/
  | oosReq (d : DieId)
  /-- PORT_RETRAIN -/
  | portRetrain (p : PortId)
  /-- CHK_FAULT_CLEAR -/
  | chkFaultClear
  /-- W1C_CLEAR -/
  | w1cClear (flag : W1c)
  /-- TIMEBASE_READ -/
  | timebaseRead (reg : TimedRead)
  /-- OBS_CNT_CFG_APPLY -/
  | obsCntCfgApply
  /-- REGISTER_WRITE -/
  | registerWrite (f : FnId) (reg : RegId) (v : BitVec 128)
  /-- HOST_WINDOW_READ -/
  | hostWindowRead (f : FnId) (offset : BitVec 36) (len : Nat)
  /-- HOST_WINDOW_WRITE -/
  | hostWindowWrite (f : FnId) (offset : BitVec 36) (data : List Byte)
  /-- STAGING_SLOT_WRITE -/
  | stagingSlotWrite (f : FnId) (d : IoDie) (slot : Fin 15) (rec : ShardRec)
  -- Sideband and JTAG
  /-- PLDM_SENSOR_READ -/
  | pldmSensorRead (sensor : PldmSensor)
  /-- PLDM_FRU_READ -/
  | pldmFruRead
  /-- PLDM_EVENT_SUBSCRIPTION -/
  | pldmEventSubscription (sensor : PldmSensor)
  /-- CHANNEL_SELECTOR_WRITE -/
  | channelSelectorWrite (b : Byte)
  /-- BYPASS -/
  | bypass
  /-- IDCODE -/
  | idcode
  /-- SAMPLE_PRELOAD -/
  | samplePreload
  /-- EXTEST -/
  | extest
  /-- CLAMP -/
  | clamp
  /-- HIGHZ -/
  | highz
  /-- EXTEST_PULSE -/
  | extestPulse
  /-- EXTEST_TRAIN -/
  | extestTrain
  -- Further steps
  /-- WEFT_FORWARD -/
  | weftForward (v : WeftVia)
  /-- INTERRUPT_ALLOWANCE_RENEWAL -/
  | interruptAllowanceRenewal (f : FnId)
  /-- ENTROPY_HEALTH_TEST -/
  | entropyHealthTest (passes : Bool)
  /-- TAMPER_CONDITION_END -/
  | tamperConditionEnd (st : SelfTest)
  /-- TAP_RESET -/
  | tapReset (idcode : Bool) (st : SelfTest)
  /-- VF_ENABLE -/
  | vfEnable (n : Fin 16)
  deriving DecidableEq, Repr

end Sys2Proof
end

