-- ==== Sys2Proof/Decode.lean ====
section
/-! DEFINITION. Commands by word. The rows of the opcode table give no bits, since the commands of this block are events
and register accesses and an engine instruction has its word as an operand: no word spells a command. -/

namespace Sys2Proof

/-- The command that the `nbits` low bits `w` spell by the opcode table: none, since no row of the table gives bits. -/
def decodeTableWord (_nbits _w : Nat) : Option Instr := none

end Sys2Proof
end

