-- ==== Sys2Proof/Machine/Bits.lean ====
section
/-! DEFINITION. Bit fields, sign extension, little-endian bytes and list helpers that the other files share. -/

namespace Sys2Proof.Machine

/-- Field of `len` bits from bit `lo` up, as a number. -/
def fld {n : Nat} (w : BitVec n) (lo len : Nat) : Nat := (w.toNat >>> lo) % 2 ^ len

/-- Bit `i`. -/
def bitAt {n : Nat} (w : BitVec n) (i : Nat) : Bool := w.getLsbD i

/-- Two's complement value of the low `n` bits of `v`. -/
def sext (n v : Nat) : Int :=
  if v % 2 ^ n < 2 ^ (n - 1) then ((v % 2 ^ n : Nat) : Int) else ((v % 2 ^ n : Nat) : Int) - ((2 ^ n : Nat) : Int)

/-- Two's complement pattern of `n` bits of an integer. -/
def wrap (n : Nat) (v : Int) : Nat := (v % ((2 ^ n : Nat) : Int)).toNat

/-- `n` bytes of a number, little-endian (R123). -/
def leBytes : Nat → Nat → List Byte
  | 0, _ => []
  | n + 1, v => BitVec.ofNat 8 v :: leBytes n (v / 256)

/-- The number that little-endian bytes spell (R123). -/
def leNat : List Byte → Nat
  | [] => 0
  | b :: t => b.toNat + 256 * leNat t

/-- `n` bytes of a number, big-endian. -/
def beBytes (n v : Nat) : List Byte := (leBytes n v).reverse

/-- The list cut into pieces of `k`, `n` of them at most; a last shorter piece is kept. -/
def chunks {α : Type} (k : Nat) : Nat → List α → List (List α)
  | 0, _ => []
  | _ + 1, [] => []
  | n + 1, l => l.take k :: chunks k n (l.drop k)

/-- The list with `d` appended up to length `n`, and cut to it. -/
def padTo {α : Type} (n : Nat) (d : α) (l : List α) : List α := (l ++ List.replicate (n - l.length) d).take n

/-- Element `i`, or `d` beyond the end. -/
def nth {α : Type} (d : α) : List α → Nat → α
  | [], _ => d
  | a :: _, 0 => a
  | _ :: t, i + 1 => nth d t i

/-- The list with element `i` replaced; a list shorter than `i` stays. -/
def setNth {α : Type} (a : α) : List α → Nat → List α
  | [], _ => []
  | _ :: t, 0 => a :: t
  | b :: t, i + 1 => b :: setNth a t i

/-- Bits of a natural number: 0 for 0, else the position of the top bit plus 1. -/
def bitLen (n : Nat) : Nat := if n = 0 then 0 else Nat.log2 n + 1

/-- Quotient rounded up. -/
def ceilDiv (a b : Nat) : Nat := (a + b - 1) / b

/-- Numbers of the set bits of a mask below `n`, ascending. -/
def setBits (n : Nat) (mask : Nat) : List Nat := (List.range n).filter fun i => mask.testBit i

/-- XOR of the bits of a number, over `n` bits. -/
def parityOf (n v : Nat) : Bool := (List.range n).foldl (fun p i => xor p (v.testBit i)) false

end Sys2Proof.Machine
end

