-- ==== Sys2Proof/Config.lean ====
section
/-! DEFINITION. What an implementation fixes and the spec does not give: values that the spec leaves open (free
values, of which nothing is known), the fused identity of one module, and the cryptographic functions that the spec
takes from published standards by name (AES-256-GCM, ML-KEM-1024, HSS, the DRBG), which stay uninterpreted. -/

namespace Sys2Proof.Config

/-- A free value: the n-th value of the kind `kind` that the spec leaves undefined or does not state. -/
opaque freeValue : Nat → Nat → W64

/-- Free value for the result of an operation on operands for which the spec states none. -/
opaque unstated : Nat → W64 → W64 → W64

/-- Whether underflow is detected before rounding; IEEE 754 leaves it to the implementation and the spec is silent (R53). -/
opaque tininessBefore : Bool
/-- Whether a fused multiply-add of zero times infinity with a quiet NaN addend signals invalid (IEEE 754 leaves it open). -/
opaque fmaSignals : Bool
/-- Whether a conversion to integer signals inexact (IEEE 754 has both operations; the spec names none, R52). -/
opaque intConvertSignals : Bool
/-- Whether an ordered comparison with a quiet NaN signals invalid (IEEE 754 has both; the spec names none, R52). -/
opaque compareSignals : Bool

/-- Path latency class in frames of the slowest stitch route of the skein, which no register gives the root (R310, R316). -/
opaque stitchClass : Nat

/-- Fused 64-bit module serial (R389). -/
opaque moduleSerial : W64
/-- Fused 256-bit identity seed (R389). -/
opaque identitySeed : BitVec 256
/-- Fused SHA-256 of the Narbotra root HSS public key (R391). -/
opaque rootHash : BitVec 256
/-- Fab, lot, wafer and position bits [53:0] of the identity record of a package die (R388). -/
opaque dieMark : Nat → BitVec 54
/-- Test bin bits of the identity record of a package die (R388). -/
opaque dieBin : Nat → BitVec 8
/-- Which of the local indices still left becomes the next spare of an S-grade compute die (R13). -/
opaque sparePick : Nat → Nat → Nat
/-- Fused core-rail target in mV for a period code, within the fused floor and ceiling (R410). -/
opaque railTarget : Nat → Nat
/-- The Narbotra root HSS public key, whose hash the fuses hold (R391). -/
opaque rootKey : List Byte
/-- Payload of the response to a library query, for the n-th free value: no rule lays it out (R359). -/
opaque libraryInfo : Nat → List Byte
/-- Module certificate and manufacturing certificate stored in MRAM (R392). -/
opaque moduleCert : List Byte
/-- Manufacturing certificate stored in MRAM (R392). -/
opaque mfgCert : List Byte
/-- HSS public key of the module, 60 bytes, derived from the identity seed (R390). -/
opaque moduleKey : List Byte

/-- AES-256-GCM decryption and tag check: key, nonce, additional data, ciphertext, tag (R322, R324). -/
opaque gcmOpen : BitVec 256 → BitVec 96 → List Byte → List Byte → BitVec 128 → Option (List Byte)
/-- AES-256-GCM encryption: the ciphertext followed by the 16-byte tag (R402). -/
opaque gcmSeal : BitVec 256 → BitVec 96 → List Byte → List Byte → List Byte
/-- ML-KEM-1024 key generation of FIPS 203: the 1,568-byte encapsulation key (R398). -/
opaque kemPublic : BitVec 512 → List Byte
/-- ML-KEM-1024 decapsulation of FIPS 203 with the key pair of a seed: the 32-byte shared secret (R322). -/
opaque kemDecap : BitVec 512 → List Byte → BitVec 256
/-- HSS signature verification under the parameter sets of R391: public key, message, signature. -/
opaque hssVerify : List Byte → List Byte → List Byte → Bool
/-- HSS signature of the module with one leaf of one second-level tree (R390, R394): 3,604 bytes. -/
opaque hssSign : BitVec 256 → Nat → Nat → List Byte → List Byte
/-- Output n of the CTR_DRBG with AES-256 (R399). -/
opaque drbg : Nat → BitVec 256

end Sys2Proof.Config
end

