-- ==== Sys2Proof/Machine/AMap.lean ====
section
/-! DEFINITION. Sparse data by key: a list of (key, value) pairs with strictly rising keys, in which no entry equals
the value that an unlisted key reads as. Memories, core states, register files and pools are held this way. -/

namespace Sys2Proof

/-- A sparse map from natural numbers. -/
abbrev AMap (α : Type) := List (Nat × α)

/-- The value at key `k`; an unlisted key reads as `d`. -/
def AMap.get {α : Type} (d : α) : AMap α → Nat → α
  | [], _ => d
  | (k', v) :: t, k => if k' = k then v else AMap.get d t k

/-- The map without any entry at key `k`. -/
def AMap.erase {α : Type} (k : Nat) : AMap α → AMap α
  | [] => []
  | (k', v) :: t => if k' = k then AMap.erase k t else (k', v) :: AMap.erase k t

/-- Put an entry in front of the first entry with a larger key. -/
def AMap.ins {α : Type} (k : Nat) (v : α) : AMap α → AMap α
  | [] => [(k, v)]
  | (k', v') :: t => if k < k' then (k, v) :: (k', v') :: t else (k', v') :: AMap.ins k v t

/-- The map with the value `v` at key `k`, in canonical form: the default removes the entry. -/
def AMap.set {α : Type} [DecidableEq α] (d : α) (m : AMap α) (k : Nat) (v : α) : AMap α :=
  if v = d then AMap.erase k m else AMap.ins k v (AMap.erase k m)

/-- The map with `f` applied at key `k`. -/
def AMap.upd {α : Type} [DecidableEq α] (d : α) (m : AMap α) (k : Nat) (f : α → α) : AMap α :=
  AMap.set d m k (f (AMap.get d m k))

/-- Every key is above `k`. -/
def AMap.above {α : Type} (k : Nat) : AMap α → Bool
  | [] => true
  | (k', _) :: t => decide (k < k') && AMap.above k t

/-- The canonical form: strictly rising keys, no entry equal to the default. -/
def AMap.wf {α : Type} [DecidableEq α] (d : α) : AMap α → Bool
  | [] => true
  | (k, v) :: t => AMap.above k t && decide (v ≠ d) && AMap.wf d t

/-- The listed entries whose keys and values satisfy `p`. -/
def AMap.keep {α : Type} (p : Nat → α → Bool) (m : AMap α) : AMap α :=
  m.filter fun kv => p kv.1 kv.2

/-- The map with `f` applied to every listed value. -/
def AMap.each {α : Type} [DecidableEq α] (d : α) (f : α → α) : AMap α → AMap α
  | [] => []
  | (k, v) :: t => if f v = d then AMap.each d f t else (k, f v) :: AMap.each d f t

end Sys2Proof
end

