-- ==== Sys2Proof/Machine/State.lean ====
section
/-! DEFINITION. The state of one Avmir 1728 module, as plain data, and its value at reset. Each field's docstring gives
the rule that names it; the reset value is the one of the spec's register tables or, where a log entry is named, the
model's. -/

namespace Sys2Proof.Machine

/-- Reasons for which a step stops with a fault. Every fault of the spec is a fault RECORD and a next state; this type
holds only what the model itself cannot place. -/
inductive Fault where
  /-- Raised by no command of this model: the spec gives the module no behaviour outside its tables. Safe. -/
  | unreachable
  deriving DecidableEq, Repr

/-- Reasons for which a command is refused. -/
inductive Refusal where
  /-- No meaning yet: raised by a refused arm of exec only. Safe. -/
  | notModelled (mnemonic : String)
  /-- A payload list whose length is not the one the spec's layout fixes is no command of the table: raised by the
  commands that carry such a list. Safe. -/
  | illFormed
  deriving DecidableEq, Repr

/-! ### Registers with a result latency -/

/-- A register whose results become visible at a cycle (R94, R131): the settled value, and results with the cycle from
which they are visible, in issue order. -/
structure TReg (α : Type) where
  /-- The settled value. -/
  base : α
  /-- Results that are not yet visible: the cycle and the value. -/
  pend : List (Nat × α)
  deriving DecidableEq, Repr

/-- A pending result of a vector register (R94). -/
structure VPend where
  /-- Cycle from which the result is visible. -/
  due : Nat
  /-- True for VRED, which writes lane 0 only (R98). -/
  lane0 : Bool
  lanes : List W32
  deriving DecidableEq, Repr

/-- A vector register: 64 lanes of 32 bits (R93 preamble), lane i at position i; a missing lane reads 0. -/
structure VReg where
  /-- The settled lanes (R93). -/
  base : List W32
  pend : List VPend
  deriving DecidableEq, Repr

/-! ### Engines -/

/-- What an engine does (R128, R141, R219). -/
inductive EngMode where
  /-- Holds no program in this pass, or no pass runs on the core. -/
  | idle
  /-- Issues instructions. -/
  | running
  /-- Has issued a BARRIER; true when it was the final one (R141). -/
  | barrier (final : Bool)
  /-- Halted by an abandon, a fence or a fatal fault (R219, R238, R376). -/
  | halted
  deriving DecidableEq, Repr

/-- What the instruction at the head of a queue waits for (R128). -/
inductive WaitKind where
  /-- A counter below the threshold of a WAIT or ACQUIRE (R135). -/
  | counter
  /-- A bobbin that refuses (R184), with the lowest refusing bobbin number, the smallest grace window among the refusing
  ones, and whether the engine is its consumer. -/
  | bobbin (b grace : Nat) (consumer : Bool)
  /-- A busy resource: full weft injection queue (R235). -/
  | busy
  deriving DecidableEq, Repr

/-- One active hardware loop (R143 to R149). -/
structure LoopFrame where
  /-- Word address of the first body word. -/
  start : BitVec 15
  /-- Body length in words. -/
  len : Nat
  /-- Iterations still to start after the current one. -/
  remaining : Nat
  /-- Number of the current iteration (R148). -/
  iter : Nat
  /-- Register that receives the iteration number, if iw = 1 (R148). -/
  iw : Option (Fin 32)
  /-- Register-counted: the body folds into an iteration signature (R149). -/
  counted : Bool
  /-- Signature register of the enclosing level, restored at the exit of a register-counted loop. -/
  outer : W32
  /-- Signature value of the first iteration (R149). -/
  first : Option W32
  deriving DecidableEq, Repr

/-- A RELEASE that has issued and not taken effect (R196). -/
structure PendRelease where
  /-- Address of the counter (R137). -/
  addr : MAddr
  module : BitVec 12
  /-- Scope and increment of the instruction (R133, R137). -/
  scope : Scope
  inc : Nat
  /-- Cycle in which the local events of the earlier instructions have completed. -/
  ready : Nat
  /-- Weft operations it waits for (R196). -/
  cover : List Nat
  /-- A SIGNAL that waits for weft operations (R106, R134): it does not count among the eight releases of R197. -/
  signal : Bool
  /-- Queue cycle of the instruction. -/
  issued : Nat
  deriving DecidableEq, Repr

/-- One engine's queue, registers and counters. -/
structure Engine where
  /-- What the engine does (R128, R141, R219). -/
  mode : EngMode
  /-- Program counter, 15-bit word address (R127). -/
  pc : BitVec 15
  /-- Kernel cycle in which the instruction at the head may issue at the earliest (R128, R139). -/
  next : Nat
  /-- Kernel cycle by which every local access of the issued instructions has completed (R134, R196). -/
  done : Nat
  /-- Kernel cycle of the last scheduled warp arrival at a distance: 2 same die, 3 same module, 4 skein (R195, R196). -/
  doneFar : AMap Nat
  /-- Kernel cycle from which the engine's busy resource is free: vector path (R80), function unit (R93). -/
  free : Nat
  /-- What the head waits for, and the cycle in which it reached the head (R138, R184). -/
  wait : Option (WaitKind × Nat)
  /-- Cycles waited under R184, by the kernel frame in which the wait began (R186, R289). -/
  waited : AMap Nat
  /-- Scalar registers S0 to S31, 32 bits (R130). -/
  sregs : AMap (TReg W32)
  /-- Address registers A0 to A15, 48 bits (R130). -/
  aregs : AMap (TReg MAddr)
  /-- Control-flow signature register (R142). -/
  sig : W32
  /-- Active loops, innermost first (R147). -/
  loops : List LoopFrame
  /-- Return addresses of active calls, innermost first (R155). -/
  calls : List (BitVec 15)
  /-- Pending releases, oldest first, at most 8 (R197). -/
  releases : List PendRelease
  /-- Kernel cycle in which the engine's latest RELEASE or waiting SIGNAL was applied or sent (R196). -/
  relAt : Nat
  /-- Weft operations of this engine that have not completed (R196, R203). -/
  openOps : List Nat
  /-- Dye LFSR, 32 bits (R443). -/
  lfsr : W32
  /-- A latent hardware fault of the engine (R364), or none. -/
  upset : Option Upset
  deriving DecidableEq, Repr

/-! ### Matrix engine -/

/-- MCFG configuration (R69, R461), with the anchor taken at its queue cycle (R70). -/
structure MCfg where
  /-- Formats of weights and activations (R69). -/
  fw : Nat
  fa : Nat
  /-- Weight and activation scales (R69). -/
  sw : Bool
  sa : Bool
  /-- Width code (R69). -/
  width : Nat
  /-- Destination is the partial-sum SRAM (R69). -/
  psm : Bool
  /-- Anchor (R70). -/
  q : Int
  deriving DecidableEq, Repr

/-- MDCFG configuration (R82, R461), with the register values taken at its queue cycle (R70). -/
structure DCfg where
  /-- Output format, rounding and overflow code (R82). -/
  fmt : Nat
  rnd : Nat
  ovf : Nat
  /-- Shift, stochastic seed and index (R82, R47). -/
  shift : Int
  seed : W64
  idx : W64
  /-- Strides of tokens and DPUs (R82). -/
  stok : W32
  sdpu : W32
  deriving DecidableEq, Repr

/-- One latch entry of the DPUs and the check lane: the latch entry image and the side image that the latest MLW read
(R64, R79), and how far they reach. What they leave unfilled is undefined (R62): free values, told apart by `stamp`. -/
structure Latch where
  /-- DPUs filled, and bytes per DPU. -/
  rows : Nat
  rowBytes : Nat
  /-- Check words filled, and scale codes per DPU. -/
  checks : Nat
  codes : Nat
  /-- The latch entry image and the side image (R64). -/
  elems : List Byte
  side : List Byte
  /-- Tells the free values of one fill from those of another: the model's own field. -/
  stamp : Nat
  deriving DecidableEq, Repr

/-- A long accumulator (R35): the exact value num × 2^exp, the span and the term count. -/
structure Acc where
  /-- Exact value num × 2^exp. -/
  num : Int
  exp : Int
  /-- Smallest and largest exponent of the terms: the span (R35). -/
  emin : Option Int
  emax : Option Int
  /-- Terms added (R35). -/
  terms : Nat
  /-- Anchor of the long value it was loaded from (R42). -/
  loaded : Option Int
  deriving DecidableEq, Repr

/-- The pass that a core runs (R216, R218). -/
structure Job where
  /-- Function of the pass. -/
  fn : FnId
  /-- Key of the pass in State.passes. -/
  pass : Nat
  /-- Virtual core that this core plays, and the kernel that runs (R216). -/
  vcore : Nat
  kernel : Nat
  deriving DecidableEq, Repr

/-- An activation vector of an MMUL, as read (R78): it meets the latch contents of its own issue cycle (R79). -/
structure MVec where
  /-- Issue cycle, and the cycles waited in its frame. -/
  at' : Nat
  waited : Nat
  /-- Latch entry. -/
  entry : Nat
  /-- Accumulator, or PSM row number. -/
  dest : Nat
  /-- The vector opens its accumulator or row (R73). -/
  opens : Bool
  /-- Elements, scale word and configuration as read (R78). -/
  elems : List Byte
  scale : Nat
  cfg : MCfg
  /-- The pass that issued it. -/
  job : Job
  deriving DecidableEq, Repr

/-- The matrix engine's own state. -/
structure Mxe where
  /-- MCFG and MDCFG configuration (R69, R82, R461). -/
  cfg : MCfg
  dcfg : DCfg
  /-- Latch entries 0 to 3, with the cycle from which a vector meets a fill (R79). -/
  latch : AMap (TReg Latch)
  /-- Vectors that later latch fills may still precede (R79), in issue order. -/
  vecs : List MVec
  /-- Cycle from which an MMUL may follow a drain (R80). -/
  stall : Nat
  /-- Accumulator a of DPU d at key 4 × d + a. -/
  acc : AMap Acc
  /-- Check accumulators 0 to 3 (R84). -/
  chk : AMap Nat
  /-- Open accumulators (R73). -/
  accOpen : List Nat
  /-- Check residue buffer, 512 entries (R84). -/
  rowChk : AMap Nat
  /-- Open PSM rows (R73). -/
  rowOpen : List Nat
  deriving DecidableEq, Repr

/-! ### Core-level synchronisation and queues -/

/-- An increment of a sync counter that applies in a kernel cycle (R134 to R136). -/
structure CInc where
  /-- Cycle in which it applies. -/
  cyc : Nat
  /-- Engine number; an increment from outside the core counts as 4 (R136). -/
  eng : Nat
  amount : Nat
  /-- Tag that it writes (R133, R198). -/
  scope : Scope
  originCore : Nat
  originModule : BitVec 12
  deriving DecidableEq, Repr

/-- A sync counter (R133): the settled word, and the increments that a WAIT may still come before (R135). -/
structure Counter where
  /-- Count (R133). -/
  count : Nat
  /-- Scope and origin of the latest increment (R133, R194). -/
  scope : Scope
  originCore : Nat
  originModule : BitVec 12
  /-- Increments by rising cycle; within a cycle the lowest engine number comes last (R136). -/
  pend : List CInc
  deriving DecidableEq, Repr

/-- A bobbin's live state (R181), with the cycles from which its changes are visible (R183). -/
structure Bobbin where
  /-- State, occupancy count and cycle count (R181). -/
  state : BobState
  count : Nat
  cycles : Nat
  /-- State before the changes listed. -/
  was : BobState
  /-- Changes that an evaluation may still come before: the first cycle in which each is visible (R183). -/
  trans : List (Nat × BobState)
  deriving DecidableEq, Repr

/-- A fault that falls due in a cycle of the kernel: it is recorded once the core has passed that cycle (R88, R219, R460). -/
structure TFault where
  /-- Cycle in which it is raised. -/
  cyc : Nat
  /-- Core and engine of its record (R370). -/
  core : Nat
  eng : Option Eng
  cause : Cause
  detail : Byte
  deriving DecidableEq, Repr

/-- A warp flit on its way to a core, held at its router for its delivery cycle (R230): where it was injected and when,
its destination address, its data and the rules that it lands under. -/
structure HeldWarp where
  /-- Node of the injection: a core, or 1,728 + 24 × die + column (R228). -/
  src : Nat
  /-- Injection cycle and delivery cycle (R230). -/
  inj : Nat
  due : Nat
  /-- Key of the pass that scheduled it. -/
  pass : Nat
  /-- Destination address and data. -/
  addr : MAddr
  data : List Byte
  /-- Errors that the code of the source carries with the data, by distance from its first byte (R101, R228). -/
  marks : List (Nat × EccMark) := []
  /-- Bobbin that the flit lands in (FRECV), the flit's number and the entry's last flit number. -/
  bobbin : Option (Nat × Nat × Nat)
  /-- Slot-map entry of a receive flit. -/
  entry : Option Nat
  deriving DecidableEq, Repr

/-- Kinds of access in the core queue of R174. -/
inductive QKind where
  | write | read | atomic | hostRead | hostWrite
  deriving DecidableEq, Repr

/-- An access in the core queue (R174). -/
structure QAccess where
  /-- What the access does. -/
  kind : QKind
  /-- Absolute module address. -/
  addr : Nat
  data : List Byte
  len : Nat
  /-- The request that the access answers. -/
  flit : Option WeftFlit
  /-- Host function of a window access. -/
  fn : FnId
  deriving DecidableEq, Repr

/-- A weft flit that waits for injection (R106, R120, R235). -/
structure OutFlit where
  flit : WeftFlit
  /-- Kernel cycle from which it may enter the injection queue (R106). -/
  start : Nat
  eng : Eng
  /-- Weft operation (instruction) that it belongs to. -/
  op : Nat
  /-- Local address that a reply is written to, if any. -/
  localAddr : Option MAddr
  deriving DecidableEq, Repr

/-- A warp send or receive entry that FSEND or FRECV has armed (R114), with the core's bobbin. -/
structure Armed where
  entry : Nat
  send : Bool
  bobbin : Nat
  /-- Numbers of send flits that a router will discard (R229). -/
  lost : List Nat := []
  deriving DecidableEq, Repr

/-- A write that has issued and lands in a later kernel cycle (R188, R191): a reader in cycle t sees it when it landed
before t. -/
structure MWrite where
  /-- Cycle in which it lands. -/
  land : Nat
  /-- Absolute module address. -/
  addr : Nat
  data : List Byte
  /-- Engine number of its port claim (R173): 4 for a scheduled arrival, 5 for an access of the queue of R174. -/
  eng : Nat
  deriving DecidableEq, Repr

/-- A row in the merge buffer of a core (R176). -/
structure MergedRow where
  /-- Absolute address, cycle of the read and the row (R176). -/
  addr : Nat
  cyc : Nat
  data : List Byte
  deriving DecidableEq, Repr

/-- Port cycles that an access has been given (R173): port `port` in cycles start, start + step, ..., n of them. Ports:
0 activation read, 1 activation write, 2 neighbour access, 3 side port and 4 element port of the weight slice, 10 + b and 50 + b the read and write ports of partial-sum
bank b, 100 + l weight layer l. -/
structure Claim where
  port : Nat
  start : Nat
  step : Nat
  n : Nat
  /-- Engine number; arrivals count as 4. -/
  eng : Nat
  deriving DecidableEq, Repr

/-- Observation counters of a core (R432). -/
structure Obs where
  /-- Cycle counter: the value frozen when the core left service, else none (R432). -/
  frozen : Option W64
  /-- Programmable counters 0 to 5, 48 bits. -/
  prog : AMap (BitVec 48)
  /-- Per counter in edge mode, the spans of cycles in which its event's count was non-zero, apart from each other (R433). -/
  spans : AMap (List (Nat × Nat))
  /-- Overflow flags of counters 0 to 5 since the previous dump (R434). -/
  ovf : List Nat
  /-- Ledger counter of engine e and column k at key 4e + k, 48 bits (R436). -/
  ledger : AMap (BitVec 48)
  /-- Lost-attempt counter, 64 bits (R437). -/
  lost : W64
  deriving DecidableEq, Repr

/-- One core. -/
structure Core where
  /-- FAB_CORE_STATE.state (R238). -/
  svc : CoreSvc
  /-- FAB_CORE_STATE.cause: fault cause that fenced the core, or 0. -/
  cause : Byte
  /-- The matrix engine's queue, registers and counters (R126, R130). -/
  mxeQ : Engine
  /-- The vector engine's. -/
  vxeQ : Engine
  /-- The move engine's. -/
  txeQ : Engine
  /-- The gather engine's. -/
  gxeQ : Engine
  /-- The fabric engine's. -/
  fxeQ : Engine
  /-- The matrix engine's own state (R461). -/
  mx : Mxe
  /-- Vector registers V0 to V63. -/
  vregs : AMap VReg
  /-- Gather index buffer, 16 KiB (R108). -/
  gIndex : List W32
  /-- Gather key buffer, 16 KiB (R108). -/
  gKey : List W32
  /-- Sync counters 0 to 63 (R133). -/
  counters : AMap Counter
  /-- Bobbin state words 0 to 255 (R181). -/
  bobbins : AMap Bobbin
  /-- Queue of weft and host-window accesses, at most 8 (R174). -/
  queue : List QAccess
  /-- Granule that a weft atomic holds between its read and its write, and the kernel cycle of the write (R205). -/
  atomicHold : Option (Nat × Nat)
  /-- Flits of issued instructions that have not entered the injection queue, in order (R106, R231). -/
  staged : List OutFlit
  /-- Weft injection queue, at most 16 flits, each request with its tag (R235, R266). -/
  injq : List OutFlit
  /-- Kernel cycle in which the injection queue last took the flits that an instruction waited for (R106, R235). -/
  room : Nat
  /-- Warp hold buffer of the router: the flit with delivery cycle d lies in entry d mod 128 (R230). -/
  hold : List HeldWarp
  /-- Merge buffer: rows with their absolute address, the cycle of the read and the row as read (R176). -/
  merge : List MergedRow
  /-- Armed warp entries (R114). -/
  armed : List Armed
  /-- Writes that have issued and not landed, in issue order (R188). -/
  mpend : List MWrite
  /-- Port cycles claimed that a later instruction may still meet (R173). -/
  claims : List Claim
  /-- Faults of issued instructions that fall due in later cycles (R88, R460). -/
  faults : List TFault
  /-- Flits of reduction segments received so far, per reduction entry (R117). -/
  redBuf : AMap (List (List Byte))
  /-- The pass that the core runs, if any. -/
  job : Option Job
  /-- Joined the current barrier (R203). -/
  joined : Bool
  /-- Observation counters (R432 to R437). -/
  obs : Obs
  deriving DecidableEq, Repr

/-! ### Weft at the module -/

/-- An outstanding weft transaction (R266 to R268). -/
structure Txn where
  /-- Core and engine that asked (R266). -/
  core : CoreId
  eng : Eng
  /-- Function and attempt of the pass it belongs to. -/
  fn : FnId
  pass : Nat
  /-- Weft operation that it belongs to. -/
  op : Nat
  /-- The request as sent, with the latest attempt number. -/
  flit : WeftFlit
  /-- Local address that the reply is written to, if any. -/
  localAddr : Option MAddr
  /-- Transmissions so far, 0 while it waits for its first (R235), and the timebase of the latest (R267, R268). -/
  sent : Nat
  at' : Nat
  /-- The first reply has been accepted (R267). -/
  replied : Bool
  /-- The attempt was abandoned: no retransmission (R219). -/
  dead : Bool
  deriving DecidableEq, Repr

/-- A weft operation: one instruction's transactions (R120, R196). -/
structure WOp where
  /-- Core and engine of the instruction. -/
  core : CoreId
  eng : Eng
  /-- Transactions that have not completed, injected or not. -/
  left : Nat
  /-- Distance of the destination as a scope code (R195), 0 for reads, which every scope counts (R196). -/
  far : Nat
  /-- Sync counter incremented at completion (R120), or none. -/
  counter : Option Nat
  /-- Dye record that is written at completion (R443). -/
  dye : Option (List Byte)
  deriving DecidableEq, Repr

/-- A replay record entry (R269). -/
structure Replay where
  /-- Requesting module and tag (R269). -/
  src : BitVec 12
  tag : BitVec 14
  /-- False for writes, which may be evicted. -/
  keep : Bool
  /-- The stored reply, or none while the atomic is pending. -/
  reply : Option WeftFlit
  /-- Timebase at which the entry was stored. -/
  at' : Nat
  deriving DecidableEq, Repr

/-! ### Ports, regions, time -/

/-- A warp flit waiting in a port's hold buffer (R258). -/
structure PortWarp where
  /-- Frame, slot group and position in which it arrived (R255, R258). -/
  frame : Nat
  sg : Nat
  pos : Nat
  /-- Its 64 bytes. -/
  payload : BitVec 512
  deriving DecidableEq, Repr

/-- The time block of the latest stitch flit (R259, R279). -/
structure TimeBlk where
  /-- tx_time. -/
  t1 : W64
  /-- Timebase at its arrival. -/
  t2 : W64
  /-- echo_time, echo delay and residence (R279). -/
  t3 : W64
  echoDelay : W32
  residence : W32
  /-- Frame, slot group and flags of the sender (R259). -/
  frame : W32
  sg : Byte
  flags : Byte
  deriving DecidableEq, Repr

/-- One Felvas port. -/
structure Port where
  /-- FAB_PORT_STATUS.state. -/
  state : PortState
  /-- FAB_PORT_STATUS.fit. -/
  fit : Bool
  /-- FAB_PORT_STATUS.delay in ns. -/
  delay : BitVec 16
  /-- Warp service on a skein: it returns only once the skein forms (R251, R281). -/
  warpOn : Bool
  /-- tx_time of the latest stitch flit received, and the timebase at its arrival (R259). -/
  echo : Option (W64 × W64)
  /-- Parts of the latest stitch flit that have not been taken. -/
  rxTime : Option TimeBlk
  /-- Abandon fields: pass number and attempt (R219, R259). -/
  rxAbandon : Option (W32 × Byte)
  /-- Step fields: period code and step frame (R294). -/
  rxStep : Option (Byte × W32)
  /-- Message of the latest flit (R261). -/
  rxMsg : Option StitchMsg
  /-- Sender of the latest stitch flit (R254). -/
  rxSender : BitVec 12
  /-- Flags byte of the latest stitch flit. -/
  rxFlags : Byte
  /-- Wish received from a time child on this port (R294). -/
  childWish : BitVec 5
  /-- Messages waiting for the port's message slot (R261). -/
  msgs : List StitchMsg
  /-- Warp hold buffer (R258). -/
  warp : List PortWarp
  /-- Positions at which a flit was discarded for a header mismatch, counted as absent (R258). -/
  mismatched : List (Nat × Nat × Nat)
  /-- Positions whose deadline has passed in the current slot group: a flit of theirs comes too late (R258). -/
  passed : List (Nat × Nat × Nat)
  /-- Training has not found a peer: the port stays down (R249). -/
  absent : Bool
  /-- Weft ingress queue, 32 flits (R264). -/
  ingress : List WeftFlit
  /-- Weft egress queue, 16 flits (R264). -/
  egress : List WeftFlit
  /-- The eight counts of the port record (R439). -/
  counts : AMap W64
  deriving DecidableEq, Repr

/-- One clock region (R283, R286, R291). -/
structure Region where
  /-- Stretches taken in the current frame. -/
  stretches : Nat
  /-- Largest grace charge, in cycles, of its cores whose pass has ended in the current frame (R186). -/
  ended : Nat
  /-- Cycle of the latest stretch (R287). -/
  last : Option Nat
  /-- Stretches of the last 256 frames, newest first (R293). -/
  history : List Nat
  /-- Stretched periods since the last module reset, 48 bits (R439). -/
  total : BitVec 48
  /-- Largest guard account of one frame since the previous dump, in half cycles (R439). -/
  maxGuard : Nat
  /-- Frames whose guard account exceeded 32 cycles (R439). -/
  over32 : W32
  /-- FRAME_OVERRUN faults (R439). -/
  overruns : BitVec 16
  deriving DecidableEq, Repr

/-- CLK_TIME_STATUS.state. -/
inductive TimeState where
  | freeRunning | acquiring | locked | holdover
  deriving DecidableEq, Repr

/-- The timebase, the frame sequence and the period (R275 to R282, R294). -/
structure Clock where
  /-- Timebase in ticks (R275). -/
  timebase : W64
  /-- The 32 fraction bits (R275). -/
  fraction : W32
  /-- CLK_TIME_STATUS.state (R279, R281). -/
  state : TimeState
  /-- Within tolerance (R280). -/
  tol : Bool
  /-- Latest theta in ticks, saturating (CLK_TIME_STATUS.theta). -/
  theta : BitVec 16
  /-- Integrator of the correction law in ppm (R279). -/
  integ : Rat
  /-- DCO offset in ppm (R279). -/
  dco : Rat
  /-- Consecutive samples beyond 128 ticks (R281). -/
  bad : Nat
  /-- Every sample of the current frame was within 64 ticks, and how many there were (R280). -/
  frameTol : Bool
  samples : Nat
  /-- Whole frames within tolerance in a row (R303, R316). -/
  tolFrames : Nat
  /-- Slot groups since the latest valid parent sample (R281). -/
  sinceSample : Nat
  /-- Current frame number (CLK_FRAME). -/
  frame : W64
  /-- Start of the current frame in ticks, T[f] (R276). -/
  frameStart : W64
  /-- Current slot group, 0 to 99 (R255); 100 between a frame start and its slot group 0. -/
  sg : Nat
  /-- Starts of the latest frames before the current one, newest first, at most 4: number, start tick, period code. -/
  starts : List (Nat × Nat × Nat)
  /-- After a phase jump, until the parent's period code is known: tx_time and slot group count of a parent flit (R416). -/
  joining : Option (Nat × Nat)
  /-- Frame epoch of the time domain in ticks (R305). -/
  epoch : W64
  /-- CLK_PERIOD.current. -/
  period : BitVec 5
  /-- CLK_PERIOD.pending: announced code. -/
  pending : BitVec 5
  /-- CLK_PERIOD.announced. -/
  announced : Bool
  /-- CLK_PERIOD.step_frame, with its upper bits. -/
  stepFrame : W64
  /-- High halves latched by reading the low halves (CLK_TIMEBASE, CLK_FRAME). -/
  tbHigh : W32
  frHigh : W32
  /-- The latest announcement that the module has not accepted: frame and code (R295). -/
  rejected : Option (W64 × Nat)
  /-- Timebase at the latest accepted TIME_IN edge (R456). -/
  lastEdge : Option W64
  /-- Warp service withdrawn by a time fault (R281). -/
  warpLost : Bool
  /-- Clocked cycles of the regions since the last module reset (R432). -/
  clocked : W64
  deriving DecidableEq, Repr

/-! ### Functions -/

/-- A submission ring's live part of RNG_SQ. -/
structure Sq where
  /-- RNG_SQ.state (R350). -/
  state : RingState
  /-- RNG_SQ.head (R351). -/
  head : BitVec 12
  /-- Tail record as the module last read it (R348). -/
  tail : Nat
  deriving DecidableEq, Repr

/-- A completion ring's live part of RNG_CQ. -/
structure Cq where
  /-- RNG_CQ.state (R350). -/
  state : RingState
  /-- RNG_CQ.tail and the phase bit of the next entry (R354). -/
  tail : BitVec 12
  phase : Bool
  /-- Head record as the module last read it (R348). -/
  head : Nat
  /-- Entries reserved by fetched descriptors (R351). -/
  reserved : Nat
  /-- Completions since the last message (R360). -/
  unsignalled : Nat
  /-- Timebase of the oldest of them. -/
  oldest : Option W64
  deriving DecidableEq, Repr

/-- What a fetched descriptor waits for. -/
inductive DescPhase where
  /-- Fetched, not executed. -/
  | fetched
  /-- Executing: its completion follows (a queued pass, a waiting fence, copy, commit, form, preempt or shard). -/
  | executing
  /-- A duplicate that waits for the original's final status (R356). -/
  | duplicate
  deriving DecidableEq, Repr

/-- A fetched descriptor, which holds a tag and a completion entry (R351). -/
structure Fetched where
  /-- Submission ring, position and the 64 bytes (R351, R352). -/
  ring : RingId
  index : BitVec 12
  desc : BitVec 512
  /-- What it waits for. -/
  phase : DescPhase
  /-- Fetch order, which FENCE compares (R353). -/
  order : Nat
  deriving DecidableEq, Repr

/-- A loaded executable (R213, R214). -/
structure Loaded where
  /-- The executable as parsed (R208 to R212). -/
  exe : Exe
  /-- Virtual module of this member. -/
  vmodule : Nat
  /-- Physical core of each virtual core of this member, with its virtual core index. -/
  place : List (Nat × Nat)
  /-- Routes of its slot map on this member (R213, R230). -/
  routes : List RouteRec
  /-- Stall limit, default grace window and pass limit after clamping (R138, R180, R224). -/
  stall : Nat
  grace : Nat
  passLimit : Nat
  deriving DecidableEq, Repr

/-- A generation of a function, with its part of the commit record (R331, R334). -/
structure Gen where
  /-- Generation number (R331). -/
  gen : W32
  /-- ING_GEN_STATUS.state (R331). -/
  state : GenState
  /-- Swap mode and the half of the weight region it lies in (R331, R332). -/
  mode : SwapMode
  copy : Nat
  /-- Shards of the generation list (R322). -/
  entries : List ShardEntry
  /-- Content key (R322), volatile. -/
  key : Option (BitVec 256)
  /-- Ticket key (R402), volatile. -/
  ticketKey : Option (BitVec 256)
  /-- Committed blocks and shards. -/
  blocks : List Nat
  shards : List Nat
  /-- Blocks that ingest has begun to write (R332). -/
  begun : List Nat
  /-- Physical core of each committed shard, by shard index (R427). -/
  homes : List (Nat × Nat)
  /-- State to which a scrub finding's repair returns, and the blocks that it waits for (R377). -/
  back : Option GenState
  lost : List Nat
  /-- Descriptor whose completion the last block writes (R331). -/
  desc : Option (RingId × BitVec 12)
  /-- The list has been accepted (after KEYED_WARM the record stands without it). -/
  listed : Bool
  deriving DecidableEq, Repr

/-- A region in SCRUBBING (R404): the function whose SEC_SCRUB shows it, the space, the SET_PART value of its partition,
base and size in bytes when it entered. -/
structure Scrub where
  fn : FnId
  space : Nat
  part : BitVec 128
  base : Nat
  size : Nat
  deriving DecidableEq, Repr

/-- Retention record (R402). -/
structure Retention where
  /-- Hash of the ticket, generation and manifest hash (R402). -/
  ticketHash : BitVec 256
  gen : W32
  manifest : BitVec 256
  /-- The ticket has been presented since the KEYED_WARM (R403). -/
  presented : Bool
  /-- Where the retained copy lies, and w_base and w_size in bytes, once KEYED_WARM has kept it (R425). -/
  home : Option (Scrub × Nat × Nat)
  deriving DecidableEq, Repr

/-- A weight session (R320). -/
structure Session where
  /-- Owner key (R320). -/
  owner : List Byte
  /-- Manifest, once it is accepted, and its hash (R321). -/
  manifest : Option Manifest
  manifestHash : BitVec 256
  deriving DecidableEq, Repr

/-- A distribution entry of a generation (R327), with what the member has asked for and what has failed. -/
structure Dist where
  /-- Generation, parent and children (R327). -/
  gen : W32
  parent : Option (BitVec 12)
  children : List DistChild
  /-- Next shard index to ask the parent for (R327). -/
  next : Nat
  /-- Requests outstanding at the parent: shard index, the slot named, and the timebase of the latest REQUEST or NACK. -/
  asked : List (Nat × Nat × W64)
  /-- Failures of this member's own requests per shard index, and of children at key (module + 1) × 2^32 + index (R329). -/
  fails : AMap Nat
  /-- Requests of children that wait for the verified ciphertext: child, child slot, shard. -/
  wanted : List (BitVec 12 × Nat × Nat)
  deriving DecidableEq, Repr

/-- A host-memory ring of 64-byte entries (R440). -/
structure ObsRing where
  /-- Address, log2 of the entries, next sequence number and event mask (R440). -/
  addr : W64
  log2 : Nat
  seq : Nat
  mask : Byte
  deriving DecidableEq, Repr

/-- A dump buffer (R439, R445). -/
structure DumpBuf where
  /-- Address, slots, next sequence number and dumps skipped (R439, R445). -/
  addr : W64
  slots : Nat
  seq : Nat
  skips : Nat
  deriving DecidableEq, Repr

/-- One PCIe function. -/
structure Func where
  /-- Submission rings 0 to 15 (RNG_SQ; R350). -/
  sq : AMap Sq
  /-- Completion rings 0 to 15 (RNG_CQ; R350). -/
  cq : AMap Cq
  /-- Fetched descriptors, oldest first. -/
  fetched : List Fetched
  /-- Next fetch order. -/
  fetchOrder : Nat
  /-- Journal: identifier and final status, or none while pending, newest first, at most 4,096 (R356). -/
  journal : List (W64 × Option Status)
  /-- MBX_STATUS.last_seq, last_status, busy. -/
  mbxSeq : W32
  mbxStatus : Byte
  mbxBusy : Bool
  /-- Cached response: status, detail and payload (R358). -/
  mbxCache : Option (Status × BitVec 16 × List Byte)
  /-- Mailbox address and sequence as the page last showed them (R348). -/
  pageAddr : W64
  pageSeq : W64
  /-- Timebase of the latest activity (R349). -/
  active : Option W64
  /-- Timebase of the latest read of the doorbell-record page (R349). -/
  polled : Option W64
  /-- The loaded executable (R214). -/
  exe : Option Loaded
  /-- The open weight session (R320). -/
  session : Option Session
  /-- Generations, oldest first (R331). -/
  gens : List Gen
  /-- ING_GEN_STATUS.active: generation that admissions pin. -/
  activeGen : W32
  /-- Retention record (R402). -/
  retention : Option Retention
  /-- Retained weights are unbound (SEC_SCRUB.retained, R403). -/
  retained : Bool
  /-- Distribution entries (R327). -/
  dists : List Dist
  /-- Account in frames (R346). -/
  account : Nat
  /-- Pre-emption in force: deadline frame, or 0 (R353). -/
  preempt : Option W64
  /-- Pass counter of the function's skein of one member (R311). -/
  passNo : W32
  /-- Live QoS shares: the SET_QOS value in effect (R347). -/
  qos : BitVec 64
  /-- Interrupt messages sent in this millisecond and messages held (R347). -/
  irqSent : Nat
  irqHeld : List (Fin 128)
  /-- Tags held by fetched descriptors (R351). -/
  tags : Nat
  /-- Dump buffer of OBS_DUMP (R445). -/
  dump : Option DumpBuf
  /-- Log ring and trace ring (R440, R442). -/
  log : Option ObsRing
  trace : Option ObsRing
  /-- SET_CLAMP_LOG records, newest first, at most 64: offset, lsb, ignored, written, applied, seq (R342). -/
  clampLog : List (Nat × Nat × Bool × W32 × W32 × BitVec 16)
  /-- Sequence number of the next clamp record (R342). -/
  clampSeq : BitVec 16
  deriving DecidableEq, Repr

/-! ### Passes -/

/-- A pass (R218). -/
structure Pass where
  /-- Function (R218). -/
  fn : FnId
  /-- Submission ring and position of its descriptor, and the request identifier (R352). -/
  ring : RingId
  index : BitVec 12
  reqId : W64
  /-- State (the table before R218). -/
  state : PassState
  /-- Attempt number, from 0. -/
  attempt : Nat
  /-- Pass number (R311), 0 until agreed. -/
  number : W32
  /-- A pass of the skein of two or more members (R300). -/
  multi : Bool
  /-- The pass has left AGREEING at least once: it consumes its number (R311). -/
  agreed : Bool
  /-- Pinned generation, or 0, and the copy it lies in. -/
  gen : W32
  copy : Nat
  /-- Seed, buffer addresses and certificate address of the descriptor (R216, R353). -/
  seed : W64
  bufs : List W64
  certAddr : W64
  /-- Inputs and images of this attempt have landed. -/
  loaded : Bool
  /-- Agreed start frame (R310). -/
  start : Option W64
  /-- Kernel that runs, and its start frame. -/
  kernel : Nat
  kernelStart : W64
  /-- The barrier of the current kernel has resolved true (R203). -/
  resolved : Bool
  /-- This member has joined the current barrier (R203). -/
  joined : Bool
  /-- Kernels whose barrier resolved clean in the current attempt (R332). -/
  cleanKernels : Nat
  /-- The member's clean bit (R380). -/
  clean : Bool
  /-- Status that the abandon decided (R219, R220), with the slot group in which it was decided. -/
  status : Option Status
  abandonedAt : Option (W64 × Nat)
  /-- Fault that decided the status: the record with the lowest timebase, core and engine (R372). -/
  fault : Option FaultRecord
  /-- No retry may follow (R221, R312, R332). -/
  noRetry : Bool
  /-- Check compares of the attempt (R85, R382). -/
  checks : Nat
  /-- XOR of the leaves and leaf byte count of this member (R381). -/
  leafXor : BitVec 256
  leafBytes : Nat
  /-- The member has joined the final gate (R382). -/
  gated : Bool
  /-- Frames spent in RUNNING, GATING and QUIESCING (R346). -/
  frames : Nat
  /-- Timebase at admission (R218). -/
  admittedAt : W64
  deriving DecidableEq, Repr

/-! ### Skein -/

/-- The skein state of the module (R301). -/
structure Skein where
  /-- FAB_SKEIN_STATUS.state (R301). -/
  state : SkeinState
  /-- FAB_SKEIN_STATUS.field, module: the latest REFUSED, BROKEN or SKEIN_MISMATCH (R301, R307). -/
  field : Byte
  module : BitVec 12
  /-- Skein identifier (R304). -/
  id : BitVec 16
  /-- Plan: module identifiers in virtual module order. -/
  plan : List (BitVec 12)
  /-- Function whose partition is the member, and its FORM descriptor. -/
  fn : FnId
  desc : Option (RingId × BitVec 12)
  /-- The agreement record is built (R304). -/
  record : Option (BitVec 512)
  /-- Matching parts received: port and part. -/
  got : List (PortId × Nat)
  /-- FAB_SKEIN_PASS.pass (R309, R311). -/
  passNo : W32
  /-- Offers and joins received from children for the current pass: port. -/
  offers : List PortId
  joins : List PortId
  /-- AND of the clean bits received. -/
  joinsClean : Bool
  /-- The offer of this member has been made. -/
  offered : Bool
  /-- Offers and record parts of children that wait for this member's own: port, sender, message. -/
  held : List (PortId × BitVec 12 × StitchMsg)
  /-- REFUSED that the root forwards at the next slot group (R307). -/
  refusal : Option (Byte × BitVec 12)
  /-- Members that have left (R315), oldest first. -/
  away : List (BitVec 12)
  /-- Parts of a rejoin record that have matched at the root (R316). -/
  rejoinGot : List Nat
  /-- Member whose rejoin record has matched and that waits for READMIT (R316). -/
  rejoined : Option (BitVec 12)
  /-- Frame of a readmission (R316), or none. -/
  readmitAt : Option W64
  /-- Timebase at which FORM was received (R308). -/
  formedAt : W64
  /-- Abandon notice that leaves in the next slot group: pass number and attempt (R219, R259). -/
  abandonOut : Option (W32 × Byte)
  /-- Gate results received: clean AND, XOR low, XOR high, counts (R382). -/
  gateClean : Option Bool
  gateLo : Option (BitVec 128)
  gateHi : Option (BitVec 128)
  gateCount : Option (BitVec 128)
  deriving DecidableEq, Repr

/-- A collective in progress at this member (R115): the function and entry, the operation, the combined contributions of
this member's cores, those of children, and where the result goes: core, address and the weft operation number that
stands for the instruction. -/
structure Coll where
  fn : FnId
  entry : Nat
  op : Nat
  narrow : Bool
  own : Option (BitVec 128)
  got : List (PortId × BitVec 128)
  dest : List (CoreId × MAddr × Nat)
  deriving DecidableEq, Repr

/-- A reduction in progress at this member (R116, R118). -/
structure Red where
  fn : FnId
  entry : Nat
  kind : Nat
  q : Int
  count : Nat
  /-- Canonical: 0 add, 1 minimum, 2 maximum. -/
  op : Nat
  toRoot : Bool
  /-- Contributions so far: first reduction index, node length, element values (192-bit or 32-bit patterns). -/
  got : List (Nat × Nat × List (BitVec 192))
  /-- Contributions among them that came from other members. -/
  segs : Nat
  /-- The result, once it is known here. -/
  final : Option (List (BitVec 192))
  /-- An anchor mismatch has been seen (R116). -/
  mismatch : Bool
  /-- Destinations: core, address and operation number. -/
  dest : List (CoreId × MAddr × Nat)
  deriving DecidableEq, Repr

/-! ### Ingest, integrity, security, power, sideband -/

/-- Where a staged record stands in the steps of R324. -/
inductive SlotPhase where
  /-- Written, waiting for processing. -/
  | staged
  /-- Step 1 passed; another record of the same shard is being processed (R325). -/
  | waiting
  /-- Steps 1 to 4 passed. -/
  | verified
  /-- Step 5 done: plaintext written, waiting for step 6. -/
  | written (plain : List Byte)
  /-- Committed, or not stored here: kept for children. -/
  | kept
  deriving DecidableEq, Repr

/-- A staging slot's record (R323). -/
structure Slot where
  /-- The record (R323). -/
  shard : ShardRec
  /-- Where it stands (R324). -/
  phase : SlotPhase
  /-- Function that it belongs to. -/
  fn : FnId
  /-- WEIGHT_SHARD descriptor that delivered it. -/
  desc : Option (RingId × BitVec 12)
  /-- Delivered by the parent (R327). -/
  parent : Option (BitVec 12)
  /-- Children that have not acknowledged (R328), with the slot that the record was sent to, once it was. -/
  waits : List (BitVec 12 × Option Nat)
  deriving DecidableEq, Repr

/-- ING_DIST_FAIL. -/
structure DistFail where
  /-- Shard index (R329). -/
  shard : W32
  /-- Reason code (R324, R329). -/
  reason : Nat
  /-- Set by a failure, cleared by the host. -/
  valid : Bool
  /-- Parent module of the failing request (R329). -/
  parent : BitVec 12
  /-- Failures (R329). -/
  count : Nat
  deriving DecidableEq, Repr

/-- Resident library (R151, R462). -/
structure Library where
  /-- Minor version and ABI (R151, R462). -/
  minor : BitVec 16
  abi : BitVec 16
  /-- Entries of the image (R462). -/
  entries : List LibEntry
  /-- Words of the body, as they stand in the library region of every core (R462). -/
  body : List W64
  /-- Hashes of its manifest and image (R462). -/
  manifestHash : BitVec 256
  hash : BitVec 256
  deriving DecidableEq, Repr

/-- The CHK_ block and the fault collector (R369 to R377). -/
structure Chk where
  /-- Reporter queues: compute dies 0 to 11, I/O dies 12 to 15; oldest first, at most 16 (R369). -/
  reporters : AMap (List FaultRecord)
  /-- Frames since each reporter's latest heartbeat (R369). -/
  silent : AMap Nat
  /-- CHK_STATUS.fatal, cause and detail (R376). -/
  fatal : Bool
  cause : Byte
  detail : Byte
  /-- CHK_FAULT_COUNT: records by class (R370, R371). -/
  corrected : Nat
  contained : Nat
  persistent : Nat
  fatals : Nat
  /-- CHK_FAULT_FIRST and CHK_FAULT_LAST (R370). -/
  first : Option FaultRecord
  last : Option FaultRecord
  /-- CHK_OVERFLOW.lost (R369). -/
  lost : Nat
  /-- Next record number (R370). -/
  seq : W32
  /-- Timebases of the counting faults of each core within the window (R374). -/
  counting : AMap (List Nat)
  /-- Attempts whose counting fault has been taken: core, pass, attempt (R374). -/
  counted : List (Nat × Nat × Nat)
  /-- Scrub period in which each core's finding was counted, plus 1 (R374). -/
  scrubbed : AMap Nat
  /-- CHK_SCRUB_ERR: generation, shard, core, word and function of the latest finding (R377). -/
  errGen : W32
  errShard : W32
  errCore : BitVec 11
  errWord : BitVec 21
  errValid : Bool
  errFn : BitVec 4
  /-- I/O die whose output hash units differ, until the next use of them finds it (R381). -/
  hashUpset : Option (Fin 4)
  deriving DecidableEq, Repr

/-- The security block (R388 to R405): MRAM counters and logs, SEC_ registers and volatile keys. -/
structure Sec where
  /-- Starts counted in MRAM (R394). -/
  bootCount : W32
  /-- Tampers counted in MRAM (R401). -/
  tamperCount : W32
  /-- Counter record copies valid (R394). -/
  copies : List Bool
  /-- Top-tree leaf, bottom tree and its next leaf (R392 to R394). -/
  topLeaf : Nat
  tree : Nat
  leaf : Nat
  /-- SEC_STATUS.next: 0 generating, 1 ready, 2 exhausted. -/
  next : Nat
  /-- Tamper log in MRAM: timebase, sensor and place (R401). -/
  tamperLog : List (W64 × Byte × Byte)
  /-- SEC_STATUS.ready, trng, debug (R399, R405). -/
  ready : Bool
  trng : Bool
  debug : Bool
  /-- Debug scopes that are open (R405). -/
  scopes : W32
  /-- SEC_TAMPER.sensor, new (R401). -/
  sensor : Byte
  newTamper : Bool
  /-- ML-KEM key pair, by the randomness it was generated from (R398). -/
  kem : Option (BitVec 512)
  /-- Challenge of the debug unlock (R405). -/
  challenge : Option (BitVec 256)
  /-- DRBG outputs drawn so far (R399). -/
  drawn : Nat
  deriving DecidableEq, Repr

/-- How far the module is from running (R408, R417, R420 to R422, R401, R455). -/
inductive Phase where
  /-- The input is not good. -/
  | unpowered
  /-- Start-up has ended up to PERST#, which is asserted. -/
  | held
  /-- Running. -/
  | ready
  /-- In reset while a tamper condition persists. -/
  | tampered
  /-- Tripped: core, SRAM and SerDes rails off. -/
  | tripped
  /-- Start-up after a trip waits until every sensor reads below the throttle temperature (R417). -/
  | cooling (st : SelfTest)
  /-- Held in reset by an EXTEST-class JTAG instruction. -/
  | jtagHeld
  /-- A warm reset has been requested and starts 10 µs after its response. -/
  | warmPending (keyed : Bool)
  deriving DecidableEq, Repr

/-- The power manager and the J1 and J2 pins. -/
structure Power where
  /-- How far the module is from running. -/
  phase : Phase
  /-- PERST# is asserted. -/
  perst : Bool
  /-- Input good under R408. -/
  inputGood : Bool
  /-- PWR_GOOD and THERMTRIP# (asserted) pins. -/
  pwrGood : Bool
  thermtrip : Bool
  /-- PWR_RESET_CAUSE.cause (R420 to R422). -/
  cause : ResetCause
  /-- PWR_STATUS.emergency, source, local_step (R413, R414) and wish (R412). -/
  emergency : Bool
  source : Nat
  localStep : Bool
  /-- PWR_STATUS.wish: the period code that the module asks for (R412). -/
  wish : BitVec 5
  /-- PWR_INPUT.voltage, current, power, tj (R412). -/
  voltage : BitVec 16
  current : BitVec 16
  /-- PWR_INPUT.power: the mean over 1 ms (R412). -/
  power : BitVec 12
  /-- PWR_INPUT.tj: the hottest die (R412). -/
  tj : BitVec 7
  /-- Input powers of the last 100 samples in units of 10 µW, newest first: the mean over 1 ms (R412). -/
  samples : List Nat
  /-- Consecutive samples above the power limit (R413) and below 90 % of PWR_CAP (R416). -/
  above : Nat
  below : Nat
  /-- Evaluations in a row with a mean below 85 % of PWR_CAP, every die 5 °C below the target and no stretch rule (R412). -/
  lowMs : Nat
  /-- Latest higher reading of each die in °C (R412). -/
  temps : List Int
  /-- Readings in a row in which the sensors of a die differ by more than 8 °C. -/
  differ : AMap Nat
  /-- Every region stretches every period (R414). -/
  stretchAll : Bool
  /-- A local step is due at the start of this frame (R414, R415). -/
  stepDue : Option W64
  /-- Timebase of the latest emergency's start (R416). -/
  emergencyAt : Option W64
  /-- A second emergency within 10 s: stays out of its time domain (R416). -/
  keptOut : Bool
  /-- CLK_TIME_CTRL as the host last wrote it (R416). -/
  hostTime : W32
  /-- Core rail target in mV (R410). -/
  rail : Nat
  /-- A trip since the latest start-up (R417). -/
  tripped : Bool
  deriving DecidableEq, Repr

/-- SMBus, JTAG and TIME pins (R453 to R456). -/
structure Side where
  /-- Address straps (R453). -/
  straps : BitVec 3
  /-- Sensors whose events the controller has asked for (R453). -/
  subscribed : List PldmSensor
  /-- Subscribed sensors with an event that has not been read: SMBALERT# is asserted while there is one (R453). -/
  unread : List PldmSensor
  /-- Tamper since start-up, as PLDM module state reports it. -/
  tampered : Bool
  /-- Connected management channel (R454). -/
  channel : Option (Fin 8)
  /-- Loaded JTAG instruction (R455). -/
  jtag : JtagInstr
  /-- TIME_OUT pin (R456). -/
  timeOut : Bool
  deriving DecidableEq, Repr

/-- Fused values (R4, R13, R388 to R391, R410, R411). -/
structure Fuses where
  /-- Grade (R4). -/
  grade : Grade
  /-- Spare cores of each compute die, as masks (R13). -/
  spares : List (BitVec 144)
  /-- Module serial number, identity seed, root key hash (R388 to R391). -/
  serial : W64
  seed : BitVec 256
  rootHash : BitVec 256
  /-- Smallest period code (R411). -/
  lowestCode : BitVec 5
  /-- Input power and current limits (R411). -/
  plimit : BitVec 12
  ilimit : BitVec 10
  /-- Core-rail floor and ceiling in mV (R410). -/
  vfloor : BitVec 10
  vceil : BitVec 10
  /-- Throttle and trip temperatures in °C (R411). -/
  throttle : BitVec 7
  trip : BitVec 7
  /-- The 64 die identity records in package die order (R16, R388). -/
  dies : List (BitVec 128)
  deriving DecidableEq, Repr

/-- OBS_ block and module-wide observation state (R435, R444). -/
structure ObsBlock where
  /-- Counter configuration in effect: key 6 × partition + counter. -/
  cnt : AMap W32
  /-- Configuration epoch per partition. -/
  epoch : AMap W32
  /-- OBS_STEP_HIST, newest first, at most 16: frame, old, new, local. -/
  steps : List (W32 × BitVec 5 × BitVec 5 × Bool)
  /-- Agreed and local steps since the last module reset (R439). -/
  agreed : W32
  localSteps : W32
  /-- OBS_LOST. -/
  lostLog : Nat
  lostTrace : Nat
  /-- Frame of the latest dump latch (R438). -/
  latched : Option W64
  /-- Counter configurations written since the latest application, by key 6 × partition + counter (R435). -/
  written : List Nat
  deriving DecidableEq, Repr

/-! ### What the module does at its boundary -/

/-- What leaves the module: host writes, interrupts, link traffic, replies on the sideband. -/
inductive Out where
  /-- A completion entry of function f, completion ring r, slot i (R354). -/
  | completion (f : FnId) (cq : RingId) (i : BitVec 12) (entry : BitVec 256)
  /-- A result certificate (R384). -/
  | certificate (addr : W64) (data : List Byte)
  /-- Output bytes or COPY data written to host memory. -/
  | hostWrite (addr : W64) (data : List Byte)
  /-- An MSI-X message. -/
  | msix (f : FnId) (v : Fin 128)
  /-- A Vedihar response: function, buffer, sequence, status, detail, payload. -/
  | response (f : FnId) (addr : W64) (seq : W32) (status : Status) (detail : BitVec 16) (payload : List Byte)
  /-- A log-ring or trace-ring entry of 64 bytes (R440). -/
  | ringEntry (f : FnId) (trace : Bool) (slot : Nat) (data : List Byte)
  /-- A dump (R439): function, slot, and its header and core records. -/
  | dump (f : FnId) (slot : Nat) (data : List Byte)
  /-- A notice of an ingest engine to an I/O die of another module (R327). -/
  | notice (m : BitVec 12) (d : IoDie) (n : BitVec 128)
  /-- The weft writes of a shard record into a staging slot of another module, all acknowledged (R328). -/
  | shard (m : BitVec 12) (d : IoDie) (slot : Nat) (data : List Byte)
  /-- A link flit on a port: header and payload (R254). -/
  | flit (p : PortId) (hdr : W64) (payload : BitVec 512)
  /-- Data of a host-window read (R206). -/
  | windowData (f : FnId) (data : List Byte)
  /-- Value of a register read (R275). -/
  | readValue (v : W32)
  /-- Reply on SMBus or JTAG (R453, R455). -/
  | sideband (data : List Int)
  /-- A level of the TIME_OUT pin (R456). -/
  | timeOut (high : Bool)
  deriving DecidableEq, Repr

/-- The module. -/
structure State where
  /-- Commands that wait, first in, first out. -/
  pending : List Instr
  /-- Fused values (R4, R388 to R391, R410, R411). -/
  fuses : Fuses
  /-- Memory: every byte of spaces 0 to 3 and of the I/O-die space 5 at its 48-bit module address (R160, R323); an unlisted
  byte reads 0. -/
  mem : List Host.Cell
  /-- Words with an error, by module address of the word (R177). -/
  ecc : AMap EccMark
  /-- The 1,728 cores (R8, R9); an unlisted core is Core.reset. -/
  cores : AMap Core
  /-- Set-up registers, by key (function × 2^20 + PF BAR0 offset) + 1; an unlisted register holds its reset value. -/
  setup : AMap (BitVec 128)
  /-- Dies out of service (R241). -/
  diesOut : List DieId
  /-- Mesh mode: scheduled (R246); a written mode that has not taken effect. -/
  scheduled : Bool
  modePending : Option Bool
  /-- Weft flits in the mesh of this module (R233). -/
  inflight : List WeftFlit
  /-- Outstanding transactions by tag (R266). -/
  txns : AMap (Option Txn)
  /-- Weft operations by number, and the next number. -/
  ops : AMap (Option WOp)
  nextOp : Nat
  /-- Replay record (R269). -/
  replay : List Replay
  /-- The 32 ports (R250). -/
  ports : AMap Port
  /-- The 48 compute regions and the 4 mesh-side regions of the I/O dies (R283). -/
  regions : AMap Region
  /-- Timebase, frame sequence and period (R275 to R298). -/
  clk : Clock
  /-- The 16 functions (R337). -/
  fns : AMap Func
  /-- Passes by key, and the next key (R218). -/
  passes : AMap (Option Pass)
  nextPass : Nat
  /-- The skein state (R301). -/
  skein : Skein
  /-- Collectives in progress (R115). -/
  colls : List Coll
  /-- Reductions in progress (R116). -/
  reds : List Red
  /-- Staging slots by 15 × die + slot (R323). -/
  slots : AMap (Option Slot)
  /-- Notices written so far into the area of each I/O die, which is a ring in memory (R323, R327). -/
  notices : AMap Nat
  /-- Regions in SCRUBBING (R404, SEC_SCRUB). -/
  teasel : List Scrub
  /-- ING_DIST_FAIL (R329). -/
  distFail : DistFail
  /-- Resident library (R151). -/
  library : Option Library
  /-- The CHK_ block (R369 to R377). -/
  chk : Chk
  /-- The security block (R388 to R405). -/
  sec : Sec
  /-- The power manager (R406 to R422). -/
  power : Power
  /-- SMBus, JTAG and TIME pins (R453 to R456). -/
  side : Side
  /-- The OBS_ block (R431 to R447). -/
  obs : ObsBlock
  /-- VFs that exist, 0 to 15 (R337). -/
  numVfs : Nat
  /-- What has left the module, newest first. -/
  out : List Out
  /-- Counter of free values drawn: the model's own field. -/
  fresh : Nat
  deriving DecidableEq, Repr

/-! ### Reset values -/

/-- An engine at reset: registers 0 (R130, R400). -/
def Engine.reset : Engine :=
  { mode := .idle, pc := 0, next := 0, done := 0, doneFar := [], free := 0, wait := none, waited := [], sregs := [], aregs := [],
    sig := 0xFFFFFFFF, loops := [], calls := [], releases := [], relAt := 0, openOps := [], lfsr := 1, upset := none }

/-- The configuration that fields of all zeros encode (R461). -/
def MCfg.reset : MCfg := { fw := 0, fa := 0, sw := false, sa := false, width := 0, psm := false, q := 0 }

/-- The drain configuration that fields of all zeros encode (R461). -/
def DCfg.reset : DCfg := { fmt := 0, rnd := 0, ovf := 0, shift := 0, seed := 0, idx := 0, stok := 0, sdpu := 0 }

/-- A cleared accumulator. -/
def Acc.zero : Acc := { num := 0, exp := 0, emin := none, emax := none, terms := 0, loaded := none }

/-- A latch entry that no MLW has filled: zeros. -/
def Latch.zero : Latch :=
  { rows := 32, rowBytes := 64, checks := 128, codes := 4, elems := [], side := [], stamp := 0 }

/-- The matrix engine at pass start (R461). -/
def Mxe.reset : Mxe :=
  { cfg := .reset, dcfg := .reset, latch := [], vecs := [], stall := 0, acc := [], chk := [], accOpen := [], rowChk := [], rowOpen := [] }

/-- A counter at pass start (R133). -/
def Counter.reset : Counter := { count := 0, scope := .engine, originCore := 0, originModule := 0, pend := [] }

/-- A bobbin before any pass (R181). -/
def Bobbin.reset : Bobbin := { state := .empty, count := 0, cycles := 0, was := .empty, trans := [] }

/-- Observation counters at reset (R432). -/
def Obs.reset : Obs := { frozen := none, prog := [], spans := [], ovf := [], ledger := [], lost := 0 }

/-- A vector register at reset. -/
def VReg.zero : VReg := { base := [], pend := [] }

/-- A register holding zero. -/
def TReg.zero {n : Nat} : TReg (BitVec n) := { base := 0, pend := [] }

/-- A core at reset. -/
def Core.reset : Core :=
  { svc := .inService, cause := 0, mxeQ := .reset, vxeQ := .reset, txeQ := .reset, gxeQ := .reset, fxeQ := .reset,
    mx := .reset, vregs := [], gIndex := [], gKey := [], counters := [], bobbins := [], queue := [],
    atomicHold := none, staged := [], injq := [], room := 0, hold := [], merge := [], armed := [], mpend := [], claims := [], faults := [], redBuf := [], job := none, joined := false,
    obs := .reset }

/-- A port at reset. -/
def Port.reset : Port :=
  { state := .disabled, fit := false, delay := 0, warpOn := false, echo := none, rxTime := none, rxAbandon := none,
    rxStep := none, rxMsg := none, rxSender := 0, rxFlags := 0, childWish := 0, msgs := [], warp := [], mismatched := [], passed := [], absent := false,
    ingress := [], egress := [], counts := [] }

/-- A region at reset. -/
def Region.reset : Region :=
  { stretches := 0, ended := 0, last := none, history := [], total := 0, maxGuard := 0, over32 := 0, overruns := 0 }

/-- The clock at reset: own root at period code 20 (R298, R421). -/
def Clock.reset : Clock :=
  { timebase := 0, fraction := 0, state := .freeRunning, tol := false, theta := 0, integ := 0, dco := 0, bad := 0,
    frameTol := true, samples := 0, tolFrames := 0, sinceSample := 0, frame := 0, frameStart := 0, sg := 0, starts := [], joining := none, epoch := 0,
    period := 0x14, pending := 0, announced := false, stepFrame := 0, tbHigh := 0, frHigh := 0, rejected := none, lastEdge := none,
    warpLost := false, clocked := 0 }

/-- A submission ring at reset. -/
def Sq.reset : Sq := { state := .disabled, head := 0, tail := 0 }
/-- A completion ring at reset. -/
def Cq.reset : Cq :=
  { state := .disabled, tail := 0, phase := false, head := 0, reserved := 0, unsignalled := 0, oldest := none }

/-- A function at reset; SET_QOS starts at its reset value (R346): weights 16, irq 255, tags 16,384, slots 0. -/
def Func.reset : Func :=
  { sq := [], cq := [], fetched := [], fetchOrder := 0, journal := [], mbxSeq := 0xFFFFFFFF, mbxStatus := 0,
    mbxBusy := false, mbxCache := none, pageAddr := 0, pageSeq := 0, active := none, polled := none, exe := none, session := none,
    gens := [], activeGen := 0, retention := none, retained := false, dists := [], 
    account := 0, preempt := none, passNo := 0,
    qos := 0x00004000FF101010, irqSent := 0, irqHeld := [], tags := 0, dump := none, log := none, trace := none,
    clampLog := [], clampSeq := 0 }

/-- Function 0 at reset: it holds the 15 staging slots of each die (SET_QOS.slots). -/
def Func.reset0 : Func := { Func.reset with qos := 0x00078000FF101010 ||| 0x00004000FF101010 }

/-- The skein at reset: NONE. -/
def Skein.reset : Skein :=
  { state := .none, field := 0, module := 0, id := 0, plan := [], fn := 0, desc := none, record := none, got := [],
    passNo := 0, offers := [], joins := [], joinsClean := true, offered := false, held := [], refusal := none,
    away := [], rejoinGot := [], rejoined := none, readmitAt := none, formedAt := 0,
    abandonOut := none, gateClean := none, gateLo := none, gateHi := none, gateCount := none }

/-- ING_DIST_FAIL at reset. -/
def DistFail.reset : DistFail := { shard := 0, reason := 0, valid := false, parent := 0, count := 0 }

/-- The CHK_ block at reset. -/
def Chk.reset : Chk :=
  { reporters := [], silent := [], fatal := false, cause := 0, detail := 0, corrected := 0, contained := 0,
    persistent := 0, fatals := 0, first := none, last := none, lost := 0, seq := 0, counting := [], counted := [],
    scrubbed := [], errGen := 0, errShard := 0, errCore := 0, errWord := 0, errValid := false, errFn := 0,
    hashUpset := none }

/-- The security block of a new module (MRAM counters at 0). -/
def Sec.reset : Sec :=
  { bootCount := 0, tamperCount := 0, copies := [true, true], topLeaf := 0, tree := 0, leaf := 0, next := 0,
    tamperLog := [], ready := false, trng := false, debug := false, scopes := 0, sensor := 0, newTamper := false,
    kem := none, challenge := none, drawn := 0 }

/-- The power manager with no input and PERST# asserted through its pull-down (J2 pinout). -/
def Power.reset : Power :=
  { phase := .unpowered, perst := true, inputGood := false, pwrGood := false, thermtrip := false, cause := .cold,
    emergency := false, source := 0, localStep := false, wish := 0x0A, voltage := 0, current := 0, power := 0, tj := 0,
    samples := [], above := 0, below := 0, lowMs := 0, temps := [], differ := [], stretchAll := false, stepDue := none,
    emergencyAt := none, keptOut := false, hostTime := 0x20, rail := 0, tripped := false }

/-- The sideband at reset: open straps read 1 (J2 pinout). -/
def Side.reset : Side :=
  { straps := 0b111, subscribed := [], unread := [], tampered := false, channel := none, jtag := .idcode,
    timeOut := false }

/-- The OBS_ block at reset. -/
def ObsBlock.reset : ObsBlock :=
  { cnt := [], epoch := [], steps := [], agreed := 0, localSteps := 0, lostLog := 0, lostTrace := 0, latched := none, written := [] }

/-- Die kind code that a package die number implies (R16, R17). -/
def kindOfDie (n : Nat) : BitVec 4 := if n < 12 then 1 else if n < 48 then 2 else if n < 60 then 3 else 4

/-- A die identity record (R388): stepping 0xA2 in [73:66], bin in [65:58], kind in [57:54], position and lot below. -/
def dieRecord (n : Nat) : BitVec 128 :=
  (Config.dieMark n).setWidth 128 ||| ((kindOfDie n).setWidth 128 <<< 54) ||| ((Config.dieBin n).setWidth 128 <<< 58)
    ||| ((0xA2 : BitVec 128) <<< 66)

/-- Fused values of the AVM1728-F (R4, R411). -/
def Fuses.gradeF : Fuses :=
  { grade := .f, spares := [], serial := Config.moduleSerial, seed := Config.identitySeed, rootHash := Config.rootHash,
    lowestCode := 10, plimit := 1650, ilimit := 500, vfloor := 550, vceil := 750, throttle := 95, trip := 110,
    dies := (List.range 64).map dieRecord }

/-- A mask of `n` distinct places of a list, each picked by a free number among those left: the S-grade spare mask of a die
has sixteen of the 144 local indices (R13). -/
def spareMask (pick : Nat → Nat) : Nat → List Nat → BitVec 144
  | 0, _ => 0
  | n + 1, l =>
    match l[pick n % l.length]? with
    | some i => (1#144 <<< i) ||| spareMask pick n (l.erase i)
    | none => 0

/-- Fused values of the AVM1536-S (R4, R411). -/
def Fuses.gradeS : Fuses :=
  { Fuses.gradeF with grade := .s, spares := (List.range 12).map fun d => spareMask (Config.sparePick d) 16 (List.range 144), plimit := 1450, ilimit := 440 }

/-- The module right after reset: no input, every register at its reset value, every memory zero. -/
def State.reset : State :=
  { pending := [], fuses := .gradeF, mem := [], ecc := [], cores := [], setup := [], diesOut := [], scheduled := false,
    modePending := none, inflight := [], txns := [], ops := [], nextOp := 0, replay := [], ports := [], regions := [],
    clk := .reset, fns := [(0, Func.reset0)], passes := [], nextPass := 0, skein := .reset, colls := [], reds := [],
    slots := [], notices := [], teasel := [], distFail := .reset, library := none, chk := .reset, sec := .reset, power := .reset,
    side := .reset, obs := .reset, numVfs := 0, out := [], fresh := 0 }

end Sys2Proof.Machine
end

