-- ==== Sys2Proof/Machine/RegMap.lean ====
section
/-! DEFINITION. The set-up registers: where they lie in BAR0 (R339, R340), their fields with ranges, codes and reset
values (the register tables of the chapters), and the accessors that the other operations read them through. -/

namespace Sys2Proof.Machine

/-- Offset of a set-up register in its function's view of PF BAR0 (R339, R340). -/
def regOffset : RegId → Nat
  | .setLock => 0x10000
  | .setPart p => 0x11000 + 8 * p.val
  | .setFunc f => 0x12000 + 8 * f.val
  | .setQos f => 0x13000 + 8 * f.val
  | .rngDbr => 0x30000
  | .rngPoll => 0x30008
  | .rngSq r => 0x30100 + 16 * r.val
  | .rngCq r => 0x30200 + 16 * r.val
  | .irqMod v => 0x40000 + 4 * v.val
  | .clkTimeCtrl => 0x50000
  | .clkStepReq => 0x50020
  | .clkStretchCfg => 0x50024
  | .pwrCap => 0x60004
  | .pwrTempCfg => 0x60008
  | .fabMeshMode => 0x72030
  | .fabPortCtrl n => 0x73000 + 4 * n.val
  | .fabModuleId => 0x74080
  | .fabWeftCfg => 0x74084
  | .fabWeftRoute m => 0x75000 + 4 * m.val
  | .fabStitchTree => 0x79000
  | .fabStitchChildren => 0x79004
  | .fabSkeinCfg => 0x79018
  | .ingDistCfg => 0x80080
  | .chkScrub => 0xA0000
  | .chkFenceCfg => 0xA0004
  | .obsCtrl => 0xB0000
  | .obsCntCfg p i => 0xB1000 + 4 * (6 * p.val + i.val)
  | .obsDye => 0xB1120
  -- beyond every register's offset: it shares no storage with one
  | .reserved o => 0x1000000 + o.toNat

/-- True for the registers that every function has (RNG_, IRQ_ blocks); the others are the PF's (R339). -/
def regPerFunction : RegId → Bool
  | .rngDbr => true
  | .rngPoll => true
  | .rngSq _ => true
  | .rngCq _ => true
  | .irqMod _ => true
  | _ => false

/-- Key of a register in State.setup. -/
def regKey (f : FnId) (r : RegId) : Nat := (if regPerFunction r then f.val else 0) * 2 ^ 20 + regOffset r + 1

/-- What a field accepts (R342). -/
inductive FieldRule where
  /-- A numeric range, clamped. -/
  | range (lo hi : Nat)
  /-- 0, or a numeric range. -/
  | zeroOr (lo hi : Nat)
  /-- Listed codes, and the code that any other write gives; none: the field keeps its value. -/
  | codes (l : List Nat) (other : Option Nat)
  /-- Period code: the next larger listed code, at most 20 and at least the fused lowest code (R277). -/
  | period
  deriving DecidableEq, Repr

/-- A field of a set-up register. -/
structure Field where
  lsb : Nat
  len : Nat
  rule : FieldRule
  rwl : Bool
  deriving DecidableEq, Repr

/-- A field in which every value stands. -/
def Field.any (lsb len : Nat) : Field := { lsb := lsb, len := len, rule := .range 0 (2 ^ len - 1), rwl := false }
/-- A ranged field. -/
def Field.rng (lsb len lo hi : Nat) : Field := { lsb := lsb, len := len, rule := .range lo hi, rwl := false }
/-- A ranged field that SET_LOCK makes read-only. -/
def Field.locked (lsb len lo hi : Nat) : Field := { lsb := lsb, len := len, rule := .range lo hi, rwl := true }

/-- Event codes of the table "Counter events". -/
def counterEvents : List Nat :=
  [0x00, 0x01, 0x02, 0x03, 0x04, 0x05, 0x06, 0x07, 0x08, 0x09, 0x0A, 0x0B, 0x0C, 0x10, 0x11, 0x12, 0x13, 0x14, 0x15,
   0x16, 0x17, 0x18, 0x19, 0x1A] ++
  [0x20, 0x21, 0x22, 0x23, 0x28, 0x30, 0x31, 0x32, 0x33, 0x34, 0x38, 0x39, 0x40, 0x41, 0x42]

/-- Fields of a set-up register, lowest bit first, with the clamps that do not depend on other fields. -/
def regFields (fz : Fuses) : RegId → List Field
  | .setLock => [.any 0 1]
  | .setPart _ => [.locked 0 2 0 3, .locked 2 2 0 3, .locked 4 2 0 2, .locked 6 2 0 2, .locked 8 1 0 1]
  | .setFunc _ => [.locked 0 4 0 11, .locked 4 1 0 1, .locked 8 6 0 47, .locked 14 6 1 48, .locked 20 6 0 31,
      .locked 26 6 1 32, .locked 32 4 0 11, .locked 36 4 1 12]
  | .setQos _ => [.rng 0 8 1 255, .rng 8 8 1 255, .rng 16 8 1 255, .rng 24 8 1 255, .rng 32 15 1 16384, .rng 47 4 0 15]
  | .rngDbr => [.any 0 1, .any 12 52]
  | .rngPoll => [.rng 0 4 1 10, .rng 4 10 10 1000, .rng 14 14 10 10000]
  | .rngSq _ => [.any 6 58, .any 64 4, .rng 68 4 4 12, .any 72 1]
  | .rngCq _ => [.any 5 59, .rng 64 7 0 127, .rng 71 4 4 12, .any 75 1]
  | .irqMod _ => [.rng 0 8 1 255, .rng 8 10 0 1000]
  | .clkTimeCtrl => [.any 0 5, .any 5 1, .any 6 1]
  | .clkStepReq => [{ lsb := 0, len := 5, rule := .period, rwl := false }, .any 5 1]
  | .clkStretchCfg => [.rng 0 7 1 127]
  | .pwrCap => [.locked 0 12 300 fz.plimit.toNat]
  | .pwrTempCfg => [.locked 0 7 60 90]
  | .fabMeshMode => [.any 0 1]
  | .fabPortCtrl _ => [.any 0 1, .any 1 2, .any 3 1]
  | .fabModuleId => [.any 0 12]
  | .fabWeftCfg => [.rng 0 10 4 1000, .rng 10 2 0 3]
  | .fabWeftRoute _ => [.any 0 5, .any 5 1, .any 6 5, .any 11 1]
  | .fabStitchTree => [.any 0 5, .any 5 1]
  | .fabStitchChildren => [.any 0 32]
  | .fabSkeinCfg => [.rng 0 14 1 10000, .any 14 1]
  | .ingDistCfg => [.rng 0 10 1 1000]
  | .chkScrub => [.locked 0 13 250 4000]
  | .chkFenceCfg => [.locked 0 3 2 7, .locked 8 6 1 60]
  | .obsCtrl => [{ lsb := 0, len := 16, rule := .zeroOr 16 65535, rwl := false }, .locked 16 1 0 1]
  | .obsCntCfg _ i => [{ lsb := 0, len := 8, rule := .codes counterEvents (some 0), rwl := false },
      { lsb := 8, len := 3, rule := .codes [0, 1, 2, 3, 4, 7] (some 7), rwl := false }, .any 11 1,
      if i.val % 2 = 0 then .any 12 1 else .rng 12 1 0 0]
  | .obsDye => [{ lsb := 0, len := 5, rule := .zeroOr 4 24, rwl := false }, .any 32 32]
  | .reserved _ => []

/-- Reset value of a set-up register (the register tables). -/
def regReset (fz : Fuses) : RegId → BitVec 128
  | .setLock => 0
  | .setPart p => if p.val = 0 then 0b1_10_00_11_00 else 0
  | .setFunc f => if f.val = 0 then BitVec.ofNat 128 (0x10 + 0x30 * 2 ^ 14 + 0x20 * 2 ^ 26 + 0xC * 2 ^ 36)
      else BitVec.ofNat 128 (2 ^ 14 + 2 ^ 26 + 2 ^ 36)
  | .setQos f => BitVec.ofNat 128 (0x4000FF101010 + (if f.val = 0 then 0xF * 2 ^ 47 else 0))
  | .rngDbr => 0
  | .rngPoll => BitVec.ofNat 128 (1 + 0x32 * 2 ^ 4 + 0x64 * 2 ^ 14)
  | .rngSq _ => BitVec.ofNat 128 (4 * 2 ^ 68)
  | .rngCq _ => BitVec.ofNat 128 (4 * 2 ^ 64 + 4 * 2 ^ 71)
  | .irqMod _ => 1
  | .clkTimeCtrl => 0x20
  | .clkStepReq => 0x0A
  | .clkStretchCfg => 0x20
  | .pwrCap => fz.plimit.setWidth 128
  | .pwrTempCfg => 0x55
  | .fabMeshMode => 0
  | .fabPortCtrl _ => 0b1010
  | .fabModuleId => 0
  | .fabWeftCfg => 0xC20
  | .fabWeftRoute _ => 0
  | .fabStitchTree => 0
  | .fabStitchChildren => 0
  | .fabSkeinCfg => 0x4064
  | .ingDistCfg => 0x32
  | .chkScrub => 0x3E8
  | .chkFenceCfg => 0xA03
  | .obsCtrl => 0x40
  | .obsCntCfg _ _ => 0x700
  | .obsDye => BitVec.ofNat 128 (2 ^ 32)
  | .reserved _ => 0

/-- Value of a set-up register. -/
def State.reg (s : State) (f : FnId) (r : RegId) : BitVec 128 := AMap.get (regReset s.fuses r) s.setup (regKey f r)

/-- The state with a set-up register at a value. -/
def State.setReg (s : State) (f : FnId) (r : RegId) (v : BitVec 128) : State :=
  { s with setup := AMap.set (regReset s.fuses r) s.setup (regKey f r) v }

/-- A register with a field replaced. -/
def putField (r : BitVec 128) (lsb len a : Nat) : BitVec 128 :=
  (r &&& ~~~(BitVec.ofNat 128 ((2 ^ len - 1) * 2 ^ lsb))) ||| BitVec.ofNat 128 (a % 2 ^ len * 2 ^ lsb)

/-- Field of a PF register. -/
def State.pf (s : State) (r : RegId) (lsb len : Nat) : Nat := fld (s.reg 0 r) lsb len

end Sys2Proof.Machine
end

