-- ==== Sys2Proof/Machine/Access.lean ====
section
/-! DEFINITION. Accessors of the state: cores, engines, functions, ports, regions and passes, the geometry of cores and
dies (R11), and the partitions and regions that the set-up registers describe (R343 to R345). -/

namespace Sys2Proof.Machine

/-! ### Cores and engines -/

/-- Core with a linear index (R11). -/
def State.core (s : State) (c : Nat) : Core := AMap.get Core.reset s.cores c
/-- The state with a core replaced. -/
def State.setCore (s : State) (c : Nat) (k : Core) : State := { s with cores := AMap.set Core.reset s.cores c k }
/-- The state with a function applied to a core. -/
def State.updCore (s : State) (c : Nat) (f : Core → Core) : State := s.setCore c (f (s.core c))

/-- Engine of a core. -/
def Core.engine (k : Core) : Eng → Engine
  | .mxe => k.mxeQ | .vxe => k.vxeQ | .txe => k.txeQ | .gxe => k.gxeQ | .fxe => k.fxeQ
/-- The core with an engine replaced. -/
def Core.setEngine (k : Core) (e : Eng) (q : Engine) : Core :=
  match e with
  | .mxe => { k with mxeQ := q } | .vxe => { k with vxeQ := q } | .txe => { k with txeQ := q }
  | .gxe => { k with gxeQ := q } | .fxe => { k with fxeQ := q }
/-- All engines, in the order of their numbers (R126). -/
def allEngines : List Eng := [.mxe, .vxe, .txe, .gxe, .fxe]
/-- Engine by number. -/
def engOf : Nat → Eng
  | 0 => .mxe | 1 => .vxe | 2 => .txe | 3 => .gxe | _ => .fxe
/-- Engine of a core in the state. -/
def State.engine (s : State) (c : Nat) (e : Eng) : Engine := (s.core c).engine e
/-- The state with a function applied to an engine. -/
def State.updEngine (s : State) (c : Nat) (e : Eng) (f : Engine → Engine) : State :=
  s.updCore c fun k => k.setEngine e (f (k.engine e))
/-- The core with a function applied to every engine. -/
def Core.mapEngines (k : Core) (f : Engine → Engine) : Core :=
  { k with mxeQ := f k.mxeQ, vxeQ := f k.vxeQ, txeQ := f k.txeQ, gxeQ := f k.gxeQ, fxeQ := f k.fxeQ }

/-- An engine that the fuses provide: the gather engine is absent on the AVM1536-S (R107, R158). -/
def State.present (s : State) (e : Eng) : Bool := !(e == .gxe && s.fuses.grade == .s)

/-! ### Geometry (R11) -/

/-- Column x of a core. -/
def coreX (c : Nat) : Nat := c % 48
/-- Row y of a core. -/
def coreY (c : Nat) : Nat := c / 48
/-- Compute die of a core. -/
def coreDie (c : Nat) : Nat := (coreY c / 12) * 4 + coreX c / 12
/-- Local index of a core within its die. -/
def coreLocal (c : Nat) : Nat := (coreY c % 12) * 12 + coreX c % 12
/-- Linear index from die and local index. -/
def coreAt (die loc : Nat) : Nat := ((die / 4) * 12 + loc / 12) * 48 + (die % 4) * 12 + loc % 12
/-- Clock region of a core. -/
def coreRegion (c : Nat) : Nat := (coreY c / 6) * 8 + coreX c / 6
/-- Absolute difference. -/
def dist (a b : Nat) : Nat := (a - b) + (b - a)
/-- Die steps between two cores (R230). -/
def dieSteps (a b : Nat) : Nat := dist (coreX a / 12) (coreX b / 12) + dist (coreY a / 12) (coreY b / 12)
/-- Die steps between a core and an I/O die for an attach column: the die lies in row −1 or 3 (R230). -/
def ioSteps (c io col : Nat) : Nat :=
  dist (coreX c / 12) (col / 12) + (if io < 2 then coreY c / 12 + 1 else 3 - coreY c / 12)
/-- First mesh column of an I/O die's span (R8). -/
def ioBase (io : Nat) : Nat := if io % 2 = 0 then 0 else 24
/-- Spare position (R13). -/
def State.spare (s : State) (c : Nat) : Bool :=
  s.fuses.grade == .s && bitAt (nth 0 s.fuses.spares (coreDie c)) (coreLocal c)

/-! ### Functions, ports, regions, passes -/

/-- A function. -/
def State.fn (s : State) (f : Nat) : Func := AMap.get Func.reset s.fns f
/-- The state with a function replaced. -/
def State.setFn (s : State) (f : Nat) (v : Func) : State := { s with fns := AMap.set Func.reset s.fns f v }
/-- The state with an update applied to a function. -/
def State.updFn (s : State) (f : Nat) (u : Func → Func) : State := s.setFn f (u (s.fn f))
/-- A port. -/
def State.port (s : State) (p : Nat) : Port := AMap.get Port.reset s.ports p
/-- The state with an update applied to a port. -/
def State.updPort (s : State) (p : Nat) (u : Port → Port) : State :=
  { s with ports := AMap.upd Port.reset s.ports p u }
/-- A clock region. -/
def State.region (s : State) (r : Nat) : Region := AMap.get Region.reset s.regions r
/-- The state with an update applied to a region. -/
def State.updRegion (s : State) (r : Nat) (u : Region → Region) : State :=
  { s with regions := AMap.upd Region.reset s.regions r u }
/-- A pass by key. -/
def State.pass (s : State) (k : Nat) : Option Pass := AMap.get none s.passes k
/-- The state with a pass replaced. -/
def State.setPass (s : State) (k : Nat) (p : Pass) : State := { s with passes := AMap.set none s.passes k (some p) }
/-- The state with an update applied to a pass. -/
def State.updPass (s : State) (k : Nat) (u : Pass → Pass) : State :=
  match s.pass k with
  | some p => s.setPass k (u p)
  | none => s
/-- All passes with their keys. -/
def State.allPasses (s : State) : List (Nat × Pass) := s.passes.filterMap fun kv => kv.2.map fun p => (kv.1, p)

/-- Pass states after admission and before COMPLETE. -/
def passLive : PassState → Bool
  | .queued => false | .complete => false | _ => true
/-- RUNNING, GATING or QUIESCING: no pass boundary (before R218). -/
def passBusy : PassState → Bool
  | .running => true | .gating => true | .quiescing => true | _ => false

/-- The pass of a function that is past QUEUED and not COMPLETE. -/
def State.curPass (s : State) (f : FnId) : Option (Nat × Pass) :=
  s.allPasses.find? fun kp => kp.2.fn == f && passLive kp.2.state

/-- PF function. -/
def pfn : FnId := 0

/-! ### Partitions and regions -/

/-- Fields of SET_PART: col, ncols, row, nrows, enable. -/
structure Part where
  col : Nat
  ncols : Nat
  row : Nat
  nrows : Nat
  enable : Bool
  deriving DecidableEq, Repr

/-- A partition from the register's value. -/
def Part.of (v : BitVec 128) : Part :=
  { col := fld v 0 2, ncols := fld v 2 2, row := fld v 4 2, nrows := fld v 6 2, enable := bitAt v 8 }
/-- A partition (R343). -/
def State.part (s : State) (p : PartId) : Part := .of (s.reg 0 (.setPart p))
/-- The rectangle holds a die. -/
def Part.hasDie (p : Part) (die : Nat) : Bool :=
  p.col ≤ die % 4 && die % 4 ≤ p.col + p.ncols && p.row ≤ die / 4 && die / 4 ≤ p.row + p.nrows
/-- Rectangles overlap. -/
def Part.overlaps (p q : Part) : Bool := (List.range 12).any fun d => p.hasDie d && q.hasDie d

/-- Fields of SET_FUNC (R345). -/
structure FuncCfg where
  part : Nat
  enable : Bool
  actBase : Nat
  actSize : Nat
  psmBase : Nat
  psmSize : Nat
  wBase : Nat
  wSize : Nat
  deriving DecidableEq, Repr

/-- Function set-up from the register's value; sizes and bases in bytes. -/
def FuncCfg.of (v : BitVec 128) : FuncCfg :=
  { part := fld v 0 4, enable := bitAt v 4, actBase := fld v 8 6 * 0x10000, actSize := fld v 14 6 * 0x10000,
    psmBase := fld v 20 6 * 0x4000, psmSize := fld v 26 6 * 0x4000, wBase := fld v 32 4 * 0x400000,
    wSize := fld v 36 4 * 0x400000 }
/-- Set-up of a function (R345). -/
def State.func (s : State) (f : FnId) : FuncCfg := .of (s.reg 0 (.setFunc f))
/-- Partition of a function. -/
def State.partOf (s : State) (f : FnId) : Part := s.part (Fin.ofNat 12 (s.func f).part)
/-- A core that lies in a function's partition. -/
def State.inPart (s : State) (f : FnId) (c : Nat) : Bool :=
  decide (c < 1728) && (s.partOf f).enable && (s.partOf f).hasDie (coreDie c)
/-- Two functions share a partition. -/
def State.sharePart (s : State) (f g : FnId) : Bool := (s.func f).part == (s.func g).part
/-- The functions in order of their numbers. -/
def allFns : List FnId := (List.range 16).map (Fin.ofNat 16)
/-- Enabled partition that holds a die. -/
def State.partOfDie (s : State) (die : Nat) : Option PartId :=
  ((List.range 12).map (Fin.ofNat 12)).find? fun p => (s.part p).enable && (s.part p).hasDie die
/-- Cores of a function's partition, ascending. -/
def State.coresOf (s : State) (f : FnId) : List Nat := (List.range 1728).filter fun c => s.inPart f c
/-- Function whose pass runs on a core's partition, with the pass. -/
def State.ownerOf (s : State) (c : Nat) : Option (Nat × Pass) :=
  s.allPasses.find? fun kp => passLive kp.2.state && s.inPart kp.2.fn c
/-- A core that takes programs: enabled, in service (R214). -/
def State.serving (s : State) (c : Nat) : Bool := (s.core c).svc == .inService
/-- Module identifier (R263). -/
def State.moduleId (s : State) : BitVec 12 := BitVec.ofNat 12 (s.pf .fabModuleId 0 12)

/-! ### Skein tree -/

/-- The skein has two or more members. -/
def Skein.multi (k : Skein) : Bool := decide (2 ≤ k.plan.length)
/-- This member is the stitch root. -/
def State.stitchRoot (s : State) : Bool := s.pf .fabStitchTree 5 1 == 1
/-- Port towards the stitch root. -/
def State.stitchParent (s : State) : Nat := s.pf .fabStitchTree 0 5
/-- Ports towards children, ascending. -/
def State.stitchChildren (s : State) : List Nat := setBits 32 (s.pf .fabStitchChildren 0 32)
/-- Ports of the stitch tree. -/
def State.treePorts (s : State) : List Nat :=
  (if s.stitchRoot then [] else [s.stitchParent]) ++ s.stitchChildren

end Sys2Proof.Machine
end

