-- ==== Sys2Proof/Machine/Hash.lean ====
section
/-! DEFINITION. SHA-256 (R208, R324, R381), CRC-32C (R142) and the CRC-16 of link flits (R254). -/

namespace Sys2Proof.Machine

/-! ### SHA-256 -/

/-- The eight 32-bit words of a 256-bit number, most significant first. -/
def octet (n : Nat) : List W32 := (List.range 8).map fun i => BitVec.ofNat 32 (n / 2 ^ (224 - 32 * i))

/-- Round constants of FIPS 180-4, eight to a number. -/
def shaK : List W32 :=
  octet 0x428a2f9871374491b5c0fbcfe9b5dba53956c25b59f111f1923f82a4ab1c5ed5 ++
    octet 0xd807aa9812835b01243185be550c7dc372be5d7480deb1fe9bdc06a7c19bf174 ++
    octet 0xe49b69c1efbe47860fc19dc6240ca1cc2de92c6f4a7484aa5cb0a9dc76f988da ++
    octet 0x983e5152a831c66db00327c8bf597fc7c6e00bf3d5a7914706ca635114292967 ++
    octet 0x27b70a852e1b21384d2c6dfc53380d13650a7354766a0abb81c2c92e92722c85 ++
    octet 0xa2bfe8a1a81a664bc24b8b70c76c51a3d192e819d6990624f40e3585106aa070 ++
    octet 0x19a4c1161e376c082748774c34b0bcb5391c0cb34ed8aa4a5b9cca4f682e6ff3 ++
    octet 0x748f82ee78a5636f84c878148cc7020890befffaa4506cebbef9a3f7c67178f2

/-- Eight chaining words. -/
structure Sha where
  a : W32
  b : W32
  c : W32
  d : W32
  e : W32
  f : W32
  g : W32
  h : W32
  deriving DecidableEq, Repr

/-- Chaining words from a list of eight. -/
def Sha.ofWords (w : List W32) : Sha :=
  { a := nth 0 w 0, b := nth 0 w 1, c := nth 0 w 2, d := nth 0 w 3, e := nth 0 w 4, f := nth 0 w 5, g := nth 0 w 6, h := nth 0 w 7 }

/-- Initial value of FIPS 180-4. -/
def Sha.init : Sha := Sha.ofWords (octet 0x6a09e667bb67ae853c6ef372a54ff53a510e527f9b05688c1f83d9ab5be0cd19)

/-- Rotation right. -/
def rotr (w : W32) (n : Nat) : W32 := (w >>> n) ||| (w <<< (32 - n))

/-- One round with message word plus constant `kw`. -/
def shaRound (s : Sha) (kw : W32) : Sha :=
  let s1 := rotr s.e 6 ^^^ rotr s.e 11 ^^^ rotr s.e 25
  let ch := (s.e &&& s.f) ^^^ (~~~s.e &&& s.g)
  let t1 := s.h + s1 + ch + kw
  let s0 := rotr s.a 2 ^^^ rotr s.a 13 ^^^ rotr s.a 22
  let maj := (s.a &&& s.b) ^^^ (s.a &&& s.c) ^^^ (s.b &&& s.c)
  { a := t1 + (s0 + maj), b := s.a, c := s.b, d := s.c, e := s.d + t1, f := s.e, g := s.f, h := s.g }

/-- Run the rounds over constants with the sliding window of sixteen message words. -/
def shaRounds : List W32 → List W32 → Sha → Sha
  | [], _, s => s
  | k :: ks, ws, s =>
    let w0 := nth 0 ws 0
    let w1 := nth 0 ws 1
    let w14 := nth 0 ws 14
    let next := w0 + (rotr w1 7 ^^^ rotr w1 18 ^^^ (w1 >>> 3)) + nth 0 ws 9
      + (rotr w14 17 ^^^ rotr w14 19 ^^^ (w14 >>> 10))
    shaRounds ks (ws.drop 1 ++ [next]) (shaRound s (k + w0))

/-- Big-endian words of a block. -/
def shaWords (block : List Byte) : List W32 := (chunks 4 16 block).map fun b => BitVec.ofNat 32 (leNat b.reverse)

/-- Compress one 64-byte block. -/
def shaBlock (s : Sha) (block : List Byte) : Sha :=
  let r := shaRounds shaK (shaWords block) s
  { a := s.a + r.a, b := s.b + r.b, c := s.c + r.c, d := s.d + r.d, e := s.e + r.e, f := s.f + r.f, g := s.g + r.g,
    h := s.h + r.h }

/-- Message padding. -/
def shaPad (msg : List Byte) : List Byte :=
  msg ++ [0x80] ++ List.replicate ((119 - msg.length % 64) % 64) 0 ++ beBytes 8 (8 * msg.length)

/-- SHA-256 of a byte string: 32 bytes. -/
def sha256 (msg : List Byte) : List Byte :=
  let p := shaPad msg
  let s := (chunks 64 (p.length / 64) p).foldl shaBlock Sha.init
  [s.a, s.b, s.c, s.d, s.e, s.f, s.g, s.h].flatMap fun w => beBytes 4 w.toNat

/-- SHA-256 as a 256-bit number, byte i in bits [8i+7:8i]. -/
def sha256n (msg : List Byte) : BitVec 256 := BitVec.ofNat 256 (leNat (sha256 msg))

/-! ### CRC -/

/-- One byte into a reflected CRC-32C register (polynomial 0x1EDC6F41, reflected 0x82F63B78). -/
def crc32cByte (c : W32) (b : Byte) : W32 :=
  (List.range 8).foldl (fun c _ => if bitAt c 0 then (c >>> 1) ^^^ 0x82F63B78 else c >>> 1) (c ^^^ b.setWidth 32)

/-- Fold bytes into a CRC-32C register without final inversion (R142). -/
def crc32cFold (c : W32) (bs : List Byte) : W32 := bs.foldl crc32cByte c

/-- CRC-32C with initial value and final inversion of all ones. -/
def crc32c (bs : List Byte) : W32 := ~~~(crc32cFold 0xFFFFFFFF bs)

/-- One bit into a CRC-16 register with polynomial 0x8BB7, most significant bit first. -/
def crc16Bit (c : BitVec 16) (b : Bool) : BitVec 16 :=
  if xor (bitAt c 15) b then (c <<< 1) ^^^ 0x8BB7 else c <<< 1

/-- One byte into the CRC-16 register, most significant bit first. -/
def crc16Byte (c : BitVec 16) (b : Byte) : BitVec 16 :=
  (List.range 8).foldl (fun c i => crc16Bit c (bitAt b (7 - i))) c

/-- CRC-16 register after bytes. The match makes each intermediate value a numeral, which the kernel evaluates fast. -/
def crc16From (c : Nat) : List Byte → Nat
  | [] => c
  | b :: bs =>
    match (crc16Byte (BitVec.ofNat 16 c) b).toNat with
    | 0 => crc16From 0 bs
    | n + 1 => crc16From (n + 1) bs

/-- CRC-16 of bytes with initial value 0xFFFF (R254). -/
def crc16 (bs : List Byte) : BitVec 16 := BitVec.ofNat 16 (crc16From 0xFFFF bs)

end Sys2Proof.Machine
end

