-- ==== Sys2Proof/Machine/Ops.lean ====
section
/-! DEFINITION. Shared operations: memory with landing cycles (R160, R188, R191), what leaves the module, log and trace
rings (R440 to R442), interrupts (R347, R360), observation counters (R433, R434, R436) and the address checks of R161
and R345. -/

namespace Sys2Proof.Machine

/-- The executable hash (R208). -/
def Exe.hash (x : Exe) : BitVec 256 := sha256n x.file

/-! ### What leaves the module -/

/-- Something leaves the module. -/
def State.emit (s : State) (o : Out) : State := { s with out := o :: s.out }

/-- 64-byte entry of a log or trace ring (table "Ring entry"). -/
def ringEntryBytes (ty fn : Byte) (seq : Nat) (tb : W64) (payload : List Byte) : List Byte :=
  [ty, fn, 0, 0] ++ leBytes 4 seq ++ leBytes 8 tb.toNat ++ padTo 40 0 payload ++ [0, 0, 0, 0] ++ leBytes 4 seq

/-- Saturating increment of a counter of `n` bits. -/
def satInc (n v : Nat) : Nat := if v + 1 < 2 ^ n then v + 1 else 2 ^ n - 1

/-- Raise an MSI-X vector of a function under its allowance of 4 × irq messages per millisecond (R347, R360). -/
def State.interrupt (s : State) (f : FnId) (v : Fin 128) : State :=
  let u := s.fn f.val
  if u.irqSent < 4 * fld u.qos 24 8 then
    (s.updFn f.val fun u => { u with irqSent := u.irqSent + 1 }).emit (.msix f v)
  else if u.irqHeld.contains v then s
  else s.updFn f.val fun u => { u with irqHeld := u.irqHeld ++ [v] }

/-- Write an entry to a function's log ring and raise vector 1 (R360, R440); without a ring it is counted in OBS_LOST. -/
def State.logTo (s : State) (f : FnId) (ty cause : Byte) (payload : List Byte) : State :=
  match (s.fn f.val).log with
  | none => { s with obs := { s.obs with lostLog := satInc 32 s.obs.lostLog } }
  | some r =>
    ((s.updFn f.val fun u => { u with log := some { r with seq := r.seq + 1 } }).emit
      (.ringEntry f false (r.seq % 2 ^ r.log2) (ringEntryBytes ty cause r.seq s.clk.timebase payload))).interrupt f 1

/-- Record a trace point for a function (R440, R442): only if its bit is set in the mask of the ring; dye records are
not masked. -/
def State.traceTo (s : State) (f : FnId) (ty cause : Byte) (payload : List Byte) : State :=
  match (s.fn f.val).trace with
  | none => { s with obs := { s.obs with lostTrace := satInc 32 s.obs.lostTrace } }
  | some r =>
    if ty.toNat < 0x20 || r.mask.getLsbD (ty.toNat - 0x20) then
      (s.updFn f.val fun u => { u with trace := some { r with seq := r.seq + 1 } }).emit
        (.ringEntry f true (r.seq % 2 ^ r.log2) (ringEntryBytes ty cause r.seq s.clk.timebase payload))
    else s

/-- Log to a function and, when that is not the PF, to the PF first (R441). -/
def State.logBoth (s : State) (f : Option FnId) (ty cause : Byte) (payload : List Byte) : State :=
  let s := s.logTo pfn ty cause payload
  match f with
  | some g => if g = pfn then s else s.logTo g ty cause payload
  | none => s

/-- Trace point that goes to every function with an enabled trace ring (types 0x23 and 0x26, R442). -/
def State.traceAll (s : State) (ty : Byte) (payload : List Byte) : State :=
  (allFns.filter fun f => (s.fn f.val).trace.isSome).foldl (fun s f => s.traceTo f ty 0xFF payload) s

/-- A refused access, log type 0x03 (table "Log entry types"): kind 1 register, 2 BAR2, 3 staging slot, 4 scrubbing
region. -/
def State.logRefused (s : State) (f : FnId) (addr : Nat) (kind : Byte) : State :=
  s.logTo f 0x03 (BitVec.ofNat 8 f.val) (leBytes 8 addr ++ [kind])

/-- An event of a PLDM sensor: it stays unread, with SMBALERT# asserted, if the sensor is subscribed (R453). -/
def State.sensed (s : State) (x : PldmSensor) : State :=
  if s.side.subscribed.contains x && !s.side.unread.contains x then
    { s with side := { s.side with unread := s.side.unread ++ [x] } }
  else s

/-! ### Memory -/

/-- The cells of `bs` from address `a` up, without zeros: an unlisted byte reads 0. -/
def runCells : Nat → List Byte → List Host.Cell
  | _, [] => []
  | a, b :: t => if b = 0 then runCells (a + 1) t else (a, b) :: runCells (a + 1) t

/-- Memory with the bytes `bs` at address `a`. -/
def memPut (m : List Host.Cell) (a : Nat) (bs : List Byte) : List Host.Cell :=
  m.filter (fun c => decide (c.1 < a)) ++ runCells a bs ++ m.filter (fun c => decide (a + bs.length ≤ c.1))

/-- One byte of memory. -/
def memByte (m : List Host.Cell) (a : Nat) : Byte := AMap.get 0 m a

/-- `n` bytes from address `a`. -/
def memGet (m : List Host.Cell) (a n : Nat) : List Byte :=
  let w := m.filter fun c => decide (a ≤ c.1) && decide (c.1 < a + n)
  (List.range n).map fun i => memByte w (a + i)

/-- Memory with the `n` bytes from `a` at zero. -/
def memZero (m : List Host.Cell) (a n : Nat) : List Host.Cell :=
  m.filter fun c => decide (c.1 < a) || decide (a + n ≤ c.1)

/-- The canonical form of memory: addresses strictly rising, no byte listed that is 0. -/
abbrev Memory.wf (m : List Host.Cell) : Bool := AMap.wf (0 : Byte) m

/-- Absolute module address (R160). -/
def absAddr (space core off : Nat) : Nat := space * 2 ^ 44 + core * 2 ^ 32 + off

/-- Capacity of a space in bytes (table "Address spaces"); 0 for spaces without offsets of their own. -/
def spaceSize : Nat → Nat
  | 0 => 0x3000000 | 1 => 0x300000 | 2 => 0x80000 | 3 => 0x40000 | 4 => 0xC00 | _ => 0

/-- Bytes of one access overlaid by a pending write. -/
def overlay (a : Nat) (bs : List Byte) (w : MWrite) : List Byte :=
  if a < w.addr + w.data.length && w.addr < a + bs.length then
    bs.zipIdx.map fun bi =>
      let k := a + bi.2
      if w.addr ≤ k && k < w.addr + w.data.length then nth 0 w.data (k - w.addr) else bi.1
  else bs

/-- Put a write into a list that is kept by landing cycle; equal cycles keep issue order. -/
def insWrite (w : MWrite) : List MWrite → List MWrite
  | [] => [w]
  | v :: t => if w.land < v.land then w :: v :: t else v :: insWrite w t

/-- `n` bytes at an absolute address as a reader in kernel cycle `t` sees them: the writes of the core that landed in an
earlier cycle (R188, R191). -/
def State.readAt (s : State) (c t a n : Nat) : List Byte :=
  ((s.core c).mpend.filter fun w => decide (w.land < t)).foldl (overlay a) (memGet s.mem a n)

/-- A write of an engine number that lands in kernel cycle `land` of the core's pass. -/
def State.writeAt (s : State) (c land a : Nat) (data : List Byte) (eng : Nat) : State :=
  s.updCore c fun k => { k with mpend := insWrite { land := land, addr := a, data := data, eng := eng } k.mpend }

/-- A write that lands at once. -/
def State.writeNow (s : State) (a : Nat) (data : List Byte) : State := { s with mem := memPut s.mem a data }

/-- Land the core's pending writes whose cycle is before `t`. -/
def State.settle (s : State) (c t : Nat) : State :=
  let (now, later) := (s.core c).mpend.partition fun w => decide (w.land < t)
  match now with
  | [] => s
  | _ => { (s.updCore c fun k => { k with mpend := later }) with
           mem := now.foldl (fun m w => memPut m w.addr w.data) s.mem }

/-- Land every pending write of a core. -/
def State.settleAll (s : State) (c : Nat) : State :=
  match (s.core c).mpend with
  | [] => s
  | l => { (s.updCore c fun k => { k with mpend := [] }) with mem := l.foldl (fun m w => memPut m w.addr w.data) s.mem }

/-- Bytes at an absolute address as an access without a kernel cycle reads them: every issued write has landed. -/
def State.readNow (s : State) (c a n : Nat) : List Byte :=
  (s.core c).mpend.foldl (overlay a) (memGet s.mem a n)

/-- Worst mark of the code words that `n` bytes from `a` touch, with words of `w` bytes (R177). -/
def eccWorst (e : AMap EccMark) (w a n : Nat) : Option EccMark :=
  let hit := e.filter fun kv => decide (a < kv.1 + w) && decide (kv.1 < a + n)
  if hit.any fun kv => kv.2 == .uncorrectable then some .uncorrectable
  else if hit.isEmpty then none else some .correctable

/-- Bytes of a code word of a space (table "Memories of one core"). -/
def eccWord : Nat → Nat
  | 0 => 32 | 1 => 4 | 2 => 4 | _ => 8

/-- Detail code of a memory's read errors (table "Memory code outcomes"). -/
def eccDetail : Nat → Byte
  | 0 => 0x70 | 1 => 0x71 | 2 => 0x72 | 3 => 0x73 | _ => 0x74

/-- A write replaces the code words that it covers wholly: their marks go (R177). -/
def State.clearEcc (s : State) (space a n : Nat) : State :=
  { s with ecc := s.ecc.filter fun kv => !(decide (a ≤ kv.1) && decide (kv.1 + eccWord space ≤ a + n)) }

/-- Two byte ranges share a byte. -/
def rangesMeet (a n b m : Nat) : Bool := decide (0 < n) && decide (0 < m) && decide (a < b + m) && decide (b < a + n)

/-! ### Address checks (R161, R345, R330, R403, R404) -/

/-- Space of a module address. -/
def aSpace (a : MAddr) : Nat := fld a 44 4
/-- Core field of a module address. -/
def aCore (a : MAddr) : Nat := fld a 32 11
/-- Offset of a module address. -/
def aOff (a : MAddr) : Nat := fld a 0 32

/-- Base and size of a function's region in a space, in bytes (R345, R330). The weight region of a pass is the copy
that its generation lies in. -/
def State.regionOf (s : State) (f : FnId) (space : Nat) : Nat × Nat :=
  let c := s.func f
  match space with
  | 1 => (c.actBase, c.actSize)
  | 2 => (c.psmBase, c.psmSize)
  | 0 =>
    let len := match (s.fn f.val).session with
      | some ss => (match ss.manifest with | some m => m.copyLen | none => c.wSize)
      | none => c.wSize
    let copy := match s.curPass f with
      | some (_, p) => p.copy
      | none => 0
    (c.wBase + copy * len, len)
  | n => (0, spaceSize n)

/-- The region of a function in a space, as SET_FUNC gives it. -/
def State.wholeRegion (s : State) (f : FnId) (space : Nat) : Nat × Nat :=
  let c := s.func f
  match space with
  | 1 => (c.actBase, c.actSize)
  | 2 => (c.psmBase, c.psmSize)
  | _ => (c.wBase, c.wSize)

/-- The region of a function in a space meets one that is in SCRUBBING (R404). -/
def State.scrubbing (s : State) (f : FnId) (space : Nat) : Bool :=
  s.teasel.any fun t => t.space == space && (Part.of t.part).overlaps (s.partOf f) &&
    decide (t.base < (s.wholeRegion f space).1 + (s.wholeRegion f space).2) && decide ((s.wholeRegion f space).1 < t.base + t.size)

/-- A region of a function enters SCRUBBING (R404). -/
def State.startScrub (s : State) (f : FnId) (space : Nat) : State :=
  let t : Scrub := {
    fn := f, space := space, part := s.reg 0 (.setPart (Fin.ofNat 12 (s.func f).part)), base := (s.wholeRegion f space).1,
    size := (s.wholeRegion f space).2 }
  if s.teasel.contains t then s else { s with teasel := s.teasel ++ [t] }

/-- Slice bytes of a core lie in a retained copy that is not bound (R403). -/
def State.unbound (s : State) (c o n : Nat) : Bool :=
  s.fns.any fun kv => kv.2.retained && (kv.2.retention.bind fun r => r.home).any fun h =>
    (Part.of h.1.part).hasDie (coreDie c) && rangesMeet o n h.1.base h.1.size

/-- A spare that no load image maps (R13, R161). -/
def State.unmappedSpare (s : State) (f : FnId) (c : Nat) : Bool :=
  s.spare c && !(match (s.fn f.val).exe with
    | some x => x.place.any fun p => p.1 == c
    | none => false)

/-- Absolute byte range of an engine access of a function, or the ACCESS_DENIED detail: the core field, bit 43 and the
offset (0x70), the partition (0x71), the region (0x72), SCRUBBING (0x73), unbound retained weights (0x74). -/
def State.resolve (s : State) (f : FnId) (a : MAddr) (n : Nat) : Except Byte (Nat × Nat) :=
  let sp := aSpace a
  let c := aCore a
  let o := aOff a
  if 1728 ≤ c || bitAt a 43 || spaceSize sp < o + n then .error 0x70
  else if !s.inPart f c || s.unmappedSpare f c then .error 0x71
  else
    let (base, size) := s.regionOf f sp
    if size < o + n || spaceSize sp < base + o + n then .error 0x72
    else if s.scrubbing f sp then .error 0x73
    else if sp == 0 && s.unbound c (base + o) n then .error 0x74
    else .ok (c, absAddr sp c (base + o))

/-! ### Observation counters -/

/-- Value of OBS_CNT_CFG in effect for a core's partition. -/
def State.cntCfg (s : State) (c i : Nat) : W32 :=
  match s.partOfDie (coreDie c) with
  | some p => AMap.get 0x700 s.obs.cnt (6 * p.val + i)
  | none => 0x700

/-- Add to a 48-bit programmable counter, with its wraps carried into the counter above or flagged (R434). -/
def addProg (k : Obs) (chain : Bool) (i n : Nat) : Obs :=
  let flag := fun (o : Obs) (j : Nat) => if o.ovf.contains j then o else { o with ovf := o.ovf ++ [j] }
  let v := (AMap.get 0 k.prog i).toNat + n
  let k' := { k with prog := AMap.set 0 k.prog i (BitVec.ofNat 48 v) }
  if v < 2 ^ 48 then k'
  else if chain then
    let u := (AMap.get 0 k'.prog (i + 1)).toNat + v / 2 ^ 48
    let k' := { k' with prog := AMap.set 0 k'.prog (i + 1) (BitVec.ofNat 48 u) }
    if u < 2 ^ 48 then k' else flag k' (i + 1)
  else flag k' i

/-- An event in the cycles from `a` up to `b` on a counter in edge mode: a span that stands alone begins with one edge, one that
touches spans joins them (R433). Spans that ended before `old` are forgotten. -/
def edgeProg (k : Obs) (chain : Bool) (i old a b : Nat) : Obs :=
  let l := (AMap.get [] k.spans i).filter fun p => decide (old ≤ p.2)
  let meets := fun (p : Nat × Nat) => decide (p.1 ≤ b) && decide (a ≤ p.2)
  let hit := l.filter meets
  let whole := (hit.foldl (fun m p => min m p.1) a, hit.foldl (fun m p => max m p.2) b)
  let k := { k with spans := AMap.set [] k.spans i ((l.filter fun p => !meets p) ++ [whole]) }
  if hit.isEmpty then addProg k chain i 1
  else { k with prog := AMap.upd 0 k.prog i (· + 1 - BitVec.ofNat 48 hit.length) }

/-- First cycle, numbered from frame 0, of the kernel that a core runs, or of the current frame. -/
def State.kernelBase (s : State) (c : Nat) : Nat :=
  match ((s.core c).job.bind fun j => s.pass j.pass) with
  | some p => 3200 * p.kernelStart.toNat
  | none => 3200 * s.clk.frame.toNat

/-- Count an event of a core: `code` of the table "Counter events", in `len` cycles from `start`, numbered from frame 0, `n` per
cycle; `eng` is none for core-wide events (R433). A core that is not in service counts router events only (R432). -/
def State.countAt (s : State) (c : Nat) (eng : Option Nat) (code start len n : Nat) : State :=
  if len = 0 || n = 0 || (!s.serving c && !(0x30 ≤ code && code ≤ 0x34)) then s
  else
    (List.range 6).foldl (fun s i =>
      let cfg := s.cntCfg c i
      let below := i % 2 == 1 && bitAt (s.cntCfg c (i - 1)) 12
      let engine := fld cfg 8 3
      let mine := fld cfg 0 8 == code && code != 0 && !below
        && (match eng with | none => true | some e => engine == e || engine == 7)
      if mine then
        let old := s.kernelBase c
        s.updCore c fun k =>
          { k with obs := (if bitAt cfg 11 then edgeProg k.obs (bitAt cfg 12) i old start (start + len)
                           else addProg k.obs (bitAt cfg 12) i (len * n)) }
      else s) s

/-- Count an event in cycles of the kernel that the core runs. -/
def State.count (s : State) (c : Nat) (eng : Option Nat) (code start len n : Nat) : State :=
  s.countAt c eng code (s.kernelBase c + start) len n

/-- Count a core-wide event that has no cycle of its own, in the first cycle of the current slot group. -/
def State.countNow (s : State) (c code : Nat) : State :=
  s.countAt c none code (3200 * s.clk.frame.toNat + 32 * (s.clk.sg % 100)) 1 1

/-- Add cycles to a ledger column: 0 Work, 1 Plan, 2 Wait, 3 Busy (R436). -/
def State.ledger (s : State) (c : Nat) (e : Eng) (col start n : Nat) : State :=
  if n = 0 then s
  else
    let s := s.updCore c fun k =>
      { k with obs := { k.obs with
          ledger := AMap.upd 0 k.obs.ledger (4 * e.num + col) (· + BitVec.ofNat 48 n) } }
    s.count c (some e.num) (1 + col) start n 1

/-- A free value of the module: the next of the sequence, with the counter advanced. -/
def State.draw (s : State) (kind : Nat) : W64 × State :=
  (Config.freeValue kind s.fresh, { s with fresh := s.fresh + 1 })

end Sys2Proof.Machine
end

