-- ==== Sys2Proof/Machine/HostOps.lean ====
section
/-! DEFINITION. Completions, the journal and mailbox responses (R350 to R360): shared by every command that ends a
descriptor, a pass or a request. -/

namespace Sys2Proof.Machine

/-! ### Descriptors -/

/-- Field of a 64-byte descriptor: `n` bytes from byte `i` (R352). -/
def dfld (d : BitVec 512) (i n : Nat) : Nat := fld d (8 * i) (8 * n)
/-- Request identifier of a descriptor. -/
def descId (d : BitVec 512) : W64 := BitVec.ofNat 64 (dfld d 8 8)
/-- Opcode of a descriptor. -/
def descOp (d : BitVec 512) : Nat := dfld d 0 1
/-- Fetched descriptor of a ring. -/
def Func.find (u : Func) (r : RingId) (i : BitVec 12) : Option Fetched :=
  u.fetched.find? fun x => x.ring == r && x.index == i
/-- Status of an identifier in the journal: none when it is not there, some none while it is pending (R356). -/
def Func.lookup (u : Func) (id : W64) : Option (Option Status) :=
  (u.journal.find? fun j => j.1 == id).map fun j => j.2
/-- The journal with an entry's status set. -/
def setJournal (id : W64) (st : Status) (j : List (W64 × Option Status)) : List (W64 × Option Status) :=
  j.map fun e => if e.1 = id && e.2.isNone then (e.1, some st) else e

/-- Submission ring of a function. -/
def Func.sqOf (u : Func) (r : Nat) : Sq := AMap.get Sq.reset u.sq r
/-- Completion ring of a function. -/
def Func.cqOf (u : Func) (r : Nat) : Cq := AMap.get Cq.reset u.cq r
/-- The function with a submission ring updated. -/
def Func.updSq (u : Func) (r : Nat) (g : Sq → Sq) : Func := { u with sq := AMap.upd Sq.reset u.sq r g }
/-- The function with a completion ring updated. -/
def Func.updCq (u : Func) (r : Nat) (g : Cq → Cq) : Func := { u with cq := AMap.upd Cq.reset u.cq r g }
/-- Completion ring of a submission ring (RNG_SQ.cq). -/
def State.cqFor (s : State) (f : FnId) (r : RingId) : RingId := Fin.ofNat 16 (fld (s.reg f (.rngSq r)) 64 4)
/-- Entries of a submission ring. -/
def State.sqSize (s : State) (f : FnId) (r : RingId) : Nat := 2 ^ fld (s.reg f (.rngSq r)) 68 4
/-- Entries of a completion ring. -/
def State.cqSize (s : State) (f : FnId) (r : RingId) : Nat := 2 ^ fld (s.reg f (.rngCq r)) 71 4
/-- MSI-X vector of a completion ring. -/
def State.cqVector (s : State) (f : FnId) (r : RingId) : Fin 128 := Fin.ofNat 128 (fld (s.reg f (.rngCq r)) 64 7)

/-- A DRAINING ring is DISABLED once nothing is owed (R350). -/
def Func.drainRings (u : Func) : Func :=
  { u with
    sq := u.sq.filterMap fun kv =>
      if kv.2.state == .draining && !(u.fetched.any fun x => x.ring.val == kv.1) then
        let v : Sq := { kv.2 with state := .disabled }
        if v = Sq.reset then none else some (kv.1, v)
      else some kv
    cq := u.cq.filterMap fun kv =>
      if kv.2.state == .draining && kv.2.reserved == 0 then
        let v : Cq := { kv.2 with state := .disabled }
        if v = Cq.reset then none else some (kv.1, v)
      else some kv }

/-! ### Completions -/

/-- Fields of a completion entry beside those of the descriptor (table "Completion entry"). -/
structure CplInfo where
  attempts : Nat
  orig : Byte
  cause : Byte
  detail : Byte
  pass : W32
  summary : W64
  cert : Bool
  deriving DecidableEq, Repr

/-- A completion that names no pass and no fault. -/
def CplInfo.plain : CplInfo :=
  { attempts := 0, orig := 0, cause := 0, detail := 0, pass := 0, summary := 0, cert := false }

/-- The outputs-invalid flag (R354). -/
def outputsInvalid (st : Status) (orig : Byte) : Bool :=
  match st with
  | .done => false
  | .doneRetried => false
  | .duplicate => !(orig == 0x00 || orig == 0x01)
  | _ => true

/-- The 32-byte completion entry (R354), byte i in bits [8i+7:8i]. -/
def completionEntry (d : BitVec 512) (r : RingId) (i : BitVec 12) (st : Status) (phase : Bool) (x : CplInfo) :
    BitVec 256 :=
  let flags := (if phase then 1 else 0) + (if outputsInvalid st x.orig then 2 else 0) + (if x.cert then 4 else 0)
  BitVec.ofNat 256 (leNat (leBytes 8 (descId d).toNat ++ [st.code, BitVec.ofNat 8 (descOp d)] ++ leBytes 1 r.val
    ++ leBytes 1 flags ++ leBytes 2 i.toNat ++ leBytes 1 x.attempts ++ [x.orig, x.cause, x.detail, 0, 0]
    ++ leBytes 4 x.pass.toNat ++ leBytes 8 x.summary.toNat))

/-- Count a completion towards its ring's message and raise the vector at the count of IRQ_MOD (R360). -/
def State.moderate (s : State) (f : FnId) (cq : RingId) : State :=
  let v := s.cqVector f cq
  let q := (s.fn f.val).cqOf cq.val
  if fld (s.reg f (.irqMod v)) 0 8 ≤ q.unsignalled + 1 then
    (s.updFn f.val fun u => u.updCq cq.val fun q => { q with unsignalled := 0, oldest := none }).interrupt f v
  else
    s.updFn f.val fun u => u.updCq cq.val fun q =>
      { q with unsignalled := q.unsignalled + 1,
               oldest := match q.oldest with
                 | some t => some t
                 | none => some s.clk.timebase }

/-- End a fetched descriptor: write its completion where its ring accepts one, set its journal status unless it is a
duplicate, and return its tag and its completion entry (R350, R351, R354, R356). -/
def State.complete1 (s : State) (f : FnId) (r : RingId) (i : BitVec 12) (st : Status) (x : CplInfo) : State :=
  let u := s.fn f.val
  match u.find r i with
  | none => s
  | some d =>
    let cq := s.cqFor f r
    let q := u.cqOf cq.val
    let open' := q.state == .enabled || q.state == .draining
    let id := descId d.desc
    let u1 := { u with
      fetched := u.fetched.filter fun y => !(y.ring == r && y.index == i),
      tags := u.tags - 1,
      journal := if st = Status.duplicate || id = 0 then u.journal else setJournal id st u.journal }
    let wrap := decide (q.tail.toNat + 1 = s.cqSize f cq)
    let u2 := u1.updCq cq.val fun q =>
      if open' then { q with reserved := q.reserved - 1, tail := if wrap then 0 else q.tail + 1,
                             phase := if wrap then !q.phase else q.phase }
      else { q with reserved := q.reserved - 1 }
    let s := s.setFn f.val { u2.drainRings with active := some s.clk.timebase }
    if open' then
      let s := s.emit (.completion f cq q.tail (completionEntry d.desc r i st q.phase x))
      if dfld d.desc 1 1 % 2 = 1 then s else s.moderate f cq
    else s

/-- A fetched descriptor that may end now because others have: a duplicate whose original is final (R356), or a FENCE
all of whose earlier descriptors have completed (R353). -/
def Func.ready (u : Func) : Option (Fetched × Option Byte) :=
  let dup := u.fetched.findSome? fun d =>
    if d.phase == .duplicate then
      match u.lookup (descId d.desc) with
      | some (some st) => some (d, some st.code)
      | none => some (d, some 0)
      | _ => none
    else none
  match dup with
  | some r => some r
  | none =>
    (u.fetched.find? fun d => d.phase == .executing && descOp d.desc == 5 &&
      !(u.fetched.any fun e => decide (e.order < d.order) && (dfld d.desc 16 1 == 1 || e.ring == d.ring))).map
      fun d => (d, none)

/-- Complete what the latest completion has made ready, on fuel. -/
def settleHost : Nat → State → FnId → State
  | 0, s, _ => s
  | n + 1, s, f =>
    match (s.fn f.val).ready with
    | none => s
    | some (d, some orig) => settleHost n (s.complete1 f d.ring d.index Status.duplicate { CplInfo.plain with orig := orig }) f
    | some (d, none) => settleHost n (s.complete1 f d.ring d.index .done CplInfo.plain) f

/-- Complete a descriptor, and every duplicate and FENCE that this makes ready. -/
def State.complete (s : State) (f : FnId) (r : RingId) (i : BitVec 12) (st : Status) (x : CplInfo) : State :=
  let s := s.complete1 f r i st x
  settleHost (s.fn f.val).fetched.length s f

/-- Complete a descriptor without pass or fault. -/
def State.finish (s : State) (f : FnId) (r : RingId) (i : BitVec 12) (st : Status) : State := s.complete f r i st .plain

/-- Mark a fetched descriptor as executing. -/
def State.executing (s : State) (f : FnId) (r : RingId) (i : BitVec 12) : State :=
  s.updFn f.val fun u => { u with fetched := u.fetched.map fun d =>
    if d.ring == r && d.index == i then { d with phase := .executing } else d }

/-! ### Mailbox (R358) -/

/-- Write a response, keep it for duplicates, and raise vector 0. -/
def State.respond (s : State) (q : Mbx) (st : Status) (detail : BitVec 16) (payload : List Byte) : State :=
  let short := decide (q.respLen < 32 + payload.length)
  let st' := if short then Status.rejectedFormat else st
  let body := if short then [] else payload
  let detail' := if short then 0 else detail
  let s := s.updFn q.f.val fun u =>
    { u with mbxSeq := q.seq, mbxStatus := st'.code, mbxBusy := false, mbxCache := some (st', detail', body),
             active := some s.clk.timebase }
  (s.emit (.response q.f q.respAddr q.seq st' detail' body)).interrupt q.f 0

/-- A response that leaves the mailbox as it is: the cached one of a duplicate, or the refusal of a sequence number. It
counts as activity of the function (R349, R358). -/
def State.answer (s : State) (q : Mbx) (st : Status) (detail : BitVec 16) (payload : List Byte) : State :=
  ((s.emit (.response q.f q.respAddr q.seq st detail payload)).interrupt q.f 0).updFn q.f.val fun u =>
    { u with active := some s.clk.timebase }

/-- The gate that every Vedihar request passes (R358, R359): the doorbell page names it, then the sequence, the major, the
function, then the request's own effect. While a request is in execution, only that one goes on; a later one is read after
its completion. -/
def State.mailbox (s : State) (q : Mbx) (allowed : Bool) (run : State → State) : State :=
  let u := s.fn q.f.val
  if u.mbxBusy then (if q.seq = u.mbxSeq + 1 && q.major = 3 && allowed then run s else s)
  else if u.pageAddr = 0 || u.pageSeq.setWidth 32 ≠ q.seq then s
  else if q.seq = u.mbxSeq && u.mbxCache.isSome then
    match u.mbxCache with
    | some (st, d, p) => s.answer q st d p
    | none => s
  else if q.seq ≠ u.mbxSeq + 1 then
    s.answer q .rejectedState 0 []
  else if q.major ≠ 3 then s.respond q .rejectedCapability 0 []
  else if !allowed then s.respond q .rejectedState 0 []
  else run s

/-! ### Passes -/

/-- Trace a change of a pass's state (table "Trace entry types", 0x20) and make it. -/
def State.setPassState (s : State) (k : Nat) (st : PassState) : State :=
  match s.pass k with
  | none => s
  | some p =>
    (s.setPass k { p with state := st }).traceTo p.fn 0x20 (BitVec.ofNat 8 p.fn.val)
      (leBytes 4 p.number.toNat ++ leBytes 1 p.attempt ++ [p.state.code, st.code])

/-- Trace a change of a generation's state (0x24). -/
def State.traceGen (s : State) (f : FnId) (g : W32) (old new : GenState) : State :=
  if old = new then s
  else s.traceTo f 0x24 (BitVec.ofNat 8 f.val) (leBytes 4 g.toNat ++ [old.code, new.code])

/-- Generations of a function that are no longer pinnable and that no pass pins any more are RETIRED (R331). -/
def State.retireOld (s : State) (f : FnId) : State :=
  let u := s.fn f.val
  let pinned (g : W32) : Bool := s.allPasses.any fun kp => kp.2.fn == f && passLive kp.2.state && kp.2.gen == g
  let gone (g : Gen) : Bool := (g.state == .active || g.state == .incomplete) && g.gen != u.activeGen && !pinned g.gen
  let s := s.updFn f.val fun u => { u with gens := u.gens.map fun g => if gone g then { g with state := .retired } else g }
  (u.gens.filter gone).foldl (fun s g => s.traceGen f g.gen g.state .retired) s

/-- A refusal for which the spec states no status: one of the REJECTED codes of R355. -/
def State.freeRefusal (s : State) : Status × State :=
  let (v, s) := s.draw 0x355
  (nth Status.rejectedState [.rejectedFormat, .rejectedCapability, .rejectedGeneration, .rejectedState, .rejectedLibrary] (v.toNat % 5), s)

/-- A staging slot's record. -/
def State.slot (s : State) (k : Nat) : Option Slot := AMap.get none s.slots k
/-- The state with a staging slot's record replaced. -/
def State.setSlot (s : State) (k : Nat) (v : Option Slot) : State := { s with slots := AMap.set none s.slots k v }

/-- The waiting records of a generation that is gone leave their slots (R331). -/
def State.dropSlots (s : State) (f : FnId) (g : W32) : State :=
  s.slots.foldl (fun s kv => match kv.2 with
    | some x =>
      if x.fn = f ∧ x.shard.generation = g then
        let s := s.setSlot kv.1 none
        match x.desc with
        | some (r, i) => let (st, s) := s.freeRefusal; s.finish f r i st
        | none => s
      else s
    | none => s) s

/-- A generation that was discarded before it became ACTIVE: its slots, and the completion of its commit, whose status the
spec does not state (R331, R333). -/
def State.discarded (s : State) (f : FnId) (g : Gen) : State :=
  let s := s.dropSlots f g.gen
  match g.desc with
  | some (r, i) => let (st, s) := s.freeRefusal; s.finish f r i st
  | none => s

/-- Skein state change with its trace point (0x25). -/
def State.setSkein (s : State) (st : SkeinState) : State :=
  let k := s.skein
  if k.state = st then s
  else ({ s with skein := { k with state := st } }).traceTo k.fn 0x25 (BitVec.ofNat 8 k.fn.val)
    (leBytes 2 k.id.toNat ++ [k.state.code, st.code, k.field])

/-- The member returns to NONE: nothing of the skein stays but the field codes of FAB_SKEIN_STATUS. -/
def State.leaveSkein (s : State) : State :=
  let s := s.setSkein .none
  let k := s.skein
  let s := { s with skein := { Skein.reset with
    field := k.field, module := k.module, id := k.id, passNo := k.passNo, abandonOut := k.abandonOut } }
  { s with ports := AMap.each Port.reset (fun p => { p with warpOn := false }) s.ports }

/-- A PREEMPT completes with DONE when no pass of the function is RUNNING, GATING or QUIESCING (R353). -/
def State.settlePreempt (s : State) (f : FnId) : State :=
  let u := s.fn f.val
  if !(s.allPasses.any fun kp => kp.2.fn == f && passBusy kp.2.state) then
    match u.fetched.find? fun d => d.phase == .executing && descOp d.desc == 7 && dfld d.desc 16 1 == 3 with
    | some d => s.finish f d.ring d.index .done
    | none => s
  else s

/-- What follows a pass that ends: the account (R346), retired generations (R331), a DISSOLVING skein (R317), a waiting
PREEMPT (R353). -/
def State.afterPass (s : State) (p : Pass) : State :=
  let s := s.updFn p.fn.val fun u => { u with account := u.account + p.frames }
  let s := s.retireOld p.fn
  let s := if s.skein.state == .dissolving && s.skein.fn == p.fn
      && !(s.allPasses.any fun kp => kp.2.fn == p.fn) then s.leaveSkein else s
  s.settlePreempt p.fn

/-- A pass reaches COMPLETE: its completion is written, and an agreed pass advances the pass counter (R311, R354). -/
def State.completePass (s : State) (k : Nat) (st : Status) (summary : W64) (cert : Bool) : State :=
  match s.pass k with
  | none => s
  | some p =>
    let s := s.setPassState k .complete
    let s := if !p.agreed then s
      else if p.multi then
        { s with skein := { s.skein with passNo := s.skein.passNo + 1 } }
      else s.updFn p.fn.val fun u => { u with passNo := u.passNo + 1 }
    let info : CplInfo := {
      attempts := p.attempt + (if p.start.isSome then 1 else 0), orig := 0,
      cause := (match p.fault with | some r => (if st = .abandonedFault then r.cause.code else 0) | none => 0),
      detail := (match p.fault with | some r => (if st = .abandonedFault then r.detail else 0) | none => 0),
      pass := if p.agreed then p.number else 0, summary := summary, cert := cert }
    let s := s.complete p.fn p.ring p.index st info
    let s := { s with passes := AMap.set none s.passes k none }
    s.afterPass p

end Sys2Proof.Machine
end

