-- ==== Sys2Proof/Machine/FaultOps.lean ====
section
/-! DEFINITION. Raising a fault (R369 to R376), abandoning a pass (R219 to R221), breaking a skein (R312, R313) and the
fatal state: shared by every command that a fault can come out of. -/

namespace Sys2Proof.Machine

/-! ### Records -/

/-- Where a fault arises: its reporter (compute dies 0 to 11, I/O dies 12 to 15), and the core and engine fields of its
record (R370). -/
structure Src where
  reporter : Nat
  core : BitVec 16
  engine : Byte
  deriving DecidableEq, Repr

/-- An engine of a core. -/
def Src.eng (c : Nat) (e : Eng) : Src := ⟨coreDie c, BitVec.ofNat 16 c, BitVec.ofNat 8 e.num⟩
/-- A core, with no engine. -/
def Src.core' (c : Nat) : Src := ⟨coreDie c, BitVec.ofNat 16 c, 0xFF⟩
/-- An I/O die. -/
def Src.io (n : Nat) : Src := ⟨12 + n, BitVec.ofNat 16 (0x1000 + n), 0xFF⟩
/-- No core and no engine: IO0 reports. -/
def Src.none' : Src := ⟨12, 0xFFFF, 0xFF⟩

/-- Class of a fault (table "Fault cause codes", R371); `multi`: a skein of two or more members is formed. -/
def classOf (cause : Cause) (detail : Byte) (multi : Bool) : FaultClass :=
  match cause with
  | .eccCorrected => .corrected
  | .linkDown => if detail = 0x80 then .fatal else if detail = 0x91 then .corrected else .contained
  | .thermalLimit => if detail = 0x02 then .fatal else if multi then .contained else .corrected
  | .powerLimit => if detail = 0x02 then .fatal else if multi then .contained else .corrected
  | .clockFault => if detail = 0x03 then .contained else .fatal
  | .controlParity => if detail = 0x84 || detail = 0xA1 || detail = 0xA2 then .fatal else .contained
  | _ => .contained

/-- The fault counts towards fencing (table "Fault cause codes", column "Counts"). -/
def countsFor (cause : Cause) (detail : Byte) : Bool :=
  match cause with
  | .eccUncorrectable => true
  | .checkLaneMismatch => true
  | .residueMismatch => true
  | .signatureMismatch => true
  | .marginCritical => true
  | .controlParity => detail == 0x05 || detail == 0x81 || detail == 0x83
  | _ => false

/-- The record of a fault that touches a pass, or none (R370). -/
def State.mkRecord (s : State) (src : Src) (cause : Cause) (detail : Byte) (cls : FaultClass) (p : Option Pass) :
    FaultRecord :=
  { timebase := s.clk.timebase, frame := s.clk.frame, core := src.core, engine := src.engine, cause := cause,
    detail := detail, cls := cls,
    attempt := (match p with | some p => BitVec.ofNat 8 p.attempt | none => 0xFF),
    function := (match p with | some p => BitVec.ofNat 8 p.fn.val | none => 0x80),
    pass := (match p with | some p => p.number | none => 0), seq := 0 }

/-- The 32 bytes of a record (table "Fault record"). -/
def FaultRecord.bytes (r : FaultRecord) : List Byte :=
  leBytes 8 r.timebase.toNat ++ leBytes 8 r.frame.toNat ++ leBytes 2 r.core.toNat ++
    [r.engine, r.cause.code, r.detail, r.cls.code, r.attempt, r.function] ++ leBytes 4 r.pass.toNat ++
    leBytes 4 r.seq.toNat

/-- Records queued at a reporter (R369). -/
def State.reporter (s : State) (n : Nat) : List FaultRecord := AMap.get [] s.chk.reporters n

/-- Queue a record; a full reporter keeps its 16 and counts the fault (R369). -/
def State.queueRecord (s : State) (n : Nat) (r : FaultRecord) : State :=
  let q := s.reporter n
  if 16 ≤ q.length then { s with chk := { s.chk with lost := satInc 32 s.chk.lost } }
  else { s with chk := { s.chk with reporters := AMap.set [] s.chk.reporters n (q ++ [r]) } }

/-- The record that decides a completion: the lowest timebase, then core, then engine (R372). -/
def firstRecord (a b : FaultRecord) : FaultRecord :=
  let key (r : FaultRecord) : Nat := (r.timebase.toNat * 2 ^ 16 + r.core.toNat) * 2 ^ 8 + r.engine.toNat
  if key b < key a then b else a

/-- A fault touches a pass: its clean bit is false, and the record decides its completion if it is the first (R372, R380). -/
def Pass.blame (p : Pass) (r : FaultRecord) : Pass :=
  { p with clean := false, fault := some (match p.fault with
      | some o => firstRecord o r
      | none => r) }

/-! ### Stitch messages -/

/-- A stitch message from its type and bytes. -/
def stitchMsg (ty : Byte) (bytes : List Byte) : StitchMsg :=
  { mtype := ty, msg := BitVec.ofNat 152 (leNat (padTo 19 0 bytes)) }

/-- A skein control message (R308). -/
def controlMsg (op : Byte) (id : BitVec 16) (subject : BitVec 12) (field : Byte) (frame : Nat) : StitchMsg :=
  stitchMsg 0x07 ([op] ++ leBytes 2 id.toNat ++ leBytes 2 subject.toNat ++ [field] ++ leBytes 8 frame)

/-- Queue a message for the message slot of ports (R259, R260). -/
def State.sendTo (s : State) (ports : List Nat) (m : StitchMsg) : State :=
  ports.foldl (fun s p => s.updPort p fun q => { q with msgs := q.msgs ++ [m] }) s

/-! ### Abandoning a pass -/

/-- Rank of the causes that meet in one slot group: reset, fault, watchdog, forced pre-emption, another member (R220). -/
def abandonRank : Status → Nat
  | .abandonedReset => 4
  | .abandonedFault => 3
  | .timeout => 2
  | .abandonedPreempt => 1
  | _ => 0

/-- Ledger column of an engine that stands still (R436). -/
def stillColumn (q : Engine) : Nat :=
  match q.mode with
  | .barrier false => 2
  | .running => (match q.wait with
      | some (.busy, _) => 3
      | some _ => 2
      | none => 1)
  | _ => 1

/-- Bring every present engine of a core to cycle `t` in the ledger (R436). -/
def State.closeLedger (s : State) (c t : Nat) : State :=
  (allEngines.filter s.present).foldl (fun s e =>
    let q := s.engine c e
    s.ledger c e (stillColumn q) q.next (t - q.next)) s

/-- Latest cycle that an engine of a core has reached. -/
def Core.reached (k : Core) : Nat := allEngines.foldl (fun m e => max m (k.engine e).next) 0

/-- Cycle of its kernel in which a core stops: that of the clock, unless an engine has been taken further (R436, R437). -/
def State.stopCycle (s : State) (c : Nat) : Nat :=
  max (s.core c).reached (3200 * s.clk.frame.toNat + 32 * (s.clk.sg % 100) - s.kernelBase c)

/-- The waits that an ending pass began in the current frame are charged to the core's region at the end of the frame (R186). -/
def State.chargeEnd (s : State) (c : Nat) : State :=
  match (s.core c).job.bind fun j => s.pass j.pass with
  | some p =>
    let f := s.clk.frame.toNat - p.kernelStart.toNat
    let n := allEngines.foldl (fun m e => max m (AMap.get 0 (s.engine c e).waited f)) 0
    s.updRegion (coreRegion c) fun v => { v with ended := max v.ended n }
  | none => s

/-- Stop a core's engines: pending writes land, queues, releases, warp sends and arrivals go; the cycles of the attempt
are lost (R219, R437). -/
def State.haltCore (s : State) (c : Nat) (before : Nat) : State :=
  let t := s.stopCycle c
  let s := ((s.chargeEnd c).closeLedger c t).settleAll c
  s.updCore c fun k =>
    { (k.mapEngines fun q =>
        { q with mode := if q.mode = .idle then .idle else .halted, wait := none, releases := [], openOps := [] }) with
      mx := { k.mx with vecs := [] }, hold := [], merge := [], armed := [], staged := [], injq := [], room := 0, claims := [], faults := [], atomicHold := none,
      redBuf := [], job := none, joined := false,
      obs := { k.obs with lost := k.obs.lost + BitVec.ofNat 64 (before + t) } }

/-- Cores that run a pass. -/
def State.jobCores (s : State) (k : Nat) : List Nat :=
  s.cores.filterMap fun ck => match ck.2.job with
    | some j => if j.pass = k then some ck.1 else none
    | none => none

/-- Dye records of remote instructions that an abandon ends are queued with flags bit 0 set and no completion cycle
(R443). -/
def State.dyeAbandoned (s : State) (p : Pass) (cores : List Nat) : State :=
  s.ops.foldl (fun s (kv : Nat × Option WOp) => match kv.2 with
    | some o => (match o.dye with
      | some b => if cores.contains o.core.val
          then s.traceTo p.fn 0x10 (BitVec.ofNat 8 p.fn.val) (setNth 3 b 6 ++ leBytes 4 0xFFFFFFFF) else s
      | none => s)
    | none => s) s

/-- A rolling swap has begun to write a block that the pass needs (R332). -/
def State.overtaken (s : State) (p : Pass) : Bool :=
  let u := s.fn p.fn.val
  let need : List Nat := match u.exe with
    | some x => (List.range x.exe.blockUse.length)
    | none => []
  p.gen != 0 && u.gens.any fun g => (g.state == .rolling || g.state == .active || g.state == .incomplete) && g.gen != p.gen &&
    g.copy == p.copy && g.begun.any fun b => need.contains b

/-- Abandon a pass on this member (R219): its engines stop, its transactions are not retransmitted, the notice leaves in
the next slot group. A pass that is already QUIESCING changes its status only for a higher cause of the same slot group
(R220). -/
def State.abandon (s : State) (k : Nat) (st : Status) (noRetry : Bool) : State :=
  match s.pass k with
  | none => s
  | some p =>
    match p.state with
    | .queued => s
    | .complete => s
    | .quiescing =>
      if p.abandonedAt = some (s.clk.frame, s.clk.sg) &&
          (match p.status with | some old => decide (abandonRank old < abandonRank st) | none => true) then
        s.setPass k { p with status := some st, noRetry := p.noRetry || noRetry }
      else if noRetry then s.setPass k { p with noRetry := true } else s
    | _ =>
      let before := if p.start.isSome then 3200 * (p.kernelStart.toNat - (p.start.getD 0).toNat) else 0
      let cores := s.jobCores k
      let s := cores.foldl (fun s c => s.haltCore c before) s
      let s := s.dyeAbandoned p cores
      let s := { s with
        txns := s.txns.filterMap fun (kv : Nat × Option Txn) => match kv.2 with
          | some t => if t.pass = k ∧ t.sent = 0 then none else some (kv.1, some (if t.pass = k then { t with dead := true } else t))
          | none => none
        ops := s.ops.filter fun (kv : Nat × Option WOp) => match kv.2 with
          | some o => !cores.contains o.core.val
          | none => false
        colls := s.colls.filter fun r => r.fn != p.fn
        reds := s.reds.filter fun r => r.fn != p.fn }
      let s := s.setPass k { p with clean := false, status := some st, noRetry := p.noRetry || noRetry || s.overtaken p,
                                    abandonedAt := some (s.clk.frame, s.clk.sg), joined := false, cleanKernels := 0 }
      let s := s.setPassState k .quiescing
      if s.skein.fn == p.fn && s.skein.multi && s.skein.state != .none then
        { s with skein := { s.skein with abandonOut := some (p.number, BitVec.ofNat 8 p.attempt) } }
      else s

/-- A member finds a broken skein, or learns of one on a port: BROKEN goes to every other tree port, its pass ends with
ABANDONED_SKEIN and without a retry, passes in QUEUED or ADMITTED are refused (R301, R312, R313). A FORM that is still open
ends at the formation timeout (R308). -/
def State.breakSkein (s : State) (field : Byte) (subject : BitVec 12) (from' : Option Nat := none) : State :=
  let k := s.skein
  if k.state == .forming || k.state == .formed || k.state == .detached || k.state == .dissolving then
    let s := { s with skein := { k with field := field, module := subject } }
    let out := s.treePorts.filter fun p => from' != some p
    let s := if k.multi then s.sendTo out (controlMsg 0x05 k.id subject field 0) else s
    let s := s.setSkein .broken
    let mine := s.allPasses.filter fun kp => kp.2.fn == k.fn
    mine.foldl (fun s kp =>
      if kp.2.state == .queued || kp.2.state == .admitted then s.completePass kp.1 .rejectedState 0 false
      else s.abandon kp.1 .abandonedSkein true) s
  else s

/-! ### Raising a fault -/

/-- Descriptors that were fetched and have not begun are refused as the fatal state refuses every one but NOP (R18, R376). -/
def State.refuseFetched (s : State) : State :=
  s.fns.foldl (fun s (kv : Nat × Func) =>
    (kv.2.fetched.filter fun d => d.phase == .fetched && descOp d.desc != 0).foldl (fun s d =>
      s.finish (Fin.ofNat 16 kv.1) d.ring d.index .rejectedState) s) s

/-- The fatal state (R373, R376): CHK_STATUS, every engine halted, BROKEN, uniform mode, every pass ended with
ABANDONED_FAULT, one that is already QUIESCING included unless a reset ends it (R220). -/
def State.fatalStop (s : State) (r : FaultRecord) : State :=
  let s := { s.sensed .moduleState with chk := { s.chk with fatal := true, cause := r.cause.code, detail := r.detail },
                                        scheduled := false, modePending := none }
  let s := s.allPasses.foldl (fun s kp =>
    let s := s.updPass kp.1 fun p => p.blame r
    if kp.2.state == .queued then s.completePass kp.1 .abandonedFault 0 false
    else (s.abandon kp.1 .abandonedFault true).updPass kp.1 fun p =>
      if p.status = some .abandonedReset then p else { p with status := some .abandonedFault }) s
  (s.breakSkein 0 s.moduleId).refuseFetched

/-- Raise a fault: the record at its reporter, and by its class nothing more, the abandon of the pass that it touches,
or the fatal state (R369, R373, R376). Scrub findings abandon no pass (R177, R377, R378). -/
def State.raise (s : State) (src : Src) (cause : Cause) (detail : Byte) (touch : Option Nat) : State :=
  let cls := classOf cause detail (s.skein.multi && (s.skein.state == .formed || s.skein.state == .detached))
  let p := touch.bind s.pass
  let r := s.mkRecord src cause detail cls p
  let s := s.queueRecord src.reporter r
  match cls with
  | .corrected => s
  | .fatal => s.fatalStop r
  | _ =>
    match touch, p with
    | some k, some p =>
      if cause == .eccUncorrectable && (detail == 0x75 || detail == 0x76) then s
      else
        let s := s.setPass k (p.blame r)
        s.abandon k .abandonedFault false
    | _, _ => s

/-- Raise a fatal fault whose cause and detail the table does not class (R18, FATAL_FAULT). -/
def State.raiseFatal (s : State) (src : Src) (cause : Cause) (detail : Byte) : State :=
  let p : Option Pass := (s.ownerOf src.core.toNat).map (·.2)
  let r := s.mkRecord src cause detail .fatal p
  (s.queueRecord src.reporter r).fatalStop r

/-- Raise a fault of an engine of a core, which touches the pass that the core runs. -/
def State.raiseEng (s : State) (c : Nat) (e : Eng) (cause : Cause) (detail : Byte) : State :=
  s.raise (.eng c e) cause detail ((s.core c).job.map (·.pass))

/-- Raise a fault of a core with no engine. -/
def State.raiseCore (s : State) (c : Nat) (cause : Cause) (detail : Byte) : State :=
  s.raise (.core' c) cause detail ((s.core c).job.map (·.pass))

/-! ### Faults that fall due in a cycle of the kernel (R88, R460) -/

/-- Where a timed fault arises. -/
def TFault.src (f : TFault) : Src :=
  match f.eng with
  | some e => .eng f.core e
  | none => .core' f.core

/-- Order of the faults of one cycle of one engine: the cause value, then the detail (R88). -/
def TFault.rank (f : TFault) : Nat := f.cause.code.toNat * 256 + f.detail.toNat

/-- The faults of one cycle of one engine: the one that ranks first is recorded, the others are counted (R88, R121, R157). A
fault of core `c` touches `pass`, one of another core the pass that runs there. -/
def State.raiseGroup (s : State) (c : Nat) (pass : Option Nat) : List TFault → State
  | [] => s
  | f :: l =>
    let m := l.foldl (fun m g => if g.rank < m.rank then g else m) f
    let s := match f.eng with
      | some e => s.count f.core (some e.num) 0x0C f.cyc 1 l.length
      | none => s
    s.raise m.src m.cause m.detail (if m.core = c then pass else (s.core m.core).job.map (·.pass))

/-- The faults of one cycle, engine by engine. -/
def faultGroups (l : List TFault) : List (List TFault) :=
  ((l.map fun f => (f.core, f.eng)).eraseDups).map fun k => l.filter fun f => (f.core, f.eng) == k

/-- Add a fault that falls due in a later cycle of a core. -/
def State.addFault (s : State) (c : Nat) (f : TFault) : State := s.updCore c fun k => { k with faults := k.faults ++ [f] }

/-- Raise the faults of core `c` that fall due before cycle `t`, cycle by cycle; the first that abandons the pass takes the
later ones with it (R88, R219, R460). The last argument bounds the cycles. -/
def State.ripenN (s : State) (c t : Nat) : Nat → State
  | 0 => s
  | n + 1 =>
    match (s.core c).faults.filter fun f => decide (f.cyc < t) with
    | [] => s
    | f :: l =>
      let first := l.foldl (fun m g => min m g.cyc) f.cyc
      let pass := (s.core c).job.map (·.pass)
      let now := (f :: l).filter fun g => g.cyc == first
      let s := s.updCore c fun k => { k with faults := k.faults.filter fun g => g.cyc != first }
      ((faultGroups now).foldl (fun s g => s.raiseGroup c pass g) s).ripenN c t n

/-- Raise the faults of a core that fall due before cycle `t`. -/
def State.ripen (s : State) (c t : Nat) : State := s.ripenN c t (s.core c).faults.length

/-- A fault of an engine in its queue cycle `t`: an earlier one of the core takes its place, those of the same cycle are
weighed against it (R88). -/
def State.stopFault (s : State) (c : Nat) (e : Eng) (t : Nat) (cause : Cause) (detail : Byte) : State :=
  if (s.core c).faults.any fun f => decide (f.cyc ≤ t) then
    (s.addFault c { cyc := t, core := c, eng := some e, cause := cause, detail := detail }).ripen c (t + 1)
  else s.raiseEng c e cause detail

end Sys2Proof.Machine
end

