-- ==== Sys2Proof/Machine/Local.lean ====
section
/-! DEFINITION. What one instruction of an engine works with: cycles and the guard (R289, R290), registers with result
latency (R94, R131), bobbins (R179 to R186), port claims (R168 to R173) and local memory accesses (R161, R177). -/

namespace Sys2Proof.Machine

/-! ### Cycles -/

/-- Kernel cycle `l` clocked work cycles after cycle `t`, in an engine that has waited `w` cycles in the frame of `t`: the
guard at the frame's end passes in between (R289, R290). -/
def workAfter (w t l : Nat) : Nat :=
  let room := 3136 + w - t % 3200
  if l < room then t + l
  else 3200 * (t / 3200 + 1 + (l - room) / 3136) + (l - room) % 3136

/-! ### Registers -/

/-- Value that an instruction issued in cycle `t` reads: the latest result due by then, the later-issued one of equal
cycles (R94, R131). -/
def TReg.view {α : Type} (r : TReg α) (t : Nat) : α :=
  ((r.pend.filter fun p => decide (p.1 ≤ t)).foldl
    (fun (a : Nat × α) p => if a.1 ≤ p.1 then p else a) (0, r.base)).2

/-- A result issued in cycle `t` that is visible from cycle `due`. -/
def TReg.put {α : Type} (r : TReg α) (t due : Nat) (v : α) : TReg α :=
  { base := r.view t, pend := (r.pend.filter fun p => decide (t < p.1)) ++ [(due, v)] }

/-- Every result has become visible. -/
def TReg.land {α : Type} (r : TReg α) : TReg α :=
  { base := (r.pend.foldl (fun (a : Nat × α) p => if a.1 ≤ p.1 then p else a) (0, r.base)).2, pend := [] }

/-- Apply a vector result to 64 lanes (R98). -/
def applyVec (l : List W32) (p : VPend) : List W32 :=
  if p.lane0 then nth 0 p.lanes 0 :: l.drop 1 else p.lanes

/-- Insert a vector result by due cycle; equal cycles keep issue order. -/
def insVPend (p : VPend) : List VPend → List VPend
  | [] => [p]
  | q :: t => if p.due < q.due then p :: q :: t else q :: insVPend p t

/-- Lanes that an instruction issued in cycle `t` reads (R94). -/
def VReg.view (r : VReg) (t : Nat) : List W32 :=
  (r.pend.filter fun p => decide (p.due ≤ t)).foldl applyVec (padTo 64 0 r.base)

/-- Lanes without trailing zeros: the canonical form of a settled vector register. -/
def trimLanes (l : List W32) : List W32 := (l.reverse.dropWhile (· == 0)).reverse

/-- A vector result issued in cycle `t`. -/
def VReg.put (r : VReg) (t : Nat) (p : VPend) : VReg :=
  { base := trimLanes (r.view t), pend := insVPend p (r.pend.filter fun q => decide (t < q.due)) }

/-- Every vector result has become visible. -/
def VReg.land (r : VReg) : VReg := { base := trimLanes (r.pend.foldl applyVec (padTo 64 0 r.base)), pend := [] }

/-! ### The instruction in hand -/

/-- An event of the table "Counter events": `n` per cycle in `len` cycles from `start`. -/
structure Ev where
  code : Nat
  start : Nat
  len : Nat
  n : Nat
  deriving DecidableEq, Repr

/-- Where and when an instruction executes: core, engine, pass, the cycle in which it reached the head, its queue cycle,
the cycle whose scalar and address registers it reads (`issueAt` brings it up to the queue cycle), the cycles waited under
R184 in that frame, the ledger column of the wait before it. -/
structure Ctx where
  c : Nat
  e : Eng
  job : Job
  head : Nat
  t : Nat
  r : Nat
  w : Nat
  col : Nat
  deriving DecidableEq, Repr

/-- Cycle `l` work cycles after the queue cycle. -/
def Ctx.at (x : Ctx) (l : Nat) : Nat := workAfter x.w x.t l

/-- What an instruction has done so far: the state, the cycle by which its accesses complete, the port cycles it has
used, its events, the corrected errors it has met. -/
structure Work where
  s : State
  fin : Nat
  claims : List Claim
  evs : List Ev
  recs : List (Cause × Byte)
  /-- Last scheduled warp arrivals, by distance (R195, R196). -/
  far : List (Nat × Nat)
  /-- Faults that the instruction raises in later cycles, or behind it (R88, R99, R136, R173, R229, R238, R460). -/
  late : List TFault
  deriving DecidableEq, Repr

/-- Why an instruction does not complete. -/
inductive Halt where
  /-- It raises a fault in its queue cycle, after what `part` holds. -/
  | stop (cause : Cause) (detail : Byte) (part : Option Work)
  /-- An access in a later cycle does not take place: what the instruction did before it stands, with the fault among those
  that fall due. -/
  | cut (x : Ctx) (w : Work)
  /-- It waits at the head of its queue. -/
  | hold (k : WaitKind)
  deriving DecidableEq, Repr

/-- A completed issue: the context with the queue cycle, the work, the next issue cycle, the next program counter if it
is not the following word, whether the word folds into the signature, the execution cycle. -/
structure Issued where
  x : Ctx
  w : Work
  nxt : Nat
  pc : Option (BitVec 15)
  fold : Bool
  exec : Nat
  /-- Number of the weft operation that the instruction started, if any. -/
  remote : Option Nat
  deriving DecidableEq, Repr

/-- CONTROL_PARITY with a detail, before any effect. -/
def parity (d : Byte) : Halt := .stop .controlParity d none

/-- Detail of reserved encodings by engine (tables of faults: 0x20, 0x30, 0x40, 0x50, 0x60). -/
def encDetail : Eng → Byte
  | .mxe => 0x20 | .vxe => 0x30 | .txe => 0x40 | .gxe => 0x50 | .fxe => 0x60
/-- Detail of disallowed spaces by engine (R92, R132). -/
def spaceDetail : Eng → Byte
  | .mxe => 0x22 | .vxe => 0x31 | .txe => 0x41 | .gxe => 0x51 | .fxe => 0x61

/-- Scalar register in the queue cycle (R92, R131). -/
def State.sreg (s : State) (c : Nat) (e : Eng) (i t : Nat) : W32 :=
  (AMap.get TReg.zero (s.engine c e).sregs i).view t
/-- Address register in the queue cycle. -/
def State.areg (s : State) (c : Nat) (e : Eng) (i t : Nat) : MAddr :=
  (AMap.get TReg.zero (s.engine c e).aregs i).view t

/-- Scalar operand of the instruction. -/
def Work.sreg (w : Work) (x : Ctx) (i : Nat) : W32 := w.s.sreg x.c x.e i x.r
/-- Address operand of the instruction. -/
def Work.areg (w : Work) (x : Ctx) (i : Nat) : MAddr := w.s.areg x.c x.e i x.r

/-- Write a scalar register with latency `l`. -/
def Work.setS (w : Work) (x : Ctx) (i l : Nat) (v : W32) : Work :=
  { w with
    s := w.s.updEngine x.c x.e fun q =>
      { q with sregs := AMap.upd TReg.zero q.sregs i fun r => r.put x.t (x.at l) v } }
/-- Write an address register with latency `l`. -/
def Work.setA (w : Work) (x : Ctx) (i l : Nat) (v : MAddr) : Work :=
  { w with
    s := w.s.updEngine x.c x.e fun q =>
      { q with aregs := AMap.upd TReg.zero q.aregs i fun r => r.put x.t (x.at l) v } }
/-- Post-increment of an address register, modulo 2^48, with L = 1 (R131). -/
def Work.incA (w : Work) (x : Ctx) (on : Bool) (i n : Nat) : Work :=
  if on then w.setA x i 1 (w.areg x i + BitVec.ofNat 48 n) else w

/-- Add an event. -/
def Work.ev (w : Work) (code start len n : Nat) : Work :=
  if len = 0 || n = 0 then w else { w with evs := w.evs ++ [{ code := code, start := start, len := len, n := n }] }
/-- A fault that the instruction raises in cycle `cyc` against a core and an engine, if any. -/
def Work.lateFault (w : Work) (cyc core : Nat) (eng : Option Eng) (c : Cause) (d : Byte) : Work :=
  { w with late := w.late ++ [{ cyc := cyc, core := core, eng := eng, cause := c, detail := d }] }
/-- An access of the instruction in cycle `cyc` is at fault: in the queue cycle the instruction stops there, later it is cut
short (R183, R173, R177). -/
def Work.fail (w : Work) (x : Ctx) (cyc : Nat) (c : Cause) (d : Byte) : Halt :=
  if cyc ≤ x.t then .stop c d (some w) else .cut x (w.lateFault cyc x.c (some x.e) c d)
/-- The checks that an instruction makes in one cycle, each with its fault: of those that fail, the one with the lowest cause
and then the lowest detail is recorded, the others are counted (R88, R121, R157). -/
def Work.needs (w : Work) (x : Ctx) (l : List (Bool × Cause × Byte)) : Except Halt Unit :=
  match (l.filter fun f => !f.1).eraseDups with
  | [] => .ok ()
  | f :: t =>
    let rank := fun (g : Bool × Cause × Byte) => g.2.1.code.toNat * 256 + g.2.2.toNat
    let m := t.foldl (fun m g => if rank g < rank m then g else m) f
    .error (.stop m.2.1 m.2.2 (some (w.ev 0x0C x.t 1 t.length)))
/-- The instruction occupies its engine's accesses until a cycle. -/
def Work.until (w : Work) (t : Nat) : Work := { w with fin := max w.fin t }

/-- Wait for a busy resource of the engine until a cycle; the cycles are busy ones (R436), and the registers are read after them
(R70, R92). -/
def waitBusy (x : Ctx) (k : Work) (from' : Nat) : Ctx × Work :=
  let t := workAfter x.w (max x.head from') 0
  let k := k.ev 0x22 x.t (t - x.t) 1
  (if x.t < t then { x with t := t, r := max x.r t, w := if t / 3200 = x.t / 3200 then x.w else 0, col := 3 } else x, k)

/-- Code check of a sync word that an engine evaluates (R177). -/
def Work.syncWord (w : Work) (x : Ctx) (off : Nat) : Except Halt Work :=
  match eccWorst w.s.ecc 8 (absAddr 4 x.c off) 8 with
  | some .uncorrectable => .error (.stop .eccUncorrectable 0x74 none)
  | some .correctable => .ok { w with recs := w.recs ++ [(.eccCorrected, 0x74)] }
  | none => .ok w

/-! ### Bobbins (R179 to R186) -/

/-- A bobbin descriptor's fields (table "Bobbin descriptor"); base and size in bytes, relative to the function's
region. -/
structure Bob where
  num : Nat
  base : Nat
  space : Nat
  size : Nat
  producer : Nat
  consumer : Nat
  init : Nat
  grace : Nat
  capacity : Nat
  deriving DecidableEq, Repr

/-- Fields of a descriptor. -/
def Bob.of (num : Nat) (d : BitVec 128) : Bob :=
  { num := num, base := fld d 0 32, space := fld d 32 2, size := 64 * fld d 40 16, producer := fld d 56 3,
    consumer := fld d 59 3, init := fld d 62 2, grace := fld d 64 11, capacity := fld d 80 16 }

/-- Bobbins of the virtual core that a core runs. -/
def State.bobs (s : State) (j : Job) : List Bob :=
  match (s.fn j.fn.val).exe with
  | some x => (x.exe.bobbins.filter fun b => b.vcore == j.vcore).map fun b =>
      let o := Bob.of b.number b.desc
      { o with grace := if o.grace = 0x7FF then x.grace else o.grace }
  | none => []

/-- Bytes that two ranges share. -/
def common (a n b m : Nat) : Nat := min (a + n) (b + m) - max a b

/-- A byte range of the engine's own core that an instruction reads or writes, relative to the function's region. -/
structure Range where
  space : Nat
  off : Nat
  len : Nat
  write : Bool
  deriving DecidableEq, Repr

/-- The bobbin that a range touches as its engine's producer or consumer, or as the arrival class 5 or 6. -/
def Bob.touched (b : Bob) (eng : Nat) (r : Range) : Bool :=
  b.space == r.space && decide (0 < common b.base b.size r.off r.len) &&
    (if r.write then b.producer == eng else b.consumer == eng)

/-- The bobbin's state lets the access proceed (table "Bobbin states"). -/
def permits (st : BobState) (write : Bool) : Bool :=
  match st with
  | .empty => write
  | .filling => write
  | .full => !write
  | .draining => !write

/-- State that an evaluation in cycle `t` sees (R183). -/
def Bobbin.view (v : Bobbin) (t : Nat) : BobState := v.trans.foldl (fun st c => if c.1 ≤ t then c.2 else st) v.was

/-- The state becomes `st` in cycle `t`: visible from the next one (R183). -/
def Bobbin.enter (v : Bobbin) (t : Nat) (st : BobState) : Bobbin :=
  if v.state = st then v else { v with state := st, trans := v.trans ++ [(t + 1, st)] }

/-- The bobbin without the changes that every evaluation from cycle `t` on sees. -/
def Bobbin.settle (v : Bobbin) (t : Nat) : Bobbin :=
  { v with was := v.view t, trans := v.trans.filter fun c => decide (t < c.1) }

/-- One access in cycle `cyc` counts in a bobbin (R182, R183); `d` is the detail of its fault. -/
def bobCount (b : Bob) (v : Bobbin) (write : Bool) (n cyc : Nat) (d : Byte) : Except (Cause × Byte) Bobbin :=
  if !permits v.state write || !permits (v.view cyc) write || decide (b.size < v.count + n) then
    .error (if write then .bobbinOverrun else .bobbinUnderrun, d)
  else if v.count + n = b.size then
    .ok (if write then { v with count := 0 }.enter cyc .full
      else { v with count := 0, cycles := (v.cycles + 1) % 2 ^ 16 }.enter cyc .empty)
  else .ok ({ v with count := v.count + n }.enter cyc (if write then .filling else .draining))

/-- Latest cycle that an engine of a core has still to pass. -/
def Core.horizon (k : Core) : Nat :=
  (allEngines.filter fun e => (k.engine e).mode == .running).foldl
    (fun (m : Option Nat) e => some (match m with
      | some v => min v (k.engine e).next
      | none => (k.engine e).next)) none |>.getD k.reached

/-- Count an access of engine class `eng` to core `c` in every bobbin that it touches. -/
def State.bobAccess (s : State) (c : Nat) (j : Job) (eng : Nat) (r : Range) (cyc : Nat) (d : Byte) :
    Except (Cause × Byte) State :=
  ((s.bobs j).filter fun b => b.touched eng r).foldlM (fun s b => do
    let v := (AMap.get Bobbin.reset (s.core c).bobbins b.num).settle (s.core c).horizon
    let v' ← bobCount b v r.write (common b.base b.size r.off r.len) cyc d
    pure (s.updCore c fun k => { k with bobbins := AMap.set Bobbin.reset k.bobbins b.num v' })) s

/-- The bobbins that the ranges touch, each with the direction of the access and its live state (R184). -/
def gateBobs (x : Ctx) (w : Work) (rs : List Range) : List (Bob × Bool × Bobbin) :=
  (w.s.bobs x.job).filterMap fun b => match rs.find? fun r => b.touched x.e.num r with
    | some r => some (b, r.write, AMap.get Bobbin.reset (w.s.core x.c).bobbins b.num)
    | none => none

/-- A touched bobbin refuses the instruction in cycle `t`. -/
def refuses (t : Nat) (o : Bob × Bool × Bobbin) : Bool := !permits (o.2.2.view t) o.2.1

/-- Smallest grace window of bobbins. -/
def leastGrace (l : List (Bob × Bool × Bobbin)) : Nat := (l.map fun o => o.1.grace).foldl min 2047

/-- Lowest-numbered bobbin of a list, with whether the access is a write. -/
def lowestBob : List (Bob × Bool × Bobbin) → Option (Nat × Bool)
  | [] => none
  | o :: l => match lowestBob l with
    | some m => some (if m.1 < o.1.num then m else (o.1.num, o.2.1))
    | none => some (o.1.num, o.2.1)

/-- The window that a wait from cycle `head` on can exceed: the smallest of the bobbins that still refuse at the end of their
own, and the lowest-numbered bobbin that refuses when it has passed (R184). -/
def graceEnd (head : Nat) (bs : List (Bob × Bool × Bobbin)) : Option (Nat × Nat × Bool) :=
  let late := bs.filter fun o => refuses (head + o.1.grace) o
  match late with
  | [] => none
  | _ :: _ =>
    let g := leastGrace late
    (lowestBob (bs.filter (refuses (head + g)))).map fun m => (g, m.1, m.2)

/-- The gate of R184: the context with the first cycle in which every bobbin that the ranges touch permits the
instruction; the grace windows run from the cycle in which it reached the head; the wait is charged to its frame (R186). -/
def gate (x : Ctx) (w : Work) (rs : List Range) : Except Halt (Ctx × Work) := do
  let bs := gateBobs x w rs
  let w ← bs.foldlM (fun (w : Work) o => w.syncWord x (0x400 + 8 * o.1.num)) w
  let t0 := max x.t x.r
  let times := t0 :: (bs.flatMap fun o => o.2.2.trans.map (·.1)).filter fun t => decide (t0 < t)
  match times.filter fun t => !(bs.any (refuses t)) with
  | [] =>
    let still := bs.filter (refuses (times.foldl max t0))
    let (g, b, wr) := (graceEnd x.head bs).getD (leastGrace still, (lowestBob still).getD (0, false))
    .error (.hold (.bobbin b g (!wr)))
  | a :: l =>
    let t := l.foldl min a
    match (graceEnd x.head bs).filter fun g => decide (x.head + g.1 < t) with
    | some (_, _, wr) => .error (.stop (if wr then .bobbinOverrun else .bobbinUnderrun) 0x01 none)
    | none =>
      if t ≤ x.t then .ok (x, w)
      else
        let n := t - x.t
        let f := x.t / 3200
        let s := w.s.updEngine x.c x.e fun q => { q with waited := AMap.upd 0 q.waited f (· + n) }
        .ok ({ x with t := t, w := if t / 3200 = f then x.w + n else 0, col := 2 },
             { w with s := s, evs := w.evs ++ [{ code := 0x20, start := x.t, len := n, n := 1 }] })

/-! ### Ports (R168, R170, R173) -/

/-- Port cycles that an access of one cycle takes: activation memory one port, partial-sum memory one per bank, the weight
slice its element port and the layer of the line (R163, R168, R170). -/
def portsOf (space absOff n cyc eng : Nat) (write : Bool) : List Claim :=
  let mk (p : Nat) : Claim := { port := p, start := cyc, step := 1, n := 1, eng := eng }
  match space with
  | 1 => [mk (if write then 1 else 0)]
  | 2 =>
    let b0 := absOff % 1024 / 32
    let b1 := (absOff % 1024 + n - 1) / 32
    (List.range (min 32 (b1 + 1 - b0))).map fun i => mk ((if write then 50 else 10) + (b0 + i) % 32)
  | 0 => [mk 4, mk (100 + absOff / 2048 % 3)]
  | _ => []

/-- Two claims meet in one port and cycle. -/
def Claim.meets (a b : Claim) : Bool :=
  a.port == b.port &&
    (if a.step == 1 && b.step == 1 then decide (a.start < b.start + b.n) && decide (b.start < a.start + a.n)
     else (List.range a.n).any fun i =>
       let t := a.start + i * a.step
       decide (b.start ≤ t) && (t - b.start) % b.step == 0 && decide ((t - b.start) / b.step < b.n))

/-- Last cycle of a claim. -/
def Claim.last (a : Claim) : Nat := a.start + (a.n - 1) * a.step

/-- Writes of an engine number that land in a cycle through a port do not take place (R173). A neighbour pair has 512 bytes. -/
def State.dropWrites (s : State) (c eng cyc port : Nat) : State :=
  s.updCore c fun k => { k with mpend := k.mpend.filter fun w => !(w.eng == eng && w.land == cyc &&
    (if port = 2 then w.data.length == 512
     else (portsOf (w.addr / 2 ^ 44) (w.addr % 2 ^ 32) w.data.length cyc eng true).any fun a => a.port == port)) }

/-- The claims of an access in cycle `cyc` meet those of earlier-issued instructions (R173): none where one of a lower engine
number, or of its own, keeps a port. A claim of a higher number gives way: its access does not take place, and its engine
is at fault. -/
def State.claim (s : State) (c cyc : Nat) (cl : List Claim) : Option State :=
  let old := (s.core c).claims.filter fun b => decide (b.eng < 5) && cl.any fun a => a.meets b
  if old.any fun b => cl.any fun a => a.meets b && decide (b.eng ≤ a.eng) then none
  else some (old.foldl (fun s b =>
    ((s.dropWrites c b.eng cyc b.port).count c (some (engOf b.eng).num) 0x17 cyc 1 1).addFault c
      { cyc := cyc, core := c, eng := some (engOf b.eng), cause := .controlParity, detail := 0x70 }) s)

/-! ### Local accesses -/

/-- Event code of a port cycle (0x10 to 0x14). -/
def portEvent (space : Nat) (write : Bool) : Nat :=
  match space with
  | 1 => if write then 0x11 else 0x10
  | 2 => if write then 0x13 else 0x12
  | _ => 0x14

/-- Claim the port cycles of an access of the instruction; a suppressed access is at fault (R173). -/
def Work.claim (w : Work) (x : Ctx) (cyc : Nat) (cl : List Claim) : Except Halt Work :=
  match w.s.claim x.c cyc cl with
  | some s => .ok { w with s := s, claims := w.claims ++ cl }
  | none => .error ((w.ev 0x17 cyc 1 1).fail x cyc .controlParity 0x70)

/-- Read `n` bytes at address `a` in kernel cycle `cyc`, with the port cycles `ports` of the own core: address check, port,
code check, bobbin count (R161, R173, R177, R183). -/
def Work.readVia (w : Work) (x : Ctx) (ports : Nat → List Claim) (a : MAddr) (n cyc : Nat) :
    Except Halt (List Byte × Work) := do
  let sp := aSpace a
  match w.s.resolve x.job.fn a n with
  | .error d => .error (.stop .accessDenied d (some w))
  | .ok (c, abs) =>
    let own := decide (c = x.c)
    let w ← (if own then w.claim x cyc (ports (abs % 2 ^ 32)) else pure w)
    match eccWorst w.s.ecc (eccWord sp) abs n with
    | some .uncorrectable => .error (w.fail x cyc .eccUncorrectable (eccDetail sp))
    | m =>
      let s ← (if own then
          match w.s.bobAccess x.c x.job x.e.num { space := sp, off := aOff a, len := n, write := false } cyc 0x03 with
          | .ok s => Except.ok s
          | .error (cs, d) => .error (w.fail x cyc cs d)
        else Except.ok w.s)
      pure (s.readAt c cyc abs n,
        { w with s := s, fin := max w.fin cyc,
                 recs := if m.isSome then w.recs ++ [(.eccCorrected, eccDetail sp)] else w.recs,
                 evs := w.evs ++ [{ code := portEvent sp false, start := cyc, len := 1, n := 1 }] })

/-- Read `n` bytes through the memory's own port. -/
def Work.read (w : Work) (x : Ctx) (a : MAddr) (n cyc : Nat) : Except Halt (List Byte × Work) :=
  w.readVia x (fun off => portsOf (aSpace a) off n cyc x.e.num false) a n cyc

/-- Read `n` bytes whose port cycles the instruction claims on its own (R75, R80, R81). -/
def Work.readFree (w : Work) (x : Ctx) (a : MAddr) (n cyc : Nat) : Except Halt (List Byte × Work) :=
  w.readVia x (fun _ => []) a n cyc

/-- Read the side image of a latch fill: the side port in place of the element port (R163). -/
def Work.readSide (w : Work) (x : Ctx) (a : MAddr) (n cyc : Nat) : Except Halt (List Byte × Work) :=
  w.readVia x (fun off => (portsOf (aSpace a) off n cyc x.e.num false).map fun p =>
    if p.port = 4 then { p with port := 3 } else p) a n cyc

/-- Write bytes at address `a` of the own core, landing in kernel cycle `land`, with the port cycles `ports`. -/
def Work.writeVia (w : Work) (x : Ctx) (ports : Nat → List Claim) (a : MAddr) (data : List Byte) (land : Nat) :
    Except Halt Work := do
  let sp := aSpace a
  match w.s.resolve x.job.fn a data.length with
  | .error d => .error (.stop .accessDenied d (some w))
  | .ok (c, abs) =>
    let w ← w.claim x land (ports (abs % 2 ^ 32))
    match w.s.bobAccess x.c x.job x.e.num { space := sp, off := aOff a, len := data.length, write := true } land 0x03 with
    | .error (cs, d) => .error (w.fail x land cs d)
    | .ok s =>
      pure { w with s := (s.writeAt c land abs data x.e.num).clearEcc sp abs data.length, fin := max w.fin land,
                    evs := w.evs ++ [{ code := portEvent sp true, start := land, len := 1, n := 1 }] }

/-- Write bytes through the memory's own port. -/
def Work.write (w : Work) (x : Ctx) (a : MAddr) (data : List Byte) (land : Nat) : Except Halt Work :=
  w.writeVia x (fun off => portsOf (aSpace a) off data.length land x.e.num true) a data land

/-- Write bytes whose port cycles the instruction claims on its own (R80, R81). -/
def Work.writeFree (w : Work) (x : Ctx) (a : MAddr) (data : List Byte) (land : Nat) : Except Halt Work :=
  w.writeVia x (fun _ => []) a data land

/-- First cycle in which two claims meet. -/
def Claim.firstMeet (a b : Claim) : Option Nat :=
  if a.port != b.port then none
  else ((List.range a.n).map fun i => a.start + i * a.step).find? fun t =>
    decide (b.start ≤ t) && (t - b.start) % b.step == 0 && decide ((t - b.start) / b.step < b.n)

/-- Claim port cycles that an instruction takes in several cycles: wherever they meet an earlier claim, the access of the higher
engine number, or else of the later instruction, does not take place, and its engine is at fault in that cycle (R173). -/
def Work.claimRun (w : Work) (x : Ctx) (cl : List Claim) : Work :=
  let pairs := ((w.s.core x.c).claims.filter fun b => decide (b.eng < 5)).flatMap fun b => cl.filterMap fun a => (a.firstMeet b).map fun t => (t, a, b)
  pairs.foldl (fun w (p : Nat × Claim × Claim) =>
    let loser := max p.2.1.eng p.2.2.eng
    let s := if loser ≤ p.2.1.eng then w.s else w.s.dropWrites x.c loser p.1 p.2.2.port
    { w with s := s.count x.c (some (engOf loser).num) 0x17 p.1 1 1 }.lateFault p.1 x.c (some (engOf loser)) .controlParity 0x70)
    { w with claims := w.claims ++ cl }

/-- The port cycles and port events of several pieces count once each: the pieces are one access (R95, R167). -/
def Work.oneAccess (w v : Work) : Work :=
  { v with claims := w.claims ++ (v.claims.drop w.claims.length).eraseDups
           evs := w.evs ++ (v.evs.drop w.evs.length).take 1 }

/-- Read several pieces of one space in one port cycle (R95, R167). -/
def Work.readPieces (w : Work) (x : Ctx) (ps : List (MAddr × Nat)) (cyc : Nat) : Except Halt (List Byte × Work) := do
  let (bs, v) ← ps.foldlM (fun (a : List (List Byte) × Work) p => do
    let (b, v) ← a.2.read x p.1 p.2 cyc
    pure (b :: a.1, v)) ([], w)
  pure (bs.reverse.flatten, w.oneAccess v)

/-- Write several pieces in one port cycle (R95, R167). -/
def Work.writePieces (w : Work) (x : Ctx) (ps : List (MAddr × List Byte)) (land : Nat) : Except Halt Work := do
  let v ← ps.foldlM (fun (a : Work) p => a.write x p.1 p.2 land) w
  pure (w.oneAccess v)

/-- Range of the own core at an address, for the gate. -/
def rangeOf (x : Ctx) (a : MAddr) (n : Nat) (write : Bool) : List Range :=
  if aCore a = x.c then [{ space := aSpace a, off := aOff a, len := n, write := write }] else []

end Sys2Proof.Machine
end

