-- ==== Sys2Proof/Machine/Numeric.lean ====
section
/-! DEFINITION. Number formats, exact values, the one rounding at drain and at conversion, and binary32 arithmetic
(R22 to R56). A value is exact until `roundTo` rounds it once. -/

namespace Sys2Proof.Machine

/-- A number as an element encodes it: NaN, an infinity, or a signed magnitude m × 2^e, in which a zero keeps its
sign. -/
inductive Num where
  | nan
  | inf (neg : Bool)
  | fin (neg : Bool) (m : Nat) (e : Int)
  deriving DecidableEq, Repr

/-! ### Formats -/

/-- What R25 and R26 give of a floating-point format: exponent width, mantissa width, bias, largest finite magnitude
as an encoding, whether the all-ones exponent holds infinity. -/
structure FloatFmt where
  w : Nat
  k : Nat
  bias : Nat
  maxBits : Nat
  /-- Encodes an infinity. -/
  hasInf : Bool
  /-- Encodes a NaN. -/
  hasNan : Bool
  deriving DecidableEq, Repr

/-- The floating-point formats by element format code (tables "Element format codes" and "Element formats and integer
forms"); none for INT8, INT4, the long value and the reserved codes. -/
def floatFmt : Nat → Option FloatFmt
  | 2 => some { w := 4, k := 3, bias := 7, maxBits := 0x7E, hasInf := false, hasNan := true }
  | 3 => some { w := 5, k := 2, bias := 15, maxBits := 0x7B, hasInf := true, hasNan := true }
  | 4 => some { w := 2, k := 3, bias := 1, maxBits := 0x1F, hasInf := false, hasNan := false }
  | 5 => some { w := 3, k := 2, bias := 3, maxBits := 0x1F, hasInf := false, hasNan := false }
  | 6 => some { w := 2, k := 1, bias := 1, maxBits := 0x7, hasInf := false, hasNan := false }
  | 7 => some { w := 8, k := 7, bias := 127, maxBits := 0x7F7F, hasInf := true, hasNan := true }
  | 8 => some { w := 8, k := 23, bias := 127, maxBits := 0x7F7FFFFF, hasInf := true, hasNan := true }
  | _ => none

/-- Bits per element (table "Element format codes"); 0 for a reserved code. -/
def fmtBits : Nat → Nat
  | 0 => 8 | 1 => 4 | 2 => 8 | 3 => 8 | 4 => 6 | 5 => 6 | 6 => 4 | 7 => 16 | 8 => 32 | 9 => 192 | _ => 0

/-- Operand class: k per issue cycle, 0 where the format is no matrix operand (R22). -/
def fmtClass : Nat → Nat
  | 0 => 64 | 1 => 128 | 2 => 64 | 3 => 64 | 4 => 64 | 5 => 64 | 6 => 128 | 7 => 32 | _ => 0

/-- Le, the exponent of the integer form's unit (R26); 0 for BF16 as a matrix operand (R32). -/
def fmtLe : Nat → Int
  | 2 => -9 | 3 => -16 | 4 => -3 | 5 => -4 | 6 => -1 | _ => 0

/-- Exponent of the largest binade of a format (R50). -/
def emaxe : Nat → Int
  | 2 => 8 | 3 => 15 | 4 => 2 | 5 => 4 | 6 => 2 | 0 => 6 | 1 => 2 | _ => 0

/-- Number that a floating-point encoding stands for (R25, with the special values of the OCP formats and IEEE 754). -/
def FloatFmt.decode (f : FloatFmt) (v : Nat) : Num :=
  let neg := v.testBit (f.w + f.k)
  let e := (v >>> f.k) % 2 ^ f.w
  let m := v % 2 ^ f.k
  let le : Int := 1 - (f.bias : Int) - (f.k : Int)
  if f.hasInf && e == 2 ^ f.w - 1 then (if m = 0 then .inf neg else .nan)
  else if f.hasNan && !f.hasInf && e == 2 ^ f.w - 1 && m == 2 ^ f.k - 1 then .nan
  else if e = 0 then .fin neg m le
  else .fin neg (2 ^ f.k + m) (le + (e : Int) - 1)

/-- Number that an element of a format stands for (R24, R25); long values are N × 2^0 here. -/
def decodeElem (fmt v : Nat) : Num :=
  match floatFmt fmt with
  | some f => f.decode v
  | none => let i := sext (fmtBits fmt) v; .fin (decide (i < 0)) i.natAbs 0

/-- Elements of `n` bytes in packed form (R27): bits little-endian, four FP6 elements in three bytes. -/
def unpack (bits : Nat) (bs : List Byte) : List Nat :=
  if bits = 4 then bs.flatMap fun b => [b.toNat % 16, b.toNat / 16]
  else if bits = 6 then (chunks 3 (bs.length / 3 + 1) bs).flatMap fun g =>
    let v := leNat g
    [v % 64, v / 64 % 64, v / 4096 % 64, v / 262144 % 64]
  else (chunks (bits / 8) (bs.length + 1) bs).map leNat

/-- Packed bytes of elements (R27); a last group of FP6 elements is filled with zeros. -/
def pack (bits : Nat) (l : List Nat) : List Byte :=
  if bits = 4 then (chunks 2 (l.length + 1) l).map fun g => BitVec.ofNat 8 (nth 0 g 0 + 16 * nth 0 g 1)
  else if bits = 6 then (chunks 4 (l.length + 1) l).flatMap fun g =>
    leBytes 3 (nth 0 g 0 + 64 * nth 0 g 1 + 4096 * nth 0 g 2 + 262144 * nth 0 g 3)
  else l.flatMap fun v => leBytes (bits / 8) v

/-- Integer form of a matrix operand element that is not BF16 (R26), or none for a NaN or infinity (R28). -/
def intForm (fmt v : Nat) : Option Int :=
  match decodeElem fmt v with
  | .fin neg m e =>
    let i : Int := ((m * 2 ^ (e - fmtLe fmt).toNat : Nat) : Int)
    some (if neg then -i else i)
  | _ => none

/-! ### Rounding -/

/-- How a conversion rounds (R44, R46): to nearest even, or stochastic with a 32-bit generator value. -/
inductive Rnd where
  | rne
  | stoch (r : Nat)
  deriving DecidableEq, Repr

/-- The stochastic generator (R47). -/
def srand (seed idx : W64) : Nat :=
  let z := seed ^^^ (idx * 0x9E3779B97F4A7C15#64)
  let z := (z ^^^ (z >>> 30)) * 0xBF58476D1CE4E5B9#64
  let z := (z ^^^ (z >>> 27)) * 0x94D049BB133111EB#64
  let z := z ^^^ (z >>> 31)
  (z >>> 32).toNat

/-- Round the magnitude m × 2^e of a value with sign `neg` to whole units of 2^q: the unit count, and whether it was
exact. For q at or below e the value is a whole number of units (R44, R46). -/
def roundUnits (neg : Bool) (m : Nat) (e q : Int) (r : Rnd) : Nat × Bool :=
  if q ≤ e then (m * 2 ^ (e - q).toNat, true)
  else
    let d := 2 ^ (q - e).toNat
    let n := m / d
    let rem := m % d
    if rem = 0 then (n, true)
    else
      let up := match r with
        | .rne => decide (d < 2 * rem) || (decide (2 * rem = d) && n % 2 == 1)
        | .stoch g =>
          -- R46 compares with the fraction above the lower value, which for a negative value is the larger magnitude
          if neg then !decide (g < (d - rem) * 2 ^ 32 / d) else decide (g < rem * 2 ^ 32 / d)
      (if up then n + 1 else n, false)

/-- Result of a rounding to a format: the encoding, and the events it causes. -/
structure Rounded where
  bits : Nat
  overflow : Bool
  inexact : Bool
  /-- The result is inexact and below the least normal magnitude (after rounding, or before it). -/
  tiny : Bool
  tinyBefore : Bool
  deriving DecidableEq, Repr

/-- Encoding of an overflow in a floating-point target under overflow code `ovf` (table "Drain overflow", R45). -/
def overflowBits (fmt ovf : Nat) (f : FloatFmt) : Nat :=
  if f.hasInf && (ovf == 2 || (ovf == 0 && fmt != 3)) then (2 ^ f.w - 1) * 2 ^ f.k else f.maxBits

/-- Round the exact value ±m × 2^e once to a format (R43 to R46). A zero keeps the sign it is given. -/
def roundTo (fmt : Nat) (r : Rnd) (ovf : Nat) (neg : Bool) (m : Nat) (e : Int) : Rounded :=
  match floatFmt fmt with
  | some f =>
    if m = 0 then
      { bits := if neg then 2 ^ (f.w + f.k) else 0, overflow := false, inexact := false, tiny := false, tinyBefore := false }
    else
    let le : Int := 1 - (f.bias : Int) - (f.k : Int)
    let top : Int := e + (bitLen m : Int) - 1
    let q : Int := max (top - (f.k : Int)) le
    let (n, exact) := roundUnits neg m e q r
    -- with the hidden bit counted in n, exponent field and mantissa together are (q - le) × 2^k + n
    let mag := (q - le).toNat * 2 ^ f.k + n
    let beyond := decide (f.maxBits < mag)
    let sign := if neg then 2 ^ (f.w + f.k) else 0
    { bits := sign + (if beyond then overflowBits fmt ovf f else mag), overflow := beyond,
      inexact := !exact || beyond,
      tiny := !exact && decide (top < 1 - (f.bias : Int)) &&
        !((roundUnits neg m e (top - (f.k : Int)) r).1 == 2 ^ (f.k + 1) && decide (top + 1 = 1 - (f.bias : Int))),
      tinyBefore := !exact && decide (top < 1 - (f.bias : Int)) }
  | none =>
    let n := fmtBits fmt
    let (u, exact) := roundUnits neg m e 0 r
    let lim := if neg then 2 ^ (n - 1) else 2 ^ (n - 1) - 1
    let beyond := decide (lim < u)
    let u' := if beyond then lim else u
    { bits := wrap n (if neg then -(u' : Int) else (u' : Int)), overflow := beyond, inexact := !exact || beyond,
      tiny := false, tinyBefore := false }

/-- Round the exact value num × 2^exp, whose zero is +0 (R44). -/
def roundExact (fmt : Nat) (r : Rnd) (ovf : Nat) (num exp : Int) : Rounded :=
  roundTo fmt r ovf (decide (num < 0)) num.natAbs exp

/-- Conversion of a number to a format (R49): none where a NaN or an infinity has no encoding there (ACCUM_RANGE
0x02). -/
def convertTo (fmt : Nat) (r : Rnd) (ovf : Nat) (x : Num) : Option Rounded :=
  let plain (b : Nat) : Rounded := { bits := b, overflow := false, inexact := false, tiny := false, tinyBefore := false }
  match x with
  | .fin neg m e => some (roundTo fmt r ovf neg m e)
  | .nan =>
    match fmt with
    | 2 => some (plain 0x7F) | 3 => some (plain 0x7F) | 7 => some (plain 0x7FC0) | 8 => some (plain 0x7FC00000)
    | _ => none
  | .inf neg =>
    match floatFmt fmt with
    | some f => if f.hasInf then
        some (plain ((if neg then 2 ^ (f.w + f.k) else 0) + (2 ^ f.w - 1) * 2 ^ f.k)) else none
    | none => none

/-! ### MX scales and BF16 blocks -/

/-- Floor of the base-2 logarithm of m × 2^e, for m ≠ 0. -/
def floorLog2 (m : Nat) (e : Int) : Int := (bitLen m : Int) - 1 + e

/-- Scale code of a block by the basic rule (R50): the largest magnitude as m × 2^e. -/
def mxScale (fmt m : Nat) (e : Int) : Nat :=
  if m = 0 then 127 else (max 0 (min 254 (floorLog2 m e - emaxe fmt + 127))).toNat

/-- A BF16 element as R32 takes it apart: sign, exponent e', significand. -/
def bf16Parts (v : Nat) : Bool × Nat × Nat :=
  let e := (v >>> 7) % 256
  (v.testBit 15, max e 1, if e = 0 then v % 128 else 128 + v % 128)

/-- Block alignment of BF16 (R32 to R34): the aligned integers and the side exponent G, which is none for a block of
zeros. -/
def bf16Align (vs : List Nat) : List Int × Option Int :=
  let ps := vs.map bf16Parts
  let live := ps.filter fun p => p.2.2 != 0
  match live with
  | [] => (vs.map fun _ => 0, none)
  | _ =>
    let emax := live.foldl (fun a p => max a p.2.1) 0
    (ps.map fun p =>
      let mag : Nat := p.2.2 * 2 ^ 7 / 2 ^ (emax - p.2.1)
      if p.1 then -(Int.ofNat mag) else Int.ofNat mag, some ((emax : Int) - 141))

/-! ### Binary32 (R51 to R54) -/

/-- Canonical quiet NaN (R52). -/
def qnan : W32 := 0x7FC00000

/-- The IEEE events of one operation (R53). -/
structure Ieee where
  invalid : Nat
  overflow : Nat
  underflow : Nat
  inexact : Nat
  deriving DecidableEq, Repr

/-- No event. -/
def Ieee.none : Ieee := { invalid := 0, overflow := 0, underflow := 0, inexact := 0 }
/-- One invalid operation. -/
def Ieee.inv : Ieee := { invalid := 1, overflow := 0, underflow := 0, inexact := 0 }
/-- Sum of events. -/
def Ieee.add (a b : Ieee) : Ieee :=
  { invalid := a.invalid + b.invalid, overflow := a.overflow + b.overflow, underflow := a.underflow + b.underflow,
    inexact := a.inexact + b.inexact }

/-- Events of a rounding to binary32. Underflow is an inexact tiny result; IEEE 754 lets an implementation test before
or after rounding, which the spec does not say (Config.tininessBefore). -/
def Rounded.ieee (r : Rounded) : Ieee :=
  { invalid := 0, overflow := if r.overflow then 1 else 0,
    underflow := if r.tiny || (r.tinyBefore && Config.tininessBefore) then 1 else 0,
    inexact := if r.inexact then 1 else 0 }

/-- Number of a binary32 pattern. -/
def f32Num (w : W32) : Num := decodeElem 8 w.toNat

/-- A signalling NaN. -/
def f32Snan (w : W32) : Bool :=
  fld w 23 8 == 255 && fld w 0 23 != 0 && !bitAt w 22

/-- A NaN. -/
def f32Nan (w : W32) : Bool := fld w 23 8 == 255 && fld w 0 23 != 0

/-- Binary32 result of an exact value, rounded once. -/
def f32Round (neg : Bool) (m : Nat) (e : Int) : W32 × Ieee :=
  let r := roundTo 8 .rne 0 neg m e
  (BitVec.ofNat 32 r.bits, r.ieee)

/-- Infinity with a sign. -/
def f32Inf (neg : Bool) : W32 := if neg then 0xFF800000 else 0x7F800000
/-- Zero with a sign. -/
def f32Zero (neg : Bool) : W32 := if neg then 0x80000000 else 0

/-- A NaN result: invalid only where an operand signals. -/
def nanResult (signals : Bool) : W32 × Ieee := (qnan, if signals then .inv else .none)

/-- Exact sum of two finite numbers as num × 2^exp. -/
def exactAdd (n1 : Bool) (m1 : Nat) (e1 : Int) (n2 : Bool) (m2 : Nat) (e2 : Int) : Int × Int :=
  let e := min e1 e2
  let a : Int := ((m1 * 2 ^ (e1 - e).toNat : Nat) : Int)
  let b : Int := ((m2 * 2 ^ (e2 - e).toNat : Nat) : Int)
  ((if n1 then -a else a) + (if n2 then -b else b), e)

/-- Sum of two numbers that are not NaN. An exact zero is +0 unless both operands are −0 (IEEE 754, roundTiesToEven). -/
def numAdd (x y : Num) (signals : Bool) : W32 × Ieee :=
  match x, y with
  | .nan, _ => nanResult signals
  | _, .nan => nanResult signals
  | .inf a, .inf b => if a = b then (f32Inf a, .none) else (qnan, .inv)
  | .inf a, .fin _ _ _ => (f32Inf a, .none)
  | .fin _ _ _, .inf b => (f32Inf b, .none)
  | .fin n1 m1 e1, .fin n2 m2 e2 =>
    let (s, e) := exactAdd n1 m1 e1 n2 m2 e2
    if s = 0 then (f32Zero (n1 && n2 && m1 == 0 && m2 == 0), .none)
    else f32Round (decide (s < 0)) s.natAbs e

/-- Product of two numbers, exact, none for an invalid product (zero times infinity) or a NaN. -/
def numMul (x y : Num) : Option Num :=
  match x, y with
  | .nan, _ => none
  | _, .nan => none
  | .inf a, .inf b => some (.inf (xor a b))
  | .inf a, .fin n m _ => if m = 0 then none else some (.inf (xor a n))
  | .fin n m _, .inf b => if m = 0 then none else some (.inf (xor n b))
  | .fin n1 m1 e1, .fin n2 m2 e2 => some (.fin (xor n1 n2) (m1 * m2) (e1 + e2))

/-- binary32 addition (R51). -/
def f32Add (a b : W32) : W32 × Ieee := numAdd (f32Num a) (f32Num b) (f32Snan a || f32Snan b)

/-- The operand with its sign inverted. -/
def f32Neg (a : W32) : W32 := a ^^^ 0x80000000

/-- binary32 subtraction. -/
def f32Sub (a b : W32) : W32 × Ieee := f32Add a (f32Neg b)

/-- binary32 multiplication. -/
def f32Mul (a b : W32) : W32 × Ieee :=
  match numMul (f32Num a) (f32Num b) with
  | none => (qnan, if (f32Nan a || f32Nan b) && !(f32Snan a || f32Snan b) then .none else .inv)
  | some .nan => (qnan, .none)
  | some (.inf n) => (f32Inf n, .none)
  | some (.fin n m e) => if m = 0 then (f32Zero n, .none) else f32Round n m e

/-- binary32 fused multiply-add a × b + c, rounded once (R51). -/
def f32Fma (a b c : W32) : W32 × Ieee :=
  let signals := f32Snan a || f32Snan b || f32Snan c
  match numMul (f32Num a) (f32Num b) with
  | none =>
    -- zero times infinity is invalid; with a quiet NaN addend IEEE 754 leaves the signal to the implementation
    if f32Nan a || f32Nan b then nanResult signals
    else if f32Nan c && !signals then (qnan, if Config.fmaSignals then .inv else .none)
    else (qnan, .inv)
  | some p => numAdd p (f32Num c) signals

/-- Key that orders binary32 patterns other than NaNs, −0 below +0 (R52). -/
def f32Key (a : W32) : Int := if bitAt a 31 then -(fld a 0 31 : Int) - 1 else (fld a 0 31 : Int)

/-- IEEE 754-2019 minimum (R52). -/
def f32Min (a b : W32) : W32 × Ieee :=
  if f32Nan a || f32Nan b then nanResult (f32Snan a || f32Snan b)
  else (if f32Key a ≤ f32Key b then a else b, .none)

/-- IEEE 754-2019 maximum (R52). -/
def f32Max (a b : W32) : W32 × Ieee :=
  if f32Nan a || f32Nan b then nanResult (f32Snan a || f32Snan b)
  else (if f32Key a ≤ f32Key b then b else a, .none)

/-- Order of two binary32 values, none with a NaN; the two zeros are equal. -/
def f32Order (a b : W32) : Option Ordering :=
  if f32Nan a || f32Nan b then none
  else
    let v (x : W32) : Int := if bitAt x 31 then -(fld x 0 31 : Int) else (fld x 0 31 : Int)
    some (compare (v a) (v b))

/-- The canonical tree of R54 over a list, on fuel; `op` also counts events. -/
def ctree (op : W32 → W32 → W32 × Ieee) (empty : W32) : Nat → List W32 → W32 × Ieee
  | _, [] => (empty, .none)
  | _, [x] => (x, .none)
  | 0, x :: _ => (x, .none)
  | fuel + 1, l =>
    let h := 2 ^ (bitLen (l.length - 1) - 1)
    let (a, ea) := ctree op empty fuel (l.take h)
    let (b, eb) := ctree op empty fuel (l.drop h)
    let (r, er) := op a b
    (r, (ea.add eb).add er)

/-- Reduction operation by code: 0 add, 1 minimum, 2 maximum (R98, R118). -/
def redOp : Nat → W32 → W32 → W32 × Ieee
  | 0 => f32Add
  | 1 => f32Min
  | _ => f32Max

/-- Value of an empty reduction (R54). -/
def redEmpty : Nat → W32
  | 0 => 0
  | 1 => 0x7F800000
  | _ => 0xFF800000

/-- Tree reduction of a list (R54). -/
def reduceTree (op : Nat) (l : List W32) : W32 × Ieee := ctree (redOp op) (redEmpty op) (bitLen l.length + 1) l

/-- binary32 to a 32-bit integer: nearest even, saturating, NaN to 0 (R52); `signed` selects the range. -/
def f32ToInt (signed : Bool) (a : W32) : W32 × Ieee :=
  let lo : Int := if signed then -(2 ^ 31 : Int) else 0
  let hi : Int := if signed then 2 ^ 31 - 1 else 2 ^ 32 - 1
  match f32Num a with
  | .nan => (0, .inv)
  | .inf n => (BitVec.ofInt 32 (if n then lo else hi), .inv)
  | .fin n m e =>
    let (u, exact) := roundUnits n m e 0 .rne
    let v : Int := if n then -(u : Int) else (u : Int)
    if v < lo then (BitVec.ofInt 32 lo, .inv)
    else if hi < v then (BitVec.ofInt 32 hi, .inv)
    else (BitVec.ofInt 32 v,
      if exact then .none else { Ieee.none with inexact := if Config.intConvertSignals then 1 else 0 })

/-- Integer to binary32, rounded once. -/
def intToF32 (v : Int) : W32 × Ieee :=
  if v = 0 then (0, .none) else f32Round (decide (v < 0)) v.natAbs 0

end Sys2Proof.Machine
end

