-- ==== Sys2Proof/Machine/MatrixOps.lean ====
section
/-! DEFINITION. The matrix engine's datapath: latch contents (R62, R64, R79), exact accumulation (R28 to R42, R72 to R74),
the check lane's residues (R66, R68, R84), and activation vectors on their way through the array. -/

namespace Sys2Proof.Machine

/-! ### Shapes and operands -/

/-- Width n of a shape (R63). -/
def MCfg.n (c : MCfg) : Nat := match c.width with
  | 0 => 32 | 1 => 16 | _ => 8
/-- Depth m: the operand class. -/
def MCfg.depth (c : MCfg) : Nat := fmtClass c.fw
/-- Bytes of one weight row or one activation vector (R27, R63). -/
def rowBytesOf (fmt : Nat) : Nat := if fmtBits fmt = 6 then 48 else 64
/-- Blocks of 32 per cycle (R29). -/
def MCfg.blocks (c : MCfg) : Nat := c.depth / 32
/-- L = Lw + La (R31); 0 for BF16 (R32). -/
def MCfg.lsum (c : MCfg) : Int := fmtLe c.fw + fmtLe c.fa
/-- Bytes of a side image (table "Matrix shapes"). -/
def MCfg.sideBytes (c : MCfg) : Nat := 4 * c.depth + (if c.sw then c.n * c.blocks else 0)

/-- Undefined bytes of a latch entry, from position `i` on (R62). -/
def Latch.free (l : Latch) (i n : Nat) : List Byte :=
  (List.range n).map fun (j : Nat) => (Config.freeValue 2 (l.stamp * 4096 + i + j)).setWidth 8
/-- `n` bytes of the weight row of DPU `d`. -/
def Latch.row (l : Latch) (d n : Nat) : List Byte :=
  if d < l.rows then
    padTo (min n l.rowBytes) 0 ((l.elems.drop (d * l.rowBytes)).take l.rowBytes) ++
      l.free (64 * d + l.rowBytes) (n - l.rowBytes)
  else l.free (64 * d) n
/-- The first `n` check words, with 0x7FFF_FFFF as 0 (R68). -/
def Latch.checkWords (l : Latch) (n : Nat) : List Nat :=
  ((chunks 4 n (padTo (4 * min n l.checks) 0 l.side ++ l.free 2048 (4 * (n - l.checks)))).map fun b =>
    let c := leNat b % 2 ^ 31
    if c = 2 ^ 31 - 1 then 0 else c)
/-- Scale code of block `b` of DPU `d`. -/
def Latch.code (l : Latch) (d b : Nat) : Nat :=
  if d < l.rows ∧ b < l.codes then (nth 0 (l.side.drop (4 * l.checks + d * l.codes)) b).toNat
  else (Config.freeValue 2 (l.stamp * 4096 + 3072 + 4 * d + b)).toNat % 256

/-- Entry `e` as a vector issued in cycle `t` meets it (R79). -/
def Mxe.entry (m : Mxe) (e t : Nat) : Latch := (AMap.get { base := Latch.zero, pend := [] } m.latch e).view t

/-- A matrix operand by blocks of 32: the integers and, for BF16, the side exponent; none with a NaN or an infinity
(R26, R28, R32, R34). -/
def operand (fmt : Nat) (bs : List Byte) : Option (List (List Int × Option Int)) :=
  let vs := unpack (fmtBits fmt) bs
  if fmt = 7 then
    if vs.any fun v => v / 128 % 256 == 255 then none else some ((chunks 32 8 vs).map bf16Align)
  else (vs.mapM (intForm fmt)).map fun l => (chunks 32 8 l).map fun b => (b, some 0)

/-- One block as an accumulator takes it: some product is not zero, the sum of the products, the exponent E. -/
structure Block where
  live : Bool
  sum : Int
  e : Int
  deriving DecidableEq, Repr

/-- Block of a weight row and a vector at scale exponents (R31, R32). -/
def mkBlock (w a : List Int × Option Int) (scale : Int) : Block :=
  match w.2, a.2 with
  | some gw, some ga =>
    let ps := List.zipWith (· * ·) w.1 a.1
    { live := ps.any fun p => p != 0, sum := ps.foldl (· + ·) 0, e := gw + ga + scale }
  | _, _ => { live := false, sum := 0, e := 0 }

/-! ### Residues modulo 2^31 − 1 (R66) -/

/-- M. -/
def mersenne : Nat := 2 ^ 31 - 1
/-- ρ(v × 2^q). -/
def residue (v q : Int) : Nat :=
  (v % (mersenne : Int)).toNat * 2 ^ (q % 31).toNat % mersenne

/-! ### Accumulation -/

/-- A fault of the matrix datapath and the cycle in which it is raised. -/
abbrev MFault := Nat × Cause × Byte

/-- The long accumulator takes a block (R35 to R37, R42), or the faults of its add cycle. -/
def Acc.take (l : Int) (a : Acc) (b : Block) : Acc × List (Cause × Byte) :=
  let terms := if 2 ^ 24 < a.terms + 32 then [(Cause.accumRange, (0x01 : Byte))] else []
  if !b.live then ({ a with terms := a.terms + 32 }, terms)
  else
    let lo := match a.emin with
      | some v => min v b.e
      | none => b.e
    let hi := match a.emax with
      | some v => max v b.e
      | none => b.e
    let span := if 63 < hi - lo then [(Cause.scaleSpan, (0x01 : Byte))] else []
    let window := match a.loaded with
      | some q => if q - l ≤ b.e ∧ b.e ≤ q - l + 63 then [] else [(Cause.scaleSpan, (0x03 : Byte))]
      | none => []
    let e := b.e + l
    let x := if a.num = 0 then e else min a.exp e
    ({ num := (if a.num = 0 then 0 else a.num * 2 ^ (a.exp - x).toNat) + b.sum * 2 ^ (e - x).toNat, exp := x,
       emin := some lo, emax := some hi, terms := a.terms + 32, loaded := a.loaded }, span ++ window ++ terms)

/-- All blocks of one vector. -/
def Acc.takeAll (l : Int) (a : Acc) (bs : List Block) : Acc × List (Cause × Byte) :=
  bs.foldl (fun o b => let r := o.1.take l b; (r.1, o.2 ++ r.2)) (a, [])

/-- A PSM row word (N, term count) takes the blocks of one vector at anchor `q` (R74). -/
def rowTake (l q : Int) (n : Int) (terms : Nat) (bs : List Block) : Int × Nat × List (Cause × Byte) :=
  let bad := bs.any fun b => b.live && !(decide (q - l ≤ b.e) && decide (b.e ≤ q - l + 63))
  let terms' := terms + 32 * bs.length
  (bs.foldl (fun n b => if b.live then n + b.sum * 2 ^ (b.e + l - q).toNat else n) n, terms',
   (if bad then [(Cause.scaleSpan, (0x03 : Byte))] else []) ++
     (if 2 ^ 24 < terms' then [(Cause.accumRange, (0x01 : Byte))] else []))

/-- Bytes of a long-value word (table "Long-value word"). -/
def longWord (n : Int) (terms : Nat) : List Byte := leBytes 24 (wrap 192 n) ++ leBytes 4 (terms % 2 ^ 25) ++ [0, 0, 0, 0]

/-! ### Activation vectors -/

/-- Key of an accumulator of a DPU. -/
def accKey (d a : Nat) : Nat := 4 * d + a

/-- Relative module address of word `d` of a PSM row of a core. -/
def rowAddr (c row d : Nat) : MAddr := BitVec.ofNat 48 (absAddr 2 c (1024 * row + 32 * d))

/-- What the check lane adds for a vector (R84). -/
def checkSum (m : MVec) (l : Latch) (act : List (List Int × Option Int)) (scales : List Int) : Nat :=
  let words := chunks 32 m.cfg.blocks ((l.checkWords m.cfg.depth).map Int.ofNat)
  (List.zip words (List.zip act scales)).foldl (fun r p =>
    match p.2.1.2 with
    | some g => (r + residue ((List.zipWith (· * ·) p.1 p.2.1.1).foldl (· + ·) 0) (g + p.2.2 + m.cfg.lsum)) % mersenne
    | none => r) 0

/-- Scale exponents of the activation blocks, 127 subtracted (R30, R65). -/
def MVec.scales (m : MVec) : List Int :=
  (List.range m.cfg.blocks).map fun (b : Nat) => if m.cfg.sa then ((m.scale / 256 ^ b % 256 : Nat) : Int) - 127 else 0

/-- Weight scale codes of DPU `d` as a vector meets them. -/
def MVec.codes (m : MVec) (l : Latch) (d : Nat) : List Nat :=
  (List.range m.cfg.blocks).map fun b => if m.cfg.sw then l.code d b else 127

/-- Weight row of DPU `d`, by blocks. -/
def MVec.weights (m : MVec) (l : Latch) (d : Nat) : Option (List (List Int × Option Int)) :=
  operand m.cfg.fw (l.row d (rowBytesOf m.cfg.fw))

/-- Faults of the weights of DPU `d` in its multiply cycle, whatever the vector holds (R30, R34, R460). -/
def MVec.weightFaults (x : Ctx) (m : MVec) (l : Latch) (d : Nat) : List MFault :=
  (if (m.codes l d).contains 255 then [(x.at (4 + d), Cause.scaleSpan, (0x02 : Byte))] else []) ++
    (if (m.weights l d).isNone then [(x.at (4 + d), Cause.accumRange, (0x02 : Byte))] else [])

/-- Apply the vector to DPU `d` with its weight row (R35, R72, R74). -/
def applyDpu (x : Ctx) (m : MVec) (l : Latch) (act : List (List Int × Option Int)) (o : Work × List MFault) (d : Nat) :
    Work × List MFault :=
  let (k, fs) := o
  match MVec.weightFaults x m l d, m.weights l d with
  | [], some w =>
    let scales := (List.zip (m.codes l d) m.scales).map fun p => (p.1 : Int) - 127 + p.2
    let bs := (List.zip w (List.zip act scales)).map fun p => mkBlock p.1 p.2.1 p.2.2
    let due (l : List (Cause × Byte)) : List MFault := l.map fun f => (x.at (7 + d), f.1, f.2)
    if m.cfg.psm then
      let a := rowAddr x.c m.dest d
      let old := if m.opens then .ok (List.replicate 32 (0 : Byte), k) else k.readFree x a 32 (x.at (3 + d))
      match old with
      | .error (.stop c dd p) => ((p.getD k), fs ++ [(x.at (3 + d), c, dd)])
      | .error (.cut _ k) => (k, fs)
      | .error (.hold _) => (k, fs)
      | .ok (bytes, k) =>
        let (n, terms, bad) := rowTake m.cfg.lsum m.cfg.q (sext 192 (leNat (bytes.take 24))) (leNat ((bytes.drop 24).take 4) % 2 ^ 25) bs
        if bad.isEmpty then
          match k.writeFree x a (longWord n terms) (x.at (10 + d)) with
          | .error (.stop c dd p) => ((p.getD k), fs ++ [(x.at (10 + d), c, dd)])
          | .error (.cut _ k) => (k, fs)
          | .error (.hold _) => (k, fs)
          | .ok k => (k, fs)
        else (k, fs ++ due bad)
    else
      let mx := (k.s.core x.c).mx
      let a0 := if m.opens then Acc.zero else AMap.get Acc.zero mx.acc (accKey d m.dest)
      let (a, bad) := a0.takeAll m.cfg.lsum bs
      if bad.isEmpty then
        ({ k with s := k.s.updCore x.c fun o =>
            { o with mx := { o.mx with acc := AMap.set Acc.zero o.mx.acc (accKey d m.dest) a } } }, fs)
      else (k, fs ++ due bad)
  | bad, _ => (k, fs ++ bad)

/-- Apply one vector to every DPU in use and to the check lane (R78, R84). -/
def applyVector (o : Work × List MFault) (c : Nat) (m : MVec) : Work × List MFault :=
  let (k, fs) := o
  let x : Ctx := {
    c := c, e := .mxe, job := m.job, head := m.at', t := m.at', r := m.at', w := m.waited, col := 2 }
  let l := (k.s.core c).mx.entry m.entry m.at'
  let k := k.ev 0x05 (x.at 4) 1 1
  let codes := (List.range m.cfg.blocks).map fun b => m.scale / 256 ^ b % 256
  let bad := (if m.cfg.sa && codes.contains 255 then [(x.at 4, Cause.scaleSpan, (0x02 : Byte))] else [])
  match operand m.cfg.fa m.elems with
  | none => (k, fs ++ bad ++ [(x.at 4, Cause.accumRange, (0x02 : Byte))] ++ (List.range m.cfg.n).flatMap (MVec.weightFaults x m l))
  | some act =>
    if !bad.isEmpty then (k, fs ++ bad ++ (List.range m.cfg.n).flatMap (MVec.weightFaults x m l))
    else
      let evs := k.evs
      let (k, fs) := (List.range m.cfg.n).foldl (applyDpu x m l act) (k, fs)
      let v := checkSum m l act m.scales
      let s := k.s.updCore c fun o =>
        let mx := o.mx
        let add (t : AMap Nat) : AMap Nat :=
          AMap.set 0 t m.dest (((if m.opens then 0 else AMap.get 0 t m.dest) + v) % mersenne)
        { o with mx := if m.cfg.psm then { mx with rowChk := add mx.rowChk } else { mx with chk := add mx.chk } }
      ({ k with s := s, evs := evs }, fs)

/-- Raise the faults of a matrix instruction, each in its own cycle (R460); R88 weighs those of one cycle. -/
def Work.matrixFaults (k : Work) (x : Ctx) (fs : List MFault) : Work :=
  fs.foldl (fun k f => k.lateFault f.1 x.c (some .mxe) f.2.1 f.2.2) k

/-- An arithmetic fault of the matrix engine is on its way: no drain behind it writes or compares anything (R38, R83). -/
def Work.spoilt (k : Work) (x : Ctx) : Bool :=
  (k.late ++ (k.s.core x.c).faults).any fun f => f.core == x.c && f.eng == some .mxe && (f.cause == .scaleSpan || f.cause == .accumRange)

/-- Apply the vectors of a core that were issued before cycle `t`: every latch fill that they can meet has issued. Their faults
fall due in the cycles of R460. -/
def State.vectors (s : State) (c t : Nat) : State :=
  match (s.core c).mx.vecs.partition fun v => decide (v.at' < t) with
  | ([], _) => s
  | (now, later) =>
    let s := s.updCore c fun k => { k with mx := { k.mx with vecs := later } }
    let w : Work := { s := s, fin := 0, claims := [], evs := [], recs := [], far := [], late := [] }
    let (w, fs) := now.foldl (fun o m => applyVector o c m) (w, [])
    let s := w.evs.foldl (fun s v => s.count c (some 0) v.code v.start v.len v.n) w.s
    let s := w.recs.foldl (fun s r => (s.raiseEng c .mxe r.1 r.2).count c none 0x19 (t - 1) 1 1) s
    let late := w.late ++ fs.map fun f => { cyc := f.1, core := c, eng := some .mxe, cause := f.2.1, detail := f.2.2 }
    s.updCore c fun k => { k with faults := k.faults ++ late }

end Sys2Proof.Machine
end

