-- ==== Sys2Proof/Machine/Exec.lean ====
section
/-! DEFINITION. How an engine issues one instruction: signature, ledger, claims and dye (R128, R142, R173, R436, R443). -/

namespace Sys2Proof.Machine

/-! ### Issue -/

/-- One step of the dye LFSR, Galois form with mask 0x8020_0003 (R443). -/
def lfsrStep (v : W32) : W32 := if bitAt v 0 then (v >>> 1) ^^^ 0x80200003 else v >>> 1

/-- Payload of a dye record up to the completion cycle (table "Dye record payload"). -/
def dyeBytes (x : Ctx) (op : Nat) (pc : BitVec 15) (flags : Byte) (p : Option Pass) (exec : Nat) : List Byte :=
  leBytes 2 x.c ++ leBytes 1 x.e.num ++ leBytes 1 op ++
    leBytes 2 (pc.toNat + (if 24576 ≤ pc.toNat then 2 ^ 15 else 0)) ++ [flags] ++
    leBytes 1 (match p with | some p => p.attempt | none => 0) ++
    leBytes 4 (match p with | some p => p.number.toNat | none => 0) ++ leBytes 2 x.job.kernel ++ [0, 0] ++
    leBytes 4 x.head ++ leBytes 4 x.t ++ leBytes 4 exec

/-- The dye rate of OBS_DYE. -/
def State.dyeRate (s : State) : Nat := s.pf .obsDye 0 5

/-- The next instruction of an engine is dyed (R443). -/
def State.dyed (s : State) (q : Engine) : Bool :=
  s.dyeRate != 0 && (lfsrStep q.lfsr).toNat % 2 ^ s.dyeRate == 0

/-- Land and forget what no engine of the core can meet any more: writes and port claims before the horizon; the faults that
fall due before it are raised. -/
def State.tidy (s : State) (c : Nat) : State :=
  let h := (s.core c).horizon
  ((s.settle c h).updCore c fun k => { k with claims := k.claims.filter fun o => decide (h ≤ o.last) }).ripen c h

/-- The plain end of an instruction: the next word issues one cycle later. -/
def finish (x : Ctx) (w : Work) : Issued :=
  { x := x, w := w, nxt := x.at 1, pc := none, fold := true, exec := x.t, remote := none }

/-- Raise the corrected errors that an instruction of cycle `t` has met. -/
def State.raiseRecs (s : State) (c : Nat) (e : Eng) (t : Nat) (recs : List (Cause × Byte)) : State :=
  recs.foldl (fun s r => (s.raiseEng c e r.1 r.2).count c none 0x19 t 1 1) s

/-- The queue after an instruction has issued: program counter, signature, LFSR, next and completion cycles. -/
def Engine.advance (q : Engine) (i : Issued) : Engine :=
  { q with pc := (match i.pc with | some p => p | none => q.pc + 1),
           sig := if i.fold then crc32cFold q.sig (leBytes 2 q.pc.toNat) else q.sig,
           lfsr := lfsrStep q.lfsr, next := i.nxt, done := max q.done (max i.w.fin i.x.t),
           doneFar := i.w.far.foldl (fun m d => AMap.upd 0 m d.1 (max d.2)) q.doneFar, wait := none }

/-- Commit an issued instruction: claims, queue, ledger, events, dye, corrected errors, the faults that fall due. `plan` marks
NOP and PAD. -/
def commit (i : Issued) (op : Nat) (plan : Bool) : State :=
  let x := i.x
  let c := x.c
  let q0 := (i.w.s.core c).engine x.e
  let s := i.w.s.updEngine c x.e fun q => q.advance i
  let s := s.updCore c fun k => { k with claims := k.claims ++ i.w.claims, faults := k.faults ++ i.w.late }
  let s := s.ledger c x.e x.col x.head (x.t - x.head)
  let s := s.ledger c x.e (if plan then 1 else 0) x.t 1
  let s := s.ledger c x.e 1 (x.t + 1) (i.nxt - (x.t + 1))
  let s := i.w.evs.foldl (fun s v => s.count c (some x.e.num) v.code v.start v.len v.n) s
  let body := dyeBytes x op q0.pc (if i.remote.isSome then 2 else 0) (s.pass x.job.pass) i.exec
  let s := if s.dyed q0 then
      match i.remote.filter fun o => (AMap.get none s.ops o).isSome with
      | some o =>
        { s with ops := AMap.upd none s.ops o fun v => v.map fun v => { v with dye := some body } }
      | none => s.traceTo x.job.fn 0x10 (BitVec.ofNat 8 x.job.fn.val) (body ++ leBytes 4 (max i.w.fin x.t))
    else s
  (s.raiseRecs c x.e x.t i.w.recs).tidy c

/-- Insert a cycle into an ascending list without repeats. -/
def insCycle (n : Nat) : List Nat → List Nat
  | [] => [n]
  | d :: l => if n < d then n :: d :: l else if n = d then d :: l else d :: insCycle n l

/-- Cycles after `t` in which results of the engine's scalar and address registers fall due, ascending. -/
def Engine.dues (q : Engine) (t : Nat) : List Nat :=
  let all := (q.sregs.flatMap fun kv => kv.2.pend.map (·.1)) ++ (q.aregs.flatMap fun kv => kv.2.pend.map (·.1))
  (all.filter fun d => decide (t < d)).foldl (fun l d => insCycle d l) []

/-- Issue of an instruction that may wait at the head: it reads its scalar and address registers in its queue cycle (R70,
R92, R128), so what it does is found anew with each result that falls due before it issues. -/
def issueAt (body : Ctx → Work → Except Halt Issued) (x : Ctx) (w : Work) : List Nat → Except Halt Issued
  | [] => body x w
  | d :: l =>
    match body x w with
    | .ok i => if i.x.r < d ∧ d ≤ i.x.t then issueAt body { x with r := d } w l else .ok i
    | .error (.hold k) =>
      match issueAt body { x with r := d } w l with
      | .ok i => if d ≤ i.x.t then .ok i else .error (.hold k)
      | .error _ => .error (.hold k)
    | .error (.cut y v) => if y.r < d ∧ d ≤ y.t then issueAt body { x with r := d } w l else .error (.cut y v)
    | .error h => .error h

/-- Faults of an instruction word in its queue cycle (R129, R177): of an uncorrectable word and a parity error in one cycle,
the error of the word has the lower cause value (R157). The flag: both hold. -/
def State.wordFault (s : State) (c : Nat) (e : Eng) : Option (Cause × Byte × Bool) :=
  let q := (s.core c).engine e
  let parity := q.upset == some .issueParity
  if eccWorst s.ecc 8 (absAddr 3 c (8 * q.pc.toNat)) 8 = some .uncorrectable then some (.eccUncorrectable, 0x73, parity)
  else if parity then some (.controlParity, 0x05, false)
  else none

/-- An instruction stops in its queue cycle: what it has met is recorded, the check has caught the transient fault that it
found (R364), and the dye record shows no completion (R443). -/
def State.stopAt (s : State) (c : Nat) (e : Eng) (op : Nat) (x : Ctx) (cause : Cause) (detail : Byte) (part : Option Work) : State :=
  let q := (s.core c).engine e
  let s := match part with
    | none => s
    | some p => (p.evs.filter fun (v : Ev) => v.code == 0x0C || v.code == 0x17).foldl (fun s (v : Ev) =>
        s.count c (some e.num) v.code v.start v.len v.n) (p.s.raiseRecs c e q.next p.recs)
  let s := if cause = .residueMismatch ∨ cause = .checkLaneMismatch
    then s.updEngine c e fun q => { q with upset := none } else s
  let body := dyeBytes x op q.pc 5 (s.pass x.job.pass) q.next ++ leBytes 4 0xFFFFFFFF
  let s := if s.dyed q then s.traceTo x.job.fn 0x10 (BitVec.ofNat 8 x.job.fn.val) body else s
  s.stopFault c e q.next cause detail

/-- An engine runs one instruction word with its meaning. Nothing happens while the core runs no pass or the engine does
not issue (R128, R238); a fused-off engine drops the word (R159); an error of the word stops it (R129, R177). -/
def runInstr (s : State) (c : CoreId) (e : Eng) (op : Nat) (plan : Bool)
    (body : Ctx → Work → Except Halt Issued) : State :=
  let s := s.vectors c.val ((s.engine c.val e).next + 6)
  let k := s.core c.val
  let q := k.engine e
  if !s.present e then s.raiseEng c.val e .absentEngine 0x02
  else
    match k.job with
    | none => s
    | some j =>
      if q.mode ≠ .running || k.svc ≠ .inService then s
      else match s.wordFault c.val e with
      | some (cause, detail, both) =>
        let s := if q.upset = some .issueParity then s.updEngine c.val e fun q => { q with upset := none } else s
        (if both then s.count c.val (some e.num) 0x0C q.next 1 1 else s).stopFault c.val e q.next cause detail
      | none =>
        let s := if (eccWorst s.ecc 8 (absAddr 3 c.val (8 * q.pc.toNat)) 8).isSome && q.wait.isNone
          then s.raiseRecs c.val e q.next [(.eccCorrected, 0x73)] else s
        let x : Ctx := { c := c.val, e := e, job := j, head := q.next, t := q.next, r := q.next,
                         w := AMap.get 0 q.waited (q.next / 3200), col := 2 }
        let w : Work := { s := s, fin := q.next, claims := [], evs := [], recs := [], far := [], late := [] }
        match issueAt body x w (q.dues q.next) with
        | .ok i => commit i op plan
        | .error (.cut x w) => commit (finish x w) op plan
        | .error (.hold kind) => s.updEngine c.val e fun q => { q with wait := some (kind, q.next) }
        | .error (.stop cause detail part) => s.stopAt c.val e op x cause detail part

end Sys2Proof.Machine
end

