-- ==== Sys2Proof/Machine/Operands.lean ====
section
/-! DEFINITION. Encodings of the engine instructions: which modifiers and operand fields are reserved (R123 to R125, R69,
R91, R131, R133, R82, R95, R103), and the operand fields that several instructions share. PROGRAM_LOAD and the engines
use the same predicates. -/

namespace Sys2Proof.Machine

/-- The operand bits from `lo` up to bit `hi` are zero. -/
def zeros (w : BitVec 48) (lo hi : Nat) : Bool := fld w lo (hi + 1 - lo) == 0

/-- A control or register instruction without a reserved modifier, a reserved field value or a non-zero reserved field
(R125). The loop-structure fields are checked on their own (R143, R146). -/
def legalCtl (op : Nat) (m : Byte) (w : BitVec 48) : Bool :=
  match op with
  | 0x01 => m == 0 && w == 0
  | 0x02 => if m == 0 then zeros w 24 47 && fld w 0 24 != 0 else m == 1 && zeros w 32 47
  | 0x03 => decide (m.toNat < 64) && zeros w 46 47
  | 0x04 => m == 0 && zeros w 16 47
  | 0x05 => m == 0 && zeros w 12 47
  | 0x06 => m == 0 && w == 0
  | 0x07 => m == 0 && zeros w 23 47 && fld w 6 16 != 0
  | 0x08 => m == 0 && zeros w 22 47 && fld w 6 16 != 0
  | 0x09 => decide (m.toNat ≤ 4) && zeros w 38 47 && fld w 22 16 != 0
  | 0x0A => decide (m.toNat ≤ 4) && zeros w 23 47 && fld w 6 16 != 0
  | 0x0B => decide (m.toNat ≤ 1) && zeros w 12 47
  | 0x10 => decide (m.toNat < 32) && zeros w 32 47
  | 0x11 => decide (m.toNat ≤ 12) && zeros w 15 47
  | 0x12 => decide (m.toNat ≤ 12) && zeros w 42 47
  | 0x13 => decide (m.toNat < 16)
  | 0x14 => decide (m.toNat < 16) && zeros w 42 47
  | 0x15 => m == 0 && zeros w 10 47
  | 0x16 => m == 0 && zeros w 10 47
  | 0x17 => if m == 4 then zeros w 9 47 && fld w 0 1 == 0 else decide (m.toNat < 4) && zeros w 5 47
  | _ => false

/-- An even scalar register that starts a group of four (R100). -/
def seedGroup (n : Nat) : Bool := n % 2 == 0 && decide (n ≤ 28)

/-- An engine instruction without a reserved field value, modifier or non-zero reserved field (R69, R82, R91, R95,
R103). -/
def legalEng (op : Nat) (m : Byte) (w : BitVec 48) : Bool :=
  match op with
  | 0x40 =>
    let fw := fld w 0 4
    let fa := fld w 4 4
    m == 0 && fmtClass fw != 0 && fmtClass fw == fmtClass fa && fld w 10 2 != 3 && zeros w 29 47 &&
      !(bitAt w 8 && fw == 7) && !(bitAt w 9 && fa == 7)
  | 0x41 => m == 0 && [0, 2, 3, 7, 8].contains (fld w 0 4) && fld w 5 2 != 3 && fld w 21 5 % 2 == 0 &&
      fld w 26 5 % 2 == 0 && zeros w 41 47
  | 0x42 => decide (m.toNat < 4) && zeros w 9 47
  | 0x43 => zeros w 23 47
  | 0x44 => decide (m.toNat < 16) && zeros w 20 47
  | 0x45 => decide (m.toNat < 16) && zeros w 22 47
  | 0x46 => decide (m.toNat < 16) && zeros w 32 47
  | 0x47 => decide (m.toNat < 16) && zeros w 12 47
  | 0x50 => m == 0 && zeros w 6 23 && zeros w 32 47 && !(bitAt w 29 && bitAt w 30) && !(bitAt w 31 && !bitAt w 30)
  | 0x51 => m == 0 && zeros w 6 23 && zeros w 32 47 && !(bitAt w 29 && bitAt w 30) && !(bitAt w 31 && !bitAt w 30)
  | 0x52 => decide (m.toNat ≤ 4) && zeros w 18 47
  | 0x53 => m == 0 && zeros w 24 47
  | 0x54 => decide (m.toNat ≤ 3) && zeros w 18 47
  | 0x55 => m == 0 && zeros w 24 47
  | 0x56 => decide (m.toNat ≤ 7) && zeros w 18 47
  | 0x57 => decide (m.toNat ≤ 2) && zeros w 12 47
  | 0x58 => decide (m.toNat ≤ 5) && zeros w 12 47
  | 0x59 => decide (m.toNat ≤ 2) && zeros w 12 31 && zeros w 44 47
  | 0x5A => if m == 0 then zeros w 12 31 && zeros w 38 47 else m == 1 && zeros w 6 38 && zeros w 44 47
  | 0x5B => m == 0 && zeros w 0 5 && zeros w 12 31 && zeros w 38 38 && zeros w 44 47
  | 0x60 => m == 0 && zeros w 18 47
  | 0x61 => m == 0 && zeros w 32 47
  | 0x62 => m == 0 && zeros w 18 47
  | 0x63 => decide (m.toNat < 8) && fld m 1 2 != 3 && decide (fld w 16 4 ≤ 9) && decide (fld w 20 4 ≤ 8) &&
      seedGroup (fld w 24 5) && zeros w 34 47
  | 0x64 => decide (m.toNat < 8) && fld m 1 2 != 3 && (fld w 16 4 == 7 || fld w 16 4 == 8) &&
      decide (fld w 20 4 ≤ 6) && seedGroup (fld w 24 5) && zeros w 29 33 && zeros w 44 47
  | 0x65 => m == 0 && zeros w 16 16 && zeros w 20 47
  | 0x66 => m == 0 && decide (fld w 16 6 < 48) && decide (fld w 22 6 < 36) && zeros w 28 47
  | 0x70 => m == 0 && zeros w 34 47
  | 0x71 => m == 0 && zeros w 42 47
  | 0x72 => m == 0 && zeros w 46 47
  | 0x78 => m == 0 && zeros w 20 47
  | 0x79 => m == 0 && zeros w 20 47
  | 0x7A => decide (m.toNat < 16) && decide (fld m 0 3 ≤ 5) && zeros w 18 47
  | 0x7B => decide (m.toNat ≤ 1)
  | 0x7C => decide (m.toNat < 8) && fld m 0 2 != 3 && zeros w 32 47
  | 0x7D => m == 0 && zeros w 38 47
  | 0x7E => m == 0 && zeros w 38 47
  | 0x7F => decide (m.toNat ≤ 2) && zeros w 26 31 && zeros w 38 47
  | _ => false

/-- First opcode and number of opcodes of an engine's range (tables "Opcode map", "Engine opcode ranges"). -/
def opRange : Eng → Nat × Nat
  | .mxe => (0x40, 16) | .vxe => (0x50, 16) | .txe => (0x60, 16) | .gxe => (0x70, 8) | .fxe => (0x78, 8)

/-- An opcode that every engine executes. -/
def ctlOp (op : Nat) : Bool := (decide (1 ≤ op) && decide (op ≤ 0x0B)) || (decide (0x10 ≤ op) && decide (op ≤ 0x17))

/-- Fields of a 64-bit instruction word (R123). -/
def wordOp (v : W64) : Nat := fld v 56 8
/-- Modifier of a word. -/
def wordMod (v : W64) : Byte := BitVec.ofNat 8 (fld v 48 8)
/-- Operands of a word. -/
def wordOps (v : W64) : BitVec 48 := BitVec.ofNat 48 (fld v 0 48)

/-- A stream's word has an encoding that its engine executes: check 1 of R213 (R91, R125). -/
def legalWord (e : Eng) (v : W64) : Bool :=
  let op := wordOp v
  let (lo, n) := opRange e
  if ctlOp op then legalCtl op (wordMod v) (wordOps v)
  else decide (lo ≤ op) && decide (op < lo + n) && legalEng op (wordMod v) (wordOps v)

/-- Stop on a reserved encoding of a control or register instruction (R125). -/
def needCtl (op : Nat) (m : Byte) (w : BitVec 48) : Except Halt Unit :=
  if legalCtl op m w then .ok () else .error (parity 0x01)

/-- Stop on a reserved encoding of an engine instruction (R69, R91). -/
def needEng (e : Eng) (op : Nat) (m : Byte) (w : BitVec 48) : Except Halt Unit :=
  if legalEng op m w then .ok () else .error (parity (encDetail e))

/-- Stop with CONTROL_PARITY and a detail unless a condition holds. -/
def need (ok : Bool) (d : Byte) : Except Halt Unit := if ok then .ok () else .error (parity d)

/-- Stop with any fault unless a condition holds. -/
def needF (ok : Bool) (c : Cause) (d : Byte) : Except Halt Unit := if ok then .ok () else .error (.stop c d none)

/-- A latent hardware fault is the one named: the instruction's check finds it (R364). -/
def Work.clear (k : Work) (x : Ctx) (u : Upset) (c : Cause) (d : Byte) : Except Halt Unit :=
  needF (((k.s.core x.c).engine x.e).upset != some u) c d

/-- A local operand address: one of the spaces allowed, and the own core where the core field names a core (R92, R100,
R132). A core field that names no core is left to the check of R161. For Aw, Ac, Av and As of the matrix engine the spec names
no fault for an address of another core: their callers raise that of a wrong space, 0x22, by the model's choice (log entry
148). -/
def localAddr (x : Ctx) (a : MAddr) (spaces : List Nat) : Bool :=
  spaces.contains (aSpace a) && (aCore a == x.c || decide (1728 ≤ aCore a))

/-- Scalar register pair as a 64-bit value, low half first. -/
def Work.sreg64 (w : Work) (x : Ctx) (i : Nat) : W64 :=
  BitVec.ofNat 64 ((w.sreg x i).toNat + (w.sreg x (i + 1)).toNat * 2 ^ 32)

/-- Address plus a byte offset, modulo 2^48 (R70). -/
def addA (a : MAddr) (n : Int) : MAddr := a + BitVec.ofInt 48 n

/-- The 32-bit words of a byte list. -/
def words32 (bs : List Byte) : List W32 :=
  (chunks 4 (bs.length / 4 + 1) bs).map fun b => BitVec.ofNat 32 (leNat b)

/-- The bytes of 32-bit words. -/
def bytes32 (l : List W32) : List Byte := l.flatMap fun v => leBytes 4 v.toNat

/-- Scope by code (R194). -/
def scopeOf : Nat → Scope
  | 0 => .engine | 1 => .core | 2 => .die | 3 => .module | _ => .skein

/-- Distance of two cores as a scope code (R195). -/
def scopeDist (c1 : Nat) (m1 : BitVec 12) (c2 : Nat) (m2 : BitVec 12) : Nat :=
  if m1 ≠ m2 then 4 else if c1 = c2 then 1 else if coreDie c1 = coreDie c2 then 2 else 3

/-- A scope includes a core at a distance; engine scope counts as core scope (R195). -/
def scopeIncludes (s : Scope) (d : Nat) : Bool := decide (d ≤ max 1 s.code)

end Sys2Proof.Machine
end

