-- ==== Sys2Proof/Machine/Sync.lean ====
section
/-! DEFINITION. Sync counters and pending releases (R133 to R138, R194 to R202): shared by the control instructions, the
release table, arrivals and completions of the fabric engine. -/

namespace Sys2Proof.Machine

/-- A counter of a core. -/
def State.counter (s : State) (c n : Nat) : Counter := AMap.get Counter.reset (s.core c).counters n
/-- The state with a counter of a core replaced. -/
def State.setCounter (s : State) (c n : Nat) (v : Counter) : State :=
  s.updCore c fun k => { k with counters := AMap.set Counter.reset k.counters n v }

/-- Put an increment in its place: by rising cycle, and within a cycle by falling engine number, so that the lowest engine
number writes the tag last (R136). -/
def insInc (v : CInc) : List CInc → List CInc
  | [] => [v]
  | u :: l => if v.cyc < u.cyc ∨ (v.cyc = u.cyc ∧ u.eng < v.eng) then v :: u :: l else u :: insInc v l

/-- The counter takes an increment: the count saturates, the tag is the increment's (R133, R136). -/
def Counter.take (v : Counter) (u : CInc) : Counter :=
  { v with count := min (v.count + u.amount) 65535, scope := u.scope, originCore := u.originCore, originModule := u.originModule }

/-- The counter as a WAIT or an ACQUIRE in cycle `t` sees it: with the increments that applied in earlier cycles (R135). -/
def Counter.view (v : Counter) (t : Nat) : Counter :=
  { (v.pend.filter fun u => decide (u.cyc < t)).foldl Counter.take v with pend := v.pend.filter fun u => decide (t ≤ u.cyc) }

/-- First of the cycles from `t` on in which the count reaches a threshold, as far as the increments are known (R135). -/
def Counter.reaches (v : Counter) (threshold t : Nat) : Option Nat :=
  (t :: v.pend.map fun u => max t (u.cyc + 1)).find? fun n => decide (threshold ≤ (v.view n).count)

/-- Increment a counter in kernel cycle `t`; saturation is CONTROL_PARITY 0x04 at the counter's core in that cycle (R136). -/
def State.incCounter (s : State) (c n amount : Nat) (scope : Scope) (core : Nat) (module : BitVec 12) (t eng : Nat) :
    State :=
  let v := (s.counter c n).view (s.core c).horizon
  let u : CInc := { cyc := t, eng := eng, amount := amount, scope := scope, originCore := core, originModule := module }
  let s := s.setCounter c n { v with pend := insInc u v.pend }
  let told := (s.core c).faults.any fun f => f.cyc == t && f.cause == .controlParity && f.detail == 0x04
  if 65535 < (v.view (t + 1)).count + amount ∧ told = false then
    s.addFault c { cyc := t, core := c, eng := some (engOf eng), cause := .controlParity, detail := 0x04 }
  else s

/-- Kernel cycle of an arrival at a core, as far as the clock tells it: the start of the current slot group (R139). -/
def State.nowCycle (s : State) (c : Nat) : Nat :=
  match (s.core c).job with
  | some j => (match s.pass j.pass with
    | some p => 3200 * (s.clk.frame.toNat - p.kernelStart.toNat) + 32 * (s.clk.sg % 100)
    | none => 0)
  | none => 0

/-- The cycle after cycle `m`, in which an effect of an instruction that issued in `x.t` applies (R134, R290). -/
def Ctx.after (x : Ctx) (m : Nat) : Nat :=
  let b := max x.t m
  workAfter (if b / 3200 = x.t / 3200 then x.w else 0) b 1

/-- Completion cycle of every earlier instruction towards destinations within a distance (R196). -/
def Engine.doneWithin (q : Engine) (d : Nat) : Nat :=
  q.doneFar.foldl (fun m kv => if kv.1 ≤ d then max m kv.2 else m) q.done

/-- Weft operations of the engine that a release of a scope waits for (R196). -/
def State.coverOf (s : State) (q : Engine) (sc : Scope) : List Nat :=
  q.openOps.filter fun o => match AMap.get none s.ops o with
    | some v => scopeIncludes sc v.far
    | none => false

/-- Evaluate a WAIT or an ACQUIRE on counter `n`: the issue cycle with the counter as seen in it, or the stall (R135,
R138). -/
def waitCounter (x : Ctx) (w : Work) (n threshold : Nat) : Except Halt (Ctx × Work × Counter) := do
  let w ← w.syncWord x (8 * n)
  let v := w.s.counter x.c n
  let stall := match (w.s.fn x.job.fn.val).exe with
    | some l => l.stall
    | none => 65536
  match v.reaches threshold x.head with
  | none => .error (.hold .counter)
  | some m =>
    let t := workAfter (if m / 3200 = x.head / 3200 then x.w else 0) m 0
    if x.head + stall < t then .error (.stop .queueStall 0x01 none)
    else .ok ({ x with t := t, r := t, w := if t / 3200 = x.head / 3200 then x.w else 0, col := 2 },
      w.ev 0x21 x.head (t - x.head) 1, v.view t)

/-- Consume the threshold unless keep is set (R135). -/
def Work.consume (w : Work) (x : Ctx) (n threshold : Nat) (keep : Bool) (v : Counter) : Work :=
  if keep then w else { w with s := w.s.setCounter x.c n { v with count := v.count - threshold } }

end Sys2Proof.Machine
end

