-- ==== Sys2Proof/Machine/Mesh.lean ====
section
/-! DEFINITION. The package mesh as the engines use it: warp routes and their link cycles (R229 to R232), arrivals at a
core (R173, R185), and weft requests on their way to the injection queue (R228, R235, R265, R266). -/

namespace Sys2Proof.Machine

/-! ### Nodes and routes -/

/-- Mesh node of an I/O die's attach column (R228): `off` counts columns within the die's span. -/
def ioNode (io off : Nat) : Nat := 1728 + 24 * io + off
/-- I/O die of a node at or above 1,728. -/
def nodeIo (n : Nat) : Nat := (n - 1728) / 24
/-- Mesh column of a node. -/
def nodeX (n : Nat) : Nat := if n < 1728 then coreX n else ioBase (nodeIo n) + (n - 1728) % 24
/-- Mesh row at which a node meets the mesh: its own, or the edge row of its I/O die. -/
def nodeY (n : Nat) : Nat := if n < 1728 then coreY n else if nodeIo n < 2 then 0 else 35
/-- Die steps between two nodes, at least one of them a core (R230). -/
def nodeSteps (a b : Nat) : Nat :=
  if a < 1728 && b < 1728 then dieSteps a b
  else if a < 1728 then ioSteps a (nodeIo b) (nodeX b)
  else ioSteps b (nodeIo a) (nodeX a)

/-- Cycles of a hop between neighbouring coordinates: a bridge between dies takes 5 (R226). -/
def hopCost (a b : Nat) : Nat := if a / 12 = b / 12 then 1 else 5

/-- Outputs that a flit takes along one axis, each with its cycle: from `a` to `b` in `n` hops, `key` naming the router
and output at a coordinate. -/
def axisClaims (key : Nat → Bool → Nat × Nat) (b : Nat) : Nat → Nat → Nat → List (Nat × Nat × Nat) × Nat
  | 0, _, t => ([], t)
  | n + 1, a, t =>
    if a = b then ([], t)
    else
      let up := decide (a < b)
      let nx := if up then a + 1 else a - 1
      let (l, t') := axisClaims key b n nx (t + hopCost a nx)
      ((( key a up).1, (key a up).2, t) :: l, t')

/-- Router outputs (router, port, cycle) that a warp flit claims on its X-then-Y route: 0 to 3 as R225 numbers them, 5 into the
warp hold buffer (R229, R230). -/
def warpClaims (src dst inj : Nat) : List (Nat × Nat × Nat) :=
  let t0 := if src < 1728 then inj + 1 else inj + 6
  let (lx, t1) := axisClaims (fun x up => (nodeY src * 48 + x, if up then 1 else 3)) (nodeX dst) 48 (nodeX src) t0
  let (ly, t2) := axisClaims (fun y up => (y * 48 + nodeX dst, if up then 2 else 0)) (nodeY dst) 36 (nodeY src) t1
  let out := [(nodeY dst * 48 + nodeX dst, if dst < 1728 then 5 else if nodeIo dst < 2 then 0 else 2, t2)]
  lx ++ ly ++ out

/-- Routers at which an X-then-Y route turns: the attach router of a flit that comes from an I/O die and goes on along X, and
the one where X gives way to Y (R229). -/
def warpTurns (src dst : Nat) : List Nat :=
  if nodeX src = nodeX dst then []
  else (if src < 1728 then [] else [nodeY src * 48 + nodeX src]) ++
    (if nodeY src = nodeY dst ∧ dst < 1728 then [] else [nodeY src * 48 + nodeX dst])

/-- Routers at which a warp route starts, turns and ends (R240). -/
def warpCorners (src dst : Nat) : List Nat :=
  (if src < 1728 then [src] else []) ++ warpTurns src dst ++ (if dst < 1728 then [dst] else [])

/-- A router output that a warp flit takes, the input by which it came, and the cycle. -/
structure WarpHop where
  router : Nat
  out : Nat
  inp : Nat
  cyc : Nat
  deriving DecidableEq, Repr

/-- Outputs in a row as hops: a flit that leaves by an output enters the next router opposite to it. -/
def withInputs : Nat → List (Nat × Nat × Nat) → List WarpHop
  | _, [] => []
  | i, h :: l => { router := h.1, out := h.2.1, inp := i, cyc := h.2.2 } :: withInputs ((h.2.1 + 2) % 4) l

/-- Hops of a warp flit injected in cycle `inj` (R225, R229). -/
def warpHops (src dst inj : Nat) : List WarpHop :=
  withInputs (if src < 1728 then 4 else if nodeIo src < 2 then 0 else 2) (warpClaims src dst inj)

/-- The hops that a flit makes, up to the cycle in which it is discarded, if it is: before a bypassed router at which its route
turns or ends, or at a core that is not in service (R238). -/
def State.cutHops (s : State) (turns : List Nat) (dst : Nat) : List WarpHop → List WarpHop × Option Nat
  | [] => ([], none)
  | [h] => if h.out = 5 ∧ s.serving dst = false then ([], some h.cyc) else ([h], none)
  | h :: n :: l =>
    if (s.core n.router).svc == .bypassed && (turns.contains n.router || n.router == dst) then ([], some h.cyc)
    else
      let r := s.cutHops turns dst (n :: l)
      (h :: r.1, r.2)

/-- Way of a warp flit with the cycle of its discard, if any (R238). -/
def State.warpWay (s : State) (src dst inj : Nat) : List WarpHop × Option Nat :=
  match warpHops src dst inj with
  | [] => ([], none)
  | h :: l =>
    if (s.core h.router).svc == .bypassed && (warpTurns src dst).contains h.router then ([], some h.cyc)
    else s.cutHops (warpTurns src dst) dst (h :: l)

/-- S(f, s) of R256. -/
def slotCycle (f s : Nat) : Nat := 3200 * f + 32 * s

/-- Frame offset, slot group and position of flit `i` of a warp entry (R210). -/
def warpPlace (w : WarpEntry) (i : Nat) : Nat × Nat × Nat :=
  let g := w.firstSg + i / w.perSg
  (w.frame + g / 100, g % 100, w.firstPos + i % w.perSg)

/-- Attach column offset of a warp entry at a core: the route record, or the clamped column of R236. -/
def attachOff (routes : List RouteRec) (entry core io : Nat) : Nat :=
  match routes.find? fun r => r.entry == entry with
  | some r => r.column
  | none => min 23 (coreX core - ioBase io)

/-- Injection cycle of flit `i` of a send entry at a core whose port lies `d` die steps away, none where it would be
negative (R256). -/
def sendInject (w : WarpEntry) (d i : Nat) : Option Nat :=
  let (f, s, p) := warpPlace w i
  if slotCycle f s + p < 88 + 16 * d then none else some (slotCycle f s + p - 88 - 16 * d)

/-! ### Warp in flight -/

/-- Port cycles of a scheduled arrival in cycle `cyc`, which counts as engine 4 (R173). -/
def State.claimArrival (s : State) (c cyc : Nat) (cl : List Claim) : Option State :=
  (s.claim c cyc cl).map fun s => s.updCore c fun k => { k with claims := k.claims ++ cl }

/-- A warp flit on its way: held for core `core`, or flit `flit` of a send entry that the core has armed; its hops with cycles
numbered from frame 0. -/
structure WarpRun where
  core : Nat
  held : Option HeldWarp
  entry : Nat
  flit : Nat
  hops : List WarpHop
  deriving DecidableEq, Repr

/-- First cycle of the running kernel of a pass, numbered from frame 0. -/
def State.passBase (s : State) (pass : Nat) : Nat :=
  match s.pass pass with
  | some p => 3200 * p.kernelStart.toNat
  | none => 0

/-- Ways of the flits of a send entry at a core of a pass (R114, R256). -/
def State.sendRuns (s : State) (l : Loaded) (base c entry : Nat) (lost : List Nat) : List WarpRun :=
  match l.exe.warps[entry]? with
  | none => []
  | some w =>
    let node := ioNode (w.port / 8) (attachOff l.routes entry c (w.port / 8))
    (List.range w.flits).filterMap fun i =>
      if lost.contains i then none
      else (sendInject w (nodeSteps c node) i).map fun t =>
        { core := c, held := none, entry := entry, flit := i, hops := (s.warpWay c node (base + t)).1 }

/-- The warp flits on the mesh and of the armed send entries. -/
def State.warpInFlight (s : State) : List WarpRun :=
  s.cores.flatMap fun ck =>
    (ck.2.hold.map fun h => ({ core := ck.1, held := some h, entry := 0, flit := 0,
                               hops := (s.warpWay h.src ck.1 (s.passBase h.pass + h.inj)).1 } : WarpRun)) ++
    (match ck.2.job with
      | none => []
      | some j => match (s.fn j.fn.val).exe with
        | none => []
        | some l => (ck.2.armed.filter fun a => a.send).flatMap fun a =>
            s.sendRuns l (s.passBase j.pass) ck.1 a.entry a.lost)

/-- Two flits on one output in one cycle: which stays, which goes (R229). -/
structure WarpMeet where
  cyc : Nat
  router : Nat
  stays : WarpRun
  goes : WarpRun
  deriving DecidableEq, Repr

/-- The meetings of new flits with flits in flight: the one from the lower-numbered input proceeds (R229). -/
def runMeets (old new : List WarpRun) : List WarpMeet :=
  new.flatMap fun n => n.hops.flatMap fun a => old.filterMap fun o =>
    (o.hops.find? fun b => a.router == b.router && a.out == b.out && a.cyc == b.cyc).map fun b =>
      if a.inp < b.inp then { cyc := a.cyc, router := a.router, stays := n, goes := o }
      else { cyc := a.cyc, router := a.router, stays := o, goes := n }

/-- Put a meeting in its place by cycle. -/
def insMeet (m : WarpMeet) : List WarpMeet → List WarpMeet
  | [] => [m]
  | v :: l => if m.cyc < v.cyc then m :: v :: l else v :: insMeet m l

/-- Of the meetings in order of their cycles, those that take place: a flit that has been discarded meets nothing more. -/
def realMeets : List WarpMeet → List WarpRun → List WarpMeet
  | [], _ => []
  | m :: l, dead =>
    if dead.contains m.goes || dead.contains m.stays then realMeets l dead else m :: realMeets l (m.goes :: dead)

/-- A router discards a flit in flight. -/
def State.dropRun (s : State) (r : WarpRun) : State :=
  match r.held with
  | some h => s.updCore r.core fun k => { k with hold := k.hold.erase h }
  | none => s.updCore r.core fun k => { k with armed := k.armed.map fun a =>
      if a.send ∧ a.entry = r.entry then { a with lost := a.lost ++ [r.flit] } else a }

/-- New flits take their ways, each with the cycle of its discard, if any: those that reach a core wait in its hold buffer. The
faults: cycle numbered from frame 0, core or node, detail 0x80 of the router where two flits meet, 0x82 of the source of a
discarded flit (R229, R238). A router counts the flits through it (R432). -/
def State.launch (s : State) (ways : List (WarpRun × Option Nat)) : State × List (Nat × Nat × Byte) :=
  let new := ways.map (·.1)
  let old := s.warpInFlight.filter fun o => !new.contains o
  let meets := realMeets ((runMeets old new).foldl (fun l m => insMeet m l) []) []
  let gone := meets.map (·.goes)
  let s := gone.foldl State.dropRun s
  let s := ways.foldl (fun s w => match w.1.held, w.2 with
    | some h, none => if gone.contains w.1 then s else s.updCore w.1.core fun k => { k with hold := k.hold ++ [h] }
    | none, _ => if gone.contains w.1 then s.dropRun w.1 else s
    | some _, some _ => s) s
  let through := (new.flatMap fun r => match meets.find? fun m => m.goes == r with
    | some m => r.hops.filter fun h => decide (h.cyc < m.cyc)
    | none => r.hops).eraseDups
  let s := through.foldl (fun s h => s.countAt h.router none 0x30 h.cyc 1 1) s
  let far := (ways.filter fun w => !gone.contains w.1).filterMap fun w =>
    w.2.map fun t => (t, (match w.1.held with | some h => h.src | none => w.1.core), (0x82 : Byte))
  (s, (meets.map fun m => (m.cyc, m.router, (0x80 : Byte))).eraseDups ++ far.eraseDups)

/-- Put flits on their way to cores: in uniform mode none is injected (R246), and a router that is not in service injects none
(R238). The copies of one multicast flit share its links (R232). -/
def Work.warpSend (k : Work) (x : Ctx) (out : List (Nat × List HeldWarp)) : Work :=
  if !k.s.scheduled then k
  else
    let base := k.s.kernelBase x.c
    let ways := out.flatMap fun (d : Nat × List HeldWarp) => (d.2.filter fun h => k.s.serving h.src).map fun h =>
      let r := k.s.warpWay h.src d.1 (base + h.inj)
      (({ core := d.1, held := some h, entry := 0, flit := 0, hops := r.1 } : WarpRun), r.2)
    let (s, fs) := k.s.launch ways
    fs.foldl (fun k f => k.lateFault (f.1 - base) f.2.1 (if f.2.2 = 0x82 ∧ f.2.1 = x.c then some x.e else none)
      .controlParity f.2.2) { k with s := s }

/-- Errors that the code carries in `n` bytes at an address, by distance (R101). -/
def State.marksAt (s : State) (abs n : Nat) : List (Nat × EccMark) :=
  (s.ecc.filter fun kv => decide (abs ≤ kv.1) && decide (kv.1 < abs + n)).map fun kv => (kv.1 - abs, kv.2)

/-- Errors that the code carries at a module address. -/
def Work.marks (k : Work) (x : Ctx) (a : MAddr) (n : Nat) : List (Nat × EccMark) :=
  match k.s.resolve x.job.fn a n with
  | .ok (_, abs) => k.s.marksAt abs n
  | .error _ => []

/-- Marks of the part of a row from byte `o` on. -/
def cutMarks (l : List (Nat × EccMark)) (o n : Nat) : List (Nat × EccMark) :=
  (l.filter fun m => decide (o ≤ m.1) && decide (m.1 < o + n)).map fun m => (m.1 - o, m.2)

/-- Put the errors that data carries beside it (R101). -/
def State.putMarks (s : State) (abs : Nat) (l : List (Nat × EccMark)) : State :=
  { s with ecc := l.foldl (fun e m => AMap.ins (abs + m.1) m.2 (AMap.erase (abs + m.1) e)) s.ecc }

/-- A row that a warp read takes at any core of the module in a cycle: from the merge buffer without a port cycle in the
two cycles that follow the arrival of its data, four cycles after the read, else from the memory; TMRD fills the buffer
(R105, R106, R176). -/
def Work.warpRead (k : Work) (x : Ctx) (a : MAddr) (cyc : Nat) (fill : Bool) : Except Halt (List Byte × Work) := do
  match k.s.resolve x.job.fn a 256 with
  | .error d => .error (.stop .accessDenied d (some k))
  | .ok (c, abs) =>
    match (k.s.core c).merge.find? fun r => r.addr == abs && decide (r.cyc + 4 ≤ cyc) && decide (cyc ≤ r.cyc + 5) with
    | some r => pure (r.data, { k with s := k.s.count c none 0x16 cyc 1 1 })
    | none =>
      let (bs, k) ← (if c = x.c then k.read x a 256 cyc
        else
          match eccWorst k.s.ecc (eccWord (aSpace a)) abs 256 with
          | some .uncorrectable => Except.error (k.fail x cyc .eccUncorrectable (eccDetail (aSpace a)))
          | m =>
            match k.s.claimArrival c cyc (portsOf (aSpace a) (abs % 2 ^ 32) 256 cyc 4 false) with
            | none => Except.error (k.fail x cyc .controlParity 0x70)
            | some s => Except.ok (s.readAt c cyc abs 256,
                { k with s := s, recs := if m.isSome then k.recs ++ [(.eccCorrected, eccDetail (aSpace a))] else k.recs }))
      let k := if fill then
          { k with s := k.s.updCore c fun o =>
              { o with merge := (o.merge.filter fun r => decide (cyc ≤ r.cyc + 5)) ++
                  [{ addr := abs, cyc := cyc, data := bs }] } }
        else k
      pure (bs, k)

/-- Correctable errors of the words of a copied range travel with their check bits (R101). -/
def Work.copyMarks (k : Work) (x : Ctx) (a b : MAddr) (n : Nat) : Work :=
  match k.s.resolve x.job.fn b n with
  | .ok (_, q) => { k with s := k.s.putMarks q (k.marks x a n) }
  | .error _ => k

/-! ### Arrivals -/

/-- A write that arrives at a core from outside in a kernel cycle, of bobbin class 5 (warp) or 6 (neighbour link): the
region of the function whose pass runs there, the port, the bobbins (R173, R185, R345). An arrival that takes no place
gives its fault, against the core's FXE. Errors that its code carries land with it (R101). -/
def State.arrive (s : State) (c : Nat) (fn : FnId) (cls : Nat) (a : MAddr) (data : List Byte)
    (marks : List (Nat × EccMark)) (cyc : Nat) (ports : List Claim) : State × Option (Cause × Byte) :=
  match s.resolve fn a data.length with
  | .error d => (s, some (.accessDenied, d))
  | .ok (_, abs) =>
    match s.claimArrival c cyc ports with
    | none => (s.count c (some 4) 0x17 cyc 1 1, some (.controlParity, 0x70))
    | some s =>
      let r : Range := { space := aSpace a, off := aOff a, len := data.length, write := true }
      let ok := match (s.core c).job with
        | some j => s.bobAccess c j cls r cyc 0x02
        | none => .ok s
      match ok with
      | .error f => (s, some f)
      | .ok s => (((s.writeAt c cyc abs data 4).clearEcc (aSpace a) abs data.length).putMarks abs marks, none)

/-- Raise what an arrival in cycle `t` gives. -/
def State.arrived (c t : Nat) (r : State × Option (Cause × Byte)) : State :=
  match r.2 with
  | some f => r.1.stopFault c .fxe t f.1 f.2
  | none => r.1

/-! ### Weft requests -/

/-- 64 payload bytes from an address word and data (table "Weft payloads"). -/
def weftPayload (addrWord : Nat) (data : List Byte) : BitVec 512 :=
  BitVec.ofNat 512 (leNat (leBytes 8 addrWord ++ data))

/-- A request of a core, not yet tagged. -/
def weftRequest (s : State) (c : Nat) (kind : WType) (module : BitVec 12) (payload : BitVec 512) : WeftFlit :=
  { kind := kind, tag := 0, src := s.moduleId, dst := module, attempt := 0, hops := 0,
    srcNode := BitVec.ofNat 11 c, payload := payload }

/-- A write of up to 56 bytes at an address of a module. -/
def weftWriteFlit (s : State) (c : Nat) (module : BitVec 12) (a : MAddr) (data : List Byte) : WeftFlit :=
  weftRequest s c .write module (weftPayload (a.toNat + (data.length - 1) * 2 ^ 48) data)

/-- A read request. -/
def weftReadFlit (s : State) (c : Nat) (module : BitVec 12) (a : MAddr) (n : Nat) : WeftFlit :=
  weftRequest s c .readReq module (weftPayload (a.toNat + (n - 1) * 2 ^ 48) [])

/-- The five writes of one 256-byte granule: 56 bytes each, and 32 (R265). -/
def granuleWrites (s : State) (c : Nat) (module : BitVec 12) (a : MAddr) (row : List Byte) (marks : List (Nat × EccMark)) :
    List WeftFlit :=
  (List.range 5).map fun (j : Nat) =>
    { weftWriteFlit s c module (a + BitVec.ofNat 48 (56 * j)) ((row.drop (56 * j)).take 56) with
      marks := cutMarks marks (56 * j) 56 }

/-- Request types; the others are replies. -/
def isRequest : WType → Bool
  | .write => true | .readReq => true | .atomic => true | .increment => true | _ => false

/-- Lowest number that no key of a sparse map holds. -/
def freeKey {α : Type} : AMap α → Nat → Nat
  | [], n => n
  | (k, _) :: t, n => if k = n then freeKey t (n + 1) else n

/-- Issued flits enter the injection queue of 16 in order, those of cycle `t` or earlier, each new request with a tag of its own
and its reply buffer (R106, R235, R266). The last argument bounds the flits. -/
def State.enterQueueN (s : State) (c : CoreId) (t : Nat) : Nat → State
  | 0 => s
  | n + 1 =>
    match (s.core c.val).staged with
    | [] => s
    | o :: rest =>
      let fresh := isRequest o.flit.kind && o.flit.attempt == 0
      if t < o.start ∨ 16 ≤ (s.core c.val).injq.length ∨ (fresh = true ∧ 16384 ≤ s.txns.length) then s
      else
        let tag := freeKey s.txns 0
        let flit := if fresh then { o.flit with tag := BitVec.ofNat 14 tag } else o.flit
        let s := s.updCore c.val fun k => { k with staged := rest, injq := k.injq ++ [{ o with flit := flit }], room := max k.room t }
        let (fn, pass) := match (s.core c.val).job with
          | some j => (j.fn, j.pass)
          | none => (0, 0)
        let txn : Txn := { core := c, eng := o.eng, fn := fn, pass := pass, op := o.op, flit := flit, localAddr := o.localAddr,
                           sent := 0, at' := 0, replied := false, dead := false }
        (if fresh then { s with txns := AMap.set none s.txns tag (some txn) } else s).enterQueueN c t n

/-- Issued flits enter the injection queue as far as tags and room allow. -/
def State.enterQueue (s : State) (c : CoreId) (t : Nat) : State := s.enterQueueN c t (s.core c.val).staged.length

/-- The staging buffer or the injection queue of a core has no room for another instruction's flits, or the tag pool is empty:
the instruction waits (R106, R235, R266). -/
def State.weftBusy (s : State) (c : Nat) : Bool :=
  !(s.core c).staged.isEmpty || decide (16 ≤ (s.core c).injq.length) || decide (16384 ≤ s.txns.length)

/-- An instruction that needs them waits for them; the cycles of the wait are busy ones (R128, R436). -/
def waitRoom (x : Ctx) (k : Work) : Except Halt (Ctx × Work) :=
  if k.s.weftBusy x.c then .error (.hold .busy)
  else .ok (match ((k.s.core x.c).engine x.e).wait with
    | some (.busy, _) => waitBusy x k (k.s.core x.c).room
    | _ => (x, k))

/-- A warp transfer waits while the rows of a weft copy lie in the staging buffer (R106, R231). -/
def waitStage (x : Ctx) (k : Work) : Except Halt (Ctx × Work) :=
  if (k.s.core x.c).staged.any fun o => o.eng == .txe then .error (.hold .busy)
  else .ok (match ((k.s.core x.c).engine x.e).wait with
    | some (.busy, _) => waitBusy x k (k.s.core x.c).room
    | _ => (x, k))

/-- Start a weft operation of an instruction: its flits leave from cycle `start` on, in order (R106, R120). -/
def State.startOp (s : State) (c : CoreId) (e : Eng) (fs : List (WeftFlit × Option MAddr)) (far : Nat)
    (counter : Option Nat) (start now : Nat) : State × Nat :=
  let n := s.nextOp
  let op : WOp := { core := c, eng := e, left := fs.length, far := far, counter := counter, dye := none }
  let s := { s with nextOp := n + 1, ops := AMap.set none s.ops n (some op) }
  let s := s.updCore c.val fun k =>
    { k with staged := k.staged ++ fs.map fun f => { flit := f.1, start := start, eng := e, op := n, localAddr := f.2 } }
  ((s.updEngine c.val e fun q => { q with openOps := q.openOps ++ [n] }).enterQueue c now, n)

end Sys2Proof.Machine
end

