-- ==== Sys2Proof/Machine/Move.lean ====
section
/-! DEFINITION. The move engine (R100 to R106): copies, tiles, shuffles, conversions, neighbour and multicast
transfers. -/

namespace Sys2Proof.Machine

/-! ### Layouts -/

/-- Elements of one 256-byte source row (R103): an FP6 row holds 64 in the first 48 bytes of each quarter. -/
def rowElems (fmt : Nat) (row : List Byte) : List Nat :=
  if fmtBits fmt = 6 then (chunks 64 4 row).flatMap fun q => unpack 6 (q.take 48) else unpack (fmtBits fmt) row

/-- Bytes of the elements of one output (R103), FP6 in quarters of 64 bytes. -/
def outBytes (fmt : Nat) (l : List Nat) : List Byte :=
  if fmtBits fmt = 6 then (chunks 64 (l.length + 1) l).flatMap fun q => padTo 64 0 (pack 6 q) else pack (fmtBits fmt) l

/-- The word shuffle of BT8: byte i of word t is byte t of word i, in a group of four words (R102). -/
def shuffle8 (g : List Byte) : List Byte :=
  (List.range 4).flatMap fun t => (List.range 4).map fun i => nth 0 g (4 * i + t)
/-- The word shuffle of BT16: half i of word t is half t of word i, in a group of two words (R102). -/
def shuffle16 (g : List Byte) : List Byte :=
  (List.range 2).flatMap fun t => (List.range 2).flatMap fun i => [nth 0 g (4 * i + 2 * t), nth 0 g (4 * i + 2 * t + 1)]

/-- The latent fault of the move engine's duplicated computation (R101). -/
def Work.moveCheck (k : Work) (x : Ctx) : Except Halt Unit :=
  needF (((k.s.core x.c).engine x.e).upset != some .moveCompare) .residueMismatch 0x08

/-- Post-increment of both addresses of a move. -/
def Work.incBoth (k : Work) (x : Ctx) (on : Bool) (w : BitVec 48) (n : Nat) : Work :=
  (k.incA x on (fld w 0 4) n).incA x (on && fld w 0 4 != fld w 4 4) (fld w 4 4) n

/-- A multiple of `n`. -/
def aligned (a : MAddr) (n : Nat) : Bool := aOff a % n == 0

/-- Byte offset added to an address. -/
def plus (a : MAddr) (n : Nat) : MAddr := a + BitVec.ofNat 48 n

/-! ### TCPY -/

/-- A local copy, row by row: read in c + i, written five cycles later (R100). -/
def copyLocal (x : Ctx) (k : Work) (a b : MAddr) (rows : Nat) : Except Halt Work :=
  (List.range rows).foldlM (fun (k : Work) (i : Nat) => do
    let (bs, k) ← k.read x (plus a (256 * i)) 256 (x.at i)
    let k ← k.write x (plus b (256 * i)) bs (x.at (i + 5))
    pure (k.copyMarks x (plus a (256 * i)) (plus b (256 * i)) 256)) k

/-- The four flits of a row, quarter j injected `d` + 4 i + j cycles after issue, with the code of the source (R101, R231). -/
def rowFlits (x : Ctx) (src dst : Nat) (b : MAddr) (i d : Nat) (row : List Byte) (marks : List (Nat × EccMark)) :
    List HeldWarp :=
  (List.range 4).map fun (q : Nat) =>
    let l := d + 4 * i + q
    { src := src, inj := x.at l, due := x.at (l + 24 + 16 * dieSteps src dst), pass := x.job.pass,
      addr := plus b (256 * i + 64 * q), data := (row.drop (64 * q)).take 64, marks := cutMarks marks (64 * q) 64,
      bobbin := none, entry := none }

/-- A warp copy between cores: rows read in c + i at the source core, flits on the mesh (R106, R231). -/
def copyWarp (x : Ctx) (k : Work) (a b : MAddr) (rows : Nat) : Except Halt Work := do
  let (k, fs) ← (List.range rows).foldlM (fun (o : Work × List HeldWarp) (i : Nat) => do
    let (bs, k) ← o.1.warpRead x (plus a (256 * i)) (x.at i) false
    pure (k, o.2 ++ rowFlits x (aCore a) (aCore b) b i 5 bs (k.marks x (plus a (256 * i)) 256))) (k, [])
  let last := x.at (4 + 4 * rows + 24 + 16 * dieSteps (aCore a) (aCore b))
  let d := scopeDist x.c k.s.moduleId (aCore b) k.s.moduleId
  pure ({ k with far := k.far ++ [(d, last)] }.warpSend x [(aCore b, fs)])

/-- A weft copy: five writes a row to a remote destination, or four reads a row from a remote source (R106). -/
def copyWeft (x : Ctx) (k : Work) (a b : MAddr) (rows : Nat) : Except Halt (Work × Nat) := do
  let me := k.s.moduleId
  let c : CoreId := Fin.ofNat 1728 x.c
  if aCore a = x.c then
    let (k, fs) ← (List.range rows).foldlM (fun (o : Work × List (WeftFlit × Option MAddr)) (i : Nat) => do
      let (bs, k) ← o.1.read x (plus a (256 * i)) 256 (x.at i)
      let marks := k.marks x (plus a (256 * i)) 256
      pure (k, o.2 ++ (granuleWrites k.s x.c me (plus b (256 * i)) bs marks).map fun f => (f, none))) (k, [])
    let (s, n) := k.s.startOp c x.e fs (scopeDist x.c me (aCore b) me) none (x.at 5) x.t
    pure ({ k with s := s }, n)
  else
    let fs := (List.range (4 * rows)).map fun (j : Nat) =>
      (weftReadFlit k.s x.c me (plus a (64 * j)) 64, some (plus b (64 * j)))
    let (s, n) := k.s.startOp c x.e fs 0 none (x.at 5) x.t
    pure ({ k with s := s }, n)

/-- TCPY. -/
def runTcpy (m : Byte) (w : BitVec 48) (x : Ctx) (k : Work) : Except Halt Issued := do
  needEng .txe 0x60 m w
  let a := k.areg x (fld w 0 4)
  let b := k.areg x (fld w 4 4)
  let rows := fld w 8 8 + 1
  let n := 256 * rows
  need ([1, 2].contains (aSpace a) && [1, 2].contains (aSpace b) && aligned a 256 && aligned b 256) 0x41
  let remote := aCore a != x.c || aCore b != x.c
  need (!(bitAt w 16 && aCore a != x.c && aCore b != x.c)) 0x41
  match k.s.resolve x.job.fn a n, k.s.resolve x.job.fn b n with
  | .error d, _ => .error (.stop .accessDenied d none)
  | _, .error d => .error (.stop .accessDenied d none)
  | .ok _, .ok _ => pure ()
  let (x, k) ← gate x k (rangeOf x a n false ++ rangeOf x b n true)
  if remote && bitAt w 16 then
    let (x, k) ← waitRoom x k
    let (k, o) ← copyWeft x k a b rows
    pure { finish x (k.incBoth x (bitAt w 17) w n) with remote := some o }
  else if remote then
    let (x, k) ← waitStage x k
    let k ← copyWarp x k a b rows
    pure (finish x (k.incBoth x (bitAt w 17) w n))
  else
    let k ← copyLocal x k a b rows
    pure (finish x (k.incBoth x (bitAt w 17) w n))

/-- TCPY (R100, R106). -/
def execTcpy (c : CoreId) (m : Byte) (w : BitVec 48) (s : State) : Host.Outcome State Fault Refusal :=
  .next (runInstr s c .txe 0x60 false (runTcpy m w))

/-! ### TTILE and TSHUF -/

/-- TTILE: mode 0 row copy, 1 word transpose, 2 BT8, 3 BT16 (R102). -/
def runTtile (m : Byte) (w : BitVec 48) (x : Ctx) (k : Work) : Except Halt Issued := do
  needEng .txe 0x61 m w
  let a := k.areg x (fld w 0 4)
  let b := k.areg x (fld w 4 4)
  let rows := fld w 8 6 + 1
  let cols := fld w 14 6 + 1
  let mode := fld w 20 2
  let ps := (k.sreg x (fld w 22 5))
  let pd := (k.sreg x (fld w 27 5))
  need (localAddr x a (if mode = 0 then [1, 2] else [1]) && localAddr x b [1, 2] && aligned a 256 && aligned b 256 &&
    ps.toNat % 256 == 0 && pd.toNat % 256 == 0) 0x41
  need (decide (mode < 2) || (rows == 64 && cols == 64)) 0x42
  let src (r : Nat) : MAddr := addA a (ps.toInt * (r : Int))
  let dst (r : Nat) : MAddr := addA b (pd.toInt * (r : Int))
  let steps := if mode = 0 then rows else cols
  let width := 4 * (if mode = 0 then cols else rows)
  let reads := (List.range rows).map fun r => (src r, 4 * cols)
  let writes := (List.range steps).map fun r => (dst r, width)
  match (reads ++ writes).findSome? fun p => match k.s.resolve x.job.fn p.1 p.2 with
    | .error d => some d
    | .ok _ => none with
  | some d => .error (.stop .accessDenied d none)
  | none => pure ()
  let (x, k) ← gate x k ((reads.flatMap fun p => rangeOf x p.1 p.2 false) ++ writes.flatMap fun p => rangeOf x p.1 p.2 true)
  if 2 ≤ mode then k.moveCheck x
  let k ← (List.range steps).foldlM (fun (k : Work) (j : Nat) => do
    let (bs, k) ← (if mode = 0 then k.read x (src j) (4 * cols) (x.at j)
      else k.readPieces x ((List.range rows).map fun r => (plus (src r) (4 * j), 4)) (x.at j))
    let out := match mode with
      | 2 => let gs := (chunks 16 16 bs).map shuffle8
             (List.range 4).flatMap fun t => gs.flatMap fun g => (g.drop (4 * t)).take 4
      | 3 => let gs := (chunks 8 32 bs).map shuffle16
             (List.range 2).flatMap fun t => gs.flatMap fun g => (g.drop (4 * t)).take 4
      | _ => bs
    let k ← k.write x (dst j) out (x.at (j + 6))
    pure (match mode with
      | 0 => k.copyMarks x (src j) (dst j) (4 * cols)
      | 1 => (List.range rows).foldl (fun (k : Work) (r : Nat) =>
          k.copyMarks x (plus (src r) (4 * j)) (plus (dst j) (4 * r)) 4) k
      | _ => k)) k
  pure (finish x k)

/-- TTILE (R102). -/
def execTtile (c : CoreId) (m : Byte) (w : BitVec 48) (s : State) : Host.Outcome State Fault Refusal :=
  .next (runInstr s c .txe 0x61 false (runTtile m w))

/-- TSHUF: the shuffle of BT8 or BT16 in place (R102). -/
def runTshuf (m : Byte) (w : BitVec 48) (x : Ctx) (k : Work) : Except Halt Issued := do
  needEng .txe 0x62 m w
  let a := k.areg x (fld w 0 4)
  let b := k.areg x (fld w 4 4)
  let rows := fld w 8 8 + 1
  need (localAddr x a [1, 2] && localAddr x b [1, 2] && aligned a 256 && aligned b 256) 0x41
  let (x, k) ← gate x k (rangeOf x a (256 * rows) false ++ rangeOf x b (256 * rows) true)
  k.moveCheck x
  let k ← (List.range rows).foldlM (fun (k : Work) (i : Nat) => do
    let (bs, k) ← k.read x (plus a (256 * i)) 256 (x.at i)
    let out := if bitAt w 16 then (chunks 8 32 bs).flatMap shuffle16 else (chunks 16 16 bs).flatMap shuffle8
    k.write x (plus b (256 * i)) out (x.at (i + 5))) k
  pure (finish x (k.incBoth x (bitAt w 17) w (256 * rows)))

/-- TSHUF (R102). -/
def execTshuf (c : CoreId) (m : Byte) (w : BitVec 48) (s : State) : Host.Outcome State Fault Refusal :=
  .next (runInstr s c .txe 0x62 false (runTshuf m w))

/-! ### TCVT and TQNT -/

/-- Rounding of element `idx` under a modifier: bit 0 selects stochastic rounding (R46 to R48). -/
def moveRnd (m : Byte) (seed idx : W64) : Rnd := if bitAt m 0 then .stoch (srand seed idx) else .rne

/-- A fused-off operand path of the AVM1536-S (R77, R103). -/
def needPath (k : Work) (fs : List Nat) : Except Halt Unit :=
  needF (k.s.fuses.grade == .f || fs.all fun f => f != 1 && f != 6) .absentEngine 0x01

/-- One element as TCVT converts it: long values at anchor `q`, others as they stand; none where the target cannot hold
it (R49). -/
def cvtElem (fs fd : Nat) (q : Int) (m : Byte) (seed idx : W64) (v : Nat) : Option Rounded :=
  let r := moveRnd m seed idx
  let ovf := fld m 1 2
  if fs = 9 then some (roundExact fd r ovf (sext 192 v) q) else convertTo fd r ovf (decodeElem fs v)

/-- TCVT: one source row per cycle, or one per k cycles where its output spans k rows (R103). -/
def runTcvt (m : Byte) (w : BitVec 48) (x : Ctx) (k : Work) : Except Halt Issued := do
  let fs := fld w 16 4
  let fd := fld w 20 4
  needPath k [fs, fd]
  needEng .txe 0x63 m w
  let a := k.areg x (fld w 0 4)
  let b := k.areg x (fld w 4 4)
  let rows := fld w 8 8 + 1
  let ss := fld w 24 5
  need (localAddr x a (if fs = 9 then [2] else [1, 2]) && localAddr x b [1, 2] && aligned a 256 && aligned b 64) 0x41
  let elems := if fs = 9 then 8 else if fmtBits fs = 6 then 256 else 2048 / fmtBits fs
  let size := if fmtBits fd = 6 then 64 * ceilDiv elems 64 else elems * fmtBits fd / 8
  let pace := max 1 (size / 256)
  let (x, k) ← gate x k (rangeOf x a (256 * rows) false ++ rangeOf x b (size * rows) true)
  k.moveCheck x
  let seed := k.sreg64 x ss
  let base := k.sreg64 x (ss + 2)
  let q := sext 10 (k.sreg x (fld w 29 5)).toNat
  let k ← (List.range rows).foldlM (fun (k : Work) (i : Nat) => do
    let t := pace * i
    let (bs, k) ← k.read x (plus a (256 * i)) 256 (x.at t)
    let vs := if fs = 9 then (chunks 32 8 bs).map fun g => leNat (g.take 24) else rowElems fs bs
    let rs := vs.zipIdx.map fun v => cvtElem fs fd q m seed (base + BitVec.ofNat 64 (i * elems + v.2)) v.1
    if rs.any fun r => r.isNone then .error (.stop .accumRange 0x02 (some k))
    else
      let rs := rs.filterMap id
      let out := outBytes fd (rs.map fun r => r.bits)
      let k := k.ev 0x07 (x.at (t + 6)) 1 (rs.filter fun r => r.overflow).length
      ((chunks 256 pace out).zipIdx).foldlM (fun (k : Work) p =>
        k.write x (plus b (size * i + 256 * p.2)) p.1 (x.at (t + 6 + p.2))) k) k
  pure (finish x k)

/-- TCVT (R103). -/
def execTcvt (c : CoreId) (m : Byte) (w : BitVec 48) (s : State) : Host.Outcome State Fault Refusal :=
  .next (runInstr s c .txe 0x63 false (runTcvt m w))

/-- Scale code of a block (R50): from the largest magnitude, or the register's value clamped; an infinity is the largest
code. -/
def blockScale (fd : Nat) (explicit : Option W32) (l : List Num) : Nat :=
  match explicit with
  | some v => min v.toNat 254
  | none =>
    if l.any fun x => match x with
      | .inf _ => true
      | _ => false then 254
    else
      let fins := l.filterMap fun x => match x with
        | .fin _ m e => if m = 0 then none else some (m, e)
        | _ => none
      let top := fins.foldl (fun (a : Option Int) p => some (match a with
        | some b => max b (floorLog2 p.1 p.2)
        | none => floorLog2 p.1 p.2)) none
      match top with
      | none => mxScale fd 0 0
      | some e => mxScale fd 1 e

/-- A number divided by 2^(x − 127). -/
def scaled (x : Nat) : Num → Num
  | .fin n m e => .fin n m (e - ((x : Int) - 127))
  | v => v

/-- TQNT: MX quantisation, with one scale word per output vector (R50, R65, R103). -/
def runTqnt (m : Byte) (w : BitVec 48) (x : Ctx) (k : Work) : Except Halt Issued := do
  let fs := fld w 16 4
  let fd := fld w 20 4
  needPath k [fs, fd]
  needEng .txe 0x64 m w
  let a := k.areg x (fld w 0 4)
  let b := k.areg x (fld w 4 4)
  let sc := k.areg x (fld w 34 4)
  let rows := fld w 8 8 + 1
  let ss := fld w 24 5
  need (localAddr x a [1, 2] && localAddr x b [1, 2] && localAddr x sc [1] && aligned a 256 && aligned b 64 &&
    aligned sc 4) 0x41
  let wide := fmtClass fd = 128
  need (!(wide && fs == 8 && rows % 2 == 1)) 0x42
  let elems := if fs = 8 then 64 else 128
  let size := if fmtBits fd = 6 then elems else elems * fmtBits fd / 8
  let perVec := if wide then 128 else 64
  let vectors := rows * elems / perVec
  let (x, k) ← gate x k (rangeOf x a (256 * rows) false ++ rangeOf x b (size * rows) true ++
    rangeOf x sc (4 * vectors) true)
  k.moveCheck x
  let seed := k.sreg64 x ss
  let base := k.sreg64 x (ss + 2)
  let explicit := if bitAt w 38 then some (k.sreg x (fld w 39 5)) else none
  let (k, codes) ← (List.range rows).foldlM (fun (o : Work × List Nat) (i : Nat) => do
    let (bs, k) ← o.1.read x (plus a (256 * i)) 256 (x.at i)
    let nums := (rowElems fs bs).map (decodeElem fs)
    let blocks := chunks 32 4 nums
    if nums.any fun v => v == .nan then .error (.stop .accumRange 0x02 (some k))
    else
      let cs := blocks.map (blockScale fd explicit)
      let rs := (List.zip cs blocks).zipIdx.flatMap fun cb => cb.1.2.zipIdx.map fun v =>
        let idx := base + BitVec.ofNat 64 (i * elems + 32 * cb.2 + v.2)
        convertTo fd (moveRnd m seed idx) (fld m 1 2) (scaled cb.1.1 v.1)
      if rs.any fun r => r.isNone then .error (.stop .accumRange 0x02 (some k))
      else
        let rs := rs.filterMap id
        let k := k.ev 0x07 (x.at (i + 8)) 1 (rs.filter fun r => r.overflow).length
        let k ← k.write x (plus b (size * i)) (outBytes fd (rs.map fun r => r.bits)) (x.at (i + 8))
        pure (k, o.2 ++ cs)) (k, [])
  -- scale words: the bytes beyond the blocks of a vector are not stated (R65) and are free values
  let per := perVec / 32
  let k ← ((chunks per vectors codes).zipIdx).foldlM (fun (k : Work) p => do
    let (v, s) := k.s.draw 1
    let word := (p.1.map fun (c : Nat) => BitVec.ofNat 8 c) ++ (leBytes 4 v.toNat).drop per
    let t := x.at (((p.2 + 1) * perVec - 1) / elems + 8)
    let k' ← ({ k with s := s }).write x (plus sc (4 * p.2)) word t
    pure { k' with evs := k.evs }) k
  pure (finish x k)

/-- TQNT (R50, R103). -/
def execTqnt (c : CoreId) (m : Byte) (w : BitVec 48) (s : State) : Host.Outcome State Fault Refusal :=
  .next (runInstr s c .txe 0x64 false (runTqnt m w))

/-! ### TNBR and TMRD -/

/-- The adjacent core of the same die in a direction: 0 north, 1 east, 2 south, 3 west (R100, R104). -/
def neighbour (c dir : Nat) : Option Nat :=
  let x := coreX c
  let y := coreY c
  match dir with
  | 0 => if y % 12 = 0 then none else some (c - 48)
  | 1 => if x % 12 = 11 then none else some (c + 1)
  | 2 => if y % 12 = 11 then none else some (c + 48)
  | _ => if x % 12 = 0 then none else some (c - 1)

/-- TNBR: two rows every second cycle over the neighbour link (R104, R169). -/
def runTnbr (m : Byte) (w : BitVec 48) (x : Ctx) (k : Work) : Except Halt Issued := do
  needEng .txe 0x65 m w
  let a := k.areg x (fld w 0 4)
  let b := k.areg x (fld w 4 4)
  let rows := fld w 8 8 + 1
  need (localAddr x a [1] && aSpace b == 1 && aligned a 256 && aligned b 256) 0x41
  match neighbour x.c (fld w 18 2) with
  | none => .error (parity 0x42)
  | some n =>
    need (rows % 2 == 0 && aOff a / 256 % 2 == 0 && aOff b / 256 % 2 == 0) 0x42
    let dst (i : Nat) : MAddr := BitVec.ofNat 48 (absAddr 1 n (aOff b + 512 * i))
    match k.s.resolve x.job.fn a (256 * rows), k.s.resolve x.job.fn (dst 0) (256 * rows) with
    | .error d, _ => .error (.stop .accessDenied d none)
    | _, .error d => .error (.stop .accessDenied d none)
    | .ok _, .ok _ => pure ()
    let (x, k) ← gate x k (rangeOf x a (256 * rows) false)
    need (x.t % 2 == 0) 0x42
    let claim (t eng : Nat) : Claim := { port := 2, start := t, step := 1, n := 1, eng := eng }
    let k ← (List.range (rows / 2)).foldlM (fun (k : Work) (i : Nat) => do
      let (bs, k') ← k.readVia x (fun _ => [claim (x.at (2 * i)) 2]) (plus a (512 * i)) 512 (x.at (2 * i))
      let k' := { k' with evs := k.evs }.ev 0x15 (x.at (2 * i)) 1 1
      let t := x.at (2 * i + 6)
      if !k.s.scheduled || !k.s.serving n then pure k'
      else
        match k'.s.arrive n x.job.fn 6 (dst i) bs (k'.marks x (plus a (512 * i)) 512) t [claim t 4] with
        | (s, none) => pure { k' with s := s.count n none 0x15 t 1 1 }
        | (s, some f) => pure ({ k' with s := s }.lateFault t n (some .fxe) f.1 f.2)) k
    let k := { k with far := k.far ++ [(2, x.at (rows + 4))] }
    pure (finish x (k.incBoth x (bitAt w 17) w (256 * rows)))

/-- TNBR (R104). -/
def execTnbr (c : CoreId) (m : Byte) (w : BitVec 48) (s : State) : Host.Outcome State Fault Refusal :=
  .next (runInstr s c .txe 0x65 false (runTnbr m w))

/-- Cores of a rectangle from an origin. -/
def rectangle (origin dx dy : Nat) : List Nat :=
  (List.range dy).flatMap fun j => (List.range dx).map fun i => origin + 48 * j + i

/-- TMRD: each row is read once and multicast to the same offset of every core of a rectangle (R105, R176, R232). -/
def runTmrd (m : Byte) (w : BitVec 48) (x : Ctx) (k : Work) : Except Halt Issued := do
  needEng .txe 0x66 m w
  let a := k.areg x (fld w 0 4)
  let b := k.areg x (fld w 4 4)
  let rows := fld w 8 8 + 1
  let dx := fld w 16 6 + 1
  let dy := fld w 22 6 + 1
  need (aSpace a == 1 && [1, 2].contains (aSpace b) && aligned a 256 && aligned b 256) 0x41
  needF (decide (aCore a < 1728) && decide (aCore b < 1728)) .accessDenied 0x70
  need (decide (coreX (aCore b) + dx ≤ 48) && decide (coreY (aCore b) + dy ≤ 36)) 0x42
  let cores := rectangle (aCore b) dx dy
  let dst (c : Nat) : MAddr := BitVec.ofNat 48 (absAddr (aSpace b) c (aOff b))
  match ((a, 256 * rows) :: cores.map fun c => (dst c, 256 * rows)).findSome? fun p =>
      match k.s.resolve x.job.fn p.1 p.2 with
      | .error d => some d
      | .ok _ => none with
  | some d => .error (.stop .accessDenied d none)
  | none => pure ()
  let (x, k) ← gate x k (rangeOf x a (256 * rows) false)
  let (x, k) ← waitStage x k
  let (k, bss) ← (List.range rows).foldlM (fun (o : Work × List (List Byte × List (Nat × EccMark))) (i : Nat) => do
    let (bs, k) ← o.1.warpRead x (plus a (256 * i)) (x.at i) true
    pure (k, o.2 ++ [(bs, k.marks x (plus a (256 * i)) 256)])) (k, [])
  let out := cores.map fun c => (c, bss.zipIdx.flatMap fun b => rowFlits x (aCore a) c (dst c) b.2 6 b.1.1 b.1.2)
  let far := cores.map fun c => (scopeDist x.c k.s.moduleId c k.s.moduleId,
    x.at (5 + 4 * rows + 24 + 16 * dieSteps (aCore a) c))
  pure (finish x ({ k with far := k.far ++ far }.warpSend x out))

/-- TMRD (R105). -/
def execTmrd (c : CoreId) (m : Byte) (w : BitVec 48) (s : State) : Host.Outcome State Fault Refusal :=
  .next (runInstr s c .txe 0x66 false (runTmrd m w))

end Sys2Proof.Machine
end

