-- ==== Sys2Proof/Machine/Gather.lean ====
section
/-! DEFINITION. The gather engine of the AVM1728-F (R107 to R112): row gather, top-k selection, expert dispatch. -/

namespace Sys2Proof.Machine

/-- No access of an instruction takes place unless every range that it names resolves (R161). -/
def needAll (k : Work) (x : Ctx) (rs : List (MAddr × Nat)) : Except Halt Unit :=
  match rs.findSome? fun p => match k.s.resolve x.job.fn p.1 p.2 with
    | .error d => some d
    | .ok _ => none with
  | some d => .error (.stop .accessDenied d none)
  | none => .ok ()

/-- Read `n` 32-bit words from `a`, one row of 256 bytes per cycle from cycle `l` on (R108). -/
def readWords (k : Work) (x : Ctx) (a : MAddr) (n l : Nat) : Except Halt (List W32 × Work) := do
  let (bs, k) ← (List.range (ceilDiv n 64)).foldlM (fun (o : List Byte × Work) (i : Nat) => do
    let (b, k) ← o.2.read x (plus a (256 * i)) (min 256 (4 * n - 256 * i)) (x.at (l + i))
    pure (o.1 ++ b, k)) ([], k)
  pure (words32 bs, k)

/-- A power of two from 64 to 2,048 (R165). -/
def gatherRow (l : Nat) : Bool := [64, 128, 256, 512, 1024, 2048].contains l

/-- The core with the words in its index buffer (R108). -/
def Work.setIndex (k : Work) (x : Ctx) (l : List W32) : Work :=
  { k with s := k.s.updCore x.c fun o => { o with gIndex := trimLanes (l ++ o.gIndex.drop l.length) } }
/-- The core with the words in its key buffer (R108). -/
def Work.setKeys (k : Work) (x : Ctx) (l : List W32) : Work :=
  { k with s := k.s.updCore x.c fun o => { o with gKey := trimLanes (l ++ o.gKey.drop l.length) } }

/-! ### GROWS -/

/-- GROWS: the index array, then per index one table row to the next destination slot (R108, R109, R165). The alignments of the
index array, of the destination and of a table in activation memory are the model's choice (log entry 153). -/
def runGrows (m : Byte) (w : BitVec 48) (x : Ctx) (k : Work) : Except Halt Issued := do
  needEng .gxe 0x70 m w
  let ai := k.areg x (fld w 0 4)
  let tb := k.areg x (fld w 4 4)
  let ad := k.areg x (fld w 8 4)
  let count := fld w 12 12 + 1
  let len := 64 * (fld w 24 5 + 1)
  let limit := (k.sreg x (fld w 29 5)).toNat
  let weight := aSpace tb == 0
  need (localAddr x ai [1] && localAddr x tb [0, 1] && localAddr x ad [1] && aligned ai 256 && aligned ad 64 &&
    (if weight then aligned tb 2048 && gatherRow len else aligned tb 64)) 0x51
  needAll k x [(ai, 4 * count), (ad, count * len)]
  let (x, k) ← gate x k (rangeOf x ai (4 * count) false ++ rangeOf x tb (limit * len) false ++
    rangeOf x ad (count * len) true)
  let a := ceilDiv count 64
  let (idx, k) ← readWords k x ai count 0
  let k := k.setIndex x idx
  match idx.findIdx? fun v => v != 0xFFFFFFFF && (bitAt v 31 || decide (limit ≤ v.toNat)) with
  | some i => .error (k.fail x (x.at (i / 64)) .controlParity 0x52)
  | none =>
    let row (v : W32) : MAddr := plus tb (v.toNat * len)
    match needAll k x ((idx.filter fun v => v != 0xFFFFFFFF).map fun v => (row v, len)) with
    | .error (.stop c d _) => .error (.stop c d (some k))
    | .error h => .error h
    | .ok _ => pure ()
    let n := max 1 (ceilDiv len 256)
    let ls := if weight then 10 else 4
    let k ← idx.zipIdx.foldlM (fun (k : Work) (v : W32 × Nat) => do
      let t := a + 4 + v.2 * n
      let (bs, k) ← (if v.1 = 0xFFFFFFFF then pure (List.replicate len (0 : Byte), k)
        else if weight then k.read x (row v.1) len (x.at t)
        else (List.range n).foldlM (fun (o : List Byte × Work) (j : Nat) => do
          let (b, k) ← o.2.read x (plus (row v.1) (256 * j)) (min 256 (len - 256 * j)) (x.at (t + j))
          pure (o.1 ++ b, k)) (([] : List Byte), k))
      ((chunks 256 n bs).zipIdx).foldlM (fun (k : Work) p => do
        let dst := plus ad (v.2 * len + 256 * p.2)
        let k ← k.write x dst p.1 (x.at (t + ls + 2 + p.2))
        pure (if weight || v.1 = 0xFFFFFFFF then k
          else k.copyMarks x (plus (row v.1) (256 * p.2)) dst p.1.length)) k) k
    pure (finish x k)

/-- GROWS (R109). -/
def execGrows (c : CoreId) (m : Byte) (w : BitVec 48) (s : State) : Host.Outcome State Fault Refusal :=
  .next (runInstr s c .gxe 0x70 false (runGrows m w))

/-! ### GTOPK -/

/-- Rank of a key: none for a NaN, else a number that grows with the key; −0 equals +0 (R110). -/
def keyRank (int : Bool) (v : W32) : Option Int :=
  if int then some v.toInt
  else if f32Nan v then none
  else some (if bitAt v 31 then -(fld v 0 31 : Int) else (fld v 0 31 : Int))

/-- Candidate (key, index) `p` ranks before `q`, which has the lower position (R110). That the indices of a tie compare as
unsigned numbers is the model's choice (log entry 152). -/
def ranksBefore (int smallest : Bool) (p q : W32 × W32) : Bool :=
  match keyRank int p.1, keyRank int q.1 with
  | none, none => decide (p.2.toNat < q.2.toNat)
  | none, some _ => false
  | some _, none => true
  | some a, some b => if a = b then decide (p.2.toNat < q.2.toNat) else if smallest then decide (a < b) else decide (b < a)

/-- Put a candidate into a ranked list, behind those that it does not rank before. -/
def insRank (int smallest : Bool) (p : W32 × W32) : List (W32 × W32) → List (W32 × W32)
  | [] => [p]
  | q :: t => if ranksBefore int smallest p q then p :: q :: t else q :: insRank int smallest p t

/-- The `n` best candidates, best first, with the filler of R110 beyond the last. -/
def topK (int smallest : Bool) (n : Nat) (l : List (W32 × W32)) : List (W32 × W32) :=
  padTo n (if int then 0x80000000 else 0x7FC00000, 0xFFFFFFFF)
    (l.foldl (fun o p => (insRank int smallest p o).take n) [])

/-- GTOPK (R108, R110, R112). The spaces and alignments of its four addresses are the model's choice (log entry 153). -/
def runGtopk (m : Byte) (w : BitVec 48) (x : Ctx) (k : Work) : Except Halt Issued := do
  needEng .gxe 0x71 m w
  let ak := k.areg x (fld w 0 4)
  let av := k.areg x (fld w 4 4)
  let ax := k.areg x (fld w 8 4)
  let n := fld w 12 12 + 1
  let best := fld w 24 6 + 1
  let given := bitAt w 37
  let ai := k.areg x (fld w 38 4)
  let base := k.sreg x (fld w 32 5)
  need (localAddr x ak [1, 2] && localAddr x av [1, 2] && localAddr x ax [1, 2] && aligned ak 256 && aligned av 4 &&
    aligned ax 4 && (!given || (localAddr x ai [1, 2] && aligned ai 256))) 0x51
  needAll k x ([(ak, 4 * n), (av, 4 * best), (ax, 4 * best)] ++ (if given then [(ai, 4 * n)] else []))
  let (x, k) ← gate x k (rangeOf x ak (4 * n) false ++ (if given then rangeOf x ai (4 * n) false else []) ++
    rangeOf x av (4 * best) true ++ rangeOf x ax (4 * best) true)
  let rows := ceilDiv n 64
  let (keys, k) ← readWords k x ak n 0
  let (idx, k) ← (if given then readWords k x ai n rows
    else pure ((List.range n).map fun i => base + BitVec.ofNat 32 i, k))
  let k := k.setKeys x keys
  let k := if given then k.setIndex x idx else k
  k.clear x .gatherCompare .residueMismatch 0x09
  let top := topK (bitAt w 30) (bitAt w 31) best (List.zip keys idx)
  let t := x.at ((if given then 2 * rows else rows) + 20)
  let k ← k.writePieces x [(av, bytes32 (top.map (·.1))), (ax, bytes32 (top.map (·.2)))] t
  pure (finish x k)

/-- GTOPK (R110). -/
def execGtopk (c : CoreId) (m : Byte) (w : BitVec 48) (s : State) : Host.Outcome State Fault Refusal :=
  .next (runInstr s c .gxe 0x71 false (runGtopk m w))

/-! ### GDISP -/

/-- What a dispatch has done: per expert its entries in order and its dropped count; the choices dropped per token. -/
structure Dispatch where
  entries : List (List (W32 × W32))
  dropped : List Nat
  perToken : List Nat
  deriving DecidableEq, Repr

/-- One choice of a token (R111). That it compares with Se to Se + E − 1 as unsigned numbers, without a wrap past 2^32, is the
model's choice (log entry 154). -/
def Dispatch.choice (first : Nat) (caps : List Nat) (token : Nat) (d : Dispatch) (c : W32 × W32) : Dispatch :=
  let e := c.1.toNat - first
  if c.1 = 0xFFFFFFFF ∨ c.1.toNat < first ∨ caps.length ≤ e then d
  else
    let have' := nth [] d.entries e
    if have'.length < nth 0 caps e then
      { d with entries := setNth (have' ++ [(BitVec.ofNat 32 token, c.2)]) d.entries e }
    else
      { d with dropped := setNth (nth 0 d.dropped e + 1) d.dropped e
               perToken := setNth (nth 0 d.perToken token + 1) d.perToken token }

/-- The whole dispatch: tokens ascending, and within each token its choices in rank order (R111). -/
def dispatch (first kc : Nat) (caps : List Nat) (choices gates : List W32) : Dispatch :=
  let n := choices.length
  (List.zip choices gates).zipIdx.foldl (fun d c => d.choice first caps (c.2 / kc) c.1)
    { entries := caps.map fun _ => [], dropped := caps.map fun _ => 0, perToken := List.replicate (n / kc) 0 }

/-- Contents of a capacity bobbin: its entries, then unused entries (R111). -/
def bobbinFill (cap : Nat) (l : List (W32 × W32)) : List Byte :=
  (padTo cap (0xFFFFFFFF, 0) l).flatMap fun e => leBytes 4 e.1.toNat ++ leBytes 4 e.2.toNat

/-- GDISP (R108, R111, R112, R184): choice and gate rows are read in pairs, the entries and the counts land when the
bobbins are marked full. The spaces and alignments of its three addresses are the model's choice (log entry 153). -/
def runGdisp (m : Byte) (w : BitVec 48) (x : Ctx) (k : Work) : Except Halt Issued := do
  needEng .gxe 0x72 m w
  let ac := k.areg x (fld w 0 4)
  let ag := k.areg x (fld w 4 4)
  let an := k.areg x (fld w 8 4)
  let tokens := fld w 12 12 + 1
  let kc := fld w 24 3 + 1
  let experts := fld w 27 6 + 1
  let first := (k.sreg x (fld w 33 5)).toNat
  let b0 := fld w 38 8
  let n := tokens * kc
  need (localAddr x ac [1, 2] && localAddr x ag [1, 2] && localAddr x an [1, 2] && aligned ac 256 && aligned ag 256 &&
    aligned an 4) 0x51
  needAll k x [(ac, 4 * n), (ag, 4 * n), (an, 8 * experts)]
  let all := k.s.bobs x.job
  let bobs := (List.range experts).map fun (e : Nat) => all.find? fun b => b.num == b0 + e
  let fill := bobs.filterMap id |>.map fun b =>
    ({ space := b.space, off := b.base, len := b.size, write := true } : Range)
  let (x, k) ← gate x k (rangeOf x ac (4 * n) false ++ rangeOf x ag (4 * n) false ++ rangeOf x an (8 * experts) true ++ fill)
  -- pair p is read while the tokens of pair p − 1 are dispatched
  let at' (p : Nat) : Nat := if p = 0 then 0 else 2 + 64 * (p - 1) / kc
  let (cs, gs, k) ← (List.range (ceilDiv n 64)).foldlM
    (fun (o : List Byte × List Byte × Work) (p : Nat) => do
      let len := min 256 (4 * n - 256 * p)
      let (c, k) ← o.2.2.read x (plus ac (256 * p)) len (x.at (at' p))
      let (g, k) ← k.read x (plus ag (256 * p)) len (x.at (at' p + 1))
      pure (o.1 ++ c, o.2.1 ++ g, (k.setIndex x (words32 c)).setKeys x (words32 g))) (([] : List Byte), ([] : List Byte), k)
  k.clear x .gatherCompare .residueMismatch 0x09
  let caps := bobs.map fun b => match b with
    | some b => b.capacity
    | none => 0
  let d := dispatch first kc caps (words32 cs) (words32 gs)
  let k := d.perToken.zipIdx.foldl (fun (k : Work) t => k.ev 0x28 (x.at (2 + t.2)) 1 t.1) k
  let t := x.at (2 + tokens + 16)
  let counts := (d.entries.map fun l => BitVec.ofNat 32 l.length) ++ d.dropped.map fun v => BitVec.ofNat 32 v
  let evs := k.evs
  let k ← (List.zip bobs (List.zip caps d.entries)).foldlM (fun (k : Work) (p : Option Bob × Nat × List (W32 × W32)) =>
    match p.1 with
    | some b => do
      let k ← k.writeFree x (BitVec.ofNat 48 (absAddr b.space x.c b.base)) (padTo b.size 0 (bobbinFill p.2.1 p.2.2)) t
      let full (v : Bobbin) : Bobbin := Bobbin.enter { v with count := 0 } t .full
      pure { k with s := k.s.updCore x.c fun o => { o with bobbins := AMap.upd Bobbin.reset o.bobbins b.num full } }
    | none => .ok k) k
  -- the spec gives the appends no port cycles of their own
  let k ← { k with evs := evs }.write x an (bytes32 counts) t
  pure (finish x k)

/-- GDISP (R111). -/
def execGdisp (c : CoreId) (m : Byte) (w : BitVec 48) (s : State) : Host.Outcome State Fault Refusal :=
  .next (runInstr s c .gxe 0x72 false (runGdisp m w))

end Sys2Proof.Machine
end

