-- ==== Sys2Proof/Machine/Reduce.lean ====
section
/-! DEFINITION. Completion of weft operations (R120, R196, R198), stitch collectives (R115, R259, R260) and skein
reductions (R116 to R119): what the fabric engine's instructions, arrivals and stitch messages share. -/

namespace Sys2Proof.Machine

/-! ### Operations -/

/-- An operation of an engine has completed, not before kernel cycle `t0`: its counter is incremented with skein scope and local origin (R198), a dyed
instruction's record is written (R443), and releases and barriers no longer wait for it. -/
def State.opEnd (s : State) (n : Nat) (t0 : Nat := 0) : State :=
  match AMap.get none s.ops n with
  | none => s
  | some o =>
    let c := o.core.val
    let s := { s with ops := AMap.erase n s.ops }
    let s := s.updEngine c o.eng fun q => { q with openOps := q.openOps.filter fun i => i != n }
    let t := max t0 (s.nowCycle c)
    let s := match o.counter with
      | some i => s.incCounter c i 1 .skein c s.moduleId t o.eng.num
      | none => s
    match o.dye, (s.core c).job with
    | some b, some j => s.traceTo j.fn 0x10 (BitVec.ofNat 8 j.fn.val) (b ++ leBytes 4 t)
    | _, _ => s

/-- One transaction of an operation has completed. -/
def State.opStep (s : State) (n : Nat) : State :=
  match AMap.get none s.ops n with
  | none => s
  | some o =>
    if o.left ≤ 1 then s.opEnd n else { s with ops := AMap.set none s.ops n (some { o with left := o.left - 1 }) }

/-- Increment the counter that an entry names; 0xFF names none (R113, R198, R210). -/
def State.entryCounter (s : State) (c : Nat) (counter : Byte) (t : Nat) : State :=
  if counter = 0xFF then s else s.incCounter c (counter.toNat % 64) 1 .skein c s.moduleId t 4

/-- Loaded program of a function. -/
def State.loaded (s : State) (f : FnId) : Option Loaded := (s.fn f.val).exe

/-- Physical core of a virtual core of this member. -/
def Loaded.coreOf (l : Loaded) (vcore : Nat) : Option Nat := (l.place.find? fun p => p.2 == vcore).map (·.1)

/-- A fault of a core's fabric engine in a cycle of its kernel. -/
def State.fxeFault (s : State) (c t : Nat) (cause : Cause) (detail : Byte) : State :=
  s.addFault c { cyc := t, core := c, eng := some .fxe, cause := cause, detail := detail }

/-- One row of such a result: it takes the write port in its cycle (R168, R173). -/
def State.fabricRow (s : State) (c : Nat) (fn : FnId) (a : MAddr) (data : List Byte) (t : Nat) : State :=
  match s.resolve fn a data.length with
  | .error d => s.fxeFault c t .accessDenied d
  | .ok (_, abs) =>
    match s.claimArrival c t (portsOf (aSpace a) (abs % 2 ^ 32) data.length t 4 true) with
    | none => (s.count c (some 4) 0x17 t 1 1).fxeFault c t .controlParity 0x70
    | some s =>
      let ok := match (s.core c).job with
        | some j => s.bobAccess c j 4 { space := aSpace a, off := aOff a, len := data.length, write := true } t 0x03
        | none => .ok s
      match ok with
      | .error f => s.fxeFault c t f.1 f.2
      | .ok s => (s.writeAt c t abs data 4).clearEcc (aSpace a) abs data.length

/-- The result of an instruction that another event completes is written at a core, by the core's fabric engine: 256 bytes a
cycle from cycle `t` on. -/
def State.fabricWrite (s : State) (c : Nat) (fn : FnId) (a : MAddr) (data : List Byte) (t : Nat) : State :=
  ((chunks 256 (ceilDiv data.length 256) data).zipIdx).foldl (fun (s : State) p =>
    s.fabricRow c fn (plus a (256 * p.2)) p.1 (t + p.2)) s

/-- Cycle of the last row of a result of `n` bytes. -/
def fabricLast (n t : Nat) : Nat := t + (ceilDiv n 256 - 1)

/-! ### Stitch collectives -/

/-- One lane operation of FSCOL: 0 add, 1 minimum, 2 maximum, 3 AND, 4 OR, 5 XOR, on `n`-bit integers (R115). -/
def scolLane (op n a b : Nat) : Nat :=
  match op with
  | 0 => (a + b) % 2 ^ n
  | 1 => if sext n a ≤ sext n b then a else b
  | 2 => if sext n a ≤ sext n b then b else a
  | 3 => a &&& b
  | 4 => a ||| b
  | _ => a ^^^ b

/-- FSCOL on 16 bytes: two 64-bit or four 32-bit lanes (R115). -/
def scolOp (op : Nat) (narrow : Bool) (a b : BitVec 128) : BitVec 128 :=
  let n := if narrow then 32 else 64
  BitVec.ofNat 128 (((List.range (128 / n)).map fun i => scolLane op n (fld a (n * i) n) (fld b (n * i) n) * 2 ^ (n * i)).foldl
    (· + ·) 0)

/-- A collective of a function by its entry. -/
def State.coll (s : State) (fn : FnId) (entry : Nat) : Option Coll :=
  s.colls.find? fun c => c.fn == fn && c.entry == entry

/-- The entry of a collective in the loaded executable. -/
def State.collEntry (s : State) (fn : FnId) (entry : Nat) : Option CollEntry := (s.loaded fn).bind fun l => l.exe.colls[entry]?

/-- The state with a collective replaced or added. -/
def State.setColl (s : State) (v : Coll) : State :=
  { s with colls := (s.colls.filter fun c => !(c.fn == v.fn && c.entry == v.entry)) ++ [v] }

/-- FSCOL message of a type: the entry and 16 bytes (R259). -/
def scolMsg (ty : Byte) (entry : Nat) (v : BitVec 128) : StitchMsg :=
  stitchMsg ty (leBytes 2 entry ++ leBytes 16 v.toNat)

/-- The result of a collective reaches this member: every destination, and the children (R115, R260). -/
def State.collResult (s : State) (c : Coll) (v : BitVec 128) (counter : Byte) (relay : Bool) (t0 : Nat) : State :=
  let s := { s with colls := s.colls.filter fun d => !(d.fn == c.fn && d.entry == c.entry) }
  let s := if relay then s.sendTo s.stitchChildren (scolMsg 0x04 c.entry v) else s
  c.dest.foldl (fun s d =>
    let t := max t0 (s.nowCycle d.1.val)
    ((s.fabricWrite d.1.val c.fn d.2.1 (leBytes 16 v.toNat) t).entryCounter d.1.val counter t).opEnd d.2.2 t) s

/-- The contributions of this member's cores and of its children combined (R115). -/
def Coll.combined (c : Coll) : BitVec 128 :=
  match c.own, c.got.map (·.2) with
  | some v, l => l.foldl (scolOp c.op c.narrow) v
  | none, v :: l => l.foldl (scolOp c.op c.narrow) v
  | none, [] => 0

/-- A collective to which nothing has been contributed. -/
def Coll.start (fn : FnId) (entry op : Nat) (narrow : Bool) : Coll :=
  { fn := fn, entry := entry, op := op, narrow := narrow, own := none, got := [], dest := [] }

/-- A collective moves on once every core of its group at this member, and every child below which members of the group
lie, have contributed (R115, R260). -/
def State.collTry (s : State) (fn : FnId) (entry : Nat) (t0 : Nat := 0) : State :=
  match s.coll fn entry, s.loaded fn with
  | some c, some l =>
    match l.exe.colls[entry]? with
    | none => s
    | some e =>
      let mine := (e.group.filter fun g => g.1 == l.vmodule).length
      let wide := e.group.any fun g => g.1 != l.vmodule
      let children := (e.subtrees.filter fun t => t.1 == l.vmodule).map (·.2)
      if c.dest.length < mine || !(children.all fun p => c.got.any fun g => g.1.val == p) then s
      else
        let v := c.combined
        if !wide || s.stitchRoot then s.collResult c v e.counter wide t0
        else s.sendTo [s.stitchParent] (scolMsg 0x03 entry v)
  | _, _ => s

/-! ### Canonical trees over a reduction index (R54, R118) -/

/-- Largest power of two below n, for n ≥ 2. -/
def treeSplit (n : Nat) : Nat := 2 ^ (bitLen (n - 1) - 1)

/-- The range of `l` from `a` is a node of the tree over `len` from `lo`. -/
def isTreeNode : Nat → Nat → Nat → Nat → Nat → Bool
  | 0, _, _, _, _ => false
  | f + 1, lo, len, a, l =>
    if lo = a ∧ len = l then true
    else if len ≤ 1 then false
    else
      let h := treeSplit len
      if a < lo + h then isTreeNode f lo h a l else isTreeNode f (lo + h) (len - h) a l

/-- A contribution: first index, length, values. -/
abbrev RedPart := Nat × Nat × List (BitVec 192)

/-- Join siblings at the top of a stack, left operand first (R118). -/
def joinTop (n op : Nat) : Nat → List RedPart → List RedPart
  | f + 1, r :: l :: t =>
    if l.1 + l.2.1 = r.1 ∧ isTreeNode 64 0 n l.1 (l.2.1 + r.2.1) ∧ treeSplit (l.2.1 + r.2.1) = l.2.1 then
      joinTop n op f ((l.1, l.2.1 + r.2.1, List.zipWith (fun a b =>
        ((redOp op (a.setWidth 32) (b.setWidth 32)).1).setWidth 192) l.2.2 r.2.2) :: t)
    else r :: l :: t
  | _, s => s

/-- Put a contribution in order of its first index. -/
def insPart (p : RedPart) : List RedPart → List RedPart
  | [] => [p]
  | q :: t => if p.1 < q.1 then p :: q :: t else q :: insPart p t

/-- The nodes that remain after every sibling pair is joined, ascending. -/
def joinParts (n op : Nat) (l : List RedPart) : List RedPart :=
  ((l.foldl (fun o p => insPart p o) []).foldl (fun st p => joinTop n op l.length (p :: st)) []).reverse

/-- Sum of exact contributions element by element, modulo 2^192 (R41). -/
def sumParts (l : List RedPart) : List (BitVec 192) :=
  match l with
  | [] => []
  | p :: t => t.foldl (fun a q => List.zipWith (· + ·) a q.2.2) p.2.2

/-! ### Reductions -/

/-- A reduction of a function by its entry. -/
def State.red (s : State) (fn : FnId) (entry : Nat) : Option Red :=
  s.reds.find? fun c => c.fn == fn && c.entry == entry
/-- The state with a reduction replaced or added. -/
def State.setRed (s : State) (v : Red) : State :=
  { s with reds := (s.reds.filter fun c => !(c.fn == v.fn && c.entry == v.entry)) ++ [v] }

/-- Residue sum of a segment at an anchor (R117, R119). -/
def residueSum (q : Int) (l : List (BitVec 192)) : Nat :=
  l.foldl (fun r v => (r + residue v.toInt q) % mersenne) 0

/-- Bytes of one segment on a link: the header flit and the value flits (R117). -/
def Red.segment (r : Red) (n base : Nat) (pass : W32) (p : RedPart) (final : Bool) : List Byte :=
  let hdr := leBytes 2 r.entry ++ leBytes 2 (if r.kind = 1 then wrap 16 r.q else 0) ++ leBytes 2 (r.count - 1) ++
    leBytes 1 r.kind ++ leBytes 1 ((if r.mismatch then 1 else 0) + (if final then 2 else 0)) ++ leBytes 8 base ++
    leBytes 4 (if r.kind = 1 then residueSum r.q p.2.2 else 0) ++ leBytes 4 (if r.kind = 1 then 0 else n) ++
    leBytes 4 (if r.kind = 1 then 0 else p.1) ++ leBytes 4 (if r.kind = 1 then 0 else p.2.1) ++ leBytes 4 pass.toNat
  let body := p.2.2.flatMap fun v => leBytes (if r.kind = 1 then 24 else 4) v.toNat
  padTo 64 0 hdr ++ padTo (64 * ceilDiv body.length 64) 0 body

/-- Segment that a send entry of a reduction carries: the result once it is known here, else this member's part;
none before the member's own cores have contributed. `i` counts the send entries of this reduction at the member. -/
def redSegment (l : Loaded) (r : Red) (e : RedEntry) (i : Nat) (pass : W32) : Option (List Byte) :=
  match r.final with
  | some v => some (r.segment e.n e.base pass (0, e.n, v) true)
  | none =>
    if r.got.length - r.segs < (e.nodes.filter fun d => d.vmodule == l.vmodule).length then none
    else if r.kind = 1 then some (r.segment e.n e.base pass (0, e.n, sumParts r.got) false)
    else ((joinParts e.n r.op r.got)[i]?).map fun p => r.segment e.n e.base pass p false

/-- Bytes of the result at a destination: long-value words or FP32 words (R116, R118, R171). -/
def Red.bytes (r : Red) (v : List (BitVec 192)) : List Byte :=
  if r.kind = 1 then v.flatMap fun n => longWord n.toInt 0 else v.flatMap fun n => leBytes 4 n.toNat

/-- Send entries of this member that carry a reduction's flits in a later slot group (R116). -/
def State.redOwed (s : State) (l : Loaded) (fn : FnId) (entry : Nat) : Bool :=
  match s.curPass fn with
  | none => false
  | some (_, p) => l.exe.warps.any fun w =>
      let (f, sg, _) := warpPlace w (w.flits - 1)
      w.kind == 0x01 && w.reduction == some entry && (l.coreOf w.vcore).isSome &&
        decide (100 * s.clk.frame.toNat + s.clk.sg < 100 * (p.kernelStart.toNat + f) + sg)

/-- Cores of this member that take part in a reduction: its contributors, or the cores of its warp entries. -/
def redCores (l : Loaded) (e : RedEntry) (entry : Nat) : List Nat :=
  let own := (e.nodes.filter fun d => d.vmodule == l.vmodule).filterMap fun d => l.coreOf d.vcore
  if own.isEmpty then (l.exe.warps.filter fun w => w.reduction == some entry).filterMap fun w => l.coreOf w.vcore else own

/-- An anchor mismatch raises its fault on this member once the result with its flag is known here; where the member sends
it on to others, once the last flit has left (R41, R116). -/
def State.redFault (s : State) (l : Loaded) (r : Red) (e : RedEntry) : State :=
  if !r.mismatch || r.final.isNone || s.redOwed l r.fn r.entry then s
  else (redCores l e r.entry).foldl (fun s c => s.raise (.eng c .fxe) .scaleSpan 0x04 ((s.curPass r.fn).map (·.1))) s

/-- Anchor mismatches whose flagged results have left in this slot group (R116). -/
def State.redFaults (s : State) : State :=
  s.reds.foldl (fun s r => match s.loaded r.fn with
    | some l => (match l.exe.reds[r.entry]? with
      | some e => s.redFault l r e
      | none => s)
    | none => s) s

/-- The result is known at this member: it is written to the destinations, on every member or on the root only, and a
mismatched anchor raises its fault (R116). -/
def State.redFinal (s : State) (l : Loaded) (r : Red) (e : RedEntry) (v : List (BitVec 192)) (t0 : Nat) : State :=
  let r' : Red := { r with final := some v, dest := [] }
  let s := s.setRed r'
  let writes := !r.toRoot || l.vmodule == e.root
  let s := r.dest.foldl (fun s d =>
    let t := max t0 (s.nowCycle d.1.val)
    let out := writes && !r.mismatch
    let s := if out then s.fabricWrite d.1.val r.fn d.2.1 (r.bytes v) t else s
    let t := if out then fabricLast (r.bytes v).length t else t
    (s.entryCounter d.1.val e.counter t).opEnd d.2.2 t) s
  let s := s.redFault l r' e
  if l.exe.warps.any fun w => w.reduction == some r.entry then s
  else { s with reds := s.reds.filter fun c => !(c.fn == r.fn && c.entry == r.entry) }

/-- A reduction moves on: without other members, or at the root, the result is known once every contribution is there. -/
def State.redTry (s : State) (fn : FnId) (entry : Nat) (t0 : Nat := 0) : State :=
  match s.red fn entry, s.loaded fn with
  | some r, some l =>
    match l.exe.reds[entry]? with
    | none => s
    | some e =>
      let mine := (e.nodes.filter fun d => d.vmodule == l.vmodule).length
      let wide := e.nodes.any fun d => d.vmodule != l.vmodule
      let inputs := (l.exe.warps.filter fun w => w.kind == 2 && w.reduction == some entry).length
      if r.final.isSome || r.got.length - r.segs < mine then s
      else if wide && (l.vmodule != e.root || decide (r.segs < inputs)) then s
      else if r.kind = 1 then s.redFinal l r e (sumParts r.got) t0
      else
        match joinParts e.n r.op r.got with
        | [p] => s.redFinal l r e p.2.2 t0
        | _ => s
  | _, _ => s

/-- A whole segment has arrived at core `c` (R116 to R119). An anchor that differs is noted, and travels with the result to
every member. -/
def State.redReceive (s : State) (c : Nat) (fn : FnId) (entry : Nat) (bytes : List Byte) : State :=
  match s.red fn entry, s.loaded fn with
  | some r, some l =>
    match l.exe.reds[entry]? with
    | none => s
    | some e =>
      let q := sext 16 (leNat ((bytes.drop 2).take 2))
      let flags := leNat ((bytes.drop 7).take 1)
      let w := if r.kind = 1 then 24 else 4
      let vs := (chunks w r.count (bytes.drop 64)).map fun b => BitVec.ofNat 192 (leNat b)
      let bad := r.kind = 1 ∧ q ≠ r.q
      let wrong := r.kind = 1 ∧ leNat ((bytes.drop 16).take 4) ≠ residueSum q vs
      if wrong then s.raiseEng c .fxe .residueMismatch 0x10
      else
        let r := { r with mismatch := r.mismatch || decide bad || flags % 2 == 1 }
        if flags / 2 % 2 = 1 then s.redFinal l r e vs 0
        else
          let p : RedPart := (leNat ((bytes.drop 24).take 4), leNat ((bytes.drop 28).take 4), vs)
          (s.setRed { r with got := r.got ++ [p], segs := r.segs + 1 }).redTry fn entry
  | _, _ => s

/-- Whole segments that have arrived before this member's own instruction are taken once the reduction is known
(R116, R118). -/
def State.redDrain (s : State) (fn : FnId) : State :=
  match s.loaded fn with
  | none => s
  | some l =>
    let whole := s.cores.flatMap fun (ck : Nat × Core) => ck.2.redBuf.filterMap fun (kv : Nat × List (List Byte)) =>
      match l.exe.warps[kv.1]? with
      | some w => if w.flits ≤ kv.2.length then w.reduction.map fun r => (ck.1, kv.1, r, kv.2.flatten) else none
      | none => none
    whole.foldl (fun (s : State) (x : Nat × Nat × Nat × List Byte) =>
      if (s.red fn x.2.2.1).isSome then
        (s.updCore x.1 fun k => { k with redBuf := AMap.erase x.2.1 k.redBuf }).redReceive x.1 fn x.2.2.1 x.2.2.2
      else s) s

end Sys2Proof.Machine
end

