-- ==== Sys2Proof/Machine/Fabric.lean ====
section
/-! DEFINITION. The fabric engine's instructions (R113 to R120, R265). -/

namespace Sys2Proof.Machine

/-- Warp entry of a core's own virtual core and of a kind, or CONTROL_PARITY 0x62 (R113). -/
def warpEntry (x : Ctx) (k : Work) (n : Nat) (kind : Byte) : Except Halt (Loaded × WarpEntry) :=
  match k.s.loaded x.job.fn with
  | none => .error (parity 0x62)
  | some l => match l.exe.warps[n]? with
    | none => .error (parity 0x62)
    | some w => if w.kind = kind ∧ w.vcore = x.job.vcore then .ok (l, w) else .error (parity 0x62)

/-- Frame of the landing of a receive entry's flits: the send frame plus the latency class (R256). -/
def recvPlace (w : WarpEntry) (i : Nat) : Nat × Nat × Nat :=
  let (f, s, p) := warpPlace w i
  (f + w.latClass, s, p)

/-- Landing cycle of flit `i` of a receive entry at a core `d` die steps from the port (R256). -/
def landCycle (w : WarpEntry) (d i : Nat) : Nat :=
  let (f, s, p) := recvPlace w i
  slotCycle f s + 64 + 16 * d + p

/-- Mesh node at which a warp entry of a core meets its port. -/
def Loaded.portNode (l : Loaded) (w : WarpEntry) (entry c : Nat) : Nat :=
  ioNode (w.port / 8) (attachOff l.routes entry c (w.port / 8))

/-- Base address of a bobbin of a core, relative to the function's region, and 64 i bytes on. -/
def bobAddr (b : Bob) (c i : Nat) : MAddr := BitVec.ofNat 48 (absAddr b.space c (b.base + 64 * i))

/-- Port cycles in which the flits of a send entry, injected in the cycles `inj`, are fetched from a bobbin (R114, R168). -/
def Work.fetchClaims (k : Work) (x : Ctx) (bobbin : Nat) (inj : List Nat) : List Claim :=
  match (k.s.bobs x.job).find? fun o => o.num == bobbin with
  | none => []
  | some b => inj.zipIdx.flatMap fun ti => match k.s.resolve x.job.fn (bobAddr b x.c ti.2) 64 with
    | .ok (_, abs) => if x.t + 16 ≤ ti.1 then portsOf b.space (abs % 2 ^ 32) 64 (ti.1 - 16) 4 false else []
    | .error _ => []

/-- FSEND: the entry is armed; its flits leave in their slots (R114, R256). -/
def runFsend (m : Byte) (w : BitVec 48) (x : Ctx) (k : Work) : Except Halt Issued := do
  needEng .fxe 0x78 m w
  let n := fld w 0 12
  let (l, v) ← warpEntry x k n 0x01
  let node := l.portNode v n x.c
  let inj := (List.range v.flits).filterMap (sendInject v (nodeSteps x.c node))
  let base := k.s.kernelBase x.c
  let runs := k.s.sendRuns l base x.c n []
  let stop := fun (t : Nat) => (k.s.warpWay x.c node (base + t)).2
  let ways := (List.zip runs inj).map fun r => (r.1, stop r.2)
  let (s, fs) := (k.s.updCore x.c fun o => { o with armed := o.armed ++ [{ entry := n, send := true, bobbin := fld w 12 8 }] }).launch ways
  let k := fs.foldl (fun k f => k.lateFault (f.1 - base) f.2.1 (if f.2.2 = 0x82 then some x.e else none) .controlParity f.2.2)
    { k with s := s }
  let k := k.claimRun x (k.fetchClaims x (fld w 12 8) inj)
  let last := inj.foldl max 0
  pure (finish x { k with far := k.far ++ [(4, last + 24 + 16 * nodeSteps x.c node)] })

/-- FSEND (R114). -/
def execFsend (c : CoreId) (m : Byte) (w : BitVec 48) (s : State) : Host.Outcome State Fault Refusal :=
  .next (runInstr s c .fxe 0x78 false (runFsend m w))

/-- FRECV: the entry is armed; its flits land in the bobbin (R114, R256). -/
def runFrecv (m : Byte) (w : BitVec 48) (x : Ctx) (k : Work) : Except Halt Issued := do
  needEng .fxe 0x79 m w
  let n := fld w 0 12
  let (l, v) ← warpEntry x k n 0x02
  let d := nodeSteps x.c (l.portNode v n x.c)
  let s := k.s.updCore x.c fun o => { o with armed := o.armed ++ [{ entry := n, send := false, bobbin := fld w 12 8 }] }
  pure (finish x ({ k with s := s }.until (landCycle v d (v.flits - 1))))

/-- FRECV (R114). -/
def execFrecv (c : CoreId) (m : Byte) (w : BitVec 48) (s : State) : Host.Outcome State Fault Refusal :=
  .next (runInstr s c .fxe 0x79 false (runFrecv m w))

/-- Start an operation that a later event completes, for an instruction of the core's own fabric engine. -/
def Work.openOp (k : Work) (x : Ctx) : Work × Nat :=
  let (s, n) := k.s.startOp (Fin.ofNat 1728 x.c) x.e [] 0 none x.t x.t
  ({ k with s := s }, n)

/-- FSCOL: this core's 16 bytes join the collective (R115). -/
def runFscol (m : Byte) (w : BitVec 48) (x : Ctx) (k : Work) : Except Halt Issued := do
  needEng .fxe 0x7A m w
  let a := k.areg x (fld w 0 4)
  let b := k.areg x (fld w 4 4)
  let n := fld w 8 10
  let entry := (k.s.loaded x.job.fn).bind fun l =>
    (l.exe.colls[n]?).filter fun e => e.group.contains (l.vmodule, x.job.vcore)
  k.needs x [(entry.isSome, .controlParity, 0x62),
    (localAddr x a [1, 2] && localAddr x b [1, 2] && aligned a 4 && aligned b 4, .controlParity, 0x61)]
  needAll k x [(a, 16), (b, 16)]
  let (x, k) ← gate x k (rangeOf x a 16 false ++ rangeOf x b 16 true)
  let (bs, k) ← k.read x a 16 x.t
  let v := BitVec.ofNat 128 (leNat bs)
  let (k, o) := k.openOp x
  let d := (Fin.ofNat 1728 x.c, b, o)
  let op := fld m 0 3
  let c : Coll := match k.s.coll x.job.fn n with
    | some c => { c with own := some (match c.own with | some o => scolOp c.op c.narrow o v | none => v), dest := c.dest ++ [d],
                         op := if c.dest.isEmpty then op else c.op, narrow := if c.dest.isEmpty then bitAt m 3 else c.narrow }
    | none => { Coll.start x.job.fn n op (bitAt m 3) with own := some v, dest := [d] }
  pure { finish x { k with s := (k.s.setColl c).collTry x.job.fn n (x.at 1) } with remote := some o }

/-- FSCOL (R115). -/
def execFscol (c : CoreId) (m : Byte) (w : BitVec 48) (s : State) : Host.Outcome State Fault Refusal :=
  .next (runInstr s c .fxe 0x7A false (runFscol m w))

/-- What FRDX and FRDC share: the core's contribution is read one row per cycle and joins the reduction. -/
def runReduce (kind op : Nat) (toRoot : Bool) (q : Int) (spaces out : List Nat) (align : Nat) (upset : Upset)
    (w : BitVec 48) (x : Ctx) (k : Work) : Except Halt Issued := do
  let a := k.areg x (fld w 0 4)
  let b := k.areg x (fld w 4 4)
  let count := fld w 8 14 + 1
  let n := fld w 22 10
  let found := (k.s.loaded x.job.fn).bind fun l => ((l.exe.reds[n]?).filter fun e => e.kind == kind).bind fun e =>
    e.nodes.find? fun d => d.vmodule == l.vmodule && d.vcore == x.job.vcore
  let len := count * (if kind = 1 then 32 else 4)
  k.needs x [(found.isSome, .controlParity, 0x62),
    (localAddr x a spaces && localAddr x b out && aligned a align && aligned b align, .controlParity, 0x61)]
  let some node := found | .error (parity 0x62)
  needAll k x [(a, len), (b, len)]
  let (x, k) ← gate x k (rangeOf x a len false ++ rangeOf x b len true)
  k.clear x upset .residueMismatch (if kind = 1 then 0x10 else 0x11)
  let (bs, k) ← (List.range (ceilDiv len 256)).foldlM (fun (o : List Byte × Work) (i : Nat) => do
    let (r, k) ← o.2.read x (plus a (256 * i)) (min 256 (len - 256 * i)) (x.at i)
    pure (o.1 ++ r, k)) ([], k)
  let vs := (chunks (if kind = 1 then 32 else 4) count bs).map fun g => BitVec.ofNat 192 (leNat (g.take 24))
  let (k, o) := k.openOp x
  let p : RedPart := (node.first, node.len, vs)
  let d := (Fin.ofNat 1728 x.c, b, o)
  let old := match k.s.red x.job.fn n with
    | some r => if r.final.isSome then none else some r
    | none => none
  let r : Red := match old with
    | some r => { r with got := r.got ++ [p], dest := r.dest ++ [d], mismatch := r.mismatch || r.q != q }
    | none => { fn := x.job.fn, entry := n, kind := kind, q := q, count := count, op := op, toRoot := toRoot,
                got := [p], segs := 0, final := none, mismatch := false, dest := [d] }
  pure { finish x { k with s := ((k.s.setRed r).redTry x.job.fn n (x.at (ceilDiv len 256))).redDrain x.job.fn } with remote := some o }

/-- FRDX (R116). -/
def runFrdx (m : Byte) (w : BitVec 48) (x : Ctx) (k : Work) : Except Halt Issued := do
  needEng .fxe 0x7B m w
  runReduce 1 0 (bitAt m 0) (anchorQ k x) [2] [2] 32 .fabricExact w x k
where
  /-- Anchor: the immediate or the low 10 bits of Sq. -/
  anchorQ (k : Work) (x : Ctx) : Int := sext 10 (if bitAt w 42 then (k.sreg x (fld w 43 5)).toNat else fld w 32 10)

/-- FRDX (R116). -/
def execFrdx (c : CoreId) (m : Byte) (w : BitVec 48) (s : State) : Host.Outcome State Fault Refusal :=
  .next (runInstr s c .fxe 0x7B false (runFrdx m w))

/-- FRDC (R118). -/
def runFrdc (m : Byte) (w : BitVec 48) (x : Ctx) (k : Work) : Except Halt Issued := do
  needEng .fxe 0x7C m w
  runReduce 2 (fld m 0 2) (bitAt m 2) 0 [1, 2] [1] 4 .fabricCanon w x k

/-- FRDC (R118). -/
def execFrdc (c : CoreId) (m : Byte) (w : BitVec 48) (s : State) : Host.Outcome State Fault Refusal :=
  .next (runInstr s c .fxe 0x7C false (runFrdc m w))

/-! ### Weft instructions -/

/-- Module that an FW instruction names (R113). -/
def fwModule (k : Work) (x : Ctx) (w : BitVec 48) : BitVec 12 :=
  if bitAt w 20 then (k.sreg x (fld w 21 5)).setWidth 12 else BitVec.ofNat 12 (fld w 8 12)

/-- A remote address as the originator checks it: the core field and the offset, and at the own module everything
(R161). -/
def needRemote (k : Work) (x : Ctx) (module : BitVec 12) (a : MAddr) (n : Nat) : Except Halt Unit := do
  needF (decide (aCore a < 1728) && !bitAt a 43 && decide (aOff a + n ≤ spaceSize (aSpace a))) .accessDenied 0x70
  if module = k.s.moduleId then needAll k x [(a, n)]

/-- FWPUT: five flits a granule (R120, R265). -/
def runFwput (m : Byte) (w : BitVec 48) (x : Ctx) (k : Work) : Except Halt Issued := do
  needEng .fxe 0x7D m w
  let al := k.areg x (fld w 0 4)
  let ar := k.areg x (fld w 4 4)
  let module := fwModule k x w
  let flits := fld w 26 6 + 1
  let span := 256 * ((flits - 1) / 5) + min (56 * ((flits - 1) % 5) + 56) 256
  need (localAddr x al [1, 2] && aligned al 256 && [1, 2].contains (aSpace ar) && aligned ar 256) 0x61
  needAll k x [(al, span)]
  needRemote k x module ar span
  let (x, k) ← waitRoom x k
  let (x, k) ← gate x k (rangeOf x al span false)
  let (fs, k) ← (List.range (ceilDiv span 256)).foldlM (fun (o : List (WeftFlit × Option MAddr) × Work) (g : Nat) => do
    let n := min 256 (span - 256 * g)
    let (bs, k) ← o.2.read x (plus al (256 * g)) n (x.at g)
    let marks := k.marks x (plus al (256 * g)) n
    pure (o.1 ++ (granuleWrites k.s x.c module (plus ar (256 * g)) bs marks).map fun f => (f, none), k)) ([], k)
  let (s, n) := k.s.startOp (Fin.ofNat 1728 x.c) .fxe (fs.take flits) (scopeDist x.c k.s.moduleId (aCore ar) module)
    (some (fld w 32 6)) x.t x.t
  pure { finish x { k with s := s } with remote := some n }

/-- FWPUT (R120). -/
def execFwput (c : CoreId) (m : Byte) (w : BitVec 48) (s : State) : Host.Outcome State Fault Refusal :=
  .next (runInstr s c .fxe 0x7D false (runFwput m w))

/-- FWGET: 64 bytes a flit (R120, R265). -/
def runFwget (m : Byte) (w : BitVec 48) (x : Ctx) (k : Work) : Except Halt Issued := do
  needEng .fxe 0x7E m w
  let al := k.areg x (fld w 0 4)
  let ar := k.areg x (fld w 4 4)
  let module := fwModule k x w
  let flits := fld w 26 6 + 1
  need (localAddr x al [1, 2] && aligned al 64 && [1, 2].contains (aSpace ar) && aligned ar 64) 0x61
  needAll k x [(al, 64 * flits)]
  needRemote k x module ar (64 * flits)
  let (x, k) ← waitRoom x k
  let (x, k) ← gate x k (rangeOf x al (64 * flits) true)
  let fs := (List.range flits).map fun (j : Nat) =>
    (weftReadFlit k.s x.c module (plus ar (64 * j)) 64, some (plus al (64 * j)))
  let (s, n) := k.s.startOp (Fin.ofNat 1728 x.c) .fxe fs 0 (some (fld w 32 6)) x.t x.t
  pure { finish x { k with s := s } with remote := some n }

/-- FWGET (R120). -/
def execFwget (c : CoreId) (m : Byte) (w : BitVec 48) (s : State) : Host.Outcome State Fault Refusal :=
  .next (runInstr s c .fxe 0x7E false (runFwget m w))

/-- FWATM: operand at Al, compare value at Al + 8, old value to Al + 16 (R120). -/
def runFwatm (m : Byte) (w : BitVec 48) (x : Ctx) (k : Work) : Except Halt Issued := do
  needEng .fxe 0x7F m w
  let al := k.areg x (fld w 0 4)
  let ar := k.areg x (fld w 4 4)
  let module := fwModule k x w
  need (localAddr x al [1, 2] && aligned al 32 && aSpace ar == 1 && aligned ar 8) 0x61
  needAll k x [(al, 24)]
  needRemote k x module ar 8
  let (x, k) ← waitRoom x k
  let (x, k) ← gate x k (rangeOf x al 16 false ++ rangeOf x (plus al 16) 8 true)
  let (bs, k) ← k.read x al 16 x.t
  let f := weftRequest k.s x.c .atomic module (weftPayload (ar.toNat + m.toNat * 2 ^ 54) bs)
  let (s, n) := k.s.startOp (Fin.ofNat 1728 x.c) .fxe [(f, some (plus al 16))]
    (scopeDist x.c k.s.moduleId (aCore ar) module) (some (fld w 32 6)) x.t x.t
  pure { finish x { k with s := s } with remote := some n }

/-- FWATM (R120). -/
def execFwatm (c : CoreId) (m : Byte) (w : BitVec 48) (s : State) : Host.Outcome State Fault Refusal :=
  .next (runInstr s c .fxe 0x7F false (runFwatm m w))

end Sys2Proof.Machine
end

