-- ==== Sys2Proof/Machine/CoreEvents.lean ====
section
/-! DEFINITION. Core events (R138, R159, R184, R196, R203) and the skein barrier (R216, R217): joins, their combination on
the stitch tree and the result. -/

namespace Sys2Proof.Machine

/-! ### Waits that end in a fault -/

/-- CONTROL_PARITY detail of a word that no engine's instructions hold: an opcode that is reserved outside every engine's range
(R125), one of another engine's range, or a reserved one of the engine's own (R69, R91); the modifiers of opcode 0x52 name
instructions, and those above 4 none. None for the words that are instructions. -/
def strayWord (e : Eng) (v : W64) : Option Byte :=
  let op := wordOp v
  let (lo, n) := opRange e
  let last : Nat := match e with
    | .mxe => 0x47 | .vxe => 0x5B | .txe => 0x66 | .gxe => 0x72 | .fxe => 0x7F
  if ctlOp op then none
  else if lo ≤ op ∧ op < lo + n then
    if last < op ∨ (op = 0x52 ∧ 4 < (wordMod v).toNat) then some (encDetail e) else none
  else if 0x40 ≤ op ∧ op < 0x80 then some (encDetail e)
  else some 0x01

/-- ABSENT_ENGINE_DELIVERY: a fused-off engine drops the word and raises ABSENT_ENGINE (R159). A present engine takes a word
that is no instruction of its own as one with a reserved encoding (R69, R91, R125). -/
def execAbsentEngineDelivery (c : CoreId) (e : Eng) (word : W64) (s : State) : Host.Outcome State Fault Refusal :=
  .next (if !s.present e then s.raiseEng c.val e .absentEngine 0x02
    else match strayWord e word with
      | some d => runInstr s c e (wordOp word) false fun _ _ => .error (parity d)
      | none => s)

/-- The engine stands until cycle `t` in a ledger column, with an event per cycle. -/
def State.standUntil (s : State) (c : Nat) (e : Eng) (t col code : Nat) : State :=
  let n := (s.engine c e).next
  let s := (s.ledger c e col n (t - n)).count c (some e.num) code n (t - n) 1
  s.updEngine c e fun q => { q with next := max q.next t, wait := none }

/-- Stall limit of the executable that a core runs (R138). -/
def State.stallOf (s : State) (j : Job) : Nat :=
  match s.loaded j.fn with
  | some l => l.stall
  | none => 65536

/-- STALL_LIMIT_EXPIRY: the WAIT or ACQUIRE at the head has not issued by cycle c0 + S (R138). -/
def execStallLimitExpiry (c : CoreId) (e : Eng) (s : State) : Host.Outcome State Fault Refusal :=
  match (s.engine c.val e).wait, (s.core c.val).job with
  | some (.counter, c0), some j =>
    .next ((s.standUntil c.val e (c0 + s.stallOf j + 1) 2 0x21).raiseEng c.val e .queueStall 0x01)
  | _, _ => .next s

/-- GRACE_WINDOW_EXPIRY: the instruction that a bobbin refuses has waited its grace window (R184, R186). -/
def execGraceWindowExpiry (c : CoreId) (e : Eng) (s : State) : Host.Outcome State Fault Refusal :=
  match (s.engine c.val e).wait with
  | some (.bobbin _ g consumer, c0) =>
    let s := (s.standUntil c.val e (c0 + g + 1) 2 0x20).updEngine c.val e fun q =>
      { q with waited := AMap.upd 0 q.waited (c0 / 3200) (· + (g + 1)) }
    .next (s.raiseEng c.val e (if consumer then .bobbinUnderrun else .bobbinOverrun) 0x01)
  | _ => .next s

/-! ### Releases -/

/-- Payload of a weft counter increment (table "Weft payloads", R265). -/
def incrementPayload (r : PendRelease) (core : Nat) : BitVec 512 :=
  weftPayload (r.addr.toNat + r.scope.code * 2 ^ 56) (leBytes 2 r.inc ++ leBytes 2 core)

/-- Cycle in which a pending release takes effect: the one after its accesses have completed and the engine's earlier release was
applied or sent (R134, R196). -/
def State.releaseCycle (s : State) (c : Nat) (q : Engine) (r : PendRelease) : Nat :=
  let m := max (max r.ready r.issued) q.relAt
  let t := workAfter (AMap.get 0 q.waited (m / 3200)) m 1
  if r.cover.isEmpty then t else max t (s.nowCycle c)

/-- A later release waits also for the acknowledgement of an increment sent before it to a destination within its scope, a
later signal for any (R134, R196). -/
def PendRelease.behind (r : PendRelease) (op far : Nat) : PendRelease :=
  if r.signal || scopeIncludes r.scope far then { r with cover := r.cover ++ [op] } else r

/-- A pending release or signal takes effect (R134, R196, R198). -/
def State.applyRelease (s : State) (c : CoreId) (e : Eng) (r : PendRelease) : State :=
  let q := s.engine c.val e
  let t := s.releaseCycle c.val q r
  let s := s.updEngine c.val e fun q => { q with releases := q.releases.drop 1, relAt := t }
  let s := if r.signal then s else s.count c.val (some e.num) 0x23 (r.issued + 1) (t - (r.issued + 1)) 1
  let own := s.moduleId
  if r.module = own ∧ aCore r.addr = c.val then
    s.incCounter c.val (aOff r.addr / 8) r.inc r.scope c.val own t e.num
  else
    let far := scopeDist c.val own (aCore r.addr) r.module
    let (s, op) := s.startOp c e [(weftRequest s c.val .increment r.module (incrementPayload r c.val), none)] far none t t
    s.updEngine c.val e fun q => { q with releases := q.releases.map fun l => l.behind op far }

/-- RELEASE_APPLY: the oldest pending release of an engine whose covered accesses have completed is applied to a
counter of its own core, or sent as a weft increment once the injection queue takes it (R196, R106). -/
def execReleaseApply (c : CoreId) (e : Eng) (s : State) : Host.Outcome State Fault Refusal :=
  let q := s.engine c.val e
  match q.releases with
  | [] => .next s
  | r :: _ =>
    let remote := !(r.module == s.moduleId && aCore r.addr == c.val)
    if (r.cover.any fun o => q.openOps.contains o) || (remote && s.weftBusy c.val) then .next s
    else .next (s.applyRelease c e r)

/-! ### The skein barrier -/

/-- The pass belongs to the formed skein of two or more members (R300). -/
def State.inSkein (s : State) (p : Pass) : Bool := s.skein.multi && s.skein.state != .none && s.skein.fn == p.fn

/-- Barrier join or result message: pass, kernel, attempt, clean bit (R259). -/
def barrierMsg (ty : Byte) (pass : W32) (kernel attempt : Nat) (clean : Bool) : StitchMsg :=
  stitchMsg ty (leBytes 4 pass.toNat ++ leBytes 2 kernel ++ leBytes 1 attempt ++ [if clean then 1 else 0])

/-- Kernels of the executable of a function. -/
def State.kernelsOf (s : State) (f : FnId) : List KernelEntry :=
  match s.loaded f with
  | some l => l.exe.kernels
  | none => []

/-- Cores of this member's load image, ascending. -/
def State.memberCores (s : State) (f : FnId) : List Nat :=
  match s.loaded f with
  | some l => (List.range 1728).filter fun c => l.place.any fun p => p.1 == c
  | none => []

/-- The cores of a pass have ended their streams: their engines stand idle (R141). -/
def State.releaseCores (s : State) (k : Nat) : State :=
  (s.jobCores k).foldl (fun s c =>
    let s := ((s.chargeEnd c).closeLedger c (s.stopCycle c)).settleAll c
    s.updCore c fun o =>
      { (o.mapEngines fun q => { q with mode := .idle }) with
        job := none, joined := false, merge := [], armed := [], claims := [], faults := [], atomicHold := none }) s

/-- The barrier of the running kernel resolves at this member (R216). -/
def State.barrierResult (s : State) (k : Nat) (clean : Bool) : State :=
  match s.pass k with
  | none => s
  | some p =>
    let s := s.traceTo p.fn 0x22 (BitVec.ofNat 8 p.fn.val) (leBytes 4 p.number.toNat ++ leBytes 1 p.attempt ++
      [if clean then 1 else 0] ++ leBytes 2 p.kernel ++ leBytes 8 s.clk.frame.toNat)
    let s := if s.inSkein p then { s with skein := { s.skein with joins := [], joinsClean := true } } else s
    if !clean then s.abandon k .abandonedSkein false
    else
      let s := s.setPass k { p with resolved := true, cleanKernels := p.cleanKernels + 1 }
      if p.kernel + 1 < (s.kernelsOf p.fn).length then s else (s.releaseCores k).setPassState k .gating

/-- Kernel number that a pass's current barrier carries: 0xFFFF at the final gate (R382). -/
def Pass.barrierNo (p : Pass) : Nat := if p.state = .gating then 0xFFFF else p.kernel

/-- This member has joined the current barrier or the final gate. -/
def Pass.hasJoined (p : Pass) : Bool :=
  match p.state with
  | .running => p.joined && !p.resolved
  | .gating => p.gated
  | _ => false

/-- The barrier moves on once this member and every child have joined (R216, R260). The clean bit of the final gate
waits in the skein for GATE_RESULT. -/
def State.joinTry (s : State) (k : Nat) : State :=
  match s.pass k with
  | none => s
  | some p =>
    if !p.hasJoined then s
    else if !s.inSkein p then (if p.state = .gating then s else s.barrierResult k p.clean)
    else if !(s.stitchChildren.all fun c => s.skein.joins.any fun j => j.val == c) then s
    else
      let clean := p.clean && s.skein.joinsClean
      let msg := fun (ty : Byte) => barrierMsg ty p.number p.barrierNo p.attempt clean
      if !s.stitchRoot then s.sendTo [s.stitchParent] (msg 0x01)
      else
        let s := s.sendTo s.stitchChildren (msg 0x02)
        if p.state = .gating then { s with skein := { s.skein with gateClean := some clean } }
        else s.barrierResult k clean

/-- Every access and release of a core's engines has completed by the end of the slot group, those that other commands carry out
included (R203). -/
def State.quiet (s : State) (c pass : Nat) : Bool :=
  let k := s.core c
  let now := s.nowCycle c + 32
  (allEngines.all fun e =>
      let q := k.engine e
      q.releases.isEmpty && q.openOps.isEmpty && decide (q.doneWithin 4 < now) && decide (q.relAt < now)) && k.armed.isEmpty &&
    !(k.hold.any fun h => h.pass == pass && h.bobbin.isSome) &&
    !(s.cores.any fun ck => ck.2.hold.any fun h => h.src == c && h.pass == pass)

/-- Every engine of a core that has a stream has issued its BARRIER (R141). -/
def Core.atBarrier (k : Core) : Bool :=
  allEngines.all fun e => match (k.engine e).mode with
    | .barrier _ => true
    | .idle => true
    | _ => false

/-- CORE_BARRIER_JOIN: the core joins; with the last core of the load image the member joins (R203, R216). its operand names
the node, if any, that receives the join as a stitch word with a parity error: the fault makes the clean bit false (R243, R245). -/
def execCoreBarrierJoin (c : CoreJoin) (s : State) : Host.Outcome State Fault Refusal :=
  match (s.core c.core.val).job with
  | none => .next s
  | some j =>
    if (s.core c.core.val).joined || !(s.core c.core.val).atBarrier || !s.quiet c.core.val j.pass then .next s
    else
      let s := ((s.vectors c.core.val (2 ^ 40)).settle c.core.val (s.nowCycle c.core.val + 32)).ripen c.core.val (2 ^ 40)
      let s := match c.parity with
        | some n => s.raise (.core' n.val) .controlParity 0x83 (some j.pass)
        | none => s
      -- such a fault, or one that was still to fall due, has abandoned the pass
      if (s.core c.core.val).job.isNone then .next s
      else
        let s := s.updCore c.core.val fun k => { k with joined := true }
        if (s.memberCores j.fn).all fun d => (s.core d).joined then
          .next ((s.updPass j.pass fun p => { p with joined := true }).joinTry j.pass)
        else .next s

/-- The message of a type that a port's latest stitch flit carried. -/
def State.portMsg (s : State) (p : Nat) (ty : Byte) : Option StitchMsg :=
  match (s.port p).rxMsg with
  | some m => if m.mtype = ty then some m else none
  | none => none

/-- The message of a port has been taken. -/
def State.takeMsg (s : State) (p : Nat) : State := s.updPort p fun q => { q with rxMsg := none }

/-- A state disagreement with the child on a port (R312). -/
def State.disagree (s : State) (k : Nat) (code : Byte) (child : BitVec 12) : State :=
  (s.raise .none' .skeinMismatch code (some k)).breakSkein code child

/-- BARRIER_JOIN: a child's join combines with this member's (R216, R312). -/
def execBarrierJoin (p : PortId) (s : State) : Host.Outcome State Fault Refusal :=
  match s.portMsg p.val 0x01 with
  | none => .next s
  | some m =>
    let s := s.takeMsg p.val
    if !s.stitchChildren.contains p.val then .next s
    else
      match s.curPass s.skein.fn with
      | none => .next s
      | some (k, v) =>
        if v.state ≠ .running ∧ v.state ≠ .gating then .next s
        else
          let child := (s.port p.val).rxSender
          if fld m.msg 0 32 ≠ v.number.toNat then .next (s.disagree k 0x10 child)
          else if fld m.msg 48 8 ≠ v.attempt then .next (s.disagree k 0x11 child)
          else if fld m.msg 32 16 ≠ v.barrierNo then .next (s.disagree k 0x12 child)
          else
            let s := { s with skein := { s.skein with joins := s.skein.joins ++ [p],
                                                      joinsClean := s.skein.joinsClean && bitAt m.msg 56 } }
            .next (s.joinTry k)

/-- BARRIER_RESULT: the result goes down the tree; it lets the next kernel start, ends the final barrier, gives the clean
AND of the final gate, or abandons the pass (R216, R382). -/
def execBarrierResult (p : PortId) (s : State) : Host.Outcome State Fault Refusal :=
  match s.portMsg p.val 0x02 with
  | none => .next s
  | some m =>
    let s := s.takeMsg p.val
    if s.stitchRoot || s.stitchParent != p.val then .next s
    else
      let s := s.sendTo s.stitchChildren m
      let clean := bitAt m.msg 56
      match s.curPass s.skein.fn with
      | none => .next s
      | some (k, v) =>
        if v.number.toNat ≠ fld m.msg 0 32 ∨ v.attempt ≠ fld m.msg 48 8 ∨ v.barrierNo ≠ fld m.msg 32 16 then .next s
        else if v.state = .gating then .next { s with skein := { s.skein with gateClean := some clean } }
        else if v.state = .running then .next (s.barrierResult k clean)
        else .next s

/-- Frame in which the kernel after the running one starts (R215). -/
def State.nextKernel (s : State) (p : Pass) : Nat :=
  p.kernelStart.toNat + (match (s.kernelsOf p.fn)[p.kernel]? with | some e => e.frames | none => 0)

/-- BARRIER_JOIN_DEADLINE: a member that has not joined by the start frame of the next kernel raises QUEUE_STALL 0x04
and enters the barrier unclean (R217). -/
def execBarrierJoinDeadline (f : FnId) (s : State) : Host.Outcome State Fault Refusal :=
  match s.curPass f with
  | none => .next s
  | some (k, p) =>
    if p.state ≠ .running ∨ p.joined = true ∨ s.clk.frame.toNat < s.nextKernel p then .next s
    else
      let late := (s.memberCores f).filter fun c => !(s.core c).joined
      let c := late.headD 0
      let src := match allEngines.find? fun e => (s.engine c e).mode == .running with
        | some e => Src.eng c e
        | none => Src.core' c
      let s1 := s.raise src .queueStall 0x04 (some k)
      if !s.inSkein p then .next s1
      else
        let msg := fun (ty : Byte) => barrierMsg ty p.number p.kernel p.attempt false
        .next (if s.stitchRoot then s1.sendTo s.stitchChildren (msg 0x02) else s1.sendTo [s.stitchParent] (msg 0x01))

end Sys2Proof.Machine
end

