-- ==== Sys2Proof/Machine/Weft.lean ====
section
/-! DEFINITION. Weft: link headers (R254), mesh transit (R233 to R239), routes (R236, R263), the target side with the
core queue and the replay record (R174, R205, R269), and the originator's side (R266 to R268). -/

namespace Sys2Proof.Machine

/-! ### Link flits -/

/-- Header word of a link flit from bits [47:0]: the CRC of header and payload in [63:48] (R254). -/
def linkHeader (low : Nat) (payload : BitVec 512) : W64 :=
  BitVec.ofNat 64 (low % 2 ^ 48 + 2 ^ 48 * (crc16 (leBytes 6 (low % 2 ^ 48) ++ leBytes 64 payload.toNat)).toNat)

/-- The CRC of a link flit is right. -/
def linkOk (hdr : W64) (payload : BitVec 512) : Bool := hdr == linkHeader hdr.toNat payload

/-- Weft type of a code. -/
def wtypeOf : Nat → WType
  | 0 => .write | 1 => .readReq | 2 => .readReply | 3 => .atomic | 4 => .atomicReply | 5 => .ack
  | 6 => .increment | _ => .fencedTarget

/-- Bits [47:0] of a weft header (table "Link flit header"). -/
def weftLow (f : WeftFlit) : Nat :=
  1 + f.kind.code * 2 ^ 2 + f.tag.toNat * 2 ^ 5 + f.src.toNat * 2 ^ 19 + f.dst.toNat * 2 ^ 31 +
    f.attempt.toNat * 2 ^ 43 + f.hops.toNat * 2 ^ 45

/-- The weft flit that a header and a payload spell; `node` is the mesh node at which it enters. -/
def weftOfLink (hdr : W64) (payload : BitVec 512) (node : Nat) : WeftFlit :=
  { kind := wtypeOf (fld hdr 2 3), tag := BitVec.ofNat 14 (fld hdr 5 14), src := BitVec.ofNat 12 (fld hdr 19 12),
    dst := BitVec.ofNat 12 (fld hdr 31 12), attempt := BitVec.ofNat 2 (fld hdr 43 2),
    hops := BitVec.ofNat 3 (fld hdr 45 3), srcNode := BitVec.ofNat 11 node, payload := payload }

/-- Module address of a request. -/
def flitAddr (f : WeftFlit) : MAddr := BitVec.ofNat 48 (fld f.payload 0 48)
/-- Byte count of a write or a read request. -/
def flitCount (f : WeftFlit) : Nat := fld f.payload 48 6 + 1
/-- Payload bytes from byte `i`. -/
def flitBytes (f : WeftFlit) (i n : Nat) : List Byte := leBytes n (fld f.payload (8 * i) (8 * n))

/-- Count on a port record (R439): 0 warp sent, 1 weft sent, 2 CRC, 4 warp header or late, 5 queue, 6 hops or route,
7 replay record. -/
def State.portCount (s : State) (p i : Nat) : State := s.updPort p fun q => { q with counts := AMap.upd 0 q.counts i (· + 1) }

/-- A port carries weft (R251, R263). -/
def Port.usable (q : Port) : Bool := q.state == .full || q.state == .weftOnly

/-- Egress port for a module: the primary, or the alternate while the primary is not usable (R263). -/
def State.route (s : State) (dst : BitVec 12) : Option Nat :=
  let r := s.reg 0 (.fabWeftRoute (Fin.ofNat 4096 dst.toNat))
  if bitAt r 5 && (s.port (fld r 0 5)).usable then some (fld r 0 5)
  else if bitAt r 11 && (s.port (fld r 6 5)).usable then some (fld r 6 5)
  else none

/-- A flit joins a port's egress queue of 16, or is discarded and counted (R264). -/
def State.egress (s : State) (p : Nat) (f : WeftFlit) : State :=
  if 16 ≤ (s.port p).egress.length then s.portCount p 5
  else s.updPort p fun q => { q with egress := q.egress ++ [f] }

/-- A flit with no usable route is discarded and counted (R263); the count stands in the record of its primary port. -/
def State.noRoute (s : State) (dst : BitVec 12) : State :=
  s.portCount (fld (s.reg 0 (.fabWeftRoute (Fin.ofNat 4096 dst.toNat))) 0 5) 6

/-! ### Mesh transit (R233 to R239) -/

/-- A router is bypassed. -/
def State.bypassed (s : State) (c : Nat) : Bool := (s.core c).svc == .bypassed

/-- Attach column of an originator's column for an I/O die: clamped into the span, moved towards its centre past bypassed
edge routers (R236). -/
def State.attachColumn (s : State) (x io : Nat) : Nat :=
  let b := ioBase io
  let y := if io < 2 then 0 else 35
  let col := max b (min x (b + 23))
  let order := if col < b + 12 then (List.range (b + 12 - col)).map (col + ·)
    else (List.range (col - (b + 12) + 1)).map (col - ·)
  (order.find? fun c => !s.bypassed (48 * y + c)).getD col

/-- Position of a flit in the mesh: column, row, order bit, deflections. -/
structure Transit where
  x : Nat
  y : Nat
  yFirst : Bool
  defl : Nat
  deriving DecidableEq, Repr

/-- Where a flit goes: a core, or an I/O die at a column. -/
structure MeshDest where
  x : Nat
  y : Nat
  /-- Output of the edge row that leads to the I/O die: 0 north, 2 south; 4 for a core. -/
  out : Nat
  deriving DecidableEq, Repr

/-- Destination of a node (R228). -/
def meshDest (node : Nat) : MeshDest :=
  { x := nodeX node, y := nodeY node, out := if node < 1728 then 4 else if nodeIo node < 2 then 0 else 2 }

/-- Outputs that bring a flit closer: along X, along Y. -/
def closer (t : Transit) (d : MeshDest) : Option Nat × Option Nat :=
  (if t.x < d.x then some 1 else if d.x < t.x then some 3 else none,
   if t.y < d.y then some 2 else if d.y < t.y then some 0 else none)

/-- The output that a route order names. -/
def namedOut (t : Transit) (d : MeshDest) : Nat :=
  match closer t d with
  | (some a, some b) => if t.yFirst then b else a
  | (some a, none) => a
  | (none, some b) => b
  | (none, none) => d.out

/-- The neighbour position at a mesh output, if there is one. -/
def stepOut (x y : Nat) : Nat → Option (Nat × Nat)
  | 0 => if 0 < y then some (x, y - 1) else none
  | 1 => if x < 47 then some (x + 1, y) else none
  | 2 => if y < 35 then some (x, y + 1) else none
  | 3 => if 0 < x then some (x - 1, y) else none
  | _ => none

/-- Position reached through an output, straight through bypassed routers; none where the mesh ends. -/
def State.landAt (s : State) : Nat → Nat → Nat → Nat → Option (Nat × Nat)
  | 0, _, _, _ => none
  | f + 1, x, y, o => match stepOut x y o with
    | none => none
    | some (a, b) => if s.bypassed (48 * b + a) then s.landAt f a b o else some (a, b)

/-- A flit at (x, y) may take an output: it exists, and no bypassed router behind it is where the flit would have to turn
or end. -/
def State.permitted (s : State) (t : Transit) (d : MeshDest) (o : Nat) : Bool :=
  if o = 4 then decide (d.out = 4 ∧ t.x = d.x ∧ t.y = d.y)
  else if d.out = o ∧ t.x = d.x ∧ t.y = d.y then true
  else (s.landAt 40 t.x t.y o).isSome

/-- The turn router of the flit's order is the next router and is bypassed (R239). -/
def State.turnBlocked (s : State) (t : Transit) (d : MeshDest) (yFirst : Bool) (next : Bool) : Bool :=
  if t.x = d.x ∨ t.y = d.y then false
  else
    let (a, b) := if yFirst then (t.x, d.y) else (d.x, t.y)
    s.bypassed (48 * b + a) && (!next || decide (dist t.x a + dist t.y b = 1))

/-- Where a flit's transit ends. -/
inductive MeshEnd where
  /-- At the destination core or I/O die. -/
  | arrived
  /-- At the router before a bypassed destination (R239). -/
  | fenced
  /-- Discarded (R228, R234). -/
  | dropped
  deriving DecidableEq, Repr

/-- Outputs of a router in a cycle that `mask` leaves and no warp flit takes: warp is placed first (R233). -/
def openOuts (taken : List WarpHop) (mask : BitVec 5) (router n o : Nat) : Bool :=
  mask.getLsbD o && !(taken.any fun h => h.router == router && h.cyc == n && h.out == o)

/-- Cycles of the way from one router to another in a straight line: one a hop, a bridge 5 (R226). -/
def straightCost (t : Transit) (a b : Nat) : Nat := dist t.x a + dist t.y b + 4 * (dist (t.x / 12) (a / 12) + dist (t.y / 12) (b / 12))

/-- The output that a router gives a weft flit, with its order as the router leaves it and whether that is a deflection: none
where no permitted output is free (R233, R239). `open'` says which outputs are free. -/
def State.placeWeft (s : State) (t : Transit) (d : MeshDest) (open' : Nat → Bool) : Transit × Nat × Option (Nat × Bool) :=
  -- the turn of its order lies at the next router, which is bypassed: switch, or keep the order and deflect
  let blocked := s.turnBlocked t d t.yFirst true
  let both := blocked && s.turnBlocked t d (!t.yFirst) false
  let t := if blocked && !both then { t with yFirst := !t.yFirst } else t
  let named := namedOut t d
  let ok := fun (o : Nat) => open' o && s.permitted t d o
  let other := match closer t d with
    | (some a, some b) => if named = a then [b] else [a]
    | _ => []
  if !both && ok named then (t, named, some (named, false))
  else (t, named, (((other ++ [0, 1, 2, 3]).filter fun o => o != named).find? ok).map fun o => (o, true))

/-- The next router at an output is the flit's destination, and is bypassed (R239). -/
def State.meetsBypassed (s : State) (t : Transit) (d : MeshDest) (o : Nat) : Bool :=
  d.out == 4 && (stepOut t.x t.y o).any fun p => decide (p = (d.x, d.y)) && s.bypassed (48 * p.2 + p.1)

/-- One flit crosses the mesh, router by router, from cycle `n`, numbered from frame 0: `taken` are the outputs of the warp
flits, `free` the outputs that other weft flits leave at the routers that it meets, all of them beyond its end; router `bad`
finds a parity error in the header. It ends at the router of the answered position. -/
def State.transit (s : State) (d : MeshDest) (taken : List WarpHop) (bad : Option CoreId) :
    Nat → Transit → List (BitVec 5) → Nat → State × MeshEnd × Transit
  | 0, t, _, n => (s.countAt (48 * t.y + t.x) none 0x33 n 1 1, .dropped, t)
  | f + 1, t, free, n =>
    let here := 48 * t.y + t.x
    if bad.any fun (b : CoreId) => b.val == here then (s.raiseCore here .controlParity 0x81, .dropped, t)
    else
      let s := s.countAt here none 0x31 n 1 1
      match s.placeWeft t d (openOuts taken (free.headD 0x1F) here n) with
      | (t, named, choice) =>
        if s.meetsBypassed t d named then (s, .fenced, t)
        else match choice with
          | none => (s.countAt here none 0x33 n 1 1, .dropped, t)
          | some (o, defl) =>
            if defl ∧ 15 ≤ t.defl then (s.countAt here none 0x33 n 1 1, .dropped, t)
            else
              let s := if defl then s.countAt here none 0x32 n 1 1 else s
              let t := if defl then { t with defl := t.defl + 1 } else t
              if o = d.out ∧ t.x = d.x ∧ t.y = d.y then (s, .arrived, t)
              else match s.landAt 40 t.x t.y o with
                | none => (s, .dropped, t)
                | some (a, b) => s.transit d taken bad f { t with x := a, y := b } (free.drop 1) (n + straightCost t a b)

/-! ### Sending -/

/-- The router at which a node meets the mesh. -/
def edgeRouter (node : Nat) : Nat := 48 * nodeY node + nodeX node

/-- Node on this module that a flit from column `x` goes to: the target core or I/O die, the core of a reply's transaction, or
the I/O die of the egress port (R228, R236, R263, R323). -/
def State.flitNode (s : State) (x : Nat) (f : WeftFlit) : Option Nat :=
  let ioAt := fun (d : Nat) => ioNode d (s.attachColumn x d - ioBase d)
  if f.dst = s.moduleId then
    if isRequest f.kind then
      let c := aCore (flitAddr f)
      if aSpace (flitAddr f) = 5 then (if c < 4 then some (ioAt c) else none)
      else if c < 1728 then some c else none
    else (AMap.get none s.txns f.tag.toNat).map fun (t : Txn) => t.core.val
  else (s.route f.dst).map fun p => ioAt (p / 8)

/-- A FENCED_TARGET reply to a request (R238, R239). -/
def fencedReply (s : State) (node : Nat) (f : WeftFlit) (detail : Byte) : WeftFlit :=
  { kind := .fencedTarget, tag := f.tag, src := s.moduleId, dst := f.src, attempt := f.attempt, hops := 0,
    srcNode := BitVec.ofNat 11 node, payload := BitVec.ofNat 512 detail.toNat }

/-- A flit has reached the end of its transit on this module: a port's egress queue, or its core. -/
def State.landFlit (s : State) (f : WeftFlit) : State :=
  if f.dst = s.moduleId then { s with inflight := s.inflight ++ [f] }
  else match s.route f.dst with
    | some p => s.egress p f
    | none => s.noRoute f.dst

/-- First cycle of the current slot group, numbered from frame 0. -/
def State.meshNow (s : State) : Nat := 3200 * s.clk.frame.toNat + 32 * (s.clk.sg % 100)

/-- A flit crosses from node to node from cycle `n` on; from an I/O die it enters at the edge router of its destination's
column, over the bridge (R225, R226). Two ports of one I/O die need no mesh. -/
def State.cross (s : State) (src dst : Nat) (free : List (BitVec 5)) (n : Nat) (bad : Option CoreId) : State × MeshEnd × Nat :=
  if 1728 ≤ src ∧ 1728 ≤ dst ∧ nodeIo src = nodeIo dst then (s, .arrived, edgeRouter src)
  else
    let d := meshDest dst
    let x := if src < 1728 then nodeX src else s.attachColumn d.x (nodeIo src)
    let r := s.transit d (s.warpInFlight.flatMap (·.hops)) bad 256 { x := x, y := nodeY src, yFirst := false, defl := 0 } free
      (if src < 1728 then n else n + 5)
    (r.1, r.2.1, 48 * r.2.2.y + r.2.2.x)

/-- A reply that a router, an I/O die or a core out of service makes crosses the mesh: no command gives its free outputs, so
all are. A reply for a tag that is not outstanding is counted where it arises (R239, R267). -/
def State.sendReply (s : State) (f : WeftFlit) (src : Nat) : State :=
  match s.flitNode (nodeX src) f with
  | none => if f.dst = s.moduleId then s.countNow (edgeRouter src) 0x39 else s.noRoute f.dst
  | some node => match s.cross src node [] s.meshNow none with
    | (s, .arrived, _) => s.landFlit f
    | (s, _, _) => s

/-- A flit crosses the mesh to its node: whether it arrives. The router before a bypassed destination answers a request
(R239). -/
def State.carry (s : State) (f : WeftFlit) (src node : Nat) (free : List (BitVec 5)) (n : Nat) (bad : Option CoreId) :
    State × Bool :=
  match s.cross src node free n bad with
  | (s, .arrived, _) => (s, true)
  | (s, .dropped, _) => (s, false)
  | (s, .fenced, r) => (if isRequest f.kind then s.sendReply (fencedReply s node f 0x02) r else s, false)

/-- Whether the output that the flit's order names at its own router is free and permitted: injection never deflects (R235,
R239). -/
def State.mayInject (s : State) (c : Nat) (d : MeshDest) (free : List (BitVec 5)) (n : Nat) : Bool :=
  let t : Transit := { x := coreX c, y := coreY c, yFirst := false, defl := 0 }
  let r := s.placeWeft t d (openOuts (s.warpInFlight.flatMap (·.hops)) (free.headD 0x1F) c n)
  s.meetsBypassed r.1 d r.2.1 || (r.2.2.any fun o => !o.2)

/-- A request leaves: its transmission and the time of it (R267, R268). -/
def State.transmitted (s : State) (f : WeftFlit) : State :=
  match AMap.get none s.txns f.tag.toNat with
  | some t => if isRequest f.kind then
      { s with txns := AMap.set none s.txns f.tag.toNat (some { t with sent := max 1 t.sent, at' := s.clk.timebase.toNat }) } else s
  | none => s

/-- WEFT_INJECTION: in cycle `cycle` of the core's kernel the oldest flit of its injection queue enters the mesh if the output
that it names is free, and crosses it; issued flits follow into the queue (R106, R233 to R239, R246, R266). `outs` names
the outputs that other weft flits leave and the router that finds a parity error (R228). -/
def execWeftInjection (c : CoreId) (cycle : Nat) (outs : MeshOuts) (s : State) :
    Host.Outcome State Fault Refusal :=
  if !s.serving c.val || (!s.scheduled && cycle % 4 != c.val % 4) then .next s
  else
    let s := s.enterQueue c cycle
    match (s.core c.val).injq with
    | [] => .next s
    | o :: rest =>
      if cycle < o.start then .next s
      else
        let n := s.kernelBase c.val + cycle
        let take := fun (s : State) => (s.updCore c.val fun k => { k with injq := rest }).enterQueue c cycle
        match s.flitNode (coreX c.val) o.flit with
        | none => .next (if o.flit.dst = s.moduleId then take s else ((take s).transmitted o.flit).noRoute o.flit.dst)
        | some node =>
          if !s.mayInject c.val (meshDest node) outs.free n then .next (s.countAt c.val none 0x34 n 1 1)
          else match ((take s).transmitted o.flit).carry o.flit c.val node outs.free n outs.parity with
            | (s, true) => .next (s.landFlit o.flit)
            | (s, false) => .next s

/-! ### The target -/

/-- Flit of class weft at a port that receives: none where the CRC fails, which is counted (R254). -/
def State.linkFlit (s : State) (p : Nat) (hdr : W64) (payload : BitVec 512) : Option (State × Option WeftFlit) :=
  if (s.port p).state == .disabled || fld hdr 0 2 != 1 then none
  else if !linkOk hdr payload then some (s.portCount p 2, none)
  else if !(s.port p).usable then none
  else some (s, some (weftOfLink hdr payload (1728 + 24 * (p / 8))))

/-- A flit joins a port's ingress queue of 32, or is discarded and counted (R264). -/
def State.ingressAdd (s : State) (p : Nat) (f : WeftFlit) : State :=
  if 32 ≤ (s.port p).ingress.length then s.portCount p 5
  else s.updPort p fun q => { q with ingress := q.ingress ++ [f] }

/-- The I/O die passes on the flit at a port: to its node on this module, whether it arrives there; or, with one more hop, to
the I/O die of its egress port (R263, R264). -/
def State.fromPort (s : State) (p : Nat) (f : WeftFlit) (free : List (BitVec 5)) : State × Bool :=
  let src := 1728 + 24 * (p / 8)
  if f.dst = s.moduleId then
    match s.flitNode (nodeX src) f with
    | none => (if isRequest f.kind then s else s.countNow (edgeRouter src) 0x39, false)
    | some node => s.carry f src node free s.meshNow none
  else if f.hops.toNat = 7 then (s.portCount p 6, false)
  else match s.route f.dst with
    | none => (s.portCount p 6, false)
    | some q =>
      match s.carry f src (ioNode (q / 8) (s.attachColumn (nodeX src) (q / 8) - ioBase (q / 8))) free s.meshNow none with
      | (s, true) => (s.egress q { f with hops := f.hops + 1 }, false)
      | (s, false) => (s, false)

/-- A flit that arrives at a port waits in the ingress queue behind others, or while the die's output into the mesh is not
free; else it goes on in the weft position in which it came (R264). -/
def State.atPort (s : State) (p : Nat) (f : WeftFlit) (free : List (BitVec 5)) : State × Bool :=
  if !(s.port p).ingress.isEmpty || !(free.headD 0x1F).getLsbD 0 then (s.ingressAdd p f, false)
  else s.fromPort p f (free.drop 1)

/-- The ingress queue serves its oldest flits, one per weft position; no command gives their free outputs, so all are (R264). -/
def State.drainIngress (s : State) (p : Nat) : Nat → State
  | 0 => s
  | n + 1 => match (s.port p).ingress with
    | [] => s
    | f :: rest =>
      let r := (s.updPort p fun q => { q with ingress := rest }).fromPort p f []
      (if r.2 then r.1.landFlit f else r.1).drainIngress p n

/-- The flit of a command, with the state that has taken it: from the mesh of this module, or over a port, from which it has
crossed the mesh; none where the command names no such flit (R228, R254). -/
def State.takeWeft (s : State) (v : WeftVia) (ty : WType) : Option (State × Option WeftFlit) :=
  match v with
  | .mesh f => if s.inflight.contains f ∧ f.kind = ty then some ({ s with inflight := s.inflight.erase f }, some f) else none
  | .port p hdr payload free =>
    match s.linkFlit p.val hdr payload with
    | some (s, some f) =>
      if f.kind = ty ∧ f.dst = s.moduleId then
        let r := s.atPort p.val f free
        some (r.1, if r.2 then some f else none)
      else none
    | r => r

/-- Put a flit that a target has made on its way from a core: it waits in the injection queue, or is discarded and counted
where 16 flits wait (R235, R270); a core that is not in service answers from its router (R238). -/
def State.reply (s : State) (c : Nat) (f : WeftFlit) : State :=
  if !s.serving c then s.sendReply f c
  else if 16 ≤ (s.core c).injq.length then s.countNow c 0x33
  else s.updCore c fun k => { k with injq := k.injq ++ [{ flit := f, start := 0, eng := .fxe, op := 0, localAddr := none }] }

/-- A reply to a request with a payload. -/
def replyFlit (s : State) (c : Nat) (f : WeftFlit) (kind : WType) (payload : BitVec 512) : WeftFlit :=
  { kind := kind, tag := f.tag, src := s.moduleId, dst := f.src, attempt := f.attempt, hops := 0,
    srcNode := BitVec.ofNat 11 c, payload := payload }

/-- Replay record entry of a request (R269). -/
def State.recorded (s : State) (f : WeftFlit) : Option Replay := s.replay.find? fun r => r.src == f.src && r.tag == f.tag

/-- The replay record without the entry of a key. -/
def State.unrecord (s : State) (f : WeftFlit) : State :=
  { s with replay := s.replay.filter fun r => !(r.src == f.src && r.tag == f.tag) }

/-- Ticks of the weft timeout (FAB_WEFT_CFG) and of the weft lifetime W, 80 µs (R267, R268). -/
def State.weftTimeout (s : State) : Nat := 8000 * s.pf .fabWeftCfg 0 10
def weftLifetime : Nat := 640000

/-- Weft retry count of FAB_WEFT_CFG. -/
def State.weftRetries (s : State) : Nat := s.pf .fabWeftCfg 10 2

/-- A time lies in the current slot group or before it. -/
def State.due (s : State) (t : Nat) : Bool := decide (t < s.clk.timebase.toNat + 32 * s.clk.period.toNat)

/-- Time to which the entry of an atomic or an increment stays (R269). -/
def State.replayEnd (s : State) (r : Replay) : Nat := r.at' + s.weftRetries * s.weftTimeout + weftLifetime

/-- An entry that may give way: a write's, or an expired one (R269). -/
def State.evictable (s : State) (r : Replay) : Bool :=
  !r.keep || (r.reply.isSome && decide (s.replayEnd r ≤ s.clk.timebase.toNat))

/-- The record without the oldest entry that may give way. -/
def evictOne (give : Replay → Bool) : List Replay → List Replay
  | [] => []
  | r :: t => if give r then t else r :: evictOne give t

/-- Store an entry, oldest first; a write's entry is not stored where every entry must stay (R269). -/
def State.record (s : State) (f : WeftFlit) (keep : Bool) (reply : Option WeftFlit) : State :=
  let s := s.unrecord f
  let l := if 4096 ≤ s.replay.length then evictOne s.evictable s.replay else s.replay
  if 4096 ≤ l.length then s
  else { s with replay := l ++ [{ src := f.src, tag := f.tag, keep := keep, reply := reply, at' := s.clk.timebase.toNat }] }

/-- An atomic or increment finds no free or evictable entry. -/
def State.recordFull (s : State) (f : WeftFlit) : Bool :=
  let s := s.unrecord f
  decide (4096 ≤ s.replay.length) && s.replay.all fun r => !s.evictable r

/-- A write to I/O-die space: reserved bytes are ignored (R323). -/
def State.writeIoDie (s : State) (d o : Nat) (data : List Byte) : State :=
  let s := s.writeNow (absAddr 5 d o) (data.take (0x3C0F000 - o))
  s.writeNow (absAddr 5 d (max o 0x3F00000)) (data.drop (0x3F00000 - o))

/-- A write or a read of the I/O-die space of this module (R323): the die's own memory, with no core queue. -/
def State.ioTarget (s : State) (f : WeftFlit) : State :=
  let d := aCore (flitAddr f)
  let o := aOff (flitAddr f)
  let n := flitCount f
  let abs := absAddr 5 d o
  if 4 ≤ d || decide (0x4000000 < o + n) then s
  else match f.kind with
    | .write =>
      (match if f.attempt ≠ 0 then s.recorded f else none with
        | some r => (match r.reply with | some x => s.sendReply x (1728 + 24 * d) | none => s)
        | none =>
          let r := replyFlit s (1728 + 24 * d) f .ack 0
          let s := s.writeIoDie d o (flitBytes f 8 (min 56 n))
          (s.record f false (some r)).sendReply r (1728 + 24 * d))
    | .readReq =>
      let bs := memGet s.mem abs n
      s.sendReply (replyFlit s (1728 + 24 * d) f .readReply (BitVec.ofNat 512 (leNat bs))) (1728 + 24 * d)
    | _ => s

/-- What a target does with a request before it executes: the core's service state (R238), the replay record (R269), the
address (R161, R345, R404). `run` gets the target core and the absolute address. -/
def State.target (s : State) (f : WeftFlit) (n : Nat) (spaces : List Nat) (via : WeftVia)
    (run : State → Nat → Nat → State) : State :=
  let c := aCore (flitAddr f)
  if aSpace (flitAddr f) = 5 then s.ioTarget f
  else if 1728 ≤ c then s
  else if !s.serving c then
    s.sendReply (fencedReply s c f (if (s.core c).svc = .fenced then 0x01 else 0x02)) c
  else
    let denied := fun (d : Byte) => s.raiseCore c .accessDenied d
    let replayed := if f.attempt ≠ 0 ∧ f.kind ≠ .readReq then s.recorded f else none
    match replayed with
    | some r => (match r.reply with
      | some x => s.reply c x
      | none => s.countNow c 0x18)
    | none =>
      if (f.kind == .atomic || f.kind == .increment) && s.recordFull f then
        match via with
        | .port p _ _ _ => s.portCount p.val 7
        | .mesh _ => s.countNow c 0x18
      else
        match s.ownerOf c with
        | none => denied 0x72
        | some (_, p) =>
          if !spaces.contains (aSpace (flitAddr f)) || (f.kind == .increment && decide (0x200 ≤ aOff (flitAddr f))) then denied 0x70
          else match s.resolve p.fn (flitAddr f) n with
            | .error d => denied d
            | .ok (_, abs) => run s c abs

/-- Queue a weft access at a core; a full queue drops it (R174). -/
def State.enqueue (s : State) (c : Nat) (a : QAccess) : State :=
  if 8 ≤ (s.core c).queue.length then s.countNow c 0x18
  else s.updCore c fun k => { k with queue := k.queue ++ [a] }

/-- WEFT_WRITE (R204, R269). -/
def execWeftWrite (v : WeftVia) (s : State) : Host.Outcome State Fault Refusal :=
  match s.takeWeft v .write with
  | none => .next s
  | some (s, none) => .next s
  | some (s, some f) =>
    .next (s.target f (flitCount f) [1, 2] v fun s c abs =>
      s.enqueue c { kind := .write, addr := abs, data := flitBytes f 8 (min 56 (flitCount f)), len := min 56 (flitCount f), flit := some f, fn := 0 })

/-- WEFT_READ_REQUEST (R269). -/
def execWeftReadRequest (v : WeftVia) (s : State) : Host.Outcome State Fault Refusal :=
  match s.takeWeft v .readReq with
  | none => .next s
  | some (s, none) => .next s
  | some (s, some f) =>
    .next (s.target f (flitCount f) [1, 2] v fun s c abs =>
      s.enqueue c { kind := .read, addr := abs, data := [], len := (flitCount f), flit := some f, fn := 0 })

/-- WEFT_ATOMIC: it takes a pending entry when the queue accepts it (R205, R269). -/
def execWeftAtomic (v : WeftVia) (s : State) : Host.Outcome State Fault Refusal :=
  match s.takeWeft v .atomic with
  | none => .next s
  | some (s, none) => .next s
  | some (s, some f) =>
    .next (s.target f 8 [1] v fun s c abs =>
      let a : QAccess := { kind := .atomic, addr := abs, data := flitBytes f 8 16, len := 8, flit := some f, fn := 0 }
      if 8 ≤ (s.core c).queue.length then s.enqueue c a else (s.enqueue c a).record f true none)

/-- WEFT_COUNTER_INCREMENT: it takes effect on arrival with its tag (R136, R137, R174). -/
def execWeftCounterIncrement (v : WeftVia) (s : State) : Host.Outcome State Fault Refusal :=
  match s.takeWeft v .increment with
  | none => .next s
  | some (s, none) => .next s
  | some (s, some f) =>
    .next (s.target f 8 [4] v fun s c _ =>
      let s := s.incCounter c (aOff (flitAddr f) / 8 % 64) (fld f.payload 64 16) (scopeOf (fld f.payload 56 3))
        (fld f.payload 80 16) f.src (s.nowCycle c) 4
      let r := replyFlit s c f .ack 0
      (s.record f true (some r)).reply c r)

/-! ### The core queue (R174, R205) -/

/-- First cycle from `t` on, in at most `f` steps, in which the port cycles are free. -/
def freeFrom (claims : List Claim) (ports : Nat → List Claim) : Nat → Nat → Nat
  | 0, t => t
  | f + 1, t => if (ports t).any fun a => claims.any fun b => a.meets b then freeFrom claims ports f (t + 1) else t

/-- Port cycles of an access to an absolute address in a cycle; a weft or host-window access takes free cycles only, and is no
engine (R174, R175). -/
def queuePorts (a n cyc : Nat) (write : Bool) : List Claim := portsOf (a / 2 ^ 44) (a % 2 ^ 32) n cyc 5 write

/-- A weft or host-window write lands in a cycle of the core's kernel, at once where the core runs none (R191, R204). -/
def State.queueWrite (s : State) (c t a : Nat) (data : List Byte) (marks : List (Nat × EccMark)) : State :=
  let s := (s.clearEcc (a / 2 ^ 44) a data.length).putMarks a marks
  if (s.core c).job.isNone then s.writeNow a data
  else (s.writeAt c t a data 5).updCore c fun k => { k with claims := k.claims ++ queuePorts a data.length t true }

/-- Result of an atomic: 0 add, 1 swap, 2 compare-and-swap (R120). -/
def atomicResult (op old operand compare : Nat) : Nat :=
  match op with
  | 0 => (old + operand) % 2 ^ 64
  | 1 => operand
  | _ => if old = compare then operand else old

/-- The access at the front of a core's queue is carried out in cycle `t`, with its reply. An atomic writes in the next free
write cycle (R205). -/
def State.runAccess (s : State) (c t : Nat) (a : QAccess) : State :=
  let rd := fun (s : State) => s.updCore c fun k => { k with claims := k.claims ++ queuePorts a.addr a.len t false }
  match a.kind, a.flit with
  | .write, some f =>
    let s := s.queueWrite c t a.addr a.data f.marks
    let r := replyFlit s c f .ack 0
    (s.record f false (some r)).reply c r
  | .read, some f =>
    (rd s).reply c { replyFlit s c f .readReply (BitVec.ofNat 512 (leNat (s.readAt c t a.addr a.len))) with
                     marks := s.marksAt a.addr a.len }
  | .atomic, some f =>
    let old := leNat (s.readAt c t a.addr 8)
    let v := atomicResult (fld f.payload 54 2) old (leNat (a.data.take 8)) (leNat (a.data.drop 8))
    let u := freeFrom (s.core c).claims (fun u => queuePorts a.addr 8 u true) 4096 (t + 1)
    let s := ((rd s).queueWrite c u a.addr (leBytes 8 v) []).updCore c fun k => { k with atomicHold := some (a.addr / 256, u) }
    let r := replyFlit s c f .atomicReply (BitVec.ofNat 512 old)
    (s.record f true (some r)).reply c r
  | .hostRead, _ => (rd s).emit (.windowData a.fn (s.readAt c t a.addr a.len))
  | .hostWrite, _ => s.queueWrite c t a.addr a.data []
  | _, none => s

/-- Error code of the words that a queued access reads: a corrected error is counted, an uncorrectable one is a fault
against the core and the access is not carried out (R177). -/
def State.checkAccess (s : State) (c : Nat) (a : QAccess) : State × Bool :=
  let sp := a.addr / 2 ^ 44
  if a.kind = .write ∨ a.kind = .hostWrite then (s, true)
  else
    match eccWorst s.ecc (eccWord sp) a.addr a.len with
    | none => (s, true)
    | some .correctable => ((s.raiseCore c .eccCorrected (eccDetail sp)).countNow c 0x19, true)
    | some .uncorrectable => (s.raiseCore c .eccUncorrectable (eccDetail sp), false)

/-- A queued access may take cycle `t`: its ports are free, and no atomic holds its granule (R174, R205). -/
def State.portsFree (s : State) (c t : Nat) (a : QAccess) : Bool :=
  let k := s.core c
  let write := a.kind == .write || a.kind == .hostWrite
  k.job.isNone ||
    (!((queuePorts a.addr (if write then a.data.length else a.len) t write).any fun x => k.claims.any fun b => x.meets b) &&
      !(k.atomicHold.any fun h => h.1 == a.addr / 256 && decide (t ≤ h.2)))

/-- The oldest queued access of a core is carried out in the first free cycle from now on. -/
def State.landFront (s : State) (c : Nat) : State :=
  match (s.core c).queue with
  | [] => s
  | a :: rest =>
    let write := a.kind == .write || a.kind == .hostWrite
    let ports := fun u => queuePorts a.addr (if write then a.data.length else a.len) u write
    let t := freeFrom (s.core c).claims ports 4096 (max (s.nowCycle c) (s.core c).horizon)
    let r := (s.updCore c fun k => { k with queue := rest }).checkAccess c a
    if r.2 then r.1.runAccess c t a else match a.flit with
      | some f => if a.kind = .atomic then r.1.unrecord f else r.1
      | none => r.1

/-- The posted writes of a function at a core land, with what waits before them. -/
def State.landPosted (s : State) (f : FnId) (c : Nat) : Nat → State
  | 0 => s
  | n + 1 => if (s.core c).queue.any fun a => a.kind == .hostWrite && a.fn == f then (s.landFront c).landPosted f c n else s

/-- A host-window read completes behind the function's posted writes: those that wait at other cores have landed (R206). -/
def State.postedLand (s : State) (f : FnId) (but : Option Nat) : State :=
  s.cores.foldl (fun s (ck : Nat × Core) => if but = some ck.1 then s else s.landPosted f ck.1 8) s

/-- WEFT_ACCESS_LAND: the oldest queued access takes a free cycle of the port that it needs (R174, R175, R191). -/
def execWeftAccessLand (c : CoreCycle) (s : State) : Host.Outcome State Fault Refusal :=
  match (s.core c.core.val).queue with
  | [] => .next s
  | a :: rest =>
    let t := max c.cycle (s.core c.core.val).horizon
    if !s.portsFree c.core.val t a then .next s
    else
      let s := s.updCore c.core.val fun k => { k with queue := rest }
      let s := if a.kind = .hostRead then s.postedLand a.fn (some c.core.val) else s
      let (s, ok) := s.checkAccess c.core.val a
      .next (if ok then s.runAccess c.core.val t a else
        match a.flit with
        | some f => if a.kind = .atomic then s.unrecord f else s
        | none => s)

/-- The first weft access of a queue, and the queue without it. -/
def firstWeft : List QAccess → Option (QAccess × List QAccess)
  | [] => none
  | a :: t => if a.flit.isSome then some (a, t) else (firstWeft t).map fun r => (r.1, a :: r.2)

/-- CORE_QUEUE_TIMEOUT: a weft access that has waited 4,096 cycles is dropped and counted; an atomic loses its pending
entry (R174, R269). -/
def execCoreQueueTimeout (c : CoreId) (s : State) : Host.Outcome State Fault Refusal :=
  match firstWeft (s.core c.val).queue with
  | none => .next s
  | some (a, rest) =>
    let s := (s.updCore c.val fun k => { k with queue := rest }).countNow c.val 0x18
    match a.flit with
    | some f => .next (if a.kind = .atomic then s.unrecord f else s)
    | none => .next s

/-- REPLAY_ENTRY_EXPIRY: retries × timeout + W after it was stored, an entry for an atomic or an increment becomes free
(R269). -/
def execReplayEntryExpiry (src : BitVec 12) (tag : BitVec 14) (s : State) : Host.Outcome State Fault Refusal :=
  .next { s with replay := s.replay.filter fun r =>
            !(r.src == src && r.tag == tag && r.reply.isSome && s.due (s.replayEnd r)) }

/-! ### The originator (R120, R266 to R268) -/

/-- Outstanding transaction of a tag. -/
def State.txn (s : State) (tag : BitVec 14) : Option Txn := AMap.get none s.txns tag.toNat

/-- A transaction completes: its tag returns, its operation advances, and a retransmission that has not left does not leave
(R268). -/
def State.endTxn (s : State) (tag : BitVec 14) (t : Txn) : State :=
  let keep := fun (o : OutFlit) => !(isRequest o.flit.kind && o.flit.attempt != 0 && o.flit.tag == tag)
  ({ s with txns := AMap.erase tag.toNat s.txns }.updCore t.core.val fun k =>
    { k with injq := k.injq.filter keep, staged := k.staged.filter keep }).opStep t.op

/-- A reply's data is written to the local buffer of its request by the issuing engine, with the errors that its code carries
(R101, R106, R120). -/
def State.replyWrite (s : State) (t : Txn) (data : List Byte) (marks : List (Nat × EccMark)) : State :=
  match t.localAddr with
  | none => s
  | some a =>
    let c := t.core.val
    match s.resolve t.fn a data.length with
    | .error d => s.raiseEng c t.eng .accessDenied d
    | .ok (_, abs) =>
      let n := max (s.nowCycle c) (s.core c).horizon
      let ok := match (s.core c).job with
        | some j => s.bobAccess c j t.eng.num { space := aSpace a, off := aOff a, len := data.length, write := true } n 0x03
        | none => .ok s
      match ok with
      | .error f => s.raiseEng c t.eng f.1 f.2
      | .ok s => s.queueWrite c n abs data marks

/-- An originator takes a reply: the first for an outstanding tag is accepted, every other is discarded and counted
(R267, R268). -/
def State.originator (s : State) (f : WeftFlit) (act : State → Txn → State) : State :=
  match s.txn f.tag with
  | none => s.countNow (edgeRouter f.srcNode.toNat) 0x39
  | some t =>
    if t.replied then s.countNow t.core.val 0x39
    else
      let s := act s t
      if t.sent ≤ 1 ∨ t.at' + weftLifetime ≤ s.clk.timebase.toNat then s.endTxn f.tag t
      else { s with txns := AMap.set none s.txns f.tag.toNat (some { t with replied := true }) }

/-- WEFT_READ_REPLY (R267). -/
def execWeftReadReply (v : WeftVia) (s : State) : Host.Outcome State Fault Refusal :=
  match s.takeWeft v .readReply with
  | none => .next s
  | some (s, none) => .next s
  | some (s, some f) => .next (s.originator f fun s t => s.replyWrite t (flitBytes f 0 (flitCount t.flit)) f.marks)

/-- WEFT_ATOMIC_REPLY: the old value is written (R120). -/
def execWeftAtomicReply (v : WeftVia) (s : State) : Host.Outcome State Fault Refusal :=
  match s.takeWeft v .atomicReply with
  | none => .next s
  | some (s, none) => .next s
  | some (s, some f) => .next (s.originator f fun s t => s.replyWrite t (flitBytes f 0 8) [])

/-- WEFT_ACKNOWLEDGEMENT (R267). -/
def execWeftAcknowledgement (v : WeftVia) (s : State) : Host.Outcome State Fault Refusal :=
  match s.takeWeft v .ack with
  | none => .next s
  | some (s, none) => .next s
  | some (s, some f) => .next (s.originator f fun s _ => s)

/-- FENCED_TARGET_REPLY: the fault is recorded against the issuing engine, and the tag returns (R239). -/
def execFencedTargetReply (v : WeftVia) (s : State) : Host.Outcome State Fault Refusal :=
  match s.takeWeft v .fencedTarget with
  | none => .next s
  | some (s, none) => .next s
  | some (s, some f) =>
    .next (s.originator f fun s t =>
      s.raise (.eng t.core.val t.eng) .fencedTarget (BitVec.ofNat 8 (fld f.payload 0 8)) (some t.pass))

/-- WEFT_TIMEOUT_EXPIRY: at the weft timeout after its latest transmission the request is sent again with its tag and the next attempt number, or the last attempt raises
WEFT_TIMEOUT; an abandoned attempt sends nothing again (R219, R267). -/
def execWeftTimeoutExpiry (tag : BitVec 14) (s : State) : Host.Outcome State Fault Refusal :=
  match s.txn tag with
  | none => .next s
  | some t =>
    if t.replied || t.sent == 0 || !s.due (t.at' + s.weftTimeout) then .next s
    else
      let c := t.core.val
      let s := s.countNow c 0x38
      if t.dead then .next s
      else if s.weftRetries ≤ t.flit.attempt.toNat then .next (s.raise (.eng c t.eng) .weftTimeout 0x01 (some t.pass))
      else
        let f := { t.flit with attempt := t.flit.attempt + 1 }
        let s := { s with txns := AMap.set none s.txns tag.toNat (some { t with flit := f, sent := t.sent + 1 }) }
        .next ((s.updCore c fun k => { k with staged := k.staged ++
                [{ flit := f, start := 0, eng := t.eng, op := t.op, localAddr := t.localAddr }] }).enterQueue t.core (s.nowCycle c))

/-- WEFT_LIFETIME_EXPIRY: W after its latest transmission, a transaction that has its reply, or whose attempt was
abandoned, completes (R219, R268). -/
def execWeftLifetimeExpiry (tag : BitVec 14) (s : State) : Host.Outcome State Fault Refusal :=
  match s.txn tag with
  | none => .next s
  | some t => .next (if (t.replied || t.dead) && s.due (t.at' + weftLifetime) then s.endTxn tag t else s)

/-- WEFT_FORWARD: a flit that arrives at a port for another module crosses the mesh to the I/O die of its egress port with hops
raised by 1, or is discarded and counted (R263, R264). -/
def execWeftForward (v : WeftVia) (s : State) : Host.Outcome State Fault Refusal :=
  match v with
  | .mesh _ => .next s
  | .port p hdr payload free =>
    match s.linkFlit p.val hdr payload with
    | none => .next s
    | some (s, none) => .next s
    | some (s, some f) => if f.dst = s.moduleId then .next s else .next (s.atPort p.val f free).1

end Sys2Proof.Machine
end

