-- ==== Sys2Proof/Machine/Warp.lean ====
section
/-! DEFINITION. Warp at a port and at a core: arrivals over a link, the receive deadline, delivery from the hold buffer,
and the flits that send entries put on the wire (R114, R117, R185, R230, R256, R258). -/

namespace Sys2Proof.Machine

/-- A warp entry of the running pass: its number, entry, core and armed bobbin. -/
structure WarpUse where
  n : Nat
  w : WarpEntry
  c : Nat
  /-- Bobbin of the instruction that armed it, or none: a reduction's entry, or one that is not armed. -/
  bobbin : Option Nat
  armed : Bool
  deriving DecidableEq, Repr

/-- Warp entries of a kind of the executable that a function runs, with the cores that own them. -/
def State.warpUses (s : State) (fn : FnId) (kind : Byte) : List WarpUse :=
  match s.loaded fn with
  | none => []
  | some l => l.exe.warps.zipIdx.filterMap fun (wi : WarpEntry × Nat) =>
      match if wi.1.kind = kind then l.coreOf wi.1.vcore else none with
      | none => none
      | some c =>
        match (s.core c).armed.find? fun a => a.entry == wi.2 && a.send == (kind == 0x01) with
        | some a => some { n := wi.2, w := wi.1, c := c, bobbin := some a.bobbin, armed := true }
        | none => some { n := wi.2, w := wi.1, c := c, bobbin := none,
                         armed := match wi.1.reduction with
                           | some r => (s.red fn r).isSome
                           | none => false }

/-- Flit of an entry that travels at (frame, slot group, position). -/
def flitAt (place : Nat → Nat × Nat × Nat) (flits : Nat) (f sg pos : Nat) : Option Nat :=
  (List.range flits).find? fun i => decide (place i = (f, sg, pos))

/-- Functions that run a pass. -/
def State.runningFns (s : State) : List (FnId × Nat × Pass) :=
  s.allPasses.filterMap fun kp => if kp.2.state = .running then some (kp.2.fn, kp.1, kp.2) else none

/-- Module identifier of a virtual module of the skein. -/
def State.moduleOf (s : State) (v : Nat) : Option (BitVec 12) := s.skein.plan[v]?

/-- A port carries warp: full service, warp enabled, warp service started by the skein and not withdrawn (R251, R281,
R308). -/
def State.warpPort (s : State) (p : Nat) : Bool :=
  (s.port p).state == .full && (s.port p).warpOn && !s.clk.warpLost && s.scheduled &&
    s.pf (.fabPortCtrl (Fin.ofNat 32 p)) 3 1 == 1

/-- A flit that its port discards, at a place counted as absent (R258). -/
def State.warpMismatch (s : State) (p : Nat) (place : Nat × Nat × Nat) : State :=
  (s.portCount p 4).updPort p fun q => { q with mismatched := q.mismatched ++ [place] }

/-- WARP_FLIT_ARRIVAL: the header is checked against the receive entry of its position, and the flit waits for its
deadline; a late flit is discarded and counted (R254, R258). -/
def execWarpFlitArrival (p : PortId) (hdr : W64) (payload : BitVec 512) (s : State) : Host.Outcome State Fault Refusal :=
  if (s.port p.val).state = .disabled ∨ fld hdr 0 2 ≠ 0 then .next s
  else if !linkOk hdr payload then .next (s.portCount p.val 2)
  else if (s.port p.val).state ≠ .full then .next s
  else
    let sg := fld hdr 22 7
    let pos := fld hdr 29 6
    let late := fun (u : WarpUse) (f : Nat) => decide (slotCycle (f + u.w.latClass) sg + 39 + pos < s.nowCycle u.c) ||
      (s.port p.val).passed.contains (f + u.w.latClass, sg, pos)
    let cand := s.runningFns.flatMap fun fk =>
      ((s.warpUses fk.1 0x02).filter fun u => u.w.port == p.val).flatMap fun u =>
        (List.range u.w.flits).filterMap fun i =>
          let (f, g, q) := warpPlace u.w i
          if g = sg ∧ q = pos ∧ late u f = false then some (u, f) else none
    match cand.find? fun c => c.2 % 256 == fld hdr 14 8 && s.moduleOf c.1.w.peer == some (BitVec.ofNat 12 (fld hdr 2 12)) with
    | some (u, f) =>
      .next (s.updPort p.val fun q => { q with
        warp := q.warp ++ [{ frame := f + u.w.latClass, sg := sg, pos := pos, payload := payload }] })
    | none =>
      match cand with
      | [] => .next (s.portCount p.val 4)
      | c :: t =>
        let (u, f) := t.foldl (fun (m : WarpUse × Nat) x => if x.2 < m.2 then x else m) c
        .next (s.warpMismatch p.val (f + u.w.latClass, sg, pos))

/-- Raise the faults that flits on their way give: at a router, or at the node that a discarded flit comes from (R229, R238). -/
def State.warpFaults (s : State) (pass : Nat) (fs : List (Nat × Nat × Byte)) : State :=
  fs.foldl (fun s f => s.raise (if f.2.1 < 1728 then .core' f.2.1 else .io (nodeIo f.2.1)) .controlParity f.2.2 (some pass)) s

/-- A flit whose deadline has come is injected towards its core, in scheduled mode (R229, R238, R246, R256). -/
def State.portInject (s : State) (u : WarpUse) (l : Loaded) (pass i : Nat) (payload : BitVec 512) : State :=
  if !s.scheduled then s
  else
    let node := l.portNode u.w u.n u.c
    let (f, sg, p) := recvPlace u.w i
    let inj := slotCycle f sg + 40 + p
    let bob := match (s.core u.c).job, u.bobbin with
      | some j, some b => (s.bobs j).find? fun o => o.num == b
      | _, _ => none
    let h : HeldWarp := {
      src := node, inj := inj, due := slotCycle f sg + 64 + 16 * nodeSteps u.c node + p, pass := pass,
      addr := (match bob with | some b => bobAddr b u.c i | none => BitVec.ofNat 48 (absAddr 0 u.c 0)),
      data := leBytes 64 payload.toNat, bobbin := some ((u.bobbin.getD 256), i, u.w.flits - 1), entry := some u.n }
    let way := s.warpWay node u.c (s.passBase pass + inj)
    let r := s.launch [({ core := u.c, held := some h, entry := 0, flit := 0, hops := way.1 }, way.2)]
    r.1.warpFaults pass r.2

/-- WARP_DEADLINE: `frame` is the frame offset of the landing. The flit goes to its core, or is absent: WARP_LATE, 0x02
after a mismatch (R256, R258). -/
def execWarpDeadline (p : PortId) (frame : Nat) (sg : Fin 100) (pos : Fin 44) (s : State) :
    Host.Outcome State Fault Refusal :=
  let at' := fun (u : WarpUse) => flitAt (recvPlace u.w) u.w.flits frame sg.val pos.val
  let here := s.runningFns.findSome? fun fk =>
    ((s.warpUses fk.1 0x02).find? fun u => u.armed && u.w.port == p.val && (at' u).isSome).map fun u => (fk, u)
  let q := s.port p.val
  let is' := fun (w : PortWarp) => w.frame == frame && w.sg == sg.val && w.pos == pos.val
  let drop := s.updPort p.val fun q => { q with warp := q.warp.filter fun w => !is' w,
                                                mismatched := q.mismatched.filter fun m => m != (frame, sg.val, pos.val),
                                                passed := q.passed ++ [(frame, sg.val, pos.val)] }
  match here with
  | none => .next drop
  | some (fk, u) =>
    let i := (at' u).getD 0
    match q.warp.find? is', s.loaded fk.1 with
    | some w, some l =>
      let s := drop.portInject u l fk.2.1 i w.payload
      .next (if i + 1 = u.w.flits then
        s.updCore u.c fun k => { k with armed := k.armed.filter fun a => !(a.entry == u.n && !a.send) } else s)
    | _, _ =>
      .next (drop.raise (.eng u.c .fxe) .warpLate (if q.mismatched.contains (frame, sg.val, pos.val) then 0x02 else 0x01)
        (some fk.2.1))

/-! ### Delivery -/

/-- A flit of an FRECV lands in its bobbin: EMPTY for the first, FILLING for the others; the last marks it full and
increments the entry's counter (R114, R185). -/
def State.landRecv (s : State) (c : Nat) (j : Job) (h : HeldWarp) (b i last : Nat) : State :=
  let v := (AMap.get Bobbin.reset (s.core c).bobbins b).settle (s.core c).horizon
  let w := match s.loaded j.fn, h.entry with
    | some l, some n => l.exe.warps[n]?
    | _, _ => none
  let want : BobState := if i = 0 then .empty else .filling
  match (s.bobs j).find? fun o => o.num == b with
  | none => s.stopFault c .fxe h.due .bobbinOverrun 0x02
  | some d =>
    if v.state ≠ want ∨ v.view h.due ≠ want then s.stopFault c .fxe h.due .bobbinOverrun 0x02
    else
      match s.resolve j.fn h.addr 64 with
      | .error e => s.stopFault c .fxe h.due .accessDenied e
      | .ok (_, abs) =>
        match s.claimArrival c h.due (portsOf d.space (abs % 2 ^ 32) 64 h.due 4 true) with
        | none => (s.count c (some 4) 0x17 h.due 1 1).stopFault c .fxe h.due .controlParity 0x70
        | some s =>
          let v' := if i = last then { v with count := 0 }.enter h.due .full
            else { v with count := 64 * (i + 1) }.enter h.due .filling
          let s := s.updCore c fun k => { k with bobbins := AMap.set Bobbin.reset k.bobbins b v' }
          let s := (s.writeAt c h.due abs h.data 4).clearEcc d.space abs 64
          match w with
          | some w => if i = last then s.entryCounter c w.counter h.due else s
          | none => s

/-- A flit of a reduction joins its segment; a whole segment goes to the reduction (R117). -/
def State.landRed (s : State) (c : Nat) (j : Job) (n : Nat) (h : HeldWarp) : State :=
  (s.updCore c fun k => { k with redBuf := AMap.upd [] k.redBuf n (· ++ [h.data]) }).redDrain j.fn

/-- WARP_DELIVERY: the flit of a hold buffer entry is written in its delivery cycle (R230, R173, R185). A router of its way that
has found a parity error in its header has discarded it instead (R228). -/
def execWarpDelivery (c : CoreId) (entry : HoldEntry) (s : State) :
    Host.Outcome State Fault Refusal :=
  let due := (s.core c.val).hold.filter fun h => h.due % 128 == entry.entry.val
  match due with
  | [] => .next s
  | h0 :: t =>
    let h := t.foldl (fun m o => if o.due < m.due then o else m) h0
    let s := s.updCore c.val fun k => { k with hold := k.hold.erase h }
    match entry.parity.filter fun r => (warpHops h.src c.val h.inj).any fun p => p.router == r.val with
    | some r => .next (s.raiseCore r.val .controlParity 0x81)
    | none =>
      if !s.serving c.val then
        .next (s.raise (if h.src < 1728 then .core' h.src else .io (nodeIo h.src)) .controlParity 0x82 (some h.pass))
      else
        match (s.core c.val).job with
        | none => .next s
        | some j =>
          if j.pass ≠ h.pass then .next s
          else
            match h.bobbin, h.entry with
            | some (b, i, last), some n =>
              let red := match s.loaded j.fn with
                | some l => (match l.exe.warps[n]? with | some w => w.reduction.isSome | none => false)
                | none => false
              .next (if red then s.landRed c.val j n h else s.landRecv c.val j h b i last)
            | _, _ =>
              let space := aSpace h.addr
              let ports := match s.resolve j.fn h.addr h.data.length with
                | .ok (_, abs) => portsOf space (abs % 2 ^ 32) h.data.length h.due 4 true
                | .error _ => []
              .next (State.arrived c.val h.due (s.arrive c.val j.fn 5 h.addr h.data h.marks h.due ports))

/-! ### Sending -/

/-- Bits [47:0] of a warp header (table "Link flit header"). -/
def warpLow (m : BitVec 12) (frame sg pos : Nat) : Nat :=
  m.toNat * 2 ^ 2 + frame % 256 * 2 ^ 14 + sg * 2 ^ 22 + pos * 2 ^ 29

/-- Send a link flit on a port. -/
def State.sendLink (s : State) (p : Nat) (low : Nat) (payload : BitVec 512) : State :=
  s.emit (.flit (Fin.ofNat 32 p) (linkHeader low payload) payload)

/-- The payload of flit `i` of an FSEND entry, fetched from its bobbin in the first cycle, from the fetch cycle to the send
cycle, in which the bobbin permits it (R114, R177, R185, R256). -/
def State.fetchFlit (s : State) (c : Nat) (j : Job) (b i fetch : Nat) : Except (Cause × Byte) (List Byte × State) :=
  match (s.bobs j).find? fun o => o.num == b with
  | none => .error (.bobbinUnderrun, 0x02)
  | some d =>
    let v := AMap.get Bobbin.reset (s.core c).bobbins b
    match (List.range 17).find? fun k => permits (v.view (fetch + k)) false with
    | none => .error (.bobbinUnderrun, 0x02)
    | some k =>
      let t := fetch + k
      match s.resolve j.fn (bobAddr d c i) 64 with
      | .error e => .error (.accessDenied, e)
      | .ok (_, abs) =>
        match eccWorst s.ecc (eccWord d.space) abs 64 with
        | some .uncorrectable => .error (.eccUncorrectable, eccDetail d.space)
        | m =>
          match bobCount d (v.settle t) false 64 t 0x02 with
          | .error f => .error f
          | .ok v' =>
            let data := s.readAt c t abs 64
            let s := s.updCore c fun k => { k with bobbins := AMap.set Bobbin.reset k.bobbins b v' }
            .ok (data, if m.isSome then s.raiseRecs c .fxe t [(.eccCorrected, eccDetail d.space)] else s)

/-- One flit of a send entry leaves on the wire in the current slot group, unless a router has discarded it (R229, R255,
R256). -/
def State.sendFlit (s : State) (l : Loaded) (pass : Nat) (p : Pass) (u : WarpUse) (i : Nat) : State :=
  let (f, sg, pos) := warpPlace u.w i
  let c := u.c
  let d := nodeSteps c (l.portNode u.w u.n c)
  let lost := (s.core c).armed.any fun a => a.send && a.entry == u.n && a.lost.contains i
  let data : Except (Cause × Byte) (List Byte × State) :=
    match u.w.reduction, (s.core c).job, u.bobbin with
    | some r, _, _ =>
      (match s.red p.fn r, l.exe.reds[r]? with
        | some v, some e =>
          let mine := (l.exe.warps.zipIdx.filter fun (w : WarpEntry × Nat) =>
            w.1.kind == 0x01 && w.1.reduction == some r).findIdx? fun w => w.2 == u.n
          (match redSegment l v e (mine.getD 0) p.number with
            | some bs => .ok (padTo 64 0 ((bs.drop (64 * i)).take 64), s)
            | none => .error (.bobbinUnderrun, 0x02))
        | _, _ => .error (.bobbinUnderrun, 0x02))
    | none, some j, some b => s.fetchFlit c j b i (slotCycle f sg + pos - 104 - 16 * d)
    | _, _, _ => .error (.bobbinUnderrun, 0x02)
  match data with
  | .error e => s.raise (.eng c .fxe) e.1 e.2 (some pass)
  | .ok (bs, s) =>
    let s := if lost then s
      else (s.sendLink u.w.port (warpLow s.moduleId f sg pos) (BitVec.ofNat 512 (leNat bs))).portCount u.w.port 0
    if i + 1 = u.w.flits then
      let s := s.updCore c fun k => { k with armed := k.armed.filter fun a => !(a.entry == u.n && a.send) }
      s.entryCounter c u.w.counter (slotCycle f sg)
    else s

/-- A flit that travels in the current slot group. -/
structure SlotFlit where
  fn : FnId
  key : Nat
  pass : Pass
  prog : Loaded
  use : WarpUse
  flit : Nat
  pos : Nat

/-- The warp flits of the current slot group (R256). -/
def State.slotFlits (s : State) : List SlotFlit :=
  s.runningFns.flatMap fun fk => match s.loaded fk.1 with
    | none => []
    | some l => ((s.warpUses fk.1 0x01).filter fun u => u.armed && s.warpPort u.w.port).flatMap fun u =>
        (List.range u.w.flits).filterMap fun i =>
          let (f, sg, pos) := warpPlace u.w i
          if f = s.clk.frame.toNat - fk.2.2.kernelStart.toNat ∧ sg = s.clk.sg then
            some { fn := fk.1, key := fk.2.1, pass := fk.2.2, prog := l, use := u, flit := i, pos := pos }
          else none

/-- The warp positions of the current slot group, in their order (R255, R256). -/
def State.sendWarp (s : State) : State :=
  let l := s.slotFlits
  State.redFaults <| (List.range 44).foldl (fun s pos =>
    (l.filter fun (o : SlotFlit) => o.pos == pos).foldl (fun s o => s.sendFlit o.prog o.key o.pass o.use o.flit) s) s

end Sys2Proof.Machine
end

