-- ==== Sys2Proof/Machine/Skein.lean ====
section
/-! DEFINITION. Skeins (R300 to R319): formation by agreement records, the control messages, pass offers (R309 to R312),
collectives and gate contributions on the stitch lane (R115, R382), detaching and rejoining. -/

namespace Sys2Proof.Machine

/-! ### State changes -/

/-- Complete the FORM descriptor that is in progress. -/
def State.completeForm (s : State) (st : Status) : State :=
  match s.skein.desc with
  | some (r, i) => ({ s with skein := { s.skein with desc := none } }).finish s.skein.fn r i st
  | none => s

/-- Ports of the skein: the stitch tree and the warp entries (R303, R308). -/
def State.skeinPorts (s : State) (fn : FnId) : List Nat :=
  (s.treePorts ++ (match s.loaded fn with
    | some l => (l.exe.warps.filter fun w => (l.coreOf w.vcore).isSome).map fun w => w.port
    | none => [])).eraseDups

/-- The module is its own time root (CLK_TIME_CTRL.root). -/
def State.timeRoot (s : State) : Bool := s.pf .clkTimeCtrl 5 1 == 1

/-- Warp service starts on the skein ports of a FORMED member; after a time fault only once the module has been within
tolerance for 16 frames (R281, R308, R316). -/
def State.resumeWarp (s : State) : State :=
  if s.skein.state != .formed || (s.clk.warpLost && !s.timeRoot && decide (s.clk.tolFrames < 16)) then s
  else
    let s := (s.skeinPorts s.skein.fn).foldl (fun s p => s.updPort p fun q =>
      if q.state = .full then { q with warpOn := true } else q) s
    { s with clk := { s.clk with warpLost := false } }

/-- The member enters FORMED (R308, R316). -/
def State.enterFormed (s : State) : State := (s.setSkein .formed).resumeWarp

/-- FORM has resolved well: FORM completes with DONE, the pass counter is 0 (R308). -/
def State.formDone (s : State) : State :=
  let s := { s with skein := { s.skein with passNo := 0 } }
  s.enterFormed.completeForm .done

/-- REFUSED reaches a member from its parent, or leaves the root (R307). -/
def State.formRefused (s : State) (field : Byte) (m : BitVec 12) : State :=
  let s := { s with skein := { s.skein with field := field, module := m } }
  ((s.raise .none' .skeinMismatch field none).completeForm .rejectedState).leaveSkein

/-- The module leaves warp service: a time fault, or an announced code that it does not accept (R281, R295, R315). -/
def State.detach (s : State) : State :=
  let s := { s with clk := { s.clk with warpLost := true, tolFrames := 0 } }
  if s.skein.state = .formed ∧ s.skein.multi then
    (s.sendTo s.treePorts (controlMsg 0x03 s.skein.id s.moduleId 0 0)).setSkein .detached
  else s

/-- The pass of the skein that a module-wide fault touches (R315). -/
def State.skeinPass (s : State) : Option Nat :=
  if s.skein.multi && s.skein.state != .none then (s.curPass s.skein.fn).map (·.1) else none

/-- The pass of the skein in RUNNING or GATING; admitted passes wait in DETACHED (R301, R315). -/
def State.skeinRunning (s : State) : Option Nat :=
  s.skeinPass.filter fun k => (s.pass k).any fun p => p.state == .running || p.state == .gating

/-- TIME_OFFSET or CLOCK_FAULT 0x03 on this member (R281, R295, R315). -/
def State.timeFault (s : State) (c : Cause) (d : Byte) : State := (s.raise .none' c d s.skeinRunning).detach

/-! ### Agreement records -/

/-- Bytes of the skein plan: identifier, size, member identifiers, two bytes each (R303 preamble, R304). -/
def planBytes (id : BitVec 16) (plan : List (BitVec 12)) : List Byte :=
  leBytes 2 id.toNat ++ leBytes 2 plan.length ++ plan.flatMap fun m => leBytes 2 m.toNat

/-- The agreement record (table "Agreement record", R304), byte i in bits [8i+7:8i]. -/
def State.agreementRecord (s : State) : BitVec 512 :=
  let k := s.skein
  let l := s.loaded k.fn
  let lib := match s.library with
    | some l => leBytes 2 l.minor.toNat ++ leBytes 2 l.abi.toNat
    | none => [0, 0, 0, 0]
  BitVec.ofNat 512 (leNat (
    leBytes 16 (match l with | some l => (Exe.hash l.exe).toNat | none => 0) ++ lib ++ leBytes 1 3 ++ leBytes 1 s.clk.period.toNat ++
    leBytes 2 k.plan.length ++ leBytes 8 s.clk.epoch.toNat ++
    leBytes 8 (match l with | some l => l.exe.slotMapHash.toNat | none => 0) ++
    leBytes 4 (s.fn k.fn.val).activeGen.toNat ++ (sha256 (planBytes k.id k.plan)).take 8 ++ leBytes 2 k.id.toNat))

/-- Fields of the record: first byte, length, field code. -/
def recordFields : List (Nat × Nat × Byte) :=
  [(0, 16, 0x01), (16, 4, 0x02), (20, 1, 0x03), (21, 1, 0x04), (22, 2, 0x09), (24, 8, 0x05), (32, 8, 0x06),
   (40, 4, 0x07), (44, 8, 0x08), (52, 2, 0x0A), (54, 10, 0x0B)]

/-- Lowest field code in which a part differs from the same part of a record, if any (R306, R307). -/
def partDiffers (rec : BitVec 512) (part : Nat) (v : BitVec 128) : Option Byte :=
  let bad := recordFields.filter fun f => (List.range f.2.1).any fun i =>
    let b := f.1 + i
    decide (16 * part ≤ b ∧ b < 16 * part + 16) && fld rec (8 * b) 8 != fld v (8 * (b - 16 * part)) 8
  bad.foldl (fun (m : Option Byte) f => match m with
    | some c => some (if f.2.2.toNat < c.toNat then f.2.2 else c)
    | none => some f.2.2) none

/-- The four parts of a record (R306). -/
def recordParts (id : BitVec 16) (rec : BitVec 512) (rejoin : Bool) : List StitchMsg :=
  (List.range 4).map fun (p : Nat) =>
    stitchMsg 0x06 (leBytes 1 (p + (if rejoin then 4 else 0)) ++ leBytes 2 id.toNat ++ leBytes 16 (fld rec (128 * p) 128))

/-- Send messages in order on ports. -/
def State.sendAll (s : State) (ports : List Nat) (ms : List StitchMsg) : State := ms.foldl (fun s m => s.sendTo ports m) s

/-- Every child's four parts have matched: this member's own go up, or the root forms the skein (R306). -/
def State.formTry (s : State) : State :=
  match s.skein.record with
  | none => s
  | some rec =>
    let all := s.stitchChildren.all fun c => [0, 1, 2, 3].all fun i => s.skein.got.any fun g => g.1.val == c && g.2 == i
    if s.skein.state ≠ .forming || !all then s
    else if !s.stitchRoot then s.sendAll [s.stitchParent] (recordParts s.skein.id rec false)
    else (s.sendTo s.stitchChildren (controlMsg 0x01 s.skein.id s.moduleId 0 0)).formDone

/-- A record differs (R307): REFUSED goes up in place of the member's parts; the root forwards it in the next slot
group, the lowest field code and then the lowest module of those that meet. -/
def State.refuse (s : State) (field : Byte) (m : BitVec 12) : State :=
  if !s.stitchRoot then s.sendTo [s.stitchParent] (controlMsg 0x02 s.skein.id m field 0)
  else
    let key (v : Byte × BitVec 12) : Nat := v.1.toNat * 4096 + v.2.toNat
    { s with skein := { s.skein with refusal := match s.skein.refusal with
        | some o => some (if key (field, m) < key o then (field, m) else o)
        | none => some (field, m) } }

/-- The first rejoin part of a member differs at the root: the whole skein breaks (R316). -/
def State.rejoinPart (s : State) (part : Nat) (v : BitVec 128) (from' : BitVec 12) : State :=
  let m := s.skein.away.headD from'
  match partDiffers s.agreementRecord part v with
  | some code => (s.raise .none' .skeinMismatch code s.skeinPass).breakSkein code m
  | none =>
    let got := if s.skein.rejoinGot.contains part then s.skein.rejoinGot else s.skein.rejoinGot ++ [part]
    if got.length < 4 then { s with skein := { s.skein with rejoinGot := got } }
    else { s with skein := { s.skein with rejoinGot := [], rejoined := some m } }

/-- One part of a child's record is compared (R306, R307). -/
def State.formPart (s : State) (p : PortId) (sender : BitVec 12) (m : StitchMsg) : State :=
  let part := fld m.msg 0 2
  let v : BitVec 128 := BitVec.ofNat 128 (fld m.msg 24 128)
  match s.skein.record with
  | none => { s with skein := { s.skein with held := s.skein.held ++ [(p, sender, m)] } }
  | some rec =>
    match partDiffers rec part v with
    | some code => s.refuse code sender
    | none => ({ s with skein := { s.skein with got := s.skein.got ++ [(p, part)] } }).formTry

/-- Take what children sent before this member had its own record or offer. -/
def State.takeHeld (s : State) (ty : Byte) (take : State → PortId → BitVec 12 → StitchMsg → State) : State :=
  let (mine, rest) := s.skein.held.partition fun h => h.2.2.mtype == ty
  mine.foldl (fun s h => take s h.1 h.2.1 h.2.2) { s with skein := { s.skein with held := rest } }

/-- The member builds its record, and a leaf sends it (R304, R306). -/
def State.buildRecord (s : State) : State :=
  let s := { s with skein := { s.skein with record := some s.agreementRecord } }
  (s.formTry).takeHeld 0x06 State.formPart

/-! ### Pass offers -/

/-- Pass offer or result message (R309). -/
def offerMsg (pass : W32) (attempt : Nat) (gen : W32) (id : Nat) (result : Bool) : StitchMsg :=
  stitchMsg 0x05 (leBytes 4 pass.toNat ++ leBytes 1 attempt ++ leBytes 4 gen.toNat ++ leBytes 8 id ++
    [if result then 1 else 0, 0])

/-- The start frame is agreed at this member (R310). -/
def State.agreeStart (s : State) (k : Nat) (frame : Nat) : State :=
  let s := s.updPass k fun p => { p with start := some (BitVec.ofNat 64 frame) }
  { s with skein := { s.skein with offers := [], offered := false } }

/-- Slot groups that have begun since frame 0. -/
def State.slotCount (s : State) : Nat := 100 * s.clk.frame.toNat + s.clk.sg % 100

/-- The offer moves on once this member and every child have offered (R309, R310). -/
def State.offerTry (s : State) (k : Nat) : State :=
  match s.pass k with
  | none => s
  | some p =>
    if p.state ≠ .agreeing || p.start.isSome then s
    else if !s.inSkein p then s.updPass k fun p => { p with start := some (BitVec.ofNat 64 (ceilDiv (s.slotCount + 1) 100)) }
    else if !s.skein.offered || !(s.stitchChildren.all fun c => s.skein.offers.any fun o => o.val == c) then s
    else if !s.stitchRoot then
      s.sendTo [s.stitchParent] (offerMsg p.number p.attempt p.gen p.reqId.toNat false)
    else
      let start := ceilDiv (s.slotCount + 2 + 100 * Config.stitchClass) 100
      (s.sendTo s.stitchChildren (offerMsg p.number p.attempt p.gen start true)).agreeStart k start

/-- A child's offer is compared field by field (R309, R312). -/
def State.childOffer (s : State) (p : PortId) (sender : BitVec 12) (m : StitchMsg) : State :=
  match s.curPass s.skein.fn with
  | none => { s with skein := { s.skein with held := s.skein.held ++ [(p, sender, m)] } }
  | some (k, v) =>
    if v.state ≠ .agreeing ∨ s.skein.offered = false then
      { s with skein := { s.skein with held := s.skein.held ++ [(p, sender, m)] } }
    else if fld m.msg 0 32 ≠ v.number.toNat then s.disagree k 0x10 sender
    else if fld m.msg 32 8 ≠ v.attempt then s.disagree k 0x11 sender
    else if fld m.msg 40 32 ≠ v.gen.toNat then s.disagree k 0x13 sender
    else if fld m.msg 72 64 ≠ v.reqId.toNat then s.disagree k 0x14 sender
    else ({ s with skein := { s.skein with offers := s.skein.offers ++ [p] } }).offerTry k

/-- This member makes its pass offer (R309). A detached member makes none (R301). -/
def State.makeOffer (s : State) (k : Nat) : State :=
  match s.pass k with
  | none => s
  | some p =>
    if !s.inSkein p then s.offerTry k
    else if s.skein.state ≠ .formed then s
    else
      let s := { s with skein := { s.skein with offered := true } }
      (s.offerTry k).takeHeld 0x05 State.childOffer

/-- PASS_OFFER: a child's offer, or the result from the parent (R309, R310). -/
def execPassOffer (p : PortId) (s : State) : Host.Outcome State Fault Refusal :=
  match s.portMsg p.val 0x05 with
  | none => .next s
  | some m =>
    let s := s.takeMsg p.val
    let result := bitAt m.msg 136
    if !result then
      .next (if s.stitchChildren.contains p.val then s.childOffer p (s.port p.val).rxSender m else s)
    else if s.stitchRoot || s.stitchParent != p.val then .next s
    else
      let s := s.sendTo s.stitchChildren m
      match s.curPass s.skein.fn with
      | some (k, v) =>
        .next (if v.state = .agreeing ∧ v.number.toNat = fld m.msg 0 32 ∧ v.attempt = fld m.msg 32 8
          then s.agreeStart k (fld m.msg 72 64) else s)
      | none => .next s

/-! ### Records and control messages -/

/-- Skein identifier of a record part or a control message. -/
def msgSkein (m : StitchMsg) : BitVec 16 := BitVec.ofNat 16 (fld m.msg 8 16)

/-- A message with another skein identifier is ignored and counted in the log ring (R308). -/
def State.foreign (s : State) (m : StitchMsg) : State :=
  s.logBoth none 0x05 0xFF (leBytes 19 m.msg.toNat)

/-- AGREEMENT_RECORD_PART (R306, R307, R316). -/
def execAgreementRecordPart (p : PortId) (s : State) : Host.Outcome State Fault Refusal :=
  match s.portMsg p.val 0x06 with
  | none => .next s
  | some m =>
    let s := s.takeMsg p.val
    let sender := (s.port p.val).rxSender
    if msgSkein m ≠ s.skein.id ∨ s.skein.state = .none then .next (s.foreign m)
    else if !s.stitchChildren.contains p.val then .next s
    else if bitAt m.msg 2 then
      .next (if s.stitchRoot then s.rejoinPart (fld m.msg 0 2) (BitVec.ofNat 128 (fld m.msg 24 128)) sender
        else s.sendTo [s.stitchParent] m)
    else .next (if s.skein.state = .forming then s.formPart p sender m else s)

/-- The control message of an operation on a port, with the state that has taken it; a foreign one is counted. -/
def State.control (s : State) (p : PortId) (op : Byte) (run : State → StitchMsg → BitVec 12 → Byte → State) : State :=
  match s.portMsg p.val 0x07 with
  | none => s
  | some m =>
    if fld m.msg 0 8 ≠ op.toNat then s
    else
      let s := s.takeMsg p.val
      if msgSkein m ≠ s.skein.id ∨ s.skein.state = .none then s.foreign m
      else run s m (BitVec.ofNat 12 (fld m.msg 24 12)) (BitVec.ofNat 8 (fld m.msg 40 8))

/-- Tree ports but one. -/
def State.otherPorts (s : State) (p : PortId) : List Nat := s.treePorts.filter fun q => q != p.val

/-- The port leads to the parent. -/
def State.fromParent (s : State) (p : PortId) : Bool := !s.stitchRoot && s.stitchParent == p.val

/-- FORMED (R308). -/
def execFormed (p : PortId) (s : State) : Host.Outcome State Fault Refusal :=
  .next (s.control p 0x01 fun s m _ _ =>
    if s.skein.state = .forming ∧ s.fromParent p = true then (s.sendTo s.stitchChildren m).formDone else s)

/-- REFUSED (R307). -/
def execRefused (p : PortId) (s : State) : Host.Outcome State Fault Refusal :=
  .next (s.control p 0x02 fun s m who field =>
    if s.skein.state ≠ .forming then s
    else if s.fromParent p then (s.sendTo s.stitchChildren m).formRefused field who
    else s.refuse field who)

/-- LEAVE: a member has detached; a running pass of the skein is abandoned here with ABANDONED_SKEIN (R315). -/
def execLeave (p : PortId) (s : State) : Host.Outcome State Fault Refusal :=
  .next (s.control p 0x03 fun s m who _ =>
    let s := s.sendTo (s.otherPorts p) m
    let s := { s with skein := { s.skein with away := (s.skein.away.filter (· != who)) ++ [who] } }
    match s.curPass s.skein.fn with
    | some (k, v) => if v.state = .running ∨ v.state = .gating then s.abandon k .abandonedSkein false else s
    | none => s)

/-- READMIT: the named member returns to FORMED at the frame (R316). -/
def execReadmit (p : PortId) (s : State) : Host.Outcome State Fault Refusal :=
  .next (s.control p 0x04 fun s m who _ =>
    if !s.fromParent p then s
    else
      let s := s.sendTo s.stitchChildren m
      if who = s.moduleId then
        if s.skein.state = .detached then
          { s with skein := { s.skein with readmitAt := some (BitVec.ofNat 64 (fld m.msg 48 64)) } }
        else s
      else { s with skein := { s.skein with away := s.skein.away.filter (· != who) } })

/-- BROKEN (R312, R313). -/
def execBroken (p : PortId) (s : State) : Host.Outcome State Fault Refusal :=
  .next (s.control p 0x05 fun s _ who field => s.breakSkein field who (some p.val))

/-- The member dissolves: at once from BROKEN and FORMING, else once its last pass has completed (R301, R317). -/
def State.dissolveSelf (s : State) : State :=
  match s.skein.state with
  | .forming | .broken => (s.completeForm .rejectedState).leaveSkein
  | .formed | .detached =>
    let s := s.setSkein .dissolving
    if s.allPasses.any fun kp => kp.2.fn == s.skein.fn then s else s.leaveSkein
  | _ => s

/-- DISSOLVE (R317). -/
def execDissolve (p : PortId) (s : State) : Host.Outcome State Fault Refusal :=
  .next (s.control p 0x06 fun s m _ _ => (s.sendTo (s.otherPorts p) m).dissolveSelf)

/-- FORMATION_TIMEOUT: form_timeout ms have elapsed and the member has entered neither FORMED nor NONE (R308). -/
def execFormationTimeout (s : State) : Host.Outcome State Fault Refusal :=
  .next (if (s.skein.state == .forming || s.skein.desc.isSome) ∧ 8000000 * s.pf .fabSkeinCfg 0 14 ≤ (s.clk.timebase - s.skein.formedAt).toNat
    then (s.completeForm .timeout).leaveSkein else s)

/-- AUTO_REJOIN: the four parts of the record go up again with the rejoin bit (R316). -/
def execAutoRejoin (s : State) : Host.Outcome State Fault Refusal :=
  if s.skein.state ≠ .detached ∨ s.pf .fabSkeinCfg 14 1 = 0 ∨ s.clk.tolFrames < 16 then .next s
  else if s.stitchRoot then .next { s with skein := { s.skein with rejoined := some s.moduleId } }
  else .next (s.sendAll [s.stitchParent] (recordParts s.skein.id s.agreementRecord true))

/-- The root sends READMIT once no pass of the skein is busy: the first frame that begins at least one slot group and
the slowest route's class after now (R316). -/
def State.readmitTry (s : State) : State :=
  match s.skein.rejoined with
  | none => s
  | some m =>
    if s.allPasses.any fun kp => kp.2.fn == s.skein.fn && passBusy kp.2.state then s
    else
      let frame := ceilDiv (s.slotCount + 1 + 100 * Config.stitchClass) 100
      let s := s.sendTo s.stitchChildren (controlMsg 0x04 s.skein.id m 0 frame)
      let k := { s.skein with rejoined := none, away := s.skein.away.filter (· != m) }
      { s with skein := if m = s.moduleId then { k with readmitAt := some (BitVec.ofNat 64 frame) } else k }

/-! ### Collectives and the final gate on the stitch lane -/

/-- Operation of a gate entry: XOR for 0xFFFD and 0xFFFE, 64-bit addition for 0xFFFF (R382). -/
def gateOp (entry : Nat) : Nat := if entry = 0xFFFF then 0 else 5

/-- A gate value is known at this member. -/
def State.gateValue (s : State) (entry : Nat) (v : BitVec 128) : State :=
  if entry = 0xFFFD then { s with skein := { s.skein with gateLo := some v } }
  else if entry = 0xFFFE then { s with skein := { s.skein with gateHi := some v } }
  else { s with skein := { s.skein with gateCount := some v } }

/-- A gate entry moves on once this member and every child have contributed (R382). -/
def State.gateTry (s : State) (fn : FnId) (entry : Nat) : State :=
  match s.coll fn entry with
  | none => s
  | some c =>
    if !((s.curPass fn).any fun kp => kp.2.gated) || !(s.stitchChildren.all fun p => c.got.any fun g => g.1.val == p) then s
    else
      let v := c.combined
      let s := { s with colls := s.colls.filter fun d => !(d.fn == fn && d.entry == entry) }
      if !s.stitchRoot then s.sendTo [s.stitchParent] (scolMsg 0x03 entry v)
      else (s.sendTo s.stitchChildren (scolMsg 0x04 entry v)).gateValue entry v

/-- A gate entry that only children have contributed to so far (R382). -/
def Coll.gate (fn : FnId) (entry : Nat) : Coll :=
  { fn := fn, entry := entry, op := gateOp entry, narrow := false, own := none, got := [], dest := [] }

/-- This member's own contribution to a gate entry. -/
def State.gateOwn (s : State) (fn : FnId) (entry : Nat) (v : BitVec 128) : State :=
  (s.setColl { (s.coll fn entry).getD (Coll.gate fn entry) with own := some v }).gateTry fn entry

/-- FSCOL_CONTRIBUTION: a child's contribution combines at this member (R115, R382). -/
def execFscolContribution (p : PortId) (s : State) : Host.Outcome State Fault Refusal :=
  match s.portMsg p.val 0x03 with
  | none => .next s
  | some m =>
    let s := s.takeMsg p.val
    if !s.stitchChildren.contains p.val then .next s
    else
      let fn := s.skein.fn
      let entry := fld m.msg 0 16
      let v : BitVec 128 := BitVec.ofNat 128 (fld m.msg 16 128)
      let add := fun (c : Coll) => s.setColl { c with got := c.got ++ [(p, v)] }
      if 0xFFFD ≤ entry then .next ((add ((s.coll fn entry).getD (Coll.gate fn entry))).gateTry fn entry)
      else match s.coll fn entry, s.collEntry fn entry with
        | some c, _ => .next ((add c).collTry fn entry)
        | none, some e => .next ((add (Coll.start fn entry e.op e.narrow)).collTry fn entry)
        | none, none => .next s

/-- FSCOL_RESULT: the result is relayed and written to this member's destinations (R115, R382). -/
def execFscolResult (p : PortId) (s : State) : Host.Outcome State Fault Refusal :=
  match s.portMsg p.val 0x04 with
  | none => .next s
  | some m =>
    let s := s.takeMsg p.val
    if !s.fromParent p then .next s
    else
      let fn := s.skein.fn
      let entry := fld m.msg 0 16
      let v : BitVec 128 := BitVec.ofNat 128 (fld m.msg 16 128)
      let s := s.sendTo s.stitchChildren m
      if 0xFFFD ≤ entry then .next (s.gateValue entry v)
      else match s.coll fn entry, s.loaded fn with
        | some c, some l => .next (s.collResult c v (((l.exe.colls[entry]?).map fun e => e.counter).getD 0xFF) false 0)
        | _, _ => .next s

end Sys2Proof.Machine
end

