-- ==== Sys2Proof/Machine/Time.lean ====
section
/-! DEFINITION. Time (R259, R275 to R282, R294 to R297, R456): what a stitch flit brings, the correction law, step
announcements and steps, and the two TIME pins. -/

namespace Sys2Proof.Machine

/-! ### Common operations -/

/-- The module runs: it is in no reset and its rails are on. -/
def State.up (s : State) : Bool :=
  match s.power.phase with
  | .ready => true
  | .warmPending _ => true
  | _ => false

/-- Listed period codes (table "Period codes", R277). -/
def periodCodes : List Nat := [10, 11, 12, 13, 14, 16, 20]

/-- Port towards the time parent. -/
def State.timeParent (s : State) : Nat := s.pf .clkTimeCtrl 0 5
/-- The port leads to the time parent. -/
def State.fromTimeParent (s : State) (p : Nat) : Bool := !s.timeRoot && s.timeParent == p
/-- Some port carries warp for a skein (R279, R281). -/
def State.inWarp (s : State) : Bool := !s.clk.warpLost && s.ports.any fun kv => kv.2.warpOn

/-- Core-rail target of a period code in mV, within the fused floor and ceiling (R410). -/
def State.railOf (s : State) (code : Nat) : Nat :=
  max s.fuses.vfloor.toNat (min s.fuses.vceil.toNat (Config.railTarget code))

/-- A step is announced (R294); before a step to a smaller code the core rail rises (R410). -/
def State.announce (s : State) (code : BitVec 5) (frame : W64) : State :=
  { s with clk := { s.clk with pending := code, announced := true, stepFrame := frame },
           power := if code.toNat < s.clk.period.toNat then { s.power with rail := s.railOf code.toNat } else s.power }

/-- The period changes at the start of the current frame, after the pause of 8,000 ticks (R276, R296, R444). -/
def State.stepTo (s : State) (code : BitVec 5) (loc : Bool) : State :=
  let old := s.clk.period
  let start := s.clk.frameStart + 8000
  let s := { s with
    clk := { s.clk with period := code, announced := false, pending := 0, frameStart := start, timebase := start },
    power := { s.power with rail := s.railOf code.toNat },
    obs := { s.obs with steps := ((s.clk.frame.setWidth 32, old, code, loc) :: s.obs.steps).take 16,
                        agreed := if loc then s.obs.agreed else s.obs.agreed + 1,
                        localSteps := if loc then s.obs.localSteps + 1 else s.obs.localSteps } }
  s.traceAll 0x23 (leBytes 8 s.clk.frame.toNat ++ leBytes 1 old.toNat ++ leBytes 1 code.toNat ++ [if loc then 1 else 0])

/-- STEP_FRAME: at the start of the announced frame, the generators relock during the pause (R296). A member that waits to
build its agreement record does so now (R304). -/
def execStepFrame (s : State) : Host.Outcome State Fault Refusal :=
  if !s.up || !s.clk.announced || s.clk.stepFrame != s.clk.frame || s.clk.sg != 100 then .next s
  else
    let s := s.stepTo s.clk.pending false
    .next (if s.skein.state = .forming ∧ s.skein.record.isNone = true then s.buildRecord else s)

/-! ### What a stitch flit brings -/

/-- The time block of a stitch flit that arrives at timebase `t2` (table "Stitch flit payload"). -/
def timeBlock (v : BitVec 512) (t2 : W64) : TimeBlk :=
  { t1 := BitVec.ofNat 64 (fld v 0 64), t2 := t2, t3 := BitVec.ofNat 64 (fld v 64 64),
    echoDelay := BitVec.ofNat 32 (fld v 128 32), residence := BitVec.ofNat 32 (fld v 160 32),
    frame := BitVec.ofNat 32 (fld v 192 32), sg := BitVec.ofNat 8 (fld v 224 8), flags := BitVec.ofNat 8 (fld v 232 8) }

/-- A stitch flit that a port takes: its time block, its abandon and step fields and its message (R259). -/
def State.takeStitch (s : State) (p : PortId) (hdr : W64) (v : BitVec 512) (t2 : W64) : State :=
  let b := timeBlock v t2
  let ty := fld v 352 8
  let code := fld v 296 8
  let wish := !bitAt b.flags 1 && !bitAt b.flags 3
  s.updPort p.val fun q => { q with
    echo := some (b.t1, t2 - b.residence.setWidth 64), rxTime := some b, rxFlags := b.flags,
    rxSender := BitVec.ofNat 12 (fld hdr 2 12),
    rxAbandon := if bitAt b.flags 0 then some (BitVec.ofNat 32 (fld v 256 32), BitVec.ofNat 8 (fld v 288 8)) else none,
    rxStep := if bitAt b.flags 1 then some (BitVec.ofNat 8 code, BitVec.ofNat 32 (fld v 304 32)) else none,
    childWish := if wish then BitVec.ofNat 5 code else 0,
    rxMsg := if 1 ≤ ty ∧ ty ≤ 7 then some { mtype := BitVec.ofNat 8 ty, msg := BitVec.ofNat 152 (fld v 360 152) } else none }

/-- STITCH_FLIT_RECEIVE: a flit whose CRC fails is discarded and counted, and on the stitch tree of a running pass it is a
fault (R254, R259, R262). -/
def execStitchFlitReceive (p : PortId) (ticks : Nat) (hdr : W64) (payload : BitVec 512) (s : State) :
    Host.Outcome State Fault Refusal :=
  if (s.port p.val).state = .disabled ∨ fld hdr 0 2 ≠ 2 then .next s
  else if (s.port p.val).state ≠ .full then .next (if linkOk hdr payload then s else s.portCount p.val 2)
  else if linkOk hdr payload then .next (s.takeStitch p hdr payload (s.clk.timebase + BitVec.ofNat 64 ticks))
  else
    let s := s.portCount p.val 2
    match s.curPass s.skein.fn with
    | some (k, v) =>
      .next (if s.inSkein v && s.treePorts.contains p.val && (v.state == .running || v.state == .gating)
        then s.raise (.io (p.val / 8)) .linkDown 0x92 (some k) else s)
    | none => .next s

/-- Status of a member that learns of a stop, and whether no retry follows (R219, R221). -/
def peerStatus : PeerStop → Status × Bool
  | .fault => (.abandonedSkein, false)
  | .preempt => (.abandonedSkein, true)
  | .reset => (.abandonedSkein, true)
  | .watchdog => (.timeout, true)

/-- ABANDON_NOTICE: the running attempt of the skein is abandoned here, and the notice goes on in the next slot group
(R219, R220). The stitch flit does not carry the sender's reason, which fixes the status: the command gives it. -/
def execAbandonNotice (p : PeerNotice) (s : State) : Host.Outcome State Fault Refusal :=
  match (s.port p.port.val).rxAbandon with
  | none => .next s
  | some (pass, attempt) =>
    let s := s.updPort p.port.val fun q => { q with rxAbandon := none }
    match s.curPass s.skein.fn with
    | some (k, v) =>
      .next (if s.inSkein v && s.treePorts.contains p.port.val && v.number == pass && v.attempt == attempt.toNat
        then s.abandon k (peerStatus p.why).1 (peerStatus p.why).2 else s)
    | none => .next s

/-- STEP_ANNOUNCEMENT: a code that the module accepts is pending until its frame; another is CLOCK_FAULT 0x03, and the
module leaves warp service (R294, R295). -/
def execStepAnnouncement (p : PortId) (s : State) : Host.Outcome State Fault Refusal :=
  match (s.port p.val).rxStep with
  | none => .next s
  | some (code, low) =>
    let s := s.updPort p.val fun q => { q with rxStep := none }
    let ahead := (low - s.clk.frame.setWidth 32).toNat
    let frame := s.clk.frame + BitVec.ofNat 64 ahead
    if !s.fromTimeParent p.val || ahead == 0 || decide (2 ^ 31 ≤ ahead) then .next s
    else if s.clk.stepFrame = frame ∧ s.clk.pending.toNat = code.toNat ∨ s.clk.rejected = some (frame, code.toNat) then .next s
    else if !periodCodes.contains code.toNat || decide (code.toNat < s.fuses.lowestCode.toNat) then
      .next ({ s with clk := { s.clk with rejected := some (frame, code.toNat) } }.timeFault .clockFault 0x03)
    else .next (s.announce (code.setWidth 5) frame)

/-! ### The correction law -/

/-- A number held within bounds. -/
def clampRat (lo hi v : Rat) : Rat := if v < lo then lo else if hi < v then hi else v

/-- Magnitude. -/
def absRat (v : Rat) : Rat := if v < 0 then -v else v

/-- The timebase moved by −theta, and with it every tick that the clock keeps; the 32 fraction bits keep what is below a tick
(R275, R279). -/
def Clock.jump (k : Clock) (theta : Rat) : Clock :=
  let v := ((k.timebase.toNat * 2 ^ 32 + k.fraction.toNat : Nat) : Rat) - theta * (2 ^ 32 : Nat)
  let n := v.floor % (2 ^ 96 : Nat)
  let t := BitVec.ofInt 64 (n / (2 ^ 32 : Nat))
  let by' := t - k.timebase
  { k with timebase := t, fraction := BitVec.ofInt 32 n, integ := 0, frameStart := k.frameStart + by',
           starts := k.starts.map fun v => (v.1, (BitVec.ofNat 64 v.2.1 + by').toNat, v.2.2),
           lastEdge := k.lastEdge.map fun t => t + by' }

/-- The frame and the slot group that the timebase lies in, where frame `f` starts at `start` and every frame has the clock's
period code (R276). -/
def Clock.place (k : Clock) (f start : W64) : Clock :=
  let d := (k.timebase - start).toInt
  let slot : Int := 32 * k.period.toNat
  let n := d / (100 * slot)
  { k with frame := f + BitVec.ofInt 64 n, frameStart := start + BitVec.ofInt 64 (100 * slot * n),
           sg := ((d - 100 * slot * n) / slot).toNat, starts := [] }

/-- Slewing: the integrator and the DCO offset, with a sample interval of `ts` ticks (R279). -/
def Clock.slew (k : Clock) (theta : Rat) (ts : Nat) : Clock :=
  let i := clampRat (-100) 100 (k.integ + theta / 4096)
  let y := clampRat (-200) 200 (theta * 1000000 / ((64 * ts : Nat) : Rat) + i)
  { k with integ := i, dco := -y }

/-- CLK_TIME_STATUS.theta: whole ticks, saturating. -/
def thetaField (theta : Rat) : BitVec 16 := BitVec.ofInt 16 (max (-32768) (min 32767 theta.floor))

/-- Round trip and offset of a sample; none where the sample is discarded (R279). -/
def TimeBlk.theta (b : TimeBlk) : Option Rat :=
  let rt : Int := (b.t2 - b.t3).toInt - b.echoDelay.toNat - b.residence.toNat
  if rt < 0 ∨ rt > 124800 then none
  else some (((b.t2 - b.t1).toInt - b.residence.toNat : Int) - (rt : Rat) / 2)

/-- Start tick of slot group `sg` of the frame with the low bits `f` in the module's own count, with the period code; none
if it is none of the latest frames or the next one. -/
def Clock.expected (k : Clock) (f : W32) (sg : Nat) : Option (Nat × Nat) :=
  let cur := if k.announced ∧ k.stepFrame = k.frame then (k.frameStart.toNat + 8000, k.pending.toNat)
    else (k.frameStart.toNat, k.period.toNat)
  let step := k.announced && k.stepFrame == k.frame + 1
  let next := (cur.1 + 3200 * cur.2 + (if step then 8000 else 0), if step then k.pending.toNat else cur.2)
  let all := (k.frame.toNat + 1, next) :: (k.frame.toNat, cur) :: k.starts.map fun v => (v.1, v.2)
  (all.find? fun v => decide (v.1 % 2 ^ 32 = f.toNat)).map fun v => (v.2.1 + 32 * sg * v.2.2, v.2.2)

/-- The parent's frame and slot group are not the child's own at that slot group (R281). -/
def Clock.differs (k : Clock) (b : TimeBlk) : Bool :=
  match k.expected b.frame b.sg.toNat with
  | none => true
  | some (t, p) => decide (16 * p ≤ dist t b.t1.toNat)

/-- A child that joins takes its parent's frame sequence and epoch (R305): the parent sent its flit at the start of the slot group
that the flit names. Until the parent's period code is known the child keeps its own. The flit does not carry the epoch,
which the command gives. -/
def State.joinTime (s : State) (b : TimeBlk) (theta : Rat) (epoch : W64) : State :=
  let k := (s.clk.jump theta).place (b.frame.setWidth 64) (b.t1 - BitVec.ofNat 64 (32 * b.sg.toNat * s.clk.period.toNat))
  { s with clk := { k with
      epoch := epoch, state := .acquiring, tol := false, announced := false, pending := 0, rejected := none,
      joining := some (b.t1.toNat, 100 * b.frame.toNat + b.sg.toNat) } }

/-- The parent's period code, from two of its flits, at its frame start (R416). -/
def Clock.adopt (k : Clock) (b : TimeBlk) : Clock :=
  match k.joining with
  | none => k
  | some (t0, n0) =>
    let n := 100 * b.frame.toNat + b.sg.toNat
    let code := (b.t1.toNat - t0) / (32 * (n - n0))
    if b.sg ≠ 0 ∨ n ≤ n0 then k
    else if code * (32 * (n - n0)) = b.t1.toNat - t0 ∧ periodCodes.contains code = true then
      { { k with period := BitVec.ofNat 5 code }.place (b.frame.setWidth 64) b.t1 with joining := none }
    else { k with joining := some (b.t1.toNat, n) }

/-- A valid sample that does not make the timebase jump: the offset is slewed out, and the tolerance and the faults of
R281 are evaluated (R279 to R281). -/
def State.sample (s : State) (b : TimeBlk) (theta : Rat) : State :=
  let k := (s.clk.slew theta (32 * s.clk.period.toNat)).adopt b
  let a := absRat theta
  let bad := if 128 < a then k.bad + 1 else 0
  let s := { s with clk := { k with
    theta := thetaField theta, bad := if bad = 4 then 0 else bad, samples := k.samples + 1,
    frameTol := k.frameTol && decide (a ≤ 64), sinceSample := 0, state := if k.tol then .locked else .acquiring } }
  if bad = 4 then s.timeFault .timeOffset 0x01 else s

/-- A parent flit's frame or slot group differs from the child's own count, which the child keeps once it has joined (R281). -/
def State.countDiffers (s : State) (b : TimeBlk) : Bool := s.clk.joining.isNone && s.clk.differs b

/-- TIME_SAMPLE: the latest stitch flit of the time parent (R279 to R281). A sample that is discarded still shows the parent's
count. `epoch` is the frame epoch of the parent's time domain. -/
def execTimeSample (p : PeerTime) (s : State) : Host.Outcome State Fault Refusal :=
  match (s.port p.port.val).rxTime with
  | none => .next s
  | some b =>
    let s := s.updPort p.port.val fun q => { q with rxTime := none }
    if !s.up || !s.fromTimeParent p.port.val then .next s
    else
      let check := fun (s : State) => if s.countDiffers b then s.timeFault .timeOffset 0x03 else s
      match b.theta with
      | none => .next (check s)
      | some theta =>
        .next (if !s.inWarp && decide (1024 < absRat theta)
          then let s := s.joinTime b theta p.epoch
               { s with clk := { s.clk with theta := thetaField theta, sinceSample := 0, samples := s.clk.samples + 1,
                                            frameTol := false, bad := 0 } }
          else check (s.sample b theta))

/-- TIME_SAMPLE_LOSS: no valid sample for 256 slot groups; the DCO holds (R281). -/
def execTimeSampleLoss (s : State) : Host.Outcome State Fault Refusal :=
  if !s.up || s.timeRoot || s.clk.sinceSample < 256 then .next s
  else
    .next ({ s with clk := { s.clk with state := .holdover, tol := false, frameTol := false, sinceSample := 0 } }.timeFault
      .timeOffset 0x02)

/-! ### TIME pins -/

/-- TIME_IN_EDGE: a root that follows TIME_IN takes a sample at the nearest multiple of 8,000,000 ticks; an edge less than
500 µs after the previous one is ignored and counted (R282, R456). -/
def execTimeInEdge (ticks highNs riseNs : Nat) (s : State) : Host.Outcome State Fault Refusal :=
  let now := s.clk.timebase + BitVec.ofNat 64 ticks
  if !s.up || !s.timeRoot || s.pf .clkTimeCtrl 6 1 == 0 || decide (highNs < 100) || decide (10 < riseNs) then .next s
  else if (match s.clk.lastEdge with | some t => decide ((now - t).toNat < 4000000) | none => false) then
    let (ty, s) := s.draw 0x456
    .next (s.logTo pfn (ty.setWidth 8) 0xFF [])
  else
    let low := now.toNat % 8000000
    let theta : Rat := if low < 4000000 then (low : Rat) else (low : Rat) - 8000000
    let s := { s with clk := { s.clk with lastEdge := some now, theta := thetaField theta } }
    .next (if !s.inWarp && decide (1024 < absRat theta) then { s with clk := s.clk.jump theta }
      else { s with clk := s.clk.slew theta 8000000 })

/-- TIME_OUT_PULSE: the pin rises for 1 µs (R282, R456). -/
def execTimeOutPulse (s : State) : Host.Outcome State Fault Refusal :=
  .next (if s.up then (s.emit (.timeOut true)).emit (.timeOut false) else s)

end Sys2Proof.Machine
end

