-- ==== Sys2Proof/Machine/Clock.lean ====
section
/-! DEFINITION. Slot groups and frames (R253, R255, R259 to R261, R276, R289 to R294), kernel starts (R215, R218), the
stretch wave (R286, R287), the lock monitor (R284), ports that train and fail (R250 to R252) and the mesh mode (R246). -/

namespace Sys2Proof.Machine

/-! ### Slot groups -/

/-- The module's own wish (R294). -/
def State.ownWish (s : State) : Nat :=
  let host := if s.pf .clkStepReq 5 1 = 1 then s.pf .clkStepReq 0 5 else 0
  max (max s.power.wish.toNat host) s.fuses.lowestCode.toNat

/-- The largest of the module's wish and the latest wishes of its time children (R294). -/
def State.aggregateWish (s : State) : Nat :=
  s.ports.foldl (fun m (kv : Nat × Port) =>
    if kv.2.state == .full && !s.fromTimeParent kv.1 then max m kv.2.childWish.toNat else m) s.ownWish

/-- The time root announces a step when its aggregate differs from the current code and no step is pending (R294, R297). -/
def State.rootAnnounce (s : State) : State :=
  if s.timeRoot && !s.clk.announced && s.aggregateWish != s.clk.period.toNat then
    s.announce (BitVec.ofNat 5 s.aggregateWish) (s.clk.frame + 16)
  else s

/-- The message that leaves a port first: the lowest type, then the oldest (R261). -/
def firstMsg : List StitchMsg → Option StitchMsg
  | [] => none
  | m :: t => match firstMsg t with
    | some n => some (if n.mtype.toNat < m.mtype.toNat then n else m)
    | none => some m

/-- Payload of the stitch flit that a port sends at the start of the current slot group (table "Stitch flit payload"). -/
def State.stitchPayload (s : State) (p : Nat) (tree : Bool) (m : Option StitchMsg) : BitVec 512 :=
  let q := s.port p
  let up := s.fromTimeParent p
  let ab := if tree then s.skein.abandonOut else none
  let step := s.clk.announced && !up
  let flags := (if ab.isSome then 1 else 0) + (if step then 2 else 0) + (if s.clk.tol then 4 else 0)
    + (if q.childWish != 0 && !up then 8 else 0)
  let (et, ed) := match q.echo with
    | some (tx, at') => (tx.toNat, (s.clk.timebase - at').toNat)
    | none => (0, 0)
  BitVec.ofNat 512 (leNat (
    leBytes 8 s.clk.timebase.toNat ++ leBytes 8 et ++ leBytes 4 ed ++ leBytes 4 0 ++ leBytes 4 s.clk.frame.toNat ++
    leBytes 1 s.clk.sg ++ leBytes 1 flags ++ leBytes 2 0 ++
    leBytes 4 (match ab with | some a => a.1.toNat | none => 0) ++ leBytes 1 (match ab with | some a => a.2.toNat | none => 0) ++
    leBytes 1 (if up then s.aggregateWish else if step then s.clk.pending.toNat else 0) ++
    leBytes 4 (if step then s.clk.stepFrame.toNat else 0) ++ leBytes 2 0 ++
    (match m with | some m => m.mtype :: leBytes 19 m.msg.toNat | none => List.replicate 20 0)))

/-- One port's stitch flit of the slot group (R259, R261). -/
def State.sendStitch (s : State) (p : Nat) : State :=
  let m := firstMsg (s.port p).msgs
  let v := s.stitchPayload p (s.treePorts.contains p) m
  let s := s.sendLink p (2 + s.moduleId.toNat * 4) v
  match m with
  | some m => s.updPort p fun q => { q with msgs := q.msgs.erase m }
  | none => s

/-- Weft positions of a slot group at a period code (table "Flits per slot group"). -/
def weftPositions (code : Nat) (compat : Bool) : Nat :=
  match code with
  | 10 => if compat then 6 else 10
  | 11 => if compat then 9 else 16
  | 12 => if compat then 12 else 21
  | 13 => if compat then 15 else 27
  | 14 => if compat then 17 else 32
  | 16 => if compat then 23 else 43
  | _ => if compat then 34 else 66

/-- One port's weft positions of the slot group: its egress queue in arrival order (R255, R264). -/
def State.sendWeft (s : State) (p : Nat) : State :=
  let q := s.port p
  if !q.usable then s
  else
    let n := weftPositions s.clk.period.toNat (s.pf (.fabPortCtrl (Fin.ofNat 32 p)) 1 2 == 3)
    let s := s.updPort p fun q => { q with egress := q.egress.drop n }
    (q.egress.take n).foldl (fun s f => (s.sendLink p (weftLow f) f.payload).portCount p 1) s

/-- One port's ingress queue in the weft positions of the slot group (R264). -/
def State.serveIngress (s : State) (p : Nat) : State :=
  if (s.port p).usable then
    s.drainIngress p (weftPositions s.clk.period.toNat (s.pf (.fabPortCtrl (Fin.ofNat 32 p)) 1 2 == 3))
  else s

/-- The clock enters its next slot group (R255, R276). -/
def Clock.nextSg (k : Clock) : Clock :=
  let g := if 100 ≤ k.sg then 0 else k.sg + 1
  { k with sg := g, timebase := k.frameStart + BitVec.ofNat 64 (32 * g * k.period.toNat) }

/-- The faults of a core that the module has passed fall due (R88, R460); those of a core whose pass has ended, all. -/
def State.ripenAll (s : State) : State :=
  s.cores.foldl (fun s (ck : Nat × Core) => match ck.2.faults with
    | [] => s
    | l => s.ripen ck.1 (if ck.2.job.isSome then s.nowCycle ck.1 else (l.foldl (fun m f => max m f.cyc) 0) + 1)) s

/-- A port begins to train: it carries nothing of a skein until that forms again (R251). -/
def State.train (s : State) (p : Nat) : State :=
  s.updPort p fun q => { q with state := .training, warpOn := false, msgs := [], warp := [], mismatched := [], passed := [], absent := false,
                                echo := none,
                                rxTime := none, rxAbandon := none, rxStep := none, rxMsg := none, childWish := 0 }

/-- A port that went down trains from the next slot group on, unless training has found no peer (R249, R251). -/
def State.trainDown (s : State) : State :=
  (List.range 32).foldl (fun s p => if (s.port p).state == .down && !(s.port p).absent then s.train p else s) s

/-- The slot group ends in which REFUSED reached the root: the root raises its fault and forwards REFUSED down (R307). -/
def State.refuseDown (s : State) : State :=
  match s.skein.refusal with
  | some (field, m) => (s.sendTo s.stitchChildren (controlMsg 0x02 s.skein.id m field 0)).formRefused field m
  | none => s

/-- SLOT_GROUP_START: slot group 0 follows a frame start, and the others follow each other; the 100th waits for the next
frame start. Each port sends its stitch flit, its warp positions and its weft positions, in this order (R255). In the
fatal state only what still waits to be sent on the stitch lane leaves (R376). -/
def execSlotGroupStart (s : State) : Host.Outcome State Fault Refusal :=
  if !s.up || s.clk.sg == 99 then .next s
  else
    let s := if s.chk.fatal then s else s.refuseDown
    let s := { s with clk := s.clk.nextSg }
    let s := { s with clk := { s.clk with sinceSample := if s.timeRoot then 0 else s.clk.sinceSample + 1 } }
    let s := s.ripenAll.trainDown
    let s := { s with ports := AMap.each Port.reset (fun q => { q with passed := [] }) s.ports }
    let full := (List.range 32).filter fun p => (s.port p).state == .full
    if s.chk.fatal then
      .next ((full.filter fun p => !(s.port p).msgs.isEmpty).foldl State.sendStitch s)
    else
      let s := s.readmitTry.rootAnnounce
      let s := (full.foldl State.sendStitch s).sendWarp
      let s := (List.range 32).foldl State.sendWeft s
      let s := (List.range 32).foldl State.serveIngress s
      .next { s with skein := { s.skein with abandonOut := none } }

/-! ### Regions -/

/-- Lowest core of a compute region (R11). -/
def regionCore (r : Nat) : Nat := 48 * (6 * (r / 8)) + 6 * (r % 8)
/-- Cores of a region: 36 of a compute region, none of a mesh-side region. -/
def regionCores (r : Nat) : List Nat :=
  if r < 48 then (List.range 36).map fun i => regionCore r + 48 * (i / 6) + i % 6 else []
/-- Where a fault of a region arises (R291). -/
def regionSrc (r : Nat) : Src := if r < 48 then .core' (regionCore r) else .io (r - 48)
/-- Regions that exchange stretch tokens (R287): neighbours among the 8 × 6 compute regions, and the mesh-side region of
I/O die n with the compute regions that it attaches to. -/
def adjacentRegions (a b : Nat) : Bool :=
  let touch := fun (m c : Nat) => decide (c < 48) && (c % 8) / 4 == m % 2 && c / 8 == (if m < 50 then 0 else 5)
  if a < 48 && b < 48 then dist (a % 8) (b % 8) + dist (a / 8) (b / 8) == 1
  else if 48 ≤ a then touch a b else touch b a

/-- Cycles that an engine has waited under R184 in waits that began in frame `f` of its kernel. -/
def Engine.charge (q : Engine) (f : Nat) : Nat := AMap.get 0 q.waited f
/-- A bobbin wait that began in frame `f` still runs (R186). -/
def Engine.stillWaits (q : Engine) (f : Nat) : Bool :=
  match q.wait with
  | some (.bobbin _ _ _, c0) => c0 / 3200 == f
  | _ => false

/-- Frame offset, in the kernel that a core runs, of the frame before the current one. -/
def State.kernelFrame (s : State) (j : Job) : Nat :=
  match s.pass j.pass with
  | some p => s.clk.frame.toNat - 1 - p.kernelStart.toNat
  | none => 0

/-- Largest grace charge of a region's cores in the frame that ends, and whether a wait still runs (R186, R291). -/
def State.graceCharge (s : State) (r : Nat) : Nat × Bool :=
  s.cores.foldl (fun m (ck : Nat × Core) => match ck.2.job with
    | some j =>
      if coreRegion ck.1 = r ∧ r < 48 then
        let f := s.kernelFrame j
        allEngines.foldl (fun (m : Nat × Bool) e =>
          (max m.1 ((ck.2.engine e).charge f), m.2 || (ck.2.engine e).stillWaits f)) m
      else m
    | none => m) ((s.region r).ended, false)

/-- The end of a frame in one region: its guard account in half cycles, and whether it has overrun (R291). -/
def State.regionEnd (s : State) (r : Nat) : State × Bool :=
  let v := s.region r
  let (g, waits) := s.graceCharge r
  let a := v.stretches + 2 * g
  let beyond := decide (128 < a) || waits
  (s.updRegion r fun v => { v with
    stretches := 0, ended := 0, history := (v.stretches :: v.history).take 256, maxGuard := max v.maxGuard a,
    over32 := if 64 < a then v.over32 + 1 else v.over32, overruns := if beyond then v.overruns + 1 else v.overruns }, beyond)

/-- Guard hold cycles of the frame that ends (event 0x42): an engine holds for the guard less what it has waited (R289). -/
def State.countHolds (s : State) : State :=
  if (s.obs.cnt.any fun kv => fld kv.2 0 8 == 0x42) then
    s.cores.foldl (fun s (ck : Nat × Core) => match ck.2.job with
      | some j =>
        let f := s.kernelFrame j
        (allEngines.filter fun e => (ck.2.engine e).mode == .running).foldl (fun s e =>
          let w := (ck.2.engine e).charge f
          s.count ck.1 (some e.num) 0x42 (3200 * f + 3136 + w) (64 - w) 1) s
      | none => s) s
  else s

/-- Every region's frame ends; each overrun abandons every running attempt, with one record for each (R291). -/
def State.regionsEnd (s : State) : State :=
  let s := s.countHolds
  let running := s.allPasses.filter fun kp => kp.2.state == .running
  let (s, beyond) := (List.range 52).foldl (fun (a : State × List Nat) r =>
    let (s, o) := a.1.regionEnd r
    (s, if o then a.2 ++ [r] else a.2)) (s, [])
  beyond.foldl (fun s r =>
    if running.isEmpty then s.raise (regionSrc r) .frameOverrun 0x01 none
    else running.foldl (fun s kp => s.raise (regionSrc r) .frameOverrun 0x01 (some kp.1)) s) s

/-! ### Kernel starts -/

/-- Streams of a virtual core, in the order of the engine numbers. -/
def Exe.streamsOf (x : Exe) (vcore : Nat) : List (List W64) :=
  match x.streams[vcore]? with
  | some t => [t.mxe, t.vxe, t.txe, t.gxe, t.fxe]
  | none => [[], [], [], [], []]

/-- First word of each engine's stream in the program region (R127). -/
def Exe.streamStart (x : Exe) (vcore e : Nat) : Nat := (((Exe.streamsOf x vcore).take e).map List.length).foldl (· + ·) 0

/-- An engine at pass start (R130, R142, R443). -/
def State.engineStart (s : State) (x : Exe) (c vcore : Nat) (e : Eng) (q : Engine) : Engine :=
  let empty := ((Exe.streamsOf x vcore)[e.num]?).getD [] == []
  let v := BitVec.ofNat 32 (s.pf .obsDye 32 32) ^^^ BitVec.ofNat 32 (8 * c + e.num)
  { Engine.reset with
    mode := if empty || !s.present e then .idle else .running, pc := BitVec.ofNat 15 (Exe.streamStart x vcore e.num),
    lfsr := if v = 0 then 1 else v, upset := q.upset }

/-- The matrix engine at pass start: the configuration of zeros and everything closed (R461). -/
def Mxe.start (m : Mxe) : Mxe :=
  { m with cfg := .reset, dcfg := .reset, vecs := [], stall := 0, accOpen := [], rowOpen := [],
           latch := m.latch.map fun l => (l.1, l.2.land) }

/-- A bobbin at pass start (R181). -/
def bobbinStart (b : Bob) : Bobbin :=
  let st : BobState := if b.init = 2 then .full else .empty
  { Bobbin.reset with state := st, was := st }

/-- A core starts a pass (R218). -/
def State.coreStart (s : State) (fn : FnId) (k : Nat) (l : Loaded) (c vcore : Nat) : State :=
  let s := s.settleAll c
  let j : Job := { fn := fn, pass := k, vcore := vcore, kernel := 0 }
  let bobs := (s.bobs j).foldl (fun (m : AMap Bobbin) b => AMap.set Bobbin.reset m b.num (bobbinStart b)) []
  s.updCore c fun o =>
    { o with mxeQ := s.engineStart l.exe c vcore .mxe o.mxeQ, vxeQ := s.engineStart l.exe c vcore .vxe o.vxeQ,
             txeQ := s.engineStart l.exe c vcore .txe o.txeQ, gxeQ := s.engineStart l.exe c vcore .gxe o.gxeQ,
             fxeQ := s.engineStart l.exe c vcore .fxe o.fxeQ, mx := o.mx.start, vregs := [], counters := [], bobbins := bobs,
             hold := [], merge := [], armed := [], claims := [], faults := [], atomicHold := none, staged := [],
             injq := o.injq.map fun f => { f with start := 0 }, room := 0, redBuf := [], job := some j, joined := false }

/-- An engine at the start of a later kernel: it goes on after its BARRIER with its registers (R130, R139, R142). -/
def Engine.kernelStart (q : Engine) : Engine :=
  { q with mode := (match q.mode with | .barrier false => .running | m => m), next := 0, done := 0, doneFar := [], free := 0, relAt := 0,
           wait := none, waited := [], sregs := q.sregs.map fun r => (r.1, r.2.land),
           aregs := q.aregs.map fun r => (r.1, r.2.land), sig := 0xFFFFFFFF }

/-- A core starts a later kernel, whose first cycle is cycle `t` of the kernel before (R436). -/
def State.coreNext (s : State) (n t : Nat) (c : Nat) : State :=
  let s := ((s.ripen c t).closeLedger c t).settleAll c
  s.updCore c fun o =>
    { (o.mapEngines Engine.kernelStart) with
      mx := { o.mx with vecs := [], stall := 0, latch := o.mx.latch.map fun l => (l.1, l.2.land) },
      vregs := o.vregs.map fun v => (v.1, v.2.land),
      counters := o.counters.map fun v => (v.1, { v.2.pend.foldl Counter.take v.2 with pend := [] }),
      bobbins := o.bobbins.map fun v => (v.1, { v.2 with was := v.2.state, trans := [] }),
      staged := o.staged.map fun f => { f with start := 0 }, injq := o.injq.map fun f => { f with start := 0 }, room := 0,
      faults := [], atomicHold := none, merge := [], claims := [], joined := false, job := o.job.map fun j => { j with kernel := n } }

/-- Trace point of a kernel start (table "Trace entry types", 0x21). -/
def State.traceKernel (s : State) (p : Pass) (n : Nat) : State :=
  s.traceTo p.fn 0x21 (BitVec.ofNat 8 p.fn.val) (leBytes 4 p.number.toNat ++ leBytes 1 p.attempt ++ [0] ++ leBytes 2 n ++
    leBytes 8 s.clk.frame.toNat)

/-- Kernel 0 of an attempt starts (R215, R218). -/
def State.passStart (s : State) (k : Nat) (p : Pass) (l : Loaded) : State :=
  let s := { s with chk := { s.chk with
    counted := s.chk.counted.filter fun x => x.2 != (p.fn.val * 2 ^ 32 + p.number.toNat, p.attempt) } }
  let s := (s.setPassState k .running).updPass k fun p =>
    { p with kernel := 0, kernelStart := p.start.getD 0, resolved := false, joined := false, cleanKernels := 0, clean := true, agreed := true,
             checks := 0, leafXor := 0, leafBytes := 0, gated := false }
  let s := (l.place.filter fun v => s.serving v.1).foldl (fun s v => s.coreStart p.fn k l v.1 v.2) s
  let s := if s.inSkein p then
      { s with skein := { s.skein with joins := [], joinsClean := true, gateClean := none, gateLo := none, gateHi := none,
                                       gateCount := none } } else s
  s.traceKernel p 0

/-- The next kernel of a pass starts once the barrier has resolved (R215, R216). -/
def State.kernelNext (s : State) (k : Nat) (p : Pass) : State :=
  let n := p.kernel + 1
  let s := (s.jobCores k).foldl (fun s c => s.coreNext n (3200 * (s.nextKernel p - p.kernelStart.toNat)) c) s
  let s := s.updPass k fun p => { p with kernel := n, kernelStart := BitVec.ofNat 64 (s.nextKernel p), resolved := false,
                                         joined := false }
  s.traceKernel p n

/-- The kernel starts of one pass at the start of the current frame. -/
def State.startKernels (s : State) (k : Nat) (p : Pass) : State :=
  match p.state, p.start, s.loaded p.fn with
  | .agreeing, some f, some l => if f.toNat ≤ s.clk.frame.toNat then s.passStart k p l else s
  | .running, _, _ => if p.resolved && decide (s.nextKernel p ≤ s.clk.frame.toNat) then s.kernelNext k p else s
  | _, _, _ => s

/-! ### Frame starts -/

/-- The clock enters its next frame, before the pause of a step frame (R276). -/
def Clock.nextFrame (k : Clock) (root : Bool) : Clock :=
  let start := k.frameStart + BitVec.ofNat 64 (3200 * k.period.toNat)
  let tol := root || (k.frameTol && decide (0 < k.samples))
  { k with frame := k.frame + 1, frameStart := start, timebase := start, sg := 100,
           starts := ((k.frame.toNat, k.frameStart.toNat, k.period.toNat) :: k.starts).take 4,
           tol := tol, tolFrames := if tol then k.tolFrames + 1 else 0, frameTol := true, samples := 0,
           state := if root then .freeRunning else if k.state = .holdover then .holdover
             else if tol then .locked else .acquiring,
           clocked := k.clocked + 3200 }

/-- FRAME_START: the frame that ends is accounted for in every region, and the kernels that are due start (R276, R289,
R291, R215). It follows the last slot group of a frame. -/
def execFrameStart (s : State) : Host.Outcome State Fault Refusal :=
  if !s.up || s.clk.sg != 99 then .next s
  else
    let s := ({ s with clk := s.clk.nextFrame s.timeRoot }).regionsEnd
    let s := s.allPasses.foldl (fun s kp =>
      if passBusy kp.2.state then s.updPass kp.1 fun p => { p with frames := p.frames + 1 } else s) s
    let s := s.allPasses.foldl (fun s kp => s.startKernels kp.1 kp.2) s
    let s := if s.clk.warpLost then s.resumeWarp else s
    let s := { s with chk := { s.chk with silent := (List.range 16).foldl (fun m n => AMap.upd 0 m n (· + 1)) s.chk.silent } }
    match s.skein.readmitAt with
    | some f =>
      .next (if s.skein.state = .detached ∧ f.toNat ≤ s.clk.frame.toNat
        then ({ s with skein := { s.skein with readmitAt := none } }).enterFormed else s)
    | none => .next s

/-! ### Stretch -/

/-- The region has stretched within the last 3 cycles (R287). -/
def State.absorbs (s : State) (r t : Nat) : Bool :=
  match (s.region r).last with
  | some l => decide (l ≤ t ∧ t ≤ l + 3)
  | none => false

/-- One stretched period of a region (R286): event 0x40, and 0x41 when the region asked for it itself. -/
def State.stretchRegion (s : State) (r t : Nat) (own : Bool) : State :=
  let s := s.updRegion r fun v => { v with stretches := v.stretches + 1, last := some t, total := v.total + 1 }
  let n := 3200 * s.clk.frame.toNat + (t - s.clk.clocked.toNat)
  (regionCores r).foldl (fun s c =>
    let s := s.countAt c none 0x40 n 1 1
    if own then s.countAt c none 0x41 n 1 1 else s) s

/-- Pass of the partition that a region's dies belong to. -/
def State.regionPass (s : State) (r : Nat) : Option Nat :=
  if r < 48 then (s.ownerOf (regionCore r)).map (·.1) else none

/-- STRETCH: a margin replica or a droop detector asks for a stretch in a cycle of the current frame. Within the 3 cycles
after a stretch, the request is absorbed, and a failing replica raises MARGIN_CRITICAL; requests of one cycle are one
stretch (R286, R287). -/
def execStretch (r : RegionId) (cycle : Nat) (replica : Bool) (s : State) : Host.Outcome State Fault Refusal :=
  let t := s.clk.clocked.toNat + cycle
  if !s.up then .next s
  else if s.absorbs r.val t then
    .next (if replica && (s.region r.val).last != some t then s.raise (regionSrc r.val) .marginCritical 0x01 (s.regionPass r.val) else s)
  else .next (s.stretchRegion r.val t true)

/-- STRETCH_TOKEN: a neighbour stretched in the cycle before; the region stretches unless it absorbs the token (R287). -/
def execStretchToken (r : RegionId) (cycle : Nat) (s : State) : Host.Outcome State Fault Refusal :=
  let t := s.clk.clocked.toNat + cycle
  let sent := (List.range 52).any fun q => adjacentRegions r.val q && (s.region q).last == some (t - 1) && t != 0
  if !s.up || !sent || s.absorbs r.val t then .next s else .next (s.stretchRegion r.val t false)

/-- LOCK_MONITOR_FAULT: a region's generator is out of lock, or the reference is bad (R284). -/
def execLockMonitorFault (r : Option RegionId) (s : State) : Host.Outcome State Fault Refusal :=
  if !s.up then .next s
  else match r with
    | some r => .next (s.raise (regionSrc r.val) .clockFault 0x01 (s.regionPass r.val))
    | none => .next (s.raise .none' .clockFault 0x02 none)

/-! ### Ports and the mesh mode -/

/-- Passes in RUNNING or GATING that use a port: through a warp entry, or through the stitch tree (R252). -/
def State.portUsers (s : State) (p : Nat) : List Nat :=
  s.allPasses.filterMap fun kp =>
    let warp := match s.loaded kp.2.fn with
      | some l => l.exe.warps.any fun w => w.port == p && (l.coreOf w.vcore).isSome
      | none => false
    if (kp.2.state == .running || kp.2.state == .gating) && (warp || (s.inSkein kp.2 && s.treePorts.contains p))
      then some kp.1 else none

/-- A port goes down and carries nothing any more. -/
def State.portDown (s : State) (p : Nat) (absent : Bool) : State :=
  (s.train p).updPort p fun q => { q with state := .down, absent := absent }

/-- PORT_DOWN (R252, R313): LINK_DOWN, a broken skein where the port is one of its stitch tree; the port trains again from the
next slot group on. Training that finds no peer leaves the port down (R249). -/
def execPortDown (p : PortId) (s : State) : Host.Outcome State Fault Refusal :=
  let st := (s.port p.val).state
  if st = .disabled ∨ st = .down then .next s
  else if st = .training then .next (s.portDown p.val true)
  else
    let users := s.portUsers p.val
    let s := match users with
      | [] => s.raise (.io (p.val / 8)) .linkDown 0x91 none
      | _ => users.foldl (fun s k => s.raise (.io (p.val / 8)) .linkDown 0x90 (some k)) s
    let s := if s.skein.multi && (s.skein.state == .formed || s.skein.state == .detached) && s.treePorts.contains p.val then
        s.breakSkein 0x16 s.moduleId (some p.val) else s
    .next (s.portDown p.val false)

/-- One-way delay in ns: half the round trip less half the peer's reported turnaround (R251). -/
def oneWay (roundTrip turnaround : Nat) : Nat := (roundTrip - turnaround) / 2

/-- The delay that a port's reach class allows, in ns (R250). -/
def State.delayBound (s : State) (p : PortId) : Nat := (if s.pf (.fabPortCtrl p) 1 2 < 2 then 1 else 2) * 4000 - 200

/-- PORT_TRAINING_COMPLETE: the alignment flits of 256 slot groups have given a round trip and the peer's turnaround, in ns;
the port is fit if its delay meets its reach class and no codeword was uncorrectable (R250, R251). -/
def execPortTrainingComplete (p : PortId) (delay : Alignment) (fecClean : Bool) (s : State) :
    Host.Outcome State Fault Refusal :=
  let st := (s.port p.val).state
  if st ≠ .training ∧ st ≠ .down then .next s
  else
    let ns := oneWay delay.roundTrip delay.turnaround
    let fit := fecClean && decide (ns ≤ s.delayBound p)
    .next (s.updPort p.val fun q => { q with
      state := if fit && s.pf (.fabPortCtrl p) 3 1 == 1 then .full else .weftOnly, fit := fit, absent := false,
      delay := BitVec.ofNat 16 (min ns 65535) })

/-- MESH_MODE_CHANGE: a written mode takes effect at a frame boundary at which no pass is busy (R246). -/
def execMeshModeChange (s : State) : Host.Outcome State Fault Refusal :=
  match s.modePending with
  | none => .next s
  | some m =>
    .next (if s.up && s.clk.sg == 100 && !(s.allPasses.any fun kp => passBusy kp.2.state)
      then { s with scheduled := m, modePending := none } else s)

end Sys2Proof.Machine
end

