-- ==== Sys2Proof/Machine/Control.lean ====
section
/-! DEFINITION. The control instructions (R133 to R159): NOP, PAD, LOOP, ENDLOOP, CALL, RET, WAIT, SIGNAL, RELEASE,
ACQUIRE, BARRIER. -/

namespace Sys2Proof.Machine

/-- NOP issues and does nothing. -/
def runNop (m : Byte) (w : BitVec 48) (x : Ctx) (k : Work) : Except Halt Issued := do
  needCtl 0x01 m w
  pure (finish x k)

/-- NOP (R133). -/
def execNop (c : CoreId) (e : Eng) (m : Byte) (w : BitVec 48) (s : State) : Host.Outcome State Fault Refusal :=
  .next (runInstr s c e 0x01 true (runNop m w))

/-- PAD: the next instruction issues n cycles later, or at the target (R140). -/
def runPad (m : Byte) (w : BitVec 48) (x : Ctx) (k : Work) : Except Halt Issued := do
  needCtl 0x02 m w
  if m = 0 then pure { finish x k with nxt := x.at (fld w 0 24) }
  else
    let target := fld w 0 32
    if target < x.t % 2 ^ 32 then .error (.stop .queueStall 0x02 none)
    else if target = x.t % 2 ^ 32 then pure (finish x k)
    else
      let t := x.t + (target - x.t % 2 ^ 32)
      pure { finish x k with nxt := workAfter (if t / 3200 = x.t / 3200 then x.w else 0) t 0 }

/-- PAD (R140). -/
def execPad (c : CoreId) (e : Eng) (m : Byte) (w : BitVec 48) (s : State) : Host.Outcome State Fault Refusal :=
  .next (runInstr s c e 0x02 true (runPad m w))

/-- The signature after folding one more word address (R142). -/
def foldSig (g : W32) (pc : BitVec 15) : W32 := crc32cFold g (leBytes 2 pc.toNat)

/-- LOOP (R143 to R149). -/
def runLoop (m : Byte) (w : BitVec 48) (x : Ctx) (k : Work) : Except Halt Issued := do
  needCtl 0x03 m w
  let q := (k.s.core x.c).engine x.e
  let counted := bitAt m 5
  let len := fld w 24 16
  let limit := fld w 0 24
  let iw : Option (Fin 32) := if bitAt w 45 then some (Fin.ofNat 32 (fld w 40 5)) else none
  let count := if counted then (k.sreg x (fld m 0 5)).toNat else limit
  let outer := if counted then foldSig (foldSig q.sig q.pc) (q.pc + BitVec.ofNat 15 (len + 1)) else foldSig q.sig q.pc
  let bad := !(decide (1 ≤ len) && decide (len ≤ 24575) && !(counted && limit == 0))
  -- of both faults in one cycle, LOOP_BOUND has the lower cause value (R88, R157); a maximum of 0 is no maximum (R146)
  if counted && decide (limit < count) && limit != 0 then
    .error (.stop .loopBound 0x01 (some { k with s := k.s.updEngine x.c x.e fun q => { q with sig := outer } }))
  else if bad then .error (parity 0x02)
  else if count = 0 then
    let s := k.s.updEngine x.c x.e fun q => { q with sig := outer }
    pure { finish x { k with s := s } with nxt := x.at 2, pc := some (q.pc + BitVec.ofNat 15 (len + 2)), fold := false }
  else
    need (decide (q.loops.length < 4)) 0x02
    let frame : LoopFrame :=
      { start := q.pc + 1, len := len, remaining := count - 1, iter := 0, iw := iw, counted := counted, outer := outer,
        first := none }
    let s := k.s.updEngine x.c x.e fun q =>
      { q with sig := if counted then 0xFFFFFFFF else outer, loops := frame :: q.loops }
    let k := { k with s := s }
    let k := match iw with
      | some i => k.setS x i.val 1 0
      | none => k
    pure { finish x k with fold := false }

/-- LOOP (R143). -/
def execLoop (c : CoreId) (e : Eng) (m : Byte) (w : BitVec 48) (s : State) : Host.Outcome State Fault Refusal :=
  .next (runInstr s c e 0x03 false (runLoop m w))

/-- ENDLOOP: the next iteration, or the exit; a register-counted body's signature is compared with the first iteration's
(R143, R148, R149). -/
def runEndloop (m : Byte) (w : BitVec 48) (x : Ctx) (k : Work) : Except Halt Issued := do
  needCtl 0x04 m w
  let q := (k.s.core x.c).engine x.e
  let len := fld w 0 16
  need (decide (1 ≤ len) && decide (len ≤ 24575)) 0x02
  match q.loops with
  | [] => .error (parity 0x02)
  | f :: rest =>
    need (f.len == len) 0x02
    let value := ~~~q.sig
    match f.first with
    | some v => needF (!f.counted || v == value) .signatureMismatch 0x02
    | none => pure ()
    let inner := if f.counted then q.sig else foldSig q.sig q.pc
    if f.remaining = 0 then
      let s := k.s.updEngine x.c x.e fun q => { q with sig := if f.counted then f.outer else inner, loops := rest }
      pure { finish x { k with s := s } with fold := false }
    else
      let f' := { f with remaining := f.remaining - 1, iter := f.iter + 1,
                         first := match f.first with
                           | some v => some v
                           | none => some value }
      let s := k.s.updEngine x.c x.e fun q =>
        { q with sig := if f.counted then 0xFFFFFFFF else inner, loops := f' :: rest }
      let k := { k with s := s }
      let k := match f.iw with
        | some i => k.setS x i.val 1 (BitVec.ofNat 32 (f.iter + 1))
        | none => k
      pure { finish x k with pc := some f.start, fold := false }

/-- ENDLOOP (R143). -/
def execEndloop (c : CoreId) (e : Eng) (m : Byte) (w : BitVec 48) (s : State) : Host.Outcome State Fault Refusal :=
  .next (runInstr s c e 0x04 false (runEndloop m w))

/-- Body of a routine for an engine: its entry address (R152, R462). -/
def State.routine (s : State) (n : Nat) (e : Eng) : Option Nat :=
  match s.library with
  | some l =>
    match l.entries.find? fun r => r.number == n with
    | some r => if r.engines.getLsbD e.num then (r.eng[e.num]?).map fun v => v.entry else none
    | none => none
  | none => none

/-- CALL (R153, R155). -/
def runCall (m : Byte) (w : BitVec 48) (x : Ctx) (k : Work) : Except Halt Issued := do
  needCtl 0x05 m w
  let q := (k.s.core x.c).engine x.e
  need (decide (q.calls.length < 2)) 0x03
  match k.s.routine (fld w 0 12) x.e with
  | none => .error (parity 0x03)
  | some a =>
    let s := k.s.updEngine x.c x.e fun q => { q with calls := (q.pc + 1) :: q.calls }
    pure { finish x { k with s := s } with nxt := x.at 2, pc := some (BitVec.ofNat 15 a) }

/-- CALL (R153). -/
def execCall (c : CoreId) (e : Eng) (m : Byte) (w : BitVec 48) (s : State) : Host.Outcome State Fault Refusal :=
  .next (runInstr s c e 0x05 false (runCall m w))

/-- RET (R153, R155). -/
def runRet (m : Byte) (w : BitVec 48) (x : Ctx) (k : Work) : Except Halt Issued := do
  needCtl 0x06 m w
  match ((k.s.core x.c).engine x.e).calls with
  | [] => .error (parity 0x03)
  | a :: rest =>
    let s := k.s.updEngine x.c x.e fun q => { q with calls := rest }
    pure { finish x { k with s := s } with nxt := x.at 2, pc := some a }

/-- RET (R153). -/
def execRet (c : CoreId) (e : Eng) (m : Byte) (w : BitVec 48) (s : State) : Host.Outcome State Fault Refusal :=
  .next (runInstr s c e 0x06 false (runRet m w))

/-- WAIT (R135, R138). -/
def runWait (m : Byte) (w : BitVec 48) (x : Ctx) (k : Work) : Except Halt Issued := do
  needCtl 0x07 m w
  let n := fld w 0 6
  let th := fld w 6 16
  let (x, k, v) ← waitCounter x k n th
  pure (finish x (k.consume x n th (bitAt w 22) v))

/-- WAIT (R135). -/
def execWait (c : CoreId) (e : Eng) (m : Byte) (w : BitVec 48) (s : State) : Host.Outcome State Fault Refusal :=
  .next (runInstr s c e 0x07 false (runWait m w))

/-- Put a pending release or signal behind those of its engine (R196). -/
def Work.pendRelease (k : Work) (x : Ctx) (r : PendRelease) : Work :=
  { k with s := k.s.updEngine x.c x.e fun q => { q with releases := q.releases ++ [r] } }

/-- SIGNAL: the increment applies in the cycle after every earlier instruction of the engine has completed; one that
waits for weft operations or earlier releases joins the engine's pending releases (R134, R106). -/
def runSignal (m : Byte) (w : BitVec 48) (x : Ctx) (k : Work) : Except Halt Issued := do
  needCtl 0x08 m w
  let n := fld w 0 6
  let inc := fld w 6 16
  let q := (k.s.core x.c).engine x.e
  let ready := max (q.doneWithin 4) q.relAt
  if q.openOps.isEmpty && q.releases.isEmpty then
    pure (finish x { k with s := k.s.incCounter x.c n inc .core x.c k.s.moduleId (x.after ready) x.e.num })
  else
    pure (finish x (k.pendRelease x
      { addr := BitVec.ofNat 48 (absAddr 4 x.c (8 * n)), module := k.s.moduleId, scope := .core, inc := inc,
        ready := max ready x.t, cover := q.openOps, signal := true, issued := x.t }))

/-- SIGNAL (R134). -/
def execSignal (c : CoreId) (e : Eng) (m : Byte) (w : BitVec 48) (s : State) : Host.Outcome State Fault Refusal :=
  .next (runInstr s c e 0x08 false (runSignal m w))

/-- RELEASE: the increment waits in the release table (R137, R196, R197). -/
def runRelease (m : Byte) (w : BitVec 48) (x : Ctx) (k : Work) : Except Halt Issued := do
  needCtl 0x09 m w
  let a := k.areg x (fld w 0 4)
  let sc := scopeOf m.toNat
  let own := k.s.moduleId
  let named : BitVec 12 := if bitAt w 16 then (k.sreg x (fld w 17 5)).setWidth 12 else BitVec.ofNat 12 (fld w 4 12)
  let module := if sc = .skein then named else own
  let there := aSpace a == 4
  let denied : Option Byte := if !there then none
    else if 1728 ≤ aCore a ∨ bitAt a 43 = true then some 0x70
    else if module = own then (match k.s.resolve x.job.fn a 8 with | .error d => some d | .ok _ => none)
    else none
  let q := (k.s.core x.c).engine x.e
  k.needs x [(there, .controlParity, spaceDetail x.e),
    (!there || (aOff a % 8 == 0 && decide (aOff a < 512)), .controlParity, 0x06),
    (denied.isNone, .accessDenied, denied.getD 0),
    (decide ((q.releases.filter fun r => !r.signal).length < 8), .queueStall, 0x03)]
  pure (finish x (k.pendRelease x
    { addr := a, module := module, scope := sc, inc := fld w 22 16, ready := max (q.doneWithin (max 1 sc.code)) x.t,
      cover := k.s.coverOf q sc, signal := false, issued := x.t }))

/-- RELEASE (R137). -/
def execRelease (c : CoreId) (e : Eng) (m : Byte) (w : BitVec 48) (s : State) : Host.Outcome State Fault Refusal :=
  .next (runInstr s c e 0x09 false (runRelease m w))

/-- ACQUIRE: as WAIT, with the check of the counter's tag (R199). -/
def runAcquire (m : Byte) (w : BitVec 48) (x : Ctx) (k : Work) : Except Halt Issued := do
  needCtl 0x0A m w
  let n := fld w 0 6
  let th := fld w 6 16
  let (x, k, v) ← waitCounter x k n th
  let d := scopeDist x.c k.s.moduleId v.originCore v.originModule
  k.needs x [(scopeIncludes v.scope d, .scopeMismatch, 0x01), (scopeIncludes (scopeOf m.toNat) d, .scopeMismatch, 0x02)]
  pure (finish x (k.consume x n th (bitAt w 22) v))

/-- ACQUIRE (R199). -/
def execAcquire (c : CoreId) (e : Eng) (m : Byte) (w : BitVec 48) (s : State) : Host.Outcome State Fault Refusal :=
  .next (runInstr s c e 0x0A false (runAcquire m w))

/-- Barrier entry `n` of a virtual core, counted in the order of the section (R142). -/
def Exe.barrierOf (x : Exe) (vcore n : Nat) : Option BarrierEntry := (x.barriers.filter fun b => b.vcore == vcore)[n]?

/-- BARRIER: the signature is compared, and the engine stops until the next kernel (R141, R142). -/
def runBarrier (m : Byte) (w : BitVec 48) (x : Ctx) (k : Work) : Except Halt Issued := do
  needCtl 0x0B m w
  let q := (k.s.core x.c).engine x.e
  let entry := match (k.s.fn x.job.fn.val).exe with
    | some l => Exe.barrierOf l.exe x.job.vcore (fld w 0 12)
    | none => none
  match entry with
  | none => .error (.stop .signatureMismatch 0x01 none)
  | some b =>
    needF (b.kernel == x.job.kernel && (b.sig[x.e.num]?).getD 0 == ~~~q.sig) .signatureMismatch 0x01
    let s := k.s.updEngine x.c x.e fun q => { q with mode := .barrier (bitAt m 0) }
    pure (finish x { k with s := s })

/-- BARRIER (R141). -/
def execBarrier (c : CoreId) (e : Eng) (m : Byte) (w : BitVec 48) (s : State) : Host.Outcome State Fault Refusal :=
  .next (runInstr s c e 0x0B false (runBarrier m w))

end Sys2Proof.Machine
end

