-- ==== Sys2Proof/Machine/Host.lean ====
section
/-! DEFINITION. Doorbell pages, rings and descriptors (R348 to R356), interrupts (R347, R360), and the descriptors whose
effect is short: NOP, PASS_SUBMIT, FENCE, COPY and SKEIN_CTL (R303, R317, R353). -/

namespace Sys2Proof.Machine

/-! ### Common operations -/

/-- The function exists and the module runs (R337). -/
def State.live (s : State) (f : FnId) : Bool := s.up && decide (f.val ≤ s.numVfs)

/-- The 16 bytes of a SET_CLAMP_LOG entry. -/
def clampBytes (offset lsb fn : Nat) (ignored : Bool) (w a seq : Nat) : List Byte :=
  leBytes 4 (offset % 2 ^ 20 + lsb % 64 * 2 ^ 20 + fn * 2 ^ 26 + (if ignored then 2 ^ 30 else 0) + 2 ^ 31) ++
    leBytes 4 w ++ leBytes 4 a ++ leBytes 4 (seq % 2 ^ 16)

/-- One log call of R342: the next entry of the writing function's SET_CLAMP_LOG and one in its log ring. -/
def State.logField (s : State) (f : FnId) (offset lsb w a : Nat) (ignored : Bool) : State :=
  let seq := (s.fn f.val).clampSeq
  let s := s.updFn f.val fun u => { u with
    clampLog := ((offset, lsb, ignored, BitVec.ofNat 32 w, BitVec.ofNat 32 a, seq) :: u.clampLog).take 64,
    clampSeq := u.clampSeq + 1 }
  s.logTo f 0x02 (BitVec.ofNat 8 f.val) (clampBytes offset lsb f.val ignored (w % 2 ^ 32) (a % 2 ^ 32) seq.toNat)

/-- A pass of the function's partition is RUNNING, GATING or QUIESCING (before R218). -/
def State.partBusy (s : State) (f : FnId) : Bool :=
  s.allPasses.any fun kp => passBusy kp.2.state && s.sharePart kp.2.fn f

/-- The fetched descriptor of a command that may execute: fetched, not yet executed, with the opcode. -/
def State.taken (s : State) (f : FnId) (r : RingId) (i : BitVec 12) (op : Nat) : Option Fetched :=
  match (s.fn f.val).find r i with
  | some d => if s.live f && d.phase == .fetched && descOp d.desc == op then some d else none
  | none => none

/-! ### Rings -/

/-- A ring goes to ERROR, and vector 3 of the function is raised (R350). -/
def State.ringError (s : State) (f : FnId) (cq : Bool) (r : Nat) : State :=
  (s.updFn f.val fun u => if cq then u.updCq r fun q => { q with state := .error }
    else u.updSq r fun q => { q with state := .error }).interrupt f 3

/-- A ring that enable takes from DISABLED to ENABLED; a submission ring needs its completion ring ENABLED (R350). -/
def State.enableRing (s : State) (f : FnId) (cq : Bool) (r : RingId) : State :=
  let u := s.fn f.val
  if cq then
    let s := s.setReg f (.rngCq r) (s.reg f (.rngCq r) ||| ((1 : BitVec 128) <<< 75))
    if (u.cqOf r.val).state = .disabled then
      s.updFn f.val fun u => u.updCq r.val fun q =>
        { q with state := .enabled, tail := 0, phase := true, head := 0, reserved := 0, unsignalled := 0, oldest := none }
    else s
  else if (u.sqOf r.val).state = .disabled then
    if (u.cqOf (s.cqFor f r).val).state = .enabled then
      (s.setReg f (.rngSq r) (s.reg f (.rngSq r) ||| ((1 : BitVec 128) <<< 72))).updFn f.val fun u => u.updSq r.val fun q =>
        { q with state := .enabled, head := 0, tail := 0 }
    else (s.setReg f (.rngSq r) (s.reg f (.rngSq r) &&& ~~~((1 : BitVec 128) <<< 72))).logField f (regOffset (.rngSq r)) 72 1 0 false
  else s.setReg f (.rngSq r) (s.reg f (.rngSq r) ||| ((1 : BitVec 128) <<< 72))

/-- Clearing enable takes a ring from ENABLED or ERROR to DRAINING, and to DISABLED once nothing is owed (R350). -/
def State.disableRing (s : State) (f : FnId) (cq : Bool) (r : RingId) : State :=
  let drain := fun (x : RingState) => if x = .enabled ∨ x = .error then RingState.draining else x
  let s := if cq then s.setReg f (.rngCq r) (s.reg f (.rngCq r) &&& ~~~((1 : BitVec 128) <<< 75))
    else s.setReg f (.rngSq r) (s.reg f (.rngSq r) &&& ~~~((1 : BitVec 128) <<< 72))
  s.updFn f.val fun u =>
    (if cq then u.updCq r.val fun q => { q with state := drain q.state }
      else u.updSq r.val fun q => { q with state := drain q.state }).drainRings

/-- RING_ENABLE (R350). -/
def execRingEnable (f : FnId) (cq : Bool) (r : RingId) (s : State) : Host.Outcome State Fault Refusal :=
  .next (if s.live f then s.enableRing f cq r else s)

/-- RING_DISABLE (R350). -/
def execRingDisable (f : FnId) (cq : Bool) (r : RingId) (s : State) : Host.Outcome State Fault Refusal :=
  .next (if s.live f then s.disableRing f cq r else s)

/-- One ring's pair of records: the low 16 bits are the index; an index of size or more is an error (R348, R350). -/
def State.pollRing (s : State) (f : FnId) (r : RingId) (tail head : W64) : State :=
  let u := s.fn f.val
  let t := fld tail 0 16
  let h := fld head 0 16
  let s := if (u.sqOf r.val).state = .enabled then
      if s.sqSize f r ≤ t then s.ringError f false r.val
      else s.updFn f.val fun u => u.updSq r.val fun q => { q with tail := t }
    else s
  if (u.cqOf r.val).state = .enabled ∨ (u.cqOf r.val).state = .draining then
    if s.cqSize f r ≤ h then s.ringError f true r.val
    else s.updFn f.val fun u => u.updCq r.val fun q => { q with head := h }
  else s

/-- The page is due for a read: a fast period after the last one while the function was active within the active window, an
idle period otherwise; 8,000 ticks are 1 µs (R349). -/
def State.pollDue (s : State) (f : FnId) : Bool :=
  let u := s.fn f.val
  let v := s.reg f .rngPoll
  let t := s.clk.timebase
  let fast := u.active.any fun a => decide ((t - a).toNat ≤ 8000 * fld v 14 14)
  u.polled.all fun l => decide (8000 * (if fast then fld v 0 4 else fld v 4 10) ≤ (t - l).toNat)

/-- DOORBELL_POLL: one read of the page (R348, R349, R350). The lists hold the 16 submission tails and the 16 completion
heads; other lengths are no page. -/
def execDoorbellPoll (f : FnId) (tails heads : List W64) (mbxAddr mbxSeq : W64) (s : State) :
    Host.Outcome State Fault Refusal :=
  if tails.length ≠ 16 ∨ heads.length ≠ 16 then .refused .illFormed
  else if !s.live f || fld (s.reg f .rngDbr) 0 1 == 0 || !s.pollDue f then .next s
  else
    let s := s.updFn f.val fun u => { u with polled := some s.clk.timebase }
    let old := s.fn f.val
    let s := (List.range 16).foldl (fun s n => s.pollRing f (Fin.ofNat 16 n) (nth 0 tails n) (nth 0 heads n)) s
    let s := s.updFn f.val fun u => { u with pageAddr := mbxAddr, pageSeq := mbxSeq }
    let u := s.fn f.val
    .next (if u.sq ≠ old.sq ∨ u.cq ≠ old.cq ∨ u.pageAddr ≠ old.pageAddr ∨ u.pageSeq ≠ old.pageSeq
      then s.updFn f.val fun u => { u with active := some s.clk.timebase } else s)

/-! ### Descriptors -/

/-- Bytes `i` to `j` of a descriptor are zero. -/
def zeroBytes (d : BitVec 512) (i j : Nat) : Bool := dfld d i (j + 1 - i) == 0

/-- The descriptor's header and body are well formed (R352). -/
def descValid (d : BitVec 512) : Bool :=
  dfld d 1 1 < 2 && zeroBytes d 2 7 &&
  match descOp d with
  | 0 => zeroBytes d 16 63
  | 1 => descId d != 0 && dfld d 16 8 % 8 == 0 && zeroBytes d 26 31 && dfld d 40 8 % 64 == 0 && zeroBytes d 48 63
  | 2 => zeroBytes d 44 63
  | 3 => ((dfld d 16 8 != 0 && zeroBytes d 24 25) || (decide (dfld d 24 1 < 4) && decide (dfld d 25 1 < 15))) && zeroBytes d 26 63
  | 4 => decide (1 ≤ dfld d 20 1) && decide (dfld d 20 1 ≤ 3) && zeroBytes d 21 63
  | 5 => decide (dfld d 16 1 ≤ 1) && zeroBytes d 17 63
  | 6 => dfld d 16 8 % 64 == 0 && zeroBytes d 30 31 && dfld d 32 4 % 64 == 0 && decide (dfld d 32 4 ≤ 2 ^ 26) &&
      decide (dfld d 36 1 ≤ 1) && zeroBytes d 37 63
  | 7 => zeroBytes d 17 17 && zeroBytes d 22 23 && zeroBytes d 32 63 &&
      (match dfld d 16 1 with
        | 1 => decide (1 ≤ dfld d 20 2) && decide (dfld d 20 2 ≤ 1024)
        | 2 => zeroBytes d 18 31
        | 3 => zeroBytes d 18 21
        | 4 => zeroBytes d 18 31
        | _ => false)
  | _ => false

/-- Entries of a completion ring that a new descriptor may reserve (R351). -/
def State.cqFree (s : State) (f : FnId) (r : RingId) : Bool :=
  let c := s.cqFor f r
  let q := (s.fn f.val).cqOf c.val
  let n := s.cqSize f c
  q.state == .enabled && decide ((q.tail.toNat + n - q.head) % n + q.reserved + 1 < n)

/-- A descriptor of a ring may be fetched (R347, R350, R351). -/
def State.mayFetch (s : State) (f : FnId) (r : RingId) : Bool :=
  let u := s.fn f.val
  let q := u.sqOf r.val
  q.state == .enabled && q.head.toNat != q.tail && s.cqFree f r && decide (u.tags < fld u.qos 32 15) &&
    decide (s.fns.foldl (fun n (kv : Nat × Func) => n + kv.2.tags) 0 < 16384) &&
    !(u.fetched.any fun x => x.ring == r && descOp x.desc == 5)

/-- DESCRIPTOR_FETCH: the next descriptor of a ring, which takes a tag and a completion entry, is checked against its format
and the journal (R351, R352, R356). In the fatal state every descriptor but NOP is refused (R376). The spec gives no order
between REJECTED_STATE of R376, REJECTED_FORMAT of R352 and DUPLICATE of R356: the model's choice is REJECTED_STATE for every
descriptor whose opcode is not NOP, malformed and duplicate ones included, then the format, then the journal (log entry 147). -/
def execDescriptorFetch (f : FnId) (r : RingId) (d : BitVec 512) (s : State) : Host.Outcome State Fault Refusal :=
  if !s.live f || s.power.phase != .ready || !s.mayFetch f r then .next s
  else
    let u := s.fn f.val
    let q := u.sqOf r.val
    let i := q.head
    let id := descId d
    let known := id != 0 && (u.lookup id).isSome
    let refused := s.chk.fatal && descOp d != 0
    let wrap := decide (i.toNat + 1 = s.sqSize f r)
    let x : Fetched := {
      ring := r, index := i, desc := d, phase := (if !refused && descValid d && known then .duplicate else .fetched), order := u.fetchOrder }
    let u := (u.updSq r.val fun q => { q with head := if wrap then 0 else q.head + 1 }).updCq (s.cqFor f r).val fun q =>
      { q with reserved := q.reserved + 1 }
    let s := s.setFn f.val { u with
      fetched := u.fetched ++ [x], fetchOrder := u.fetchOrder + 1, tags := u.tags + 1, active := some s.clk.timebase,
      journal := if descValid d && id != 0 && !known then ((id, none) :: u.journal).take 4096 else u.journal }
    if refused then .next (s.finish f r i .rejectedState)
    else if !descValid d then .next (s.finish f r i .rejectedFormat)
    else if known then .next (settleHost 1 s f)
    else .next s

/-- NOP_DESCRIPTOR (R353). -/
def execNopDescriptor (f : FnId) (r : RingId) (i : BitVec 12) (s : State) : Host.Outcome State Fault Refusal :=
  match s.taken f r i 0 with
  | none => .next s
  | some _ => .next (s.finish f r i .done)

/-- FENCE: it completes once every earlier descriptor of its scope has (R353). -/
def execFence (f : FnId) (r : RingId) (i : BitVec 12) (s : State) : Host.Outcome State Fault Refusal :=
  match s.taken f r i 5 with
  | none => .next s
  | some _ => .next (settleHost 1 (s.executing f r i) f)

/-- Smallest account among the functions of a partition that have a QUEUED pass (R346). -/
def State.leastAccount (s : State) (f : FnId) : Option Nat :=
  (allFns.filter fun g => s.sharePart f g && s.allPasses.any fun kp => kp.2.fn == g && kp.2.state == .queued).foldl
    (fun (m : Option Nat) g => some (match m with
      | some v => min v (s.fn g.val).account
      | none => (s.fn g.val).account)) none

/-- Largest buffer number of the input and output tables, plus 1. -/
def Exe.buffers (x : Exe) : Nat :=
  max ((x.outputs.map fun o => o.buffer + 1).foldl max 0) ((x.inputs.map fun o => o.buffer + 1).foldl max 0)

/-- Skein states in which a pass of an executable is accepted (table "Skein states"). -/
def State.skeinTakes (s : State) (f : FnId) (x : Exe) : Bool :=
  x.header.skeinSize == 1 || (s.skein.fn == f && (s.skein.state == .formed || s.skein.state == .detached))

/-- A pass as submitted. -/
def Pass.submitted (f : FnId) (r : RingId) (i : BitVec 12) (d : BitVec 512) (bufs : List W64) : Pass :=
  { fn := f, ring := r, index := i, reqId := descId d, state := .queued, attempt := 0, number := 0, multi := false, agreed := false, gen := 0,
    copy := 0, seed := BitVec.ofNat 64 (dfld d 32 8), bufs := bufs, certAddr := BitVec.ofNat 64 (dfld d 40 8), loaded := false,
    start := none, kernel := 0, kernelStart := 0, resolved := false, joined := false, cleanKernels := 0, clean := true,
    status := none, abandonedAt := none, fault := none, noRetry := false, checks := 0, leafXor := 0, leafBytes := 0,
    gated := false, frames := 0, admittedAt := 0 }

/-- PASS_SUBMIT: the pass enters QUEUED (R246, R301, R352, R353). `bufs` is the buffer list. -/
def execPassSubmit (f : FnId) (r : RingId) (i : BitVec 12) (bufs : List W64) (s : State) : Host.Outcome State Fault Refusal :=
  match s.taken f r i 1 with
  | none => .next s
  | some d =>
    if bufs.length ≠ dfld d.desc 24 2 then .refused .illFormed
    else match s.loaded f with
      | none => .next (s.finish f r i .rejectedState)
      | some l =>
        if bufs.length < Exe.buffers l.exe then .next (s.finish f r i .rejectedFormat)
        else if !s.scheduled || !(s.func f).enable || !s.skeinTakes f l.exe then .next (s.finish f r i .rejectedState)
        else
          let own := s.allPasses.any fun kp => kp.2.fn == f && kp.2.state == .queued
          let s := match if own then none else s.leastAccount f with
            | some a => s.updFn f.val fun u => { u with account := a }
            | none => s
          let s := (s.executing f r i).setPass s.nextPass (.submitted f r i d.desc bufs)
          .next { s with nextPass := s.nextPass + 1 }

/-- COPY: at a pass boundary of the partition, the data move as one step (R345, R353, R404). Direction 0 brings `data` from
the host; direction 1 sends memory there, and `data` is empty. -/
def execCopy (f : FnId) (r : RingId) (i : BitVec 12) (data : List Byte) (s : State) : Host.Outcome State Fault Refusal :=
  match s.taken f r i 6 with
  | none => .next s
  | some d =>
    let a : MAddr := BitVec.ofNat 48 (dfld d.desc 24 6)
    let n := dfld d.desc 32 4
    let inward := dfld d.desc 36 1 == 0
    let sp := aSpace a
    let (base, size) := s.regionOf f sp
    let abs := absAddr sp (aCore a) (aOff a)
    if data.length ≠ (if inward then n else 0) then .refused .illFormed
    else if !(sp == 1 || sp == 2) || bitAt a 43 || !s.inPart f (aCore a) || decide (aOff a < base) ||
        decide (base + size < aOff a + n) then .next (s.finish f r i .rejectedFormat)
    else if s.scrubbing f sp then .next (s.finish f r i .rejectedState)
    else if s.partBusy f then .next s
    else
      let s := s.settleAll (aCore a)
      if inward then .next (((s.writeNow abs data).clearEcc sp abs n).finish f r i .done)
      else
        let s := match eccWorst s.ecc (eccWord sp) abs n with
          | some .correctable => s.raiseCore (aCore a) .eccCorrected (eccDetail sp)
          | some .uncorrectable => s.raiseCore (aCore a) .eccUncorrectable (eccDetail sp)
          | none => s
        .next ((s.emit (.hostWrite (BitVec.ofNat 64 (dfld d.desc 16 8)) (memGet s.mem abs n))).finish f r i .done)

/-! ### SKEIN_CTL -/

/-- The ports that a formation needs are in full service, and the module's time is settled (R303 item 4). -/
def State.formReady (s : State) (f : FnId) : Bool :=
  s.skein.state == .none && ((s.skeinPorts f).all fun p => (s.port p).state == .full) &&
    (s.timeRoot || decide (16 ≤ s.clk.tolFrames))

/-- SKEIN_CTL_FORM (R300, R303, R304, R308). `plan` is the skein plan as it lies in host memory. -/
def execSkeinCtlForm (f : FnId) (r : RingId) (i : BitVec 12) (plan : List (BitVec 12)) (s : State) :
    Host.Outcome State Fault Refusal :=
  match (s.taken f r i 7).filter fun d => dfld d.desc 16 1 == 1 with
  | none => .next s
  | some d =>
    if plan.length ≠ dfld d.desc 20 2 then .refused .illFormed
    else if (plan.filter fun m => m == s.moduleId).length ≠ 1 then .next (s.finish f r i .rejectedFormat)
    else match s.loaded f with
      | none => .next (s.finish f r i .rejectedState)
      | some l =>
        if plan.length ≠ l.exe.header.skeinSize then .next (s.finish f r i .rejectedFormat)
        else if plan.length = 1 then
          .next ((s.updFn f.val fun u => { u with passNo := 0 }).finish f r i .done)
        else if !s.formReady f then .next (s.finish f r i .rejectedState)
        else
          let k := s.skein
          let s := { s.executing f r i with skein := { Skein.reset with
            plan := plan, id := BitVec.ofNat 16 (dfld d.desc 18 2), fn := f, desc := some (r, i), passNo := k.passNo,
            field := k.field, module := k.module, formedAt := s.clk.timebase } }
          let s := s.setSkein .forming
          .next (if s.clk.announced then s else s.buildRecord)

/-- SKEIN_CTL_DISSOLVE (R317). -/
def execSkeinCtlDissolve (f : FnId) (r : RingId) (i : BitVec 12) (s : State) : Host.Outcome State Fault Refusal :=
  match (s.taken f r i 7).filter fun d => dfld d.desc 16 1 == 2 with
  | none => .next s
  | some _ =>
    let k := s.skein
    let s := if k.fn == f && k.state != .none && k.state != .dissolving then
        (s.sendTo s.treePorts (controlMsg 0x06 k.id s.moduleId 0 0)).dissolveSelf else s
    .next (s.finish f r i .done)

/-- SKEIN_CTL_PREEMPT (R353). -/
def execSkeinCtlPreempt (f : FnId) (r : RingId) (i : BitVec 12) (s : State) : Host.Outcome State Fault Refusal :=
  match (s.taken f r i 7).filter fun d => dfld d.desc 16 1 == 3 with
  | none => .next s
  | some d =>
    .next (((s.updFn f.val fun u => { u with preempt := some (BitVec.ofNat 64 (dfld d.desc 24 8)) }).executing f r i).settlePreempt f)

/-- SKEIN_CTL_RESUME (R353). -/
def execSkeinCtlResume (f : FnId) (r : RingId) (i : BitVec 12) (s : State) : Host.Outcome State Fault Refusal :=
  match (s.taken f r i 7).filter fun d => dfld d.desc 16 1 == 4 with
  | none => .next s
  | some _ => .next ((s.updFn f.val fun u => { u with preempt := none }).finish f r i .done)

/-! ### Interrupts -/

/-- IRQ_DELAY_EXPIRY: the oldest completion of a ring of the vector has waited delay µs (R360). -/
def execIrqDelayExpiry (f : FnId) (v : Fin 128) (s : State) : Host.Outcome State Fault Refusal :=
  let delay := fld (s.reg f (.irqMod v)) 8 10
  let due := ((List.range 16).map (Fin.ofNat 16)).filter fun (r : RingId) =>
    s.cqVector f r == v && (match ((s.fn f.val).cqOf r.val).oldest with
      | some t => decide (8000 * delay ≤ (s.clk.timebase - t).toNat)
      | none => false)
  if !s.live f || delay == 0 || due.isEmpty then .next s
  else
    .next ((due.foldl (fun (s : State) r => s.updFn f.val fun u =>
      u.updCq r.val fun q => { q with unsignalled := 0, oldest := none }) s).interrupt f v)

/-- INTERRUPT_ALLOWANCE_RENEWAL: a new millisecond, in which the held messages go first (R347). -/
def execInterruptAllowanceRenewal (f : FnId) (s : State) : Host.Outcome State Fault Refusal :=
  if !s.live f then .next s
  else
    let held := (s.fn f.val).irqHeld
    .next (held.foldl (fun (s : State) v => s.interrupt f v) (s.updFn f.val fun u => { u with irqSent := 0, irqHeld := [] }))

end Sys2Proof.Machine
end

