-- ==== Sys2Proof/Machine/Lifecycle.lean ====
section
/-! DEFINITION. The pass lifecycle (R215, R218 to R221, R330, R333, R346) and the final gate with its certificate (R19,
R381 to R384). -/

namespace Sys2Proof.Machine

/-! ### Admission -/

/-- PREEMPT_DEADLINE: the deadline frame has started with the pass still running (R219, R353). -/
def execPreemptDeadline (f : FnId) (s : State) : Host.Outcome State Fault Refusal :=
  match (s.fn f.val).preempt, s.curPass f with
  | some d, some (k, p) =>
    .next (if d ≠ 0 ∧ d.toNat ≤ s.clk.frame.toNat ∧ passBusy p.state = true then s.abandon k .abandonedPreempt true else s)
  | _, _ => .next s

/-- Oldest QUEUED pass of a function. -/
def State.queuedPass (s : State) (f : FnId) : Option (Nat × Pass) :=
  s.allPasses.find? fun kp => kp.2.fn == f && kp.2.state == .queued

/-- Functions of a partition whose next pass may be admitted: none in pre-emption, none whose weight region is in
SCRUBBING (R346, R404). -/
def State.admissible (s : State) (p : PartId) : List FnId :=
  allFns.filter fun f => (s.func f).part == p.val && (s.queuedPass f).isSome && (s.fn f.val).preempt.isNone &&
    !s.scrubbing f 0

/-- The function with the smallest ratio of its account to its admission weight; ties go to the lower number (R346). -/
def State.nextFn (s : State) (p : PartId) : Option FnId :=
  (s.admissible p).foldl (fun (m : Option FnId) f => match m with
    | none => some f
    | some g =>
      let a (h : FnId) : Nat := (s.fn h.val).account
      let w (h : FnId) : Nat := fld (s.fn h.val).qos 0 8
      if a f * w g < a g * w f then some f else some g) none

/-- The partition is at a pass boundary with nothing admitted, and no region of it is being zeroed (R346, R404). -/
def State.admits (s : State) (p : PartId) : Bool :=
  let mine := allFns.filter fun f => (s.func f).part == p.val
  !(s.allPasses.any fun kp => mine.contains kp.2.fn && passLive kp.2.state) &&
    !(mine.any fun f => s.scrubbing f 1 || s.scrubbing f 2)

/-- The generation that a pass of an executable pins: generation 0 for one that reads no weights, none where R330
refuses. -/
def State.pinned (s : State) (f : FnId) (x : Exe) : Option (W32 × Nat) :=
  let u := s.fn f.val
  if x.header.weightManifest = 0 then some (0, 0)
  else match u.session, u.gens.find? fun g => g.gen == u.activeGen && (g.state == .active || g.state == .rolling) with
    | some ss, some g =>
      if !u.retained && ss.manifestHash == x.header.weightManifest && ss.manifest.any fun m => m.tensors == x.tensors
        then some (g.gen, g.copy) else none
    | _, _ => none

/-- PASS_ADMIT: at a pass boundary, the partition admits the next pass, which pins the active generation, or refuses it
(R242, R301, R330, R346). -/
def execPassAdmit (p : PartId) (s : State) : Host.Outcome State Fault Refusal :=
  match (if s.up && s.admits p then s.nextFn p else none) with
  | none => .next s
  | some f =>
    match s.queuedPass f, s.loaded f with
    | some (k, _), some l =>
      if !((s.memberCores f).all s.serving) || !s.skeinTakes f l.exe || !(s.func f).enable then
        .next (s.completePass k .rejectedState 0 false)
      else match s.pinned f l.exe with
        | none => .next (s.completePass k .rejectedGeneration 0 false)
        | some (g, copy) =>
          .next ((s.updPass k fun q => { q with gen := g, copy := copy, admittedAt := s.clk.timebase }).setPassState k .admitted)
    | some (k, _), none => .next (s.completePass k .rejectedState 0 false)
    | none, _ => .next s

/-! ### Inputs, memory images and agreement -/

/-- Bytes brought from the host into a function's region of a core. -/
def State.bring (s : State) (c space abs : Nat) (data : List Byte) : State :=
  ((s.settleAll c).writeNow abs data).clearEcc space abs data.length

/-- One input of the table, where this member places its virtual core. A destination outside the function's regions is
refused as R345 refuses an engine's access. -/
def State.bringInput (s : State) (k : Nat) (f : FnId) (l : Loaded) (e : InputEntry) (data : List Byte) : State :=
  match l.coreOf e.vcore with
  | none => s
  | some c =>
    match s.resolve f (BitVec.ofNat 48 (absAddr e.space c e.offset)) data.length with
    | .ok (_, abs) => s.bring c e.space abs data
    | .error d => s.raise (.core' c) .accessDenied d (some k)

/-- Write the entries of the image section up to the first bad one; false if there is one (R218). -/
def State.bringImages (s : State) (f : FnId) (l : Loaded) : List ImageEntry → State × Bool
  | [] => (s, true)
  | e :: t =>
    let (base, size) := s.regionOf f e.space
    match l.coreOf e.vcore with
    | none => (s, false)
    | some c =>
      if e.pastEnd || !(e.space == 1 || e.space == 2) || decide (size < e.offset + e.data.length) then (s, false)
      else (s.bring c e.space (absAddr e.space c (base + e.offset)) e.data).bringImages f l t

/-- MEMORY_IMAGE_LOAD: for each attempt, the inputs and then the memory images land before AGREEING (R218, R221). `inputs`
holds the bytes of every entry of the input table, `images` the image section, both as fetched from the host now. -/
def execMemoryImageLoad (f : FnId) (inputs : List (List Byte)) (images : List ImageEntry) (s : State) :
    Host.Outcome State Fault Refusal :=
  match s.curPass f, s.loaded f with
  | some (k, p), some l =>
    if inputs.map List.length ≠ l.exe.inputs.map InputEntry.length then .refused .illFormed
    else if !(p.state == .admitted || p.state == .agreeing) || p.loaded then .next s
    else
      let s := (l.exe.inputs.zip inputs).foldl (fun s e => s.bringInput k f l e.1 e.2) s
      let (s, good) := s.bringImages f l images
      .next (if good then s.updPass k fun p => { p with loaded := true }
        else s.raise .none' .controlParity 0x07 (some k))
  | _, _ => .next s

/-- The block fence of a pinned generation: a rolling swap that has not committed every block (R333). -/
def State.fenced (s : State) (p : Pass) : Bool :=
  (s.fn p.fn.val).gens.any fun g => g.gen == p.gen && p.gen != 0 &&
    (g.state == .rolling || (g.state == .incomplete && g.back != some .active))

/-- PASS_AGREE: with inputs and images landed and no fence, the member enters AGREEING and makes its offer (R218, R309,
R311, R333). A detached member waits (R301). -/
def execPassAgree (f : FnId) (s : State) : Host.Outcome State Fault Refusal :=
  match s.curPass f, s.loaded f with
  | some (k, p), some l =>
    let multi := decide (2 ≤ l.exe.header.skeinSize)
    let first := p.state == .admitted
    if !p.loaded || !(first || p.state == .agreeing) || p.start.isSome || (first && s.fenced p) ||
        (multi && (s.skein.state != .formed || s.skein.fn != f || s.skein.offered)) then .next s
    else
      let n := if multi then s.skein.passNo else (s.fn f.val).passNo
      let s := if first then (s.updPass k fun p => { p with number := n, multi := multi }).setPassState k .agreeing else s
      .next (s.makeOffer k)
  | _, _ => .next s

/-! ### The final gate -/

/-- The byte ranges of the output table in hashing order: position in the output stream, and the entry. -/
def outputSpans : Nat → List OutputEntry → List (Nat × OutputEntry)
  | _, [] => []
  | at', e :: t => (at', e) :: outputSpans (at' + e.length) t

/-- Part of a byte range at position `at'` that lies in chunk `i` of 65,536 bytes (R381). -/
def chunkPart (i at' : Nat) (bs : List Byte) : List Byte :=
  let lo := max at' (65536 * i)
  let hi := min (at' + bs.length) (65536 * (i + 1))
  if lo < hi then (bs.drop (lo - at')).take (hi - lo) else []

/-- XOR of the leaves of the chunks that this member writes, and their bytes (R381). -/
def leavesOf (total : Nat) (mine : List (Nat × List Byte)) : BitVec 256 × Nat :=
  (List.range (ceilDiv total 65536)).foldl (fun (a : BitVec 256 × Nat) i =>
    let c := mine.flatMap fun m => chunkPart i m.1 m.2
    if c.isEmpty then a else (a.1 ^^^ sha256n (leBytes 8 i ++ c), a.2 + c.length)) (0, 0)

/-- One output range: its bytes go to the host, after the code check of the read (R177). -/
def State.sendOutput (s : State) (k : Nat) (p : Pass) (l : Loaded) (mine : List (Nat × List Byte)) (e : Nat × OutputEntry) :
    State × List (Nat × List Byte) :=
  match l.coreOf e.2.vcore with
  | none => (s, mine)
  | some c =>
    let a : MAddr := BitVec.ofNat 48 (absAddr e.2.space c e.2.offset)
    match s.resolve p.fn a e.2.length with
    | .error d => (s.raise (.core' c) .accessDenied d (some k), mine)
    | .ok (_, abs) =>
      let data := s.readNow c abs e.2.length
      let s := match eccWorst s.ecc (eccWord e.2.space) abs e.2.length with
        | some .correctable => s.raise (.core' c) .eccCorrected (eccDetail e.2.space) (some k)
        | some .uncorrectable => s.raise (.core' c) .eccUncorrectable (eccDetail e.2.space) (some k)
        | none => s
      (s.emit (.hostWrite (nth 0 p.bufs e.2.buffer + BitVec.ofNat 64 e.2.hostOffset) data), mine ++ [(e.1, data)])

/-- FINAL_GATE: the remaining output bytes go to the endpoint, and the member joins the final gate with its clean bit, XOR
of leaves and counts (R382). A fault on the way makes the join unclean, one of the hash units too (R381). -/
def execFinalGate (f : FnId) (s : State) : Host.Outcome State Fault Refusal :=
  match s.curPass f, s.loaded f with
  | some (k, p), some l =>
    if p.state ≠ .gating ∨ p.gated = true then .next s
    else
      let (s, mine) := (outputSpans 0 l.exe.outputs).foldl (fun a e => a.1.sendOutput k p l a.2 e) (s, [])
      let s := match s.chk.hashUpset with
        | some d => ({ s with chk := { s.chk with hashUpset := none } }).raise (.io d.val) .residueMismatch 0xA0 (some k)
        | none => s
      let (x, b) := leavesOf ((l.exe.outputs.map OutputEntry.length).foldl (· + ·) 0) mine
      match s.pass k with
      | none => .next s
      | some q =>
        if q.state ≠ .gating then
          let msg := fun (ty : Byte) => barrierMsg ty q.number 0xFFFF q.attempt false
          .next (if !s.inSkein q then s
            else if s.stitchRoot then s.sendTo s.stitchChildren (msg 0x02) else s.sendTo [s.stitchParent] (msg 0x01))
        else
          let s := (s.setPass k { q with leafXor := x, leafBytes := b, gated := true }).joinTry k
          .next (if !s.inSkein q then s
            else
              let s := s.gateOwn f 0xFFFD (x.setWidth 128)
              let s := s.gateOwn f 0xFFFE ((x >>> 128).setWidth 128)
              s.gateOwn f 0xFFFF (BitVec.ofNat 128 (q.checks + 2 ^ 64 * b)))
  | _, _ => .next s

/-- Output hash from the XOR of the leaves and the byte count of the output stream (R381). -/
def outputHash (x : BitVec 256) (b : Nat) : BitVec 256 :=
  sha256n (leBytes 32 x.toNat ++ leBytes 8 (ceilDiv b 65536) ++ leBytes 8 b)

/-- CAP_LIB_VERSION. -/
def State.libVersion (s : State) : Nat :=
  match s.library with
  | some l => l.minor.toNat + 2 ^ 16 * l.abi.toNat
  | none => 0

/-- The result certificate (table "Result certificate", R384). -/
def State.certificate (s : State) (p : Pass) (x : Exe) (h : BitVec 256) (checks : Nat) : List Byte :=
  [0x43, 0x45, 0x52, 0x54] ++ leBytes 2 1 ++ [if bitAt x.header.flags 0 then 1 else 0, 0] ++ leBytes 32 h.toNat ++
    leBytes 32 (Exe.hash x).toNat ++ leBytes 32 x.header.weightManifest.toNat ++ leBytes 4 p.gen.toNat ++
    leBytes 4 s.libVersion ++ leBytes 8 checks ++ leBytes 8 p.seed.toNat

/-- The gate's result at this member: the clean AND, the XOR of the leaves, the check count and the byte count (R382). -/
def State.gateResult (s : State) (p : Pass) : Option (Bool × BitVec 256 × Nat × Nat) :=
  if !s.inSkein p then some (p.clean, p.leafXor, p.checks, p.leafBytes)
  else match s.skein.gateClean, s.skein.gateLo, s.skein.gateHi, s.skein.gateCount with
    | some false, _, _, _ => some (false, 0, 0, 0)
    | some true, some lo, some hi, some n =>
      some (true, lo.setWidth 256 ||| (hi.setWidth 256 <<< 128), fld n 0 64, fld n 64 64)
    | _, _, _, _ => none

/-- GATE_RESULT: a true gate writes the certificate and then the completion; a false one abandons the attempt (R19, R383,
R384). -/
def execGateResult (f : FnId) (s : State) : Host.Outcome State Fault Refusal :=
  match s.curPass f, s.loaded f with
  | some (k, p), some l =>
    if p.state ≠ .gating ∨ p.gated = false then .next s
    else match s.gateResult p with
      | none => .next s
      | some (false, _) => .next (s.abandon k .abandonedSkein false)
      | some (true, x, n, b) =>
        let h := outputHash x b
        let s := s.emit (.certificate p.certAddr (s.certificate p l.exe h n))
        .next (s.completePass k (if p.attempt = 0 then .done else .doneRetried) (h.setWidth 64) true)
  | _, _ => .next s

/-- OUTPUT_WRITE_ERROR: before the member's gate join a contained fault, after it the completion ring goes to ERROR (R383,
R350). -/
def execOutputWriteError (f : FnId) (s : State) : Host.Outcome State Fault Refusal :=
  match s.curPass f with
  | none => .next s
  | some (k, p) =>
    if p.state = .gating ∧ p.gated = true then .next (s.ringError f true (s.cqFor f p.ring).val)
    else if p.state = .running ∨ p.state = .gating then .next (s.raise (.io 0) .linkDown 0xA0 (some k))
    else .next s

/-! ### The end of an attempt -/

/-- A retry follows (R221, R312, R332): a fault here or on another member, attempts left, and nothing that forbids it. Of an
ABANDONED_SKEIN whose reason admits none, noRetry stands. -/
def State.retries (s : State) (p : Pass) (l : Loaded) : Bool :=
  (p.status == some .abandonedFault || p.status == some .abandonedSkein) && !p.noRetry && !s.chk.fatal &&
    decide (p.attempt < l.exe.header.retries.toNat) && (s.memberCores p.fn).all s.serving &&
    (!s.inSkein p || s.skein.state == .formed || s.skein.state == .detached)

/-- The next attempt of a pass: back to AGREEING with the same number and generation (R221). -/
def Pass.again (p : Pass) : Pass :=
  { p with attempt := p.attempt + 1, loaded := false, start := none, kernel := 0, resolved := false, joined := false,
           cleanKernels := 0, clean := true, status := none, abandonedAt := none, fault := none, checks := 0, leafXor := 0,
           leafBytes := 0, gated := false }

/-- Offers of the abandoned attempt go; those of the next one stay held. -/
def State.dropOffers (s : State) (p : Pass) : State :=
  if s.inSkein p then
    { s with skein := { s.skein with
        offers := [], offered := false, joins := [], joinsClean := true,
        held := s.skein.held.filter fun h => h.2.2.mtype != 0x05 || fld h.2.2.msg 0 32 != p.number.toNat ||
          fld h.2.2.msg 32 8 != p.attempt } }
  else s

/-- QUIESCE_COMPLETE: every weft tag of the abandoned attempt has returned (R219, R221). -/
def execQuiesceComplete (f : FnId) (s : State) : Host.Outcome State Fault Refusal :=
  match s.curPass f with
  | none => .next s
  | some (k, p) =>
    let owed := s.txns.any fun kv => match kv.2 with
      | some t => t.pass == k
      | none => false
    if p.state ≠ .quiescing ∨ owed = true then .next s
    else
      let s := s.dropOffers p
      if (s.loaded f).any fun l => s.retries p l then
        .next (((s.setPassState k .agreeing).updPass k Pass.again).settlePreempt f)
      else .next (s.completePass k (p.status.getD .abandonedFault) 0 false)

/-- PASS_WATCHDOG: a pass short of COMPLETE at pass_limit ends with TIMEOUT and without a retry (R218); a higher cause of
the same slot group keeps its status (R220). -/
def execPassWatchdog (f : FnId) (s : State) : Host.Outcome State Fault Refusal :=
  match s.curPass f, s.loaded f with
  | some (k, p), some l =>
    if (s.clk.timebase - p.admittedAt).toNat < 8000 * l.passLimit then .next s
    else if p.state = .quiescing ∧ p.abandonedAt ≠ some (s.clk.frame, s.clk.sg) then
      .next (s.setPass k { p with status := some .timeout, noRetry := true })
    else .next (s.abandon k .timeout true)
  | _, _ => .next s

end Sys2Proof.Machine
end

