-- ==== Sys2Proof/Machine/Load.lean ====
section
/-! DEFINITION. PROGRAM_LOAD: the checks of R213 on an executable and its load image, the placement (R5, R214, R463), and
the effect of an accepted load (R127, R326, R400, R404). -/

namespace Sys2Proof.Machine

/-! ### Check 1: format -/

/-- Virtual cores of the grid. -/
def Exe.vcores (x : Exe) : Nat := x.header.gridW * x.header.gridH
/-- The executable is parameterised by core count (header flags, bit 1). -/
def Exe.parameterised (x : Exe) : Bool := bitAt x.header.flags 1
/-- Magic of an executable and of a load image, little-endian. -/
def exeMagic : BitVec 32 := 0x31585044
def imageMagic : BitVec 32 := 0x314D494C

/-- Header: magic, format, ranges and reserved bits (R208). -/
def headerOk (h : ExeHeader) : Bool :=
  h.magic == exeMagic && h.formatMajor == 1 && decide (h.caps.toNat < 16) && decide (h.flags.toNat < 8) && h.reserved == 0 &&
    decide (1 ≤ h.gridW ∧ h.gridW ≤ 2048 ∧ 1 ≤ h.gridH ∧ h.gridH ≤ 2048) && decide (1 ≤ h.skeinSize ∧ h.skeinSize ≤ 1024) &&
    periodCodes.contains h.pcMin.toNat && periodCodes.contains h.pcMax.toNat && decide (h.pcMin.toNat ≤ h.pcMax.toNat) &&
    decide (h.retries.toNat ≤ 3) && decide (1 ≤ h.kernels ∧ h.kernels ≤ 65535)

/-- Section types that must stand once (table "Section types"). -/
def requiredSections : List Nat := [0x01, 0x02, 0x03, 0x09, 0x0A]

/-- Every pair of a list, in order, satisfies `ok`. -/
def pairsOk {α : Type} (ok : α → α → Bool) : List α → Bool
  | [] => true
  | a :: t => t.all (ok a) && pairsOk ok t

/-- Section table (R208, R209): the sections follow the header and the table. -/
def sectionsOk (x : Exe) : Bool :=
  let head := 128 + 16 * x.sections.length
  decide (head ≤ x.file.length) &&
    (x.sections.all fun e => decide (1 ≤ e.stype.toNat) && decide (e.stype.toNat ≤ 0x0F) && e.reserved == 0 &&
      e.offset % 64 == 0 && decide (head ≤ e.offset) && decide (e.offset + e.length ≤ x.file.length)) &&
    pairsOk (fun a b => a.stype != b.stype && !rangesMeet a.offset a.length b.offset b.length) x.sections &&
    requiredSections.all fun t => x.sections.any fun e => e.stype.toNat == t

/-- Reserved fields and codes of the sections (R179, R210). -/
def recordsOk (x : Exe) : Bool :=
  (x.warps.all fun w => (w.kind == 1 || w.kind == 2) && !w.reserved) && (x.barriers.all fun b => b.reservedZero && decide (b.final ≤ 1))

/-- The five engines with their streams on a virtual core. -/
def Exe.engStreams (x : Exe) (v : Nat) : List (Eng × List W64) := allEngines.zip (Exe.streamsOf x v)

/-- The virtual cores that the executable holds streams for. -/
def Exe.allV (x : Exe) : List Nat := List.range x.streams.length

/-- A condition on every stream. -/
def Exe.everyStream (x : Exe) (ok : Nat → Eng → List W64 → Bool) : Bool :=
  (Exe.allV x).all fun v => (Exe.engStreams x v).all fun es => ok v es.1 es.2

/-- Check 1 of R213: format, sections, reserved fields and encodings (R91, R125). -/
def formatOk (x : Exe) : Bool :=
  headerOk x.header && sectionsOk x && recordsOk x && Exe.everyStream x fun _ e ws => ws.all (legalWord e)

/-! ### Check 2: structure -/

/-- Kernel lengths (R215), the sizes of the per-core sections (R210, R214), and stream lengths (R127). -/
def shapeOk (x : Exe) : Bool :=
  x.kernels.length == x.header.kernels && (x.kernels.all fun k => decide (1 ≤ k.frames ∧ k.frames ≤ 250)) &&
    x.streams.length == Exe.vcores x && x.members.length == Exe.vcores x &&
    (x.members.all fun m => decide (m.vmodule < x.header.skeinSize ∧ m.die < 12 ∧ m.localIdx < 144)) &&
    (if Exe.parameterised x then Exe.vcores x == x.header.coresMax && decide (x.header.coresMin ≤ x.header.coresMax)
     else x.header.coresMin == 0 && x.header.coresMax == 0) &&
    (x.images.all fun e => decide (e.vcore < Exe.vcores x)) &&
    (Exe.allV x).all fun v => decide (((Exe.streamsOf x v).map List.length).foldl (· + ·) 0 ≤ 24576)

/-- Manifest entry of a routine that has a body for an engine. -/
def libRoutine (lib : Option Library) (e : Eng) (n : Nat) : Option LibEntry :=
  lib.bind fun l => l.entries.find? fun r => r.number == n && r.engines.getLsbD e.num

/-- Loops and calls of a stream from word `i` on, nested at most `depth` deep, with the open loops innermost first as
(position of the ENDLOOP, body length) (R143 to R147, R155). -/
def loopsOk (lib : Option Library) (e : Eng) (depth : Nat) : Nat → List (Nat × Nat) → List W64 → Bool
  | _, st, [] => st.isEmpty
  | i, st, v :: t =>
    let w := wordOps v
    match wordOp v with
    | 0x03 =>
      let len := fld w 24 16
      decide (1 ≤ len ∧ len ≤ 24575) && decide (st.length < depth) && (!bitAt (wordMod v) 5 || fld w 0 24 != 0) &&
        loopsOk lib e depth (i + 1) ((i + 1 + len, len) :: st) t
    | 0x04 =>
      match st with
      | (p, len) :: st' => p == i && fld w 0 16 == len && loopsOk lib e depth (i + 1) st' t
      | [] => false
    | 0x05 =>
      match libRoutine lib e (fld w 0 12) with
      | some r => decide (st.length + r.loopDepth ≤ depth) && loopsOk lib e depth (i + 1) st t
      | none => false
    | 0x06 => false
    | _ => loopsOk lib e depth (i + 1) st t

/-- Words of a routine for an engine, from its entry up to its RET, if there is one. -/
def routineWords (body : List W64) (entry : Nat) : Option (List W64) :=
  let rest := body.drop (entry - 24576)
  let ws := rest.takeWhile fun v => wordOp v != 0x06
  if entry < 24576 ∨ rest.length ≤ ws.length then none else some ws

/-- MXE modes that can be in force at a point of the stream (R72). -/
structure Modes where
  regs : Bool
  psm : Bool
  deriving DecidableEq, Repr

/-- Modes possible on either of two ways. -/
def Modes.or (a b : Modes) : Modes := { regs := a.regs || b.regs, psm := a.psm || b.psm }

/-- An MMUL or MLDL keeps the limits of every mode that can be in force (R72, R75). -/
def Modes.allow (p : Modes) (v : W64) : Bool :=
  let t := (wordMod v).toNat + 1
  match wordOp v with
  | 0x43 => (!p.psm || decide (8 ≤ t)) && (!p.regs || decide (t ≤ 4 ∧ fld (wordOps v) 2 2 + t ≤ 4))
  | 0x44 => !p.psm
  | _ => true

/-- Follow MXE words in execution order from the modes that can be in force (R72): the modes after them, or none where a
word breaks a limit. A body runs again from the modes that it leaves; a loop that may run zero times keeps the modes
before it. Each call takes one of `fuel`, of which the words left and two bodies of routines need no more. -/
def mxeModes (lib : Option Library) : Nat → Modes → List W64 → Option Modes
  | 0, _, _ => none
  | _, p, [] => some p
  | n + 1, p, v :: t =>
    let w := wordOps v
    match wordOp v with
    | 0x03 =>
      let body := t.take (fld w 24 16)
      let rest := t.drop (fld w 24 16)
      if !bitAt (wordMod v) 5 && fld w 0 24 == 0 then mxeModes lib n p rest
      else do
        let q ← mxeModes lib n p body
        let _ ← mxeModes lib n (p.or q) body
        mxeModes lib n (if bitAt (wordMod v) 5 then p.or q else q) rest
    | 0x05 => do
      let l ← lib
      let r ← libRoutine lib .mxe (fld w 0 12)
      let q ← mxeModes lib n p (((r.eng[0]?).bind fun x => routineWords l.body x.entry).getD [])
      mxeModes lib n q t
    | 0x40 => mxeModes lib n { regs := !bitAt w 12, psm := bitAt w 12 } t
    | _ => if p.allow v then mxeModes lib n p t else none

/-- The MXE stream keeps the limits of R72 and R75 from the configuration of R461 on. -/
def modesOk (lib : Option Library) (e : Eng) (ws : List W64) : Bool :=
  let bodies := match lib with
    | some l => l.body.length
    | none => 0
  e != .mxe || (mxeModes lib (ws.length + 2 * bodies + 3) { regs := true, psm := false } ws).isSome

/-- A program names no library counter (R133). -/
def countersOk (v : W64) : Bool :=
  let w := wordOps v
  match wordOp v with
  | 0x07 => decide (fld w 0 6 < 56)
  | 0x08 => decide (fld w 0 6 < 56)
  | 0x0A => decide (fld w 0 6 < 56)
  | 0x7D => decide (fld w 32 6 < 56)
  | 0x7E => decide (fld w 32 6 < 56)
  | 0x7F => decide (fld w 32 6 < 56)
  | _ => true

/-- A counter field of an entry: 0 to 55, or none (R133, R210). -/
def counterFieldOk (c : Byte) : Bool := decide (c.toNat < 56) || c == 0xFF

/-- Barrier entries of a virtual core, in order. -/
def Exe.barriersOf (x : Exe) (v : Nat) : List BarrierEntry := x.barriers.filter fun b => b.vcore == v

/-- A non-empty stream ends in a final BARRIER, and every BARRIER names an entry of the virtual core (R141, R142). -/
def streamEnds (x : Exe) (v : Nat) (ws : List W64) : Bool :=
  ws.isEmpty ||
    ((ws.getLast?.any fun l => wordOp l == 0x0B && wordMod l == 1) &&
      ws.all fun l => wordOp l != 0x0B || decide (fld (wordOps l) 0 12 < (Exe.barriersOf x v).length))

/-- Mask of the engines with a non-empty stream on a virtual core. -/
def Exe.engineMask (x : Exe) (v : Nat) : Nat :=
  (Exe.engStreams x v).foldl (fun m es => if es.2.isEmpty then m else m + 2 ^ es.1.num) 0

/-- Barrier entries: one for each virtual core and kernel, with the engines of the non-empty streams (R141, R210). -/
def barriersOk (x : Exe) : Bool :=
  x.barriers.length == x.streams.length * x.kernels.length &&
    (Exe.allV x).all fun v =>
      let bs := Exe.barriersOf x v
      ((List.range x.kernels.length).all fun k => (bs.filter fun b => b.kernel == k).length == 1) &&
        bs.all fun b => (b.final == 1) == (b.kernel + 1 == x.kernels.length) && b.engines.toNat == Exe.engineMask x v

/-- Words of all streams of a virtual core. -/
def Exe.wordsOf (x : Exe) (v : Nat) : List W64 := (Exe.streamsOf x v).flatten

/-- A GDISP of the virtual core names a bobbin (R111, R179). -/
def dispNames (x : Exe) (v n : Nat) : Bool :=
  (Exe.wordsOf x v).any fun l =>
    let b0 := fld (wordOps l) 38 8
    wordOp l == 0x72 && decide (b0 ≤ n ∧ n < b0 + (fld (wordOps l) 27 6 + 1))

/-- One bobbin descriptor (table "Bobbin descriptor"). -/
def bobbinOk (x : Exe) (b : BobbinEntry) : Bool :=
  let d := b.desc
  let o := Bob.of b.number d
  decide (b.number < 256) && decide (b.vcore < Exe.vcores x) && o.base % 64 == 0 && (o.space == 1 || o.space == 2) &&
    fld d 34 6 == 0 && decide (64 ≤ o.size ∧ o.size ≤ 64 * 49152) && decide (o.base + o.size ≤ spaceSize o.space) &&
    decide (o.producer ≤ 6) && decide (o.consumer ≤ 4) && o.producer != o.consumer && (o.init == 0 || o.init == 2) &&
    (decide (o.grace ≤ 1024) || o.grace == 0x7FF) && fld d 75 5 == 0 && fld d 96 32 == 0 &&
    (if dispNames x b.vcore b.number then o.capacity != 0 && o.capacity == o.size / 8 else o.capacity == 0)

/-- A GDISP names only bobbins that exist, and an FSEND or FRECV moves its bobbin's size (R179). -/
def bobbinUses (x : Exe) (v : Nat) (l : W64) : Bool :=
  let w := wordOps l
  let find (n : Nat) := x.bobbins.find? fun b => b.vcore == v && b.number == n
  let moves (kind : Byte) : Bool := match x.warps[fld w 0 12]? with
    | some e => e.kind != kind || e.vcore != v ||
        (match find (fld w 12 8) with | some b => 64 * e.flits == (Bob.of b.number b.desc).size | none => false)
    | none => true
  match wordOp l with
  | 0x72 => (List.range (fld w 27 6 + 1)).all fun i => (find (fld w 38 8 + i)).isSome
  | 0x78 => moves 1
  | 0x79 => moves 2
  | _ => true

/-- Bobbins (R179). -/
def bobbinsOk (x : Exe) : Bool :=
  x.bobbins.all (bobbinOk x) &&
    pairsOk (fun a b =>
      let p := Bob.of a.number a.desc
      let q := Bob.of b.number b.desc
      a.vcore != b.vcore || (a.number != b.number && (p.space != q.space || !rangesMeet p.base p.size q.base q.size))) x.bobbins &&
    Exe.everyStream x fun v _ ws => ws.all (bobbinUses x v)

/-- The nodes are nodes of the tree over n, apart from each other, and together 0 to n − 1 (R54, R118). -/
def partitions (n : Nat) (nodes : List RedNode) : Bool :=
  (nodes.all fun d => decide (0 < d.len) && isTreeNode 64 0 n d.first d.len) &&
    pairsOk (fun a b => !rangesMeet a.first a.len b.first b.len) nodes && (nodes.map RedNode.len).foldl (· + ·) 0 == n

/-- Reduction and collective entries (R113, R118). -/
def reductionsOk (x : Exe) : Bool :=
  (x.reds.all fun r => (r.kind == 1 || r.kind == 2) && counterFieldOk r.counter && (r.kind == 1 || partitions r.n r.nodes)) &&
    x.colls.all fun c => counterFieldOk c.counter

/-- Kernels in which an FXE stream holds a word: the BARRIERs passed before it. -/
def namedIn (hit : W64 → Bool) : Nat → List W64 → List Nat
  | _, [] => []
  | k, v :: t =>
    if wordOp v = 0x0B then namedIn hit (k + 1) t
    else if hit v then k :: namedIn hit k t
    else namedIn hit k t

/-- Kernels that use slot-map entry `n`: those in which its core arms it, and those in which a contributor of the reduction
that it carries issues the reduction (R116, R210). -/
def Exe.entryKernels (x : Exe) (n : Nat) (w : WarpEntry) : List Nat :=
  let reduces (v : W64) (r : Nat) : Bool := (wordOp v == 0x7B || wordOp v == 0x7C) && fld (wordOps v) 22 10 == r
  namedIn (fun v => wordOp v == (if w.kind = 1 then 0x78 else 0x79) && fld (wordOps v) 0 12 == n) 0
      ((Exe.streamsOf x w.vcore).getD 4 []) ++
    match w.reduction with
    | some r => (List.range x.streams.length).flatMap fun c =>
        namedIn (fun v => reduces v r) 0 ((Exe.streamsOf x c).getD 4 [])
    | none => []

/-- Slot-map entries with their numbers. -/
def Exe.entries (x : Exe) : List (Nat × WarpEntry) := x.warps.zipIdx.map fun w => (w.2, w.1)

/-- Two entries are used in one kernel. -/
def Exe.together (x : Exe) (a b : Nat × WarpEntry) : Bool :=
  (Exe.entryKernels x a.1 a.2).any fun k => (Exe.entryKernels x b.1 b.2).contains k

/-- Warp positions of a port in a slot group: 44, or 20 on a compat port (R253, R271). -/
def State.warpBudget (s : State) (port : Nat) : Nat :=
  if s.pf (.fabPortCtrl (Fin.ofNat 32 port)) 1 2 = 3 then 20 else 44

/-- Slot group of flit 0, counted from the kernel start. -/
def WarpEntry.first (w : WarpEntry) : Nat := 100 * w.frame + w.firstSg

/-- Flits of an entry in slot group `g`, counted from the kernel start (R210). -/
def WarpEntry.inSlot (w : WarpEntry) (g : Nat) : Nat :=
  if g < WarpEntry.first w then 0 else min w.perSg (w.flits - w.perSg * (g - WarpEntry.first w))

/-- Virtual module of a virtual core. -/
def Exe.vmoduleOf (x : Exe) (v : Nat) : Nat := ((x.members[v]?).map fun m => m.vmodule).getD 0

/-- Budget of an entry: that of the port for an entry of virtual module `vm`, which is this member; what ports the others have
is not known here, and a normal port holds most. -/
def State.entryBudget (s : State) (x : Exe) (vm : Nat) (w : WarpEntry) : Nat :=
  if Exe.vmoduleOf x w.vcore = vm then s.warpBudget w.port else 44

/-- Warp entries: their ranges, and for each kernel the budget of their ports (R210, R271). -/
def State.warpsOk (s : State) (x : Exe) (vm : Nat) : Bool :=
  (x.warps.all fun w => decide (w.port < 32 ∧ w.peer < x.header.skeinSize ∧ w.frame ≤ 249 ∧ w.firstSg ≤ 99 ∧ 1 ≤ w.flits ∧ 1 ≤ w.perSg)
      && decide (w.firstPos + w.perSg ≤ s.entryBudget x vm w) && counterFieldOk w.counter && (w.kind != 1 || w.latClass == 0)) &&
    let used := (Exe.entries x).map fun a => (a.2, Exe.entryKernels x a.1 a.2)
    used.all fun a => a.2.all fun k =>
      let peers := used.filter fun b => b.1.port == a.1.port && b.1.kind == a.1.kind &&
        Exe.vmoduleOf x b.1.vcore == Exe.vmoduleOf x a.1.vcore && b.2.contains k
      (List.range ((a.1.flits - 1) / a.1.perSg + 1)).all fun i =>
        decide ((peers.map fun b => WarpEntry.inSlot b.1 (WarpEntry.first a.1 + i)).foldl (· + ·) 0 ≤ s.entryBudget x vm a.1)

/-- No chunk of 65,536 bytes of the output stream lies on two members (R381). -/
def chunksOk (x : Exe) : Bool :=
  let spans := (outputSpans 0 x.outputs).filter fun e => decide (0 < e.2.length)
  (spans.zip spans.tail).all fun e =>
    Exe.vmoduleOf x e.1.2.vcore == Exe.vmoduleOf x e.2.2.vcore || decide ((e.1.1 + e.1.2.length - 1) / 65536 < e.2.1 / 65536)

/-- Check 2 of R213: the structural rules, for the member that is virtual module `vm`. -/
def State.structureOk (s : State) (x : Exe) (vm : Nat) : Bool :=
  shapeOk x && (Exe.everyStream x fun v e ws =>
      loopsOk s.library e 4 0 [] ws && modesOk s.library e ws && ws.all countersOk && streamEnds x v ws) &&
    barriersOk x && bobbinsOk x && reductionsOk x && chunksOk x && s.warpsOk x vm

/-! ### Checks 3 to 6 -/

/-- A word that needs the FP4 and INT4 paths (R23, R77, R103). -/
def fourBit (v : W64) : Bool :=
  let w := wordOps v
  let q (n : Nat) : Bool := n == 1 || n == 6
  match wordOp v with
  | 0x40 => q (fld w 0 4) || q (fld w 4 4)
  | 0x63 => q (fld w 16 4) || q (fld w 20 4)
  | 0x64 => q (fld w 20 4)
  | _ => false

/-- A word that the AVM1536-S cannot run: a 4-bit path, or a routine that needs what is fused off (R158). -/
def needsGradeF (lib : Option Library) (e : Eng) (v : W64) : Bool :=
  fourBit v || (wordOp v == 0x05 && ((libRoutine lib e (fld (wordOps v) 0 12)).any fun r =>
    r.caps.toNat % 4 != 0 || r.engines.getLsbD 3))

/-- Check 3 of R213: fused capabilities (R158, R179), and bit 3 of caps for compat ports (R271). -/
def State.capsOk (s : State) (x : Exe) (vm : Nat) : Bool :=
  (s.fuses.grade == .f || (x.header.caps.toNat % 8 == 0 &&
      (Exe.everyStream x fun _ e ws => (e != .gxe || ws.isEmpty) && !(ws.any (needsGradeF s.library e))) &&
      x.bobbins.all fun b => let o := Bob.of b.number b.desc
        o.producer != 3 && o.consumer != 3)) &&
    (bitAt x.header.caps 3 || x.warps.all fun w => s.entryBudget x vm w == 44)

/-- Check 6 of R213: the resident library is the recorded one (R151). -/
def State.libraryOk (s : State) (x : Exe) : Bool :=
  s.library.any fun l => l.abi == x.header.libAbi && l.manifestHash == x.header.libManifest

/-! ### Check 7: placement -/

/-- Cores of a die that are not in service, spares left out: what spares stand in for (R5). -/
def State.lostOn (s : State) (die : Nat) : Nat :=
  ((List.range 144).filter fun i => let c := coreAt die i
    !s.spare c && !s.serving c).length

/-- A spare that R5 assigns. R5 does not say which spare of a die stands in for which lost core: that the lowest serving spares
of the die do, one for each lost core, is the model's choice (log entry 146). -/
def State.assignedSpare (s : State) (c : Nat) : Bool :=
  let spares := (List.range 144).filter fun i => s.spare (coreAt (coreDie c) i) && s.serving (coreAt (coreDie c) i)
  (spares.take (s.lostOn (coreDie c))).contains (coreLocal c)

/-- An available core of the function's partition (R214). -/
def State.available (s : State) (f : FnId) (c : Nat) : Bool :=
  s.inPart f c && s.serving c && (!s.spare c || s.assignedSpare c)

/-- Virtual cores of a virtual module, ascending. -/
def Exe.membersOf (x : Exe) (vm : Nat) : List (Nat × MemberEntry) :=
  x.members.zipIdx.filterMap fun m => if m.1.vmodule = vm then some (m.2, m.1) else none

/-- No die uses more spares than it has lost cores. -/
def State.sparesFit (s : State) (cores : List Nat) : Bool :=
  (List.range 12).all fun d => decide ((cores.filter fun c => coreDie c == d && s.spare c).length ≤ s.lostOn d)

/-- Virtual module that a load image names, 0 without one (R463). -/
def imageModule (img : Option LoadImage) : Nat := match img with
  | some i => i.vmodule
  | none => 0

/-- Placement of the member's virtual cores, nominal or from the load image: (core, virtual core) (R214, R463). -/
def State.placement (s : State) (f : FnId) (x : Exe) (img : Option LoadImage) : Option (List (Nat × Nat)) :=
  if Exe.parameterised x then
    let cores := ((List.range 1728).filter (s.available f)).take x.header.coresMax
    let right := match img with
      | some i => i.cores == cores
      | none => true
    if right && decide (x.header.coresMin ≤ cores.length) then some (cores.zip (List.range cores.length)) else none
  else
    let ms := Exe.membersOf x (imageModule img)
    let cores := match img with
      | some i => i.cores
      | none => ms.map fun m => coreAt m.2.die m.2.localIdx
    let right := cores.length == ms.length && (cores.zip ms).all (fun (cm : Nat × Nat × MemberEntry) => coreDie cm.1 == cm.2.2.die) &&
      pairsOk (fun a b => a != b) cores && s.sparesFit cores &&
      cores.all fun c => s.inPart f c && s.serving c && (img.isSome || s.available f c)
    if right then some (cores.zip (ms.map (·.1))) else none

/-- The load image of `len` bytes keeps its layout, names this executable, and stays in the partition (R463). -/
def State.imageOk (s : State) (f : FnId) (x : Exe) (len : Nat) (i : LoadImage) : Bool :=
  len == 48 + 2 * i.cores.length + 4 * i.routes.length &&
    i.magic == imageMagic && decide (i.vmodule < x.header.skeinSize) && i.reserved == 0 && i.exec == Exe.hash x &&
    (i.cores.all fun c => s.inPart f c) && i.routes.all fun r => decide (r.entry < x.warps.length ∧ r.column ≤ 23) && r.reserved == 0

/-- The loaded form of an executable, with the clamps of R138, R180 and R224. -/
def loadedOf (x : Exe) (img : Option LoadImage) (place : List (Nat × Nat)) : Loaded :=
  { exe := x, vmodule := imageModule img, place := place,
    routes := (match img with | some i => i.routes | none => []), stall := max 256 (min (2 ^ 24) x.header.stall.toNat),
    grace := min 1024 x.header.grace.toNat, passLimit := max 1000 (min 1000000 x.header.passLimit.toNat) }

/-- Adjacent pairs and rectangles land as the table says (R214). -/
def adjacencyOk (l : Loaded) (e : AdjEntry) : Bool :=
  match l.coreOf e.a with
  | none => !e.rectangle && (l.coreOf e.b).isNone
  | some c =>
    if e.rectangle then
      (List.range e.dx).all fun i => (List.range e.dy).all fun j =>
        match l.coreOf (e.a + j * l.exe.header.gridW + i) with
        | some d => coreX d == coreX c + i && coreY d == coreY c + j
        | none => false
    else match l.coreOf e.b with
      | some d => neighbour c e.dir == some d
      | none => false

/-- Slot-map entries of the member with their cores. -/
def Loaded.myEntries (l : Loaded) : List (Nat × WarpEntry × Nat) :=
  (Exe.entries l.exe).filterMap fun e => (l.coreOf e.2.vcore).map fun c => (e.1, e.2, c)

/-- Cycle in which the I/O die injects a receive flit towards its core (R256). -/
def recvInject (w : WarpEntry) (i : Nat) : Nat :=
  let (f, s, p) := recvPlace w i
  slotCycle f s + 40 + p

/-- Outputs that an entry's flits take. -/
def Loaded.entryClaims (l : Loaded) (e : Nat × WarpEntry × Nat) : List (Nat × Nat × Nat) :=
  let node := l.portNode e.2.1 e.1 e.2.2
  (List.range e.2.1.flits).flatMap fun i =>
    if e.2.1.kind = 1 then
      match sendInject e.2.1 (nodeSteps e.2.2 node) i with
      | some t => warpClaims e.2.2 node t
      | none => []
    else warpClaims node e.2.2 (recvInject e.2.1 i)

/-- No two entries of one kernel claim an output in one cycle, and no route starts, turns or ends where it may not (R214,
R240). -/
def State.routesOk (s : State) (l : Loaded) : Bool :=
  pairsOk (fun a b => !(Exe.together l.exe (a.1, a.2.1) (b.1, b.2.1)) ||
      !((l.entryClaims a).any fun c => (l.entryClaims b).contains c)) l.myEntries &&
    l.myEntries.all fun e =>
      let node := l.portNode e.2.1 e.1 e.2.2
      (if e.2.1.kind = 1 then warpCorners e.2.2 node else warpCorners node e.2.2).all s.serving

/-- Injection cycles of a send entry, or landing cycles of a receive entry, at its core (R256). -/
def Loaded.coreCycles (l : Loaded) (e : Nat × WarpEntry × Nat) : List Nat :=
  let d := nodeSteps e.2.2 (l.portNode e.2.1 e.1 e.2.2)
  if e.2.1.kind = 1 then (List.range e.2.1.flits).filterMap (sendInject e.2.1 d)
  else (List.range e.2.1.flits).map (landCycle e.2.1 d)

/-- The cycles of R257: no shared injection or landing cycle of a core, within an entry or between two, and no fetch before
the kernel. -/
def cyclesOk (l : Loaded) : Bool :=
  (l.myEntries.all fun e => pairsOk (fun a b => a != b) (l.coreCycles e)) && (pairsOk (fun a b => a.2.2 != b.2.2 || a.2.1.kind != b.2.1.kind || !(Exe.together l.exe (a.1, a.2.1) (b.1, b.2.1)) ||
      !((l.coreCycles a).any fun t => (l.coreCycles b).contains t)) l.myEntries) &&
    l.myEntries.all fun e => e.2.1.kind != 1 || (List.range e.2.1.flits).all fun i =>
      let (f, s, p) := warpPlace e.2.1 i
      decide (104 + 16 * nodeSteps e.2.2 (l.portNode e.2.1 e.1 e.2.2) ≤ slotCycle f s + p)

/-- The loaded form with a route record for each entry whose column R236 moves past a bypassed edge router (R463). -/
def State.withColumns (s : State) (l : Loaded) : Loaded :=
  let add := l.myEntries.filterMap fun (e : Nat × WarpEntry × Nat) =>
    let io := e.2.1.port / 8
    let col := s.attachColumn (coreX e.2.2) io - ioBase io
    if (l.routes.any fun r => r.entry == e.1) || attachOff l.routes e.1 e.2.2 io == col then none
    else some { entry := e.1, column := col, reserved := 0 }
  { l with routes := l.routes ++ add }

/-- CAP_LATENCY_VER: the version of the worst-case latency table (R211). -/
def capLatencyVer : Nat := 1
/-- CAP_LIB_ABI_MAJOR: the library ABI that the module accepts (R151). -/
def capLibAbiMajor : Nat := 1

/-- A pass past QUEUED stands on the function's partition: the program regions are no loader's then (R127, R213). -/
def State.partRuns (s : State) (f : FnId) : Bool := allFns.any fun g => s.sharePart f g && (s.curPass g).isSome

/-- The first check of R213 that fails, or the loaded form; `len` is the load image's length in bytes. -/
def State.loadCheck (s : State) (f : FnId) (x : Exe) (len : Nat) (img : Option LoadImage) : Except Status Loaded :=
  let vm := imageModule img
  if !formatOk x || !s.structureOk x vm then .error .rejectedFormat
  else if !s.capsOk x vm || x.header.latVersion.toNat != capLatencyVer || decide (s.clk.period.toNat < x.header.pcMin.toNat) ||
      decide (x.header.pcMax.toNat < s.clk.period.toNat) then .error .rejectedCapability
  else if !s.libraryOk x then .error .rejectedLibrary
  else if !(img.all (s.imageOk f x len)) then .error .rejectedFormat
  else match s.placement f x img with
    | none => .error .rejectedCapability
    | some place =>
      let l := s.withColumns (loadedOf x img place)
      if !cyclesOk l then .error .rejectedFormat
      else if !(x.adjacency.all (adjacencyOk l)) || !s.routesOk l then .error .rejectedCapability
      else if s.partRuns f || (s.skein.state != .none && s.sharePart f s.skein.fn) || !(s.func f).enable then
        .error .rejectedState
      else .ok l

/-! ### The effect of a load -/

/-- The committed shards that `bad` names are uncommitted, with their blocks, and the generation becomes INCOMPLETE if it held
any of them (R326, R377, R403); one that is LOADING is discarded (R333). `scrub` keeps the state to which the repair returns. -/
def Gen.uncommit (g : Gen) (bad : ShardEntry → Bool) (scrub : Bool) : Gen :=
  let hit := g.entries.filter fun e => bad e && g.shards.contains e.index
  let badBlock := fun (b : Nat) => hit.any fun e => e.block == b
  let stays := fun (i : Nat) => !(hit.any fun e => e.index == i)
  if g.state == .retired || g.state == .prepared || hit.isEmpty then g
  else if g.state == .loading then { g with state := .retired, blocks := [], shards := [], begun := [], homes := [], desc := none }
  else
    { g with
      blocks := g.blocks.filter fun b => !badBlock b
      shards := g.shards.filter stays
      homes := g.homes.filter fun h => stays h.1
      begun := g.begun.filter fun b => !badBlock b
      back := if g.state == .incomplete then g.back else if scrub then some g.state else none
      lost := if scrub || g.back.isSome then
          g.lost ++ ((hit.map fun e => e.block).eraseDups.filter fun b => !g.lost.contains b)
        else g.lost
      state := .incomplete }

/-- Uncommit shards of a function's generations, with their trace points. -/
def State.uncommit (s : State) (f : FnId) (bad : Gen → ShardEntry → Bool) (scrub : Bool) : State :=
  let old := (s.fn f.val).gens
  let new := old.map fun g => g.uncommit (bad g) scrub
  (old.zip new).foldl (fun s gn =>
    let s := s.traceGen f gn.1.gen gn.1.state gn.2.state
    if gn.2.state == .retired && gn.1.state == .loading then s.discarded f gn.1 else s) (s.updFn f.val fun u => { u with gens := new })

/-- A committed shard whose virtual core the new placement puts on another core than the one that the commit record names
(R326, R427). -/
def movedShard (new : Loaded) (g : Gen) (e : ShardEntry) : Bool :=
  g.homes.any fun h => h.1 == e.index && (e.vmodule != new.vmodule || new.coreOf e.vcore != some h.2)

/-- A clamp at load is reported as one of a set-up field (R138, R342); the offset that its log entry names is not stated. -/
def State.logClamp (s : State) (f : FnId) (lsb w a : Nat) : State :=
  if w = a then s
  else
    let (o, s) := s.draw 0x138
    s.logField f (fld o 0 20) lsb w a false

/-- The streams of the placed virtual cores enter the program regions (R127). -/
def State.writeStreams (s : State) (l : Loaded) : State :=
  l.place.foldl (fun s cv =>
    let bs := (Exe.wordsOf l.exe cv.2).flatMap fun w => leBytes 8 w.toNat
    let a := absAddr 3 cv.1 0
    (s.writeNow a bs).clearEcc 3 a bs.length) s

/-- An accepted load (R213, R326, R400, R404). -/
def State.install (s : State) (f : FnId) (l : Loaded) : State :=
  let s := s.uncommit f (movedShard l) false
  let s := if (s.loaded f).isSome then (s.startScrub f 1).startScrub f 2 else s
  let s := (s.updFn f.val fun u => { u with exe := some l }).writeStreams l
  let h := l.exe.header
  ((s.logClamp f 0 h.stall.toNat l.stall).logClamp f 0 h.grace.toNat l.grace).logClamp f 0 h.passLimit.toNat l.passLimit

/-- PROGRAM_LOAD (R213). `x` is the executable and `img` the load image as they lie in host memory, none for length 0. -/
def execProgramLoad (f : FnId) (r : RingId) (i : BitVec 12) (x : Exe) (img : Option LoadImage) (s : State) :
    Host.Outcome State Fault Refusal :=
  match s.taken f r i 2 with
  | none => .next s
  | some d =>
    if x.file.length ≠ dfld d.desc 24 8 ∨ img.isNone ≠ (dfld d.desc 40 4 == 0) then .refused .illFormed
    else
      let info := { CplInfo.plain with summary := (Exe.hash x).setWidth 64 }
      match s.loadCheck f x (dfld d.desc 40 4) img with
      | .error st => .next (s.complete f r i st info)
      | .ok l => .next ((s.install f l).complete f r i .done info)

end Sys2Proof.Machine
end

