-- ==== Sys2Proof/Machine/Integrity.lean ====
section
/-! DEFINITION. The fault collector (R369 to R376), fencing (R242, R375), and scrub (R178, R377, R378). -/

namespace Sys2Proof.Machine

/-! ### Fencing -/

/-- Weft accesses queued at a core that is fenced are discarded, each with a FENCED_TARGET reply (R242); an atomic loses its
pending replay entry. -/
def State.dropQueued (s : State) (c : Nat) : State :=
  (s.core c).queue.foldl (fun s a => match a.flit with
    | some f => (if a.kind == .atomic then s.unrecord f else s).sendReply (fencedReply s c f 0x01) c
    | none => s) (s.updCore c fun k => { k with queue := k.queue.filter fun a => a.flit.isNone })

/-- A core that leaves service: its engines are halted and hold no program, its cycle counter stops (R238, R432). -/
def State.leaveService (s : State) (c : Nat) (svc : CoreSvc) (cause : Byte) : State :=
  s.updCore c fun k => { k with
    svc := svc, cause := cause, injq := [],
    obs := { k.obs with frozen := match k.obs.frozen with | some v => some v | none => some s.clk.clocked } }

/-- No partition includes a die that is out of service (R241). -/
def State.dropParts (s : State) : State :=
  ((List.range 12).map (Fin.ofNat 12)).foldl (fun s p =>
    let v := s.part p
    if v.enable && s.diesOut.any fun d => v.hasDie d.val then
      s.setReg 0 (.setPart p) (putField (s.reg 0 (.setPart p)) 8 1 0)
    else s) s

/-- A compute die leaves service: its cores are out of service, its bypassed routers stay bypassed, and no partition includes it
(R238, R241). -/
def State.dieOut (s : State) (d : DieId) : State :=
  let s := ((List.range 144).map (coreAt d.val)).foldl (fun s c =>
    if (s.core c).svc = .bypassed then s else (s.dropQueued c).leaveService c .outOfService (s.core c).cause) s
  { s with diesOut := if s.diesOut.contains d then s.diesOut else s.diesOut ++ [d] }.dropParts

/-- Fence a core in service (R242): passes that use it are abandoned without a retry, with ABANDONED_FAULT where the collector
fences for a persistent fault (R373), and the skein that it belongs to breaks (R313). `cause` is 0 for a request of the
host. -/
def State.fenceCore (s : State) (c : Nat) (cause : Byte) : State :=
  if !s.serving c then s
  else
    let users := s.allPasses.filter fun kp => passLive kp.2.state && (s.memberCores kp.2.fn).contains c
    let st := if cause = 0 then Status.abandonedSkein else .abandonedFault
    let s := users.foldl (fun s kp => s.abandon kp.1 st true) s
    let s := (s.dropQueued c).leaveService c .fenced cause
    if s.skein.multi && (s.memberCores s.skein.fn).contains c then s.breakSkein 0x15 s.moduleId else s

/-! ### The collector -/

/-- Ticks of a second and of a millisecond (R275). -/
def tickSecond : Nat := 8000000000
def tickMilli : Nat := 8000000

/-- Key of the attempt that a record touched. -/
def attemptKey (r : FaultRecord) : Nat := (fld r.function 0 4) * 2 ^ 32 + r.pass.toNat

/-- A scrub finding (R374). -/
def isScrub (r : FaultRecord) : Bool := r.cause == .eccUncorrectable && (r.detail == 0x75 || r.detail == 0x76)

/-- Number of the weight scrub period that a tick lies in, plus 1. -/
def State.scrubPeriod (s : State) (t : Nat) : Nat := t / (tickMilli * s.pf .chkScrub 0 13) + 1

/-- A record that counts towards fencing its core (R371, R374). -/
def State.counts (s : State) (r : FaultRecord) : Bool :=
  decide (r.core.toNat < 1728) && countsFor r.cause r.detail &&
    (if isScrub r then AMap.get 0 s.chk.scrubbed r.core.toNat != s.scrubPeriod r.timebase.toNat
     else r.attempt == 0xFF || !s.chk.counted.contains (r.core.toNat, attemptKey r, r.attempt.toNat))

/-- Timebases of a core's counting faults that lie within the window at a new one, with the new one (R374). -/
def State.counted (s : State) (r : FaultRecord) : List Nat :=
  let now := r.timebase.toNat
  ((AMap.get [] s.chk.counting r.core.toNat).filter fun t => decide (now ≤ t + tickSecond * s.pf .chkFenceCfg 8 6)) ++ [now]

/-- The count of a record's core, and whether the fault is persistent: the core's count has reached the threshold and
restarts (R374, R375). -/
def State.countFault (s : State) (r : FaultRecord) : State × Bool :=
  if !s.counts r then (s, false)
  else
    let c := r.core.toNat
    let l := s.counted r
    let beyond := decide (s.pf .chkFenceCfg 0 3 ≤ l.length)
    ({ s with chk := { s.chk with
        counting := AMap.set [] s.chk.counting c (if beyond then [] else l)
        counted := if isScrub r || r.attempt == 0xFF then s.chk.counted
          else (c, attemptKey r, r.attempt.toNat) :: s.chk.counted
        scrubbed := if isScrub r then AMap.set 0 s.chk.scrubbed c (s.scrubPeriod r.timebase.toNat) else s.chk.scrubbed } }, beyond)

/-- CHK_FAULT_COUNT after a record (R386). -/
def Chk.tally (k : Chk) (c : FaultClass) : Chk :=
  match c with
  | .corrected => { k with corrected := satInc 32 k.corrected }
  | .contained => { k with contained := satInc 16 k.contained }
  | .persistent => { k with persistent := satInc 8 k.persistent }
  | .fatal => { k with fatals := satInc 8 k.fatals }

/-- Function of the pass that a record touched, if any (R370). -/
def recordFn (r : FaultRecord) : Option FnId := if bitAt r.function 7 then none else some (Fin.ofNat 16 (fld r.function 0 4))

/-- Vector 1 of a function for a fault whose log-ring entry, which raises it too, was discarded for want of a ring (R360,
R370). -/
def State.faultVector (s : State) (f : FnId) : State :=
  if (s.fn f.val).log.isNone then s.interrupt f 1 else s

/-- The collector records a fault: registers, counts, log rings and interrupts (R370, R386, R441). -/
def State.collect (s : State) (r : FaultRecord) : State :=
  let r := { r with seq := s.chk.seq }
  let s := { s with chk := { (s.chk.tally r.cls) with
    last := some r, first := (match s.chk.first with | some f => some f | none => some r), seq := s.chk.seq + 1 } }
  let fn : Byte := match recordFn r with
    | some f => BitVec.ofNat 8 f.val
    | none => 0xFF
  let s := (s.logBoth (recordFn r) 0x01 fn (FaultRecord.bytes r)).faultVector pfn
  match recordFn r with
  | some f => if f = pfn then s else s.faultVector f
  | none => s

/-- FAULT_RECORD_DELIVERY: the oldest record of a reporter reaches the collector (R369, R374, R375). -/
def execFaultRecordDelivery (d : Fin 16) (s : State) : Host.Outcome State Fault Refusal :=
  match s.reporter d.val with
  | [] => .next s
  | r :: rest =>
    if !s.up then .next s
    else
      let s := { s with chk := { s.chk with reporters := AMap.set [] s.chk.reporters d.val rest } }
      let (s, beyond) := if r.cls == .contained then s.countFault r else (s, false)
      if beyond then
        let s := s.collect { r with cls := .persistent }
        .next (s.fenceCore r.core.toNat r.cause.code)
      else .next (s.collect r)

/-- DIE_HEARTBEAT (R369). -/
def execDieHeartbeat (d : Fin 16) (s : State) : Host.Outcome State Fault Refusal :=
  .next (if s.up then { s with chk := { s.chk with silent := AMap.set 0 s.chk.silent d.val 0 } } else s)

/-- HEARTBEAT_TIMEOUT: two frames without a heartbeat of a reporter (R369). -/
def execHeartbeatTimeout (d : Fin 16) (s : State) : Host.Outcome State Fault Refusal :=
  .next (if s.up && decide (2 ≤ AMap.get 0 s.chk.silent d.val) && !s.chk.fatal then s.raise .none' .controlParity 0xA2 none else s)

/-- Reporter of the core field of a record (R369, R370). -/
def srcOf (core : BitVec 16) : Src :=
  if core.toNat < 1728 then .core' core.toNat
  else if 0x1000 ≤ core.toNat ∧ core.toNat < 0x1004 then .io (core.toNat - 0x1000)
  else .none'

/-- FATAL_FAULT: a check whose fault is fatal fails: a cause and detail of class fatal, or the check of R18, for which the
spec names no detail (R18, R371, R376). With CONTROL_PARITY 0x84 the core's die leaves service (R241). -/
def execFatalFault (cause : Cause) (detail : Byte) (core : BitVec 16) (s : State) : Host.Outcome State Fault Refusal :=
  if !(s.up && (classOf cause detail false == .fatal || cause == .controlParity)) then .next s
  else
    let s := s.raiseFatal (srcOf core) cause detail
    .next (if cause = .controlParity ∧ detail = 0x84 ∧ core.toNat < 1728 then s.dieOut (Fin.ofNat 12 (coreDie core.toNat)) else s)

/-! ### Scrub -/

/-- Space, code word bytes and words of a scrubbed memory. -/
def scrubSpace : ScrubMem → Nat
  | .activation => 1 | .partialSum => 2 | .instruction => 3

/-- Mark of the code word at an address. -/
def State.eccMark (s : State) (a : Nat) : Option EccMark := (s.ecc.find? fun kv => kv.1 == a).map (·.2)

/-- The mark of a code word is gone. -/
def State.cleanWord (s : State) (a : Nat) : State := { s with ecc := s.ecc.filter fun kv => kv.1 != a }

/-- Shard bytes (R322). -/
def shardBytes : Nat := 4194304

/-- What holds a slice word: function, generation and shard, by the commit record or by the placement of the loaded executable
(R330, R334). -/
def State.holders (s : State) (c off : Nat) : List (FnId × Gen × ShardEntry) :=
  allFns.flatMap fun f =>
    match (s.fn f.val).session.bind (·.manifest) with
    | some m =>
      (s.fn f.val).gens.filterMap fun g =>
        let base := (s.func f).wBase + g.copy * m.copyLen
        let here := fun (e : ShardEntry) => g.homes.contains (e.index, c) ||
          (s.loaded f).any fun l => l.vmodule == e.vmodule && l.coreOf e.vcore == some c
        if g.state == .retired || g.state == .prepared || decide (off < base) || decide (base + m.copyLen ≤ off) then none
        else (g.entries.find? fun e => here e && decide (e.offset ≤ off - base) &&
          decide (off - base < e.offset + shardBytes)).map fun e => (f, g, e)
    | none => []

/-- CHK_SCRUB_ERR for a finding (R377, R386). Where no generation holds the word, the fields that would name it are open. -/
def State.scrubErr (s : State) (c word : Nat) (h : Option (FnId × Gen × ShardEntry)) : State :=
  let put := fun (s : State) (g i : W32) (f : BitVec 4) => { s with chk := { s.chk with
    errGen := g, errShard := i, errFn := f, errCore := BitVec.ofNat 11 c, errWord := BitVec.ofNat 21 word, errValid := true } }
  match h with
  | some (f, g, e) => put s g.gen (BitVec.ofNat 32 e.index) (BitVec.ofNat 4 f.val)
  | none =>
    let (v, s) := s.draw 0x377
    put s (v.setWidth 32) ((v >>> 32).setWidth 32) (BitVec.ofNat 4 (v.toNat % 16))

/-- WEIGHT_SCRUB_READ of one 32-byte word of a slice (R178, R377). -/
def execWeightScrubRead (c : CoreId) (word : Fin 1572864) (s : State) : Host.Outcome State Fault Refusal :=
  let off := 32 * word.val
  let a := absAddr 0 c.val off
  if !s.up then .next s
  else
    let s := s.countNow c.val 0x1A
    match s.eccMark a with
    | none => .next s
    | some .correctable => .next ((s.cleanWord a).raise (.core' c.val) .eccCorrected 0x70 none)
    | some .uncorrectable =>
      let hs := s.holders c.val off
      let first := match hs.find? fun h => h.2.1.gen == (s.fn h.1.val).activeGen with
        | some h => some h
        | none => hs.head?
      let s := (s.scrubErr c.val word.val first).raise (.core' c.val) .eccUncorrectable 0x75 none
      .next (allFns.foldl (fun s f =>
        s.uncommit f (fun g e => hs.any fun h => h.1 == f && h.2.1.gen == g.gen && h.2.2.index == e.index) true) s)

/-- MEMORY_SCRUB_READ of one code word (R378). A word beyond the memory is none. -/
def execMemoryScrubRead (c : CoreId) (mem : ScrubMem) (word : Nat) (s : State) : Host.Outcome State Fault Refusal :=
  let sp := scrubSpace mem
  let a := absAddr sp c.val (eccWord sp * word)
  if spaceSize sp ≤ eccWord sp * word then .refused .illFormed
  else if !s.up then .next s
  else
    let s := s.countNow c.val 0x1A
    match s.eccMark a with
    | none => .next s
    | some .correctable => .next ((s.cleanWord a).raise (.core' c.val) .eccCorrected (eccDetail sp) none)
    | some .uncorrectable => .next (s.raise (.core' c.val) .eccUncorrectable 0x76 none)

end Sys2Proof.Machine
end

