-- ==== Sys2Proof/Machine/Ingest.lean ====
section
/-! DEFINITION. Weight ingest: shard records and staging slots (R322 to R326), distribution trees (R327 to R329),
generations (R330 to R334), and the zeroing of regions (R404). -/

namespace Sys2Proof.Machine

/-! ### Records and slots -/

/-- Magic of a shard record. -/
def shardMagic : BitVec 32 := 0x31485357
/-- Bytes 0 to 31 of a record: the additional data. -/
def ShardRec.aad (x : ShardRec) : List Byte :=
  leBytes 4 x.magic.toNat ++ leBytes 4 x.generation.toNat ++ leBytes 4 x.index ++ leBytes 4 0 ++ leBytes 16 x.mprefix.toNat
/-- The record as it lies in a slot (table "Shard record"). -/
def ShardRec.bytes (x : ShardRec) : List Byte :=
  ShardRec.aad x ++ leBytes 12 x.nonce.toNat ++ leBytes 20 0 ++ x.ciphertext ++ leBytes 16 x.tag.toNat
/-- Slot key of slot `n` of die `d`. -/
def slotKey (d n : Nat) : Nat := 15 * d + n
/-- Absolute address of a slot (table "I/O-die space"). -/
def slotAddr (d n : Nat) : Nat := absAddr 5 d (0x401000 * n)
/-- The record that a slot's bytes spell. -/
def State.slotRecord (s : State) (d n : Nat) : ShardRec :=
  let a := slotAddr d n
  let num := fun (i k : Nat) => leNat (memGet s.mem (a + i) k)
  { magic := BitVec.ofNat 32 (num 0 4), generation := BitVec.ofNat 32 (num 4 4), index := num 8 4,
    mprefix := BitVec.ofNat 128 (num 16 16), nonce := BitVec.ofNat 96 (num 32 12),
    reservedZero := num 12 4 == 0 && num 44 20 == 0, ciphertext := memGet s.mem (a + 64) shardBytes,
    tag := BitVec.ofNat 128 (num (64 + shardBytes) 16) }

/-- The slots of a function on each die (R347): consecutive, in ascending function number. -/
def State.ownSlots (s : State) (f : FnId) : List Nat :=
  let share := fun (g : FnId) => fld (s.fn g.val).qos 47 4
  let start := ((allFns.filter fun g => decide (g < f)).map share).foldl (· + ·) 0
  (List.range (share f)).map (start + ·)

/-- A slot named in an outstanding request (R327). -/
def State.slotNamed (s : State) (d n : Nat) : Bool :=
  s.fns.any fun kv => kv.2.dists.any fun t => t.asked.any fun a => a.1 % 4 == d && a.2.1 == n

/-- Lowest free slot of a function on a die. -/
def State.freeSlot (s : State) (f : FnId) (d : Nat) : Option Nat :=
  (s.ownSlots f).find? fun n => (s.slot (slotKey d n)).isNone && !s.slotNamed d n

/-! ### Generations -/

/-- Generation of a function by number. -/
def Func.genOf (u : Func) (g : W32) : Option Gen := u.gens.find? fun x => x.gen == g && x.state != .retired
/-- The function with a generation updated. -/
def Func.updGen (u : Func) (g : W32) (h : Gen → Gen) : Func :=
  { u with gens := u.gens.map fun x => if x.gen == g && x.state != .retired then h x else x }
/-- Entry of a shard. -/
def Gen.entry (g : Gen) (i : Nat) : Option ShardEntry := g.entries.find? fun e => e.index == i
/-- The commit record holds a shard. -/
def Gen.has (g : Gen) (i : Nat) : Bool := g.shards.contains i
/-- Every shard of this member is committed. -/
def Gen.full (g : Gen) (vm : Nat) : Bool := g.entries.all fun e => e.vmodule != vm || g.has e.index
/-- Virtual module of the member (R324, step 5). -/
def State.vmodule (s : State) (f : FnId) : Option Nat := (s.loaded f).map fun l => l.vmodule

/-- A generation changes state, with its trace point. -/
def State.setGen (s : State) (f : FnId) (g : W32) (st : GenState) : State :=
  match (s.fn f.val).genOf g with
  | some x => (s.updFn f.val fun u => u.updGen g fun x => { x with state := st }).traceGen f g x.state st
  | none => s

/-- A generation all of whose shards are committed becomes ACTIVE, and the commit's completion is written (R331, R333). -/
def State.settleGen (s : State) (f : FnId) (g : W32) : State :=
  match (s.fn f.val).genOf g, s.vmodule f with
  | some x, some vm =>
    if (x.state == .loading || x.state == .rolling || (x.state == .incomplete && !(s.fn f.val).retained)) && x.full vm then
      let s := (s.setGen f g .active).updFn f.val fun u =>
        { (u.updGen g fun x => { x with back := none, lost := [], desc := none }) with activeGen := g }
      let s := s.retireOld f
      match x.desc with
      | some (r, i) => s.finish f r i .done
      | none => s
    else s
  | _, _ => s

/-- The fetched GEN_COMMIT of a command, with its operation and the generation it names. -/
def State.commitOf (s : State) (f : FnId) (r : RingId) (i : BitVec 12) (op : Nat) : Option W32 :=
  match s.taken f r i 4 with
  | some d => if dfld d.desc 20 1 = op then some (BitVec.ofNat 32 (dfld d.desc 16 4)) else none
  | none => none

/-- A PREPARED generation may be committed: no other one is under way (R331). -/
def Func.commitFree (u : Func) (g : W32) : Bool :=
  !(u.gens.any fun x => x.gen != g && (x.state == .loading || x.state == .rolling || x.state == .incomplete))

/-- The copy that the active generation lies in, if there is one. -/
def Func.activeCopy (u : Func) : Option Nat := (u.genOf u.activeGen).map fun x => x.copy

/-- Length of a copy (R320). -/
def Func.copyLen (u : Func) : Nat := ((u.session.bind fun x => x.manifest).map fun m => m.copyLen).getD 0

/-- PREPARED: the list and the wrapped key are accepted (R321); a generation that waits for its key is not. -/
def Gen.isPrepared (g : Gen) : Bool := g.state == .prepared && g.listed && g.key.isSome

/-- GEN_COMMIT STAGED (R331, R345). -/
def execGenCommitStaged (f : FnId) (r : RingId) (i : BitVec 12) (s : State) : Host.Outcome State Fault Refusal :=
  match s.commitOf f r i 1 with
  | none => .next s
  | some g =>
    let u := s.fn f.val
    match u.genOf g with
    | none => .next (s.finish f r i .rejectedGeneration)
    | some x =>
      let copy := match u.activeCopy with
        | some c => 1 - c
        | none => 0
      let busy := s.allPasses.any fun kp => kp.2.fn == f && passLive kp.2.state && kp.2.gen != 0 && kp.2.copy == copy
      if !x.isPrepared then .next (s.finish f r i .rejectedGeneration)
      else if !u.commitFree g || busy || decide ((s.func f).wSize < 2 * u.copyLen) then .next (s.finish f r i .rejectedState)
      else
        let s := (s.executing f r i).updFn f.val fun u => u.updGen g fun x =>
          { x with mode := .staged, copy := copy, desc := some (r, i) }
        .next ((s.setGen f g .loading).settleGen f g)

/-- GEN_COMMIT ROLLING (R331). -/
def execGenCommitRolling (f : FnId) (r : RingId) (i : BitVec 12) (s : State) : Host.Outcome State Fault Refusal :=
  match s.commitOf f r i 2 with
  | none => .next s
  | some g =>
    let u := s.fn f.val
    match u.genOf g with
    | none => .next (s.finish f r i .rejectedGeneration)
    | some x =>
      if !x.isPrepared then .next (s.finish f r i .rejectedGeneration)
      else if !u.commitFree g then .next (s.finish f r i .rejectedState)
      else
        let s := (s.executing f r i).updFn f.val fun u =>
          { (u.updGen g fun x => { x with mode := .rolling, copy := u.activeCopy.getD 0, desc := some (r, i) }) with activeGen := g }
        .next (((s.setGen f g .rolling).retireOld f).settleGen f g)

/-- GEN_COMMIT ABORT (R331, R333): a staged generation that would be INCOMPLETE is discarded. -/
def execGenCommitAbort (f : FnId) (r : RingId) (i : BitVec 12) (s : State) : Host.Outcome State Fault Refusal :=
  match s.commitOf f r i 3 with
  | none => .next s
  | some g =>
    match (s.fn f.val).genOf g with
    | none => .next (s.finish f r i .rejectedGeneration)
    | some x =>
      match x.state with
      | .prepared => if !x.isPrepared then .next (s.finish f r i .rejectedGeneration) else .next (((s.setGen f g .retired).discarded f x).finish f r i .done)
      | .loading => .next (((s.setGen f g .retired).discarded f x).finish f r i .done)
      | .rolling => .next ((s.setGen f g .incomplete).finish f r i .done)
      | _ => .next (s.finish f r i .rejectedGeneration)

/-! ### Failures, notices and requests (R324, R327 to R329) -/

/-- ING_DIST_FAIL after a failure. -/
def State.ingestFail (s : State) (index reason : Nat) (parent : BitVec 12) : State :=
  { s with distFail := { shard := BitVec.ofNat 32 index, reason := reason, valid := true, parent := parent,
                         count := satInc 16 s.distFail.count } }

/-- The value of ING_DIST_FAIL. -/
def DistFail.value (x : DistFail) : Nat :=
  x.shard.toNat + x.reason % 8 * 2 ^ 32 + (if x.valid then 2 ^ 35 else 0) + x.parent.toNat * 2 ^ 36 + x.count * 2 ^ 48

/-- A notice (table "Notice"). -/
def noticeOf (ty slot : Nat) (sender : BitVec 12) (gen : W32) (index : Nat) : BitVec 128 :=
  BitVec.ofNat 128 (ty + slot * 2 ^ 8 + sender.toNat * 2 ^ 16 + gen.toNat * 2 ^ 32 + index * 2 ^ 64)

/-- Send a notice to the same die of another module. -/
def State.notify (s : State) (m : BitVec 12) (ty slot : Nat) (gen : W32) (index : Nat) : State :=
  s.emit (.notice m (Fin.ofNat 4 (index % 4)) (noticeOf ty slot s.moduleId gen index))

/-- Distribution entry of a generation of a function. -/
def Func.distOf (u : Func) (g : W32) : Option Dist := u.dists.find? fun t => t.gen == g
/-- The function with a distribution entry updated. -/
def Func.updDist (u : Func) (g : W32) (h : Dist → Dist) : Func :=
  { u with dists := u.dists.map fun t => if t.gen == g then h t else t }

/-- A child's subtree stores a virtual module. -/
def DistChild.takes (c : DistChild) (vm : Nat) : Bool := decide (c.lo ≤ vm) && decide (vm ≤ c.hi)

/-- A shard is this member's to fetch from its parent: its own or a child's, and not yet here (R327). -/
def State.wants (s : State) (f : FnId) (t : Dist) (g : Gen) (e : ShardEntry) : Bool :=
  ((s.vmodule f).any fun v => v == e.vmodule) && !g.has e.index || t.children.any fun c => DistChild.takes c e.vmodule

/-- Ask the parent for the next shards in ascending index, at most 4 outstanding, while slots are free (R327); on fuel. -/
def askParent : Nat → State → FnId → W32 → State
  | 0, s, _, _ => s
  | n + 1, s, f, gen =>
    match (s.fn f.val).distOf gen, (s.fn f.val).genOf gen with
    | some t, some g =>
      match t.parent, g.entries.find? fun e => decide (t.next ≤ e.index) && s.wants f t g e with
      | some m, some e =>
        if 4 ≤ t.asked.length then s
        else match s.freeSlot f (e.index % 4) with
          | none => s
          | some k =>
            let s := s.updFn f.val fun u => u.updDist gen fun t =>
              { t with next := e.index + 1, asked := t.asked ++ [(e.index, k, s.clk.timebase)] }
            askParent n (s.notify m 1 k gen e.index) f gen
      | _, _ => s
    | _, _ => s

/-- Every distribution entry goes on asking: a slot or a request has become free. -/
def State.pump (s : State) : State :=
  allFns.foldl (fun s f => (s.fn f.val).dists.foldl (fun s t => askParent 4 s f t.gen) s) s

/-- A request is no longer outstanding. -/
def State.unask (s : State) (f : FnId) (gen : W32) (index : Nat) : State :=
  s.updFn f.val fun u => u.updDist gen fun t => { t with asked := t.asked.filter fun a => a.1 != index }

/-- A failure of a request of this member: the request stays outstanding below the limit; at the fourth it ends with
ING_DIST_FAIL, the log rings and the ingest vector (R329, R441). True when it goes on. -/
def State.requestFailed (s : State) (f : FnId) (gen : W32) (index : Nat) (parent : BitVec 12) : State × Bool :=
  let n := (((s.fn f.val).distOf gen).map fun t => AMap.get 0 t.fails index).getD 0 + 1
  let s := s.updFn f.val fun u => u.updDist gen fun t =>
    { t with fails := AMap.set 0 t.fails index n
             asked := t.asked.map fun a => if a.1 = index then (a.1, a.2.1, s.clk.timebase) else a }
  if n < 4 then (s, true)
  else
    let s := (s.unask f gen index).ingestFail index 4 parent
    ((s.logBoth (some f) 0x04 (BitVec.ofNat 8 f.val) (leBytes 8 (DistFail.value s.distFail))).interrupt f 2, false)

/-- A record whose processing is over leaves its slot once no child waits for it; its descriptor then completes with DONE
(R324, R328). -/
def State.releaseSlot (s : State) (k : Nat) : State :=
  match s.slot k with
  | some x =>
    if x.phase = .kept ∧ x.waits = [] then
      let s := s.setSlot k none
      (match x.desc with
        | some (r, i) => s.finish x.fn r i .done
        | none => s).pump
    else s
  | none => s

/-- A record that fails a step (R324): the failure is recorded, the slot is freed or kept for children, and the descriptor
completes. -/
def State.shardFails (s : State) (k : Nat) (x : Slot) (reason : Nat) (st : Status) (free : Bool) : State :=
  let s := s.ingestFail x.shard.index reason (x.parent.getD 0)
  let s := match x.desc with
    | some (r, i) => s.finish x.fn r i st
    | none => s
  if free then (s.setSlot k none).pump
  else (s.setSlot k (some { x with phase := .kept, desc := none })).releaseSlot k

/-! ### WEIGHT_SHARD -/

/-- WEIGHT_SHARD: a record from host memory takes a free slot of its die; one that a slot already holds is named by die and
slot (R323, R324, R353). `rec` is the record in host memory, none for address 0. -/
def execWeightShard (f : FnId) (r : RingId) (i : BitVec 12) (rec : Option ShardRec) (s : State) :
    Host.Outcome State Fault Refusal :=
  match s.taken f r i 3 with
  | none => .next s
  | some d =>
    match rec with
    | some x =>
      if dfld d.desc 16 8 = 0 ∨ x.ciphertext.length ≠ shardBytes then .refused .illFormed
      else match s.freeSlot f (x.index % 4) with
        | none => .next s
        | some n =>
          let s := (s.executing f r i).writeNow (slotAddr (x.index % 4) n) (ShardRec.bytes x)
          .next (s.setSlot (slotKey (x.index % 4) n)
            (some { shard := x, phase := .staged, fn := f, desc := some (r, i), parent := none, waits := [] }))
    | none =>
      let die := dfld d.desc 24 1
      let n := dfld d.desc 25 1
      if dfld d.desc 16 8 ≠ 0 then .refused .illFormed
      else if 4 ≤ die ∨ (s.ownSlots f).contains n = false then .next (s.finish f r i .rejectedFormat)
      else if (s.slot (slotKey die n)).isSome || s.slotNamed die n then .next s
      else .next ((s.executing f r i).setSlot (slotKey die n)
        (some { shard := s.slotRecord die n, phase := .staged, fn := f, desc := some (r, i), parent := none, waits := [] }))

/-! ### Steps 1 to 4 -/

/-- Step 1 of R324: the status of a failure, or none. -/
def State.stepOne (s : State) (d : Nat) (x : Slot) : Option Status :=
  let u := s.fn x.fn.val
  let v := x.shard
  let shape := match u.session with
    | some ss => v.magic == shardMagic && v.reservedZero && v.mprefix == ss.manifestHash.setWidth 128 &&
        v.nonce == BitVec.ofNat 96 (v.generation.toNat + v.index * 2 ^ 32) && v.index % 4 == d &&
        ss.manifest.any fun m => decide (v.index < m.shards)
    | none => false
  if !shape then some .rejectedFormat
  else match u.genOf v.generation with
    | some g =>
      if g.listed && g.key.isSome && !u.retained &&
          (g.state == .prepared || g.state == .loading || g.state == .rolling || (g.state == .incomplete && !g.has v.index)) then none
      else some .rejectedGeneration
    | none => some .rejectedGeneration

/-- Plaintext of a record under its generation's content key; none where the tag does not verify (R322, R324). -/
def State.openShard (s : State) (x : Slot) : Option (List Byte) :=
  (((s.fn x.fn.val).genOf x.shard.generation).bind fun g => g.key).bind fun k =>
    Config.gcmOpen k x.shard.nonce (ShardRec.aad x.shard) x.shard.ciphertext x.shard.tag

/-- Send a verified record into a child's slot, then READY (R328). -/
def State.serve (s : State) (v : ShardRec) (child : BitVec 12) (slot : Nat) : State :=
  let s := s.emit (.shard child (Fin.ofNat 4 (v.index % 4)) slot (ShardRec.bytes v))
  s.notify child 4 slot v.generation v.index

/-- Step 4: the children whose range includes the shard, and the requests that wait for it (R324, R328). -/
def State.offerShard (s : State) (k : Nat) (x : Slot) (vm : Nat) (next : SlotPhase) : State :=
  let v := x.shard
  match (s.fn x.fn.val).distOf v.generation with
  | none => s.setSlot k (some { x with phase := next })
  | some t =>
    let kids := t.children.filter fun c => DistChild.takes c vm
    let slotOf := fun (m : BitVec 12) => (t.wanted.find? fun w => w.1 == m && w.2.2 == v.index).map fun w => w.2.1
    let waits := (kids.map fun c => (c.module, slotOf c.module)).filter fun w =>
      decide (AMap.get 0 t.fails ((w.1.toNat + 1) * 2 ^ 32 + v.index) < 4)
    let s := s.setSlot k (some { x with phase := next, waits := waits })
    let s := s.updFn x.fn.val fun u => u.updDist v.generation fun t => { t with wanted := t.wanted.filter fun w => w.2.2 != v.index }
    waits.foldl (fun s w => match w.2 with
      | some n => s.serve v w.1 n
      | none => s) s

/-- A second record for a shard that another slot is being processed for waits (R325). -/
def State.shardBusy (s : State) (k : Nat) (x : Slot) : Bool :=
  s.slots.any fun kv => kv.1 != k && kv.2.any fun y =>
    y.fn == x.fn && y.shard.generation == x.shard.generation && y.shard.index == x.shard.index &&
      (match y.phase with
        | .verified => true
        | .written _ => true
        | _ => false)

/-- SHARD_RECORD_PROCESS: steps 1 to 4 of R324. A record that has waited for another one of its shard goes on with step 2
(R325). -/
def execShardRecordProcess (d : IoDie) (slot : Fin 15) (s : State) : Host.Outcome State Fault Refusal :=
  let k := slotKey d.val slot.val
  match s.slot k with
  | none => .next s
  | some x =>
    if !s.up || !(x.phase == .staged || x.phase == .waiting) then .next s
    else
      let v := x.shard
      let beyond := fun (s : State) => match x.parent with
        | some _ => s.unask x.fn v.generation v.index
        | none => s
      match (if x.phase = .waiting then none else s.stepOne d.val x),
          ((s.fn x.fn.val).genOf v.generation).bind fun g => g.entry v.index with
      | some st, _ => .next ((beyond s).shardFails k x 1 st true)
      | none, none => .next ((beyond s).shardFails k x 1 .rejectedGeneration true)
      | none, some e =>
        let done := ((s.fn x.fn.val).genOf v.generation).any fun g => g.has v.index
        let mine := (s.vmodule x.fn).any fun vm => vm == e.vmodule
        let kids := (((s.fn x.fn.val).distOf v.generation).map fun t => t.children.any fun c => DistChild.takes c e.vmodule).getD false
        if s.shardBusy k x then .next (s.setSlot k (some { x with phase := .waiting }))
        else if done then
          let s := match x.parent with
            | some m => (beyond s).notify m 2 0 v.generation v.index
            | none => s
          .next ((s.setSlot k (some { x with phase := .kept })).releaseSlot k)
        else if (s.openShard x).isNone then
          match x.parent with
          | none => .next (s.shardFails k x 2 .rejectedFormat true)
          | some m =>
            let s := s.ingestFail v.index 2 m
            let s := (s.setSlot k none).notify m 3 0 v.generation v.index
            .next (s.requestFailed x.fn v.generation v.index m).1.pump
        else
          let s := match x.parent with
            | some m => (beyond s).notify m 2 0 v.generation v.index
            | none => s
          let here := mine || !(s.vmodule x.fn).isSome && !kids
          .next (((s.offerShard k x e.vmodule (if here then .verified else .kept)).releaseSlot k).pump)

/-! ### Step 5 -/

/-- A pass holds a weight block: from admission until the block's last kernel has ended clean in the current attempt, or,
once ingest has begun to write the block, no longer (R332). -/
def State.holdsBlock (s : State) (p : Pass) (g : Gen) (b : Nat) : Bool :=
  !g.begun.contains b &&
    !((s.loaded p.fn).any fun l => (l.exe.blockUse[b]?).any fun u => decide (u.last < p.cleanKernels))

/-- The fence of a block (R332, R377): in a rolling swap no pass pinned to another generation holds it, in the repair of a
scrub finding no pass at all. -/
def State.blockFenced (s : State) (f : FnId) (g : Gen) (b : Nat) : Bool :=
  s.allPasses.any fun kp => kp.2.fn == f && passLive kp.2.state && kp.2.gen != 0 && kp.2.copy == g.copy &&
    (kp.2.gen != g.gen || g.back.isSome) && s.holdsBlock kp.2 g b

/-- The images of a tensor that lie in a shard: entry and side offsets within the shard. -/
def shardImages (e : ShardEntry) (t : TensorRec) : List (Nat × Nat) :=
  if t.kind ≠ 1 then []
  else (List.range t.entries).filterMap fun i =>
    let a := t.entryBase + 64 * t.entryStride * i
    let b := t.sideBase + 64 * t.sideStride * i
    if e.offset ≤ a ∧ a < e.offset + shardBytes ∧ e.offset ≤ b ∧ b < e.offset + shardBytes then some (a - e.offset, b - e.offset) else none

/-- Rows of a tensor's latch entry images (R63). -/
def TensorRec.rows (t : TensorRec) : Nat := match t.width with
  | 0 => 32 | 1 => 16 | _ => 8

/-- Residues of one row's columns: iw × 2^(Xw − 127), or Mw × 2^Gw; none in a row that holds a NaN or an infinity, whose
residue the spec does not state (R67). -/
def rowResidues (t : TensorRec) (row codes : List Byte) : Option (List Nat) :=
  (operand t.fmt row).map fun blocks => blocks.zipIdx.flatMap fun b =>
    let x : Int := if bitAt (BitVec.ofNat 8 t.flags) 0 then ((nth 0 codes b.2).toNat : Int) - 127 else 0
    b.1.1.map fun v => residue v (b.1.2.getD 0 + x)

/-- Check words of one latch entry from its rows and scale codes (R67). -/
def checkWordsOf (t : TensorRec) (stamp : Nat) (entry side : List Byte) : List Byte :=
  let m := fmtClass t.fmt
  let n := TensorRec.rows t
  let nb := m / 32
  let rows := (List.range n).map fun d =>
    rowResidues t ((entry.drop (d * rowBytesOf t.fmt)).take (rowBytesOf t.fmt)) ((side.drop (4 * m + nb * d)).take nb)
  (List.range m).flatMap fun k =>
    let c := rows.foldl (fun (a : Option Nat) r => match a, r with
      | some v, some l => some ((v + nth 0 l k) % mersenne)
      | _, _ => none) (some 0)
    let v := match c with
      | some v => v
      | none => (Config.freeValue 0x67 (stamp * 4096 + k)).toNat % 2 ^ 31
    leBytes 4 (v + (if parityOf 31 v then 2 ^ 31 else 0))

/-- Overwrite part of a byte list. -/
def splice (bs : List Byte) (i : Nat) (w : List Byte) : List Byte := bs.take i ++ w ++ bs.drop (i + w.length)

/-- The bytes that step 5 writes: the plaintext, with the check words of its kind 0x01 tensors (R325). -/
def shardImage (ts : List TensorRec) (e : ShardEntry) (stamp : Nat) (plain : List Byte) : List Byte :=
  ts.foldl (fun bs t => (shardImages e t).zipIdx.foldl (fun bs i =>
    splice bs i.1.2 (checkWordsOf t (stamp * 65536 + i.2) ((plain.drop i.1.1).take (TensorRec.rows t * rowBytesOf t.fmt))
      (plain.drop i.1.2))) bs) plain

/-- The check-word areas of a shard's plaintext. -/
def checkAreas (ts : List TensorRec) (e : ShardEntry) (plain : List Byte) : List Byte :=
  ts.flatMap fun t => (shardImages e t).flatMap fun i => (plain.drop i.2).take (4 * fmtClass t.fmt)

/-- Tensor records of a function's manifest. -/
def Func.tensors (u : Func) : List TensorRec := ((u.session.bind fun x => x.manifest).map fun m => m.tensors).getD []

/-- SHARD_WRITE: step 5 of R324 for a shard of this member, once a GEN_COMMIT has come and the block's fence is down
(R325, R332). A destination core out of service takes no write, and the shard waits. -/
def execShardWrite (d : IoDie) (slot : Fin 15) (s : State) : Host.Outcome State Fault Refusal :=
  let k := slotKey d.val slot.val
  match s.slot k with
  | none => .next s
  | some x =>
    let u := s.fn x.fn.val
    match u.genOf x.shard.generation, x.phase with
    | some g, .verified =>
      match g.entry x.shard.index with
      | none => .next s
      | some e =>
        if !s.up || !(g.state == .loading || g.state == .rolling || g.state == .incomplete) then .next s
        else match (s.loaded x.fn).bind fun l => if l.vmodule = e.vmodule then l.coreOf e.vcore else none with
          | none => .next (s.shardFails k x 6 .rejectedState false)
          | some c =>
            if s.blockFenced x.fn g e.block || !s.serving c then .next s
            else match s.openShard x with
              | none => .next (s.shardFails k x 3 .rejectedFormat false)
              | some plain =>
                let a := absAddr 0 c ((s.func x.fn).wBase + g.copy * u.copyLen + e.offset)
                let s := (s.writeNow a (shardImage u.tensors e s.fresh plain)).clearEcc 0 a shardBytes
                let s := { s with fresh := s.fresh + 1 }
                let s := s.updFn x.fn.val fun u => u.updGen g.gen fun g =>
                  { g with begun := if g.begun.contains e.block then g.begun else g.begun ++ [e.block] }
                .next (s.setSlot k (some { x with phase := .written plain }))
    | _, _ => .next s

/-! ### Steps 6 and 7 -/

/-- A shard is committed at its core, and its block once every shard of it that this member stores is (R324, R334, R377). -/
def Gen.commit (g : Gen) (vm core : Nat) (e : ShardEntry) : Gen :=
  let g := { g with shards := if g.has e.index then g.shards else g.shards ++ [e.index]
                    homes := (g.homes.filter fun (h : Nat × Nat) => h.1 != e.index) ++ [(e.index, core)] }
  if g.entries.all fun o => o.block != e.block || o.vmodule != vm || g.has o.index then
    { g with blocks := (if g.blocks.contains e.block then g.blocks else g.blocks ++ [e.block])
             lost := g.lost.filter fun b => b != e.block }
  else g

/-- SHARD_COMMIT: steps 6 and 7 of R324; the last block completes the generation (R331), and the last block that a scrub
finding uncommitted returns it to the state it had (R377). -/
def execShardCommit (d : IoDie) (slot : Fin 15) (s : State) : Host.Outcome State Fault Refusal :=
  let k := slotKey d.val slot.val
  match s.slot k with
  | none => .next s
  | some x =>
    let u := s.fn x.fn.val
    match x.phase, u.genOf x.shard.generation, s.loaded x.fn with
    | .written plain, some g, some l =>
      match g.entry x.shard.index, (g.entry x.shard.index).bind fun e => l.coreOf e.vcore with
      | some e, some c =>
        if !s.up then .next s
        else if sha256n plain ≠ e.sha then .next (s.shardFails k x 3 .rejectedFormat false)
        else if (checkAreas u.tensors e plain).any fun b => b != 0 then .next (s.shardFails k x 5 .rejectedFormat false)
        else
          let g' := g.commit l.vmodule c e
          let s := s.updFn x.fn.val fun u => u.updGen g.gen fun _ => g'
          let s := match g'.back with
            | some st => if g'.lost.isEmpty then
                (s.setGen x.fn g.gen st).updFn x.fn.val fun u => u.updGen g.gen fun g => { g with back := none } else s
            | none => s
          let s := s.settleGen x.fn g.gen
          .next ((s.setSlot k (some { x with phase := .kept })).releaseSlot k)
      | _, _ => .next (s.shardFails k x 6 .rejectedState false)
    | .written _, _, _ => .next (s.shardFails k x 6 .rejectedState false)
    | _, _, _ => .next s

/-! ### Notices -/

/-- Fields of a notice: slot, sender, generation and shard index. -/
def noticeSlot (n : BitVec 128) : Nat := fld n 8 8
def noticeFrom (n : BitVec 128) : BitVec 12 := BitVec.ofNat 12 (fld n 16 12)
def noticeGen (n : BitVec 128) : W32 := BitVec.ofNat 32 (fld n 32 32)
def noticeShard (n : BitVec 128) : Nat := fld n 64 32

/-- A notice reaches the next entry of a die's notice area (R323, R327). -/
def State.noticeIn (s : State) (d : IoDie) (n : BitVec 128) : State :=
  let at' := AMap.get 0 s.notices d.val
  { (s.writeNow (absAddr 5 d.val (0x3F00000 + 16 * (at' % 65536))) (leBytes 16 n.toNat)) with
    notices := AMap.set 0 s.notices d.val (at' + 1) }

/-- Function whose distribution entry of a generation has a module as a child that takes a shard. -/
def State.childOf (s : State) (m : BitVec 12) (gen : W32) (index : Nat) : Option FnId :=
  allFns.find? fun f => ((s.fn f.val).distOf gen).any fun t =>
    (((s.fn f.val).genOf gen).bind fun g => g.entry index).any fun e =>
      t.children.any fun c => c.module == m && DistChild.takes c e.vmodule

/-- Slot key that holds a record of a function, past step 4. -/
def State.heldAt (s : State) (f : FnId) (gen : W32) (index : Nat) : Option (Nat × Slot) :=
  s.slots.findSome? fun kv => match kv.2 with
    | some x => if x.fn = f ∧ x.shard.generation = gen ∧ x.shard.index = index ∧ x.phase ≠ .staged ∧ x.phase ≠ .waiting then some (kv.1, x) else none
    | none => none

/-- A failure of a child for a shard at its parent; true below the limit (R328, R329). -/
def State.childFailed (s : State) (f : FnId) (m : BitVec 12) (gen : W32) (index : Nat) : State × Bool :=
  let key := (m.toNat + 1) * 2 ^ 32 + index
  let n := (((s.fn f.val).distOf gen).map fun t => AMap.get 0 t.fails key).getD 0 + 1
  (s.updFn f.val fun u => u.updDist gen fun t => { t with fails := AMap.set 0 t.fails key n }, decide (n < 4))

/-- A child no longer waits for a slot's record. -/
def State.childDone (s : State) (k : Nat) (x : Slot) (m : BitVec 12) : State :=
  (s.setSlot k (some { x with waits := x.waits.filter fun w => w.1 != m })).releaseSlot k

/-- The record of a slot goes into a child's slot (R328). -/
def State.serveChild (s : State) (k : Nat) (x : Slot) (m : BitVec 12) (slot : Nat) : State :=
  (s.setSlot k (some { x with waits := (x.waits.filter fun w => w.1 != m) ++ [(m, some slot)] })).serve x.shard m slot

/-- INGEST_REQUEST: a child asks for a shard into one of its slots. The parent answers once it holds the verified
ciphertext; a repeated request is a timeout of the child (R327 to R329). -/
def execIngestRequest (d : IoDie) (notice : BitVec 128) (s : State) : Host.Outcome State Fault Refusal :=
  let m := noticeFrom notice
  let gen := noticeGen notice
  let i := noticeShard notice
  if !s.up then .next s
  else
    let s := s.noticeIn d notice
    match (if fld notice 0 8 = 1 then s.childOf m gen i else none) with
    | none => .next s
    | some f =>
      match s.heldAt f gen i with
      | some (k, x) =>
        if x.waits.any fun w => w.1 == m && w.2.isSome then
          let (s, go) := s.childFailed f m gen i
          .next (if go then s.serveChild k x m (noticeSlot notice) else s.childDone k x m)
        else .next (s.serveChild k x m (noticeSlot notice))
      | none =>
        let again := ((s.fn f.val).distOf gen).any fun t => t.wanted.any fun w => w.1 == m && w.2.2 == i
        let (s, go) := if again then s.childFailed f m gen i else (s, true)
        .next (s.updFn f.val fun u => u.updDist gen fun t =>
          { t with wanted := (t.wanted.filter fun w => !(w.1 == m && w.2.2 == i)) ++ (if go then [(m, noticeSlot notice, i)] else []) })

/-- INGEST_READY: the record sits in the named slot of this member (R328). -/
def execIngestReady (d : IoDie) (notice : BitVec 128) (s : State) : Host.Outcome State Fault Refusal :=
  let i := noticeShard notice
  let n := noticeSlot notice
  if !s.up then .next s
  else
    let s := s.noticeIn d notice
    match (if fld notice 0 8 = 4 then allFns.find? fun f => ((s.fn f.val).distOf (noticeGen notice)).any fun t =>
        t.parent == some (noticeFrom notice) && t.asked.any fun a => a.1 == i && a.2.1 == n else none) with
    | none => .next s
    | some f =>
      let k := slotKey (i % 4) n
      .next (if (s.slot k).isSome then s
        else s.setSlot k (some { shard := s.slotRecord (i % 4) n, phase := .staged, fn := f, desc := none,
                                 parent := some (noticeFrom notice), waits := [] }))

/-- INGEST_ACK: the child's tag check has passed (R328). -/
def execIngestAck (d : IoDie) (notice : BitVec 128) (s : State) : Host.Outcome State Fault Refusal :=
  let m := noticeFrom notice
  if !s.up then .next s
  else
    let s := s.noticeIn d notice
    match (if fld notice 0 8 = 2 then s.childOf m (noticeGen notice) (noticeShard notice) else none) with
    | none => .next s
    | some f => match s.heldAt f (noticeGen notice) (noticeShard notice) with
      | some (k, x) => .next (s.childDone k x m)
      | none => .next s

/-- INGEST_NACK: the parent counts the failure and sends the record again below the limit (R328, R329). -/
def execIngestNack (d : IoDie) (notice : BitVec 128) (s : State) : Host.Outcome State Fault Refusal :=
  let m := noticeFrom notice
  if !s.up then .next s
  else
    let s := s.noticeIn d notice
    match (if fld notice 0 8 = 3 then s.childOf m (noticeGen notice) (noticeShard notice) else none) with
    | none => .next s
    | some f => match s.heldAt f (noticeGen notice) (noticeShard notice) with
      | some (k, x) =>
        let (s, go) := s.childFailed f m (noticeGen notice) (noticeShard notice)
        match x.waits.find? fun w => w.1 == m with
        | some (_, some n) => .next (if go then s.serveChild k x m n else s.childDone k x m)
        | _ => .next s
      | none => .next s

/-- REQUEST_TIMEOUT: a request without a READY within the request timeout of ING_DIST_CFG (R329). -/
def execRequestTimeout (f : FnId) (gen : W32) (index : Nat) (s : State) : Host.Outcome State Fault Refusal :=
  match (s.fn f.val).distOf gen with
  | none => .next s
  | some t =>
    match t.parent, t.asked.find? fun a => a.1 == index with
    | some m, some (_, n, at') =>
      if !s.up || (s.slot (slotKey (index % 4) n)).isSome ||
          decide ((s.clk.timebase - at').toNat < tickMilli * s.pf .ingDistCfg 0 10) then .next s
      else
        let (s, go) := s.requestFailed f gen index m
        .next (if go then s.notify m 1 n gen index else s.pump)
    | _, _ => .next s

/-! ### Zeroing (R404) -/

/-- Zero a region on every core of a partition. -/
def State.zeroRegion (s : State) (t : Scrub) : State :=
  let cores := (List.range 1728).filter fun c => (Part.of t.part).hasDie (coreDie c)
  { s with
    mem := cores.foldl (fun m c => memZero m (absAddr t.space c t.base) t.size) s.mem
    ecc := s.ecc.filter fun kv => !(cores.any fun c =>
      decide (absAddr t.space c t.base ≤ kv.1) && decide (kv.1 < absAddr t.space c t.base + t.size)) }

/-- TEASEL_ZEROING_COMPLETE: the regions of a function that are in SCRUBBING read zero and leave it: the weight region, or
the activation and partial-sum regions, whose zeroing runs while no pass of the partition does (R404). -/
def execTeaselZeroingComplete (f : FnId) (weight : Bool) (s : State) : Host.Outcome State Fault Refusal :=
  let done := fun (t : Scrub) => t.fn == f && (t.space == 0) == weight
  let busy := !weight && s.allPasses.any fun kp => passBusy kp.2.state &&
    s.teasel.any fun t => done t && (Part.of t.part).overlaps (s.partOf kp.2.fn)
  .next (if !s.up || busy then s
    else { ((s.teasel.filter done).foldl (fun s t => s.zeroRegion t) s) with teasel := s.teasel.filter fun t => !done t })

end Sys2Proof.Machine
end

