-- ==== Sys2Proof/Machine/Matrix.lean ====
section
/-! DEFINITION. The matrix instructions (R69 to R88): configuration, latch fills, vectors, loads, drains and clears. -/

namespace Sys2Proof.Machine

/-- The matrix engine's state with an update. -/
def Work.updMx (k : Work) (x : Ctx) (f : Mxe → Mxe) : Work :=
  { k with s := k.s.updCore x.c fun o => { o with mx := f o.mx } }
/-- The matrix engine's state. -/
def Work.mx (k : Work) (x : Ctx) : Mxe := (k.s.core x.c).mx

/-- A latent fault that a check of this instruction catches: it is raised in the check's cycle, and is gone (R82, R85,
R86). -/
def Work.spot (k : Work) (x : Ctx) (cyc : Nat) (u : Upset) (d : Byte) : Work :=
  if ((k.s.core x.c).engine x.e).upset = some u then
    { k with s := k.s.updEngine x.c x.e fun q => { q with upset := none } }.lateFault cyc x.c (some x.e) .checkLaneMismatch d
  else k

/-- An anchor: the immediate or the low 10 bits of a scalar register (R70). -/
def anchorOf (k : Work) (x : Ctx) (fromReg : Bool) (imm reg : Nat) : Int :=
  sext 10 (if fromReg then (k.sreg x reg).toNat else imm)

/-- Insert a number into a list without repeats. -/
def insNum (n : Nat) (l : List Nat) : List Nat := if l.contains n then l else l ++ [n]

/-- Wait for the vector path (R80). Every earlier vector then meets its latch contents. -/
def waitPath (x : Ctx) (k : Work) (from' : Nat) : Ctx × Work :=
  let (x', k) := waitBusy x k from'
  (x', { k with s := k.s.vectors x.c (max x.t x'.t + 6) })

/-- A local operand address of the MXE that names a core at all names the issuing one (R70). -/
def ownAddr (x : Ctx) (a : MAddr) (spaces : List Nat) : Bool := spaces.contains (aSpace a) && aCore a == x.c

/-- A port held for `n` clocked cycles from work cycle `l` on, split where the guard passes in between. -/
def runClaims (x : Ctx) (port l n : Nat) : List Claim :=
  let t := x.at l
  let a := ((List.range n).filter fun i => x.at (l + i) == t + i).length
  ({ port := port, start := t, step := 1, n := a, eng := x.e.num } : Claim) ::
    (if a < n then [{ port := port, start := x.at (l + a), step := 1, n := n - a, eng := x.e.num }] else [])

/-! ### MCFG and MDCFG -/

/-- MCFG (R69, R73, R77). What the latch entries of DPUs n to 31 held is undefined from then on (R62). -/
def runMcfg (m : Byte) (w : BitVec 48) (x : Ctx) (k : Work) : Except Halt Issued := do
  let fw := fld w 0 4
  let fa := fld w 4 4
  needF (k.s.fuses.grade == .f || [fw, fa].all fun f => f != 1 && f != 6) .absentEngine 0x01
  needEng .mxe 0x40 m w
  need ((k.mx x).accOpen.isEmpty && (k.mx x).rowOpen.isEmpty) 0x21
  let cfg : MCfg := { fw := fw, fa := fa, sw := bitAt w 8, sa := bitAt w 9, width := fld w 10 2, psm := bitAt w 12,
                      q := anchorOf k x (bitAt w 23) (fld w 13 10) (fld w 24 5) }
  let cut (l : Latch) : Latch := { l with rows := min l.rows cfg.n }
  let narrow (t : AMap (TReg Latch)) : AMap (TReg Latch) :=
    t.map fun kv => (kv.1, { base := cut kv.2.base, pend := kv.2.pend.map fun p => (p.1, cut p.2) })
  pure (finish x (k.updMx x fun o => { o with cfg := cfg, latch := narrow o.latch }))

/-- MCFG (R69). -/
def execMcfg (c : CoreId) (m : Byte) (w : BitVec 48) (s : State) : Host.Outcome State Fault Refusal :=
  .next (runInstr s c .mxe 0x40 false (runMcfg m w))

/-- MDCFG (R69, R82). -/
def runMdcfg (m : Byte) (w : BitVec 48) (x : Ctx) (k : Work) : Except Halt Issued := do
  needEng .mxe 0x41 m w
  let d : DCfg := { fmt := fld w 0 4, rnd := fld w 4 1, ovf := fld w 5 2,
                    shift := sext 8 (if bitAt w 15 then (k.sreg x (fld w 16 5)).toNat else fld w 7 8),
                    seed := k.sreg64 x (fld w 21 5), idx := k.sreg64 x (fld w 26 5),
                    stok := k.sreg x (fld w 31 5), sdpu := k.sreg x (fld w 36 5) }
  pure (finish x (k.updMx x fun o => { o with dcfg := d }))

/-- MDCFG (R82). -/
def execMdcfg (c : CoreId) (m : Byte) (w : BitVec 48) (s : State) : Host.Outcome State Fault Refusal :=
  .next (runInstr s c .mxe 0x41 false (runMdcfg m w))

/-! ### MLW -/

/-- Even parity over a check word and its parity bit (R67, R68). -/
def checkParity (v : W32) : Bool := !parityOf 32 v.toNat

/-- MLW: the two images enter a latch entry, which a vector issued six cycles later is the first to meet (R64, R79,
R164). Where Aw and Ac are one register, that only the increment of Aw is applied is the model's choice (log entry 149). -/
def runMlw (m : Byte) (w : BitVec 48) (x : Ctx) (k : Work) : Except Halt Issued := do
  needEng .mxe 0x42 m w
  let aw := k.areg x (fld w 0 4)
  let ac := k.areg x (fld w 4 4)
  let cfg := (k.mx x).cfg
  let rb := rowBytesOf cfg.fw
  let n1 := cfg.n * rb
  let n2 := cfg.sideBytes
  need (localAddr x aw [0] && localAddr x ac [0] && aligned aw 64 && aligned ac 64) 0x22
  match k.s.resolve x.job.fn aw n1, k.s.resolve x.job.fn ac n2 with
  | .error d, _ => .error (.stop .accessDenied d none)
  | _, .error d => .error (.stop .accessDenied d none)
  | .ok (_, a), .ok (_, b) =>
    let a := a % 2 ^ 32
    let b := b % 2 ^ 32
    need (a / 2048 == (a + n1 - 1) / 2048 && b / 2048 == (b + n2 - 1) / 2048 && a / 2048 % 3 != b / 2048 % 3) 0x22
  let (elems, k) ← k.read x aw n1 x.t
  let (side, k) ← k.readSide x ac n2 x.t
  let k := k.spot x (x.at 10) .stagger 0x02
  let bad := (words32 (side.take (4 * cfg.depth))).any fun v => !checkParity v
  let k := if bad then k.lateFault (x.at (9 + cfg.n)) x.c (some x.e) .checkLaneMismatch 0x04 else k
  let l : Latch := { rows := cfg.n, rowBytes := rb, checks := cfg.depth, codes := if cfg.sw then cfg.blocks else 0,
                     elems := elems, side := side, stamp := k.s.fresh }
  let k := { k with s := { k.s with fresh := k.s.fresh + 1 } }
  let fill (t : AMap (TReg Latch)) : AMap (TReg Latch) :=
    AMap.upd { base := Latch.zero, pend := [] } t (fld m 0 2) fun r => r.put x.t (x.at 6) l
  let k := k.updMx x fun o => { o with latch := fill o.latch }
  pure (finish x ((k.incA x (bitAt w 8) (fld w 0 4) n1).incA x (bitAt w 8 && fld w 0 4 != fld w 4 4) (fld w 4 4) n2))

/-- MLW (R79). -/
def execMlw (c : CoreId) (m : Byte) (w : BitVec 48) (s : State) : Host.Outcome State Fault Refusal :=
  .next (runInstr s c .mxe 0x42 false (runMlw m w))

/-! ### MMUL -/

/-- First PSM row of an address register, and the numbers of `n` rows from it on (R70). -/
def psmRows (k : Work) (x : Ctx) (a : MAddr) (n : Nat) : Except Halt (List Nat) := do
  need (ownAddr x a [2] && aligned a 1024) 0x22
  match k.s.resolve x.job.fn a 32 with
  | .error d => .error (.stop .accessDenied d none)
  | .ok _ => pure ()
  let size := (k.s.regionOf x.job.fn 2).2 / 1024
  let rows := (List.range n).map fun (i : Nat) => (aOff a / 1024 + i) % 512
  needF (rows.all fun r => decide (r < size)) .accessDenied 0x72
  pure rows

/-- Ranges of the words that `n` DPUs use in PSM rows. -/
def rowRanges (rows : List Nat) (n : Nat) (write : Bool) : List Range :=
  rows.map fun (r : Nat) => { space := 2, off := 1024 * r, len := 32 * n, write := write }

/-- MMUL: T vectors into accumulators a to a + T − 1, or PSM rows (R70 to R74, R78 to R80). R65 gives the array of scale words
no alignment: that it lies in activation memory at a multiple of 4, else 0x22, is the model's choice (log entry 148), and so
is the increment of Av alone where Av and As are one register (log entry 149). -/
def runMmul (m : Byte) (w : BitVec 48) (x : Ctx) (k : Work) : Except Halt Issued := do
  needEng .mxe 0x43 m w
  let (x, k) := waitPath x k (max ((k.s.core x.c).engine x.e).free (k.mx x).stall)
  let t := m.toNat + 1
  let cfg := (k.mx x).cfg
  let opens := bitAt w 4
  let first := fld w 2 2
  need (if cfg.psm then decide (8 ≤ t) else decide (t ≤ 4) && decide (first + t ≤ 4)) 0x20
  let av := k.areg x (fld w 5 4)
  let stride := (k.sreg x (fld w 9 5)).toInt
  let sc := k.areg x (fld w 14 4)
  let vb := rowBytesOf cfg.fa
  let va (j : Nat) : MAddr := addA av (stride * (j : Int))
  need ((List.range t).all fun j => localAddr x (va j) [1] && aligned (va j) 64) 0x22
  need (!cfg.sa || (localAddr x sc [1] && aligned sc 4)) 0x22
  needAll k x (((List.range t).map fun j => (va j, vb)) ++ if cfg.sa then [(sc, 4 * t)] else [])
  let rows ← (if cfg.psm then psmRows k x (k.areg x (fld w 18 4)) t else pure ((List.range t).map fun j => first + j))
  let openNow := if cfg.psm then (k.mx x).rowOpen else (k.mx x).accOpen
  need (opens || rows.all fun r => openNow.contains r) 0x23
  let (x, k) ← gate x k (((List.range t).flatMap fun j => rangeOf x (va j) vb false) ++
    (if cfg.sa then rangeOf x sc (4 * t) false else []) ++
    (if cfg.psm then (if opens then [] else rowRanges rows cfg.n false) ++ rowRanges rows cfg.n true else []))
  -- activation reads, one per cycle, and the scale words beside them
  let readVec (r : Nat × Nat) (k : Work) : Except Halt (MVec × Work) := do
    let cyc := x.at r.2
    let (bs, k) ← k.read x (va r.2) vb cyc
    let evs := k.evs
    let (s4, k) ← (if cfg.sa then k.readFree x (plus sc (4 * r.2)) 4 cyc else pure ([], k))
    let wt := if cyc / 3200 = x.t / 3200 then x.w else 0
    pure ({ at' := cyc, waited := wt, entry := fld w 0 2, dest := r.1, opens := opens, elems := bs, scale := leNat s4,
            cfg := cfg, job := x.job }, { k with evs := evs })
  let (vecs, k, _) ← rows.zipIdx.foldlM (fun (o : List MVec × Work × Bool) (r : Nat × Nat) =>
    if !o.2.2 then pure o
    else match readVec r o.2.1 with
      | .ok (v, k) => pure (o.1 ++ [v], k, true)
      | .error (.cut _ k) => pure (o.1, k, false)
      | .error h => .error h) ([], k, true)
  let k := k.spot x (x.at 4) .stagger 0x02
  let k := k.updMx x fun o =>
    if cfg.psm then { o with rowOpen := rows.foldl (fun l r => insNum r l) o.rowOpen }
    else { o with accOpen := rows.foldl (fun l r => insNum r l) o.accOpen }
  let k := if cfg.psm then
      let last := 10 + (t - 1) + (cfg.n - 1)
      let base := (k.s.regionOf x.job.fn 2).1 % 1024 / 32
      let cl := (List.range cfg.n).flatMap fun (d : Nat) =>
        runClaims x (10 + (base + d) % 32) (3 + d) t ++ runClaims x (50 + (base + d) % 32) (10 + d) t
      (((k.ev 0x12 (x.at 3) (t + cfg.n - 1) 1).ev 0x13 (x.at 10) (t + cfg.n - 1) 1).until (x.at last)).claimRun x cl
    else k
  let k := { k with s := k.s.updEngine x.c x.e fun q => { q with free := x.at t } }
  -- vectors whose latch contents no later MLW can change
  let (now, later) := vecs.partition fun v => decide (v.at' < x.at 7)
  let (k, fs) := now.foldl (fun o v => applyVector o x.c v) (k, ([] : List MFault))
  let k := (k.matrixFaults x fs).updMx x fun o => { o with vecs := o.vecs ++ later }
  let k := k.until (x.at (t - 1))
  let ra := fld w 5 4
  let rs := fld w 14 4
  let k := if bitAt w 22 then
      let k := k.setA x ra 1 (addA av (stride * (t : Int)))
      if rs = ra then k else k.setA x rs 1 (sc + BitVec.ofNat 48 (4 * t))
    else k
  pure (finish x k)

/-- MMUL (R72). -/
def execMmul (c : CoreId) (m : Byte) (w : BitVec 48) (s : State) : Host.Outcome State Fault Refusal :=
  .next (runInstr s c .mxe 0x43 false (runMmul m w))

/-! ### MLDL -/

/-- Numbers of the accumulators in a mask, ascending. -/
def maskAccs (m : Byte) : List Nat := setBits 4 m.toNat

/-- MLDL: accumulators of the mask are loaded from consecutive rows (R42, R75). R73 says for an MMUL with open = 1 alone that
it discards an open accumulator's sum: that MLDL does so too is the model's choice (log entry 150). -/
def runMldl (m : Byte) (w : BitVec 48) (x : Ctx) (k : Work) : Except Halt Issued := do
  needEng .mxe 0x44 m w
  let (x, k) := waitPath x k ((k.s.core x.c).engine x.e).free
  let cfg := (k.mx x).cfg
  need (!cfg.psm) 0x20
  let accs := maskAccs m
  let q := anchorOf k x (bitAt w 14) (fld w 4 10) (fld w 15 5)
  let rows ← psmRows k x (k.areg x (fld w 0 4)) accs.length
  let (x, k) ← gate x k (rowRanges rows cfg.n false)
  let k := k.spot x (x.at 4) .stagger 0x02
  let n := accs.length
  let k := if n = 0 then k else k.claimRun x ((List.range cfg.n).flatMap fun (d : Nat) =>
    runClaims x (10 + ((k.s.regionOf x.job.fn 2).1 % 1024 / 32 + d) % 32) d n)
  let evs := k.evs
  let (k, fs) ← (List.zip accs rows).zipIdx.foldlM (fun (o : Work × List MFault) (p : (Nat × Nat) × Nat) => do
    let (k, fs, rho) ← (List.range cfg.n).foldlM (fun (o : Work × List MFault × Nat) (d : Nat) => do
      let (bs, k) ← o.1.readFree x (rowAddr x.c p.1.2 d) 32 (x.at (d + p.2))
      let n := sext 192 (leNat (bs.take 24))
      let fs := if 2 ^ 155 ≤ n.natAbs then o.2.1 ++ [(x.at (4 + d + p.2), .accumRange, 0x03)] else o.2.1
      let e : Option Int := if n = 0 then none else some (q - cfg.lsum)
      let a : Acc := { num := n, exp := q, emin := e, emax := e, terms := 0, loaded := some q }
      let k := k.updMx x fun o => { o with acc := AMap.set Acc.zero o.acc (accKey d p.1.1) a }
      pure (k, fs, (o.2.2 + residue n q) % mersenne)) (o.1, o.2, 0)
    let k := k.updMx x fun o => { o with chk := AMap.set 0 o.chk p.1.1 rho, accOpen := insNum p.1.1 o.accOpen }
    pure (k, fs)) (k, ([] : List MFault))
  let k := { k with evs := evs }
  let k := if n = 0 then k else k.ev 0x12 x.t (cfg.n + n - 1) 1
  pure (finish x (k.matrixFaults x fs))

/-- MLDL (R75). -/
def execMldl (c : CoreId) (m : Byte) (w : BitVec 48) (s : State) : Host.Outcome State Fault Refusal :=
  .next (runInstr s c .mxe 0x44 false (runMldl m w))

/-! ### Drains -/

/-- Exact value num × 2^exp of a DPU. -/
abbrev Exact := Int × Int

/-- What a drain closes: its number (accumulator, or row offset), the PSM row in PSM mode, the captured accumulators of
DPUs 0 to n − 1. -/
structure Closed where
  num : Nat
  row : Option Nat
  accs : List Acc
  deriving DecidableEq, Repr

/-- The read ports of a PSM drain (R75, R80). -/
def drainPorts (x : Ctx) (k : Work) (cfg : MCfg) (rows : List Nat) : Work :=
  if cfg.psm then
    (k.claimRun x ((List.range cfg.n).flatMap fun (d : Nat) =>
      runClaims x (10 + ((k.s.regionOf x.job.fn 2).1 % 1024 / 32 + d) % 32) (3 + d) rows.length)).ev
        0x12 (x.at 3) (cfg.n + rows.length - 1) 1
  else k

/-- What a drain closes: accumulators, or rows by their offset in the drain, in order. -/
def drainItems (cfg : MCfg) (accs rows : List Nat) : List (Nat × Option Nat) :=
  if cfg.psm then rows.zipIdx.map fun p => (p.2, some p.1) else accs.map fun a => (a, none)

/-- The values of the accumulator or row number `i` of a drain, read as R75 and R80 say. -/
def drainValue (x : Ctx) (k : Work) (cfg : MCfg) (p : (Nat × Option Nat) × Nat) : Except Halt (Closed × Work) :=
  match p.1.2 with
  | some row => do
    let (l, k') ← (List.range cfg.n).foldlM (fun (o : List Acc × Work) (d : Nat) => do
      let (bs, k) ← o.2.readFree x (rowAddr x.c row d) 32 (x.at (3 + d + p.2))
      pure (o.1 ++ [{ Acc.zero with num := sext 192 (leNat (bs.take 24)), exp := cfg.q }], k)) ([], k)
    pure ({ num := p.1.1, row := some row, accs := l }, { k' with evs := k.evs })
  | none =>
    let mx := k.mx x
    .ok ({ num := p.1.1, row := none, accs := (List.range cfg.n).map fun d => AMap.get Acc.zero mx.acc (accKey d p.1.1) }, k)

/-- Close the reductions of a drain or a clear. -/
def Work.closeReds (k : Work) (x : Ctx) (cfg : MCfg) (accs rows : List Nat) : Work :=
  k.updMx x fun o =>
    if cfg.psm then { o with rowOpen := o.rowOpen.filter fun r => !rows.contains r }
    else { o with accOpen := o.accOpen.filter fun a => !accs.contains a }

/-- The check compares of a drain: one per accumulator or row in order (R82, R85). -/
def Work.compares (k : Work) (x : Ctx) (cfg : MCfg) (vs : List Closed) : Work :=
  let k := vs.zipIdx.foldl (fun (k : Work) p =>
    let want := match p.1.row with
      | some r => AMap.get 0 (k.mx x).rowChk r
      | none => AMap.get 0 (k.mx x).chk p.1.num
    let have' : Nat := p.1.accs.foldl (fun (r : Nat) (a : Acc) => (r + residue a.num a.exp) % mersenne) 0
    let k := k.ev 0x06 (x.at (14 + cfg.n + p.2)) 1 1
    let k := { k with s := k.s.updPass x.job.pass fun q => { q with checks := q.checks + 1 } }
    if want = have' then k else k.lateFault (x.at (14 + cfg.n + p.2)) x.c (some x.e) .checkLaneMismatch 0x01) k
  if vs.isEmpty then k
  else ((k.spot x (x.at (14 + cfg.n)) .accumulator 0x01).spot x (x.at (14 + cfg.n)) .converter 0x03).until (x.at (14 + cfg.n + vs.length - 1))

/-- What MDRN and MDRNL share once the path is free: open reductions, the bobbins of what is read, the stall of R80. Where
several conditions fail at issue, the order of the checks (0x22, then ACCESS_DENIED, then 0x23) is the model's choice (log
entry 151). -/
def startDrain (x : Ctx) (k : Work) (cfg : MCfg) (accs rows : List Nat) (writes : Ctx → List Range) :
    Except Halt (Ctx × Work) := do
  need (if cfg.psm then rows.all fun r => (k.mx x).rowOpen.contains r
    else accs.all fun a => (k.mx x).accOpen.contains a) 0x23
  let (x, k) ← gate x k ((if cfg.psm then rowRanges rows cfg.n false else []) ++ writes x)
  let k := k.spot x (x.at 4) .stagger 0x02
  let stall := if cfg.psm then x.at (cfg.n + rows.length - 2) else x.at (cfg.n - 1)
  pure (x, k.updMx x fun o => { o with stall := max o.stall stall })

/-- MDRN: the values are rounded once and written (R43 to R48, R76, R82). -/
def runMdrn (m : Byte) (w : BitVec 48) (x : Ctx) (k : Work) : Except Halt Issued := do
  needEng .mxe 0x45 m w
  let (x, k) := waitPath x k ((k.s.core x.c).engine x.e).free
  let cfg := (k.mx x).cfg
  let d := (k.mx x).dcfg
  let ad := k.areg x (fld w 0 4)
  let stride := (k.sreg x (fld w 4 5)).toInt
  let nrows := fld w 13 8 + 1
  let accs := maskAccs m
  let rows ← (if cfg.psm then psmRows k x (k.areg x (fld w 9 4)) nrows else pure [])
  let width := fmtBits d.fmt / 8
  let bytes := cfg.n * width
  let nums := if cfg.psm then List.range nrows else accs
  let dst (r : Nat) : MAddr := addA ad (stride * (r : Int))
  need (nums.all fun r => localAddr x (dst r) [1, 2]) 0x22
  needAll k x (nums.map fun r => (dst r, bytes))
  let (x, k) ← startDrain x k cfg accs rows fun x => nums.flatMap fun r => rangeOf x (dst r) bytes true
  let k := (drainPorts x k cfg rows).closeReds x cfg accs rows
  let spoilt := k.spoilt x
  let (vs, k) ← (drainItems cfg accs rows).zipIdx.foldlM (fun (o : List Closed × Work) p => do
    let (v, k) ← drainValue x o.2 cfg p
    if spoilt then pure (o.1, k)
    else
      let rs := v.accs.zipIdx.map fun a =>
        let idx := d.idx + BitVec.ofInt 64 (d.stok.toInt * (v.num : Int) + d.sdpu.toInt * (a.2 : Int))
        roundExact d.fmt (if d.rnd = 1 then .stoch (srand d.seed idx) else .rne) d.ovf a.1.num (a.1.exp + d.shift)
      let t := x.at (9 + cfg.n + p.2)
      let k := k.ev 0x07 t 1 (rs.filter fun r => r.overflow).length
      let k ← k.write x (dst v.num) (rs.flatMap fun r => leBytes width r.bits) t
      pure (o.1 ++ [v], k)) ([], k)
  let k := k.compares x cfg vs
  let k := if bitAt w 21 then
      k.setA x (fld w 0 4) 1 (addA ad (stride * ((if cfg.psm then nrows else 4 : Nat) : Int)))
    else k
  pure (finish x k)

/-- MDRN (R76). -/
def execMdrn (c : CoreId) (m : Byte) (w : BitVec 48) (s : State) : Host.Outcome State Fault Refusal :=
  .next (runInstr s c .mxe 0x45 false (runMdrn m w))

/-- Integer N of an exact value at anchor `q` where R40 allows the drain, else none. -/
def longOf (l q : Int) (a : Acc) : Option Int :=
  match a.emin, a.emax with
  | some lo, some hi =>
    if q - l ≤ lo ∧ hi ≤ q - l + 63 then
      let n := if q ≤ a.exp then a.num * 2 ^ (a.exp - q).toNat else a.num / 2 ^ (q - a.exp).toNat
      if a.loaded.isSome && decide (2 ^ 191 ≤ n.natAbs) then none else some n
    else none
  | _, _ => some 0

/-- MDRNL: long values at an anchor; in PSM mode the rows only close and are checked (R40, R75). -/
def runMdrnl (m : Byte) (w : BitVec 48) (x : Ctx) (k : Work) : Except Halt Issued := do
  needEng .mxe 0x46 m w
  let (x, k) := waitPath x k ((k.s.core x.c).engine x.e).free
  let cfg := (k.mx x).cfg
  let accs := maskAccs m
  let q := anchorOf k x (bitAt w 14) (fld w 4 10) (fld w 15 5)
  let rows ← (if cfg.psm then psmRows k x (k.areg x (fld w 20 4)) (fld w 24 8 + 1) else pure [])
  let out ← (if cfg.psm then pure [] else psmRows k x (k.areg x (fld w 0 4)) accs.length)
  let (x, k) ← startDrain x k cfg accs rows fun _ => rowRanges out cfg.n true
  let k := (drainPorts x k cfg rows).closeReds x cfg accs rows
  let (vs, k) ← (drainItems cfg accs rows).zipIdx.foldlM (fun (o : List Closed × Work) p => do
    let (v, k) ← drainValue x o.2 cfg p
    pure (o.1 ++ [v], k)) ([], k)
  if k.spoilt x then pure (finish x k)
  else if cfg.psm then pure (finish x (k.compares x cfg vs))
  else
    let ns := vs.map fun v => v.accs.map fun a => (longOf cfg.lsum q a, a.terms)
    if ns.any fun l => l.any fun v => v.1.isNone then
      pure (finish x (k.lateFault (x.at (6 + cfg.n)) x.c (some x.e) .scaleSpan 0x03))
    else
      let k ← (List.zip out ns).zipIdx.foldlM (fun (k : Work) (p : (Nat × List (Option Int × Nat)) × Nat) => do
        let data := p.1.2.flatMap fun v => longWord (v.1.getD 0) v.2
        k.write x (rowAddr x.c p.1.1 0) data (x.at (9 + cfg.n + p.2))) k
      pure (finish x (k.compares x cfg vs))

/-- MDRNL (R75). -/
def execMdrnl (c : CoreId) (m : Byte) (w : BitVec 48) (s : State) : Host.Outcome State Fault Refusal :=
  .next (runInstr s c .mxe 0x46 false (runMdrnl m w))

/-- MCLR: reductions close without output or check (R73, R85). -/
def runMclr (m : Byte) (w : BitVec 48) (x : Ctx) (k : Work) : Except Halt Issued := do
  needEng .mxe 0x47 m w
  let (x, k) := waitPath x k ((k.s.core x.c).engine x.e).free
  let cfg := (k.mx x).cfg
  let accs := maskAccs m
  let rows ← (if cfg.psm then psmRows k x (k.areg x (fld w 0 4)) (fld w 4 8 + 1) else pure [])
  need (if cfg.psm then rows.all fun r => (k.mx x).rowOpen.contains r
    else accs.all fun a => (k.mx x).accOpen.contains a) 0x23
  pure (finish x ((k.spot x (x.at 4) .stagger 0x02).closeReds x cfg accs rows))

/-- MCLR (R73). -/
def execMclr (c : CoreId) (m : Byte) (w : BitVec 48) (s : State) : Host.Outcome State Fault Refusal :=
  .next (runInstr s c .mxe 0x47 false (runMclr m w))

end Sys2Proof.Machine
end

