-- ==== Sys2Proof/Machine/Power.lean ====
section
/-! DEFINITION. Power, thermal limits, start-up and resets (R408 to R429), function-level resets (R361, R362), zeroisation
and tamper (R400, R401), and the signing trees (R394, R395). -/

namespace Sys2Proof.Machine

/-! ### What a reset leaves -/

/-- First timebase multiple of 8,000,000 ticks that follows a tick (R305). -/
def epochAfter (t : Nat) : Nat := (t / 8000000 + 1) * 8000000

/-- The clock of a module that is its own root at period code 20, with the timebase at `t`: frame 0 starts at the epoch
(R276, R305, R421). -/
def Clock.started (t : W64) (fraction : W32) : Clock :=
  { Clock.reset with timebase := t, fraction := fraction, epoch := BitVec.ofNat 64 (epochAfter t.toNat),
                     frameStart := BitVec.ofNat 64 (epochAfter t.toNat), sg := 100 }

/-- What MRAM keeps of the security block; every volatile key is gone (R394, R398, R424). -/
def Sec.kept (k : Sec) : Sec :=
  { Sec.reset with bootCount := k.bootCount, tamperCount := k.tamperCount, copies := k.copies, topLeaf := k.topLeaf,
                   tree := k.tree, leaf := k.leaf, next := k.next, tamperLog := k.tamperLog, drawn := k.drawn }

/-- An exhausted second-level tree gives way to a ready one (R395). -/
def Sec.turn (k : Sec) : Sec :=
  if 2 ^ 20 ≤ k.leaf ∧ k.next = 1 then
    { k with tree := k.tree + 1, leaf := 0, next := if 2 ^ 20 ≤ k.topLeaf then 2 else 0 }
  else k

/-- The zeroised module in a phase: everything volatile is at its reset value; the pins, the straps, SMBus and the
sensors go on (R400, R424, R453). -/
def State.wiped (s : State) (ph : Phase) : State :=
  { State.reset with
    pending := s.pending, fuses := s.fuses, sec := s.sec.kept, out := s.out, fresh := s.fresh,
    power := { Power.reset with
      phase := ph, perst := s.power.perst, inputGood := s.power.inputGood, pwrGood := s.power.pwrGood,
      thermtrip := s.power.thermtrip, cause := s.power.cause, temps := s.power.temps, differ := s.power.differ,
      tripped := s.power.tripped, wish := s.fuses.lowestCode },
    side := { s.side with timeOut := false } }

/-- A core as the self-test leaves it (R238). -/
def Core.outWith (svc : CoreSvc) (cause : Byte) : Core :=
  { Core.reset with svc := svc, cause := cause, obs := { Obs.reset with frozen := if svc = .inService then none else some 0 } }

/-- Service states from the findings of the self-test: fenced and bypassed cores, and dies out of service, to which a
second bypass adds its die (R238, R241, R242). -/
def State.findings (s : State) (st : SelfTest) : State :=
  let twice := fun (d : Nat) => decide (2 ≤ (st.bypassed.filter fun c => coreDie c.val == d).length)
  let out := ((List.range 12).map (Fin.ofNat 12)).filter fun (d : DieId) => st.diesOut.contains d || twice d.val
  let svc := fun (c : Nat) =>
    if st.bypassed.any fun b => b.val == c then CoreSvc.bypassed
    else if out.any fun d => d.val == coreDie c then .outOfService
    else if st.fenced.any fun b => b.val == c then .fenced else .inService
  let hit := (st.bypassed.map fun c => c.val) ++ (st.fenced.map fun c => c.val) ++
    out.flatMap fun d => (List.range 144).map fun i => coreAt d.val i
  let s := hit.foldl (fun s c => s.setCore c (Core.outWith (svc c) 0)) { s with diesOut := out }
  s.dropParts

/-- Die kind code of a die identity record (R388). -/
def recordKind (r : BitVec 128) : BitVec 4 := BitVec.ofNat 4 (fld r 54 4)

/-- The checks of the self-test whose failure is fatal (R18, R227, R245). The detail of R18 and of the IO0 hub, and the cause
of the latter, are not stated. -/
def State.fatalFindings (s : State) (st : SelfTest) : State :=
  let s := if st.linkBeyondRepair then s.raise .none' .linkDown 0x80 none else s
  let bad := decide (s.fuses.dies.length ≠ 64) || s.fuses.dies.zipIdx.any fun r => recordKind r.1 != kindOfDie r.2
  let s := if bad then let (v, s) := s.draw 0x18; s.raiseFatal .none' .controlParity (v.setWidth 8) else s
  if st.io0HubFails then let (v, s) := s.draw 0x245; s.raiseFatal (.io 0) .controlParity (v.setWidth 8) else s

/-- The steps of the table "Start-up from COLD" (R420, R421): the module ends up running, or held by PERST#. -/
def State.startUp (s : State) (cause : ResetCause) (st : SelfTest) : State :=
  let s := s.wiped (if s.power.perst then .held else .ready)
  let k := s.sec
  let s := { s with
    sec := { k.turn with
      bootCount := k.bootCount + 1, kem := some st.kemSeed, trng := true,
      ready := k.copies.any id && decide (k.topLeaf < 2 ^ 20 ∨ k.leaf < 2 ^ 20),
      newTamper := cause == ResetCause.tamper,
      sensor := if cause = ResetCause.tamper then (k.tamperLog.getLast?.map fun (e : W64 × Byte × Byte) => e.2.1).getD 0 else 0 },
    power := { s.power with cause := cause, pwrGood := true, tripped := false, rail := s.railOf 20 },
    side := { s.side with tampered := false },
    clk := .started 0 0 }
  (s.findings st).fatalFindings st

/-! ### Input, PERST#, JTAG and tamper -/

/-- The highest temperature is below the throttle on every die. -/
def State.cool (s : State) : Bool := s.power.temps.all fun t => decide (t < s.fuses.throttle.toNat)

/-- Start-up after a trip, once every sensor reads below the throttle (R417). -/
def State.startCool (s : State) (cause : ResetCause) (st : SelfTest) : State :=
  if s.cool then s.startUp cause st
  else { s with power := { s.power with phase := .cooling st, cause := cause } }

/-- INPUT_GOOD (R408, R420, R450). The straps are read at start-up. -/
def execInputGood (st : SelfTest) (s : State) : Host.Outcome State Fault Refusal :=
  if s.power.inputGood then .next s
  else
    let s := { s with power := { s.power with inputGood := true } }
    .next (if s.power.tripped then s.startCool .cold st else s.startUp .cold st)

/-- INPUT_LOST: zeroisation, every rail off, PWR_GOOD low (R400, R408). -/
def execInputLost (s : State) : Host.Outcome State Fault Refusal :=
  if !s.power.inputGood then .next s
  else
    let s := s.wiped .unpowered
    .next { s with power := { s.power with inputGood := false, pwrGood := false, thermtrip := false, cause := .cold },
                   side := { Side.reset with straps := s.side.straps } }

/-- PERST_ASSERT: a running module zeroises and is held in reset (R422); after a trip, THERMTRIP# is released (R417). -/
def execPerstAssert (s : State) : Host.Outcome State Fault Refusal :=
  let s := { s with power := { s.power with perst := true } }
  let hold := fun (s : State) (c : ResetCause) => { s with power := { s.power with cause := c, thermtrip := false } }
  match s.power.phase with
  | .ready => .next (hold (s.wiped .held) .perst)
  | .warmPending _ => .next (hold (s.wiped .held) .perst)
  | .tripped => .next (hold (s.wiped .held) .trip)
  | _ => .next s

/-- PERST_DEASSERT: start-up from the loading of the fuses (R422), or from COLD after a trip (R417); a module whose
start-up has already ended runs (R421). -/
def execPerstDeassert (st : SelfTest) (s : State) : Host.Outcome State Fault Refusal :=
  let s := { s with power := { s.power with perst := false } }
  if s.power.phase ≠ .held then .next s
  else if s.power.tripped then .next (s.startCool .trip st)
  else if s.power.cause = .perst then .next (s.startUp .perst st)
  else .next { s with power := { s.power with phase := .ready } }

/-- A JTAG instruction that acts as an assertion of PERST# (R455). -/
def State.jtagReset (s : State) : State :=
  match s.power.phase with
  | .ready => s.wiped .jtagHeld
  | .warmPending _ => s.wiped .jtagHeld
  | .held => s.wiped .jtagHeld
  | _ => s

/-- TAP_RESET: TRST# or the TAP reset state selects IDCODE or BYPASS, and the reset of R455 ends as R422 states. -/
def execTapReset (idcode : Bool) (st : SelfTest) (s : State) : Host.Outcome State Fault Refusal :=
  let s := { s with side := { s.side with jtag := if idcode then .idcode else .bypass } }
  if s.power.phase ≠ .jtagHeld then .next s
  else if s.power.perst then
    .next { s with power := { s.power with phase := .held, cause := if s.power.tripped then .trip else .perst } }
  else if s.power.tripped then .next (s.startCool .trip st)
  else .next (s.startUp .perst st)

/-- The rails that the power manager has commanded off after a trip (R417). -/
def State.railsOff (s : State) : Bool :=
  match s.power.phase with
  | .tripped => true
  | .cooling _ => true
  | _ => false

/-- The tamper event: the module zeroises, counts and logs it, and stays in reset (R400, R401). -/
def State.tamper (s : State) (sensor : TamperSensor) (place : Byte) : State :=
  let t := s.clk.timebase
  let s := (s.wiped .tampered).sensed .moduleState
  { s with
    sec := { s.sec with tamperCount := s.sec.tamperCount + 1, sensor := sensor.code, newTamper := true,
                        tamperLog := (s.sec.tamperLog ++ [(t, sensor.code, place)]).drop (s.sec.tamperLog.length - 255) }
    power := { s.power with cause := .tamper, pwrGood := s.power.pwrGood && sensor != .rail, thermtrip := false }
    side := { s.side with tampered := true } }

/-- TAMPER_EVENT (R401): the sensors run whenever the input is present; a rail that has been commanded off raises none. -/
def execTamperEvent (sensor : TamperSensor) (place : Byte) (s : State) : Host.Outcome State Fault Refusal :=
  if !s.power.inputGood || s.power.phase == .tampered || (sensor == .rail && (s.railsOff && decide (place.toNat < 5))) then .next s
  else .next (s.tamper sensor place)

/-- TAMPER_CONDITION_END: the module starts as after COLD (R401). -/
def execTamperConditionEnd (st : SelfTest) (s : State) : Host.Outcome State Fault Refusal :=
  if s.power.phase ≠ .tampered then .next s
  else if s.power.tripped then .next (s.startCool .tamper st)
  else .next (s.startUp .tamper st)

/-! ### Emergencies (R411 to R417) -/

/-- Belongs to a formed skein of two or more members. -/
def State.inFormed (s : State) : Bool := s.skein.multi && (s.skein.state == .formed || s.skein.state == .detached)

/-- Every region stretches every period to the end of the frame: half a period each, so that two thirds of the cycles that
were left still fit (R286, R414). -/
def State.stretchRest (s : State) : State :=
  let n := 32 * (100 - s.clk.sg % 100) * 2 / 3
  (List.range 52).foldl (fun s r =>
    let s := s.updRegion r fun v => { v with stretches := v.stretches + n, total := v.total + BitVec.ofNat 48 n }
    if s.obs.cnt.isEmpty then s
    else (regionCores r).foldl (fun s c => s.countAt c none 0x40 (3200 * s.clk.frame.toNat + 32 * (s.clk.sg % 100)) n 1) s) s

/-- An emergency begins: 1 power, 2 current, 3 temperature (R413 to R416), with its trace point (R442). -/
def State.emergency (s : State) (source : Nat) : State :=
  let t := s.clk.timebase
  let again := s.power.emergencyAt.any fun t0 => decide ((t - t0).toNat ≤ 10 * tickSecond)
  let s := { s.sensed .moduleState with power := { s.power with
    emergency := true, source := source, stepDue := some (s.clk.frame + 1), emergencyAt := some t, below := 0,
    keptOut := s.power.keptOut || again } }
  let s := s.traceAll 0x26 [BitVec.ofNat 8 source, 1]
  let s := if s.inFormed then ({ s with power := { s.power with stretchAll := true } }).stretchRest else s
  s.raise .none' (if source = 3 then .thermalLimit else .powerLimit) 0x01 s.skeinPass

/-- The period code two places larger, or 20 (R414). -/
def codeUp2 (code : Nat) : Nat := ((periodCodes.filter fun c => decide (code < c))[1]?).getD 20

/-- LOCAL_STEP: at the end of the frame in which the emergency began, the module steps on its own and leaves its time
domain, and its skein if it has one of two or more members (R297, R414, R415). The step clears an announcement, so that a
member in FORMING that waits for it builds its record (R304). -/
def execLocalStep (s : State) : Host.Outcome State Fault Refusal :=
  if !s.up || s.clk.sg != 100 || !(s.power.stepDue.any fun f => decide (f.toNat ≤ s.clk.frame.toNat)) then .next s
  else
    let left := !s.timeRoot
    let s := s.stepTo (BitVec.ofNat 5 (max s.ownWish (codeUp2 s.clk.period.toNat))) true
    let s := s.setReg 0 .clkTimeCtrl (s.reg 0 .clkTimeCtrl ||| 0x20)
    let s := { s with power := { s.power with stepDue := none, stretchAll := false, localStep := s.power.localStep || left } }
    let s := if s.inFormed then s.detach else s
    .next (if s.skein.state = .forming ∧ s.skein.record.isNone = true then s.buildRecord else s)

/-- Every die reads at least 5 °C below a temperature. -/
def State.fiveBelow (s : State) (t : Nat) : Bool := s.power.temps.all fun v => decide (v + 5 ≤ t)

/-- The emergency ends: CLK_TIME_CTRL.root returns to what the host last wrote, unless a second emergency keeps the module
out (R416). -/
def State.emergencyEnd (s : State) : State :=
  if s.power.emergency && decide (100 ≤ s.power.below) && s.fiveBelow s.fuses.throttle.toNat then
    let s := { s.sensed .moduleState with power := { s.power with emergency := false } }
    let s := s.traceAll 0x26 [BitVec.ofNat 8 s.power.source, 0]
    if s.power.keptOut then s
    else
      let s := if bitAt s.power.hostTime 5 then s
        else s.setReg 0 .clkTimeCtrl (s.reg 0 .clkTimeCtrl &&& ~~~(0x20 : BitVec 128))
      { s with power := { s.power with localStep := false } }
  else s

/-- Mean input power of the last samples in units of 10 µW, times their number (R412). -/
def Power.sum (p : Power) : Nat := p.samples.foldl (· + ·) 0
/-- Mean input power over the last 1 ms in W. -/
def Power.mean (p : Power) : Nat := if p.samples.isEmpty then 0 else p.sum / (100000 * p.samples.length)

/-- Threshold events of the input sensors: a reading that rises above its fused limit (R453). -/
def State.senseInput (s : State) (old : Power) : State :=
  let z := s.fuses
  let p := s.power
  let s := if z.ilimit.toNat * 10 < p.current.toNat ∧ old.current.toNat ≤ z.ilimit.toNat * 10 then s.sensed .inCurrent else s
  if z.plimit.toNat < p.power.toNat ∧ old.power.toNat ≤ z.plimit.toNat then s.sensed .inPower else s

/-- POWER_SAMPLE: input voltage in mV and current in units of 10 mA (R412, R413, R416). -/
def execPowerSample (mv tenMa : Nat) (s : State) : Host.Outcome State Fault Refusal :=
  if s.power.phase = .unpowered then .next s
  else
    let w := mv * tenMa
    let cap := s.pf .pwrCap 0 12
    let p := { s.power with samples := (w :: s.power.samples).take 100 }
    let s := { s with power := { p with
      voltage := BitVec.ofNat 16 (min mv 65535), current := BitVec.ofNat 16 (min tenMa 65535),
      power := BitVec.ofNat 12 (min p.mean 4095),
      above := if s.fuses.plimit.toNat * 100000 < w then p.above + 1 else 0,
      below := if 10 * w < 9 * cap * 100000 then p.below + 1 else 0 } }
    let s := s.senseInput p
    if !s.up || s.chk.fatal then .next s
    else if s.power.emergency then .next s.emergencyEnd
    else if s.fuses.ilimit.toNat * 10 < tenMa then .next (s.emergency 2)
    else if 3 ≤ s.power.above then .next (s.emergency 1)
    else .next s

/-- A trip: THERMAL_LIMIT 0x02, THERMTRIP#, zeroisation, and every rail but I/O and management off (R417). -/
def State.trip (s : State) : State :=
  let s := (s.wiped .tripped).sensed .moduleState
  { s with power := { s.power with pwrGood := false, thermtrip := true, tripped := true },
           chk := { s.chk with fatal := true, cause := Cause.thermalLimit.code, detail := 0x02 } }

/-- Thresholds of a junction temperature that a reading has reached: warning, critical, fatal (R453). -/
def State.tempLevel (s : State) (v : Int) : Nat :=
  (([s.pf .pwrTempCfg 0 7, s.fuses.throttle.toNat, s.fuses.trip.toNat] : List Nat).filter fun (t : Nat) => decide (Int.ofNat t ≤ v)).length

/-- Threshold events of the temperature sensors: a reading that reaches a further threshold (R453). -/
def State.senseTemps (s : State) (old new : List Int) : State :=
  let top := fun (l : List Int) => l.foldl max 0
  let s := if s.tempLevel (top old) < s.tempLevel (top new) then s.sensed .maxTj else s
  new.zipIdx.foldl (fun s r =>
    if s.tempLevel (nth 0 old r.2) < s.tempLevel r.1 then s.sensed (.dieTj (Fin.ofNat 64 r.2)) else s) s

/-- The sensors of the dies: the higher readings, and how long the two of a die have differed by more than 8 °C (R412). -/
def State.readTemps (s : State) (t : List (Int × Int)) : State :=
  let temps := t.map fun r => max r.1 r.2
  let top := temps.foldl max 0
  let s := ({ s with power := { s.power with temps := temps, tj := BitVec.ofNat 7 (min top.toNat 127) } }).senseTemps s.power.temps temps
  t.zipIdx.foldl (fun s r =>
    let far := decide (8 < r.1.1 - r.1.2) || decide (8 < r.1.2 - r.1.1)
    let n := if far then AMap.get 0 s.power.differ r.2 + 1 else 0
    let s := { s with power := { s.power with differ := AMap.set 0 s.power.differ r.2 n } }
    if n = 10 ∧ s.up = true then
      s.logTo pfn 0x06 0xFF [BitVec.ofNat 8 r.2, BitVec.ofInt 8 r.1.1, BitVec.ofInt 8 r.1.2]
    else s) s

/-- TEMPERATURE_SAMPLE: the two readings of each of the 64 dies (R412, R413, R416, R417). -/
def execTemperatureSample (t : List (Int × Int)) (s : State) : Host.Outcome State Fault Refusal :=
  if t.length ≠ 64 then .refused .illFormed
  else if s.power.phase = .unpowered then .next s
  else
    let s := s.readTemps t
    match s.power.phase with
    | .tripped => .next s
    | .cooling st => .next (if s.cool then s.startUp s.power.cause st else s)
    | _ =>
      if s.power.temps.any fun v => decide (s.fuses.trip.toNat ≤ v) then .next s.trip
      else if !s.up || s.chk.fatal then .next s
      else if s.power.emergency then .next s.emergencyEnd
      else if s.cool then .next s
      else .next (s.emergency 3)

/-- The stretch rule of R293: a region's mean over the last 256 frames exceeds the threshold. -/
def State.stretchRule (s : State) : Bool :=
  s.regions.any fun kv => decide (256 * s.pf .clkStretchCfg 0 7 < kv.2.history.foldl (· + ·) 0)

/-- Next larger and next smaller listed code (R277). -/
def codeUp (code : Nat) : Nat := (periodCodes.find? fun c => decide (code < c)).getD 20
def codeDown (code : Nat) : Nat := ((periodCodes.filter fun c => decide (c < code)).getLast?).getD 10

/-- POWER_WISH_EVALUATION (R293, R412). -/
def execPowerWishEvaluation (s : State) : Host.Outcome State Fault Refusal :=
  if !s.up then .next s
  else
    let p := s.power
    let cap := s.pf .pwrCap 0 12
    let n := 100000 * p.samples.length
    let target := s.pf .pwrTempCfg 0 7
    let calm := decide (100 * p.sum < 85 * cap * n) && s.fiveBelow target && !s.stretchRule
    let low := if calm then p.lowMs + 1 else 0
    let up := decide (97 * cap * n < 100 * p.sum) || (p.temps.any fun v => decide (target < v)) || s.stretchRule
    let wish := if up then codeUp p.wish.toNat
      else if 100 ≤ low then max s.fuses.lowestCode.toNat (codeDown p.wish.toNat)
      else p.wish.toNat
    .next { s with power := { p with lowMs := low, wish := BitVec.ofNat 5 wish } }

/-- RAIL_EXCURSION: a rail outside regulation for more than 10 µs once PWR_GOOD has risen (R409). Rails 0 to 4 are those
that a trip turns off. -/
def execRailExcursion (rail : Fin 7) (s : State) : Host.Outcome State Fault Refusal :=
  if !s.power.pwrGood || (s.railsOff && decide (rail.val < 5)) then .next s
  else
    let s := { s with power := { s.power with pwrGood := false } }
    .next (if s.up && !s.chk.fatal then s.raise .none' .powerLimit 0x02 none else s)

/-! ### Resets of a function, a skein and the module -/

/-- SKEIN_RESET: the member's pass is abandoned, the notice and DISSOLVE are sent, and the member enters NONE (R317). -/
def State.skeinReset (s : State) : State :=
  let k := s.skein
  if k.state = .none then s
  else
    let s := s.allPasses.foldl (fun s kp =>
      if kp.2.fn = k.fn then
        if kp.2.state = .queued then s.completePass kp.1 .abandonedReset 0 false else s.abandon kp.1 .abandonedReset true
      else s) s
    let s := if k.multi then s.sendTo s.treePorts (controlMsg 0x06 k.id s.moduleId 0 0) else s
    (if k.state = .forming then s.completeForm .rejectedState else s).leaveSkein

/-- The function after its FLR: its journal, its shares and its clamp log stay; pending requests end in the journal, passes
with ABANDONED_RESET (R361, R424). -/
def Func.afterFlr (u : Func) : Func :=
  let ended := fun (e : W64 × Option Status) => match e.2 with
    | some _ => e
    | none => (e.1, some (if u.fetched.any fun d => descId d.desc == e.1 && descOp d.desc == 1 then Status.abandonedReset
        else .rejectedState))
  { Func.reset with journal := u.journal.map ended, qos := u.qos, clampLog := u.clampLog, clampSeq := u.clampSeq,
                    fetchOrder := u.fetchOrder, irqSent := u.irqSent }

/-- The retained copy of a function, where KEYED_WARM left it, enters SCRUBBING (R403). -/
def State.scrubRetained (s : State) (u : Func) : State :=
  match u.retention.bind fun r => r.home with
  | some h => if u.retained then { s with teasel := s.teasel ++ [h.1] } else s
  | none => s

/-- FLR of one function (R361). -/
def State.flr (s : State) (f : FnId) : State :=
  let u := s.fn f.val
  let s := s.setFn f.val u.afterFlr
  let s := if s.skein.fn = f then s.skeinReset else s
  let s := s.allPasses.foldl (fun s kp =>
    if kp.2.fn = f then
      if kp.2.state = .queued then { s with passes := AMap.set none s.passes kp.1 none } else s.abandon kp.1 .abandonedReset true
    else s) s
  let s := { s with slots := s.slots.filter fun kv => !(kv.2.any fun (x : Slot) => x.fn == f) }
  let s := { s with setup := s.setup.filter fun kv => decide (kv.1 ≤ f.val * 2 ^ 20 + 0x20000) || decide (f.val * 2 ^ 20 + 0x50000 < kv.1) }
  let s := s.scrubRetained u
  ((s.startScrub f 0).startScrub f 1).startScrub f 2

/-- FLR: of the PF it is one of every function, and clears VF Enable (R361, R362). In a warm reset that is in progress it
is absorbed (R426). -/
def execFlr (f : FnId) (s : State) : Host.Outcome State Fault Refusal :=
  if s.power.phase ≠ .ready ∨ s.numVfs < f.val then .next s
  else if f = pfn then .next { (allFns.foldl (fun s g => if g.val ≤ s.numVfs then s.flr g else s) s) with numVfs := 0 }
  else .next (s.flr f)

/-- VF_ENABLE: VFs 1 to n exist; those that go are reset (R337, R362). -/
def execVfEnable (n : Fin 16) (s : State) : Host.Outcome State Fault Refusal :=
  if s.power.phase ≠ .ready then .next s
  else .next { (allFns.foldl (fun s g => if n.val < g.val && decide (g.val ≤ s.numVfs) then s.flr g else s) s) with numVfs := n.val }

/-- Steps 1 and 2 of a warm reset: every pass is abandoned and, once quiescent, completed with ABANDONED_RESET, and every other
fetched descriptor with REJECTED_STATE (R423). -/
def State.windUp (s : State) : State :=
  let s := s.allPasses.foldl (fun s kp => s.abandon kp.1 .abandonedReset true) s
  let s := s.allPasses.foldl (fun s kp => s.completePass kp.1 .abandonedReset 0 false) s
  allFns.foldl (fun s f => (s.fn f.val).fetched.foldl (fun s d => s.finish f d.ring d.index .rejectedState) s) s

/-- What KEYED_WARM keeps of a function: the generation that its retention record names, if committed blocks of it are
there, with the place of its copy (R425, R428). -/
def State.retainedOf (s : State) (f : FnId) : Option (Func × Scrub) :=
  let u := s.fn f.val
  match u.retention with
  | none => none
  | some r =>
    match u.gens.find? fun g => g.gen == r.gen && g.state != .retired && !g.blocks.isEmpty with
    | none => none
    | some g =>
      let len := (match r.home with
        | some h => h.1.size
        | none => u.copyLen)
      let home : Scrub := (match r.home with
        | some h => h.1
        | none => {
          fn := f, space := 0, part := s.reg 0 (.setPart (Fin.ofNat 12 (s.func f).part)),
          base := (s.func f).wBase + g.copy * len, size := len })
      let st := if g.state = .active then GenState.active else .incomplete
      some ({ Func.reset with
        gens := [{ g with state := st, key := none, ticketKey := none, listed := false, back := none, lost := [], desc := none }],
        activeGen := g.gen, retained := true,
        retention := some { r with presented := false, home := match r.home with
          | some h => some h
          | none => some (home, (s.func f).wBase, (s.func f).wSize) } }, home)

/-- Memory and code marks of the retained copies. -/
def keptBytes (homes : List Scrub) (a : Nat) : Bool :=
  homes.any fun h => decide (a < 2 ^ 44) && (Part.of h.part).hasDie (coreDie (a / 2 ^ 32)) &&
    decide (h.base ≤ a % 2 ^ 32) && decide (a % 2 ^ 32 < h.base + h.size)

/-- WARM_RESET_START: MODULE_WARM, or KEYED_WARM with the retained copies kept (R423 to R428). The PCIe link, the service
states, a debug unlock, the timebase and the fatal state stay (R18, R376). -/
def execWarmResetStart (kemSeed : BitVec 512) (s : State) : Host.Outcome State Fault Refusal :=
  match s.power.phase with
  | .warmPending keyed =>
    let kept := if keyed then allFns.filterMap fun f => (s.retainedOf f).map fun r => (f, r) else []
    let homes := kept.map fun r => r.2.2
    let w := s.wiped .ready
    let cores := s.cores.filterMap fun kv => if kv.2.svc = .inService then none else some (kv.1, Core.outWith kv.2.svc kv.2.cause)
    let fns := kept.foldl (fun (m : AMap Func) r =>
      AMap.set Func.reset m r.1.val (if r.1 = pfn then { r.2.1 with qos := Func.reset0.qos } else r.2.1)) w.fns
    .next (State.dropParts { w with
      numVfs := s.numVfs, diesOut := s.diesOut, cores := cores, fns := fns,
      mem := s.mem.filter fun c => keptBytes homes c.1, ecc := s.ecc.filter fun c => keptBytes homes c.1,
      clk := .started s.clk.timebase s.clk.fraction,
      sec := { w.sec.turn with ready := s.sec.ready, trng := s.sec.trng, debug := s.sec.debug, scopes := s.sec.scopes,
                               kem := if s.sec.trng then some kemSeed else none },
      power := { w.power with cause := if keyed then .keyedWarm else .moduleWarm, rail := s.railOf 20,
                              voltage := s.power.voltage, current := s.power.current, samples := s.power.samples,
                              power := s.power.power, tj := s.power.tj }
      chk := { w.chk with fatal := s.chk.fatal, cause := s.chk.cause, detail := s.chk.detail } })
  | _ => .next s

/-! ### Signing trees and the entropy source -/

/-- TREE_GENERATION_COMPLETE: the top-tree leaf advances, the new tree's key is signed, and the tree is ready (R395). -/
def execTreeGenerationComplete (s : State) : Host.Outcome State Fault Refusal :=
  let k := s.sec
  if s.power.phase = .unpowered ∨ k.next ≠ 0 ∨ 2 ^ 20 ≤ k.topLeaf ∨ k.copies.any id = false then .next s
  else .next { s with sec := ({ k with topLeaf := k.topLeaf + 1, next := 1 }).turn }

/-- ENTROPY_HEALTH_TEST (R399). -/
def execEntropyHealthTest (passes : Bool) (s : State) : Host.Outcome State Fault Refusal :=
  .next (if s.up then { s with sec := { s.sec with trng := passes } } else s)

end Sys2Proof.Machine
end

