-- ==== Sys2Proof/Machine/Flags.lean ====
section
/-! DEFINITION. What the capability and status registers read (the register tables of the chapters; reserved fields and WO
fields read 0, R6): each view is the register's value as a number. -/

namespace Sys2Proof.Machine

/-- A bit at a place. -/
def flagAt (b : Bool) (i : Nat) : Nat := if b then 2 ^ i else 0

/-! ### Capability registers (chapter 14) -/

/-- Grade code of CAP_GRADE. -/
def Fuses.gradeCode (z : Fuses) : Nat := match z.grade with
  | .f => 1
  | .s => 2

/-- CAP_GRADE.caps, bit for bit as the executable's caps (R4, R208). -/
def Fuses.caps (z : Fuses) : Nat := match z.grade with
  | .f => 0b1111
  | .s => 0b1000

/-- CAP_GRADE. -/
def State.capGrade (s : State) : Nat :=
  s.fuses.gradeCode + 0xA2 * 2 ^ 8 + s.fuses.caps * 2 ^ 16 + (if s.fuses.grade = .f then 1728 else 1536) * 2 ^ 32 + 3 * 2 ^ 48

/-- CAP_LIB_VERSION: 0 with no library. -/
def State.capLibVersion (s : State) : Nat := match s.library with
  | some l => l.minor.toNat + l.abi.toNat * 2 ^ 16
  | none => 0

/-- CAP_SPARES[n]. -/
def State.capSpares (s : State) (n : Nat) : Nat := if s.fuses.grade = .s then (nth 0 s.fuses.spares n).toNat else 0

/-! ### Clock and power registers (chapters 11 and 17) -/

/-- Code of CLK_TIME_STATUS.state. -/
def TimeState.code : TimeState → Nat
  | .freeRunning => 0 | .acquiring => 1 | .locked => 2 | .holdover => 3

/-- CLK_TIME_STATUS. -/
def State.clkTimeStatus (s : State) : Nat := s.clk.state.code + flagAt s.clk.tol 2 + s.clk.theta.toNat * 2 ^ 16

/-- CLK_PERIOD. -/
def State.clkPeriod (s : State) : Nat :=
  s.clk.period.toNat + s.clk.pending.toNat * 2 ^ 8 + flagAt s.clk.announced 13 + (if s.up then s.ownWish else 0) % 32 * 2 ^ 16 +
    s.clk.stepFrame.toNat % 2 ^ 32 * 2 ^ 32

/-- PWR_STATUS. A warm reset that waits for its start has not begun. -/
def State.pwrStatus (s : State) : Nat :=
  flagAt s.up 0 + flagAt s.power.emergency 1 + s.power.source % 4 * 4 + flagAt s.power.localStep 4 + s.power.wish.toNat * 2 ^ 8

/-- PWR_INPUT. -/
def State.pwrInput (s : State) : Nat :=
  s.power.voltage.toNat + s.power.current.toNat * 2 ^ 16 + s.power.power.toNat * 2 ^ 32 + s.power.tj.toNat * 2 ^ 48

/-- PWR_FUSED. -/
def State.pwrFused (s : State) : Nat :=
  let z := s.fuses
  z.plimit.toNat + z.ilimit.toNat * 2 ^ 12 + z.lowestCode.toNat * 2 ^ 22 + z.vfloor.toNat * 2 ^ 27 + z.vceil.toNat * 2 ^ 37 +
    z.throttle.toNat * 2 ^ 47 + z.trip.toNat * 2 ^ 54

/-- PWR_RESET_CAUSE. -/
def State.pwrResetCause (s : State) : Nat := s.power.cause.code.toNat

/-! ### Fabric registers (chapters 9, 10 and 12) -/

/-- FAB_CORE_STATE: every core of a die out of service reads out of service (R241). -/
def State.fabCoreState (s : State) (c : Nat) : Nat :=
  let k := s.core c
  (if s.diesOut.any fun d => d.val == coreDie c then 3 else k.svc.code.toNat) + flagAt (s.spare c) 2 + k.cause.toNat * 2 ^ 8

/-- Cores of a die in a service state. -/
def State.svcCount (s : State) (d : Nat) (svc : CoreSvc) : Nat :=
  ((List.range 144).filter fun i => (s.core (coreAt d i)).svc == svc).length

/-- FAB_DIE_STATE. -/
def State.fabDieState (s : State) (d : Nat) : Nat :=
  flagAt (!(s.diesOut.any fun o => o.val == d)) 0 + s.svcCount d .bypassed % 4 * 2 ^ 4 + s.svcCount d .fenced % 2 ^ 8 * 2 ^ 8

/-- Code of FAB_PORT_STATUS.state. -/
def PortState.code : PortState → Nat
  | .disabled => 0 | .training => 1 | .weftOnly => 2 | .full => 3 | .down => 4

/-- FAB_PORT_STATUS. -/
def State.fabPortStatus (s : State) (p : Nat) : Nat :=
  PortState.code (s.port p).state + flagAt (s.port p).fit 3 + (s.port p).delay.toNat * 2 ^ 8

/-- FAB_SKEIN_STATUS. -/
def State.fabSkeinStatus (s : State) : Nat :=
  (SkeinState.code s.skein.state).toNat + s.skein.field.toNat * 2 ^ 8 + s.skein.id.toNat * 2 ^ 16 + s.skein.module.toNat * 2 ^ 32

/-- FAB_SKEIN_PASS. -/
def State.fabSkeinPass (s : State) : Nat := s.skein.passNo.toNat

/-! ### Ingest, integrity and security registers (chapters 13, 15 and 16) -/

/-- The newest generation of a function that has a state of the table: a list whose key has not been accepted is in none yet
(R321). -/
def Func.newest (u : Func) : Option Gen :=
  (u.gens.filter fun g => g.state != .retired && (g.state != .prepared || g.isPrepared)).getLast?

/-- ING_GEN_STATUS. -/
def State.ingGenStatus (s : State) (f : Nat) : Nat :=
  let u := s.fn f
  let pins := (u.genOf u.activeGen).filter fun g => (g.state == .active || g.state == .rolling) && !u.retained
  (match pins with
    | some g => g.gen.toNat + g.copy % 2 * 2 ^ 35
    | none => 0) +
  (match u.newest with
    | some g => (GenState.code g.state).toNat * 2 ^ 32 + min g.blocks.length 4095 * 2 ^ 36
    | none => 0)

/-- ING_DIST_FAIL. -/
def State.ingDistFail (s : State) : Nat := s.distFail.value

/-- CHK_OVERFLOW (R369). -/
def State.chkOverflow (s : State) : Nat := s.chk.lost

/-- CHK_STATUS. -/
def State.chkStatus (s : State) : Nat := flagAt s.chk.fatal 0 + s.chk.cause.toNat * 2 ^ 8 + s.chk.detail.toNat * 2 ^ 16

/-- CHK_FAULT_COUNT. -/
def State.chkFaultCount (s : State) : Nat :=
  s.chk.corrected + s.chk.contained * 2 ^ 32 + s.chk.persistent * 2 ^ 48 + s.chk.fatals * 2 ^ 56

/-- CHK_FAULT_FIRST and CHK_FAULT_LAST. -/
def faultView (r : Option FaultRecord) : Nat := match r with
  | some r => leNat (FaultRecord.bytes r)
  | none => 0

/-- CHK_SCRUB_ERR. -/
def State.chkScrubErr (s : State) : Nat :=
  let k := s.chk
  k.errGen.toNat + k.errShard.toNat * 2 ^ 32 + k.errCore.toNat * 2 ^ 64 + k.errWord.toNat * 2 ^ 75 + flagAt k.errValid 96 +
    k.errFn.toNat * 2 ^ 97

/-- Some function's retained weights are unbound (R403). -/
def State.anyUnbound (s : State) : Bool := s.fns.any fun kv => kv.2.retained

/-- SEC_STATUS. -/
def State.secStatus (s : State) : Nat :=
  flagAt s.sec.ready 0 + s.sec.next % 4 * 2 + flagAt s.sec.trng 3 + flagAt s.sec.debug 4 + flagAt s.anyUnbound 5

/-- SEC_SIGN_INDEX. -/
def State.secSignIndex (s : State) : Nat := s.sec.leaf % 2 ^ 20 + s.sec.tree % 2 ^ 20 * 2 ^ 32

/-- SEC_TAMPER. -/
def State.secTamper (s : State) : Nat := s.sec.tamperCount.toNat + s.sec.sensor.toNat % 16 * 2 ^ 32 + flagAt s.sec.newTamper 36

/-- A function's region of a space is in SCRUBBING by its own reset, load or close. -/
def State.teaselOf (s : State) (f : FnId) (space : Nat) : Bool := s.teasel.any fun t => t.fn == f && t.space == space

/-- SEC_SCRUB. -/
def State.secScrub (s : State) (f : FnId) : Nat :=
  flagAt (s.teaselOf f 1) 0 + flagAt (s.teaselOf f 2) 1 + flagAt (s.teaselOf f 0) 2 + flagAt (s.fn f.val).retained 3

/-! ### Host and observation registers (chapters 14 and 18) -/

/-- Code of a ring state. -/
def RingState.code : RingState → Nat
  | .disabled => 0 | .enabled => 1 | .draining => 2 | .error => 3

/-- Live RO part of a set-up register. -/
def State.liveBits (s : State) (f : FnId) : RegId → Nat
  | .rngSq r => RingState.code ((s.fn f.val).sqOf r.val).state * 2 ^ 73 + ((s.fn f.val).sqOf r.val).head.toNat * 2 ^ 76
  | .rngCq r =>
    let q := (s.fn f.val).cqOf r.val
    RingState.code q.state * 2 ^ 76 + q.tail.toNat * 2 ^ 78 + flagAt q.phase 90
  | .fabMeshMode => flagAt (s.modePending.getD s.scheduled) 0 + flagAt s.modePending.isSome 1
  | _ => 0

/-- What a set-up register reads. -/
def State.regWord (s : State) (f : FnId) (r : RegId) : Nat := (s.reg f r).toNat + s.liveBits f r

/-- MBX_STATUS. -/
def State.mbxStatus (s : State) (f : Nat) : Nat :=
  (s.fn f).mbxSeq.toNat + (s.fn f).mbxStatus.toNat * 2 ^ 32 + flagAt (s.fn f).mbxBusy 40

/-- SET_CLAMP_LOG[i]: record k lands in entry k mod 64. -/
def State.clampView (s : State) (f : FnId) (i : Nat) : Nat :=
  match (s.fn f.val).clampLog.find? fun e => e.2.2.2.2.2.toNat % 64 == i with
  | some (o, lsb, ig, w, a, q) => leNat (clampBytes o lsb f.val ig w.toNat a.toNat q.toNat)
  | none => 0

/-- OBS_STEP_HIST[j]: the change numbered m is entry m mod 16; `n` changes have been taken (R444). -/
def State.stepHist (s : State) (n j : Nat) : Nat :=
  match (s.obs.steps.zipIdx.find? fun e => (n - 1 - e.2) % 16 == j).map (·.1) with
  | some (f, o, w, l) => f.toNat + o.toNat * 2 ^ 32 + w.toNat * 2 ^ 37 + flagAt l 42 + 2 ^ 43
  | none => 0

/-- OBS_LOST. -/
def State.obsLost (s : State) : Nat := s.obs.lostLog + s.obs.lostTrace * 2 ^ 32

end Sys2Proof.Machine
end

