-- ==== Sys2Proof/Machine/Vedihar.lean ====
section
/-! DEFINITION. The Vedihar messages (R358, R359): identity and attestation (R388 to R397), the library (R151, R393, R462),
weight sessions (R320 to R322, R327, R402, R403), warm resets (R423), debug unlock (R405) and observation set-up (R445).
A request document comes as its fields with its bytes; where the first offending byte of a refused document is not plain
from the rules, the response's detail is a free value. -/

namespace Sys2Proof.Machine

/-! ### The gate -/

/-- In the fatal state only families 0x01 and 0x06 still work (R376). -/
def State.familyOpen (s : State) (fam : Nat) : Bool := !s.chk.fatal || fam == 1 || fam == 6

/-- The gate of a family for the functions it allows (R358, R359). -/
def State.vedihar (s : State) (q : Mbx) (fam : Nat) (allowed : Bool) (run : State → State) : State :=
  if !s.live q.f then s else s.mailbox q (allowed && s.familyOpen fam) run

/-- REJECTED_FORMAT with a free detail. -/
def State.badDocument (s : State) (q : Mbx) : State :=
  let (v, s) := s.draw 0x358
  s.respond q .rejectedFormat (v.setWidth 16) []

/-- `8 n` free bytes. -/
def State.drawBytes (s : State) (kind : Nat) : Nat → List Byte × State
  | 0 => ([], s)
  | n + 1 =>
    let (v, s) := s.draw kind
    let (t, s) := s.drawBytes kind n
    (leBytes 8 v.toNat ++ t, s)

/-- Next output of the DRBG (R399). -/
def State.random (s : State) : BitVec 256 × State :=
  (Config.drbg s.sec.drawn, { s with sec := { s.sec with drawn := s.sec.drawn + 1 } })

/-! ### Family 0x01: identity -/

/-- The 64 die identity records (R388). -/
def State.dieRecords (s : State) : List Byte := s.fuses.dies.flatMap fun d => leBytes 16 d.toNat

/-- DIE_IDENTITY_RECORDS (R396). -/
def execDieIdentityRecords (q : Mbx) (s : State) : Host.Outcome State Fault Refusal :=
  .next (s.vedihar q 1 true fun s => s.respond q .done 0 s.dieRecords)

/-- CERTIFICATE_CHAIN (R392, R396). -/
def execCertificateChain (q : Mbx) (s : State) : Host.Outcome State Fault Refusal :=
  .next (s.vedihar q 1 true fun s => s.respond q .done 0 (Config.moduleCert ++ Config.mfgCert))

/-- ENCAPSULATION_KEY (R396, R398): with no key pair, the request is refused (R399). -/
def execEncapsulationKey (q : Mbx) (s : State) : Host.Outcome State Fault Refusal :=
  .next (s.vedihar q 1 true fun s => match s.sec.kem with
    | some k => s.respond q .done 0 (Config.kemPublic k)
    | none => s.respond q .rejectedState 0 [])

/-- The registers of the configuration hash, in the order and at the widths of R397. -/
def State.configBytes (s : State) : List Byte :=
  leBytes 8 s.capGrade ++ leBytes 4 (s.regWord pfn .setLock) ++
    ((List.range 12).flatMap fun p => leBytes 4 (s.regWord pfn (.setPart (Fin.ofNat 12 p)))) ++
    (allFns.flatMap fun f => leBytes 8 (s.regWord pfn (.setFunc f))) ++
    (allFns.flatMap fun f => leBytes 8 (s.regWord pfn (.setQos f))) ++
    leBytes 4 (s.regWord pfn .chkScrub) ++ leBytes 4 (s.regWord pfn .chkFenceCfg) ++ leBytes 4 (s.regWord pfn .fabModuleId) ++
    ((List.range 12).flatMap fun d => leBytes 4 (s.fabDieState d)) ++
    ((List.range 1728).flatMap fun c => leBytes 4 (s.fabCoreState c))

/-- Bytes 0 to 263 of an attestation report, with the hash of the encapsulation key (R396). -/
def State.reportBytes (s : State) (nonce : BitVec 256) (fn : Byte) (ek : List Byte) : List Byte :=
  let u := s.fn fn.toNat
  let hash := fun (h : Option (BitVec 256)) => leBytes 32 (h.getD 0).toNat
  [0x41, 0x54, 0x54, 0x52] ++ leBytes 2 1 ++ leBytes 1 s.fuses.gradeCode ++ [0xA2] ++ leBytes 8 s.fuses.serial.toNat ++
    leBytes 32 nonce.toNat ++ sha256 s.dieRecords ++ hash (s.library.map fun l => l.hash) ++ hash (u.exe.map fun x => Exe.hash x.exe) ++
    hash ((u.session.filter fun x => x.manifest.isSome).map fun x => x.manifestHash) ++ sha256 s.configBytes ++ ek ++
    leBytes 4 s.sec.bootCount.toNat ++ leBytes 4 s.sec.tamperCount.toNat ++
    leBytes 1 (flagAt s.sec.debug 0 + flagAt (s.pf .setLock 0 1 == 1) 1 + flagAt s.chk.fatal 2 + flagAt s.anyUnbound 3) ++
    [fn] ++ leBytes 6 0 ++ leBytes 8 s.clk.timebase.toNat

/-- The module can sign now, or after a tree that is being generated (R394, R395). -/
def Sec.canSign (k : Sec) : Bool := k.copies.any id && (decide (k.leaf < 2 ^ 20) || k.next == 1 || decide (k.topLeaf < 2 ^ 20))

/-- Sign with the next unused leaf, which is consumed first (R394, R395). -/
def State.sign (s : State) (msg : List Byte) : List Byte × State :=
  let k := s.sec
  (Config.hssSign s.fuses.seed k.tree k.leaf msg, { s with sec := ({ k with leaf := k.leaf + 1 }).turn })

/-- The report, signed (R394 to R396). While the next tree is being generated, the request waits. -/
def State.attest (s : State) (q : Mbx) (nonce : BitVec 256) (fn : Byte) : State :=
  if 15 < fn.toNat then s.respond q .rejectedFormat 32 []
  else if !s.sec.canSign then s.respond q .rejectedState 0 []
  else
    let s := { s with sec := s.sec.turn }
    if 2 ^ 20 ≤ s.sec.leaf then s.updFn q.f.val fun u => { u with mbxBusy := true }
    else
      let (ek, s) := match s.sec.kem with
        | some k => (sha256 (Config.kemPublic k), s)
        | none => s.drawBytes 0x396 4
      let body := s.reportBytes nonce fn ek
      let (sig, s) := s.sign body
      s.respond q .done 0 (body ++ sig)

/-- ATTESTATION_REPORT (R396, R397): a VF may name only itself. -/
def execAttestationReport (q : Mbx) (nonce : BitVec 256) (fn : Byte) (s : State) : Host.Outcome State Fault Refusal :=
  .next (s.vedihar q 1 (decide (q.f = pfn) || fn.toNat == q.f.val) fun s => s.attest q nonce fn)

/-! ### Certificates -/

/-- The key that a Narbotra certificate of a usage certifies, when the root key of the fused hash has signed it and its
reserved fields are zero (R391, R392). -/
def State.certified (s : State) (usage : Byte) (cert : List Byte) : Option (List Byte) :=
  let zero := fun (i n : Nat) => ((cert.drop i).take n).all fun b => b == 0
  let root := Config.rootKey
  if decide (128 ≤ cert.length) && cert.take 6 == [0x4E, 0x4B, 0x43, 0x31, 1, usage] && zero 6 2 && zero 76 52 &&
      sha256n root == s.fuses.rootHash && Config.hssVerify root (cert.take 128) (cert.drop 128) then
    some ((cert.drop 16).take 60)
  else none

/-! ### Family 0x02: the library -/

/-- One manifest entry (table "Manifest entry layout"). -/
def entryOk (n : Nat) (r : LibEntry) : Bool :=
  decide (r.number < 4096 ∧ r.engines.toNat < 32 ∧ r.loopDepth ≤ 4 ∧ r.callDepth ≤ 1) && (decide (r.sizeReg.toNat < 32) || r.sizeReg == 0xFF) &&
    r.caps.toNat % 16 == r.caps.toNat && r.reservedZero && r.eng.length == 5 &&
    r.eng.zipIdx.all fun e =>
      if r.engines.getLsbD e.2 then decide (24576 ≤ e.1.entry ∧ e.1.entry < 24576 + n)
      else e.1.entry == 0 && e.1.start == 0 && e.1.base == 0 && e.1.perUnit == 0

/-- Routine numbers rise. -/
def ascending : List Nat → Bool
  | a :: b :: t => decide (a < b) && ascending (b :: t)
  | _ => true

/-- The bodies of one routine: loops and calls stay within the depth that the manifest declares, which R147 bounds, and
within R155. -/
def routineOk (l : Library) (body : List W64) (r : LibEntry) : Bool :=
  allEngines.all fun e => !r.engines.getLsbD e.num ||
    match (r.eng[e.num]?).bind fun x => routineWords body x.entry with
    | none => false
    | some ws => loopsOk (some l) e r.loopDepth 0 [] ws && ws.all fun v => wordOp v != 0x05 ||
        (r.callDepth == 1 && (libRoutine (some l) e (fld (wordOps v) 0 12)).any fun c => c.callDepth == 0)

/-- Every RET of the body ends a routine (R155). -/
def retsOk (l : Library) (body : List W64) : Bool :=
  let ends := l.entries.flatMap fun r => r.eng.zipIdx.filterMap fun e =>
    if r.engines.getLsbD e.2 then (routineWords body e.1.entry).map fun ws => e.1.entry - 24576 + ws.length else none
  body.zipIdx.all fun v => wordOp v.1 != 0x06 || ends.contains v.2

/-- The library that an image holds. -/
def LibImage.library (i : LibImage) : Library :=
  { minor := i.minor, abi := i.abi, entries := i.entries, body := i.body, manifestHash := sha256n i.manifestBytes,
    hash := sha256n (i.signedBytes ++ i.cert ++ i.signature) }

/-- The image keeps its layout, its parts in order after the header of 64 bytes (R462). -/
def libraryShape (i : LibImage) : Bool :=
  i.magic == 0x3142494C && decide (1 ≤ i.routines ∧ i.routines ≤ 4095) && i.entries.length == i.routines &&
    i.manifestOff % 64 == 0 && i.manifestLen == 256 * i.routines && i.bodyOff % 64 == 0 &&
    decide (64 ≤ i.manifestOff ∧ i.manifestOff + i.manifestLen ≤ i.bodyOff ∧ i.bodyOff + i.bodyLen ≤ i.signedBytes.length) &&
    i.bodyLen % 8 == 0 &&
    decide (i.bodyLen ≤ 65536) && i.body.length == i.bodyLen / 8 && i.reservedZero &&
    ascending (i.entries.map fun r => r.number) && i.entries.all (entryOk i.body.length)

/-- The module accepts an image (R151, R155, R393, R462). -/
def State.libraryFits (s : State) (i : LibImage) : Bool :=
  let l := LibImage.library i
  libraryShape i && i.abi.toNat == capLibAbiMajor && i.entries.all (routineOk l i.body) && retsOk l i.body &&
    (s.certified 0x02 i.cert).any fun k => Config.hssVerify k (i.signedBytes ++ i.cert) i.signature

/-- The body enters the library region of every core (R462). -/
def State.writeLibrary (s : State) (body : List W64) : State :=
  let bs := body.flatMap fun w => leBytes 8 w.toNat
  (List.range 1728).foldl (fun s c => (s.writeNow (absAddr 3 c (8 * 24576)) bs).clearEcc 3 (absAddr 3 c (8 * 24576)) bs.length) s

/-- LIBRARY_LOAD (R151, R302). -/
def execLibraryLoad (q : Mbx) (img : LibImage) (s : State) : Host.Outcome State Fault Refusal :=
  .next (s.vedihar q 2 (decide (q.f = pfn)) fun s =>
    if (s.fns.any fun kv => kv.2.exe.isSome) || s.skein.state != .none then s.respond q .rejectedState 0 []
    else if !s.libraryFits img then s.respond q .rejectedLibrary 0 []
    else ({ s.writeLibrary img.body with library := some (LibImage.library img) }).respond q .done 0 [])

/-- LIBRARY_QUERY (R359): what the response holds is not laid out. -/
def execLibraryQuery (q : Mbx) (s : State) : Host.Outcome State Fault Refusal :=
  .next (s.vedihar q 2 (decide (q.f = pfn)) fun s =>
    ({ s with fresh := s.fresh + 1 }).respond q .done 0 (Config.libraryInfo s.fresh))

/-! ### Family 0x03: weight sessions -/

/-- The function's session. -/
def State.session (s : State) (f : FnId) : Option Session := (s.fn f.val).session

/-- WEIGHT_SESSION_OPEN (R320): one session per function. -/
def execWeightSessionOpen (q : Mbx) (s : State) : Host.Outcome State Fault Refusal :=
  .next (s.vedihar q 3 true fun s => match s.session q.f with
    | some _ => s.respond q .rejectedState 0 []
    | none => (s.updFn q.f.val fun u => { u with session := some { owner := [], manifest := none, manifestHash := 0 } }).respond q .done 0 [])

/-- OWNER_KEY: the session carries one HSS public key of 60 bytes (R320, R390). -/
def execOwnerKey (q : Mbx) (key : List Byte) (s : State) : Host.Outcome State Fault Refusal :=
  .next (s.vedihar q 3 true fun s => match s.session q.f with
    | some x =>
      if x.owner ≠ [] then s.respond q .rejectedState 0 []
      else if key.length ≠ 60 then s.respond q .rejectedFormat (BitVec.ofNat 16 (min key.length 60)) []
      else (s.updFn q.f.val fun u => { u with session := some { x with owner := key } }).respond q .done 0 []
    | none => s.respond q .rejectedState 0 [])

/-- One tensor record (table "Tensor record"). -/
def tensorOk (t : TensorRec) : Bool := (t.kind == 1 || t.kind == 2) && decide (t.flags < 2)

/-- The manifest keeps its layout (table "Weight manifest header"). -/
def manifestOk (m : Manifest) : Bool :=
  m.magic == 0x31464D57 && m.format == 1 && decide (1 ≤ m.tensors.length ∧ m.tensors.length ≤ 4096) &&
    decide (1 ≤ m.blocks ∧ m.blocks ≤ 4096) && decide (1 ≤ m.vmodules ∧ m.vmodules ≤ 1024) &&
    decide (1 ≤ m.shards ∧ m.shards ≤ 24576 * m.vmodules) && m.copyLen % shardBytes == 0 && decide (m.copyLen ≤ 12 * shardBytes) &&
    m.reservedZero && m.tensors.all tensorOk

/-- WEIGHT_MANIFEST (R320). -/
def execWeightManifest (q : Mbx) (doc : Manifest) (s : State) : Host.Outcome State Fault Refusal :=
  .next (s.vedihar q 3 true fun s => match s.session q.f with
    | some x =>
      if x.owner = [] ∨ x.manifest.isSome = true then s.respond q .rejectedState 0 []
      else if !manifestOk doc || !Config.hssVerify x.owner doc.bytes doc.signature then s.badDocument q
      else (s.updFn q.f.val fun u => { u with session := some { x with manifest := some doc, manifestHash := sha256n doc.bytes } }).respond
        q .done 0 []
    | none => s.respond q .rejectedState 0 [])

/-- Bytes of an image from `a` lie in one shard with byte `b`. -/
def oneShard (a n b : Nat) : Bool := a / shardBytes == b / shardBytes && (a + n - 1) / shardBytes == b / shardBytes

/-- Each entry image lies in one shard with its side image (R64, R321). -/
def imagesTogether (t : TensorRec) : Bool :=
  (List.range t.entries).all fun i =>
    let a := t.entryBase + 64 * t.entryStride * i
    let b := t.sideBase + 64 * t.sideStride * i
    let m := fmtClass t.fmt
    let side := 4 * m + (if t.flags % 2 = 1 then TensorRec.rows t * (m / 32) else 0)
    oneShard a (TensorRec.rows t * rowBytesOf t.fmt) a && oneShard b side a

/-- The generation list is that of a manifest (R320, R321). -/
def listOk (m : Manifest) (hash : BitVec 256) (g : GenList) : Bool :=
  g.magic == 0x314C4757 && g.generation != 0 && g.manifest == hash && g.count == m.shards && g.entries.length == g.count &&
    g.reservedZero && (g.entries.zipIdx.all fun e => e.1.index == e.2 && e.1.offset % shardBytes == 0 &&
      decide (e.1.offset + shardBytes ≤ m.copyLen ∧ e.1.block < m.blocks ∧ e.1.vmodule < m.vmodules)) &&
    (pairsOk (fun a b => a.vmodule != b.vmodule || a.vcore != b.vcore || a.offset != b.offset) g.entries) &&
    m.tensors.all fun t => t.kind != 1 || imagesTogether t

/-- A generation whose list and key are both there becomes PREPARED (R321). -/
def State.prepared (s : State) (f : FnId) (g : W32) : State :=
  match (s.fn f.val).genOf g with
  | some x => if x.isPrepared then s.traceGen f g .retired .prepared else s
  | none => s

/-- A new generation. -/
def Gen.ofList (g : GenList) : Gen :=
  { gen := g.generation, state := .prepared, mode := .staged, copy := 0, entries := g.entries, key := none, ticketKey := none,
    blocks := [], shards := [], begun := [], homes := [], back := none, lost := [], desc := none, listed := true }

/-- Bytes of a retained shard as the re-hash reads them: the check-word areas count as zero (R403). -/
def State.rehash (s : State) (ts : List TensorRec) (home : Scrub) (core : Nat) (e : ShardEntry) : BitVec 256 :=
  let bs := memGet s.mem (absAddr 0 core (home.base + e.offset)) shardBytes
  sha256n (ts.foldl (fun bs t => (shardImages e t).foldl (fun bs i => splice bs i.2 (List.replicate (4 * fmtClass t.fmt) 0)) bs) bs)

/-- A committed shard of the retained copy whose re-hash differs from the list (R403). -/
def State.differs (s : State) (ts : List TensorRec) (home : Scrub) (g : Gen) (e : ShardEntry) : Bool :=
  match g.homes.find? fun h => h.1 == e.index with
  | some h => s.rehash ts home h.2 e != e.sha
  | none => true

/-- The list binds the retained weights: committed shards that match stay committed (R403, R427). -/
def State.bind (s : State) (f : FnId) (doc : GenList) (home : Scrub) : State :=
  let ts := (s.fn f.val).tensors
  let s := s.updFn f.val fun u => u.updGen doc.generation fun g => { g with entries := doc.entries, listed := true }
  let s0 := s
  let s := s.uncommit f (fun g e => g.gen == doc.generation && s0.differs ts home g e) false
  (s.updFn f.val fun u => { u with retained := false }).settleGen f doc.generation

/-- GENERATION_LIST (R320, R321, R403). -/
def execGenerationList (q : Mbx) (doc : GenList) (s : State) : Host.Outcome State Fault Refusal :=
  .next (s.vedihar q 3 true fun s =>
    let u := s.fn q.f.val
    match u.session.bind fun x => x.manifest.map fun m => (x, m) with
    | none => s.respond q .rejectedState 0 []
    | some (x, m) =>
      if !listOk m x.manifestHash doc || !Config.hssVerify x.owner doc.bytes doc.signature then s.badDocument q
      else match u.genOf doc.generation with
        | none => (s.updFn q.f.val fun u => { u with gens := u.gens ++ [Gen.ofList doc] }).respond q .done 0 []
        | some g =>
          if g.listed then s.respond q .rejectedGeneration 0 []
          else match u.retention.bind fun r => r.home.map fun h => (r, h.1) with
            | some (r, home) =>
              if !r.presented || r.gen != doc.generation || r.manifest != x.manifestHash || g.key.isNone then
                s.respond q .rejectedState 0 []
              else (s.bind q.f doc home).respond q .done 0 []
            | none => s.respond q .rejectedState 0 [])

/-- The 32 bytes that a wrapped key of 1,616 bytes holds, under the session's manifest hash and a generation (R322). -/
def unwrap (kem : BitVec 512) (hash : BitVec 256) (gen : W32) (ct : List Byte) : Option (List Byte) :=
  if ct.length ≠ 1616 then none
  else
    let ss := Config.kemDecap kem (ct.take 1568)
    let kek := sha256n (leBytes 32 ss.toNat ++ leBytes 32 hash.toNat ++ leBytes 4 gen.toNat)
    (Config.gcmOpen kek 0 [] ((ct.drop 1568).take 32) (BitVec.ofNat 128 (leNat (ct.drop 1600)))).filter fun p => p.length == 32

/-- Key of the retention ticket (R402). -/
def ticketKeyOf (key hash : BitVec 256) (gen : W32) : BitVec 256 :=
  sha256n (leBytes 32 key.toNat ++ leBytes 32 hash.toNat ++ leBytes 4 gen.toNat ++ [0x52, 0x54])

/-- An accepted content key: the generation holds it, and a new ticket leaves in the response (R322, R402). -/
def State.acceptKey (s : State) (q : Mbx) (hash : BitVec 256) (gen : W32) (key : BitVec 256) : State :=
  let (t, s) := s.random
  let (n, s) := s.random
  let tk := ticketKeyOf key hash gen
  let nonce := n.setWidth 96
  let s := s.updFn q.f.val fun u =>
    { (u.updGen gen fun g => { g with key := some key, ticketKey := some tk }) with
      retention := some {
        ticketHash := sha256n (leBytes 32 t.toNat), gen := gen, manifest := hash,
        presented := (u.retention.map fun r => r.presented).getD false, home := u.retention.bind fun r => r.home } }
  (s.prepared q.f gen).respond q .done 0 (leBytes 12 nonce.toNat ++ Config.gcmSeal tk nonce [] (leBytes 32 t.toNat))

/-- WRAPPED_KEY (R322, R399, R402, R403, R405). For retained weights the ticket comes first. -/
def execWrappedKey (q : Mbx) (gen : W32) (ct : List Byte) (s : State) : Host.Outcome State Fault Refusal :=
  .next (s.vedihar q 3 true fun s =>
    let u := s.fn q.f.val
    match u.session.filter fun x => x.manifest.isSome, s.sec.kem with
    | some x, some kem =>
      if s.sec.debug || !s.sec.trng then s.respond q .rejectedState 0 []
      else match u.genOf gen with
        | none => s.respond q .rejectedGeneration 0 []
        | some g =>
          if !g.listed && !(u.retention.any fun r => r.presented && r.manifest == x.manifestHash) then s.respond q .rejectedState 0 []
          else match unwrap kem x.manifestHash gen ct with
            | none => s.badDocument q
            | some p => s.acceptKey q x.manifestHash gen (BitVec.ofNat 256 (leNat p))
    | _, _ => s.respond q .rejectedState 0 [])

/-- DISTRIBUTION_ENTRY (R327, R329): a new entry replaces the old one and its failure counts. -/
def execDistributionEntry (q : Mbx) (gen : W32) (parent : Option (BitVec 12)) (children : List DistChild) (s : State) :
    Host.Outcome State Fault Refusal :=
  .next (s.vedihar q 3 true fun s =>
    let u := s.fn q.f.val
    if u.session.isNone then s.respond q .rejectedState 0 []
    else if 16 < children.length then s.badDocument q
    else if (u.genOf gen).isNone then s.respond q .rejectedGeneration 0 []
    else
      let wanted := ((u.distOf gen).map fun t => t.wanted.filter fun w => children.any fun c => c.module == w.1).getD []
      let t : Dist := { gen := gen, parent := parent, children := children, next := 0, asked := [], fails := [], wanted := wanted }
      (s.updFn q.f.val fun u => { u with dists := (u.dists.filter fun d => d.gen != gen) ++ [t] }).pump.respond q .done 0 [])

/-- The session closes: every generation is RETIRED, keys and records go, and the weight region is zeroed (R320, R398, R400,
R403). -/
def State.closeSession (s : State) (f : FnId) : State :=
  let u := s.fn f.val
  let s := (u.gens.filter fun g => g.state != .retired).foldl (fun s g => (s.traceGen f g.gen g.state .retired).discarded f g) s
  let s := s.updFn f.val fun u => { u with
    session := none, gens := [], activeGen := 0, retention := none, retained := false, dists := [] }
  (s.scrubRetained u).startScrub f 0

/-- WEIGHT_SESSION_CLOSE (R320). -/
def execWeightSessionClose (q : Mbx) (s : State) : Host.Outcome State Fault Refusal :=
  .next (s.vedihar q 3 true fun s => match s.session q.f with
    | some _ => (s.closeSession q.f).respond q .done 0 []
    | none => s.respond q .rejectedState 0 [])

/-! ### Family 0x04: resets -/

/-- Steps 1 to 3 of a warm reset (R423). -/
def State.requestWarm (s : State) (q : Mbx) (keyed : Bool) : State :=
  let s := s.windUp.respond q .done 0 []
  { s with power := { s.power with phase := .warmPending keyed } }

/-- MODULE_WARM (R423): it takes over a KEYED_WARM that is in progress, whose retained weights are then zeroed, and one
MODULE_WARM in progress absorbs another (R426). -/
def execModuleWarm (q : Mbx) (s : State) : Host.Outcome State Fault Refusal :=
  .next (s.vedihar q 4 (decide (q.f = pfn)) fun s =>
    match s.power.phase with
    | .ready => s.requestWarm q false
    | .warmPending keyed =>
      if keyed then { s.respond q .done 0 [] with power := { s.power with phase := .warmPending false } } else s
    | _ => s.respond q .rejectedState 0 [])

/-- The function holds the module's only weight session (R359). -/
def State.onlySession (s : State) (f : FnId) : Bool :=
  (s.session f).isSome && allFns.all fun g => g == f || (s.session g).isNone

/-- A warm reset is in progress: it absorbs a narrower one, which writes no response (R426). -/
def State.warming (s : State) : Bool :=
  match s.power.phase with
  | .warmPending _ => true
  | _ => false

/-- KEYED_WARM (R359, R423, R426). -/
def execKeyedWarm (q : Mbx) (s : State) : Host.Outcome State Fault Refusal :=
  .next (s.vedihar q 4 (decide (q.f = pfn) || s.onlySession q.f) fun s =>
    if s.warming then s
    else if s.power.phase ≠ .ready ∨ s.sec.debug = true ∨ !(s.fns.any fun kv => kv.2.retention.isSome) then s.respond q .rejectedState 0 []
    else s.requestWarm q true)

/-- RETENTION_TICKET (R359, R403, R405). -/
def execRetentionTicket (q : Mbx) (gen : W32) (ct : List Byte) (s : State) : Host.Outcome State Fault Refusal :=
  .next (s.vedihar q 4 (decide (q.f = pfn)) fun s =>
    let u := s.fn q.f.val
    match u.session.filter fun x => x.manifest.isSome, u.retention, s.sec.kem with
    | some x, some r, some kem =>
      if s.sec.debug || !u.retained || r.manifest != x.manifestHash then s.respond q .rejectedState 0 []
      else if r.gen ≠ gen then s.respond q .rejectedGeneration 0 []
      else if (unwrap kem x.manifestHash gen ct).any fun t => sha256n t == r.ticketHash then
        (s.updFn q.f.val fun u => { u with retention := some { r with presented := true } }).respond q .done 0 []
      else s.badDocument q
    | _, _, _ => s.respond q .rejectedState 0 [])

/-- SKEIN_RESET (R317, R426). -/
def execSkeinReset (q : Mbx) (s : State) : Host.Outcome State Fault Refusal :=
  .next (s.vedihar q 4 (decide (q.f = pfn)) fun s => if s.warming then s else s.skeinReset.respond q .done 0 [])

/-! ### Family 0x05: debug unlock -/

/-- DEBUG_CHALLENGE (R399, R405). -/
def execDebugChallenge (q : Mbx) (s : State) : Host.Outcome State Fault Refusal :=
  .next (s.vedihar q 5 (decide (q.f = pfn)) fun s =>
    if !s.sec.trng then s.respond q .rejectedState 0 []
    else
      let (v, s) := s.random
      ({ s with sec := { s.sec with challenge := some v } }).respond q .done 0 (leBytes 32 v.toNat))

/-- Zeroisation of a debug unlock: all SRAM, register files, staging slots and queues, and with the instruction memories the
library and the executables (R400, R405). Service states and observation counters stay. -/
def State.debugZero (s : State) : State :=
  { s with
    mem := [], ecc := [], slots := [], inflight := [], library := none, colls := [], reds := [], notices := []
    cores := AMap.each Core.reset (fun k => { Core.reset with svc := k.svc, cause := k.cause, obs := k.obs }) s.cores
    ports := AMap.each Port.reset (fun p => { p with msgs := [], warp := [], ingress := [], egress := [] }) s.ports
    fns := AMap.each Func.reset (fun u => { u with exe := none }) s.fns }

/-- An accepted token (R398, R405): passes end with ABANDONED_RESET, sessions close, the module zeroises, the scopes open. -/
def State.unlock (s : State) (mask : W32) : State :=
  let s := s.allPasses.foldl (fun s kp => s.abandon kp.1 .abandonedReset true) s
  let s := s.allPasses.foldl (fun s kp => s.completePass kp.1 .abandonedReset 0 false) s
  let s := allFns.foldl (fun s f => if (s.session f).isSome || (s.fn f.val).retained then s.closeSession f else s) s
  let s := s.debugZero
  { s with teasel := [], sec := { s.sec with debug := true, scopes := mask, kem := none } }

/-- DEBUG_UNLOCK (R392, R405). -/
def execDebugUnlock (q : Mbx) (challenge : BitVec 256) (serial : W64) (mask : W32) (sig cert : List Byte) (s : State) :
    Host.Outcome State Fault Refusal :=
  .next (s.vedihar q 5 (decide (q.f = pfn)) fun s =>
    let msg := leBytes 32 challenge.toNat ++ leBytes 8 serial.toNat ++ leBytes 4 mask.toNat
    if s.sec.challenge ≠ some challenge then s.respond q .rejectedFormat 0 []
    else if serial ≠ s.fuses.serial then s.respond q .rejectedFormat 32 []
    else if (s.certified 0x03 cert).any fun k => Config.hssVerify k msg sig then (s.unlock mask).respond q .done 0 []
    else s.badDocument q)

/-! ### Family 0x06: observation -/

/-- DUMP_BUFFER_SETUP (R445): address 0 disables; a VF needs OBS_CTRL.vf_dump. -/
def execDumpBufferSetup (q : Mbx) (addr : W64) (slots : Nat) (s : State) : Host.Outcome State Fault Refusal :=
  .next (s.vedihar q 6 true fun s =>
    if q.f ≠ pfn ∧ s.pf .obsCtrl 16 1 = 0 then s.respond q .rejectedState 0 []
    else if addr.toNat % 4096 ≠ 0 then s.respond q .rejectedFormat 0 []
    else if addr ≠ 0 ∧ (slots = 0 ∨ 65535 < slots) then s.respond q .rejectedFormat 8 []
    else (s.updFn q.f.val fun u => { u with
      dump := if addr = 0 then none else some { addr := addr, slots := slots, seq := 0, skips := 0 } }).respond q .done 0 [])

/-- Range of a ring set-up: the offending byte, or none (R440, R445). -/
def ringFault (addr : W64) (log2 : Nat) : Option (BitVec 16) :=
  if addr.toNat % 64 ≠ 0 then some 0
  else if addr ≠ 0 ∧ (log2 < 6 ∨ 20 < log2) then some 8
  else none

/-- LOG_RING_SETUP (R445). -/
def execLogRingSetup (q : Mbx) (addr : W64) (log2 : Nat) (s : State) : Host.Outcome State Fault Refusal :=
  .next (s.vedihar q 6 true fun s => match ringFault addr log2 with
    | some d => s.respond q .rejectedFormat d []
    | none => (s.updFn q.f.val fun u => { u with
        log := if addr = 0 then none else some { addr := addr, log2 := log2, seq := 0, mask := 0 } }).respond q .done 0 [])

/-- TRACE_RING_SETUP (R442, R445). -/
def execTraceRingSetup (q : Mbx) (addr : W64) (log2 : Nat) (mask : Byte) (s : State) : Host.Outcome State Fault Refusal :=
  .next (s.vedihar q 6 true fun s => match ringFault addr log2 with
    | some d => s.respond q .rejectedFormat d []
    | none => (s.updFn q.f.val fun u => { u with
        trace := if addr = 0 then none else some { addr := addr, log2 := log2, seq := 0, mask := mask } }).respond q .done 0 [])

/-- OBSERVATION_QUERY (R445): 0 for a buffer that is not set up. -/
def execObservationQuery (q : Mbx) (s : State) : Host.Outcome State Fault Refusal :=
  .next (s.vedihar q 6 true fun s =>
    let u := s.fn q.f.val
    s.respond q .done 0 (leBytes 8 ((u.dump.map fun d => d.seq).getD 0) ++ leBytes 8 ((u.log.map fun r => r.seq).getD 0) ++
      leBytes 8 ((u.trace.map fun r => r.seq).getD 0)))

end Sys2Proof.Machine
end

