-- ==== Sys2Proof/Machine/Regs.lean ====
section
/-! DEFINITION. Host accesses to registers and BAR2: set-up writes with clamping (R342 to R347, R350), the registers of the
fabric and the clocks (R273, R298), fence, bypass and service requests (R241, R242), W1C flags, latched reads (R275), the
host window (R161, R206, R341, R404) and staging slots (R323, R347). -/

namespace Sys2Proof.Machine

/-! ### Fields (R342) -/

/-- A written period code as the module takes it (R277). -/
def clampPeriod (lowest w : Nat) : Nat := (periodCodes.find? fun c => decide (max lowest w ≤ c)).getD 20

/-- Value that a field takes from written bits `w` when it holds `old`. -/
def Field.apply (x : Field) (lowest old w : Nat) : Nat := match x.rule with
  | .range lo hi => max lo (min hi w)
  | .zeroOr lo hi => if w = 0 then 0 else max lo (min hi w)
  | .codes l other => if l.contains w then w else other.getD old
  | .period => clampPeriod lowest w

/-- Staging slots that the other functions' SET_QOS registers hold (R347). -/
def State.slotsTaken (s : State) (f : FnId) : Nat :=
  ((allFns.filter fun g => g != f).map fun g => fld (s.reg 0 (.setQos g)) 47 4).foldl (· + ·) 0

/-- Upper end of a field's range where it depends on earlier fields or on other registers (R343, R345, R347). -/
def State.fieldTop (s : State) (g : FnId) (r : RegId) (lsb hi : Nat) : Nat :=
  let at' := fun (i n : Nat) => fld (s.reg g r) i n
  match r, lsb with
  | .setPart _, 2 => 3 - at' 0 2
  | .setPart _, 6 => 2 - at' 4 2
  | .setFunc _, 14 => 48 - at' 8 6
  | .setFunc _, 26 => 32 - at' 20 6
  | .setFunc _, 36 => 12 - at' 32 4
  | .setQos f, 47 => 15 - s.slotsTaken f
  | _, _ => hi

/-- SET_LOCK.lock. -/
def State.lock (s : State) : Bool := s.pf .setLock 0 1 == 1

/-- One field of a write by function `f` to register `r` of function `g` (R342). -/
def State.writeField (s : State) (f g : FnId) (r : RegId) (v : BitVec 128) (refuse locked : Bool) (x : Field) : State :=
  let w := fld v x.lsb x.len
  let old := fld (s.reg g r) x.lsb x.len
  if refuse || (x.rwl && locked) then s.logField f (regOffset r) x.lsb w old true
  else
    let x := (match x.rule with
      | .range lo hi => { x with rule := .range lo (s.fieldTop g r x.lsb hi) }
      | _ => x)
    let a := x.apply s.fuses.lowestCode.toNat old w
    let s := if a = w then s else s.logField f (regOffset r) x.lsb w a false
    s.setReg g r (putField (s.reg g r) x.lsb x.len a)

/-- The fields of a write, lowest bit first. -/
def State.writeFields (s : State) (f g : FnId) (r : RegId) (v : BitVec 128) (refuse locked : Bool) (l : List Field) : State :=
  l.foldl (fun s x => s.writeField f g r v refuse locked x) s

/-- A write to a register without a rule of its own. -/
def State.writePlain (s : State) (f : FnId) (r : RegId) (v : BitVec 128) : State :=
  s.writeFields f f r v false s.lock (regFields s.fuses r)

/-! ### SET_ registers -/

/-- A write to SET_LOCK: 1 sets the bit; 0 is refused and logged while it is 1. -/
def State.writeLock (s : State) (f : FnId) (v : Bool) : State :=
  if v then s.setReg 0 .setLock 1
  else if s.lock then s.logField f (regOffset .setLock) 0 0 1 true else s

/-- The bit `enable` of a SET_PART or SET_FUNC register forced to 0, with its log entry (R344, R345). -/
def State.forceOff (s : State) (f : FnId) (r : RegId) (lsb : Nat) : State :=
  (s.setReg 0 r (putField (s.reg 0 r) lsb 1 0)).logField f (regOffset r) lsb 1 0 false

/-- The other enabled partitions that a rectangle overlaps. -/
def State.overlapped (s : State) (p : PartId) (v : Part) : List PartId :=
  ((List.range 12).map (Fin.ofNat 12)).filter fun o => o != p && (s.part o).enable && (s.part o).overlaps v

/-- A write to SET_PART[p] (R343, R344). -/
def State.writePart (s : State) (f : FnId) (p : PartId) (v : W32) : State :=
  let r := RegId.setPart p
  let put := fun (refuse locked : Bool) => s.writeFields f 0 r (v.setWidth 128) refuse locked (regFields s.fuses r)
  let want := (put false false).part p
  let hit := p :: s.overlapped p want
  let loaded := allFns.any fun g => (s.fn g.val).exe.isSome && hit.any fun o => o.val == (s.func g).part
  let s := put loaded s.lock
  let now := s.part p
  if now.enable && (!(s.overlapped p now).isEmpty || s.diesOut.any fun d => now.hasDie d.val) then s.forceOff f r 8 else s

/-- A region of one function meets the same region of another. -/
def FuncCfg.meets (a b : FuncCfg) : Bool :=
  rangesMeet a.actBase a.actSize b.actBase b.actSize || rangesMeet a.psmBase a.psmSize b.psmBase b.psmSize ||
    rangesMeet a.wBase a.wSize b.wBase b.wSize

/-- The retained copy of a function is zeroed, and its commit and retention records go (R425). -/
def State.loseRetained (s : State) (f : FnId) : State :=
  let u := s.fn f.val
  let s := (match u.retention.bind fun r => r.home with
    | some h => s.zeroRegion h.1
    | none => s)
  s.updFn f.val fun u => { u with
    gens := u.gens.filter fun g => g.listed, retention := none, retained := false, activeGen := 0 }

/-- A write of function `w` to SET_FUNC[f] (R345, R425). -/
def State.writeFunc (s : State) (w f : FnId) (v : W64) : State :=
  let r := RegId.setFunc f
  let old := s.func f
  let s := s.writeFields w 0 r (v.setWidth 128) (s.fn f.val).exe.isSome s.lock (regFields s.fuses r)
  let now := s.func f
  let clash := allFns.any fun g => g != f && (s.func g).enable && (s.func g).part == now.part && (s.func g).meets now
  let s := if now.enable && (!(s.partOf f).enable || clash) then s.forceOff w r 4 else s
  if (s.fn f.val).retained && (now.wBase != old.wBase || now.wSize != old.wSize) then s.loseRetained f else s

/-! ### Rings, fabric and clock registers -/

/-- A write to RNG_SQ[r] or RNG_CQ[r]: base, cq, vector and size, then enable (R350). The vector of a completion ring is none
of the fields that refuse. -/
def State.writeRing (s : State) (f : FnId) (cq : Bool) (n : RingId) (v : BitVec 128) : State :=
  let u := s.fn f.val
  let r := if cq then RegId.rngCq n else .rngSq n
  let busy := if cq then (u.cqOf n.val).state != .disabled else (u.sqOf n.val).state != .disabled
  let bit := if cq then 75 else 72
  let s := ((regFields s.fuses r).filter fun x => x.lsb != bit).foldl (fun s x =>
    s.writeField f f r v (busy && !(cq && x.lsb == 64)) false x) s
  if bitAt v bit then s.enableRing f cq n else s.disableRing f cq n

/-- A write to CLK_TIME_CTRL (R298, R305, R416): a module that the host makes root takes a new frame epoch; one that it gives a
parent acquires. -/
def State.writeTimeCtrl (s : State) (f : FnId) (v : BitVec 128) : State :=
  let was := s.timeRoot
  let s := s.writePlain f .clkTimeCtrl v
  let s := { s with power := { s.power with hostTime := (s.reg 0 .clkTimeCtrl).setWidth 32, keptOut := false, localStep := false } }
  let e := BitVec.ofNat 64 (epochAfter s.clk.timebase.toNat)
  if s.timeRoot && !was then
    { s with clk := { s.clk with epoch := e, frameStart := e, frame := 0, sg := 100, starts := [], joining := none,
                                 announced := false, pending := 0, state := .freeRunning } }
  else if !s.timeRoot && was then
    { s with clk := { s.clk with state := .acquiring, tol := false, tolFrames := 0, sinceSample := 0, joining := none } }
  else s

/-- A write to FAB_PORT_CTRL[n]: enabling trains the port, disabling stops it, bit 4 retrains it, and a trained port gives the
service that its fitness and the bit warp allow (R251, R253, R273). -/
def State.writePort (s : State) (f : FnId) (p : PortId) (v : BitVec 128) : State :=
  let s := s.writePlain f (.fabPortCtrl p) v
  let on := s.pf (.fabPortCtrl p) 0 1 == 1
  let off := (s.port p.val).state == .disabled
  if on && (off || bitAt v 4) then s.train p.val
  else if !on && !off then (s.train p.val).updPort p.val fun q => { q with state := .disabled, fit := false, ingress := [], egress := [] }
  else s.updPort p.val fun q => { q with
    state := if q.usable then (if q.fit && s.pf (.fabPortCtrl p) 3 1 == 1 then .full else .weftOnly) else q.state }

/-- The registers that take no write while the module belongs to a skein of two or more members (R273, R298, R301). -/
def skeinRegister : RegId → Bool
  | .clkTimeCtrl => true
  | .fabPortCtrl _ => true
  | .fabModuleId => true
  | .fabWeftCfg => true
  | .fabWeftRoute _ => true
  | .fabStitchTree => true
  | .fabStitchChildren => true
  | .fabSkeinCfg => true
  | _ => false

/-- A host write to a set-up register. -/
def State.writeReg (s : State) (f : FnId) (r : RegId) (v : BitVec 128) : State :=
  if f ≠ pfn ∧ regPerFunction r = false then s
  else if skeinRegister r && s.skein.state != .none then s.logRefused f (regOffset r) 1
  else match r with
    | .setLock => s.writeLock f (bitAt v 0)
    | .setPart p => s.writePart f p (v.setWidth 32)
    | .setFunc g => s.writeFunc f g (v.setWidth 64)
    | .rngSq n => s.writeRing f false n v
    | .rngCq n => s.writeRing f true n v
    | .clkTimeCtrl => s.writeTimeCtrl f v
    | .fabMeshMode => { s with modePending := if bitAt v 0 = s.scheduled then none else some (bitAt v 0) }
    | .fabPortCtrl p => s.writePort f p v
    | .obsCntCfg p i =>
      let s := s.writePlain f r v
      { s with obs := { s.obs with written := (s.obs.written.filter fun k => k != 6 * p.val + i.val) ++ [6 * p.val + i.val] } }
    | _ => s.writePlain f r v

/-- REGISTER_WRITE (R342). -/
def execRegisterWrite (f : FnId) (r : RegId) (v : BitVec 128) (s : State) : Host.Outcome State Fault Refusal :=
  .next (if s.live f then s.writeReg f r v else s)

/-- SET_LOCK_WRITE (R342). Only the PF reaches the register. -/
def execSetLockWrite (f : FnId) (v : Bool) (s : State) : Host.Outcome State Fault Refusal :=
  .next (if s.live f && f == pfn then s.writeLock f v else s)

/-- SET_PART_WRITE (R343, R344). -/
def execSetPartWrite (f : FnId) (p : PartId) (v : W32) (s : State) : Host.Outcome State Fault Refusal :=
  .next (if s.live f && f == pfn then s.writePart f p v else s)

/-- SET_FUNC_WRITE (R345, R425): function `w` writes SET_FUNC[f]. -/
def execSetFuncWrite (w f : FnId) (v : W64) (s : State) : Host.Outcome State Fault Refusal :=
  .next (if s.live w && w == pfn then s.writeFunc w f v else s)

/-- SET_QOS_APPLY: at a pass boundary of a partition, the written shares of its functions take effect (R347). -/
def execSetQosApply (p : PartId) (s : State) : Host.Outcome State Fault Refusal :=
  let mine := allFns.filter fun f => (s.func f).part == p.val
  if !s.up || s.allPasses.any fun kp => passBusy kp.2.state && mine.contains kp.2.fn then .next s
  else .next (mine.foldl (fun s f => s.updFn f.val fun u => { u with qos := (s.reg 0 (.setQos f)).setWidth 64 }) s)

/-! ### Cores, dies and ports -/

/-- No executable is loaded, and the mesh is in uniform mode (R242). -/
def State.idleUniform (s : State) : Bool := !s.scheduled && !(s.fns.any fun kv => kv.2.exe.isSome)

/-- FENCE_REQ: at once, in every skein state (R242, R302). -/
def execFenceReq (c : CoreId) (s : State) : Host.Outcome State Fault Refusal :=
  .next (if s.up then s.fenceCore c.val 0 else s)

/-- BYPASS_REQ: a second bypassed router takes its die out of service (R241, R242). -/
def execBypassReq (c : CoreId) (s : State) : Host.Outcome State Fault Refusal :=
  if !s.up then .next s
  else if !s.idleUniform then .next (s.logRefused pfn (0x70000 + 4 * c.val) 1)
  else if (s.core c.val).svc = .bypassed then .next s
  else
    let second := (List.range 144).any fun i => (s.core (coreAt (coreDie c.val) i)).svc == .bypassed
    let s := (s.dropQueued c.val).leaveService c.val .bypassed (s.core c.val).cause
    .next (if second then s.dieOut (Fin.ofNat 12 (coreDie c.val)) else s)

/-- OOS_REQ (R241, R242). -/
def execOosReq (d : DieId) (s : State) : Host.Outcome State Fault Refusal :=
  if !s.up then .next s
  else if !s.idleUniform then .next (s.logRefused pfn (0x72000 + 4 * d.val) 1)
  else .next (s.dieOut d)

/-- PORT_RETRAIN (R251, R273). -/
def execPortRetrain (p : PortId) (s : State) : Host.Outcome State Fault Refusal :=
  if !s.up then .next s
  else if s.skein.state ≠ .none then .next (s.logRefused pfn (regOffset (.fabPortCtrl p)) 1)
  else .next (if (s.port p.val).state = .disabled then s else s.train p.val)

/-! ### Flags and latched reads -/

/-- CHK_FAULT_CLEAR (R386). -/
def execChkFaultClear (s : State) : Host.Outcome State Fault Refusal :=
  .next (if s.up then { s with chk := { s.chk with first := none } } else s)

/-- W1C_CLEAR: with ING_DIST_FAIL.valid the count of failures since the last clear restarts. -/
def execW1cClear (flag : W1c) (s : State) : Host.Outcome State Fault Refusal :=
  if !s.up then .next s
  else match flag with
    | .ingDistFailValid => .next { s with distFail := { s.distFail with valid := false, count := 0 } }
    | .chkScrubErrValid => .next { s with chk := { s.chk with errValid := false } }
    | .secTamperNew => .next { s with sec := { s.sec with newTamper := false } }

/-- TIMEBASE_READ, so many ticks after the start of the current slot group: the low half latches the high half for the next read
(R275). -/
def execTimebaseRead (reg : TimedRead) (s : State) : Host.Outcome State Fault Refusal :=
  if !s.up then .next s
  else
    let now := s.clk.timebase + BitVec.ofNat 64 reg.ticks
    let lo := fun (v : W64) => v.setWidth 32
    let hi := fun (v : W64) => (v >>> 32).setWidth 32
    match reg.reg with
    | .timebaseLo => .next (({ s with clk := { s.clk with tbHigh := hi now } }).emit (.readValue (lo now)))
    | .timebaseHi => .next (s.emit (.readValue s.clk.tbHigh))
    | .frameLo => .next (({ s with clk := { s.clk with frHigh := hi s.clk.frame } }).emit (.readValue (lo s.clk.frame)))
    | .frameHi => .next (s.emit (.readValue s.clk.frHigh))

/-! ### BAR2 (R323, R341) -/

/-- Where a BAR2 access goes. -/
inductive Bar2 where
  /-- I/O-die space: die and offset. -/
  | ioDie (d o : Nat)
  /-- Host window: space, core and offset. -/
  | window (sp c o : Nat)
  /-- Beyond the regions of the table "BAR2", or an access that R161 refuses. -/
  | outside
  deriving DecidableEq, Repr

/-- Valid bytes of the sync space (table "Address spaces"). -/
def syncValid (o n : Nat) : Bool := decide (o + n ≤ 0x200) || (decide (0x400 ≤ o) && decide (o + n ≤ 0xC00))

/-- Whether a space of the host window has the bytes from an offset. -/
def windowHas (sp i n : Nat) : Bool := match sp with
  | 1 => decide (i + n ≤ spaceSize 1)
  | 2 => decide (i + n ≤ spaceSize 2)
  | 4 => syncValid i n
  | _ => false

/-- Decoding of a BAR2 offset (R161, R341). -/
def bar2 (f : FnId) (offset : BitVec 36) (n : Nat) : Bar2 :=
  let o := offset.toNat
  if o + n ≤ 0x10000000 then
    if o % 0x4000000 + n ≤ 0x4000000 then .ioDie (o / 0x4000000) (o % 0x4000000) else .outside
  else if f ≠ pfn ∨ o < 0x400000000 then .outside
  else
    let w := o - 0x400000000
    let sp := w / 0x200000000 + 1
    let c := w % 0x200000000 / 0x400000
    let i := w % 0x400000
    if c < 1728 ∧ windowHas sp i n = true then .window sp c i else .outside

/-- The bytes meet a region in SCRUBBING (R404). -/
def State.windowScrubbed (s : State) (sp c o n : Nat) : Bool :=
  s.teasel.any fun t => t.space == sp && (Part.of t.part).hasDie (coreDie c) && rangesMeet o n t.base t.size

/-- A sync counter word (R133) or a bobbin state word (R181), as a read in cycle `t` sees it. -/
def Core.syncWordAt (k : Core) (t i : Nat) : Nat :=
  if i < 64 then
    let v := (AMap.get Counter.reset k.counters i).view t
    v.count + Scope.code v.scope * 2 ^ 16 + v.originCore * 2 ^ 32 + v.originModule.toNat * 2 ^ 43
  else
    let v := AMap.get Bobbin.reset k.bobbins (i - 128)
    BobState.code (v.view t) + v.count * 4 + v.cycles % 2 ^ 16 * 2 ^ 32

/-- Bytes of the sync space. -/
def Core.syncBytes (k : Core) (t o n : Nat) : List Byte :=
  (List.range n).map fun i => BitVec.ofNat 8 (k.syncWordAt t ((o + i) / 8) / 2 ^ (8 * ((o + i) % 8)))

/-- Bytes written over part of a counter's count. -/
def countWith (count at' o : Nat) (data : List Byte) : Nat :=
  leNat ((leBytes 2 count).zipIdx.map fun b =>
    if o ≤ at' + b.2 ∧ at' + b.2 < o + data.length then nth 0 data (at' + b.2 - o) else b.1)

/-- A host write to the sync space: only the counts of the counters are writable (R133). -/
def State.writeSync (s : State) (c o : Nat) (data : List Byte) : State :=
  (List.range 64).foldl (fun s i =>
    let v := (s.counter c i).view (s.nowCycle c + 1)
    let w := countWith v.count (8 * i) o data
    if w = v.count then s else s.setCounter c i { v with count := w }) s

/-- A host read of the sync space: the code of its words is checked; words with an uncorrectable error are not read (R177). -/
def State.readSync (s : State) (f : FnId) (c o n : Nat) : State :=
  match eccWorst s.ecc 8 (absAddr 4 c o) n with
  | some .uncorrectable => s.raiseCore c .eccUncorrectable (eccDetail 4)
  | m =>
    let s := if m.isSome then (s.raiseCore c .eccCorrected (eccDetail 4)).countNow c 0x19 else s
    s.emit (.windowData f ((s.core c).syncBytes (s.nowCycle c + 1) o n))

/-- A spare that no loader has mapped (R13, R161). -/
def State.windowSpare (s : State) (c : Nat) : Bool := s.spare c && allFns.all fun f => s.unmappedSpare f c

/-- A host-window access joins the queue of its core; a full queue drops it (R174). -/
def State.enqueueHost (s : State) (c : Nat) (a : QAccess) : State :=
  if 8 ≤ (s.core c).queue.length then s.countNow c 0x18
  else s.updCore c fun k => { k with queue := k.queue ++ [a] }

/-- Staging slots of a die that a byte range of its space touches. -/
def slotsTouched (o n : Nat) : List Nat := (List.range 15).filter fun k => rangesMeet o n (0x401000 * k) 0x401000

/-- HOST_WINDOW_READ of `len` bytes at a BAR2 offset (R161, R174, R206, R341, R404): it completes once the function's posted
writes have landed. What a read of a core out of service returns is not stated. -/
def execHostWindowRead (f : FnId) (offset : BitVec 36) (len : Nat) (s : State) : Host.Outcome State Fault Refusal :=
  if !s.live f then .next s
  else match bar2 f offset len with
    | .outside => .next ((s.emit (.windowData f (List.replicate len 0))).logRefused f offset.toNat 2)
    | .ioDie d o =>
      let s := s.postedLand f none
      .next (s.emit (.windowData f (memGet s.mem (absAddr 5 d o) len)))
    | .window sp c o =>
      if s.windowSpare c then .next ((s.emit (.windowData f (List.replicate len 0))).logRefused f offset.toNat 2)
      else if s.windowScrubbed sp c o len then .next (s.emit (.windowData f (List.replicate len 0)))
      else if !s.serving c then
        let (bs, s) := s.drawBytes 0x206 ((len + 7) / 8)
        .next (s.emit (.windowData f (bs.take len)))
      else if sp = 4 then .next ((s.postedLand f none).readSync f c o len)
      else .next (s.enqueueHost c {
        kind := .hostRead, addr := absAddr sp c o, data := [], len := len, flit := none, fn := f })

/-- HOST_WINDOW_WRITE at a BAR2 offset (R161, R174, R206, R341, R347, R404). -/
def execHostWindowWrite (f : FnId) (offset : BitVec 36) (data : List Byte) (s : State) : Host.Outcome State Fault Refusal :=
  if !s.live f then .next s
  else match bar2 f offset data.length with
    | .outside => .next (s.logRefused f offset.toNat 2)
    | .ioDie d o =>
      if f ≠ pfn ∧ (slotsTouched o data.length).any (fun k => !(s.ownSlots f).contains k) then .next (s.logRefused f offset.toNat 3)
      else .next (s.writeIoDie d o data)
    | .window sp c o =>
      if s.windowSpare c then .next (s.logRefused f offset.toNat 2)
      else if s.windowScrubbed sp c o data.length then .next (s.logRefused f offset.toNat 4)
      else if !s.serving c then .next s
      else if sp = 4 then .next (s.writeSync c o data)
      else .next (s.enqueueHost c {
        kind := .hostWrite, addr := absAddr sp c o, data := data, len := data.length, flit := none, fn := f })

/-- STAGING_SLOT_WRITE: a shard record through BAR2; a VF writes only its own slots (R323, R347). -/
def execStagingSlotWrite (f : FnId) (d : IoDie) (slot : Fin 15) (rec : ShardRec) (s : State) : Host.Outcome State Fault Refusal :=
  if rec.ciphertext.length ≠ shardBytes then .refused .illFormed
  else if !s.live f then .next s
  else if f ≠ pfn ∧ (s.ownSlots f).contains slot.val = false then
    .next (s.logRefused f (0x4000000 * d.val + 0x401000 * slot.val) 3)
  else .next (s.writeNow (slotAddr d.val slot.val) (ShardRec.bytes rec))

end Sys2Proof.Machine
end

