-- ==== Sys2Proof/Machine/Observe.lean ====
section
/-! DEFINITION. Counter configurations (R435) and periodic dumps (R438, R439). -/

namespace Sys2Proof.Machine

/-! ### Counter configurations -/

/-- A counter of a core starts again at 0 (R435). -/
def Core.clearCounter (k : Core) (i : Nat) : Core :=
  { k with obs := { k.obs with prog := AMap.erase i k.obs.prog, spans := AMap.erase i k.obs.spans } }

/-- OBS_CNT_CFG_APPLY: at a frame start, the configurations written since the last one take effect together: each counter clears
on the cores of its partition, and the partition's epoch rises by 1 (R435). -/
def execObsCntCfgApply (s : State) : Host.Outcome State Fault Refusal :=
  if !s.up || s.clk.sg != 100 || s.obs.written.isEmpty then .next s
  else
    let keys := s.obs.written
    let parts := ((List.range 12).map (Fin.ofNat 12)).filter fun (p : PartId) => keys.any fun k => k / 6 == p.val
    let cnt := keys.foldl (fun m k =>
      AMap.set 0x700 m k ((s.reg 0 (.obsCntCfg (Fin.ofNat 12 (k / 6)) (Fin.ofNat 6 (k % 6)))).setWidth 32)) s.obs.cnt
    let cores := AMap.each Core.reset id (s.cores.map fun kv =>
      (kv.1, keys.foldl (fun k i => if (s.partOfDie (coreDie kv.1)).any (fun p => p.val == i / 6) then k.clearCounter (i % 6) else k) kv.2))
    .next { s with cores := cores, obs := { s.obs with
      cnt := cnt, written := [], epoch := parts.foldl (fun m p => AMap.upd 0 m p.val (· + 1)) s.obs.epoch } }

/-! ### Dumps -/

/-- Core record of a dump (table "Core record"), with the ledger brought to the frame start. -/
def State.coreRecord (s : State) (c : Nat) : List Byte :=
  let k := ((match (s.core c).job.bind fun j => s.pass j.pass with
    | some p => s.closeLedger c (3200 * (s.clk.frame.toNat - p.kernelStart.toNat))
    | none => s).core c)
  let o := k.obs
  leBytes 8 (o.frozen.getD s.clk.clocked).toNat ++
    ((List.range 6).flatMap fun i => leBytes 6 (AMap.get 0 o.prog i).toNat) ++
    leBytes 1 (o.ovf.foldl (fun n i => n + 2 ^ i) 0) ++ leBytes 1 (s.fabCoreState c % 4) ++ leBytes 2 0 ++
    ((List.range 20).flatMap fun i => leBytes 6 (AMap.get 0 o.ledger i).toNat) ++ leBytes 8 o.lost.toNat ++ leBytes 16 0

/-- Region record of a dump. -/
def State.regionRecord (s : State) (r : Nat) : List Byte :=
  let v := s.region r
  leBytes 6 v.total.toNat ++ leBytes 2 v.maxGuard ++ leBytes 4 v.over32.toNat ++ leBytes 2 v.overruns.toNat ++ leBytes 2 0

/-- Port record of a dump. -/
def State.portRecord (s : State) (p : Nat) : List Byte :=
  (List.range 8).flatMap fun i => leBytes 8 (AMap.get 0 (s.port p).counts i).toNat

/-- Header of a dump (table "Dump header"). -/
def State.dumpHeader (s : State) (f : FnId) (d : DumpBuf) (cores : Nat) : List Byte :=
  let pf := decide (f = pfn)
  let part := if pf then 0 else (s.func f).part
  [0x4F, 0x42, 0x53, 0x44] ++ leBytes 2 1 ++ leBytes 1 (flagAt pf 0) ++ leBytes 1 s.clk.period.toNat ++ leBytes 8 d.seq ++
    leBytes 8 s.clk.frame.toNat ++ leBytes 8 s.clk.frameStart.toNat ++ leBytes 4 d.skips ++ leBytes 2 cores ++
    leBytes 1 (if pf then 0xFF else part) ++ leBytes 1 0 ++ leBytes 4 (AMap.get 0 s.obs.epoch part).toNat ++
    leBytes 4 s.obs.agreed.toNat ++ leBytes 4 s.obs.localSteps.toNat ++ leBytes 12 0

/-- A whole dump (table "Dump layout"): of the module for the PF, of its partition for a VF. -/
def State.dumpData (s : State) (f : FnId) (d : DumpBuf) : List Byte :=
  let cores := if f = pfn then List.range 1728 else s.coresOf f
  s.dumpHeader f d cores.length ++ (cores.flatMap fun c => s.coreRecord c) ++
    (if f = pfn then ((List.range 52).flatMap fun r => s.regionRecord r) ++ ((List.range 32).flatMap fun p => s.portRecord p) else []) ++
    leBytes 8 d.seq ++ leBytes 56 0

/-- One function's dump leaves for its next slot. -/
def State.dumpOne (s : State) (s0 : State) (f : FnId) : State :=
  match (s.fn f.val).dump with
  | none => s
  | some d => (s.updFn f.val fun u => { u with dump := some { d with seq := d.seq + 1 } }).emit
      (.dump f (d.seq % d.slots) (s0.dumpData f d))

/-- What a latch clears: overflow flags and the largest guard accounts since the previous dump (R434, R439). -/
def State.sinceDump (s : State) : State :=
  { s with cores := AMap.each Core.reset (fun k => { k with obs := { k.obs with ovf := [] } }) s.cores
           regions := AMap.each Region.reset (fun r => { r with maxGuard := 0 }) s.regions }

/-- DUMP_LATCH: at the start of a dump frame, the counters are latched and leave for every dump buffer. Whether the previous
dump has been written completely is free; if it has not, the latch is skipped and counted (R438, R439). -/
def execDumpLatch (s : State) : Host.Outcome State Fault Refusal :=
  let n := s.pf .obsCtrl 0 16
  if !s.up || s.clk.sg != 100 || n == 0 || s.clk.frame.toNat % n != 0 || s.obs.latched == some s.clk.frame then .next s
  else
    let s := { s with obs := { s.obs with latched := some s.clk.frame } }
    let owners := allFns.filter fun f => (s.fn f.val).dump.isSome
    let before := owners.any fun f => (s.fn f.val).dump.any fun d => decide (0 < d.seq + d.skips)
    if owners.isEmpty then .next s
    else
      let (v, s) := s.draw 0x439
      if before && bitAt v 0 then
        .next (owners.foldl (fun s f => s.updFn f.val fun u => { u with dump := u.dump.map fun d => { d with skips := d.skips + 1 } }) s)
      else .next (owners.foldl (fun s' f => s'.dumpOne s f) s).sinceDump

end Sys2Proof.Machine
end

