-- ==== Sys2Proof/Machine/Scalar.lean ====
section
/-! DEFINITION. The register instructions (R130 to R132): SSET, SOP, SOPI, ASET, AADD, SLD, SST, SRD. -/

namespace Sys2Proof.Machine

/-- Operation of SOP and SOPI by code, modulo 2^32 (R131). -/
def scalarOp (code : Nat) (a b : W32) : W32 :=
  let n := fld b 0 5
  match code with
  | 0 => a + b
  | 1 => a - b
  | 2 => a * b
  | 3 => a &&& b
  | 4 => a ||| b
  | 5 => a ^^^ b
  | 6 => a <<< n
  | 7 => a >>> n
  | 8 => a.sshiftRight n
  | 9 => if a.toInt ≤ b.toInt then a else b
  | 10 => if a.toInt ≤ b.toInt then b else a
  | 11 => if a ≤ b then a else b
  | _ => if a ≤ b then b else a

/-- SSET. -/
def runSset (m : Byte) (w : BitVec 48) (x : Ctx) (k : Work) : Except Halt Issued := do
  needCtl 0x10 m w
  pure (finish x (k.setS x (fld m 0 5) 1 (BitVec.ofNat 32 (fld w 0 32))))

/-- SSET (R131). -/
def execSset (c : CoreId) (e : Eng) (m : Byte) (w : BitVec 48) (s : State) : Host.Outcome State Fault Refusal :=
  .next (runInstr s c e 0x10 false (runSset m w))

/-- SOP. -/
def runSop (m : Byte) (w : BitVec 48) (x : Ctx) (k : Work) : Except Halt Issued := do
  needCtl 0x11 m w
  pure (finish x (k.setS x (fld w 0 5) 1 (scalarOp m.toNat (k.sreg x (fld w 5 5)) (k.sreg x (fld w 10 5)))))

/-- SOP (R131). -/
def execSop (c : CoreId) (e : Eng) (m : Byte) (w : BitVec 48) (s : State) : Host.Outcome State Fault Refusal :=
  .next (runInstr s c e 0x11 false (runSop m w))

/-- SOPI. -/
def runSopi (m : Byte) (w : BitVec 48) (x : Ctx) (k : Work) : Except Halt Issued := do
  needCtl 0x12 m w
  pure (finish x (k.setS x (fld w 0 5) 1
    (scalarOp m.toNat (k.sreg x (fld w 5 5)) (BitVec.ofNat 32 (fld w 10 32)))))

/-- SOPI (R131). -/
def execSopi (c : CoreId) (e : Eng) (m : Byte) (w : BitVec 48) (s : State) : Host.Outcome State Fault Refusal :=
  .next (runInstr s c e 0x12 false (runSopi m w))

/-- ASET. -/
def runAset (m : Byte) (w : BitVec 48) (x : Ctx) (k : Work) : Except Halt Issued := do
  needCtl 0x13 m w
  pure (finish x (k.setA x (fld m 0 4) 1 w))

/-- ASET (R131). -/
def execAset (c : CoreId) (e : Eng) (m : Byte) (w : BitVec 48) (s : State) : Host.Outcome State Fault Refusal :=
  .next (runInstr s c e 0x13 false (runAset m w))

/-- AADD: a sign-extended register or immediate is added modulo 2^48. -/
def runAadd (m : Byte) (w : BitVec 48) (x : Ctx) (k : Work) : Except Halt Issued := do
  needCtl 0x14 m w
  let v : W32 := if bitAt w 9 then BitVec.ofNat 32 (fld w 10 32) else k.sreg x (fld w 4 5)
  pure (finish x (k.setA x (fld m 0 4) 1 (k.areg x (fld w 0 4) + v.signExtend 48)))

/-- AADD (R131). -/
def execAadd (c : CoreId) (e : Eng) (m : Byte) (w : BitVec 48) (s : State) : Host.Outcome State Fault Refusal :=
  .next (runInstr s c e 0x14 false (runAadd m w))

/-- The address checks of SLD and SST (R132). -/
def needWord (x : Ctx) (k : Work) (a : MAddr) : Except Halt Unit :=
  k.needs x [(localAddr x a [1, 2], .controlParity, spaceDetail x.e),
    (aOff a % 4 == 0 || !([1, 2].contains (aSpace a)), .controlParity, 0x06)]

/-- SLD. -/
def runSld (m : Byte) (w : BitVec 48) (x : Ctx) (k : Work) : Except Halt Issued := do
  needCtl 0x15 m w
  let i := fld w 5 4
  let a := k.areg x i
  needWord x k a
  let (x, k) ← gate x k (rangeOf x a 4 false)
  let (bs, k) ← k.read x a 4 x.t
  pure (finish x ((k.setS x (fld w 0 5) 4 (BitVec.ofNat 32 (leNat bs))).incA x (bitAt w 9) i 4))

/-- SLD (R131, R132). -/
def execSld (c : CoreId) (e : Eng) (m : Byte) (w : BitVec 48) (s : State) : Host.Outcome State Fault Refusal :=
  .next (runInstr s c e 0x15 false (runSld m w))

/-- SST: the word is written in the cycle after the queue cycle. -/
def runSst (m : Byte) (w : BitVec 48) (x : Ctx) (k : Work) : Except Halt Issued := do
  needCtl 0x16 m w
  let i := fld w 5 4
  let a := k.areg x i
  needWord x k a
  let (x, k) ← gate x k (rangeOf x a 4 true)
  let k ← k.write x a (leBytes 4 (k.sreg x (fld w 0 5)).toNat) (x.at 1)
  pure (finish x (k.incA x (bitAt w 9) i 4))

/-- SST (R131, R132). -/
def execSst (c : CoreId) (e : Eng) (m : Byte) (w : BitVec 48) (s : State) : Host.Outcome State Fault Refusal :=
  .next (runInstr s c e 0x16 false (runSst m w))

/-- Core count of the loaded program (table "Special values", 0x03). -/
def Loaded.coreCount (l : Loaded) : Nat :=
  if bitAt l.exe.header.flags 1 then l.place.length else l.exe.header.gridW * l.exe.header.gridH

/-- SRD (table "Special values"). -/
def runSrd (m : Byte) (w : BitVec 48) (x : Ctx) (k : Work) : Except Halt Issued := do
  needCtl 0x17 m w
  let d := fld w 0 5
  match m.toNat with
  | 0 => pure (finish x (k.setS x d 1 (BitVec.ofNat 32 x.t)))
  | 1 => pure (finish x (k.setS x d 1 (match k.s.pass x.job.pass with
      | some p => p.number
      | none => 0)))
  | 2 => pure (finish x (k.setS x d 1 (BitVec.ofNat 32 x.job.vcore)))
  | 3 => pure (finish x (k.setS x d 1 (BitVec.ofNat 32 (match (k.s.fn x.job.fn.val).exe with
      | some l => l.coreCount
      | none => 0))))
  | _ =>
    let a := k.areg x (fld w 5 4)
    pure (finish x ((k.setS x d 1 (BitVec.ofNat 32 (fld a 0 32))).setS x (d + 1) 1 (BitVec.ofNat 32 (fld a 32 16))))

/-- SRD (R131). -/
def execSrd (c : CoreId) (e : Eng) (m : Byte) (w : BitVec 48) (s : State) : Host.Outcome State Fault Refusal :=
  .next (runInstr s c e 0x17 false (runSrd m w))

end Sys2Proof.Machine
end

