-- ==== Sys2Proof/Machine/Side.lean ====
section
/-! DEFINITION. The SMBus sideband (R453, R454) and JTAG (R455). -/

namespace Sys2Proof.Machine

/-! ### SMBus -/

/-- The management rail is in regulation: the endpoint answers (R451, R453). -/
def State.managed (s : State) : Bool := s.power.inputGood

/-- SMBALERT# is asserted (R453). -/
def Side.alert (x : Side) : Bool := !x.unread.isEmpty

/-- A Bool as a reading. -/
def boolReading (b : Bool) : Int := if b then 1 else 0

/-- Reading of a PLDM sensor: mV, units of 10 mA, W, °C, and the module state as emergency, fatal state and tamper since
start-up; none where a die has not been sampled yet. -/
def State.sensorReading (s : State) : PldmSensor → Option (List Int)
  | .inVoltage => some [s.power.voltage.toNat]
  | .inCurrent => some [s.power.current.toNat]
  | .inPower => some [s.power.power.toNat]
  | .maxTj => some [s.power.tj.toNat]
  | .dieTj d => (s.power.temps[d.val]?).map fun v => [v]
  | .moduleState => some [boolReading s.power.emergency, boolReading s.chk.fatal, boolReading s.side.tampered]

/-- PLDM_SENSOR_READ: it reads the sensor's event as well (R453). -/
def execPldmSensorRead (sensor : PldmSensor) (s : State) : Host.Outcome State Fault Refusal :=
  if !s.managed then .next s
  else
    let s := { s with side := { s.side with unread := s.side.unread.filter fun x => x != sensor } }
    match s.sensorReading sensor with
    | some v => .next (s.emit (.sideband v))
    | none =>
      let (v, s) := s.draw 0x453
      .next (s.emit (.sideband [v.toInt]))

/-- Part number (R4) as text. -/
def partNumber : Grade → List Byte
  | .f => [0x41, 0x56, 0x4D, 0x31, 0x37, 0x32, 0x38, 0x2D, 0x46]
  | .s => [0x41, 0x56, 0x4D, 0x31, 0x35, 0x33, 0x36, 0x2D, 0x53]

/-- PLDM_FRU_READ: part number, stepping and module serial (R389, R453). -/
def execPldmFruRead (s : State) : Host.Outcome State Fault Refusal :=
  .next (if s.managed then
      s.emit (.sideband ((partNumber s.fuses.grade ++ [0xA2] ++ leBytes 8 s.fuses.serial.toNat).map fun (b : Byte) => (b.toNat : Int)))
    else s)

/-- PLDM_EVENT_SUBSCRIPTION (R453). -/
def execPldmEventSubscription (sensor : PldmSensor) (s : State) : Host.Outcome State Fault Refusal :=
  .next (if s.managed && !s.side.subscribed.contains sensor then
      { s with side := { s.side with subscribed := s.side.subscribed ++ [sensor] } }
    else s)

/-- CHANNEL_SELECTOR_WRITE: bytes 0 to 7 connect a connector, any other disconnects all (R454). -/
def execChannelSelectorWrite (b : Byte) (s : State) : Host.Outcome State Fault Refusal :=
  .next (if s.managed then
      { s with side := { s.side with channel := if b.toNat < 8 then some (Fin.ofNat 8 b.toNat) else none } }
    else s)

/-! ### JTAG -/

/-- IDCODE of a grade (R455). -/
def idcodeOf : Grade → W32
  | .f => 0x21728A9B
  | .s => 0x21536A9B

/-- A JTAG instruction is loaded (R455): JTAG works while PWR_GOOD is high. -/
def State.loadJtag (s : State) (i : JtagInstr) : State := { s with side := { s.side with jtag := i } }

/-- A JTAG instruction that takes the pins: the module zeroises first, as at an assertion of PERST# (R455). -/
def State.loadExtest (s : State) (i : JtagInstr) : State := if s.power.pwrGood then s.jtagReset.loadJtag i else s

/-- BYPASS (R455). -/
def execBypass (s : State) : Host.Outcome State Fault Refusal := .next (if s.power.pwrGood then s.loadJtag .bypass else s)

/-- IDCODE (R455). -/
def execIdcode (s : State) : Host.Outcome State Fault Refusal :=
  .next (if s.power.pwrGood then (s.loadJtag .idcode).emit (.sideband [(idcodeOf s.fuses.grade).toNat]) else s)

/-- SAMPLE/PRELOAD (R455): it reads pins, and no internal state. -/
def execSamplePreload (s : State) : Host.Outcome State Fault Refusal :=
  .next (if s.power.pwrGood then s.loadJtag .samplePreload else s)

/-- EXTEST (R455). -/
def execExtest (s : State) : Host.Outcome State Fault Refusal := .next (s.loadExtest .extest)

/-- CLAMP (R455). -/
def execClamp (s : State) : Host.Outcome State Fault Refusal := .next (s.loadExtest .clamp)

/-- HIGHZ (R455). -/
def execHighz (s : State) : Host.Outcome State Fault Refusal := .next (s.loadExtest .highz)

/-- EXTEST_PULSE (R455). -/
def execExtestPulse (s : State) : Host.Outcome State Fault Refusal := .next (s.loadExtest .extestPulse)

/-- EXTEST_TRAIN (R455). -/
def execExtestTrain (s : State) : Host.Outcome State Fault Refusal := .next (s.loadExtest .extestTrain)

end Sys2Proof.Machine
end

