-- ==== Sys2Proof/Machine/FuncUnit.lean ====
section
/-! DEFINITION. The function unit (R55, R56): correctly rounded exp2, log2, rsqrt, reciprocal, sin and cos. The square
root and the quotient are exact with a sticky bit. The other four are evaluated in fixed point far beyond the precision
at which any binary32 argument is decided. -/

namespace Sys2Proof.Machine

/-- Fraction bits of the fixed-point evaluation. -/
def fxBits : Nat := 480

/-- One, in fixed point. -/
def fxOne : Int := ((2 ^ fxBits : Nat) : Int)

/-- Fixed-point product. -/
def fxMul (a b : Int) : Int := (a * b) / fxOne

/-- Sum of t / (2j + 1) with signs, where each next t is `sq` of the one before: the series of atanh and atan. -/
def oddSeries (alt : Bool) (sq : Int → Int) : Nat → Nat → Int → Int
  | 0, _, _ => 0
  | n + 1, j, t => (if alt && j % 2 == 1 then -(t / (2 * (j : Int) + 1)) else t / (2 * (j : Int) + 1))
      + oddSeries alt sq n (j + 1) (sq t)

/-- Natural logarithm of 2: 2 atanh(1/3). -/
def fxLn2 : Int := 2 * oddSeries false (fun t => t / 9) 155 0 (fxOne / 3)

/-- π, by Machin's formula. -/
def fxPi : Int :=
  16 * oddSeries true (fun t => t / 25) 106 0 (fxOne / 5) - 4 * oddSeries true (fun t => t / 57121) 34 0 (fxOne / 239)

/-- Σ y^k / k! from k on, with t the current term: the exponential of y below 1. -/
def expSeries (y : Int) : Nat → Nat → Int → Int
  | 0, _, _ => 0
  | n + 1, k, t => t + expSeries y n (k + 1) (fxMul t y / ((k : Int) + 1))

/-- Alternating series with t the current term and two factorial steps a term: cosine (k = 0) or sine (k = 1) of y. -/
def trigSeries (y2 : Int) : Nat → Nat → Int → Int
  | 0, _, _ => 0
  | n + 1, k, t => t + trigSeries y2 n (k + 2) (-(fxMul t y2) / (((k : Int) + 1) * ((k : Int) + 2)))

/-- Fixed-point value of m × 2^e, truncated. -/
def fxOf (m : Nat) (e : Int) : Int :=
  let s := (fxBits : Int) + e
  if 0 ≤ s then ((m * 2 ^ s.toNat : Nat) : Int) else ((m / 2 ^ (-s).toNat : Nat) : Int)

/-- Round a fixed-point value that is known to be inexact: a sticky bit below it, scaled by 2^n. -/
def fxRound (v n : Int) : W32 × Ieee :=
  f32Round (decide (v < 0)) (2 * v.natAbs + 1) (n - (fxBits : Int) - 1)

/-- exp2 (R55, R56). -/
def fnExp2 (a : W32) : W32 × Ieee :=
  match f32Num a with
  | .nan => nanResult (f32Snan a)
  | .inf neg => (if neg then 0 else f32Inf false, .none)
  | .fin neg m e =>
    if m = 0 then (0x3F800000, .none)
    else if !neg && decide (7 ≤ floorLog2 m e) then (f32Inf false, { Ieee.none with overflow := 1, inexact := 1 })
    else if neg && decide (8 ≤ floorLog2 m e) then f32Round false 1 (-400)
    else
      let x := if neg then -(fxOf m e) else fxOf m e
      let n := x / fxOne
      let f := x % fxOne
      let whole := decide (0 ≤ e) || decide (m % 2 ^ (-e).toNat = 0)
      if whole then f32Round false 1 n
      else fxRound (expSeries (fxMul f fxLn2) 110 0 fxOne) n

/-- log2 (R55, R56). -/
def fnLog2 (a : W32) : W32 × Ieee :=
  match f32Num a with
  | .nan => nanResult (f32Snan a)
  | .inf neg => if neg then (qnan, .inv) else (f32Inf false, .none)
  | .fin neg m e =>
    if m = 0 then (f32Inf true, .none)
    else if neg then (qnan, .inv)
    else
      let k := bitLen m - 1
      let ex := e + (k : Int)
      if m = 2 ^ k then intToF32 ex
      else
        let s := fxOf m (-(k : Int))
        let z := (s - fxOne) * fxOne / (s + fxOne)
        let z2 := fxMul z z
        let ln := 2 * oddSeries false (fun t => fxMul t z2) 155 0 z
        fxRound (ex * fxOne + ln * fxOne / fxLn2) 0

/-- Integer square root by bits: the largest r with r × r ≤ n, for r below 2^k. -/
def isqrt (n : Nat) : Nat → Nat → Nat
  | 0, r => r
  | k + 1, r => if (r + 2 ^ k) * (r + 2 ^ k) ≤ n then isqrt n k (r + 2 ^ k) else isqrt n k r

/-- rsqrt (R55, R56). -/
def fnRsqrt (a : W32) : W32 × Ieee :=
  match f32Num a with
  | .nan => nanResult (f32Snan a)
  | .inf neg => if neg then (qnan, .inv) else (0, .none)
  | .fin neg m e =>
    if m = 0 then (f32Inf neg, .none)
    else if neg then (qnan, .inv)
    else
      let (m', e') := if e % 2 = 0 then (m, e) else (2 * m, e - 1)
      let n := 2 ^ 160 / m'
      let r := isqrt n 81 0
      let exact := decide (r * r * m' = 2 ^ 160)
      f32Round false (2 * r + (if exact then 0 else 1)) (-(e' / 2) - 81)

/-- reciprocal (R55, R56): a result that overflows gives +infinity, whatever its sign. -/
def fnRecip (a : W32) : W32 × Ieee :=
  match f32Num a with
  | .nan => nanResult (f32Snan a)
  | .inf neg => (f32Zero neg, .none)
  | .fin neg m e =>
    if m = 0 then (f32Inf neg, .none)
    else
      let n := 2 ^ 80 / m
      let r := f32Round neg (2 * n + (if 2 ^ 80 % m = 0 then 0 else 1)) (-e - 81)
      if r.2.overflow = 0 then r else (f32Inf false, r.2)

/-- sin (`cosine` false) and cos, with the argument reduced by quarter turns (R55, R56). -/
def fnTrig (cosine : Bool) (a : W32) : W32 × Ieee :=
  match f32Num a with
  | .nan => nanResult (f32Snan a)
  | .inf _ => (qnan, .inv)
  | .fin neg m e =>
    if m = 0 then (if cosine then 0x3F800000 else f32Zero neg, .none)
    else
      let x := if neg then -(fxOf m e) else fxOf m e
      let half := fxPi / 2
      let n := (x + half / 2) / half
      let r := x - (n * fxPi) / 2
      let r2 := fxMul r r
      let quarter := ((n + (if cosine then 1 else 0)) % 4).toNat
      let v := if quarter % 2 = 0 then trigSeries r2 60 1 r else trigSeries r2 60 0 fxOne
      fxRound (if quarter < 2 then v else -v) 0

/-- The function unit by function code, in the order of R55: 0 exp2, 1 log2, 2 rsqrt, 3 reciprocal, 4 sin, 5 cos. -/
def funcUnit : Nat → W32 → W32 × Ieee
  | 0 => fnExp2
  | 1 => fnLog2
  | 2 => fnRsqrt
  | 3 => fnRecip
  | 4 => fnTrig false
  | _ => fnTrig true

end Sys2Proof.Machine
end

