-- ==== Sys2Proof/Machine/Vector.lean ====
section
/-! DEFINITION. The vector engine (R93 to R99): 64 registers of 64 lanes, results visible after their latency. -/

namespace Sys2Proof.Machine

/-- A whole result that has landed in a register by the queue cycle has replaced the word with an error (R99). -/
def Work.vland (k : Work) (x : Ctx) (v : Nat) : Work :=
  let whole := (AMap.get VReg.zero (k.s.core x.c).vregs v).pend.any fun p => !p.lane0 && decide (p.due ≤ x.t)
  if !whole then k
  else { k with s := k.s.updEngine x.c x.e fun q => { q with upset := match q.upset with
    | some (.vregSingle i) => if i.val = v then none else q.upset
    | some (.vregDouble i) => if i.val = v then none else q.upset
    | u => u } }

/-- A latent error of a vector register meets its next read: one bit is corrected and reported, two stop the
instruction (R99). -/
def Work.vreg (k : Work) (x : Ctx) (v : Nat) : Except Halt (List W32 × Work) :=
  let k := k.vland x v
  let core := k.s.core x.c
  let lanes := (AMap.get VReg.zero core.vregs v).view x.t
  match (core.engine x.e).upset with
  | some (.vregSingle i) =>
    if i.val = v then
      .ok (lanes, { k with s := k.s.updEngine x.c x.e fun q => { q with upset := none },
                           recs := k.recs ++ [(.eccCorrected, 0x30)] })
    else .ok (lanes, k)
  | some (.vregDouble i) => if i.val = v then .error (.stop .eccUncorrectable 0x30 none) else .ok (lanes, k)
  | _ => .ok (lanes, k)

/-- Write a vector register with latency `l` (R94). -/
def Work.setV (k : Work) (x : Ctx) (v l : Nat) (lane0 : Bool) (lanes : List W32) : Work :=
  let k := k.vland x v
  { k with s := k.s.updCore x.c fun o =>
    { o with vregs := AMap.upd VReg.zero o.vregs v fun r => r.put x.t { due := x.at l, lane0 := lane0, lanes := lanes } } }

/-- IEEE events of an instruction, one count per lane and kind (R53). -/
def Work.ieee (k : Work) (x : Ctx) (i : Ieee) : Work :=
  (((k.ev 0x08 x.t 1 i.invalid).ev 0x09 x.t 1 i.overflow).ev 0x0A x.t 1 i.underflow).ev 0x0B x.t 1 i.inexact

/-- The checks of the binary32 datapath of an instruction whose result is written `l` cycles after its queue cycle: the residue
is compared when the result is written, the exponent and sign logic in every cycle (R99). -/
def Work.floatChecks (k : Work) (x : Ctx) (l : Nat) : Except Halt Work := do
  k.clear x .expSign .residueMismatch 0x02
  pure (if ((k.s.core x.c).engine x.e).upset = some .significand then
      { k with s := k.s.updEngine x.c x.e fun q => { q with upset := none } }.lateFault (x.at l) x.c (some x.e) .residueMismatch 0x01
    else k)

/-- Results and events of a lane operation. -/
def laneMap (l : List (W32 × Ieee)) : List W32 × Ieee :=
  (l.map (·.1), l.foldl (fun a p => a.add p.2) .none)

/-- Two lists lane by lane. -/
def lanes2 (f : W32 → W32 → W32 × Ieee) (a b : List W32) : List W32 × Ieee := laneMap (List.zipWith f a b)

/-- Rows of a vector load or store: the pieces of memory, row or column form (R95). -/
def vecPieces (a : MAddr) (w : BitVec 48) : List (MAddr × Nat) :=
  if bitAt w 29 then (List.range 64).map fun (r : Nat) => (a + BitVec.ofNat 48 (256 * r), 4)
  else if bitAt w 30 then [(addA a (if bitAt w 31 then 128 else 0), 128)]
  else [(a, 256)]

/-- The address rules of VLD and VST (R95): row mode starts at a multiple of 256, column mode at T + 4j in activation
memory. -/
def needRow (x : Ctx) (a : MAddr) (w : BitVec 48) : Except Halt Unit :=
  need (if bitAt w 29 then localAddr x a [1] && aOff a % 4 == 0 else localAddr x a [1, 2] && aOff a % 256 == 0) 0x31

/-- VLD. -/
def runVld (m : Byte) (w : BitVec 48) (x : Ctx) (k : Work) : Except Halt Issued := do
  needEng .vxe 0x50 m w
  let i := fld w 24 4
  let a := k.areg x i
  needRow x a w
  let ps := vecPieces a w
  let (x, k) ← gate x k (ps.flatMap fun p => rangeOf x p.1 p.2 false)
  let (bs, k) ← k.readPieces x ps x.t
  let lanes := if bitAt w 30 then (chunks 2 64 bs).map fun b => BitVec.ofNat 32 (leNat b * 2 ^ 16) else words32 bs
  pure (finish x ((k.setV x (fld w 0 6) 4 false lanes).incA x (bitAt w 28) i (if bitAt w 29 then 4 else 256)))

/-- VLD (R95). -/
def execVld (c : CoreId) (m : Byte) (w : BitVec 48) (s : State) : Host.Outcome State Fault Refusal :=
  .next (runInstr s c .vxe 0x50 false (runVld m w))

/-- A binary32 lane rounded to BF16, as its encoding (R44, R51). -/
def toBf16 (v : W32) : Nat × Ieee :=
  match convertTo 7 .rne 0 (f32Num v) with
  | some r => (r.bits, if f32Snan v then .inv else if f32Nan v then .none else r.ieee)
  | none => (0x7FC0, .none)

/-- VST: the register is read in the queue cycle, the write lands one cycle later. -/
def runVst (m : Byte) (w : BitVec 48) (x : Ctx) (k : Work) : Except Halt Issued := do
  needEng .vxe 0x51 m w
  let i := fld w 24 4
  let a := k.areg x i
  needRow x a w
  let ps := vecPieces a w
  let (x, k) ← gate x k (ps.flatMap fun p => rangeOf x p.1 p.2 true)
  let (v, k) ← k.vreg x (fld w 0 6)
  let half := bitAt w 30
  let k ← (if half then k.floatChecks x 1 else pure k)
  let rs := v.map toBf16
  let bs := if half then rs.flatMap fun l => leBytes 2 l.1 else bytes32 v
  let k := if half then k.ieee x (rs.foldl (fun a r => a.add r.2) .none) else k
  let k ← k.writePieces x (List.zipWith (fun p b => (p.1, b)) ps (chunks (bs.length / ps.length) ps.length bs)) (x.at 1)
  pure (finish x (k.incA x (bitAt w 28) i (if bitAt w 29 then 4 else 256)))

/-- VST (R95). -/
def execVst (c : CoreId) (m : Byte) (w : BitVec 48) (s : State) : Host.Outcome State Fault Refusal :=
  .next (runInstr s c .vxe 0x51 false (runVst m w))

/-- A lane operation of two registers in the binary32 datapath. -/
def runArith (code : Nat) (f : W32 → W32 → W32 × Ieee) (w : BitVec 48) (x : Ctx) (k : Work) : Except Halt Issued := do
  needEng .vxe 0x52 (BitVec.ofNat 8 code) w
  let (a, k) ← k.vreg x (fld w 6 6)
  let (b, k) ← k.vreg x (fld w 12 6)
  let k ← k.floatChecks x 4
  let (r, ev) := lanes2 f a b
  pure (finish x ((k.setV x (fld w 0 6) 4 false r).ieee x ev))

/-- VADD (R93, R96). -/
def execVadd (c : CoreId) (w : BitVec 48) (s : State) : Host.Outcome State Fault Refusal :=
  .next (runInstr s c .vxe 0x52 false (runArith 0 f32Add w))
/-- VSUB (R93, R96). -/
def execVsub (c : CoreId) (w : BitVec 48) (s : State) : Host.Outcome State Fault Refusal :=
  .next (runInstr s c .vxe 0x52 false (runArith 1 f32Sub w))
/-- VMUL (R93, R96). -/
def execVmul (c : CoreId) (w : BitVec 48) (s : State) : Host.Outcome State Fault Refusal :=
  .next (runInstr s c .vxe 0x52 false (runArith 2 f32Mul w))
/-- VMIN (R93, R52). -/
def execVmin (c : CoreId) (w : BitVec 48) (s : State) : Host.Outcome State Fault Refusal :=
  .next (runInstr s c .vxe 0x52 false (runArith 3 f32Min w))
/-- VMAX (R93, R52). -/
def execVmax (c : CoreId) (w : BitVec 48) (s : State) : Host.Outcome State Fault Refusal :=
  .next (runInstr s c .vxe 0x52 false (runArith 4 f32Max w))

/-- VFMA: va × vb + vc with one rounding. -/
def runVfma (m : Byte) (w : BitVec 48) (x : Ctx) (k : Work) : Except Halt Issued := do
  needEng .vxe 0x53 m w
  let (a, k) ← k.vreg x (fld w 6 6)
  let (b, k) ← k.vreg x (fld w 12 6)
  let (d, k) ← k.vreg x (fld w 18 6)
  let k ← k.floatChecks x 4
  let (r, ev) := laneMap (List.zipWith (fun ab c => f32Fma ab.1 ab.2 c) (List.zip a b) d)
  pure (finish x ((k.setV x (fld w 0 6) 4 false r).ieee x ev))

/-- VFMA (R96). -/
def execVfma (c : CoreId) (m : Byte) (w : BitVec 48) (s : State) : Host.Outcome State Fault Refusal :=
  .next (runInstr s c .vxe 0x53 false (runVfma m w))

/-- One lane of VCMP: all ones where the comparison holds. A quiet NaN signals in an ordered comparison or not, which
the spec leaves open (Config.compareSignals). -/
def vcmpLane (code : Nat) (a b : W32) : W32 × Ieee :=
  let holds := match f32Order a b, code with
    | some .eq, 0 => true
    | some .eq, 3 => true
    | some .lt, 1 => true
    | some .lt, 2 => true
    | some .lt, 3 => true
    | some .gt, 1 => true
    | none, 1 => true
    | _, _ => false
  let nan := f32Nan a || f32Nan b
  let inv := f32Snan a || f32Snan b || (nan && decide (2 ≤ code) && Config.compareSignals)
  (if holds then 0xFFFFFFFF else 0, if inv then .inv else .none)

/-- VCMP. -/
def runVcmp (m : Byte) (w : BitVec 48) (x : Ctx) (k : Work) : Except Halt Issued := do
  needEng .vxe 0x54 m w
  let (a, k) ← k.vreg x (fld w 6 6)
  let (b, k) ← k.vreg x (fld w 12 6)
  let (r, ev) := lanes2 (vcmpLane m.toNat) a b
  pure (finish x ((k.setV x (fld w 0 6) 2 false r).ieee x ev))

/-- VCMP (R52, R96). -/
def execVcmp (c : CoreId) (m : Byte) (w : BitVec 48) (s : State) : Host.Outcome State Fault Refusal :=
  .next (runInstr s c .vxe 0x54 false (runVcmp m w))

/-- VSEL: va where bit 31 of vc is set, else vb. -/
def runVsel (m : Byte) (w : BitVec 48) (x : Ctx) (k : Work) : Except Halt Issued := do
  needEng .vxe 0x55 m w
  let (a, k) ← k.vreg x (fld w 6 6)
  let (b, k) ← k.vreg x (fld w 12 6)
  let (d, k) ← k.vreg x (fld w 18 6)
  let r := List.zipWith (fun ab c => if bitAt c 31 then ab.1 else ab.2) (List.zip a b) d
  pure (finish x (k.setV x (fld w 0 6) 2 false r))

/-- VSEL (R96). -/
def execVsel (c : CoreId) (m : Byte) (w : BitVec 48) (s : State) : Host.Outcome State Fault Refusal :=
  .next (runInstr s c .vxe 0x55 false (runVsel m w))

/-- One lane of VINT, modulo 2^32; shifts take bits [4:0] of the second lane. -/
def vintLane (code : Nat) (a b : W32) : W32 :=
  let n := fld b 0 5
  match code with
  | 0 => a + b
  | 1 => a - b
  | 2 => a &&& b
  | 3 => a ||| b
  | 4 => a ^^^ b
  | 5 => a <<< n
  | 6 => a >>> n
  | _ => a.sshiftRight n

/-- VINT. -/
def runVint (m : Byte) (w : BitVec 48) (x : Ctx) (k : Work) : Except Halt Issued := do
  needEng .vxe 0x56 m w
  let (a, k) ← k.vreg x (fld w 6 6)
  let (b, k) ← k.vreg x (fld w 12 6)
  pure (finish x (k.setV x (fld w 0 6) 2 false (List.zipWith (vintLane m.toNat) a b)))

/-- VINT (R96). -/
def execVint (c : CoreId) (m : Byte) (w : BitVec 48) (s : State) : Host.Outcome State Fault Refusal :=
  .next (runInstr s c .vxe 0x56 false (runVint m w))

/-- One lane of VCVT: to integer, from integer, or rounded to BF16 precision. -/
def vcvtLane (code : Nat) (a : W32) : W32 × Ieee :=
  match code with
  | 0 => f32ToInt true a
  | 1 => intToF32 a.toInt
  | _ => let (b, ev) := toBf16 a; (BitVec.ofNat 32 (b * 2 ^ 16), ev)

/-- VCVT. -/
def runVcvt (m : Byte) (w : BitVec 48) (x : Ctx) (k : Work) : Except Halt Issued := do
  needEng .vxe 0x57 m w
  let (a, k) ← k.vreg x (fld w 6 6)
  let k ← k.floatChecks x 4
  let (r, ev) := laneMap (a.map (vcvtLane m.toNat))
  pure (finish x ((k.setV x (fld w 0 6) 4 false r).ieee x ev))

/-- VCVT (R52, R96). -/
def execVcvt (c : CoreId) (m : Byte) (w : BitVec 48) (s : State) : Host.Outcome State Fault Refusal :=
  .next (runInstr s c .vxe 0x57 false (runVcvt m w))

/-- VFN: waits until the function unit is free, and holds it for four cycles (R93, R94). -/
def runVfn (m : Byte) (w : BitVec 48) (x : Ctx) (k : Work) : Except Halt Issued := do
  needEng .vxe 0x58 m w
  let (x, k) := waitBusy x k ((k.s.core x.c).engine x.e).free
  let (a, k) ← k.vreg x (fld w 6 6)
  k.clear x .functionUnit .residueMismatch 0x03
  let (r, ev) := laneMap (a.map (funcUnit m.toNat))
  let k := { k with s := k.s.updEngine x.c x.e fun q => { q with free := x.at 4 } }
  pure (finish x ((k.setV x (fld w 0 6) 20 false r).ieee x ev))

/-- VFN (R55, R97). -/
def execVfn (c : CoreId) (m : Byte) (w : BitVec 48) (s : State) : Host.Outcome State Fault Refusal :=
  .next (runInstr s c .vxe 0x58 false (runVfn m w))

/-- VRED: the canonical tree over the first n lanes, into lane 0 (R54, R98). -/
def runVred (m : Byte) (w : BitVec 48) (x : Ctx) (k : Work) : Except Halt Issued := do
  needEng .vxe 0x59 m w
  let n := if bitAt w 38 then (k.sreg x (fld w 39 5)).toNat else fld w 32 6 + 1
  let broken := match ((k.vland x (fld w 6 6)).s.engine x.c x.e).upset with
    | some (.vregDouble i) => i.val == fld w 6 6
    | _ => false
  k.needs x [(decide (1 ≤ n) && decide (n ≤ 64), .controlParity, 0x32), (!broken, .eccUncorrectable, 0x30)]
  let (a, k) ← k.vreg x (fld w 6 6)
  let k ← k.floatChecks x 24
  let (r, ev) := reduceTree m.toNat (a.take n)
  pure (finish x ((k.setV x (fld w 0 6) 24 true [r]).ieee x ev))

/-- VRED (R98). -/
def execVred (c : CoreId) (m : Byte) (w : BitVec 48) (s : State) : Host.Outcome State Fault Refusal :=
  .next (runInstr s c .vxe 0x59 false (runVred m w))

/-- VBCAST: one lane or a scalar register into every lane. -/
def runVbcast (m : Byte) (w : BitVec 48) (x : Ctx) (k : Work) : Except Halt Issued := do
  needEng .vxe 0x5A m w
  if m = 0 then
    let (a, k) ← k.vreg x (fld w 6 6)
    pure (finish x (k.setV x (fld w 0 6) 2 false (List.replicate 64 (nth 0 a (fld w 32 6)))))
  else
    pure (finish x (k.setV x (fld w 0 6) 2 false (List.replicate 64 (k.sreg x (fld w 39 5)))))

/-- VBCAST (R93). -/
def execVbcast (c : CoreId) (m : Byte) (w : BitVec 48) (s : State) : Host.Outcome State Fault Refusal :=
  .next (runInstr s c .vxe 0x5A false (runVbcast m w))

/-- VTOS: one lane into a scalar register. -/
def runVtos (m : Byte) (w : BitVec 48) (x : Ctx) (k : Work) : Except Halt Issued := do
  needEng .vxe 0x5B m w
  let (a, k) ← k.vreg x (fld w 6 6)
  pure (finish x (k.setS x (fld w 39 5) 2 (nth 0 a (fld w 32 6))))

/-- VTOS (R93). -/
def execVtos (c : CoreId) (m : Byte) (w : BitVec 48) (s : State) : Host.Outcome State Fault Refusal :=
  .next (runInstr s c .vxe 0x5B false (runVtos m w))

end Sys2Proof.Machine
end

