-- ==== Sys2Proof/Machine/Dispatch.lean ====
section
/-! DEFINITION. Which meaning each command has: one arm per row of the opcode table. -/

namespace Sys2Proof.Machine

/-- The effect of a command on everything but the queue. -/
def exec (i : Instr) (s : State) : Host.Outcome State Fault Refusal :=
  match i with
  -- Matrix engine (R69): core, modifier [55:48], operands [47:0]
  | .mcfg c m w => Sys2Proof.Machine.execMcfg c m w s
  | .mdcfg c m w => Sys2Proof.Machine.execMdcfg c m w s
  | .mlw c m w => Sys2Proof.Machine.execMlw c m w s
  | .mmul c m w => Sys2Proof.Machine.execMmul c m w s
  | .mldl c m w => Sys2Proof.Machine.execMldl c m w s
  | .mdrn c m w => Sys2Proof.Machine.execMdrn c m w s
  | .mdrnl c m w => Sys2Proof.Machine.execMdrnl c m w s
  | .mclr c m w => Sys2Proof.Machine.execMclr c m w s
  -- Vector engine (R93)
  | .vld c m w => Sys2Proof.Machine.execVld c m w s
  | .vst c m w => Sys2Proof.Machine.execVst c m w s
  | .vadd c w => Sys2Proof.Machine.execVadd c w s
  | .vsub c w => Sys2Proof.Machine.execVsub c w s
  | .vmul c w => Sys2Proof.Machine.execVmul c w s
  | .vmin c w => Sys2Proof.Machine.execVmin c w s
  | .vmax c w => Sys2Proof.Machine.execVmax c w s
  | .vfma c m w => Sys2Proof.Machine.execVfma c m w s
  | .vcmp c m w => Sys2Proof.Machine.execVcmp c m w s
  | .vsel c m w => Sys2Proof.Machine.execVsel c m w s
  | .vint c m w => Sys2Proof.Machine.execVint c m w s
  | .vcvt c m w => Sys2Proof.Machine.execVcvt c m w s
  | .vfn c m w => Sys2Proof.Machine.execVfn c m w s
  | .vred c m w => Sys2Proof.Machine.execVred c m w s
  | .vbcast c m w => Sys2Proof.Machine.execVbcast c m w s
  | .vtos c m w => Sys2Proof.Machine.execVtos c m w s
  -- Move engine (R100)
  | .tcpy c m w => Sys2Proof.Machine.execTcpy c m w s
  | .ttile c m w => Sys2Proof.Machine.execTtile c m w s
  | .tshuf c m w => Sys2Proof.Machine.execTshuf c m w s
  | .tcvt c m w => Sys2Proof.Machine.execTcvt c m w s
  | .tqnt c m w => Sys2Proof.Machine.execTqnt c m w s
  | .tnbr c m w => Sys2Proof.Machine.execTnbr c m w s
  | .tmrd c m w => Sys2Proof.Machine.execTmrd c m w s
  -- Gather engine (R108)
  | .grows c m w => Sys2Proof.Machine.execGrows c m w s
  | .gtopk c m w => Sys2Proof.Machine.execGtopk c m w s
  | .gdisp c m w => Sys2Proof.Machine.execGdisp c m w s
  -- Fabric engine (R113)
  | .fsend c m w => Sys2Proof.Machine.execFsend c m w s
  | .frecv c m w => Sys2Proof.Machine.execFrecv c m w s
  | .fscol c m w => Sys2Proof.Machine.execFscol c m w s
  | .frdx c m w => Sys2Proof.Machine.execFrdx c m w s
  | .frdc c m w => Sys2Proof.Machine.execFrdc c m w s
  | .fwput c m w => Sys2Proof.Machine.execFwput c m w s
  | .fwget c m w => Sys2Proof.Machine.execFwget c m w s
  | .fwatm c m w => Sys2Proof.Machine.execFwatm c m w s
  -- Control instructions (R133), for any engine
  | .nop c e m w => Sys2Proof.Machine.execNop c e m w s
  | .pad c e m w => Sys2Proof.Machine.execPad c e m w s
  | .loop c e m w => Sys2Proof.Machine.execLoop c e m w s
  | .endloop c e m w => Sys2Proof.Machine.execEndloop c e m w s
  | .call c e m w => Sys2Proof.Machine.execCall c e m w s
  | .ret c e m w => Sys2Proof.Machine.execRet c e m w s
  | .wait c e m w => Sys2Proof.Machine.execWait c e m w s
  | .signal c e m w => Sys2Proof.Machine.execSignal c e m w s
  | .release c e m w => Sys2Proof.Machine.execRelease c e m w s
  | .acquire c e m w => Sys2Proof.Machine.execAcquire c e m w s
  | .barrier c e m w => Sys2Proof.Machine.execBarrier c e m w s
  -- Register instructions (R131), for any engine
  | .sset c e m w => Sys2Proof.Machine.execSset c e m w s
  | .sop c e m w => Sys2Proof.Machine.execSop c e m w s
  | .sopi c e m w => Sys2Proof.Machine.execSopi c e m w s
  | .aset c e m w => Sys2Proof.Machine.execAset c e m w s
  | .aadd c e m w => Sys2Proof.Machine.execAadd c e m w s
  | .sld c e m w => Sys2Proof.Machine.execSld c e m w s
  | .sst c e m w => Sys2Proof.Machine.execSst c e m w s
  | .srd c e m w => Sys2Proof.Machine.execSrd c e m w s
  -- Core events
  | .absentEngineDelivery c e word => Sys2Proof.Machine.execAbsentEngineDelivery c e word s
  | .stallLimitExpiry c e => Sys2Proof.Machine.execStallLimitExpiry c e s
  | .graceWindowExpiry c e => Sys2Proof.Machine.execGraceWindowExpiry c e s
  | .releaseApply c e => Sys2Proof.Machine.execReleaseApply c e s
  | .coreBarrierJoin c => Sys2Proof.Machine.execCoreBarrierJoin c s
  -- Mesh, weft and warp events
  | .weftInjection c cycle outs => Sys2Proof.Machine.execWeftInjection c cycle outs s
  | .warpDelivery c entry => Sys2Proof.Machine.execWarpDelivery c entry s
  | .weftAccessLand c => Sys2Proof.Machine.execWeftAccessLand c s
  | .coreQueueTimeout c => Sys2Proof.Machine.execCoreQueueTimeout c s
  | .warpFlitArrival p hdr payload => Sys2Proof.Machine.execWarpFlitArrival p hdr payload s
  | .warpDeadline p frame sg pos => Sys2Proof.Machine.execWarpDeadline p frame sg pos s
  | .weftWrite v => Sys2Proof.Machine.execWeftWrite v s
  | .weftReadRequest v => Sys2Proof.Machine.execWeftReadRequest v s
  | .weftReadReply v => Sys2Proof.Machine.execWeftReadReply v s
  | .weftAtomic v => Sys2Proof.Machine.execWeftAtomic v s
  | .weftAtomicReply v => Sys2Proof.Machine.execWeftAtomicReply v s
  | .weftAcknowledgement v => Sys2Proof.Machine.execWeftAcknowledgement v s
  | .weftCounterIncrement v => Sys2Proof.Machine.execWeftCounterIncrement v s
  | .fencedTargetReply v => Sys2Proof.Machine.execFencedTargetReply v s
  | .weftTimeoutExpiry tag => Sys2Proof.Machine.execWeftTimeoutExpiry tag s
  | .weftLifetimeExpiry tag => Sys2Proof.Machine.execWeftLifetimeExpiry tag s
  | .replayEntryExpiry src tag => Sys2Proof.Machine.execReplayEntryExpiry src tag s
  -- Stitch and skein events: the port holds what its latest stitch flit carried
  | .stitchFlitReceive p ticks hdr payload => Sys2Proof.Machine.execStitchFlitReceive p ticks hdr payload s
  | .timeSample p => Sys2Proof.Machine.execTimeSample p s
  | .timeSampleLoss => Sys2Proof.Machine.execTimeSampleLoss s
  | .abandonNotice p => Sys2Proof.Machine.execAbandonNotice p s
  | .stepAnnouncement p => Sys2Proof.Machine.execStepAnnouncement p s
  | .barrierJoin p => Sys2Proof.Machine.execBarrierJoin p s
  | .barrierResult p => Sys2Proof.Machine.execBarrierResult p s
  | .fscolContribution p => Sys2Proof.Machine.execFscolContribution p s
  | .fscolResult p => Sys2Proof.Machine.execFscolResult p s
  | .passOffer p => Sys2Proof.Machine.execPassOffer p s
  | .agreementRecordPart p => Sys2Proof.Machine.execAgreementRecordPart p s
  | .formed p => Sys2Proof.Machine.execFormed p s
  | .refused p => Sys2Proof.Machine.execRefused p s
  | .leave p => Sys2Proof.Machine.execLeave p s
  | .readmit p => Sys2Proof.Machine.execReadmit p s
  | .broken p => Sys2Proof.Machine.execBroken p s
  | .dissolve p => Sys2Proof.Machine.execDissolve p s
  | .formationTimeout => Sys2Proof.Machine.execFormationTimeout s
  | .autoRejoin => Sys2Proof.Machine.execAutoRejoin s
  -- Clock, time and port events
  | .slotGroupStart => Sys2Proof.Machine.execSlotGroupStart s
  | .frameStart => Sys2Proof.Machine.execFrameStart s
  | .barrierJoinDeadline f => Sys2Proof.Machine.execBarrierJoinDeadline f s
  | .stepFrame => Sys2Proof.Machine.execStepFrame s
  | .stretch r cycle replica => Sys2Proof.Machine.execStretch r cycle replica s
  | .stretchToken r cycle => Sys2Proof.Machine.execStretchToken r cycle s
  | .lockMonitorFault r => Sys2Proof.Machine.execLockMonitorFault r s
  | .timeInEdge ticks highNs riseNs => Sys2Proof.Machine.execTimeInEdge ticks highNs riseNs s
  | .timeOutPulse => Sys2Proof.Machine.execTimeOutPulse s
  | .portDown p => Sys2Proof.Machine.execPortDown p s
  | .portTrainingComplete p delay fecClean => Sys2Proof.Machine.execPortTrainingComplete p delay fecClean s
  | .meshModeChange => Sys2Proof.Machine.execMeshModeChange s
  -- Host rings and descriptors
  | .doorbellPoll f tails heads mbxAddr mbxSeq => Sys2Proof.Machine.execDoorbellPoll f tails heads mbxAddr mbxSeq s
  | .descriptorFetch f r d => Sys2Proof.Machine.execDescriptorFetch f r d s
  | .nopDescriptor f r idx => Sys2Proof.Machine.execNopDescriptor f r idx s
  | .passSubmit f r idx bufs => Sys2Proof.Machine.execPassSubmit f r idx bufs s
  | .programLoad f r idx x img => Sys2Proof.Machine.execProgramLoad f r idx x img s
  | .weightShard f r idx rec => Sys2Proof.Machine.execWeightShard f r idx rec s
  | .genCommitStaged f r idx => Sys2Proof.Machine.execGenCommitStaged f r idx s
  | .genCommitRolling f r idx => Sys2Proof.Machine.execGenCommitRolling f r idx s
  | .genCommitAbort f r idx => Sys2Proof.Machine.execGenCommitAbort f r idx s
  | .fence f r idx => Sys2Proof.Machine.execFence f r idx s
  | .copy f r idx data => Sys2Proof.Machine.execCopy f r idx data s
  | .skeinCtlForm f r idx plan => Sys2Proof.Machine.execSkeinCtlForm f r idx plan s
  | .skeinCtlDissolve f r idx => Sys2Proof.Machine.execSkeinCtlDissolve f r idx s
  | .skeinCtlPreempt f r idx => Sys2Proof.Machine.execSkeinCtlPreempt f r idx s
  | .skeinCtlResume f r idx => Sys2Proof.Machine.execSkeinCtlResume f r idx s
  -- Pass lifecycle
  | .preemptDeadline f => Sys2Proof.Machine.execPreemptDeadline f s
  | .passAdmit p => Sys2Proof.Machine.execPassAdmit p s
  | .passAgree f => Sys2Proof.Machine.execPassAgree f s
  | .memoryImageLoad f inputs images => Sys2Proof.Machine.execMemoryImageLoad f inputs images s
  | .finalGate f => Sys2Proof.Machine.execFinalGate f s
  | .gateResult f => Sys2Proof.Machine.execGateResult f s
  | .outputWriteError f => Sys2Proof.Machine.execOutputWriteError f s
  | .quiesceComplete f => Sys2Proof.Machine.execQuiesceComplete f s
  | .passWatchdog f => Sys2Proof.Machine.execPassWatchdog f s
  -- Integrity
  | .faultRecordDelivery d => Sys2Proof.Machine.execFaultRecordDelivery d s
  | .dieHeartbeat d => Sys2Proof.Machine.execDieHeartbeat d s
  | .heartbeatTimeout d => Sys2Proof.Machine.execHeartbeatTimeout d s
  | .fatalFault cause detail core => Sys2Proof.Machine.execFatalFault cause detail core s
  | .weightScrubRead c word => Sys2Proof.Machine.execWeightScrubRead c word s
  | .memoryScrubRead c mem word => Sys2Proof.Machine.execMemoryScrubRead c mem word s
  -- Weight ingest
  | .shardRecordProcess d slot => Sys2Proof.Machine.execShardRecordProcess d slot s
  | .shardWrite d slot => Sys2Proof.Machine.execShardWrite d slot s
  | .shardCommit d slot => Sys2Proof.Machine.execShardCommit d slot s
  | .ingestRequest d notice => Sys2Proof.Machine.execIngestRequest d notice s
  | .ingestReady d notice => Sys2Proof.Machine.execIngestReady d notice s
  | .ingestAck d notice => Sys2Proof.Machine.execIngestAck d notice s
  | .ingestNack d notice => Sys2Proof.Machine.execIngestNack d notice s
  | .requestTimeout f gen index => Sys2Proof.Machine.execRequestTimeout f gen index s
  | .teaselZeroingComplete f weight => Sys2Proof.Machine.execTeaselZeroingComplete f weight s
  -- Power, start-up and resets
  | .powerSample mv tenMa => Sys2Proof.Machine.execPowerSample mv tenMa s
  | .temperatureSample t => Sys2Proof.Machine.execTemperatureSample t s
  | .powerWishEvaluation => Sys2Proof.Machine.execPowerWishEvaluation s
  | .localStep => Sys2Proof.Machine.execLocalStep s
  | .railExcursion rail => Sys2Proof.Machine.execRailExcursion rail s
  | .tamperEvent sensor place => Sys2Proof.Machine.execTamperEvent sensor place s
  | .inputGood st => Sys2Proof.Machine.execInputGood st s
  | .inputLost => Sys2Proof.Machine.execInputLost s
  | .perstAssert => Sys2Proof.Machine.execPerstAssert s
  | .perstDeassert st => Sys2Proof.Machine.execPerstDeassert st s
  | .flr f => Sys2Proof.Machine.execFlr f s
  | .warmResetStart kemSeed => Sys2Proof.Machine.execWarmResetStart kemSeed s
  | .treeGenerationComplete => Sys2Proof.Machine.execTreeGenerationComplete s
  | .dumpLatch => Sys2Proof.Machine.execDumpLatch s
  | .irqDelayExpiry f v => Sys2Proof.Machine.execIrqDelayExpiry f v s
  -- Vedihar messages
  | .dieIdentityRecords q => Sys2Proof.Machine.execDieIdentityRecords q s
  | .certificateChain q => Sys2Proof.Machine.execCertificateChain q s
  | .encapsulationKey q => Sys2Proof.Machine.execEncapsulationKey q s
  | .attestationReport q nonce fn => Sys2Proof.Machine.execAttestationReport q nonce fn s
  | .libraryLoad q img => Sys2Proof.Machine.execLibraryLoad q img s
  | .libraryQuery q => Sys2Proof.Machine.execLibraryQuery q s
  | .weightSessionOpen q => Sys2Proof.Machine.execWeightSessionOpen q s
  | .ownerKey q key => Sys2Proof.Machine.execOwnerKey q key s
  | .weightManifest q doc => Sys2Proof.Machine.execWeightManifest q doc s
  | .generationList q doc => Sys2Proof.Machine.execGenerationList q doc s
  | .wrappedKey q gen ct => Sys2Proof.Machine.execWrappedKey q gen ct s
  | .distributionEntry q gen parent children => Sys2Proof.Machine.execDistributionEntry q gen parent children s
  | .weightSessionClose q => Sys2Proof.Machine.execWeightSessionClose q s
  | .moduleWarm q => Sys2Proof.Machine.execModuleWarm q s
  | .keyedWarm q => Sys2Proof.Machine.execKeyedWarm q s
  | .retentionTicket q gen ct => Sys2Proof.Machine.execRetentionTicket q gen ct s
  | .skeinReset q => Sys2Proof.Machine.execSkeinReset q s
  | .debugChallenge q => Sys2Proof.Machine.execDebugChallenge q s
  | .debugUnlock q challenge serial mask sig cert => Sys2Proof.Machine.execDebugUnlock q challenge serial mask sig cert s
  | .dumpBufferSetup q addr slots => Sys2Proof.Machine.execDumpBufferSetup q addr slots s
  | .logRingSetup q addr log2 => Sys2Proof.Machine.execLogRingSetup q addr log2 s
  | .traceRingSetup q addr log2 mask => Sys2Proof.Machine.execTraceRingSetup q addr log2 mask s
  | .observationQuery q => Sys2Proof.Machine.execObservationQuery q s
  -- Host register and window accesses
  | .setLockWrite f v => Sys2Proof.Machine.execSetLockWrite f v s
  | .setPartWrite f p v => Sys2Proof.Machine.execSetPartWrite f p v s
  | .setFuncWrite w f v => Sys2Proof.Machine.execSetFuncWrite w f v s
  | .setQosApply p => Sys2Proof.Machine.execSetQosApply p s
  | .ringEnable f cq r => Sys2Proof.Machine.execRingEnable f cq r s
  | .ringDisable f cq r => Sys2Proof.Machine.execRingDisable f cq r s
  | .fenceReq c => Sys2Proof.Machine.execFenceReq c s
  | .bypassReq c => Sys2Proof.Machine.execBypassReq c s
  | .oosReq d => Sys2Proof.Machine.execOosReq d s
  | .portRetrain p => Sys2Proof.Machine.execPortRetrain p s
  | .chkFaultClear => Sys2Proof.Machine.execChkFaultClear s
  | .w1cClear flag => Sys2Proof.Machine.execW1cClear flag s
  | .timebaseRead reg => Sys2Proof.Machine.execTimebaseRead reg s
  | .obsCntCfgApply => Sys2Proof.Machine.execObsCntCfgApply s
  | .registerWrite f reg v => Sys2Proof.Machine.execRegisterWrite f reg v s
  | .hostWindowRead f offset len => Sys2Proof.Machine.execHostWindowRead f offset len s
  | .hostWindowWrite f offset data => Sys2Proof.Machine.execHostWindowWrite f offset data s
  | .stagingSlotWrite f d slot rec => Sys2Proof.Machine.execStagingSlotWrite f d slot rec s
  -- Sideband and JTAG
  | .pldmSensorRead sensor => Sys2Proof.Machine.execPldmSensorRead sensor s
  | .pldmFruRead => Sys2Proof.Machine.execPldmFruRead s
  | .pldmEventSubscription sensor => Sys2Proof.Machine.execPldmEventSubscription sensor s
  | .channelSelectorWrite b => Sys2Proof.Machine.execChannelSelectorWrite b s
  | .bypass => Sys2Proof.Machine.execBypass s
  | .idcode => Sys2Proof.Machine.execIdcode s
  | .samplePreload => Sys2Proof.Machine.execSamplePreload s
  | .extest => Sys2Proof.Machine.execExtest s
  | .clamp => Sys2Proof.Machine.execClamp s
  | .highz => Sys2Proof.Machine.execHighz s
  | .extestPulse => Sys2Proof.Machine.execExtestPulse s
  | .extestTrain => Sys2Proof.Machine.execExtestTrain s
  -- Further steps
  | .weftForward v => Sys2Proof.Machine.execWeftForward v s
  | .interruptAllowanceRenewal f => Sys2Proof.Machine.execInterruptAllowanceRenewal f s
  | .entropyHealthTest passes => Sys2Proof.Machine.execEntropyHealthTest passes s
  | .tamperConditionEnd st => Sys2Proof.Machine.execTamperConditionEnd st s
  | .tapReset idcode st => Sys2Proof.Machine.execTapReset idcode st s
  | .vfEnable n => Sys2Proof.Machine.execVfEnable n s

end Sys2Proof.Machine
end

