-- ==== Sys2Proof/WellFormed.lean ====
section
/-! DEFINITION. Which commands the spec's layouts can carry: every number fits its field, every list has the length its
layout fixes, and the parsed parts of a signed document agree with the document's bytes. exec gives every command a
meaning; a command that is not well-formed is one that no host, link or part of the module can produce. -/

namespace Sys2Proof

/-- The little-endian number in `n` bytes at byte `off` of a document. -/
def leAt (b : List Byte) (off : Nat) : Nat → Nat
  | 0 => 0
  | n + 1 => (b[off]?.getD 0).toNat + 256 * leAt b (off + 1) n

/-- A number fits a field of `n` bytes. -/
def fitsBytes (n v : Nat) : Bool := decide (v < 256 ^ n)

/-- A number fits a signed byte. -/
def fitsSigned (v : Int) : Bool := decide (-128 ≤ v) && decide (v ≤ 127)

/-! ### Executables and load images (R208 to R210, R463) -/

/-- Executable header (R208). -/
def ExeHeader.wf (h : ExeHeader) : Bool :=
  fitsBytes 2 h.gridW && fitsBytes 2 h.gridH && fitsBytes 2 h.skeinSize && fitsBytes 2 h.kernels && fitsBytes 2 h.coresMin
    && fitsBytes 2 h.coresMax

/-- Section table entry (R208). -/
def SecEntry.wf (e : SecEntry) : Bool := fitsBytes 4 e.length && fitsBytes 8 e.offset

/-- Kernel table entry (section 0x01). -/
def KernelEntry.wf (e : KernelEntry) : Bool := fitsBytes 2 e.frames && fitsBytes 2 e.barrier

/-- Member map entry (section 0x02). -/
def MemberEntry.wf (e : MemberEntry) : Bool := fitsBytes 2 e.vmodule && fitsBytes 1 e.die && fitsBytes 1 e.localIdx

/-- Warp entry (R210). -/
def WarpEntry.wf (e : WarpEntry) : Bool :=
  fitsBytes 1 e.port && fitsBytes 2 e.peer && fitsBytes 2 e.frame && fitsBytes 1 e.firstSg && fitsBytes 1 e.firstPos
    && fitsBytes 4 e.flits && fitsBytes 1 e.perSg && fitsBytes 1 e.latClass

/-- Barrier entry (R210): five predicted signatures. -/
def BarrierEntry.wf (e : BarrierEntry) : Bool :=
  fitsBytes 2 e.kernel && fitsBytes 1 e.final && decide (e.sig.length = 5)

/-- Tensor record (R320). -/
def TensorRec.wf (t : TensorRec) : Bool :=
  fitsBytes 2 t.tensor && fitsBytes 1 t.kind && fitsBytes 1 t.fmt && fitsBytes 1 t.width && fitsBytes 1 t.flags
    && fitsBytes 4 t.entries && fitsBytes 4 t.entryBase && fitsBytes 4 t.sideBase && fitsBytes 2 t.entryStride
    && fitsBytes 2 t.sideStride && fitsSigned t.scaleMin && fitsSigned t.scaleMax

/-- Block use entry (R321). -/
def BlockUse.wf (u : BlockUse) : Bool := fitsBytes 2 u.first && fitsBytes 2 u.last

/-- The file's first 108 bytes spell a header (R208). -/
def ExeHeader.spelt (h : ExeHeader) (b : List Byte) : Bool :=
  decide (leAt b 0 4 = h.magic.toNat) && decide (leAt b 4 2 = h.formatMajor.toNat) && decide (leAt b 6 2 = h.formatMinor.toNat)
    && decide (leAt b 8 4 = h.caps.toNat) && decide (leAt b 12 2 = h.libAbi.toNat) && decide (leAt b 14 2 = h.latVersion.toNat)
    && decide (leAt b 16 32 = h.libManifest.toNat) && decide (leAt b 48 32 = h.weightManifest.toNat)
    && decide (leAt b 80 2 = h.gridW) && decide (leAt b 82 2 = h.gridH) && decide (leAt b 84 2 = h.skeinSize)
    && decide (leAt b 86 1 = h.pcMin.toNat) && decide (leAt b 87 1 = h.pcMax.toNat) && decide (leAt b 88 1 = h.flags.toNat)
    && decide (leAt b 89 1 = h.retries.toNat) && decide (leAt b 90 2 = h.grace.toNat) && decide (leAt b 92 4 = h.stall.toNat)
    && decide (leAt b 96 4 = h.passLimit.toNat) && decide (leAt b 100 2 = h.kernels) && decide (leAt b 102 2 = h.coresMin)
    && decide (leAt b 104 2 = h.coresMax) && decide (leAt b 108 20 = h.reserved.toNat)

/-- An executable whose parts can stand in a file, and whose file spells its header and section table (R208, R209). -/
def Exe.wf (x : Exe) : Bool :=
  x.header.wf && x.header.spelt x.file && decide (leAt x.file 106 2 = x.sections.length)
    && (x.sections.zipIdx.all fun e => e.1.wf && decide (leAt x.file (128 + 16 * e.2) 2 = e.1.stype.toNat)
      && decide (leAt x.file (130 + 16 * e.2) 2 = e.1.reserved.toNat) && decide (leAt x.file (132 + 16 * e.2) 4 = e.1.length)
      && decide (leAt x.file (136 + 16 * e.2) 8 = e.1.offset))
    && x.kernels.all KernelEntry.wf && x.members.all MemberEntry.wf && x.warps.all WarpEntry.wf
    && x.barriers.all BarrierEntry.wf && x.tensors.all TensorRec.wf && x.blockUse.all BlockUse.wf

/-- A load image (R463). -/
def LoadImage.wf (i : LoadImage) : Bool :=
  fitsBytes 2 i.vmodule && fitsBytes 2 i.cores.length && fitsBytes 4 i.routes.length && i.cores.all (fitsBytes 2)
    && i.routes.all fun r => fitsBytes 2 r.entry && fitsBytes 1 r.column

/-! ### Library images, manifests, generation lists, shard records -/

/-- Library manifest entry (R462): five engine parts. -/
def LibEntry.wf (e : LibEntry) : Bool :=
  fitsBytes 2 e.number && fitsBytes 1 e.loopDepth && fitsBytes 1 e.callDepth && fitsBytes 4 e.maxN && fitsBytes 4 e.scratch
    && decide (e.eng.length = 5)
    && e.eng.all fun g => fitsBytes 2 g.entry && fitsBytes 4 g.start && fitsBytes 4 g.base && fitsBytes 4 g.perUnit

/-- A library image (R462): the manifest's bytes have the length that the header gives and spell the entries' numbers. -/
def LibImage.wf (i : LibImage) : Bool :=
  fitsBytes 2 i.routines && fitsBytes 4 i.manifestOff && fitsBytes 4 i.manifestLen && fitsBytes 4 i.bodyOff
    && fitsBytes 4 i.bodyLen && i.entries.all LibEntry.wf && decide (i.manifestBytes.length = i.manifestLen)
    && decide (8 * i.body.length = i.bodyLen)
    && i.entries.zipIdx.all fun e => decide (leAt i.manifestBytes (256 * e.2) 2 = e.1.number)

/-- A weight manifest (R320): the header and the tensor records are those of the signed bytes. -/
def Manifest.wf (d : Manifest) : Bool :=
  decide (leAt d.bytes 0 4 = d.magic.toNat) && decide (leAt d.bytes 4 2 = d.format.toNat)
    && decide (leAt d.bytes 6 2 = d.tensors.length) && decide (leAt d.bytes 8 4 = d.blocks)
    && decide (leAt d.bytes 12 4 = d.shards) && decide (leAt d.bytes 16 2 = d.vmodules)
    && decide (leAt d.bytes 20 4 = d.copyLen) && d.tensors.all TensorRec.wf
    && d.tensors.zipIdx.all fun t =>
      decide (leAt d.bytes (64 + 32 * t.2) 2 = t.1.tensor) && decide (leAt d.bytes (66 + 32 * t.2) 1 = t.1.kind)
        && decide (leAt d.bytes (72 + 32 * t.2) 4 = t.1.entries) && decide (leAt d.bytes (76 + 32 * t.2) 4 = t.1.entryBase)
        && decide (leAt d.bytes (80 + 32 * t.2) 4 = t.1.sideBase)

/-- A generation list (R320): the header and the shard entries are those of the signed bytes. -/
def GenList.wf (d : GenList) : Bool :=
  decide (leAt d.bytes 0 4 = d.magic.toNat) && decide (leAt d.bytes 4 4 = d.generation.toNat)
    && decide (leAt d.bytes 40 4 = d.count)
    && d.entries.zipIdx.all fun e =>
      decide (leAt d.bytes (64 + 48 * e.2) 4 = e.1.index) && decide (leAt d.bytes (68 + 48 * e.2) 2 = e.1.block)
        && decide (leAt d.bytes (70 + 48 * e.2) 2 = e.1.vmodule) && decide (leAt d.bytes (72 + 48 * e.2) 2 = e.1.vcore)
        && decide (leAt d.bytes (76 + 48 * e.2) 4 = e.1.offset)

/-- A shard record (R322): 4 MiB of ciphertext. -/
def ShardRec.wf (r : ShardRec) : Bool := fitsBytes 4 r.index && decide (r.ciphertext.length = 4194304)

/-- Code words of each scrubbed memory of a core (R177, R378). -/
def ScrubMem.words : ScrubMem → Nat
  | .activation => 786432
  | .partialSum => 131072
  | .instruction => 32768

/-- A well-formed command. -/
def Instr.wf : Instr → Bool
  | .doorbellPoll _ tails heads _ _ => decide (tails.length = 16) && decide (heads.length = 16)
  | .passSubmit _ _ _ bufs => fitsBytes 2 bufs.length
  | .programLoad _ _ _ x img => x.wf && (match img with | some i => i.wf | none => true)
  | .weightShard _ _ _ rec => (match rec with | some r => r.wf | none => true)
  | .skeinCtlForm _ _ _ plan => fitsBytes 2 plan.length
  | .memoryScrubRead _ m word => decide (word < m.words)
  | .requestTimeout _ _ index => fitsBytes 4 index
  | .powerSample mv tenMa => fitsBytes 2 mv && fitsBytes 2 tenMa
  | .temperatureSample t => decide (t.length = 64)
  | .libraryLoad _ img => img.wf
  | .weightManifest _ doc => doc.wf
  | .generationList _ doc => doc.wf
  | .distributionEntry _ _ _ ch => ch.all fun c => fitsBytes 2 c.lo && fitsBytes 2 c.hi
  | .hostWindowRead _ offset len => decide (1 ≤ len) && decide (offset.toNat + len ≤ 2 ^ 36)
  | .hostWindowWrite _ offset data => decide (1 ≤ data.length) && decide (offset.toNat + data.length ≤ 2 ^ 36)
  | .stagingSlotWrite _ _ _ rec => rec.wf
  | .mcfg _ _ _ | .mdcfg _ _ _ | .mlw _ _ _ | .mmul _ _ _ | .mldl _ _ _ | .mdrn _ _ _ | .mdrnl _ _ _ | .mclr _ _ _ => true
  | .vld _ _ _ | .vst _ _ _ | .vadd _ _ | .vsub _ _ | .vmul _ _ | .vmin _ _ | .vmax _ _ | .vfma _ _ _ | .vcmp _ _ _
  | .vsel _ _ _ | .vint _ _ _ | .vcvt _ _ _ | .vfn _ _ _ | .vred _ _ _ | .vbcast _ _ _ | .vtos _ _ _ => true
  | .tcpy _ _ _ | .ttile _ _ _ | .tshuf _ _ _ | .tcvt _ _ _ | .tqnt _ _ _ | .tnbr _ _ _ | .tmrd _ _ _ => true
  | .grows _ _ _ | .gtopk _ _ _ | .gdisp _ _ _ => true
  | .fsend _ _ _ | .frecv _ _ _ | .fscol _ _ _ | .frdx _ _ _ | .frdc _ _ _ | .fwput _ _ _ | .fwget _ _ _ | .fwatm _ _ _ => true
  | .nop _ _ _ _ | .pad _ _ _ _ | .loop _ _ _ _ | .endloop _ _ _ _ | .call _ _ _ _ | .ret _ _ _ _ | .wait _ _ _ _
  | .signal _ _ _ _ | .release _ _ _ _ | .acquire _ _ _ _ | .barrier _ _ _ _ => true
  | .sset _ _ _ _ | .sop _ _ _ _ | .sopi _ _ _ _ | .aset _ _ _ _ | .aadd _ _ _ _ | .sld _ _ _ _ | .sst _ _ _ _
  | .srd _ _ _ _ => true
  | .absentEngineDelivery _ _ _ | .stallLimitExpiry _ _ | .graceWindowExpiry _ _ | .releaseApply _ _ | .coreBarrierJoin _ => true
  | .weftInjection _ _ _ | .warpDelivery _ _ | .weftAccessLand _ | .coreQueueTimeout _ | .warpFlitArrival _ _ _
  | .warpDeadline _ _ _ _ => true
  | .weftWrite _ | .weftReadRequest _ | .weftReadReply _ | .weftAtomic _ | .weftAtomicReply _ | .weftAcknowledgement _
  | .weftCounterIncrement _ | .fencedTargetReply _ | .weftTimeoutExpiry _ | .weftLifetimeExpiry _ | .replayEntryExpiry _ _
  | .weftForward _ => true
  | .stitchFlitReceive _ _ _ _ | .timeSample _ | .timeSampleLoss | .abandonNotice _ | .stepAnnouncement _ | .barrierJoin _
  | .barrierResult _ | .fscolContribution _ | .fscolResult _ | .passOffer _ | .agreementRecordPart _ | .formed _ | .refused _
  | .leave _ | .readmit _ | .broken _ | .dissolve _ | .formationTimeout | .autoRejoin => true
  | .slotGroupStart | .frameStart | .barrierJoinDeadline _ | .stepFrame | .stretch _ _ _ | .stretchToken _ _
  | .lockMonitorFault _ | .timeInEdge _ _ _ | .timeOutPulse | .portDown _ | .portTrainingComplete _ _ _ | .meshModeChange => true
  | .descriptorFetch _ _ _ | .nopDescriptor _ _ _ | .genCommitStaged _ _ _ | .genCommitRolling _ _ _ | .genCommitAbort _ _ _
  | .fence _ _ _ | .copy _ _ _ _ | .skeinCtlDissolve _ _ _ | .skeinCtlPreempt _ _ _ | .skeinCtlResume _ _ _ => true
  | .preemptDeadline _ | .passAdmit _ | .passAgree _ | .memoryImageLoad _ _ _ | .finalGate _ | .gateResult _
  | .outputWriteError _ | .quiesceComplete _ | .passWatchdog _ => true
  | .faultRecordDelivery _ | .dieHeartbeat _ | .heartbeatTimeout _ | .fatalFault _ _ _ | .weightScrubRead _ _ => true
  | .shardRecordProcess _ _ | .shardWrite _ _ | .shardCommit _ _ | .ingestRequest _ _ | .ingestReady _ _ | .ingestAck _ _
  | .ingestNack _ _ | .teaselZeroingComplete _ _ => true
  | .powerWishEvaluation | .localStep | .railExcursion _ | .tamperEvent _ _ | .inputGood _ | .inputLost | .perstAssert
  | .perstDeassert _ | .flr _ | .warmResetStart _ | .treeGenerationComplete | .dumpLatch | .irqDelayExpiry _ _ => true
  | .dieIdentityRecords _ | .certificateChain _ | .encapsulationKey _ | .attestationReport _ _ _ | .libraryQuery _
  | .weightSessionOpen _ | .ownerKey _ _ | .wrappedKey _ _ _ | .weightSessionClose _ | .moduleWarm _ | .keyedWarm _
  | .retentionTicket _ _ _ | .skeinReset _ | .debugChallenge _ | .debugUnlock _ _ _ _ _ _ | .dumpBufferSetup _ _ _
  | .logRingSetup _ _ _ | .traceRingSetup _ _ _ _ | .observationQuery _ => true
  | .setLockWrite _ _ | .setPartWrite _ _ _ | .setFuncWrite _ _ _ | .setQosApply _ | .ringEnable _ _ _ | .ringDisable _ _ _
  | .fenceReq _ | .bypassReq _ | .oosReq _ | .portRetrain _ | .chkFaultClear | .w1cClear _ | .timebaseRead _
  | .obsCntCfgApply | .registerWrite _ _ _ => true
  | .pldmSensorRead _ | .pldmFruRead | .pldmEventSubscription _ | .channelSelectorWrite _ | .bypass | .idcode | .samplePreload
  | .extest | .clamp | .highz | .extestPulse | .extestTrain => true
  | .interruptAllowanceRenewal _ | .entropyHealthTest _ | .tamperConditionEnd _ | .tapReset _ _ | .vfEnable _ => true

end Sys2Proof
end

