-- ==== Sys2Proof/Safety.lean ====
section
/-! DEFINITION. What claims about the module are said in terms of: the invariant of its state, when an engine issues with
nothing in the way, and which part of the state a command leaves alone. -/

namespace Sys2Proof.Machine

/-! ### The invariant -/

/-- Writes of a core stand by landing cycle, as insWrite puts them. -/
def landSorted : List MWrite → Bool
  | [] => true
  | w :: t => t.all (fun v => decide (w.land ≤ v.land)) && landSorted t

/-- Results of a vector register stand by the cycle from which they are visible, as insVPend puts them. -/
def dueSorted : List VPend → Bool
  | [] => true
  | p :: t => t.all (fun q => decide (p.due ≤ q.due)) && dueSorted t

/-- What holds at reset and after every command: memory is in its canonical form, the writes that wait in a core stand by
landing cycle, and the results that wait in a vector register by the cycle from which they are visible. -/
def State.inv (s : State) : Bool :=
  Memory.wf s.mem && s.cores.all fun ck => landSorted ck.2.mpend && ck.2.vregs.all fun v => dueSorted v.2.pend

/-! ### Issue -/

/-- The instruction in hand of an engine that runs a pass: where it issues and in which kernel cycle (R128, R139). -/
def State.head (s : State) (c : CoreId) (e : Eng) (j : Job) : Ctx :=
  let q := s.engine c.val e
  { c := c.val, e := e, job := j, head := q.next, t := q.next, r := q.next, w := AMap.get 0 q.waited (q.next / 3200), col := 2 }

/-- Engine `e` of core `c` runs pass `j` and issues the instruction at its head: the fuses provide it, its core is in
service, the word read is sound, no latent fault stands in the engine, no fault of the core has still to fall due, and no
activation vector is due to meet the array before the instruction does (R88, R128, R129, R177, R238, R364). -/
structure Ready (s : State) (c : CoreId) (e : Eng) (j : Job) : Prop where
  present : s.present e = true
  job : (s.core c.val).job = some j
  running : (s.engine c.val e).mode = .running
  serving : (s.core c.val).svc = .inService
  upset : (s.engine c.val e).upset = none
  sound : eccWorst s.ecc 8 (absAddr 3 c.val (8 * (s.engine c.val e).pc.toNat)) 8 = none
  faults : (s.core c.val).faults = []
  vectors : ∀ v ∈ (s.core c.val).mx.vecs, (s.engine c.val e).next + 6 ≤ v.at'

/-- The queue has gone on to word `pc`, which issues in cycle `nxt` at the earliest, with signature `sig`, and waits for
nothing. -/
structure Moved (t : State) (c : CoreId) (e : Eng) (nxt : Nat) (pc : BitVec 15) (sig : W32) : Prop where
  pc : (t.engine c.val e).pc = pc
  next : (t.engine c.val e).next = nxt
  sig : (t.engine c.val e).sig = sig
  wait : (t.engine c.val e).wait = none

/-- The queue has gone on to the following word, one work cycle later, with this word folded into the signature
(R139, R142). -/
def Followed (s t : State) (c : CoreId) (e : Eng) (j : Job) : Prop :=
  Moved t c e ((s.head c e j).at 1) ((s.engine c.val e).pc + 1) (foldSig (s.engine c.val e).sig (s.engine c.val e).pc)

/-- The instruction in hand with its queue cycle at `n`, after a wait (R138, R184). -/
def Ctx.movedTo (x : Ctx) (n : Nat) : Ctx := { x with t := n, r := n, w := if n / 3200 = x.head / 3200 then x.w else 0, col := 2 }

/-- The queue has gone on as after a wait that ended in cycle `n`. -/
def FollowedFrom (s t : State) (c : CoreId) (e : Eng) (j : Job) (n : Nat) : Prop :=
  Moved t c e (((s.head c e j).movedTo n).at 1) ((s.engine c.val e).pc + 1)
    (foldSig (s.engine c.val e).sig (s.engine c.val e).pc)

/-- Lanes of a vector register as an instruction issued in cycle `n` reads them (R94). -/
def State.vlanes (s : State) (c : CoreId) (v n : Nat) : List W32 :=
  (AMap.get VReg.zero (s.core c.val).vregs v).view n

/-- No bobbin of the pass's virtual core is touched by an access of the engine to the bytes (R179, R182). -/
def NoBobbin (s : State) (j : Job) (e : Eng) (space off len : Nat) (write : Bool) : Prop :=
  ∀ b ∈ s.bobs j, b.touched e.num { space := space, off := off, len := len, write := write } = false

/-- An access of engine `e` of core `c` to `n` bytes at address `a` of its own core finds them at the absolute address
`abs`, with sound code words and no bobbin in the way (R161, R177, R184). -/
structure Plain (s : State) (c : CoreId) (e : Eng) (j : Job) (a : MAddr) (n : Nat) (write : Bool) (abs : Nat) : Prop where
  own : aCore a = c.val
  place : s.resolve j.fn a n = .ok (c.val, abs)
  sound : eccWorst s.ecc (eccWord (aSpace a)) abs n = none
  bobbin : NoBobbin s j e (aSpace a) (aOff a) n write

/-- Address `a` of core `c` names `n` PSM rows of the function's region from the one at `a` on: `rows` (R70). -/
structure PsmRows (s : State) (c : CoreId) (j : Job) (a : MAddr) (n : Nat) (rows : List Nat) : Prop where
  own : aCore a = c.val
  space : aSpace a = 2
  start : aOff a % 1024 = 0
  place : ∃ r, s.resolve j.fn a 32 = .ok r
  list : rows = (List.range n).map fun i => (aOff a / 1024 + i) % 512
  inside : ∀ r ∈ rows, r < (s.regionOf j.fn 2).2 / 1024

/-- Queue cycle of a matrix instruction that waits for the vector path until cycle `free` (R80). -/
def State.pathCycle (s : State) (c : CoreId) (j : Job) (free : Nat) : Nat :=
  workAfter (s.head c .mxe j).w (max (s.head c .mxe j).t free) 0

/-! ### Events -/

/-- The reporter of `r` has queued one more record, of the cause and detail, with the time of the fault (R369, R370). -/
def Raised (s t : State) (r : Src) (cause : Cause) (detail : Byte) : Prop :=
  ∃ x : FaultRecord, t.reporter r.reporter = s.reporter r.reporter ++ [x] ∧ x.core = r.core ∧ x.engine = r.engine ∧
    x.cause = cause ∧ x.detail = detail ∧ x.timebase = s.clk.timebase ∧ x.frame = s.clk.frame

/-- Pass `k` is quiescing and unclean, with the status that its completion will carry (R219). -/
def Abandoned (t : State) (k : Nat) (st : Status) : Prop :=
  ∃ p, t.pass k = some p ∧ p.state = .quiescing ∧ p.clean = false ∧ p.status = some st

/-- A weft flit of a type has reached its node of this module, over the mesh or as a sound link flit for this module at a usable
port, whose I/O die has passed it on, and `s'` is the state that has taken it (R228, R254, R264). -/
def State.Taken (s : State) (v : WeftVia) (ty : WType) (s' : State) (f : WeftFlit) : Prop :=
  f.kind = ty ∧
  match v with
  | .mesh g => g = f ∧ f ∈ s.inflight ∧ s' = { s with inflight := s.inflight.erase f }
  | .port p hdr payload free => (s.port p.val).usable = true ∧ fld hdr 0 2 = 1 ∧ linkOk hdr payload = true ∧
      f = weftOfLink hdr payload (1728 + 24 * (p.val / 8)) ∧ f.dst = s.moduleId ∧
      s.atPort p.val f free = (s', true)

/-- The descriptor at index `i` of ring `r` has ended with a status: it holds no tag, its completion entry has left where its
completion ring accepts one, and its pending journal entry has the status (R350, R351, R354, R356). -/
def Completed (s t : State) (f : FnId) (r : RingId) (i : BitVec 12) (st : Status) : Prop :=
  (t.fn f.val).find r i = none ∧
  ∀ d, (s.fn f.val).find r i = some d →
    (((s.fn f.val).cqOf (s.cqFor f r).val).state = .enabled →
      ∃ k phase x, Out.completion f (s.cqFor f r) k (completionEntry d.desc r i st phase x) ∈ t.out) ∧
    (descId d.desc ≠ 0 → (s.fn f.val).lookup (descId d.desc) = some none →
      (t.fn f.val).lookup (descId d.desc) = some (some st))

/-- The FORM descriptor of the member's skein, if one is in progress, has ended with a status (R308). -/
def FormEnded (s t : State) (st : Status) : Prop := ∀ r i, s.skein.desc = some (r, i) → Completed s t s.skein.fn r i st

/-- One more message waits at a port (R259). -/
def Queued (s t : State) (p : Nat) (l : List StitchMsg) : Prop := (t.port p).msgs = (s.port p).msgs ++ l

/-- A Vedihar request that the function's doorbell page names, next in sequence and of the interface's major version, with
room for an answer, while no other is in execution, outside the fatal state (R358, R376). -/
structure Asked (s : State) (q : Mbx) : Prop where
  live : s.live q.f = true
  page : (s.fn q.f.val).pageAddr ≠ 0
  named : (s.fn q.f.val).pageSeq.setWidth 32 = q.seq
  next : q.seq = (s.fn q.f.val).mbxSeq + 1
  major : q.major = 3
  fatal : s.chk.fatal = false
  room : 32 ≤ q.respLen
  idle : (s.fn q.f.val).mbxBusy = false

/-- The request has its response, and MBX_STATUS shows it (R358). -/
def Answered (t : State) (q : Mbx) (st : Status) (detail : BitVec 16) (payload : List Byte) : Prop :=
  Out.response q.f q.respAddr q.seq st detail payload ∈ t.out ∧ (t.fn q.f.val).mbxSeq = q.seq ∧
    (t.fn q.f.val).mbxStatus = st.code

/-! ### Frames -/

/-- Nothing but the core array, memory and what observation writes has changed: the function's trace ring, what has left
the module and the lost-entry counts. -/
def OnlyCores (s t : State) : Prop := t = { s with cores := t.cores, mem := t.mem, fns := t.fns, out := t.out, obs := t.obs }

/-- Every core but `c` is as before. -/
def OtherCores (s t : State) (c : CoreId) : Prop := ∀ b, b ≠ c.val → t.core b = s.core b

/-- Nothing of core `c` but engine `e`, its observation counters, its claimed port cycles and the writes that wait has
changed. -/
def OnlyEngine (s t : State) (c : CoreId) (e : Eng) : Prop :=
  t.core c.val = { (s.core c.val).setEngine e (t.engine c.val e) with
    mpend := (t.core c.val).mpend, claims := (t.core c.val).claims, obs := (t.core c.val).obs }

/-- Every byte reads as before once every write that a core has issued has landed. -/
def SameBytes (s t : State) (c : CoreId) : Prop := ∀ a, t.readNow c.val a 1 = s.readNow c.val a 1

/-- No core has a write that has issued and not landed. -/
def NoWrites (s : State) : Prop := ∀ b, (s.core b).mpend = []

/-- No port cycle of the core is claimed that a later instruction may meet (R173). -/
def NoClaims (s : State) (c : CoreId) : Prop := (s.core c.val).claims = []

end Sys2Proof.Machine
end

