-- ==== Sys2Proof/Certificates/Slice0/Obligations.lean ====
section
/-! DEFINITION. The statements about the module that are to be proved, one definition each. -/

open Sys2Proof Sys2Proof.Machine

/-! ### Register and control instructions -/

/-- R131: the register instructions with a legal encoding issue and complete. SSET writes its immediate, SOP and SOPI the
operation of their modifier on two registers or a register and an immediate, ASET its immediate, AADD the sum modulo 2^48
with the sign-extended register or immediate, SRD the kernel cycle, pass number, virtual core index, core count or the two
halves of an address register. Each result is visible one work cycle later, and the queue goes on to the next word. The codes
of SOP and SOPI are sums, differences and products modulo 2^32, the bitwise operations, shifts by bits [4:0] of the second
operand, and the signed and unsigned minimum and maximum. Rests on the model's choices and readings in log entries 4, 13,
128. -/
def Obligations.RegisterInstructions : Prop :=
  (∀ (s : State) (c : CoreId) (e : Eng) (j : Job) (m : Byte) (w : BitVec 48), Ready s c e j →
      (legalCtl 0x10 m w = true → ∃ t, exec (.sset c e m w) s = .next t ∧ Followed s t c e j ∧
        t.sreg c.val e (fld m 0 5) ((s.head c e j).at 1) = BitVec.ofNat 32 (fld w 0 32)) ∧
      (legalCtl 0x11 m w = true → ∃ t, exec (.sop c e m w) s = .next t ∧ Followed s t c e j ∧
        t.sreg c.val e (fld w 0 5) ((s.head c e j).at 1) =
          scalarOp m.toNat (s.sreg c.val e (fld w 5 5) (s.head c e j).t) (s.sreg c.val e (fld w 10 5) (s.head c e j).t)) ∧
      (legalCtl 0x12 m w = true → ∃ t, exec (.sopi c e m w) s = .next t ∧ Followed s t c e j ∧
        t.sreg c.val e (fld w 0 5) ((s.head c e j).at 1) =
          scalarOp m.toNat (s.sreg c.val e (fld w 5 5) (s.head c e j).t) (BitVec.ofNat 32 (fld w 10 32))) ∧
      (legalCtl 0x13 m w = true → ∃ t, exec (.aset c e m w) s = .next t ∧ Followed s t c e j ∧
        t.areg c.val e (fld m 0 4) ((s.head c e j).at 1) = w) ∧
      (legalCtl 0x14 m w = true → ∃ t, exec (.aadd c e m w) s = .next t ∧ Followed s t c e j ∧
        t.areg c.val e (fld m 0 4) ((s.head c e j).at 1) =
          s.areg c.val e (fld w 0 4) (s.head c e j).t +
            (if bitAt w 9 then BitVec.ofNat 32 (fld w 10 32) else s.sreg c.val e (fld w 4 5) (s.head c e j).t).signExtend 48) ∧
      (legalCtl 0x17 m w = true → ∃ t, exec (.srd c e m w) s = .next t ∧ Followed s t c e j ∧
        (m = 0 → t.sreg c.val e (fld w 0 5) ((s.head c e j).at 1) = BitVec.ofNat 32 (s.head c e j).t) ∧
        (m = 1 → ∀ p, s.pass j.pass = some p → t.sreg c.val e (fld w 0 5) ((s.head c e j).at 1) = p.number) ∧
        (m = 2 → t.sreg c.val e (fld w 0 5) ((s.head c e j).at 1) = BitVec.ofNat 32 j.vcore) ∧
        (m = 3 → ∀ l, (s.fn j.fn.val).exe = some l →
          t.sreg c.val e (fld w 0 5) ((s.head c e j).at 1) = BitVec.ofNat 32 l.coreCount) ∧
        (m = 4 →
          t.sreg c.val e (fld w 0 5) ((s.head c e j).at 1) = (s.areg c.val e (fld w 5 4) (s.head c e j).t).setWidth 32 ∧
          t.sreg c.val e (fld w 0 5 + 1) ((s.head c e j).at 1) =
            ((s.areg c.val e (fld w 5 4) (s.head c e j).t) >>> 32).setWidth 32))) ∧
  (∀ a b : W32,
      scalarOp 0 a b = BitVec.ofNat 32 (a.toNat + b.toNat) ∧ scalarOp 1 a b + b = a ∧
      scalarOp 2 a b = BitVec.ofNat 32 (a.toNat * b.toNat) ∧
      (∀ i, (scalarOp 3 a b).getLsbD i = (a.getLsbD i && b.getLsbD i) ∧ (scalarOp 4 a b).getLsbD i = (a.getLsbD i || b.getLsbD i) ∧
        (scalarOp 5 a b).getLsbD i = (a.getLsbD i ^^ b.getLsbD i)) ∧
      scalarOp 6 a b = BitVec.ofNat 32 (a.toNat * 2 ^ (b.toNat % 32)) ∧
      (scalarOp 7 a b).toNat = a.toNat / 2 ^ (b.toNat % 32) ∧ (scalarOp 8 a b).toInt = a.toInt / 2 ^ (b.toNat % 32) ∧
      (scalarOp 9 a b).toInt = min a.toInt b.toInt ∧ (scalarOp 10 a b).toInt = max a.toInt b.toInt ∧
      (scalarOp 11 a b).toNat = min a.toNat b.toNat ∧ (scalarOp 12 a b).toNat = max a.toNat b.toNat)

/-- R131, R132: SLD reads a word of the own core's activation or partial-sum memory into a register, visible four work cycles
later, and SST writes a register's word there, landing one work cycle later; the post-increment adds 4 to the address
register. Rests on the model's choices and readings in log entries 4, 13, 14. -/
def Obligations.WordLoadAndStore : Prop :=
  ∀ (s : State) (c : CoreId) (e : Eng) (j : Job) (m : Byte) (w : BitVec 48) (abs : Nat), Ready s c e j → NoClaims s c →
    s.inv = true →
    let x := s.head c e j
    let a := s.areg c.val e (fld w 5 4) x.t
    (aSpace a = 1 ∨ aSpace a = 2) → aOff a % 4 = 0 →
    (legalCtl 0x15 m w = true → Plain s c e j a 4 false abs → ∃ t, exec (.sld c e m w) s = .next t ∧ Followed s t c e j ∧
      t.sreg c.val e (fld w 0 5) (x.at 4) = BitVec.ofNat 32 (leNat (s.readAt c.val x.t abs 4)) ∧
      t.areg c.val e (fld w 5 4) (x.at 1) = if bitAt w 9 then a + 4 else s.areg c.val e (fld w 5 4) (x.at 1)) ∧
    (legalCtl 0x16 m w = true → Plain s c e j a 4 true abs → ∃ t, exec (.sst c e m w) s = .next t ∧ Followed s t c e j ∧
      t.readAt c.val (x.at 1 + 1) abs 4 = leBytes 4 (s.sreg c.val e (fld w 0 5) x.t).toNat ∧
      t.areg c.val e (fld w 5 4) (x.at 1) = if bitAt w 9 then a + 4 else s.areg c.val e (fld w 5 4) (x.at 1))

/-- R133, R140: NOP goes on to the next word. PAD in mode 0 makes it issue n cycles later; in mode 1, in the cycle that its
later target names, or one cycle later where the target is the PAD's own cycle; a target that has passed raises QUEUE_STALL
0x02. CALL goes to the body of a resident routine two work cycles later and keeps the following word's address; RET goes back
to it two work cycles later. Beside R140 it rests on the model's choices and readings in log entry 4. -/
def Obligations.PadAndCall : Prop :=
  (∀ (s : State) (c : CoreId) (e : Eng) (j : Job) (m : Byte) (w : BitVec 48), Ready s c e j →
      let x := s.head c e j
      let q := s.engine c.val e
      (legalCtl 0x01 m w = true → ∃ t, exec (.nop c e m w) s = .next t ∧ Followed s t c e j) ∧
      (legalCtl 0x02 m w = true → m = 0 → ∃ t, exec (.pad c e m w) s = .next t ∧
        Moved t c e (x.at (fld w 0 24)) (q.pc + 1) (foldSig q.sig q.pc)) ∧
      (legalCtl 0x02 m w = true → m = 1 → x.t < 2 ^ 32 → x.t < fld w 0 32 → ∃ t, exec (.pad c e m w) s = .next t ∧
        Moved t c e (workAfter (if fld w 0 32 / 3200 = x.t / 3200 then x.w else 0) (fld w 0 32) 0) (q.pc + 1) (foldSig q.sig q.pc)) ∧
      (legalCtl 0x02 m w = true → m = 1 → fld w 0 32 = x.t % 2 ^ 32 → ∃ t, exec (.pad c e m w) s = .next t ∧ Followed s t c e j) ∧
      (legalCtl 0x02 m w = true → m = 1 → fld w 0 32 < x.t % 2 ^ 32 → s.dyeRate = 0 →
        exec (.pad c e m w) s = .next (s.raiseEng c.val e .queueStall 0x02))) ∧
  (∀ (s : State) (c : CoreId) (e : Eng) (j : Job) (m : Byte) (w : BitVec 48), Ready s c e j →
      let x := s.head c e j
      let q := s.engine c.val e
      (legalCtl 0x05 m w = true → q.calls.length < 2 → ∀ a, s.routine (fld w 0 12) e = some a →
        ∃ t, exec (.call c e m w) s = .next t ∧ Moved t c e (x.at 2) (BitVec.ofNat 15 a) (foldSig q.sig q.pc) ∧
          (t.engine c.val e).calls = (q.pc + 1) :: q.calls) ∧
      (legalCtl 0x06 m w = true → ∀ a rest, q.calls = a :: rest →
        ∃ t, exec (.ret c e m w) s = .next t ∧ Moved t c e (x.at 2) a (foldSig q.sig q.pc) ∧
          (t.engine c.val e).calls = rest))

/-- R143 to R149: a LOOP enters its body with the count of its immediate, or of its scalar register as its queue cycle reads
it, puts its frame in front of the active loops and writes 0 to its iteration register; a count of 0 skips the body, and the
instruction after the ENDLOOP issues two cycles later. A register count above the declared maximum raises LOOP_BOUND 0x01; a
fifth level, a declared maximum of 0 and a body length out of range raise CONTROL_PARITY 0x02. An ENDLOOP starts the next
iteration and writes its number, or leaves the loop. The body of a register-counted loop has the same signature in every
iteration: an ENDLOOP whose value differs from the first iteration's raises SIGNATURE_MISMATCH 0x02. Beside R144, R145 and
R148 it rests on the model's choices and readings in log entry 4. -/
def Obligations.Loops : Prop :=
  ∀ (s : State) (c : CoreId) (e : Eng) (j : Job) (m : Byte) (w : BitVec 48), Ready s c e j →
    let x := s.head c e j
    let q := s.engine c.val e
    let sig := foldSig q.sig q.pc
    let wrong := Host.Outcome.next (s.raiseEng c.val e .controlParity 0x02)
    (legalCtl 0x03 m w = true →
      let len := fld w 24 16
      let counted := bitAt m 5
      let n := if counted then (s.sreg c.val e (fld m 0 5) x.t).toNat else fld w 0 24
      let outer := if counted then foldSig sig (q.pc + BitVec.ofNat 15 (len + 1)) else sig
      (s.dyeRate = 0 → counted = true ∧ fld w 0 24 = 0 ∨ (len < 1 ∨ 24575 < len) ∧ n ≤ fld w 0 24 →
        exec (.loop c e m w) s = wrong) ∧
      (s.dyeRate = 0 → fld w 0 24 ≠ 0 → fld w 0 24 < n → exec (.loop c e m w) s =
        .next ((s.updEngine c.val e fun q => { q with sig := outer }).raiseEng c.val e .loopBound 0x01)) ∧
      (1 ≤ len → len ≤ 24575 → (counted = true → 1 ≤ fld w 0 24) →
        (n = 0 → ∃ t, exec (.loop c e m w) s = .next t ∧ Moved t c e (x.at 2) (q.pc + BitVec.ofNat 15 (len + 2)) outer ∧
          (t.engine c.val e).loops = q.loops) ∧
        (0 < n → n ≤ fld w 0 24 →
          (s.dyeRate = 0 → 4 ≤ q.loops.length → exec (.loop c e m w) s = wrong) ∧
          (q.loops.length < 4 → ∃ t, exec (.loop c e m w) s = .next t ∧
            Moved t c e (x.at 1) (q.pc + 1) (if counted then 0xFFFFFFFF else outer) ∧
            (bitAt w 45 = true → t.sreg c.val e (fld w 40 5) (x.at 1) = 0) ∧
            ∃ f, (t.engine c.val e).loops = f :: q.loops ∧ f.start = q.pc + 1 ∧ f.len = len ∧ f.remaining = n - 1 ∧
              f.iter = 0 ∧ f.iw = (if bitAt w 45 then some (Fin.ofNat 32 (fld w 40 5)) else none) ∧ f.counted = counted ∧
              f.outer = outer ∧ f.first = none)))) ∧
    (legalCtl 0x04 m w = true →
      (s.dyeRate = 0 → fld w 0 16 < 1 ∨ 24575 < fld w 0 16 ∨ q.loops = [] → exec (.endloop c e m w) s = wrong) ∧
      ∀ f rest, q.loops = f :: rest → 1 ≤ fld w 0 16 → fld w 0 16 ≤ 24575 →
        (s.dyeRate = 0 → f.len ≠ fld w 0 16 → exec (.endloop c e m w) s = wrong) ∧
        (s.dyeRate = 0 → f.len = fld w 0 16 → f.counted = true → ∀ v, f.first = some v → v ≠ ~~~q.sig →
          exec (.endloop c e m w) s = .next (s.raiseEng c.val e .signatureMismatch 0x02)) ∧
        (f.len = fld w 0 16 → (f.counted = true → ∀ v, f.first = some v → v = ~~~q.sig) →
          (f.remaining = 0 → ∃ t, exec (.endloop c e m w) s = .next t ∧
            Moved t c e (x.at 1) (q.pc + 1) (if f.counted then f.outer else sig) ∧ (t.engine c.val e).loops = rest) ∧
          (0 < f.remaining → ∃ t, exec (.endloop c e m w) s = .next t ∧
            Moved t c e (x.at 1) f.start (if f.counted then 0xFFFFFFFF else sig) ∧
            (∀ i, f.iw = some i → t.sreg c.val e i.val (x.at 1) = BitVec.ofNat 32 (f.iter + 1)) ∧
            ∃ f', (t.engine c.val e).loops = f' :: rest ∧ f'.start = f.start ∧ f'.len = f.len ∧
              f'.remaining = f.remaining - 1 ∧ f'.iter = f.iter + 1 ∧ f'.iw = f.iw ∧ f'.counted = f.counted ∧
              f'.outer = f.outer ∧ f'.first = some (f.first.getD (~~~q.sig)))))

/-- R141, R142: a BARRIER whose signature is the predicted one stops its engine until the next kernel, or for good when it is
the final one; any other signature raises SIGNATURE_MISMATCH 0x01. Rests on the model's choices and readings in log entry 4.
-/
def Obligations.BarrierInstruction : Prop :=
  ∀ (s : State) (c : CoreId) (e : Eng) (j : Job) (m : Byte) (w : BitVec 48) (l : Loaded) (b : BarrierEntry), Ready s c e j →
    legalCtl 0x0B m w = true → (s.fn j.fn.val).exe = some l → Exe.barrierOf l.exe j.vcore (fld w 0 12) = some b →
    (b.kernel = j.kernel → b.sig[e.num]? = some (~~~(s.engine c.val e).sig) →
      ∃ t, exec (.barrier c e m w) s = .next t ∧ Followed s t c e j ∧ (t.engine c.val e).mode = .barrier (bitAt m 0)) ∧
    (∀ g, b.sig[e.num]? = some g → g ≠ ~~~(s.engine c.val e).sig → s.dyeRate = 0 →
      exec (.barrier c e m w) s = .next (s.raiseEng c.val e .signatureMismatch 0x01))

/-- R134, R135, R138, R199: a WAIT or an ACQUIRE issues in the first cycle in which the increments of earlier cycles have
brought its counter to the threshold, if that is within the stall limit, and consumes the threshold unless keep is set; an
ACQUIRE also needs its own scope and the counter's to include the origin of the latest increment, and without that raises
SCOPE_MISMATCH 0x02 or 0x01, the lower one where both fail. While no increment in sight reaches the threshold the instruction
stays at the head. A SIGNAL with nothing of its engine outstanding adds its amount in the cycle after every earlier
instruction of the engine has completed, visible from the next one, with the own core as the origin; behind open weft
operations or releases it waits with them; a RELEASE joins the engine's pending releases, at most eight of them, with its
address, scope and amount. Beside R199 it rests on the model's choices and readings in log entries 4, 16. -/
def Obligations.CounterInstructions : Prop :=
  (∀ (s : State) (c : CoreId) (e : Eng) (j : Job) (m : Byte) (w : BitVec 48) (l : Loaded), Ready s c e j →
      (s.fn j.fn.val).exe = some l →
      let x := s.head c e j
      let v := s.counter c.val (fld w 0 6)
      eccWorst s.ecc 8 (absAddr 4 c.val (8 * fld w 0 6)) 8 = none →
      (∀ first, v.reaches (fld w 6 16) x.t = some first →
        let n := workAfter (if first / 3200 = x.t / 3200 then x.w else 0) first 0
        let u := v.view n
        let d := scopeDist c.val s.moduleId u.originCore u.originModule
        n ≤ x.t + l.stall →
        (legalCtl 0x07 m w = true → ∃ t, exec (.wait c e m w) s = .next t ∧ FollowedFrom s t c e j n ∧
          t.counter c.val (fld w 0 6) = if bitAt w 22 then v else { u with count := u.count - fld w 6 16 }) ∧
        (legalCtl 0x0A m w = true → scopeIncludes u.scope d = true → scopeIncludes (scopeOf m.toNat) d = true →
          ∃ t, exec (.acquire c e m w) s = .next t ∧ FollowedFrom s t c e j n ∧
            t.counter c.val (fld w 0 6) = if bitAt w 22 then v else { u with count := u.count - fld w 6 16 }) ∧
        (legalCtl 0x0A m w = true → s.dyeRate = 0 →
          scopeIncludes u.scope d = false ∨ scopeIncludes (scopeOf m.toNat) d = false →
          let both := !scopeIncludes u.scope d && !scopeIncludes (scopeOf m.toNat) d
          let t := (if both then s.count c.val (some e.num) 0x0C n 1 1 else s).raiseEng c.val e .scopeMismatch
            (if scopeIncludes u.scope d then 0x02 else 0x01)
          exec (.acquire c e m w) s = .next t ∧ (t.engine c.val e).pc = (s.engine c.val e).pc ∧
            t.counter c.val (fld w 0 6) = v)) ∧
      (∀ first, v.reaches (fld w 6 16) x.t = some first → s.dyeRate = 0 →
        x.t + l.stall < workAfter (if first / 3200 = x.t / 3200 then x.w else 0) first 0 →
        (legalCtl 0x07 m w = true → exec (.wait c e m w) s = .next (s.raiseEng c.val e .queueStall 0x01)) ∧
        (legalCtl 0x0A m w = true → exec (.acquire c e m w) s = .next (s.raiseEng c.val e .queueStall 0x01))) ∧
      (v.reaches (fld w 6 16) x.t = none →
        (legalCtl 0x07 m w = true → ∃ t, exec (.wait c e m w) s = .next t ∧
          (t.engine c.val e).pc = (s.engine c.val e).pc ∧ (t.engine c.val e).wait ≠ none ∧ t.counter c.val (fld w 0 6) = v) ∧
        (legalCtl 0x0A m w = true → ∃ t, exec (.acquire c e m w) s = .next t ∧
          (t.engine c.val e).pc = (s.engine c.val e).pc ∧ (t.engine c.val e).wait ≠ none ∧ t.counter c.val (fld w 0 6) = v))) ∧
  (∀ (v : Counter) (th n : Nat),
      (v.reaches th n = none → ∀ k, n ≤ k → (v.view k).count < th) ∧
      (v.pend.Pairwise (fun a b => a.cyc ≤ b.cyc) → ∀ first, v.reaches th n = some first →
        n ≤ first ∧ th ≤ (v.view first).count ∧ ∀ k, n ≤ k → k < first → (v.view k).count < th)) ∧
  (∀ (s : State) (c : CoreId) (e : Eng) (j : Job) (m : Byte) (w : BitVec 48), Ready s c e j →
      let x := s.head c e j
      let q := s.engine c.val e
      (legalCtl 0x08 m w = true →
        let v := s.counter c.val (fld w 0 6)
        (q.openOps = [] → q.releases = [] → v.pend = [] → v.count + fld w 6 16 ≤ 65535 →
          ∃ t, exec (.signal c e m w) s = .next t ∧ Followed s t c e j ∧
            ∀ n, let u := (t.counter c.val (fld w 0 6)).view n
              if n ≤ x.after (max (q.doneWithin 4) q.relAt) then u.count = v.count ∧ u.scope = v.scope
              else u.count = v.count + fld w 6 16 ∧ u.scope = .core ∧ u.originCore = c.val ∧ u.originModule = s.moduleId) ∧
        (q.openOps ≠ [] ∨ q.releases ≠ [] → ∃ t, exec (.signal c e m w) s = .next t ∧ Followed s t c e j ∧
          t.counter c.val (fld w 0 6) = s.counter c.val (fld w 0 6) ∧
          ∃ r, (t.engine c.val e).releases = q.releases ++ [r] ∧ r.signal = true ∧ r.inc = fld w 6 16 ∧
            r.cover = q.openOps)) ∧
      (legalCtl 0x09 m w = true →
        let a := s.areg c.val e (fld w 0 4) x.t
        aSpace a = 4 → aOff a % 8 = 0 → aOff a < 512 → aCore a < 1728 → bitAt a 43 = false →
        (m ≠ 4 → ∃ r, s.resolve j.fn a 8 = .ok r) → (m = 4 → s.moduleId ≠ (if bitAt w 16 then
          (s.sreg c.val e (fld w 17 5) x.t).setWidth 12 else BitVec.ofNat 12 (fld w 4 12))) →
        (q.releases.filter fun r => !r.signal).length < 8 →
        ∃ t, exec (.release c e m w) s = .next t ∧ Followed s t c e j ∧
          ∃ r, (t.engine c.val e).releases = q.releases ++ [r] ∧ r.signal = false ∧ r.addr = a ∧ r.inc = fld w 22 16 ∧
            r.scope = scopeOf m.toNat ∧ (m ≠ 4 → r.module = s.moduleId)))

/-- R125: a control or register instruction with a reserved modifier, a reserved field value or a non-zero reserved field
raises CONTROL_PARITY 0x01 and has no other effect. Rests on the model's choices and readings in log entry 4. -/
def Obligations.ReservedControlEncoding : Prop :=
  ∀ (s : State) (c : CoreId) (e : Eng) (j : Job) (m : Byte) (w : BitVec 48), Ready s c e j → s.dyeRate = 0 →
    let t := s.raiseEng c.val e .controlParity 0x01
    (legalCtl 0x01 m w = false → exec (.nop c e m w) s = .next t) ∧
    (legalCtl 0x02 m w = false → exec (.pad c e m w) s = .next t) ∧
    (legalCtl 0x03 m w = false → exec (.loop c e m w) s = .next t) ∧
    (legalCtl 0x04 m w = false → exec (.endloop c e m w) s = .next t) ∧
    (legalCtl 0x05 m w = false → exec (.call c e m w) s = .next t) ∧
    (legalCtl 0x06 m w = false → exec (.ret c e m w) s = .next t) ∧
    (legalCtl 0x07 m w = false → exec (.wait c e m w) s = .next t) ∧
    (legalCtl 0x08 m w = false → exec (.signal c e m w) s = .next t) ∧
    (legalCtl 0x09 m w = false → exec (.release c e m w) s = .next t) ∧
    (legalCtl 0x0A m w = false → exec (.acquire c e m w) s = .next t) ∧
    (legalCtl 0x0B m w = false → exec (.barrier c e m w) s = .next t) ∧
    (legalCtl 0x10 m w = false → exec (.sset c e m w) s = .next t) ∧
    (legalCtl 0x11 m w = false → exec (.sop c e m w) s = .next t) ∧
    (legalCtl 0x12 m w = false → exec (.sopi c e m w) s = .next t) ∧
    (legalCtl 0x13 m w = false → exec (.aset c e m w) s = .next t) ∧
    (legalCtl 0x14 m w = false → exec (.aadd c e m w) s = .next t) ∧
    (legalCtl 0x15 m w = false → exec (.sld c e m w) s = .next t) ∧
    (legalCtl 0x16 m w = false → exec (.sst c e m w) s = .next t) ∧
    (legalCtl 0x17 m w = false → exec (.srd c e m w) s = .next t)

/-! ### Vector instructions -/

/-- R93, R94, R96: a vector instruction of two or three registers writes its lane-wise results, visible after its latency:
four cycles for the binary32 operations, two for compares, selection and integers. Rests on the model's choices and readings
in log entries 4, 13, 17, 18. -/
def Obligations.VectorLaneInstructions : Prop :=
  ∀ (s : State) (c : CoreId) (j : Job) (m : Byte) (w : BitVec 48), Ready s c .vxe j → s.inv = true →
    let x := s.head c .vxe j
    let d := fld w 0 6
    let va := s.vlanes c (fld w 6 6) x.t
    let vb := s.vlanes c (fld w 12 6) x.t
    let vc := s.vlanes c (fld w 18 6) x.t
    (zeros w 18 47 = true →
      (∃ t, exec (.vadd c w) s = .next t ∧ Followed s t c .vxe j ∧
        t.vlanes c d (x.at 4) = List.zipWith (fun a b => (f32Add a b).1) va vb) ∧
      (∃ t, exec (.vsub c w) s = .next t ∧ Followed s t c .vxe j ∧
        t.vlanes c d (x.at 4) = List.zipWith (fun a b => (f32Sub a b).1) va vb) ∧
      (∃ t, exec (.vmul c w) s = .next t ∧ Followed s t c .vxe j ∧
        t.vlanes c d (x.at 4) = List.zipWith (fun a b => (f32Mul a b).1) va vb) ∧
      (∃ t, exec (.vmin c w) s = .next t ∧ Followed s t c .vxe j ∧
        t.vlanes c d (x.at 4) = List.zipWith (fun a b => (f32Min a b).1) va vb) ∧
      (∃ t, exec (.vmax c w) s = .next t ∧ Followed s t c .vxe j ∧
        t.vlanes c d (x.at 4) = List.zipWith (fun a b => (f32Max a b).1) va vb)) ∧
    (legalEng 0x53 m w = true → ∃ t, exec (.vfma c m w) s = .next t ∧ Followed s t c .vxe j ∧
      t.vlanes c d (x.at 4) = List.zipWith (fun ab e => (f32Fma ab.1 ab.2 e).1) (List.zip va vb) vc) ∧
    (legalEng 0x54 m w = true → ∃ t, exec (.vcmp c m w) s = .next t ∧ Followed s t c .vxe j ∧
      t.vlanes c d (x.at 2) = List.zipWith (fun a b => (vcmpLane m.toNat a b).1) va vb) ∧
    (legalEng 0x55 m w = true → ∃ t, exec (.vsel c m w) s = .next t ∧ Followed s t c .vxe j ∧
      t.vlanes c d (x.at 2) = List.zipWith (fun ab e => if bitAt e 31 then ab.1 else ab.2) (List.zip va vb) vc) ∧
    (legalEng 0x56 m w = true → ∃ t, exec (.vint c m w) s = .next t ∧ Followed s t c .vxe j ∧
      t.vlanes c d (x.at 2) = List.zipWith (vintLane m.toNat) va vb)

/-- R93, R94, R97, R98: VCVT converts every lane, VFN evaluates its function in every lane once the function unit is free,
VRED writes the canonical tree over its first n lanes into lane 0 and leaves the others, VBCAST fills a register with one
lane or a scalar register, VTOS copies a lane into a scalar register. Rests on the model's choices and readings in log
entries 4, 13, 17, 18, 20. -/
def Obligations.VectorUnaryInstructions : Prop :=
  ∀ (s : State) (c : CoreId) (j : Job) (m : Byte) (w : BitVec 48), Ready s c .vxe j → s.inv = true →
    let x := s.head c .vxe j
    let d := fld w 0 6
    let va := s.vlanes c (fld w 6 6) x.t
    (legalEng 0x57 m w = true → ∃ t, exec (.vcvt c m w) s = .next t ∧ Followed s t c .vxe j ∧
      t.vlanes c d (x.at 4) = va.map fun a => (vcvtLane m.toNat a).1) ∧
    (legalEng 0x58 m w = true →
      let n := workAfter x.w (max x.t (s.engine c.val .vxe).free) 0
      ∃ t, exec (.vfn c m w) s = .next t ∧ FollowedFrom s t c .vxe j n ∧
        t.vlanes c d ((x.movedTo n).at 20) = ((s.vlanes c (fld w 6 6) n).map fun a => (funcUnit m.toNat a).1) ∧
        (t.engine c.val .vxe).free = (x.movedTo n).at 4) ∧
    (legalEng 0x59 m w = true →
      let n := if bitAt w 38 then (s.sreg c.val .vxe (fld w 39 5) x.t).toNat else fld w 32 6 + 1
      1 ≤ n → n ≤ 64 → ∃ t, exec (.vred c m w) s = .next t ∧ Followed s t c .vxe j ∧
        nth 0 (t.vlanes c d (x.at 24)) 0 = (reduceTree m.toNat (va.take n)).1 ∧
        ((AMap.get VReg.zero (s.core c.val).vregs d).pend = [] → (t.vlanes c d (x.at 24)).tail = (s.vlanes c d x.t).tail)) ∧
    (legalEng 0x5A m w = true → ∃ t, exec (.vbcast c m w) s = .next t ∧ Followed s t c .vxe j ∧
      t.vlanes c d (x.at 2) = List.replicate 64
        (if m = 0 then nth 0 va (fld w 32 6) else s.sreg c.val .vxe (fld w 39 5) x.t)) ∧
    (legalEng 0x5B m w = true → ∃ t, exec (.vtos c m w) s = .next t ∧ Followed s t c .vxe j ∧
      t.sreg c.val .vxe (fld w 39 5) (x.at 2) = nth 0 va (fld w 32 6))

/-- R95: VLD reads 64 words, 64 BF16 values widened to binary32, or one word from each of 64 rows, visible four cycles later;
VST writes them, landing one cycle later. Rests on the model's choices and readings in log entries 4, 13, 14. -/
def Obligations.VectorLoadAndStore : Prop :=
  ∀ (s : State) (c : CoreId) (j : Job) (m : Byte) (w : BitVec 48), Ready s c .vxe j → NoClaims s c → s.inv = true →
    let x := s.head c .vxe j
    let a := s.areg c.val .vxe (fld w 24 4) x.t
    let v := s.vlanes c (fld w 0 6) x.t
    (bitAt w 29 = false → (aSpace a = 1 ∨ aSpace a = 2) → aOff a % 256 = 0 →
      (bitAt w 30 = false → ∀ abs,
        (legalEng 0x50 m w = true → Plain s c .vxe j a 256 false abs → ∃ t, exec (.vld c m w) s = .next t ∧
          Followed s t c .vxe j ∧ t.vlanes c (fld w 0 6) (x.at 4) = words32 (s.readAt c.val x.t abs 256)) ∧
        (legalEng 0x51 m w = true → v.length = 64 → Plain s c .vxe j a 256 true abs → ∃ t, exec (.vst c m w) s = .next t ∧
          Followed s t c .vxe j ∧ t.readAt c.val (x.at 1 + 1) abs 256 = bytes32 v)) ∧
      (bitAt w 30 = true → ∀ abs,
        let a := addA a (if bitAt w 31 then 128 else 0)
        (legalEng 0x50 m w = true → Plain s c .vxe j a 128 false abs → ∃ t, exec (.vld c m w) s = .next t ∧
          Followed s t c .vxe j ∧ t.vlanes c (fld w 0 6) (x.at 4) =
            (chunks 2 64 (s.readAt c.val x.t abs 128)).map fun b => BitVec.ofNat 32 (leNat b * 2 ^ 16)) ∧
        (legalEng 0x51 m w = true → v.length = 64 → Plain s c .vxe j a 128 true abs → ∃ t, exec (.vst c m w) s = .next t ∧
          Followed s t c .vxe j ∧ t.readAt c.val (x.at 1 + 1) abs 128 = v.flatMap fun l => leBytes 2 (toBf16 l).1))) ∧
    (bitAt w 29 = true → aSpace a = 1 → aOff a % 4 = 0 → ∀ abs : Nat → Nat,
      (legalEng 0x50 m w = true → (∀ r < 64, Plain s c .vxe j (a + BitVec.ofNat 48 (256 * r)) 4 false (abs r)) →
        ∃ t, exec (.vld c m w) s = .next t ∧ Followed s t c .vxe j ∧
          t.vlanes c (fld w 0 6) (x.at 4) = (List.range 64).map fun r => BitVec.ofNat 32 (leNat (s.readAt c.val x.t (abs r) 4))) ∧
      (legalEng 0x51 m w = true → v.length = 64 →
        (∀ r < 64, Plain s c .vxe j (a + BitVec.ofNat 48 (256 * r)) 4 true (abs r)) →
        ∃ t, exec (.vst c m w) s = .next t ∧ Followed s t c .vxe j ∧
          ∀ r < 64, t.readAt c.val (x.at 1 + 1) (abs r) 4 = leBytes 4 (nth 0 v r).toNat))

/-! ### Matrix instructions -/

/-- R69, R70, R73, R82: MCFG and MDCFG take their configuration from their fields and registers; MCLR closes the open
accumulators of its mask, or PSM rows, and nothing else of the engine's. Rests on the model's choices and readings in log
entry 4. -/
def Obligations.MatrixConfiguration : Prop :=
  ∀ (s : State) (c : CoreId) (j : Job) (m : Byte) (w : BitVec 48), Ready s c .mxe j → (s.core c.val).mx.vecs = [] →
    let x := s.head c .mxe j
    let mx := (s.core c.val).mx
    let n := s.pathCycle c j (s.engine c.val .mxe).free
    (legalEng 0x40 m w = true → s.fuses.grade = .f → mx.accOpen = [] → mx.rowOpen = [] →
      ∃ t, exec (.mcfg c m w) s = .next t ∧ Followed s t c .mxe j ∧ (t.core c.val).mx.cfg =
        { fw := fld w 0 4, fa := fld w 4 4, sw := bitAt w 8, sa := bitAt w 9, width := fld w 10 2, psm := bitAt w 12,
          q := sext 10 (if bitAt w 23 then (s.sreg c.val .mxe (fld w 24 5) x.t).toNat else fld w 13 10) }) ∧
    (legalEng 0x41 m w = true →
      ∃ t, exec (.mdcfg c m w) s = .next t ∧ Followed s t c .mxe j ∧
        let d := (t.core c.val).mx.dcfg
        d.fmt = fld w 0 4 ∧ d.rnd = fld w 4 1 ∧ d.ovf = fld w 5 2 ∧
        d.shift = sext 8 (if bitAt w 15 then (s.sreg c.val .mxe (fld w 16 5) x.t).toNat else fld w 7 8) ∧
        d.seed.toNat = (s.sreg c.val .mxe (fld w 21 5) x.t).toNat + (s.sreg c.val .mxe (fld w 21 5 + 1) x.t).toNat * 2 ^ 32 ∧
        d.idx.toNat = (s.sreg c.val .mxe (fld w 26 5) x.t).toNat + (s.sreg c.val .mxe (fld w 26 5 + 1) x.t).toNat * 2 ^ 32 ∧
        d.stok = s.sreg c.val .mxe (fld w 31 5) x.t ∧ d.sdpu = s.sreg c.val .mxe (fld w 36 5) x.t) ∧
    (legalEng 0x47 m w = true → mx.cfg.psm = false → (∀ a ∈ setBits 4 m.toNat, a ∈ mx.accOpen) →
      ∃ t, exec (.mclr c m w) s = .next t ∧ FollowedFrom s t c .mxe j n ∧
        (t.core c.val).mx = { mx with accOpen := mx.accOpen.filter fun a => !(setBits 4 m.toNat).contains a }) ∧
    (∀ rows, legalEng 0x47 m w = true → mx.cfg.psm = true →
      PsmRows s c j (s.areg c.val .mxe (fld w 0 4) n) (fld w 4 8 + 1) rows → (∀ r ∈ rows, r ∈ mx.rowOpen) →
      ∃ t, exec (.mclr c m w) s = .next t ∧ FollowedFrom s t c .mxe j n ∧
        (t.core c.val).mx = { mx with rowOpen := mx.rowOpen.filter fun r => !rows.contains r })

/-- R64, R79, R164: MLW fills a latch entry with the entry image and the side image at its two addresses, which lie within
one slice row each and in different layers; a vector issued six cycles later meets them. Rests on the model's choices and
readings in log entries 4, 27, 29. -/
def Obligations.LatchFill : Prop :=
  ∀ (s : State) (c : CoreId) (j : Job) (m : Byte) (w : BitVec 48) (a b : Nat), Ready s c .mxe j → NoClaims s c →
    legalEng 0x42 m w = true →
    let x := s.head c .mxe j
    let cfg := (s.core c.val).mx.cfg
    let aw := s.areg c.val .mxe (fld w 0 4) x.t
    let ac := s.areg c.val .mxe (fld w 4 4) x.t
    let n1 := cfg.n * rowBytesOf cfg.fw
    let n2 := cfg.sideBytes
    aSpace aw = 0 → aSpace ac = 0 → aOff aw % 64 = 0 → aOff ac % 64 = 0 →
    Plain s c .mxe j aw n1 false a → Plain s c .mxe j ac n2 false b →
    a % 2 ^ 32 / 2048 = (a % 2 ^ 32 + n1 - 1) / 2048 → b % 2 ^ 32 / 2048 = (b % 2 ^ 32 + n2 - 1) / 2048 →
    a % 2 ^ 32 / 2048 % 3 ≠ b % 2 ^ 32 / 2048 % 3 →
    ∃ t, exec (.mlw c m w) s = .next t ∧ Followed s t c .mxe j ∧
      let l := (t.core c.val).mx.entry (fld m 0 2) (x.at 6)
      l.elems = s.readAt c.val x.t a n1 ∧ l.side = s.readAt c.val x.t b n2 ∧ l.rows = cfg.n ∧
      l.rowBytes = rowBytesOf cfg.fw ∧ l.checks = cfg.depth ∧ l.codes = (if cfg.sw then cfg.blocks else 0) ∧
      (bitAt w 8 = true → t.areg c.val .mxe (fld w 0 4) (x.at 1) = aw + BitVec.ofNat 48 n1)

/-- R70 to R74, R78, R80: MMUL of T vectors reads them one per cycle and opens or continues accumulators first to first + T −
1: each DPU whose row, scales and activations are numbers adds the products of its blocks, unless a check of the accumulation
raises a fault. In PSM mode it opens or continues T rows. Rests on the model's choices and readings in log entries 4, 29,
126. -/
def Obligations.MatrixMultiply : Prop :=
  ∀ (s : State) (c : CoreId) (j : Job) (m : Byte) (w : BitVec 48), Ready s c .mxe j → NoClaims s c →
    (s.core c.val).mx.vecs = [] → legalEng 0x43 m w = true → s.bobs j = [] →
    let x := s.head c .mxe j
    let mx := (s.core c.val).mx
    let cfg := mx.cfg
    let n := s.pathCycle c j (max (s.engine c.val .mxe).free mx.stall)
    let y := x.movedTo n
    let k := m.toNat + 1
    let vb := rowBytesOf cfg.fa
    let va := fun r : Nat => addA (s.areg c.val .mxe (fld w 5 4) n) ((s.sreg c.val .mxe (fld w 9 5) n).toInt * (r : Int))
    let sc := s.areg c.val .mxe (fld w 14 4) n
    ∀ abs sabs : Nat → Nat,
    (∀ r < k, aSpace (va r) = 1 ∧ aOff (va r) % 64 = 0 ∧ Plain s c .mxe j (va r) vb false (abs r)) →
    (cfg.sa = true → aSpace sc = 1 ∧ aOff sc % 4 = 0 ∧ (∃ p, Plain s c .mxe j sc (4 * k) false p) ∧
      ∀ r < k, Plain s c .mxe j (sc + BitVec.ofNat 48 (4 * r)) 4 false (sabs r)) →
    (cfg.psm = false → fld w 2 2 + k ≤ 4 → (bitAt w 4 = false → ∀ r < k, fld w 2 2 + r ∈ mx.accOpen) →
      ∃ t, exec (.mmul c m w) s = .next t ∧ FollowedFrom s t c .mxe j n ∧ (t.engine c.val .mxe).free = y.at k ∧
        (∀ a, a ∈ (t.core c.val).mx.accOpen ↔ a ∈ mx.accOpen ∨ (fld w 2 2 ≤ a ∧ a < fld w 2 2 + k)) ∧
        ∀ r < k, ∀ d < cfg.n, ∀ v : MVec, v.cfg = cfg → v.elems = s.readAt c.val (y.at r) (abs r) vb →
          (cfg.sa = true → v.scale = leNat (s.readAt c.val (y.at r) (sabs r) 4)) →
          let l := mx.entry (fld w 0 2) (y.at r)
          let codes := (List.range cfg.blocks).map fun b => if cfg.sw then l.code d b else 127
          let old := if bitAt w 4 then Acc.zero else AMap.get Acc.zero mx.acc (accKey d (fld w 2 2 + r))
          ∀ act row, operand cfg.fa v.elems = some act → operand cfg.fw (l.row d (rowBytesOf cfg.fw)) = some row →
          255 ∉ codes → (∀ e ∈ v.scales, e ≠ 128) →
          let blocks := (List.zip row (List.zip act ((List.zip codes v.scales).map fun p => (p.1 : Int) - 127 + p.2))).map
            fun p => mkBlock p.1 p.2.1 p.2.2
          (old.takeAll cfg.lsum blocks).2 = [] →
          AMap.get Acc.zero (t.core c.val).mx.acc (accKey d (fld w 2 2 + r)) = (old.takeAll cfg.lsum blocks).1) ∧
    (∀ rows, cfg.psm = true → 8 ≤ k → PsmRows s c j (s.areg c.val .mxe (fld w 18 4) n) k rows →
      (bitAt w 4 = false → ∀ r ∈ rows, r ∈ mx.rowOpen) →
      ∃ t, exec (.mmul c m w) s = .next t ∧ FollowedFrom s t c .mxe j n ∧ (t.engine c.val .mxe).free = y.at k ∧
        ∀ r, r ∈ (t.core c.val).mx.rowOpen ↔ r ∈ mx.rowOpen ∨ r ∈ rows)

/-- R35 to R37: the long accumulator is exact: a block that raises no fault adds its sum at its exponent to the value, and
every block counts 32 terms, of which one beyond 2^24 raises ACCUM_RANGE 0x01. R36: a block with a product that is not
zero takes its exponent into Emin and Emax and raises SCALE_SPAN 0x01 if Emax − Emin would exceed 63; a block of zero
products leaves them. Whether the blocks of a reduction violate the span does not depend on their order. -/
def Obligations.ExactAccumulation : Prop :=
  (∀ (l : Int) (a : Acc) (b : Block),
    let r := a.take l b
    let span := (Cause.scaleSpan, (0x01 : Byte)) ∈ r.2
    let lo := match a.emin with
      | some v => min v b.e
      | none => b.e
    let hi := match a.emax with
      | some v => max v b.e
      | none => b.e
    (r.2 = [] → (r.1.num : Rat) * (2 : Rat) ^ r.1.exp =
      (a.num : Rat) * (2 : Rat) ^ a.exp + (if b.live then (b.sum : Rat) * (2 : Rat) ^ (b.e + l) else 0)) ∧
    r.1.terms = a.terms + 32 ∧ ((Cause.accumRange, (0x01 : Byte)) ∈ r.2 ↔ 2 ^ 24 < a.terms + 32) ∧
    (b.live = true → r.1.emin = some lo ∧ r.1.emax = some hi ∧ (span ↔ 63 < hi - lo)) ∧
    (b.live = false → r.1.emin = a.emin ∧ r.1.emax = a.emax ∧ r.1.num = a.num ∧ r.1.exp = a.exp ∧ ¬span)) ∧
  (∀ (wt act : List Int × Option Int) (gw ga scale : Int), wt.2 = some gw → act.2 = some ga →
    ((mkBlock wt act scale).live = true ↔ ∃ p ∈ List.zipWith (· * ·) wt.1 act.1, p ≠ 0)) ∧
  ∀ (l : Int) (a : Acc) (bs bs' : List Block), bs.Perm bs' →
    ((Cause.scaleSpan, (0x01 : Byte)) ∈ (a.takeAll l bs).2 ↔ (Cause.scaleSpan, (0x01 : Byte)) ∈ (a.takeAll l bs').2)

/-- R40, R42, R75, R76: MLDL loads the accumulators of its mask with the long values of consecutive PSM rows at its anchor;
MDRN closes its reductions and writes each DPU's value, rounded once; MDRNL closes them and writes long values, or in PSM
mode only closes its rows. Rests on the model's choices and readings in log entries 4, 29, 127. -/
def Obligations.MatrixLoadAndDrain : Prop :=
  ∀ (s : State) (c : CoreId) (j : Job) (m : Byte) (w : BitVec 48), Ready s c .mxe j → NoClaims s c → NoWrites s →
    (s.core c.val).mx.vecs = [] → s.bobs j = [] →
    let x := s.head c .mxe j
    let mx := (s.core c.val).mx
    let cfg := mx.cfg
    let d := mx.dcfg
    let n := s.pathCycle c j (s.engine c.val .mxe).free
    let y := x.movedTo n
    let accs := setBits 4 m.toNat
    let q := sext 10 (if bitAt w 14 then (s.sreg c.val .mxe (fld w 15 5) n).toNat else fld w 4 10)
    let width := fmtBits d.fmt / 8
    let dst := fun r : Nat => addA (s.areg c.val .mxe (fld w 0 4) n) ((s.sreg c.val .mxe (fld w 4 5) n).toInt * (r : Int))
    let rounded := fun (r e : Nat) (num exp : Int) =>
      (roundExact d.fmt (if d.rnd = 1 then .stoch (srand d.seed
        (d.idx + BitVec.ofInt 64 (d.stok.toInt * (r : Int) + d.sdpu.toInt * (e : Int)))) else .rne) d.ovf num (exp + d.shift)).bits
    (∀ (rows : List Nat) (abs : Nat → Nat → Nat), legalEng 0x44 m w = true → cfg.psm = false →
      PsmRows s c j (s.areg c.val .mxe (fld w 0 4) n) accs.length rows →
      (∀ i < accs.length, ∀ e < cfg.n, Plain s c .mxe j (rowAddr c.val (nth 0 rows i) e) 32 false (abs i e)) →
      ∃ t, exec (.mldl c m w) s = .next t ∧ FollowedFrom s t c .mxe j n ∧
        (∀ a, a ∈ (t.core c.val).mx.accOpen ↔ a ∈ mx.accOpen ∨ a ∈ accs) ∧
        ∀ i < accs.length, ∀ e < cfg.n,
          let a := AMap.get Acc.zero (t.core c.val).mx.acc (accKey e (nth 0 accs i))
          a.num = sext 192 (leNat ((s.readAt c.val (y.at (e + i)) (abs i e) 32).take 24)) ∧ a.exp = q ∧ a.terms = 0 ∧
            a.loaded = some q) ∧
    (∀ abs : Nat → Nat, legalEng 0x45 m w = true → cfg.psm = false → (∀ a ∈ accs, a ∈ mx.accOpen) →
      (∀ r ∈ accs, (aSpace (dst r) = 1 ∨ aSpace (dst r) = 2) ∧ Plain s c .mxe j (dst r) (cfg.n * width) true (abs r)) →
      (∀ r ∈ accs, ∀ r' ∈ accs, r ≠ r' → abs r + cfg.n * width ≤ abs r' ∨ abs r' + cfg.n * width ≤ abs r) →
      ∃ t, exec (.mdrn c m w) s = .next t ∧ FollowedFrom s t c .mxe j n ∧
        (∀ a, a ∈ (t.core c.val).mx.accOpen ↔ a ∈ mx.accOpen ∧ a ∉ accs) ∧
        ∀ i < accs.length, t.readAt c.val (y.at (9 + cfg.n + i) + 1) (abs (nth 0 accs i)) (cfg.n * width) =
          (List.range cfg.n).flatMap fun e =>
            let a := AMap.get Acc.zero mx.acc (accKey e (nth 0 accs i))
            leBytes width (rounded (nth 0 accs i) e a.num a.exp)) ∧
    (∀ (rows : List Nat) (src : Nat → Nat → Nat) (abs : Nat → Nat), legalEng 0x45 m w = true → cfg.psm = true →
      PsmRows s c j (s.areg c.val .mxe (fld w 9 4) n) (fld w 13 8 + 1) rows → (∀ r ∈ rows, r ∈ mx.rowOpen) →
      (∀ i < rows.length, ∀ e < cfg.n, Plain s c .mxe j (rowAddr c.val (nth 0 rows i) e) 32 false (src i e)) →
      (∀ i < rows.length, (aSpace (dst i) = 1 ∨ aSpace (dst i) = 2) ∧ Plain s c .mxe j (dst i) (cfg.n * width) true (abs i)) →
      (∀ i < rows.length, ∀ i' < rows.length, i ≠ i' → abs i + cfg.n * width ≤ abs i' ∨ abs i' + cfg.n * width ≤ abs i) →
      (∀ i < rows.length, ∀ e < cfg.n, ∀ i' < rows.length, src i e + 32 ≤ abs i' ∨ abs i' + cfg.n * width ≤ src i e) →
      ∃ t, exec (.mdrn c m w) s = .next t ∧ FollowedFrom s t c .mxe j n ∧
        (∀ r, r ∈ (t.core c.val).mx.rowOpen ↔ r ∈ mx.rowOpen ∧ r ∉ rows) ∧
        ∀ i < rows.length, t.readAt c.val (y.at (9 + cfg.n + i) + 1) (abs i) (cfg.n * width) =
          (List.range cfg.n).flatMap fun e =>
            leBytes width (rounded i e (sext 192 (leNat ((s.readAt c.val (y.at (3 + e + i)) (src i e) 32).take 24))) cfg.q)) ∧
    (∀ (out : List Nat) (abs : Nat → Nat) (val : Nat → Nat → Int), legalEng 0x46 m w = true → cfg.psm = false →
      PsmRows s c j (s.areg c.val .mxe (fld w 0 4) n) accs.length out → (∀ a ∈ accs, a ∈ mx.accOpen) →
      (∀ i < accs.length, ∀ e < cfg.n,
        longOf cfg.lsum q (AMap.get Acc.zero mx.acc (accKey e (nth 0 accs i))) = some (val i e)) →
      (∀ i < accs.length, Plain s c .mxe j (rowAddr c.val (nth 0 out i) 0) (32 * cfg.n) true (abs i)) →
      ∃ t, exec (.mdrnl c m w) s = .next t ∧ FollowedFrom s t c .mxe j n ∧
        (∀ a, a ∈ (t.core c.val).mx.accOpen ↔ a ∈ mx.accOpen ∧ a ∉ accs) ∧
        ∀ i < accs.length, t.readAt c.val (y.at (9 + cfg.n + i) + 1) (abs i) (32 * cfg.n) =
          (List.range cfg.n).flatMap fun e =>
            longWord (val i e) (AMap.get Acc.zero mx.acc (accKey e (nth 0 accs i))).terms) ∧
    (∀ rows : List Nat, legalEng 0x46 m w = true → cfg.psm = true →
      PsmRows s c j (s.areg c.val .mxe (fld w 20 4) n) (fld w 24 8 + 1) rows → (∀ r ∈ rows, r ∈ mx.rowOpen) →
      (∀ r ∈ rows, ∀ e < cfg.n, ∃ p, Plain s c .mxe j (rowAddr c.val r e) 32 false p) →
      ∃ t, exec (.mdrnl c m w) s = .next t ∧ FollowedFrom s t c .mxe j n ∧
        ∀ r, r ∈ (t.core c.val).mx.rowOpen ↔ r ∈ mx.rowOpen ∧ r ∉ rows)

/-! ### Move instructions -/

/-- R100 to R103: TCPY within a core copies its rows, each read in c + i and landing five cycles later; TTILE copies the rows
of a tile or transposes its words, and its modes BT8 and BT16 shuffle the words of each transposed row as well; TSHUF
shuffles every row. Rests on the model's choices and readings in log entries 4, 14. -/
def Obligations.LocalMoves : Prop :=
  ∀ (s : State) (c : CoreId) (j : Job) (m : Byte) (w : BitVec 48) (src dst : Nat → Nat), Ready s c .txe j → NoClaims s c →
    NoWrites s → s.ecc = [] → s.bobs j = [] →
    let x := s.head c .txe j
    let a := s.areg c.val .txe (fld w 0 4) x.t
    let b := s.areg c.val .txe (fld w 4 4) x.t
    let rows := fld w 8 8 + 1
    let ps := s.sreg c.val .txe (fld w 22 5) x.t
    let pd := s.sreg c.val .txe (fld w 27 5) x.t
    let h := fld w 8 6 + 1
    let v := fld w 14 6 + 1
    let tileSrc := fun r : Nat => addA a (ps.toInt * (r : Int))
    let tileDst := fun r : Nat => addA b (pd.toInt * (r : Int))
    (aOff a % 256 = 0 → aOff b % 256 = 0 → (aSpace a = 1 ∨ aSpace a = 2) → (aSpace b = 1 ∨ aSpace b = 2) →
      (∃ p, Plain s c .txe j a (256 * rows) false p) → (∃ p, Plain s c .txe j b (256 * rows) true p) →
      (∀ i < rows, Plain s c .txe j (plus a (256 * i)) 256 false (src i) ∧ Plain s c .txe j (plus b (256 * i)) 256 true (dst i)) →
      (∀ i < rows, ∀ r < rows, src i + 256 ≤ dst r ∨ dst r + 256 ≤ src i) →
      (legalEng 0x60 m w = true → ∃ t, exec (.tcpy c m w) s = .next t ∧ Followed s t c .txe j ∧
        ∀ i < rows, t.readAt c.val (x.at (i + 5) + 1) (dst i) 256 = s.readAt c.val (x.at i) (src i) 256) ∧
      (legalEng 0x62 m w = true → ∃ t, exec (.tshuf c m w) s = .next t ∧ Followed s t c .txe j ∧
        ∀ i < rows, t.readAt c.val (x.at (i + 5) + 1) (dst i) 256 =
          if bitAt w 16 then (chunks 8 32 (s.readAt c.val (x.at i) (src i) 256)).flatMap shuffle16
          else (chunks 16 16 (s.readAt c.val (x.at i) (src i) 256)).flatMap shuffle8)) ∧
    (legalEng 0x61 m w = true → aOff a % 256 = 0 → aOff b % 256 = 0 → ps.toNat % 256 = 0 → pd.toNat % 256 = 0 →
      (fld w 20 2 = 0 → (aSpace a = 1 ∨ aSpace a = 2) → (aSpace b = 1 ∨ aSpace b = 2) →
        (∀ r < h, Plain s c .txe j (tileSrc r) (4 * v) false (src r) ∧ Plain s c .txe j (tileDst r) (4 * v) true (dst r)) →
        (∀ r < h, ∀ r' < h, src r + 4 * v ≤ dst r' ∨ dst r' + 4 * v ≤ src r) →
        (∀ r < h, ∀ r' < h, r ≠ r' → dst r + 4 * v ≤ dst r' ∨ dst r' + 4 * v ≤ dst r) →
        ∃ t, exec (.ttile c m w) s = .next t ∧ Followed s t c .txe j ∧
          ∀ r < h, t.readAt c.val (x.at (r + 6) + 1) (dst r) (4 * v) = s.readAt c.val (x.at r) (src r) (4 * v)) ∧
      (fld w 20 2 ≠ 0 → (2 ≤ fld w 20 2 → h = 64 ∧ v = 64) → aSpace a = 1 → (aSpace b = 1 ∨ aSpace b = 2) →
        (∀ r < h, Plain s c .txe j (tileSrc r) (4 * v) false (src r)) →
        (∀ r < h, ∀ i < v, Plain s c .txe j (plus (tileSrc r) (4 * i)) 4 false (src r + 4 * i)) →
        (∀ i < v, Plain s c .txe j (tileDst i) (4 * h) true (dst i)) →
        (∀ r < h, ∀ i < v, src r + 4 * v ≤ dst i ∨ dst i + 4 * h ≤ src r) →
        (∀ i < v, ∀ i' < v, i ≠ i' → dst i + 4 * h ≤ dst i' ∨ dst i' + 4 * h ≤ dst i) →
        ∃ t, exec (.ttile c m w) s = .next t ∧ Followed s t c .txe j ∧
          ∀ i < v,
            let column := (List.range h).flatMap fun r => s.readAt c.val (x.at i) (src r + 4 * i) 4
            t.readAt c.val (x.at (i + 6) + 1) (dst i) (4 * h) =
              if fld w 20 2 = 2 then
                (List.range 4).flatMap fun u => ((chunks 16 16 column).map shuffle8).flatMap fun g => (g.drop (4 * u)).take 4
              else if fld w 20 2 = 3 then
                (List.range 2).flatMap fun u => ((chunks 8 32 column).map shuffle16).flatMap fun g => (g.drop (4 * u)).take 4
              else column))

/-- R49, R50, R103: TCVT converts every element of its rows, and TQNT every element with the scale of its block of 32, whose
codes it writes to the scale words; neither writes a row that holds a value with no encoding. Rests on the model's choices
and readings in log entries 4, 14, 28, 125, 127. -/
def Obligations.ConvertingMoves : Prop :=
  ∀ (s : State) (c : CoreId) (j : Job) (m : Byte) (w : BitVec 48) (src dst scl : Nat → Nat), Ready s c .txe j →
    NoClaims s c → NoWrites s → s.ecc = [] → s.bobs j = [] → s.fuses.grade = .f →
    let x := s.head c .txe j
    let a := s.areg c.val .txe (fld w 0 4) x.t
    let b := s.areg c.val .txe (fld w 4 4) x.t
    let z := s.areg c.val .txe (fld w 34 4) x.t
    let rows := fld w 8 8 + 1
    let fs := fld w 16 4
    let fd := fld w 20 4
    let reg := fun i : Nat => (s.sreg c.val .txe (fld w 24 5 + i) x.t).toNat
    let seed : W64 := BitVec.ofNat 64 (reg 0 + reg 1 * 2 ^ 32)
    let base : W64 := BitVec.ofNat 64 (reg 2 + reg 3 * 2 ^ 32)
    (legalEng 0x63 m w = true →
      let elems := if fs = 9 then 8 else if fmtBits fs = 6 then 256 else 2048 / fmtBits fs
      let size := if fmtBits fd = 6 then 64 * ceilDiv elems 64 else elems * fmtBits fd / 8
      let pace := max 1 (size / 256)
      let q := sext 10 (s.sreg c.val .txe (fld w 29 5) x.t).toNat
      let row := fun i : Nat => s.readAt c.val (x.at (pace * i)) (src i) 256
      let vals := fun i : Nat => if fs = 9 then (chunks 32 8 (row i)).map fun g => leNat (g.take 24) else rowElems fs (row i)
      let out := fun i : Nat => (vals i).zipIdx.map fun v =>
        cvtElem fs fd q m seed (base + BitVec.ofNat 64 (i * elems + v.2)) v.1
      (if fs = 9 then aSpace a = 2 else aSpace a = 1 ∨ aSpace a = 2) → (aSpace b = 1 ∨ aSpace b = 2) → aOff a % 256 = 0 →
      aOff b % 64 = 0 →
      (∀ i < rows, Plain s c .txe j (plus a (256 * i)) 256 false (src i)) → aCore b = c.val →
      (∀ i < rows, ∀ p < pace, Plain s c .txe j (plus b (size * i + 256 * p)) (min 256 size) true (dst i + 256 * p)) →
      (∀ i < rows, ∀ r < rows, src i + 256 ≤ dst r ∨ dst r + size ≤ src i) →
      (∀ i < rows, ∀ r < rows, i ≠ r → dst i + size ≤ dst r ∨ dst r + size ≤ dst i) →
      (∀ i < rows, ∀ v ∈ out i, v.isSome = true) →
      ∃ t, exec (.tcvt c m w) s = .next t ∧ Followed s t c .txe j ∧
        ∀ i < rows, t.readNow c.val (dst i) size = outBytes fd ((out i).filterMap fun r => r.map Rounded.bits)) ∧
    (legalEng 0x64 m w = true →
      let elems := if fs = 8 then 64 else 128
      let size := if fmtBits fd = 6 then elems else elems * fmtBits fd / 8
      let per := if fmtClass fd = 128 then 128 else 64
      let vectors := rows * elems / per
      let explicit := if bitAt w 38 then some (s.sreg c.val .txe (fld w 39 5) x.t) else none
      let nums := fun i : Nat => (rowElems fs (s.readAt c.val (x.at i) (src i) 256)).map (decodeElem fs)
      let codes := fun i : Nat => (chunks 32 4 (nums i)).map (blockScale fd explicit)
      let out := fun i : Nat => (List.zip (codes i) (chunks 32 4 (nums i))).zipIdx.flatMap fun cb => cb.1.2.zipIdx.map fun v =>
        convertTo fd (moveRnd m seed (base + BitVec.ofNat 64 (i * elems + 32 * cb.2 + v.2))) (fld m 1 2) (scaled cb.1.1 v.1)
      ((aSpace a = 1 ∨ aSpace a = 2) ∧ (aSpace b = 1 ∨ aSpace b = 2) ∧ aSpace z = 1 ∧ aOff a % 256 = 0 ∧ aOff b % 64 = 0 ∧
        aOff z % 4 = 0) → (fmtClass fd = 128 → fs = 8 → rows % 2 = 0) →
      (∀ i < rows, Plain s c .txe j (plus a (256 * i)) 256 false (src i) ∧ Plain s c .txe j (plus b (size * i)) size true (dst i)) →
      (∀ v < vectors, Plain s c .txe j (plus z (4 * v)) 4 true (scl v)) →
      (∀ i < rows, ∀ r < rows, src i + 256 ≤ dst r ∨ dst r + size ≤ src i) →
      (∀ i < rows, ∀ r < rows, i ≠ r → dst i + size ≤ dst r ∨ dst r + size ≤ dst i) →
      (∀ i < rows, ∀ v < vectors, dst i + size ≤ scl v ∨ scl v + 4 ≤ dst i) →
      (∀ v < vectors, ∀ u < vectors, v ≠ u → scl v + 4 ≤ scl u ∨ scl u + 4 ≤ scl v) →
      (∀ i < rows, (∀ v ∈ nums i, v ≠ .nan) ∧ ∀ v ∈ out i, v.isSome = true) →
      ∃ t, exec (.tqnt c m w) s = .next t ∧ Followed s t c .txe j ∧
        (∀ i < rows, t.readNow c.val (dst i) size = outBytes fd ((out i).filterMap fun r => r.map Rounded.bits)) ∧
        ∀ v < vectors, t.readNow c.val (scl v) (per / 32) =
          ((((List.range rows).flatMap codes).drop (per / 32 * v)).take (per / 32)).map fun k => BitVec.ofNat 8 k)

/-- R104 to R106, R231, R232, R235: TNBR brings pairs of rows to the neighbour's memory; a warp TCPY and a TMRD send each row
as four flits, which wait at their destinations for their delivery cycles; a weft TCPY stages its writes, which leave from the
fifth cycle on, under one open operation, or waits while it finds no room. Rests on the model's choices and readings in log entries 4,
31, 124. -/
def Obligations.MeshMoves : Prop :=
  ∀ (s : State) (c : CoreId) (j : Job) (m : Byte) (w : BitVec 48) (src : Nat → Nat), Ready s c .txe j → NoClaims s c →
    NoWrites s → s.ecc = [] → s.bobs j = [] → s.scheduled = true → (∀ r, s.serving r = true) →
    s.warpInFlight = [] → (s.core c.val).merge = [] → (s.engine c.val .txe).wait = none →
    let x := s.head c .txe j
    let a := s.areg c.val .txe (fld w 0 4) x.t
    let b := s.areg c.val .txe (fld w 4 4) x.t
    let rows := fld w 8 8 + 1
    aOff a % 256 = 0 → aOff b % 256 = 0 → (∃ p, Plain s c .txe j a (256 * rows) false p) →
    (∀ i < rows, Plain s c .txe j (plus a (256 * i)) 256 false (src i)) →
    (legalEng 0x65 m w = true → aSpace a = 1 → aSpace b = 1 → rows % 2 = 0 → aOff a / 256 % 2 = 0 → aOff b / 256 % 2 = 0 →
      x.t % 2 = 0 → ∀ n : CoreId, neighbour c.val (fld w 18 2) = some n.val → NoClaims s n →
      (∀ k, (s.core n.val).job = some k → s.bobs k = []) → ∀ dst : Nat → Nat,
      (∃ r, s.resolve j.fn (BitVec.ofNat 48 (absAddr 1 n.val (aOff b))) (256 * rows) = .ok r) →
      (∀ i < rows / 2, Plain s c .txe j (plus a (512 * i)) 512 false (src (2 * i)) ∧
        s.resolve j.fn (BitVec.ofNat 48 (absAddr 1 n.val (aOff b + 512 * i))) 512 = .ok (n.val, dst i)) →
      ∃ t, exec (.tnbr c m w) s = .next t ∧ Followed s t c .txe j ∧
        ∀ i < rows / 2, t.readAt n.val (x.at (2 * i + 6) + 1) (dst i) 512 = s.readAt c.val (x.at (2 * i)) (src (2 * i)) 512) ∧
    (legalEng 0x60 m w = true → bitAt w 16 = false → (aSpace a = 1 ∨ aSpace a = 2) → (aSpace b = 1 ∨ aSpace b = 2) →
      aCore b ≠ c.val → (s.core c.val).staged = [] → (∃ r, s.resolve j.fn b (256 * rows) = .ok r) →
      ∃ t, exec (.tcpy c m w) s = .next t ∧ Followed s t c .txe j ∧
        ∀ i < rows, ∀ q < 4, ∃ f ∈ (t.core (aCore b)).hold, f.addr = plus b (256 * i + 64 * q) ∧
          f.data = ((s.readAt c.val (x.at i) (src i) 256).drop (64 * q)).take 64 ∧ f.inj = x.at (5 + 4 * i + q) ∧
          f.due = x.at (29 + 4 * i + q + 16 * dieSteps c.val (aCore b)) ∧ f.pass = j.pass) ∧
    (legalEng 0x60 m w = true → bitAt w 16 = true → (aSpace a = 1 ∨ aSpace a = 2) → (aSpace b = 1 ∨ aSpace b = 2) →
      aCore b ≠ c.val → (∃ r, s.resolve j.fn b (256 * rows) = .ok r) →
      (s.weftBusy c.val = false → ∃ t, exec (.tcpy c m w) s = .next t ∧ Followed s t c .txe j ∧
        (t.engine c.val .txe).openOps = (s.engine c.val .txe).openOps ++ [s.nextOp] ∧
        (∃ o, AMap.get none t.ops s.nextOp = some o ∧ o.left = 5 * rows ∧ o.core = c ∧ o.eng = .txe) ∧
        (t.core c.val).staged.length = 5 * rows ∧ (t.core c.val).injq = (s.core c.val).injq ∧
          ∀ o ∈ (t.core c.val).staged, o.flit.kind = .write ∧ o.op = s.nextOp ∧ o.start = x.at 5) ∧
      (s.weftBusy c.val = true → ∃ t, exec (.tcpy c m w) s = .next t ∧
        (t.engine c.val .txe).pc = (s.engine c.val .txe).pc ∧ (t.engine c.val .txe).wait ≠ none)) ∧
    (legalEng 0x66 m w = true → aSpace a = 1 → (aSpace b = 1 ∨ aSpace b = 2) → aCore b < 1728 → (s.core c.val).staged = [] →
      coreX (aCore b) + (fld w 16 6 + 1) ≤ 48 → coreY (aCore b) + (fld w 22 6 + 1) ≤ 36 →
      (∀ r ∈ rectangle (aCore b) (fld w 16 6 + 1) (fld w 22 6 + 1),
        ∃ p, s.resolve j.fn (BitVec.ofNat 48 (absAddr (aSpace b) r (aOff b))) (256 * rows) = .ok p) →
      ∃ t, exec (.tmrd c m w) s = .next t ∧ Followed s t c .txe j ∧
        ∀ r ∈ rectangle (aCore b) (fld w 16 6 + 1) (fld w 22 6 + 1), ∀ i < rows, ∀ q < 4, ∃ f ∈ (t.core r).hold,
          f.addr = plus (BitVec.ofNat 48 (absAddr (aSpace b) r (aOff b))) (256 * i + 64 * q) ∧
          f.data = ((s.readAt c.val (x.at i) (src i) 256).drop (64 * q)).take 64 ∧ f.inj = x.at (6 + 4 * i + q) ∧
          f.due = x.at (30 + 4 * i + q + 16 * dieSteps c.val r))

/-! ### Gather and fabric instructions -/

/-- R108 to R111: GROWS copies the table row of every index to its destination slot, zeros for 0xFFFF_FFFF; GTOPK writes the
keys and the indices of the best candidates; GDISP fills every expert's bobbin with its entries in order and writes the entry
and drop counts. Rests on the model's choices and readings in log entries 4, 14. -/
def Obligations.GatherInstructions : Prop :=
  ∀ (s : State) (c : CoreId) (j : Job) (m : Byte) (w : BitVec 48), Ready s c .gxe j → NoClaims s c → NoWrites s → s.ecc = [] →
    let x := s.head c .gxe j
    let a0 := s.areg c.val .gxe (fld w 0 4) x.t
    let a1 := s.areg c.val .gxe (fld w 4 4) x.t
    let a2 := s.areg c.val .gxe (fld w 8 4) x.t
    let array := fun (a : MAddr) (n base : Nat) => Plain s c .gxe j a (4 * n) false base ∧
      ∀ r < ceilDiv n 64, Plain s c .gxe j (plus a (256 * r)) (min 256 (4 * n - 256 * r)) false (base + 256 * r)
    let word := fun (base i : Nat) => BitVec.ofNat 32 (leNat (s.readNow c.val (base + 4 * i) 4))
    (legalEng 0x70 m w = true → s.bobs j = [] →
      let count := fld w 12 12 + 1
      let len := 64 * (fld w 24 5 + 1)
      let n := ceilDiv len 256
      let limit := (s.sreg c.val .gxe (fld w 29 5) x.t).toNat
      let row := fun v : W32 => plus a1 (v.toNat * len)
      ∀ (ia : Nat) (tab dst : Nat → Nat),
      aSpace a0 = 1 → aSpace a2 = 1 → aOff a0 % 256 = 0 → aOff a2 % 64 = 0 → aCore a1 = c.val →
      (aSpace a1 = 0 ∧ aOff a1 % 2048 = 0 ∧ gatherRow len = true ∨ aSpace a1 = 1 ∧ aOff a1 % 64 = 0) →
      array a0 count ia → (∃ p, Plain s c .gxe j a2 (count * len) true p) →
      (∀ i < count, word ia i ≠ 0xFFFFFFFF → (word ia i).toNat < limit ∧ (word ia i).toNat < 2 ^ 31 ∧
        Plain s c .gxe j (row (word ia i)) len false (tab i) ∧
        ∀ p < n, Plain s c .gxe j (plus (row (word ia i)) (256 * p)) (min 256 (len - 256 * p)) false (tab i + 256 * p)) →
      (∀ i < count, ∀ p < n, Plain s c .gxe j (plus a2 (i * len + 256 * p)) (min 256 (len - 256 * p)) true (dst i + 256 * p)) →
      (∀ i < count, ∀ k < count, tab i + len ≤ dst k ∨ dst k + len ≤ tab i) →
      (∀ i < count, ∀ k < count, i ≠ k → dst i + len ≤ dst k ∨ dst k + len ≤ dst i) →
      ∃ t, exec (.grows c m w) s = .next t ∧ Followed s t c .gxe j ∧
        ∀ i < count, t.readNow c.val (dst i) len =
          if word ia i = 0xFFFFFFFF then List.replicate len 0 else s.readNow c.val (tab i) len) ∧
    (legalEng 0x71 m w = true → s.bobs j = [] →
      let n := fld w 12 12 + 1
      let best := fld w 24 6 + 1
      let a3 := s.areg c.val .gxe (fld w 38 4) x.t
      let base := s.sreg c.val .gxe (fld w 32 5) x.t
      ∀ ka ia va xa : Nat,
      (∀ a ∈ [a0, a1, a2] ++ (if bitAt w 37 then [a3] else []), aSpace a = 1 ∨ aSpace a = 2) → aOff a0 % 256 = 0 →
      aOff a1 % 4 = 0 → aOff a2 % 4 = 0 → array a0 n ka → (bitAt w 37 = true → aOff a3 % 256 = 0 ∧ array a3 n ia) →
      Plain s c .gxe j a1 (4 * best) true va → Plain s c .gxe j a2 (4 * best) true xa →
      (va + 4 * best ≤ xa ∨ xa + 4 * best ≤ va) →
      ∃ t, exec (.gtopk c m w) s = .next t ∧ Followed s t c .gxe j ∧
        let top := topK (bitAt w 30) (bitAt w 31) best ((List.range n).map fun i =>
          (word ka i, if bitAt w 37 then word ia i else base + BitVec.ofNat 32 i))
        t.readNow c.val va (4 * best) = bytes32 (top.map (·.1)) ∧ t.readNow c.val xa (4 * best) = bytes32 (top.map (·.2))) ∧
    (legalEng 0x72 m w = true →
      let kc := fld w 24 3 + 1
      let n := (fld w 12 12 + 1) * kc
      let experts := fld w 27 6 + 1
      let first := (s.sreg c.val .gxe (fld w 33 5) x.t).toNat
      ∀ (bob : Nat → Bob) (babs : Nat → Nat) (ca ga na : Nat),
      (∀ a ∈ [a0, a1, a2], aSpace a = 1 ∨ aSpace a = 2) → aOff a0 % 256 = 0 → aOff a1 % 256 = 0 → aOff a2 % 4 = 0 →
      array a0 n ca → array a1 n ga → Plain s c .gxe j a2 (8 * experts) true na →
      (∀ e < experts, (s.bobs j).find? (fun b => b.num == fld w 38 8 + e) = some (bob e) ∧ (bob e).producer = 3 ∧
        0 < (bob e).size ∧ 8 * (bob e).capacity ≤ (bob e).size ∧
        s.resolve j.fn (BitVec.ofNat 48 (absAddr (bob e).space c.val (bob e).base)) (bob e).size = .ok (c.val, babs e)) →
      (∀ b ∈ s.bobs j, (AMap.get Bobbin.reset (s.core c.val).bobbins b.num).state = .empty ∧
        (AMap.get Bobbin.reset (s.core c.val).bobbins b.num).count = 0 ∧
        (AMap.get Bobbin.reset (s.core c.val).bobbins b.num).was = .empty ∧
        (AMap.get Bobbin.reset (s.core c.val).bobbins b.num).trans = [] ∧
        ∀ e < experts, b ≠ bob e → b.touched 3
          { space := (bob e).space, off := (bob e).base, len := (bob e).size, write := true } = false) →
      (s.bobs j).Nodup →
      (∀ e < experts, ∀ f < experts, e ≠ f → babs e + (bob e).size ≤ babs f ∨ babs f + (bob f).size ≤ babs e) →
      (∀ e < experts, (na + 8 * experts ≤ babs e ∨ babs e + (bob e).size ≤ na)) →
      ∃ t, exec (.gdisp c m w) s = .next t ∧ Followed s t c .gxe j ∧
        let d := dispatch first kc ((List.range experts).map fun e => (bob e).capacity) ((List.range n).map (word ca))
          ((List.range n).map (word ga))
        t.readNow c.val na (8 * experts) =
          bytes32 ((d.entries.map fun l => BitVec.ofNat 32 l.length) ++ d.dropped.map fun v => BitVec.ofNat 32 v) ∧
        ∀ e < experts, (AMap.get Bobbin.reset (t.core c.val).bobbins (bob e).num).state = .full ∧
          t.readNow c.val (babs e) (bob e).size = padTo (bob e).size 0 (bobbinFill (bob e).capacity (nth [] d.entries e)))

/-- R113, R114: FSEND and FRECV arm the warp entry of their virtual core that they name, or raise CONTROL_PARITY 0x62 for any
other entry. Rests on the model's choices and readings in log entry 4. -/
def Obligations.WarpEntries : Prop :=
  ∀ (s : State) (c : CoreId) (j : Job) (m : Byte) (w : BitVec 48) (l : Loaded), Ready s c .fxe j → s.loaded j.fn = some l →
    let n := fld w 0 12
    (legalEng 0x78 m w = true → ∀ v, l.exe.warps[n]? = some v →
      (v.kind = 0x01 → v.vcore = j.vcore → s.warpInFlight = [] → (∀ r, s.serving r = true) → NoClaims s c → ∃ t, exec (.fsend c m w) s = .next t ∧
        Followed s t c .fxe j ∧
        (t.core c.val).armed = (s.core c.val).armed ++ [{ entry := n, send := true, bobbin := fld w 12 8, lost := [] }]) ∧
      (v.kind ≠ 0x01 ∨ v.vcore ≠ j.vcore → s.dyeRate = 0 →
        exec (.fsend c m w) s = .next (s.raiseEng c.val .fxe .controlParity 0x62))) ∧
    (legalEng 0x79 m w = true → ∀ v, l.exe.warps[n]? = some v →
      (v.kind = 0x02 → v.vcore = j.vcore → ∃ t, exec (.frecv c m w) s = .next t ∧ Followed s t c .fxe j ∧
        (t.core c.val).armed = (s.core c.val).armed ++ [{ entry := n, send := false, bobbin := fld w 12 8, lost := [] }] ∧
        landCycle v (nodeSteps c.val (l.portNode v n c.val)) (v.flits - 1) ≤ (t.engine c.val .fxe).done) ∧
      (v.kind ≠ 0x02 ∨ v.vcore ≠ j.vcore → s.dyeRate = 0 →
        exec (.frecv c m w) s = .next (s.raiseEng c.val .fxe .controlParity 0x62)))

/-- R115, R116, R118: FSCOL, FRDX and FRDC take the core's contribution. A group or tree of this one core gives it back as
the result; one with more cores of this member keeps it until they have contributed. Rests on the model's choices and
readings in log entries 4, 39, 40. -/
def Obligations.CollectivesAndReductions : Prop :=
  ∀ (s : State) (c : CoreId) (j : Job) (m : Byte) (w : BitVec 48) (l : Loaded) (p q : Nat), Ready s c .fxe j →
    NoClaims s c → NoWrites s → s.ecc = [] → s.bobs j = [] → s.loaded j.fn = some l → (∀ b, (s.core b).redBuf = []) →
    let x := s.head c .fxe j
    let a := s.areg c.val .fxe (fld w 0 4) x.t
    let b := s.areg c.val .fxe (fld w 4 4) x.t
    let count := fld w 8 14 + 1
    let rows := fun (len : Nat) => Plain s c .fxe j a len false p ∧ Plain s c .fxe j b len true q ∧
      ∀ i < ceilDiv len 256, Plain s c .fxe j (plus a (256 * i)) (min 256 (len - 256 * i)) false (p + 256 * i) ∧
        s.resolve j.fn (plus b (256 * i)) (min 256 (len - 256 * i)) = .ok (c.val, q + 256 * i)
    (legalEng 0x7A m w = true → (aSpace a = 1 ∨ aSpace a = 2) → (aSpace b = 1 ∨ aSpace b = 2) → aOff a % 4 = 0 → aOff b % 4 = 0 →
      Plain s c .fxe j a 16 false p → Plain s c .fxe j b 16 true q → s.coll j.fn (fld w 8 10) = none →
      ∀ e, l.exe.colls[fld w 8 10]? = some e → (l.vmodule, j.vcore) ∈ e.group →
      (e.group = [(l.vmodule, j.vcore)] → (∀ d ∈ e.subtrees, d.1 ≠ l.vmodule) → ∃ t, exec (.fscol c m w) s = .next t ∧ Followed s t c .fxe j ∧
        t.readNow c.val q 16 = s.readNow c.val p 16) ∧
      (1 < (e.group.filter fun g => g.1 == l.vmodule).length → ∃ t, exec (.fscol c m w) s = .next t ∧ Followed s t c .fxe j ∧
        ∃ k, t.coll j.fn (fld w 8 10) = some k ∧ k.own = some (BitVec.ofNat 128 (leNat (s.readNow c.val p 16))) ∧ k.op = fld m 0 3 ∧
          k.narrow = bitAt m 3 ∧ k.got = [] ∧ k.dest = [(c, b, s.nextOp)])) ∧
    (∀ e node, s.red j.fn (fld w 22 10) = none → l.exe.reds[fld w 22 10]? = some e →
      e.nodes.find? (fun d => d.vmodule == l.vmodule && d.vcore == j.vcore) = some node →
      (legalEng 0x7B m w = true → e.kind = 1 → aSpace a = 2 → aSpace b = 2 → aOff a % 32 = 0 → aOff b % 32 = 0 →
        rows (32 * count) →
        (e.nodes = [node] → (bitAt m 0 = false ∨ l.vmodule = e.root) → ∃ t, exec (.frdx c m w) s = .next t ∧
          Followed s t c .fxe j ∧ t.readNow c.val q (32 * count) = (List.range count).flatMap fun i =>
            longWord (sext 192 (leNat (s.readNow c.val (p + 32 * i) 24))) 0) ∧
        (1 < (e.nodes.filter fun d => d.vmodule == l.vmodule).length → ∃ t, exec (.frdx c m w) s = .next t ∧
          Followed s t c .fxe j ∧ ∃ r, t.red j.fn (fld w 22 10) = some r ∧ r.kind = 1 ∧ r.count = count ∧
            r.q = sext 10 (if bitAt w 42 then (s.sreg c.val .fxe (fld w 43 5) x.t).toNat else fld w 32 10) ∧
            r.dest = [(c, b, s.nextOp)])) ∧
      (legalEng 0x7C m w = true → e.kind = 2 → (aSpace a = 1 ∨ aSpace a = 2) → aSpace b = 1 → aOff a % 4 = 0 → aOff b % 4 = 0 →
        rows (4 * count) →
        (e.nodes = [node] → (bitAt m 2 = false ∨ l.vmodule = e.root) → ∃ t, exec (.frdc c m w) s = .next t ∧
          Followed s t c .fxe j ∧ t.readNow c.val q (4 * count) = s.readNow c.val p (4 * count)) ∧
        (1 < (e.nodes.filter fun d => d.vmodule == l.vmodule).length → ∃ t, exec (.frdc c m w) s = .next t ∧
          Followed s t c .fxe j ∧ ∃ r, t.red j.fn (fld w 22 10) = some r ∧ r.kind = 2 ∧ r.count = count ∧ r.op = fld m 0 2 ∧
            r.dest = [(c, b, s.nextOp)])))

/-- R120, R265: FWPUT, FWGET and FWATM start one operation of as many flits as their field says (one for FWATM), with the
sync counter that its completion increments; the flits enter the injection queue as far as it has room for them and tags are
free, and the others follow. An instruction that finds no room waits. Rests on the model's choices and
readings in log entry 4. -/
def Obligations.WeftInstructions : Prop :=
  ∀ (s : State) (c : CoreId) (j : Job) (m : Byte) (w : BitVec 48) (p : Nat), Ready s c .fxe j → NoClaims s c → s.ecc = [] →
    s.bobs j = [] → (s.engine c.val .fxe).wait = none →
    let x := s.head c .fxe j
    let a := s.areg c.val .fxe (fld w 0 4) x.t
    let b := s.areg c.val .fxe (fld w 4 4) x.t
    let module := if bitAt w 20 then (s.sreg c.val .fxe (fld w 21 5) x.t).setWidth 12 else BitVec.ofNat 12 (fld w 8 12)
    let flits := fld w 26 6 + 1
    let span := 256 * ((flits - 1) / 5) + min (56 * ((flits - 1) % 5) + 56) 256
    let started := fun (t : State) (kind : WType) (n : Nat) =>
      (t.engine c.val .fxe).openOps = (s.engine c.val .fxe).openOps ++ [s.nextOp] ∧
      (∃ o, AMap.get none t.ops s.nextOp = some o ∧ o.left = n ∧ o.core = c ∧ o.eng = .fxe ∧ o.counter = some (fld w 32 6)) ∧
      ∃ l, (t.core c.val).injq ++ (t.core c.val).staged = (s.core c.val).injq ++ l ∧ l.length = n ∧
        (s.core c.val).injq.length < (t.core c.val).injq.length ∧ (t.core c.val).injq.length ≤ 16 ∧
        ∀ o ∈ l, o.flit.kind = kind ∧ o.flit.dst = module ∧ o.op = s.nextOp
    let mine := fun n : Nat => module = s.moduleId → ∃ r, s.resolve j.fn b n = .ok r
    (aSpace a = 1 ∨ aSpace a = 2) → aCore b < 1728 → bitAt b 43 = false →
    (legalEng 0x7D m w = true → (aSpace b = 1 ∨ aSpace b = 2) → aOff a % 256 = 0 → aOff b % 256 = 0 →
      aOff b + span ≤ spaceSize (aSpace b) → mine span → Plain s c .fxe j a span false p →
      (∀ g < ceilDiv span 256, ∃ r, Plain s c .fxe j (plus a (256 * g)) (min 256 (span - 256 * g)) false r) →
      (s.weftBusy c.val = false → ∃ t, exec (.fwput c m w) s = .next t ∧ Followed s t c .fxe j ∧ started t .write flits) ∧
      (s.weftBusy c.val = true → ∃ t, exec (.fwput c m w) s = .next t ∧
        (t.engine c.val .fxe).pc = (s.engine c.val .fxe).pc ∧ (t.engine c.val .fxe).wait ≠ none)) ∧
    (legalEng 0x7E m w = true → (aSpace b = 1 ∨ aSpace b = 2) → aOff a % 64 = 0 → aOff b % 64 = 0 →
      aOff b + 64 * flits ≤ spaceSize (aSpace b) → mine (64 * flits) → Plain s c .fxe j a (64 * flits) true p → s.weftBusy c.val = false →
      ∃ t, exec (.fwget c m w) s = .next t ∧ Followed s t c .fxe j ∧ started t .readReq flits) ∧
    (legalEng 0x7F m w = true → aSpace b = 1 → aOff a % 32 = 0 → aOff b % 8 = 0 → aOff b + 8 ≤ spaceSize 1 → mine 8 →
      Plain s c .fxe j a 24 true p → Plain s c .fxe j a 16 false p → s.weftBusy c.val = false →
      ∃ t, exec (.fwatm c m w) s = .next t ∧ Followed s t c .fxe j ∧ started t .atomic 1)

/-! ### Frames of the core instructions -/

/-- R131, R133, R94: a control, register or vector register instruction that raises no fault, at once or later, leaves every byte of memory,
every other core and every other engine of its core as they were, and the rest of its core: a WAIT, ACQUIRE or SIGNAL changes
the counter that it names, a vector instruction its destination register. Rests on the model's choices and readings in log
entry 4. -/
def Obligations.FrameOfRegisterForms : Prop :=
  ∀ (s t : State) (c : CoreId) (e : Eng) (j : Job) (m : Byte) (w : BitVec 48), Ready s c e j → s.inv = true →
    (∀ d, (s.reporter d).length < 16) → t.chk = s.chk → (t.core c.val).faults = [] →
    let elsewhere := OnlyCores s t ∧ OtherCores s t c ∧ SameBytes s t c
    let k := (s.core c.val).setEngine e (t.engine c.val e)
    let v := t.core c.val
    (∀ i ∈ [Instr.nop c e m w, .pad c e m w, .loop c e m w, .endloop c e m w, .call c e m w, .ret c e m w, .release c e m w,
        .barrier c e m w, .sset c e m w, .sop c e m w, .sopi c e m w, .aset c e m w, .aadd c e m w, .srd c e m w],
      exec i s = .next t → elsewhere ∧ OnlyEngine s t c e) ∧
    (∀ i ∈ [Instr.wait c e m w, .acquire c e m w, .signal c e m w], exec i s = .next t →
      elsewhere ∧ v = { k with mpend := v.mpend, claims := v.claims, obs := v.obs, counters := v.counters } ∧
        ∀ n, n ≠ fld w 0 6 → t.counter c.val n = s.counter c.val n) ∧
    (e = .vxe → ∀ i ∈ [Instr.vadd c w, .vsub c w, .vmul c w, .vmin c w, .vmax c w, .vfma c m w, .vcmp c m w, .vsel c m w,
        .vint c m w, .vcvt c m w, .vfn c m w, .vred c m w, .vbcast c m w], exec i s = .next t →
      elsewhere ∧ v = { k with mpend := v.mpend, claims := v.claims, obs := v.obs, vregs := v.vregs } ∧
        ∀ r, r ≠ fld w 0 6 → AMap.get VReg.zero v.vregs r = AMap.get VReg.zero (s.core c.val).vregs r) ∧
    (e = .vxe → exec (.vtos c m w) s = .next t → elsewhere ∧ OnlyEngine s t c e)

/-- R76, R95, R100, R102, R103, R110, R131: a load, a matrix instruction that drains nothing and the arming of a warp entry
change no byte of memory; SST, VST, local TCPY, TSHUF, TTILE, TCVT, MDRN and GTOPK, with no register result of the engine
still on its way and no vector still to meet the array, change no byte outside those that their destination addresses name.
None that raises no fault, at once or later, changes another engine of its core, or another core, of which FSEND's flits move
the observation counters only. Rests on the model's choices and readings in log entry 4. -/
def Obligations.FrameOfMemoryForms : Prop :=
  ∀ (s t : State) (c : CoreId) (e : Eng) (j : Job) (m : Byte) (w : BitVec 48), Ready s c e j → s.inv = true →
    (∀ d, (s.reporter d).length < 16) → t.chk = s.chk → (t.core c.val).faults = [] → (s.core c.val).mx.vecs = [] →
    let x := s.head c e j
    (s.engine c.val e).dues x.t = [] →
    let areg := fun (i : Nat) => s.areg c.val e (fld w i 4) x.t
    let sreg := fun (i : Nat) => s.sreg c.val e (fld w i 5) x.t
    let at' := fun (a : MAddr) (n abs : Nat) => s.resolve j.fn a n = .ok (c.val, abs)
    let bytes := fun (l : List (Nat × Nat)) => (∀ e', e' ≠ e → t.engine c.val e' = s.engine c.val e') ∧
      ∀ b, (∀ p ∈ l, b < p.1 ∨ p.1 + p.2 ≤ b) → t.readNow c.val b 1 = s.readNow c.val b 1
    let outside := fun (l : List (Nat × Nat)) => OtherCores s t c ∧ bytes l
    (exec (.sld c e m w) s = .next t → outside []) ∧
    (e = .vxe → exec (.vld c m w) s = .next t → outside []) ∧
    (e = .mxe → ∀ i ∈ [Instr.mcfg c m w, .mdcfg c m w, .mlw c m w, .mldl c m w, .mclr c m w], exec i s = .next t → outside []) ∧
    (e = .mxe → (s.core c.val).mx.cfg.psm = false → exec (.mmul c m w) s = .next t → outside []) ∧
    (e = .fxe → exec (.frecv c m w) s = .next t → outside []) ∧
    (e = .fxe → exec (.fsend c m w) s = .next t →
      bytes [] ∧ ∀ b, b ≠ c.val → t.core b = { s.core b with obs := (t.core b).obs }) ∧
    (exec (.sst c e m w) s = .next t → ∀ p, at' (areg 5) 4 p → outside [(p, 4)]) ∧
    (e = .vxe → exec (.vst c m w) s = .next t → ∀ p : Nat → Nat,
      (∀ i a, (vecPieces (areg 24) w)[i]? = some a → at' a.1 a.2 (p i)) →
      outside ((vecPieces (areg 24) w).zipIdx.map fun a => (p a.2, a.1.2))) ∧
    (e = .txe →
      (∀ i ∈ [Instr.tcpy c m w, .tshuf c m w], aCore (areg 0) = c.val → exec i s = .next t →
        ∀ p, at' (areg 4) (256 * (fld w 8 8 + 1)) p → outside [(p, 256 * (fld w 8 8 + 1))]) ∧
      (exec (.ttile c m w) s = .next t →
        let h := fld w 8 6 + 1
        let v := fld w 14 6 + 1
        let rows := if fld w 20 2 = 0 then h else v
        let len := 4 * if fld w 20 2 = 0 then v else h
        ∀ p : Nat → Nat, (∀ i < rows, at' (addA (areg 4) ((sreg 27).toInt * (i : Int))) len (p i)) →
        outside ((List.range rows).map fun i => (p i, len))) ∧
      (exec (.tcvt c m w) s = .next t →
        let fs := fld w 16 4
        let fd := fld w 20 4
        let elems := if fs = 9 then 8 else if fmtBits fs = 6 then 256 else 2048 / fmtBits fs
        let size := if fmtBits fd = 6 then 64 * ceilDiv elems 64 else elems * fmtBits fd / 8
        ∀ p, at' (areg 4) (size * (fld w 8 8 + 1)) p → outside [(p, size * (fld w 8 8 + 1))])) ∧
    (e = .mxe → (s.core c.val).mx.cfg.psm = false → exec (.mdrn c m w) s = .next t →
      let accs := setBits 4 m.toNat
      let bytes := (s.core c.val).mx.cfg.n * (fmtBits (s.core c.val).mx.dcfg.fmt / 8)
      ∀ p : Nat → Nat, (∀ r ∈ accs, at' (addA (areg 0) ((sreg 4).toInt * (r : Int))) bytes (p r)) →
        outside (accs.map fun r => (p r, bytes))) ∧
    (e = .gxe → exec (.gtopk c m w) s = .next t →
      let n := 4 * (fld w 24 6 + 1)
      ∀ p q, at' (areg 4) n p → at' (areg 8) n q → outside [(p, n), (q, n)])

/-! ### Core events -/

/-- R138, R159, R184: a fused-off engine drops the word that reaches it and raises ABSENT_ENGINE 0x02, and the pass is
abandoned. A WAIT or ACQUIRE that has passed its stall limit raises QUEUE_STALL 0x01, and an instruction that a bobbin has
refused for its grace window raises BOBBIN_UNDERRUN or BOBBIN_OVERRUN 0x01; the pass that the core runs is abandoned and the
core stops. R69, R91, R125: a word that is no instruction of a present engine raises CONTROL_PARITY with the detail of reserved
encodings. Beside R159 it rests on the model's choices and readings in log entries 137, 145. -/
def Obligations.CoreFaultEvents : Prop :=
  ∀ (s : State) (c : CoreId) (e : Eng), (s.reporter (coreDie c.val)).length < 16 →
    (s.present e = false → ∀ v, ∃ t, exec (.absentEngineDelivery c e v) s = .next t ∧
      Raised s t (.eng c.val e) .absentEngine 0x02 ∧ (t.engine c.val e).pc = (s.engine c.val e).pc ∧
      ∀ j p, (s.core c.val).job = some j → s.pass j.pass = some p → p.state = .running →
        Abandoned t j.pass .abandonedFault ∧ (t.core c.val).job = none) ∧
    (∀ j v d, Ready s c e j → s.dyeRate = 0 → strayWord e v = some d →
      exec (.absentEngineDelivery c e v) s = .next (s.raiseEng c.val e .controlParity d)) ∧
    ∀ j p c0, (s.core c.val).job = some j → s.pass j.pass = some p → p.state = .running →
      ((s.engine c.val e).wait = some (.counter, c0) → ∃ t, exec (.stallLimitExpiry c e) s = .next t ∧
        Raised s t (.eng c.val e) .queueStall 0x01 ∧ Abandoned t j.pass .abandonedFault ∧ (t.core c.val).job = none) ∧
      (∀ b g consumer, (s.engine c.val e).wait = some (.bobbin b g consumer, c0) →
        ∃ t, exec (.graceWindowExpiry c e) s = .next t ∧
        Raised s t (.eng c.val e) (if consumer then .bobbinUnderrun else .bobbinOverrun) 0x01 ∧
        Abandoned t j.pass .abandonedFault ∧ (t.core c.val).job = none)

/-- R134, R137, R196: the oldest pending release whose covered operations are complete leaves the engine. On a counter of its
own core it adds its amount in a cycle after its accesses have completed and the engine's earlier release took effect, visible
from the next one; for any other counter a weft increment with its address, scope, amount and origin joins the
injection queue, once that has room, and the later releases whose scope includes that counter's core wait for it. Rests on
the model's choices and readings in log entry 16. -/
def Obligations.ReleaseApply : Prop :=
  ∀ (s : State) (c : CoreId) (e : Eng) (r : PendRelease) (rest : List PendRelease),
    (s.engine c.val e).releases = r :: rest →
    ((∃ o ∈ r.cover, o ∈ (s.engine c.val e).openOps) → exec (.releaseApply c e) s = .next s) ∧
    ((∀ o ∈ r.cover, o ∉ (s.engine c.val e).openOps) →
      (r.module = s.moduleId → aCore r.addr = c.val →
        let v := s.counter c.val (aOff r.addr / 8)
        v.pend = [] → v.count + r.inc ≤ 65535 →
        ∃ t cyc, exec (.releaseApply c e) s = .next t ∧ (t.engine c.val e).releases = rest ∧
          r.ready < cyc ∧ r.issued < cyc ∧ (s.engine c.val e).relAt < cyc ∧ (t.engine c.val e).relAt = cyc ∧
          ∀ n, let u := (t.counter c.val (aOff r.addr / 8)).view n
            if n ≤ cyc then u.count = v.count else u.count = v.count + r.inc ∧ u.scope = r.scope ∧ u.originCore = c.val) ∧
      (r.module ≠ s.moduleId ∨ aCore r.addr ≠ c.val →
        (s.weftBusy c.val = true → exec (.releaseApply c e) s = .next s) ∧
        (s.weftBusy c.val = false → r.inc < 2 ^ 16 → ∃ t, exec (.releaseApply c e) s = .next t ∧
          (t.engine c.val e).releases =
            rest.map (fun l => l.behind s.nextOp (scopeDist c.val s.moduleId (aCore r.addr) r.module)) ∧
          (t.engine c.val e).openOps = (s.engine c.val e).openOps ++ [s.nextOp] ∧
          ∃ o, (t.core c.val).injq = (s.core c.val).injq ++ [o] ∧ o.flit.kind = .increment ∧ o.flit.dst = r.module ∧
            flitAddr o.flit = r.addr ∧ fld o.flit.payload 56 3 = r.scope.code ∧ fld o.flit.payload 64 16 = r.inc ∧
            fld o.flit.payload 80 16 = c.val)))

/-- R203, R216: a core whose engines have issued their BARRIERs and completed their accesses joins. With the last core of the
load image the member joins: alone, the barrier resolves, the next kernel may start or the pass goes on to its gate; in a
skein a member that is not the root sends its join up once every child has joined. R245: a join that a node receives with a
parity error raises CONTROL_PARITY 0x83 at that node's core, and the pass is abandoned. Rests on the model's choices and readings
in log entry 38. -/
def Obligations.CoreBarrierJoin : Prop :=
  ∀ (s : State) (c : CoreId) (j : Job) (p : Pass), (s.core c.val).job = some j → s.pass j.pass = some p →
    (s.core c.val).joined = false → (s.core c.val).atBarrier = true → s.quiet c.val j.pass = true →
    (s.core c.val).mx.vecs = [] → (s.core c.val).faults = [] →
    (∀ n : CoreId, p.state = .running → (s.reporter (coreDie n.val)).length < 16 →
      ∃ t, exec (.coreBarrierJoin ⟨c, (some n)⟩) s = .next t ∧ Raised s t (.core' n.val) .controlParity 0x83 ∧
        Abandoned t j.pass .abandonedFault ∧ (t.core c.val).job = none) ∧
    ((∃ d ∈ s.memberCores j.fn, d ≠ c.val ∧ (s.core d).joined = false) →
      ∃ t, exec (.coreBarrierJoin ⟨c, none⟩) s = .next t ∧ (t.core c.val).joined = true ∧ t.pass j.pass = some p) ∧
    ((∀ d ∈ s.memberCores j.fn, d ≠ c.val → (s.core d).joined = true) → p.state = .running → p.resolved = false →
      (s.inSkein p = false → p.clean = true → ∃ t, exec (.coreBarrierJoin ⟨c, none⟩) s = .next t ∧
        ∃ q, t.pass j.pass = some q ∧ q.joined = true ∧ q.resolved = true ∧ q.cleanKernels = p.cleanKernels + 1 ∧
          q.state = if p.kernel + 1 < (s.kernelsOf p.fn).length then .running else .gating) ∧
      (s.inSkein p = true → s.stitchRoot = false → (∀ k ∈ s.stitchChildren, ∃ i ∈ s.skein.joins, i.val = k) →
        ∃ t, exec (.coreBarrierJoin ⟨c, none⟩) s = .next t ∧ (t.port s.stitchParent).msgs = (s.port s.stitchParent).msgs ++
          [barrierMsg 0x01 p.number p.kernel p.attempt (p.clean && s.skein.joinsClean)]) ∧
      (s.inSkein p = true → (∃ k ∈ s.stitchChildren, ∀ i ∈ s.skein.joins, i.val ≠ k) →
        ∃ t, exec (.coreBarrierJoin ⟨c, none⟩) s = .next t ∧ t.ports = s.ports ∧
          ∃ q, t.pass j.pass = some q ∧ q.joined = true ∧ q.resolved = false))

/-! ### Mesh, weft and warp events -/

/-- R235, R239, R266: the oldest flit of an injection queue enters the mesh when the output that its order names is free, and
waits otherwise, which is counted. A new request takes a free tag of the pool as it enters the queue, and becomes an
outstanding transaction. In uniform mode a core injects in every fourth cycle only (R246). With no bypassed router, no warp
flit on the mesh and every output free it reaches its destination core. Rests on the model's
choices and readings in log entries 32, 33. -/
def Obligations.WeftInjection : Prop :=
  ∀ (s : State) (c : CoreId) (cycle : Nat) (free : List (BitVec 5)) (o : OutFlit) (rest : List OutFlit),
    s.serving c.val = true →
    (s.scheduled = false → cycle % 4 ≠ c.val % 4 → exec (.weftInjection c cycle ⟨free, none⟩) s = .next s) ∧
    ((s.scheduled = true ∨ cycle % 4 = c.val % 4) → o.start ≤ cycle → ∀ node, s.flitNode (coreX c.val) o.flit = some node →
      let n := s.kernelBase c.val + cycle
      let open' := s.mayInject c.val (meshDest node) free n
      let clear := free = [] ∧ (∀ b, (s.core b).svc ≠ .bypassed) ∧ s.warpInFlight = [] ∧ o.flit.dst = s.moduleId ∧ node < 1728
      ((s.core c.val).injq = o :: rest → (s.core c.val).staged = [] →
        (open' = false → exec (.weftInjection c cycle ⟨free, none⟩) s = .next (s.countAt c.val none 0x34 n 1 1)) ∧
        (open' = true → ∃ t, exec (.weftInjection c cycle ⟨free, none⟩) s = .next t ∧ (t.core c.val).injq = rest ∧
          (isRequest o.flit.kind = true → ∀ x, s.txn o.flit.tag = some x →
            t.txn o.flit.tag = some { x with sent := max 1 x.sent, at' := s.clk.timebase.toNat }) ∧
          (clear → t.inflight = s.inflight ++ [o.flit]))) ∧
      ((s.core c.val).injq = [] → (s.core c.val).staged = [o] → isRequest o.flit.kind = true → o.flit.attempt = 0 →
        (s.txns.length = 16384 → exec (.weftInjection c cycle ⟨free, none⟩) s = .next s) ∧
        (s.txns.length < 16384 → open' = true → ∃ t, exec (.weftInjection c cycle ⟨free, none⟩) s = .next t ∧
          (t.core c.val).injq = [] ∧ (t.core c.val).staged = [] ∧
          ∃ (tag : BitVec 14) (x : Txn), t.txn tag = some x ∧ x.flit = { o.flit with tag := tag } ∧ x.core = c ∧ x.op = o.op ∧
            x.localAddr = o.localAddr ∧ x.sent = 1 ∧ x.replied = false ∧
            (AMap.wf none s.txns = true → s.txn tag = none) ∧ (clear → t.inflight = s.inflight ++ [x.flit]))))

/-- R136, R174, R204, R205, R238, R269: at a core in service, a weft write, read or atomic for the running pass's regions
joins the core queue, or is dropped where eight accesses wait; an atomic takes a pending replay entry. An increment adds to
its counter with its scope and origin and is acknowledged. A fenced core answers FENCED_TARGET. Rests on the model's choices
and readings in log entry 35. -/
def Obligations.WeftRequests : Prop :=
  ∀ (s s' : State) (v : WeftVia) (f : WeftFlit),
    let c := aCore (flitAddr f)
    c < 1728 →
    (∀ i ∈ [(Instr.weftWrite v, WType.write), (.weftReadRequest v, .readReq), (.weftAtomic v, .atomic),
        (.weftCounterIncrement v, .increment)],
      s.Taken v i.2 s' f → aSpace (flitAddr f) ≠ 5 → s.serving c = false →
        exec i.1 s = .next (s'.sendReply (fencedReply s' c f (if (s'.core c).svc = .fenced then 0x01 else 0x02)) c)) ∧
    ∀ k p r a, s.serving c = true → f.attempt = 0 → s.ownerOf c = some (k, p) →
      (∀ i ∈ [(Instr.weftWrite v, WType.write, QKind.write), (.weftReadRequest v, .readReq, .read),
          (.weftAtomic v, .atomic, .atomic)],
        s.Taken v i.2.1 s' f → s'.recordFull f = false → s.replay.length ≤ 4096 →
        (aSpace (flitAddr f) = 1 ∨ aSpace (flitAddr f) = 2 ∧ i.2.2 ≠ .atomic) →
        s.resolve p.fn (flitAddr f) (if i.2.2 = .atomic then 8 else flitCount f) = .ok (r, a) →
        ((s.core c).queue.length < 8 → ∃ t, exec i.1 s = .next t ∧
          (∃ x, (t.core c).queue = (s.core c).queue ++ [x] ∧ x.kind = i.2.2 ∧ x.addr = a ∧ x.flit = some f ∧
            (i.2.2 = .write → x.data = flitBytes f 8 (min 56 (flitCount f))) ∧ (i.2.2 = .read → x.len = flitCount f) ∧
            (i.2.2 = .atomic → x.data = flitBytes f 8 16 ∧ x.len = 8)) ∧
          (i.2.2 = .atomic → t.recorded f =
            some { src := f.src, tag := f.tag, keep := true, reply := none, at' := s.clk.timebase.toNat })) ∧
        ((s.core c).queue.length = 8 → ∃ t, exec i.1 s = .next t ∧ (t.core c).queue = (s.core c).queue ∧
          t.replay = s.replay)) ∧
      (s.Taken v .increment s' f → s'.recordFull f = false → s.replay.length ≤ 4096 → aSpace (flitAddr f) = 4 →
        aOff (flitAddr f) < 512 → s.resolve p.fn (flitAddr f) 8 = .ok (r, a) →
        let n := aOff (flitAddr f) / 8 % 64
        let v0 := s.counter c n
        v0.pend = [] → v0.count + fld f.payload 64 16 ≤ 65535 → (s.core c).injq.length < 16 →
        ∃ t, exec (.weftCounterIncrement v) s = .next t ∧
          (∀ k, let u := (t.counter c n).view k
            if k ≤ s.nowCycle c then u.count = v0.count
            else u.count = v0.count + fld f.payload 64 16 ∧ u.scope = scopeOf (fld f.payload 56 3) ∧
              u.originModule = f.src ∧ u.originCore = fld f.payload 80 16) ∧
          (∃ o, (t.core c).injq = (s.core c).injq ++ [o] ∧ o.flit = replyFlit s c f .ack 0) ∧
          t.recorded f = some { src := f.src, tag := f.tag, keep := true, reply := some (replyFlit s c f .ack 0),
                                at' := s.clk.timebase.toNat })

/-- R174, R191, R204, R205, R206, R269: the access at the front of a core queue is carried out in a cycle whose ports are free,
and waits otherwise. A write puts its bytes in that cycle and is acknowledged, a read answers with the bytes that writes of
earlier cycles have left, an atomic adds, swaps or compares and swaps in a later cycle and answers the old value, and a host
access reads or writes. A weft access that has waited too long is dropped, an atomic with its pending replay entry, and a
replay entry that has its reply expires in its time. Rests on the model's choices and readings in log entries 35, 118, 137. -/
def Obligations.CoreQueue : Prop :=
  ∀ (s : State) (c : CoreId) (cycle : Nat) (a : QAccess) (rest : List QAccess), s.inv = true → s.serving c.val = true →
    (s.core c.val).queue = a :: rest → (s.core c.val).injq.length < 16 →
    ((s.core c.val).job = none → (s.core c.val).mpend = []) →
    let τ := max cycle (s.core c.val).horizon
    let run := exec (.weftAccessLand ⟨c, cycle⟩) s
    (s.portsFree c.val τ a = false → run = .next s) ∧
    ∀ _ : s.portsFree c.val τ a = true,
    (a.kind ≠ .write → a.kind ≠ .hostWrite → eccWorst s.ecc (eccWord (a.addr / 2 ^ 44)) a.addr a.len = none) →
    let answered := fun (t : State) (r : WeftFlit) => ∃ o, (t.core c.val).injq = (s.core c.val).injq ++ [o] ∧ o.flit = r
    (∀ f, a.flit = some f →
      (a.kind = .write → ∃ t, run = .next t ∧ (t.core c.val).queue = rest ∧
        t.readAt c.val (τ + 1) a.addr a.data.length = a.data ∧ answered t (replyFlit s c.val f .ack 0) ∧
        (s.replay.length < 4096 → t.recorded f =
          some { src := f.src, tag := f.tag, keep := false, reply := some (replyFlit s c.val f .ack 0), at' := s.clk.timebase.toNat })) ∧
      (a.kind = .read → ∃ t, run = .next t ∧ (t.core c.val).queue = rest ∧ SameBytes s t c ∧
        answered t (replyFlit s c.val f .readReply (BitVec.ofNat 512 (leNat (s.readAt c.val τ a.addr a.len))))) ∧
      (a.kind = .atomic → ∃ t u, run = .next t ∧ (t.core c.val).queue = rest ∧ τ < u ∧
        let old := leNat (s.readAt c.val τ a.addr 8)
        let x := leNat (a.data.take 8)
        leNat (t.readAt c.val (u + 1) a.addr 8) =
          (if fld f.payload 54 2 = 0 then (old + x) % 2 ^ 64 else if fld f.payload 54 2 = 1 then x
            else if old = leNat (a.data.drop 8) then x else old) ∧
        answered t (replyFlit s c.val f .atomicReply (BitVec.ofNat 512 old))) ∧
      ∃ t, exec (.coreQueueTimeout c) s = .next t ∧ (t.core c.val).queue = rest ∧
        (a.kind = .atomic → t.recorded f = none) ∧ (a.kind ≠ .atomic → t.replay = s.replay)) ∧
    (a.kind = .hostRead → (∀ b, b ≠ c.val → ∀ x ∈ (s.core b).queue, x.kind = .hostWrite → x.fn ≠ a.fn) →
      ∃ t, run = .next t ∧ (t.core c.val).queue = rest ∧ SameBytes s t c ∧
        t.out = .windowData a.fn (s.readAt c.val τ a.addr a.len) :: s.out) ∧
    (a.kind = .hostWrite → ∃ t, run = .next t ∧ (t.core c.val).queue = rest ∧
      t.readAt c.val (τ + 1) a.addr a.data.length = a.data) ∧
    ∀ src tag, ∃ t, exec (.replayEntryExpiry src tag) s = .next t ∧
      ∀ r, r ∈ t.replay ↔ r ∈ s.replay ∧ ¬(r.src = src ∧ r.tag = tag ∧ r.reply ≠ none ∧ s.due (s.replayEnd r) = true)

/-- R120, R198, R239, R267, R268: the first reply to an outstanding transaction is accepted: a read's data and an atomic's
old value are written at the request's local address, FENCED_TARGET raises its fault at the issuing engine. A transaction
that was sent once, or whose lifetime has passed, ends and returns its tag, and with the last one of an instruction its counter
is incremented; one that was sent again keeps its tag until then. Every later reply is discarded. Rests on the model's choices and readings in log entry 34. -/
def Obligations.WeftReplies : Prop :=
  ∀ (s s' : State) (v : WeftVia) (f : WeftFlit) (x : Txn), s.txn f.tag = some x → s.inv = true →
    ((s.core x.core.val).job = none → (s.core x.core.val).mpend = []) →
    (∀ i ∈ [(Instr.weftReadReply v, WType.readReply), (.weftAtomicReply v, .atomicReply), (.weftAcknowledgement v, .ack),
        (.fencedTargetReply v, .fencedTarget)],
      s.Taken v i.2 s' f →
      (x.replied = true → ∃ t, exec i.1 s = .next t ∧ t.txns = s.txns ∧ t.mem = s.mem ∧ t.ops = s.ops) ∧
      (x.replied = false → ∃ t, exec i.1 s = .next t ∧
        (x.sent ≤ 1 ∨ x.at' + weftLifetime ≤ s.clk.timebase.toNat → t.txn f.tag = none) ∧
        (1 < x.sent → s.clk.timebase.toNat < x.at' + weftLifetime → i.2 ≠ .fencedTarget → t.txn f.tag = some { x with replied := true }))) ∧
    (x.replied = false → ∀ a r abs, x.localAddr = some a →
      let n := flitCount x.flit
      let τ := max (s.nowCycle x.core.val) (s.core x.core.val).horizon
      let free := fun (n : Nat) => ∀ j, (s.core x.core.val).job = some j → ∀ b ∈ s.bobs j,
        b.touched x.eng.num { space := aSpace a, off := aOff a, len := n, write := true } = false
      (s.Taken v .readReply s' f → s.resolve x.fn a n = .ok (r, abs) → free n → ∃ t, exec (.weftReadReply v) s = .next t ∧
        t.readAt x.core.val (τ + 1) abs n = flitBytes f 0 n) ∧
      (s.Taken v .atomicReply s' f → s.resolve x.fn a 8 = .ok (r, abs) → free 8 → ∃ t, exec (.weftAtomicReply v) s = .next t ∧
        t.readAt x.core.val (τ + 1) abs 8 = flitBytes f 0 8)) ∧
    (x.replied = false → s.Taken v .fencedTarget s' f → (s.reporter (coreDie x.core.val)).length < 16 →
      ∃ t, exec (.fencedTargetReply v) s = .next t ∧
        Raised s t (.eng x.core.val x.eng) .fencedTarget (BitVec.ofNat 8 (fld f.payload 0 8))) ∧
    (x.replied = false → x.sent ≤ 1 → s.Taken v .ack s' f → ∀ o, AMap.get none s.ops x.op = some o →
      (1 < o.left → ∃ t, exec (.weftAcknowledgement v) s = .next t ∧
        AMap.get none t.ops x.op = some { o with left := o.left - 1 }) ∧
      (o.left = 1 → ∃ t, exec (.weftAcknowledgement v) s = .next t ∧ AMap.get none t.ops x.op = none ∧
        x.op ∉ (t.engine o.core.val o.eng).openOps ∧
        ∀ i, o.counter = some i → o.core = x.core → (s.counter x.core.val i).pend = [] →
          (s.counter x.core.val i).count < 65535 → ∀ n, ((t.counter x.core.val i).view n).count =
            (s.counter x.core.val i).count + if n ≤ s.nowCycle x.core.val then 0 else 1))

/-- R219, R263, R264, R267, R268: at its timeout an unanswered request is sent again with its tag and the next attempt number
up to the retry count, then raises WEFT_TIMEOUT 0x01; an abandoned attempt sends nothing again, and its tag returns at the end
of its lifetime. A flit for another module waits in its port's ingress queue behind others; else it crosses to its egress port
with hops raised by one, or is discarded and counted after seven hops or without a route or room. Rests on the model's choices and readings in log entries 34, 132, 137. -/
def Obligations.WeftTimers : Prop :=
  ∀ (s : State) (tag : BitVec 14) (x : Txn), s.txn tag = some x →
    let up := x.sent ≠ 0 ∧ s.due (x.at' + s.weftTimeout) = true
    (x.replied = false → ¬up → exec (.weftTimeoutExpiry tag) s = .next s) ∧
    (x.replied = false → up → x.dead = false → x.flit.attempt.toNat < s.weftRetries → (s.core x.core.val).staged = [] →
      (s.core x.core.val).injq.length < 16 → ∃ t,
      exec (.weftTimeoutExpiry tag) s = .next t ∧
      let f : WeftFlit := { x.flit with attempt := x.flit.attempt + 1 }
      t.txn tag = some { x with flit := f, sent := x.sent + 1 } ∧
      ∃ o, (t.core x.core.val).injq = (s.core x.core.val).injq ++ [o] ∧ o.flit = f) ∧
    (x.replied = false → up → x.dead = false → s.weftRetries ≤ x.flit.attempt.toNat →
      (s.reporter (coreDie x.core.val)).length < 16 → ∃ t, exec (.weftTimeoutExpiry tag) s = .next t ∧
        Raised s t (.eng x.core.val x.eng) .weftTimeout 0x01) ∧
    (x.replied = true ∨ x.dead = true → (∃ t, exec (.weftTimeoutExpiry tag) s = .next t ∧ t.txns = s.txns ∧
        (t.core x.core.val).injq = (s.core x.core.val).injq) ∧
      (s.due (x.at' + weftLifetime) = true → ∃ t, exec (.weftLifetimeExpiry tag) s = .next t ∧ t.txn tag = none)) ∧
    (x.replied = false ∧ x.dead = false ∨ s.due (x.at' + weftLifetime) = false →
      exec (.weftLifetimeExpiry tag) s = .next s) ∧
    ∀ (p : PortId) (hdr : W64) (payload : BitVec 512), (s.port p.val).usable = true → fld hdr 0 2 = 1 →
      let f := weftOfLink hdr payload (1728 + 24 * (p.val / 8))
      let run := exec (.weftForward (.port p hdr payload [])) s
      (linkOk hdr payload = false → run = .next (s.portCount p.val 2)) ∧
      (linkOk hdr payload = true → f.dst ≠ s.moduleId → (s.port p.val).ingress ≠ [] →
        (32 ≤ (s.port p.val).ingress.length → run = .next (s.portCount p.val 5)) ∧
        ((s.port p.val).ingress.length < 32 → ∃ t, run = .next t ∧ (t.port p.val).ingress = (s.port p.val).ingress ++ [f])) ∧
      (linkOk hdr payload = true → f.dst ≠ s.moduleId → (s.port p.val).ingress = [] →
        (f.hops = 7 → run = .next (s.portCount p.val 6)) ∧
        (f.hops ≠ 7 → s.route f.dst = none → run = .next (s.portCount p.val 6)) ∧
        (f.hops ≠ 7 → ∀ q, s.route f.dst = some q →
          (p.val / 8 = q / 8 ∨ (∀ b, (s.core b).svc ≠ .bypassed) ∧ s.warpInFlight = []) →
          ((s.port q).egress.length = 16 → ∃ t, run = .next t ∧ (t.port q).egress = (s.port q).egress ∧
            AMap.get 0 (t.port q).counts 5 = AMap.get 0 (s.port q).counts 5 + 1) ∧
          ((s.port q).egress.length < 16 → ∃ t, run = .next t ∧
            (t.port q).egress = (s.port q).egress ++ [{ f with hops := f.hops + 1 }])))

/-- R114, R230, R254, R256, R258: a sound warp flit whose header fits a receive entry waits in its port for its deadline, and
any other is counted as a mismatch. At the deadline it goes on to its core, due 24 + 16 d cycles after its injection, or is
absent: WARP_LATE at the core's fabric engine. In its delivery cycle it is written into its bobbin, which the last flit makes
FULL. Rests on the model's choices and readings in log entry 36. -/
def Obligations.WarpArrival : Prop :=
  (∀ (s : State) (p : PortId) (hdr : W64) (payload : BitVec 512), (s.port p.val).state = .full → fld hdr 0 2 = 0 →
    (linkOk hdr payload = false → exec (.warpFlitArrival p hdr payload) s = .next (s.portCount p.val 2)) ∧
    let fits := fun (u : WarpUse) (i : Nat) => i < u.w.flits ∧ u.w.port = p.val ∧ (warpPlace u.w i).2 = (fld hdr 22 7, fld hdr 29 6) ∧
      (warpPlace u.w i).1 % 256 = fld hdr 14 8 ∧ s.moduleOf u.w.peer = some (BitVec.ofNat 12 (fld hdr 2 12)) ∧
      s.nowCycle u.c ≤ slotCycle ((warpPlace u.w i).1 + u.w.latClass) (fld hdr 22 7) + 39 + fld hdr 29 6 ∧
      ((warpPlace u.w i).1 + u.w.latClass, fld hdr 22 7, fld hdr 29 6) ∉ (s.port p.val).passed
    let uses := fun (u : WarpUse) => ∃ fk ∈ s.runningFns, u ∈ s.warpUses fk.1 0x02
    (linkOk hdr payload = true → (∃ u i, uses u ∧ fits u i) → ∃ t x, exec (.warpFlitArrival p hdr payload) s = .next t ∧
      (t.port p.val).warp = (s.port p.val).warp ++ [x] ∧ x.payload = payload ∧ x.sg = fld hdr 22 7 ∧ x.pos = fld hdr 29 6 ∧
      ∃ u i, uses u ∧ fits u i ∧ x.frame = (warpPlace u.w i).1 + u.w.latClass) ∧
    (linkOk hdr payload = true → (∀ u i, uses u → ¬fits u i) → ∃ t, exec (.warpFlitArrival p hdr payload) s = .next t ∧
      (t.port p.val).warp = (s.port p.val).warp ∧
      AMap.get 0 (t.port p.val).counts 4 = AMap.get 0 (s.port p.val).counts 4 + 1)) ∧
  (∀ (s : State) (p : PortId) (f : Nat) (g : Fin 100) (q : Fin 44) (fk : FnId × Nat × Pass) (u : WarpUse) (l : Loaded) (i : Nat),
    let at' := fun (v : WarpUse) => flitAt (recvPlace v.w) v.w.flits f g.val q.val
    fk ∈ s.runningFns → u ∈ s.warpUses fk.1 0x02 → u.armed = true → u.w.port = p.val → at' u = some i →
    s.loaded fk.1 = some l →
    (∀ fk' ∈ s.runningFns, ∀ v ∈ s.warpUses fk'.1 0x02, v.armed = true → v.w.port = p.val → (at' v).isSome = true →
      fk' = fk ∧ v = u) →
    let node := l.portNode u.w u.n u.c
    (∀ w ∈ (s.port p.val).warp, w.frame = f → w.sg = g.val → w.pos = q.val →
      (∀ w' ∈ (s.port p.val).warp, w'.frame = f → w'.sg = g.val → w'.pos = q.val → w' = w) →
      s.scheduled = true → (∀ r, s.serving r = true) → s.warpInFlight = [] →
      ∃ t h, exec (.warpDeadline p f g q) s = .next t ∧ (t.core u.c).hold = (s.core u.c).hold ++ [h] ∧
        h.data = leBytes 64 w.payload.toNat ∧ h.inj = slotCycle f g.val + 40 + q.val ∧
        h.due = h.inj + 24 + 16 * nodeSteps u.c node ∧ h.entry = some u.n ∧ h.pass = fk.2.1 ∧
        ∀ w' ∈ (t.port p.val).warp, ¬(w'.frame = f ∧ w'.sg = g.val ∧ w'.pos = q.val)) ∧
    ((∀ w ∈ (s.port p.val).warp, ¬(w.frame = f ∧ w.sg = g.val ∧ w.pos = q.val)) →
      (s.reporter (coreDie u.c)).length < 16 → ∃ t, exec (.warpDeadline p f g q) s = .next t ∧
        Raised s t (.eng u.c .fxe) .warpLate (if (f, g.val, q.val) ∈ (s.port p.val).mismatched then 0x02 else 0x01))) ∧
  ∀ (s : State) (c : CoreId) (n : Fin 128) (h : HeldWarp) (j : Job) (abs r : Nat),
    (s.core c.val).hold.filter (fun h => h.due % 128 == n.val) = [h] → s.serving c.val = true →
    (s.core c.val).job = some j → j.pass = h.pass → NoClaims s c → (s.core c.val).mpend = [] →
    s.resolve j.fn h.addr h.data.length = .ok (r, abs) →
    (h.bobbin = none → s.bobs j = [] → ∃ t, exec (.warpDelivery c ⟨n, none⟩) s = .next t ∧
      t.readNow c.val abs h.data.length = h.data ∧ (t.core c.val).hold = (s.core c.val).hold.erase h) ∧
    ∀ b i last m l w d, h.bobbin = some (b, i, last) → h.entry = some m → s.loaded j.fn = some l → l.exe.warps[m]? = some w →
      w.reduction = none → w.counter = 0xFF → (s.bobs j).find? (fun o => o.num == b) = some d → h.data.length = 64 →
      let v := AMap.get Bobbin.reset (s.core c.val).bobbins b
      v.trans = [] → v.was = v.state → v.state = (if i = 0 then .empty else .filling) →
      ∃ t, exec (.warpDelivery c ⟨n, none⟩) s = .next t ∧ t.readNow c.val abs 64 = h.data ∧
        (t.core c.val).hold = (s.core c.val).hold.erase h ∧
        (AMap.get Bobbin.reset (t.core c.val).bobbins b).state = (if i = last then .full else .filling)

/-! ### Stitch and skein events -/

/-- R219, R254, R259, R262: a sound stitch flit leaves its time block, abandon and step fields and its message at the port;
one whose CRC fails is counted, and on the stitch tree of a running pass it raises LINK_DOWN 0x92. An abandon notice for
the running attempt abandons it with the status that the sender's reason gives (table "Causes of a stop": ABANDONED_SKEIN,
or TIMEOUT where a watchdog stopped it), without a retry unless a fault was the reason, and the notice goes on. -/
def Obligations.StitchFlits : Prop :=
  ∀ (s : State) (p : PortId),
    (∀ ticks hdr (v : BitVec 512), (s.port p.val).state = .full → fld hdr 0 2 = 2 →
      (linkOk hdr v = true → ∃ t b, exec (.stitchFlitReceive p ticks hdr v) s = .next t ∧ (t.port p.val).rxTime = some b ∧
        b.t1.toNat = fld v 0 64 ∧ b.t2 = s.clk.timebase + BitVec.ofNat 64 ticks ∧ b.t3.toNat = fld v 64 64 ∧
        b.echoDelay.toNat = fld v 128 32 ∧ b.residence.toNat = fld v 160 32 ∧ b.frame.toNat = fld v 192 32 ∧
        b.sg.toNat = fld v 224 8 ∧ (t.port p.val).rxSender.toNat = fld hdr 2 12 ∧
        (bitAt v 232 = true → ∃ n a, (t.port p.val).rxAbandon = some (n, a) ∧ n.toNat = fld v 256 32 ∧ a.toNat = fld v 288 8) ∧
        (bitAt v 233 = true → ∃ c n, (t.port p.val).rxStep = some (c, n) ∧ c.toNat = fld v 296 8 ∧ n.toNat = fld v 304 32) ∧
        (1 ≤ fld v 352 8 → fld v 352 8 ≤ 7 → ∃ m, (t.port p.val).rxMsg = some m ∧ m.mtype.toNat = fld v 352 8 ∧
          m.msg.toNat = fld v 360 152)) ∧
      (linkOk hdr v = false → ∃ t, exec (.stitchFlitReceive p ticks hdr v) s = .next t ∧
        AMap.get 0 (t.port p.val).counts 2 = AMap.get 0 (s.port p.val).counts 2 + 1 ∧
        ∀ k q, s.curPass s.skein.fn = some (k, q) → s.pass k = some q → q.state = .running → s.inSkein q = true →
          p.val ∈ s.treePorts → (s.reporter (12 + p.val / 8)).length < 16 →
          Raised s t (.io (p.val / 8)) .linkDown 0x92 ∧ Abandoned t k .abandonedFault)) ∧
    ∀ n a k q, (s.port p.val).rxAbandon = some (n, a) → s.curPass s.skein.fn = some (k, q) → s.pass k = some q →
      s.inSkein q = true → p.val ∈ s.treePorts → q.number = n → q.attempt = a.toNat → q.state = .running →
      ∀ why, ∃ t, exec (.abandonNotice ⟨p, why⟩) s = .next t ∧
        Abandoned t k (if why = .watchdog then .timeout else .abandonedSkein) ∧
        (why ≠ .fault → ∀ r, t.pass k = some r → r.noRetry = true) ∧
        t.skein.abandonOut = some (q.number, BitVec.ofNat 8 q.attempt)

/-- R279, R281, R294, R295: a sample of the time parent within 1,024 ticks, or any sample in warp service, is slewed out by
the correction law and its offset shown; a larger one moves the timebase otherwise, and the child takes the parent's frame
sequence and epoch. A parent whose frame or slot group is not the child's own raises TIME_OFFSET 0x03. The fourth sample in a
row beyond 128 ticks raises TIME_OFFSET 0x01, and 256 slot groups without a sample raise 0x02 and hold the oscillator. An announced code that the
module accepts is pending until its frame; any other raises CLOCK_FAULT 0x03. Rests on the model's choices and readings in
log entries 43, 46, 47, 48, 55, 131. -/
def Obligations.TimeSamples : Prop :=
  ∀ (s : State) (p : PortId), s.up = true → AMap.wf Port.reset s.ports = true →
    (∀ b theta (epoch : W64), (s.port p.val).rxTime = some b → s.fromTimeParent p.val = true → b.theta = some theta →
      (s.inWarp = true ∨ absRat theta ≤ 1024 → s.clk.joining = none → ∃ t, exec (.timeSample ⟨p, epoch⟩) s = .next t ∧
        t.clk.theta = thetaField theta ∧ t.clk.sinceSample = 0 ∧
        t.clk.integ = max (-100) (min 100 (s.clk.integ + theta / 4096)) ∧
        t.clk.dco = -max (-200) (min 200 (theta * 1000000 / ((64 * (32 * s.clk.period.toNat) : Nat) : Rat) + t.clk.integ)) ∧
        (s.clk.bad = 3 → 128 < absRat theta → (s.reporter 12).length < 15 →
          ∃ x ∈ t.reporter 12, x.cause = .timeOffset ∧ x.detail = 0x01) ∧
        (s.clk.differs b = true → (s.reporter 12).length < 15 →
          ∃ x ∈ t.reporter 12, x.cause = .timeOffset ∧ x.detail = 0x03)) ∧
      (s.inWarp = false → 1024 < absRat theta → ∃ t, exec (.timeSample ⟨p, epoch⟩) s = .next t ∧ t.clk.integ = 0 ∧
        t.clk.timebase = (s.clk.jump theta).timebase ∧ t.clk.epoch = epoch ∧
        ∀ d : Nat, (s.clk.jump theta).timebase = b.t1 + BitVec.ofNat 64 d → d < 32 * s.clk.period.toNat → b.sg.toNat < 100 →
          t.clk.frame = b.frame.setWidth 64 ∧ t.clk.sg = b.sg.toNat)) ∧
    (s.timeRoot = false → 256 ≤ s.clk.sinceSample → (s.reporter 12).length < 16 → ∃ t, exec .timeSampleLoss s = .next t ∧
      t.clk.state = .holdover ∧ t.clk.tol = false ∧ Raised s t .none' .timeOffset 0x02) ∧
    ∀ code low, (s.port p.val).rxStep = some (code, low) → s.fromTimeParent p.val = true →
      let ahead := (low - s.clk.frame.setWidth 32).toNat
      0 < ahead → ahead < 2 ^ 31 → ¬(s.clk.stepFrame = s.clk.frame + BitVec.ofNat 64 ahead ∧ s.clk.pending.toNat = code.toNat) →
      (code.toNat ∈ periodCodes → s.fuses.lowestCode.toNat ≤ code.toNat → ∃ t, exec (.stepAnnouncement p) s = .next t ∧
        t.clk.pending.toNat = code.toNat ∧ t.clk.announced = true ∧ t.clk.stepFrame = s.clk.frame + BitVec.ofNat 64 ahead) ∧
      (code.toNat ∉ periodCodes ∨ code.toNat < s.fuses.lowestCode.toNat → (s.reporter 12).length < 16 →
        s.clk.rejected ≠ some (s.clk.frame + BitVec.ofNat 64 ahead, code.toNat) →
        ∃ t, exec (.stepAnnouncement p) s = .next t ∧ t.clk.announced = s.clk.announced ∧ t.clk.pending = s.clk.pending ∧ Raised s t .none' .clockFault 0x03 ∧ t.clk.warpLost = true)

/-- R304, R306, R307, R308: a part of a child's agreement record that equals the member's own is counted; once every child's
four parts have matched, the root forms the skein and sends FORMED, and any other member sends its own parts up. A part that
differs sends REFUSED with the lowest field code that differs. FORMED and REFUSED from the parent go down and end FORM;
without either it ends with TIMEOUT. Rests on the model's choices and readings in log entries 56, 138. -/
def Obligations.SkeinFormation : Prop :=
  ∀ (s : State) (p : PortId) (m : StitchMsg), s.skein.state = .forming →
    (s.portMsg p.val 0x06 = some m → msgSkein m = s.skein.id → p.val ∈ s.stitchChildren → bitAt m.msg 2 = false →
      ∀ rec, s.skein.record = some rec →
      let part := fld m.msg 0 2
      let v : BitVec 128 := BitVec.ofNat 128 (fld m.msg 24 128)
      let sender := (s.port p.val).rxSender
      let whole := ∀ c ∈ s.stitchChildren, ∀ i < 4, ∃ g ∈ s.skein.got ++ [(p, part)], g.1.val = c ∧ g.2 = i
      (v = BitVec.ofNat 128 (fld rec (128 * part) 128) → ∃ t, exec (.agreementRecordPart p) s = .next t ∧
        t.skein.got = s.skein.got ++ [(p, part)] ∧
        (¬whole → t.skein.state = .forming ∧ t.out = s.out) ∧
        (whole → s.stitchRoot = false → t.skein.state = .forming ∧ Queued s t s.stitchParent (recordParts s.skein.id rec false)) ∧
        (whole → s.stitchRoot = true → t.skein.state = .formed ∧ t.skein.passNo = 0 ∧ FormEnded s t .done ∧
          ∀ c ∈ s.stitchChildren, Queued s t c [controlMsg 0x01 s.skein.id s.moduleId 0 0])) ∧
      (v ≠ BitVec.ofNat 128 (fld rec (128 * part) 128) → ∃ t code, exec (.agreementRecordPart p) s = .next t ∧
        partDiffers rec part v = some code ∧ t.skein.state = .forming ∧
        (s.stitchRoot = false → Queued s t s.stitchParent [controlMsg 0x02 s.skein.id sender code 0]) ∧
        (s.stitchRoot = true → s.skein.refusal = none → t.skein.refusal = some (code, sender)))) ∧
    (s.portMsg p.val 0x07 = some m → msgSkein m = s.skein.id → s.fromParent p = true →
      (fld m.msg 0 8 = 1 → ∃ t, exec (.formed p) s = .next t ∧ t.skein.state = .formed ∧ t.skein.passNo = 0 ∧
        FormEnded s t .done ∧ ∀ c ∈ s.stitchChildren, Queued s t c [m]) ∧
      (fld m.msg 0 8 = 2 → (s.reporter 12).length < 16 → ∃ t, exec (.refused p) s = .next t ∧ t.skein.state = .none ∧
        t.skein.field.toNat = fld m.msg 40 8 ∧ t.skein.module.toNat = fld m.msg 24 12 ∧ FormEnded s t .rejectedState ∧
        Raised s t .none' .skeinMismatch (BitVec.ofNat 8 (fld m.msg 40 8)) ∧ ∀ c ∈ s.stitchChildren, Queued s t c [m])) ∧
    (8000000 * s.pf .fabSkeinCfg 0 14 ≤ (s.clk.timebase - s.skein.formedAt).toNat →
      ∃ t, exec .formationTimeout s = .next t ∧ t.skein.state = .none ∧ FormEnded s t .timeout)

/-- R301, R312, R315, R316, R317: each control message of the member's own skein runs, whatever passes there are. LEAVE notes
the member that is away, goes on to the other tree ports and abandons a running pass of the skein with ABANDONED_SKEIN.
READMIT from the parent goes down and names the frame in which the detached member returns. BROKEN breaks the skein, goes on,
and ends its pass with ABANDONED_SKEIN and without a retry. DISSOLVE goes on and ends the membership: at once from BROKEN and
from FORMING, whose FORM it refuses, else once the last pass has completed. A detached member within tolerance for 16 frames
rejoins by sending its record again; a root that was detached has nobody to send it to. Rests on the model's choices and
readings in log entries 54, 59. -/
def Obligations.SkeinControl : Prop :=
  ∀ (s : State) (p : PortId),
    (∀ m : StitchMsg, s.portMsg p.val 0x07 = some m → msgSkein m = s.skein.id → s.skein.state ≠ .none →
      let who : BitVec 12 := BitVec.ofNat 12 (fld m.msg 24 12)
      let goesOn := fun (t : State) (m : StitchMsg) =>
        ∀ c ∈ s.stitchChildren, c ≠ p.val → (s.stitchRoot = false → c ≠ s.stitchParent) → Queued s t c [m]
      let runs := fun (k : Nat) (q : Pass) => s.curPass s.skein.fn = some (k, q) ∧ s.pass k = some q ∧ q.state = .running ∧
        AMap.wf none s.passes = true
      (fld m.msg 0 8 = 3 → ∃ t, exec (.leave p) s = .next t ∧ who ∈ t.skein.away ∧ t.skein.state = s.skein.state ∧
        goesOn t m ∧ ∀ k q, runs k q → Abandoned t k .abandonedSkein) ∧
      (fld m.msg 0 8 = 4 → ∃ t, exec (.readmit p) s = .next t ∧ t.skein.state = s.skein.state ∧
        (s.fromParent p = true → (∀ c ∈ s.stitchChildren, Queued s t c [m]) ∧
          (who = s.moduleId → s.skein.state = .detached → ∃ f, t.skein.readmitAt = some f ∧ f.toNat = fld m.msg 48 64) ∧
          (who ≠ s.moduleId → who ∉ t.skein.away)) ∧
        (s.fromParent p = false → t.skein = s.skein)) ∧
      (fld m.msg 0 8 = 5 → ∃ t, exec (.broken p) s = .next t ∧ t.skein.state = .broken ∧
        (s.skein.state ≠ .broken → t.skein.module = who ∧ t.skein.field.toNat = fld m.msg 40 8 ∧
          (s.skein.multi = true → goesOn t (controlMsg 0x05 s.skein.id who t.skein.field 0)) ∧
          ∀ k q, runs k q → Abandoned t k .abandonedSkein ∧ ∀ r, t.pass k = some r → r.noRetry = true)) ∧
      (fld m.msg 0 8 = 6 → ∃ t, exec (.dissolve p) s = .next t ∧ goesOn t m ∧
        (s.skein.state = .broken ∨ s.skein.state = .forming → t.skein.state = .none ∧ FormEnded s t .rejectedState) ∧
        (s.skein.state = .formed ∨ s.skein.state = .detached →
          t.skein.state = if ∃ kp ∈ s.allPasses, kp.2.fn = s.skein.fn then .dissolving else .none) ∧
        (s.skein.state = .dissolving → t.skein = s.skein))) ∧
    (s.skein.state = .detached → s.pf .fabSkeinCfg 14 1 = 1 → 16 ≤ s.clk.tolFrames →
      ∃ t, exec .autoRejoin s = .next t ∧ t.skein.state = .detached ∧
        (s.stitchRoot = false → Queued s t s.stitchParent (recordParts s.skein.id s.agreementRecord true)) ∧
        (s.stitchRoot = true → t.skein.rejoined = some s.moduleId))

/-- R115, R216, R217, R309, R310, R312: joins, offers and collective contributions of the children combine with the member's
own and go up, results come down and take effect. A child that differs in pass, attempt or barrier raises SKEIN_MISMATCH with
the field's code and breaks the skein. A member that has not joined by the start frame of its next kernel raises QUEUE_STALL
0x04. Rests on the model's choices and readings in log entries 38, 39, 56. -/
def Obligations.StitchCombining : Prop :=
  ∀ (s : State) (p : PortId) (m : StitchMsg) (k : Nat) (q : Pass), s.skein.state = .formed →
    s.curPass s.skein.fn = some (k, q) → s.pass k = some q → s.inSkein q = true → AMap.wf none s.passes = true →
    let child := p.val ∈ s.stitchChildren
    let parent := s.fromParent p = true
    let clean := bitAt m.msg 56
    let joined := ∀ c ∈ s.stitchChildren, ∃ i ∈ s.skein.joins ++ [p], i.val = c
    (s.portMsg p.val 0x01 = some m → child → q.state = .running →
      (fld m.msg 0 32 ≠ q.number.toNat → (s.reporter 12).length < 16 → ∃ t, exec (.barrierJoin p) s = .next t ∧
        Raised s t .none' .skeinMismatch 0x10 ∧ t.skein.state = .broken ∧ Abandoned t k .abandonedFault) ∧
      (fld m.msg 0 32 = q.number.toNat → fld m.msg 48 8 ≠ q.attempt → (s.reporter 12).length < 16 →
        ∃ t, exec (.barrierJoin p) s = .next t ∧ Raised s t .none' .skeinMismatch 0x11 ∧ t.skein.state = .broken) ∧
      (fld m.msg 0 32 = q.number.toNat → fld m.msg 48 8 = q.attempt → fld m.msg 32 16 = q.kernel →
        ∃ t, exec (.barrierJoin p) s = .next t ∧
          ((¬joined ∨ q.joined = false) → t.skein.joins = s.skein.joins ++ [p] ∧
            t.skein.joinsClean = (s.skein.joinsClean && clean)) ∧
          (joined → q.joined = true → q.resolved = false → s.stitchRoot = false →
            Queued s t s.stitchParent [barrierMsg 0x01 q.number q.kernel q.attempt (q.clean && (s.skein.joinsClean && clean))]) ∧
          (joined → q.joined = true → q.resolved = false → s.stitchRoot = true → q.clean = true → s.skein.joinsClean = true →
            clean = true → ∃ r, t.pass k = some r ∧ r.resolved = true))) ∧
    (s.portMsg p.val 0x02 = some m → parent → q.state = .running → fld m.msg 0 32 = q.number.toNat → fld m.msg 48 8 = q.attempt →
      fld m.msg 32 16 = q.kernel → ∃ t, exec (.barrierResult p) s = .next t ∧
        (∀ c ∈ s.stitchChildren, Queued s t c [m]) ∧
        (clean = true → ∃ r, t.pass k = some r ∧ r.resolved = true ∧ r.cleanKernels = q.cleanKernels + 1) ∧
        (clean = false → Abandoned t k .abandonedSkein)) ∧
    (s.portMsg p.val 0x05 = some m → q.state = .agreeing → q.start = none →
      (bitAt m.msg 136 = false → child → s.skein.offered = true → fld m.msg 0 32 = q.number.toNat →
        fld m.msg 32 8 = q.attempt → fld m.msg 40 32 = q.gen.toNat → fld m.msg 72 64 = q.reqId.toNat →
        (∀ c ∈ s.stitchChildren, ∃ i ∈ s.skein.offers ++ [p], i.val = c) → s.stitchRoot = false →
        ∃ t, exec (.passOffer p) s = .next t ∧
          Queued s t s.stitchParent [offerMsg q.number q.attempt q.gen q.reqId.toNat false]) ∧
      (bitAt m.msg 136 = true → parent → fld m.msg 0 32 = q.number.toNat → fld m.msg 32 8 = q.attempt →
        ∃ t r f, exec (.passOffer p) s = .next t ∧ t.pass k = some r ∧ r.start = some f ∧ f.toNat = fld m.msg 72 64 ∧
          ∀ c ∈ s.stitchChildren, Queued s t c [m])) ∧
    (∀ c, s.coll s.skein.fn (fld m.msg 0 16) = some c → fld m.msg 0 16 < 0xFFFD → ∀ l e, s.loaded s.skein.fn = some l →
      l.exe.colls[fld m.msg 0 16]? = some e →
      (s.portMsg p.val 0x03 = some m → child → c.dest.length < (e.group.filter fun g => g.1 == l.vmodule).length →
        ∃ t d, exec (.fscolContribution p) s = .next t ∧ t.coll s.skein.fn (fld m.msg 0 16) = some d ∧
          d.got = c.got ++ [(p, BitVec.ofNat 128 (fld m.msg 16 128))]) ∧
      (s.portMsg p.val 0x04 = some m → parent → NoWrites s → ∀ b a n r abs, c.dest = [(b, a, n)] → s.resolve c.fn a 16 = .ok (r, abs) →
        (∀ j, (s.core b.val).job = some j → s.bobs j = []) → e.counter = 0xFF → AMap.get none s.ops n = none →
        ∃ t, exec (.fscolResult p) s = .next t ∧ leNat (t.readNow b.val abs 16) = fld m.msg 16 128 ∧
          ∀ i ∈ s.stitchChildren, Queued s t i [m])) ∧
    (q.state = .running → q.joined = false → s.nextKernel q ≤ s.clk.frame.toNat → ∀ c rest e,
      ((s.memberCores s.skein.fn).filter fun c => !(s.core c).joined) = c :: rest →
      allEngines.find? (fun e => (s.engine c e).mode == .running) = some e → (s.reporter (coreDie c)).length < 16 →
      ∃ t, exec (.barrierJoinDeadline s.skein.fn) s = .next t ∧ Raised s t (.eng c e) .queueStall 0x04 ∧
        Abandoned t k .abandonedFault)

/-! ### Clock, time and port events -/

/-- R255, R259, R264, R276, R289, R291, R296: slot groups follow each other, 32 periods of 16 fs apart in ticks; each port in
full service sends its stitch flit and each usable port its weft flits. The frame start follows slot group 99, ends the guard
account of every region, whose overrun it counts, and starts the passes that are due. An announced step changes the period at
its frame after a pause of 8,000 ticks. Rests on the model's choices and readings in log entries 41 to 45, 50. -/
def Obligations.SlotGroupsAndFrames : Prop :=
  ∀ (s : State), s.up = true → AMap.wf Port.reset s.ports = true → AMap.wf none s.passes = true →
    (s.clk.sg < 99 ∨ s.clk.sg = 100 → s.chk.fatal = false → ∃ t, exec .slotGroupStart s = .next t ∧
      let g := if s.clk.sg = 100 then 0 else s.clk.sg + 1
      t.clk.sg = g ∧ t.clk.frame = s.clk.frame ∧ t.clk.timebase = s.clk.frameStart + BitVec.ofNat 64 (32 * g * s.clk.period.toNat) ∧
      t.skein.abandonOut = none ∧
      ∀ p : PortId, ((s.port p.val).state = .full →
          ∃ v, Out.flit p (linkHeader (2 + s.moduleId.toNat * 4) v) v ∈ t.out) ∧
        ((s.port p.val).usable = true → (t.port p.val).egress =
          (s.port p.val).egress.drop (weftPositions s.clk.period.toNat (s.pf (.fabPortCtrl p) 1 2 == 3)))) ∧
    (s.clk.sg = 99 → ∃ t, exec .frameStart s = .next t ∧ t.clk.frame = s.clk.frame + 1 ∧
      t.clk.frameStart = s.clk.frameStart + BitVec.ofNat 64 (3200 * s.clk.period.toNat) ∧ t.clk.sg = 100 ∧
      t.clk.timebase = t.clk.frameStart ∧
      (∀ r < 52, (∀ ck ∈ s.cores, ck.2.job = none) → (t.region r).stretches = 0 ∧ (t.region r).overruns =
        if 128 < (s.region r).stretches then (s.region r).overruns + 1 else (s.region r).overruns) ∧
      ∀ k q f, s.pass k = some q → q.state = .agreeing → q.start = some f → f.toNat ≤ (s.clk.frame + 1).toNat →
        (s.loaded q.fn).isSome = true → ∃ r, t.pass k = some r ∧ r.state = .running ∧ r.kernel = 0 ∧ r.kernelStart = f ∧
          r.clean = true) ∧
    (s.clk.sg = 100 → s.clk.announced = true → s.clk.stepFrame = s.clk.frame → ∃ t, exec .stepFrame s = .next t ∧
      t.clk.period = s.clk.pending ∧ t.clk.announced = false ∧ t.clk.frameStart = s.clk.frameStart + 8000 ∧
      t.clk.timebase = s.clk.frameStart + 8000 ∧ t.obs.agreed = s.obs.agreed + 1)

/-- R282, R284, R286, R287, R456: a region that a replica or a detector asks stretches one period; within 3 cycles of its
last stretch it absorbs the request, and a failing replica raises MARGIN_CRITICAL 0x01; a token of a neighbour stretches it
too. A generator out of lock is CLOCK_FAULT 0x01, a bad reference 0x02, both fatal. An edge on TIME_IN corrects a root that
follows it, at least 500 µs after the previous one; TIME_OUT pulses. Rests on the model's choices and readings in log entries
43, 49. -/
def Obligations.StretchAndTimePins : Prop :=
  ∀ (s : State), s.up = true →
    (∀ (r : RegionId) (cycle : Nat) (rep : Bool),
      let t0 := s.clk.clocked.toNat + cycle
      (s.absorbs r.val t0 = false → ∃ t, exec (.stretch r cycle rep) s = .next t ∧
        (t.region r.val).stretches = (s.region r.val).stretches + 1 ∧ (t.region r.val).last = some t0 ∧
        (t.region r.val).total = (s.region r.val).total + 1) ∧
      (s.absorbs r.val t0 = true → (s.region r.val).last ≠ some t0 → (s.reporter (regionSrc r.val).reporter).length < 16 →
        ∃ t, exec (.stretch r cycle true) s = .next t ∧ Raised s t (regionSrc r.val) .marginCritical 0x01) ∧
      ((s.region r.val).last = some t0 → exec (.stretch r cycle rep) s = .next s) ∧
      (s.absorbs r.val t0 = true → exec (.stretch r cycle false) s = .next s) ∧
      (s.absorbs r.val t0 = false → 0 < t0 → ∀ n : RegionId, adjacentRegions r.val n.val = true →
        (s.region n.val).last = some (t0 - 1) → ∃ t, exec (.stretchToken r cycle) s = .next t ∧
          (t.region r.val).stretches = (s.region r.val).stretches + 1 ∧ (t.region r.val).last = some t0) ∧
      ((s.reporter (regionSrc r.val).reporter).length < 16 → ∃ t, exec (.lockMonitorFault (some r)) s = .next t ∧
        Raised s t (regionSrc r.val) .clockFault 0x01 ∧ t.chk.fatal = true ∧ t.chk.cause = 0x19 ∧ t.chk.detail = 0x01)) ∧
    ((s.reporter 12).length < 16 → ∃ t, exec (.lockMonitorFault none) s = .next t ∧
      Raised s t .none' .clockFault 0x02 ∧ t.chk.fatal = true ∧ t.chk.cause = 0x19 ∧ t.chk.detail = 0x02) ∧
    (∀ ticks high rise, s.timeRoot = true → s.pf .clkTimeCtrl 6 1 = 1 → 100 ≤ high → rise ≤ 10 →
      let now := s.clk.timebase + BitVec.ofNat 64 ticks
      let late := ∀ t0, s.clk.lastEdge = some t0 → 4000000 ≤ (now - t0).toNat
      (late → now.toNat % 8000000 ≤ 1024 → ∃ t, exec (.timeInEdge ticks high rise) s = .next t ∧ t.clk.lastEdge = some now ∧
        t.clk.integ = max (-100) (min 100 (s.clk.integ + ((now.toNat % 8000000 : Nat) : Rat) / 4096))) ∧
      (¬late → ∃ t, exec (.timeInEdge ticks high rise) s = .next t ∧ t.clk = s.clk)) ∧
    ∃ t, exec .timeOutPulse s = .next t ∧ t.out = .timeOut false :: .timeOut true :: s.out

/-- R246, R250, R251, R252, R313: a port that goes down raises LINK_DOWN, 0x90 against a pass that uses it and 0x91 where
none does, breaks the skein whose stitch tree it carries, and carries nothing until it has trained again; training that finds
no peer leaves it down. Training gives the one-way delay, half the round trip less half the turnaround, and ends in full service where the delay
meets its reach class and no codeword was uncorrectable, else in weft service. A written mesh mode takes effect at a frame
boundary at which no pass is busy. Rests on the model's choices and readings in log entries 44, 51. -/
def Obligations.PortsAndMeshMode : Prop :=
  ∀ (s : State) (p : PortId), AMap.wf none s.passes = true →
    ((s.port p.val).state = .full ∨ (s.port p.val).state = .weftOnly → (s.reporter (12 + p.val / 8)).length < 16 →
      ∃ t, exec (.portDown p) s = .next t ∧ (t.port p.val).state = .down ∧ (t.port p.val).absent = false ∧
        (t.port p.val).warpOn = false ∧ (t.port p.val).msgs = [] ∧
        (s.portUsers p.val = [] → Raised s t (.io (p.val / 8)) .linkDown 0x91) ∧
        (∀ k q, s.portUsers p.val = [k] → s.pass k = some q → q.state = .running →
          Raised s t (.io (p.val / 8)) .linkDown 0x90 ∧ Abandoned t k .abandonedFault) ∧
        (s.skein.multi = true → p.val ∈ s.treePorts → s.skein.state = .formed → t.skein.state = .broken)) ∧
    ((s.port p.val).state = .training → ∃ t, exec (.portDown p) s = .next t ∧ (t.port p.val).state = .down ∧
      (t.port p.val).absent = true ∧ ∀ r < 16, t.reporter r = s.reporter r) ∧
    ((s.port p.val).state = .training ∨ (s.port p.val).state = .down → ∀ trip turn clean,
      let ns := (trip - turn) / 2
      let fit := clean = true ∧ ns ≤ (if s.pf (.fabPortCtrl p) 1 2 < 2 then 3800 else 7800)
      ∃ t, exec (.portTrainingComplete p ⟨trip, turn⟩ clean) s = .next t ∧ ((t.port p.val).fit = true ↔ fit) ∧
        (ns < 65536 → (t.port p.val).delay.toNat = ns) ∧
        (fit → s.pf (.fabPortCtrl p) 3 1 = 1 → (t.port p.val).state = .full) ∧
        (¬fit ∨ s.pf (.fabPortCtrl p) 3 1 = 0 → (t.port p.val).state = .weftOnly)) ∧
    ∀ v, s.modePending = some v → s.up = true →
      (s.clk.sg = 100 → (∀ kp ∈ s.allPasses, passBusy kp.2.state = false) → ∃ t, exec .meshModeChange s = .next t ∧
        t.scheduled = v ∧ t.modePending = none) ∧
      (s.clk.sg ≠ 100 → exec .meshModeChange s = .next s)

/-! ### Host rings and descriptors -/

/-- R347, R348, R350, R351, R352, R356, R360: rings go through their states; the doorbell page gives each enabled ring its
index, and an index of its size or more is an error; the page is read a period after the last time. A fetched descriptor takes a tag, a completion entry and a journal
entry; one whose format is wrong is rejected, one whose identifier has ended is a DUPLICATE, and in the fatal state every one
but NOP is refused. Messages that wait leave at
the moderation delay and in the next millisecond. Rests on the model's choices and readings in log entries 62, 130, 137, 140.
-/
def Obligations.RingsAndInterrupts : Prop :=
  ∀ (s : State) (f : FnId) (r : RingId), s.live f = true →
    let u := s.fn f.val
    ((u.cqOf r.val).state = .disabled → ∃ t, exec (.ringEnable f true r) s = .next t ∧
      let q := (t.fn f.val).cqOf r.val
      q.state = .enabled ∧ q.tail = 0 ∧ q.head = 0 ∧ q.phase = true ∧ q.reserved = 0) ∧
    ((u.sqOf r.val).state = .disabled → ((u.cqOf (s.cqFor f r).val).state = .enabled → ∃ t, exec (.ringEnable f false r) s = .next t ∧
        ((t.fn f.val).sqOf r.val).state = .enabled ∧ ((t.fn f.val).sqOf r.val).head = 0) ∧
      ((u.cqOf (s.cqFor f r).val).state ≠ .enabled → ∃ t, exec (.ringEnable f false r) s = .next t ∧
        ((t.fn f.val).sqOf r.val).state = .disabled ∧ fld (t.reg f (.rngSq r)) 72 1 = 0)) ∧
    ((u.sqOf r.val).state = .enabled → ∃ t, exec (.ringDisable f false r) s = .next t ∧
      ((t.fn f.val).sqOf r.val).state = if (u.fetched.any fun x => x.ring == r) then .draining else .disabled) ∧
    ((u.cqOf r.val).state = .enabled → ∃ t, exec (.ringDisable f true r) s = .next t ∧
      ((t.fn f.val).cqOf r.val).state = if (u.cqOf r.val).reserved = 0 then .disabled else .draining) ∧
    (∀ tails heads a n, tails.length = 16 → heads.length = 16 → fld (s.reg f .rngDbr) 0 1 = 1 → s.pollDue f = true →
      ∃ t, exec (.doorbellPoll f tails heads a n) s = .next t ∧ (t.fn f.val).pageAddr = a ∧ (t.fn f.val).pageSeq = n ∧
        (t.fn f.val).polled = some s.clk.timebase ∧
        ((u.sqOf r.val).state = .enabled → ((t.fn f.val).sqOf r.val) =
          if fld (nth 0 tails r.val) 0 16 < s.sqSize f r then { u.sqOf r.val with tail := fld (nth 0 tails r.val) 0 16 }
          else { u.sqOf r.val with state := .error }) ∧
        ((u.cqOf r.val).state = .enabled → ((t.fn f.val).cqOf r.val) =
          if fld (nth 0 heads r.val) 0 16 < s.cqSize f r then { u.cqOf r.val with head := fld (nth 0 heads r.val) 0 16 }
          else { u.cqOf r.val with state := .error })) ∧
    (∀ d, s.power.phase = .ready → s.mayFetch f r = true → u.find r (u.sqOf r.val).head = none →
      (∀ x ∈ u.fetched, x.phase ≠ .duplicate) →
      let i := (u.sqOf r.val).head
      let ended := fun (t : State) (st : Status) (o : Byte) => (t.fn f.val).find r i = none ∧
        ∃ k phase x, Out.completion f (s.cqFor f r) k (completionEntry d r i st phase x) ∈ t.out ∧ x.orig = o
      (s.chk.fatal = true → descOp d ≠ 0 → ∃ t, exec (.descriptorFetch f r d) s = .next t ∧ ended t .rejectedState 0) ∧
      (descValid d = false → s.chk.fatal = false → ∃ t, exec (.descriptorFetch f r d) s = .next t ∧ ended t .rejectedFormat 0) ∧
      (descValid d = true → descId d ≠ 0 → u.lookup (descId d) = none → s.chk.fatal = false →
        ∃ t x, exec (.descriptorFetch f r d) s = .next t ∧ (t.fn f.val).fetched = u.fetched ++ [x] ∧ x.ring = r ∧ x.index = i ∧
          x.desc = d ∧ x.phase = .fetched ∧ (t.fn f.val).tags = u.tags + 1 ∧ (t.fn f.val).lookup (descId d) = some none ∧
          ((t.fn f.val).cqOf (s.cqFor f r).val).reserved = (u.cqOf (s.cqFor f r).val).reserved + 1) ∧
      (descValid d = true → descId d ≠ 0 → s.chk.fatal = false → ∀ st, u.lookup (descId d) = some (some st) →
        ∃ t, exec (.descriptorFetch f r d) s = .next t ∧ ended t .duplicate st.code)) ∧
    (∀ v t0, s.cqVector f r = v → (u.cqOf r.val).oldest = some t0 → 0 < fld (s.reg f (.irqMod v)) 8 10 →
      8000 * fld (s.reg f (.irqMod v)) 8 10 ≤ (s.clk.timebase - t0).toNat → ∃ t, exec (.irqDelayExpiry f v) s = .next t ∧
        ((t.fn f.val).cqOf r.val).unsignalled = 0 ∧ (u.irqSent < 4 * fld u.qos 24 8 → Out.msix f v ∈ t.out)) ∧
    (u.irqHeld.length ≤ 4 * fld u.qos 24 8 → ∃ t, exec (.interruptAllowanceRenewal f) s = .next t ∧
      (t.fn f.val).irqHeld = [] ∧ (t.fn f.val).irqSent = u.irqHeld.length ∧ ∀ v ∈ u.irqHeld, Out.msix f v ∈ t.out)

/-- R218, R301, R345, R352, R353: NOP ends with DONE, FENCE once every earlier descriptor of its scope has ended, RESUME at
once and PREEMPT once no pass of the function is busy. PASS_SUBMIT queues a pass with its identifier, seed and buffers, and
COPY moves its bytes at a pass boundary. Rests on the model's choices and readings in log entries 60, 61. -/
def Obligations.ShortDescriptors : Prop :=
  ∀ (s : State) (f : FnId) (r : RingId) (i : BitVec 12) (d : Fetched),
    (s.taken f r i 0 = some d → ∃ t, exec (.nopDescriptor f r i) s = .next t ∧ Completed s t f r i .done) ∧
    (s.taken f r i 5 = some d → (s.fn f.val).ready = none → (∀ x ∈ (s.fn f.val).fetched, x.ring = r → x.index = i → x = d) →
      let earlier := fun (e : Fetched) => e.order < d.order ∧ (dfld d.desc 16 1 = 1 ∨ e.ring = r)
      ((∀ e ∈ (s.fn f.val).fetched, ¬earlier e) → ∃ t, exec (.fence f r i) s = .next t ∧ Completed s t f r i .done) ∧
      ((∃ e ∈ (s.fn f.val).fetched, earlier e) → ∃ t, exec (.fence f r i) s = .next t ∧
        (t.fn f.val).find r i = some { d with phase := .executing })) ∧
    (s.taken f r i 1 = some d → ∀ bufs, bufs.length = dfld d.desc 24 2 →
      (s.loaded f = none → ∃ t, exec (.passSubmit f r i bufs) s = .next t ∧ Completed s t f r i .rejectedState) ∧
      ∀ l, s.loaded f = some l →
        (bufs.length < Exe.buffers l.exe → ∃ t, exec (.passSubmit f r i bufs) s = .next t ∧
          Completed s t f r i .rejectedFormat) ∧
        (Exe.buffers l.exe ≤ bufs.length → s.scheduled = false ∨ s.skeinTakes f l.exe = false →
          ∃ t, exec (.passSubmit f r i bufs) s = .next t ∧ Completed s t f r i .rejectedState) ∧
        (Exe.buffers l.exe ≤ bufs.length → s.scheduled = true → (s.func f).enable = true → s.skeinTakes f l.exe = true →
          ∃ t p, exec (.passSubmit f r i bufs) s = .next t ∧ t.pass s.nextPass = some p ∧ p.state = .queued ∧ p.fn = f ∧
            p.ring = r ∧ p.index = i ∧ p.reqId = descId d.desc ∧ p.seed.toNat = dfld d.desc 32 8 ∧ p.bufs = bufs ∧ p.attempt = 0)) ∧
    (s.taken f r i 6 = some d → s.inv = true →
      let a : MAddr := BitVec.ofNat 48 (dfld d.desc 24 6)
      let n := dfld d.desc 32 4
      let reg := s.regionOf f (aSpace a)
      let abs := absAddr (aSpace a) (aCore a) (aOff a)
      (aSpace a = 1 ∨ aSpace a = 2) → bitAt a 43 = false → s.inPart f (aCore a) = true →
      (∀ data, data.length = (if dfld d.desc 36 1 = 0 then n else 0) → aOff a < reg.1 ∨ reg.1 + reg.2 < aOff a + n →
        ∃ t, exec (.copy f r i data) s = .next t ∧ Completed s t f r i .rejectedFormat) ∧
      (reg.1 ≤ aOff a → aOff a + n ≤ reg.1 + reg.2 → s.scrubbing f (aSpace a) = false →
        (∀ data, data.length = (if dfld d.desc 36 1 = 0 then n else 0) → s.partBusy f = true → exec (.copy f r i data) s = .next s) ∧
        (s.partBusy f = false → dfld d.desc 36 1 = 0 → ∀ data, data.length = n → ∃ t, exec (.copy f r i data) s = .next t ∧
          t.readNow (aCore a) abs n = data ∧ Completed s t f r i .done) ∧
        (s.partBusy f = false → dfld d.desc 36 1 = 1 → eccWorst s.ecc (eccWord (aSpace a)) abs n = none →
          ∃ t, exec (.copy f r i []) s = .next t ∧
          Out.hostWrite (BitVec.ofNat 64 (dfld d.desc 16 8)) (s.readNow (aCore a) abs n) ∈ t.out ∧ Completed s t f r i .done))) ∧
    (s.taken f r i 7 = some d → dfld d.desc 16 1 = 3 → (∀ x ∈ (s.fn f.val).fetched, x.phase ≠ .executing) →
      ∃ t, exec (.skeinCtlPreempt f r i) s = .next t ∧ (t.fn f.val).preempt = some (BitVec.ofNat 64 (dfld d.desc 24 8)) ∧
        ((∀ kp ∈ s.allPasses, kp.2.fn = f → passBusy kp.2.state = false) → Completed s t f r i .done) ∧
        ((∃ kp ∈ s.allPasses, kp.2.fn = f ∧ passBusy kp.2.state = true) →
          (t.fn f.val).find r i = some { d with phase := .executing })) ∧
    (s.taken f r i 7 = some d → dfld d.desc 16 1 = 4 → ∃ t, exec (.skeinCtlResume f r i) s = .next t ∧
      (t.fn f.val).preempt = none ∧ Completed s t f r i .done)

/-- R300, R303, R304, R306, R317: FORM with a plan that names this module once, of the executable's skein size, starts the
formation where the skein ports are in full service and time is settled; a member without children sends its agreement record
at once. A skein of one member is formed at once. DISSOLVE ends with DONE and sends DISSOLVE on the tree. Rests on the
model's choices and readings in log entries 57, 58, 59, 135. -/
def Obligations.SkeinCommands : Prop :=
  ∀ (s : State) (f : FnId) (r : RingId) (i : BitVec 12) (d : Fetched), s.taken f r i 7 = some d →
    (dfld d.desc 16 1 = 1 → ∀ plan : List (BitVec 12), plan.length = dfld d.desc 20 2 →
      ((plan.filter fun m => m == s.moduleId).length ≠ 1 → ∃ t, exec (.skeinCtlForm f r i plan) s = .next t ∧
        Completed s t f r i .rejectedFormat) ∧
      ∀ l, (plan.filter fun m => m == s.moduleId).length = 1 → s.loaded f = some l →
        (plan.length ≠ l.exe.header.skeinSize → ∃ t, exec (.skeinCtlForm f r i plan) s = .next t ∧
          Completed s t f r i .rejectedFormat) ∧
        (plan.length = l.exe.header.skeinSize → plan.length = 1 → ∃ t, exec (.skeinCtlForm f r i plan) s = .next t ∧
          Completed s t f r i .done ∧ (t.fn f.val).passNo = 0) ∧
        (plan.length = l.exe.header.skeinSize → 2 ≤ plan.length → s.formReady f = false →
          ∃ t, exec (.skeinCtlForm f r i plan) s = .next t ∧ Completed s t f r i .rejectedState) ∧
        (plan.length = l.exe.header.skeinSize → 2 ≤ plan.length → s.formReady f = true →
          ∃ t, exec (.skeinCtlForm f r i plan) s = .next t ∧ t.skein.plan = plan ∧ t.skein.fn = f ∧
            t.skein.id.toNat = dfld d.desc 18 2 ∧
            (s.clk.announced = true → t.skein.state = .forming ∧ t.skein.record = none ∧ t.skein.desc = some (r, i)) ∧
            (s.clk.announced = false → s.stitchRoot = false → t.skein.state = .forming ∧ t.skein.desc = some (r, i) ∧
              ∃ rec, t.skein.record = some rec ∧
                (s.stitchChildren = [] → Queued s t s.stitchParent (recordParts t.skein.id rec false)) ∧
                (s.stitchChildren ≠ [] → t.ports = s.ports)))) ∧
    (dfld d.desc 16 1 = 2 → s.skein.desc = none → ∃ t, exec (.skeinCtlDissolve f r i) s = .next t ∧ Completed s t f r i .done ∧
      (s.skein.fn = f → s.skein.state = .formed ∨ s.skein.state = .detached ∨ s.skein.state = .broken →
        (∀ c ∈ s.stitchChildren, (s.stitchRoot = false → c ≠ s.stitchParent) →
          Queued s t c [controlMsg 0x06 s.skein.id s.moduleId 0 0]) ∧
        (s.skein.state = .broken → t.skein.state = .none) ∧
        ((∃ kp ∈ s.allPasses, kp.2.fn = f ∧ passBusy kp.2.state = true) → s.skein.state ≠ .broken →
          t.skein.state = .dissolving)))

/-- R127, R138, R151, R180, R208, R213, R214, R224: PROGRAM_LOAD ends with the status of the first check that fails:
REJECTED_FORMAT, REJECTED_CAPABILITY, REJECTED_LIBRARY, and REJECTED_STATE where a pass runs on the partition. A load that passes them all puts the executable, placed and with its
limits clamped, into the function and its streams into the program regions of the placed cores. Rests on the model's choices
and readings in log entries 23, 67, 68, 129. -/
def Obligations.ProgramLoad : Prop :=
  ∀ (s : State) (f : FnId) (r : RingId) (i : BitVec 12) (d : Fetched) (x : Exe) (img : Option LoadImage),
    s.taken f r i 2 = some d → x.file.length = dfld d.desc 24 8 → (img = none ↔ dfld d.desc 40 4 = 0) → s.inv = true →
    (∀ g ∈ (s.fn f.val).gens, g.state ≠ .loading) →
    let vm := imageModule img
    (formatOk x = false ∨ s.structureOk x vm = false → ∃ t, exec (.programLoad f r i x img) s = .next t ∧
      Completed s t f r i .rejectedFormat ∧ (t.fn f.val).exe = (s.fn f.val).exe) ∧
    (formatOk x = true → s.structureOk x vm = true →
      (s.capsOk x vm = false ∨ x.header.latVersion ≠ 1 ∨ s.clk.period.toNat < x.header.pcMin.toNat ∨
          x.header.pcMax.toNat < s.clk.period.toNat → ∃ t, exec (.programLoad f r i x img) s = .next t ∧
        Completed s t f r i .rejectedCapability ∧ (t.fn f.val).exe = (s.fn f.val).exe) ∧
      (s.capsOk x vm = true → x.header.latVersion = 1 → x.header.pcMin.toNat ≤ s.clk.period.toNat →
        s.clk.period.toNat ≤ x.header.pcMax.toNat → (∀ l, s.library = some l → l.abi ≠ x.header.libAbi ∨ l.manifestHash ≠ x.header.libManifest) →
        ∃ t, exec (.programLoad f r i x img) s = .next t ∧ Completed s t f r i .rejectedLibrary)) ∧
    (s.loadCheck f x (dfld d.desc 40 4) img = .error .rejectedState → ∃ t, exec (.programLoad f r i x img) s = .next t ∧
      Completed s t f r i .rejectedState ∧ (t.fn f.val).exe = (s.fn f.val).exe) ∧
    ∀ l, s.loadCheck f x (dfld d.desc 40 4) img = .ok l → s.partRuns f = false ∧ ∃ t, exec (.programLoad f r i x img) s = .next t ∧ Completed s t f r i .done ∧
      (t.fn f.val).exe = some l ∧ l.exe = x ∧ 256 ≤ l.stall ∧ l.stall ≤ 2 ^ 24 ∧ l.grace ≤ 1024 ∧ 1000 ≤ l.passLimit ∧
      l.passLimit ≤ 1000000 ∧
      ∀ v ∈ l.place, s.inPart f v.1 = true ∧ s.serving v.1 = true ∧
        memGet t.mem (absAddr 3 v.1 0) (8 * (Exe.wordsOf x v.2).length) = (Exe.wordsOf x v.2).flatMap fun w => leBytes 8 w.toNat

/-! ### Pass lifecycle -/

/-- R218, R219, R242, R309, R310, R311, R330, R333, R346: at a pass boundary the partition admits the next pass of the
function with the smallest ratio of account to weight, which pins its generation, or refuses it. The inputs and images of an
attempt land before it agrees; an image entry that may not land is CONTROL_PARITY 0x07. A pass of one member agrees at once
on the next frame, a member of a skein makes its offer. Rests on the model's choices and readings in log entries 53, 61, 63,
64. -/
def Obligations.PassStart : Prop :=
  ∀ (s : State),
    (∀ p f k q n, s.up = true → s.admits p = true → s.nextFn p = some f → s.queuedPass f = some (k, n) → s.pass k = some q →
      q.state = .queued →
      ((∀ g ∈ s.admissible p, 0 < fld (s.fn g.val).qos 0 8) → ∀ g ∈ s.admissible p,
        (s.fn f.val).account * fld (s.fn g.val).qos 0 8 ≤ (s.fn g.val).account * fld (s.fn f.val).qos 0 8) ∧
      ∀ l, s.loaded f = some l → s.skeinTakes f l.exe = true → (s.func f).enable = true →
        ((∃ c ∈ s.memberCores f, s.serving c = false) → ∃ t, exec (.passAdmit p) s = .next t ∧ t.pass k = none ∧
          Completed s t q.fn q.ring q.index .rejectedState) ∧
        ((∀ c ∈ s.memberCores f, s.serving c = true) →
          (s.pinned f l.exe = none → ∃ t, exec (.passAdmit p) s = .next t ∧ t.pass k = none ∧
            Completed s t q.fn q.ring q.index .rejectedGeneration) ∧
          (∀ g copy, s.pinned f l.exe = some (g, copy) → ∃ t, exec (.passAdmit p) s = .next t ∧
            t.pass k = some { q with gen := g, copy := copy, admittedAt := s.clk.timebase, state := .admitted }))) ∧
    ∀ f k q l, s.curPass f = some (k, q) → s.pass k = some q → s.loaded f = some l → q.state = .admitted →
      (q.loaded = false → s.inv = true → NoWrites s → ∀ ins images, ins.map List.length = l.exe.inputs.map InputEntry.length →
        (∀ v ∈ l.place, v.1 < 1728) →
        (∀ e ∈ l.exe.inputs, ∀ c, l.coreOf e.vcore = some c →
          ∃ v, s.resolve f (BitVec.ofNat 48 (absAddr e.space c e.offset)) e.length = .ok v) →
        let good := fun (e : ImageEntry) => (l.coreOf e.vcore).isSome = true ∧ e.pastEnd = false ∧ (e.space = 1 ∨ e.space = 2) ∧
          e.offset + e.data.length ≤ (s.regionOf f e.space).2
        ((∀ e ∈ images, good e) → ∃ t, exec (.memoryImageLoad f ins images) s = .next t ∧
          t.pass k = some { q with loaded := true } ∧
          ∀ pre e post c, images = pre ++ e :: post → l.coreOf e.vcore = some c →
            (∀ o ∈ post, l.coreOf o.vcore ≠ some c ∨ o.space ≠ e.space ∨ e.offset + e.data.length ≤ o.offset ∨
              o.offset + o.data.length ≤ e.offset) →
            t.readNow c (absAddr e.space c ((s.regionOf f e.space).1 + e.offset)) e.data.length = e.data) ∧
        ((∃ e ∈ images, ¬good e) → (s.reporter 12).length < 16 → ∃ t, exec (.memoryImageLoad f ins images) s = .next t ∧
          Raised s t .none' .controlParity 0x07 ∧ Abandoned t k .abandonedFault)) ∧
      (q.loaded = true → q.start = none → s.fenced q = true → exec (.passAgree f) s = .next s) ∧
      (q.loaded = true → q.start = none → s.fenced q = false →
        (l.exe.header.skeinSize = 1 → s.inSkein q = false → ∃ t v, exec (.passAgree f) s = .next t ∧ t.pass k = some v ∧
          v.state = .agreeing ∧ v.number = (s.fn f.val).passNo ∧
          v.start = some (BitVec.ofNat 64 (ceilDiv (s.slotCount + 1) 100))) ∧
        (2 ≤ l.exe.header.skeinSize → s.inSkein q = true → s.skein.state = .formed → s.skein.offered = false → s.skein.held = [] →
          s.stitchRoot = false → ∃ t v, exec (.passAgree f) s = .next t ∧ t.pass k = some v ∧ v.state = .agreeing ∧
            v.number = s.skein.passNo ∧ t.skein.offered = true ∧ (s.stitchChildren = [] →
              Queued s t s.stitchParent [offerMsg s.skein.passNo q.attempt q.gen q.reqId.toNat false])))

/-- R19, R218, R219, R220, R221, R353, R381, R382, R383, R384: at its final gate a member writes its outputs to the host and
joins with the hash and count of its leaves; a clean gate writes the certificate and the completion, an unclean one abandons
the attempt. A hash unit whose doubled result differed makes the join unclean with RESIDUE_MISMATCH 0xA0. An output write
error is LINK_DOWN 0xA0 before the join. A quiesced pass retries with the next attempt number or
ends with its status; the watchdog ends it with TIMEOUT, a pre-emption deadline with ABANDONED_PREEMPT. Rests on the model's
choices and readings in log entries 65, 66, 70, 137. -/
def Obligations.PassEnd : Prop :=
  ∀ (s : State) (f : FnId) (k : Nat) (q : Pass) (l : Loaded), s.curPass f = some (k, q) → s.pass k = some q →
    s.loaded f = some l →
    (q.state = .gating → q.gated = false → s.inSkein q = false → ∀ c abs : OutputEntry → Nat,
      (∀ d, s.chk.hashUpset = some d → l.exe.outputs = [] → (s.reporter (12 + d.val)).length < 16 →
        ∃ t, exec (.finalGate f) s = .next t ∧ Raised s t (.io d.val) .residueMismatch 0xA0 ∧ Abandoned t k .abandonedFault ∧
          t.chk.hashUpset = none) ∧
      (s.chk.hashUpset = none →
      (∀ e ∈ l.exe.outputs, l.coreOf e.vcore = some (c e) ∧
        s.resolve q.fn (BitVec.ofNat 48 (absAddr e.space (c e) e.offset)) e.length = .ok (c e, abs e) ∧
        eccWorst s.ecc (eccWord e.space) (abs e) e.length = none) →
      ∃ t v, exec (.finalGate f) s = .next t ∧ t.pass k = some v ∧ v.gated = true ∧ v.state = .gating ∧
        (∀ e ∈ l.exe.outputs, Out.hostWrite (nth 0 q.bufs e.buffer + BitVec.ofNat 64 e.hostOffset)
          (s.readNow (c e) (abs e) e.length) ∈ t.out) ∧
        ∀ e, l.exe.outputs = [e] → 0 < e.length → e.length ≤ 65536 → v.leafBytes = e.length ∧
          v.leafXor = sha256n (leBytes 8 0 ++ s.readNow (c e) (abs e) e.length))) ∧
    (q.state = .gating → q.gated = true →
      (∀ x n b, s.gateResult q = some (true, x, n, b) → ∃ t, exec (.gateResult f) s = .next t ∧ t.pass k = none ∧
        Out.certificate q.certAddr (s.certificate q l.exe (outputHash x b) n) ∈ t.out ∧
        Completed s t q.fn q.ring q.index (if q.attempt = 0 then .done else .doneRetried)) ∧
      (∀ x n b, s.gateResult q = some (false, x, n, b) → ∃ t, exec (.gateResult f) s = .next t ∧
        Abandoned t k .abandonedSkein) ∧
      ∃ t, exec (.outputWriteError f) s = .next t ∧ ((t.fn f.val).cqOf (s.cqFor f q.ring).val).state = .error) ∧
    ((q.state = .running ∨ q.state = .gating ∧ q.gated = false) → (s.reporter 12).length < 16 →
      ∃ t, exec (.outputWriteError f) s = .next t ∧ Raised s t (.io 0) .linkDown 0xA0 ∧ Abandoned t k .abandonedFault) ∧
    (q.state = .quiescing → (∀ kv ∈ s.txns, ∀ t, kv.2 = some t → t.pass ≠ k) →
      (s.retries q l = true → ∃ t v, exec (.quiesceComplete f) s = .next t ∧ t.pass k = some v ∧ v.state = .agreeing ∧
        v.attempt = q.attempt + 1 ∧ v.number = q.number ∧ v.gen = q.gen ∧ v.loaded = false ∧ v.clean = true ∧ v.start = none) ∧
      (∀ st, s.retries q l = false → q.status = some st → ∃ t, exec (.quiesceComplete f) s = .next t ∧ t.pass k = none ∧
        Completed s t q.fn q.ring q.index st)) ∧
    (q.state = .running →
      (8000 * l.passLimit ≤ (s.clk.timebase - q.admittedAt).toNat → ∃ t, exec (.passWatchdog f) s = .next t ∧
        Abandoned t k .timeout ∧ ∀ v, t.pass k = some v → v.noRetry = true) ∧
      ((s.clk.timebase - q.admittedAt).toNat < 8000 * l.passLimit → exec (.passWatchdog f) s = .next s) ∧
      ∀ d, (s.fn f.val).preempt = some d → d ≠ 0 → d.toNat ≤ s.clk.frame.toNat →
        ∃ t, exec (.preemptDeadline f) s = .next t ∧ Abandoned t k .abandonedPreempt)

/-! ### Integrity -/

/-- R242, R369, R370, R374, R375, R376: the oldest record of a reporter reaches the collector with its sequence number; a
counting fault that reaches the threshold within the window is persistent and fences its core. A reporter that has been
silent for two frames, and a fault of class fatal, put the module into the fatal state. Rests on the model's choices and
readings in log entries 73, 137, 139, 140, 145. -/
def Obligations.FaultCollector : Prop :=
  ∀ (s : State), s.up = true →
    (∀ (d : Fin 16) r rest, s.reporter d.val = r :: rest → ∃ t, exec (.faultRecordDelivery d) s = .next t ∧
      t.reporter d.val = rest ∧ t.chk.seq = s.chk.seq + 1 ∧ (∃ x, t.chk.last = some x ∧ x.seq = s.chk.seq ∧
        x.core = r.core ∧ x.cause = r.cause ∧ x.detail = r.detail ∧ x.timebase = r.timebase) ∧
      (r.cls ≠ .contained ∨ s.counts r = false ∨ (s.counted r).length < s.pf .chkFenceCfg 0 3 →
        t.chk.last = some { r with seq := s.chk.seq } ∧ ∀ c, (t.core c).svc = (s.core c).svc) ∧
      (r.cls = .contained → s.counts r = true → s.pf .chkFenceCfg 0 3 ≤ (s.counted r).length →
        t.chk.last = some { r with seq := s.chk.seq, cls := .persistent } ∧
        AMap.get [] t.chk.counting r.core.toNat = [] ∧
        (s.serving r.core.toNat = true → (t.core r.core.toNat).svc = .fenced ∧ (t.core r.core.toNat).cause = r.cause.code))) ∧
    (∀ d : Fin 16, (∃ t, exec (.dieHeartbeat d) s = .next t ∧ AMap.get 0 t.chk.silent d.val = 0) ∧
      (2 ≤ AMap.get 0 s.chk.silent d.val → s.chk.fatal = false → (s.reporter 12).length < 16 →
        ∃ t, exec (.heartbeatTimeout d) s = .next t ∧ Raised s t .none' .controlParity 0xA2 ∧ t.chk.fatal = true)) ∧
    ∀ cause detail core, classOf cause detail false = .fatal → (s.reporter (srcOf core).reporter).length < 16 →
      ∃ t, exec (.fatalFault cause detail core) s = .next t ∧ Raised s t (srcOf core) cause detail ∧ t.chk.fatal = true ∧
        t.chk.cause = cause.code ∧ t.chk.detail = detail ∧ t.scheduled = false

/-- R177, R178, R377, R378: a scrub read corrects a word with a correctable error and reports it; an uncorrectable word of a
weight slice raises ECC_UNCORRECTABLE 0x75, is shown in CHK_SCRUB_ERR and uncommits the shard that holds it, and one of
another memory raises 0x76. Rests on the model's choices and readings in log entries 71, 72, 97. -/
def Obligations.ScrubReads : Prop :=
  ∀ (s : State) (c : CoreId), s.up = true → (s.reporter (coreDie c.val)).length < 16 →
    (∀ w : Fin 1572864,
      let a := absAddr 0 c.val (32 * w.val)
      (s.eccMark a = none → ∃ t, exec (.weightScrubRead c w) s = .next t ∧ t.ecc = s.ecc ∧ t.chk = s.chk) ∧
      (s.eccMark a = some .correctable → ∃ t, exec (.weightScrubRead c w) s = .next t ∧ t.eccMark a = none ∧
        Raised s t (.core' c.val) .eccCorrected 0x70) ∧
      (s.eccMark a = some .uncorrectable → ∃ t, exec (.weightScrubRead c w) s = .next t ∧
        Raised s t (.core' c.val) .eccUncorrectable 0x75 ∧ t.chk.errValid = true ∧ t.chk.errCore.toNat = c.val ∧
        t.chk.errWord.toNat = w.val ∧
        ∀ f g e, (f, g, e) ∈ s.holders c.val (32 * w.val) → g.state = .active → e.index ∈ g.shards →
          ∃ g' ∈ (t.fn f.val).gens, g'.gen = g.gen ∧ g'.state = .incomplete ∧ e.index ∉ g'.shards)) ∧
    ∀ (m : ScrubMem) (w : Nat), eccWord (scrubSpace m) * w < spaceSize (scrubSpace m) →
      let a := absAddr (scrubSpace m) c.val (eccWord (scrubSpace m) * w)
      (s.eccMark a = none → ∃ t, exec (.memoryScrubRead c m w) s = .next t ∧ t.ecc = s.ecc ∧ t.chk = s.chk) ∧
      (s.eccMark a = some .correctable → ∃ t, exec (.memoryScrubRead c m w) s = .next t ∧ t.eccMark a = none ∧
        Raised s t (.core' c.val) .eccCorrected (eccDetail (scrubSpace m))) ∧
      (s.eccMark a = some .uncorrectable → ∃ t, exec (.memoryScrubRead c m w) s = .next t ∧
        Raised s t (.core' c.val) .eccUncorrectable 0x76)

/-! ### Weight ingest -/

/-- R322, R323, R324, R325, R328, R331, R332: a record from host memory takes a free slot of its die, or waits for one; a
record in a slot of the function's own is named. Step 1 rejects a record of the wrong shape or generation, step 3 one whose
tag fails; a verified record is acknowledged to the parent and sent to every child that waits for it. Step 5 writes it to its
core once the fence of its block is down, step 6 rejects a plaintext of another hash, and step 7 commits the shard. Rests on
the model's choices and readings in log entries 23, 74 to 79, 83. -/
def Obligations.ShardRecords : Prop :=
  ∀ (s : State), s.up = true → s.inv = true → AMap.wf none s.slots = true →
    (∀ (f : FnId) (r : RingId) (i : BitVec 12) (d : Fetched), s.taken f r i 3 = some d →
      (∀ x : ShardRec, dfld d.desc 16 8 ≠ 0 → x.ciphertext.length = shardBytes →
        (s.freeSlot f (x.index % 4) = none → exec (.weightShard f r i (some x)) s = .next s) ∧
        (∀ n, s.freeSlot f (x.index % 4) = some n → ∃ t y, exec (.weightShard f r i (some x)) s = .next t ∧
          t.slot (slotKey (x.index % 4) n) = some y ∧ y.shard = x ∧ y.phase = .staged ∧ y.fn = f ∧ y.desc = some (r, i) ∧
          memGet t.mem (slotAddr (x.index % 4) n) (ShardRec.bytes x).length = ShardRec.bytes x)) ∧
      (dfld d.desc 16 8 = 0 → let k := slotKey (dfld d.desc 24 1) (dfld d.desc 25 1)
        (4 ≤ dfld d.desc 24 1 ∨ dfld d.desc 25 1 ∉ s.ownSlots f → ∃ t, exec (.weightShard f r i none) s = .next t ∧
          Completed s t f r i .rejectedFormat) ∧
        (dfld d.desc 24 1 < 4 → dfld d.desc 25 1 ∈ s.ownSlots f → s.slot k = none → s.slotNamed (dfld d.desc 24 1) (dfld d.desc 25 1) = false →
        ∃ t y, exec (.weightShard f r i none) s = .next t ∧ t.slot k = some y ∧
          y.shard = s.slotRecord (dfld d.desc 24 1) (dfld d.desc 25 1) ∧ y.phase = .staged ∧ y.desc = some (r, i)))) ∧
    ∀ (d : IoDie) (n : Fin 15) (x : Slot), s.slot (slotKey d.val n.val) = some x →
      let k := slotKey d.val n.val
      let v := x.shard
      let u := s.fn x.fn.val
      (x.phase = .staged → x.parent = none → ∀ r i, x.desc = some (r, i) →
        (∀ st, s.stepOne d.val x = some st → ∃ t, exec (.shardRecordProcess d n) s = .next t ∧
          Completed s t x.fn r i st ∧ t.slot k = none ∧ t.distFail.shard = BitVec.ofNat 32 v.index ∧ t.distFail.reason = 1 ∧
          t.distFail.valid = true) ∧
        (∀ g e, s.stepOne d.val x = none → u.genOf v.generation = some g → g.entry v.index = some e → s.shardBusy k x = false →
          v.index ∉ g.shards → s.openShard x = none → ∃ t, exec (.shardRecordProcess d n) s = .next t ∧
          Completed s t x.fn r i .rejectedFormat ∧ t.slot k = none ∧ t.distFail.reason = 2 ∧ t.distFail.valid = true)) ∧
      (x.phase = .staged → ∀ g e, s.stepOne d.val x = none → u.genOf v.generation = some g → g.entry v.index = some e →
        s.shardBusy k x = false → v.index ∉ g.shards → s.openShard x ≠ none → s.vmodule x.fn = some e.vmodule →
        ∃ t y, exec (.shardRecordProcess d n) s = .next t ∧ t.slot k = some y ∧ y.phase = .verified ∧ y.shard = v ∧
          (∀ m, x.parent = some m → Out.notice m (Fin.ofNat 4 (v.index % 4)) (noticeOf 2 0 s.moduleId v.generation v.index) ∈ t.out) ∧
          ∀ b, u.distOf v.generation = some b → ∀ c ∈ b.children, c.lo ≤ e.vmodule → e.vmodule ≤ c.hi →
            ∀ w, (b.wanted.find? fun w => w.1 == c.module && w.2.2 == v.index) = some w →
              AMap.get 0 b.fails ((c.module.toNat + 1) * 2 ^ 32 + v.index) < 4 →
              Out.shard c.module (Fin.ofNat 4 (v.index % 4)) w.2.1 (ShardRec.bytes v) ∈ t.out) ∧
      (∀ g e l c, x.phase = .verified → u.genOf v.generation = some g → g.entry v.index = some e → s.loaded x.fn = some l →
        l.vmodule = e.vmodule → l.coreOf e.vcore = some c → (g.state = .loading ∨ g.state = .rolling ∨ g.state = .incomplete) →
        (s.blockFenced x.fn g e.block = true ∨ s.serving c = false → exec (.shardWrite d n) s = .next s) ∧
        (s.blockFenced x.fn g e.block = false → s.serving c = true → ∀ plain, s.openShard x = some plain →
          ∃ t, exec (.shardWrite d n) s = .next t ∧ t.slot k = some { x with phase := .written plain } ∧
            let image := shardImage u.tensors e s.fresh plain
            memGet t.mem (absAddr 0 c ((s.func x.fn).wBase + g.copy * u.copyLen + e.offset)) image.length = image)) ∧
      (∀ g e l c plain, x.phase = .written plain → u.genOf v.generation = some g → g.entry v.index = some e →
        s.loaded x.fn = some l → l.coreOf e.vcore = some c →
        (∀ r i, sha256n plain ≠ e.sha → x.desc = some (r, i) → ∃ t, exec (.shardCommit d n) s = .next t ∧
          Completed s t x.fn r i .rejectedFormat ∧ t.distFail.reason = 3 ∧ t.distFail.valid = true) ∧
        (sha256n plain = e.sha → (∀ b ∈ checkAreas u.tensors e plain, b = 0) → g.back = none →
          ∃ t, exec (.shardCommit d n) s = .next t ∧
            (∃ h ∈ (t.fn x.fn.val).gens, h.gen = g.gen ∧ e.index ∈ h.shards) ∧
            (g.state = .loading → (∀ o ∈ g.entries, o.vmodule = l.vmodule → o.index = e.index ∨ o.index ∈ g.shards) →
              (t.fn x.fn.val).activeGen = g.gen ∧ (∃ h ∈ (t.fn x.fn.val).gens, h.gen = g.gen ∧ h.state = .active) ∧
              ∀ r i, g.desc = some (r, i) → Completed s t x.fn r i .done)))

/-- R327, R328, R329, R331, R333, R404: STAGED loads a PREPARED generation into the other copy, ROLLING into the active one,
ABORT discards it or leaves a rolling one INCOMPLETE; the generation with every shard is ACTIVE and ends the commit. A
child's request is answered with the record and READY, or remembered; READY stages the record of a slot, ACK ends the child's
wait, NACK sends the record again, and a request without READY is repeated until the fourth failure. Zeroing leaves every
byte of the region 0. Rests on the model's choices and readings in log entries 80 to 84, 136. -/
def Obligations.GenerationsAndNotices : Prop :=
  (∀ (s : State) (f : FnId) (r : RingId) (i : BitVec 12) (g : W32),
    let u := s.fn f.val
    let whole := fun (x : Gen) => ∃ vm, s.vmodule f = some vm ∧ x.full vm = true
    (∀ op ∈ [(1, Instr.genCommitStaged f r i), (2, .genCommitRolling f r i), (3, .genCommitAbort f r i)],
      s.commitOf f r i op.1 = some g → (u.genOf g = none ∨ ∃ x, u.genOf g = some x ∧ x.state = .prepared ∧ x.isPrepared = false) →
        ∃ t, exec op.2 s = .next t ∧ Completed s t f r i .rejectedGeneration) ∧
    (∀ op ∈ [(1, Instr.genCommitStaged f r i), (2, .genCommitRolling f r i)], ∀ x,
      s.commitOf f r i op.1 = some g → u.genOf g = some x → x.isPrepared = true → u.commitFree g = false →
        ∃ t, exec op.2 s = .next t ∧ Completed s t f r i .rejectedState) ∧
    (∀ x, s.commitOf f r i 1 = some g → u.genOf g = some x → x.isPrepared = true → u.commitFree g = true →
      let copy := match u.activeCopy with
        | some c => 1 - c
        | none => 0
      (∀ kp ∈ s.allPasses, kp.2.fn = f → passLive kp.2.state = true → kp.2.gen ≠ 0 → kp.2.copy ≠ copy) →
      2 * u.copyLen ≤ (s.func f).wSize → ∃ t h, exec (.genCommitStaged f r i) s = .next t ∧ h ∈ (t.fn f.val).gens ∧ h.gen = g ∧
        h.copy = copy ∧ h.mode = .staged ∧
        (¬whole x → h.state = .loading ∧ (t.fn f.val).activeGen = u.activeGen) ∧
        (whole x → h.state = .active ∧ (t.fn f.val).activeGen = g ∧ Completed s t f r i .done)) ∧
    (∀ x, s.commitOf f r i 2 = some g → u.genOf g = some x → x.isPrepared = true → u.commitFree g = true →
      ∃ t h, exec (.genCommitRolling f r i) s = .next t ∧ h ∈ (t.fn f.val).gens ∧ h.gen = g ∧ h.copy = u.activeCopy.getD 0 ∧
        (t.fn f.val).activeGen = g ∧ (¬whole x → h.state = .rolling) ∧ (whole x → h.state = .active ∧ Completed s t f r i .done)) ∧
    (∀ x, s.commitOf f r i 3 = some g → u.genOf g = some x →
      (x.isPrepared = true ∨ x.state = .loading → ∃ t, exec (.genCommitAbort f r i) s = .next t ∧ (t.fn f.val).genOf g = none ∧
        (x.desc = none → (∀ kv ∈ s.slots, ∀ y, kv.2 = some y → y.desc = none) → Completed s t f r i .done)) ∧
      (x.state = .rolling → ∃ t h, exec (.genCommitAbort f r i) s = .next t ∧ h ∈ (t.fn f.val).gens ∧ h.gen = g ∧
        h.state = .incomplete ∧ Completed s t f r i .done))) ∧
  (∀ (s : State), s.up = true → s.inv = true → AMap.wf none s.slots = true → ∀ (d : IoDie) (n : BitVec 128),
    let m := noticeFrom n
    let gen := noticeGen n
    let i := noticeShard n
    let area := fun (t : State) => memGet t.mem (absAddr 5 d.val (0x3F00000 + 16 * (AMap.get 0 s.notices d.val % 65536))) 16 =
      leBytes 16 n.toNat
    let sent := fun (t : State) (x : Slot) (slot : Nat) =>
      Out.shard m (Fin.ofNat 4 (x.shard.index % 4)) slot (ShardRec.bytes x.shard) ∈ t.out ∧
      Out.notice m (Fin.ofNat 4 (x.shard.index % 4)) (noticeOf 4 slot s.moduleId x.shard.generation x.shard.index) ∈ t.out
    let fails := fun (f : FnId) => ((s.fn f.val).distOf gen).map fun (b : Dist) => AMap.get 0 b.fails ((m.toNat + 1) * 2 ^ 32 + i)
    (∀ f : FnId, s.childOf m gen i = some f →
      (fld n 0 8 = 1 →
        (∀ k x, s.heldAt f gen i = some (k, x) → (∀ w ∈ x.waits, w.1 = m → w.2 = none) →
          ∃ t, exec (.ingestRequest d n) s = .next t ∧ area t ∧ sent t x (noticeSlot n)) ∧
        (s.heldAt f gen i = none → (∀ b, (s.fn f.val).distOf gen = some b → ∀ w ∈ b.wanted, ¬(w.1 = m ∧ w.2.2 = i)) →
          ∃ t b, exec (.ingestRequest d n) s = .next t ∧ area t ∧ (t.fn f.val).distOf gen = some b ∧
            (m, noticeSlot n, i) ∈ b.wanted)) ∧
      (fld n 0 8 = 2 → ∀ k x, s.heldAt f gen i = some (k, x) → ∃ t, exec (.ingestAck d n) s = .next t ∧ area t ∧
        (∀ y, t.slot k = some y → ∀ w ∈ y.waits, w.1 ≠ m) ∧
        (x.phase = .kept → (∀ w ∈ x.waits, w.1 = m) → t.slot k = none ∧
          ∀ r j, x.desc = some (r, j) → Completed s t x.fn r j .done)) ∧
      (fld n 0 8 = 3 → ∀ k x w slot, s.heldAt f gen i = some (k, x) → (x.waits.find? fun w => w.1 == m) = some (w, some slot) →
        ∀ c, fails f = some c → ∃ t, exec (.ingestNack d n) s = .next t ∧ area t ∧
          (c < 3 → sent t x slot) ∧ (3 ≤ c → ∀ y, t.slot k = some y → ∀ w ∈ y.waits, w.1 ≠ m))) ∧
    (fld n 0 8 = 4 → ∀ (f : FnId) b at', (s.fn f.val).distOf gen = some b → b.parent = some m → (i, noticeSlot n, at') ∈ b.asked →
      noticeSlot n < 15 → s.slot (slotKey (i % 4) (noticeSlot n)) = none → ∃ t y, exec (.ingestReady d n) s = .next t ∧ area t ∧
        t.slot (slotKey (i % 4) (noticeSlot n)) = some y ∧ y.phase = .staged ∧ y.parent = some m ∧
        y.shard = s.slotRecord (i % 4) (noticeSlot n)) ∧
    ∀ (f : FnId) (g : W32) (j : Nat) b p slot at', (s.fn f.val).distOf g = some b → b.parent = some p →
      (b.asked.find? fun a => a.1 == j) = some (j, slot, at') → s.slot (slotKey (j % 4) slot) = none →
      ((s.clk.timebase - at').toNat < 8000000 * s.pf .ingDistCfg 0 10 → exec (.requestTimeout f g j) s = .next s) ∧
      (8000000 * s.pf .ingDistCfg 0 10 ≤ (s.clk.timebase - at').toNat → ∃ t, exec (.requestTimeout f g j) s = .next t ∧
        (AMap.get 0 b.fails j < 3 → Out.notice p (Fin.ofNat 4 (j % 4)) (noticeOf 1 slot s.moduleId g j) ∈ t.out) ∧
        (3 ≤ AMap.get 0 b.fails j → t.distFail.shard = BitVec.ofNat 32 j ∧ t.distFail.reason = 4 ∧ t.distFail.valid = true ∧
          t.distFail.parent = p))) ∧
  ∀ (s : State) (f : FnId) (weight : Bool), s.up = true → s.inv = true →
    (weight = true ∨ ∀ kp ∈ s.allPasses, passBusy kp.2.state = false) →
    ∃ t, exec (.teaselZeroingComplete f weight) s = .next t ∧
      ∀ v ∈ s.teasel, v.fn = f → (v.space = 0 ↔ weight = true) → v ∉ t.teasel ∧
        ∀ c : CoreId, (Part.of v.part).hasDie (coreDie c.val) = true → ∀ o, v.base ≤ o → o < v.base + v.size →
          memGet t.mem (absAddr v.space c.val o) 1 = [0]

/-! ### Power, start-up and resets -/

/-- R293, R409, R412, R413, R414, R415, R416, R417: a sample shows the input; a current above the fused limit, the third
sample above the power limit and a die at the throttle temperature begin an emergency, whose local step comes at the end of
the frame, and 100 low samples with every die cool end it. A die at the trip temperature trips the module. The wish rises by
a code above 97 % of the cap and falls by one after 100 ms below 85 %. A rail excursion is fatal, and PWR_GOOD falls. Rests
on the model's choices and readings in log entries 86, 91, 92, 93, 144. -/
def Obligations.PowerAndEmergencies : Prop :=
  ∀ (s : State), (s.reporter 12).length < 16 →
    let p := s.power
    let began := fun (t : State) (source : Nat) (cause : Cause) => t.power.emergency = true ∧ t.power.source = source ∧
      t.power.stepDue = some (s.clk.frame + 1) ∧ Raised s t .none' cause 0x01
    let calm := s.up = true ∧ s.chk.fatal = false
    (∀ mv tenMa, p.phase ≠ .unpowered → ∃ t, exec (.powerSample mv tenMa) s = .next t ∧
      t.power.voltage = BitVec.ofNat 16 (min mv 65535) ∧ t.power.current = BitVec.ofNat 16 (min tenMa 65535) ∧
      t.power.samples = (mv * tenMa :: p.samples).take 100 ∧
      (calm → p.emergency = false →
        (10 * s.fuses.ilimit.toNat < tenMa → began t 2 .powerLimit) ∧
        (tenMa ≤ 10 * s.fuses.ilimit.toNat → 2 ≤ p.above → s.fuses.plimit.toNat * 100000 < mv * tenMa → began t 1 .powerLimit) ∧
        (tenMa ≤ 10 * s.fuses.ilimit.toNat → mv * tenMa ≤ s.fuses.plimit.toNat * 100000 →
          t.power.emergency = false ∧ t.power.above = 0)) ∧
      (calm → p.emergency = true → (t.power.emergency = false ↔
        99 ≤ p.below ∧ 10 * (mv * tenMa) < 9 * s.pf .pwrCap 0 12 * 100000 ∧
          ∀ v ∈ p.temps, v + 5 ≤ (s.fuses.throttle.toNat : Int)))) ∧
    (∀ r : List (Int × Int), r.length = 64 → p.phase = .ready →
      let temps := r.map fun v => max v.1 v.2
      ∃ t, exec (.temperatureSample r) s = .next t ∧
        ((∃ v ∈ temps, (s.fuses.trip.toNat : Int) ≤ v) → t.power.phase = .tripped ∧ t.power.thermtrip = true ∧
          t.power.pwrGood = false ∧ t.chk.fatal = true ∧ t.chk.detail = 0x02 ∧ t.mem = []) ∧
        ((∀ v ∈ temps, v < (s.fuses.trip.toNat : Int)) → t.power.phase = .ready ∧ t.power.temps = temps ∧
          (s.chk.fatal = false → p.emergency = false → (∃ v ∈ temps, (s.fuses.throttle.toNat : Int) ≤ v) →
            began t 3 .thermalLimit) ∧
          (p.emergency = false → (∀ v ∈ temps, v < (s.fuses.throttle.toNat : Int)) → t.power.emergency = false))) ∧
    (s.up = true →
      let n := 100000 * p.samples.length
      let cap := s.pf .pwrCap 0 12
      let target : Nat := s.pf .pwrTempCfg 0 7
      ∃ t, exec .powerWishEvaluation s = .next t ∧
        (97 * cap * n < 100 * p.sum ∨ (∃ v ∈ p.temps, (target : Int) < v) → t.power.wish = BitVec.ofNat 5 (codeUp p.wish.toNat)) ∧
        (100 * p.sum < 85 * cap * n → 99 ≤ p.lowMs → (∀ v ∈ p.temps, v + 5 ≤ (target : Int)) → s.stretchRule = false →
          t.power.wish = BitVec.ofNat 5 (max s.fuses.lowestCode.toNat (codeDown p.wish.toNat))) ∧
        (100 * p.sum ≤ 97 * cap * n → 85 * cap * n ≤ 100 * p.sum → (∀ v ∈ p.temps, v ≤ (target : Int)) → s.stretchRule = false →
          t.power.wish = p.wish)) ∧
    (∀ f, s.up = true → s.clk.sg = 100 → p.stepDue = some f → f.toNat ≤ s.clk.frame.toNat → ∃ t, exec .localStep s = .next t ∧
      t.clk.period = BitVec.ofNat 5 (max s.ownWish (codeUp2 s.clk.period.toNat)) ∧ t.power.stepDue = none ∧ t.timeRoot = true ∧
      t.clk.frameStart = s.clk.frameStart + 8000 ∧
      (s.skein.multi = true → s.skein.state = .formed → t.skein.state = .detached)) ∧
    ∀ rail : Fin 7, calm → p.pwrGood = true → ∃ t, exec (.railExcursion rail) s = .next t ∧ t.power.pwrGood = false ∧
      Raised s t .none' .powerLimit 0x02 ∧ t.chk.fatal = true ∧ t.chk.cause = Cause.powerLimit.code

/-- R337, R361, R362, R394, R395, R399, R400, R401, R408, R417, R420, R421, R422, R423, R424, R425: start-up follows
INPUT_GOOD, the release of PERST#, the end of a tamper condition and of a JTAG reset: the module runs, or PERST# holds it, at
period code 20 with the boot counted, its memory zero, and the cores that the self-test found out of service. PERST#, a
tamper event and the loss of the input zeroise. A warm reset keeps the timebase and the service states, KEYED_WARM the
retained generations. An FLR empties its function, and of the PF every one. Rests on the model's choices and readings in log
entries 5, 85 to 87, 89, 90, 94 to 96. -/
def Obligations.StartUpAndResets : Prop :=
  ∀ (s : State), AMap.wf none s.passes = true → AMap.wf Core.reset s.cores = true →
    let p := s.power
    let started := fun (t : State) (cause : ResetCause) => t.power.cause = cause ∧ t.power.pwrGood = true ∧
      t.sec.bootCount = s.sec.bootCount + 1 ∧ t.clk.period = 20 ∧ t.mem = [] ∧ (t.diesOut = [] → t.setup = []) ∧
      t.passes = [] ∧ t.skein.state = .none
    let emptied := fun (t : State) => t.mem = [] ∧ t.cores = [] ∧ t.passes = [] ∧ t.setup = [] ∧ t.library = none ∧
      t.sec.kem = none ∧ t.sec.bootCount = s.sec.bootCount ∧ t.sec.tree = s.sec.tree ∧ t.sec.leaf = s.sec.leaf
    (∀ st : SelfTest, p.tripped = false →
      (p.inputGood = false → ∃ t, exec (.inputGood st) s = .next t ∧ started t .cold ∧ t.power.inputGood = true ∧
        t.power.phase = (if p.perst then .held else .ready) ∧
        (∀ c ∈ st.bypassed, (t.core c.val).svc = .bypassed) ∧
        (∀ c ∈ st.fenced, c ∉ st.bypassed → (∀ d ∈ t.diesOut, d.val ≠ coreDie c.val) → (t.core c.val).svc = .fenced) ∧
        (∀ d ∈ st.diesOut, d ∈ t.diesOut) ∧
        (st.linkBeyondRepair = true → t.chk.fatal = true ∧ t.chk.cause = Cause.linkDown.code ∧ t.chk.detail = 0x80 ∨
          s.fuses.dies.length ≠ 64 ∨ (s.fuses.dies.zipIdx.any fun r => recordKind r.1 != kindOfDie r.2) = true ∨
          st.io0HubFails = true)) ∧
      (p.phase = .held → p.cause = .perst → ∃ t, exec (.perstDeassert st) s = .next t ∧ started t .perst ∧
        t.power.phase = .ready) ∧
      (p.phase = .tampered → ∃ t, exec (.tamperConditionEnd st) s = .next t ∧ started t .tamper ∧
        t.power.phase = (if p.perst then .held else .ready) ∧ t.sec.newTamper = true) ∧
      (p.phase = .jtagHeld → p.perst = false → ∀ b, ∃ t, exec (.tapReset b st) s = .next t ∧ started t .perst ∧
        t.power.phase = .ready ∧ t.side.jtag = if b then .idcode else .bypass)) ∧
    (∀ st, p.phase = .held → p.cause = .cold → p.tripped = false →
      exec (.perstDeassert st) s = .next { s with power := { p with perst := false, phase := .ready } }) ∧
    (p.inputGood = true → ∃ t, exec .inputLost s = .next t ∧ emptied t ∧ t.power.phase = .unpowered ∧
      t.power.inputGood = false ∧ t.power.pwrGood = false) ∧
    (∃ t, exec .perstAssert s = .next t ∧ t.power.perst = true ∧
      (s.up = true → emptied t ∧ t.power.phase = .held ∧ t.power.cause = .perst) ∧
      (p.phase = .tripped → emptied t ∧ t.power.phase = .held ∧ t.power.cause = .trip ∧ t.power.thermtrip = false)) ∧
    (∀ sensor place, p.inputGood = true → p.phase ≠ .tampered → sensor ≠ .rail → ∃ t, exec (.tamperEvent sensor place) s = .next t ∧
      emptied t ∧ t.power.phase = .tampered ∧ t.power.cause = .tamper ∧ t.sec.tamperCount = s.sec.tamperCount + 1 ∧
      t.sec.sensor = sensor.code ∧ t.sec.newTamper = true ∧ t.sec.tamperLog.getLast? = some (s.clk.timebase, sensor.code, place)) ∧
    (∀ seed keyed, p.phase = .warmPending keyed → ∃ t, exec (.warmResetStart seed) s = .next t ∧ t.power.phase = .ready ∧
      t.power.cause = (if keyed then .keyedWarm else .moduleWarm) ∧ t.clk.timebase = s.clk.timebase ∧ t.passes = [] ∧
      (s.diesOut = [] → t.setup = []) ∧ (∀ c, (t.core c).svc = (s.core c).svc) ∧ (keyed = false → t.mem = []) ∧
      ∀ f r g, keyed = true → (s.fn f).retention = some r → f < 16 →
        ((s.fn f).gens.find? fun g => g.gen == r.gen && g.state != .retired && !g.blocks.isEmpty) = some g →
        (t.fn f).retained = true ∧ (t.fn f).activeGen = g.gen ∧ ∃ h, (t.fn f).gens = [h] ∧ h.gen = g.gen ∧ h.shards = g.shards ∧
          h.key = none) ∧
    (p.phase = .ready →
      (∀ f : FnId, f.val ≤ s.numVfs → ∃ t, exec (.flr f) s = .next t ∧ (f = pfn → t.numVfs = 0) ∧
        ∀ g : FnId, (g = f ∨ f = pfn ∧ g.val ≤ s.numVfs) → (t.fn g.val).exe = none ∧ (t.fn g.val).session = none ∧
          (t.fn g.val).fetched = [] ∧ (t.fn g.val).gens = [] ∧
          ∀ k q, s.pass k = some q → q.fn = g → q.state = .queued → t.pass k = none) ∧
      ∀ n : Fin 16, ∃ t, exec (.vfEnable n) s = .next t ∧ t.numVfs = n.val) ∧
    (p.phase ≠ .unpowered → s.sec.next = 0 → s.sec.topLeaf < 2 ^ 20 → true ∈ s.sec.copies →
      ∃ t, exec .treeGenerationComplete s = .next t ∧ t.sec.topLeaf = s.sec.topLeaf + 1 ∧
        (s.sec.leaf < 2 ^ 20 → t.sec.next = 1 ∧ t.sec.tree = s.sec.tree) ∧
        (2 ^ 20 ≤ s.sec.leaf → t.sec.tree = s.sec.tree + 1 ∧ t.sec.leaf = 0)) ∧
    ∀ b, s.up = true → ∃ t, exec (.entropyHealthTest b) s = .next t ∧ t.sec.trng = b

/-! ### Vedihar messages -/

/-- R151, R317, R320, R321, R322, R327, R358, R359, R393, R396, R402, R403, R405, R423, R426, R445: a request is answered once: a
repeated one gets the same response, one out of sequence REJECTED_STATE, another major version REJECTED_CAPABILITY, and a
message of the PF alone REJECTED_STATE to a VF. Each message then has its effect and its response; a MODULE_WARM takes over a
KEYED_WARM in progress, which absorbs narrower resets. Rests on the model's
choices and readings in log entries 21, 98 to 109, 133, 134. -/
def Obligations.VediharMessages : Prop :=
  ∀ (s : State) (q : Mbx), AMap.wf none s.passes = true → s.inv = true →
    let u := s.fn q.f.val
    let said := fun (t : State) => Answered t q .done 0 []
    (∀ nonce fn img key man doc gen ct parent kids chal ser mask sig cert addr slots log2 tm,
      let pf : List Instr := [.libraryLoad q img, .libraryQuery q, .moduleWarm q, .retentionTicket q gen ct, .skeinReset q,
        .debugChallenge q, .debugUnlock q chal ser mask sig cert]
      ∀ i ∈ pf ++ [Instr.dieIdentityRecords q, .certificateChain q, .encapsulationKey q, .attestationReport q nonce fn,
          .weightSessionOpen q, .ownerKey q key, .weightManifest q man, .generationList q doc, .wrappedKey q gen ct,
          .distributionEntry q gen parent kids, .weightSessionClose q, .keyedWarm q, .dumpBufferSetup q addr slots,
          .logRingSetup q addr log2, .traceRingSetup q addr log2 tm, .observationQuery q],
      s.live q.f = true → u.pageAddr ≠ 0 → u.pageSeq.setWidth 32 = q.seq → 32 ≤ q.respLen → u.mbxBusy = false →
      (∀ st d p, q.seq = u.mbxSeq → u.mbxCache = some (st, d, p) → ∃ t, exec i s = .next t ∧
        Out.response q.f q.respAddr q.seq st d p ∈ t.out ∧ t.sec = s.sec ∧ t.cores = s.cores ∧ t.mem = s.mem) ∧
      (q.seq ≠ u.mbxSeq → q.seq ≠ u.mbxSeq + 1 → ∃ t, exec i s = .next t ∧
        Out.response q.f q.respAddr q.seq .rejectedState 0 [] ∈ t.out ∧ t.sec = s.sec ∧ t.cores = s.cores ∧ t.mem = s.mem) ∧
      (q.seq = u.mbxSeq + 1 →
        (q.major ≠ 3 → ∃ t, exec i s = .next t ∧ Answered t q .rejectedCapability 0 []) ∧
        (q.major = 3 → q.f ≠ pfn → i ∈ pf → ∃ t, exec i s = .next t ∧ Answered t q .rejectedState 0 []))) ∧
    (Asked s q →
      (32 + s.dieRecords.length ≤ q.respLen → ∃ t, exec (.dieIdentityRecords q) s = .next t ∧ Answered t q .done 0 s.dieRecords) ∧
      (32 + (Config.moduleCert ++ Config.mfgCert).length ≤ q.respLen → ∃ t, exec (.certificateChain q) s = .next t ∧
        Answered t q .done 0 (Config.moduleCert ++ Config.mfgCert)) ∧
      (s.sec.kem = none → ∃ t, exec (.encapsulationKey q) s = .next t ∧ Answered t q .rejectedState 0 []) ∧
      (∀ k, s.sec.kem = some k → 32 + (Config.kemPublic k).length ≤ q.respLen → ∃ t, exec (.encapsulationKey q) s = .next t ∧
        Answered t q .done 0 (Config.kemPublic k)) ∧
      (∀ nonce fn k, (q.f = pfn ∨ fn.toNat = q.f.val) → fn.toNat ≤ 15 → s.sec.kem = some k → true ∈ s.sec.copies →
        s.sec.leaf + 1 < 2 ^ 20 →
        let body := s.reportBytes nonce fn (sha256 (Config.kemPublic k))
        let report := body ++ Config.hssSign s.fuses.seed s.sec.tree s.sec.leaf body
        32 + report.length ≤ q.respLen → ∃ t, exec (.attestationReport q nonce fn) s = .next t ∧
          Answered t q .done 0 report ∧ t.sec.leaf = s.sec.leaf + 1 ∧ t.sec.tree = s.sec.tree) ∧
      (∀ img, q.f = pfn → (∀ kv ∈ s.fns, kv.2.exe = none) → s.skein.state = .none →
        (s.libraryFits img = false → ∃ t, exec (.libraryLoad q img) s = .next t ∧ Answered t q .rejectedLibrary 0 [] ∧
          t.library = s.library) ∧
        (s.libraryFits img = true → ∃ t, exec (.libraryLoad q img) s = .next t ∧ said t ∧
          t.library = some (LibImage.library img) ∧ ∀ c < 1728, memGet t.mem (absAddr 3 c 0x30000) (8 * img.body.length) =
            img.body.flatMap fun w => leBytes 8 w.toNat)) ∧
      (q.f = pfn → 32 + (Config.libraryInfo s.fresh).length ≤ q.respLen → ∃ t, exec (.libraryQuery q) s = .next t ∧
        Answered t q .done 0 (Config.libraryInfo s.fresh)) ∧
      (u.session = none → ∃ t x, exec (.weightSessionOpen q) s = .next t ∧ said t ∧ (t.fn q.f.val).session = some x ∧
        x.owner = [] ∧ x.manifest = none) ∧
      (∀ x, u.session = some x →
        (∃ t, exec (.weightSessionOpen q) s = .next t ∧ Answered t q .rejectedState 0 []) ∧
        (∀ key : List Byte, x.owner = [] → key.length = 60 → ∃ t, exec (.ownerKey q key) s = .next t ∧ said t ∧
          (t.fn q.f.val).session = some { x with owner := key }) ∧
        (∀ doc : Manifest, x.owner ≠ [] → x.manifest = none → manifestOk doc = true →
          Config.hssVerify x.owner doc.bytes doc.signature = true → ∃ t, exec (.weightManifest q doc) s = .next t ∧ said t ∧
          (t.fn q.f.val).session = some { x with manifest := some doc, manifestHash := sha256n doc.bytes }) ∧
        (∀ m doc, x.manifest = some m → listOk m x.manifestHash doc = true →
          Config.hssVerify x.owner doc.bytes doc.signature = true → u.genOf doc.generation = none →
          ∃ t, exec (.generationList q doc) s = .next t ∧ said t ∧ ∃ g ∈ (t.fn q.f.val).gens, g.gen = doc.generation ∧
            g.state = .prepared ∧ g.entries = doc.entries ∧ g.key = none ∧ g.isPrepared = false) ∧
        (∀ m gen ct kem g key, x.manifest = some m → s.sec.kem = some kem → s.sec.debug = false → s.sec.trng = true →
          u.genOf gen = some g → g.listed = true → unwrap kem x.manifestHash gen ct = some key →
          ∃ t, exec (.wrappedKey q gen ct) s = .next t ∧ (t.fn q.f.val).mbxSeq = q.seq ∧
            ∃ h ∈ (t.fn q.f.val).gens, h.gen = gen ∧ h.key = some (BitVec.ofNat 256 (leNat key)) ∧
            ∃ r, (t.fn q.f.val).retention = some r ∧ r.gen = gen ∧ r.manifest = x.manifestHash) ∧
        (∀ gen parent kids, kids.length ≤ 16 → u.genOf gen ≠ none → ∃ t b, exec (.distributionEntry q gen parent kids) s = .next t ∧
          said t ∧ b ∈ (t.fn q.f.val).dists ∧ b.gen = gen ∧ b.parent = parent ∧ b.children = kids) ∧
        (∃ t, exec (.weightSessionClose q) s = .next t ∧ said t ∧ (t.fn q.f.val).session = none ∧ (t.fn q.f.val).gens = [] ∧
          (t.fn q.f.val).retention = none ∧ ∃ v ∈ t.teasel, v.fn = q.f ∧ v.space = 0 ∧
            (v.base, v.size) = s.wholeRegion q.f 0) ∧
        (∀ m r kem gen ct key, q.f = pfn → x.manifest = some m → u.retention = some r → s.sec.kem = some kem →
          s.sec.debug = false → u.retained = true → r.manifest = x.manifestHash → r.gen = gen →
          unwrap kem x.manifestHash gen ct = some key → sha256n key = r.ticketHash →
          ∃ t, exec (.retentionTicket q gen ct) s = .next t ∧ said t ∧
            (t.fn q.f.val).retention = some { r with presented := true })) ∧
      (q.f = pfn → s.power.phase = .ready →
        (∃ t, exec (.moduleWarm q) s = .next t ∧ said t ∧ t.power.phase = .warmPending false ∧ t.allPasses = []) ∧
        (s.sec.debug = false → u.retention ≠ none → ∃ t, exec (.keyedWarm q) s = .next t ∧ said t ∧
          t.power.phase = .warmPending true ∧ t.allPasses = [])) ∧
      (q.f = pfn → s.power.phase = .warmPending true →
        (∃ t, exec (.moduleWarm q) s = .next t ∧ said t ∧ t.power.phase = .warmPending false) ∧
        exec (.keyedWarm q) s = .next s ∧ exec (.skeinReset q) s = .next s) ∧
      (q.f = pfn → s.warming = false → ∃ t, exec (.skeinReset q) s = .next t ∧ said t ∧ t.skein.state = .none) ∧
      (q.f = pfn → s.sec.trng = true → 64 ≤ q.respLen → ∃ t v, exec (.debugChallenge q) s = .next t ∧
        t.sec.challenge = some v ∧ Answered t q .done 0 (leBytes 32 v.toNat)) ∧
      (∀ chal ser mask sig cert, q.f = pfn →
        (s.sec.challenge ≠ some chal → ∃ t, exec (.debugUnlock q chal ser mask sig cert) s = .next t ∧
          Answered t q .rejectedFormat 0 [] ∧ t.sec = s.sec) ∧
        (s.sec.challenge = some chal → ser = s.fuses.serial → AMap.wf Core.reset s.cores = true →
          ∀ k, s.certified 0x03 cert = some k →
          Config.hssVerify k (leBytes 32 chal.toNat ++ leBytes 8 ser.toNat ++ leBytes 4 mask.toNat) sig = true →
          ∃ t, exec (.debugUnlock q chal ser mask sig cert) s = .next t ∧ said t ∧ t.sec.debug = true ∧ t.sec.scopes = mask ∧
            t.sec.kem = none ∧ t.mem = [] ∧ t.library = none ∧ t.allPasses = [] ∧ (t.fn q.f.val).exe = none ∧
            ∀ c, (t.core c).svc = (s.core c).svc)) ∧
      (∀ addr slots, (q.f = pfn ∨ s.pf .obsCtrl 16 1 = 1) → addr.toNat % 4096 = 0 → addr ≠ 0 → 1 ≤ slots → slots ≤ 65535 →
        ∃ t, exec (.dumpBufferSetup q addr slots) s = .next t ∧ said t ∧
          (t.fn q.f.val).dump = some { addr := addr, slots := slots, seq := 0, skips := 0 }) ∧
      (∀ addr log2, addr.toNat % 64 = 0 → addr ≠ 0 → 6 ≤ log2 → log2 ≤ 20 →
        (∃ t, exec (.logRingSetup q addr log2) s = .next t ∧ said t ∧
          (t.fn q.f.val).log = some { addr := addr, log2 := log2, seq := 0, mask := 0 }) ∧
        ∀ mask, ∃ t, exec (.traceRingSetup q addr log2 mask) s = .next t ∧ said t ∧
          (t.fn q.f.val).trace = some { addr := addr, log2 := log2, seq := 0, mask := mask }) ∧
      (56 ≤ q.respLen → ∃ t p, exec (.observationQuery q) s = .next t ∧ Answered t q .done 0 p ∧ p.length = 24 ∧
        ∀ b, u.dump = some b → b.seq < 2 ^ 64 → leNat (p.take 8) = b.seq))

/-! ### Host register and window accesses -/

/-- R241, R242, R251, R253, R273, R275, R277, R298, R342, R343, R344, R345, R347, R386, R435, R438, R439: a written field
takes the nearest value of its range; a locked or refused write leaves the register. A partition that would overlap another
or hold a die out of service is not enabled. Shares take effect at a pass boundary, counter set-ups at a frame start.
Requests fence a core, bypass a router, take a die out of service and train a port. W1C flags clear, a read of a low half
latches the high half, and a dump leaves at its frame. Rests on the model's choices and readings in log entries 43, 88, 112
to 117, 119. -/
def Obligations.RegisterCommands : Prop :=
  ∀ (s : State), s.up = true →
    (∃ t, exec (.setLockWrite pfn true) s = .next t ∧ t.lock = true) ∧
    (s.lock = true → ∃ t, exec (.setLockWrite pfn false) s = .next t ∧ t.lock = true) ∧
    (∀ (p : PartId) (v : W32), (∀ f : FnId, (s.fn f.val).exe = none) →
      let w := Part.of (v.setWidth 128)
      (s.lock = false → w.col + w.ncols ≤ 3 → w.row + w.nrows ≤ 2 → ∃ t, exec (.setPartWrite pfn p v) s = .next t ∧
        ((w.enable = true → s.overlapped p w = [] ∧ ∀ d ∈ s.diesOut, w.hasDie d.val = false) → t.part p = w) ∧
        (w.enable = true → (s.overlapped p w ≠ [] ∨ ∃ d ∈ s.diesOut, w.hasDie d.val = true) → t.part p = { w with enable := false })) ∧
      (s.lock = true → (s.part p).enable = false → ∃ t, exec (.setPartWrite pfn p v) s = .next t ∧ t.part p = s.part p)) ∧
    (∀ (f : FnId) (v : W64), (s.fn f.val).exe = none → (s.fn f.val).retained = false →
      let w := FuncCfg.of (v.setWidth 128)
      (s.lock = true → (s.func f).enable = false → ∃ t, exec (.setFuncWrite pfn f v) s = .next t ∧ t.func f = s.func f) ∧
      (s.lock = false → fld v 0 4 ≤ 11 → fld v 8 6 ≤ 47 → 1 ≤ fld v 14 6 → fld v 8 6 + fld v 14 6 ≤ 48 → fld v 20 6 ≤ 31 →
        1 ≤ fld v 26 6 → fld v 20 6 + fld v 26 6 ≤ 32 → fld v 32 4 ≤ 11 → 1 ≤ fld v 36 4 → fld v 32 4 + fld v 36 4 ≤ 12 →
        let free := (s.part (Fin.ofNat 12 w.part)).enable = true ∧
          ∀ g : FnId, g ≠ f → (s.func g).enable = true → (s.func g).part = w.part → (s.func g).meets w = false
        ∃ t, exec (.setFuncWrite pfn f v) s = .next t ∧ (w.enable = false ∨ free → t.func f = w) ∧
          (w.enable = true → ¬free → t.func f = { w with enable := false }))) ∧
    (∀ (f : FnId) (v : BitVec 128), s.live f = true →
      (f = pfn → s.lock = false → ∃ t, exec (.registerWrite f .chkScrub v) s = .next t ∧
        t.pf .chkScrub 0 13 = max 250 (min 4000 (fld v 0 13))) ∧
      (f = pfn → s.lock = true → ∃ t, exec (.registerWrite f .chkScrub v) s = .next t ∧ t.setup = s.setup) ∧
      (f = pfn → ∃ t, exec (.registerWrite f .clkStepReq v) s = .next t ∧
        t.pf .clkStepReq 0 5 = ((periodCodes.find? fun c => decide (max s.fuses.lowestCode.toNat (fld v 0 5) ≤ c)).getD 20)) ∧
      (f = pfn → s.skein.state ≠ .none → ∃ t, exec (.registerWrite f .fabModuleId v) s = .next t ∧ t.setup = s.setup) ∧
      (f = pfn → s.skein.state = .none → ∃ t, exec (.registerWrite f .fabModuleId v) s = .next t ∧
        t.moduleId = BitVec.ofNat 12 (fld v 0 12)) ∧
      (f ≠ pfn → exec (.registerWrite f .chkScrub v) s = .next s)) ∧
    (∀ p : PartId,
      ((∀ kp ∈ s.allPasses, passBusy kp.2.state = true → (s.func kp.2.fn).part ≠ p.val) → ∃ t, exec (.setQosApply p) s = .next t ∧
        ∀ f : FnId, (s.func f).part = p.val → (t.fn f.val).qos = (s.reg 0 (.setQos f)).setWidth 64) ∧
      ((∃ kp ∈ s.allPasses, passBusy kp.2.state = true ∧ (s.func kp.2.fn).part = p.val) → exec (.setQosApply p) s = .next s)) ∧
    (∀ c : CoreId, s.serving c.val = true → ∃ t, exec (.fenceReq c) s = .next t ∧ (t.core c.val).svc = .fenced ∧
      (t.core c.val).cause = 0) ∧
    (s.scheduled = false → (∀ kv ∈ s.fns, kv.2.exe = none) →
      (∀ c : CoreId, (s.core c.val).svc ≠ .bypassed → ∃ t, exec (.bypassReq c) s = .next t ∧ (t.core c.val).svc = .bypassed ∧
        ((∃ i < 144, (s.core (coreAt (coreDie c.val) i)).svc = .bypassed) → ∃ d ∈ t.diesOut, d.val = coreDie c.val) ∧
        ((∀ i < 144, (s.core (coreAt (coreDie c.val) i)).svc ≠ .bypassed) → t.diesOut = s.diesOut)) ∧
      ∀ d : DieId, ∃ t, exec (.oosReq d) s = .next t ∧ d ∈ t.diesOut ∧ ∀ i < 144,
        (t.core (coreAt d.val i)).svc = if (s.core (coreAt d.val i)).svc = .bypassed then .bypassed else .outOfService) ∧
    (∀ p : PortId, (s.skein.state ≠ .none → ∃ t, exec (.portRetrain p) s = .next t ∧ t.ports = s.ports) ∧
      (s.skein.state = .none → (s.port p.val).state ≠ .disabled → ∃ t, exec (.portRetrain p) s = .next t ∧
        (t.port p.val).state = .training)) ∧
    (exec .chkFaultClear s = .next { s with chk := { s.chk with first := none } } ∧
      (∃ t, exec (.w1cClear .ingDistFailValid) s = .next t ∧ t.distFail.valid = false) ∧
      (∃ t, exec (.w1cClear .chkScrubErrValid) s = .next t ∧ t.chk.errValid = false) ∧
      ∃ t, exec (.w1cClear .secTamperNew) s = .next t ∧ t.sec.newTamper = false) ∧
    (∀ ticks later : Nat, let now := s.clk.timebase + BitVec.ofNat 64 ticks
      (∃ t, exec (.timebaseRead ⟨.timebaseLo, ticks⟩) s = .next t ∧ t.out = .readValue (now.setWidth 32) :: s.out ∧
        ∃ t', exec (.timebaseRead ⟨.timebaseHi, later⟩) t = .next t' ∧ t'.out = .readValue ((now >>> 32).setWidth 32) :: t.out) ∧
      ∃ t, exec (.timebaseRead ⟨.frameLo, ticks⟩) s = .next t ∧ t.out = .readValue (s.clk.frame.setWidth 32) :: s.out ∧
        ∃ t', exec (.timebaseRead ⟨.frameHi, later⟩) t = .next t' ∧ t'.out = .readValue ((s.clk.frame >>> 32).setWidth 32) :: t.out) ∧
    (s.clk.sg = 100 → s.obs.written ≠ [] → ∃ t, exec .obsCntCfgApply s = .next t ∧ t.obs.written = [] ∧
      ∀ k ∈ s.obs.written, AMap.get 0x700 t.obs.cnt k =
        (s.reg 0 (.obsCntCfg (Fin.ofNat 12 (k / 6)) (Fin.ofNat 6 (k % 6)))).setWidth 32) ∧
    ∀ (f : FnId) (b : DumpBuf), s.clk.sg = 100 → s.pf .obsCtrl 0 16 ≠ 0 → s.clk.frame.toNat % s.pf .obsCtrl 0 16 = 0 →
      s.obs.latched ≠ some s.clk.frame → (∀ g : FnId, ∀ o, (s.fn g.val).dump = some o → o.seq + o.skips = 0) →
      (s.fn f.val).dump = some b → ∃ t, exec .dumpLatch s = .next t ∧ (t.fn f.val).dump = some { b with seq := b.seq + 1 } ∧
        Out.dump f (b.seq % b.slots)
          (({ s with obs := { s.obs with latched := some s.clk.frame }, fresh := s.fresh + 1 } : State).dumpData f b) ∈ t.out

/-- R13, R161, R174, R323, R341, R347, R404: BAR2 reaches the I/O dies' space and, for the PF, the memories and counters of the
cores, through their access queues. An access beyond the regions, or to a spare that no loader has mapped, reads zeros and
writes nothing. A VF writes only its own
staging slots. Rests on the model's choices and readings in log entry 118. -/
def Obligations.HostAccesses : Prop :=
  ∀ (s : State) (f : FnId) (offset : BitVec 36), s.live f = true → s.inv = true →
    (∀ d o n, offset.toNat = 0x4000000 * d + o → o + n ≤ 0x4000000 → d < 4 →
      (∀ b, ∀ a ∈ (s.core b).queue, a.kind ≠ .hostWrite ∨ a.fn ≠ f) → ∃ t, exec (.hostWindowRead f offset n) s = .next t ∧
      t.out = .windowData f (memGet s.mem (absAddr 5 d o) n) :: s.out) ∧
    (∀ d o (data : List Byte), offset.toNat = 0x4000000 * d + o → o + data.length ≤ 0x3C0F000 → d < 4 →
      (f = pfn → ∃ t, exec (.hostWindowWrite f offset data) s = .next t ∧
        memGet t.mem (absAddr 5 d o) data.length = data) ∧
      (f ≠ pfn → (∃ k < 15, k ∉ s.ownSlots f ∧ o < 0x401000 * k + 0x401000 ∧ 0x401000 * k < o + data.length) → 0 < data.length →
        ∃ t, exec (.hostWindowWrite f offset data) s = .next t ∧ t.mem = s.mem)) ∧
    (f ≠ pfn ∨ offset.toNat < 0x400000000 → 0x10000000 ≤ offset.toNat → ∀ n (data : List Byte), 0 < n → data ≠ [] →
      (∃ t, exec (.hostWindowRead f offset n) s = .next t ∧ Out.windowData f (List.replicate n 0) ∈ t.out ∧ t.mem = s.mem) ∧
      ∃ t, exec (.hostWindowWrite f offset data) s = .next t ∧ t.mem = s.mem ∧ t.cores = s.cores) ∧
    (∀ (c : CoreId) (sp o n : Nat) (data : List Byte), f = pfn → (sp = 1 ∨ sp = 2) → s.serving c.val = true →
      offset.toNat = 0x400000000 + 0x200000000 * (sp - 1) + 0x400000 * c.val + o → o + n ≤ spaceSize sp → data.length = n →
      (s.windowSpare c.val = true → (∃ t, exec (.hostWindowWrite f offset data) s = .next t ∧ t.cores = s.cores ∧
          t.mem = s.mem) ∧
        ∃ t, exec (.hostWindowRead f offset n) s = .next t ∧ Out.windowData f (List.replicate n 0) ∈ t.out ∧ t.mem = s.mem) ∧
      (s.windowSpare c.val = false → s.windowScrubbed sp c.val o n = true → (∃ t, exec (.hostWindowWrite f offset data) s = .next t ∧ t.cores = s.cores ∧
          t.mem = s.mem) ∧
        ∃ t, exec (.hostWindowRead f offset n) s = .next t ∧ t.out = .windowData f (List.replicate n 0) :: s.out) ∧
      (s.windowSpare c.val = false → s.windowScrubbed sp c.val o n = false → (s.core c.val).queue.length < 8 →
        (∃ t x, exec (.hostWindowRead f offset n) s = .next t ∧ (t.core c.val).queue = (s.core c.val).queue ++ [x] ∧
          x.kind = .hostRead ∧ x.addr = absAddr sp c.val o ∧ x.len = n ∧ x.fn = f) ∧
        ∃ t x, exec (.hostWindowWrite f offset data) s = .next t ∧ (t.core c.val).queue = (s.core c.val).queue ++ [x] ∧
          x.kind = .hostWrite ∧ x.addr = absAddr sp c.val o ∧ x.data = data)) ∧
    (∀ (c : CoreId) (n : Fin 64) (data : List Byte), f = pfn → s.serving c.val = true → data.length = 2 →
      offset.toNat = 0x400000000 + 0x600000000 + 0x400000 * c.val + 8 * n.val → s.windowScrubbed 4 c.val (8 * n.val) 2 = false →
      s.windowSpare c.val = false → let now := s.nowCycle c.val + 1
      (∀ k, ((s.counter c.val k).view now).count ≤ 65535) →
      ∃ t, exec (.hostWindowWrite f offset data) s = .next t ∧ ((t.counter c.val n.val).view now).count = leNat data ∧
        ∀ k : Fin 64, k ≠ n → t.counter c.val k.val = s.counter c.val k.val) ∧
    ∀ (d : IoDie) (n : Fin 15) (x : ShardRec), x.ciphertext.length = shardBytes →
      (f = pfn ∨ n.val ∈ s.ownSlots f → ∃ t, exec (.stagingSlotWrite f d n x) s = .next t ∧
        memGet t.mem (slotAddr d.val n.val) (ShardRec.bytes x).length = ShardRec.bytes x) ∧
      (f ≠ pfn → n.val ∉ s.ownSlots f → ∃ t, exec (.stagingSlotWrite f d n x) s = .next t ∧ t.mem = s.mem)

/-! ### Sideband -/

/-- R388, R389, R453, R454, R455: while the input is good a PLDM read answers with the reading and clears the sensor's event,
a subscription is kept, and the channel selector connects the connector that it names or none. While PWR_GOOD is high a JTAG
instruction is loaded; IDCODE answers with the grade's code, and the instructions that take the pins zeroise a running module
and hold it in reset. Beside R454 it rests on the model's choices and readings in log entries 120, 121. -/
def Obligations.SideInterfaces : Prop :=
  ∀ (s : State),
    (s.power.inputGood = true →
      (∀ sensor, ∃ t v, exec (.pldmSensorRead sensor) s = .next t ∧ t.out = .sideband v :: s.out ∧ sensor ∉ t.side.unread ∧
        (sensor = .inVoltage → v = [(s.power.voltage.toNat : Int)]) ∧ (sensor = .inCurrent → v = [(s.power.current.toNat : Int)]) ∧
        (sensor = .inPower → v = [(s.power.power.toNat : Int)]) ∧ (sensor = .maxTj → v = [(s.power.tj.toNat : Int)]) ∧
        (∀ d : Fin 64, ∀ r, sensor = .dieTj d → s.power.temps[d.val]? = some r → v = [r]) ∧
        (sensor = .moduleState → v = [if s.power.emergency then 1 else 0, if s.chk.fatal then 1 else 0,
          if s.side.tampered then 1 else 0])) ∧
      (∃ t v, exec .pldmFruRead s = .next t ∧ t.out = .sideband v :: s.out) ∧
      (∀ sensor, ∃ t, exec (.pldmEventSubscription sensor) s = .next t ∧ sensor ∈ t.side.subscribed) ∧
      ∀ b : Byte, ∃ t, exec (.channelSelectorWrite b) s = .next t ∧
        t.side.channel.map Fin.val = if b.toNat < 8 then some b.toNat else none) ∧
    (s.power.pwrGood = true →
      exec .bypass s = .next { s with side := { s.side with jtag := .bypass } } ∧
      exec .samplePreload s = .next { s with side := { s.side with jtag := .samplePreload } } ∧
      (∃ t, exec .idcode s = .next t ∧ t.side.jtag = .idcode ∧
        t.out = .sideband [if s.fuses.grade = .f then 0x21728A9B else 0x21536A9B] :: s.out) ∧
      ∀ i ∈ [(Instr.extest, JtagInstr.extest), (.clamp, .clamp), (.highz, .highz), (.extestPulse, .extestPulse),
          (.extestTrain, .extestTrain)],
        ∃ t, exec i.1 s = .next t ∧ t.side.jtag = i.2 ∧ (s.up = true → t.power.phase = .jtagHeld ∧ t.mem = [] ∧ t.cores = [] ∧
          t.passes = [] ∧ t.sec.kem = none))

/-! ### The module -/

/-- MODEL'S CHOICE (assumption 1): a step takes the command at the front of the queue and runs it with the queue's rest; on an
empty queue the module idles. -/
def Obligations.StepRunsCommand : Prop :=
  ∀ s : State, (∀ i rest, s.pending = i :: rest → step s = exec i { s with pending := rest }) ∧ (s.pending = [] → step s = .next s)

/-- MODEL'S CHOICE where the spec states no reset value (log entries 5, 8, 11): before power the set-up registers read their
reset values, every core is in service, its counters and bobbins are empty, the mesh is in uniform mode, the period code is
20, the ports and rings are disabled, no skein is formed and nothing waits; the invariant holds. -/
def Obligations.ResetState : Prop :=
  let s := State.reset
  s.inv = true ∧ s.pending = [] ∧ s.scheduled = false ∧ s.clk.period = 20 ∧ s.skein.state = .none ∧ s.passes = [] ∧ s.mem = [] ∧
    s.chk.fatal = false ∧
    s.reg 0 .clkTimeCtrl = 0x20 ∧ s.reg 0 .setLock = 0 ∧ s.reg 0 (.setPart 0) = 0x18C ∧ s.reg 0 .fabSkeinCfg = 0x4064 ∧
    s.reg 0 .chkScrub = 0x3E8 ∧ s.reg 0 .chkFenceCfg = 0xA03 ∧ s.reg 0 .pwrTempCfg = 0x55 ∧ s.reg 0 .fabWeftCfg = 0xC20 ∧
    (∀ c n, (s.core c).svc = .inService ∧ (s.counter c n).count = 0 ∧ (AMap.get Bobbin.reset (s.core c).bobbins n).state = .empty) ∧
    (∀ p, (s.port p).state = .disabled) ∧
    (∀ f r, ((s.fn f).sqOf r).state = .disabled ∧ ((s.fn f).cqOf r).state = .disabled)

/-- Every step keeps the invariant: memory stays in its canonical form, the writes that wait in a core stay in the order in
which they land, and the results that wait in a vector register in the order in which they become visible. The form of the
memory and of the lists of pending writes and results is the model's (log entries 11 and 13). -/
def Obligations.StepKeepsInvariant : Prop :=
  ∀ s t : State, s.inv = true → step s = .next t → t.inv = true
end

