-- ==== Sys2Proof/Laws/AMap.lean ====
section
/-! SUPPORT. Laws of the sparse maps: reading after writing, and the canonical form. -/

namespace Sys2Proof

variable {α : Type}

theorem AMap.get_erase_same (d : α) (m : AMap α) (k : Nat) : AMap.get d (AMap.erase k m) k = d := by
  induction m with
  | nil => rfl
  | cons p t ih =>
    obtain ⟨k', v⟩ := p
    by_cases h : k' = k <;> simp [AMap.erase, AMap.get, h, ih]

theorem AMap.get_erase_other (d : α) (m : AMap α) {j k : Nat} (h : j ≠ k) :
    AMap.get d (AMap.erase k m) j = AMap.get d m j := by
  induction m with
  | nil => rfl
  | cons p t ih =>
    obtain ⟨k', v⟩ := p
    by_cases h' : k' = k
    · simp [AMap.erase, AMap.get, ih, h', show ¬ k = j by omega]
    · by_cases h2 : k' = j
      · simp only [AMap.erase, if_neg h', AMap.get, if_pos h2]
      · simp only [AMap.erase, if_neg h', AMap.get, if_neg h2, ih]

theorem AMap.get_ins_same (d : α) (m : AMap α) (k : Nat) (v : α)
    (hk : ∀ x ∈ m, x.1 ≠ k) : AMap.get d (AMap.ins k v m) k = v := by
  induction m with
  | nil => simp [AMap.ins, AMap.get]
  | cons p t ih =>
    obtain ⟨k', v'⟩ := p
    have hp : k' ≠ k := hk (k', v') (by simp)
    have ht : ∀ x ∈ t, x.1 ≠ k := fun x hx => hk x (by simp [hx])
    by_cases h : k < k' <;> simp [AMap.ins, AMap.get, h, hp, ih ht]

theorem AMap.get_ins_other (d : α) (m : AMap α) {j k : Nat} (v : α) (h : j ≠ k) :
    AMap.get d (AMap.ins k v m) j = AMap.get d m j := by
  induction m with
  | nil => simp [AMap.ins, AMap.get, show ¬ k = j by omega]
  | cons p t ih =>
    obtain ⟨k', v'⟩ := p
    by_cases hk : k < k'
    · simp [AMap.ins, AMap.get, hk, show ¬ k = j by omega]
    · by_cases h2 : k' = j
      · simp only [AMap.ins, if_neg hk, AMap.get, if_pos h2]
      · simp only [AMap.ins, if_neg hk, AMap.get, if_neg h2, ih]

theorem AMap.erase_keys (m : AMap α) (k : Nat) : ∀ x ∈ AMap.erase k m, x.1 ≠ k := by
  induction m with
  | nil => simp [AMap.erase]
  | cons p t ih =>
    obtain ⟨k', v⟩ := p
    by_cases h : k' = k
    · simpa [AMap.erase, h] using ih
    · intro x hx
      simp only [AMap.erase, h, if_false, List.mem_cons] at hx
      obtain rfl | hx := hx
      · exact h
      · exact ih x hx

/-- A read after a write of the same key gives the value written. -/
@[simp] theorem AMap.get_set_same [DecidableEq α] (d : α) (m : AMap α) (k : Nat) (v : α) :
    AMap.get d (AMap.set d m k v) k = v := by
  unfold AMap.set
  split
  · next h => simp [AMap.get_erase_same, h]
  · exact AMap.get_ins_same d _ k v (AMap.erase_keys m k)

/-- A write of another key leaves a read alone. -/
theorem AMap.get_set_other [DecidableEq α] (d : α) (m : AMap α) {j k : Nat} (v : α) (h : j ≠ k) :
    AMap.get d (AMap.set d m k v) j = AMap.get d m j := by
  unfold AMap.set
  split
  · exact AMap.get_erase_other d m h
  · rw [AMap.get_ins_other d _ v h, AMap.get_erase_other d m h]

@[simp] theorem AMap.get_upd_same [DecidableEq α] (d : α) (m : AMap α) (k : Nat) (f : α → α) :
    AMap.get d (AMap.upd d m k f) k = f (AMap.get d m k) := AMap.get_set_same d m k _

theorem AMap.get_upd_other [DecidableEq α] (d : α) (m : AMap α) {j k : Nat} (f : α → α) (h : j ≠ k) :
    AMap.get d (AMap.upd d m k f) j = AMap.get d m j := AMap.get_set_other d m _ h

@[simp] theorem AMap.get_nil (d : α) (k : Nat) : AMap.get d [] k = d := rfl

/-! ### The canonical form -/

theorem AMap.above_mono {j k : Nat} {m : AMap α} (hjk : j ≤ k) (h : AMap.above k m = true) : AMap.above j m = true := by
  induction m with
  | nil => rfl
  | cons p t ih =>
    obtain ⟨k', v⟩ := p
    simp only [AMap.above, Bool.and_eq_true, decide_eq_true_eq] at h ⊢
    exact ⟨by omega, ih h.2⟩

theorem AMap.above_iff {k : Nat} {m : AMap α} : AMap.above k m = true ↔ ∀ x ∈ m, k < x.1 := by
  induction m with
  | nil => simp [AMap.above]
  | cons p t ih =>
    obtain ⟨k', v⟩ := p
    simp [AMap.above, ih]

/-- The canonical form, said of pairs of entries. -/
theorem AMap.wf_iff [DecidableEq α] {d : α} {m : AMap α} :
    AMap.wf d m = true ↔ m.Pairwise (fun x y => x.1 < y.1) ∧ ∀ x ∈ m, x.2 ≠ d := by
  induction m with
  | nil => simp [AMap.wf]
  | cons p t ih =>
    obtain ⟨k', v⟩ := p
    simp only [AMap.wf, Bool.and_eq_true, AMap.above_iff, ih, List.pairwise_cons, List.mem_cons, decide_eq_true_eq]
    constructor
    · rintro ⟨⟨h1, h2⟩, h3, h4⟩
      exact ⟨⟨h1, h3⟩, by rintro x (rfl | hx); exacts [h2, h4 x hx]⟩
    · rintro ⟨⟨h1, h3⟩, h2⟩
      exact ⟨⟨h1, h2 _ (.inl rfl)⟩, h3, fun x hx => h2 x (.inr hx)⟩

theorem AMap.erase_sub (m : AMap α) (k : Nat) : ∀ x ∈ AMap.erase k m, x ∈ m := by
  induction m with
  | nil => simp [AMap.erase]
  | cons p t ih =>
    obtain ⟨k', v⟩ := p
    by_cases h : k' = k
    · intro x hx
      simp only [AMap.erase, h, if_true] at hx
      exact List.mem_cons_of_mem _ (ih x hx)
    · intro x hx
      simp only [AMap.erase, h, if_false, List.mem_cons] at hx
      obtain rfl | hx := hx
      · simp
      · exact List.mem_cons_of_mem _ (ih x hx)

theorem AMap.wf_erase [DecidableEq α] {d : α} {m : AMap α} (k : Nat) (h : AMap.wf d m = true) :
    AMap.wf d (AMap.erase k m) = true := by
  induction m with
  | nil => rfl
  | cons p t ih =>
    obtain ⟨k', v⟩ := p
    simp only [AMap.wf, Bool.and_eq_true] at h
    by_cases hk : k' = k
    · simpa [AMap.erase, hk] using ih h.2
    · simp only [AMap.erase, hk, if_false, AMap.wf, Bool.and_eq_true]
      refine ⟨⟨AMap.above_iff.2 fun x hx => ?_, h.1.2⟩, ih h.2⟩
      exact AMap.above_iff.1 h.1.1 x (AMap.erase_sub t k x hx)

theorem AMap.mem_ins {m : AMap α} {k : Nat} {v : α} {x : Nat × α} (hx : x ∈ AMap.ins k v m) : x = (k, v) ∨ x ∈ m := by
  induction m with
  | nil => simpa [AMap.ins] using hx
  | cons p t ih =>
    obtain ⟨k', v'⟩ := p
    by_cases h : k < k'
    · simpa [AMap.ins, h] using hx
    · simp only [AMap.ins, h, if_false, List.mem_cons] at hx
      obtain rfl | hx := hx
      · simp
      · obtain h1 | h1 := ih hx
        · exact .inl h1
        · exact .inr (List.mem_cons_of_mem _ h1)

theorem AMap.wf_ins [DecidableEq α] {d : α} {m : AMap α} {k : Nat} {v : α} (h : AMap.wf d m = true)
    (hk : ∀ x ∈ m, x.1 ≠ k) (hv : v ≠ d) : AMap.wf d (AMap.ins k v m) = true := by
  induction m with
  | nil => simp [AMap.ins, AMap.wf, AMap.above, hv]
  | cons p t ih =>
    obtain ⟨k', v'⟩ := p
    have hw := h
    simp only [AMap.wf, Bool.and_eq_true, decide_eq_true_eq] at h
    have hp : k' ≠ k := hk (k', v') (by simp)
    by_cases hlt : k < k'
    · simp only [AMap.ins, hlt, if_true]
      rw [AMap.wf]
      simp only [Bool.and_eq_true, decide_eq_true_eq]
      refine ⟨⟨AMap.above_iff.2 fun x hx => ?_, hv⟩, hw⟩
      obtain rfl | hx := List.mem_cons.1 hx
      · exact hlt
      · exact lt_trans hlt (AMap.above_iff.1 h.1.1 x hx)
    · simp only [AMap.ins, hlt, if_false, AMap.wf, Bool.and_eq_true, decide_eq_true_eq]
      refine ⟨⟨AMap.above_iff.2 fun x hx => ?_, h.1.2⟩, ih h.2 fun x hx => hk x (by simp [hx])⟩
      obtain rfl | hx := AMap.mem_ins hx
      · show k' < k
        omega
      · exact AMap.above_iff.1 h.1.1 x hx

/-- A write keeps the canonical form. -/
theorem AMap.wf_set [DecidableEq α] {d : α} {m : AMap α} (k : Nat) (v : α) (h : AMap.wf d m = true) :
    AMap.wf d (AMap.set d m k v) = true := by
  unfold AMap.set
  split
  · exact AMap.wf_erase k h
  · next hv => exact AMap.wf_ins (AMap.wf_erase k h) (AMap.erase_keys m k) hv

theorem AMap.wf_upd [DecidableEq α] {d : α} {m : AMap α} (k : Nat) (f : α → α) (h : AMap.wf d m = true) :
    AMap.wf d (AMap.upd d m k f) = true := AMap.wf_set k _ h

theorem AMap.wf_filter [DecidableEq α] {d : α} {m : AMap α} (p : Nat × α → Bool) (h : AMap.wf d m = true) :
    AMap.wf d (m.filter p) = true := by
  rw [AMap.wf_iff] at h ⊢
  exact ⟨h.1.filter p, fun x hx => h.2 x (List.mem_filter.1 hx).1⟩

end Sys2Proof
end

