-- ==== Sys2Proof/Laws/Memory.lean ====
section
/-! SUPPORT. Laws of memory: reading one byte after a write, and that every memory operation keeps the canonical form. -/

namespace Sys2Proof.Machine

theorem memByte_eq_zero {m : List Host.Cell} {a : Nat} (h : ∀ x ∈ m, x.1 ≠ a) : memByte m a = 0 := by
  unfold memByte
  induction m with
  | nil => rfl
  | cons p t ih =>
    obtain ⟨k, v⟩ := p
    have hk : k ≠ a := h (k, v) (by simp)
    simpa [AMap.get, hk] using ih fun x hx => h x (by simp [hx])

theorem memByte_append (m n : List Host.Cell) (a : Nat) (h : ∀ x ∈ m, x.1 ≠ a) :
    memByte (m ++ n) a = memByte n a := by
  induction m with
  | nil => rfl
  | cons p t ih =>
    obtain ⟨k, v⟩ := p
    have hk : k ≠ a := h (k, v) (by simp)
    have := ih fun x hx => h x (by simp [hx])
    simpa [memByte, AMap.get, hk] using this

theorem memByte_append_left (m n : List Host.Cell) (a : Nat) (h : ∀ x ∈ n, x.1 ≠ a) :
    memByte (m ++ n) a = memByte m a := by
  induction m with
  | nil => exact memByte_eq_zero h
  | cons p t ih =>
    obtain ⟨k, v⟩ := p
    by_cases hk : k = a
    · simp [memByte, AMap.get, hk]
    · simpa [memByte, AMap.get, hk] using ih

theorem memByte_filter (m : List Host.Cell) (p : Nat → Bool) (a : Nat) (h : p a = true) :
    memByte (m.filter fun c => p c.1) a = memByte m a := by
  induction m with
  | nil => rfl
  | cons q t ih =>
    obtain ⟨k, v⟩ := q
    by_cases hk : k = a
    · subst hk
      simp [memByte, AMap.get, h]
    · by_cases hp : p k = true
      · simpa [memByte, AMap.get, hk, hp] using ih
      · simpa [memByte, AMap.get, hk, hp] using ih

theorem runCells_range (bs : List Byte) (a : Nat) : ∀ x ∈ runCells a bs, a ≤ x.1 ∧ x.1 < a + bs.length := by
  induction bs generalizing a with
  | nil => simp [runCells]
  | cons b t ih =>
    intro x hx
    simp only [List.length_cons]
    unfold runCells at hx
    split at hx
    · have := ih (a + 1) x hx
      omega
    · obtain rfl | hx := List.mem_cons.1 hx
      · simp
      · have := ih (a + 1) x hx
        omega

theorem runCells_byte (bs : List Byte) (a i : Nat) (h : i < bs.length) : memByte (runCells a bs) (a + i) = bs[i] := by
  induction bs generalizing a i with
  | nil => simp at h
  | cons b t ih =>
    cases i with
    | zero =>
      unfold runCells
      split
      · next hb =>
        have : memByte (runCells (a + 1) t) (a + 0) = 0 :=
          memByte_eq_zero fun x hx => by have := runCells_range t (a + 1) x hx; omega
        simpa [hb] using this
      · simp [memByte, AMap.get]
    | succ i =>
      have h' : i < t.length := by simpa using h
      have e : a + (i + 1) = a + 1 + i := by omega
      unfold runCells
      split
      · simpa [e] using ih (a + 1) i h'
      · have := ih (a + 1) i h'
        have hn : ¬ a = a + 1 + i := by omega
        simpa [memByte, AMap.get, e, hn] using this

theorem runCells_wf (bs : List Byte) (a : Nat) : Memory.wf (runCells a bs) = true := by
  induction bs generalizing a with
  | nil => rfl
  | cons b t ih =>
    unfold runCells
    split
    · exact ih (a + 1)
    · next hb =>
      simp only [Memory.wf, AMap.wf, Bool.and_eq_true, decide_eq_true_eq]
      refine ⟨⟨AMap.above_iff.2 fun x hx => ?_, hb⟩, ih (a + 1)⟩
      have := runCells_range t (a + 1) x hx
      omega

/-- A byte inside a write reads as written. -/
theorem memPut_inside (m : List Host.Cell) (a : Nat) (bs : List Byte) (i : Nat) (h : i < bs.length) :
    memByte (memPut m a bs) (a + i) = bs[i] := by
  unfold memPut
  rw [memByte_append_left, memByte_append, runCells_byte bs a i h]
  · intro x hx
    have := (List.mem_filter.1 hx).2
    simp only [decide_eq_true_eq] at this
    omega
  · intro x hx
    have := (List.mem_filter.1 hx).2
    simp only [decide_eq_true_eq] at this
    omega

/-- A byte outside a write reads as before. -/
theorem memPut_outside (m : List Host.Cell) (a : Nat) (bs : List Byte) (b : Nat) (h : b < a ∨ a + bs.length ≤ b) :
    memByte (memPut m a bs) b = memByte m b := by
  unfold memPut
  rcases h with h | h
  · rw [memByte_append_left, memByte_append_left]
    · exact memByte_filter m (fun n => decide (n < a)) b (by simpa using h)
    · intro x hx
      have := runCells_range bs a x hx
      omega
    · intro x hx
      have := (List.mem_filter.1 hx).2
      simp only [decide_eq_true_eq] at this
      omega
  · rw [memByte_append]
    · exact memByte_filter m (fun n => decide (a + bs.length ≤ n)) b (by simpa using h)
    · intro x hx
      obtain hx | hx := List.mem_append.1 hx
      · have := (List.mem_filter.1 hx).2
        simp only [decide_eq_true_eq] at this
        omega
      · have := runCells_range bs a x hx
        omega

/-- A write keeps the canonical form. -/
theorem memPut_wf {m : List Host.Cell} (a : Nat) (bs : List Byte) (h : Memory.wf m = true) :
    Memory.wf (memPut m a bs) = true := by
  simp only [Memory.wf, AMap.wf_iff] at h ⊢
  have hr := AMap.wf_iff.1 (runCells_wf bs a)
  unfold memPut
  refine ⟨?_, ?_⟩
  · rw [List.pairwise_append, List.pairwise_append]
    refine ⟨⟨h.1.filter _, hr.1, fun x hx y hy => ?_⟩, h.1.filter _, fun x hx y hy => ?_⟩
    · have h1 := (List.mem_filter.1 hx).2
      have h2 := runCells_range bs a y hy
      simp only [decide_eq_true_eq] at h1
      omega
    · have h2 := (List.mem_filter.1 hy).2
      simp only [decide_eq_true_eq] at h2
      obtain hx | hx := List.mem_append.1 hx
      · have h1 := (List.mem_filter.1 hx).2
        simp only [decide_eq_true_eq] at h1
        omega
      · have h1 := runCells_range bs a x hx
        omega
  · intro x hx
    rcases List.mem_append.1 hx with hx | hx
    · rcases List.mem_append.1 hx with hx | hx
      · exact h.2 x (List.mem_filter.1 hx).1
      · exact hr.2 x hx
    · exact h.2 x (List.mem_filter.1 hx).1

/-- Zeroing keeps the canonical form. -/
theorem memZero_wf {m : List Host.Cell} (a n : Nat) (h : Memory.wf m = true) : Memory.wf (memZero m a n) = true :=
  AMap.wf_filter _ h

/-- A byte inside a zeroed range reads 0. -/
theorem memZero_inside (m : List Host.Cell) (a n b : Nat) (h : a ≤ b ∧ b < a + n) : memByte (memZero m a n) b = 0 := by
  refine memByte_eq_zero fun x hx => ?_
  have := (List.mem_filter.1 hx).2
  simp only [Bool.or_eq_true, decide_eq_true_eq] at this
  omega

/-- A byte outside a zeroed range reads as before. -/
theorem memZero_outside (m : List Host.Cell) (a n b : Nat) (h : b < a ∨ a + n ≤ b) :
    memByte (memZero m a n) b = memByte m b :=
  memByte_filter m (fun k => decide (k < a) || decide (a + n ≤ k)) b (by simpa using h)

/-- Landing a list of writes keeps the canonical form. -/
theorem land_wf {m : List Host.Cell} (l : List MWrite) (h : Memory.wf m = true) :
    Memory.wf (l.foldl (fun m w => memPut m w.addr w.data) m) = true := by
  induction l generalizing m with
  | nil => exact h
  | cons w t ih => exact ih (memPut_wf w.addr w.data h)

/-- A write that lands at once keeps the canonical form. -/
theorem writeNow_wf {s : State} (a : Nat) (bs : List Byte) (h : Memory.wf s.mem = true) :
    Memory.wf (s.writeNow a bs).mem = true := memPut_wf a bs h

/-- Landing a core's writes before a cycle keeps the canonical form. -/
theorem settle_wf {s : State} (c t : Nat) (h : Memory.wf s.mem = true) : Memory.wf (s.settle c t).mem = true := by
  unfold State.settle
  split
  split
  · exact h
  · exact land_wf _ h

/-- Landing every write of a core keeps the canonical form. -/
theorem settleAll_wf {s : State} (c : Nat) (h : Memory.wf s.mem = true) : Memory.wf (s.settleAll c).mem = true := by
  unfold State.settleAll
  split
  · exact h
  · exact land_wf _ h

/-- Without pending writes of the core, landing changes nothing. -/
theorem settle_none {s : State} {c : Nat} (t : Nat) (h : (s.core c).mpend = []) : s.settle c t = s := by
  simp [State.settle, h]

/-- Without pending writes of the core, landing changes nothing. -/
theorem settleAll_none {s : State} {c : Nat} (h : (s.core c).mpend = []) : s.settleAll c = s := by
  simp [State.settleAll, h]

end Sys2Proof.Machine
end

