-- ==== Sys2Proof/Laws/State.lean ====
section
/-! SUPPORT. Laws of the state's updates: what each named update leaves alone, and what a read after it gives. -/

namespace Sys2Proof.Machine

variable (s : State)

/-! ### Fields that an update leaves alone -/

@[simp] theorem State.setCore_pending (c : Nat) (k : Core) : (s.setCore c k).pending = s.pending := rfl
@[simp] theorem State.setCore_fuses (c : Nat) (k : Core) : (s.setCore c k).fuses = s.fuses := rfl
@[simp] theorem State.setCore_mem (c : Nat) (k : Core) : (s.setCore c k).mem = s.mem := rfl
@[simp] theorem State.setCore_ecc (c : Nat) (k : Core) : (s.setCore c k).ecc = s.ecc := rfl
@[simp] theorem State.setCore_setup (c : Nat) (k : Core) : (s.setCore c k).setup = s.setup := rfl
@[simp] theorem State.setCore_diesOut (c : Nat) (k : Core) : (s.setCore c k).diesOut = s.diesOut := rfl
@[simp] theorem State.setCore_scheduled (c : Nat) (k : Core) : (s.setCore c k).scheduled = s.scheduled := rfl
@[simp] theorem State.setCore_modePending (c : Nat) (k : Core) : (s.setCore c k).modePending = s.modePending := rfl
@[simp] theorem State.setCore_inflight (c : Nat) (k : Core) : (s.setCore c k).inflight = s.inflight := rfl
@[simp] theorem State.setCore_txns (c : Nat) (k : Core) : (s.setCore c k).txns = s.txns := rfl
@[simp] theorem State.setCore_ops (c : Nat) (k : Core) : (s.setCore c k).ops = s.ops := rfl
@[simp] theorem State.setCore_nextOp (c : Nat) (k : Core) : (s.setCore c k).nextOp = s.nextOp := rfl
@[simp] theorem State.setCore_replay (c : Nat) (k : Core) : (s.setCore c k).replay = s.replay := rfl
@[simp] theorem State.setCore_ports (c : Nat) (k : Core) : (s.setCore c k).ports = s.ports := rfl
@[simp] theorem State.setCore_regions (c : Nat) (k : Core) : (s.setCore c k).regions = s.regions := rfl
@[simp] theorem State.setCore_clk (c : Nat) (k : Core) : (s.setCore c k).clk = s.clk := rfl
@[simp] theorem State.setCore_fns (c : Nat) (k : Core) : (s.setCore c k).fns = s.fns := rfl
@[simp] theorem State.setCore_passes (c : Nat) (k : Core) : (s.setCore c k).passes = s.passes := rfl
@[simp] theorem State.setCore_nextPass (c : Nat) (k : Core) : (s.setCore c k).nextPass = s.nextPass := rfl
@[simp] theorem State.setCore_skein (c : Nat) (k : Core) : (s.setCore c k).skein = s.skein := rfl
@[simp] theorem State.setCore_colls (c : Nat) (k : Core) : (s.setCore c k).colls = s.colls := rfl
@[simp] theorem State.setCore_reds (c : Nat) (k : Core) : (s.setCore c k).reds = s.reds := rfl
@[simp] theorem State.setCore_slots (c : Nat) (k : Core) : (s.setCore c k).slots = s.slots := rfl
@[simp] theorem State.setCore_notices (c : Nat) (k : Core) : (s.setCore c k).notices = s.notices := rfl
@[simp] theorem State.setCore_teasel (c : Nat) (k : Core) : (s.setCore c k).teasel = s.teasel := rfl
@[simp] theorem State.setCore_distFail (c : Nat) (k : Core) : (s.setCore c k).distFail = s.distFail := rfl
@[simp] theorem State.setCore_library (c : Nat) (k : Core) : (s.setCore c k).library = s.library := rfl
@[simp] theorem State.setCore_chk (c : Nat) (k : Core) : (s.setCore c k).chk = s.chk := rfl
@[simp] theorem State.setCore_sec (c : Nat) (k : Core) : (s.setCore c k).sec = s.sec := rfl
@[simp] theorem State.setCore_power (c : Nat) (k : Core) : (s.setCore c k).power = s.power := rfl
@[simp] theorem State.setCore_side (c : Nat) (k : Core) : (s.setCore c k).side = s.side := rfl
@[simp] theorem State.setCore_obs (c : Nat) (k : Core) : (s.setCore c k).obs = s.obs := rfl
@[simp] theorem State.setCore_numVfs (c : Nat) (k : Core) : (s.setCore c k).numVfs = s.numVfs := rfl
@[simp] theorem State.setCore_out (c : Nat) (k : Core) : (s.setCore c k).out = s.out := rfl
@[simp] theorem State.setCore_fresh (c : Nat) (k : Core) : (s.setCore c k).fresh = s.fresh := rfl

@[simp] theorem State.updCore_pending (c : Nat) (f : Core → Core) : (s.updCore c f).pending = s.pending := rfl
@[simp] theorem State.updCore_fuses (c : Nat) (f : Core → Core) : (s.updCore c f).fuses = s.fuses := rfl
@[simp] theorem State.updCore_mem (c : Nat) (f : Core → Core) : (s.updCore c f).mem = s.mem := rfl
@[simp] theorem State.updCore_ecc (c : Nat) (f : Core → Core) : (s.updCore c f).ecc = s.ecc := rfl
@[simp] theorem State.updCore_setup (c : Nat) (f : Core → Core) : (s.updCore c f).setup = s.setup := rfl
@[simp] theorem State.updCore_diesOut (c : Nat) (f : Core → Core) : (s.updCore c f).diesOut = s.diesOut := rfl
@[simp] theorem State.updCore_scheduled (c : Nat) (f : Core → Core) : (s.updCore c f).scheduled = s.scheduled := rfl
@[simp] theorem State.updCore_modePending (c : Nat) (f : Core → Core) : (s.updCore c f).modePending = s.modePending := rfl
@[simp] theorem State.updCore_inflight (c : Nat) (f : Core → Core) : (s.updCore c f).inflight = s.inflight := rfl
@[simp] theorem State.updCore_txns (c : Nat) (f : Core → Core) : (s.updCore c f).txns = s.txns := rfl
@[simp] theorem State.updCore_ops (c : Nat) (f : Core → Core) : (s.updCore c f).ops = s.ops := rfl
@[simp] theorem State.updCore_nextOp (c : Nat) (f : Core → Core) : (s.updCore c f).nextOp = s.nextOp := rfl
@[simp] theorem State.updCore_replay (c : Nat) (f : Core → Core) : (s.updCore c f).replay = s.replay := rfl
@[simp] theorem State.updCore_ports (c : Nat) (f : Core → Core) : (s.updCore c f).ports = s.ports := rfl
@[simp] theorem State.updCore_regions (c : Nat) (f : Core → Core) : (s.updCore c f).regions = s.regions := rfl
@[simp] theorem State.updCore_clk (c : Nat) (f : Core → Core) : (s.updCore c f).clk = s.clk := rfl
@[simp] theorem State.updCore_fns (c : Nat) (f : Core → Core) : (s.updCore c f).fns = s.fns := rfl
@[simp] theorem State.updCore_passes (c : Nat) (f : Core → Core) : (s.updCore c f).passes = s.passes := rfl
@[simp] theorem State.updCore_nextPass (c : Nat) (f : Core → Core) : (s.updCore c f).nextPass = s.nextPass := rfl
@[simp] theorem State.updCore_skein (c : Nat) (f : Core → Core) : (s.updCore c f).skein = s.skein := rfl
@[simp] theorem State.updCore_colls (c : Nat) (f : Core → Core) : (s.updCore c f).colls = s.colls := rfl
@[simp] theorem State.updCore_reds (c : Nat) (f : Core → Core) : (s.updCore c f).reds = s.reds := rfl
@[simp] theorem State.updCore_slots (c : Nat) (f : Core → Core) : (s.updCore c f).slots = s.slots := rfl
@[simp] theorem State.updCore_notices (c : Nat) (f : Core → Core) : (s.updCore c f).notices = s.notices := rfl
@[simp] theorem State.updCore_teasel (c : Nat) (f : Core → Core) : (s.updCore c f).teasel = s.teasel := rfl
@[simp] theorem State.updCore_distFail (c : Nat) (f : Core → Core) : (s.updCore c f).distFail = s.distFail := rfl
@[simp] theorem State.updCore_library (c : Nat) (f : Core → Core) : (s.updCore c f).library = s.library := rfl
@[simp] theorem State.updCore_chk (c : Nat) (f : Core → Core) : (s.updCore c f).chk = s.chk := rfl
@[simp] theorem State.updCore_sec (c : Nat) (f : Core → Core) : (s.updCore c f).sec = s.sec := rfl
@[simp] theorem State.updCore_power (c : Nat) (f : Core → Core) : (s.updCore c f).power = s.power := rfl
@[simp] theorem State.updCore_side (c : Nat) (f : Core → Core) : (s.updCore c f).side = s.side := rfl
@[simp] theorem State.updCore_obs (c : Nat) (f : Core → Core) : (s.updCore c f).obs = s.obs := rfl
@[simp] theorem State.updCore_numVfs (c : Nat) (f : Core → Core) : (s.updCore c f).numVfs = s.numVfs := rfl
@[simp] theorem State.updCore_out (c : Nat) (f : Core → Core) : (s.updCore c f).out = s.out := rfl
@[simp] theorem State.updCore_fresh (c : Nat) (f : Core → Core) : (s.updCore c f).fresh = s.fresh := rfl

@[simp] theorem State.updEngine_pending (c : Nat) (e : Eng) (f : Engine → Engine) : (s.updEngine c e f).pending = s.pending := rfl
@[simp] theorem State.updEngine_fuses (c : Nat) (e : Eng) (f : Engine → Engine) : (s.updEngine c e f).fuses = s.fuses := rfl
@[simp] theorem State.updEngine_mem (c : Nat) (e : Eng) (f : Engine → Engine) : (s.updEngine c e f).mem = s.mem := rfl
@[simp] theorem State.updEngine_ecc (c : Nat) (e : Eng) (f : Engine → Engine) : (s.updEngine c e f).ecc = s.ecc := rfl
@[simp] theorem State.updEngine_setup (c : Nat) (e : Eng) (f : Engine → Engine) : (s.updEngine c e f).setup = s.setup := rfl
@[simp] theorem State.updEngine_diesOut (c : Nat) (e : Eng) (f : Engine → Engine) : (s.updEngine c e f).diesOut = s.diesOut := rfl
@[simp] theorem State.updEngine_scheduled (c : Nat) (e : Eng) (f : Engine → Engine) : (s.updEngine c e f).scheduled = s.scheduled := rfl
@[simp] theorem State.updEngine_modePending (c : Nat) (e : Eng) (f : Engine → Engine) : (s.updEngine c e f).modePending = s.modePending := rfl
@[simp] theorem State.updEngine_inflight (c : Nat) (e : Eng) (f : Engine → Engine) : (s.updEngine c e f).inflight = s.inflight := rfl
@[simp] theorem State.updEngine_txns (c : Nat) (e : Eng) (f : Engine → Engine) : (s.updEngine c e f).txns = s.txns := rfl
@[simp] theorem State.updEngine_ops (c : Nat) (e : Eng) (f : Engine → Engine) : (s.updEngine c e f).ops = s.ops := rfl
@[simp] theorem State.updEngine_nextOp (c : Nat) (e : Eng) (f : Engine → Engine) : (s.updEngine c e f).nextOp = s.nextOp := rfl
@[simp] theorem State.updEngine_replay (c : Nat) (e : Eng) (f : Engine → Engine) : (s.updEngine c e f).replay = s.replay := rfl
@[simp] theorem State.updEngine_ports (c : Nat) (e : Eng) (f : Engine → Engine) : (s.updEngine c e f).ports = s.ports := rfl
@[simp] theorem State.updEngine_regions (c : Nat) (e : Eng) (f : Engine → Engine) : (s.updEngine c e f).regions = s.regions := rfl
@[simp] theorem State.updEngine_clk (c : Nat) (e : Eng) (f : Engine → Engine) : (s.updEngine c e f).clk = s.clk := rfl
@[simp] theorem State.updEngine_fns (c : Nat) (e : Eng) (f : Engine → Engine) : (s.updEngine c e f).fns = s.fns := rfl
@[simp] theorem State.updEngine_passes (c : Nat) (e : Eng) (f : Engine → Engine) : (s.updEngine c e f).passes = s.passes := rfl
@[simp] theorem State.updEngine_nextPass (c : Nat) (e : Eng) (f : Engine → Engine) : (s.updEngine c e f).nextPass = s.nextPass := rfl
@[simp] theorem State.updEngine_skein (c : Nat) (e : Eng) (f : Engine → Engine) : (s.updEngine c e f).skein = s.skein := rfl
@[simp] theorem State.updEngine_colls (c : Nat) (e : Eng) (f : Engine → Engine) : (s.updEngine c e f).colls = s.colls := rfl
@[simp] theorem State.updEngine_reds (c : Nat) (e : Eng) (f : Engine → Engine) : (s.updEngine c e f).reds = s.reds := rfl
@[simp] theorem State.updEngine_slots (c : Nat) (e : Eng) (f : Engine → Engine) : (s.updEngine c e f).slots = s.slots := rfl
@[simp] theorem State.updEngine_notices (c : Nat) (e : Eng) (f : Engine → Engine) : (s.updEngine c e f).notices = s.notices := rfl
@[simp] theorem State.updEngine_teasel (c : Nat) (e : Eng) (f : Engine → Engine) : (s.updEngine c e f).teasel = s.teasel := rfl
@[simp] theorem State.updEngine_distFail (c : Nat) (e : Eng) (f : Engine → Engine) : (s.updEngine c e f).distFail = s.distFail := rfl
@[simp] theorem State.updEngine_library (c : Nat) (e : Eng) (f : Engine → Engine) : (s.updEngine c e f).library = s.library := rfl
@[simp] theorem State.updEngine_chk (c : Nat) (e : Eng) (f : Engine → Engine) : (s.updEngine c e f).chk = s.chk := rfl
@[simp] theorem State.updEngine_sec (c : Nat) (e : Eng) (f : Engine → Engine) : (s.updEngine c e f).sec = s.sec := rfl
@[simp] theorem State.updEngine_power (c : Nat) (e : Eng) (f : Engine → Engine) : (s.updEngine c e f).power = s.power := rfl
@[simp] theorem State.updEngine_side (c : Nat) (e : Eng) (f : Engine → Engine) : (s.updEngine c e f).side = s.side := rfl
@[simp] theorem State.updEngine_obs (c : Nat) (e : Eng) (f : Engine → Engine) : (s.updEngine c e f).obs = s.obs := rfl
@[simp] theorem State.updEngine_numVfs (c : Nat) (e : Eng) (f : Engine → Engine) : (s.updEngine c e f).numVfs = s.numVfs := rfl
@[simp] theorem State.updEngine_out (c : Nat) (e : Eng) (f : Engine → Engine) : (s.updEngine c e f).out = s.out := rfl
@[simp] theorem State.updEngine_fresh (c : Nat) (e : Eng) (f : Engine → Engine) : (s.updEngine c e f).fresh = s.fresh := rfl

@[simp] theorem State.setFn_pending (f : Nat) (v : Func) : (s.setFn f v).pending = s.pending := rfl
@[simp] theorem State.setFn_fuses (f : Nat) (v : Func) : (s.setFn f v).fuses = s.fuses := rfl
@[simp] theorem State.setFn_mem (f : Nat) (v : Func) : (s.setFn f v).mem = s.mem := rfl
@[simp] theorem State.setFn_ecc (f : Nat) (v : Func) : (s.setFn f v).ecc = s.ecc := rfl
@[simp] theorem State.setFn_cores (f : Nat) (v : Func) : (s.setFn f v).cores = s.cores := rfl
@[simp] theorem State.setFn_setup (f : Nat) (v : Func) : (s.setFn f v).setup = s.setup := rfl
@[simp] theorem State.setFn_diesOut (f : Nat) (v : Func) : (s.setFn f v).diesOut = s.diesOut := rfl
@[simp] theorem State.setFn_scheduled (f : Nat) (v : Func) : (s.setFn f v).scheduled = s.scheduled := rfl
@[simp] theorem State.setFn_modePending (f : Nat) (v : Func) : (s.setFn f v).modePending = s.modePending := rfl
@[simp] theorem State.setFn_inflight (f : Nat) (v : Func) : (s.setFn f v).inflight = s.inflight := rfl
@[simp] theorem State.setFn_txns (f : Nat) (v : Func) : (s.setFn f v).txns = s.txns := rfl
@[simp] theorem State.setFn_ops (f : Nat) (v : Func) : (s.setFn f v).ops = s.ops := rfl
@[simp] theorem State.setFn_nextOp (f : Nat) (v : Func) : (s.setFn f v).nextOp = s.nextOp := rfl
@[simp] theorem State.setFn_replay (f : Nat) (v : Func) : (s.setFn f v).replay = s.replay := rfl
@[simp] theorem State.setFn_ports (f : Nat) (v : Func) : (s.setFn f v).ports = s.ports := rfl
@[simp] theorem State.setFn_regions (f : Nat) (v : Func) : (s.setFn f v).regions = s.regions := rfl
@[simp] theorem State.setFn_clk (f : Nat) (v : Func) : (s.setFn f v).clk = s.clk := rfl
@[simp] theorem State.setFn_passes (f : Nat) (v : Func) : (s.setFn f v).passes = s.passes := rfl
@[simp] theorem State.setFn_nextPass (f : Nat) (v : Func) : (s.setFn f v).nextPass = s.nextPass := rfl
@[simp] theorem State.setFn_skein (f : Nat) (v : Func) : (s.setFn f v).skein = s.skein := rfl
@[simp] theorem State.setFn_colls (f : Nat) (v : Func) : (s.setFn f v).colls = s.colls := rfl
@[simp] theorem State.setFn_reds (f : Nat) (v : Func) : (s.setFn f v).reds = s.reds := rfl
@[simp] theorem State.setFn_slots (f : Nat) (v : Func) : (s.setFn f v).slots = s.slots := rfl
@[simp] theorem State.setFn_notices (f : Nat) (v : Func) : (s.setFn f v).notices = s.notices := rfl
@[simp] theorem State.setFn_teasel (f : Nat) (v : Func) : (s.setFn f v).teasel = s.teasel := rfl
@[simp] theorem State.setFn_distFail (f : Nat) (v : Func) : (s.setFn f v).distFail = s.distFail := rfl
@[simp] theorem State.setFn_library (f : Nat) (v : Func) : (s.setFn f v).library = s.library := rfl
@[simp] theorem State.setFn_chk (f : Nat) (v : Func) : (s.setFn f v).chk = s.chk := rfl
@[simp] theorem State.setFn_sec (f : Nat) (v : Func) : (s.setFn f v).sec = s.sec := rfl
@[simp] theorem State.setFn_power (f : Nat) (v : Func) : (s.setFn f v).power = s.power := rfl
@[simp] theorem State.setFn_side (f : Nat) (v : Func) : (s.setFn f v).side = s.side := rfl
@[simp] theorem State.setFn_obs (f : Nat) (v : Func) : (s.setFn f v).obs = s.obs := rfl
@[simp] theorem State.setFn_numVfs (f : Nat) (v : Func) : (s.setFn f v).numVfs = s.numVfs := rfl
@[simp] theorem State.setFn_out (f : Nat) (v : Func) : (s.setFn f v).out = s.out := rfl
@[simp] theorem State.setFn_fresh (f : Nat) (v : Func) : (s.setFn f v).fresh = s.fresh := rfl

@[simp] theorem State.updFn_pending (f : Nat) (u : Func → Func) : (s.updFn f u).pending = s.pending := rfl
@[simp] theorem State.updFn_fuses (f : Nat) (u : Func → Func) : (s.updFn f u).fuses = s.fuses := rfl
@[simp] theorem State.updFn_mem (f : Nat) (u : Func → Func) : (s.updFn f u).mem = s.mem := rfl
@[simp] theorem State.updFn_ecc (f : Nat) (u : Func → Func) : (s.updFn f u).ecc = s.ecc := rfl
@[simp] theorem State.updFn_cores (f : Nat) (u : Func → Func) : (s.updFn f u).cores = s.cores := rfl
@[simp] theorem State.updFn_setup (f : Nat) (u : Func → Func) : (s.updFn f u).setup = s.setup := rfl
@[simp] theorem State.updFn_diesOut (f : Nat) (u : Func → Func) : (s.updFn f u).diesOut = s.diesOut := rfl
@[simp] theorem State.updFn_scheduled (f : Nat) (u : Func → Func) : (s.updFn f u).scheduled = s.scheduled := rfl
@[simp] theorem State.updFn_modePending (f : Nat) (u : Func → Func) : (s.updFn f u).modePending = s.modePending := rfl
@[simp] theorem State.updFn_inflight (f : Nat) (u : Func → Func) : (s.updFn f u).inflight = s.inflight := rfl
@[simp] theorem State.updFn_txns (f : Nat) (u : Func → Func) : (s.updFn f u).txns = s.txns := rfl
@[simp] theorem State.updFn_ops (f : Nat) (u : Func → Func) : (s.updFn f u).ops = s.ops := rfl
@[simp] theorem State.updFn_nextOp (f : Nat) (u : Func → Func) : (s.updFn f u).nextOp = s.nextOp := rfl
@[simp] theorem State.updFn_replay (f : Nat) (u : Func → Func) : (s.updFn f u).replay = s.replay := rfl
@[simp] theorem State.updFn_ports (f : Nat) (u : Func → Func) : (s.updFn f u).ports = s.ports := rfl
@[simp] theorem State.updFn_regions (f : Nat) (u : Func → Func) : (s.updFn f u).regions = s.regions := rfl
@[simp] theorem State.updFn_clk (f : Nat) (u : Func → Func) : (s.updFn f u).clk = s.clk := rfl
@[simp] theorem State.updFn_passes (f : Nat) (u : Func → Func) : (s.updFn f u).passes = s.passes := rfl
@[simp] theorem State.updFn_nextPass (f : Nat) (u : Func → Func) : (s.updFn f u).nextPass = s.nextPass := rfl
@[simp] theorem State.updFn_skein (f : Nat) (u : Func → Func) : (s.updFn f u).skein = s.skein := rfl
@[simp] theorem State.updFn_colls (f : Nat) (u : Func → Func) : (s.updFn f u).colls = s.colls := rfl
@[simp] theorem State.updFn_reds (f : Nat) (u : Func → Func) : (s.updFn f u).reds = s.reds := rfl
@[simp] theorem State.updFn_slots (f : Nat) (u : Func → Func) : (s.updFn f u).slots = s.slots := rfl
@[simp] theorem State.updFn_notices (f : Nat) (u : Func → Func) : (s.updFn f u).notices = s.notices := rfl
@[simp] theorem State.updFn_teasel (f : Nat) (u : Func → Func) : (s.updFn f u).teasel = s.teasel := rfl
@[simp] theorem State.updFn_distFail (f : Nat) (u : Func → Func) : (s.updFn f u).distFail = s.distFail := rfl
@[simp] theorem State.updFn_library (f : Nat) (u : Func → Func) : (s.updFn f u).library = s.library := rfl
@[simp] theorem State.updFn_chk (f : Nat) (u : Func → Func) : (s.updFn f u).chk = s.chk := rfl
@[simp] theorem State.updFn_sec (f : Nat) (u : Func → Func) : (s.updFn f u).sec = s.sec := rfl
@[simp] theorem State.updFn_power (f : Nat) (u : Func → Func) : (s.updFn f u).power = s.power := rfl
@[simp] theorem State.updFn_side (f : Nat) (u : Func → Func) : (s.updFn f u).side = s.side := rfl
@[simp] theorem State.updFn_obs (f : Nat) (u : Func → Func) : (s.updFn f u).obs = s.obs := rfl
@[simp] theorem State.updFn_numVfs (f : Nat) (u : Func → Func) : (s.updFn f u).numVfs = s.numVfs := rfl
@[simp] theorem State.updFn_out (f : Nat) (u : Func → Func) : (s.updFn f u).out = s.out := rfl
@[simp] theorem State.updFn_fresh (f : Nat) (u : Func → Func) : (s.updFn f u).fresh = s.fresh := rfl

@[simp] theorem State.updPort_pending (p : Nat) (u : Port → Port) : (s.updPort p u).pending = s.pending := rfl
@[simp] theorem State.updPort_fuses (p : Nat) (u : Port → Port) : (s.updPort p u).fuses = s.fuses := rfl
@[simp] theorem State.updPort_mem (p : Nat) (u : Port → Port) : (s.updPort p u).mem = s.mem := rfl
@[simp] theorem State.updPort_ecc (p : Nat) (u : Port → Port) : (s.updPort p u).ecc = s.ecc := rfl
@[simp] theorem State.updPort_cores (p : Nat) (u : Port → Port) : (s.updPort p u).cores = s.cores := rfl
@[simp] theorem State.updPort_setup (p : Nat) (u : Port → Port) : (s.updPort p u).setup = s.setup := rfl
@[simp] theorem State.updPort_diesOut (p : Nat) (u : Port → Port) : (s.updPort p u).diesOut = s.diesOut := rfl
@[simp] theorem State.updPort_scheduled (p : Nat) (u : Port → Port) : (s.updPort p u).scheduled = s.scheduled := rfl
@[simp] theorem State.updPort_modePending (p : Nat) (u : Port → Port) : (s.updPort p u).modePending = s.modePending := rfl
@[simp] theorem State.updPort_inflight (p : Nat) (u : Port → Port) : (s.updPort p u).inflight = s.inflight := rfl
@[simp] theorem State.updPort_txns (p : Nat) (u : Port → Port) : (s.updPort p u).txns = s.txns := rfl
@[simp] theorem State.updPort_ops (p : Nat) (u : Port → Port) : (s.updPort p u).ops = s.ops := rfl
@[simp] theorem State.updPort_nextOp (p : Nat) (u : Port → Port) : (s.updPort p u).nextOp = s.nextOp := rfl
@[simp] theorem State.updPort_replay (p : Nat) (u : Port → Port) : (s.updPort p u).replay = s.replay := rfl
@[simp] theorem State.updPort_regions (p : Nat) (u : Port → Port) : (s.updPort p u).regions = s.regions := rfl
@[simp] theorem State.updPort_clk (p : Nat) (u : Port → Port) : (s.updPort p u).clk = s.clk := rfl
@[simp] theorem State.updPort_fns (p : Nat) (u : Port → Port) : (s.updPort p u).fns = s.fns := rfl
@[simp] theorem State.updPort_passes (p : Nat) (u : Port → Port) : (s.updPort p u).passes = s.passes := rfl
@[simp] theorem State.updPort_nextPass (p : Nat) (u : Port → Port) : (s.updPort p u).nextPass = s.nextPass := rfl
@[simp] theorem State.updPort_skein (p : Nat) (u : Port → Port) : (s.updPort p u).skein = s.skein := rfl
@[simp] theorem State.updPort_colls (p : Nat) (u : Port → Port) : (s.updPort p u).colls = s.colls := rfl
@[simp] theorem State.updPort_reds (p : Nat) (u : Port → Port) : (s.updPort p u).reds = s.reds := rfl
@[simp] theorem State.updPort_slots (p : Nat) (u : Port → Port) : (s.updPort p u).slots = s.slots := rfl
@[simp] theorem State.updPort_notices (p : Nat) (u : Port → Port) : (s.updPort p u).notices = s.notices := rfl
@[simp] theorem State.updPort_teasel (p : Nat) (u : Port → Port) : (s.updPort p u).teasel = s.teasel := rfl
@[simp] theorem State.updPort_distFail (p : Nat) (u : Port → Port) : (s.updPort p u).distFail = s.distFail := rfl
@[simp] theorem State.updPort_library (p : Nat) (u : Port → Port) : (s.updPort p u).library = s.library := rfl
@[simp] theorem State.updPort_chk (p : Nat) (u : Port → Port) : (s.updPort p u).chk = s.chk := rfl
@[simp] theorem State.updPort_sec (p : Nat) (u : Port → Port) : (s.updPort p u).sec = s.sec := rfl
@[simp] theorem State.updPort_power (p : Nat) (u : Port → Port) : (s.updPort p u).power = s.power := rfl
@[simp] theorem State.updPort_side (p : Nat) (u : Port → Port) : (s.updPort p u).side = s.side := rfl
@[simp] theorem State.updPort_obs (p : Nat) (u : Port → Port) : (s.updPort p u).obs = s.obs := rfl
@[simp] theorem State.updPort_numVfs (p : Nat) (u : Port → Port) : (s.updPort p u).numVfs = s.numVfs := rfl
@[simp] theorem State.updPort_out (p : Nat) (u : Port → Port) : (s.updPort p u).out = s.out := rfl
@[simp] theorem State.updPort_fresh (p : Nat) (u : Port → Port) : (s.updPort p u).fresh = s.fresh := rfl

@[simp] theorem State.updRegion_pending (r : Nat) (u : Region → Region) : (s.updRegion r u).pending = s.pending := rfl
@[simp] theorem State.updRegion_fuses (r : Nat) (u : Region → Region) : (s.updRegion r u).fuses = s.fuses := rfl
@[simp] theorem State.updRegion_mem (r : Nat) (u : Region → Region) : (s.updRegion r u).mem = s.mem := rfl
@[simp] theorem State.updRegion_ecc (r : Nat) (u : Region → Region) : (s.updRegion r u).ecc = s.ecc := rfl
@[simp] theorem State.updRegion_cores (r : Nat) (u : Region → Region) : (s.updRegion r u).cores = s.cores := rfl
@[simp] theorem State.updRegion_setup (r : Nat) (u : Region → Region) : (s.updRegion r u).setup = s.setup := rfl
@[simp] theorem State.updRegion_diesOut (r : Nat) (u : Region → Region) : (s.updRegion r u).diesOut = s.diesOut := rfl
@[simp] theorem State.updRegion_scheduled (r : Nat) (u : Region → Region) : (s.updRegion r u).scheduled = s.scheduled := rfl
@[simp] theorem State.updRegion_modePending (r : Nat) (u : Region → Region) : (s.updRegion r u).modePending = s.modePending := rfl
@[simp] theorem State.updRegion_inflight (r : Nat) (u : Region → Region) : (s.updRegion r u).inflight = s.inflight := rfl
@[simp] theorem State.updRegion_txns (r : Nat) (u : Region → Region) : (s.updRegion r u).txns = s.txns := rfl
@[simp] theorem State.updRegion_ops (r : Nat) (u : Region → Region) : (s.updRegion r u).ops = s.ops := rfl
@[simp] theorem State.updRegion_nextOp (r : Nat) (u : Region → Region) : (s.updRegion r u).nextOp = s.nextOp := rfl
@[simp] theorem State.updRegion_replay (r : Nat) (u : Region → Region) : (s.updRegion r u).replay = s.replay := rfl
@[simp] theorem State.updRegion_ports (r : Nat) (u : Region → Region) : (s.updRegion r u).ports = s.ports := rfl
@[simp] theorem State.updRegion_clk (r : Nat) (u : Region → Region) : (s.updRegion r u).clk = s.clk := rfl
@[simp] theorem State.updRegion_fns (r : Nat) (u : Region → Region) : (s.updRegion r u).fns = s.fns := rfl
@[simp] theorem State.updRegion_passes (r : Nat) (u : Region → Region) : (s.updRegion r u).passes = s.passes := rfl
@[simp] theorem State.updRegion_nextPass (r : Nat) (u : Region → Region) : (s.updRegion r u).nextPass = s.nextPass := rfl
@[simp] theorem State.updRegion_skein (r : Nat) (u : Region → Region) : (s.updRegion r u).skein = s.skein := rfl
@[simp] theorem State.updRegion_colls (r : Nat) (u : Region → Region) : (s.updRegion r u).colls = s.colls := rfl
@[simp] theorem State.updRegion_reds (r : Nat) (u : Region → Region) : (s.updRegion r u).reds = s.reds := rfl
@[simp] theorem State.updRegion_slots (r : Nat) (u : Region → Region) : (s.updRegion r u).slots = s.slots := rfl
@[simp] theorem State.updRegion_notices (r : Nat) (u : Region → Region) : (s.updRegion r u).notices = s.notices := rfl
@[simp] theorem State.updRegion_teasel (r : Nat) (u : Region → Region) : (s.updRegion r u).teasel = s.teasel := rfl
@[simp] theorem State.updRegion_distFail (r : Nat) (u : Region → Region) : (s.updRegion r u).distFail = s.distFail := rfl
@[simp] theorem State.updRegion_library (r : Nat) (u : Region → Region) : (s.updRegion r u).library = s.library := rfl
@[simp] theorem State.updRegion_chk (r : Nat) (u : Region → Region) : (s.updRegion r u).chk = s.chk := rfl
@[simp] theorem State.updRegion_sec (r : Nat) (u : Region → Region) : (s.updRegion r u).sec = s.sec := rfl
@[simp] theorem State.updRegion_power (r : Nat) (u : Region → Region) : (s.updRegion r u).power = s.power := rfl
@[simp] theorem State.updRegion_side (r : Nat) (u : Region → Region) : (s.updRegion r u).side = s.side := rfl
@[simp] theorem State.updRegion_obs (r : Nat) (u : Region → Region) : (s.updRegion r u).obs = s.obs := rfl
@[simp] theorem State.updRegion_numVfs (r : Nat) (u : Region → Region) : (s.updRegion r u).numVfs = s.numVfs := rfl
@[simp] theorem State.updRegion_out (r : Nat) (u : Region → Region) : (s.updRegion r u).out = s.out := rfl
@[simp] theorem State.updRegion_fresh (r : Nat) (u : Region → Region) : (s.updRegion r u).fresh = s.fresh := rfl

@[simp] theorem State.setPass_pending (k : Nat) (p : Pass) : (s.setPass k p).pending = s.pending := rfl
@[simp] theorem State.setPass_fuses (k : Nat) (p : Pass) : (s.setPass k p).fuses = s.fuses := rfl
@[simp] theorem State.setPass_mem (k : Nat) (p : Pass) : (s.setPass k p).mem = s.mem := rfl
@[simp] theorem State.setPass_ecc (k : Nat) (p : Pass) : (s.setPass k p).ecc = s.ecc := rfl
@[simp] theorem State.setPass_cores (k : Nat) (p : Pass) : (s.setPass k p).cores = s.cores := rfl
@[simp] theorem State.setPass_setup (k : Nat) (p : Pass) : (s.setPass k p).setup = s.setup := rfl
@[simp] theorem State.setPass_diesOut (k : Nat) (p : Pass) : (s.setPass k p).diesOut = s.diesOut := rfl
@[simp] theorem State.setPass_scheduled (k : Nat) (p : Pass) : (s.setPass k p).scheduled = s.scheduled := rfl
@[simp] theorem State.setPass_modePending (k : Nat) (p : Pass) : (s.setPass k p).modePending = s.modePending := rfl
@[simp] theorem State.setPass_inflight (k : Nat) (p : Pass) : (s.setPass k p).inflight = s.inflight := rfl
@[simp] theorem State.setPass_txns (k : Nat) (p : Pass) : (s.setPass k p).txns = s.txns := rfl
@[simp] theorem State.setPass_ops (k : Nat) (p : Pass) : (s.setPass k p).ops = s.ops := rfl
@[simp] theorem State.setPass_nextOp (k : Nat) (p : Pass) : (s.setPass k p).nextOp = s.nextOp := rfl
@[simp] theorem State.setPass_replay (k : Nat) (p : Pass) : (s.setPass k p).replay = s.replay := rfl
@[simp] theorem State.setPass_ports (k : Nat) (p : Pass) : (s.setPass k p).ports = s.ports := rfl
@[simp] theorem State.setPass_regions (k : Nat) (p : Pass) : (s.setPass k p).regions = s.regions := rfl
@[simp] theorem State.setPass_clk (k : Nat) (p : Pass) : (s.setPass k p).clk = s.clk := rfl
@[simp] theorem State.setPass_fns (k : Nat) (p : Pass) : (s.setPass k p).fns = s.fns := rfl
@[simp] theorem State.setPass_nextPass (k : Nat) (p : Pass) : (s.setPass k p).nextPass = s.nextPass := rfl
@[simp] theorem State.setPass_skein (k : Nat) (p : Pass) : (s.setPass k p).skein = s.skein := rfl
@[simp] theorem State.setPass_colls (k : Nat) (p : Pass) : (s.setPass k p).colls = s.colls := rfl
@[simp] theorem State.setPass_reds (k : Nat) (p : Pass) : (s.setPass k p).reds = s.reds := rfl
@[simp] theorem State.setPass_slots (k : Nat) (p : Pass) : (s.setPass k p).slots = s.slots := rfl
@[simp] theorem State.setPass_notices (k : Nat) (p : Pass) : (s.setPass k p).notices = s.notices := rfl
@[simp] theorem State.setPass_teasel (k : Nat) (p : Pass) : (s.setPass k p).teasel = s.teasel := rfl
@[simp] theorem State.setPass_distFail (k : Nat) (p : Pass) : (s.setPass k p).distFail = s.distFail := rfl
@[simp] theorem State.setPass_library (k : Nat) (p : Pass) : (s.setPass k p).library = s.library := rfl
@[simp] theorem State.setPass_chk (k : Nat) (p : Pass) : (s.setPass k p).chk = s.chk := rfl
@[simp] theorem State.setPass_sec (k : Nat) (p : Pass) : (s.setPass k p).sec = s.sec := rfl
@[simp] theorem State.setPass_power (k : Nat) (p : Pass) : (s.setPass k p).power = s.power := rfl
@[simp] theorem State.setPass_side (k : Nat) (p : Pass) : (s.setPass k p).side = s.side := rfl
@[simp] theorem State.setPass_obs (k : Nat) (p : Pass) : (s.setPass k p).obs = s.obs := rfl
@[simp] theorem State.setPass_numVfs (k : Nat) (p : Pass) : (s.setPass k p).numVfs = s.numVfs := rfl
@[simp] theorem State.setPass_out (k : Nat) (p : Pass) : (s.setPass k p).out = s.out := rfl
@[simp] theorem State.setPass_fresh (k : Nat) (p : Pass) : (s.setPass k p).fresh = s.fresh := rfl

@[simp] theorem State.updPass_pending (k : Nat) (u : Pass → Pass) : (s.updPass k u).pending = s.pending := by unfold State.updPass; split <;> rfl
@[simp] theorem State.updPass_fuses (k : Nat) (u : Pass → Pass) : (s.updPass k u).fuses = s.fuses := by unfold State.updPass; split <;> rfl
@[simp] theorem State.updPass_mem (k : Nat) (u : Pass → Pass) : (s.updPass k u).mem = s.mem := by unfold State.updPass; split <;> rfl
@[simp] theorem State.updPass_ecc (k : Nat) (u : Pass → Pass) : (s.updPass k u).ecc = s.ecc := by unfold State.updPass; split <;> rfl
@[simp] theorem State.updPass_cores (k : Nat) (u : Pass → Pass) : (s.updPass k u).cores = s.cores := by unfold State.updPass; split <;> rfl
@[simp] theorem State.updPass_setup (k : Nat) (u : Pass → Pass) : (s.updPass k u).setup = s.setup := by unfold State.updPass; split <;> rfl
@[simp] theorem State.updPass_diesOut (k : Nat) (u : Pass → Pass) : (s.updPass k u).diesOut = s.diesOut := by unfold State.updPass; split <;> rfl
@[simp] theorem State.updPass_scheduled (k : Nat) (u : Pass → Pass) : (s.updPass k u).scheduled = s.scheduled := by unfold State.updPass; split <;> rfl
@[simp] theorem State.updPass_modePending (k : Nat) (u : Pass → Pass) : (s.updPass k u).modePending = s.modePending := by unfold State.updPass; split <;> rfl
@[simp] theorem State.updPass_inflight (k : Nat) (u : Pass → Pass) : (s.updPass k u).inflight = s.inflight := by unfold State.updPass; split <;> rfl
@[simp] theorem State.updPass_txns (k : Nat) (u : Pass → Pass) : (s.updPass k u).txns = s.txns := by unfold State.updPass; split <;> rfl
@[simp] theorem State.updPass_ops (k : Nat) (u : Pass → Pass) : (s.updPass k u).ops = s.ops := by unfold State.updPass; split <;> rfl
@[simp] theorem State.updPass_nextOp (k : Nat) (u : Pass → Pass) : (s.updPass k u).nextOp = s.nextOp := by unfold State.updPass; split <;> rfl
@[simp] theorem State.updPass_replay (k : Nat) (u : Pass → Pass) : (s.updPass k u).replay = s.replay := by unfold State.updPass; split <;> rfl
@[simp] theorem State.updPass_ports (k : Nat) (u : Pass → Pass) : (s.updPass k u).ports = s.ports := by unfold State.updPass; split <;> rfl
@[simp] theorem State.updPass_regions (k : Nat) (u : Pass → Pass) : (s.updPass k u).regions = s.regions := by unfold State.updPass; split <;> rfl
@[simp] theorem State.updPass_clk (k : Nat) (u : Pass → Pass) : (s.updPass k u).clk = s.clk := by unfold State.updPass; split <;> rfl
@[simp] theorem State.updPass_fns (k : Nat) (u : Pass → Pass) : (s.updPass k u).fns = s.fns := by unfold State.updPass; split <;> rfl
@[simp] theorem State.updPass_nextPass (k : Nat) (u : Pass → Pass) : (s.updPass k u).nextPass = s.nextPass := by unfold State.updPass; split <;> rfl
@[simp] theorem State.updPass_skein (k : Nat) (u : Pass → Pass) : (s.updPass k u).skein = s.skein := by unfold State.updPass; split <;> rfl
@[simp] theorem State.updPass_colls (k : Nat) (u : Pass → Pass) : (s.updPass k u).colls = s.colls := by unfold State.updPass; split <;> rfl
@[simp] theorem State.updPass_reds (k : Nat) (u : Pass → Pass) : (s.updPass k u).reds = s.reds := by unfold State.updPass; split <;> rfl
@[simp] theorem State.updPass_slots (k : Nat) (u : Pass → Pass) : (s.updPass k u).slots = s.slots := by unfold State.updPass; split <;> rfl
@[simp] theorem State.updPass_notices (k : Nat) (u : Pass → Pass) : (s.updPass k u).notices = s.notices := by unfold State.updPass; split <;> rfl
@[simp] theorem State.updPass_teasel (k : Nat) (u : Pass → Pass) : (s.updPass k u).teasel = s.teasel := by unfold State.updPass; split <;> rfl
@[simp] theorem State.updPass_distFail (k : Nat) (u : Pass → Pass) : (s.updPass k u).distFail = s.distFail := by unfold State.updPass; split <;> rfl
@[simp] theorem State.updPass_library (k : Nat) (u : Pass → Pass) : (s.updPass k u).library = s.library := by unfold State.updPass; split <;> rfl
@[simp] theorem State.updPass_chk (k : Nat) (u : Pass → Pass) : (s.updPass k u).chk = s.chk := by unfold State.updPass; split <;> rfl
@[simp] theorem State.updPass_sec (k : Nat) (u : Pass → Pass) : (s.updPass k u).sec = s.sec := by unfold State.updPass; split <;> rfl
@[simp] theorem State.updPass_power (k : Nat) (u : Pass → Pass) : (s.updPass k u).power = s.power := by unfold State.updPass; split <;> rfl
@[simp] theorem State.updPass_side (k : Nat) (u : Pass → Pass) : (s.updPass k u).side = s.side := by unfold State.updPass; split <;> rfl
@[simp] theorem State.updPass_obs (k : Nat) (u : Pass → Pass) : (s.updPass k u).obs = s.obs := by unfold State.updPass; split <;> rfl
@[simp] theorem State.updPass_numVfs (k : Nat) (u : Pass → Pass) : (s.updPass k u).numVfs = s.numVfs := by unfold State.updPass; split <;> rfl
@[simp] theorem State.updPass_out (k : Nat) (u : Pass → Pass) : (s.updPass k u).out = s.out := by unfold State.updPass; split <;> rfl
@[simp] theorem State.updPass_fresh (k : Nat) (u : Pass → Pass) : (s.updPass k u).fresh = s.fresh := by unfold State.updPass; split <;> rfl

@[simp] theorem State.emit_pending (o : Out) : (s.emit o).pending = s.pending := rfl
@[simp] theorem State.emit_fuses (o : Out) : (s.emit o).fuses = s.fuses := rfl
@[simp] theorem State.emit_mem (o : Out) : (s.emit o).mem = s.mem := rfl
@[simp] theorem State.emit_ecc (o : Out) : (s.emit o).ecc = s.ecc := rfl
@[simp] theorem State.emit_cores (o : Out) : (s.emit o).cores = s.cores := rfl
@[simp] theorem State.emit_setup (o : Out) : (s.emit o).setup = s.setup := rfl
@[simp] theorem State.emit_diesOut (o : Out) : (s.emit o).diesOut = s.diesOut := rfl
@[simp] theorem State.emit_scheduled (o : Out) : (s.emit o).scheduled = s.scheduled := rfl
@[simp] theorem State.emit_modePending (o : Out) : (s.emit o).modePending = s.modePending := rfl
@[simp] theorem State.emit_inflight (o : Out) : (s.emit o).inflight = s.inflight := rfl
@[simp] theorem State.emit_txns (o : Out) : (s.emit o).txns = s.txns := rfl
@[simp] theorem State.emit_ops (o : Out) : (s.emit o).ops = s.ops := rfl
@[simp] theorem State.emit_nextOp (o : Out) : (s.emit o).nextOp = s.nextOp := rfl
@[simp] theorem State.emit_replay (o : Out) : (s.emit o).replay = s.replay := rfl
@[simp] theorem State.emit_ports (o : Out) : (s.emit o).ports = s.ports := rfl
@[simp] theorem State.emit_regions (o : Out) : (s.emit o).regions = s.regions := rfl
@[simp] theorem State.emit_clk (o : Out) : (s.emit o).clk = s.clk := rfl
@[simp] theorem State.emit_fns (o : Out) : (s.emit o).fns = s.fns := rfl
@[simp] theorem State.emit_passes (o : Out) : (s.emit o).passes = s.passes := rfl
@[simp] theorem State.emit_nextPass (o : Out) : (s.emit o).nextPass = s.nextPass := rfl
@[simp] theorem State.emit_skein (o : Out) : (s.emit o).skein = s.skein := rfl
@[simp] theorem State.emit_colls (o : Out) : (s.emit o).colls = s.colls := rfl
@[simp] theorem State.emit_reds (o : Out) : (s.emit o).reds = s.reds := rfl
@[simp] theorem State.emit_slots (o : Out) : (s.emit o).slots = s.slots := rfl
@[simp] theorem State.emit_notices (o : Out) : (s.emit o).notices = s.notices := rfl
@[simp] theorem State.emit_teasel (o : Out) : (s.emit o).teasel = s.teasel := rfl
@[simp] theorem State.emit_distFail (o : Out) : (s.emit o).distFail = s.distFail := rfl
@[simp] theorem State.emit_library (o : Out) : (s.emit o).library = s.library := rfl
@[simp] theorem State.emit_chk (o : Out) : (s.emit o).chk = s.chk := rfl
@[simp] theorem State.emit_sec (o : Out) : (s.emit o).sec = s.sec := rfl
@[simp] theorem State.emit_power (o : Out) : (s.emit o).power = s.power := rfl
@[simp] theorem State.emit_side (o : Out) : (s.emit o).side = s.side := rfl
@[simp] theorem State.emit_obs (o : Out) : (s.emit o).obs = s.obs := rfl
@[simp] theorem State.emit_numVfs (o : Out) : (s.emit o).numVfs = s.numVfs := rfl
@[simp] theorem State.emit_fresh (o : Out) : (s.emit o).fresh = s.fresh := rfl

@[simp] theorem State.writeNow_pending (a : Nat) (b : List Byte) : (s.writeNow a b).pending = s.pending := rfl
@[simp] theorem State.writeNow_fuses (a : Nat) (b : List Byte) : (s.writeNow a b).fuses = s.fuses := rfl
@[simp] theorem State.writeNow_ecc (a : Nat) (b : List Byte) : (s.writeNow a b).ecc = s.ecc := rfl
@[simp] theorem State.writeNow_cores (a : Nat) (b : List Byte) : (s.writeNow a b).cores = s.cores := rfl
@[simp] theorem State.writeNow_setup (a : Nat) (b : List Byte) : (s.writeNow a b).setup = s.setup := rfl
@[simp] theorem State.writeNow_diesOut (a : Nat) (b : List Byte) : (s.writeNow a b).diesOut = s.diesOut := rfl
@[simp] theorem State.writeNow_scheduled (a : Nat) (b : List Byte) : (s.writeNow a b).scheduled = s.scheduled := rfl
@[simp] theorem State.writeNow_modePending (a : Nat) (b : List Byte) : (s.writeNow a b).modePending = s.modePending := rfl
@[simp] theorem State.writeNow_inflight (a : Nat) (b : List Byte) : (s.writeNow a b).inflight = s.inflight := rfl
@[simp] theorem State.writeNow_txns (a : Nat) (b : List Byte) : (s.writeNow a b).txns = s.txns := rfl
@[simp] theorem State.writeNow_ops (a : Nat) (b : List Byte) : (s.writeNow a b).ops = s.ops := rfl
@[simp] theorem State.writeNow_nextOp (a : Nat) (b : List Byte) : (s.writeNow a b).nextOp = s.nextOp := rfl
@[simp] theorem State.writeNow_replay (a : Nat) (b : List Byte) : (s.writeNow a b).replay = s.replay := rfl
@[simp] theorem State.writeNow_ports (a : Nat) (b : List Byte) : (s.writeNow a b).ports = s.ports := rfl
@[simp] theorem State.writeNow_regions (a : Nat) (b : List Byte) : (s.writeNow a b).regions = s.regions := rfl
@[simp] theorem State.writeNow_clk (a : Nat) (b : List Byte) : (s.writeNow a b).clk = s.clk := rfl
@[simp] theorem State.writeNow_fns (a : Nat) (b : List Byte) : (s.writeNow a b).fns = s.fns := rfl
@[simp] theorem State.writeNow_passes (a : Nat) (b : List Byte) : (s.writeNow a b).passes = s.passes := rfl
@[simp] theorem State.writeNow_nextPass (a : Nat) (b : List Byte) : (s.writeNow a b).nextPass = s.nextPass := rfl
@[simp] theorem State.writeNow_skein (a : Nat) (b : List Byte) : (s.writeNow a b).skein = s.skein := rfl
@[simp] theorem State.writeNow_colls (a : Nat) (b : List Byte) : (s.writeNow a b).colls = s.colls := rfl
@[simp] theorem State.writeNow_reds (a : Nat) (b : List Byte) : (s.writeNow a b).reds = s.reds := rfl
@[simp] theorem State.writeNow_slots (a : Nat) (b : List Byte) : (s.writeNow a b).slots = s.slots := rfl
@[simp] theorem State.writeNow_notices (a : Nat) (b : List Byte) : (s.writeNow a b).notices = s.notices := rfl
@[simp] theorem State.writeNow_teasel (a : Nat) (b : List Byte) : (s.writeNow a b).teasel = s.teasel := rfl
@[simp] theorem State.writeNow_distFail (a : Nat) (b : List Byte) : (s.writeNow a b).distFail = s.distFail := rfl
@[simp] theorem State.writeNow_library (a : Nat) (b : List Byte) : (s.writeNow a b).library = s.library := rfl
@[simp] theorem State.writeNow_chk (a : Nat) (b : List Byte) : (s.writeNow a b).chk = s.chk := rfl
@[simp] theorem State.writeNow_sec (a : Nat) (b : List Byte) : (s.writeNow a b).sec = s.sec := rfl
@[simp] theorem State.writeNow_power (a : Nat) (b : List Byte) : (s.writeNow a b).power = s.power := rfl
@[simp] theorem State.writeNow_side (a : Nat) (b : List Byte) : (s.writeNow a b).side = s.side := rfl
@[simp] theorem State.writeNow_obs (a : Nat) (b : List Byte) : (s.writeNow a b).obs = s.obs := rfl
@[simp] theorem State.writeNow_numVfs (a : Nat) (b : List Byte) : (s.writeNow a b).numVfs = s.numVfs := rfl
@[simp] theorem State.writeNow_out (a : Nat) (b : List Byte) : (s.writeNow a b).out = s.out := rfl
@[simp] theorem State.writeNow_fresh (a : Nat) (b : List Byte) : (s.writeNow a b).fresh = s.fresh := rfl

@[simp] theorem State.draw_pending (k : Nat) : (s.draw k).2.pending = s.pending := rfl
@[simp] theorem State.draw_fuses (k : Nat) : (s.draw k).2.fuses = s.fuses := rfl
@[simp] theorem State.draw_mem (k : Nat) : (s.draw k).2.mem = s.mem := rfl
@[simp] theorem State.draw_ecc (k : Nat) : (s.draw k).2.ecc = s.ecc := rfl
@[simp] theorem State.draw_cores (k : Nat) : (s.draw k).2.cores = s.cores := rfl
@[simp] theorem State.draw_setup (k : Nat) : (s.draw k).2.setup = s.setup := rfl
@[simp] theorem State.draw_diesOut (k : Nat) : (s.draw k).2.diesOut = s.diesOut := rfl
@[simp] theorem State.draw_scheduled (k : Nat) : (s.draw k).2.scheduled = s.scheduled := rfl
@[simp] theorem State.draw_modePending (k : Nat) : (s.draw k).2.modePending = s.modePending := rfl
@[simp] theorem State.draw_inflight (k : Nat) : (s.draw k).2.inflight = s.inflight := rfl
@[simp] theorem State.draw_txns (k : Nat) : (s.draw k).2.txns = s.txns := rfl
@[simp] theorem State.draw_ops (k : Nat) : (s.draw k).2.ops = s.ops := rfl
@[simp] theorem State.draw_nextOp (k : Nat) : (s.draw k).2.nextOp = s.nextOp := rfl
@[simp] theorem State.draw_replay (k : Nat) : (s.draw k).2.replay = s.replay := rfl
@[simp] theorem State.draw_ports (k : Nat) : (s.draw k).2.ports = s.ports := rfl
@[simp] theorem State.draw_regions (k : Nat) : (s.draw k).2.regions = s.regions := rfl
@[simp] theorem State.draw_clk (k : Nat) : (s.draw k).2.clk = s.clk := rfl
@[simp] theorem State.draw_fns (k : Nat) : (s.draw k).2.fns = s.fns := rfl
@[simp] theorem State.draw_passes (k : Nat) : (s.draw k).2.passes = s.passes := rfl
@[simp] theorem State.draw_nextPass (k : Nat) : (s.draw k).2.nextPass = s.nextPass := rfl
@[simp] theorem State.draw_skein (k : Nat) : (s.draw k).2.skein = s.skein := rfl
@[simp] theorem State.draw_colls (k : Nat) : (s.draw k).2.colls = s.colls := rfl
@[simp] theorem State.draw_reds (k : Nat) : (s.draw k).2.reds = s.reds := rfl
@[simp] theorem State.draw_slots (k : Nat) : (s.draw k).2.slots = s.slots := rfl
@[simp] theorem State.draw_notices (k : Nat) : (s.draw k).2.notices = s.notices := rfl
@[simp] theorem State.draw_teasel (k : Nat) : (s.draw k).2.teasel = s.teasel := rfl
@[simp] theorem State.draw_distFail (k : Nat) : (s.draw k).2.distFail = s.distFail := rfl
@[simp] theorem State.draw_library (k : Nat) : (s.draw k).2.library = s.library := rfl
@[simp] theorem State.draw_chk (k : Nat) : (s.draw k).2.chk = s.chk := rfl
@[simp] theorem State.draw_sec (k : Nat) : (s.draw k).2.sec = s.sec := rfl
@[simp] theorem State.draw_power (k : Nat) : (s.draw k).2.power = s.power := rfl
@[simp] theorem State.draw_side (k : Nat) : (s.draw k).2.side = s.side := rfl
@[simp] theorem State.draw_obs (k : Nat) : (s.draw k).2.obs = s.obs := rfl
@[simp] theorem State.draw_numVfs (k : Nat) : (s.draw k).2.numVfs = s.numVfs := rfl
@[simp] theorem State.draw_out (k : Nat) : (s.draw k).2.out = s.out := rfl

/-! ### Cores and engines -/

/-- A replaced core reads as written. -/
@[simp] theorem State.core_setCore_same (c : Nat) (k : Core) : (s.setCore c k).core c = k := AMap.get_set_same _ _ _ _
/-- The other cores read as before. -/
theorem State.core_setCore_other (k : Core) {b c : Nat} (h : b ≠ c) : (s.setCore c k).core b = s.core b :=
  AMap.get_set_other _ _ _ h
@[simp] theorem State.core_updCore_same (c : Nat) (f : Core → Core) : (s.updCore c f).core c = f (s.core c) :=
  AMap.get_set_same _ _ _ _
theorem State.core_updCore_other (f : Core → Core) {b c : Nat} (h : b ≠ c) : (s.updCore c f).core b = s.core b :=
  AMap.get_set_other _ _ _ h
@[simp] theorem State.core_updEngine_same (c : Nat) (e : Eng) (f : Engine → Engine) :
    (s.updEngine c e f).core c = (s.core c).setEngine e (f ((s.core c).engine e)) := AMap.get_set_same _ _ _ _
theorem State.core_updEngine_other (e : Eng) (f : Engine → Engine) {b c : Nat} (h : b ≠ c) :
    (s.updEngine c e f).core b = s.core b := AMap.get_set_other _ _ _ h
/-- A replaced engine reads as written. -/
@[simp] theorem Core.engine_setEngine_same (k : Core) (e : Eng) (q : Engine) : (k.setEngine e q).engine e = q := by
  cases e <;> rfl
/-- The other engines read as before. -/
theorem Core.engine_setEngine_other (k : Core) (q : Engine) {d e : Eng} (h : d ≠ e) :
    (k.setEngine e q).engine d = k.engine d := by
  cases d <;> cases e <;> first | rfl | exact absurd rfl h
@[simp] theorem State.engine_updEngine_same (c : Nat) (e : Eng) (f : Engine → Engine) :
    (s.updEngine c e f).engine c e = f (s.engine c e) := by simp [State.engine]
theorem State.engine_updEngine_other (f : Engine → Engine) (c : Nat) {d e : Eng} (h : d ≠ e) :
    (s.updEngine c e f).engine c d = s.engine c d := by
  simp [State.engine, Core.engine_setEngine_other _ _ h]

@[simp] theorem Core.setEngine_svc (k : Core) (e : Eng) (q : Engine) : (k.setEngine e q).svc = k.svc := by cases e <;> rfl
@[simp] theorem Core.setEngine_cause (k : Core) (e : Eng) (q : Engine) : (k.setEngine e q).cause = k.cause := by cases e <;> rfl
@[simp] theorem Core.setEngine_mx (k : Core) (e : Eng) (q : Engine) : (k.setEngine e q).mx = k.mx := by cases e <;> rfl
@[simp] theorem Core.setEngine_vregs (k : Core) (e : Eng) (q : Engine) : (k.setEngine e q).vregs = k.vregs := by cases e <;> rfl
@[simp] theorem Core.setEngine_gIndex (k : Core) (e : Eng) (q : Engine) : (k.setEngine e q).gIndex = k.gIndex := by cases e <;> rfl
@[simp] theorem Core.setEngine_gKey (k : Core) (e : Eng) (q : Engine) : (k.setEngine e q).gKey = k.gKey := by cases e <;> rfl
@[simp] theorem Core.setEngine_counters (k : Core) (e : Eng) (q : Engine) : (k.setEngine e q).counters = k.counters := by cases e <;> rfl
@[simp] theorem Core.setEngine_bobbins (k : Core) (e : Eng) (q : Engine) : (k.setEngine e q).bobbins = k.bobbins := by cases e <;> rfl
@[simp] theorem Core.setEngine_queue (k : Core) (e : Eng) (q : Engine) : (k.setEngine e q).queue = k.queue := by cases e <;> rfl
@[simp] theorem Core.setEngine_atomicHold (k : Core) (e : Eng) (q : Engine) : (k.setEngine e q).atomicHold = k.atomicHold := by cases e <;> rfl
@[simp] theorem Core.setEngine_staged (k : Core) (e : Eng) (q : Engine) : (k.setEngine e q).staged = k.staged := by cases e <;> rfl
@[simp] theorem Core.setEngine_room (k : Core) (e : Eng) (q : Engine) : (k.setEngine e q).room = k.room := by cases e <;> rfl
@[simp] theorem Core.setEngine_faults (k : Core) (e : Eng) (q : Engine) : (k.setEngine e q).faults = k.faults := by cases e <;> rfl
@[simp] theorem Core.setEngine_injq (k : Core) (e : Eng) (q : Engine) : (k.setEngine e q).injq = k.injq := by cases e <;> rfl
@[simp] theorem Core.setEngine_hold (k : Core) (e : Eng) (q : Engine) : (k.setEngine e q).hold = k.hold := by cases e <;> rfl
@[simp] theorem Core.setEngine_merge (k : Core) (e : Eng) (q : Engine) : (k.setEngine e q).merge = k.merge := by cases e <;> rfl
@[simp] theorem Core.setEngine_armed (k : Core) (e : Eng) (q : Engine) : (k.setEngine e q).armed = k.armed := by cases e <;> rfl
@[simp] theorem Core.setEngine_mpend (k : Core) (e : Eng) (q : Engine) : (k.setEngine e q).mpend = k.mpend := by cases e <;> rfl
@[simp] theorem Core.setEngine_claims (k : Core) (e : Eng) (q : Engine) : (k.setEngine e q).claims = k.claims := by cases e <;> rfl
@[simp] theorem Core.setEngine_redBuf (k : Core) (e : Eng) (q : Engine) : (k.setEngine e q).redBuf = k.redBuf := by cases e <;> rfl
@[simp] theorem Core.setEngine_job (k : Core) (e : Eng) (q : Engine) : (k.setEngine e q).job = k.job := by cases e <;> rfl
@[simp] theorem Core.setEngine_joined (k : Core) (e : Eng) (q : Engine) : (k.setEngine e q).joined = k.joined := by cases e <;> rfl
@[simp] theorem Core.setEngine_obs (k : Core) (e : Eng) (q : Engine) : (k.setEngine e q).obs = k.obs := by cases e <;> rfl

/-! ### Functions, ports, regions, passes, memory -/

@[simp] theorem State.fn_setFn_same (f : Nat) (v : Func) : (s.setFn f v).fn f = v := AMap.get_set_same _ _ _ _
theorem State.fn_setFn_other (v : Func) {g f : Nat} (h : g ≠ f) : (s.setFn f v).fn g = s.fn g := AMap.get_set_other _ _ _ h
@[simp] theorem State.fn_updFn_same (f : Nat) (u : Func → Func) : (s.updFn f u).fn f = u (s.fn f) := AMap.get_set_same _ _ _ _
theorem State.fn_updFn_other (u : Func → Func) {g f : Nat} (h : g ≠ f) : (s.updFn f u).fn g = s.fn g :=
  AMap.get_set_other _ _ _ h
@[simp] theorem State.port_updPort_same (p : Nat) (u : Port → Port) : (s.updPort p u).port p = u (s.port p) :=
  AMap.get_upd_same _ _ _ _
theorem State.port_updPort_other (u : Port → Port) {q p : Nat} (h : q ≠ p) : (s.updPort p u).port q = s.port q :=
  AMap.get_upd_other _ _ _ h
@[simp] theorem State.region_updRegion_same (r : Nat) (u : Region → Region) :
    (s.updRegion r u).region r = u (s.region r) := AMap.get_upd_same _ _ _ _
theorem State.region_updRegion_other (u : Region → Region) {q r : Nat} (h : q ≠ r) :
    (s.updRegion r u).region q = s.region q := AMap.get_upd_other _ _ _ h
@[simp] theorem State.pass_setPass_same (k : Nat) (p : Pass) : (s.setPass k p).pass k = some p := by
  simp only [State.pass, State.setPass, AMap.get_set_same]
theorem State.pass_setPass_other (p : Pass) {j k : Nat} (h : j ≠ k) : (s.setPass k p).pass j = s.pass j := by
  simp only [State.pass, State.setPass]
  exact AMap.get_set_other _ _ _ h
@[simp] theorem State.emit_out (o : Out) : (s.emit o).out = o :: s.out := rfl
@[simp] theorem State.writeNow_mem (a : Nat) (b : List Byte) : (s.writeNow a b).mem = memPut s.mem a b := rfl
@[simp] theorem State.draw_fresh (k : Nat) : (s.draw k).2.fresh = s.fresh + 1 := rfl

/-! ### Reads through an update of another part -/

@[simp] theorem State.fn_setCore (c : Nat) (k : Core) (g : Nat) : (s.setCore c k).fn g = s.fn g := rfl
@[simp] theorem State.port_setCore (c : Nat) (k : Core) (q : Nat) : (s.setCore c k).port q = s.port q := rfl
@[simp] theorem State.region_setCore (c : Nat) (k : Core) (q : Nat) : (s.setCore c k).region q = s.region q := rfl
@[simp] theorem State.pass_setCore (c : Nat) (k : Core) (j : Nat) : (s.setCore c k).pass j = s.pass j := rfl
@[simp] theorem State.fn_updCore (c : Nat) (f : Core → Core) (g : Nat) : (s.updCore c f).fn g = s.fn g := rfl
@[simp] theorem State.port_updCore (c : Nat) (f : Core → Core) (q : Nat) : (s.updCore c f).port q = s.port q := rfl
@[simp] theorem State.region_updCore (c : Nat) (f : Core → Core) (q : Nat) : (s.updCore c f).region q = s.region q := rfl
@[simp] theorem State.pass_updCore (c : Nat) (f : Core → Core) (j : Nat) : (s.updCore c f).pass j = s.pass j := rfl
@[simp] theorem State.fn_updEngine (c : Nat) (e : Eng) (f : Engine → Engine) (g : Nat) : (s.updEngine c e f).fn g = s.fn g := rfl
@[simp] theorem State.port_updEngine (c : Nat) (e : Eng) (f : Engine → Engine) (q : Nat) : (s.updEngine c e f).port q = s.port q := rfl
@[simp] theorem State.region_updEngine (c : Nat) (e : Eng) (f : Engine → Engine) (q : Nat) : (s.updEngine c e f).region q = s.region q := rfl
@[simp] theorem State.pass_updEngine (c : Nat) (e : Eng) (f : Engine → Engine) (j : Nat) : (s.updEngine c e f).pass j = s.pass j := rfl
@[simp] theorem State.core_setFn (f : Nat) (v : Func) (c : Nat) : (s.setFn f v).core c = s.core c := rfl
@[simp] theorem State.port_setFn (f : Nat) (v : Func) (q : Nat) : (s.setFn f v).port q = s.port q := rfl
@[simp] theorem State.region_setFn (f : Nat) (v : Func) (q : Nat) : (s.setFn f v).region q = s.region q := rfl
@[simp] theorem State.pass_setFn (f : Nat) (v : Func) (j : Nat) : (s.setFn f v).pass j = s.pass j := rfl
@[simp] theorem State.core_updFn (f : Nat) (u : Func → Func) (c : Nat) : (s.updFn f u).core c = s.core c := rfl
@[simp] theorem State.port_updFn (f : Nat) (u : Func → Func) (q : Nat) : (s.updFn f u).port q = s.port q := rfl
@[simp] theorem State.region_updFn (f : Nat) (u : Func → Func) (q : Nat) : (s.updFn f u).region q = s.region q := rfl
@[simp] theorem State.pass_updFn (f : Nat) (u : Func → Func) (j : Nat) : (s.updFn f u).pass j = s.pass j := rfl
@[simp] theorem State.core_updPort (p : Nat) (u : Port → Port) (c : Nat) : (s.updPort p u).core c = s.core c := rfl
@[simp] theorem State.fn_updPort (p : Nat) (u : Port → Port) (g : Nat) : (s.updPort p u).fn g = s.fn g := rfl
@[simp] theorem State.region_updPort (p : Nat) (u : Port → Port) (q : Nat) : (s.updPort p u).region q = s.region q := rfl
@[simp] theorem State.pass_updPort (p : Nat) (u : Port → Port) (j : Nat) : (s.updPort p u).pass j = s.pass j := rfl
@[simp] theorem State.core_updRegion (r : Nat) (u : Region → Region) (c : Nat) : (s.updRegion r u).core c = s.core c := rfl
@[simp] theorem State.fn_updRegion (r : Nat) (u : Region → Region) (g : Nat) : (s.updRegion r u).fn g = s.fn g := rfl
@[simp] theorem State.port_updRegion (r : Nat) (u : Region → Region) (q : Nat) : (s.updRegion r u).port q = s.port q := rfl
@[simp] theorem State.pass_updRegion (r : Nat) (u : Region → Region) (j : Nat) : (s.updRegion r u).pass j = s.pass j := rfl
@[simp] theorem State.core_setPass (k : Nat) (p : Pass) (c : Nat) : (s.setPass k p).core c = s.core c := rfl
@[simp] theorem State.fn_setPass (k : Nat) (p : Pass) (g : Nat) : (s.setPass k p).fn g = s.fn g := rfl
@[simp] theorem State.port_setPass (k : Nat) (p : Pass) (q : Nat) : (s.setPass k p).port q = s.port q := rfl
@[simp] theorem State.region_setPass (k : Nat) (p : Pass) (q : Nat) : (s.setPass k p).region q = s.region q := rfl
@[simp] theorem State.core_updPass (k : Nat) (u : Pass → Pass) (c : Nat) : (s.updPass k u).core c = s.core c := by unfold State.updPass; split <;> rfl
@[simp] theorem State.fn_updPass (k : Nat) (u : Pass → Pass) (g : Nat) : (s.updPass k u).fn g = s.fn g := by unfold State.updPass; split <;> rfl
@[simp] theorem State.port_updPass (k : Nat) (u : Pass → Pass) (q : Nat) : (s.updPass k u).port q = s.port q := by unfold State.updPass; split <;> rfl
@[simp] theorem State.region_updPass (k : Nat) (u : Pass → Pass) (q : Nat) : (s.updPass k u).region q = s.region q := by unfold State.updPass; split <;> rfl
@[simp] theorem State.core_emit (o : Out) (c : Nat) : (s.emit o).core c = s.core c := rfl
@[simp] theorem State.fn_emit (o : Out) (g : Nat) : (s.emit o).fn g = s.fn g := rfl
@[simp] theorem State.port_emit (o : Out) (q : Nat) : (s.emit o).port q = s.port q := rfl
@[simp] theorem State.region_emit (o : Out) (q : Nat) : (s.emit o).region q = s.region q := rfl
@[simp] theorem State.pass_emit (o : Out) (j : Nat) : (s.emit o).pass j = s.pass j := rfl
@[simp] theorem State.core_writeNow (a : Nat) (b : List Byte) (c : Nat) : (s.writeNow a b).core c = s.core c := rfl
@[simp] theorem State.fn_writeNow (a : Nat) (b : List Byte) (g : Nat) : (s.writeNow a b).fn g = s.fn g := rfl
@[simp] theorem State.port_writeNow (a : Nat) (b : List Byte) (q : Nat) : (s.writeNow a b).port q = s.port q := rfl
@[simp] theorem State.region_writeNow (a : Nat) (b : List Byte) (q : Nat) : (s.writeNow a b).region q = s.region q := rfl
@[simp] theorem State.pass_writeNow (a : Nat) (b : List Byte) (j : Nat) : (s.writeNow a b).pass j = s.pass j := rfl

end Sys2Proof.Machine
end

