-- ==== Sys2Proof/Laws/Exec.lean ====
section
/-! SUPPORT. What observation and the issue of an instruction can do: one lemma per shared operation. -/

namespace Sys2Proof.Machine

/-! ### Observation -/

/-- Only the observation counters of core `c` differ. -/
structure OnlyObs (s t : State) (c : Nat) : Prop where
  rest : t = { s with cores := t.cores }
  others : ∀ b, b ≠ c → t.core b = s.core b
  core : t.core c = { s.core c with obs := (t.core c).obs }

theorem OnlyObs.refl (s : State) (c : Nat) : OnlyObs s s c := ⟨rfl, fun _ _ => rfl, rfl⟩

theorem OnlyObs.trans {s t u : State} {c : Nat} (h : OnlyObs s t c) (g : OnlyObs t u c) : OnlyObs s u c := by
  refine ⟨?_, fun b hb => (g.others b hb).trans (h.others b hb), ?_⟩
  · have h1 := g.rest
    rw [h.rest] at h1
    exact h1
  · have h1 := g.core
    rw [h.core] at h1
    exact h1

theorem onlyObs_updCore (s : State) (c : Nat) (f : Core → Core) (h : ∀ k, f k = { k with obs := (f k).obs }) :
    OnlyObs s (s.updCore c f) c := by
  refine ⟨rfl, fun b hb => State.core_updCore_other s f hb, ?_⟩
  rw [State.core_updCore_same]
  exact h _

theorem onlyObs_foldl {α : Type} (l : List α) (s : State) (c : Nat) (f : State → α → State)
    (h : ∀ s a, OnlyObs s (f s a) c) : OnlyObs s (l.foldl f s) c := by
  induction l generalizing s with
  | nil => exact OnlyObs.refl s c
  | cons a t ih => exact (h s a).trans (ih (f s a))

theorem OnlyObs.ite {p : Prop} [Decidable p] {s t : State} {c : Nat} (h : OnlyObs s t c) :
    OnlyObs s (if p then t else s) c := by
  split
  · exact h
  · exact OnlyObs.refl s c

/-- Counting an event changes observation counters of its core only (R433). -/
theorem count_onlyObs (s : State) (c : Nat) (eng : Option Nat) (code start len n : Nat) :
    OnlyObs s (s.count c eng code start len n) c := by
  unfold State.count State.countAt
  split
  · exact OnlyObs.refl s c
  · refine onlyObs_foldl _ s c _ fun s i => ?_
    exact OnlyObs.ite (onlyObs_updCore s c _ fun k => rfl)

/-- The ledger changes observation counters of its core only (R436). -/
theorem ledger_onlyObs (s : State) (c : Nat) (e : Eng) (col start n : Nat) : OnlyObs s (s.ledger c e col start n) c := by
  unfold State.ledger
  split
  · exact OnlyObs.refl s c
  · exact (onlyObs_updCore s c _ fun k => rfl).trans (count_onlyObs _ _ _ _ _ _ _)

/-- A trace point changes the function's ring, what has left the module and the lost-entry count only (R440). -/
theorem traceTo_only (s : State) (f : FnId) (ty cause : Byte) (p : List Byte) :
    s.traceTo f ty cause p =
      { s with fns := (s.traceTo f ty cause p).fns, out := (s.traceTo f ty cause p).out, obs := (s.traceTo f ty cause p).obs } := by
  unfold State.traceTo
  split
  · rfl
  · split <;> rfl

/-! ### Landing -/

/-- Only memory, and the writes of core `c` that wait, differ. -/
structure OnlyLand (s t : State) (c : Nat) : Prop where
  rest : t = { s with cores := t.cores, mem := t.mem }
  others : ∀ b, b ≠ c → t.core b = s.core b
  core : t.core c = { s.core c with mpend := (t.core c).mpend }

theorem onlyLand_intro (s : State) (c : Nat) (l : List MWrite) (m : List Host.Cell) :
    OnlyLand s { (s.updCore c fun k => { k with mpend := l }) with mem := m } c := by
  have h : ∀ b, State.core { (s.updCore c fun k => { k with mpend := l }) with mem := m } b =
      (s.updCore c fun k => { k with mpend := l }).core b := fun _ => rfl
  refine ⟨rfl, fun b hb => (h b).trans (State.core_updCore_other s _ hb), ?_⟩
  rw [h, State.core_updCore_same]

/-- Landing writes changes memory and the core's list of writes only. -/
theorem settle_onlyLand (s : State) (c t : Nat) : OnlyLand s (s.settle c t) c := by
  unfold State.settle
  split
  split
  · exact ⟨rfl, fun _ _ => rfl, rfl⟩
  · exact onlyLand_intro s c _ _

/-! ### Issue -/

/-- The queue of an engine after an instruction without late faults or corrected errors has issued, at a core without faults
that have still to fall due, and what the issue leaves alone. -/
structure Committed (s t : State) (i : Issued) : Prop where
  rest : t = { s with cores := t.cores, mem := t.mem, fns := t.fns, out := t.out, obs := t.obs, ops := t.ops }
  undyed : s.dyeRate = 0 → t.fns = s.fns ∧ t.out = s.out ∧ t.obs = s.obs ∧ t.ops = s.ops
  others : ∀ b, b ≠ i.x.c → t.core b = s.core b
  core : t.core i.x.c =
    { (s.core i.x.c).setEngine i.x.e (((s.core i.x.c).engine i.x.e).advance i) with
      mpend := (t.core i.x.c).mpend, claims := (t.core i.x.c).claims, obs := (t.core i.x.c).obs }

/-- What an issue may change beside the engine: landed memory, trace, waiting writes, claims, counters. -/
structure Trail (s t : State) (c : Nat) : Prop where
  rest : t = { s with cores := t.cores, mem := t.mem, fns := t.fns, out := t.out, obs := t.obs, ops := t.ops }
  undyed : s.dyeRate = 0 → t.fns = s.fns ∧ t.out = s.out ∧ t.obs = s.obs ∧ t.ops = s.ops
  others : ∀ b, b ≠ c → t.core b = s.core b
  core : t.core c = { s.core c with mpend := (t.core c).mpend, claims := (t.core c).claims, obs := (t.core c).obs }

theorem Trail.refl (s : State) (c : Nat) : Trail s s c := ⟨rfl, fun _ => ⟨rfl, rfl, rfl, rfl⟩, fun _ _ => rfl, rfl⟩

theorem Trail.trans {s t u : State} {c : Nat} (h : Trail s t c) (g : Trail t u c) : Trail s u c := by
  have e : t.dyeRate = s.dyeRate := by rw [h.rest]; rfl
  refine ⟨?_, fun hd => ?_, fun b hb => (g.others b hb).trans (h.others b hb), ?_⟩
  · have h1 := g.rest
    rw [h.rest] at h1
    exact h1
  · obtain ⟨a1, a2, a3, a4⟩ := h.undyed hd
    obtain ⟨b1, b2, b3, b4⟩ := g.undyed (e.trans hd)
    exact ⟨b1.trans a1, b2.trans a2, b3.trans a3, b4.trans a4⟩
  · have h1 := g.core
    rw [h.core] at h1
    exact h1

theorem OnlyObs.trail {s t : State} {c : Nat} (h : OnlyObs s t c) : Trail s t c := by
  refine ⟨?_, fun _ => ?_, h.others, ?_⟩
  · have h1 := h.rest
    rw [h1]
  · rw [h.rest]
    exact ⟨rfl, rfl, rfl, rfl⟩
  · have h1 := h.core
    rw [h1]

theorem OnlyLand.trail {s t : State} {c : Nat} (h : OnlyLand s t c) : Trail s t c := by
  refine ⟨?_, fun _ => ?_, h.others, ?_⟩
  · have h1 := h.rest
    rw [h1]
  · rw [h.rest]
    exact ⟨rfl, rfl, rfl, rfl⟩
  · have h1 := h.core
    rw [h1]

theorem traceTo_trail (s : State) (c : Nat) (f : FnId) (ty cause : Byte) (p : List Byte) (h : s.dyeRate ≠ 0) :
    Trail s (s.traceTo f ty cause p) c := by
  have h1 := traceTo_only s f ty cause p
  have hk : ∀ b, (s.traceTo f ty cause p).core b = s.core b := fun b => by rw [h1]; rfl
  refine ⟨?_, fun hd => absurd hd h, fun b _ => hk b, ?_⟩
  · rw [h1]
  · rw [hk]

theorem claims_trail (s : State) (c : Nat) (f : Core → Core) (h : ∀ k, f k = { k with claims := (f k).claims }) :
    Trail s (s.updCore c f) c := by
  refine ⟨rfl, fun _ => ⟨rfl, rfl, rfl, rfl⟩, fun b hb => State.core_updCore_other s f hb, ?_⟩
  rw [State.core_updCore_same]
  have := h (s.core c)
  rw [this]

theorem foldl_trail {α : Type} (l : List α) (s : State) (c : Nat) (f : State → α → State)
    (h : ∀ s a, Trail s (f s a) c) : Trail s (l.foldl f s) c := by
  induction l generalizing s with
  | nil => exact Trail.refl s c
  | cons a t ih => exact (h s a).trans (ih (f s a))

/-- A core without faults that have still to fall due raises none. -/
theorem ripen_none {s : State} {c : Nat} (t : Nat) (h : (s.core c).faults = []) : s.ripen c t = s := by
  unfold State.ripen
  rw [h]
  rfl

theorem Trail.faults {s t : State} {c : Nat} (h : Trail s t c) : (t.core c).faults = (s.core c).faults := by rw [h.core]

/-- Landing and forgetting what no engine can meet any more, at a core without faults. -/
theorem tidy_trail (s : State) (c : Nat) (h : (s.core c).faults = []) : Trail s (s.tidy c) c := by
  unfold State.tidy
  have h1 := (settle_onlyLand s c (s.core c).horizon).trail.trans (claims_trail (s.settle c (s.core c).horizon) c
    (fun k => { k with claims := k.claims.filter fun o => decide ((s.core c).horizon ≤ o.last) }) fun k => rfl)
  rw [ripen_none _ (h1.faults.trans h)]
  exact h1

theorem commit_committed (i : Issued) (op : Nat) (plan : Bool) (hr : i.w.recs = []) (hl : i.w.late = [])
    (hf : (i.w.s.core i.x.c).faults = []) : Committed i.w.s (commit i op plan) i := by
  have key : Trail (i.w.s.updEngine i.x.c i.x.e fun q => q.advance i) (commit i op plan) i.x.c := by
    have tidy : ∀ {u : State}, Trail (i.w.s.updEngine i.x.c i.x.e fun q => q.advance i) u i.x.c →
        Trail (i.w.s.updEngine i.x.c i.x.e fun q => q.advance i) (u.tidy i.x.c) i.x.c := by
      intro u h
      refine h.trans (tidy_trail u _ (h.faults.trans ?_))
      rw [State.core_updEngine_same, Core.setEngine_faults]
      exact hf
    unfold commit
    simp only [hr, hl, List.foldl_nil, State.raiseRecs, List.append_nil]
    refine tidy ?_
    have h1 := claims_trail (i.w.s.updEngine i.x.c i.x.e fun q => q.advance i) i.x.c
      (fun k => { k with claims := k.claims ++ i.w.claims }) (fun k => rfl)
    refine h1.trans ?_
    generalize (State.updCore _ i.x.c _) = s1
    have h2 : Trail s1 ((((s1.ledger i.x.c i.x.e i.x.col i.x.head (i.x.t - i.x.head)).ledger i.x.c i.x.e
        (if plan then 1 else 0) i.x.t 1).ledger i.x.c i.x.e 1 (i.x.t + 1) (i.nxt - (i.x.t + 1)))) i.x.c :=
      ((ledger_onlyObs _ _ _ _ _ _).trans ((ledger_onlyObs _ _ _ _ _ _).trans (ledger_onlyObs _ _ _ _ _ _))).trail
    refine h2.trans ?_
    generalize (State.ledger _ i.x.c i.x.e 1 _ _) = s2
    have h3 : Trail s2 (i.w.evs.foldl (fun s v => s.count i.x.c (some i.x.e.num) v.code v.start v.len v.n) s2) i.x.c :=
      (onlyObs_foldl _ _ _ _ fun s v => count_onlyObs _ _ _ _ _ _ _).trail
    refine h3.trans ?_
    generalize (List.foldl _ s2 i.w.evs) = s3
    split
    · next hd =>
      have hd : s3.dyeRate ≠ 0 := by
        unfold State.dyed at hd
        intro h0
        simp [h0] at hd
      split
      · exact ⟨rfl, fun h0 => absurd h0 hd, fun _ _ => rfl, rfl⟩
      · exact traceTo_trail _ _ _ _ _ _ hd
    · exact Trail.refl _ _
  refine ⟨?_, fun hd => ?_, fun b hb => ?_, ?_⟩
  · have h1 := key.rest
    exact h1
  · exact key.undyed hd
  · exact (key.others b hb).trans (State.core_updEngine_other _ _ _ hb)
  · have h1 := key.core
    rw [State.core_updEngine_same] at h1
    exact h1

/-- The work of an instruction before it has done anything. -/
def State.work (s : State) (t : Nat) : Work := { s := s, fin := t, claims := [], evs := [], recs := [], far := [], late := [] }

/-- Vectors that meet the array later are left alone. -/
theorem vectors_later {s : State} {c t : Nat} (h : ∀ v ∈ (s.core c).mx.vecs, t ≤ v.at') : s.vectors c t = s := by
  have : ((s.core c).mx.vecs.partition fun v => decide (v.at' < t)).1 = [] := by
    rw [List.partition_eq_filter_filter]
    refine List.filter_eq_nil_iff.2 fun v hv => ?_
    have := h v hv
    simp only [decide_eq_true_eq]
    omega
  unfold State.vectors
  split
  · rfl
  · next now later hl hp =>
    rw [hp] at this
    exact absurd this hl

/-- An instruction that reads its registers in its queue cycle issues as its meaning says. -/
theorem issueAt_ok {body : Ctx → Work → Except Halt Issued} {x : Ctx} {w : Work} {i : Issued} (hb : body x w = .ok i)
    (h : i.x.t ≤ i.x.r) (l : List Nat) : issueAt body x w l = .ok i := by
  cases l with
  | nil => exact hb
  | cons d l =>
    have : ¬(i.x.r < d ∧ d ≤ i.x.t) := by omega
    simp only [issueAt, hb, this, if_false]

/-- An instruction whose meaning stops raises that fault. -/
theorem issueAt_stop {body : Ctx → Work → Except Halt Issued} {x : Ctx} {w : Work} {c : Cause} {d : Byte} {p : Option Work}
    (hb : body x w = .error (.stop c d p)) (l : List Nat) : issueAt body x w l = .error (.stop c d p) := by
  cases l with
  | nil => exact hb
  | cons _ _ => simp only [issueAt, hb]

/-- A ready engine runs its instruction's meaning on the state as it is. -/
theorem runInstr_ready {s : State} {c : CoreId} {e : Eng} {j : Job} (h : Ready s c e j) (op : Nat) (plan : Bool)
    (body : Ctx → Work → Except Halt Issued) :
    runInstr s c e op plan body =
      match issueAt body (s.head c e j) (s.work (s.head c e j).t) ((s.engine c.val e).dues (s.engine c.val e).next) with
      | .ok i => commit i op plan
      | .error (.cut x w) => commit (finish x w) op plan
      | .error (.hold kind) => s.updEngine c.val e fun q => { q with wait := some (kind, (s.engine c.val e).next) }
      | .error (.stop cause detail part) => s.stopAt c.val e op (s.head c e j) cause detail part := by
  have hv := vectors_later h.vectors
  have h1 := h.present
  have h2 := h.job
  have h3 : ((s.core c.val).engine e).mode = .running := h.running
  have h4 := h.serving
  have h5 : ((s.core c.val).engine e).upset = none := h.upset
  have h6 : eccWorst s.ecc 8 (absAddr 3 c.val (8 * ((s.core c.val).engine e).pc.toNat)) 8 = none := h.sound
  have h7 : s.wordFault c.val e = none := by
    unfold State.wordFault
    simp only [h5, h6]
    rfl
  unfold runInstr
  simp only [hv, h1, h2, h3, h4, h6, h7]
  simp only [Bool.not_true, Bool.false_eq_true, if_false, ne_eq, not_true_eq_false, Option.isSome_none, Bool.false_and]
  rfl

theorem runInstr_ok {s : State} {c : CoreId} {e : Eng} {j : Job} (h : Ready s c e j) {op : Nat} {plan : Bool}
    {body : Ctx → Work → Except Halt Issued} {i : Issued} (hb : body (s.head c e j) (s.work (s.head c e j).t) = .ok i)
    (hr : i.x.t ≤ i.x.r) : runInstr s c e op plan body = commit i op plan := by
  rw [runInstr_ready h, issueAt_ok hb hr]

end Sys2Proof.Machine
end

