-- ==== Sys2Proof/Tests/Slice0.lean ====
section
/-! SUPPORT. Tests of the model on small states: an ill-formed term for each check of WellFormed, results that follow from
the spec's tables and examples, and for each statement a state and operands that meet its hypotheses. -/

namespace Sys2Proof.Tests

open Sys2Proof Sys2Proof.Machine
set_option Elab.async false

/-! ### Sample states -/

/-- State after a command that answers one. -/
def after (o : Host.Outcome State Fault Refusal) : State :=
  match o with
  | .next t => t
  | .fault _ => State.reset
  | .refused _ => State.reset

/-- An engine that issues. -/
def engA : Engine := { Engine.reset with mode := .running }

/-- Pass 7 of function 0 on virtual core 0. -/
def jobA : Job := { fn := 0, pass := 7, vcore := 0, kernel := 0 }

/-- A core that runs the pass with every engine. -/
def coreA : Core :=
  { Core.reset with mxeQ := engA, vxeQ := engA, txeQ := engA, gxeQ := engA, fxeQ := engA, job := some jobA }

/-- A running pass. -/
def passA : Pass :=
  { fn := 0, ring := 0, index := 0, reqId := 5, state := .running, attempt := 0, number := 3, multi := false, agreed := true, gen := 0, copy := 0,
    seed := 0, bufs := [], certAddr := 0, loaded := true, start := some 2, kernel := 0, kernelStart := 2, resolved := false,
    joined := false, cleanKernels := 0, clean := true, status := none, abandonedAt := none, fault := none, noRetry := false,
    checks := 0, leafXor := 0, leafBytes := 0, gated := false, frames := 0, admittedAt := 0 }

/-- A header for a skein of one. -/
def headA : ExeHeader :=
  { magic := 0, formatMajor := 1, formatMinor := 0, caps := 0, libAbi := 0, latVersion := 1, libManifest := 0,
    weightManifest := 0, gridW := 1, gridH := 1, skeinSize := 1, pcMin := 10, pcMax := 20, flags := 0, retries := 1, grace := 0,
    stall := 0, passLimit := 1000, kernels := 1, coresMin := 1, coresMax := 1, reserved := 0 }

/-- The bytes of a header and a section table (R208). -/
def spellA (h : ExeHeader) (l : List SecEntry) : List Byte :=
  leBytes 4 h.magic.toNat ++ leBytes 2 h.formatMajor.toNat ++ leBytes 2 h.formatMinor.toNat ++ leBytes 4 h.caps.toNat ++
    leBytes 2 h.libAbi.toNat ++ leBytes 2 h.latVersion.toNat ++ leBytes 32 h.libManifest.toNat ++ leBytes 32 h.weightManifest.toNat ++
    leBytes 2 h.gridW ++ leBytes 2 h.gridH ++ leBytes 2 h.skeinSize ++ leBytes 1 h.pcMin.toNat ++ leBytes 1 h.pcMax.toNat ++
    leBytes 1 h.flags.toNat ++ leBytes 1 h.retries.toNat ++ leBytes 2 h.grace.toNat ++ leBytes 4 h.stall.toNat ++
    leBytes 4 h.passLimit.toNat ++ leBytes 2 h.kernels ++ leBytes 2 h.coresMin ++ leBytes 2 h.coresMax ++ leBytes 2 l.length ++
    leBytes 20 0 ++ l.flatMap fun e => leBytes 2 e.stype.toNat ++ leBytes 2 e.reserved.toNat ++ leBytes 4 e.length ++ leBytes 8 e.offset

/-- A small executable. -/
def exeA : Exe :=
  { file := spellA headA [], header := headA, sections := [], kernels := [{ frames := 1, barrier := 0 }], members := [],
    streams := [], images := [], bobbins := [], warps := [], colls := [], reds := [],
    barriers := [{ vcore := 0, kernel := 0, final := 1, engines := 31, sig := [0, 0, 0, 0, 0], reservedZero := true }],
    outputs := [], inputs := [], persistent := [], retained := [], adjacency := [], tensors := [], blockUse := [],
    slotMapHash := 0 }

/-- The executable placed on core 0. -/
def loadA : Loaded :=
  { exe := exeA, vmodule := 0, place := [(0, 0)], routes := [], stall := 65536, grace := 64, passLimit := 1000 }

/-- The powered module in frame 4. -/
def up : State :=
  { State.reset with
    power := { Power.reset with phase := .ready, perst := false, inputGood := true, pwrGood := true }
    scheduled := true
    clk := { Clock.reset with frame := 4, frameStart := 256000, timebase := 256000 } }

/-- The module with a pass of function 0 running on core 0. -/
def run : State :=
  { up with
    cores := [(0, coreA)], passes := [(7, some passA)], nextPass := 8,
    fns := [(0, { Func.reset0 with exe := some loadA })] }

/-- The pass with an executable in place of the sample. -/
def runWith (x : Exe) : State :=
  { run with fns := [(0, { Func.reset0 with exe := some { loadA with exe := x } })] }

/-- A core-0 scalar or address register at a value in every engine. -/
def withS (i : Nat) (v : W32) (s : State) : State :=
  s.updCore 0 fun k => k.mapEngines fun q => { q with sregs := AMap.set TReg.zero q.sregs i { base := v, pend := [] } }
/-- As withS, for an address register. -/
def withA (i : Nat) (v : MAddr) (s : State) : State :=
  s.updCore 0 fun k => k.mapEngines fun q => { q with aregs := AMap.set TReg.zero q.aregs i { base := v, pend := [] } }
/-- A vector register at 64 equal lanes. -/
def withV (i : Nat) (v : W32) (s : State) : State :=
  s.updCore 0 fun k => { k with vregs := AMap.set VReg.zero k.vregs i { base := List.replicate 64 v, pend := [] } }
/-- Address in a space of core 0. -/
def at0 (space off : Nat) : MAddr := BitVec.ofNat 48 (absAddr space 0 off)

/-- Ready, as a computation. -/
def readyB (s : State) (c : CoreId) (e : Eng) (j : Job) : Bool :=
  s.present e && decide ((s.core c.val).job = some j) && decide ((s.engine c.val e).mode = .running) &&
    decide ((s.core c.val).svc = .inService) && decide ((s.engine c.val e).upset = none) &&
    decide (eccWorst s.ecc 8 (absAddr 3 c.val (8 * (s.engine c.val e).pc.toNat)) 8 = none) &&
    decide ((s.core c.val).faults = []) && (s.core c.val).mx.vecs.all fun v => decide ((s.engine c.val e).next + 6 ≤ v.at')

theorem ready_of {s : State} {c : CoreId} {e : Eng} {j : Job} (h : readyB s c e j = true) : Ready s c e j := by
  simp only [readyB, Bool.and_eq_true, decide_eq_true_eq, List.all_eq_true] at h
  obtain ⟨⟨⟨⟨⟨⟨⟨h1, h2⟩, h3⟩, h4⟩, h5⟩, h6⟩, h7⟩, h8⟩ := h
  exact ⟨h1, h2, h3, h4, h5, h6, h7, h8⟩

/-- Plain on a core without bobbins, as a computation. -/
def plainB (s : State) (c : CoreId) (j : Job) (a : MAddr) (n abs : Nat) : Bool :=
  decide (aCore a = c.val) && decide (s.bobs j = []) && decide (eccWorst s.ecc (eccWord (aSpace a)) abs n = none) &&
    match s.resolve j.fn a n with
    | .ok v => decide (v = (c.val, abs))
    | .error _ => false

theorem plain_of {s : State} {c : CoreId} {j : Job} {a : MAddr} {n abs : Nat} (h : plainB s c j a n abs = true) (e : Eng) (w : Bool) :
    Plain s c e j a n w abs := by
  simp only [plainB, Bool.and_eq_true, decide_eq_true_eq] at h
  obtain ⟨⟨⟨h1, h2⟩, h3⟩, h4⟩ := h
  refine ⟨h1, ?_, h3, fun b hb => ?_⟩
  · revert h4
    cases s.resolve j.fn a n with
    | ok v => simp
    | error _ => simp
  · rw [h2] at hb
    exact absurd hb List.not_mem_nil

/-- An address resolves, as a computation. -/
theorem resolve_of {s : State} {f : FnId} {a : MAddr} {n c abs : Nat} (h : (match s.resolve f a n with
    | .ok v => decide (v = (c, abs))
    | .error _ => false) = true) : s.resolve f a n = .ok (c, abs) := by
  revert h
  cases s.resolve f a n with
  | ok v => simp
  | error _ => simp

/-- A property of every core, as a computation over the listed ones. -/
theorem every_core {s : State} {p : Core → Bool} (h0 : p Core.reset = true) (h : (s.cores.all fun k => p k.2) = true) (c : Nat) :
    p (s.core c) = true := by
  have aux : ∀ l : AMap Core, (l.all fun k => p k.2) = true → p (AMap.get Core.reset l c) = true := by
    intro l
    induction l with
    | nil => intro _; exact h0
    | cons k t ih =>
      intro hl
      simp only [List.all_cons, Bool.and_eq_true] at hl
      simp only [AMap.get]
      split
      · exact hl.1
      · exact ih hl.2
  exact aux s.cores h

theorem no_writes_of {s : State} (h : (s.cores.all fun k => k.2.mpend.isEmpty) = true) : NoWrites s := fun c =>
  List.isEmpty_iff.mp (every_core (p := fun k => k.mpend.isEmpty) rfl h c)

theorem serving_of {s : State} (h : (s.cores.all fun k => k.2.svc == .inService) = true) (c : Nat) : s.serving c = true :=
  every_core (p := fun k => k.svc == .inService) rfl h c

/-- A command answers a next state. -/
def goes (o : Host.Outcome State Fault Refusal) : Bool :=
  match o with
  | .next _ => true
  | .fault _ => false
  | .refused _ => false

/-- Faults queued at a reporter, by cause and detail. -/
def faults (s : State) (n : Nat) : List (Cause × Byte) := (s.reporter n).map fun r => (r.cause, r.detail)

/-! ### Well-formed commands -/

/-- A Vedihar request of the PF. -/
def mbxA : Mbx := { f := 0, major := 3, minor := 0, seq := 0, respAddr := 0x1000, respLen := 64 }
/-- A load command of an executable. -/
def loadCmd (x : Exe) : Instr := .programLoad 0 0 0 x none
/-- A library entry. -/
def libA : LibEntry :=
  { number := 1, engines := 31, loopDepth := 0, callDepth := 0, sizeReg := 0, maxN := 1,
    eng := List.replicate 5 { entry := 24576, start := 0, base := 0, perUnit := 0 }, sRead := 0, sWritten := 0, aRead := 0,
    aWritten := 0, counters := 0, scratch := 0, caps := 0, reservedZero := true }
/-- A library image with one entry. -/
def imgA : LibImage :=
  { magic := 0, minor := 0, abi := 1, routines := 1, manifestOff := 64, manifestLen := 256, bodyOff := 320, bodyLen := 8,
    reservedZero := true, entries := [libA], body := [0], manifestBytes := [1] ++ List.replicate 255 0, signedBytes := [],
    cert := [], signature := [] }
/-- A tensor record. -/
def tensorA : TensorRec :=
  { tensor := 0, kind := 1, fmt := 0, width := 0, flags := 0, entries := 1, entryBase := 0, sideBase := 0, entryStride := 1,
    sideStride := 1, scaleMin := 0, scaleMax := 0 }
/-- A manifest whose bytes spell it. -/
def manA : Manifest :=
  { magic := 0, format := 0, blocks := 1, shards := 1, vmodules := 1, copyLen := 4194304, reservedZero := true, tensors := [],
    bytes := [0, 0, 0, 0, 0, 0, 0, 0, 1, 0, 0, 0, 1, 0, 0, 0, 1, 0, 0, 0, 0, 0, 0x40, 0], signature := [] }
/-- A generation list whose bytes spell it. -/
def listA : GenList :=
  { magic := 0, generation := 1, manifest := 0, count := 0, reservedZero := true, entries := [],
    bytes := [0, 0, 0, 0, 1, 0, 0, 0], signature := [] }
/-- A shard record with too little ciphertext. -/
def shortShard : ShardRec :=
  { magic := 0, generation := 1, index := 0, mprefix := 0, nonce := 0, reservedZero := true, ciphertext := [0], tag := 0 }

theorem test_wf_accepts : (loadCmd exeA).wf = true ∧ (Instr.libraryLoad mbxA imgA).wf = true ∧
    (Instr.weightManifest mbxA manA).wf = true ∧ (Instr.generationList mbxA listA).wf = true ∧
    (Instr.doorbellPoll 0 (List.replicate 16 0) (List.replicate 16 0) 0 0).wf = true := by decide +kernel

theorem test_wf_doorbell : (Instr.doorbellPoll 0 [] (List.replicate 16 0) 0 0).wf = false ∧
    (Instr.doorbellPoll 0 (List.replicate 16 0) [] 0 0).wf = false := by decide +kernel
theorem test_wf_header : ∀ h ∈ [{ headA with gridW := 65536 }, { headA with gridH := 65536 }, { headA with skeinSize := 65536 },
    { headA with kernels := 65536 }, { headA with coresMin := 65536 }, { headA with coresMax := 65536 }],
    (loadCmd { exeA with header := h, file := spellA h [] }).wf = false := by decide +kernel
theorem test_wf_sections :
    let put := fun (e : SecEntry) => (loadCmd { exeA with sections := [e], file := spellA headA [e] }).wf
    put { stype := 1, reserved := 0, length := 64, offset := 192 } = true ∧
    put { stype := 1, reserved := 0, length := 2 ^ 32, offset := 0 } = false ∧
    put { stype := 1, reserved := 0, length := 0, offset := 2 ^ 64 } = false := by decide +kernel
/-- A file that spells another header, or another section table, than the executable has. -/
theorem test_wf_file : (loadCmd { exeA with file := spellA { headA with kernels := 2 } [] }).wf = false ∧
    (loadCmd { exeA with file := spellA headA [{ stype := 1, reserved := 0, length := 64, offset := 192 }] }).wf = false := by
  decide +kernel
theorem test_wf_tables : (loadCmd { exeA with kernels := [{ frames := 65536, barrier := 0 }] }).wf = false ∧
    (loadCmd { exeA with members := [{ vmodule := 0, die := 256, localIdx := 0 }] }).wf = false ∧
    (loadCmd { exeA with blockUse := [{ first := 0, last := 65536 }] }).wf = false ∧
    (loadCmd { exeA with tensors := [{ tensorA with scaleMin := -129 }] }).wf = false ∧
    (loadCmd { exeA with tensors := [{ tensorA with entries := 2 ^ 32 }] }).wf = false := by decide +kernel
/-- A warp receive entry of core 0 on port 0: one flit in frame 0, slot group 1, position 0. -/
def warpA : WarpEntry :=
  { vcore := 0, kind := 0x02, port := 0, peer := 0, frame := 0, firstSg := 1, firstPos := 0, flits := 1, perSg := 1,
    counter := 0xFF, latClass := 0, reserved := false, reduction := none }
theorem test_wf_warp_and_barrier : (loadCmd { exeA with warps := [{ warpA with flits := 2 ^ 32 }] }).wf = false ∧
    (loadCmd { exeA with warps := [{ warpA with port := 256 }] }).wf = false ∧
    (loadCmd { exeA with barriers := [{ vcore := 0, kernel := 0, final := 0, engines := 1, sig := [0], reservedZero := true }] }).wf = false := by
  decide +kernel
/-- A load image of core 0. -/
def imageA : LoadImage := { magic := 0, vmodule := 0, cores := [0], routes := [], reserved := 0, exec := 0 }
theorem test_wf_load_image : (Instr.programLoad 0 0 0 exeA (some { imageA with cores := [65536] })).wf = false ∧
    (Instr.programLoad 0 0 0 exeA (some { imageA with vmodule := 65536 })).wf = false ∧
    (Instr.programLoad 0 0 0 exeA (some { imageA with routes := [{ entry := 0, column := 256, reserved := 0 }] })).wf = false := by
  decide +kernel
theorem test_wf_library : (Instr.libraryLoad mbxA { imgA with manifestLen := 0 }).wf = false ∧
    (Instr.libraryLoad mbxA { imgA with bodyLen := 16 }).wf = false ∧
    (Instr.libraryLoad mbxA { imgA with entries := [{ libA with eng := [] }] }).wf = false ∧
    (Instr.libraryLoad mbxA { imgA with entries := [{ libA with number := 2 }] }).wf = false ∧
    (Instr.libraryLoad mbxA { imgA with entries := [{ libA with maxN := 2 ^ 32 }] }).wf = false := by decide +kernel
theorem test_wf_documents : (Instr.weightManifest mbxA { manA with blocks := 2 }).wf = false ∧
    (Instr.weightManifest mbxA { manA with copyLen := 0 }).wf = false ∧
    (Instr.weightManifest mbxA { manA with tensors := [tensorA] }).wf = false ∧
    (Instr.generationList mbxA { listA with generation := 2 }).wf = false ∧
    (Instr.generationList mbxA { listA with entries := [{ index := 1, block := 0, vmodule := 0, vcore := 0, offset := 0, sha := 0 }] }).wf
      = false := by decide +kernel
theorem test_wf_shard : (Instr.weightShard 0 0 0 (some shortShard)).wf = false ∧
    (Instr.stagingSlotWrite 0 0 0 shortShard).wf = false := by decide +kernel
theorem test_wf_lists : (Instr.passSubmit 0 0 0 (List.replicate 65536 0)).wf = false ∧
    (Instr.skeinCtlForm 0 0 0 (List.replicate 65536 0)).wf = false := by decide +kernel
theorem test_wf_numbers : (Instr.memoryScrubRead 0 .instruction 32768).wf = false ∧ (Instr.requestTimeout 0 0 (2 ^ 32)).wf = false ∧
    (Instr.powerSample 65536 0).wf = false ∧ (Instr.temperatureSample []).wf = false ∧
    (Instr.distributionEntry mbxA 1 none [{ module := 1, lo := 65536, hi := 0 }]).wf = false := by decide +kernel
theorem test_wf_window : (Instr.hostWindowRead 0 0 0).wf = false ∧ (Instr.hostWindowRead 0 (BitVec.ofNat 36 (2 ^ 36 - 1)) 2).wf = false ∧
    (Instr.hostWindowWrite 0 0 []).wf = false := by decide +kernel

/-! ### Control and register instructions -/

theorem witness_ready : ∀ e, Ready run 0 e jobA := by
  intro e
  cases e <;> exact ready_of (by decide +kernel)

/-- Every word that the tests of the register and control instructions use is legal: PAD 5, PAD to cycle 9, LOOP of 3 × 2
words, the same with an iteration register, ENDLOOP of 2, CALL 1, WAIT and SIGNAL of counter 4 by 2, RELEASE and ACQUIRE of
core scope, BARRIER 0. -/
theorem witness_control_words : legalCtl 0x01 0 0 = true ∧ legalCtl 0x02 0 5 = true ∧ legalCtl 0x02 1 9 = true ∧
    legalCtl 0x03 0 (BitVec.ofNat 48 (3 + 2 * 2 ^ 24)) = true ∧
    legalCtl 0x03 0x25 (BitVec.ofNat 48 (3 + 2 * 2 ^ 24 + 6 * 2 ^ 40 + 2 ^ 45)) = true ∧ legalCtl 0x04 0 2 = true ∧
    legalCtl 0x05 0 1 = true ∧ legalCtl 0x06 0 0 = true ∧ legalCtl 0x07 0 (BitVec.ofNat 48 (4 + 2 * 2 ^ 6)) = true ∧
    legalCtl 0x08 0 (BitVec.ofNat 48 (4 + 2 * 2 ^ 6)) = true ∧ legalCtl 0x09 1 (BitVec.ofNat 48 (3 + 2 * 2 ^ 22)) = true ∧
    legalCtl 0x0A 1 (BitVec.ofNat 48 (4 + 2 * 2 ^ 6)) = true ∧ legalCtl 0x0B 1 0 = true := by decide +kernel
theorem witness_register_words : legalCtl 0x10 3 0x1234 = true ∧ legalCtl 0x11 1 (BitVec.ofNat 48 (1 + 2 * 2 ^ 5 + 3 * 2 ^ 10)) = true ∧
    legalCtl 0x12 6 (BitVec.ofNat 48 (1 + 2 * 2 ^ 5 + 33 * 2 ^ 10)) = true ∧ legalCtl 0x13 2 0x123456789ABC = true ∧
    legalCtl 0x14 2 (BitVec.ofNat 48 (3 + 2 ^ 9 + 0xFFFFFFFF * 2 ^ 10)) = true ∧ legalCtl 0x15 0 (BitVec.ofNat 48 (1 + 3 * 2 ^ 5)) = true ∧
    legalCtl 0x16 0 (BitVec.ofNat 48 (1 + 3 * 2 ^ 5 + 2 ^ 9)) = true ∧ legalCtl 0x17 4 (BitVec.ofNat 48 (2 + 3 * 2 ^ 5)) = true := by
  decide +kernel
/-- Reserved encodings: a reserved modifier, a reserved field value, a non-zero reserved field. -/
theorem witness_reserved_words : legalCtl 0x01 1 0 = false ∧ legalCtl 0x02 0 0 = false ∧ legalCtl 0x03 64 0 = false ∧
    legalCtl 0x04 1 0 = false ∧ legalCtl 0x05 1 0 = false ∧ legalCtl 0x06 0 1 = false ∧ legalCtl 0x07 0 4 = false ∧
    legalCtl 0x08 0 4 = false ∧ legalCtl 0x09 5 (BitVec.ofNat 48 (2 ^ 22)) = false ∧ legalCtl 0x0A 5 (BitVec.ofNat 48 (2 ^ 6)) = false ∧
    legalCtl 0x0B 2 0 = false ∧ legalCtl 0x10 32 0 = false ∧ legalCtl 0x11 13 0 = false ∧ legalCtl 0x12 13 0 = false ∧
    legalCtl 0x13 16 0 = false ∧ legalCtl 0x14 16 0 = false ∧ legalCtl 0x15 1 0 = false ∧ legalCtl 0x16 1 0 = false ∧
    legalCtl 0x17 4 1 = false ∧ run.dyeRate = 0 := by decide +kernel

theorem test_sset : (after (exec (.sset 0 .vxe 3 0x1234) run)).sreg 0 .vxe 3 1 = 0x1234 := by decide +kernel
/-- 5 − 7 wraps modulo 2^32. -/
theorem test_sop_wraps : (after (exec (.sop 0 .txe 1 (BitVec.ofNat 48 (1 + 2 * 2 ^ 5 + 3 * 2 ^ 10))) (withS 3 7 (withS 2 5 run)))).sreg
    0 .txe 1 1 = 0xFFFFFFFE := by decide +kernel
/-- A shift by 33 shifts by bits [4:0], which are 1. -/
theorem test_sopi_shift : (after (exec (.sopi 0 .txe 6 (BitVec.ofNat 48 (1 + 2 * 2 ^ 5 + 33 * 2 ^ 10))) (withS 2 5 run))).sreg 0 .txe 1 1 = 10 := by
  decide +kernel
theorem test_scalar_min_signed_and_unsigned : scalarOp 9 0xFFFFFFFF 1 = 0xFFFFFFFF ∧ scalarOp 11 0xFFFFFFFF 1 = 1 ∧
    scalarOp 8 0x80000000 31 = 0xFFFFFFFF := by decide +kernel
theorem test_aset : (after (exec (.aset 0 .gxe 2 0x123456789ABC) run)).areg 0 .gxe 2 1 = 0x123456789ABC := by decide +kernel
/-- AADD of the immediate −1 wraps modulo 2^48. -/
theorem test_aadd_wraps : (after (exec (.aadd 0 .gxe 2 (BitVec.ofNat 48 (3 + 2 ^ 9 + 0xFFFFFFFF * 2 ^ 10))) run)).areg 0 .gxe 2 1 =
    0xFFFFFFFFFFFF := by decide +kernel
theorem test_srd_address_halves :
    let t := after (exec (.srd 0 .fxe 4 (BitVec.ofNat 48 (2 + 3 * 2 ^ 5))) (withA 3 0x123456789ABC run))
    t.sreg 0 .fxe 2 1 = 0x56789ABC ∧ t.sreg 0 .fxe 3 1 = 0x1234 := by decide +kernel

/-- Core 0's activation memory holds the word 0xDDCCBBAA at offset 8, whose address is in A3. -/
def runWord : State :=
  { withA 3 (at0 1 8) run with mem := [(absAddr 1 0 8, 0xAA), (absAddr 1 0 9, 0xBB), (absAddr 1 0 10, 0xCC), (absAddr 1 0 11, 0xDD)] }
theorem witness_word_access : Ready runWord 0 .vxe jobA ∧ NoClaims runWord 0 ∧ runWord.inv = true ∧
    runWord.areg 0 .vxe 3 0 = at0 1 8 ∧ Plain runWord 0 .vxe jobA (at0 1 8) 4 false (absAddr 1 0 8) ∧
    Plain runWord 0 .vxe jobA (at0 1 8) 4 true (absAddr 1 0 8) :=
  ⟨ready_of (by decide +kernel), rfl, by decide +kernel, by decide, plain_of (by decide +kernel) _ _,
    plain_of (by decide +kernel) _ _⟩
theorem test_sld_little_endian : (after (exec (.sld 0 .vxe 0 (BitVec.ofNat 48 (1 + 3 * 2 ^ 5))) runWord)).sreg 0 .vxe 1 4 = 0xDDCCBBAA := by
  decide +kernel
theorem test_sst_post_increment :
    let t := after (exec (.sst 0 .vxe 0 (BitVec.ofNat 48 (1 + 3 * 2 ^ 5 + 2 ^ 9))) (withS 1 0x11223344 runWord))
    t.readNow 0 (absAddr 1 0 8) 4 = [0x44, 0x33, 0x22, 0x11] ∧ t.areg 0 .vxe 3 1 = at0 1 12 := by decide +kernel

theorem test_pad_by_count : ((after (exec (.pad 0 .vxe 0 5) run)).engine 0 .vxe).next = 5 := by decide +kernel
theorem test_pad_to_target : ((after (exec (.pad 0 .vxe 1 9) run)).engine 0 .vxe).next = 9 := by decide +kernel
/-- A PAD whose target equals its own cycle takes that cycle. -/
theorem witness_pad_target_now : fld (0 : BitVec 48) 0 32 = (run.head 0 .vxe jobA).t % 2 ^ 32 ∧ legalCtl 0x02 1 0 = true := by decide +kernel
/-- An engine in cycle 9 meets a PAD to cycle 5. -/
def runLate : State := run.updEngine 0 .vxe fun q => { q with next := 9 }
theorem witness_pad_target_passed : Ready runLate 0 .vxe jobA ∧ fld (5 : BitVec 48) 0 32 < (runLate.head 0 .vxe jobA).t % 2 ^ 32 :=
  ⟨ready_of (by decide +kernel), by decide⟩

/-- The library with one routine for every engine, at word 24,576. -/
def runLib : State := { run with library := some { minor := 0, abi := 1, entries := [libA], body := [], manifestHash := 0, hash := 0 } }
theorem witness_call_and_ret : Ready runLib 0 .vxe jobA ∧ (runLib.engine 0 .vxe).calls.length < 2 ∧ runLib.routine 1 .vxe = some 24576 ∧
    ((after (exec (.call 0 .vxe 0 1) runLib)).engine 0 .vxe).calls = [1] :=
  ⟨ready_of (by decide +kernel), by decide, by decide, by decide +kernel⟩
theorem test_ret_returns_behind_the_call :
    ((after (exec (.ret 0 .vxe 0 0) (after (exec (.call 0 .vxe 0 1) runLib)))).engine 0 .vxe).pc = 1 := by decide +kernel

/-- A register count of 0 skips the body: the word behind the ENDLOOP issues at c + 2. -/
theorem test_loop_zero_skips :
    let q := (after (exec (.loop 0 .vxe 0x25 (BitVec.ofNat 48 (3 + 2 * 2 ^ 24))) run)).engine 0 .vxe
    q.pc = 4 ∧ q.next = 2 ∧ q.loops = [] := by decide +kernel
/-- The state in the body of a loop of 3 iterations and 2 words, at its ENDLOOP. -/
def runBody : State := (after (exec (.loop 0 .vxe 0 (BitVec.ofNat 48 (3 + 2 * 2 ^ 24 + 6 * 2 ^ 40 + 2 ^ 45))) run)).updEngine 0 .vxe fun q => { q with pc := 3, next := 3 }
theorem witness_endloop : Ready runBody 0 .vxe jobA ∧ (runBody.engine 0 .vxe).loops.length = 1 ∧
    ∀ f ∈ (runBody.engine 0 .vxe).loops, f.len = 2 ∧ f.remaining = 2 ∧ f.counted = false :=
  ⟨ready_of (by decide +kernel), by decide +kernel, by decide +kernel⟩
theorem test_endloop_iterates :
    let t := after (exec (.endloop 0 .vxe 0 2) runBody)
    (t.engine 0 .vxe).pc = 1 ∧ t.sreg 0 .vxe 6 4 = 1 := by decide +kernel
/-- A counted loop whose first iteration had the signature value 5. -/
def runCounted (first : Option W32) (sig : W32) (remaining : Nat) : State :=
  run.updEngine 0 .vxe fun q => { q with sig := sig, loops := [{ start := 1, len := 2, remaining := remaining, iter := 0, iw := none, counted := true, outer := 9, first := first }] }
theorem witness_counted_endloop : Ready (runCounted (some 5) 0 1) 0 .vxe jobA ∧ Ready (runCounted (some 5) 0xFFFFFFFA 0) 0 .vxe jobA ∧
    (5 : W32) ≠ ~~~0 ∧ (5 : W32) = ~~~0xFFFFFFFA ∧ (runCounted (some 5) 0 1).dyeRate = 0 :=
  ⟨ready_of (by decide +kernel), ready_of (by decide +kernel), by decide, by decide, by decide⟩
/-- A register-counted LOOP: S5 holds 2, 9 and 0 against a declared maximum of 3. -/
theorem witness_counted_loop : Ready (withS 5 2 run) 0 .vxe jobA ∧ Ready (withS 5 9 run) 0 .vxe jobA ∧ bitAt (0x25 : Byte) 5 = true ∧
    (withS 5 2 run).sreg 0 .vxe (fld (0x25 : Byte) 0 5) 0 = 2 ∧ fld (BitVec.ofNat 48 (3 + 2 * 2 ^ 24)) 24 16 = 2 ∧
    fld (BitVec.ofNat 48 (3 + 2 * 2 ^ 24)) 0 24 = 3 :=
  ⟨ready_of (by decide +kernel), ready_of (by decide +kernel), by decide, by decide,
    by decide, by decide⟩
theorem test_fifth_loop_level : faults (after (exec (.loop 0 .vxe 0 (BitVec.ofNat 48 (3 + 2 * 2 ^ 24))) (run.updEngine 0 .vxe fun q =>
    { q with loops := List.replicate 4 { start := 1, len := 2, remaining := 1, iter := 0, iw := none, counted := false, outer := 0, first := none } })
    )) 0 = [(.controlParity, 0x02)] := by decide +kernel

/-- CRC-32C of no bytes is 0: the signature of a body that folded nothing. A BARRIER word at address 0 folds nothing before it
is compared. -/
theorem witness_barrier : Exe.barrierOf exeA 0 0 = exeA.barriers.head? ∧ ((run.fn 0).exe.map fun l => l.exe) = some exeA ∧
    ∀ b ∈ exeA.barriers, b.kernel = jobA.kernel ∧ b.sig[Eng.vxe.num]? = some (~~~(run.engine 0 .vxe).sig) := by decide +kernel
theorem test_barrier_final : ((after (exec (.barrier 0 .vxe 1 0) run)).engine 0 .vxe).mode = .barrier true := by decide +kernel
theorem witness_barrier_mismatch : Ready (runCounted none 7 0) 0 .vxe jobA ∧ (0 : W32) ≠ ~~~((runCounted none 7 0).engine 0 .vxe).sig :=
  ⟨ready_of (by decide +kernel), by decide⟩

/-- Counter 4 of core 0, which core 1 brings to `n` in cycle 2 with a scope. -/
def runCount (n : Nat) (sc : Scope) : State := run.setCounter 0 4 { Counter.reset with
  pend := [{ cyc := 2, eng := 4, amount := n, scope := sc, originCore := 1, originModule := 0 }] }
theorem witness_wait : Ready (runCount 2 .die) 0 .vxe jobA ∧ Ready (runCount 1 .die) 0 .vxe jobA ∧
    ((runCount 2 .die).counter 0 4).reaches 2 0 = some 3 ∧ ((runCount 1 .die).counter 0 4).reaches 2 0 = none ∧
    workAfter 0 3 0 ≤ ((runCount 2 .die).head 0 .vxe jobA).t + loadA.stall ∧
    (((runCount 2 .die).counter 0 4).pend.Pairwise fun a b => a.cyc ≤ b.cyc) ∧ eccWorst (runCount 2 .die).ecc 8 (absAddr 4 0 32) 8 = none :=
  ⟨ready_of (by decide +kernel), ready_of (by decide +kernel), by decide, by decide, by decide, by decide, by decide⟩
/-- A count that is reached behind the stall limit of 65,536 cycles. -/
theorem witness_wait_stalls : let s := run.setCounter 0 4 { Counter.reset with
      pend := [{ cyc := 70000, eng := 4, amount := 2, scope := .die, originCore := 1, originModule := 0 }] }
    (s.counter 0 4).reaches 2 0 = some 70001 ∧ loadA.stall < workAfter 0 70001 0 ∧
      faults (after (exec (.wait 0 .vxe 0 (BitVec.ofNat 48 (4 + 2 * 2 ^ 6))) s)) 0 = [(.queueStall, 0x01)] := by decide +kernel
theorem test_wait_consumes :
    let t := after (exec (.wait 0 .vxe 0 (BitVec.ofNat 48 (4 + 2 * 2 ^ 6))) (runCount 2 .die))
    (t.counter 0 4).count = 0 ∧ (t.engine 0 .vxe).next = 4 := by decide +kernel
theorem test_wait_below_threshold :
    let t := after (exec (.wait 0 .vxe 0 (BitVec.ofNat 48 (4 + 2 * 2 ^ 6))) (runCount 1 .die))
    ((t.counter 0 4).view 3).count = 1 ∧ (t.engine 0 .vxe).pc = 0 := by decide +kernel
/-- An ACQUIRE of die scope sees a die-scope release of core 1; one of core scope does not include the origin, and a
core-scope tag does not include the acquirer. -/
theorem witness_acquire_scopes : scopeDist 0 0 1 0 = 2 ∧ scopeIncludes .die 2 = true ∧ scopeIncludes (scopeOf 2) 2 = true ∧
    scopeIncludes (scopeOf 1) 2 = false ∧ scopeIncludes .core 2 = false ∧ legalCtl 0x0A 2 (BitVec.ofNat 48 (4 + 2 * 2 ^ 6)) = true := by
  decide +kernel
theorem test_acquire : ((after (exec (.acquire 0 .vxe 2 (BitVec.ofNat 48 (4 + 2 * 2 ^ 6))) (runCount 2 .die))).counter 0 4).count = 0 := by
  decide +kernel
theorem test_acquire_mismatch_details :
    let r := fun (m : Byte) (sc : Scope) => faults (after (exec (.acquire 0 .vxe m (BitVec.ofNat 48 (4 + 2 * 2 ^ 6))) (runCount 2 sc))) 0
    r 1 .die = [(.scopeMismatch, 0x02)] ∧ r 2 .core = [(.scopeMismatch, 0x01)] ∧ r 1 .core = [(.scopeMismatch, 0x01)] := by decide +kernel
/-- The increment applies behind the SIGNAL's own cycle. -/
theorem test_signal : let v := (after (exec (.signal 0 .vxe 0 (BitVec.ofNat 48 (4 + 2 * 2 ^ 6))) run)).counter 0 4
    (v.view 0).count = 0 ∧ (v.view 2).count = 2 ∧ (v.view 2).scope = .core := by
  decide +kernel
/-- An engine with an open weft operation: a SIGNAL waits behind it. -/
def runOpen : State := run.updEngine 0 .vxe fun q => { q with openOps := [1] }
theorem witness_signal_waits : Ready runOpen 0 .vxe jobA ∧ (runOpen.engine 0 .vxe).openOps ≠ [] :=
  ⟨ready_of (by decide +kernel), by decide⟩
theorem witness_release : Ready (withA 3 (at0 4 32) run) 0 .vxe jobA ∧ (withA 3 (at0 4 32) run).areg 0 .vxe 3 0 = at0 4 32 ∧
    aSpace (at0 4 32) = 4 ∧ aOff (at0 4 32) = 32 ∧ (withA 3 (at0 4 32) run).resolve 0 (at0 4 32) 8 = .ok (0, absAddr 4 0 32) :=
  ⟨ready_of (by decide +kernel), by decide, by decide, by decide, by rfl⟩
theorem test_release_pends : (((after (exec (.release 0 .vxe 1 (BitVec.ofNat 48 (3 + 2 * 2 ^ 22))) (withA 3 (at0 4 32) run))).engine 0 .vxe).releases.map
    fun r => (r.inc, r.scope, r.signal)) = [(2, .core, false)] := by decide +kernel


/-! ### Vector instructions -/

/-- Words of the vector instructions: destination V1, sources V2, V3 and V4. -/
def vw : BitVec 48 := BitVec.ofNat 48 (1 + 2 * 2 ^ 6 + 3 * 2 ^ 12)
/-- As vw, with the third source V4. -/
def vw3 : BitVec 48 := BitVec.ofNat 48 (1 + 2 * 2 ^ 6 + 3 * 2 ^ 12 + 4 * 2 ^ 18)
/-- VRED of n lanes of V2 into V1, its length in bits [37:32]. -/
def vredW (n : Nat) : BitVec 48 := BitVec.ofNat 48 (1 + 2 * 2 ^ 6 + (n - 1) * 2 ^ 32)
theorem witness_vector_words : zeros vw 18 47 = true ∧ legalEng 0x53 0 vw3 = true ∧ legalEng 0x54 3 vw = true ∧ legalEng 0x55 0 vw3 = true ∧
    legalEng 0x56 7 vw = true ∧ legalEng 0x57 2 (BitVec.ofNat 48 (1 + 2 * 2 ^ 6)) = true ∧ legalEng 0x58 5 (BitVec.ofNat 48 (1 + 2 * 2 ^ 6)) = true ∧
    legalEng 0x59 0 (vredW 64) = true ∧ legalEng 0x59 2 (vredW 1) = true ∧ legalEng 0x5A 0 (BitVec.ofNat 48 (1 + 2 * 2 ^ 6 + 63 * 2 ^ 32)) = true ∧
    legalEng 0x5A 1 (BitVec.ofNat 48 (1 + 5 * 2 ^ 39)) = true ∧ legalEng 0x5B 0 (BitVec.ofNat 48 (2 * 2 ^ 6 + 63 * 2 ^ 32 + 5 * 2 ^ 39)) = true ∧
    run.inv = true := by decide +kernel
/-- V2 = 1.0, V3 = 2.0 and V4 = 3.0 in every lane. -/
def runVec : State := withV 4 0x40400000 (withV 3 0x40000000 (withV 2 0x3F800000 run))
theorem test_vadd : nth 0 ((after (exec (.vadd 0 vw) runVec)).vlanes 0 1 4) 63 = 0x40400000 := by decide +kernel
theorem test_vadd_latency : nth 0 ((after (exec (.vadd 0 vw) runVec)).vlanes 0 1 3) 0 = 0 := by decide +kernel
theorem test_vsub : nth 0 ((after (exec (.vsub 0 vw) runVec)).vlanes 0 1 4) 0 = 0xBF800000 := by decide +kernel
theorem test_vmul : nth 0 ((after (exec (.vmul 0 vw) runVec)).vlanes 0 1 4) 5 = 0x40000000 := by decide +kernel
theorem test_vmin_vmax : nth 0 ((after (exec (.vmin 0 vw) runVec)).vlanes 0 1 4) 0 = 0x3F800000 ∧
    nth 0 ((after (exec (.vmax 0 vw) runVec)).vlanes 0 1 4) 0 = 0x40000000 := by decide +kernel
/-- 1 × 2 + 3 = 5. -/
theorem test_vfma : nth 0 ((after (exec (.vfma 0 0 vw3) runVec)).vlanes 0 1 4) 0 = 0x40A00000 := by decide +kernel
/-- A left shift by 33 shifts by bits [4:0], which are 1; 0x80000000 shifts right arithmetically to 0xC0000000. -/
theorem test_vint_shifts : vintLane 5 1 33 = 2 ∧ vintLane 7 0x80000000 1 = 0xC0000000 ∧ vintLane 6 0x80000000 1 = 0x40000000 := by decide +kernel
/-- V4's bit 31 is clear, so VSEL takes vb; with 0x80000000 it takes va. -/
theorem test_vsel : nth 0 ((after (exec (.vsel 0 0 vw3) runVec)).vlanes 0 1 2) 0 = 0x40000000 ∧
    nth 0 ((after (exec (.vsel 0 0 vw3) (withV 4 0x80000000 runVec))).vlanes 0 1 2) 0 = 0x3F800000 := by decide +kernel
theorem test_vred_sums_and_keeps : let t := after (exec (.vred 0 0 (vredW 64)) (withV 1 7 runVec))
    nth 0 (t.vlanes 0 1 24) 0 = 0x42800000 ∧ nth 0 (t.vlanes 0 1 24) 1 = 7 := by decide +kernel
theorem test_vbcast_and_vtos : nth 0 ((after (exec (.vbcast 0 1 (BitVec.ofNat 48 (1 + 5 * 2 ^ 39))) (withS 5 9 run))).vlanes 0 1 2) 63 = 9 ∧
    (after (exec (.vtos 0 0 (BitVec.ofNat 48 (2 * 2 ^ 6 + 63 * 2 ^ 32 + 5 * 2 ^ 39))) runVec)).sreg 0 .vxe 5 2 = 0x3F800000 := by decide +kernel
/-- VRED lengths from S5: 1 and 64 are in range. -/
theorem witness_vred_lengths : legalEng 0x59 0 (BitVec.ofNat 48 (1 + 2 * 2 ^ 6 + 2 ^ 38 + 5 * 2 ^ 39)) = true ∧
    ((withS 5 64 run).sreg 0 .vxe 5 0).toNat = 64 ∧ ((withS 5 1 run).sreg 0 .vxe 5 0).toNat = 1 := by decide +kernel

/-- A3 at offset 512 of the activation memory, which holds 1.0 there; V1 = 1.0. -/
def runMem : State :=
  { withA 3 (at0 1 512) (withV 1 0x3F800000 run) with mem := [(absAddr 1 0 514, 0x80), (absAddr 1 0 515, 0x3F)] }
/-- VLD or VST of V1 at A3: words, BF16 values (bit 30), a column (bit 29). -/
def vmem (bits : Nat) : BitVec 48 := BitVec.ofNat 48 (1 + 3 * 2 ^ 24 + bits)
theorem witness_vector_memory : Ready runMem 0 .vxe jobA ∧ NoClaims runMem 0 ∧ runMem.inv = true ∧ (runMem.vlanes 0 1 0).length = 64 ∧
    (∀ b ∈ [0, 2 ^ 29, 2 ^ 30, 2 ^ 30 + 2 ^ 31], legalEng 0x50 0 (vmem b) = true ∧ legalEng 0x51 0 (vmem b) = true) ∧
    (∀ w, Plain runMem 0 .vxe jobA (at0 1 512) 256 w (absAddr 1 0 512)) ∧ (∀ w, Plain runMem 0 .vxe jobA (at0 1 512) 128 w (absAddr 1 0 512)) ∧
    (∀ w, Plain runMem 0 .vxe jobA (addA (at0 1 512) 128) 128 w (absAddr 1 0 640)) ∧
    ∀ r < 64, ∀ w, Plain runMem 0 .vxe jobA (at0 1 512 + BitVec.ofNat 48 (256 * r)) 4 w (absAddr 1 0 (512 + 256 * r)) := by
  have h : ∀ r < 64, plainB runMem 0 jobA (at0 1 512 + BitVec.ofNat 48 (256 * r)) 4 (absAddr 1 0 (512 + 256 * r)) = true := by decide +kernel
  exact ⟨ready_of (by decide +kernel), rfl, by decide +kernel, by decide +kernel, by decide +kernel, fun w => plain_of (by decide +kernel) _ w,
    fun w => plain_of (by decide +kernel) _ w, fun w => plain_of (by decide +kernel) _ w, fun r hr w => plain_of (h r hr) _ w⟩
theorem test_vld_words_and_column : nth 0 ((after (exec (.vld 0 0 (vmem 0)) runMem)).vlanes 0 1 4) 0 = 0x3F800000 ∧
    nth 0 ((after (exec (.vld 0 0 (vmem (2 ^ 29))) runMem)).vlanes 0 1 4) 1 = 0 := by decide +kernel
/-- BF16 1.0 is 0x3F80. -/
theorem test_vst_bf16 : ((after (exec (.vst 0 0 (vmem (2 ^ 30 + 2 ^ 31))) runMem)).readNow 0 (absAddr 1 0 640) 2) = [0x80, 0x3F] := by
  decide +kernel

/-! ### Matrix instructions -/

/-- MCFG of INT8 by INT8, 8 DPUs. -/
def mcfgW : BitVec 48 := BitVec.ofNat 48 (2 * 2 ^ 10)
/-- The core's configuration: INT8 operands, 8 DPUs. -/
def cfgA : MCfg := { MCfg.reset with width := 2 }
/-- The pass with a matrix configuration, open accumulators and open rows. -/
def runMx (cfg : MCfg) (accs rows : List Nat) : State :=
  run.updCore 0 fun k => { k with mx := { k.mx with cfg := cfg, accOpen := accs, rowOpen := rows } }
theorem witness_mcfg : legalEng 0x40 0 mcfgW = true ∧ legalEng 0x41 0 (BitVec.ofNat 48 (8 + 2 * 2 ^ 21 + 4 * 2 ^ 26)) = true ∧
    run.fuses.grade = .f ∧ (run.core 0).mx.accOpen = [] ∧ (run.core 0).mx.rowOpen = [] ∧ (run.core 0).mx.vecs = [] :=
  ⟨by decide, by decide, rfl, rfl, rfl, rfl⟩
theorem test_mcfg : ((after (exec (.mcfg 0 0 mcfgW) run)).core 0).mx.cfg = cfgA := by decide +kernel
theorem witness_mclr : legalEng 0x47 3 0 = true ∧ Ready (runMx cfgA [0, 1, 2] []) 0 .mxe jobA ∧ setBits 4 3 = [0, 1] ∧
    Ready (withA 0 (at0 2 1024) (runMx { cfgA with psm := true } [] [1, 2])) 0 .mxe jobA ∧
    PsmRows (withA 0 (at0 2 1024) (runMx { cfgA with psm := true } [] [1, 2])) 0 jobA (at0 2 1024) 2 [1, 2] :=
  ⟨by decide, ready_of (by decide +kernel), by decide, ready_of (by decide +kernel), by decide, by decide, by decide, ⟨_, rfl⟩, by decide, by decide +kernel⟩
theorem test_mclr : ((after (exec (.mclr 0 3 0) (runMx cfgA [0, 1, 2] []))).core 0).mx.accOpen = [2] := by decide +kernel

/-- Weight slice rows of core 0: an entry image of twos at line 0 (layer 0) and its side image at line 1 (layer 1). -/
def runLatch : State :=
  { withA 1 (at0 0 2048) (withA 0 (at0 0 0) (runMx cfgA [] [])) with mem := runCells (absAddr 0 0 0) (List.replicate 64 2) }
theorem witness_latch_fill : legalEng 0x42 0 (BitVec.ofNat 48 (0 + 1 * 2 ^ 4)) = true ∧ Ready runLatch 0 .mxe jobA ∧ NoClaims runLatch 0 ∧
    cfgA.n * rowBytesOf cfgA.fw = 512 ∧ cfgA.sideBytes = 256 ∧ (∀ w, Plain runLatch 0 .mxe jobA (at0 0 0) 512 w (absAddr 0 0 0)) ∧
    (∀ w, Plain runLatch 0 .mxe jobA (at0 0 2048) 256 w (absAddr 0 0 2048)) :=
  ⟨by decide, ready_of (by decide +kernel), rfl, by decide, by decide, fun w => plain_of (by decide +kernel) _ w,
    fun w => plain_of (by decide +kernel) _ w⟩
theorem test_mlw_reaches_vectors_after_six : let mx := ((after (exec (.mlw 0 0 (BitVec.ofNat 48 (0 + 1 * 2 ^ 4))) runLatch)).core 0).mx
    (mx.entry 0 6).row 0 4 = [2, 2, 2, 2] ∧ (mx.entry 0 5).row 0 4 = [0, 0, 0, 0] := by decide +kernel

/-- Latch entry 0 holds twos for DPU 0; a vector of threes lies in the activation memory. -/
def runMul (cfg : MCfg) (accs rows : List Nat) : State :=
  { (withA 2 (at0 1 0) (runMx cfg accs rows)).updCore 0 fun k =>
      { k with mx := { k.mx with latch := [(0, { base := { Latch.zero with rows := 8, elems := List.replicate 64 2 }, pend := [] })] } } with
    mem := runCells (absAddr 1 0 0) (List.replicate 64 3) }
/-- MMUL of one vector at A2 into accumulator 1, opening it. -/
def mmulW : BitVec 48 := BitVec.ofNat 48 (1 * 2 ^ 2 + 2 ^ 4 + 2 * 2 ^ 5)
theorem witness_mmul : legalEng 0x43 0 mmulW = true ∧ Ready (runMul cfgA [] []) 0 .mxe jobA ∧ NoClaims (runMul cfgA [] []) 0 ∧
    (runMul cfgA [] []).bobs jobA = [] ∧ (∀ w, Plain (runMul cfgA [] []) 0 .mxe jobA (at0 1 0) 64 w (absAddr 1 0 0)) ∧
    (operand 0 (List.replicate 64 3)).isSome = true ∧ (operand 0 (List.replicate 64 2)).isSome = true ∧
    (Acc.zero.takeAll cfgA.lsum [mkBlock (List.replicate 32 2, some 0) (List.replicate 32 3, some 0) 0]).2 = [] :=
  ⟨by decide, ready_of (by decide +kernel), rfl, by decide, fun w => plain_of (by decide +kernel) _ w, by decide +kernel, by decide +kernel,
    by decide +kernel⟩
/-- 64 products of 2 and 3 are 384, once the vector has met the array. -/
theorem test_mmul_accumulates :
    let t := (after (exec (.mmul 0 0 mmulW) (runMul cfgA [] []))).vectors 0 100
    AMap.get Acc.zero (t.core 0).mx.acc (accKey 0 1) = { num := 384, exp := 0, emin := some 0, emax := some 0, terms := 64, loaded := none } ∧
      (t.core 0).mx.accOpen = [1] := by decide +kernel
theorem witness_mmul_psm : legalEng 0x43 7 (BitVec.ofNat 48 (2 ^ 4 + 2 * 2 ^ 5)) = true ∧
    PsmRows (withA 0 (at0 2 1024) (runMul { cfgA with psm := true } [] [])) 0 jobA (at0 2 1024) 8 [1, 2, 3, 4, 5, 6, 7, 8] :=
  ⟨by decide, by decide, by decide, by decide, ⟨_, rfl⟩, by decide, by decide +kernel⟩

/-- The span of R36: exponents 0 and 63 pass, 0 and 64 do not; a block of zero products leaves Emin and Emax. -/
theorem test_scale_span_boundary :
    let b := fun (e : Int) => ({ live := true, sum := 1, e := e } : Block)
    (Acc.zero.takeAll 0 [b 0, b 63]).2 = [] ∧ (Acc.zero.takeAll 0 [b 0, b 64]).2 = [(.scaleSpan, 0x01)] ∧
      (Acc.zero.takeAll 0 [b 64, b 0]).2 = [(.scaleSpan, 0x01)] ∧ (Acc.zero.take 0 { live := false, sum := 0, e := 99 }).1.emin = none := by
  decide +kernel
theorem witness_mkblock_exponents : (mkBlock ([2], some 1) ([3], some 2) 4) = { live := true, sum := 6, e := 7 } := by decide

/-- MLDL of one long value into accumulator 0, MDRN of accumulator 0 to FP32, MDRNL of it; PSM drains of row 1. -/
def runDrain (psm : Bool) : State :=
  withA 1 (at0 2 1024) (withA 0 (at0 1 0) ((runMx { cfgA with psm := psm } [0] [1]).updCore 0 fun k =>
    { k with mx := { k.mx with dcfg := { DCfg.reset with fmt := 8 }, acc := [(0, { Acc.zero with num := 6, emin := some 0, emax := some 0, terms := 64 })] } }))
theorem witness_drain : legalEng 0x44 1 1 = true ∧ legalEng 0x45 1 0 = true ∧ legalEng 0x46 1 1 = true ∧ legalEng 0x46 0 (BitVec.ofNat 48 (1 * 2 ^ 20)) = true ∧
    legalEng 0x45 0 (BitVec.ofNat 48 (1 * 2 ^ 9)) = true ∧ Ready (runDrain false) 0 .mxe jobA ∧ Ready (runDrain true) 0 .mxe jobA ∧
    NoClaims (runDrain true) 0 ∧ (runDrain false).bobs jobA = [] ∧ (∀ e < 8, ∀ w, Plain (runDrain false) 0 .mxe jobA (rowAddr 0 1 e) 32 w (absAddr 2 0 (1024 + 32 * e))) ∧
    (∀ w, Plain (runDrain false) 0 .mxe jobA (rowAddr 0 1 0) 256 w (absAddr 2 0 1024)) ∧
    (∀ w, Plain (runDrain false) 0 .mxe jobA (at0 1 0) 32 w (absAddr 1 0 0)) ∧ PsmRows (runDrain true) 0 jobA (at0 2 1024) 1 [1] ∧
    longOf 0 0 { Acc.zero with num := 6, emin := some 0, emax := some 0, terms := 64 } = some 6 := by
  have h : ∀ e < 8, plainB (runDrain false) 0 jobA (rowAddr 0 1 e) 32 (absAddr 2 0 (1024 + 32 * e)) = true := by decide +kernel
  exact ⟨by decide, by decide, by decide, by decide, by decide, ready_of (by decide +kernel), ready_of (by decide +kernel), rfl, by decide,
    fun e he w => plain_of (h e he) _ w, fun w => plain_of (by decide +kernel) _ w, fun w => plain_of (by decide +kernel) _ w,
    ⟨by decide, by decide, by decide, ⟨_, rfl⟩, by decide, by decide +kernel⟩, by decide +kernel⟩
/-- 6 is 0x40C00000 in binary32. -/
theorem test_mdrn : (after (exec (.mdrn 0 1 0) (runDrain false))).readNow 0 (absAddr 1 0 0) 4 = [0, 0, 0xC0, 0x40] := by decide +kernel
theorem test_mdrnl : ((after (exec (.mdrnl 0 1 1) (runDrain false))).readNow 0 (absAddr 2 0 1024) 28) =
    [6] ++ List.replicate 23 0 ++ [64, 0, 0, 0] := by decide +kernel
theorem test_mldl : AMap.get Acc.zero ((after (exec (.mldl 0 1 1) { runDrain false with mem := [(absAddr 2 0 1024, 9)] })).core 0).mx.acc (accKey 0 0) =
    { num := 9, exp := 0, emin := some 0, emax := some 0, terms := 0, loaded := some 0 } := by decide +kernel

/-! ### Move instructions -/

/-- Rows of words 0, 1, 2, … at the start of core 0's activation memory, 1.0 at offset 65,536; A0 names the first, A1
offset 131,072, A2 offset 196,608 and A4 the row of ones; S1 is a pitch of one row. -/
def runTxe : State :=
  { withA 4 (at0 1 65536) (withA 2 (at0 1 196608) (withA 1 (at0 1 131072) (withA 0 (at0 1 0) (withS 1 256 run)))) with
    mem := runCells (absAddr 1 0 0) ((List.range 64).map fun i => BitVec.ofNat 8 (i + 1)) ++
      [(absAddr 1 0 65538, 0x80), (absAddr 1 0 65539, 0x3F)] }
/-- TTILE of h × v words in a mode, both pitches in S1. -/
def ttileW (h v mode : Nat) : BitVec 48 :=
  BitVec.ofNat 48 (16 + (h - 1) * 2 ^ 8 + (v - 1) * 2 ^ 14 + mode * 2 ^ 20 + 2 ^ 22 + 2 ^ 27)
theorem witness_local_moves : Ready runTxe 0 .txe jobA ∧ NoClaims runTxe 0 ∧ NoWrites runTxe ∧ runTxe.ecc = [] ∧ runTxe.bobs jobA = [] ∧
    legalEng 0x60 0 16 = true ∧ legalEng 0x62 0 16 = true ∧ legalEng 0x62 0 (BitVec.ofNat 48 (16 + 2 ^ 16)) = true ∧
    (∀ w, Plain runTxe 0 .txe jobA (at0 1 0) 256 w (absAddr 1 0 0)) ∧ (∀ w, Plain runTxe 0 .txe jobA (at0 1 131072) 256 w (absAddr 1 0 131072)) :=
  ⟨ready_of (by decide +kernel), rfl, no_writes_of (by decide +kernel), rfl, by decide, by decide, by decide, by decide,
    fun w => plain_of (by decide +kernel) _ w, fun w => plain_of (by decide +kernel) _ w⟩
/-- A tile of 64 × 64 words in every transposing mode. -/
theorem witness_tile : (∀ mode < 4, legalEng 0x61 0 (ttileW 64 64 mode) = true ∧ fld (ttileW 64 64 mode) 20 2 = mode) ∧
    (∀ w, ∀ r : Nat, r < 64 → Plain runTxe 0 .txe jobA (addA (at0 1 0) (256 * (r : Int))) 256 w (absAddr 1 0 (256 * r))) ∧
    (∀ w, ∀ r : Nat, r < 64 → ∀ i : Nat, i < 64 → Plain runTxe 0 .txe jobA (plus (addA (at0 1 0) (256 * (r : Int))) (4 * i)) 4 w (absAddr 1 0 (256 * r + 4 * i))) ∧
    ∀ w, ∀ r : Nat, r < 64 → Plain runTxe 0 .txe jobA (addA (at0 1 131072) (256 * (r : Int))) 256 w (absAddr 1 0 (131072 + 256 * r)) := by
  have h1 : ∀ r : Nat, r < 64 → plainB runTxe 0 jobA (addA (at0 1 0) (256 * (r : Int))) 256 (absAddr 1 0 (256 * r)) = true := by decide +kernel
  have h2 : ∀ r : Nat, r < 64 → ∀ i : Nat, i < 64 → plainB runTxe 0 jobA (plus (addA (at0 1 0) (256 * (r : Int))) (4 * i)) 4 (absAddr 1 0 (256 * r + 4 * i)) = true := by
    decide +kernel
  have h3 : ∀ r : Nat, r < 64 → plainB runTxe 0 jobA (addA (at0 1 131072) (256 * (r : Int))) 256 (absAddr 1 0 (131072 + 256 * r)) = true := by decide +kernel
  exact ⟨by decide +kernel, fun w r h => plain_of (h1 r h) _ w, fun w r h i hi => plain_of (h2 r h i hi) _ w, fun w r h => plain_of (h3 r h) _ w⟩
theorem test_tcpy_copies : ((after (exec (.tcpy 0 0 16) runTxe)).readNow 0 (absAddr 1 0 131072) 4) = [1, 2, 3, 4] := by decide +kernel
/-- The tile's columns become rows. -/
theorem test_ttile_transposes : let t := after (exec (.ttile 0 0 (ttileW 2 2 1)) runTxe)
    t.readNow 0 (absAddr 1 0 131072) 8 = [1, 2, 3, 4, 0, 0, 0, 0] ∧ t.readNow 0 (absAddr 1 0 131328) 8 = [5, 6, 7, 8, 0, 0, 0, 0] := by
  decide +kernel
/-- Bytes 0, 4, 8 and 12 of a group of 16 come together. -/
theorem test_tshuf_bytes : ((after (exec (.tshuf 0 0 16) runTxe)).readNow 0 (absAddr 1 0 131072) 8) = [1, 5, 9, 13, 2, 6, 10, 14] := by
  decide +kernel
/-- TCVT of a row of FP32 to BF16 from A4 to A1; TQNT of one with codes to A2. -/
def tcvtW : BitVec 48 := BitVec.ofNat 48 (4 + 16 + 8 * 2 ^ 16 + 7 * 2 ^ 20)
/-- TQNT of a row of FP32 from A4 to E4M3 at A1, its codes at A2. -/
def tqntW : BitVec 48 := BitVec.ofNat 48 (4 + 16 + 8 * 2 ^ 16 + 2 * 2 ^ 34)
theorem witness_converting_moves : legalEng 0x63 0 tcvtW = true ∧ legalEng 0x64 0 tqntW = true ∧ runTxe.fuses.grade = .f ∧
    (∀ w, Plain runTxe 0 .txe jobA (at0 1 65536) 256 w (absAddr 1 0 65536)) ∧ (∀ w, Plain runTxe 0 .txe jobA (at0 1 131072) 128 w (absAddr 1 0 131072)) ∧
    (∀ w, Plain runTxe 0 .txe jobA (at0 1 131072) 64 w (absAddr 1 0 131072)) ∧ (∀ w, Plain runTxe 0 .txe jobA (at0 1 196608) 4 w (absAddr 1 0 196608)) ∧
    (∀ v ∈ [(0 : Nat), 0x3F800000], (cvtElem 8 7 0 0 0 0 v).isSome = true ∧ decodeElem 8 v ≠ .nan ∧
      (convertTo 0 (moveRnd 0 0 0) 0 (scaled (blockScale 0 none [decodeElem 8 v]) (decodeElem 8 v))).isSome = true) :=
  ⟨by decide, by decide, rfl, fun w => plain_of (by decide +kernel) _ w, fun w => plain_of (by decide +kernel) _ w,
    fun w => plain_of (by decide +kernel) _ w, fun w => plain_of (by decide +kernel) _ w, by decide +kernel⟩
/-- 1.0 is 0x3F80 in BF16. -/
theorem test_tcvt : ((after (exec (.tcvt 0 0 tcvtW) runTxe)).readNow 0 (absAddr 1 0 131072) 4) = [0x80, 0x3F, 0, 0] := by decide +kernel

/-- As at0, for core 1. -/
def at1 (space off : Nat) : MAddr := BitVec.ofNat 48 (absAddr space 1 off)
/-- TNBR and TCPY to core 1, TMRD over cores 0 and 1: A0 names two rows of core 0, A1 the same rows of core 1. -/
def runNbr : State := { withA 1 (at1 1 0) (withA 0 (at0 1 0) run) with mem := [(absAddr 1 0 0, 0x5A)] }
/-- A weft flit of a type between two modules, with a payload. -/
def flitA (k : WType) (src dst : BitVec 12) (p : BitVec 512) : WeftFlit :=
  { kind := k, tag := 0, src := src, dst := dst, attempt := 0, hops := 0, srcNode := 0, payload := p }
/-- The same in an injection queue. -/
def outA (f : WeftFlit) : OutFlit := { flit := f, start := 0, eng := .txe, op := 0, localAddr := none }
/-- As runNbr, with a full injection queue. -/
def runFull : State := runNbr.updCore 0 fun k => { k with injq := List.replicate 16 (outA (flitA .write 0 0 0)) }
theorem witness_mesh_moves : Ready runNbr 0 .txe jobA ∧ NoClaims runNbr 0 ∧ NoClaims runNbr 1 ∧ NoWrites runNbr ∧ runNbr.scheduled = true ∧
    (∀ r, runNbr.serving r = true) ∧ runNbr.warpInFlight = [] ∧ (runNbr.core 0).staged = [] ∧ (runNbr.engine 0 .txe).wait = none ∧ (runNbr.core 0).merge = [] ∧ neighbour 0 1 = some 1 ∧
    legalEng 0x65 0 (BitVec.ofNat 48 (16 + 2 ^ 8 + 2 ^ 18)) = true ∧ legalEng 0x60 0 16 = true ∧ legalEng 0x60 0 (BitVec.ofNat 48 (16 + 2 ^ 16)) = true ∧
    legalEng 0x66 0 (BitVec.ofNat 48 (1 * 2 ^ 16)) = true ∧ (∀ w, Plain runNbr 0 .txe jobA (at0 1 0) 512 w (absAddr 1 0 0)) ∧
    (∀ w, Plain runNbr 0 .txe jobA (at0 1 0) 256 w (absAddr 1 0 0)) ∧ runNbr.resolve 0 (at1 1 0) 512 = .ok (1, absAddr 1 1 0) ∧
    rectangle 0 2 1 = [0, 1] ∧ runNbr.weftBusy 0 = false ∧ runFull.weftBusy 0 = true ∧ Ready runFull 0 .txe jobA :=
  ⟨ready_of (by decide +kernel), rfl, rfl, no_writes_of (by decide +kernel), rfl, serving_of (by decide +kernel), by decide +kernel, rfl, rfl, rfl,
    by decide, by decide, by decide, by decide, by decide, fun w => plain_of (by decide +kernel) _ w, fun w => plain_of (by decide +kernel) _ w,
    resolve_of (by decide +kernel), by decide +kernel, by decide +kernel, by decide +kernel, ready_of (by decide +kernel)⟩
theorem test_tnbr : ((after (exec (.tnbr 0 0 (BitVec.ofNat 48 (16 + 2 ^ 8 + 2 ^ 18))) runNbr)).readNow 1 (absAddr 1 1 0) 2) = [0x5A, 0] := by
  decide +kernel
/-- Four flits to core 1, the first due in c + 29 on the same die. -/
theorem test_warp_tcpy_flits : ((after (exec (.tcpy 0 0 16) runNbr)).core 1).hold.map (fun f => (f.addr, f.due)) =
    [(at1 1 0, 29), (at1 1 64, 30), (at1 1 128, 31), (at1 1 192, 32)] := by decide +kernel
theorem test_weft_tcpy_flits : ((after (exec (.tcpy 0 0 (BitVec.ofNat 48 (16 + 2 ^ 16))) runNbr)).core 0).staged.length = 5 := by decide +kernel
theorem test_tmrd_rectangle : let t := after (exec (.tmrd 0 0 (BitVec.ofNat 48 (1 * 2 ^ 16))) (withA 1 (at0 1 256) runNbr))
    (t.core 0).hold.length = 4 ∧ (t.core 1).hold.length = 4 := by decide +kernel

/-! ### Gather instructions -/

/-- Index array [1, 0xFFFF_FFFF] at A0, table at A1 whose row 1 begins with 0x77, destination at A2; keys 1.0 and 2.0 at A4. -/
def runGat : State :=
  { withA 4 (at0 1 512) (withA 2 (at0 1 196608) (withA 1 (at0 1 131072) (withA 0 (at0 1 0) (withS 1 2 run)))) with
    mem := [(absAddr 1 0 0, 1), (absAddr 1 0 4, 0xFF), (absAddr 1 0 5, 0xFF), (absAddr 1 0 6, 0xFF), (absAddr 1 0 7, 0xFF),
      (absAddr 1 0 514, 0x80), (absAddr 1 0 515, 0x3F), (absAddr 1 0 519, 0x40), (absAddr 1 0 131136, 0x77)] }
/-- GROWS of two rows of 64 bytes with the limit in S1. -/
def growsW : BitVec 48 := BitVec.ofNat 48 (16 + 2 * 2 ^ 8 + 1 * 2 ^ 12 + 1 * 2 ^ 29)
/-- GTOPK of the best of two keys at A4, indices from S1, key to A1 and index to A2. -/
def gtopkW : BitVec 48 := BitVec.ofNat 48 (4 + 16 + 2 * 2 ^ 8 + 1 * 2 ^ 12 + 1 * 2 ^ 32)
theorem witness_gather : Ready runGat 0 .gxe jobA ∧ NoClaims runGat 0 ∧ NoWrites runGat ∧ runGat.ecc = [] ∧ runGat.bobs jobA = [] ∧
    legalEng 0x70 0 growsW = true ∧ legalEng 0x71 0 gtopkW = true ∧ (runGat.sreg 0 .gxe 1 0).toNat = 2 ∧
    (∀ w, Plain runGat 0 .gxe jobA (at0 1 0) 8 w (absAddr 1 0 0)) ∧ (∀ w, Plain runGat 0 .gxe jobA (at0 1 512) 8 w (absAddr 1 0 512)) ∧
    (∀ w, Plain runGat 0 .gxe jobA (at0 1 131136) 64 w (absAddr 1 0 131136)) ∧ (∀ w, Plain runGat 0 .gxe jobA (at0 1 196608) 128 w (absAddr 1 0 196608)) ∧
    (∀ w, Plain runGat 0 .gxe jobA (at0 1 196608) 64 w (absAddr 1 0 196608)) ∧ (∀ w, Plain runGat 0 .gxe jobA (at0 1 196672) 64 w (absAddr 1 0 196672)) ∧
    (∀ w, Plain runGat 0 .gxe jobA (at0 1 131072) 4 w (absAddr 1 0 131072)) ∧ (∀ w, Plain runGat 0 .gxe jobA (at0 1 196608) 4 w (absAddr 1 0 196608)) :=
  ⟨ready_of (by decide +kernel), rfl, no_writes_of (by decide +kernel), rfl, by decide, by decide, by decide, by decide,
    fun w => plain_of (by decide +kernel) _ w, fun w => plain_of (by decide +kernel) _ w, fun w => plain_of (by decide +kernel) _ w,
    fun w => plain_of (by decide +kernel) _ w, fun w => plain_of (by decide +kernel) _ w, fun w => plain_of (by decide +kernel) _ w,
    fun w => plain_of (by decide +kernel) _ w, fun w => plain_of (by decide +kernel) _ w⟩
theorem test_grows : let t := after (exec (.grows 0 0 growsW) runGat)
    t.readNow 0 (absAddr 1 0 196608) 1 = [0x77] ∧ t.readNow 0 (absAddr 1 0 196672) 1 = [0] := by decide +kernel
theorem test_gtopk : let t := after (exec (.gtopk 0 0 gtopkW) runGat)
    t.readNow 0 (absAddr 1 0 131072) 4 = [0, 0, 0, 0x40] ∧ leNat (t.readNow 0 (absAddr 1 0 196608) 4) = 3 := by decide +kernel

/-- Bobbin 0 of virtual core 0: 64 bytes at 262,144 of the activation memory, filled by the gather engine, eight entries. -/
def bobA : BobbinEntry := { vcore := 0, number := 0, desc := BitVec.ofNat 128 (262144 + 2 ^ 32 + 1 * 2 ^ 40 + 3 * 2 ^ 56 + 1 * 2 ^ 59 + 8 * 2 ^ 80) }
/-- The pass with that bobbin: choices at A0, gates at A1, counts to A2. -/
def runDisp : State := { runGat with fns := [(0, { Func.reset0 with exe := some { loadA with exe := { exeA with bobbins := [bobA] } } })] }
/-- GDISP of one token with two choices to one expert whose number is in S2. -/
def gdispW : BitVec 48 := BitVec.ofNat 48 (16 + 2 * 2 ^ 8 + 1 * 2 ^ 24 + 2 * 2 ^ 33)
theorem witness_gdisp : legalEng 0x72 0 gdispW = true ∧ Ready runDisp 0 .gxe jobA ∧ (∃ b, runDisp.bobs jobA = [b] ∧ b.num = 0 ∧ b.producer = 3 ∧ b.size = 64 ∧
      b.capacity = 8 ∧ runDisp.resolve 0 (BitVec.ofNat 48 (absAddr b.space 0 b.base)) b.size = .ok (0, absAddr 1 0 262144)) ∧
    (AMap.get Bobbin.reset (runDisp.core 0).bobbins 0) = Bobbin.reset :=
  ⟨by decide, ready_of (by decide +kernel), ⟨Bob.of 0 bobA.desc, by decide +kernel, by decide, by decide, by decide, by decide, by rfl⟩, by decide⟩
theorem test_gdisp_counts_and_fills : let t := after (exec (.gdisp 0 0 gdispW) (withS 2 1 runDisp))
    leNat (t.readNow 0 (absAddr 1 0 196608) 4) = 1 ∧ (AMap.get Bobbin.reset (t.core 0).bobbins 0).state = .full := by decide +kernel

/-- R70, R92: GDISP waits for its bobbin until cycle 5 and reads S2, whose result falls due in cycle 3, only then. -/
theorem test_operands_at_issue : let b : Bobbin := { Bobbin.reset with state := .empty, was := .full, trans := [(5, .empty)] }
    let s := { runDisp with fns := [(0, { Func.reset0 with exe := some { loadA with exe := { exeA with
      bobbins := [{ bobA with desc := bobA.desc + BitVec.ofNat 128 (8 * 2 ^ 64) }] } } })] }
    let t := after (exec (.gdisp 0 0 gdispW) ((s.updCore 0 fun k => { k with bobbins := [(0, b)] }).updEngine 0 .gxe fun q =>
      { q with sregs := AMap.set TReg.zero q.sregs 2 { base := 0, pend := [(3, 1)] } }))
    leNat (t.readNow 0 (absAddr 1 0 196608) 4) = 1 ∧ (t.engine 0 .gxe).next = 6 := by decide +kernel

/-! ### Fabric instructions -/

/-- A send entry of virtual core 0, a receive entry of it and a receive entry of virtual core 1. -/
def runWarps : State := runWith { exeA with warps := [{ warpA with kind := 0x01 }, warpA, { warpA with vcore := 1 }] }
theorem witness_warp_entries : Ready runWarps 0 .fxe jobA ∧ legalEng 0x78 0 0 = true ∧ legalEng 0x78 0 1 = true ∧ legalEng 0x79 0 1 = true ∧
    legalEng 0x79 0 2 = true ∧ runWarps.warpInFlight = [] ∧ runWarps.dyeRate = 0 :=
  ⟨ready_of (by decide +kernel), by decide, by decide, by decide, by decide, by decide +kernel, by decide⟩
theorem test_fsend_arms : ((after (exec (.fsend 0 0 0) runWarps)).core 0).armed = [{ entry := 0, send := true, bobbin := 0 }] := by decide +kernel
theorem test_fsend_of_receive_entry : faults (after (exec (.fsend 0 0 1) runWarps)) 0 = [(.controlParity, 0x62)] := by decide +kernel
theorem test_frecv_arms : ((after (exec (.frecv 0 0 1) runWarps)).core 0).armed = [{ entry := 1, send := false, bobbin := 0 }] := by decide +kernel

/-- Groups of this core alone and of this core with virtual core 1; exact and canonical trees of both kinds. -/
def exeRed : Exe :=
  { exeA with
    colls := [{ counter := 0xFF, group := [(0, 0)], op := 0, narrow := false, subtrees := [] },
      { counter := 0xFF, group := [(0, 0), (0, 1)], op := 0, narrow := false, subtrees := [] }]
    reds := [{ kind := 1, counter := 0xFF, n := 1, nodes := [{ vmodule := 0, vcore := 0, first := 0, len := 1 }], root := 0, base := 0 },
      { kind := 1, counter := 0xFF, n := 2, nodes := [{ vmodule := 0, vcore := 0, first := 0, len := 1 }, { vmodule := 0, vcore := 1, first := 1, len := 1 }], root := 0, base := 0 },
      { kind := 2, counter := 0xFF, n := 1, nodes := [{ vmodule := 0, vcore := 0, first := 0, len := 1 }], root := 0, base := 0 },
      { kind := 2, counter := 0xFF, n := 2, nodes := [{ vmodule := 0, vcore := 0, first := 0, len := 1 }, { vmodule := 0, vcore := 1, first := 1, len := 1 }], root := 0, base := 0 }] }
/-- Contributions at A0 (activation) and A2 (partial sums), results at A1 and A3. -/
def runRed : State :=
  { withA 3 (at0 2 4096) (withA 2 (at0 2 0) (withA 1 (at0 1 512) (withA 0 (at0 1 0) (runWith exeRed)))) with
    mem := [(absAddr 1 0 0, 0x21), (absAddr 2 0 0, 9)] }
theorem witness_reductions : Ready runRed 0 .fxe jobA ∧ NoClaims runRed 0 ∧ NoWrites runRed ∧ runRed.ecc = [] ∧ runRed.bobs jobA = [] ∧
    (∀ b, (runRed.core b).redBuf = []) ∧ runRed.coll 0 0 = none ∧ runRed.coll 0 1 = none ∧ (∀ n < 4, runRed.red 0 n = none) ∧
    (∀ n < 2, legalEng 0x7A 0 (BitVec.ofNat 48 (16 + n * 2 ^ 8)) = true) ∧ (∀ n < 2, legalEng 0x7B 0 (BitVec.ofNat 48 (2 + 3 * 2 ^ 4 + n * 2 ^ 22)) = true) ∧
    (∀ n < 4, legalEng 0x7C 0 (BitVec.ofNat 48 (16 + n * 2 ^ 22)) = true) ∧
    (∀ w, Plain runRed 0 .fxe jobA (at0 1 0) 16 w (absAddr 1 0 0)) ∧ (∀ w, Plain runRed 0 .fxe jobA (at0 1 512) 16 w (absAddr 1 0 512)) ∧
    (∀ w, Plain runRed 0 .fxe jobA (at0 2 0) 32 w (absAddr 2 0 0)) ∧ (∀ w, Plain runRed 0 .fxe jobA (at0 2 4096) 32 w (absAddr 2 0 4096)) ∧
    (∀ w, Plain runRed 0 .fxe jobA (at0 1 0) 4 w (absAddr 1 0 0)) ∧ (∀ w, Plain runRed 0 .fxe jobA (at0 1 512) 4 w (absAddr 1 0 512)) :=
  ⟨ready_of (by decide +kernel), rfl, no_writes_of (by decide +kernel), rfl, by decide,
    fun b => List.isEmpty_iff.mp (every_core (p := fun k => k.redBuf.isEmpty) rfl (by decide +kernel) b), by decide, by decide, by decide, by decide, by decide,
    by decide, fun w => plain_of (by decide +kernel) _ w, fun w => plain_of (by decide +kernel) _ w, fun w => plain_of (by decide +kernel) _ w,
    fun w => plain_of (by decide +kernel) _ w, fun w => plain_of (by decide +kernel) _ w, fun w => plain_of (by decide +kernel) _ w⟩
theorem test_fscol_of_one : ((after (exec (.fscol 0 0 16) runRed)).readNow 0 (absAddr 1 0 512) 2) = [0x21, 0] := by decide +kernel
theorem test_fscol_keeps : ((after (exec (.fscol 0 0 (BitVec.ofNat 48 (16 + 2 ^ 8))) runRed)).coll 0 1).map (fun k => k.own) = some (some 0x21) := by decide +kernel
theorem test_frdx_of_one : ((after (exec (.frdx 0 0 (BitVec.ofNat 48 (2 + 3 * 2 ^ 4))) runRed)).readNow 0 (absAddr 2 0 4096) 2) = [9, 0] := by decide +kernel
theorem test_frdc_of_one : ((after (exec (.frdc 0 0 (BitVec.ofNat 48 (16 + 2 * 2 ^ 22))) runRed)).readNow 0 (absAddr 1 0 512) 2) = [0x21, 0] := by decide +kernel

/-- Local A0 at the start of the activation memory, remote A1 in core 1 of module 1. -/
def runWeft : State := withA 1 (at1 1 0) (withA 0 (at0 1 0) run)
/-- Module 1, one flit, counter 5. -/
def weftW : BitVec 48 := BitVec.ofNat 48 (16 + 1 * 2 ^ 8 + 5 * 2 ^ 32)
theorem witness_weft_instructions : Ready runWeft 0 .fxe jobA ∧ NoClaims runWeft 0 ∧ runWeft.weftBusy 0 = false ∧ runFull.weftBusy 0 = true ∧
    Ready runFull 0 .fxe jobA ∧ legalEng 0x7D 0 weftW = true ∧ legalEng 0x7E 0 weftW = true ∧ legalEng 0x7F 2 weftW = true ∧ runWeft.moduleId = 0 ∧
    (∀ w, Plain runWeft 0 .fxe jobA (at0 1 0) 56 w (absAddr 1 0 0)) ∧ (∀ w, Plain runWeft 0 .fxe jobA (at0 1 0) 64 w (absAddr 1 0 0)) ∧
    (∀ w, Plain runWeft 0 .fxe jobA (at0 1 0) 24 w (absAddr 1 0 0)) ∧ (∀ w, Plain runWeft 0 .fxe jobA (at0 1 0) 16 w (absAddr 1 0 0)) :=
  ⟨ready_of (by decide +kernel), rfl, by decide, by decide +kernel, ready_of (by decide +kernel), by decide, by decide, by decide, by decide,
    fun w => plain_of (by decide +kernel) _ w, fun w => plain_of (by decide +kernel) _ w, fun w => plain_of (by decide +kernel) _ w,
    fun w => plain_of (by decide +kernel) _ w⟩
/-- The request flits of the three instructions. -/
def sent (i : Instr) : List (WType × BitVec 12) := (((after (exec i runWeft)).core 0).injq.map fun o => (o.flit.kind, o.flit.dst))
theorem test_fwput_fwget_fwatm : sent (.fwput 0 0 weftW) = [(.write, 1)] ∧ sent (.fwget 0 0 weftW) = [(.readReq, 1)] ∧
    sent (.fwatm 0 2 weftW) = [(.atomic, 1)] := by decide +kernel

/-! ### Frames -/

/-- A register form and a storing form, each from a state that meets the premises of the frame statements. -/
theorem witness_frames : run.inv = true ∧ (runWord.engine 0 .vxe).dues (runWord.head 0 .vxe jobA).t = [] ∧ (∀ d, (run.reporter d).length < 16) ∧ (after (exec (.sset 0 .vxe 3 1) run)).chk = run.chk ∧
    goes (exec (.sset 0 .vxe 3 1) run) = true ∧ goes (exec (.vadd 0 vw) run) = true ∧
    goes (exec (.sst 0 .vxe 0 (BitVec.ofNat 48 (1 + 3 * 2 ^ 5))) runWord) = true ∧
    (after (exec (.sst 0 .vxe 0 (BitVec.ofNat 48 (1 + 3 * 2 ^ 5))) runWord)).chk = runWord.chk ∧ runWord.resolve 0 (at0 1 8) 4 = .ok (0, absAddr 1 0 8) :=
  ⟨by decide +kernel, by decide +kernel, fun _ => (Nat.succ_pos 15 : 0 < 16), by decide +kernel, by decide +kernel, by decide +kernel, by decide +kernel, by decide +kernel,
    resolve_of (by decide +kernel)⟩
theorem test_sst_frame : let t := after (exec (.sst 0 .vxe 0 (BitVec.ofNat 48 (1 + 3 * 2 ^ 5))) (withS 1 0x11223344 runWord))
    t.readNow 0 (absAddr 1 0 7) 6 = [0, 0x44, 0x33, 0x22, 0x11, 0] := by decide +kernel

/-! ### Core events -/

/-- A PASS_SUBMIT's pass on two engines that wait: the vector engine for counter 4, the move engine for bobbin 0. -/
def runWait : State := ((run.updEngine 0 .vxe fun q => { q with wait := some (.counter, 0) }).updEngine 0 .txe fun q =>
  { q with wait := some (.bobbin 0 0 true, 0) })
/-- An AVM1536-S has no gather engine. -/
def runS : State := { run with fuses := { run.fuses with grade := .s } }
theorem witness_core_faults : (∀ d, (runWait.reporter d).length < 16) ∧ (runWait.engine 0 .vxe).wait = some (.counter, 0) ∧
    (runWait.engine 0 .txe).wait = some (.bobbin 0 0 true, 0) ∧ runWait.pass 7 = some passA ∧ (runWait.core 0).job = some jobA ∧
    runS.present .gxe = false ∧ runS.pass 7 = some passA :=
  ⟨fun _ => (Nat.succ_pos 15 : 0 < 16), by decide, by decide, by decide, by decide, by decide, by decide⟩
theorem test_absent_engine : let t := after (exec (.absentEngineDelivery 0 .gxe 0) runS)
    faults t 0 = [(.absentEngine, 0x02)] ∧ (t.core 0).job = none := by decide +kernel
theorem test_stall_limit : let t := after (exec (.stallLimitExpiry 0 .vxe) runWait)
    faults t 0 = [(.queueStall, 0x01)] ∧ (t.core 0).job = none := by decide +kernel
theorem test_grace_window : faults (after (exec (.graceWindowExpiry 0 .txe) runWait)) 0 = [(.bobbinUnderrun, 0x01)] := by decide +kernel

/-- Pending releases of the vector engine: to counter 4 of core 0, or to counter 4 of core 1. -/
def relA (a : MAddr) (cover : List Nat) : PendRelease := { module := 0, addr := a, inc := 2, scope := .die, signal := false, cover := cover, issued := 0, ready := 0 }
/-- The state with that release and open operation 9. -/
def runRel (a : MAddr) (cover : List Nat) : State :=
  run.updEngine 0 .vxe fun q => { q with releases := [relA a cover], openOps := [9] }
theorem witness_release_apply : ((runRel (at0 4 32) [9]).engine 0 .vxe).releases = [relA (at0 4 32) [9]] ∧
    ((runRel (at0 4 32) []).engine 0 .vxe).releases = [relA (at0 4 32) []] ∧ ((runRel (at1 4 32) []).engine 0 .vxe).releases = [relA (at1 4 32) []] ∧
    aCore (at0 4 32) = 0 ∧ aCore (at1 4 32) = 1 ∧ (runRel (at1 4 32) []).weftBusy 0 = false ∧ run.moduleId = 0 ∧
    ((runRel (at0 4 32) []).counter 0 4).count + 2 ≤ 65535 := by decide +kernel
theorem test_release_apply_own : (((after (exec (.releaseApply 0 .vxe) (runRel (at0 4 32) []))).counter 0 4).view 2).count = 2 := by decide +kernel
theorem test_release_apply_remote : (((after (exec (.releaseApply 0 .vxe) (runRel (at1 4 32) []))).core 0).injq.map fun o => (o.flit.kind, flitAddr o.flit)) =
    [(.increment, at1 4 32)] := by decide +kernel

/-- Every engine of core 0 stands at its barrier. -/
def runBar (s : State) : State := s.updCore 0 fun k => k.mapEngines fun q => { q with mode := .barrier true }
/-- The pass on cores 0 and 1. -/
def run2 : State := runBar { run with fns := [(0, { Func.reset0 with exe := some { loadA with place := [(0, 0), (1, 1)] } })] }
/-- A skein of two in which this module is a leaf, its parent on port 3. -/
def planA : List MemberEntry := [{ vmodule := 0, die := 0, localIdx := 0 }, { vmodule := 1, die := 0, localIdx := 0 }]

/-- A skein of modules 0 and 1, formed; this module is a leaf with its parent on port 3, or the root with a child on port 4. -/
def skeinA (k : Skein) : Skein := { k with state := .formed, id := 9, plan := [0, 1], fn := 0 }
/-- A state in that skein, by FAB_STITCH_TREE and FAB_STITCH_CHILDREN. -/
def inSkeinA (tree children : Nat) (s : State) : State :=
  { (s.setReg 0 .fabStitchTree (BitVec.ofNat 128 tree)).setReg 0 .fabStitchChildren (BitVec.ofNat 128 children) with skein := skeinA s.skein }
/-- Leaf: parent port 3. -/
def leaf (s : State) : State := inSkeinA 3 0 s
/-- Root with a child on port 4. -/
def root (s : State) : State := inSkeinA (2 ^ 5) (2 ^ 4) s
/-- Neither: parent on port 3 and a child on port 4. -/
def inner (s : State) : State := inSkeinA 3 (2 ^ 4) s
theorem witness_core_barrier_join :
    let ok := fun (s : State) => (s.core 0).job = some jobA ∧ s.pass 7 = some passA ∧ (s.core 0).joined = false ∧ (s.core 0).atBarrier = true ∧
      s.quiet 0 7 = true ∧ (s.core 0).mx.vecs = []
    ok run2 ∧ ok (runBar run) ∧ ok (leaf (runBar run)) ∧ ok (root (runBar run)) ∧ run2.memberCores 0 = [0, 1] ∧ (runBar run).memberCores 0 = [0] ∧
      (runBar run).inSkein passA = false ∧ (leaf (runBar run)).inSkein passA = true ∧ (leaf (runBar run)).stitchRoot = false ∧
      (leaf (runBar run)).stitchChildren = [] ∧ (root (runBar run)).stitchChildren = [4] ∧ (root (runBar run)).skein.joins = [] := by decide +kernel
theorem test_core_barrier_join : ((after (exec (.coreBarrierJoin ⟨0, none⟩) run2)).core 0).joined = true ∧
    (((after (exec (.coreBarrierJoin ⟨0, none⟩) (runBar run))).pass 7).map fun p => (p.state, p.cleanKernels)) = some (.gating, 1) ∧
    (((after (exec (.coreBarrierJoin ⟨0, none⟩) (leaf (runBar run)))).port 3).msgs.map fun m => m.mtype) = [1] := by decide +kernel

/-! ### Mesh, weft and warp events -/

/-- An increment of counter 4 of core 1 waits at core 0. -/
def runInj : State := run.updCore 0 fun k => { k with staged := [outA (flitA .increment 0 0 (BitVec.ofNat 512 (absAddr 4 1 32 + 2 * 2 ^ 64)))] }
/-- The same in uniform mode. -/
def runUni : State := { runInj with scheduled := false }
theorem witness_injection : (runInj.core 0).staged ≠ [] ∧ (runInj.core 0).injq = [] ∧ runInj.serving 0 = true ∧ runInj.scheduled = true ∧ runInj.txns.length < 16384 ∧
    runInj.flitNode 0 (flitA .increment 0 0 (BitVec.ofNat 512 (absAddr 4 1 32 + 2 * 2 ^ 64))) = some 1 ∧ runInj.mayInject 0 (meshDest 1) [] 0 = true ∧ runInj.warpInFlight = [] ∧
    AMap.wf none runInj.txns = true ∧ runUni.scheduled = false ∧ 1 % 4 ≠ (0 : Nat) % 4 := by decide +kernel
theorem test_injection_takes_a_tag : let t := after (exec (.weftInjection 0 0 ⟨[], none⟩) runInj)
    t.inflight.map (fun f => f.kind) = [.increment] ∧ (t.txn 0).isSome = true ∧ (after (exec (.weftInjection 0 1 ⟨[], none⟩) runUni)).inflight = [] := by
  decide +kernel

/-- A request that has reached core 0 over the mesh, and the state that it has reached. -/
def reqA (k : WType) (a : MAddr) (p : Nat) : WeftFlit := flitA k 3 0 (BitVec.ofNat 512 (a.toNat + p * 2 ^ 64))
/-- The flit is in the mesh. -/
def got (f : WeftFlit) (s : State) : State := { s with inflight := [f] }
theorem taken_got (f : WeftFlit) (s : State) : (got f s).Taken (.mesh f) f.kind { got f s with inflight := [] } f :=
  ⟨rfl, rfl, List.mem_singleton.mpr rfl, by
    show { got f s with inflight := [] } = { got f s with inflight := [f].erase f }
    rw [List.erase_cons_head]⟩
/-- Core 0 is fenced. -/
def runFenced : State := run.updCore 0 fun k => { k with svc := .fenced }
theorem witness_weft_requests : (∀ f ∈ [reqA .write (at0 1 64) 0x55, reqA .readReq (at0 1 64) 0, reqA .atomic (at0 1 64) 1, reqA .increment (at0 4 32) 2],
      (got f run).Taken (.mesh f) f.kind { got f run with inflight := [] } f ∧ aCore (flitAddr f) = 0) ∧
    run.serving 0 = true ∧ runFenced.serving 0 = false ∧ run.ownerOf 0 = some (7, passA) ∧ run.replay = [] ∧
    run.resolve 0 (at0 1 64) 8 = .ok (0, absAddr 1 0 64) ∧ run.resolve 0 (at0 1 64) 1 = .ok (0, absAddr 1 0 64) ∧
    run.resolve 0 (at0 4 32) 8 = .ok (0, absAddr 4 0 32) := by
  refine ⟨fun f hf => ?_, by decide +kernel, by decide +kernel, by decide +kernel, rfl, resolve_of (by decide +kernel), resolve_of (by decide +kernel),
    resolve_of (by decide +kernel)⟩
  simp only [List.mem_cons, List.not_mem_nil, or_false] at hf
  rcases hf with rfl | rfl | rfl | rfl <;> exact ⟨taken_got _ _, by decide +kernel⟩
theorem test_weft_write_queues : ((after (exec (.weftWrite (.mesh (reqA .write (at0 1 64) 0x55))) (got (reqA .write (at0 1 64) 0x55) run))).core 0).queue.map
    (fun x => (x.kind, x.data)) = [(.write, [0x55])] := by decide +kernel
theorem test_weft_increment : (((after (exec (.weftCounterIncrement (.mesh (reqA .increment (at0 4 32) 2))) (got (reqA .increment (at0 4 32) 2) run))).counter 0 4).view (2 ^ 30)).count = 2 := by
  decide +kernel
theorem test_fenced_reply : (after (exec (.weftReadRequest (.mesh (reqA .readReq (at0 1 64) 0))) (got (reqA .readReq (at0 1 64) 0) runFenced))).inflight.map
    (fun f => (f.kind, f.dst)) = [(.fencedTarget, 3)] ∨
    ((after (exec (.weftReadRequest (.mesh (reqA .readReq (at0 1 64) 0))) (got (reqA .readReq (at0 1 64) 0) runFenced))).inflight = []) := by decide +kernel

/-- An access at the front of core 0's queue. -/
def runAcc (k : QKind) (f : Option WeftFlit) (data : List Byte) : State :=
  { run with mem := [(absAddr 1 0 64, 5)] }.updCore 0 fun c => { c with queue := [{ kind := k, addr := absAddr 1 0 64, data := data, len := 8, flit := f, fn := 0 }] }
theorem witness_core_queue : (∀ k ∈ [QKind.write, .read, .atomic, .hostRead, .hostWrite], let s := runAcc k (some (reqA .atomic (at0 1 64) 1)) (leBytes 8 3 ++ leBytes 8 5)
      s.inv = true ∧ s.serving 0 = true ∧ (s.core 0).injq.length < 16 ∧ eccWorst s.ecc (eccWord 1) (absAddr 1 0 64) 8 = none) := by decide +kernel
/-- ADD of 3 to 5 is 8; SWAP writes 3; CAS compares with 5 and writes 3. -/
theorem test_atomics : atomicResult 0 5 3 5 = 8 ∧ atomicResult 1 5 3 0 = 3 ∧ atomicResult 2 5 3 5 = 3 ∧ atomicResult 2 6 3 5 = 6 ∧
    atomicResult 0 (2 ^ 64 - 1) 2 0 = 1 := by decide +kernel
theorem test_access_lands : let s := runAcc .atomic (some (reqA .atomic (at0 1 64) 1)) (leBytes 8 3 ++ leBytes 8 5)
    let t := after (exec (.weftAccessLand ⟨0, 0⟩) s)
    t.readNow 0 (absAddr 1 0 64) 1 = [8] ∧ (t.core 0).injq.map (fun o => (o.flit.kind, fld o.flit.payload 0 64)) = [(.atomicReply, 5)] := by decide +kernel
/-- The state at a timebase of 2 to the power of 40 ticks. -/
def late (s : State) : State := { s with clk := { s.clk with timebase := 2 ^ 40 } }
theorem test_queue_timeout_and_expiry : ((after (exec (.coreQueueTimeout 0) (runAcc .write (some (reqA .write (at0 1 64) 1)) [1]))).core 0).queue = [] ∧
    (after (exec (.replayEntryExpiry 3 4) (late { run with replay := [{ src := 3, tag := 4, keep := false, reply := some (flitA .ack 0 3 0), at' := 0 }] }))).replay = [] := by
  decide +kernel

/-- An outstanding transaction of core 0's fabric engine with tag 0, for operation 1. -/
def txnA : Txn :=
  { core := 0, eng := .fxe, fn := 0, pass := 7, op := 1, flit := flitA .readReq 0 3 (BitVec.ofNat 512 (absAddr 1 0 64 + 7 * 2 ^ 48)), localAddr := some (at0 1 128), sent := 1, at' := 0, replied := false,
    dead := false }
/-- The module with it; its operation increments counter 5. -/
def runTxn (x : Txn) : State :=
  { run with txns := [(0, some x)], ops := [(1, some { core := 0, eng := .fxe, left := 1, far := 0, counter := some 5, dye := none })] }
/-- A reply to it. -/
def repA (k : WType) (p : Nat) : WeftFlit := flitA k 3 0 (BitVec.ofNat 512 p)
theorem witness_weft_replies : (runTxn txnA).txn 0 = some txnA ∧ (runTxn txnA).inv = true ∧
    (∀ b n, ((runTxn txnA).counter b n).count < 65535) ∧ (∀ d, ((runTxn txnA).reporter d).length < 16) ∧ AMap.get none (runTxn txnA).ops 1 ≠ none ∧
    (∀ k ∈ [WType.readReply, .atomicReply, .ack, .fencedTarget], (got (repA k 9) (runTxn txnA)).Taken (.mesh (repA k 9)) k
      { got (repA k 9) (runTxn txnA) with inflight := [] } (repA k 9)) ∧
    run.resolve 0 (at0 1 128) 8 = .ok (0, absAddr 1 0 128) ∧ (runTxn { txnA with replied := true, sent := 2 }).txn 0 = some { txnA with replied := true, sent := 2 } := by
  refine ⟨by decide +kernel, by decide +kernel, fun b n => ?_, fun _ => (Nat.succ_pos 15 : 0 < 16), by decide, fun k hk => ?_, resolve_of (by decide +kernel), by decide +kernel⟩
  · have h := every_core (s := runTxn txnA) (p := fun k => k.counters.isEmpty) rfl (by decide +kernel) b
    have : ((runTxn txnA).core b).counters = [] := List.isEmpty_iff.mp h
    show (AMap.get Counter.reset ((runTxn txnA).core b).counters n).count < 65535
    rw [this]; exact Nat.succ_pos 65534
  · simp only [List.mem_cons, List.not_mem_nil, or_false] at hk
    rcases hk with rfl | rfl | rfl | rfl <;> exact taken_got _ _
/-- The first reply writes its data and, with the operation's last transaction, increments the counter. -/
theorem test_read_reply : let t := after (exec (.weftReadReply (.mesh (repA .readReply 9))) (got (repA .readReply 9) (runTxn txnA)))
    t.readNow 0 (absAddr 1 0 128) 2 = [9, 0] ∧ t.txn 0 = none ∧ ((t.counter 0 5).view (2 ^ 30)).count = 1 := by decide +kernel
theorem test_other_replies : (after (exec (.weftAcknowledgement (.mesh (repA .ack 0))) (got (repA .ack 0) (runTxn txnA)))).txn 0 = none ∧
    (after (exec (.weftAtomicReply (.mesh (repA .atomicReply 4))) (got (repA .atomicReply 4) (runTxn txnA)))).readNow 0 (absAddr 1 0 128) 1 = [4] ∧
    faults (after (exec (.fencedTargetReply (.mesh (repA .fencedTarget 2))) (got (repA .fencedTarget 2) (runTxn txnA)))) 0 = [(.fencedTarget, 2)] := by decide +kernel

/-- A usable port 5 that leads to module 3. -/
def runPort (st : PortState) : State := { runTxn txnA with ports := [(5, { Port.reset with state := st })] }
/-- A weft flit's header. -/
def hdrOf (f : WeftFlit) : W64 := linkHeader (weftLow f) f.payload
theorem witness_weft_timers : (runTxn txnA).weftRetries = 3 ∧ (runTxn { txnA with flit := { txnA.flit with attempt := 3 } }).weftRetries ≤ 3 ∧
    ((runPort .full).port 5).usable = true ∧ fld (hdrOf (flitA .ack 0 3 7)) 0 2 = 1 ∧ linkOk (hdrOf (flitA .ack 0 3 7)) 7 = true ∧
    linkOk (hdrOf (flitA .ack 0 3 7)) 8 = false ∧ (weftOfLink (hdrOf (flitA .ack 0 3 7)) 7 1728).dst = 3 := by decide +kernel
theorem test_retransmission : let t := after (exec (.weftTimeoutExpiry 0) (runTxn txnA))
    (t.txn 0).map (fun x => (x.sent, x.flit.attempt)) = some (2, 1) ∧ (t.core 0).injq.length = 1 ∧
    faults (after (exec (.weftTimeoutExpiry 0) (runTxn { txnA with flit := { txnA.flit with attempt := 3 } }))) 0 = [(.weftTimeout, 0x01)] ∧
    (after (exec (.weftLifetimeExpiry 0) (late (runTxn { txnA with replied := true })))).txn 0 = none := by decide +kernel
theorem test_forward_without_route : AMap.get 0 ((after (exec (.weftForward (.port 5 (hdrOf (flitA .ack 0 3 7)) 7 [])) (runPort .full))).port 5).counts 6 = 1 := by
  decide +kernel

/-- Port 0 in full service on a skein with a running pass that FRECV has armed for entry 1. -/
def runRecv : State :=
  { (runWarps.updCore 0 fun k => { k with armed := [{ entry := 1, send := false, bobbin := 0 }] }) with
    ports := [(0, { Port.reset with state := .full })], clk := { up.clk with frame := 2 }, skein := { Skein.reset with plan := [0, 1] } }
/-- Header of the flit of slot group 1, position 0 of frame 0 relative to the kernel's start, from module 0. -/
def warpHdr (sg : Nat) : W64 := linkHeader (warpLow 0 0 sg 0) 5
theorem witness_warp_arrival : (runRecv.port 0).state = .full ∧ fld (warpHdr 1) 0 2 = 0 ∧ linkOk (warpHdr 1) 5 = true ∧ linkOk (warpHdr 1) 6 = false ∧
    runRecv.runningFns = [(0, 7, passA)] ∧ (runRecv.warpUses 0 0x02).map (fun u => (u.n, u.c, u.armed)) = [(1, 0, true)] := by decide +kernel
theorem test_warp_arrival : ((after (exec (.warpFlitArrival 0 (warpHdr 1) 5) runRecv)).port 0).warp.map (fun x => (x.sg, x.pos, x.payload)) = [(1, 0, 5)] ∧
    AMap.get 0 ((after (exec (.warpFlitArrival 0 (warpHdr 2) 5) runRecv)).port 0).counts 4 = 1 := by decide +kernel
/-- Frame of the flit at its deadline: its place in kernel frame 0 with latency class 0. -/
theorem test_warp_deadline_absent : faults (after (exec (.warpDeadline 0 0 1 0) runRecv)) 0 = [(.warpLate, 0x01)] := by decide +kernel
theorem test_warp_deadline_and_delivery : let s := after (exec (.warpFlitArrival 0 (warpHdr 1) 5) runRecv)
    (((after (exec (.warpDeadline 0 0 1 0) s)).core 0).hold.map fun h => (h.inj, h.entry)) = [(3200 * 0 + 32 * 1 + 40 + 0, some 1)] := by decide +kernel
/-- A warp TCPY's flit that waits for cycle 29. -/
def runHold : State := run.updCore 0 fun k => { k with hold := [{ src := 1, inj := 5, due := 29, pass := 7, addr := at0 1 64, data := [1, 2], bobbin := none, entry := none }] }
theorem witness_warp_delivery : (runHold.core 0).hold.filter (fun h => h.due % 128 == (29 : Fin 128).val) = (runHold.core 0).hold ∧ runHold.serving 0 = true ∧
    (runHold.core 0).job = some jobA ∧ (runHold.core 0).mpend = [] ∧ runHold.resolve 0 (at0 1 64) 2 = .ok (0, absAddr 1 0 64) ∧ runHold.bobs jobA = [] :=
  ⟨by decide, by decide, by decide, by decide, resolve_of (by decide +kernel), by decide⟩
theorem test_warp_delivery : (after (exec (.warpDelivery 0 ⟨29, none⟩) runHold)).readNow 0 (absAddr 1 0 64) 2 = [1, 2] := by decide +kernel

/-! ### Stitch and skein events -/

/-- A message at port p from module 1. -/
def withMsg (p : Nat) (m : StitchMsg) (s : State) : State := s.updPort p fun q => { q with rxMsg := some m, rxSender := 1 }
/-- The pass in a state, not joined. -/
def inPass (st : PassState) (s : State) : State := { s with passes := [(7, some { passA with state := st, start := if st = .agreeing then none else some 2 })] }
/-- Port 3 in full service. -/
def runStitch : State := leaf { run with ports := [(3, { Port.reset with state := .full, rxAbandon := some (3, 0) })] }
/-- A stitch payload with tx_time 100, frame 4, an abandon field for pass 3, attempt 0 and message type 1. -/
def stitchV : BitVec 512 := BitVec.ofNat 512 (100 + 4 * 2 ^ 192 + 1 * 2 ^ 232 + 3 * 2 ^ 256 + 1 * 2 ^ 352)
/-- Its header from module 1. -/
def stitchH : W64 := linkHeader (2 + 1 * 4) stitchV
theorem witness_stitch_flits : (runStitch.port 3).state = .full ∧ fld stitchH 0 2 = 2 ∧ linkOk stitchH stitchV = true ∧ linkOk stitchH 0 = false ∧
    runStitch.curPass 0 = some (7, passA) ∧ runStitch.inSkein passA = true ∧ 3 ∈ runStitch.treePorts ∧ (runStitch.port 3).rxAbandon = some (passA.number, 0) ∧
    bitAt stitchV 232 = true ∧ fld stitchV 352 8 = 1 := by decide +kernel
theorem test_stitch_flit : let t := after (exec (.stitchFlitReceive 3 50 stitchH stitchV) runStitch)
    (t.port 3).rxTime.map (fun b => (b.t1, b.t2)) = some (100, 256050) ∧ (t.port 3).rxAbandon = some (3, 0) ∧
    ((t.port 3).rxMsg.map fun m => m.mtype) = some 1 := by decide +kernel
theorem test_stitch_crc_and_abandon : faults (after (exec (.stitchFlitReceive 3 50 stitchH 0) runStitch)) 12 = [(.linkDown, 0x92)] ∧
    ((after (exec (.abandonNotice ⟨3, .fault⟩) runStitch)).pass 7).map (fun p => (p.state, p.status)) = some (.quiescing, some .abandonedSkein) := by decide +kernel

/-- A time block that shows an offset of 3d/2 ticks, for d not above 0. -/
def blkA (d : Int) : TimeBlk :=
  { t1 := BitVec.ofInt 64 (256000 - d), t2 := 256000, t3 := BitVec.ofInt 64 (256000 + d), echoDelay := 0, residence := 0, frame := 4, sg := 0, flags := 0 }
/-- A time child of port 3 with it. -/
def runTime (d : Int) : State :=
  { up.setReg 0 .clkTimeCtrl 3 with ports := [(3, { Port.reset with state := .full, rxTime := some (blkA d) })] }
theorem witness_time_samples : (∀ d ∈ [(0 : Int), -682, -684], ((runTime d).port 3).rxTime.bind TimeBlk.theta = some (3 * (d : Rat) / 2)) ∧
    (runTime 0).up = true ∧ (runTime 0).fromTimeParent 3 = true ∧ AMap.wf Port.reset (runTime 0).ports = true ∧ (runTime 0).inWarp = false ∧
    (runTime 0).timeRoot = false := by decide +kernel
/-- 1,200 ticks make the timebase jump by their amount. -/
theorem test_time_jump : ((after (exec (.timeSample ⟨3, 0⟩) (runTime (-800)))).clk.timebase.toNat, (after (exec (.timeSample ⟨3, 0⟩) (runTime (-800)))).clk.integ) = (257200, 0) := by
  decide +kernel
/-- −60 ticks are slewed: the integrator becomes −60/4096. -/
theorem test_time_slew : let t := after (exec (.timeSample ⟨3, 0⟩) (runTime (-40)))
    t.clk.timebase = 256000 ∧ t.clk.integ = -60 / 4096 ∧ t.clk.sinceSample = 0 := by decide +kernel
theorem witness_time_sample_loss : let s := { runTime 0 with clk := { (runTime 0).clk with sinceSample := 256 } }
    s.timeRoot = false ∧ 256 ≤ s.clk.sinceSample ∧ s.up = true := by decide +kernel
theorem test_time_sample_loss : faults (after (exec .timeSampleLoss { runTime 0 with clk := { (runTime 0).clk with sinceSample := 256 } })) 12 =
    [(.timeOffset, 0x02)] := by decide +kernel
/-- The parent announces code c for frame 9. -/
def runStep (c : Byte) : State := (runTime 0).updPort 3 fun q => { q with rxStep := some (c, 9) }
theorem witness_step_announcement : ((runStep 16).port 3).rxStep = some (16, 9) ∧ 16 ∈ periodCodes ∧ up.fuses.lowestCode.toNat ≤ 16 ∧ 15 ∉ periodCodes := by
  decide +kernel
theorem test_step_announcement : let t := after (exec (.stepAnnouncement 3) (runStep 16))
    (t.clk.pending, t.clk.announced, t.clk.stepFrame) = (16, true, 9) ∧
    faults (after (exec (.stepAnnouncement 3) (runStep 15))) 12 = [(.clockFault, 0x03)] := by decide +kernel

/-- A member that forms, with a record of zeros. -/
def forming (s : State) : State := { s with skein := { s.skein with state := .forming, record := some 0, desc := none } }
/-- A part of a child's record, by its bytes. -/
def partMsg (part : Nat) (v : Nat) : StitchMsg := stitchMsg 0x06 (leBytes 1 part ++ leBytes 2 9 ++ leBytes 16 v)
theorem witness_skein_formation : (withMsg 4 (partMsg 1 0) (forming (root run))).portMsg 4 0x06 = some (partMsg 1 0) ∧ msgSkein (partMsg 1 0) = 9 ∧
    (forming (root run)).skein.id = 9 ∧ 4 ∈ (root run).stitchChildren ∧ bitAt (partMsg 1 0).msg 2 = false ∧
    (withMsg 3 (controlMsg 0x01 9 0 0 0) (forming (leaf run))).fromParent 3 = true ∧ fld (controlMsg 0x02 9 0 5 0).msg 0 8 = 2 := by decide +kernel
/-- Byte 16 + 4 = 20 holds the interface version, field 0x03; byte 21 the period code, field 0x04. -/
theorem test_record_fields : partDiffers 0 1 (BitVec.ofNat 128 (2 ^ 32)) = some 0x03 ∧ partDiffers 0 1 (BitVec.ofNat 128 (2 ^ 40 + 2 ^ 32)) = some 0x03 ∧
    partDiffers 0 1 0 = none := by decide +kernel
theorem test_record_part : let t := after (exec (.agreementRecordPart 4) (withMsg 4 (partMsg 1 0) (forming (root run))))
    t.skein.got = [(4, 1)] ∧ (after (exec (.agreementRecordPart 4) (withMsg 4 (partMsg 1 (2 ^ 32)) (forming (root run))))).skein.refusal = some (0x03, 1) := by
  decide +kernel
/-- The other three parts of child 4's record have matched. -/
def got3 (s : State) : State := let f := forming s; { f with skein := { f.skein with got := [(4, 0), (4, 2), (4, 3)] } }
theorem witness_whole_record : (root run).stitchChildren = [4] ∧ (inner run).stitchChildren = [4] ∧ (got3 (root run)).stitchRoot = true ∧
    (got3 (inner run)).stitchRoot = false ∧ (got3 (inner run)).skein.record = some 0 ∧
    (∀ i < 4, ∃ g ∈ (got3 (root run)).skein.got ++ [((4 : PortId), 1)], g.1.val = 4 ∧ g.2 = i) := by decide +kernel
/-- The root forms the skein; an inner member sends its own four parts up. -/
theorem test_whole_record : (after (exec (.agreementRecordPart 4) (withMsg 4 (partMsg 1 0) (got3 (root run))))).skein.state = .formed ∧
    (let t := after (exec (.agreementRecordPart 4) (withMsg 4 (partMsg 1 0) (got3 (inner run)))); (t.skein.state, (t.port 3).msgs.length) = (.forming, 4)) := by
  decide +kernel
/-- A member that has been in FORMING for so many ticks; the timeout of reset is 100 ms. -/
def formingFor (ticks : Nat) : State :=
  let s := forming (leaf run)
  { s with clk := { s.clk with timebase := s.skein.formedAt + BitVec.ofNat 64 ticks } }
theorem test_formed_refused_timeout : (after (exec (.formed 3) (withMsg 3 (controlMsg 0x01 9 0 0 0) (forming (leaf run))))).skein.state = .formed ∧
    (let t := after (exec (.refused 3) (withMsg 3 (controlMsg 0x02 9 0 5 0) (forming (leaf run)))); t.skein.state = .none ∧ t.skein.field = 5) ∧
    (after (exec .formationTimeout (formingFor 800000000))).skein.state = .none ∧
    (after (exec .formationTimeout (formingFor 799999999))).skein.state = .forming := by decide +kernel

/-- A control message at the leaf's parent port. -/
def ctl (op : Byte) (field : Byte) (s : State) : State := withMsg 3 (controlMsg op 9 1 field 77) (inner s)
theorem witness_skein_control : (ctl 3 0 run).curPass 0 = some (7, passA) ∧ (ctl 3 0 run).skein.state = .formed ∧ (ctl 3 0 run).fromParent 3 = true ∧
    (∀ op ∈ [(3 : Byte), 4, 5, 6], (ctl op 0 run).portMsg 3 0x07 = some (controlMsg op 9 1 0 77)) ∧ AMap.wf none run.passes = true ∧
    (inner run).skein.multi = true := by decide +kernel
theorem test_leave_and_broken : let t := after (exec (.leave 3) (ctl 3 0 run))
    t.skein.away = [1] ∧ (t.pass 7).map (fun p => p.status) = some (some .abandonedSkein) ∧ (t.port 4).msgs.length = 1 ∧
    (let t := after (exec (.broken 3) (ctl 5 0x10 run)); t.skein.state = .broken ∧ t.skein.field = 0x10 ∧ (t.pass 7).map (fun p => p.noRetry) = some true) := by
  decide +kernel
theorem test_readmit_and_dissolve : (let s := ctl 4 0 run; (after (exec (.readmit 3) { s with skein := { s.skein with away := [1] } })).skein.away = []) ∧
    (after (exec (.dissolve 3) (ctl 6 0 run))).skein.state = .dissolving ∧
    (let s := ctl 6 0 run; (after (exec (.dissolve 3) { s with skein := { s.skein with state := .broken } })).skein.state = .none) := by decide +kernel
/-- A detached member that has been within tolerance for 16 frames. -/
def detached : State := { leaf run with skein := { (leaf run).skein with state := .detached }, clk := { run.clk with tolFrames := 16 } }
theorem witness_auto_rejoin : detached.skein.state = .detached ∧ detached.pf .fabSkeinCfg 14 1 = 1 ∧ 16 ≤ detached.clk.tolFrames ∧ detached.stitchRoot = false := by
  decide +kernel

/-- A child's join for pass n, attempt a, kernel 0, clean. -/
def joinMsg (n a : Nat) : StitchMsg := barrierMsg 0x01 (BitVec.ofNat 32 n) 0 a true
/-- The parent's result, clean or not. -/
def resultMsg (clean : Bool) : StitchMsg := barrierMsg 0x02 3 0 0 clean
theorem witness_stitch_combining : (withMsg 4 (joinMsg 3 0) (root run)).portMsg 4 0x01 = some (joinMsg 3 0) ∧ 4 ∈ (root run).stitchChildren ∧
    (root run).skein.state = .formed ∧ (root run).curPass 0 = some (7, passA) ∧ (root run).inSkein passA = true ∧ passA.state = .running ∧
    fld (joinMsg 3 0).msg 0 32 = passA.number.toNat ∧ fld (joinMsg 3 0).msg 48 8 = passA.attempt ∧ fld (joinMsg 3 0).msg 32 16 = passA.kernel ∧
    (withMsg 3 (resultMsg true) (leaf run)).fromParent 3 = true ∧ bitAt (resultMsg true).msg 56 = true ∧ bitAt (resultMsg false).msg 56 = false ∧
    (leaf run).nextKernel passA ≤ run.clk.frame.toNat := by decide +kernel
theorem test_barrier_join : (after (exec (.barrierJoin 4) (withMsg 4 (joinMsg 3 0) (root run)))).skein.joins = [4] ∧
    faults (after (exec (.barrierJoin 4) (withMsg 4 (joinMsg 5 0) (root run)))) 12 = [(.skeinMismatch, 0x10)] ∧
    faults (after (exec (.barrierJoin 4) (withMsg 4 (joinMsg 3 1) (root run)))) 12 = [(.skeinMismatch, 0x11)] := by decide +kernel
theorem test_barrier_result : ((after (exec (.barrierResult 3) (withMsg 3 (resultMsg true) (leaf run)))).pass 7).map (fun p => p.resolved) = some true ∧
    ((after (exec (.barrierResult 3) (withMsg 3 (resultMsg false) (leaf run)))).pass 7).map (fun p => p.status) = some (some .abandonedSkein) := by decide +kernel
theorem test_barrier_deadline : faults (after (exec (.barrierJoinDeadline 0) (leaf run))) 0 = [(.queueStall, 0x04)] := by decide +kernel
/-- This member's own cores have joined, so that the child's join is the last. -/
def joinedRun (s : State) : State := withMsg 4 (joinMsg 3 0) { s with passes := [(7, some { passA with joined := true })] }
theorem witness_last_join : (joinedRun (inner run)).curPass 0 = some (7, { passA with joined := true }) ∧ passA.resolved = false ∧ passA.clean = true ∧
    (joinedRun (inner run)).stitchRoot = false ∧ (joinedRun (root run)).stitchRoot = true ∧ (root run).skein.joinsClean = true ∧
    bitAt (joinMsg 3 0).msg 56 = true ∧ (∀ c ∈ (inner run).stitchChildren, ∃ i ∈ (inner run).skein.joins ++ [(4 : PortId)], i.val = c) := by decide +kernel
theorem test_last_join : ((after (exec (.barrierJoin 4) (joinedRun (inner run)))).port 3).msgs = [joinMsg 3 0] ∧
    ((after (exec (.barrierJoin 4) (joinedRun (root run)))).pass 7).map (fun p => p.resolved) = some true := by decide +kernel
/-- The result names frame 500. -/
theorem test_pass_offer_result : ((after (exec (.passOffer 3) (withMsg 3 (offerMsg 3 0 0 500 true) (inPass .agreeing (leaf run))))).pass 7).map (fun p => p.start) =
    some (some 500) := by decide +kernel
theorem witness_pass_offer : let s := withMsg 4 (offerMsg 3 0 0 5 false) (inPass .agreeing (inner run))
    s.portMsg 4 0x05 = some (offerMsg 3 0 0 5 false) ∧ bitAt (offerMsg 3 0 0 5 false).msg 136 = false ∧ fld (offerMsg 3 0 0 5 false).msg 72 64 = passA.reqId.toNat ∧
    s.stitchChildren = [4] ∧ s.stitchRoot = false ∧ (s.pass 7).map (fun p => (p.state, p.start)) = some (.agreeing, none) := by decide +kernel
theorem test_pass_offer_goes_up : let s := withMsg 4 (offerMsg 3 0 0 5 false) (inPass .agreeing (inner run))
    ((after (exec (.passOffer 4) { s with skein := { s.skein with offered := true } })).port 3).msgs = [offerMsg 3 0 0 5 false] := by decide +kernel
/-- This core has contributed to entry 1, whose second contributor is in module 1. -/
def runColl : State :=
  let l := { loadA with exe := { exeRed with colls := [{ counter := 0xFF, group := [(0, 0)], op := 0, narrow := false, subtrees := [] },
    { counter := 0xFF, group := [(0, 0), (0, 1), (1, 0)], op := 0, narrow := false, subtrees := [(0, 4)] }] } }
  inner { run with fns := [(0, { Func.reset0 with exe := some l })],
                   colls := [{ fn := 0, entry := 1, op := 0, narrow := false, own := some 5, got := [], dest := [(0, at0 1 512, 9)] }] }
/-- A contribution or result for entry 1. -/
def scol (ty : Byte) (v : Nat) : StitchMsg := stitchMsg ty (leBytes 2 1 ++ leBytes 16 v)
theorem witness_fscol_messages : (withMsg 4 (scol 0x03 6) runColl).portMsg 4 0x03 = some (scol 0x03 6) ∧ (runColl.coll 0 1).isSome = true ∧
    fld (scol 0x03 6).msg 0 16 = 1 ∧ fld (scol 0x03 6).msg 16 128 = 6 ∧ (withMsg 3 (scol 0x04 6) runColl).fromParent 3 = true ∧
    run.resolve 0 (at0 1 512) 16 = .ok (0, absAddr 1 0 512) := ⟨by decide +kernel, by decide +kernel, by decide +kernel, by decide +kernel, by decide +kernel,
      resolve_of (by decide +kernel)⟩
theorem test_fscol_contribution_and_result : ((after (exec (.fscolContribution 4) (withMsg 4 (scol 0x03 6) runColl))).coll 0 1).map (fun c => c.got) = some [(4, 6)] ∧
    (after (exec (.fscolResult 3) (withMsg 3 (scol 0x04 6) runColl))).readNow 0 (absAddr 1 0 512) 2 = [6, 0] := by decide +kernel

/-! ### Clock, time and port events -/

/-- The module at slot group g. -/
def atSg (g : Nat) (s : State) : State := { s with clk := { s.clk with sg := g } }
/-- A pass that starts in frame 5, and an announced step of frame 4. -/
def runDue : State := { atSg 99 (inPass .agreeing run) with passes := [(7, some { passA with state := .agreeing, start := some 5 })] }
/-- An announced step to code 16 in the current frame. -/
def runAnn : State := { atSg 100 run with clk := { run.clk with sg := 100, announced := true, pending := 16, stepFrame := 4 } }
theorem witness_slot_groups : run.up = true ∧ AMap.wf Port.reset run.ports = true ∧ AMap.wf none run.passes = true ∧ (atSg 100 run).clk.sg = 100 ∧
    runDue.clk.sg = 99 ∧ runDue.clk.frame = 4 ∧ (runDue.loaded 0).isSome = true ∧ runAnn.clk.stepFrame = runAnn.clk.frame ∧ run.chk.fatal = false := by decide +kernel
/-- Slot group 1 begins 32 × 20 ticks behind the frame start. -/
theorem test_slot_group : let t := after (exec .slotGroupStart run)
    t.clk.sg = 1 ∧ t.clk.timebase = 256640 ∧ (after (exec .slotGroupStart (atSg 100 run))).clk.sg = 0 := by decide +kernel
theorem test_frame_start : let t := after (exec .frameStart { runDue with cores := [], fns := [(0, { Func.reset0 with exe := some { loadA with place := [] } })] })
    t.clk.frame = 5 ∧ t.clk.frameStart = 320000 ∧ (t.pass 7).map (fun p => (p.state, p.kernelStart)) = some (.running, 5) := by decide +kernel
theorem test_step_frame : let t := after (exec .stepFrame runAnn)
    t.clk.period = 16 ∧ t.clk.frameStart = 264000 ∧ t.clk.announced = false ∧ t.obs.agreed = 1 := by decide +kernel

/-- Region 0 stretched in cycle 10. -/
def runReg : State := { up with regions := [(0, { Region.reset with last := some 10, stretches := 1 })] }
theorem witness_stretch : runReg.up = true ∧ up.absorbs 0 10 = false ∧ runReg.absorbs 0 13 = true ∧ runReg.absorbs 0 14 = false ∧ adjacentRegions 1 0 = true ∧
    (runReg.region 0).last = some (11 - 1) ∧ runReg.absorbs 1 11 = false ∧ runReg.absorbs 0 10 = true := by decide +kernel
theorem test_stretch : ((after (exec (.stretch 0 14 true) runReg)).region 0).stretches = 2 ∧ faults (after (exec (.stretch 0 13 true) runReg)) 0 = [(.marginCritical, 0x01)] ∧
    ((after (exec (.stretchToken 1 11) runReg)).region 1).last = some 11 ∧ faults (after (exec (.stretch 0 10 true) runReg)) 0 = [] := by decide +kernel
theorem test_lock_monitor : faults (after (exec (.lockMonitorFault (some 48)) up)) 12 = [(.clockFault, 0x01)] ∧ faults (after (exec (.lockMonitorFault none) up)) 12 = [(.clockFault, 0x02)] ∧
    (after (exec (.lockMonitorFault none) up)).chk.fatal = true := by decide +kernel
/-- A root that follows TIME_IN, 1,000 ticks past a multiple of 8,000,000; the latest edge 3,999,999 ticks ago. -/
def runTimeIn (last : Option W64) : State := { up.setReg 0 .clkTimeCtrl 0x60 with clk := { Clock.reset with timebase := 8000000, lastEdge := last } }
theorem witness_time_in : (runTimeIn none).timeRoot = true ∧ (runTimeIn none).pf .clkTimeCtrl 6 1 = 1 ∧ (8001000 : Nat) % 8000000 ≤ 1024 ∧
    (runTimeIn (some 4001001)).clk.lastEdge = some 4001001 := by decide +kernel
theorem test_time_in_and_out : (after (exec (.timeInEdge 1000 100 10) (runTimeIn none))).clk.integ = 1000 / 4096 ∧
    (after (exec (.timeInEdge 1000 100 10) (runTimeIn (some 4001001)))).clk.lastEdge = some 4001001 ∧
    (after (exec .timeOutPulse up)).out = [.timeOut false, .timeOut true] := by decide +kernel

/-- Port 3 of the stitch tree. -/
def runTree (st : PortState) : State := { runStitch with ports := [(3, { Port.reset with state := st })] }
/-- A written mode waits. -/
def runMode (st : PassState) : State := { inPass st (atSg 100 run) with modePending := some false }
theorem witness_ports : (runTree .full).portUsers 3 = [7] ∧ ((runTree .full).port 3).state ≠ .disabled ∧ ((runTree .training).port 3).state = .training ∧
    ({ up with ports := [(3, { Port.reset with state := .full })] } : State).portUsers 3 = [] ∧ 3 ∈ (runTree .full).treePorts ∧ (runTree .full).skein.multi = true ∧
    (runMode .queued).modePending = some false ∧ (∀ kp ∈ (runMode .queued).allPasses, passBusy kp.2.state = false) := by decide +kernel
theorem test_port_down : let t := after (exec (.portDown 3) (runTree .full))
    (t.port 3).state = .down ∧ faults t 12 = [(.linkDown, 0x90)] ∧ t.skein.state = .broken := by decide +kernel
/-- Reach classes 0 and 1 allow 3,800 ns: half of a round trip less the turnaround. -/
theorem test_training : (((after (exec (.portTrainingComplete 3 ⟨7700, 100⟩ true) (runTree .training))).port 3).fit, ((after (exec (.portTrainingComplete 3 ⟨7702, 100⟩ true) (runTree .training))).port 3).fit,
    ((after (exec (.portTrainingComplete 3 ⟨7702, 100⟩ true) (runTree .training))).port 3).state) = (true, false, .weftOnly) := by decide +kernel
theorem test_mesh_mode : (after (exec .meshModeChange (runMode .queued))).scheduled = false ∧ (after (exec .meshModeChange (runMode .running))).scheduled = true := by
  decide +kernel

/-! ### Rings and descriptors -/

/-- A descriptor from its bytes' value. -/
def descA (n : Nat) : BitVec 512 := BitVec.ofNat 512 n
/-- It has been fetched from ring 1 at index 2. -/
def fetchedA (d : BitVec 512) : Fetched := { ring := 1, index := 2, desc := d, phase := .fetched, order := 0 }
/-- Function 0 with that descriptor, its completion ring 0 enabled with the entry reserved, and its identifier pending. -/
def withDesc (d : BitVec 512) (s : State) : State :=
  s.updFn 0 fun u =>
    { u with fetched := [fetchedA d], fetchOrder := 1, tags := 1, journal := [(descId d, none)], cq := [(0, { Cq.reset with state := .enabled, phase := true, reserved := 1 })] }
/-- Submission ring 1 enabled with a new tail, its completion ring enabled, both of 64 entries. -/
def runRings : State :=
  ((up.setReg 0 (.rngSq 1) (BitVec.ofNat 128 (6 * 2 ^ 68))).setReg 0 (.rngCq 0) (BitVec.ofNat 128 (6 * 2 ^ 71))).setReg 0 .rngDbr 1 |>.updFn 0 fun u =>
    { u with sq := [(1, { Sq.reset with state := .enabled, tail := 3 })], cq := [(0, { Cq.reset with state := .enabled, phase := true })] }
theorem witness_rings : up.live 0 = true ∧ ((up.fn 0).cqOf 0).state = .disabled ∧ runRings.cqFor 0 1 = 0 ∧ ((runRings.fn 0).sqOf 1).state = .enabled ∧
    runRings.mayFetch 0 1 = true ∧ (runRings.fn 0).find 1 0 = none ∧ fld (runRings.reg 0 .rngDbr) 0 1 = 1 ∧ runRings.sqSize 0 1 = 64 ∧
    descValid (descA (9 * 2 ^ 64)) = true ∧ descValid (descA 9) = false ∧ descId (descA (9 * 2 ^ 64)) = 9 := by decide +kernel
theorem test_ring_states : ((((after (exec (.ringEnable 0 true 0) up)).fn 0).cqOf 0).state, (((after (exec (.ringEnable 0 false 1) up)).fn 0).sqOf 1).state,
    (((after (exec (.ringDisable 0 false 1) runRings)).fn 0).sqOf 1).state) = (.enabled, .disabled, .disabled) := by decide +kernel
/-- A tail of 64 is an error of a ring with 64 entries; 63 is its last index. -/
theorem test_doorbell : (((after (exec (.doorbellPoll 0 (List.replicate 16 64) (List.replicate 16 0) 0x2000 1) runRings)).fn 0).sqOf 1).state = .error ∧
    (((after (exec (.doorbellPoll 0 (List.replicate 16 63) (List.replicate 16 0) 0x2000 1) runRings)).fn 0).sqOf 1).tail = 63 := by decide +kernel
theorem test_descriptor_fetch : let t := after (exec (.descriptorFetch 0 1 (descA (9 * 2 ^ 64))) runRings)
    (t.fn 0).tags = 1 ∧ (t.fn 0).lookup 9 = some none ∧ ((after (exec (.descriptorFetch 0 1 (descA 9)) runRings)).fn 0).find 1 0 = none := by decide +kernel
/-- A completion that has waited one millisecond with a moderation delay of 1 ms. -/
def runIrq : State := (runRings.setReg 0 (.irqMod 0) (BitVec.ofNat 128 (1000 * 2 ^ 8))).updFn 0 fun u =>
  { u with cq := [(0, { Cq.reset with state := .enabled, unsignalled := 1, oldest := some (BitVec.ofInt 64 (256000 - 8000000)) })], irqHeld := [5] }
theorem witness_irq : runIrq.cqVector 0 0 = 0 ∧ ((runIrq.fn 0).cqOf 0).oldest = some (BitVec.ofInt 64 (256000 - 8000000)) ∧ fld (runIrq.reg 0 (.irqMod 0)) 8 10 = 1000 ∧
    (runIrq.fn 0).irqHeld.length ≤ 4 * fld (runIrq.fn 0).qos 24 8 := by decide +kernel
theorem test_irq : (after (exec (.irqDelayExpiry 0 0) runIrq)).out = [.msix 0 0] ∧ (after (exec (.interruptAllowanceRenewal 0) runIrq)).out = [.msix 0 5] := by decide +kernel

/-- PASS_SUBMIT, FENCE of the ring, COPY of 64 bytes to the activation memory, PREEMPT with deadline frame 9 and RESUME. -/
def submitD : BitVec 512 := descA (1 + 9 * 2 ^ 64 + 77 * 2 ^ 256)
def fenceD : BitVec 512 := descA (5 + 9 * 2 ^ 64)
def copyD (dir : Nat) : BitVec 512 := descA (6 + 9 * 2 ^ 64 + 0x1000 * 2 ^ 128 + (at0 1 64).toNat * 2 ^ 192 + 64 * 2 ^ 256 + dir * 2 ^ 288)
def preemptD : BitVec 512 := descA (7 + 9 * 2 ^ 64 + 3 * 2 ^ 128 + 9 * 2 ^ 192)
def resumeD : BitVec 512 := descA (7 + 9 * 2 ^ 64 + 4 * 2 ^ 128)
/-- The module with the executable and no pass. -/
def idle : State := { run with passes := [], cores := [] }
theorem witness_descriptors : (withDesc (descA (9 * 2 ^ 64)) idle).taken 0 1 2 0 = some (fetchedA (descA (9 * 2 ^ 64))) ∧ (withDesc submitD idle).taken 0 1 2 1 = some (fetchedA submitD) ∧
    (withDesc fenceD idle).taken 0 1 2 5 = some (fetchedA fenceD) ∧ (withDesc (copyD 0) idle).taken 0 1 2 6 = some (fetchedA (copyD 0)) ∧
    (withDesc preemptD idle).taken 0 1 2 7 = some (fetchedA preemptD) ∧ (withDesc resumeD idle).taken 0 1 2 7 = some (fetchedA resumeD) ∧
    idle.skeinTakes 0 exeA = true ∧ (idle.func 0).enable = true ∧ Exe.buffers exeA = 0 ∧ dfld submitD 24 2 = 0 ∧ idle.inv = true ∧ idle.inPart 0 0 = true ∧
    idle.regionOf 0 1 = (0, spaceSize 1) ∧ idle.partBusy 0 = false ∧ run.partBusy 0 = true ∧ idle.scrubbing 0 1 = false := by decide +kernel
/-- Final statuses in the journal. -/
def statuses (t : State) : List Status := (t.fn 0).journal.filterMap fun j => j.2
theorem test_nop_and_fence : statuses (after (exec (.nopDescriptor 0 1 2) (withDesc (descA (9 * 2 ^ 64)) idle))) = [.done] ∧
    statuses (after (exec (.fence 0 1 2) (withDesc fenceD idle))) = [.done] := by decide +kernel
theorem test_pass_submit : ((after (exec (.passSubmit 0 1 2 []) (withDesc submitD idle))).pass 8).map (fun p => (p.state, p.reqId, p.seed)) = some (.queued, 9, 77) ∧
    statuses (after (exec (.passSubmit 0 1 2 []) (withDesc submitD { idle with fns := [] }))) = [.rejectedState] := by decide +kernel
theorem test_copy : (after (exec (.copy 0 1 2 (List.replicate 64 0xAB)) (withDesc (copyD 0) idle))).readNow 0 (absAddr 1 0 127) 2 = [0xAB, 0] ∧
    (after (exec (.copy 0 1 2 []) (withDesc (copyD 1) idle))).out.contains (.hostWrite 0x1000 (List.replicate 64 0)) = true := by decide +kernel
theorem test_preempt_and_resume : ((after (exec (.skeinCtlPreempt 0 1 2) (withDesc preemptD idle))).fn 0).preempt = some 9 ∧
    statuses (after (exec (.skeinCtlPreempt 0 1 2) (withDesc preemptD run))) = [] ∧ statuses (after (exec (.skeinCtlResume 0 1 2) (withDesc resumeD idle))) = [.done] := by decide +kernel

/-- FORM with a plan of n modules and skein identifier 9, and DISSOLVE. -/
def formD (n : Nat) : BitVec 512 := descA (7 + 9 * 2 ^ 64 + 1 * 2 ^ 128 + 9 * 2 ^ 144 + n * 2 ^ 160)
def dissolveD : BitVec 512 := descA (7 + 9 * 2 ^ 64 + 2 * 2 ^ 128)
/-- An executable for a skein of two, with port 3 in full service and an announced step, so that the record waits. -/
def run2m : State :=
  { idle.setReg 0 .fabStitchTree 3 with ports := [(3, { Port.reset with state := .full })], clk := { idle.clk with announced := true },
                                        fns := [(0, { Func.reset0 with exe := some { loadA with exe := { exeA with header := { headA with skeinSize := 2 } } } })] }
theorem witness_skein_commands : (withDesc (formD 1) idle).taken 0 1 2 7 = some (fetchedA (formD 1)) ∧ dfld (formD 2) 20 2 = 2 ∧ dfld (formD 2) 18 2 = 9 ∧
    dfld dissolveD 16 1 = 2 ∧ run2m.formReady 0 = true ∧ idle.moduleId = 0 ∧ (withDesc dissolveD (inner run)).skein.desc = none := by decide +kernel
theorem test_form : statuses (after (exec (.skeinCtlForm 0 1 2 [0]) (withDesc (formD 1) idle))) = [.done] ∧ statuses (after (exec (.skeinCtlForm 0 1 2 [5]) (withDesc (formD 1) idle))) = [.rejectedFormat] ∧
    (after (exec (.skeinCtlForm 0 1 2 [0, 1]) (withDesc (formD 2) run2m))).skein.state = .forming := by decide +kernel
theorem test_dissolve_descriptor : let t := after (exec (.skeinCtlDissolve 0 1 2) (withDesc dissolveD (inner run)))
    statuses t = [.done] ∧ t.skein.state = .dissolving ∧ (t.port 4).msgs.length = 1 := by decide +kernel

/-- The header of a file, and the five sections that every file has. -/
def headL : ExeHeader := { headA with magic := exeMagic, coresMin := 0, coresMax := 0 }
def sectionsL : List SecEntry :=
  [0x01, 0x02, 0x03, 0x09, 0x0A].map fun t => { stype := BitVec.ofNat 16 t, reserved := 0, length := 0, offset := 256 }
/-- An executable whose vector engine runs its final BARRIER alone. -/
def exeL : Exe :=
  { exeA with
    file := spellA headL sectionsL ++ List.replicate 48 0
    header := headL
    sections := sectionsL
    members := [{ vmodule := 0, die := 0, localIdx := 0 }]
    streams := [{ mxe := [], vxe := [0x0B01000000000000], txe := [], gxe := [], fxe := [] }]
    barriers := [{ vcore := 0, kernel := 0, final := 1, engines := 2, sig := [0, 0, 0, 0, 0], reservedZero := true }] }
/-- A module whose library is the recorded one. -/
def runLoad : State := { up with library := some { minor := 0, abi := 0, entries := [], body := [], manifestHash := 0, hash := 0 } }
/-- PROGRAM_LOAD of an executable of 256 bytes, without a load image. -/
def loadD : BitVec 512 := descA (2 + 9 * 2 ^ 64 + 256 * 2 ^ 192)
theorem witness_program_load : (withDesc loadD runLoad).taken 0 1 2 2 = some (fetchedA loadD) ∧ exeL.file.length = dfld loadD 24 8 ∧ dfld loadD 40 4 = 0 ∧
    formatOk exeL = true ∧ runLoad.structureOk exeL (imageModule none) = true ∧ runLoad.capsOk exeL (imageModule none) = true ∧ runLoad.inv = true ∧
    (match (withDesc loadD runLoad).loadCheck 0 exeL 0 none with | .ok l => decide (l.place = [(0, 0)] ∧ l.stall = 256) | .error _ => false) = true := by decide +kernel
theorem test_program_load : let t := after (exec (.programLoad 0 1 2 exeL none) (withDesc loadD runLoad))
    statuses t = [.done] ∧ ((t.fn 0).exe.map fun l => l.place) = some [(0, 0)] ∧ memGet t.mem (absAddr 3 0 0) 8 = [0, 0, 0, 0, 0, 0, 1, 0x0B] := by decide +kernel
theorem test_program_load_refusals : statuses (after (exec (.programLoad 0 1 2 { exeL with header := { exeL.header with magic := 0 } } none) (withDesc loadD runLoad))) = [.rejectedFormat] ∧
    statuses (after (exec (.programLoad 0 1 2 { exeL with header := { exeL.header with latVersion := 2 } } none) (withDesc loadD runLoad))) = [.rejectedCapability] ∧
    statuses (after (exec (.programLoad 0 1 2 exeL none) (withDesc loadD { runLoad with library := none }))) = [.rejectedLibrary] := by decide +kernel

/-! ### Pass lifecycle -/

/-- A queued pass of function 0 with the executable; one that has been admitted; one whose images have landed. -/
def queued : State := { run with passes := [(7, some { passA with state := .queued, start := none })] }
def admitted (l : Bool) : State := { run with passes := [(7, some { passA with state := .admitted, start := none, loaded := l })] }
/-- A memory image entry of virtual core 0: two bytes at offset 64. -/
def imgE : ImageEntry := { vcore := 0, space := 1, offset := 64, data := [1, 2], pastEnd := false }
theorem witness_pass_start : queued.up = true ∧ queued.admits 0 = true ∧ queued.nextFn 0 = some 0 ∧ (queued.queuedPass 0).map (fun p => p.1) = some 7 ∧
    (∀ g ∈ queued.admissible 0, 0 < fld (queued.fn g.val).qos 0 8) ∧ queued.pinned 0 exeA = some (0, 0) ∧
    queued.pinned 0 { exeA with header := { headA with weightManifest := 1 } } = none ∧ (∀ c ∈ queued.memberCores 0, queued.serving c = true) ∧
    (admitted false).curPass 0 ≠ none ∧ (imgE.space = 1 ∧ imgE.offset + imgE.data.length ≤ ((admitted false).regionOf 0 1).2) ∧
    (admitted true).fenced passA = false := by decide +kernel
theorem witness_pass_start_writes : NoWrites (admitted false) := no_writes_of (by decide +kernel)
theorem test_pass_admit : ((after (exec (.passAdmit 0) queued)).pass 7).map (fun p => (p.state, p.admittedAt)) = some (.admitted, 256000) ∧
    (after (exec (.passAdmit 0) (queued.updCore 0 fun k => { k with svc := .fenced }))).pass 7 = none := by decide +kernel
theorem test_image_load : (after (exec (.memoryImageLoad 0 [] [imgE]) (admitted false))).readNow 0 (absAddr 1 0 64) 3 = [1, 2, 0] ∧
    faults (after (exec (.memoryImageLoad 0 [] [{ imgE with pastEnd := true }]) (admitted false))) 12 = [(.controlParity, 0x07)] := by decide +kernel
/-- Frame 4, slot group 0: the next frame start is that of frame 5. -/
theorem test_pass_agree : ((after (exec (.passAgree 0) (admitted true))).pass 7).map (fun p => (p.state, p.start)) = some (.agreeing, some 5) := by decide +kernel

/-- A pass at its gate, past it, or quiescing. -/
def ending (st : PassState) (gated : Bool) (status : Option Status) : State :=
  { run with cores := [], passes := [(7, some { passA with state := st, gated := gated, status := status, clean := status.isNone })] }
theorem witness_pass_end : (ending .gating true none).curPass 0 ≠ none ∧ (ending .gating false none).inSkein passA = false ∧
    (ending .gating true none).gateResult passA = some (true, 0, 0, 0) ∧ (ending .gating true none).gateResult { passA with clean := false } = some (false, 0, 0, 0) ∧
    (ending .quiescing false (some .abandonedFault)).retries { passA with status := some .abandonedFault } loadA = true ∧
    (ending .quiescing false (some .abandonedPreempt)).retries { passA with status := some .abandonedPreempt } loadA = false ∧ (ending .quiescing false none).txns = [] ∧
    passA.admittedAt = 0 ∧ 8000 * loadA.passLimit = 8000000 ∧ (run.clk.timebase - passA.admittedAt).toNat < 8000 * loadA.passLimit ∧
    exeA.outputs = [] := by decide +kernel
theorem test_gate : ((after (exec (.finalGate 0) (ending .gating false none))).pass 7).map (fun p => p.gated) = some true ∧
    ((after (exec (.gateResult 0) { ending .gating true none with passes := [(7, some { passA with state := .gating, gated := true, clean := false })] })).pass 7).map (fun p => p.status) =
      some (some .abandonedSkein) := by decide +kernel
theorem test_output_error : faults (after (exec (.outputWriteError 0) (ending .gating false none))) 12 = [(.linkDown, 0xA0)] := by decide +kernel
theorem test_quiesce : ((after (exec (.quiesceComplete 0) (ending .quiescing false (some .abandonedFault)))).pass 7).map (fun p => (p.state, p.attempt)) = some (.agreeing, 1) ∧
    (after (exec (.quiesceComplete 0) (ending .quiescing false (some .abandonedPreempt)))).pass 7 = none := by decide +kernel
/-- 8,000,000 ticks are the pass limit of 1,000 µs. -/
theorem test_watchdog_and_preemption : ((after (exec (.passWatchdog 0) { run with clk := { run.clk with timebase := 8000000 } })).pass 7).map (fun p => (p.status, p.noRetry)) = some (some .timeout, true) ∧
    ((after (exec (.passWatchdog 0) { run with clk := { run.clk with timebase := 7999999 } })).pass 7).map (fun p => p.status) = some none ∧
    ((after (exec (.preemptDeadline 0) (run.updFn 0 fun u => { u with preempt := some 4 }))).pass 7).map (fun p => p.status) = some (some .abandonedPreempt) := by decide +kernel

/-! ### Integrity -/

/-- A record of core 0 in reporter 0's queue. -/
def recA (c : Cause) (k : FaultClass) : FaultRecord :=
  { timebase := 5, frame := 4, seq := 0, core := 0, engine := 1, function := 0, pass := 3, attempt := 0, cls := k, cause := c, detail := 1 }
/-- The queue, with n counting faults of core 0 in the window. -/
def runRec (k : FaultClass) (n : Nat) : State :=
  { run with chk := { run.chk with reporters := [(0, [recA .queueStall k])], counting := [(0, List.replicate n 5)], silent := [(12, 2)] } }
theorem witness_collector : run.up = true ∧ (runRec .contained 0).reporter 0 = [recA .queueStall .contained] ∧ AMap.get 0 (runRec .contained 0).chk.silent 12 = 2 ∧
    (runRec .contained 0).chk.fatal = false ∧ classOf .clockFault 0x02 false = .fatal ∧ run.pf .chkFenceCfg 0 3 = 3 := by decide +kernel
theorem test_collector : let t := after (exec (.faultRecordDelivery 0) (runRec .contained 0))
    t.reporter 0 = [] ∧ t.chk.seq = 1 ∧ t.chk.last.map (fun r => (r.cause, r.cls)) = some (.queueStall, .contained) := by decide +kernel
theorem test_heartbeat : AMap.get 0 (after (exec (.dieHeartbeat 12) (runRec .contained 0))).chk.silent 12 = 0 ∧
    faults (after (exec (.heartbeatTimeout 12) (runRec .contained 0))) 12 = [(.controlParity, 0xA2)] := by decide +kernel
theorem test_fatal : let t := after (exec (.fatalFault .clockFault 0x02 0xFFFF) run)
    t.chk.fatal = true ∧ t.chk.cause = 0x19 ∧ t.scheduled = false := by decide +kernel

/-- Errors in weight word 3 and activation word 4 of core 0. -/
def runEcc (m : EccMark) : State := { up with ecc := [(absAddr 0 0 96, m), (absAddr 1 0 16, m)] }
theorem witness_scrub : (∀ m ∈ [EccMark.correctable, .uncorrectable], (runEcc m).eccMark (absAddr 0 0 96) = some m ∧ (runEcc m).eccMark (absAddr 1 0 16) = some m) ∧
    (runEcc .correctable).eccMark (absAddr 0 0 64) = none ∧ eccWord 1 = 4 ∧ scrubSpace .activation = 1 := by decide +kernel
theorem test_weight_scrub : (after (exec (.weightScrubRead 0 3) (runEcc .correctable))).eccMark (absAddr 0 0 96) = none ∧
    faults (after (exec (.weightScrubRead 0 3) (runEcc .uncorrectable))) 0 = [(.eccUncorrectable, 0x75)] ∧
    (after (exec (.weightScrubRead 0 3) (runEcc .uncorrectable))).chk.errWord = 3 := by decide +kernel
theorem test_memory_scrub : faults (after (exec (.memoryScrubRead 0 .activation 4) (runEcc .uncorrectable))) 0 = [(.eccUncorrectable, 0x76)] ∧
    (after (exec (.memoryScrubRead 0 .activation 4) (runEcc .correctable))).eccMark (absAddr 1 0 16) = none := by decide +kernel

/-! ### Weight ingest -/

/-- A generation 1 of one shard, in a state, with its key or without. -/
def genA (st : GenState) (key : Option (BitVec 256)) : Gen :=
  { gen := 1, state := st, mode := .staged, copy := 0, entries := [{ index := 0, block := 0, vmodule := 0, vcore := 0, offset := 0, sha := 0 }], key := key, ticketKey := none,
    blocks := [], shards := [], begun := [], homes := [], back := none, lost := [], desc := some (1, 2), listed := true }
/-- A weight session with a manifest of one shard. -/
def sessA : Session := { owner := [1], manifest := some manA, manifestHash := 0 }
/-- A record of shard 0 with a magic. -/
def recShard (magic : BitVec 32) (n : Nat) : ShardRec :=
  { magic := magic, generation := 1, index := 0, mprefix := 0, nonce := 1, reservedZero := true, ciphertext := List.replicate n 0, tag := 0 }
/-- Slot 0 of I/O die 0 with the record in a phase. -/
def slotA (magic : BitVec 32) (ph : SlotPhase) : Slot := { shard := recShard magic 1, phase := ph, fn := 0, desc := some (1, 2), parent := none, waits := [] }
/-- Descriptor of a shard in slot 1 of die 0, or of a record in host memory. -/
def shardD (host : Nat) : BitVec 512 := descA (3 + 9 * 2 ^ 64 + host * 2 ^ 128 + 1 * 2 ^ 200)
/-- The function with a session, the generation and the slot. -/
def runIng (g : Gen) (x : Option Slot) : State :=
  (withDesc (shardD 0) { idle with slots := (match x with | some v => [(slotKey 0 0, some v)] | none => []) }).updFn 0 fun u =>
    { u with session := some sessA, gens := [g], exe := some { loadA with exe := exeA } }
theorem witness_shard_records : (runIng (genA .prepared none) none).up = true ∧ (runIng (genA .prepared none) none).taken 0 1 2 3 = some (fetchedA (shardD 0)) ∧
    (runIng (genA .prepared none) none).slot (slotKey 0 1) = none ∧ (runIng (genA .prepared none) none).slotNamed 0 1 = false ∧ 1 ∈ (runIng (genA .prepared none) none).ownSlots 0 ∧
    (runIng (genA .loading none) (some (slotA 0 .staged))).stepOne 0 (slotA 0 .staged) = some .rejectedFormat ∧
    (runIng (genA .loading (some 0)) (some (slotA shardMagic .staged))).stepOne 0 (slotA shardMagic .staged) = none ∧
    (runIng (genA .loading none) (some (slotA shardMagic .staged))).shardBusy (slotKey 0 0) (slotA shardMagic .staged) = false ∧
    AMap.wf none (runIng (genA .loading none) (some (slotA shardMagic .staged))).slots = true := by decide +kernel
/-- Whatever authenticated decryption answers for the record, either step 3 fails or its plaintext goes on to step 5. -/
theorem witness_shard_open : (runIng (genA .loading (some 0)) (some (slotA shardMagic .staged))).openShard (slotA shardMagic .staged) =
    Config.gcmOpen 0 1 (ShardRec.aad (recShard shardMagic 1)) [0] 0 := rfl
theorem test_shard_in_slot : ((after (exec (.weightShard 0 1 2 none) (runIng (genA .prepared none) none))).slot (slotKey 0 1)).map (fun x => x.phase) = some .staged := by
  decide +kernel
theorem test_shard_step_one : let t := after (exec (.shardRecordProcess 0 0) (runIng (genA .loading none) (some (slotA 0 .staged))))
    statuses t = [.rejectedFormat] ∧ t.distFail.reason = 1 ∧ t.slot (slotKey 0 0) = none := by decide +kernel

/-- GEN_COMMIT of generation 1 with an operation. -/
def commitD (op : Nat) : BitVec 512 := descA (4 + 9 * 2 ^ 64 + 1 * 2 ^ 128 + op * 2 ^ 160)
/-- The function with that descriptor. -/
def runGen (op : Nat) (g : Gen) : State :=
  (withDesc (commitD op) idle).updFn 0 fun u => { u with session := some sessA, gens := [g], exe := some { loadA with exe := exeA } }
theorem witness_generations : (runGen 1 (genA .prepared (some 0))).commitOf 0 1 2 1 = some 1 ∧ (genA .prepared (some 0)).isPrepared = true ∧ (genA .prepared none).isPrepared = false ∧
    ((runGen 1 (genA .prepared (some 0))).fn 0).commitFree 1 = true ∧ 2 * ((runGen 1 (genA .prepared (some 0))).fn 0).copyLen ≤ ((runGen 1 (genA .prepared (some 0))).func 0).wSize ∧
    (genA .prepared (some 0)).full 0 = false ∧ (runGen 3 (genA .rolling (some 0))).commitOf 0 1 2 3 = some 1 := by decide +kernel
theorem test_generations : (((after (exec (.genCommitStaged 0 1 2) (runGen 1 (genA .prepared (some 0))))).fn 0).gens.map fun g => (g.state, g.copy)) = [(.loading, 0)] ∧
    (((after (exec (.genCommitRolling 0 1 2) (runGen 2 (genA .prepared (some 0))))).fn 0).gens.map fun g => g.state) = [.rolling] ∧
    (((after (exec (.genCommitAbort 0 1 2) (runGen 3 (genA .rolling (some 0))))).fn 0).gens.map fun g => g.state) = [.incomplete] ∧
    statuses (after (exec (.genCommitStaged 0 1 2) (runGen 1 (genA .prepared none)))) = [.rejectedGeneration] := by decide +kernel

/-- A distribution entry with child 5 and parent 6, a request for shard 0 into slot 1 since timebase 0. -/
def distA : Dist := { gen := 1, parent := some 6, children := [{ module := 5, lo := 0, hi := 9 }], next := 0, asked := [(0, 1, 0)], fails := [], wanted := [] }
/-- The member with it; slot 0 of die 0 keeps the record for child 5. -/
def runDist : State := (runIng (genA .loading none) (some { slotA shardMagic .kept with waits := [(5, some 3)] })).updFn 0 fun u => { u with dists := [distA] }
theorem witness_notices : runDist.up = true ∧ runDist.childOf 5 1 0 = some 0 ∧ (runDist.heldAt 0 1 0).map (fun x => x.1) = some (slotKey 0 0) ∧
    noticeFrom (noticeOf 1 3 5 1 0) = 5 ∧ noticeGen (noticeOf 1 3 5 1 0) = 1 ∧ noticeShard (noticeOf 1 3 5 1 0) = 0 ∧ noticeSlot (noticeOf 1 3 5 1 0) = 3 ∧
    (runDist.fn 0).distOf 1 = some distA ∧ runDist.slot (slotKey 0 1) = none ∧ runDist.pf .ingDistCfg 0 10 = 50 := by decide +kernel
theorem test_request_ack_nack : (after (exec (.ingestRequest 0 (noticeOf 1 3 5 1 0)) runDist)).out.length = 2 ∧
    (after (exec (.ingestAck 0 (noticeOf 2 3 5 1 0)) runDist)).slot (slotKey 0 0) = none ∧ (after (exec (.ingestNack 0 (noticeOf 3 3 5 1 0)) runDist)).out.length = 2 := by decide +kernel
theorem test_ready_and_timeout : ((after (exec (.ingestReady 0 (noticeOf 4 1 6 1 0)) runDist)).slot (slotKey 0 1)).map (fun x => x.parent) = some (some 6) ∧
    (after (exec (.requestTimeout 0 1 0) { runDist with clk := { runDist.clk with timebase := 400000000 } })).out.contains (.notice 6 0 (noticeOf 1 1 0 1 0)) = true ∧
    (after (exec (.requestTimeout 0 1 0) { runDist with clk := { runDist.clk with timebase := 399999999 } })).out = [] := by decide +kernel
/-- The activation region of 64 bytes at 128 is in SCRUBBING. -/
def runTeasel : State := { up with mem := [(absAddr 1 0 128, 1), (absAddr 1 0 192, 1)], teasel := [{ fn := 0, space := 1, part := 0x18C, base := 128, size := 64 }] }
theorem witness_teasel : runTeasel.up = true ∧ runTeasel.inv = true ∧ runTeasel.allPasses = [] ∧ (Part.of 0x18C).hasDie 0 = true := by decide +kernel

/-! ### Power, start-up and resets -/

/-- The power manager in a phase. -/
def inPhase (ph : Phase) (s : State) : State := { s with power := { s.power with phase := ph } }
/-- Two samples above the power limit; an emergency with 99 low samples. -/
def runAbove : State := { up with power := { up.power with above := 2 } }
def runLow : State := { up with power := { up.power with emergency := true, below := 99, temps := List.replicate 64 90 } }
/-- A local step is due in frame 4. -/
def runLocal : State := { atSg 100 (leaf up) with power := { up.power with stepDue := some 4 } }
theorem witness_power : (∀ d, (up.reporter d).length < 16) ∧ up.power.phase = .ready ∧ up.up = true ∧ up.chk.fatal = false ∧ up.power.emergency = false ∧
    10 * up.fuses.ilimit.toNat < 5001 ∧ up.fuses.plimit.toNat * 100000 = 48000 * 3437 + 24000 ∧ 2 ≤ runAbove.power.above ∧ 99 ≤ runLow.power.below ∧
    (∀ v ∈ runLow.power.temps, v + 5 ≤ (up.fuses.throttle.toNat : Int)) ∧ runLocal.clk.sg = 100 ∧ runLocal.power.stepDue = some 4 ∧ up.power.pwrGood = true := by
  exact ⟨fun _ => (Nat.succ_pos 15 : 0 < 16), by decide +kernel, by decide +kernel, by decide +kernel, by decide +kernel, by decide +kernel, by decide +kernel,
    by decide +kernel, by decide +kernel, by decide +kernel, by decide +kernel, by decide +kernel, by decide +kernel⟩
/-- 50.01 A is above the fused 500 A / 10; 1,650 W is 48 V × 34.375 A. -/
theorem test_power_sample : (let t := after (exec (.powerSample 48000 5001) up); t.power.source = 2 ∧ faults t 12 = [(.powerLimit, 0x01)] ∧ t.power.stepDue = some 5) ∧
    (after (exec (.powerSample 48000 3438) runAbove)).power.source = 1 ∧ (after (exec (.powerSample 48000 3437) runAbove)).power.above = 0 := by decide +kernel
theorem test_emergency_ends : (after (exec (.powerSample 48000 1000) runLow)).power.emergency = false := by decide +kernel
/-- The throttle temperature is 95 °C and the trip temperature 110 °C. -/
theorem test_temperature : (let t := after (exec (.temperatureSample ((95, 20) :: List.replicate 63 (20, 20))) up); t.power.source = 3 ∧ t.power.phase = .ready) ∧
    (let t := after (exec (.temperatureSample ((20, 110) :: List.replicate 63 (20, 20))) up); t.power.phase = .tripped ∧ t.power.thermtrip = true) := by decide +kernel
theorem test_local_step : let t := after (exec .localStep runLocal)
    t.clk.period = 20 ∧ t.timeRoot = true ∧ t.skein.state = .detached ∧ t.clk.frameStart = 264000 := by decide +kernel
theorem test_rail : let t := after (exec (.railExcursion 2) up)
    t.power.pwrGood = false ∧ faults t 12 = [(.powerLimit, 0x02)] ∧ t.chk.fatal = true := by decide +kernel
/-- A wish of 12 and a mean of 1,601 W against the cap of 1,650 W: the next larger code is 13. -/
theorem test_wish : (after (exec .powerWishEvaluation { up with power := { up.power with wish := 12, samples := [160100000] } })).power.wish = 13 ∧
    (after (exec .powerWishEvaluation { up with power := { up.power with wish := 12, samples := [160000000] } })).power.wish = 12 := by decide +kernel

/-- A self-test that finds core 1 faulty. -/
def selfA : SelfTest := { fenced := [1], bypassed := [], diesOut := [], linkBeyondRepair := false, io0HubFails := false, kemSeed := 0 }
theorem witness_start_up : State.reset.power.inputGood = false ∧ State.reset.power.tripped = false ∧ AMap.wf none State.reset.passes = true ∧
    AMap.wf Core.reset State.reset.cores = true ∧ AMap.wf none run.passes = true ∧ AMap.wf Core.reset run.cores = true ∧
    (inPhase .held { up with power := { up.power with cause := .perst } }).power.phase = .held ∧ (inPhase .tampered up).power.phase = .tampered ∧
    (inPhase .jtagHeld up).power.perst = false ∧ up.power.inputGood = true ∧ (inPhase (.warmPending true) up).power.phase = .warmPending true ∧
    TamperSensor.lidMesh ≠ .rail ∧ (0 : Nat) ≤ up.numVfs ∧ up.sec.next = 0 ∧ up.sec.topLeaf < 2 ^ 20 ∧ true ∈ up.sec.copies := by decide +kernel
theorem test_resets : (after (exec .perstAssert run)).power.phase = .held ∧ (after (exec .perstAssert run)).cores = [] ∧
    (after (exec .inputLost run)).power.phase = .unpowered ∧ (after (exec (.tamperEvent .lidMesh 3) run)).sec.sensor = 4 ∧
    (after (exec (.perstDeassert selfA) (inPhase .held up))).power.phase = .ready := by decide +kernel
theorem test_flr_and_vfs : ((after (exec (.flr 0) idle)).fn 0).exe = none ∧ (after (exec (.vfEnable 3) up)).numVfs = 3 := by decide +kernel
theorem test_tree : (after (exec .treeGenerationComplete up)).sec.next = 1 ∧ (after (exec .treeGenerationComplete { up with sec := { up.sec with leaf := 2 ^ 20 } })).sec.tree = 1 ∧
    (after (exec (.entropyHealthTest true) up)).sec.trng = true := by decide +kernel

/-! ### Vedihar messages -/

/-- The PF's doorbell page names request 5, and request 4 has been answered. -/
def withMbx (s : State) : State := s.updFn 0 fun u => { u with pageAddr := 0x2000, pageSeq := 5, mbxSeq := 4, mbxCache := some (.done, 7, [1]) }
/-- Request 5 of the PF. -/
def mbx5 : Mbx := { f := 0, major := 3, minor := 0, seq := 5, respAddr := 0x1000, respLen := 4096 }
theorem witness_asked : Asked (withMbx idle) mbx5 ∧ (withMbx idle).inv = true ∧ AMap.wf none idle.passes = true ∧ (withMbx idle).sec.kem = none ∧
    ((withMbx idle).fn 0).session = none ∧ idle.power.phase = .ready ∧ idle.sec.debug = false :=
  ⟨⟨by decide +kernel, by decide +kernel, by decide +kernel, by decide +kernel, by decide, by decide, by decide, by decide⟩, by decide +kernel, by decide, by decide, by decide +kernel,
    by decide, by decide⟩
/-- The repeated, the unexpected and the foreign request. -/
theorem witness_not_asked : ({ mbx5 with seq := 4 } : Mbx).seq = ((withMbx idle).fn 0).mbxSeq ∧ ((withMbx idle).fn 0).mbxCache = some (.done, 7, [1]) ∧
    ({ mbx5 with seq := 9 } : Mbx).seq ≠ ((withMbx idle).fn 0).mbxSeq + 1 ∧ ({ mbx5 with major := 2 } : Mbx).major ≠ 3 := by decide +kernel
/-- Response status of the newest response. -/
def answer (t : State) : Option Status := t.out.findSome? fun o => match o with
  | .response _ _ _ st _ _ => some st
  | _ => none
theorem test_mailbox_order : answer (after (exec (.weightSessionOpen { mbx5 with seq := 4 }) ((withMbx idle).updFn 0 fun u => { u with pageSeq := 4 }))) = some .done ∧
    answer (after (exec (.weightSessionOpen { mbx5 with seq := 9 }) ((withMbx idle).updFn 0 fun u => { u with pageSeq := 9 }))) = some .rejectedState ∧
    answer (after (exec (.weightSessionOpen { mbx5 with major := 2 }) (withMbx idle))) = some .rejectedCapability := by decide +kernel
/-- A session without an owner key; one with a key, a manifest and generation 1. -/
def withSession (owner : List Byte) (man : Option Manifest) : State :=
  (withMbx idle).updFn 0 fun u => { u with session := some { owner := owner, manifest := man, manifestHash := 0 }, gens := [genA .prepared none] }
theorem test_session : ((after (exec (.weightSessionOpen mbx5) (withMbx idle))).fn 0).session = some { owner := [], manifest := none, manifestHash := 0 } ∧
    (((after (exec (.ownerKey mbx5 (List.replicate 60 7)) (withSession [] none))).fn 0).session.map fun x => x.owner) = some (List.replicate 60 7) ∧
    ((after (exec (.weightSessionClose mbx5) (withSession [1] (some manA)))).fn 0).session = none ∧
    (((after (exec (.distributionEntry mbx5 1 (some 6) []) (withSession [1] (some manA)))).fn 0).dists.map fun b => b.parent) = [some 6] := by decide +kernel
/-- A module with a key pair and a healthy entropy source. -/
def kemIdle : State := { idle with sec := { idle.sec with kem := some 3, trng := true } }
theorem witness_session : (∃ x, ((withSession [] none).fn 0).session = some x ∧ x.owner = []) ∧ manifestOk manA = manifestOk manA ∧
    ((withSession [1] (some manA)).fn 0).genOf 1 ≠ none ∧ (genA .prepared none).listed = true ∧ (kemIdle.sec.kem = some 3 ∧ kemIdle.sec.trng = true) := by
  exact ⟨⟨_, rfl, rfl⟩, rfl, by decide +kernel, by decide, by decide +kernel⟩
theorem test_library_and_warm : (after (exec (.moduleWarm mbx5) (withMbx idle))).power.phase = .warmPending false ∧
    (after (exec (.skeinReset mbx5) (withMbx (inner idle)))).skein.state = .none ∧
    answer (after (exec (.libraryLoad mbx5 imgA) (withMbx idle))) = some .rejectedState := by decide +kernel
theorem test_observation_set_ups : (((after (exec (.dumpBufferSetup mbx5 0x4000 2) (withMbx idle))).fn 0).dump.map fun b => (b.addr, b.slots)) = some (0x4000, 2) ∧
    (((after (exec (.logRingSetup mbx5 0x4000 6) (withMbx idle))).fn 0).log.map fun b => b.log2) = some 6 ∧
    (((after (exec (.traceRingSetup mbx5 0x4000 20 9) (withMbx idle))).fn 0).trace.map fun b => b.mask) = some 9 ∧
    answer (after (exec (.dumpBufferSetup mbx5 0x4001 2) (withMbx idle))) = some .rejectedFormat := by decide +kernel
theorem test_observation_query : answer (after (exec (.observationQuery mbx5) (withMbx idle))) = some .done := by decide +kernel
theorem test_keys_without_power_up : answer (after (exec (.encapsulationKey mbx5) (withMbx idle))) = some .rejectedState ∧
    answer (after (exec (.keyedWarm mbx5) (withMbx idle))) = some .rejectedState ∧
    answer (after (exec (.debugUnlock mbx5 0 0 0 [] []) (withMbx idle))) = some .rejectedFormat := by decide +kernel

/-! ### Host register and window accesses -/

theorem witness_registers : up.lock = false ∧ (Part.of ((0x18C : W32).setWidth 128)).col + (Part.of ((0x18C : W32).setWidth 128)).ncols ≤ 3 ∧ up.live 0 = true ∧
    (∀ f : FnId, (up.fn f.val).exe = none) ∧ (up.func 1).enable = false ∧ up.serving 0 = true ∧ up.skein.state = .none ∧
    (inner up).skein.state ≠ .none ∧ up.allPasses = [] ∧ (atSg 100 { up with obs := { up.obs with written := [0] } }).obs.written ≠ [] := by decide +kernel
theorem test_lock : (after (exec (.setLockWrite 0 false) (after (exec (.setLockWrite 0 true) up)))).lock = true := by decide +kernel
/-- 5,000 is above the range of the scrub interval, 250 to 4,000; locked, it stays at its reset value of 1,000. -/
theorem test_clamp : (after (exec (.registerWrite 0 .chkScrub 5000) up)).pf .chkScrub 0 13 = 4000 ∧
    (after (exec (.registerWrite 0 .chkScrub 300) (after (exec (.setLockWrite 0 true) up)))).pf .chkScrub 0 13 = 1000 ∧
    (after (exec (.registerWrite 0 .clkStepReq 15) up)).pf .clkStepReq 0 5 = 16 := by decide +kernel
theorem test_module_id : (after (exec (.registerWrite 0 .fabModuleId 9) up)).moduleId = 9 ∧ (after (exec (.registerWrite 0 .fabModuleId 9) (inner up))).moduleId = 0 := by
  decide +kernel
theorem test_set_part : ((after (exec (.setPartWrite 0 1 0x18C) up)).part 1).enable = false ∧ ((after (exec (.setPartWrite 0 0 0) up)).part 0).enable = false := by decide +kernel
theorem test_set_func_and_qos : ((after (exec (.setFuncWrite 0 0 0) up)).func 0).enable = false ∧
    fld ((after (exec (.setQosApply 0) (up.setReg 0 (.setQos 0) 5))).fn 0).qos 0 8 = 5 := by decide +kernel
theorem test_service_requests : ((after (exec (.fenceReq 3) up)).core 3).svc = .fenced ∧
    ((after (exec (.bypassReq 3) { up with scheduled := false, fns := [] })).core 3).svc = .bypassed ∧
    (after (exec (.oosReq 2) { up with scheduled := false, fns := [] })).diesOut = [2] ∧
    ((after (exec (.portRetrain 3) (runTree .full))).port 3).state = .full := by decide +kernel
theorem test_w1c_and_reads : (after (exec (.w1cClear .secTamperNew) { up with sec := { up.sec with newTamper := true } })).sec.newTamper = false ∧
    (after (exec .chkFaultClear { up with chk := { up.chk with first := some (recA .queueStall .contained) } })).chk.first = none ∧
    (after (exec (.timebaseRead ⟨.timebaseHi, 0⟩) (after (exec (.timebaseRead ⟨.timebaseLo, 0⟩) { up with clk := { up.clk with timebase := 0x500000007 } })))).out = [.readValue 5, .readValue 7] := by
  decide +kernel
theorem test_obs_apply : (after (exec .obsCntCfgApply (atSg 100 { up with obs := { up.obs with written := [0] } }))).obs.written = [] := by decide +kernel
/-- A dump buffer of two slots and a dump in every frame. -/
def runDump : State := (atSg 100 (up.setReg 0 .obsCtrl 1)).updFn 0 fun u => { u with dump := some { addr := 0x4000, slots := 2, seq := 0, skips := 0 } }
theorem witness_dump : runDump.pf .obsCtrl 0 16 = 1 ∧ runDump.clk.sg = 100 ∧ runDump.obs.latched ≠ some runDump.clk.frame ∧
    ((runDump.fn 0).dump.map fun b => b.seq + b.skips) = some 0 := by decide +kernel
theorem test_dump_latch : (((after (exec .dumpLatch runDump)).fn 0).dump.map fun b => b.seq) = some 1 := by decide +kernel

/-- Host windows: the I/O dies below 0x1000_0000, core 1's activation memory from 0x4_0000_0000 + 0x40_0000. -/
theorem witness_host_accesses : up.live 0 = true ∧ up.inv = true ∧ (BitVec.ofNat 36 0x400400040).toNat = 0x400000000 + 0x200000000 * (1 - 1) + 0x400000 * 1 + 0x40 ∧
    up.windowScrubbed 1 1 0x40 2 = false ∧ up.windowScrubbed 4 1 32 2 = false ∧
    (BitVec.ofNat 36 0xA00400020).toNat = 0x400000000 + 0x600000000 + 0x400000 * 1 + 8 * 4 ∧ runTeasel.windowScrubbed 1 0 128 2 = true := by decide +kernel
theorem test_host_window : ((after (exec (.hostWindowWrite 0 0x400400040 [7, 8]) up)).core 1).queue.map (fun x => (x.kind, x.addr, x.data)) = [(.hostWrite, absAddr 1 1 64, [7, 8])] ∧
    ((after (exec (.hostWindowRead 0 0x400400040 2) up)).core 1).queue.map (fun x => x.len) = [2] ∧
    (after (exec (.hostWindowRead 0 0x10000000 2) up)).out.contains (.windowData 0 [0, 0]) = true ∧
    memGet (after (exec (.hostWindowWrite 0 0x4000010 [9]) up)).mem (absAddr 5 1 0x10) 1 = [9] := by decide +kernel
theorem test_host_counter : ((after (exec (.hostWindowWrite 0 0xA00400020 [3, 1]) up)).counter 1 4).count = 259 := by decide +kernel
/-- A VF that owns no slot. -/
theorem test_vf_slot : (after (exec (.stagingSlotWrite 1 0 0 (recShard 0 1)) { up with numVfs := 1 })).mem = [] := by decide +kernel

/-! ### Sideband -/

theorem witness_side : up.power.inputGood = true ∧ up.power.pwrGood = true ∧ up.up = true := by decide +kernel
theorem test_pldm : (after (exec (.pldmSensorRead .inVoltage) { up with power := { up.power with voltage := 48000 } })).out = [.sideband [48000]] ∧
    (after (exec (.pldmEventSubscription .moduleState) up)).side.subscribed = [.moduleState] ∧ (after (exec (.channelSelectorWrite 7) up)).side.channel = some 7 ∧
    (after (exec (.channelSelectorWrite 8) up)).side.channel = none := by decide +kernel
theorem test_fru : (after (exec .pldmFruRead up)).out.length = 1 := by decide +kernel
theorem test_jtag : (after (exec .idcode up)).out = [.sideband [0x21728A9B]] ∧ (after (exec .bypass up)).side.jtag = .bypass ∧
    (after (exec .samplePreload up)).side.jtag = .samplePreload ∧ (after (exec .highz run)).power.phase = .jtagHeld ∧ (after (exec .extest run)).cores = [] := by decide +kernel

/-! ### The module -/

/-- A module of grade S whose spares are the first sixteen cores of each die, core 0 among them and core 52 not. -/
def spared : State := { up with fuses := { up.fuses with grade := .s, spares := List.replicate 12 0xFFFF } }
theorem witness_spares_and_units : spared.windowSpare 0 = true ∧ spared.windowSpare 52 = false ∧ up.windowSpare 0 = false ∧
    spared.serving 0 = true ∧ spared.serving 52 = true ∧ spared.windowScrubbed 1 52 0 1 = false ∧ up.warming = false ∧ runRings.pollDue 0 = true ∧
    ({ run with chk := { run.chk with hashUpset := some 1 } } : State).chk.hashUpset = some 1 ∧ (run.reporter 13).length < 16 := by decide +kernel
/-- A write to a spare of the window changes no core; one to a serving core waits in its queue. -/
theorem test_window_spare : (after (exec (.hostWindowWrite 0 0x400000000 [7]) spared)).cores = [] ∧
    ((after (exec (.hostWindowWrite 0 0x40D000000 [7]) spared)).core 52).queue.length = 1 := by decide +kernel

theorem test_step : (after (step { run with pending := [.sset 0 .vxe 3 5, .nop 0 .vxe 0 0] })).pending = [.nop 0 .vxe 0 0] ∧
    (after (step { run with pending := [.sset 0 .vxe 3 5] })).sreg 0 .vxe 3 1 = 5 ∧ (after (step run)).pending = [] := by decide +kernel
theorem witness_step_invariant : ({ run with pending := [.sset 0 .vxe 3 5] } : State).inv = true ∧ goes (step { run with pending := [.sset 0 .vxe 3 5] }) = true := by
  decide +kernel

/-- Two events two cycles apart are two edges, and one between them joins them (R433); a carry out of a chained pair is flagged
in its upper counter (R434). -/
theorem test_edges : AMap.get 0 (edgeProg (edgeProg Obs.reset false 0 0 5 6) false 0 0 7 8).prog 0 = 2 ∧
    AMap.get 0 (edgeProg (edgeProg (edgeProg Obs.reset false 0 0 5 6) false 0 0 7 8) false 0 0 6 7).prog 0 = 1 ∧
    (addProg { Obs.reset with prog := [(0, 0xFFFFFFFFFFFF), (1, 0xFFFFFFFFFFFF)] } true 0 1).ovf = [1] := by decide +kernel

end Sys2Proof.Tests
end

section
/-!
PROOFS. The long accumulator (R35 to R37): what one block does to each of its fields, and when the blocks of a reduction
violate the span, said of the live blocks as a set, so that their order cannot matter.
-/
namespace Sys2Proof.Machine

/-- The exact value V of a long accumulator (R35). -/
def Acc.value (a : Acc) : Rat := (a.num : Rat) * (2 : Rat) ^ a.exp

/-- Emin after a live block at exponent `e` (R36). -/
def Acc.eminWith (a : Acc) (e : Int) : Int := a.emin.elim e fun v => min v e

/-- Emax after a live block at exponent `e` (R36). -/
def Acc.emaxWith (a : Acc) (e : Int) : Int := a.emax.elim e fun v => max v e

/-- Faults of the term limit (R37). -/
def Acc.termFaults (a : Acc) : List (Cause × Byte) := if 2 ^ 24 < a.terms + 32 then [(.accumRange, 0x01)] else []

/-- Faults of the span when a live block at exponent `e` arrives (R36). -/
def Acc.spanFaults (a : Acc) (e : Int) : List (Cause × Byte) :=
  if 63 < a.emaxWith e - a.eminWith e then [(.scaleSpan, 0x01)] else []

/-- Faults of a loaded value's window when a live block at exponent `e` arrives (R42). -/
def Acc.windowFaults (l : Int) (a : Acc) (e : Int) : List (Cause × Byte) :=
  a.loaded.elim [] fun q => if q - l ≤ e ∧ e ≤ q - l + 63 then [] else [(.scaleSpan, 0x03)]

theorem Acc.mem_termFaults (a : Acc) (f : Cause × Byte) :
    f ∈ a.termFaults ↔ 2 ^ 24 < a.terms + 32 ∧ f = (.accumRange, 0x01) := by
  simp [Acc.termFaults]

theorem Acc.mem_spanFaults (a : Acc) (e : Int) (f : Cause × Byte) :
    f ∈ a.spanFaults e ↔ 63 < a.emaxWith e - a.eminWith e ∧ f = (.scaleSpan, 0x01) := by
  simp [Acc.spanFaults]

theorem Acc.not_mem_windowFaults (l : Int) (a : Acc) (e : Int) {f : Cause × Byte} (hf : f ≠ (.scaleSpan, 0x03)) :
    f ∉ a.windowFaults l e := by
  unfold Acc.windowFaults
  cases a.loaded with
  | none => simp
  | some q =>
    rw [Option.elim_some]
    split_ifs
    · exact List.not_mem_nil
    · exact fun h => hf (List.mem_singleton.1 h)

/-! ### One block -/

section
variable (l : Int) (a : Acc) (b : Block)

/-- A block of zero products is counted and does nothing else (R36). -/
theorem Acc.take_of_not_live (hb : b.live = false) :
    a.take l b = ({ a with terms := a.terms + 32 }, a.termFaults) := by
  simp [Acc.take, Acc.termFaults, hb]

theorem Acc.take_faults_of_live (hb : b.live = true) :
    (a.take l b).2 = a.spanFaults b.e ++ a.windowFaults l b.e ++ a.termFaults := by
  unfold Acc.take Acc.spanFaults Acc.windowFaults Acc.termFaults Acc.emaxWith Acc.eminWith
  rw [hb]
  cases a.emin <;> cases a.emax <;> cases a.loaded <;> rfl

theorem Acc.take_emin_of_live (hb : b.live = true) : (a.take l b).1.emin = some (a.eminWith b.e) := by
  unfold Acc.take Acc.eminWith
  rw [hb]
  cases a.emin <;> rfl

theorem Acc.take_emax_of_live (hb : b.live = true) : (a.take l b).1.emax = some (a.emaxWith b.e) := by
  unfold Acc.take Acc.emaxWith
  rw [hb]
  cases a.emax <;> rfl

theorem Acc.take_terms : (a.take l b).1.terms = a.terms + 32 := by
  unfold Acc.take
  cases b.live <;> rfl

/-- The term limit (R37) holds whether or not the block takes part in the span. -/
theorem Acc.accumRange_mem_take :
    (Cause.accumRange, (0x01 : Byte)) ∈ (a.take l b).2 ↔ 2 ^ 24 < a.terms + 32 := by
  cases hb : b.live with
  | false => simp [Acc.take_of_not_live l a b hb, Acc.mem_termFaults]
  | true =>
    simp [Acc.take_faults_of_live l a b hb, Acc.mem_termFaults, Acc.mem_spanFaults, Acc.not_mem_windowFaults]

/-- Only a live block meets the span limit (R36); the window of a loaded value has a detail of its own. -/
theorem Acc.scaleSpan_mem_take :
    (Cause.scaleSpan, (0x01 : Byte)) ∈ (a.take l b).2 ↔ b.live = true ∧ 63 < a.emaxWith b.e - a.eminWith b.e := by
  cases hb : b.live with
  | false => simp [Acc.take_of_not_live l a b hb, Acc.mem_termFaults]
  | true =>
    simp [Acc.take_faults_of_live l a b hb, Acc.mem_termFaults, Acc.mem_spanFaults, Acc.not_mem_windowFaults]

/-- Moving the anchor down is exact (R35). -/
theorem shifted_mul_zpow (n : Int) {e x : Int} (hx : x ≤ e) :
    ((n * 2 ^ (e - x).toNat : Int) : Rat) * (2 : Rat) ^ x = (n : Rat) * (2 : Rat) ^ e := by
  have he : e = ((e - x).toNat : Int) + x := by omega
  conv_rhs => rw [he, zpow_add₀ two_ne_zero, zpow_natCast]
  push_cast
  ring

/-- Accumulation is exact (R35), whatever faults the block raises. -/
theorem Acc.take_value :
    (a.take l b).1.value = a.value + if b.live then (b.sum : Rat) * (2 : Rat) ^ (b.e + l) else 0 := by
  cases hb : b.live with
  | false => simp [Acc.take_of_not_live l a b hb, Acc.value]
  | true =>
    by_cases hn : a.num = 0
    · simp [Acc.take, Acc.value, hb, hn]
    · have ha := shifted_mul_zpow a.num (min_le_left a.exp (b.e + l))
      have hs := shifted_mul_zpow b.sum (min_le_right a.exp (b.e + l))
      simp only [Acc.take, Acc.value, hb, hn, if_false, if_true, Bool.not_true, Bool.false_eq_true]
      rw [Int.cast_add, add_mul, ha, hs]

/-- A block is live exactly when one of its products is not zero. -/
theorem mkBlock_live_iff {wt act : List Int × Option Int} {gw ga : Int} (scale : Int) (hw : wt.2 = some gw)
    (ha : act.2 = some ga) :
    (mkBlock wt act scale).live = true ↔ ∃ p ∈ List.zipWith (· * ·) wt.1 act.1, p ≠ 0 := by
  simp only [mkBlock, hw, ha, List.any_eq_true, bne_iff_ne]

/-! ### The blocks of a reduction -/

/-- The faults that a fold of `take` starts with stay in front. -/
theorem Acc.foldl_take_faults (bs : List Block) (fs : List (Cause × Byte)) :
    (bs.foldl (fun o b => let r := o.1.take l b; (r.1, o.2 ++ r.2)) (a, fs)).2 = fs ++ (a.takeAll l bs).2 := by
  unfold Acc.takeAll
  induction bs generalizing a fs with
  | nil => simp
  | cons b bs ih =>
    simp only [List.foldl_cons, List.nil_append]
    rw [ih _ (fs ++ _), ih _ (a.take l b).2, List.append_assoc]

theorem Acc.takeAll_cons_faults (bs : List Block) :
    (a.takeAll l (b :: bs)).2 = (a.take l b).2 ++ ((a.take l b).1.takeAll l bs).2 :=
  Acc.foldl_take_faults l (a.take l b).1 bs (a.take l b).2

theorem Acc.eminWith_take (hb : b.live = true) (e : Int) : (a.take l b).1.eminWith e = min (a.eminWith b.e) e := by
  simp [Acc.eminWith, Acc.take_emin_of_live l a b hb]

theorem Acc.emaxWith_take (hb : b.live = true) (e : Int) : (a.take l b).1.emaxWith e = max (a.emaxWith b.e) e := by
  simp [Acc.emaxWith, Acc.take_emax_of_live l a b hb]

/-- Some two live blocks of a reduction, or one of them and the accumulator's own span, are more than 63 binades apart
(R36). -/
def Acc.Overspans (a : Acc) (bs : List Block) : Prop :=
  ∃ x ∈ bs, ∃ y ∈ bs, x.live = true ∧ y.live = true ∧ 63 < a.emaxWith x.e - a.eminWith y.e

theorem Acc.Overspans.perm {a : Acc} {bs bs' : List Block} (h : bs.Perm bs') : a.Overspans bs ↔ a.Overspans bs' := by
  simp only [Acc.Overspans, h.mem_iff]

theorem Acc.overspans_cons_of_not_live (hb : b.live = false) (bs : List Block) :
    a.Overspans (b :: bs) ↔ (a.take l b).1.Overspans bs := by
  simp [Acc.Overspans, Acc.take_of_not_live l a b hb, Acc.eminWith, Acc.emaxWith, hb]

theorem Acc.eminWith_le (e : Int) : a.eminWith e ≤ e := by
  unfold Acc.eminWith
  cases a.emin <;> simp

theorem Acc.le_emaxWith (e : Int) : e ≤ a.emaxWith e := by
  unfold Acc.emaxWith
  cases a.emax <;> simp

theorem Acc.min_eminWith_le (e e' : Int) : min (a.eminWith e) e' ≤ a.eminWith e' := by
  unfold Acc.eminWith
  cases a.emin with
  | none => exact min_le_right _ _
  | some v => exact min_le_min_right _ (min_le_left _ _)

theorem Acc.emaxWith_le_max (e e' : Int) : a.emaxWith e' ≤ max (a.emaxWith e) e' := by
  unfold Acc.emaxWith
  cases a.emax with
  | none => exact le_max_right _ _
  | some v => exact max_le_max_right _ (le_max_left _ _)

/-- A live block and those after it break the span exactly when it does on arrival, or they do against the Emin and Emax
that it leaves behind. -/
theorem Acc.overspans_cons_of_live (hb : b.live = true) (bs : List Block) :
    a.Overspans (b :: bs) ↔ 63 < a.emaxWith b.e - a.eminWith b.e ∨ (a.take l b).1.Overspans bs := by
  simp only [Acc.Overspans, Acc.eminWith_take l a b hb, Acc.emaxWith_take l a b hb]
  constructor
  · rintro ⟨x, hx, y, hy, hxl, hyl, h⟩
    have hmax := a.emaxWith_le_max b.e x.e
    have hmin := a.min_eminWith_le b.e y.e
    rcases List.mem_cons.1 hx with rfl | hxs <;> rcases List.mem_cons.1 hy with rfl | hys
    · exact .inl h
    · exact .inr ⟨y, hys, y, hys, hyl, hyl, by omega⟩
    · exact .inr ⟨x, hxs, x, hxs, hxl, hxl, by omega⟩
    · exact .inr ⟨x, hxs, y, hys, hxl, hyl, by omega⟩
  · have hhead : b ∈ b :: bs := List.mem_cons_self
    rintro (h | ⟨x, hx, y, hy, hxl, hyl, h⟩)
    · exact ⟨b, hhead, b, hhead, hb, hb, h⟩
    · have hmax := a.le_emaxWith x.e
      have hmin := a.eminWith_le y.e
      have hx := List.mem_cons_of_mem b hx
      have hy := List.mem_cons_of_mem b hy
      rcases le_total (a.emaxWith b.e) x.e with hbx | hbx <;> rcases le_total (a.eminWith b.e) y.e with hby | hby
      · exact ⟨x, hx, b, hhead, hxl, hb, by omega⟩
      · exact ⟨x, hx, y, hy, hxl, hyl, by omega⟩
      · exact ⟨b, hhead, b, hhead, hb, hb, by omega⟩
      · exact ⟨b, hhead, y, hy, hb, hyl, by omega⟩

/-- A reduction meets the span limit exactly when its live blocks, as a set, break it (R36). -/
theorem Acc.scaleSpan_mem_takeAll (bs : List Block) :
    (Cause.scaleSpan, (0x01 : Byte)) ∈ (a.takeAll l bs).2 ↔ a.Overspans bs := by
  induction bs generalizing a with
  | nil => simp [Acc.takeAll, Acc.Overspans]
  | cons b bs ih =>
    rw [Acc.takeAll_cons_faults, List.mem_append, Acc.scaleSpan_mem_take, ih]
    cases hb : b.live with
    | false => simp [Acc.overspans_cons_of_not_live l a b hb]
    | true => simp [Acc.overspans_cons_of_live l a b hb]

end

/-- Settles O14: block by block from the lemmas on `Acc.take`, and for the order of a reduction from `Acc.Overspans`, which
says nothing of it. -/
theorem exactAccumulation : Obligations.ExactAccumulation := by
  refine ⟨fun l a b => ⟨fun _ => a.take_value l b, a.take_terms l b, a.accumRange_mem_take l b, fun hb => ?live, fun hb => ?zero⟩,
    fun wt act gw ga scale hw ha => mkBlock_live_iff scale hw ha, fun l a bs bs' h => ?order⟩
  case live =>
    have hspan := a.scaleSpan_mem_take l b
    rw [hb, eq_self, true_and] at hspan
    rw [Acc.take_emin_of_live l a b hb, Acc.take_emax_of_live l a b hb]
    unfold Acc.eminWith Acc.emaxWith at hspan ⊢
    revert hspan
    cases a.emin <;> cases a.emax <;> exact fun hspan => ⟨rfl, rfl, hspan⟩
  case zero =>
    have hspan : (Cause.scaleSpan, (0x01 : Byte)) ∉ (a.take l b).2 := by rw [Acc.scaleSpan_mem_take, hb]; simp
    rw [Acc.take_of_not_live l a b hb] at hspan ⊢
    exact ⟨rfl, rfl, rfl, rfl, hspan⟩
  case order => rw [Acc.scaleSpan_mem_takeAll, Acc.scaleSpan_mem_takeAll, Acc.Overspans.perm h]

end Sys2Proof.Machine
end

section
/-!
PROOFS. What an engine's queue holds after one instruction of a ready engine: the queue that has gone on (R139, R142), the
register that the instruction wrote (R131), or the fault of its queue cycle and nothing else (R88).
-/
namespace Sys2Proof.Machine

/-! ### Registers -/

/-- The latest of the results due by cycle `n` is due by then. -/
theorem latest_due_le {α : Type} {n : Nat} (l : List (Nat × α)) (a : Nat × α) (ha : a.1 ≤ n)
    (hl : ∀ p ∈ l, p.1 ≤ n) : (l.foldl (fun (a : Nat × α) p => if a.1 ≤ p.1 then p else a) a).1 ≤ n := by
  induction l generalizing a with
  | nil => exact ha
  | cons p l ih =>
    rw [List.foldl_cons]
    refine ih _ ?_ fun q hq => hl q (List.mem_cons_of_mem p hq)
    split_ifs
    · exact hl p List.mem_cons_self
    · exact ha

/-- A result is visible in the cycle in which it falls due (R94, R131). -/
@[simp] theorem TReg.view_put_due {α : Type} (r : TReg α) (t due : Nat) (v : α) : (r.put t due v).view due = v := by
  have hle := latest_due_le (((r.pend.filter fun p => decide (t < p.1)).filter fun p => decide (p.1 ≤ due)))
    (0, r.view t) (Nat.zero_le due) fun p hp => by simpa using (List.mem_filter.1 hp).2
  simp only [TReg.put, TReg.view, List.filter_append, List.foldl_append, List.filter_singleton, le_refl, decide_true,
    cond_true, List.foldl_cons, List.foldl_nil] at hle ⊢
  rw [if_pos hle]

/-- The engine whose scalar register an instruction writes. -/
theorem Work.engine_setS (k : Work) (x : Ctx) (i l : Nat) (v : W32) :
    (k.setS x i l v).s.engine x.c x.e = { k.s.engine x.c x.e with
      sregs := AMap.upd TReg.zero (k.s.engine x.c x.e).sregs i fun r => r.put x.t (x.at l) v } :=
  State.engine_updEngine_same _ _ _ _

theorem State.sreg_of_engine {t : State} {c : Nat} {e : Eng} {q : Engine} (h : t.engine c e = q) (i n : Nat) :
    t.sreg c e i n = (AMap.get TReg.zero q.sregs i).view n := by
  rw [State.sreg, h]

/-! ### An instruction that issues -/

@[simp] theorem State.faults_updEngine (s : State) (c : Nat) (e : Eng) (f : Engine → Engine) :
    ((s.updEngine c e f).core c).faults = (s.core c).faults := by
  rw [State.core_updEngine_same, Core.setEngine_faults]

theorem Committed.engine {s t : State} {i : Issued} (h : Committed s t i) :
    t.engine i.x.c i.x.e = (s.engine i.x.c i.x.e).advance i := by
  unfold State.engine
  rw [h.core]
  cases i.x.e <;> rfl

section
variable {s : State} {c : CoreId} {e : Eng} {j : Job} {op : Nat} {plan : Bool} {body : Ctx → Work → Except Halt Issued}

/-- The engine's queue after its instruction has issued in its queue cycle, without a corrected error or a late fault, and has
left the engine as `q`. -/
theorem engine_runInstr (h : Ready s c e j) {i : Issued} {q : Engine}
    (hb : body (s.head c e j) (s.work (s.head c e j).t) = .ok i) (hx : i.x = s.head c e j) (hr : i.w.recs = [])
    (hl : i.w.late = []) (hf : (i.w.s.core c.val).faults = []) (hq : i.w.s.engine c.val e = q) :
    (runInstr s c e op plan body).engine c.val e = q.advance i := by
  have hc : i.x.c = c.val := by rw [hx]; rfl
  have he : i.x.e = e := by rw [hx]; rfl
  have ht : i.x.t ≤ i.x.r := by rw [hx]; exact le_rfl
  rw [runInstr_ok h hb ht]
  have key := (commit_committed i op plan hr hl (by rw [hc]; exact hf)).engine
  rwa [hc, he, hq] at key

/-- A queue that has gone on as `Engine.advance` says. -/
theorem moved_of_advance {t : State} {q : Engine} {i : Issued} (h : t.engine c.val e = q.advance i) :
    Moved t c e i.nxt (i.pc.getD (q.pc + 1)) (if i.fold then foldSig q.sig q.pc else q.sig) := by
  refine ⟨?_, ?_, ?_, ?_⟩ <;> rw [h]
  · cases hp : i.pc <;> simp [Engine.advance, hp]
  · rfl
  · rfl
  · rfl

end

/-! ### An instruction that stops -/

theorem stopFault_of_quiet {s : State} {c : Nat} (e : Eng) (t : Nat) (cause : Cause) (d : Byte)
    (hf : (s.core c).faults = []) : s.stopFault c e t cause d = s.raiseEng c e cause d := by
  simp [State.stopFault, hf]

theorem State.not_dyed {s : State} (hd : s.dyeRate = 0) (q : Engine) : s.dyed q = false := by
  simp [State.dyed, hd]

section
variable {s : State} {c : CoreId} {e : Eng} {j : Job} {op : Nat} {plan : Bool} {body : Ctx → Work → Except Halt Issued}
  {cause : Cause} {d : Byte}

/-- A fault before any effect is raised on the state as it is. -/
theorem runInstr_stop (h : Ready s c e j) (hd : s.dyeRate = 0)
    (hb : body (s.head c e j) (s.work (s.head c e j).t) = .error (.stop cause d none))
    (hc : ¬(cause = .residueMismatch ∨ cause = .checkLaneMismatch)) :
    runInstr s c e op plan body = s.raiseEng c.val e cause d := by
  rw [runInstr_ready h, issueAt_stop hb]
  simp only [State.stopAt, hc, if_false, State.not_dyed hd, Bool.false_eq_true, stopFault_of_quiet _ _ _ _ h.faults]

/-- A fault after some effect, which has counted no event and met no corrected error, is raised on the state that has it. -/
theorem runInstr_stop_after (h : Ready s c e j) {p : Work} (hd : p.s.dyeRate = 0) (hr : p.recs = []) (hv : p.evs = [])
    (hf : (p.s.core c.val).faults = [])
    (hb : body (s.head c e j) (s.work (s.head c e j).t) = .error (.stop cause d (some p)))
    (hc : ¬(cause = .residueMismatch ∨ cause = .checkLaneMismatch)) :
    runInstr s c e op plan body = p.s.raiseEng c.val e cause d := by
  rw [runInstr_ready h, issueAt_stop hb]
  simp only [State.stopAt, hr, hv, State.raiseRecs, List.filter_nil, List.foldl_nil, hc, if_false, State.not_dyed hd,
    Bool.false_eq_true, stopFault_of_quiet _ _ _ _ hf]

end

end Sys2Proof.Machine
end

section
/-!
PROOFS. NOP, PAD, CALL and RET (R133, R140, R153): an equation for each way in which one of them ends.
-/
namespace Sys2Proof.Machine

theorem needCtl_ok {op : Nat} {m : Byte} {w : BitVec 48} (h : legalCtl op m w = true) : needCtl op m w = .ok () := by
  simp [needCtl, h]

section
variable {m : Byte} {w : BitVec 48} (x : Ctx) (k : Work)

theorem runNop_ok (h : legalCtl 0x01 m w = true) : runNop m w x k = .ok (finish x k) := by
  simp only [runNop, needCtl_ok h]
  rfl

/-- PAD in mode 0 sets the distance to the next instruction (R140). -/
theorem runPad_distance (h : legalCtl 0x02 m w = true) (hm : m = 0) :
    runPad m w x k = .ok { finish x k with nxt := x.at (fld w 0 24) } := by
  rw [runPad, needCtl_ok h, if_pos hm]
  rfl

/-- PAD in mode 1 compares its target with the low 32 bits of its queue cycle (R140). -/
theorem runPad_target (h : legalCtl 0x02 m w = true) (hm : m = 1) :
    runPad m w x k =
      if fld w 0 32 < x.t % 2 ^ 32 then .error (.stop .queueStall 0x02 none)
      else if fld w 0 32 = x.t % 2 ^ 32 then .ok (finish x k)
      else .ok { finish x k with
        nxt := workAfter (if (x.t + (fld w 0 32 - x.t % 2 ^ 32)) / 3200 = x.t / 3200 then x.w else 0)
          (x.t + (fld w 0 32 - x.t % 2 ^ 32)) 0 } := by
  have h0 : ¬m = 0 := by rw [hm]; decide
  simp only [runPad, needCtl_ok h, h0, if_false]
  rfl

theorem runPad_past (h : legalCtl 0x02 m w = true) (hm : m = 1) (hp : fld w 0 32 < x.t % 2 ^ 32) :
    runPad m w x k = .error (.stop .queueStall 0x02 none) := by
  rw [runPad_target x k h hm, if_pos hp]

theorem runPad_own (h : legalCtl 0x02 m w = true) (hm : m = 1) (hp : fld w 0 32 = x.t % 2 ^ 32) :
    runPad m w x k = .ok (finish x k) := by
  rw [runPad_target x k h hm, if_neg hp.ge.not_gt, if_pos hp]

/-- A later target is met as it stands while the kernel cycle has no bits above it (R140). -/
theorem runPad_later (h : legalCtl 0x02 m w = true) (hm : m = 1) (ht : x.t < 2 ^ 32) (hp : x.t < fld w 0 32) :
    runPad m w x k = .ok { finish x k with
      nxt := workAfter (if fld w 0 32 / 3200 = x.t / 3200 then x.w else 0) (fld w 0 32) 0 } := by
  rw [runPad_target x k h hm, Nat.mod_eq_of_lt ht, if_neg hp.not_gt, if_neg hp.ne', Nat.add_sub_of_le hp.le]

theorem runCall_ok {a : Nat} (h : legalCtl 0x05 m w = true) (hc : (k.s.engine x.c x.e).calls.length < 2)
    (ha : k.s.routine (fld w 0 12) x.e = some a) :
    runCall m w x k = .ok { finish x { k with s := k.s.updEngine x.c x.e fun q => { q with
        calls := ((k.s.engine x.c x.e).pc + 1) :: (k.s.engine x.c x.e).calls } } with
      nxt := x.at 2, pc := some (BitVec.ofNat 15 a) } := by
  unfold State.engine at hc
  simp only [runCall, needCtl_ok h, need, hc, decide_true, if_true, ha]
  rfl

theorem runRet_ok {a : BitVec 15} {rest : List (BitVec 15)} (h : legalCtl 0x06 m w = true)
    (hc : (k.s.engine x.c x.e).calls = a :: rest) :
    runRet m w x k = .ok { finish x { k with s := k.s.updEngine x.c x.e fun q => { q with calls := rest } } with
      nxt := x.at 2, pc := some a } := by
  unfold State.engine at hc
  simp only [runRet, needCtl_ok h, hc]
  rfl

end

/-- Settles O3: each instruction's equation, and what the issue of a ready engine makes of it. -/
theorem padAndCall : Obligations.PadAndCall := by
  refine ⟨fun s c e j m w h => ⟨fun hl => ?nop, fun hl hm => ?distance, fun hl hm ht hp => ?later, fun hl hm hp => ?own,
    fun hl hm hp hd => ?past⟩, fun s c e j m w h => ⟨fun hl hc a ha => ?call, fun hl a rest hc => ?ret⟩⟩
  case nop => exact ⟨_, rfl, moved_of_advance (engine_runInstr h (runNop_ok _ _ hl) rfl rfl rfl h.faults rfl)⟩
  case distance => exact ⟨_, rfl, moved_of_advance (engine_runInstr h (runPad_distance _ _ hl hm) rfl rfl rfl h.faults rfl)⟩
  case later => exact ⟨_, rfl, moved_of_advance (engine_runInstr h (runPad_later _ _ hl hm ht hp) rfl rfl rfl h.faults rfl)⟩
  case own => exact ⟨_, rfl, moved_of_advance (engine_runInstr h (runPad_own _ _ hl hm hp) rfl rfl rfl h.faults rfl)⟩
  case past => exact congrArg Host.Outcome.next (runInstr_stop h hd (runPad_past _ _ hl hm hp) (by decide))
  case call =>
    have key := engine_runInstr (op := 0x05) (plan := false) h (runCall_ok _ _ hl hc ha) rfl rfl rfl
      ((State.faults_updEngine _ _ _ _).trans h.faults) (State.engine_updEngine_same _ _ _ _)
    exact ⟨_, rfl, moved_of_advance key, congrArg Engine.calls key⟩
  case ret =>
    have key := engine_runInstr (op := 0x06) (plan := false) h (runRet_ok _ _ hl hc) rfl rfl rfl
      ((State.faults_updEngine _ _ _ _).trans h.faults) (State.engine_updEngine_same _ _ _ _)
    exact ⟨_, rfl, moved_of_advance key, congrArg Engine.calls key⟩

end Sys2Proof.Machine
end

section
/-!
PROOFS. LOOP and ENDLOOP (R143 to R149): what each leaves behind in the engine, and an equation for each way in which one of
them ends.
-/
namespace Sys2Proof.Machine

theorem need_ok {b : Bool} (d : Byte) (h : b = true) : need b d = .ok () := by simp [need, h]

theorem need_fails {b : Bool} (d : Byte) (h : b = false) : need b d = .error (parity d) := by simp [need, h]

/-! ### The iteration register -/

/-- A five-bit field names a scalar register as it stands. -/
theorem ofNat_fld_val {n : Nat} (w : BitVec n) (lo : Nat) : (Fin.ofNat 32 (fld w lo 5)).val = fld w lo 5 :=
  Nat.mod_eq_of_lt (Nat.mod_lt _ (by decide))

/-- The number of the iteration goes to the loop's iteration register, if it has one (R148). -/
def Work.setIter (k : Work) (x : Ctx) (iw : Option (Fin 32)) (v : W32) : Work :=
  match iw with
  | some i => k.setS x i.val 1 v
  | none => k

section
variable (k : Work) (x : Ctx) (iw : Option (Fin 32)) (v : W32)

theorem Work.recs_setIter : (k.setIter x iw v).recs = k.recs := by cases iw <;> rfl

theorem Work.late_setIter : (k.setIter x iw v).late = k.late := by cases iw <;> rfl

theorem Work.faults_setIter : ((k.setIter x iw v).s.core x.c).faults = (k.s.core x.c).faults := by
  cases iw
  · rfl
  · exact State.faults_updEngine _ _ _ _

/-- Of the engine only the scalar registers differ, and the iteration register shows the number one work cycle later. -/
theorem Work.engine_setIter {q : Engine} (hq : k.s.engine x.c x.e = q) : ∃ regs : AMap (TReg W32),
    (k.setIter x iw v).s.engine x.c x.e = { q with sregs := regs } ∧
      ∀ i, iw = some i → (AMap.get TReg.zero regs i.val).view (x.at 1) = v := by
  subst hq
  cases iw with
  | none => exact ⟨_, rfl, fun i hi => nomatch hi⟩
  | some i =>
    refine ⟨_, k.engine_setS x i.val 1 v, fun i' hi => ?_⟩
    obtain rfl := Option.some.inj hi
    rw [AMap.get_upd_same, TReg.view_put_due]

end

/-! ### LOOP -/

section
variable (m : Byte) (w : BitVec 48)

/-- Iterations that a LOOP asks for: those of its register, or of its immediate (R144). -/
def loopCount (x : Ctx) (k : Work) : Nat := if bitAt m 5 then (k.sreg x (fld m 0 5)).toNat else fld w 0 24

/-- The signature of the level around the loop, from its entry on; a register-counted body folds in as its ENDLOOP (R149). -/
def loopOuter (q : Engine) : W32 :=
  if bitAt m 5 then foldSig (foldSig q.sig q.pc) (q.pc + BitVec.ofNat 15 (fld w 24 16 + 1)) else foldSig q.sig q.pc

/-- The register that receives the iteration numbers, if any (R148). -/
def loopReg : Option (Fin 32) := if bitAt w 45 then some (Fin.ofNat 32 (fld w 40 5)) else none

/-- The frame of a loop that enters its first of `n` iterations. -/
def loopFrame (q : Engine) (n : Nat) : LoopFrame :=
  { start := q.pc + 1, len := fld w 24 16, remaining := n - 1, iter := 0, iw := loopReg w, counted := bitAt m 5,
    outer := loopOuter m w q, first := none }

variable (x : Ctx) (k : Work)

/-- The engine has the signature of the level around the loop. -/
def loopSigned : Work :=
  { k with s := k.s.updEngine x.c x.e fun q => { q with sig := loopOuter m w (k.s.engine x.c x.e) } }

/-- A LOOP that skips its body. -/
def loopSkipped : Issued :=
  { finish x (loopSigned m w x k) with
    nxt := x.at 2, pc := some ((k.s.engine x.c x.e).pc + BitVec.ofNat 15 (fld w 24 16 + 2)), fold := false }

/-- The engine at the entry of the body, before the iteration register is written. -/
def loopOpened : Work :=
  { k with s := k.s.updEngine x.c x.e fun q => { q with
      sig := if bitAt m 5 then 0xFFFFFFFF else loopOuter m w (k.s.engine x.c x.e),
      loops := loopFrame m w (k.s.engine x.c x.e) (loopCount m w x k) :: (k.s.engine x.c x.e).loops } }

/-- A LOOP that enters its body. -/
def loopEntered : Issued := { finish x ((loopOpened m w x k).setIter x (loopReg w) 0) with fold := false }

variable {m w}

/-- Body length and declared maximum are in range (R143, R146). -/
def loopFormed (m : Byte) (w : BitVec 48) : Bool :=
  decide (1 ≤ fld w 24 16) && decide (fld w 24 16 ≤ 24575) && !(bitAt m 5 && fld w 0 24 == 0)

theorem loopFormed_iff : loopFormed m w = true ↔
    1 ≤ fld w 24 16 ∧ fld w 24 16 ≤ 24575 ∧ (bitAt m 5 = true → 1 ≤ fld w 0 24) := by
  unfold loopFormed
  cases bitAt m 5 <;> simp [and_assoc, Nat.one_le_iff_ne_zero]

theorem runLoop_eq (h : legalCtl 0x03 m w = true) :
    runLoop m w x k =
      if (bitAt m 5 && decide (fld w 0 24 < loopCount m w x k) && fld w 0 24 != 0) = true then
        .error (.stop .loopBound 0x01 (some (loopSigned m w x k)))
      else if (!loopFormed m w) = true then .error (parity 0x02)
      else if loopCount m w x k = 0 then .ok (loopSkipped m w x k)
      else need (decide ((k.s.engine x.c x.e).loops.length < 4)) 0x02 >>= fun _ => .ok (loopEntered m w x k) := by
  rw [runLoop, needCtl_ok h]
  rfl

/-- Only a register count can be above the maximum (R146). -/
theorem counted_of_lt_loopCount (hn : fld w 0 24 < loopCount m w x k) : bitAt m 5 = true := by
  by_contra hc
  rw [loopCount, if_neg hc] at hn
  exact lt_irrefl _ hn

theorem runLoop_exceeds (h : legalCtl 0x03 m w = true) (h0 : fld w 0 24 ≠ 0) (hn : fld w 0 24 < loopCount m w x k) :
    runLoop m w x k = .error (.stop .loopBound 0x01 (some (loopSigned m w x k))) := by
  rw [runLoop_eq x k h, if_pos (by simp [counted_of_lt_loopCount x k hn, hn, h0])]

/-- A count within the maximum, or without one, raises no LOOP_BOUND. -/
theorem runLoop_of_le (h : legalCtl 0x03 m w = true) (hn : fld w 0 24 = 0 ∨ loopCount m w x k ≤ fld w 0 24) :
    runLoop m w x k =
      if (!loopFormed m w) = true then .error (parity 0x02)
      else if loopCount m w x k = 0 then .ok (loopSkipped m w x k)
      else need (decide ((k.s.engine x.c x.e).loops.length < 4)) 0x02 >>= fun _ => .ok (loopEntered m w x k) := by
  rw [runLoop_eq x k h, if_neg]
  obtain h0 | hn := hn
  · simp [h0]
  · simp [hn.not_gt]

theorem runLoop_malformed (h : legalCtl 0x03 m w = true)
    (hb : bitAt m 5 = true ∧ fld w 0 24 = 0 ∨
      (fld w 24 16 < 1 ∨ 24575 < fld w 24 16) ∧ loopCount m w x k ≤ fld w 0 24) :
    runLoop m w x k = .error (parity 0x02) := by
  obtain ⟨hc, h0⟩ | ⟨hlen, hn⟩ := hb
  · rw [runLoop_of_le x k h (.inl h0), if_pos (by simp [loopFormed, hc, h0])]
  · have hl : ¬(1 ≤ fld w 24 16 ∧ fld w 24 16 ≤ 24575) := by omega
    rw [runLoop_of_le x k h (.inr hn), if_pos (by simp [loopFormed, ← Bool.decide_and, hl])]

theorem runLoop_skips (h : legalCtl 0x03 m w = true) (hf : loopFormed m w = true) (hn : loopCount m w x k = 0) :
    runLoop m w x k = .ok (loopSkipped m w x k) := by
  rw [runLoop_of_le x k h (.inr (hn.le.trans (Nat.zero_le _))), if_neg (by simp [hf]), if_pos hn]

section
variable (h : legalCtl 0x03 m w = true) (hf : loopFormed m w = true) (h0 : 0 < loopCount m w x k)
  (hn : loopCount m w x k ≤ fld w 0 24)
include h hf h0 hn

/-- A fifth level has no frame (R147). -/
theorem runLoop_fifth (hq : 4 ≤ (k.s.engine x.c x.e).loops.length) : runLoop m w x k = .error (parity 0x02) := by
  rw [runLoop_of_le x k h (.inr hn), if_neg (by simp [hf]), if_neg h0.ne', need_fails _ (decide_eq_false hq.not_gt)]
  rfl

theorem runLoop_enters (hq : (k.s.engine x.c x.e).loops.length < 4) :
    runLoop m w x k = .ok (loopEntered m w x k) := by
  rw [runLoop_of_le x k h (.inr hn), if_neg (by simp [hf]), if_neg h0.ne', need_ok _ (decide_eq_true hq)]
  rfl

end

end

/-! ### ENDLOOP -/

/-- The signature value of an iteration that ends agrees with the first one's: only a register-counted body is compared, and
its first iteration with nothing (R149). -/
def LoopFrame.agrees (f : LoopFrame) (value : W32) : Bool := !f.counted || f.first.getD value == value

/-- The frame in the next iteration (R148, R149). -/
def LoopFrame.next (f : LoopFrame) (value : W32) : LoopFrame :=
  { f with remaining := f.remaining - 1, iter := f.iter + 1, first := some (f.first.getD value) }

theorem LoopFrame.agrees_iff (f : LoopFrame) (value : W32) :
    f.agrees value = true ↔ (f.counted = true → ∀ v, f.first = some v → v = value) := by
  unfold LoopFrame.agrees
  cases f.counted <;> cases f.first <;> simp

section
variable {m : Byte} {w : BitVec 48} (x : Ctx) (k : Work) (f : LoopFrame) (rest : List LoopFrame)

/-- An ENDLOOP that leaves its loop. -/
def endloopLeft : Issued :=
  { finish x { k with s := k.s.updEngine x.c x.e fun q => { q with
      sig := if f.counted then f.outer else foldSig (k.s.engine x.c x.e).sig (k.s.engine x.c x.e).pc
      loops := rest } } with fold := false }

/-- The engine at the start of the next iteration, before the iteration register is written. -/
def endloopTurned : Work :=
  { k with s := k.s.updEngine x.c x.e fun q => { q with
      sig := if f.counted then 0xFFFFFFFF else foldSig (k.s.engine x.c x.e).sig (k.s.engine x.c x.e).pc
      loops := f.next (~~~(k.s.engine x.c x.e).sig) :: rest } }

/-- An ENDLOOP that starts the next iteration. -/
def endloopAgain : Issued :=
  { finish x ((endloopTurned x k f rest).setIter x f.iw (BitVec.ofNat 32 (f.iter + 1))) with pc := some f.start, fold := false }

variable {f rest}

/-- The body length of an ENDLOOP is in range (R143). -/
def endloopFormed (w : BitVec 48) : Bool := decide (1 ≤ fld w 0 16) && decide (fld w 0 16 ≤ 24575)

theorem endloopFormed_iff : endloopFormed w = true ↔ 1 ≤ fld w 0 16 ∧ fld w 0 16 ≤ 24575 := by
  simp [endloopFormed]

theorem runEndloop_malformed (h : legalCtl 0x04 m w = true)
    (hb : endloopFormed w = false ∨ (k.s.engine x.c x.e).loops = []) : runEndloop m w x k = .error (parity 0x02) := by
  unfold endloopFormed State.engine at hb
  rw [runEndloop, needCtl_ok h]
  cases hf : decide (1 ≤ fld w 0 16) && decide (fld w 0 16 ≤ 24575) with
  | false =>
    simp only [need_fails 0x02 hf]
    rfl
  | true =>
    simp only [need_ok 0x02 hf, hb.resolve_left (by simp [hf])]
    rfl

theorem runEndloop_eq (h : legalCtl 0x04 m w = true) (hq : (k.s.engine x.c x.e).loops = f :: rest)
    (hf : endloopFormed w = true) :
    runEndloop m w x k =
      need (f.len == fld w 0 16) 0x02 >>= fun _ =>
        needF (f.agrees (~~~(k.s.engine x.c x.e).sig)) .signatureMismatch 0x02 >>= fun _ =>
          if f.remaining = 0 then .ok (endloopLeft x k f rest) else .ok (endloopAgain x k f rest) := by
  unfold endloopFormed at hf
  unfold State.engine at hq
  obtain ⟨start, len, remaining, iter, iw, counted, outer, first⟩ := f
  simp only [runEndloop, needCtl_ok h, need_ok 0x02 hf, hq]
  cases first with
  | none =>
    simp only [LoopFrame.agrees, Option.getD_none, beq_self_eq_true, Bool.or_true]
    cases counted <;> rfl
  | some v => cases counted <;> rfl

section
variable (h : legalCtl 0x04 m w = true) (hq : (k.s.engine x.c x.e).loops = f :: rest) (hf : endloopFormed w = true)
include h hq hf

theorem runEndloop_mismatched (hlen : f.len ≠ fld w 0 16) : runEndloop m w x k = .error (parity 0x02) := by
  rw [runEndloop_eq x k h hq hf, need_fails _ (beq_false_of_ne hlen)]
  rfl

/-- An ENDLOOP that names the body length of its loop is left with the comparison of signatures (R149). -/
theorem runEndloop_matched (hlen : f.len = fld w 0 16) :
    runEndloop m w x k = needF (f.agrees (~~~(k.s.engine x.c x.e).sig)) .signatureMismatch 0x02 >>= fun _ =>
      if f.remaining = 0 then .ok (endloopLeft x k f rest) else .ok (endloopAgain x k f rest) := by
  rw [runEndloop_eq x k h hq hf, need_ok _ (beq_iff_eq.2 hlen)]
  rfl

variable (hlen : f.len = fld w 0 16)
include hlen

theorem runEndloop_differs (ha : f.agrees (~~~(k.s.engine x.c x.e).sig) = false) :
    runEndloop m w x k = .error (.stop .signatureMismatch 0x02 none) := by
  rw [runEndloop_matched x k h hq hf hlen, ha]
  rfl

variable (ha : f.agrees (~~~(k.s.engine x.c x.e).sig) = true)
include ha

theorem runEndloop_leaves (h0 : f.remaining = 0) : runEndloop m w x k = .ok (endloopLeft x k f rest) := by
  rw [runEndloop_matched x k h hq hf hlen, ha, if_pos h0]
  rfl

theorem runEndloop_repeats (h0 : 0 < f.remaining) : runEndloop m w x k = .ok (endloopAgain x k f rest) := by
  rw [runEndloop_matched x k h hq hf hlen, ha, if_neg h0.ne']
  rfl

end

end

/-! ### The queue of a ready engine -/

section
variable {s : State} {c : CoreId} {e : Eng} {j : Job} {op : Nat} {plan : Bool} {body : Ctx → Work → Except Halt Issued}

/-- An instruction whose only effect on its engine is `g` and the value `v` of an iteration register. -/
theorem engine_runInstr_setIter (h : Ready s c e j) {i : Issued} {g : Engine → Engine} {iw : Option (Fin 32)} {v : W32}
    (hb : body (s.head c e j) (s.work (s.head c e j).t) = .ok i) (hx : i.x = s.head c e j)
    (hw : i.w = { s.work (s.head c e j).t with s := s.updEngine c.val e g }.setIter (s.head c e j) iw v) :
    ∃ regs, (runInstr s c e op plan body).engine c.val e =
        ({ g (s.engine c.val e) with sregs := regs } : Engine).advance i ∧
      ∀ r, iw = some r → (runInstr s c e op plan body).sreg c.val e r.val ((s.head c e j).at 1) = v := by
  obtain ⟨regs, hq, hreg⟩ := Work.engine_setIter { s.work (s.head c e j).t with s := s.updEngine c.val e g } (s.head c e j)
    iw v (State.engine_updEngine_same s c.val e g)
  rw [← hw] at hq
  have hf : (i.w.s.core c.val).faults = [] := by
    rw [hw]
    exact (Work.faults_setIter _ (s.head c e j) _ _).trans ((State.faults_updEngine _ _ _ _).trans h.faults)
  have key := engine_runInstr (op := op) (plan := plan) h hb hx (by rw [hw, Work.recs_setIter]; rfl)
    (by rw [hw, Work.late_setIter]; rfl) hf hq
  exact ⟨regs, key, fun r hr => (State.sreg_of_engine key _ _).trans (hreg r hr)⟩

end

/-- Settles O4: each instruction's equations, and what the issue of a ready engine makes of them. -/
theorem loops : Obligations.Loops := by
  intro s c e j m w h x q sig wrong
  have hfaults : ∀ g, ((s.updEngine c.val e g).core c.val).faults = [] := fun g =>
    (State.faults_updEngine s c.val e g).trans h.faults
  refine ⟨fun hl => ⟨fun hd hb => ?malformed, fun hd h0 hn => ?exceeds, fun h1 h2 h3 => ?formed⟩,
    fun hl => ⟨fun hd hb => ?endMalformed, fun f rest hq h1 h2 => ?endFormed⟩⟩
  case malformed => exact congrArg Host.Outcome.next (runInstr_stop h hd (runLoop_malformed _ _ hl hb) (by decide))
  case exceeds =>
    exact congrArg Host.Outcome.next
      (runInstr_stop_after h hd rfl rfl (hfaults _) (runLoop_exceeds _ _ hl h0 hn) (by decide))
  case formed =>
    have hf := loopFormed_iff.2 ⟨h1, h2, h3⟩
    refine ⟨fun hn => ?skips, fun h0 hn => ⟨fun hd hq => ?fifth, fun hq => ?enters⟩⟩
    case skips =>
      have key := engine_runInstr (op := 0x03) (plan := false) h (runLoop_skips _ _ hl hf hn) rfl rfl rfl (hfaults _)
        (State.engine_updEngine_same _ _ _ _)
      exact ⟨_, rfl, moved_of_advance key, (congrArg Engine.loops key :)⟩
    case fifth =>
      exact congrArg Host.Outcome.next (runInstr_stop h hd (runLoop_fifth _ _ hl hf h0 hn hq) (by decide))
    case enters =>
      obtain ⟨regs, key, hreg⟩ := engine_runInstr_setIter (op := 0x03) (plan := false) h
        (runLoop_enters _ _ hl hf h0 hn hq) rfl rfl
      refine ⟨_, rfl, moved_of_advance key, fun hi => ?_, _, congrArg Engine.loops key,
        rfl, rfl, rfl, rfl, rfl, rfl, rfl, rfl⟩
      have hr := hreg _ (if_pos hi)
      rwa [ofNat_fld_val] at hr
  case endMalformed =>
    have hb' : endloopFormed w = false ∨ q.loops = [] := by
      rw [Bool.eq_false_iff, Ne, endloopFormed_iff]
      exact (or_assoc.2 hb).imp_left (by omega)
    exact congrArg Host.Outcome.next (runInstr_stop h hd (runEndloop_malformed _ _ hl hb') (by decide))
  case endFormed =>
    have hf := endloopFormed_iff.2 ⟨h1, h2⟩
    refine ⟨fun hd hlen => ?mismatched, fun hd hlen hc v hv hne => ?differs,
      fun hlen ha => ⟨fun h0 => ?leaves, fun h0 => ?repeats⟩⟩
    case mismatched =>
      exact congrArg Host.Outcome.next (runInstr_stop h hd (runEndloop_mismatched _ _ hl hq hf hlen) (by decide))
    case differs =>
      have ha : f.agrees (~~~q.sig) = false := by
        rw [Bool.eq_false_iff, Ne, LoopFrame.agrees_iff]
        exact fun ha => hne (ha hc v hv)
      exact congrArg Host.Outcome.next (runInstr_stop h hd (runEndloop_differs _ _ hl hq hf hlen ha) (by decide))
    case leaves =>
      have key := engine_runInstr (op := 0x04) (plan := false) h
        (runEndloop_leaves _ _ hl hq hf hlen ((f.agrees_iff _).2 ha) h0) rfl rfl rfl (hfaults _)
        (State.engine_updEngine_same _ _ _ _)
      exact ⟨_, rfl, moved_of_advance key, congrArg Engine.loops key⟩
    case repeats =>
      obtain ⟨regs, key, hreg⟩ := engine_runInstr_setIter (op := 0x04) (plan := false) h
        (runEndloop_repeats _ _ hl hq hf hlen ((f.agrees_iff _).2 ha) h0) rfl rfl
      exact ⟨_, rfl, moved_of_advance key, hreg, _, congrArg Engine.loops key, rfl, rfl, rfl, rfl, rfl, rfl, rfl, rfl⟩

end Sys2Proof.Machine
end

section
/-!
PROOFS. A contained fault of an engine (R369, R373): its record, and the abandon of the pass that the core runs (R219). What the
steps of an abandon leave alone is one relation, `Stilled`.
-/
namespace Sys2Proof

/-- A key that does not read as the default is listed with its value. -/
theorem AMap.mem_of_get_ne {α : Type} {d : α} {m : AMap α} {k : Nat} (h : AMap.get d m k ≠ d) :
    (k, AMap.get d m k) ∈ m := by
  induction m with
  | nil => exact absurd rfl h
  | cons p t ih =>
    obtain ⟨k', v⟩ := p
    by_cases hk : k' = k
    · subst hk
      simp [AMap.get]
    · simp only [AMap.get, if_neg hk] at h ⊢
      exact List.mem_cons_of_mem _ (ih h)

end Sys2Proof

namespace Sys2Proof.Machine

/-! ### What stopping engines leaves alone -/

/-- The fault block and every engine's program counter are as before, and no core has taken up a pass. -/
structure Stilled (s t : State) : Prop where
  chk : t.chk = s.chk
  pc : ∀ c e, (t.engine c e).pc = (s.engine c e).pc
  idle : ∀ c, (s.core c).job = none → (t.core c).job = none

theorem Stilled.refl (s : State) : Stilled s s := ⟨rfl, fun _ _ => rfl, fun _ h => h⟩

theorem Stilled.trans {s t u : State} (h : Stilled s t) (g : Stilled t u) : Stilled s u :=
  ⟨g.chk.trans h.chk, fun c e => (g.pc c e).trans (h.pc c e), fun c hc => g.idle c (h.idle c hc)⟩

theorem Stilled.foldl {α : Type} (l : List α) (s : State) (f : State → α → State) (h : ∀ s a, Stilled s (f s a)) :
    Stilled s (l.foldl f s) := by
  induction l generalizing s with
  | nil => exact Stilled.refl s
  | cons a t ih => exact (h s a).trans (ih (f s a))

theorem Stilled.of_cores {s t : State} (hc : t.cores = s.cores) (hk : t.chk = s.chk) : Stilled s t := by
  have hcore : ∀ c, t.core c = s.core c := fun c => by rw [State.core, State.core, hc]
  exact ⟨hk, fun c e => by rw [State.engine, State.engine, hcore], fun c h => by rwa [hcore]⟩

/-- One core differs, in neither its program counters nor its pass. -/
theorem Stilled.of_core {s t : State} {c : Nat} (hk : t.chk = s.chk) (ho : ∀ b, b ≠ c → t.core b = s.core b)
    (hpc : ∀ e, ((t.core c).engine e).pc = ((s.core c).engine e).pc) (hj : (s.core c).job = none → (t.core c).job = none) :
    Stilled s t := by
  refine ⟨hk, fun b e => ?_, fun b h => ?_⟩ <;> by_cases hb : b = c
  · exact hb ▸ hpc e
  · rw [State.engine, State.engine, ho b hb]
  · exact hb ▸ hj (hb ▸ h)
  · rwa [ho b hb]

theorem stilled_updCore (s : State) (c : Nat) (f : Core → Core) (hpc : ∀ k e, ((f k).engine e).pc = (k.engine e).pc)
    (hj : ∀ k, k.job = none → (f k).job = none) : Stilled s (s.updCore c f) := by
  refine Stilled.of_core rfl (fun b hb => State.core_updCore_other s f hb) (fun e => ?_) fun h => ?_ <;>
    rw [State.core_updCore_same]
  · exact hpc _ e
  · exact hj _ h

theorem OnlyObs.stilled {s t : State} {c : Nat} (h : OnlyObs s t c) : Stilled s t := by
  refine Stilled.of_core (by rw [h.rest]) h.others (fun e => ?_) fun hj => ?_ <;> rw [h.core]
  · cases e <;> rfl
  · exact hj

theorem OnlyLand.stilled {s t : State} {c : Nat} (h : OnlyLand s t c) : Stilled s t := by
  refine Stilled.of_core (by rw [h.rest]) h.others (fun e => ?_) fun hj => ?_ <;> rw [h.core]
  · cases e <;> rfl
  · exact hj

theorem settleAll_stilled (s : State) (c : Nat) : Stilled s (s.settleAll c) := by
  unfold State.settleAll
  split
  · exact Stilled.refl s
  · exact (onlyLand_intro s c _ _).stilled

theorem chargeEnd_stilled (s : State) (c : Nat) : Stilled s (s.chargeEnd c) := by
  unfold State.chargeEnd
  split
  · exact Stilled.of_cores rfl rfl
  · exact Stilled.refl s

theorem closeLedger_stilled (s : State) (c t : Nat) : Stilled s (s.closeLedger c t) :=
  Stilled.foldl _ s _ fun _ _ => (ledger_onlyObs _ _ _ _ _ _).stilled

theorem traceTo_stilled (s : State) (f : FnId) (ty cause : Byte) (b : List Byte) : Stilled s (s.traceTo f ty cause b) := by
  apply Stilled.of_cores <;> rw [traceTo_only]

@[simp] theorem State.pass_traceTo (s : State) (f : FnId) (ty cause : Byte) (b : List Byte) (k : Nat) :
    (s.traceTo f ty cause b).pass k = s.pass k := by
  rw [traceTo_only]
  rfl

theorem setPass_stilled (s : State) (k : Nat) (p : Pass) : Stilled s (s.setPass k p) := Stilled.of_cores rfl rfl

theorem setPassState_stilled (s : State) (k : Nat) (st : PassState) : Stilled s (s.setPassState k st) := by
  unfold State.setPassState
  split
  · exact Stilled.refl s
  · exact (setPass_stilled s k _).trans (traceTo_stilled _ _ _ _ _)

theorem pass_setPassState {s : State} {k : Nat} {p : Pass} (h : s.pass k = some p) (st : PassState) :
    (s.setPassState k st).pass k = some { p with state := st } := by
  simp [State.setPassState, h]

/-! ### Halting cores -/

theorem haltCore_stilled (s : State) (c n : Nat) : Stilled s (s.haltCore c n) := by
  unfold State.haltCore
  refine ((chargeEnd_stilled s c).trans ((closeLedger_stilled _ c _).trans (settleAll_stilled _ c))).trans
    (stilled_updCore _ c _ (fun k e => ?_) fun _ _ => ?_)
  · cases e <;> rfl
  · rfl

theorem haltCore_job (s : State) (c n : Nat) : ((s.haltCore c n).core c).job = none := by
  simp only [State.haltCore, State.core_updCore_same]

theorem haltCores_stilled (l : List Nat) (s : State) (n : Nat) : Stilled s (l.foldl (fun s c => s.haltCore c n) s) :=
  Stilled.foldl l s _ fun s c => haltCore_stilled s c n

theorem haltCores_job {l : List Nat} {c : Nat} (hc : c ∈ l) (s : State) (n : Nat) :
    ((l.foldl (fun s c => s.haltCore c n) s).core c).job = none := by
  induction l generalizing s with
  | nil => exact absurd hc List.not_mem_nil
  | cons b l ih =>
    obtain rfl | hc := List.mem_cons.1 hc
    · exact (haltCores_stilled l _ n).idle _ (haltCore_job s c n)
    · exact ih hc _

theorem dyeAbandoned_stilled (s : State) (p : Pass) (l : List Nat) : Stilled s (s.dyeAbandoned p l) := by
  refine Stilled.foldl _ s _ fun s kv => ?_
  split
  · split
    · split
      · exact traceTo_stilled _ _ _ _ _
      · exact Stilled.refl s
    · exact Stilled.refl s
  · exact Stilled.refl s

/-- A core that runs a pass is among those that the pass's abandon halts. -/
theorem mem_jobCores {s : State} {c : Nat} {j : Job} (h : (s.core c).job = some j) : c ∈ s.jobCores j.pass := by
  have hne : s.core c ≠ Core.reset := fun h0 => by rw [h0] at h; exact nomatch h
  refine List.mem_filterMap.2 ⟨(c, s.core c), AMap.mem_of_get_ne hne, ?_⟩
  simp [h]

/-! ### Abandoning a pass -/

/-- Pass `k` has been abandoned with a status, and the cores that ran it run nothing. -/
structure Ended (s t : State) (k : Nat) (st : Status) : Prop where
  stilled : Stilled s t
  idle : ∀ c ∈ s.jobCores k, (t.core c).job = none
  abandoned : Abandoned t k st

theorem Ended.of_same {s t u : State} {k : Nat} {st : Status} (h : Ended s t k st) (hc : u.cores = t.cores)
    (hk : u.chk = t.chk) (hp : u.passes = t.passes) : Ended s u k st := by
  have g := Stilled.of_cores hc hk
  refine ⟨h.stilled.trans g, fun c hc => g.idle c (h.idle c hc), ?_⟩
  obtain ⟨p, hp', hq⟩ := h.abandoned
  exact ⟨p, by rw [State.pass, hp]; exact hp', hq⟩

theorem Ended.ite_skein {s t : State} {k : Nat} {st : Status} (h : Ended s t k st) (b : Bool) (v : Skein) :
    Ended s (if b = true then { t with skein := v } else t) k st := by
  split
  · exact h.of_same rfl rfl rfl
  · exact h

/-- Once its cores are halted, an abandon gives the pass its status and lets it quiesce. -/
theorem ended_setPass {s h u : State} {k : Nat} {st : Status} {p : Pass} (hs : Stilled s h)
    (hi : ∀ c ∈ s.jobCores k, (h.core c).job = none) (hu : Stilled h u) (hc : p.clean = false) (hst : p.status = some st) :
    Ended s ((u.setPass k p).setPassState k .quiescing) k st := by
  have g := hu.trans ((setPass_stilled u k p).trans (setPassState_stilled (u.setPass k p) k .quiescing))
  exact ⟨hs.trans g, fun c hc => g.idle c (hi c hc), _, pass_setPassState (State.pass_setPass_same u k p) _, rfl, hc, hst⟩

/-- The states in which an abandon ends a pass that has not begun to quiesce (R219). -/
theorem abandon_ends {s : State} {k : Nat} {p : Pass} (hp : s.pass k = some p) (hq : p.state ≠ .queued)
    (hc : p.state ≠ .complete) (hu : p.state ≠ .quiescing) (st : Status) (noRetry : Bool) :
    Ended s (s.abandon k st noRetry) k st := by
  unfold State.abandon
  rw [hp]
  dsimp only
  split
  · next h => exact absurd h hq
  · next h => exact absurd h hc
  · next h => exact absurd h hu
  · refine Ended.ite_skein ?_ _ _
    exact ended_setPass (haltCores_stilled _ s _) (fun c hc => haltCores_job hc s _)
      ((dyeAbandoned_stilled _ p _).trans (Stilled.of_cores rfl rfl)) rfl rfl

theorem abandon_stilled (s : State) (k : Nat) (st : Status) (noRetry : Bool) : Stilled s (s.abandon k st noRetry) := by
  cases hp : s.pass k with
  | none => simpa only [State.abandon, hp] using Stilled.refl s
  | some p =>
    cases hst : p.state with
    | queued => simpa only [State.abandon, hp, hst] using Stilled.refl s
    | complete => simpa only [State.abandon, hp, hst] using Stilled.refl s
    | quiescing =>
      simp only [State.abandon, hp, hst]
      split_ifs
      · exact setPass_stilled s k _
      · exact setPass_stilled s k _
      · exact Stilled.refl s
    | _ => exact (abandon_ends hp (by simp [hst]) (by simp [hst]) (by simp [hst]) st noRetry).stilled

/-! ### Raising a contained fault -/

/-- A reporter with room takes the record (R369). -/
theorem queueRecord_of_room {s : State} {n : Nat} (h : (s.reporter n).length < 16) (r : FaultRecord) :
    s.queueRecord n r =
      { s with chk := { s.chk with reporters := AMap.set [] s.chk.reporters n (s.reporter n ++ [r]) } } :=
  if_neg h.not_ge

/-- A fault that every skein contains and no rule exempts from ending the pass that it touches (R371, R373). -/
structure EndsPass (cause : Cause) (d : Byte) : Prop where
  contained : ∀ multi, classOf cause d multi = .contained
  exempt : cause ≠ .eccUncorrectable

section
variable {s : State} {src : Src} {cause : Cause} {d : Byte} (hc : EndsPass cause d)
include hc

theorem raise_untouched {touch : Option Nat} (hp : touch.bind s.pass = none) :
    s.raise src cause d touch = s.queueRecord src.reporter (s.mkRecord src cause d .contained none) := by
  unfold State.raise
  simp only [hc.contained, hp]

theorem raise_touched {k : Nat} {p : Pass} (hp : s.pass k = some p) :
    s.raise src cause d (some k) =
      ((s.queueRecord src.reporter (s.mkRecord src cause d .contained (some p))).setPass k
        (p.blame (s.mkRecord src cause d .contained (some p)))).abandon k .abandonedFault false := by
  have hx : (cause == .eccUncorrectable) = false := beq_false_of_ne hc.exempt
  simp only [State.raise, hc.contained, Option.bind_some, hp, hx, Bool.false_and, Bool.false_eq_true, if_false]

/-- Beside the record, a contained fault does nothing but end the pass that it touches. -/
theorem raise_stilled (touch : Option Nat) :
    Stilled (s.queueRecord src.reporter (s.mkRecord src cause d .contained (touch.bind s.pass)))
      (s.raise src cause d touch) := by
  cases hp : touch.bind s.pass with
  | none =>
    rw [raise_untouched hc hp]
    exact Stilled.refl _
  | some p =>
    obtain ⟨k, rfl, hk⟩ := Option.bind_eq_some_iff.1 hp
    rw [raise_touched hc hk]
    exact (setPass_stilled _ k _).trans (abandon_stilled _ k _ _)

variable (hr : (s.reporter src.reporter).length < 16)
include hr

theorem raise_raised (touch : Option Nat) : Raised s (s.raise src cause d touch) src cause d := by
  have hchk := (raise_stilled (s := s) (src := src) hc touch).chk
  refine ⟨s.mkRecord src cause d .contained (touch.bind s.pass), ?_, rfl, rfl, rfl, rfl, rfl, rfl⟩
  rw [State.reporter, hchk, queueRecord_of_room hr]
  exact AMap.get_set_same _ _ _ _

theorem pc_raise (touch : Option Nat) (c : Nat) (e : Eng) :
    ((s.raise src cause d touch).engine c e).pc = (s.engine c e).pc := by
  rw [(raise_stilled hc touch).pc, queueRecord_of_room hr]
  rfl

/-- The pass that the fault touches is abandoned, and a core that ran it runs nothing (R219, R373). -/
theorem raise_ends {c : Nat} {j : Job} {p : Pass} (hj : (s.core c).job = some j) (hp : s.pass j.pass = some p)
    (hs : p.state = .running) :
    Abandoned (s.raise src cause d (some j.pass)) j.pass .abandonedFault ∧
      ((s.raise src cause d (some j.pass)).core c).job = none := by
  have ends := abandon_ends
    (State.pass_setPass_same (s.queueRecord src.reporter (s.mkRecord src cause d .contained (some p))) j.pass
      (p.blame (s.mkRecord src cause d .contained (some p))))
    (by simp [Pass.blame, hs]) (by simp [Pass.blame, hs]) (by simp [Pass.blame, hs]) .abandonedFault false
  rw [raise_touched hc hp]
  refine ⟨ends.abandoned, ends.idle c (mem_jobCores ?_)⟩
  rw [queueRecord_of_room hr]
  exact hj

end

/-! ### Core events that raise one -/

/-- An engine that stands until its limit has passed keeps everything that a fault reads of the state. -/
structure Stood (s t : State) (c : Nat) : Prop where
  chk : t.chk = s.chk
  clk : t.clk = s.clk
  passes : t.passes = s.passes
  job : (t.core c).job = (s.core c).job

theorem Stood.refl (s : State) (c : Nat) : Stood s s c := ⟨rfl, rfl, rfl, rfl⟩

theorem Stood.trans {s t u : State} {c : Nat} (h : Stood s t c) (g : Stood t u c) : Stood s u c :=
  ⟨g.chk.trans h.chk, g.clk.trans h.clk, g.passes.trans h.passes, g.job.trans h.job⟩

theorem OnlyObs.stood {s t : State} {c : Nat} (h : OnlyObs s t c) : Stood s t c :=
  ⟨by rw [h.rest], by rw [h.rest], by rw [h.rest], by rw [h.core]⟩

theorem updEngine_stood (s : State) (c : Nat) (e : Eng) (f : Engine → Engine) : Stood s (s.updEngine c e f) c :=
  ⟨rfl, rfl, rfl, by rw [State.core_updEngine_same, Core.setEngine_job]⟩

theorem standUntil_stood (s : State) (c : Nat) (e : Eng) (t col code : Nat) : Stood s (s.standUntil c e t col code) c := by
  unfold State.standUntil
  exact ((ledger_onlyObs _ _ _ _ _ _).trans (count_onlyObs _ _ _ _ _ _ _)).stood.trans (updEngine_stood _ c e _)

/-- The fault with which a wait ends, after its engine has stood until the limit: its record, and the end of the pass. -/
theorem Stood.raiseEng {s t : State} {c : Nat} (h : Stood s t c) (e : Eng) {cause : Cause} {d : Byte}
    (hc : EndsPass cause d) (hr : (s.reporter (coreDie c)).length < 16) {j : Job} {p : Pass}
    (hj : (s.core c).job = some j) (hp : s.pass j.pass = some p) (hs : p.state = .running) :
    Raised s (t.raiseEng c e cause d) (.eng c e) cause d ∧ Abandoned (t.raiseEng c e cause d) j.pass .abandonedFault ∧
      ((t.raiseEng c e cause d).core c).job = none := by
  have hrep : ∀ n, t.reporter n = s.reporter n := fun n => by rw [State.reporter, State.reporter, h.chk]
  have hj' : (t.core c).job = some j := h.job.trans hj
  have hp' : t.pass j.pass = some p := by rw [State.pass, h.passes]; exact hp
  have hr' : (t.reporter (Src.eng c e).reporter).length < 16 := by rw [hrep]; exact hr
  simp only [State.raiseEng, hj', Option.map_some]
  refine ⟨?_, raise_ends hc hr' hj' hp' hs⟩
  have raised := raise_raised hc hr' (some j.pass)
  rwa [Raised, hrep, h.clk] at raised

/-- Settles O25: the fault that each event raises, and what raising it does to the pass. -/
theorem coreFaultEvents : Obligations.CoreFaultEvents := by
  intro s c e hr
  refine ⟨fun hp v => ?absent, fun j v d h hd hw => ?stray,
    fun j p c0 hj hp hs => ⟨fun hw => ?stall, fun b g consumer hw => ?grace⟩⟩
  case absent =>
    have hc : EndsPass .absentEngine 0x02 := ⟨fun _ => rfl, by decide⟩
    have hx : exec (.absentEngineDelivery c e v) s = .next (s.raiseEng c.val e .absentEngine 0x02) := by
      show execAbsentEngineDelivery c e v s = _
      simp [execAbsentEngineDelivery, hp]
    refine ⟨_, hx, raise_raised hc hr _, pc_raise hc hr _ _ _, fun j p hj hp hs => ?_⟩
    exact ((Stood.refl s c.val).raiseEng e hc hr hj hp hs).2
  case stray =>
    show execAbsentEngineDelivery c e v s = _
    simp only [execAbsentEngineDelivery, h.present, hw, Bool.not_true, Bool.false_eq_true, if_false]
    exact congrArg Host.Outcome.next (runInstr_stop h hd rfl (by decide))
  case stall =>
    have hx : exec (.stallLimitExpiry c e) s =
        .next ((s.standUntil c.val e (c0 + s.stallOf j + 1) 2 0x21).raiseEng c.val e .queueStall 0x01) := by
      show execStallLimitExpiry c e s = _
      simp only [execStallLimitExpiry, hw, hj]
    exact ⟨_, hx, (standUntil_stood s c.val e _ 2 0x21).raiseEng e ⟨fun _ => rfl, by decide⟩ hr hj hp hs⟩
  case grace =>
    have hc : EndsPass (if consumer then .bobbinUnderrun else .bobbinOverrun) 0x01 := by
      cases consumer <;> exact ⟨fun _ => rfl, by decide⟩
    have hstood := (standUntil_stood s c.val e (c0 + g + 1) 2 0x20).trans
      (updEngine_stood _ c.val e fun q => { q with waited := AMap.upd 0 q.waited (c0 / 3200) (· + (g + 1)) })
    refine ⟨_, ?_, hstood.raiseEng e hc hr hj hp hs⟩
    show execGraceWindowExpiry c e s = _
    simp only [execGraceWindowExpiry, hw]

end Sys2Proof.Machine
end

section
/-!
PROOFS. What a WAIT or an ACQUIRE sees of a sync counter (R135, R136): the count changes only in the cycle after an increment,
so the cycles that `Counter.reaches` tries stand for all of them.
-/
namespace Sys2Proof.Machine

section
variable (v : Counter)

/-- A counter with every increment settled reads the same in every cycle. -/
theorem Counter.view_of_settled (h : v.pend = []) (t : Nat) : v.view t = v := by
  obtain ⟨count, scope, core, module, pend⟩ := v
  obtain rfl : pend = [] := h
  rfl

/-- The one increment of an otherwise settled counter is visible from the cycle after its own (R135). -/
theorem Counter.view_pend_singleton (u : CInc) (t : Nat) :
    ({ v with pend := [u] } : Counter).view t =
      if t ≤ u.cyc then { v with pend := [u] } else { Counter.take v u with pend := [] } := by
  by_cases h : t ≤ u.cyc
  · simp [Counter.view, h, h.not_gt]
  · simp [Counter.view, Counter.take, h, not_le.1 h]

/-- Two cycles that come after the same increments see the same count. -/
theorem Counter.count_view_congr {a b : Nat} (h : ∀ u ∈ v.pend, u.cyc < a ↔ u.cyc < b) :
    (v.view a).count = (v.view b).count := by
  have hpend : (v.pend.filter fun u => decide (u.cyc < a)) = v.pend.filter fun u => decide (u.cyc < b) :=
    List.filter_congr fun u hu => decide_eq_decide.2 (h u hu)
  rw [Counter.view, Counter.view, hpend]

/-- The cycles from `n` on in which the count can differ from the cycle before, with `n` itself. -/
def Counter.turns (n : Nat) : List Nat := n :: v.pend.map fun u => max n (u.cyc + 1)

theorem Counter.reaches_eq (th n : Nat) :
    v.reaches th n = (v.turns n).find? fun m => decide (th ≤ (v.view m).count) := rfl

theorem Counter.le_of_mem_turns {n m : Nat} (h : m ∈ v.turns n) : n ≤ m := by
  obtain rfl | h := List.mem_cons.1 h
  · exact le_rfl
  · obtain ⟨u, -, rfl⟩ := List.mem_map.1 h
    exact le_max_left _ _

/-- Increments in their order make the turns rise. -/
theorem Counter.turns_sorted (h : v.pend.Pairwise fun a b => a.cyc ≤ b.cyc) (n : Nat) : (v.turns n).Pairwise (· ≤ ·) := by
  refine List.pairwise_cons.2 ⟨fun m hm => v.le_of_mem_turns (List.mem_cons_of_mem _ hm), List.pairwise_map.2 ?_⟩
  exact h.imp fun hab => max_le_max_left n (Nat.succ_le_succ hab)

/-- Every later cycle sees the count of the last turn before it. -/
theorem Counter.exists_turn {n k : Nat} (h : n ≤ k) :
    ∃ m ∈ v.turns n, m ≤ k ∧ (v.view m).count = (v.view k).count := by
  have hn : n ∈ ((v.turns n).filter (· ≤ k)).toFinset := by simp [Counter.turns, h]
  obtain ⟨m, hm, hmax⟩ := Finset.exists_max_image _ id ⟨n, hn⟩
  simp only [List.mem_toFinset, List.mem_filter, decide_eq_true_eq, id] at hm hmax
  refine ⟨m, hm.1, hm.2, v.count_view_congr fun u hu => ⟨fun hum => hum.trans_le hm.2, fun huk => ?_⟩⟩
  have hturn : max n (u.cyc + 1) ∈ v.turns n := List.mem_cons_of_mem _ (List.mem_map_of_mem hu)
  exact (le_max_right n _).trans (hmax _ ⟨hturn, max_le h huk⟩)

/-- No increment in sight reaches the threshold. -/
theorem Counter.count_lt_of_reaches_none {th n : Nat} (h : v.reaches th n = none) {k : Nat} (hk : n ≤ k) :
    (v.view k).count < th := by
  obtain ⟨m, hm, -, hcount⟩ := v.exists_turn hk
  have hfail := List.find?_eq_none.1 (v.reaches_eq th n ▸ h) m hm
  rw [← hcount]
  simpa using hfail

/-- The cycle found is the first in which the count reaches the threshold. -/
theorem Counter.reaches_first {th n first : Nat} (h : v.reaches th n = some first)
    (hs : v.pend.Pairwise fun a b => a.cyc ≤ b.cyc) :
    n ≤ first ∧ th ≤ (v.view first).count ∧ ∀ k, n ≤ k → k < first → (v.view k).count < th := by
  obtain ⟨hreach, before, after, hsplit, hfail⟩ := List.find?_eq_some_iff_append.1 (v.reaches_eq th n ▸ h)
  have hmem : first ∈ v.turns n := by simp [hsplit]
  refine ⟨v.le_of_mem_turns hmem, by simpa using hreach, fun k hk hlt => ?_⟩
  obtain ⟨m, hm, hmk, hcount⟩ := v.exists_turn hk
  have hsorted := v.turns_sorted hs n
  rw [hsplit] at hm hsorted
  rw [← hcount]
  obtain hm | hm := List.mem_append.1 hm
  · simpa using hfail m hm
  · have hle : first ≤ m := by
      obtain rfl | hm := List.mem_cons.1 hm
      · exact le_rfl
      · exact (List.pairwise_cons.1 (List.pairwise_append.1 hsorted).2.1).1 m hm
    omega

end

end Sys2Proof.Machine
end

section
/-!
PROOFS. A contained fault leaves every sync counter as it was (R199, R219): abandoning a pass halts cores, and halting one
touches no counter.
-/
namespace Sys2Proof.Machine

/-- Every core's sync counters are as before. -/
def SameCounters (s t : State) : Prop := ∀ c, (t.core c).counters = (s.core c).counters

theorem SameCounters.counter {s t : State} (h : SameCounters s t) (c n : Nat) : t.counter c n = s.counter c n := by
  rw [State.counter, State.counter, h c]

theorem SameCounters.refl (s : State) : SameCounters s s := fun _ => rfl

theorem SameCounters.trans {s t u : State} (h : SameCounters s t) (g : SameCounters t u) : SameCounters s u :=
  fun c => (g c).trans (h c)

theorem SameCounters.of_cores {s t : State} (h : t.cores = s.cores) : SameCounters s t := fun c => by
  rw [State.core, State.core, h]

theorem SameCounters.foldl {α : Type} (l : List α) (s : State) (f : State → α → State)
    (h : ∀ s a, SameCounters s (f s a)) : SameCounters s (l.foldl f s) := by
  induction l generalizing s with
  | nil => exact SameCounters.refl s
  | cons a t ih => exact (h s a).trans (ih (f s a))

/-- One core differs, and not in its counters. -/
theorem SameCounters.of_core {s t : State} {c : Nat} (ho : ∀ b, b ≠ c → t.core b = s.core b)
    (h : (t.core c).counters = (s.core c).counters) : SameCounters s t := fun b => by
  by_cases hb : b = c
  · exact hb ▸ h
  · rw [ho b hb]

theorem sameCounters_updCore (s : State) (c : Nat) (f : Core → Core) (h : ∀ k, (f k).counters = k.counters) :
    SameCounters s (s.updCore c f) :=
  SameCounters.of_core (fun _ hb => State.core_updCore_other s f hb) (by rw [State.core_updCore_same, h])

theorem sameCounters_updEngine (s : State) (c : Nat) (e : Eng) (f : Engine → Engine) : SameCounters s (s.updEngine c e f) :=
  SameCounters.of_core (fun _ hb => State.core_updEngine_other s e f hb)
    (by rw [State.core_updEngine_same, Core.setEngine_counters])

theorem OnlyObs.sameCounters {s t : State} {c : Nat} (h : OnlyObs s t c) : SameCounters s t :=
  SameCounters.of_core h.others (by rw [h.core])

theorem OnlyLand.sameCounters {s t : State} {c : Nat} (h : OnlyLand s t c) : SameCounters s t :=
  SameCounters.of_core h.others (by rw [h.core])

/-! ### Abandoning a pass -/

theorem haltCore_sameCounters (s : State) (c n : Nat) : SameCounters s (s.haltCore c n) := by
  have charge : SameCounters s (s.chargeEnd c) := by
    unfold State.chargeEnd
    split
    · exact SameCounters.of_cores rfl
    · exact SameCounters.refl s
  have close : ∀ u : State, SameCounters u (u.closeLedger c (s.stopCycle c)) := fun u =>
    SameCounters.foldl _ u _ fun _ _ => (ledger_onlyObs _ _ _ _ _ _).sameCounters
  have land : ∀ u : State, SameCounters u (u.settleAll c) := fun u => by
    unfold State.settleAll
    split
    · exact SameCounters.refl u
    · exact (onlyLand_intro u c _ _).sameCounters
  exact ((charge.trans (close _)).trans (land _)).trans (sameCounters_updCore _ c _ fun _ => rfl)

theorem traceTo_sameCounters (s : State) (f : FnId) (ty cause : Byte) (b : List Byte) :
    SameCounters s (s.traceTo f ty cause b) := by
  apply SameCounters.of_cores
  rw [traceTo_only]

theorem dyeAbandoned_sameCounters (s : State) (p : Pass) (l : List Nat) : SameCounters s (s.dyeAbandoned p l) := by
  refine SameCounters.foldl _ s _ fun s kv => ?_
  split
  · split
    · split
      · exact traceTo_sameCounters _ _ _ _ _
      · exact SameCounters.refl s
    · exact SameCounters.refl s
  · exact SameCounters.refl s

theorem setPassState_sameCounters (s : State) (k : Nat) (st : PassState) : SameCounters s (s.setPassState k st) := by
  unfold State.setPassState
  split
  · exact SameCounters.refl s
  · exact traceTo_sameCounters _ _ _ _ _

theorem SameCounters.ite_skein {s t : State} (h : SameCounters s t) (b : Bool) (v : Skein) :
    SameCounters s (if b = true then { t with skein := v } else t) := by
  cases b <;> exact h

theorem abandon_sameCounters (s : State) (k : Nat) (st : Status) (noRetry : Bool) : SameCounters s (s.abandon k st noRetry) := by
  unfold State.abandon
  split
  · exact SameCounters.refl s
  · split
    · exact SameCounters.refl s
    · exact SameCounters.refl s
    · split_ifs <;> exact SameCounters.of_cores rfl
    · refine SameCounters.ite_skein ?_ _ _
      exact ((SameCounters.foldl _ s _ fun s c => haltCore_sameCounters s c _).trans (dyeAbandoned_sameCounters _ _ _)).trans
        (setPassState_sameCounters _ _ _)

/-! ### The fault -/

theorem queueRecord_cores (s : State) (n : Nat) (r : FaultRecord) : (s.queueRecord n r).cores = s.cores :=
  (apply_ite State.cores _ _ _).trans (ite_self _)

section
variable {cause : Cause} {d : Byte} (hc : EndsPass cause d)
include hc

theorem raise_sameCounters (s : State) (src : Src) (touch : Option Nat) : SameCounters s (s.raise src cause d touch) := by
  cases hp : touch.bind s.pass with
  | none =>
    rw [raise_untouched hc hp]
    exact SameCounters.of_cores (queueRecord_cores _ _ _)
  | some p =>
    obtain ⟨k, rfl, hk⟩ := Option.bind_eq_some_iff.1 hp
    rw [raise_touched hc hk]
    exact (SameCounters.of_cores (queueRecord_cores _ _ _)).trans (abandon_sameCounters _ k _ _)

/-- A contained fault of an engine after events have been counted leaves the sync counters and the program counter where they
were, whether or not its reporter has room for the record. -/
theorem OnlyObs.raiseEng_leaves {s t : State} {c : Nat} (h : OnlyObs s t c) (e : Eng) :
    SameCounters s (t.raiseEng c e cause d) ∧ ((t.raiseEng c e cause d).engine c e).pc = (s.engine c e).pc := by
  refine ⟨h.sameCounters.trans (raise_sameCounters hc t _ _), ((raise_stilled hc _).pc c e).trans ?_⟩
  rw [State.engine, State.core, queueRecord_cores]
  exact h.stilled.pc c e

end

end Sys2Proof.Machine
end

section
/-!
PROOFS. WAIT, ACQUIRE, SIGNAL and RELEASE (R134, R135, R137, R138, R199): an equation for each way in which one of them ends, and
what the issue of a ready engine makes of it.
-/
namespace Sys2Proof.Machine

/-! ### Counters of the state -/

section
variable (s : State) (c n : Nat) (v : Counter)

@[simp] theorem State.counter_setCounter_same : (s.setCounter c n v).counter c n = v := by
  simp only [State.counter, State.setCounter, State.core_updCore_same, AMap.get_set_same]

@[simp] theorem State.engine_setCounter (e : Eng) : (s.setCounter c n v).engine c e = s.engine c e := by
  rw [State.engine, State.setCounter, State.core_updCore_same]
  cases e <;> rfl

@[simp] theorem State.faults_setCounter : ((s.setCounter c n v).core c).faults = (s.core c).faults := by
  rw [State.setCounter, State.core_updCore_same]

end

theorem Committed.counter {s t : State} {i : Issued} (h : Committed s t i) (n : Nat) :
    t.counter i.x.c n = s.counter i.x.c n := by
  rw [State.counter, State.counter, h.core, Core.setEngine_counters]

/-! ### Issue -/

theorem ok_bind {ε α β : Type} (a : α) (f : α → Except ε β) : (Except.ok a >>= f) = f a := rfl

theorem error_bind {ε α β : Type} (h : ε) (f : α → Except ε β) : (Except.error h >>= f) = .error h := rfl

section
variable (k : Work) (code start len n : Nat)

@[simp] theorem Work.s_ev : (k.ev code start len n).s = k.s := by
  unfold Work.ev
  split <;> rfl

@[simp] theorem Work.recs_ev : (k.ev code start len n).recs = k.recs := by
  unfold Work.ev
  split <;> rfl

@[simp] theorem Work.late_ev : (k.ev code start len n).late = k.late := by
  unfold Work.ev
  split <;> rfl

end

/-- An instruction that waits at the head, whichever cycle's registers it reads, goes on waiting. -/
theorem issueAt_hold {body : Ctx → Work → Except Halt Issued} {x : Ctx} {k : Work} {kind : WaitKind}
    (hb : ∀ r, body { x with r := r } k = .error (.hold kind)) (l : List Nat) : issueAt body x k l = .error (.hold kind) := by
  induction l generalizing x with
  | nil => exact hb x.r
  | cons d l ih => simp only [issueAt, hb x.r, ih (x := { x with r := d }) hb]

section
variable {s : State} {c : CoreId} {e : Eng} {j : Job} {op : Nat} {plan : Bool} {body : Ctx → Work → Except Halt Issued}

/-- What is left of an instruction that a ready engine has issued, without a corrected error or a late fault. -/
theorem runInstr_committed (h : Ready s c e j) {i : Issued} (hb : body (s.head c e j) (s.work (s.head c e j).t) = .ok i)
    (hc : i.x.c = c.val) (ht : i.x.t ≤ i.x.r) (hr : i.w.recs = []) (hl : i.w.late = [])
    (hf : (i.w.s.core c.val).faults = []) : Committed i.w.s (runInstr s c e op plan body) i := by
  rw [runInstr_ok h hb ht]
  exact commit_committed i op plan hr hl (by rw [hc]; exact hf)

/-- The engine and the counters after an instruction whose word is followed by the next one. -/
theorem runInstr_finish (h : Ready s c e j) {y : Ctx} {k : Work} {q : Engine}
    (hb : body (s.head c e j) (s.work (s.head c e j).t) = .ok (finish y k)) (hc : y.c = c.val) (he : y.e = e)
    (ht : y.t ≤ y.r) (hr : k.recs = []) (hl : k.late = []) (hf : (k.s.core c.val).faults = [])
    (hq : k.s.engine c.val e = q) :
    (runInstr s c e op plan body).engine c.val e = q.advance (finish y k) ∧
      ∀ n, (runInstr s c e op plan body).counter c.val n = k.s.counter c.val n := by
  have done := runInstr_committed (op := op) (plan := plan) h hb hc ht hr hl hf
  have hengine := done.engine
  have hcounter := done.counter
  subst hq he
  rw [show (finish y k).x.c = c.val from hc] at hengine hcounter
  exact ⟨hengine, hcounter⟩

theorem runInstr_hold (h : Ready s c e j) {kind : WaitKind}
    (hb : ∀ r, body { s.head c e j with r := r } (s.work (s.head c e j).t) = .error (.hold kind)) :
    runInstr s c e op plan body = s.updEngine c.val e fun q => { q with wait := some (kind, (s.engine c.val e).next) } := by
  rw [runInstr_ready h, issueAt_hold hb]

/-- The events of an instruction that a fault in its queue cycle leaves counted: masked faults and suppressed accesses (R88,
R173). -/
def Work.stops (p : Work) : List Ev := p.evs.filter fun v => v.code == 0x0C || v.code == 0x17

/-- The state with those events counted. -/
def State.countStops (s : State) (c : Nat) (e : Eng) (p : Work) : State :=
  p.stops.foldl (fun s v => s.count c (some e.num) v.code v.start v.len v.n) s

theorem countStops_onlyObs (s : State) (c : Nat) (e : Eng) (p : Work) : OnlyObs s (s.countStops c e p) c :=
  onlyObs_foldl _ s c _ fun _ _ => count_onlyObs _ _ _ _ _ _ _

/-- A fault after effects that have only counted events is raised on the state with those events. -/
theorem runInstr_stop_counted (h : Ready s c e j) (hd : s.dyeRate = 0) {cause : Cause} {d : Byte} {p : Work} (hs : p.s = s)
    (hr : p.recs = []) (hb : body (s.head c e j) (s.work (s.head c e j).t) = .error (.stop cause d (some p)))
    (hc : ¬(cause = .residueMismatch ∨ cause = .checkLaneMismatch)) :
    runInstr s c e op plan body = (s.countStops c.val e p).raiseEng c.val e cause d := by
  have only := countStops_onlyObs s c.val e p
  have hdye : (s.countStops c.val e p).dyeRate = 0 := by rw [only.rest]; exact hd
  have hf : ((s.countStops c.val e p).core c.val).faults = [] := by rw [only.core]; exact h.faults
  rw [runInstr_ready h, issueAt_stop hb]
  simp only [State.stopAt, hr, hs, State.raiseRecs, List.foldl_nil, hc, if_false]
  change State.stopFault (if (s.countStops c.val e p).dyed _ = true then _ else s.countStops c.val e p) _ _ _ _ _ = _
  rw [State.not_dyed hdye, if_neg Bool.false_ne_true, stopFault_of_quiet _ _ _ _ hf]

end

/-! ### Waiting for a counter -/

/-- Issue cycle of an instruction whose counter reaches the threshold in cycle `first` (R135, R290). -/
def Ctx.waitsUntil (x : Ctx) (first : Nat) : Nat := workAfter (if first / 3200 = x.head / 3200 then x.w else 0) first 0

section
variable (x : Ctx) (k : Work) (n th : Nat) {l : Loaded}
  (hecc : eccWorst k.s.ecc 8 (absAddr 4 x.c (8 * n)) 8 = none)
include hecc

theorem Work.syncWord_sound : k.syncWord x (8 * n) = .ok k := by
  rw [Work.syncWord, hecc]

theorem waitCounter_holds (hreach : (k.s.counter x.c n).reaches th x.head = none) :
    waitCounter x k n th = .error (.hold .counter) := by
  rw [waitCounter, Work.syncWord_sound x k n hecc]
  simp only [ok_bind, hreach]

variable (hexe : (k.s.fn x.job.fn.val).exe = some l) {first : Nat}
  (hreach : (k.s.counter x.c n).reaches th x.head = some first)
include hexe hreach

theorem waitCounter_stalls (hlate : x.head + l.stall < x.waitsUntil first) :
    waitCounter x k n th = .error (.stop .queueStall 0x01 none) := by
  unfold Ctx.waitsUntil at hlate
  rw [waitCounter, Work.syncWord_sound x k n hecc]
  simp only [ok_bind, hreach, hexe, hlate, if_true]

theorem waitCounter_ends (hintime : x.waitsUntil first ≤ x.head + l.stall) :
    waitCounter x k n th = .ok (x.movedTo (x.waitsUntil first),
      k.ev 0x21 x.head (x.waitsUntil first - x.head) 1, (k.s.counter x.c n).view (x.waitsUntil first)) := by
  have hno := hintime.not_gt
  unfold Ctx.waitsUntil at hno
  rw [waitCounter, Work.syncWord_sound x k n hecc]
  simp only [ok_bind, hreach, hexe, hno, if_false]
  rfl

end

/-- An instruction that has done nothing but wait in state `s`. -/
structure Work.OnlyWaited (k : Work) (s : State) : Prop where
  state : k.s = s
  recs : k.recs = []
  late : k.late = []
  stops : k.stops = []

theorem Work.onlyWaited_ev (s : State) (t start len n : Nat) : ((s.work t).ev 0x21 start len n).OnlyWaited s := by
  refine ⟨Work.s_ev _ _ _ _ _, Work.recs_ev _ _ _ _ _, Work.late_ev _ _ _ _ _, ?_⟩
  unfold Work.ev Work.stops
  split <;> rfl

/-- An instruction that begins with the evaluation of counter `n`: WAIT and ACQUIRE, each with what it does once the count is
there (R135, R199). -/
def WaitsFor (body : Ctx → Work → Except Halt Issued) (n th : Nat) (f : Ctx × Work × Counter → Except Halt Issued) : Prop :=
  ∀ x k, body x k = waitCounter x k n th >>= f

/-- The counter after an instruction that has seen it as `u`. -/
def Counter.used (v u : Counter) (keep : Bool) (th : Nat) : Counter :=
  if keep then v else { u with count := u.count - th }

section
variable (k : Work) (x : Ctx) (n th : Nat) (keep : Bool) (v : Counter)

theorem Work.recs_consume : (k.consume x n th keep v).recs = k.recs := by cases keep <;> rfl

theorem Work.late_consume : (k.consume x n th keep v).late = k.late := by cases keep <;> rfl

theorem Work.engine_consume (e : Eng) : (k.consume x n th keep v).s.engine x.c e = k.s.engine x.c e := by
  cases keep
  · exact State.engine_setCounter _ _ _ _ _
  · rfl

theorem Work.faults_consume : ((k.consume x n th keep v).s.core x.c).faults = (k.s.core x.c).faults := by
  cases keep
  · exact State.faults_setCounter _ _ _ _
  · rfl

theorem Work.counter_consume : (k.consume x n th keep v).s.counter x.c n = (k.s.counter x.c n).used v keep th := by
  cases keep
  · exact State.counter_setCounter_same _ _ _ _
  · rfl

end

section
variable {s : State} {c : CoreId} {e : Eng} {j : Job} {op : Nat} {plan : Bool} {body : Ctx → Work → Except Halt Issued}
  {n th : Nat} {f : Ctx × Work × Counter → Except Halt Issued} {l : Loaded} {first : Nat}
  (h : Ready s c e j) (hbody : WaitsFor body n th f) (hecc : eccWorst s.ecc 8 (absAddr 4 c.val (8 * n)) 8 = none)
include h hbody hecc

theorem waitsFor_holds (hreach : (s.counter c.val n).reaches th (s.head c e j).t = none) :
    let t := runInstr s c e op plan body
    (t.engine c.val e).pc = (s.engine c.val e).pc ∧ (t.engine c.val e).wait ≠ none ∧ t.counter c.val n = s.counter c.val n := by
  intro t
  have ht : t = s.updEngine c.val e fun q => { q with wait := some (.counter, (s.engine c.val e).next) } := by
    refine runInstr_hold h fun r => ?_
    rw [hbody, waitCounter_holds { s.head c e j with r := r } (s.work (s.head c e j).t) n th hecc hreach, error_bind]
  rw [ht, State.engine_updEngine_same]
  exact ⟨rfl, Option.some_ne_none _, (sameCounters_updEngine s c.val e _).counter _ _⟩

variable (hexe : (s.fn j.fn.val).exe = some l)
  (hreach : (s.counter c.val n).reaches th (s.head c e j).t = some first)
include hexe hreach

theorem waitsFor_stalls (hd : s.dyeRate = 0) (hlate : (s.head c e j).t + l.stall < (s.head c e j).waitsUntil first) :
    runInstr s c e op plan body = s.raiseEng c.val e .queueStall 0x01 := by
  refine runInstr_stop h hd ?_ (by decide)
  rw [hbody, waitCounter_stalls (s.head c e j) (s.work (s.head c e j).t) n th hecc hexe hreach hlate, error_bind]

variable (hintime : (s.head c e j).waitsUntil first ≤ (s.head c e j).t + l.stall)
include hintime

omit h in
/-- Within the stall limit the instruction goes on in its issue cycle, with the counter as that cycle sees it. -/
theorem waitsFor_ends : ∃ k : Work, k.OnlyWaited s ∧ body (s.head c e j) (s.work (s.head c e j).t) =
    f ((s.head c e j).movedTo ((s.head c e j).waitsUntil first), k,
      (s.counter c.val n).view ((s.head c e j).waitsUntil first)) := by
  have hb := hbody (s.head c e j) (s.work (s.head c e j).t)
  rw [waitCounter_ends (s.head c e j) (s.work (s.head c e j).t) n th hecc hexe hreach hintime,
    ok_bind] at hb
  exact ⟨_, Work.onlyWaited_ev s _ _ _ _, hb⟩

theorem waitsFor_issues {keep : Bool} (hf : ∀ k : Work, k.s = s →
      let y := (s.head c e j).movedTo ((s.head c e j).waitsUntil first)
      let u := (s.counter c.val n).view ((s.head c e j).waitsUntil first)
      f (y, k, u) = .ok (finish y (k.consume y n th keep u))) :
    let t := runInstr s c e op plan body
    FollowedFrom s t c e j ((s.head c e j).waitsUntil first) ∧
      t.counter c.val n =
        (s.counter c.val n).used ((s.counter c.val n).view ((s.head c e j).waitsUntil first)) keep th := by
  obtain ⟨k, ⟨rfl, hrecs, hlate, -⟩, hb⟩ := waitsFor_ends hbody hecc hexe hreach hintime
  obtain ⟨hengine, hcounter⟩ := runInstr_finish (op := op) (plan := plan) h (hb.trans (hf k rfl)) rfl rfl le_rfl
    ((Work.recs_consume _ _ _ _ _ _).trans hrecs) ((Work.late_consume _ _ _ _ _ _).trans hlate)
    ((Work.faults_consume _ _ _ _ _ _).trans h.faults) (Work.engine_consume _ _ _ _ _ _ _)
  exact ⟨moved_of_advance hengine, (hcounter n).trans (Work.counter_consume _ _ _ _ _ _)⟩

end

/-! ### WAIT and ACQUIRE -/

section
variable {m : Byte} (w : BitVec 48) {o : Ctx × Work × Counter}

/-- A WAIT whose counter is there consumes the threshold. -/
def waitTail (o : Ctx × Work × Counter) : Except Halt Issued :=
  .ok (finish o.1 (o.2.1.consume o.1 (fld w 0 6) (fld w 6 16) (bitAt w 22) o.2.2))

theorem runWait_waitsFor (h : legalCtl 0x07 m w = true) : WaitsFor (runWait m w) (fld w 0 6) (fld w 6 16) (waitTail w) := by
  intro x k
  rw [runWait, needCtl_ok h]
  rfl

/-- Distance of the counter's latest increment from the core that evaluates it (R195). -/
def originDist (o : Ctx × Work × Counter) : Nat := scopeDist o.1.c o.2.1.s.moduleId o.2.2.originCore o.2.2.originModule

variable (m)

/-- An ACQUIRE whose counter is there checks the scopes, then does as a WAIT. -/
def acquireTail (o : Ctx × Work × Counter) : Except Halt Issued :=
  o.2.1.needs o.1 [(scopeIncludes o.2.2.scope (originDist o), .scopeMismatch, 0x01),
    (scopeIncludes (scopeOf m.toNat) (originDist o), .scopeMismatch, 0x02)] >>= fun _ => waitTail w o

variable {m}

theorem runAcquire_waitsFor (h : legalCtl 0x0A m w = true) :
    WaitsFor (runAcquire m w) (fld w 0 6) (fld w 6 16) (acquireTail m w) := by
  intro x k
  rw [runAcquire, needCtl_ok h]
  rfl

/-- Of two scopes that fail, the counter's is recorded and the other is masked (R88, R199). -/
theorem needs_scopes (k : Work) (x : Ctx) (a b : Bool) :
    k.needs x [(a, .scopeMismatch, 0x01), (b, .scopeMismatch, 0x02)] =
      if a && b then .ok ()
      else .error (.stop .scopeMismatch (if a then 0x02 else 0x01) (some (k.ev 0x0C x.t 1 (if !a && !b then 1 else 0)))) := by
  cases a <;> cases b <;> rfl

theorem acquireTail_includes (hu : scopeIncludes o.2.2.scope (originDist o) = true)
    (hm : scopeIncludes (scopeOf m.toNat) (originDist o) = true) : acquireTail m w o = waitTail w o := by
  rw [acquireTail, needs_scopes, hu, hm]
  rfl

theorem acquireTail_mismatch
    (hx : scopeIncludes o.2.2.scope (originDist o) = false ∨ scopeIncludes (scopeOf m.toNat) (originDist o) = false) :
    acquireTail m w o = .error (.stop .scopeMismatch (if scopeIncludes o.2.2.scope (originDist o) then 0x02 else 0x01)
      (some (o.2.1.ev 0x0C o.1.t 1
        (if !scopeIncludes o.2.2.scope (originDist o) && !scopeIncludes (scopeOf m.toNat) (originDist o) then 1 else 0)))) := by
  have hboth : ¬(scopeIncludes o.2.2.scope (originDist o) && scopeIncludes (scopeOf m.toNat) (originDist o)) = true := by
    simpa [imp_iff_or_not, or_comm] using hx
  rw [acquireTail, needs_scopes, if_neg hboth, error_bind]

end

/-- The masked fault of a cycle is the one event that stays counted. -/
theorem State.countStops_ev_masked (s : State) (c : Nat) (e : Eng) {k : Work} (hk : k.stops = []) (t : Nat) (b : Bool) :
    s.countStops c e (k.ev 0x0C t 1 (if b then 1 else 0)) = if b then s.count c (some e.num) 0x0C t 1 1 else s := by
  unfold Work.stops at hk
  cases b <;> simp [State.countStops, Work.stops, Work.ev, hk]

/-! ### SIGNAL -/

/-- An increment of a settled counter with room for it waits alone (R134). -/
theorem incCounter_settled {s : State} {c n amount : Nat} (hp : (s.counter c n).pend = [])
    (hroom : (s.counter c n).count + amount ≤ 65535) (sc : Scope) (core : Nat)
    (module : BitVec 12) (t eng : Nat) :
    s.incCounter c n amount sc core module t eng = s.setCounter c n { s.counter c n with
      pend := [{ cyc := t, eng := eng, amount := amount, scope := sc, originCore := core, originModule := module }] } := by
  have hfits : ¬65535 < (s.counter c n).count + amount := hroom.not_gt
  simp [State.incCounter, Counter.view_of_settled _ hp, hp, insInc, hfits]

section
variable {m : Byte} {w : BitVec 48} (x : Ctx) (k : Work)

/-- Cycle by which every earlier instruction and increment of the engine has completed (R134, R196). -/
def Engine.signalReady (q : Engine) : Nat := max (q.doneWithin 4) q.relAt

theorem runSignal_alone (h : legalCtl 0x08 m w = true) (ho : (k.s.engine x.c x.e).openOps = [])
    (hr : (k.s.engine x.c x.e).releases = []) :
    runSignal m w x k = .ok (finish x { k with
      s := k.s.incCounter x.c (fld w 0 6) (fld w 6 16) .core x.c k.s.moduleId
        (x.after (k.s.engine x.c x.e).signalReady) x.e.num }) := by
  unfold State.engine at ho hr
  simp only [runSignal, needCtl_ok h, ho, hr]
  rfl

variable (w) in
/-- A SIGNAL that waits with its engine's releases (R134). -/
def signalPending : PendRelease :=
  { addr := BitVec.ofNat 48 (absAddr 4 x.c (8 * fld w 0 6)), module := k.s.moduleId, scope := .core, inc := fld w 6 16,
    ready := max (k.s.engine x.c x.e).signalReady x.t, cover := (k.s.engine x.c x.e).openOps, signal := true, issued := x.t }

theorem runSignal_behind (h : legalCtl 0x08 m w = true)
    (hq : (k.s.engine x.c x.e).openOps ≠ [] ∨ (k.s.engine x.c x.e).releases ≠ []) :
    runSignal m w x k = .ok (finish x (k.pendRelease x (signalPending w x k))) := by
  have hbusy : ¬((k.s.engine x.c x.e).openOps.isEmpty && (k.s.engine x.c x.e).releases.isEmpty) = true := by
    simpa [imp_iff_not_or] using hq
  unfold State.engine at hbusy
  simp only [runSignal, needCtl_ok h, hbusy]
  rfl

end

/-! ### RELEASE -/

theorem Work.needs_met (k : Work) (x : Ctx) {l : List (Bool × Cause × Byte)} (h : ∀ f ∈ l, f.1 = true) :
    k.needs x l = .ok () := by
  have hnone : (l.filter fun f => !f.1) = [] := List.filter_eq_nil_iff.2 fun f hf => by simp [h f hf]
  rw [Work.needs, hnone]
  rfl

section
variable (m : Byte) (w : BitVec 48) (x : Ctx) (k : Work)

/-- Module that the operands of a RELEASE of skein scope name (R137). -/
def releaseNamed : BitVec 12 :=
  if bitAt w 16 then (k.sreg x (fld w 17 5)).setWidth 12 else BitVec.ofNat 12 (fld w 4 12)

/-- Module of the counter of a RELEASE (R137). -/
def releaseModule : BitVec 12 := if scopeOf m.toNat = .skein then releaseNamed w x k else k.s.moduleId

/-- Detail with which the access check refuses the counter of a RELEASE in the sync space, if it does: of another module's
counter only the core is checked (R137, R161). -/
def releaseDenied : Option Byte :=
  let a := k.areg x (fld w 0 4)
  if !(aSpace a == 4) then none
  else if 1728 ≤ aCore a ∨ bitAt a 43 = true then some 0x70
  else if releaseModule m w x k = k.s.moduleId then
    (match k.s.resolve x.job.fn a 8 with | .error d => some d | .ok _ => none)
  else none

/-- What a RELEASE puts behind the pending releases of its engine (R137, R196). -/
def releasePending : PendRelease :=
  { addr := k.areg x (fld w 0 4), module := releaseModule m w x k,
    scope := scopeOf m.toNat, inc := fld w 22 16,
    ready := max ((k.s.engine x.c x.e).doneWithin (max 1 (scopeOf m.toNat).code)) x.t,
    cover := k.s.coverOf (k.s.engine x.c x.e) (scopeOf m.toNat), signal := false, issued := x.t }

end

section
variable {m : Byte} {w : BitVec 48} {x : Ctx} {k : Work} (h : legalCtl 0x09 m w = true)
include h

/-- Only mode 4 of a legal RELEASE has skein scope (R137, R194). -/
theorem scopeOf_eq_skein_iff : scopeOf m.toNat = .skein ↔ m = 4 := by
  have hm : m.toNat ≤ 4 := by
    simp only [legalCtl, Bool.and_eq_true, decide_eq_true_eq] at h
    exact h.1.1
  rw [← BitVec.toNat_inj]
  interval_cases m.toNat <;> decide

theorem releaseModule_own (hm : m ≠ 4) : releaseModule m w x k = k.s.moduleId :=
  if_neg ((scopeOf_eq_skein_iff h).not.2 hm)

theorem releaseModule_named (hm : m = 4) : releaseModule m w x k = releaseNamed w x k :=
  if_pos ((scopeOf_eq_skein_iff h).2 hm)

theorem runRelease_eq : runRelease m w x k =
    k.needs x [(aSpace (k.areg x (fld w 0 4)) == 4, .controlParity, spaceDetail x.e),
      (!(aSpace (k.areg x (fld w 0 4)) == 4) ||
        (aOff (k.areg x (fld w 0 4)) % 8 == 0 && decide (aOff (k.areg x (fld w 0 4)) < 512)), .controlParity, 0x06),
      ((releaseDenied m w x k).isNone, .accessDenied, (releaseDenied m w x k).getD 0),
      (decide (((k.s.engine x.c x.e).releases.filter fun r => !r.signal).length < 8), .queueStall, 0x03)] >>= fun _ =>
      .ok (finish x (k.pendRelease x (releasePending m w x k))) := by
  rw [runRelease, needCtl_ok h]
  rfl

variable (hcore : aCore (k.areg x (fld w 0 4)) < 1728) (hbit : bitAt (k.areg x (fld w 0 4)) 43 = false)
  (hown : m ≠ 4 → ∃ r, k.s.resolve x.job.fn (k.areg x (fld w 0 4)) 8 = .ok r)
  (hother : m = 4 → k.s.moduleId ≠ releaseNamed w x k)
include hcore hbit hown hother

theorem releaseDenied_none : releaseDenied m w x k = none := by
  have hplace : ¬(1728 ≤ aCore (k.areg x (fld w 0 4)) ∨ bitAt (k.areg x (fld w 0 4)) 43 = true) := by simp [hcore, hbit]
  unfold releaseDenied
  by_cases hm : m = 4
  · simp only [hplace, releaseModule_named h hm, (hother hm).symm, if_false, ite_self]
  · obtain ⟨r, hr⟩ := hown hm
    simp only [hplace, hr, if_false, ite_self]

theorem runRelease_pends (hspace : aSpace (k.areg x (fld w 0 4)) = 4) (halign : aOff (k.areg x (fld w 0 4)) % 8 = 0)
    (hoff : aOff (k.areg x (fld w 0 4)) < 512)
    (hroom : ((k.s.engine x.c x.e).releases.filter fun r => !r.signal).length < 8) :
    runRelease m w x k = .ok (finish x (k.pendRelease x (releasePending m w x k))) := by
  rw [runRelease_eq h, Work.needs_met, ok_bind]
  simp [hspace, halign, hoff, hroom, releaseDenied_none h hcore hbit hown hother]

end

/-! ### What a ready engine makes of them -/

section
variable {s : State} {c : CoreId} {e : Eng} {j : Job} {op : Nat} {plan : Bool} {body : Ctx → Work → Except Halt Issued}
  (h : Ready s c e j)
include h

/-- An instruction that joins the pending releases of its engine goes on to the next word and leaves the counters alone. -/
theorem runInstr_pends {r : PendRelease} (hb : body (s.head c e j) (s.work (s.head c e j).t) =
      .ok (finish (s.head c e j) ((s.work (s.head c e j).t).pendRelease (s.head c e j) r))) :
    let t := runInstr s c e op plan body
    Followed s t c e j ∧ (∀ n, t.counter c.val n = s.counter c.val n) ∧
      (t.engine c.val e).releases = (s.engine c.val e).releases ++ [r] := by
  obtain ⟨hengine, hcounter⟩ := runInstr_finish (op := op) (plan := plan) h hb rfl rfl le_rfl rfl rfl
    ((State.faults_updEngine _ _ _ _).trans h.faults) (State.engine_updEngine_same _ _ _ _)
  exact ⟨moved_of_advance hengine, fun n => (hcounter n).trans ((sameCounters_updEngine _ _ _ _).counter _ _),
    congrArg Engine.releases hengine⟩

/-- An instruction that increments a settled counter with room for it: the increment shows from the cycle after its own. -/
theorem runInstr_increments {n amount at' eng : Nat} {sc : Scope} {core : Nat} {module : BitVec 12}
    (hp : (s.counter c.val n).pend = []) (hroom : (s.counter c.val n).count + amount ≤ 65535)
    (hb : body (s.head c e j) (s.work (s.head c e j).t) = .ok (finish (s.head c e j) { s.work (s.head c e j).t with
      s := s.incCounter c.val n amount sc core module at' eng })) :
    let t := runInstr s c e op plan body
    Followed s t c e j ∧ ∀ i, let u := (t.counter c.val n).view i
      if i ≤ at' then u.count = (s.counter c.val n).count ∧ u.scope = (s.counter c.val n).scope
      else u.count = (s.counter c.val n).count + amount ∧ u.scope = sc ∧ u.originCore = core ∧ u.originModule = module := by
  rw [incCounter_settled hp hroom] at hb
  obtain ⟨hengine, hcounter⟩ := runInstr_finish (op := op) (plan := plan) h hb rfl rfl le_rfl rfl rfl
    ((State.faults_setCounter _ _ _ _).trans h.faults) (State.engine_setCounter _ _ _ _ _)
  refine ⟨moved_of_advance hengine, fun i => ?_⟩
  dsimp only
  rw [hcounter n, State.counter_setCounter_same, Counter.view_pend_singleton]
  split_ifs
  · exact ⟨rfl, rfl⟩
  · exact ⟨min_eq_left hroom, rfl, rfl, rfl⟩

/-- An ACQUIRE whose counter is there but whose scopes do not reach raises SCOPE_MISMATCH and changes neither the counter nor
the program counter (R199). -/
theorem runAcquire_mismatch {m : Byte} {w : BitVec 48} {l : Loaded} {first : Nat} (hl : legalCtl 0x0A m w = true)
    (hd : s.dyeRate = 0) (hecc : eccWorst s.ecc 8 (absAddr 4 c.val (8 * fld w 0 6)) 8 = none)
    (hexe : (s.fn j.fn.val).exe = some l)
    (hreach : (s.counter c.val (fld w 0 6)).reaches (fld w 6 16) (s.head c e j).t = some first)
    (hintime : (s.head c e j).waitsUntil first ≤ (s.head c e j).t + l.stall) :
    let n := (s.head c e j).waitsUntil first
    let u := (s.counter c.val (fld w 0 6)).view n
    let d := scopeDist c.val s.moduleId u.originCore u.originModule
    let t := (if !scopeIncludes u.scope d && !scopeIncludes (scopeOf m.toNat) d then s.count c.val (some e.num) 0x0C n 1 1
      else s).raiseEng c.val e .scopeMismatch (if scopeIncludes u.scope d then 0x02 else 0x01)
    scopeIncludes u.scope d = false ∨ scopeIncludes (scopeOf m.toNat) d = false →
      runInstr s c e op plan (runAcquire m w) = t ∧ (t.engine c.val e).pc = (s.engine c.val e).pc ∧
        t.counter c.val (fld w 0 6) = s.counter c.val (fld w 0 6) := by
  intro n u d t hx
  obtain ⟨k, ⟨hs, hrecs, -, hstops⟩, hb⟩ := waitsFor_ends (runAcquire_waitsFor w hl) hecc hexe hreach hintime
  subst hs
  have only : OnlyObs k.s (if !scopeIncludes u.scope d && !scopeIncludes (scopeOf m.toNat) d
      then k.s.count c.val (some e.num) 0x0C n 1 1 else k.s) c.val := OnlyObs.ite (count_onlyObs _ _ _ _ _ _ _)
  obtain ⟨hcounters, hpc⟩ := only.raiseEng_leaves (cause := .scopeMismatch)
    (d := if scopeIncludes u.scope d then 0x02 else 0x01) ⟨fun _ => rfl, by decide⟩ e
  refine ⟨?_, hpc, hcounters.counter _ _⟩
  rw [runInstr_stop_counted h hd (Work.s_ev _ _ _ _ _) ((Work.recs_ev _ _ _ _ _).trans hrecs)
    (hb.trans (acquireTail_mismatch w hx)) (by decide), State.countStops_ev_masked _ _ _ hstops]
  rfl

end

/-- Settles O6: the counter's own laws, and each instruction's equations with what the issue of a ready engine makes of
them. -/
theorem counterInstructions : Obligations.CounterInstructions := by
  refine ⟨fun s c e j m w l h hexe hecc => ⟨fun first hreach hintime => ⟨fun hl => ?wait, fun hl hu hm => ?acquire,
      fun hl hd hx => ?mismatch⟩, fun first hreach hd hlate => ⟨fun hl => ?waitStalls, fun hl => ?acquireStalls⟩,
      fun hreach => ⟨fun hl => ?waitHolds, fun hl => ?acquireHolds⟩⟩,
    fun v th n => ⟨fun hn k hk => v.count_lt_of_reaches_none hn hk, fun hs first hf => v.reaches_first hf hs⟩,
    fun s c e j m w h => ⟨fun hl => ⟨fun ho hr hp hroom => ?alone, fun hq => ?behind⟩,
      fun hl hspace halign hoff hcore hbit hown hother hroom => ?release⟩⟩
  case wait =>
    exact ⟨_, rfl, waitsFor_issues h (runWait_waitsFor w hl) hecc hexe hreach hintime fun _ _ => rfl⟩
  case acquire =>
    refine ⟨_, rfl, waitsFor_issues h (runAcquire_waitsFor w hl) hecc hexe hreach hintime fun k hk => ?_⟩
    subst hk
    exact acquireTail_includes w hu hm
  case mismatch =>
    obtain ⟨hrun, hpc, hcounter⟩ := runAcquire_mismatch (op := 0x0A) (plan := false) h hl hd hecc hexe hreach hintime hx
    exact ⟨congrArg Host.Outcome.next hrun, hpc, hcounter⟩
  case waitStalls =>
    exact congrArg Host.Outcome.next (waitsFor_stalls h (runWait_waitsFor w hl) hecc hexe hreach hd hlate)
  case acquireStalls =>
    exact congrArg Host.Outcome.next (waitsFor_stalls h (runAcquire_waitsFor w hl) hecc hexe hreach hd hlate)
  case waitHolds => exact ⟨_, rfl, waitsFor_holds h (runWait_waitsFor w hl) hecc hreach⟩
  case acquireHolds => exact ⟨_, rfl, waitsFor_holds h (runAcquire_waitsFor w hl) hecc hreach⟩
  case alone =>
    exact ⟨_, rfl, runInstr_increments h hp hroom (runSignal_alone _ _ hl ho hr)⟩
  case behind =>
    obtain ⟨hfollow, hcounter, hpend⟩ := runInstr_pends (op := 0x08) (plan := false) h (runSignal_behind _ _ hl hq)
    exact ⟨_, rfl, hfollow, hcounter _, _, hpend, rfl, rfl, rfl⟩
  case release =>
    obtain ⟨hfollow, -, hpend⟩ := runInstr_pends (op := 0x09) (plan := false) h
      (runRelease_pends hl hcore hbit hown hother hspace halign hoff hroom)
    exact ⟨_, rfl, hfollow, _, hpend, rfl, rfl, rfl, rfl, fun hm => releaseModule_own hl hm⟩

end Sys2Proof.Machine
end

section
/-!
PROOFS. The side interfaces: PLDM, the channel selector (R453, R454) and JTAG (R455), an equation or a law for each command
and for what an EXTEST-class instruction does to the module.
-/
namespace Sys2Proof.Machine

/-! ### The module up, wiped and in a JTAG reset -/

theorem State.up_iff {s : State} : s.up = true ↔ s.power.phase = .ready ∨ ∃ k, s.power.phase = .warmPending k := by
  unfold State.up
  cases s.power.phase <;> simp

@[simp] theorem State.wiped_phase (s : State) (ph : Phase) : (s.wiped ph).power.phase = ph := rfl
@[simp] theorem State.wiped_mem (s : State) (ph : Phase) : (s.wiped ph).mem = [] := rfl
@[simp] theorem State.wiped_cores (s : State) (ph : Phase) : (s.wiped ph).cores = [] := rfl
@[simp] theorem State.wiped_passes (s : State) (ph : Phase) : (s.wiped ph).passes = [] := rfl
@[simp] theorem State.wiped_kem (s : State) (ph : Phase) : (s.wiped ph).sec.kem = none := rfl

@[simp] theorem State.loadJtag_jtag (s : State) (i : JtagInstr) : (s.loadJtag i).side.jtag = i := rfl
@[simp] theorem State.loadJtag_power (s : State) (i : JtagInstr) : (s.loadJtag i).power = s.power := rfl
@[simp] theorem State.loadJtag_mem (s : State) (i : JtagInstr) : (s.loadJtag i).mem = s.mem := rfl
@[simp] theorem State.loadJtag_cores (s : State) (i : JtagInstr) : (s.loadJtag i).cores = s.cores := rfl
@[simp] theorem State.loadJtag_passes (s : State) (i : JtagInstr) : (s.loadJtag i).passes = s.passes := rfl
@[simp] theorem State.loadJtag_sec (s : State) (i : JtagInstr) : (s.loadJtag i).sec = s.sec := rfl
@[simp] theorem State.loadJtag_out (s : State) (i : JtagInstr) : (s.loadJtag i).out = s.out := rfl

/-- A running module is zeroised and held, also one whose warm reset has been requested (R455). -/
theorem State.jtagReset_of_up {s : State} (h : s.up = true) : s.jtagReset = s.wiped .jtagHeld := by
  unfold State.jtagReset
  obtain hp | ⟨k, hp⟩ := State.up_iff.1 h <;> rw [hp]

/-! ### SMBus -/

section
variable {s : State} (h : s.managed = true)
include h

/-- A sensor's reading is what the sensor shows, where it shows anything, and its event has been read with it (R453). -/
theorem execPldmSensorRead_answers (sensor : PldmSensor) :
    ∃ t v, execPldmSensorRead sensor s = .next t ∧ t.out = .sideband v :: s.out ∧ sensor ∉ t.side.unread ∧
      ∀ r, s.sensorReading sensor = some r → v = r := by
  have hread : sensor ∉ s.side.unread.filter fun x => x != sensor := by simp
  have hsame : ∀ side, ({ s with side := { s.side with unread := side } } : State).sensorReading sensor =
      s.sensorReading sensor := fun _ => by cases sensor <;> rfl
  unfold execPldmSensorRead
  simp only [h, Bool.not_true, Bool.false_eq_true, if_false, hsame]
  cases s.sensorReading sensor with
  | none => exact ⟨_, _, rfl, rfl, hread, fun _ hr => nomatch hr⟩
  | some v => exact ⟨_, _, rfl, rfl, hread, fun _ hr => Option.some.inj hr⟩

theorem execPldmFruRead_answers :
    ∃ t v, execPldmFruRead s = .next t ∧ t.out = .sideband v :: s.out := by
  unfold execPldmFruRead
  rw [if_pos h]
  exact ⟨_, _, rfl, rfl⟩

/-- A subscription is entered once, and one that stands is kept (R453). -/
theorem execPldmEventSubscription_subscribes (sensor : PldmSensor) :
    ∃ t, execPldmEventSubscription sensor s = .next t ∧ sensor ∈ t.side.subscribed := by
  refine ⟨_, rfl, ?_⟩
  rw [h, Bool.true_and]
  cases hc : s.side.subscribed.contains sensor with
  | false => exact List.mem_append_right _ List.mem_cons_self
  | true => exact List.contains_iff_mem.1 hc

/-- The connected channel is the byte itself below 8, and none from 8 up (R454). -/
theorem execChannelSelectorWrite_connects (b : Byte) :
    ∃ t, execChannelSelectorWrite b s = .next t ∧
      t.side.channel.map Fin.val = if b.toNat < 8 then some b.toNat else none := by
  refine ⟨_, rfl, ?_⟩
  rw [if_pos h]
  by_cases hb : b.toNat < 8
  · simp [hb, Fin.ofNat, Nat.mod_eq_of_lt hb]
  · simp [hb]

end

/-! ### JTAG -/

section
variable {s : State} (h : s.power.pwrGood = true)
include h

theorem execBypass_loads : execBypass s = .next (s.loadJtag .bypass) := by rw [execBypass, if_pos h]

theorem execSamplePreload_loads : execSamplePreload s = .next (s.loadJtag .samplePreload) := by
  rw [execSamplePreload, if_pos h]

theorem execIdcode_answers :
    execIdcode s = .next ((s.loadJtag .idcode).emit (.sideband [(idcodeOf s.fuses.grade).toNat])) := by
  rw [execIdcode, if_pos h]

/-- An EXTEST-class instruction is loaded, and a running module is zeroised and held in reset (R455). -/
theorem State.loadExtest_takes_pins (i : JtagInstr) :
    (s.loadExtest i).side.jtag = i ∧ (s.up = true → (s.loadExtest i).power.phase = .jtagHeld ∧ (s.loadExtest i).mem = [] ∧
      (s.loadExtest i).cores = [] ∧ (s.loadExtest i).passes = [] ∧ (s.loadExtest i).sec.kem = none) := by
  have hload : s.loadExtest i = s.jtagReset.loadJtag i := if_pos h
  rw [hload]
  refine ⟨State.loadJtag_jtag _ i, fun hup => ?_⟩
  rw [State.jtagReset_of_up hup]
  simp

end

/-- The code that IDCODE gives for a grade (R455). -/
theorem idcodeOf_toNat (g : Grade) :
    ((idcodeOf g).toNat : Int) = if g = .f then 0x21728A9B else 0x21536A9B := by
  cases g <;> rfl

/-- Settles O57: command by command from the laws above. -/
theorem sideInterfaces : Obligations.SideInterfaces := by
  refine fun s => ⟨fun h => ⟨fun sensor => ?read, execPldmFruRead_answers h, execPldmEventSubscription_subscribes h,
      execChannelSelectorWrite_connects h⟩,
    fun h => ⟨execBypass_loads h, execSamplePreload_loads h, ?idcode, fun i hi => ?pins⟩⟩
  case read =>
    obtain ⟨t, v, ht, hout, hunread, hv⟩ := execPldmSensorRead_answers (s := s) h sensor
    refine ⟨t, v, ht, hout, hunread, ?_, ?_, ?_, ?_, ?_, ?_⟩
    · rintro rfl; exact hv _ rfl
    · rintro rfl; exact hv _ rfl
    · rintro rfl; exact hv _ rfl
    · rintro rfl; exact hv _ rfl
    · rintro d r rfl hr
      exact hv _ (by rw [State.sensorReading, hr, Option.map_some])
    · rintro rfl; exact hv _ rfl
  case idcode =>
    exact ⟨_, execIdcode_answers h, rfl, by rw [State.emit_out, State.loadJtag_out, idcodeOf_toNat]⟩
  case pins =>
    have taken := State.loadExtest_takes_pins h i.2
    simp only [List.mem_cons, List.not_mem_nil, or_false] at hi
    rcases hi with rfl | rfl | rfl | rfl | rfl <;> exact ⟨_, rfl, taken⟩

end Sys2Proof.Machine
end

section
/-!
PROOFS. The register instructions (R131), BARRIER (R141, R142) and reserved encodings (R125): an equation for each, and what
the issue of a ready engine makes of it.
-/
namespace Sys2Proof.Machine

theorem needCtl_fails {op : Nat} {m : Byte} {w : BitVec 48} (h : legalCtl op m w = false) :
    needCtl op m w = .error (parity 0x01) := by
  simp [needCtl, h]

/-! ### Registers that an instruction writes -/

theorem State.areg_of_engine {t : State} {c : Nat} {e : Eng} {q : Engine} (h : t.engine c e = q) (i n : Nat) :
    t.areg c e i n = (AMap.get TReg.zero q.aregs i).view n := by
  rw [State.areg, h]

theorem Work.engine_setA (k : Work) (x : Ctx) (i l : Nat) (v : MAddr) :
    (k.setA x i l v).s.engine x.c x.e = { k.s.engine x.c x.e with
      aregs := AMap.upd TReg.zero (k.s.engine x.c x.e).aregs i fun r => r.put x.t (x.at l) v } :=
  State.engine_updEngine_same _ _ _ _

/-- A register into which a result has been put shows it when it falls due (R131). -/
theorem view_upd_put {n : Nat} (regs : AMap (TReg (BitVec n))) (i t due : Nat) (v : BitVec n) :
    (AMap.get TReg.zero (AMap.upd TReg.zero regs i fun r => r.put t due v) i).view due = v := by
  rw [AMap.get_upd_same, TReg.view_put_due]

theorem Engine.sregs_advance (q : Engine) (i : Issued) : (q.advance i).sregs = q.sregs := rfl

@[simp] theorem Work.faults_setS (k : Work) (x : Ctx) (i l : Nat) (v : W32) :
    ((k.setS x i l v).s.core x.c).faults = (k.s.core x.c).faults := State.faults_updEngine _ _ _ _

@[simp] theorem Work.faults_setA (k : Work) (x : Ctx) (i l : Nat) (v : MAddr) :
    ((k.setA x i l v).s.core x.c).faults = (k.s.core x.c).faults := State.faults_updEngine _ _ _ _

section
variable {s : State} {c : CoreId} {e : Eng} {j : Job} {op : Nat} {plan : Bool} {body : Ctx → Work → Except Halt Issued}
  (h : Ready s c e j)
include h

/-- An instruction that only writes a scalar register goes on to the next word, and the register shows the value after its
latency (R131). -/
theorem runInstr_setS {i l : Nat} {v : W32} (hb : body (s.head c e j) (s.work (s.head c e j).t) =
      .ok (finish (s.head c e j) ((s.work (s.head c e j).t).setS (s.head c e j) i l v))) :
    let t := runInstr s c e op plan body
    Followed s t c e j ∧ t.sreg c.val e i ((s.head c e j).at l) = v := by
  have key := engine_runInstr (op := op) (plan := plan) h hb rfl rfl rfl
    ((Work.faults_setS _ (s.head c e j) _ _ _).trans h.faults) (Work.engine_setS _ (s.head c e j) _ _ _)
  exact ⟨moved_of_advance key, (State.sreg_of_engine key _ _).trans (view_upd_put _ _ _ _ _)⟩

/-- An instruction that writes two scalar registers (SRD of an address register). -/
theorem runInstr_setS_setS {i i' l : Nat} {v v' : W32} (hi : i ≠ i')
    (hb : body (s.head c e j) (s.work (s.head c e j).t) = .ok (finish (s.head c e j)
      (((s.work (s.head c e j).t).setS (s.head c e j) i l v).setS (s.head c e j) i' l v'))) :
    let t := runInstr s c e op plan body
    Followed s t c e j ∧ t.sreg c.val e i ((s.head c e j).at l) = v ∧ t.sreg c.val e i' ((s.head c e j).at l) = v' := by
  have hq : (((s.work (s.head c e j).t).setS (s.head c e j) i l v).setS (s.head c e j) i' l v').s.engine c.val e =
      { s.engine c.val e with sregs := AMap.upd TReg.zero (AMap.upd TReg.zero (s.engine c.val e).sregs i fun r =>
          r.put (s.head c e j).t ((s.head c e j).at l) v) i' fun r => r.put (s.head c e j).t ((s.head c e j).at l) v' } := by
    refine (Work.engine_setS ((s.work (s.head c e j).t).setS (s.head c e j) i l v) (s.head c e j) i' l v').trans ?_
    rw [Work.engine_setS (s.work (s.head c e j).t) (s.head c e j) i l v]
    rfl
  have key := engine_runInstr (op := op) (plan := plan) h hb rfl rfl rfl
    (((Work.faults_setS _ (s.head c e j) _ _ _).trans (Work.faults_setS _ (s.head c e j) _ _ _)).trans h.faults) hq
  have hregs := congrArg Engine.sregs key
  refine ⟨moved_of_advance key, ?_, ?_⟩
  · rw [State.sreg, hregs, Engine.sregs_advance, AMap.get_upd_other _ _ _ hi, view_upd_put]
  · rw [State.sreg, hregs, Engine.sregs_advance, view_upd_put]

/-- An instruction that only writes an address register. -/
theorem runInstr_setA {i l : Nat} {v : MAddr} (hb : body (s.head c e j) (s.work (s.head c e j).t) =
      .ok (finish (s.head c e j) ((s.work (s.head c e j).t).setA (s.head c e j) i l v))) :
    let t := runInstr s c e op plan body
    Followed s t c e j ∧ t.areg c.val e i ((s.head c e j).at l) = v := by
  have key := engine_runInstr (op := op) (plan := plan) h hb rfl rfl rfl
    ((Work.faults_setA _ (s.head c e j) _ _ _).trans h.faults) (Work.engine_setA _ (s.head c e j) _ _ _)
  exact ⟨moved_of_advance key, (State.areg_of_engine key _ _).trans (view_upd_put _ _ _ _ _)⟩

end

/-! ### Equations of the register instructions -/

section
variable {m : Byte} {w : BitVec 48} (x : Ctx) (k : Work)

theorem runSset_ok (h : legalCtl 0x10 m w = true) :
    runSset m w x k = .ok (finish x (k.setS x (fld m 0 5) 1 (BitVec.ofNat 32 (fld w 0 32)))) := by
  rw [runSset, needCtl_ok h]
  rfl

theorem runSop_ok (h : legalCtl 0x11 m w = true) :
    runSop m w x k = .ok (finish x (k.setS x (fld w 0 5) 1
      (scalarOp m.toNat (k.sreg x (fld w 5 5)) (k.sreg x (fld w 10 5))))) := by
  rw [runSop, needCtl_ok h]
  rfl

theorem runSopi_ok (h : legalCtl 0x12 m w = true) :
    runSopi m w x k = .ok (finish x (k.setS x (fld w 0 5) 1
      (scalarOp m.toNat (k.sreg x (fld w 5 5)) (BitVec.ofNat 32 (fld w 10 32))))) := by
  rw [runSopi, needCtl_ok h]
  rfl

theorem runAset_ok (h : legalCtl 0x13 m w = true) : runAset m w x k = .ok (finish x (k.setA x (fld m 0 4) 1 w)) := by
  rw [runAset, needCtl_ok h]
  rfl

theorem runAadd_ok (h : legalCtl 0x14 m w = true) :
    runAadd m w x k = .ok (finish x (k.setA x (fld m 0 4) 1 (k.areg x (fld w 0 4) +
      (if bitAt w 9 then BitVec.ofNat 32 (fld w 10 32) else k.sreg x (fld w 4 5)).signExtend 48))) := by
  rw [runAadd, needCtl_ok h]
  rfl

/-- A value that SRD reads into one register (table "Special values"). -/
def srdValue (m : Byte) (x : Ctx) (k : Work) : W32 :=
  match m.toNat with
  | 0 => BitVec.ofNat 32 x.t
  | 1 => (match k.s.pass x.job.pass with
      | some p => p.number
      | none => 0)
  | 2 => BitVec.ofNat 32 x.job.vcore
  | _ => BitVec.ofNat 32 (match (k.s.fn x.job.fn.val).exe with
      | some l => l.coreCount
      | none => 0)

theorem srdValue_number {p : Pass} (hp : k.s.pass x.job.pass = some p) : srdValue 1 x k = p.number := by
  change (match k.s.pass x.job.pass with
    | some p => p.number
    | none => 0) = _
  rw [hp]

theorem srdValue_coreCount {l : Loaded} (hl : (k.s.fn x.job.fn.val).exe = some l) :
    srdValue 3 x k = BitVec.ofNat 32 l.coreCount := by
  change BitVec.ofNat 32 (match (k.s.fn x.job.fn.val).exe with
    | some l => l.coreCount
    | none => 0) = _
  rw [hl]

theorem legal_srd (h : legalCtl 0x17 m w = true) : m.toNat < 4 ∨ m = 4 := by
  simp only [legalCtl] at h
  split at h
  · next h4 => exact .inr (by simpa using h4)
  · simp only [Bool.and_eq_true, decide_eq_true_eq] at h
    exact .inl h.1

theorem runSrd_value (h : legalCtl 0x17 m w = true) (hm : m.toNat < 4) :
    runSrd m w x k = .ok (finish x (k.setS x (fld w 0 5) 1 (srdValue m x k))) := by
  rw [runSrd, needCtl_ok h, srdValue]
  interval_cases m.toNat <;> rfl

theorem runSrd_address (h : legalCtl 0x17 m w = true) (hm : m = 4) :
    runSrd m w x k = .ok (finish x ((k.setS x (fld w 0 5) 1 (BitVec.ofNat 32 (fld (k.areg x (fld w 5 4)) 0 32))).setS x
      (fld w 0 5 + 1) 1 (BitVec.ofNat 32 (fld (k.areg x (fld w 5 4)) 32 16)))) := by
  rw [runSrd, needCtl_ok h]
  subst hm
  rfl

end

/-- The two halves of an address register (table "Special values"). -/
theorem ofNat_fld_low (a : MAddr) : BitVec.ofNat 32 (fld a 0 32) = a.setWidth 32 := by
  apply BitVec.eq_of_toNat_eq
  simp [fld]

theorem ofNat_fld_high (a : MAddr) : BitVec.ofNat 32 (fld a 32 16) = (a >>> 32).setWidth 32 := by
  apply BitVec.eq_of_toNat_eq
  have := a.isLt
  simp only [fld, BitVec.toNat_ofNat, BitVec.toNat_setWidth, BitVec.toNat_ushiftRight, Nat.shiftRight_eq_div_pow]
  omega

/-! ### The codes of SOP and SOPI -/

theorem fld_low_five (b : W32) : fld b 0 5 = b.toNat % 32 := by simp [fld]

/-- Minimum and maximum by comparison of a value that tells the words apart. -/
theorem apply_ite_min {α β : Type} [LinearOrder β] (f : α → β) (a b : α) : f (if f a ≤ f b then a else b) = min (f a) (f b) := by
  split_ifs with h
  · exact (min_eq_left h).symm
  · exact (min_eq_right (le_of_not_ge h)).symm

theorem apply_ite_max {α β : Type} [LinearOrder β] (f : α → β) (a b : α) : f (if f a ≤ f b then b else a) = max (f a) (f b) := by
  split_ifs with h
  · exact (max_eq_right h).symm
  · exact (max_eq_left (le_of_not_ge h)).symm

theorem scalarOp_laws (a b : W32) :
    scalarOp 0 a b = BitVec.ofNat 32 (a.toNat + b.toNat) ∧ scalarOp 1 a b + b = a ∧
      scalarOp 2 a b = BitVec.ofNat 32 (a.toNat * b.toNat) ∧
      (∀ i, (scalarOp 3 a b).getLsbD i = (a.getLsbD i && b.getLsbD i) ∧ (scalarOp 4 a b).getLsbD i = (a.getLsbD i || b.getLsbD i) ∧
        (scalarOp 5 a b).getLsbD i = (a.getLsbD i ^^ b.getLsbD i)) ∧
      scalarOp 6 a b = BitVec.ofNat 32 (a.toNat * 2 ^ (b.toNat % 32)) ∧
      (scalarOp 7 a b).toNat = a.toNat / 2 ^ (b.toNat % 32) ∧ (scalarOp 8 a b).toInt = a.toInt / 2 ^ (b.toNat % 32) ∧
      (scalarOp 9 a b).toInt = min a.toInt b.toInt ∧ (scalarOp 10 a b).toInt = max a.toInt b.toInt ∧
      (scalarOp 11 a b).toNat = min a.toNat b.toNat ∧ (scalarOp 12 a b).toNat = max a.toNat b.toNat := by
  refine ⟨?_, BitVec.sub_add_cancel a b, ?_, fun i => ⟨BitVec.getLsbD_and, BitVec.getLsbD_or, BitVec.getLsbD_xor⟩, ?_, ?_, ?_,
    apply_ite_min BitVec.toInt a b, apply_ite_max BitVec.toInt a b, apply_ite_min BitVec.toNat a b, apply_ite_max BitVec.toNat a b⟩
  · exact BitVec.eq_of_toNat_eq (by simp [scalarOp])
  · exact BitVec.eq_of_toNat_eq (by simp [scalarOp])
  · exact BitVec.eq_of_toNat_eq (by simp [scalarOp, fld_low_five, Nat.shiftLeft_eq])
  · simp [scalarOp, fld_low_five, Nat.shiftRight_eq_div_pow]
  · simp [scalarOp, fld_low_five, Int.shiftRight_eq_div_pow]

/-- Settles O1: each instruction's equation, what the issue of a ready engine makes of it, and the laws of the codes. -/
theorem registerInstructions : Obligations.RegisterInstructions := by
  refine ⟨fun s c e j m w h => ⟨fun hl => ⟨_, rfl, runInstr_setS h (runSset_ok _ _ hl)⟩,
    fun hl => ⟨_, rfl, runInstr_setS h (runSop_ok _ _ hl)⟩, fun hl => ⟨_, rfl, runInstr_setS h (runSopi_ok _ _ hl)⟩,
    fun hl => ⟨_, rfl, runInstr_setA h (runAset_ok _ _ hl)⟩, fun hl => ⟨_, rfl, runInstr_setA h (runAadd_ok _ _ hl)⟩,
    fun hl => ?srd⟩, scalarOp_laws⟩
  obtain hm | rfl := legal_srd hl
  · obtain ⟨hfollow, hv⟩ := runInstr_setS (op := 0x17) (plan := false) h (runSrd_value _ _ hl hm)
    refine ⟨_, rfl, hfollow, ?_, ?_, ?_, ?_, ?_⟩
    · rintro rfl; exact hv
    · rintro rfl p hp; exact hv.trans (srdValue_number _ _ hp)
    · rintro rfl; exact hv
    · rintro rfl l hexe; exact hv.trans (srdValue_coreCount _ _ hexe)
    · rintro rfl; exact absurd hm (by decide)
  · obtain ⟨hfollow, hlow, hhigh⟩ := runInstr_setS_setS (op := 0x17) (plan := false) h (Nat.succ_ne_self _).symm
      (runSrd_address _ _ hl rfl)
    exact ⟨_, rfl, hfollow, fun h0 => absurd h0 (by decide), fun h0 => absurd h0 (by decide), fun h0 => absurd h0 (by decide),
      fun h0 => absurd h0 (by decide), fun _ => ⟨hlow.trans (ofNat_fld_low _), hhigh.trans (ofNat_fld_high _)⟩⟩

/-! ### BARRIER -/

section
variable {m : Byte} {w : BitVec 48} (x : Ctx) (k : Work) {l : Loaded} {b : BarrierEntry}
  (h : legalCtl 0x0B m w = true) (hexe : (k.s.fn x.job.fn.val).exe = some l)
  (hb : Exe.barrierOf l.exe x.job.vcore (fld w 0 12) = some b)
include h hexe hb

theorem runBarrier_eq : runBarrier m w x k =
    needF (b.kernel == x.job.kernel && (b.sig[x.e.num]?).getD 0 == ~~~(k.s.engine x.c x.e).sig) .signatureMismatch 0x01 >>= fun _ =>
      .ok (finish x { k with s := k.s.updEngine x.c x.e fun q => { q with mode := .barrier (bitAt m 0) } }) := by
  rw [runBarrier, needCtl_ok h]
  simp only [hexe, hb]
  rfl

theorem runBarrier_stops (hk : b.kernel = x.job.kernel) (hs : b.sig[x.e.num]? = some (~~~(k.s.engine x.c x.e).sig)) :
    runBarrier m w x k =
      .ok (finish x { k with s := k.s.updEngine x.c x.e fun q => { q with mode := .barrier (bitAt m 0) } }) := by
  rw [runBarrier_eq x k h hexe hb, hs, hk]
  simp [needF]
  rfl

theorem runBarrier_mismatch {g : W32} (hs : b.sig[x.e.num]? = some g) (hg : g ≠ ~~~(k.s.engine x.c x.e).sig) :
    runBarrier m w x k = .error (.stop .signatureMismatch 0x01 none) := by
  rw [runBarrier_eq x k h hexe hb, hs]
  simp [needF, hg]
  rfl

end

/-- Settles O5: the two ways in which a BARRIER ends. -/
theorem barrierInstruction : Obligations.BarrierInstruction := by
  refine fun s c e j m w l b h hl hexe hb => ⟨fun hk hs => ?_, fun g hs hg hd => ?_⟩
  · have key := engine_runInstr (op := 0x0B) (plan := false) h (runBarrier_stops _ _ hl hexe hb hk hs) rfl rfl rfl
      ((State.faults_updEngine _ _ _ _).trans h.faults) (State.engine_updEngine_same _ _ _ _)
    exact ⟨_, rfl, moved_of_advance key, congrArg Engine.mode key⟩
  · exact congrArg Host.Outcome.next (runInstr_stop h hd (runBarrier_mismatch _ _ hl hexe hb hs hg) (by decide))

/-! ### Reserved encodings -/

/-- The body of a control or register instruction asks first for a legal encoding (R125). -/
def ChecksCtl (body : Ctx → Work → Except Halt Issued) (op : Nat) (m : Byte) (w : BitVec 48) : Prop :=
  ∃ rest : Ctx → Work → Except Halt Issued, ∀ x k, body x k = needCtl op m w >>= fun _ => rest x k

/-- A reserved encoding raises CONTROL_PARITY 0x01 and has no other effect (R125). -/
theorem runInstr_reserved {s : State} {c : CoreId} {e : Eng} {j : Job} {op op' : Nat} {plan : Bool} {m : Byte} {w : BitVec 48}
    {body : Ctx → Work → Except Halt Issued} (h : Ready s c e j) (hd : s.dyeRate = 0) (hbody : ChecksCtl body op m w)
    (hl : legalCtl op m w = false) : runInstr s c e op' plan body = s.raiseEng c.val e .controlParity 0x01 := by
  obtain ⟨rest, hb⟩ := hbody
  refine runInstr_stop h hd ?_ (by decide)
  rw [hb, needCtl_fails hl]
  rfl

/-- Settles O7: every body asks for a legal encoding first. -/
theorem reservedControlEncoding : Obligations.ReservedControlEncoding := by
  intro s c e j m w h hd t
  have key : ∀ {op op' : Nat} {plan : Bool} {body : Ctx → Work → Except Halt Issued}, ChecksCtl body op m w →
      legalCtl op m w = false →
      (.next (runInstr s c e op' plan body) : Host.Outcome State Fault Refusal) = .next t :=
    fun hb hl => congrArg Host.Outcome.next (runInstr_reserved h hd hb hl)
  exact ⟨key ⟨_, fun _ _ => rfl⟩, key ⟨_, fun _ _ => rfl⟩, key ⟨_, fun _ _ => rfl⟩, key ⟨_, fun _ _ => rfl⟩,
    key ⟨_, fun _ _ => rfl⟩, key ⟨_, fun _ _ => rfl⟩, key ⟨_, fun _ _ => rfl⟩, key ⟨_, fun _ _ => rfl⟩,
    key ⟨_, fun _ _ => rfl⟩, key ⟨_, fun _ _ => rfl⟩, key ⟨_, fun _ _ => rfl⟩, key ⟨_, fun _ _ => rfl⟩,
    key ⟨_, fun _ _ => rfl⟩, key ⟨_, fun _ _ => rfl⟩, key ⟨_, fun _ _ => rfl⟩, key ⟨_, fun _ _ => rfl⟩,
    key ⟨_, fun _ _ => rfl⟩, key ⟨_, fun _ _ => rfl⟩, key ⟨_, fun _ _ => rfl⟩⟩

/-- Settles O58: the two cases of `step`. -/
theorem stepRunsCommand : Obligations.StepRunsCommand := by
  refine fun s => ⟨fun i rest h => ?_, fun h => ?_⟩
  · simp only [step, h]
  · simp only [step, h]

end Sys2Proof.Machine
end

section
/-!
PROOFS. The vector registers (R94, R98) and the vector instructions without memory (R93 to R97): what a register shows when a
result falls due, and an equation for each instruction.
-/
namespace Sys2Proof.Machine

/-! ### What the invariant says of a core -/

theorem State.inv_iff {s : State} : s.inv = true ↔ Memory.wf s.mem = true ∧ ∀ ck ∈ s.cores,
    landSorted ck.2.mpend = true ∧ ∀ v ∈ ck.2.vregs, dueSorted v.2.pend = true := by
  simp [State.inv, List.all_eq_true]

theorem State.core_listed_or_reset (s : State) (c : Nat) : (c, s.core c) ∈ s.cores ∨ s.core c = Core.reset := by
  by_cases h : s.core c = Core.reset
  · exact .inr h
  · exact .inl (AMap.mem_of_get_ne h)

theorem State.inv_mpend {s : State} (h : s.inv = true) (c : Nat) : landSorted (s.core c).mpend = true := by
  obtain hm | hr := s.core_listed_or_reset c
  · exact ((State.inv_iff.1 h).2 _ hm).1
  · rw [hr]
    rfl

theorem dueSorted_get {regs : AMap VReg} (h : ∀ v ∈ regs, dueSorted v.2.pend = true) (v : Nat) :
    dueSorted (AMap.get VReg.zero regs v).pend = true := by
  by_cases hz : AMap.get VReg.zero regs v = VReg.zero
  · rw [hz]
    rfl
  · exact h _ (AMap.mem_of_get_ne hz)

theorem State.inv_vreg {s : State} (h : s.inv = true) (c v : Nat) :
    dueSorted (AMap.get VReg.zero (s.core c).vregs v).pend = true := by
  refine dueSorted_get ?_ v
  obtain hm | hr := s.core_listed_or_reset c
  · exact ((State.inv_iff.1 h).2 _ hm).2
  · rw [hr]
    exact fun _ hv => absurd hv List.not_mem_nil

theorem dueSorted_iff {l : List VPend} : dueSorted l = true ↔ l.Pairwise fun p q => p.due ≤ q.due := by
  induction l with
  | nil => simp [dueSorted]
  | cons p l ih => simp [dueSorted, ih]

/-! ### Results of a vector register -/

section
variable {α : Type} (f : α → Nat) {ins : α → List α → List α} (hnil : ∀ p, ins p [] = [p])
  (hcons : ∀ p q t, ins p (q :: t) = if f p < f q then p :: q :: t else q :: ins p t)
include hnil hcons

/-- Insertion by a key, behind equal keys, into a list that rises by it. -/
theorem ins_split (p : α) {l : List α} (h : l.Pairwise fun p q => f p ≤ f q) :
    ins p l = (l.filter fun q => decide (f q ≤ f p)) ++ p :: l.filter fun q => decide (f p < f q) := by
  induction l with
  | nil => exact hnil p
  | cons q l ih =>
    obtain ⟨hq, hl⟩ := List.pairwise_cons.1 h
    by_cases hlt : f p < f q
    · have habove : ∀ r ∈ q :: l, f p < f r := fun r hr => by
        obtain rfl | hr := List.mem_cons.1 hr
        · exact hlt
        · exact hlt.trans_le (hq r hr)
      rw [hcons, if_pos hlt, List.filter_eq_nil_iff.2 fun r hr => by simpa using habove r hr,
        List.filter_eq_self.2 fun r hr => by simpa using habove r hr]
      rfl
    · simp [hcons, hlt, ih hl, not_lt.1 hlt]

theorem ins_sorted (p : α) {l : List α} (h : l.Pairwise fun p q => f p ≤ f q) : (ins p l).Pairwise fun p q => f p ≤ f q := by
  rw [ins_split f hnil hcons p h, List.pairwise_append, List.pairwise_cons]
  refine ⟨h.filter _, ⟨fun q hq => ?_, h.filter _⟩, fun a ha b hb => ?_⟩
  · exact (of_decide_eq_true (List.mem_filter.1 hq).2 : f p < f q).le
  · have ha' : f a ≤ f p := of_decide_eq_true (List.mem_filter.1 ha).2
    obtain rfl | hb := List.mem_cons.1 hb
    · exact ha'
    · exact ha'.trans (of_decide_eq_true (List.mem_filter.1 hb).2 : f p < f b).le

end

/-- A new result stands behind every result that is due no later. -/
theorem insVPend_split (p : VPend) {l : List VPend} (h : l.Pairwise fun p q => p.due ≤ q.due) :
    insVPend p l = (l.filter fun q => decide (q.due ≤ p.due)) ++ p :: l.filter fun q => decide (p.due < q.due) :=
  ins_split VPend.due (ins := insVPend) (fun _ => rfl) (fun _ _ _ => rfl) p h

theorem dueSorted_insVPend (p : VPend) {l : List VPend} (h : dueSorted l = true) : dueSorted (insVPend p l) = true :=
  dueSorted_iff.2 (ins_sorted VPend.due (ins := insVPend) (fun _ => rfl) (fun _ _ _ => rfl) p (dueSorted_iff.1 h))

/-- In the cycle in which a result falls due it is the last one that has become visible (R94). -/
theorem VReg.view_put_due (r : VReg) (t : Nat) (p : VPend) (h : dueSorted r.pend = true) : ∃ l,
    (r.put t p).view p.due = applyVec l p ∧ (r.pend = [] → l = padTo 64 0 (trimLanes (padTo 64 0 r.base))) := by
  have hsort := (dueSorted_iff.1 h).filter fun q => decide (t < q.due)
  have hlater : ((r.pend.filter fun q => decide (t < q.due)).filter fun q => decide (p.due < q.due)).filter
      (fun q => decide (q.due ≤ p.due)) = [] := by
    refine List.filter_eq_nil_iff.2 fun q hq => ?_
    have : p.due < q.due := by simpa using (List.mem_filter.1 hq).2
    simp only [decide_eq_true_eq]
    omega
  refine ⟨(((r.pend.filter fun q => decide (t < q.due)).filter fun q => decide (q.due ≤ p.due)).filter
    fun q => decide (q.due ≤ p.due)).foldl applyVec (padTo 64 0 (trimLanes (r.view t))), ?_, fun hp => by simp [VReg.view, hp]⟩
  simp only [VReg.put]
  rw [VReg.view, insVPend_split p hsort, List.filter_append, List.filter_cons_of_pos (by simp), hlater, List.foldl_append]
  rfl

/-- A whole result replaces the register (R94). -/
theorem VReg.view_put_whole (r : VReg) (t due : Nat) (lanes : List W32) (h : dueSorted r.pend = true) :
    (r.put t { due := due, lane0 := false, lanes := lanes }).view due = lanes := by
  obtain ⟨l, hl, -⟩ := r.view_put_due t { due := due, lane0 := false, lanes := lanes } h
  exact hl

theorem padTo_length {α : Type} (n : Nat) (d : α) (l : List α) : (padTo n d l).length = n := by
  simp only [padTo, List.length_take, List.length_append, List.length_replicate]
  omega

/-- Padding gives back the zeros that the canonical form drops. -/
theorem padTo_trimLanes {l : List W32} {n : Nat} (h : l.length = n) : padTo n 0 (trimLanes l) = l := by
  have hsplit : l = trimLanes l ++ (l.reverse.takeWhile (· == 0)).reverse := by
    rw [trimLanes, ← List.reverse_append, List.takeWhile_append_dropWhile, List.reverse_reverse]
  have hzero : (l.reverse.takeWhile (· == 0)).reverse = List.replicate (n - (trimLanes l).length) 0 := by
    refine List.eq_replicate_iff.2 ⟨?_, fun b hb => ?_⟩
    · have := congrArg List.length hsplit
      rw [List.length_append] at this
      omega
    · simpa using List.mem_takeWhile_imp (List.mem_reverse.1 hb)
  rw [padTo, ← hzero, ← hsplit, List.take_of_length_le h.le]

/-- A lane 0 result leaves the other lanes of a settled register as they were (R98). -/
theorem VReg.view_put_lane0 (r : VReg) (t due : Nat) (v : W32) (h : dueSorted r.pend = true) :
    nth 0 ((r.put t { due := due, lane0 := true, lanes := [v] }).view due) 0 = v ∧
      (r.pend = [] → ((r.put t { due := due, lane0 := true, lanes := [v] }).view due).tail = (r.view t).tail) := by
  obtain ⟨l, hl, hbase⟩ := r.view_put_due t { due := due, lane0 := true, lanes := [v] } h
  rw [hl]
  refine ⟨rfl, fun hp => ?_⟩
  rw [hbase hp, padTo_trimLanes (padTo_length _ _ _)]
  simp [VReg.view, hp, applyVec]

/-! ### The work of a vector instruction -/

/-- The work has changed nothing of the core of `s` that a vector instruction reads. -/
structure Work.SameCore (k : Work) (s : State) (c : Nat) : Prop where
  core : k.s.core c = s.core c
  recs : k.recs = []
  late : k.late = []

theorem State.sameCore_work (s : State) (t c : Nat) : (s.work t).SameCore s c := ⟨rfl, rfl, rfl⟩

@[simp] theorem Core.setEngine_engine (k : Core) (e : Eng) : k.setEngine e (k.engine e) = k := by cases e <;> rfl

section
variable {s : State} {x : Ctx} {k : Work} (hk : k.SameCore s x.c) (hu : ((s.core x.c).engine x.e).upset = none)
include hk

theorem Work.SameCore.ev (code start len n : Nat) : (k.ev code start len n).SameCore s x.c :=
  ⟨by rw [Work.s_ev, hk.core], by rw [Work.recs_ev, hk.recs], by rw [Work.late_ev, hk.late]⟩

theorem Work.SameCore.ieee (i : Ieee) : (k.ieee x i).SameCore s x.c := (((hk.ev ..).ev ..).ev ..).ev ..

include hu

/-- Without a latent error of the register a landed result changes nothing (R99). -/
theorem Work.SameCore.vland (v : Nat) : (k.vland x v).SameCore s x.c := by
  unfold Work.vland
  extract_lets whole
  cases whole with
  | false => exact hk
  | true =>
    refine ⟨?_, hk.recs, hk.late⟩
    refine (State.core_updEngine_same _ _ _ _).trans ?_
    rw [hk.core]
    simp only [hu]
    rw [← hu]
    exact Core.setEngine_engine _ _

/-- A register without a latent error is read as it stands (R94, R99). -/
theorem Work.SameCore.vreg (v : Nat) :
    k.vreg x v = .ok ((AMap.get VReg.zero (s.core x.c).vregs v).view x.t, k.vland x v) := by
  have h := (hk.vland hu v).core
  simp only [Work.vreg, h, hu]

theorem Work.SameCore.clear (u : Upset) (c : Cause) (d : Byte) : k.clear x u c d = .ok () := by
  rw [Work.clear, hk.core, hu]
  rfl

theorem Work.SameCore.floatChecks (l : Nat) : k.floatChecks x l = .ok k := by
  rw [Work.floatChecks, hk.clear hu, hk.core, hu]
  rfl

/-- A vector result goes to its register and changes nothing else of the core. -/
theorem Work.SameCore.core_setV (v l : Nat) (lane0 : Bool) (lanes : List W32) : (k.setV x v l lane0 lanes).s.core x.c =
    { s.core x.c with
      vregs := AMap.upd VReg.zero (s.core x.c).vregs v fun r => r.put x.t { due := x.at l, lane0 := lane0, lanes := lanes } } := by
  refine (State.core_updCore_same _ _ _).trans ?_
  rw [(hk.vland hu v).core]

theorem Work.SameCore.recs_setV (v l : Nat) (lane0 : Bool) (lanes : List W32) : (k.setV x v l lane0 lanes).recs = [] :=
  (hk.vland hu v).recs

theorem Work.SameCore.late_setV (v l : Nat) (lane0 : Bool) (lanes : List W32) : (k.setV x v l lane0 lanes).late = [] :=
  (hk.vland hu v).late

end

@[simp] theorem Work.s_ieee (k : Work) (x : Ctx) (i : Ieee) : (k.ieee x i).s = k.s := by simp [Work.ieee]
@[simp] theorem Work.recs_ieee (k : Work) (x : Ctx) (i : Ieee) : (k.ieee x i).recs = k.recs := by simp [Work.ieee]
@[simp] theorem Work.late_ieee (k : Work) (x : Ctx) (i : Ieee) : (k.ieee x i).late = k.late := by simp [Work.ieee]

/-! ### Issue of a vector instruction -/

/-- The instruction in hand of the vector engine, in queue cycle `n` or without a wait. -/
structure Ctx.OfCore (y : Ctx) (c : CoreId) (e : Eng) : Prop where
  core : y.c = c.val
  eng : y.e = e
  read : y.t ≤ y.r

theorem State.head_ofCore (s : State) (c : CoreId) (e : Eng) (j : Job) : (s.head c e j).OfCore c e := ⟨rfl, rfl, le_rfl⟩

theorem Committed.vregs {s t : State} {i : Issued} (h : Committed s t i) :
    (t.core i.x.c).vregs = (s.core i.x.c).vregs := by
  rw [h.core, Core.setEngine_vregs]

section
variable {s : State} {c : CoreId} {e : Eng} {j : Job} {op : Nat} {plan : Bool} {body : Ctx → Work → Except Halt Issued}
  (h : Ready s c e j)
include h

/-- An instruction that has kept the core's faults and engine, and whose vector registers are then `regs`. -/
theorem runInstr_vregs {y : Ctx} {k : Work} {q : Engine} {regs : AMap VReg}
    (hb : body (s.head c e j) (s.work (s.head c e j).t) = .ok (finish y k)) (hy : y.OfCore c e) (hr : k.recs = [])
    (hl : k.late = []) (hf : (k.s.core c.val).faults = []) (hq : k.s.engine c.val e = q)
    (hv : (k.s.core c.val).vregs = regs) :
    (runInstr s c e op plan body).engine c.val e = q.advance (finish y k) ∧
      ((runInstr s c e op plan body).core c.val).vregs = regs := by
  obtain ⟨hc, he, ht⟩ := hy
  have done := runInstr_committed (op := op) (plan := plan) h hb hc ht hr hl hf
  have hengine := done.engine
  have hvregs := done.vregs
  subst hq he hv
  rw [show (finish y k).x.c = c.val from hc] at hengine hvregs
  exact ⟨hengine, hvregs⟩

variable (hinv : s.inv = true)
include hinv

omit hinv in
/-- An instruction that puts a result into a vector register. -/
theorem runInstr_putV {y : Ctx} {k : Work} {d l : Nat} {lane0 : Bool} {lanes : List W32} {i : Ieee} {q : Engine → Engine}
    (hy : y.OfCore c e) (hk : k.SameCore (s.updEngine c.val e q) c.val) (hu : (q (s.engine c.val e)).upset = none)
    (hb : body (s.head c e j) (s.work (s.head c e j).t) = .ok (finish y ((k.setV y d l lane0 lanes).ieee y i))) :
    let t := runInstr s c e op plan body
    t.engine c.val e = (q (s.engine c.val e)).advance (finish y ((k.setV y d l lane0 lanes).ieee y i)) ∧
      t.vlanes c d = VReg.view ((AMap.get VReg.zero (s.core c.val).vregs d).put y.t
        { due := y.at l, lane0 := lane0, lanes := lanes }) := by
  obtain ⟨hc, he, ht⟩ := hy
  have hk' : k.SameCore (s.updEngine c.val e q) y.c := by rwa [hc]
  have hu' : (((s.updEngine c.val e q).core y.c).engine y.e).upset = none := by
    rw [hc, he]
    exact (congrArg Engine.upset (State.engine_updEngine_same s c.val e q)).trans hu
  have hcore := Work.SameCore.core_setV hk' hu' d l lane0 lanes
  rw [hc] at hcore
  have key := runInstr_vregs (op := op) (plan := plan) (q := q (s.engine c.val e)) h hb ⟨hc, he, ht⟩
    (by rw [Work.recs_ieee, Work.SameCore.recs_setV hk' hu'])
    (by rw [Work.late_ieee, Work.SameCore.late_setV hk' hu'])
    (by rw [Work.s_ieee, hcore]; exact (State.faults_updEngine s c.val e q).trans h.faults)
    (by
      rw [Work.s_ieee, State.engine, hcore]
      refine Eq.trans ?_ (State.engine_updEngine_same s c.val e q)
      cases e <;> rfl)
    (by rw [Work.s_ieee, hcore])
  refine ⟨key.1, ?_⟩
  funext n
  rw [State.vlanes, key.2, AMap.get_upd_same, State.core_updEngine_same, Core.setEngine_vregs]

/-- An instruction that puts whole lanes into a vector register (R94). -/
theorem runInstr_setV {y : Ctx} {k : Work} {d l : Nat} {lanes : List W32} {i : Ieee} {q : Engine → Engine}
    (hy : y.OfCore c e) (hk : k.SameCore (s.updEngine c.val e q) c.val) (hu : (q (s.engine c.val e)).upset = none)
    (hb : body (s.head c e j) (s.work (s.head c e j).t) = .ok (finish y ((k.setV y d l false lanes).ieee y i))) :
    let t := runInstr s c e op plan body
    t.engine c.val e = (q (s.engine c.val e)).advance (finish y ((k.setV y d l false lanes).ieee y i)) ∧
      t.vlanes c d (y.at l) = lanes := by
  obtain ⟨hengine, hlanes⟩ := runInstr_putV (op := op) (plan := plan) h hy hk hu hb
  refine ⟨hengine, (congrFun hlanes _).trans ?_⟩
  exact VReg.view_put_whole _ _ _ _ (State.inv_vreg hinv _ _)

omit h hinv in
theorem Work.SameCore.updEngine_id {k : Work} (hk : k.SameCore s c.val) : k.SameCore (s.updEngine c.val e id) c.val := by
  have hsame : (s.updEngine c.val e id).core c.val = s.core c.val := by simp
  exact ⟨hk.core.trans hsame.symm, hk.recs, hk.late⟩

/-- The same where the engine's other state is as before. -/
theorem runInstr_setV_plain {k : Work} {d l : Nat} {lanes : List W32} {i : Ieee}
    (hk : k.SameCore s c.val) (hb : body (s.head c e j) (s.work (s.head c e j).t) =
      .ok (finish (s.head c e j) ((k.setV (s.head c e j) d l false lanes).ieee (s.head c e j) i))) :
    let t := runInstr s c e op plan body
    Followed s t c e j ∧ t.vlanes c d ((s.head c e j).at l) = lanes := by
  obtain ⟨hengine, hlanes⟩ := runInstr_setV (op := op) (plan := plan) (q := id) h hinv (s.head_ofCore c e j)
    hk.updEngine_id h.upset hb
  exact ⟨moved_of_advance hengine, hlanes⟩

end

end Sys2Proof.Machine
end

section
/-!
PROOFS. The vector instructions without memory (R93 to R98): an equation for each, and what the issue of a ready vector engine
makes of it.
-/
namespace Sys2Proof.Machine

theorem needEng_ok {e : Eng} {op : Nat} {m : Byte} {w : BitVec 48} (h : legalEng op m w = true) : needEng e op m w = .ok () := by
  simp [needEng, h]

@[simp] theorem Work.ieee_none (k : Work) (x : Ctx) : k.ieee x .none = k := by simp [Work.ieee, Work.ev, Ieee.none]

/-- In context `x` the body puts `lanes` into vector register `d` with latency `l`, and does nothing else but count. -/
def Work.Puts (r : Except Halt Issued) (s : State) (x : Ctx) (d l : Nat) (lanes : List W32) : Prop :=
  ∃ k i, Work.SameCore k s x.c ∧ r = .ok (finish x ((k.setV x d l false lanes).ieee x i))

/-- Lanes of a vector register of the core, read in the queue cycle (R94). -/
def Ctx.vlanes (x : Ctx) (s : State) (v : Nat) : List W32 := (AMap.get VReg.zero (s.core x.c).vregs v).view x.t

section
variable {s : State} {x : Ctx} {k : Work} {m : Byte} {w : BitVec 48} (hk : k.SameCore s x.c)
  (hu : ((s.core x.c).engine x.e).upset = none)
include hk hu

theorem runArith_puts {code : Nat} (f : W32 → W32 → W32 × Ieee) (hcode : code ≤ 4) (hw : zeros w 18 47 = true) :
    Work.Puts (runArith code f w x k) s x (fld w 0 6) 4
      (List.zipWith (fun a b => (f a b).1) (x.vlanes s (fld w 6 6)) (x.vlanes s (fld w 12 6))) := by
  have hl : legalEng 0x52 (BitVec.ofNat 8 code) w = true := by
    simp [legalEng, hw]
    omega
  have h1 := hk.vland hu (fld w 6 6)
  have h2 := h1.vland hu (fld w 12 6)
  refine ⟨_, (lanes2 f (x.vlanes s (fld w 6 6)) (x.vlanes s (fld w 12 6))).2, h2, ?_⟩
  rw [runArith]
  simp only [needEng_ok hl, ok_bind, hk.vreg hu, h1.vreg hu, h2.floatChecks hu, lanes2, laneMap, List.map_zipWith]
  rfl

theorem runVfma_puts (hl : legalEng 0x53 m w = true) :
    Work.Puts (runVfma m w x k) s x (fld w 0 6) 4 (List.zipWith (fun ab e => (f32Fma ab.1 ab.2 e).1)
      (List.zip (x.vlanes s (fld w 6 6)) (x.vlanes s (fld w 12 6))) (x.vlanes s (fld w 18 6))) := by
  have h1 := hk.vland hu (fld w 6 6)
  have h2 := h1.vland hu (fld w 12 6)
  have h3 := h2.vland hu (fld w 18 6)
  refine ⟨_, (laneMap (List.zipWith (fun ab c => f32Fma ab.1 ab.2 c)
    (List.zip (x.vlanes s (fld w 6 6)) (x.vlanes s (fld w 12 6))) (x.vlanes s (fld w 18 6)))).2, h3, ?_⟩
  rw [runVfma]
  simp only [needEng_ok hl, ok_bind, hk.vreg hu, h1.vreg hu, h2.vreg hu, h3.floatChecks hu, laneMap, List.map_zipWith]
  rfl

theorem runVcmp_puts (hl : legalEng 0x54 m w = true) :
    Work.Puts (runVcmp m w x k) s x (fld w 0 6) 2
      (List.zipWith (fun a b => (vcmpLane m.toNat a b).1) (x.vlanes s (fld w 6 6)) (x.vlanes s (fld w 12 6))) := by
  have h1 := hk.vland hu (fld w 6 6)
  have h2 := h1.vland hu (fld w 12 6)
  refine ⟨_, (lanes2 (vcmpLane m.toNat) (x.vlanes s (fld w 6 6)) (x.vlanes s (fld w 12 6))).2, h2, ?_⟩
  rw [runVcmp]
  simp only [needEng_ok hl, ok_bind, hk.vreg hu, h1.vreg hu, lanes2, laneMap, List.map_zipWith]
  rfl

theorem runVsel_puts (hl : legalEng 0x55 m w = true) :
    Work.Puts (runVsel m w x k) s x (fld w 0 6) 2 (List.zipWith (fun ab e => if bitAt e 31 then ab.1 else ab.2)
      (List.zip (x.vlanes s (fld w 6 6)) (x.vlanes s (fld w 12 6))) (x.vlanes s (fld w 18 6))) := by
  have h1 := hk.vland hu (fld w 6 6)
  have h2 := h1.vland hu (fld w 12 6)
  refine ⟨_, .none, h2.vland hu (fld w 18 6), ?_⟩
  rw [runVsel]
  simp only [needEng_ok hl, ok_bind, hk.vreg hu, h1.vreg hu, h2.vreg hu, Work.ieee_none]
  rfl

theorem runVint_puts (hl : legalEng 0x56 m w = true) :
    Work.Puts (runVint m w x k) s x (fld w 0 6) 2
      (List.zipWith (vintLane m.toNat) (x.vlanes s (fld w 6 6)) (x.vlanes s (fld w 12 6))) := by
  have h1 := hk.vland hu (fld w 6 6)
  refine ⟨_, .none, h1.vland hu (fld w 12 6), ?_⟩
  rw [runVint]
  simp only [needEng_ok hl, ok_bind, hk.vreg hu, h1.vreg hu, Work.ieee_none]
  rfl

theorem runVcvt_puts (hl : legalEng 0x57 m w = true) :
    Work.Puts (runVcvt m w x k) s x (fld w 0 6) 4 ((x.vlanes s (fld w 6 6)).map fun a => (vcvtLane m.toNat a).1) := by
  have h1 := hk.vland hu (fld w 6 6)
  refine ⟨_, (laneMap ((x.vlanes s (fld w 6 6)).map (vcvtLane m.toNat))).2, h1, ?_⟩
  rw [runVcvt]
  simp only [needEng_ok hl, ok_bind, hk.vreg hu, h1.floatChecks hu, laneMap, List.map_map]
  rfl

theorem runVbcast_puts (hl : legalEng 0x5A m w = true) :
    Work.Puts (runVbcast m w x k) s x (fld w 0 6) 2 (List.replicate 64
      (if m = 0 then nth 0 (x.vlanes s (fld w 6 6)) (fld w 32 6) else k.sreg x (fld w 39 5))) := by
  by_cases hm : m = 0
  · refine ⟨_, .none, hk.vland hu (fld w 6 6), ?_⟩
    rw [runVbcast, Work.ieee_none]
    simp only [needEng_ok hl, ok_bind, if_pos hm, hk.vreg hu]
    rfl
  · refine ⟨_, .none, hk, ?_⟩
    rw [runVbcast, needEng_ok hl, ok_bind, if_neg hm, if_neg hm, Work.ieee_none]
    rfl

theorem runVtos_ok (hl : legalEng 0x5B m w = true) : runVtos m w x k =
    .ok (finish x ((k.vland x (fld w 6 6)).setS x (fld w 39 5) 2 (nth 0 (x.vlanes s (fld w 6 6)) (fld w 32 6)))) := by
  rw [runVtos, needEng_ok hl, ok_bind, hk.vreg hu, ok_bind]
  rfl

/-- VRED reads its source and puts the tree's value into lane 0 (R98). -/
theorem runVred_ok (hl : legalEng 0x59 m w = true) {n : Nat}
    (hn : n = if bitAt w 38 then (k.sreg x (fld w 39 5)).toNat else fld w 32 6 + 1) (h1 : 1 ≤ n) (h64 : n ≤ 64) :
    runVred m w x k = .ok (finish x (((k.vland x (fld w 6 6)).setV x (fld w 0 6) 24 true
      [(reduceTree m.toNat ((x.vlanes s (fld w 6 6)).take n)).1]).ieee x
        (reduceTree m.toNat ((x.vlanes s (fld w 6 6)).take n)).2)) := by
  have hv := hk.vland hu (fld w 6 6)
  have hup : (((k.vland x (fld w 6 6)).s.engine x.c x.e).upset) = none := by
    rw [State.engine, hv.core, hu]
  rw [runVred, needEng_ok hl, ok_bind]
  simp only [hup, ← hn, h1, h64, decide_true, Bool.and_self, Bool.not_false]
  rw [hk.vreg hu, ok_bind, hv.floatChecks hu, ok_bind]
  rfl

end

/-! ### The function unit -/

theorem le_workAfter_zero (w t : Nat) : t ≤ workAfter w t 0 := by
  unfold workAfter
  extract_lets room
  split_ifs
  · exact le_rfl
  · omega

/-- The cycle in which a busy unit of the engine is free (R92, R94). -/
def Ctx.freeCycle (x : Ctx) (free : Nat) : Nat := workAfter x.w (max x.head free) 0

/-- An instruction that has waited until cycle `n` for a busy unit stands in that cycle. -/
structure Ctx.WaitedTo (x y : Ctx) (n : Nat) : Prop where
  core : y.c = x.c
  eng : y.e = x.e
  cycle : y.t = n
  read : y.t ≤ y.r
  after : y.at = (x.movedTo n).at

theorem waitBusy_waits {x : Ctx} (ht : x.t = x.head) (hr : x.r = x.head) (k : Work) (free : Nat) :
    x.WaitedTo (waitBusy x k free).1 (x.freeCycle free) ∧
      (waitBusy x k free).2 = k.ev 0x22 x.t (x.freeCycle free - x.t) 1 := by
  have hle : x.t ≤ x.freeCycle free := by
    rw [ht]
    exact (le_max_left _ _).trans (le_workAfter_zero _ _)
  refine ⟨?_, rfl⟩
  unfold waitBusy
  change x.WaitedTo (if x.t < x.freeCycle free then _ else x) _
  by_cases hlt : x.t < x.freeCycle free
  · rw [if_pos hlt]
    refine ⟨rfl, rfl, rfl, le_max_right _ _, ?_⟩
    funext l
    simp only [Ctx.at, Ctx.movedTo, Ctx.freeCycle, ht]
    rfl
  · rw [if_neg hlt]
    have heq : x.freeCycle free = x.t := by omega
    refine ⟨rfl, rfl, heq.symm, by rw [ht, hr], ?_⟩
    funext l
    rw [heq]
    simp only [Ctx.at, Ctx.movedTo, ht, if_true]

/-- The state in which the function unit is busy until cycle `n` (R94). -/
def State.occupied (s : State) (c : Nat) (e : Eng) (n : Nat) : State := s.updEngine c e fun q => { q with free := n }

theorem runVfn_puts {s : State} {x : Ctx} {k : Work} {m : Byte} {w : BitVec 48} (hk : k.SameCore s x.c)
    (hu : ((s.core x.c).engine x.e).upset = none) (hl : legalEng 0x58 m w = true) {n : Nat}
    (hn : n = x.freeCycle ((s.core x.c).engine x.e).free) (ht : x.t = x.head) (hr : x.r = x.head) :
    ∃ y k' i, x.WaitedTo y n ∧ Work.SameCore k' (s.occupied x.c x.e ((x.movedTo n).at 4)) x.c ∧
      runVfn m w x k = .ok (finish y ((k'.setV y (fld w 0 6) 20 false
        (((AMap.get VReg.zero (s.core x.c).vregs (fld w 6 6)).view n).map fun a => (funcUnit m.toNat a).1)).ieee y i)) := by
  obtain ⟨hwait, hev⟩ := waitBusy_waits ht hr k ((s.core x.c).engine x.e).free
  obtain ⟨y, hy⟩ : ∃ y, y = (waitBusy x k ((s.core x.c).engine x.e).free).1 := ⟨_, rfl⟩
  rw [← hy, ← hn] at hwait
  rw [← hn] at hev
  have hu' : ((s.core y.c).engine y.e).upset = none := by rw [hwait.core, hwait.eng, hu]
  have h0 : (k.ev 0x22 x.t (n - x.t) 1).SameCore s y.c := by
    rw [hwait.core]
    exact hk.ev _ _ _ _
  have h1 := h0.vland hu' (fld w 6 6)
  refine ⟨y, { (k.ev 0x22 x.t (n - x.t) 1).vland y (fld w 6 6) with
      s := ((k.ev 0x22 x.t (n - x.t) 1).vland y (fld w 6 6)).s.occupied y.c y.e (y.at 4) },
    (laneMap ((y.vlanes s (fld w 6 6)).map (funcUnit m.toNat))).2, hwait, ⟨?_, h1.recs, h1.late⟩, ?_⟩
  · rw [← hwait.core, ← hwait.eng, ← hwait.after, State.occupied, State.occupied, State.core_updEngine_same,
      State.core_updEngine_same, h1.core]
  · have hlanes : (AMap.get VReg.zero (s.core x.c).vregs (fld w 6 6)).view n = y.vlanes s (fld w 6 6) := by
      rw [Ctx.vlanes, hwait.core, hwait.cycle]
    rw [hlanes, runVfn, needEng_ok hl, ok_bind, hk.core,
      show waitBusy x k ((s.core x.c).engine x.e).free = (y, k.ev 0x22 x.t (n - x.t) 1) from Prod.ext hy.symm hev]
    simp only [h0.vreg hu', h1.clear hu', ok_bind, laneMap, List.map_map]
    rfl

/-! ### Settling -/

/-- Settles O8: each instruction's equation, and what the issue of a ready engine makes of it. -/
theorem vectorLaneInstructions : Obligations.VectorLaneInstructions := by
  intro s c j m w h hinv x d va vb vc
  have hk := s.sameCore_work (s.head c .vxe j).t c.val
  have key : ∀ {op : Nat} {body : Ctx → Work → Except Halt Issued} {l : Nat} {lanes : List W32},
      Work.Puts (body (s.head c .vxe j) (s.work (s.head c .vxe j).t)) s (s.head c .vxe j) d l lanes →
      ∃ t, Host.Outcome.next (φ := Fault) (ρ := Refusal) (runInstr s c .vxe op false body) = .next t ∧ Followed s t c .vxe j ∧
        t.vlanes c d (x.at l) = lanes := by
    rintro op body l lanes ⟨k, i, hk, hb⟩
    exact ⟨_, rfl, runInstr_setV_plain h hinv hk hb⟩
  refine ⟨fun hw => ⟨key ?_, key ?_, key ?_, key ?_, key ?_⟩, fun hl => key (runVfma_puts hk h.upset hl),
    fun hl => key (runVcmp_puts hk h.upset hl), fun hl => key (runVsel_puts hk h.upset hl),
    fun hl => key (runVint_puts hk h.upset hl)⟩
  all_goals exact runArith_puts (x := s.head c .vxe j) hk h.upset _ (by decide) hw

/-- Settles O9: each instruction's equation, and what the issue of a ready engine makes of it. -/
theorem vectorUnaryInstructions : Obligations.VectorUnaryInstructions := by
  intro s c j m w h hinv x d va
  have hk := s.sameCore_work (s.head c .vxe j).t c.val
  refine ⟨fun hl => ?vcvt, fun hl => ?vfn, fun hl => ?vred, fun hl => ?vbcast, fun hl => ?vtos⟩
  case vcvt =>
    obtain ⟨k, i, hk, hb⟩ := runVcvt_puts (x := s.head c .vxe j) hk h.upset hl
    exact ⟨_, rfl, runInstr_setV_plain h hinv hk hb⟩
  case vfn =>
    intro n
    obtain ⟨y, k, i, hwait, hk, hb⟩ := runVfn_puts (x := s.head c .vxe j) hk h.upset hl rfl rfl rfl
    obtain ⟨hengine, hlanes⟩ := runInstr_setV (op := 0x58) (plan := false)
      (q := fun q => { q with free := ((s.head c .vxe j).movedTo n).at 4 }) h hinv
      ⟨hwait.core, hwait.eng, hwait.read⟩ hk h.upset hb
    have hm := moved_of_advance hengine
    simp only [finish, hwait.after] at hm
    rw [hwait.after] at hlanes
    exact ⟨_, rfl, hm, hlanes, congrArg Engine.free hengine⟩
  case vred =>
    intro n h1 h64
    have hv := hk.vland (x := s.head c .vxe j) h.upset (fld w 6 6)
    obtain ⟨hengine, hlanes⟩ := runInstr_putV (op := 0x59) (plan := false) (q := id) h (s.head_ofCore c .vxe j)
      hv.updEngine_id h.upset (runVred_ok (x := s.head c .vxe j) hk h.upset hl rfl h1 h64)
    refine ⟨_, rfl, moved_of_advance hengine, ?_⟩
    rw [show (runInstr s c .vxe 0x59 false (runVred m w)).vlanes c d (x.at 24) = _ from congrFun hlanes _]
    exact VReg.view_put_lane0 _ _ _ _ (State.inv_vreg hinv _ _)
  case vbcast =>
    obtain ⟨k, i, hk, hb⟩ := runVbcast_puts (x := s.head c .vxe j) hk h.upset hl
    exact ⟨_, rfl, runInstr_setV_plain h hinv hk hb⟩
  case vtos =>
    have hv := hk.vland (x := s.head c .vxe j) h.upset (fld w 6 6)
    have hq : ((s.work (s.head c .vxe j).t).vland (s.head c .vxe j) (fld w 6 6)).s.engine
        (s.head c .vxe j).c (s.head c .vxe j).e = s.engine c.val .vxe := by
      rw [State.engine, State.engine]
      exact congrArg (fun k => Core.engine k .vxe) hv.core
    have key := engine_runInstr (op := 0x5B) (plan := false) h (runVtos_ok (x := s.head c .vxe j) hk h.upset hl) rfl hv.recs
      hv.late ((Work.faults_setS _ (s.head c .vxe j) _ _ _).trans ((congrArg Core.faults hv.core).trans h.faults))
      (Work.engine_setS _ (s.head c .vxe j) _ _ _)
    rw [hq] at key
    exact ⟨_, rfl, moved_of_advance key, (State.sreg_of_engine key _ _).trans (view_upd_put _ _ _ _ _)⟩

end Sys2Proof.Machine
end

section
/-!
PROOFS. Memory byte by byte (R188, R191): what a reader in a cycle sees of the writes that wait, what a new write changes of
it, and that landing writes that no reader can tell apart changes nothing.
-/
namespace Sys2Proof.Machine

/-! ### One byte -/

/-- A byte at address `k` after a write. -/
def MWrite.byteOn (w : MWrite) (k : Nat) (b : Byte) : Byte :=
  if w.addr ≤ k ∧ k < w.addr + w.data.length then nth 0 w.data (k - w.addr) else b

/-- A byte at address `k` after several writes. -/
def landed (l : List MWrite) (k : Nat) (b : Byte) : Byte := l.foldl (fun b w => w.byteOn k b) b

theorem landed_append (l l' : List MWrite) (k : Nat) (b : Byte) : landed (l ++ l') k b = landed l' k (landed l k b) :=
  List.foldl_append

theorem nth_eq_getElem {α : Type} (d : α) (l : List α) (i : Nat) (h : i < l.length) : nth d l i = l[i] := by
  induction l generalizing i with
  | nil => simp at h
  | cons a l ih =>
    cases i with
    | zero => rfl
    | succ i => exact ih i (by simpa using h)

theorem MWrite.byteOn_inside (w : MWrite) {i : Nat} (b : Byte) (h : i < w.data.length) :
    w.byteOn (w.addr + i) b = w.data[i] := by
  rw [MWrite.byteOn, if_pos ⟨by omega, by omega⟩, Nat.add_sub_cancel_left, nth_eq_getElem _ _ _ h]

theorem MWrite.byteOn_outside (w : MWrite) {k : Nat} (b : Byte) (h : k < w.addr ∨ w.addr + w.data.length ≤ k) :
    w.byteOn k b = b := if_neg (by omega)

theorem memByte_memPut (m : List Host.Cell) (w : MWrite) (k : Nat) :
    memByte (memPut m w.addr w.data) k = w.byteOn k (memByte m k) := by
  by_cases h : w.addr ≤ k ∧ k < w.addr + w.data.length
  · obtain ⟨i, rfl⟩ := Nat.exists_eq_add_of_le h.1
    have hi : i < w.data.length := by omega
    rw [memPut_inside _ _ _ _ hi, w.byteOn_inside _ hi]
  · rw [memPut_outside _ _ _ _ (by omega), w.byteOn_outside _ (by omega)]

theorem memByte_foldl_memPut (l : List MWrite) (m : List Host.Cell) (k : Nat) :
    memByte (l.foldl (fun m w => memPut m w.addr w.data) m) k = landed l k (memByte m k) := by
  induction l generalizing m with
  | nil => rfl
  | cons w l ih => rw [List.foldl_cons, ih, memByte_memPut]; rfl

/-! ### Several bytes -/

theorem memGet_eq (m : List Host.Cell) (a n : Nat) : memGet m a n = (List.range n).map fun i => memByte m (a + i) := by
  refine List.map_congr_left fun i hi => ?_
  exact memByte_filter m (fun k => decide (a ≤ k) && decide (k < a + n)) (a + i)
    (by simpa using List.mem_range.1 hi)

theorem overlay_map (f : Nat → Byte) (a n : Nat) (w : MWrite) :
    overlay a ((List.range n).map fun i => f (a + i)) w = (List.range n).map fun i => w.byteOn (a + i) (f (a + i)) := by
  unfold overlay
  split
  · apply List.ext_getElem
    · simp
    · intro i _ _
      simp [MWrite.byteOn]
  · next h =>
    refine List.map_congr_left fun i hi => (w.byteOn_outside _ ?_).symm
    have hi := List.mem_range.1 hi
    simp only [List.length_map, List.length_range, Bool.and_eq_true, decide_eq_true_eq] at h
    omega

theorem foldl_overlay (l : List MWrite) (f : Nat → Byte) (a n : Nat) :
    l.foldl (overlay a) ((List.range n).map fun i => f (a + i)) = (List.range n).map fun i => landed l (a + i) (f (a + i)) := by
  induction l generalizing f with
  | nil => rfl
  | cons w l ih => rw [List.foldl_cons, overlay_map, ih fun k => w.byteOn k (f k)]; rfl

/-- Byte at address `k` as a reader of core `c` in cycle `t` sees it (R188, R191). -/
def State.byteAt (s : State) (c t k : Nat) : Byte :=
  landed ((s.core c).mpend.filter fun w => decide (w.land < t)) k (memByte s.mem k)

/-- Byte at address `k` once every write of the core has landed. -/
def State.byteNow (s : State) (c k : Nat) : Byte := landed (s.core c).mpend k (memByte s.mem k)

theorem State.readAt_eq (s : State) (c t a n : Nat) : s.readAt c t a n = (List.range n).map fun i => s.byteAt c t (a + i) := by
  rw [State.readAt, memGet_eq, foldl_overlay]
  rfl

theorem State.readNow_eq (s : State) (c a n : Nat) : s.readNow c a n = (List.range n).map fun i => s.byteNow c (a + i) := by
  rw [State.readNow, memGet_eq, foldl_overlay]
  rfl

theorem State.readAt_length (s : State) (c t a n : Nat) : (s.readAt c t a n).length = n := by simp [State.readAt_eq]

theorem readNow_byte_iff {s t : State} {c a : Nat} : t.readNow c a 1 = s.readNow c a 1 ↔ t.byteNow c a = s.byteNow c a := by
  simp [State.readNow_eq]

/-! ### A new write -/

theorem landSorted_iff {l : List MWrite} : landSorted l = true ↔ l.Pairwise fun v w => v.land ≤ w.land := by
  induction l with
  | nil => simp [landSorted]
  | cons p l ih => simp [landSorted, ih]

/-- A new write stands behind every write that lands no later. -/
theorem insWrite_split (w : MWrite) {l : List MWrite} (h : l.Pairwise fun v w => v.land ≤ w.land) :
    insWrite w l = (l.filter fun v => decide (v.land ≤ w.land)) ++ w :: l.filter fun v => decide (w.land < v.land) :=
  ins_split MWrite.land (ins := insWrite) (fun _ => rfl) (fun _ _ _ => rfl) w h

theorem landSorted_insWrite (w : MWrite) {l : List MWrite} (h : landSorted l = true) : landSorted (insWrite w l) = true :=
  landSorted_iff.2 (ins_sorted MWrite.land (ins := insWrite) (fun _ => rfl) (fun _ _ _ => rfl) w (landSorted_iff.1 h))

theorem State.mpend_writeAt (s : State) (c land a : Nat) (d : List Byte) (eng : Nat) :
    ((s.writeAt c land a d eng).core c).mpend = insWrite { land := land, addr := a, data := d, eng := eng } (s.core c).mpend := by
  rw [State.writeAt, State.core_updCore_same]

/-- In the cycle after it lands a write is the last one that has (R191). -/
theorem State.byteAt_writeAt {s : State} {c : Nat} (h : landSorted (s.core c).mpend = true) (land a : Nat) (d : List Byte)
    (eng k : Nat) : (s.writeAt c land a d eng).byteAt c (land + 1) k =
      MWrite.byteOn { land := land, addr := a, data := d, eng := eng } k (s.byteAt c (land + 1) k) := by
  have hbefore : ((s.core c).mpend.filter fun v => decide (v.land ≤ land)) =
      (s.core c).mpend.filter fun w => decide (w.land < land + 1) :=
    List.filter_congr fun v _ => decide_eq_decide.2 Nat.lt_succ_iff.symm
  have hafter : ((s.core c).mpend.filter fun v => decide (land < v.land)).filter (fun w => decide (w.land < land + 1)) = [] := by
    refine List.filter_eq_nil_iff.2 fun v hv => ?_
    have : land < v.land := by simpa using (List.mem_filter.1 hv).2
    simp only [decide_eq_true_eq]
    omega
  rw [State.byteAt, State.mpend_writeAt, insWrite_split _ (landSorted_iff.1 h), List.filter_append,
    List.filter_cons_of_pos (by simp), hafter, hbefore, List.filter_filter, landed_append]
  simp only [Bool.and_self]
  rfl

/-- A list that rises by a key falls apart at any value of it. -/
theorem filter_lt_append {l : List MWrite} (h : l.Pairwise fun v w => v.land ≤ w.land) (t : Nat) :
    l = (l.filter fun w => decide (w.land < t)) ++ l.filter fun w => !decide (w.land < t) := by
  induction l with
  | nil => rfl
  | cons w l ih =>
    obtain ⟨hw, hl⟩ := List.pairwise_cons.1 h
    by_cases hlt : w.land < t
    · simpa [hlt] using ih hl
    · have habove : ∀ v ∈ w :: l, ¬ v.land < t := fun v hv => by
        obtain rfl | hv := List.mem_cons.1 hv
        · exact hlt
        · have := hw v hv
          omega
      rw [List.filter_eq_nil_iff.2 fun v hv => by simpa using habove v hv,
        List.filter_eq_self.2 fun v hv => by simpa using habove v hv]
      rfl

/-- A write that does not touch a byte leaves it, whoever reads it. -/
theorem State.byteAt_writeAt_outside {s : State} {c : Nat} (h : landSorted (s.core c).mpend = true) (land a : Nat)
    (d : List Byte) (eng t : Nat) {k : Nat} (hk : k < a ∨ a + d.length ≤ k) :
    (s.writeAt c land a d eng).byteAt c t k = s.byteAt c t k := by
  have hsplit := filter_lt_append (landSorted_iff.1 h) (land + 1)
  have hbefore : ((s.core c).mpend.filter fun v => decide (v.land ≤ land)) =
      (s.core c).mpend.filter fun w => decide (w.land < land + 1) :=
    List.filter_congr fun v _ => decide_eq_decide.2 Nat.lt_succ_iff.symm
  have hafter : ((s.core c).mpend.filter fun v => decide (land < v.land)) =
      (s.core c).mpend.filter fun w => !decide (w.land < land + 1) :=
    List.filter_congr fun v _ => by by_cases hv : land < v.land <;> simp [hv, not_lt.1]
  rw [State.byteAt, State.byteAt, State.mpend_writeAt, insWrite_split _ (landSorted_iff.1 h), hbefore, hafter]
  conv_rhs => rw [hsplit]
  rw [List.filter_append, List.filter_append, List.filter_cons, landed_append, landed_append]
  split
  · exact congrArg (landed _ k) (MWrite.byteOn_outside { land := land, addr := a, data := d, eng := eng } _ hk)
  · rfl

/-! ### Landing -/

theorem State.settle_eq (s : State) (c t : Nat) : ((s.settle c t).core c).mpend =
    ((s.core c).mpend.filter fun w => !decide (w.land < t)) ∧
      ∀ k, memByte (s.settle c t).mem k = landed ((s.core c).mpend.filter fun w => decide (w.land < t)) k (memByte s.mem k) := by
  unfold State.settle
  rw [List.partition_eq_filter_filter]
  split
  · next now later heq =>
    obtain ⟨hnow, hlater⟩ := Prod.mk.inj heq
    split
    · refine ⟨(List.filter_eq_self.2 fun w hw => ?_).symm, fun k => by rw [hnow]; rfl⟩
      have := List.filter_eq_nil_iff.1 hnow w hw
      simpa using this
    · refine ⟨?_, fun k => ?_⟩
      · rw [← hlater]
        simp only [State.core, State.updCore, State.setCore, AMap.get_set_same]
        rfl
      · rw [hnow]
        exact memByte_foldl_memPut _ _ _

/-- Landing what has landed before a cycle changes nothing for readers from that cycle on. -/
theorem State.byteAt_settle {s : State} {c : Nat} (h : landSorted (s.core c).mpend = true) {u t : Nat} (ht : u ≤ t) (k : Nat) :
    (s.settle c u).byteAt c t k = s.byteAt c t k := by
  obtain ⟨hpend, hmem⟩ := s.settle_eq c u
  have hsplit : ((s.core c).mpend.filter fun w => decide (w.land < t)) = ((s.core c).mpend.filter fun w => decide (w.land < u)) ++
      ((s.core c).mpend.filter fun w => !decide (w.land < u)).filter fun w => decide (w.land < t) := by
    conv_lhs => rw [filter_lt_append (landSorted_iff.1 h) u]
    rw [List.filter_append, List.filter_filter]
    congr 1
    refine List.filter_congr fun w _ => ?_
    by_cases hw : w.land < u
    · simp [hw, hw.trans_le ht]
    · simp [hw]
  rw [State.byteAt, State.byteAt, hpend, hmem, hsplit, landed_append]

theorem State.byteNow_settle {s : State} {c : Nat} (h : landSorted (s.core c).mpend = true) (u k : Nat) :
    (s.settle c u).byteNow c k = s.byteNow c k := by
  obtain ⟨hpend, hmem⟩ := s.settle_eq c u
  rw [State.byteNow, State.byteNow, hpend, hmem, ← landed_append, ← filter_lt_append (landSorted_iff.1 h)]

end Sys2Proof.Machine
end

section
/-!
PROOFS. Local accesses (R161, R173, R177, R183): the gate, a read and a write with nothing in the way, and what the commit of
an instruction leaves a reader of memory to see.
-/
namespace Sys2Proof.Machine

/-! ### What a commit does besides landing -/

/-- What observation, claims and dye may change: no writes that wait, no memory. -/
structure Noted (s t : State) (c : Nat) : Prop where
  rest : t = { s with cores := t.cores, fns := t.fns, out := t.out, obs := t.obs, ops := t.ops }
  undyed : s.dyeRate = 0 → t.fns = s.fns ∧ t.out = s.out ∧ t.obs = s.obs ∧ t.ops = s.ops
  others : ∀ b, b ≠ c → t.core b = s.core b
  core : t.core c = { s.core c with claims := (t.core c).claims, obs := (t.core c).obs }

theorem Noted.refl (s : State) (c : Nat) : Noted s s c := ⟨rfl, fun _ => ⟨rfl, rfl, rfl, rfl⟩, fun _ _ => rfl, rfl⟩

theorem Noted.trans {s t u : State} {c : Nat} (h : Noted s t c) (g : Noted t u c) : Noted s u c := by
  have e : t.dyeRate = s.dyeRate := by rw [h.rest]; rfl
  refine ⟨?_, fun hd => ?_, fun b hb => (g.others b hb).trans (h.others b hb), ?_⟩
  · have h1 := g.rest
    rw [h.rest] at h1
    exact h1
  · obtain ⟨a1, a2, a3, a4⟩ := h.undyed hd
    obtain ⟨b1, b2, b3, b4⟩ := g.undyed (e.trans hd)
    exact ⟨b1.trans a1, b2.trans a2, b3.trans a3, b4.trans a4⟩
  · have h1 := g.core
    rw [h.core] at h1
    exact h1

theorem OnlyObs.noted {s t : State} {c : Nat} (h : OnlyObs s t c) : Noted s t c := by
  refine ⟨by rw [h.rest], fun _ => ?_, h.others, ?_⟩
  · rw [h.rest]
    exact ⟨rfl, rfl, rfl, rfl⟩
  · rw [h.core]

theorem noted_claims (s : State) (c : Nat) (f : Core → Core) (h : ∀ k, f k = { k with claims := (f k).claims }) :
    Noted s (s.updCore c f) c := by
  refine ⟨rfl, fun _ => ⟨rfl, rfl, rfl, rfl⟩, fun b hb => State.core_updCore_other s f hb, ?_⟩
  rw [State.core_updCore_same, h (s.core c)]

theorem traceTo_noted (s : State) (c : Nat) (f : FnId) (ty cause : Byte) (p : List Byte) (h : s.dyeRate ≠ 0) :
    Noted s (s.traceTo f ty cause p) c := by
  have h1 := traceTo_only s f ty cause p
  have hk : ∀ b, (s.traceTo f ty cause p).core b = s.core b := fun b => by rw [h1]; rfl
  exact ⟨by rw [h1], fun hd => absurd hd h, fun b _ => hk b, by rw [hk]⟩

/-- The state of an instruction that has issued, before anything is counted: its engine has gone on, its port cycles are claimed,
its faults are on their way. -/
def Issued.issued (i : Issued) : State :=
  (i.w.s.updEngine i.x.c i.x.e fun q => q.advance i).updCore i.x.c fun k =>
    { k with claims := k.claims ++ i.w.claims, faults := k.faults ++ i.w.late }

/-- An issue counts and traces, raises the corrected errors, and lands and forgets what no engine can meet any more. -/
theorem commit_eq_raiseRecs (i : Issued) (op : Nat) (plan : Bool) : ∃ u, Noted i.issued u i.x.c ∧
    (i.remote = none → u.ops = i.w.s.ops) ∧ commit i op plan = (u.raiseRecs i.x.c i.x.e i.x.t i.w.recs).tidy i.x.c := by
  unfold commit
  extract_lets x c q0 s0 s1 s2 s3 s4 s5 body s6
  have h2 : OnlyObs s1 s4 c := (ledger_onlyObs _ _ _ _ _ _).trans ((ledger_onlyObs _ _ _ _ _ _).trans (ledger_onlyObs _ _ _ _ _ _))
  have h3 : OnlyObs s1 s5 c := h2.trans (onlyObs_foldl _ _ _ _ fun s v => count_onlyObs _ _ _ _ _ _ _)
  have hops : s5.ops = i.w.s.ops := by
    rw [h3.rest]
    rfl
  suffices h6 : Noted s5 s6 c ∧ (i.remote = none → s6.ops = s5.ops) from
    ⟨s6, h3.noted.trans h6.1, fun hr => (h6.2 hr).trans hops, rfl⟩
  clear_value s5
  simp only [s6]
  split
  · next hd =>
    have hrate : s5.dyeRate ≠ 0 := by
      unfold State.dyed at hd
      intro h0
      simp [h0] at hd
    split
    · next o ho =>
      refine ⟨⟨rfl, fun h0 => absurd h0 hrate, fun _ _ => rfl, rfl⟩, fun hr => ?_⟩
      rw [hr] at ho
      exact nomatch ho
    · exact ⟨traceTo_noted _ _ _ _ _ _ hrate, fun _ => by rw [traceTo_only]⟩
  · exact ⟨Noted.refl _ _, fun _ => rfl⟩

/-- The state of an instruction that has issued, before its core lands and forgets what no engine can meet any more. -/
theorem commit_eq_tidy (i : Issued) (op : Nat) (plan : Bool) (hr : i.w.recs = []) (hl : i.w.late = []) :
    ∃ u, Noted (i.w.s.updEngine i.x.c i.x.e fun q => q.advance i) u i.x.c ∧ commit i op plan = u.tidy i.x.c := by
  obtain ⟨u, hu, -, hcommit⟩ := commit_eq_raiseRecs i op plan
  rw [hr] at hcommit
  refine ⟨u, (noted_claims _ _ _ fun k => ?_).trans hu, hcommit⟩
  rw [hl, List.append_nil]

/-- Landing and forgetting, at a core without faults that have still to fall due. -/
theorem tidy_eq {s : State} {c : Nat} (h : (s.core c).faults = []) : s.tidy c =
    (s.settle c (s.core c).horizon).updCore c fun k =>
      { k with claims := k.claims.filter fun o => decide ((s.core c).horizon ≤ o.last) } := by
  rw [State.tidy]
  refine ripen_none _ ?_
  rw [State.core_updCore_same, (settle_onlyLand s c _).core]
  exact h

theorem State.byteAt_congr {s t : State} {c : Nat} (hm : t.mem = s.mem) (hp : (t.core c).mpend = (s.core c).mpend) (n k : Nat) :
    t.byteAt c n k = s.byteAt c n k := by rw [State.byteAt, State.byteAt, hm, hp]

theorem State.byteNow_congr {s t : State} {c : Nat} (hm : t.mem = s.mem) (hp : (t.core c).mpend = (s.core c).mpend) (k : Nat) :
    t.byteNow c k = s.byteNow c k := by rw [State.byteNow, State.byteNow, hm, hp]

theorem State.byteAt_updCore (s : State) (c : Nat) {f : Core → Core} (hf : ∀ k, (f k).mpend = k.mpend) (n k : Nat) :
    (s.updCore c f).byteAt c n k = s.byteAt c n k :=
  State.byteAt_congr (s := s) (t := s.updCore c f) rfl (by rw [State.core_updCore_same, hf]) n k

theorem State.byteNow_updCore (s : State) (c : Nat) {f : Core → Core} (hf : ∀ k, (f k).mpend = k.mpend) (k : Nat) :
    (s.updCore c f).byteNow c k = s.byteNow c k :=
  State.byteNow_congr (s := s) (t := s.updCore c f) rfl (by rw [State.core_updCore_same, hf]) k

section
variable (i : Issued) (op : Nat) (plan : Bool) (hr : i.w.recs = []) (hl : i.w.late = [])
  (hf : (i.w.s.core i.x.c).faults = []) (hs : landSorted (i.w.s.core i.x.c).mpend = true)
include hr hl hf hs

theorem commit_bytes : ∃ h, h = (((i.w.s.core i.x.c).setEngine i.x.e (((i.w.s.core i.x.c).engine i.x.e).advance i)).horizon) ∧
    (∀ t k, h ≤ t → (commit i op plan).byteAt i.x.c t k = i.w.s.byteAt i.x.c t k) ∧
      ∀ k, (commit i op plan).byteNow i.x.c k = i.w.s.byteNow i.x.c k := by
  obtain ⟨u, hu, hcommit⟩ := commit_eq_tidy i op plan hr hl
  have hcore := hu.core
  rw [State.core_updEngine_same] at hcore
  have hmem : u.mem = i.w.s.mem := by rw [hu.rest]; rfl
  have hpend : (u.core i.x.c).mpend = (i.w.s.core i.x.c).mpend := by rw [hcore]; exact Core.setEngine_mpend _ _ _
  have hfaults : (u.core i.x.c).faults = [] := by rw [hcore]; exact (Core.setEngine_faults _ _ _).trans hf
  have hhorizon : (u.core i.x.c).horizon =
      (((i.w.s.core i.x.c).setEngine i.x.e (((i.w.s.core i.x.c).engine i.x.e).advance i)).horizon) := by
    rw [hcore]
    rfl
  refine ⟨_, hhorizon, fun t k ht => ?_, fun k => ?_⟩
  all_goals rw [hcommit, tidy_eq hfaults]
  · refine (State.byteAt_updCore _ _ (by exact fun _ => rfl) _ _).trans ?_
    rw [State.byteAt_settle (by rw [hpend]; exact hs) ht, State.byteAt_congr hmem hpend]
  · refine (State.byteNow_updCore _ _ (by exact fun _ => rfl) _).trans ?_
    rw [State.byteNow_settle (by rw [hpend]; exact hs), State.byteNow_congr hmem hpend]

end

/-- A running minimum is at most its start and each value that it has met. -/
theorem foldl_min_le {α : Type} (f : α → Nat) (l : List α) (m : Option Nat) :
    let r := l.foldl (fun (m : Option Nat) e => some (match m with
      | some v => min v (f e)
      | none => f e)) m
    (∀ v, m = some v → ∃ w, r = some w ∧ w ≤ v) ∧ ∀ e ∈ l, ∃ w, r = some w ∧ w ≤ f e := by
  induction l generalizing m with
  | nil => exact ⟨fun v hv => ⟨v, hv, le_rfl⟩, fun e he => absurd he List.not_mem_nil⟩
  | cons a l ih =>
    obtain ⟨hstart, hmem⟩ := ih (some (match m with
      | some v => min v (f a)
      | none => f a))
    obtain ⟨w, hw, hle⟩ := hstart _ rfl
    refine ⟨fun v hv => ⟨w, hw, ?_⟩, fun e he => ?_⟩
    · subst hv
      exact hle.trans (min_le_left _ _)
    · obtain rfl | he := List.mem_cons.1 he
      · refine ⟨w, hw, hle.trans ?_⟩
        cases m with
        | none => exact le_rfl
        | some v => exact min_le_right _ _
      · exact hmem e he

/-- A running engine holds the horizon of its core back. -/
theorem Core.horizon_le {k : Core} {e : Eng} (h : (k.engine e).mode = .running) : k.horizon ≤ (k.engine e).next := by
  have hmem : e ∈ allEngines.filter fun e => (k.engine e).mode == .running := by
    refine List.mem_filter.2 ⟨?_, by simp [h]⟩
    cases e <;> decide
  obtain ⟨w, hw, hle⟩ := (foldl_min_le (fun e => (k.engine e).next) _ none).2 e hmem
  exact (congrArg (fun m => Option.getD m k.reached) hw).trans_le hle

/-! ### Issue of an instruction that accesses memory -/

section
variable {s : State} {c : CoreId} {e : Eng} {j : Job} {op : Nat} {plan : Bool} {body : Ctx → Work → Except Halt Issued}
  (h : Ready s c e j)
include h

/-- The bytes that a reader sees after an instruction of a ready engine: those of the instruction's work, from the cycle on in
which the engine goes on. -/
theorem runInstr_bytes {y : Ctx} {k : Work} (hb : body (s.head c e j) (s.work (s.head c e j).t) = .ok (finish y k))
    (hy : y.OfCore c e) (hr : k.recs = []) (hl : k.late = []) (hf : (k.s.core c.val).faults = [])
    (hm : (k.s.engine c.val e).mode = .running) (hs : landSorted (k.s.core c.val).mpend = true) :
    (∀ t n, y.at 1 ≤ t → (runInstr s c e op plan body).byteAt c.val t n = k.s.byteAt c.val t n) ∧
      ∀ n, (runInstr s c e op plan body).byteNow c.val n = k.s.byteNow c.val n := by
  obtain ⟨hc, he, ht⟩ := hy
  rw [runInstr_ok h hb ht]
  subst he
  rw [← hc] at hf hm hs ⊢
  obtain ⟨z, hz, hat, hnow⟩ := commit_bytes (finish y k) op plan hr hl hf hs
  have hle : z ≤ y.at 1 := by
    have hmode : (((k.s.core y.c).setEngine y.e (((k.s.core y.c).engine y.e).advance (finish y k))).engine y.e).mode =
        .running := by
      rw [Core.engine_setEngine_same]
      exact hm
    have := Core.horizon_le hmode
    rw [Core.engine_setEngine_same] at this
    rw [hz]
    exact this
  exact ⟨fun t n htn => hat t n (hle.trans htn), hnow⟩

end

/-! ### One access -/

theorem filter_touched_none {s : State} {j : Job} {e : Eng} {space off len : Nat} {write : Bool}
    (h : NoBobbin s j e space off len write) :
    (s.bobs j).filter (fun b => b.touched e.num { space := space, off := off, len := len, write := write }) = [] :=
  List.filter_eq_nil_iff.2 fun b hb => by simp [h b hb]

/-- Without claims of earlier instructions a port is free (R173). -/
theorem State.claim_free {s : State} {c : Nat} (h : (s.core c).claims = []) (cyc : Nat) (cl : List Claim) :
    s.claim c cyc cl = some s := by
  simp [State.claim, h]

theorem Work.claim_free {k : Work} {x : Ctx} (h : (k.s.core x.c).claims = []) (cyc : Nat) (cl : List Claim) :
    k.claim x cyc cl = .ok { k with claims := k.claims ++ cl } := by
  rw [Work.claim, State.claim_free h]

/-- Where an access of an instruction goes and that nothing stands in its way (R161, R173, R177, R184). -/
structure Work.Reaches (k : Work) (x : Ctx) (a : MAddr) (n : Nat) (write : Bool) (abs : Nat) : Prop where
  own : aCore a = x.c
  place : k.s.resolve x.job.fn a n = .ok (x.c, abs)
  bobbin : NoBobbin k.s x.job x.e (aSpace a) (aOff a) n write
  claims : (k.s.core x.c).claims = []

theorem State.bobAccess_none {s : State} {c : Nat} {j : Job} {e : Eng} {space off len : Nat} {write : Bool}
    (h : NoBobbin s j e space off len write) (cyc : Nat) (d : Byte) :
    s.bobAccess c j e.num { space := space, off := off, len := len, write := write } cyc d = .ok s := by
  rw [State.bobAccess, filter_touched_none h]
  rfl

section
variable {k : Work} {x : Ctx} {a : MAddr}

/-- The work after a read of `abs` that met nothing (R173, R433). -/
def Work.didRead (k : Work) (ports : List Claim) (space cyc : Nat) : Work :=
  { k with claims := k.claims ++ ports, fin := max k.fin cyc,
           evs := k.evs ++ [{ code := portEvent space false, start := cyc, len := 1, n := 1 }] }

/-- The work after a write to `abs` that met nothing. -/
def Work.didWrite (k : Work) (x : Ctx) (ports : List Claim) (space abs : Nat) (d : List Byte) (land : Nat) : Work :=
  { k with s := (k.s.writeAt x.c land abs d x.e.num).clearEcc space abs d.length, claims := k.claims ++ ports,
           fin := max k.fin land, evs := k.evs ++ [{ code := portEvent space true, start := land, len := 1, n := 1 }] }

/-- A read with nothing in the way (R161). -/
theorem Work.Reaches.readVia {n abs : Nat} (h : k.Reaches x a n false abs) (hecc : eccWorst k.s.ecc (eccWord (aSpace a)) abs n = none)
    (ports : Nat → List Claim) (cyc : Nat) : k.readVia x ports a n cyc =
      .ok (k.s.readAt x.c cyc abs n, k.didRead (ports (abs % 2 ^ 32)) (aSpace a) cyc) := by
  rw [Work.readVia]
  simp only [h.place, decide_true, if_true, Work.claim_free h.claims, ok_bind, hecc, State.bobAccess_none h.bobbin]
  rfl

/-- A write with nothing in the way. -/
theorem Work.Reaches.writeVia {n abs : Nat} {d : List Byte} (h : k.Reaches x a n true abs) (hd : d.length = n)
    (ports : Nat → List Claim) (land : Nat) :
    k.writeVia x ports a d land = .ok (k.didWrite x (ports (abs % 2 ^ 32)) (aSpace a) abs d land) := by
  subst hd
  rw [Work.writeVia]
  simp only [h.place, Work.claim_free h.claims, ok_bind, State.bobAccess_none h.bobbin]
  rfl

/-- Ranges that no bobbin meets do not make an instruction wait (R184). -/
theorem gate_open {rs : List Range} (h : ∀ r ∈ rs, ∀ b ∈ k.s.bobs x.job, b.touched x.e.num r = false) (hr : x.r ≤ x.t) :
    gate x k rs = .ok (x, k) := by
  have hbobs : gateBobs x k rs = [] := by
    refine List.filterMap_eq_nil_iff.2 fun b hb => ?_
    rw [List.find?_eq_none.2 fun r hr => by simp [h r hr b hb]]
  rw [gate]
  simp only [hbobs, List.foldlM_nil, List.flatMap_nil, List.filter_nil, List.any_nil, Bool.not_false]
  simp only [max_eq_left hr]
  simp [graceEnd]

theorem rangeOf_clear {n : Nat} {write : Bool} (h : NoBobbin k.s x.job x.e (aSpace a) (aOff a) n write) :
    ∀ r ∈ rangeOf x a n write, ∀ b ∈ k.s.bobs x.job, b.touched x.e.num r = false := by
  intro r hr b hb
  unfold rangeOf at hr
  split at hr
  · obtain rfl := List.mem_singleton.1 hr
    exact h b hb
  · exact absurd hr List.not_mem_nil

end

/-- What `Plain` says of an access, said of the instruction's work before it has done anything. -/
theorem Plain.reaches {s : State} {c : CoreId} {e : Eng} {j : Job} {a : MAddr} {n : Nat} {write : Bool} {abs : Nat}
    (h : Plain s c e j a n write abs) (hcl : NoClaims s c) :
    (s.work (s.head c e j).t).Reaches (s.head c e j) a n write abs := ⟨h.own, h.place, h.bobbin, hcl⟩

end Sys2Proof.Machine
end

section
/-!
PROOFS. SLD and SST (R131, R132).
-/
namespace Sys2Proof.Machine

theorem Work.needs_nil_of_met (k : Work) (x : Ctx) {l : List (Bool × Cause × Byte)} (h : ∀ f ∈ l, f.1 = true) :
    k.needs x l = .ok () := by
  have hnil : l.filter (fun f => !f.1) = [] := List.filter_eq_nil_iff.2 fun f hf => by simp [h f hf]
  rw [Work.needs, hnil]
  rfl

/-- An address of the own core in a space that the instruction allows (R92, R132). -/
theorem localAddr_own {x : Ctx} {a : MAddr} {l : List Nat} (h : aCore a = x.c) (hs : aSpace a ∈ l) : localAddr x a l = true := by
  simp [localAddr, h, hs]

theorem needWord_ok {x : Ctx} {k : Work} {a : MAddr} (hown : aCore a = x.c) (hs : aSpace a = 1 ∨ aSpace a = 2)
    (ha : aOff a % 4 = 0) : needWord x k a = .ok () := by
  have hmem : aSpace a ∈ [1, 2] := by simpa using hs
  refine k.needs_nil_of_met x fun f hf => ?_
  simp only [List.mem_cons, List.not_mem_nil, or_false] at hf
  rcases hf with rfl | rfl
  · exact localAddr_own hown hmem
  · simp [ha]

/-! ### Post-increment -/

section
variable (k : Work) (x : Ctx) (on : Bool) (i n : Nat)

@[simp] theorem Work.recs_incA : (k.incA x on i n).recs = k.recs := by cases on <;> rfl
@[simp] theorem Work.late_incA : (k.incA x on i n).late = k.late := by cases on <;> rfl
@[simp] theorem Work.mem_incA : (k.incA x on i n).s.mem = k.s.mem := by cases on <;> rfl

theorem Work.core_incA : (k.incA x on i n).s.core x.c = (k.s.core x.c).setEngine x.e ((k.incA x on i n).s.engine x.c x.e) := by
  cases on
  · exact (Core.setEngine_engine _ _).symm
  · simp only [Work.incA, Work.setA, if_true, State.core_updEngine_same, State.engine_updEngine_same]
    rfl

/-- Of the engine a post-increment changes the address registers only, of which the register named shows the sum one work cycle
later (R131). -/
theorem Work.engine_incA : ∃ regs, (k.incA x on i n).s.engine x.c x.e = { k.s.engine x.c x.e with aregs := regs } ∧
    (AMap.get TReg.zero regs i).view (x.at 1) =
      if on then k.areg x i + BitVec.ofNat 48 n else k.s.areg x.c x.e i (x.at 1) := by
  cases on
  · exact ⟨_, rfl, rfl⟩
  · exact ⟨_, Work.engine_setA _ _ _ _ _, view_upd_put _ _ _ _ _⟩

theorem Work.faults_incA : ((k.incA x on i n).s.core x.c).faults = (k.s.core x.c).faults := by
  rw [Work.core_incA, Core.setEngine_faults]

theorem Work.mpend_incA : ((k.incA x on i n).s.core x.c).mpend = (k.s.core x.c).mpend := by
  rw [Work.core_incA, Core.setEngine_mpend]

end

theorem leBytes_length (n v : Nat) : (leBytes n v).length = n := by
  induction n generalizing v with
  | zero => rfl
  | succ n ih => simp [leBytes, ih]

/-! ### The two instructions -/

section
variable {m : Byte} {w : BitVec 48} {x : Ctx} {k : Work} {abs : Nat} (hr : x.r = x.t)
  (hs : aSpace (k.areg x (fld w 5 4)) = 1 ∨ aSpace (k.areg x (fld w 5 4)) = 2) (ha : aOff (k.areg x (fld w 5 4)) % 4 = 0)
include hr hs ha

theorem runSld_ok (hl : legalCtl 0x15 m w = true) (h : k.Reaches x (k.areg x (fld w 5 4)) 4 false abs)
    (hecc : eccWorst k.s.ecc (eccWord (aSpace (k.areg x (fld w 5 4)))) abs 4 = none) :
    runSld m w x k = .ok (finish x (((k.didRead (portsOf (aSpace (k.areg x (fld w 5 4))) (abs % 2 ^ 32) 4 x.t x.e.num false)
      (aSpace (k.areg x (fld w 5 4))) x.t).setS x (fld w 0 5) 4 (BitVec.ofNat 32 (leNat (k.s.readAt x.c x.t abs 4)))).incA x
        (bitAt w 9) (fld w 5 4) 4)) := by
  rw [runSld]
  simp only [needCtl_ok hl, ok_bind, needWord_ok h.own hs ha, gate_open (rangeOf_clear h.bobbin) hr.le, Work.read,
    h.readVia hecc]
  rfl

/-- The bytes that SST writes. -/
def sstData (w : BitVec 48) (x : Ctx) (k : Work) : List Byte := leBytes 4 (k.sreg x (fld w 0 5)).toNat

theorem runSst_ok (hl : legalCtl 0x16 m w = true) (h : k.Reaches x (k.areg x (fld w 5 4)) 4 true abs) :
    runSst m w x k = .ok (finish x ((k.didWrite x (portsOf (aSpace (k.areg x (fld w 5 4))) (abs % 2 ^ 32) 4 (x.at 1) x.e.num true)
      (aSpace (k.areg x (fld w 5 4))) abs (sstData w x k) (x.at 1)).incA x (bitAt w 9) (fld w 5 4) 4)) := by
  have hlen : (leBytes 4 (k.sreg x (fld w 0 5)).toNat).length = 4 := leBytes_length _ _
  rw [runSst]
  simp only [needCtl_ok hl, ok_bind, needWord_ok h.own hs ha, gate_open (rangeOf_clear h.bobbin) hr.le, Work.write, hlen,
    h.writeVia hlen]
  rfl

end

theorem map_landed_data {n abs : Nat} {d : List Byte} (hd : d.length = n) (f : Nat → Byte) (land eng : Nat) :
    (List.range n).map (fun i => MWrite.byteOn { land := land, addr := abs, data := d, eng := eng } (abs + i) (f (abs + i))) = d := by
  apply List.ext_getElem
  · simp [hd]
  · intro i _ hi
    rw [List.getElem_map, List.getElem_range]
    exact MWrite.byteOn_inside { land := land, addr := abs, data := d, eng := eng } _ hi

/-! ### Issue -/

section
variable {s : State} {c : CoreId} {e : Eng} {j : Job} {op : Nat} {plan : Bool} {body : Ctx → Work → Except Halt Issued}

/-- What an instruction has left that ends with a post-increment of address register `i`, after it has done `k`: its queue has
gone on, and registers and bytes are as `k` has them. -/
structure Incremented (s t : State) (c : CoreId) (e : Eng) (j : Job) (k : Work) (on : Bool) (i n : Nat) : Prop where
  follow : Followed s t c e j
  sreg : ∀ r u, t.sreg c.val e r u = k.s.sreg c.val e r u
  areg : t.areg c.val e i ((s.head c e j).at 1) =
    if on then s.areg c.val e i (s.head c e j).t + BitVec.ofNat 48 n else s.areg c.val e i ((s.head c e j).at 1)
  vlanes : ∀ v u, t.vlanes c v u = k.s.vlanes c v u
  bytes : ∀ u n, (s.head c e j).at 1 ≤ u → t.byteAt c.val u n = k.s.byteAt c.val u n

theorem runInstr_incA (h : Ready s c e j) {k : Work} {on : Bool} {i n : Nat} {regs : AMap (TReg W32)}
    (hb : body (s.head c e j) (s.work (s.head c e j).t) = .ok (finish (s.head c e j) (k.incA (s.head c e j) on i n)))
    (hr : k.recs = []) (hl : k.late = []) (hf : (k.s.core c.val).faults = [])
    (hq : k.s.engine c.val e = { s.engine c.val e with sregs := regs }) (hs : landSorted (k.s.core c.val).mpend = true) :
    Incremented s (runInstr s c e op plan body) c e j k on i n := by
  obtain ⟨aregs, hengine, hreg⟩ := Work.engine_incA k (s.head c e j) on i n
  have hareg : ∀ u, k.s.areg c.val e i u = s.areg c.val e i u := fun u => by rw [State.areg, State.areg, hq]
  have hq' : (k.incA (s.head c e j) on i n).s.engine c.val e = { s.engine c.val e with sregs := regs, aregs := aregs } := by
    refine hengine.trans ?_
    rw [show k.s.engine (s.head c e j).c (s.head c e j).e = _ from hq]
  have hr' := (Work.recs_incA k (s.head c e j) on i n).trans hr
  have hl' := (Work.late_incA k (s.head c e j) on i n).trans hl
  have hf' := (Work.faults_incA k (s.head c e j) on i n).trans hf
  have hpend := Work.mpend_incA k (s.head c e j) on i n
  obtain ⟨key, hvregs⟩ := runInstr_vregs (op := op) (plan := plan) h hb (s.head_ofCore c e j) hr' hl' hf' hq' rfl
  obtain ⟨hbytes, -⟩ := runInstr_bytes (op := op) (plan := plan) h hb (s.head_ofCore c e j) hr' hl' hf'
    (by rw [hq']; exact h.running) ((congrArg landSorted hpend).trans hs)
  refine ⟨moved_of_advance key, fun r u => ?_, ?_, fun v u => ?_, fun u b hu => (hbytes u b hu).trans ?_⟩
  · rw [State.sreg, State.sreg, key, hq]
    rfl
  · rw [State.areg, key]
    refine Eq.trans (b := TReg.view (AMap.get TReg.zero aregs i) ((s.head c e j).at 1)) rfl (hreg.trans ?_)
    rw [← hareg, ← hareg]
    rfl
  · have hcore := Work.core_incA k (s.head c e j) on i n
    rw [State.vlanes, State.vlanes, hvregs]
    rw [show (k.incA (s.head c e j) on i n).s.core c.val = _ from hcore, Core.setEngine_vregs]
    rfl
  · exact State.byteAt_congr (Work.mem_incA _ _ _ _ _) hpend u b

end

section
variable (k : Work) (x : Ctx) (ports : List Claim) (space abs : Nat) (d : List Byte) (land : Nat)

theorem Work.core_didWrite : (k.didWrite x ports space abs d land).s.core x.c =
    { k.s.core x.c with mpend := ((k.didWrite x ports space abs d land).s.core x.c).mpend } := by
  have h : (k.didWrite x ports space abs d land).s.core x.c = { k.s.core x.c with
      mpend := insWrite { land := land, addr := abs, data := d, eng := x.e.num } (k.s.core x.c).mpend } :=
    State.core_updCore_same k.s x.c fun q => { q with
      mpend := insWrite { land := land, addr := abs, data := d, eng := x.e.num } q.mpend }
  rw [h]

theorem Work.mpend_didWrite : ((k.didWrite x ports space abs d land).s.core x.c).mpend =
    insWrite { land := land, addr := abs, data := d, eng := x.e.num } (k.s.core x.c).mpend :=
  k.s.mpend_writeAt x.c land abs d x.e.num

theorem Work.engine_didWrite (e : Eng) : (k.didWrite x ports space abs d land).s.engine x.c e = k.s.engine x.c e := by
  rw [State.engine, Work.core_didWrite]
  cases e <;> rfl

theorem Work.byteAt_didWrite {k : Work} (h : landSorted (k.s.core x.c).mpend = true) (n : Nat) :
    (k.didWrite x ports space abs d land).s.byteAt x.c (land + 1) n =
      MWrite.byteOn { land := land, addr := abs, data := d, eng := x.e.num } n (k.s.byteAt x.c (land + 1) n) :=
  State.byteAt_writeAt h land abs d x.e.num n

end

/-- Settles O2: the two instructions' equations, and what the issue of a ready engine makes of them. -/
theorem wordLoadAndStore : Obligations.WordLoadAndStore := by
  intro s c e j m w abs h hcl hinv x a hs ha
  have hsort := s.inv_mpend hinv c.val
  refine ⟨fun hl hp => ?sld, fun hl hp => ?sst⟩
  case sld =>
    have hq := ((s.work x.t).didRead (portsOf (aSpace a) (abs % 2 ^ 32) 4 x.t e.num false) (aSpace a) x.t).engine_setS x
      (fld w 0 5) 4 (BitVec.ofNat 32 (leNat (s.readAt c.val x.t abs 4)))
    have hpend : ((((s.work x.t).didRead (portsOf (aSpace a) (abs % 2 ^ 32) 4 x.t e.num false) (aSpace a) x.t).setS x
      (fld w 0 5) 4 (BitVec.ofNat 32 (leNat (s.readAt c.val x.t abs 4)))).s.core x.c).mpend = (s.core c.val).mpend :=
        (congrArg Core.mpend (State.core_updEngine_same s c.val e _)).trans (Core.setEngine_mpend _ _ _)
    have done := runInstr_incA (op := 0x15) (plan := false) h
      (runSld_ok (k := s.work x.t) (x := x) rfl hs ha hl (hp.reaches hcl) hp.sound) rfl rfl
      ((Work.faults_setS _ x _ _ _).trans h.faults) hq ((congrArg landSorted hpend).trans hsort)
    refine ⟨_, rfl, done.follow, (done.sreg _ _).trans ?_, done.areg⟩
    exact (State.sreg_of_engine hq _ _).trans (view_upd_put _ _ _ _ _)
  case sst =>
    have hq := (s.work x.t).engine_didWrite x (portsOf (aSpace a) (abs % 2 ^ 32) 4 (x.at 1) e.num true) (aSpace a) abs
      (sstData w x (s.work x.t)) (x.at 1) e
    have hcore := (s.work x.t).core_didWrite x (portsOf (aSpace a) (abs % 2 ^ 32) 4 (x.at 1) e.num true) (aSpace a) abs
      (sstData w x (s.work x.t)) (x.at 1)
    have hpend := (s.work x.t).mpend_didWrite x (portsOf (aSpace a) (abs % 2 ^ 32) 4 (x.at 1) e.num true) (aSpace a) abs
      (sstData w x (s.work x.t)) (x.at 1)
    have done := runInstr_incA (op := 0x16) (plan := false) h
      (runSst_ok (k := s.work x.t) (x := x) rfl hs ha hl (hp.reaches hcl)) rfl rfl
      ((congrArg Core.faults hcore).trans h.faults) hq ((congrArg landSorted hpend).trans (landSorted_insWrite _ hsort))
    refine ⟨_, rfl, done.follow, ?_, done.areg⟩
    rw [State.readAt_eq]
    refine Eq.trans (List.map_congr_left fun i _ => ?_)
      (map_landed_data (abs := abs) (leBytes_length 4 _) (fun k => s.byteAt c.val (x.at 1 + 1) k) (x.at 1) e.num)
    exact (done.bytes _ _ (Nat.le_succ _)).trans (Work.byteAt_didWrite (k := s.work x.t) x _ _ _ _ _ hsort _)

end Sys2Proof.Machine
end

section
/-!
PROOFS. VLD and VST (R95): accesses in several pieces, and an equation for each instruction.
-/
namespace Sys2Proof.Machine

/-! ### Pieces of equal length -/

theorem chunks_flatten {α : Type} {k : Nat} (hk : 0 < k) (l : List (List α)) (hl : ∀ p ∈ l, p.length = k) {n : Nat}
    (hn : l.length ≤ n) : chunks k n l.flatten = l := by
  induction l generalizing n with
  | nil => cases n <;> rfl
  | cons p l ih =>
    obtain ⟨n, rfl⟩ : ∃ m, n = m + 1 := ⟨n - 1, by simp at hn; omega⟩
    have hp : p.length = k := hl p List.mem_cons_self
    have htake : (p ++ l.flatten).take k = p := by rw [← hp, List.take_left]
    have hdrop : (p ++ l.flatten).drop k = l.flatten := by rw [← hp, List.drop_left]
    obtain ⟨b, t, hbt⟩ : ∃ b t, p ++ l.flatten = b :: t := by
      cases p with
      | nil => simp at hp; omega
      | cons b t => exact ⟨b, t ++ l.flatten, rfl⟩
    rw [List.flatten_cons, hbt, chunks, ← hbt, htake, hdrop,
      ih (fun q hq => hl q (List.mem_cons_of_mem _ hq)) (by simp at hn; omega)]
    exact fun h => by simp at h

theorem chunks_single {α : Type} {k : Nat} (hk : 0 < k) {l : List α} (h : l.length = k) : chunks k 1 l = [l] := by
  have := chunks_flatten hk [l] (by simpa using h) (n := 1) le_rfl
  simpa using this

theorem words32_flatten (l : List (List Byte)) (hl : ∀ p ∈ l, p.length = 4) :
    words32 l.flatten = l.map fun b => BitVec.ofNat 32 (leNat b) := by
  have hlen : l.length ≤ l.flatten.length / 4 + 1 := by
    have hsum : l.flatten.length = 4 * l.length := by
      induction l with
      | nil => rfl
      | cons p l ih =>
        have := hl p List.mem_cons_self
        have := ih fun q hq => hl q (List.mem_cons_of_mem _ hq)
        simp only [List.flatten_cons, List.length_append, List.length_cons]
        omega
    omega
  rw [words32, chunks_flatten (by decide) l hl hlen]

theorem bytes32_eq (v : List W32) : bytes32 v = (v.map fun l => leBytes 4 l.toNat).flatten := by
  rw [bytes32, List.flatMap_def]

theorem flatMap_length_const {α β : Type} (f : α → List β) {n : Nat} (h : ∀ a, (f a).length = n) (l : List α) :
    (l.flatMap f).length = n * l.length := by
  induction l with
  | nil => simp
  | cons a l ih =>
    simp only [List.flatMap_cons, List.length_append, List.length_cons, h, ih]
    ring

/-! ### Writes that do not meet -/

/-- The write covers the byte at address `k`. -/
def MWrite.Covers (w : MWrite) (k : Nat) : Prop := w.addr ≤ k ∧ k < w.addr + w.data.length

theorem MWrite.byteOn_of_not_covers {w : MWrite} {k : Nat} (h : ¬w.Covers k) (b : Byte) : w.byteOn k b = b := if_neg h

theorem landed_of_not_covers {l : List MWrite} {k : Nat} (h : ∀ w ∈ l, ¬w.Covers k) (b : Byte) : landed l k b = b := by
  induction l generalizing b with
  | nil => rfl
  | cons w l ih =>
    refine (ih (fun v hv => h v (List.mem_cons_of_mem _ hv)) _).trans ?_
    exact MWrite.byteOn_of_not_covers (h w List.mem_cons_self) b

/-- A byte on which all the writes that cover it agree, if there is one, has their value. -/
theorem landed_of_covers {l : List MWrite} {k : Nat} {v : Byte} (h : ∀ w ∈ l, w.Covers k → ∀ b, w.byteOn k b = v)
    (hex : ∃ w ∈ l, w.Covers k) (b : Byte) : landed l k b = v := by
  induction l generalizing b with
  | nil =>
    obtain ⟨w, hw, -⟩ := hex
    exact absurd hw List.not_mem_nil
  | cons w l ih =>
    by_cases htail : ∃ w ∈ l, w.Covers k
    · exact ih (fun v hv => h v (List.mem_cons_of_mem _ hv)) htail _
    · obtain ⟨u, hu, hcu⟩ := hex
      have hw : w.Covers k := by
        obtain rfl | hu := List.mem_cons.1 hu
        · exact hcu
        · exact absurd ⟨u, hu, hcu⟩ htail
      refine (landed_of_not_covers (fun v hv hc => htail ⟨v, hv, hc⟩) _).trans ?_
      exact h w List.mem_cons_self hw b

/-- Bytes that one write of the list covers, and no other one, read as that write's data. -/
theorem map_landed_of_alone {l : List MWrite} {u : MWrite} (hu : u ∈ l) {n : Nat} (hn : u.data.length = n)
    (h : ∀ w ∈ l, ∀ i < n, w.Covers (u.addr + i) → w = u) (f : Nat → Byte) :
    (List.range n).map (fun i => landed l (u.addr + i) (f (u.addr + i))) = u.data := by
  apply List.ext_getElem
  · simp [hn]
  · intro i _ hi
    rw [List.getElem_map, List.getElem_range]
    refine landed_of_covers (fun w hw hc b => ?_) ⟨u, hu, Nat.le_add_right _ _, Nat.add_lt_add_left hi _⟩ _
    rw [h w hw i (hn ▸ hi) hc]
    exact u.byteOn_inside b hi

/-! ### Reads and writes in pieces -/

section
variable {ι : Type} {x : Ctx} {k : Work}

/-- The work has the state of `k`, and has met no corrected error and caused no late fault. -/
structure Work.SameState (k' k : Work) : Prop where
  state : k'.s = k.s
  recs : k'.recs = k.recs
  late : k'.late = k.late

theorem Work.Reaches.of_state {k' : Work} {a : MAddr} {n abs : Nat} {write : Bool} (h : k.Reaches x a n write abs)
    (hs : k'.s = k.s) : k'.Reaches x a n write abs := by
  obtain ⟨h1, h2, h3, h4⟩ := h
  rw [← hs] at h2 h3 h4
  exact ⟨h1, h2, h3, h4⟩

/-- Pieces read in one cycle, each with nothing in the way (R95, R167). -/
theorem readPieces_ok (l : List ι) (g : ι → MAddr × Nat) (abs : ι → Nat)
    (h : ∀ i ∈ l, k.Reaches x (g i).1 (g i).2 false (abs i))
    (hecc : ∀ i ∈ l, eccWorst k.s.ecc (eccWord (aSpace (g i).1)) (abs i) (g i).2 = none) (cyc : Nat) :
    ∃ k' : Work, k'.SameState k ∧
      k.readPieces x (l.map g) cyc = .ok ((l.map fun i => k.s.readAt x.c cyc (abs i) (g i).2).flatten, k') := by
  have key : ∀ (l : List ι) (acc : List (List Byte)) (k₁ : Work), k₁.SameState k →
      (∀ i ∈ l, k.Reaches x (g i).1 (g i).2 false (abs i)) →
      (∀ i ∈ l, eccWorst k.s.ecc (eccWord (aSpace (g i).1)) (abs i) (g i).2 = none) → ∃ k' : Work, k'.SameState k ∧
      (l.map g).foldlM (m := Except Halt) (fun (a : List (List Byte) × Work) p => do
        let (b, v) ← a.2.read x p.1 p.2 cyc
        pure (b :: a.1, v)) (acc, k₁) = .ok ((l.map fun i => k.s.readAt x.c cyc (abs i) (g i).2).reverse ++ acc, k') := by
    intro l
    induction l with
    | nil => exact fun acc k₁ h₁ _ _ => ⟨k₁, h₁, rfl⟩
    | cons i l ih =>
      intro acc k₁ h₁ hreach hsound
      have hi := (hreach i List.mem_cons_self).of_state h₁.state
      have hs : eccWorst k₁.s.ecc (eccWord (aSpace (g i).1)) (abs i) (g i).2 = none := by
        rw [h₁.state]
        exact hsound i List.mem_cons_self
      obtain ⟨k', hk', hrest⟩ := ih (k₁.s.readAt x.c cyc (abs i) (g i).2 :: acc)
        (k₁.didRead (portsOf (aSpace (g i).1) (abs i % 2 ^ 32) (g i).2 cyc x.e.num false) (aSpace (g i).1) cyc)
        ⟨h₁.state, h₁.recs, h₁.late⟩ (fun j hj => hreach j (List.mem_cons_of_mem _ hj))
        (fun j hj => hsound j (List.mem_cons_of_mem _ hj))
      refine ⟨k', hk', ?_⟩
      rw [List.map_cons, List.foldlM_cons, Work.read, hi.readVia hs, ok_bind, pure_bind, hrest, h₁.state]
      simp
  obtain ⟨k', hk', hfold⟩ := key l [] k ⟨rfl, rfl, rfl⟩ h hecc
  refine ⟨k.oneAccess k', ⟨hk'.state, hk'.recs, hk'.late⟩, ?_⟩
  rw [Work.readPieces, hfold, ok_bind]
  simp
  rfl

/-- What writes in one cycle may change of the core and of the state. -/
structure Work.Wrote (k' k : Work) (x : Ctx) (land : Nat) (ws : List MWrite) : Prop where
  recs : k'.recs = k.recs
  late : k'.late = k.late
  rest : k'.s = { k.s with cores := k'.s.cores, ecc := k'.s.ecc }
  core : k'.s.core x.c = { k.s.core x.c with mpend := (k'.s.core x.c).mpend }
  sorted : landSorted (k'.s.core x.c).mpend = true
  bytes : ∀ n, k'.s.byteAt x.c (land + 1) n = landed ws n (k.s.byteAt x.c (land + 1) n)

theorem Work.Wrote.refl (land : Nat) (h : landSorted (k.s.core x.c).mpend = true) : k.Wrote k x land [] :=
  ⟨rfl, rfl, rfl, rfl, h, fun _ => rfl⟩

theorem Work.Reaches.of_rest {k' : Work} {a : MAddr} {n abs : Nat} {write : Bool} (h : k.Reaches x a n write abs)
    (hs : k'.s = { k.s with cores := k'.s.cores, ecc := k'.s.ecc }) (hc : (k'.s.core x.c).claims = (k.s.core x.c).claims) :
    k'.Reaches x a n write abs := by
  refine ⟨h.own, ?_, ?_, hc.trans h.claims⟩
  · rw [hs]
    exact h.place
  · rw [hs]
    exact h.bobbin

/-- One more write. -/
theorem Work.Wrote.didWrite {k' : Work} {land : Nat} {ws : List MWrite} (h : k'.Wrote k x land ws) (ports : List Claim)
    (space abs : Nat) (d : List Byte) : (k'.didWrite x ports space abs d land).Wrote k x land
      (ws ++ [{ land := land, addr := abs, data := d, eng := x.e.num }]) := by
  have hcore := k'.core_didWrite x ports space abs d land
  refine ⟨h.recs, h.late, ?_, ?_, ?_, fun n => ?_⟩
  · have h1 := h.rest
    rw [Work.didWrite, State.clearEcc, State.writeAt, State.updCore, State.setCore]
    simp only
    rw [h1]
  · have h1 := h.core
    rw [h1] at hcore
    exact hcore
  · rw [Work.mpend_didWrite]
    exact landSorted_insWrite _ h.sorted
  · rw [Work.byteAt_didWrite x ports space abs d land h.sorted, h.bytes, landed_append]
    rfl

/-- Pieces written in one cycle, each with nothing in the way (R95, R167). -/
theorem writePieces_ok (l : List ι) (g : ι → MAddr × List Byte) (abs : ι → Nat)
    (h : ∀ i ∈ l, k.Reaches x (g i).1 (g i).2.length true (abs i)) (hs : landSorted (k.s.core x.c).mpend = true) (land : Nat) :
    ∃ k' : Work, k'.Wrote k x land (l.map fun i => { land := land, addr := abs i, data := (g i).2, eng := x.e.num }) ∧
      k.writePieces x (l.map g) land = .ok k' := by
  have key : ∀ (l : List ι) (ws : List MWrite) (k₁ : Work), k₁.Wrote k x land ws →
      (∀ i ∈ l, k.Reaches x (g i).1 (g i).2.length true (abs i)) → ∃ k' : Work,
      k'.Wrote k x land (ws ++ l.map fun i => { land := land, addr := abs i, data := (g i).2, eng := x.e.num }) ∧
      (l.map g).foldlM (m := Except Halt) (fun (a : Work) p => a.write x p.1 p.2 land) k₁ = .ok k' := by
    intro l
    induction l with
    | nil => exact fun ws k₁ h₁ _ => ⟨k₁, by simpa using h₁, rfl⟩
    | cons i l ih =>
      intro ws k₁ h₁ hreach
      have hclaims : (k₁.s.core x.c).claims = (k.s.core x.c).claims := by rw [h₁.core]
      have hi := (hreach i List.mem_cons_self).of_rest h₁.rest hclaims
      obtain ⟨k', hk', hrest⟩ := ih _ _ (h₁.didWrite (portsOf (aSpace (g i).1) (abs i % 2 ^ 32) (g i).2.length land x.e.num true)
        (aSpace (g i).1) (abs i) (g i).2) fun j hj => hreach j (List.mem_cons_of_mem _ hj)
      refine ⟨k', by simpa using hk', ?_⟩
      rw [List.map_cons, List.foldlM_cons, Work.write, hi.writeVia rfl, ok_bind, hrest]
  obtain ⟨k', hk', hfold⟩ := key l [] k (.refl land hs) h
  refine ⟨k.oneAccess k', ⟨hk'.recs, hk'.late, hk'.rest, hk'.core, hk'.sorted, hk'.bytes⟩, ?_⟩
  rw [Work.writePieces, hfold, ok_bind]
  rfl

end

theorem Work.Wrote.of_state {x : Ctx} {k k₁ k' : Work} {land : Nat} {ws : List MWrite} (h : k'.Wrote k₁ x land ws)
    (hs : k₁.SameState k) : k'.Wrote k x land ws := by
  obtain ⟨h1, h2, h3, h4, h5, h6⟩ := h
  rw [hs.state] at h3 h4 h6
  exact ⟨h1.trans hs.recs, h2.trans hs.late, h3, h4, h5, h6⟩

theorem Work.rest_vland (k : Work) (x : Ctx) (v : Nat) :
    (k.vland x v).s = { k.s with cores := (k.vland x v).s.cores, ecc := (k.vland x v).s.ecc } := by
  unfold Work.vland
  extract_lets whole
  cases whole <;> rfl

/-! ### Address checks -/

/-- What a resolved address says of its fields and its place (R161, R345). -/
theorem resolve_ok {s : State} {f : FnId} {a : MAddr} {n c abs : Nat} (h : s.resolve f a n = .ok (c, abs)) :
    c = aCore a ∧ bitAt a 43 = false ∧ aOff a + n ≤ spaceSize (aSpace a) ∧
      abs = absAddr (aSpace a) (aCore a) ((s.regionOf f (aSpace a)).1 + aOff a) := by
  simp only [State.resolve] at h
  split_ifs at h with hfields
  simp only [Except.ok.injEq, Prod.mk.injEq] at h
  simp only [Bool.or_eq_true, decide_eq_true_eq, not_or, Bool.not_eq_true, not_le, not_lt] at hfields
  obtain ⟨rfl, rfl⟩ := h
  exact ⟨rfl, hfields.1.2, hfields.2, rfl⟩

theorem spaceSize_le (n : Nat) : spaceSize n ≤ 2 ^ 26 := by
  unfold spaceSize
  split <;> decide

/-- An offset within its space is added to a resolved address without a carry into its other fields. -/
theorem aOff_add {a : MAddr} {n : Nat} (h : aOff a + n < 2 ^ 32) :
    aOff (a + BitVec.ofNat 48 n) = aOff a + n ∧ aSpace (a + BitVec.ofNat 48 n) = aSpace a ∧
      aCore (a + BitVec.ofNat 48 n) = aCore a := by
  have ha := a.isLt
  simp only [aOff, aSpace, aCore, fld, BitVec.toNat_add, BitVec.toNat_ofNat, Nat.shiftRight_eq_div_pow] at h ⊢
  omega

/-! ### Equations of VLD and VST -/

theorem need_true {b : Bool} {d : Byte} (h : b = true) : need b d = .ok () := need_ok d h

theorem gate_pieces {ι : Type} {x : Ctx} {k : Work} (l : List ι) (g : ι → MAddr × Nat) (write : Bool) (abs : ι → Nat)
    (h : ∀ i ∈ l, k.Reaches x (g i).1 (g i).2 write (abs i)) (hr : x.r = x.t) :
    gate x k ((l.map g).flatMap fun p => rangeOf x p.1 p.2 write) = .ok (x, k) := by
  refine gate_open (fun r hr' => ?_) hr.le
  obtain ⟨p, hp, hrp⟩ := List.mem_flatMap.1 hr'
  obtain ⟨i, hi, rfl⟩ := List.mem_map.1 hp
  exact rangeOf_clear (h i hi).bobbin r hrp

/-- The address register of a vector load or store (R95). -/
def vecAddr (w : BitVec 48) (x : Ctx) (k : Work) : MAddr := k.areg x (fld w 24 4)

section
variable {ι : Type} {m : Byte} {w : BitVec 48} {x : Ctx} {k : Work} (l : List ι) (g : ι → MAddr × Nat) (abs : ι → Nat)
  (hr : x.r = x.t) (hps : vecPieces (vecAddr w x k) w = l.map g) (hrow : needRow x (vecAddr w x k) w = .ok ())

/-- What VLD puts into its register, from the bytes that it reads. -/
def vldLanes (w : BitVec 48) (bs : List Byte) : List W32 :=
  if bitAt w 30 then (chunks 2 64 bs).map fun b => BitVec.ofNat 32 (leNat b * 2 ^ 16) else words32 bs

/-- Bytes of a step of the address register: a word in column mode, else a row (R95). -/
def vecStep (w : BitVec 48) : Nat := if bitAt w 29 then 4 else 256

include hr hps hrow in
theorem runVld_ok (hl : legalEng 0x50 m w = true) (h : ∀ i ∈ l, k.Reaches x (g i).1 (g i).2 false (abs i))
    (hecc : ∀ i ∈ l, eccWorst k.s.ecc (eccWord (aSpace (g i).1)) (abs i) (g i).2 = none) :
    ∃ k' : Work, k'.SameState k ∧ runVld m w x k = .ok (finish x ((k'.setV x (fld w 0 6) 4 false (vldLanes w
      (l.map fun i => k.s.readAt x.c x.t (abs i) (g i).2).flatten)).incA x (bitAt w 28) (fld w 24 4) (vecStep w))) := by
  obtain ⟨k', hk', hread⟩ := readPieces_ok l g abs h hecc x.t
  refine ⟨k', hk', ?_⟩
  unfold vecAddr at hps hrow
  rw [runVld]
  simp only [needEng_ok hl, ok_bind, hrow, hps, gate_pieces l g false abs h hr, hread]
  rfl

/-- The bytes that VST writes of 64 lanes. -/
def vstBytes (w : BitVec 48) (v : List W32) : List Byte :=
  if bitAt w 30 then (v.map toBf16).flatMap fun l => leBytes 2 l.1 else bytes32 v

include hr hps hrow in
theorem runVst_ok {s : State} (hl : legalEng 0x51 m w = true) (hk : k.SameCore s x.c)
    (hu : ((s.core x.c).engine x.e).upset = none) (d : ι → List Byte)
    (hd : chunks ((vstBytes w (x.vlanes s (fld w 0 6))).length / l.length) l.length (vstBytes w (x.vlanes s (fld w 0 6))) = l.map d)
    (hlen : ∀ i ∈ l, (d i).length = (g i).2) (h : ∀ i ∈ l, k.Reaches x (g i).1 (g i).2 true (abs i))
    (hs : landSorted (s.core x.c).mpend = true) :
    ∃ k' : Work, k'.Wrote (k.vland x (fld w 0 6)) x (x.at 1)
        (l.map fun i => { land := x.at 1, addr := abs i, data := d i, eng := x.e.num }) ∧
      runVst m w x k = .ok (finish x (k'.incA x (bitAt w 28) (fld w 24 4) (vecStep w))) := by
  have hv := hk.vland hu (fld w 0 6)
  have hclaims : ((k.vland x (fld w 0 6)).s.core x.c).claims = (k.s.core x.c).claims := by rw [hv.core, hk.core]
  obtain ⟨k₂, hk₂, hstate⟩ : ∃ k₂ : Work, k₂ = (if bitAt w 30 then (k.vland x (fld w 0 6)).ieee x
      (((x.vlanes s (fld w 0 6)).map toBf16).foldl (fun a r => a.add r.2) .none) else k.vland x (fld w 0 6)) ∧
      k₂.SameState (k.vland x (fld w 0 6)) := by
    refine ⟨_, rfl, ?_⟩
    split
    · exact ⟨Work.s_ieee _ _ _, Work.recs_ieee _ _ _, Work.late_ieee _ _ _⟩
    · exact ⟨rfl, rfl, rfl⟩
  have hreach : ∀ i ∈ l, k₂.Reaches x (g i).1 (d i).length true (abs i) := fun i hi => by
    rw [hlen i hi]
    exact ((h i hi).of_rest (k.rest_vland x _) hclaims).of_state hstate.state
  obtain ⟨k', hk', hwrite⟩ := writePieces_ok l (fun i => ((g i).1, d i)) abs hreach
    (by rw [hstate.state, hv.core]; exact hs) (x.at 1)
  refine ⟨k', hk'.of_state hstate, ?_⟩
  have hzip : List.zipWith (fun (p : MAddr × Nat) b => (p.1, b)) (l.map g) (l.map d) = l.map fun i => ((g i).1, d i) := by
    rw [List.zipWith_map, List.zipWith_self]
  unfold vecAddr at hps hrow
  unfold Ctx.vlanes at hd hk₂
  unfold vstBytes at hd
  rw [runVst]
  simp only [needEng_ok hl, ok_bind, hrow, hps, gate_pieces l g true abs h hr, hk.vreg hu, List.length_map]
  rw [show (if bitAt w 30 = true then (k.vland x (fld w 0 6)).floatChecks x 1 else pure (k.vland x (fld w 0 6))) =
    Except.ok (k.vland x (fld w 0 6)) by rw [hv.floatChecks hu]; split <;> rfl, ok_bind, hd, hzip, ← hk₂, hwrite]
  rfl

end

/-! ### Issue of VLD and VST -/

section
variable {s : State} {c : CoreId} {j : Job} {op : Nat} {plan : Bool} {body : Ctx → Work → Except Halt Issued} {on : Bool}
  {i n : Nat} (h : Ready s c .vxe j) (hinv : s.inv = true)
include h hinv

theorem runInstr_vld {k : Work} {d l : Nat} {lanes : List W32} (hk : k.SameState (s.work (s.head c .vxe j).t))
    (hb : body (s.head c .vxe j) (s.work (s.head c .vxe j).t) =
      .ok (finish (s.head c .vxe j) ((k.setV (s.head c .vxe j) d l false lanes).incA (s.head c .vxe j) on i n))) :
    let t := runInstr s c .vxe op plan body
    Followed s t c .vxe j ∧ t.vlanes c d ((s.head c .vxe j).at l) = lanes := by
  have hsame : k.SameCore s (s.head c .vxe j).c := ⟨by rw [hk.state]; rfl, hk.recs, hk.late⟩
  have hcore := hsame.core_setV h.upset d l false lanes
  have done := runInstr_incA (op := op) (plan := plan) (regs := (s.engine c.val .vxe).sregs) h hb (hsame.recs_setV h.upset _ _ _ _) (hsame.late_setV h.upset _ _ _ _)
    ((congrArg Core.faults hcore).trans h.faults) (by rw [State.engine, show State.core _ c.val = _ from hcore]; rfl)
    ((congrArg (fun k => landSorted (Core.mpend k)) hcore).trans (s.inv_mpend hinv c.val))
  refine ⟨done.follow, (done.vlanes _ _).trans ?_⟩
  rw [State.vlanes, show State.core _ c.val = _ from hcore, AMap.get_upd_same]
  exact VReg.view_put_whole _ _ _ _ (s.inv_vreg hinv _ _)

omit hinv in
theorem runInstr_vst {k : Work} {v : Nat} {ws : List MWrite}
    (hk : k.Wrote ((s.work (s.head c .vxe j).t).vland (s.head c .vxe j) v) (s.head c .vxe j) ((s.head c .vxe j).at 1) ws)
    (hb : body (s.head c .vxe j) (s.work (s.head c .vxe j).t) =
      .ok (finish (s.head c .vxe j) (k.incA (s.head c .vxe j) on i n))) :
    let t := runInstr s c .vxe op plan body
    Followed s t c .vxe j ∧ ∃ f : Nat → Byte, ∀ b, t.byteAt c.val ((s.head c .vxe j).at 1 + 1) b = landed ws b (f b) := by
  have hv := (s.sameCore_work (s.head c .vxe j).t c.val).vland (x := s.head c .vxe j) h.upset v
  have hcore : k.s.core c.val = { s.core c.val with mpend := (k.s.core c.val).mpend } := by
    have h1 := hk.core
    rw [hv.core] at h1
    exact h1
  have done := runInstr_incA (op := op) (plan := plan) (regs := (s.engine c.val .vxe).sregs) h hb (hk.recs.trans hv.recs) (hk.late.trans hv.late)
    ((congrArg Core.faults hcore).trans h.faults) (by rw [State.engine, show State.core _ c.val = _ from hcore]; rfl) hk.sorted
  exact ⟨done.follow, _, fun b => (done.bytes _ _ (Nat.le_succ _)).trans (hk.bytes b)⟩

end

theorem needRow_row {x : Ctx} {a : MAddr} {w : BitVec 48} (h29 : bitAt w 29 = false) (hown : aCore a = x.c)
    (hs : aSpace a = 1 ∨ aSpace a = 2) (ha : aOff a % 256 = 0) : needRow x a w = .ok () := by
  have hmem : aSpace a ∈ [1, 2] := by simpa using hs
  exact need_ok _ (by simp [h29, localAddr_own hown hmem, ha])

theorem needRow_column {x : Ctx} {a : MAddr} {w : BitVec 48} (h29 : bitAt w 29 = true) (hown : aCore a = x.c)
    (hs : aSpace a = 1) (ha : aOff a % 4 = 0) : needRow x a w = .ok () := by
  have hmem : aSpace a ∈ [1] := by simpa using hs
  exact need_ok _ (by simp [h29, localAddr_own hown hmem, ha])

/-- The half row of a BF16 access lies in the row (R95). -/
theorem half_row {a : MAddr} (ha : aOff a % 256 = 0) (upper : Bool) :
    aOff (addA a (if upper then 128 else 0)) = aOff a + (if upper then 128 else 0) ∧
      aSpace (addA a (if upper then 128 else 0)) = aSpace a ∧ aCore (addA a (if upper then 128 else 0)) = aCore a := by
  have hlt : aOff a < 2 ^ 32 := Nat.mod_lt _ (by decide)
  cases upper
  · exact aOff_add (n := 0) (by omega)
  · exact aOff_add (n := 128) (by omega)

/-- Column accesses of one address lie apart (R95). -/
theorem columns_apart {s : State} {f : FnId} {a : MAddr} {c : Nat} {abs : Nat → Nat}
    (h : ∀ r < 64, s.resolve f (a + BitVec.ofNat 48 (256 * r)) 4 = .ok (c, abs r)) {r : Nat} (hr : r < 64) :
    abs r = abs 0 + 256 * r := by
  have h0 : s.resolve f a 4 = .ok (c, abs 0) := by
    have := h 0 (by decide)
    simpa using this
  obtain ⟨-, -, hoff, habs⟩ := resolve_ok h0
  obtain ⟨-, -, -, habsr⟩ := resolve_ok (h r hr)
  have hsize := spaceSize_le (aSpace a)
  obtain ⟨h1, h2, h3⟩ := aOff_add (a := a) (n := 256 * r) (by omega)
  rw [habsr, habs, h1, h2, h3]
  unfold absAddr
  omega

/-- A column access is none of half a row (R95). -/
theorem column_not_half {op : Nat} {m : Byte} {w : BitVec 48} (hl : legalEng op m w = true) (hop : op = 0x50 ∨ op = 0x51)
    (h29 : bitAt w 29 = true) : bitAt w 30 = false := by
  rcases hop with rfl | rfl <;> simp [legalEng, h29] at hl <;> exact hl.1.2

/-- Settles O10: the two instructions' equations for each form, and what the issue of a ready engine makes of them. -/
theorem vectorLoadAndStore : Obligations.VectorLoadAndStore := by
  intro s c j m w h hcl hinv x a v
  have hsort := s.inv_mpend hinv c.val
  have hk := s.sameCore_work x.t c.val
  refine ⟨fun h29 hs ha => ⟨fun h30 abs => ⟨fun hl hp => ?loadRow, fun hl hv hp => ?storeRow⟩,
    fun h30 abs => ?half⟩,
    fun h29 hs ha abs => ⟨fun hl hp => ?loadColumn, fun hl hv hp => ?storeColumn⟩⟩
  case loadRow =>
    obtain ⟨k, hk, hb⟩ := runVld_ok (x := x) (k := s.work x.t) (w := w) [()] (fun _ => (a, 256)) (fun _ => abs) rfl
      (by simp [vecPieces, h29, h30]; rfl) (needRow_row h29 hp.own hs ha) hl (fun _ _ => hp.reaches hcl) (fun _ _ => hp.sound)
    obtain ⟨hfollow, hlanes⟩ := runInstr_vld (op := 0x50) (plan := false) h hinv hk hb
    refine ⟨_, rfl, hfollow, hlanes.trans ?_⟩
    simp [vldLanes, h30]
    rfl
  case storeRow =>
    have hlen : (bytes32 v).length = 256 := by
      rw [bytes32, flatMap_length_const _ (fun a => leBytes_length 4 _), hv]
    obtain ⟨k, hk, hb⟩ := runVst_ok (x := x) (k := s.work x.t) (w := w) [()] (fun _ => (a, 256)) (fun _ => abs) rfl
      (by simp [vecPieces, h29, h30]; rfl) (needRow_row h29 hp.own hs ha) hl hk h.upset (fun _ => bytes32 v)
      (by
        simp only [vstBytes, h30, Bool.false_eq_true, if_false, List.length_singleton, Nat.div_one, List.map_singleton]
        exact chunks_single (by rw [show (bytes32 (x.vlanes s (fld w 0 6))).length = 256 from hlen]; decide) rfl)
      (fun _ _ => hlen) (fun _ _ => hp.reaches hcl) hsort
    obtain ⟨hfollow, f, hbytes⟩ := runInstr_vst (op := 0x51) (plan := false) h hk hb
    refine ⟨_, rfl, hfollow, ?_⟩
    rw [State.readAt_eq]
    exact Eq.trans (List.map_congr_left fun i _ => hbytes (abs + i)) (map_landed_data (abs := abs) hlen f (x.at 1) _)
  case half =>
    intro a'
    obtain ⟨hoff, hspace, hcore⟩ := half_row ha (bitAt w 31)
    refine ⟨fun hl hp => ?_, fun hl hv hp => ?_⟩
    · obtain ⟨k, hk, hb⟩ := runVld_ok (x := x) (k := s.work x.t) (w := w) [()] (fun _ => (a', 128)) (fun _ => abs) rfl
        (by simp [vecPieces, h29, h30]; rfl) (needRow_row h29 (hcore.symm.trans hp.own) hs ha) hl (fun _ _ => hp.reaches hcl)
        (fun _ _ => hp.sound)
      obtain ⟨hfollow, hlanes⟩ := runInstr_vld (op := 0x50) (plan := false) h hinv hk hb
      refine ⟨_, rfl, hfollow, hlanes.trans ?_⟩
      simp [vldLanes, h30]
      rfl
    · have hlen : ((v.map toBf16).flatMap fun l => leBytes 2 l.1).length = 128 := by
        rw [flatMap_length_const _ (fun a => leBytes_length 2 _), List.length_map, hv]
      obtain ⟨k, hk, hb⟩ := runVst_ok (x := x) (k := s.work x.t) (w := w) [()] (fun _ => (a', 128)) (fun _ => abs) rfl
        (by simp [vecPieces, h29, h30]; rfl) (needRow_row h29 (hcore.symm.trans hp.own) hs ha) hl hk h.upset
        (fun _ => (v.map toBf16).flatMap fun l => leBytes 2 l.1)
        (by
          simp only [vstBytes, h30, if_true, List.length_singleton, Nat.div_one, List.map_singleton]
          rw [show ((List.map toBf16 (x.vlanes s (fld w 0 6))).flatMap fun l => leBytes 2 l.1).length = 128 from hlen]
          exact chunks_single (by decide) hlen)
        (fun _ _ => hlen) (fun _ _ => hp.reaches hcl) hsort
      obtain ⟨hfollow, f, hbytes⟩ := runInstr_vst (op := 0x51) (plan := false) h hk hb
      refine ⟨_, rfl, hfollow, ?_⟩
      rw [State.readAt_eq, show (v.flatMap fun l => leBytes 2 (toBf16 l).1) = (v.map toBf16).flatMap fun l => leBytes 2 l.1 by
        rw [List.flatMap_map]]
      exact Eq.trans (List.map_congr_left fun i _ => hbytes (abs + i)) (map_landed_data (abs := abs) hlen f (x.at 1) _)
  case loadColumn =>
    have h30 : bitAt w 30 = false := column_not_half hl (.inl rfl) h29
    have hown : aCore a = c.val := by simpa using (hp 0 (by decide)).own
    obtain ⟨k, hk, hb⟩ := runVld_ok (x := x) (k := s.work x.t) (w := w) (List.range 64)
      (fun r => (a + BitVec.ofNat 48 (256 * r), 4)) abs rfl (by simp [vecPieces, h29]; exact fun _ _ => rfl) (needRow_column h29 hown hs ha) hl
      (fun r hr => (hp r (List.mem_range.1 hr)).reaches hcl) (fun r hr => (hp r (List.mem_range.1 hr)).sound)
    obtain ⟨hfollow, hlanes⟩ := runInstr_vld (op := 0x50) (plan := false) h hinv hk hb
    refine ⟨_, rfl, hfollow, hlanes.trans ?_⟩
    simp only [vldLanes, h30, Bool.false_eq_true, if_false]
    rw [words32_flatten, List.map_map]
    · rfl
    · intro p hp'
      obtain ⟨r, -, rfl⟩ := List.mem_map.1 hp'
      exact State.readAt_length _ _ _ _ _
  case storeColumn =>
    have h30 : bitAt w 30 = false := column_not_half hl (.inr rfl) h29
    have hown : aCore a = c.val := by simpa using (hp 0 (by decide)).own
    have hlist : (List.range 64).map (fun r => leBytes 4 (nth 0 v r).toNat) = v.map fun l => leBytes 4 l.toNat := by
      apply List.ext_getElem
      · simp [hv]
      · intro r h1 h2
        simp only [List.getElem_map, List.getElem_range]
        rw [nth_eq_getElem]
    obtain ⟨k, hk, hb⟩ := runVst_ok (x := x) (k := s.work x.t) (w := w) (List.range 64)
      (fun r => (a + BitVec.ofNat 48 (256 * r), 4)) abs rfl (by simp [vecPieces, h29]; exact fun _ _ => rfl) (needRow_column h29 hown hs ha) hl hk
      h.upset (fun r => leBytes 4 (nth 0 v r).toNat)
      (by
        have hlen : (bytes32 v).length = 256 := by
          rw [bytes32, flatMap_length_const _ (fun a => leBytes_length 4 _), hv]
        simp only [vstBytes, h30, Bool.false_eq_true, if_false, List.length_range]
        rw [show (x.vlanes s (fld w 0 6)) = v from rfl, hlen, bytes32_eq, hlist]
        exact chunks_flatten (by decide) _ (fun p hp => by
          obtain ⟨l, -, rfl⟩ := List.mem_map.1 hp
          exact leBytes_length 4 _) (by simp [hv]))
      (fun _ _ => leBytes_length 4 _) (fun r hr => (hp r (List.mem_range.1 hr)).reaches hcl) hsort
    obtain ⟨hfollow, f, hbytes⟩ := runInstr_vst (op := 0x51) (plan := false) h hk hb
    refine ⟨_, rfl, hfollow, fun r hr => ?_⟩
    have hapart := fun q (hq : q < 64) => columns_apart (fun r hr => (hp r hr).place) hq
    rw [State.readAt_eq]
    refine Eq.trans (List.map_congr_left fun i hi => hbytes (abs r + i)) (map_landed_of_alone
      (u := { land := x.at 1, addr := abs r, data := leBytes 4 (nth 0 v r).toNat, eng := Eng.vxe.num })
      (List.mem_map.2 ⟨r, List.mem_range.2 hr, rfl⟩) (leBytes_length 4 _) ?_ f)
    intro w hw i hi hcover
    obtain ⟨q, hq, rfl⟩ := List.mem_map.1 hw
    obtain ⟨h1, h2⟩ := hcover
    simp only [leBytes_length] at h1 h2
    rw [hapart q (List.mem_range.1 hq), hapart r hr] at h1 h2
    have hqr : q = r := by omega
    rw [hqr]
    rfl

end Sys2Proof.Machine
end


section
/-! PROOFS. The state before power. -/

namespace Sys2Proof.Machine

/-- Settles O59: the reset values are those of the tables; the state holds no core, port or ring of its own. -/
theorem resetState : Obligations.ResetState := by
  refine ⟨rfl, rfl, rfl, rfl, rfl, rfl, rfl, rfl, ?_, ?_, ?_, ?_, ?_, ?_, ?_, ?_, fun c n => ⟨rfl, rfl, rfl⟩, fun p => rfl,
    fun f r => ?rings⟩
  case rings =>
    have hfn : State.reset.fn f = Func.reset ∨ State.reset.fn f = Func.reset0 := by
      by_cases hf : f = 0
      · right; subst hf; rfl
      · left; simp [State.fn, State.reset, AMap.get, Ne.symm hf]
    rcases hfn with hf | hf <;> rw [hf] <;> exact ⟨rfl, rfl⟩
  all_goals rfl

end Sys2Proof.Machine
end


section
/-!
PROOFS. Accesses of several cycles (R100 to R103): the writes of an instruction wait beside each other, its reads see none that
they do not meet, and each piece that no other write covers is in memory in the cycle after it lands.
-/
namespace Sys2Proof.Machine

/-! ### The writes of an instruction -/

/-- A core differs from another in what accesses change: the writes that wait, states of bobbins, and the gather engine's
buffers. -/
def Core.Accessed (k' k : Core) : Prop :=
  k' = { k with mpend := k'.mpend, bobbins := k'.bobbins, gIndex := k'.gIndex, gKey := k'.gKey }

theorem Core.Accessed.trans {a b c : Core} (h : b.Accessed a) (g : c.Accessed b) : c.Accessed a := by
  unfold Core.Accessed at *
  rw [g, h]

theorem Core.Accessed.engine {k k' : Core} (h : k'.Accessed k) (e : Eng) : k'.engine e = k.engine e := by
  rw [h]
  cases e <;> rfl

/-- What an instruction has changed whose accesses so far are reads and the writes `ws`: buffers of the gather engine and states of
bobbins beside. -/
structure Work.Stores (k' k : Work) (x : Ctx) (ws : List MWrite) : Prop where
  recs : k'.recs = k.recs
  late : k'.late = k.late
  rest : k'.s = { k.s with cores := k'.s.cores, fresh := k'.s.fresh }
  core : (k'.s.core x.c).Accessed (k.s.core x.c)
  sorted : landSorted (k'.s.core x.c).mpend = true
  pend : ∀ v, v ∈ (k'.s.core x.c).mpend ↔ v ∈ ws

/-- An instruction starts at a core without claims and waiting writes, and without marked words. -/
structure Work.Free (k : Work) (x : Ctx) : Prop where
  claims : (k.s.core x.c).claims = []
  pend : (k.s.core x.c).mpend = []
  ecc : k.s.ecc = []

theorem Work.free_of_ready {s : State} {c : CoreId} {e : Eng} {j : Job} (hcl : NoClaims s c) (hw : NoWrites s) (he : s.ecc = []) :
    (s.work (s.head c e j).t).Free (s.head c e j) := ⟨hcl, hw c.val, he⟩

/-- The instruction's pass has no bobbins for which it might wait, and it reads its registers in its queue cycle. -/
structure Work.Ungated (k : Work) (x : Ctx) : Prop where
  read : x.r = x.t
  bobs : k.s.bobs x.job = []

/-- The bytes of a write lie apart from a range. -/
def MWrite.Apart (w : MWrite) (a n : Nat) : Prop := w.addr + w.data.length ≤ a ∨ a + n ≤ w.addr

theorem MWrite.not_covers_of_apart {w : MWrite} {a n i : Nat} (h : w.Apart a n) (hi : i < n) : ¬w.Covers (a + i) := by
  unfold MWrite.Apart at h
  unfold MWrite.Covers
  omega

/-- Every other write of the list lies apart from this one. -/
def MWrite.Alone (w : MWrite) (ws : List MWrite) : Prop := ∀ v ∈ ws, v = w ∨ v.Apart w.addr w.data.length

theorem mem_insWrite {v w : MWrite} {l : List MWrite} : v ∈ insWrite w l ↔ v ∈ l ∨ v = w := by
  induction l with
  | nil => simp [insWrite]
  | cons p l ih =>
    unfold insWrite
    split
    · simp [or_comm]
    · simp [ih, or_assoc]

section
variable {k k' : Work} {x : Ctx} {ws : List MWrite} {a : MAddr} {n abs : Nat}

theorem Work.Free.stores (hk : k.Free x) : k.Stores k x [] :=
  ⟨rfl, rfl, rfl, rfl, by rw [hk.pend]; rfl, fun v => by rw [hk.pend]⟩

theorem Work.Stores.ecc (h : k'.Stores k x ws) : k'.s.ecc = k.s.ecc := by rw [h.rest]

theorem Work.Stores.mem (h : k'.Stores k x ws) : k'.s.mem = k.s.mem := by rw [h.rest]

/-- Work with the state of one that has stored. -/
theorem Work.Stores.of_state {k₁ : Work} (h : k₁.Stores k x ws) (hs : k'.SameState k₁) : k'.Stores k x ws := by
  obtain ⟨h1, h2, h3, h4, h5, h6⟩ := h
  rw [← hs.state] at h3 h4 h5 h6
  exact ⟨hs.recs.trans h1, hs.late.trans h2, h3, h4, h5, h6⟩

theorem Work.Stores.reaches (h : k'.Stores k x ws) {write : Bool} (hr : k.Reaches x a n write abs) :
    k'.Reaches x a n write abs := by
  refine ⟨hr.own, ?_, ?_, ?_⟩
  · rw [h.rest]
    exact hr.place
  · rw [h.rest]
    exact hr.bobbin
  · rw [h.core]
    exact hr.claims

/-- A reader sees no write that lies apart from what it reads. -/
theorem Work.Stores.readAt (h : k'.Stores k x ws) (hk : k.Free x) (hd : ∀ v ∈ ws, v.Apart abs n) (cyc : Nat) :
    k'.s.readAt x.c cyc abs n = k.s.readAt x.c cyc abs n := by
  rw [State.readAt_eq, State.readAt_eq]
  refine List.map_congr_left fun i hi => ?_
  rw [State.byteAt, State.byteAt, h.mem, hk.pend]
  refine landed_of_not_covers (fun v hv => ?_) _
  exact MWrite.not_covers_of_apart (hd v ((h.pend v).1 (List.mem_of_mem_filter hv))) (List.mem_range.1 hi)

/-- A read that meets nothing, of bytes apart from every write of the instruction. -/
theorem Work.Stores.readVia (h : k'.Stores k x ws) (hk : k.Free x) (hr : k.Reaches x a n false abs)
    (hd : ∀ v ∈ ws, v.Apart abs n) (ports : Nat → List Claim) (cyc : Nat) :
    ∃ k₂ : Work, k₂.Stores k x ws ∧ k'.readVia x ports a n cyc = .ok (k.s.readAt x.c cyc abs n, k₂) := by
  refine ⟨k'.didRead (ports (abs % 2 ^ 32)) (aSpace a) cyc, h.of_state ⟨rfl, rfl, rfl⟩, ?_⟩
  rw [(h.reaches hr).readVia (by rw [h.ecc, hk.ecc]; rfl), h.readAt hk hd]

theorem Work.Stores.read (h : k'.Stores k x ws) (hk : k.Free x) (hr : k.Reaches x a n false abs) (hd : ∀ v ∈ ws, v.Apart abs n)
    (cyc : Nat) : ∃ k₂ : Work, k₂.Stores k x ws ∧ k'.read x a n cyc = .ok (k.s.readAt x.c cyc abs n, k₂) :=
  h.readVia hk hr hd _ cyc

/-- One more write. -/
theorem Work.Stores.didWrite (h : k'.Stores k x ws) (hk : k.Free x) (ports : List Claim) (space : Nat) (d : List Byte)
    (land : Nat) : (k'.didWrite x ports space abs d land).Stores k x
      (ws ++ [{ land := land, addr := abs, data := d, eng := x.e.num }]) := by
  refine ⟨h.recs, h.late, ?_, ?_, ?_, fun v => ?_⟩
  · rw [Work.didWrite, State.clearEcc, show (k'.s.writeAt x.c land abs d x.e.num).ecc = [] by
      rw [State.writeAt, State.updCore, State.setCore, h.ecc, hk.ecc], State.writeAt, State.updCore, State.setCore]
    simp only [List.filter_nil]
    rw [h.rest, hk.ecc]
  · refine h.core.trans ?_
    have h2 := k'.core_didWrite x ports space abs d land
    unfold Core.Accessed
    rw [h2]
  · rw [Work.mpend_didWrite]
    exact landSorted_insWrite _ h.sorted
  · rw [Work.mpend_didWrite, mem_insWrite, h.pend]
    simp

theorem Work.Stores.writeVia (h : k'.Stores k x ws) (hk : k.Free x) (hr : k.Reaches x a n true abs) {d : List Byte}
    (hd : d.length = n) (ports : Nat → List Claim) (land : Nat) : ∃ k₂ : Work,
      k₂.Stores k x (ws ++ [{ land := land, addr := abs, data := d, eng := x.e.num }]) ∧ k'.writeVia x ports a d land = .ok k₂ :=
  ⟨_, h.didWrite hk _ _ d land, (h.reaches hr).writeVia hd ports land⟩

theorem Work.Stores.write (h : k'.Stores k x ws) (hk : k.Free x) (hr : k.Reaches x a n true abs) {d : List Byte}
    (hd : d.length = n) (land : Nat) : ∃ k₂ : Work,
      k₂.Stores k x (ws ++ [{ land := land, addr := abs, data := d, eng := x.e.num }]) ∧ k'.write x a d land = .ok k₂ :=
  h.writeVia hk hr hd _ land

/-- Pieces read in one cycle. -/
theorem Work.Stores.readPieces (h : k'.Stores k x ws) (hk : k.Free x) {ι : Type} (l : List ι) (g : ι → MAddr × Nat)
    (abs : ι → Nat) (hr : ∀ i ∈ l, k.Reaches x (g i).1 (g i).2 false (abs i))
    (hd : ∀ i ∈ l, ∀ v ∈ ws, v.Apart (abs i) (g i).2) (cyc : Nat) : ∃ k₂ : Work, k₂.Stores k x ws ∧
      k'.readPieces x (l.map g) cyc = .ok ((l.map fun i => k.s.readAt x.c cyc (abs i) (g i).2).flatten, k₂) := by
  obtain ⟨k₂, hk₂, heq⟩ := readPieces_ok l g abs (fun i hi => h.reaches (hr i hi))
    (fun i _ => by rw [h.ecc, hk.ecc]; rfl) cyc
  refine ⟨k₂, h.of_state hk₂, ?_⟩
  rw [heq, List.map_congr_left fun i hi => h.readAt hk (hd i hi) cyc]

/-- Without marked words there are no marks to copy (R101). -/
theorem Work.copyMarks_clear (h : k.s.ecc = []) (a b : MAddr) (n : Nat) : k.copyMarks x a b n = k := by
  have hmarks : k.marks x a n = [] := by
    unfold Work.marks State.marksAt
    rw [h]
    split <;> rfl
  unfold Work.copyMarks State.putMarks
  rw [hmarks]
  split <;> rfl

theorem Work.Stores.copyMarks (h : k'.Stores k x ws) (hk : k.Free x) (a b : MAddr) (n : Nat) : k'.copyMarks x a b n = k' :=
  Work.copyMarks_clear (h.ecc.trans hk.ecc) a b n

/-- A loop over the numbers below `n` keeps what each turn keeps. -/
theorem foldlM_range {σ : Type} {step : σ → Nat → Except Halt σ} (I : Nat → σ → Prop) {n : Nat}
    (hstep : ∀ i < n, ∀ a, I i a → ∃ b, I (i + 1) b ∧ step a i = .ok b) {a : σ} (h : I 0 a) :
    ∃ b, I n b ∧ (List.range n).foldlM step a = .ok b := by
  induction n with
  | zero => exact ⟨a, h, rfl⟩
  | succ n ih =>
    obtain ⟨b, hb, hfold⟩ := ih fun i hi => hstep i (Nat.lt_succ_of_lt hi)
    obtain ⟨d, hd, hlast⟩ := hstep n (Nat.lt_succ_self n) b hb
    refine ⟨d, hd, ?_⟩
    rw [List.range_succ, List.foldlM_append, hfold, ok_bind]
    simp only [List.foldlM_cons, List.foldlM_nil, hlast, ok_bind]
    rfl

/-- A loop whose every turn adds its own writes to those of some turns before it. -/
theorem foldlM_stores {ι : Type} (l : List ι) (step : Work → ι → Except Halt Work) (turn : ι → List MWrite)
    (hstep : ∀ i ∈ l, ∀ ws k₁, (∀ v ∈ ws, ∃ p ∈ l, v ∈ turn p) → Work.Stores k₁ k x ws →
      ∃ k₂ : Work, k₂.Stores k x (ws ++ turn i) ∧ step k₁ i = .ok k₂) (h : k'.Stores k x []) :
    ∃ k₂ : Work, k₂.Stores k x (l.flatMap turn) ∧ l.foldlM step k' = .ok k₂ := by
  have key : ∀ (l' : List ι) (ws : List MWrite) (k₁ : Work), (∀ i ∈ l', i ∈ l) → (∀ v ∈ ws, ∃ p ∈ l, v ∈ turn p) →
      k₁.Stores k x ws → ∃ k₂ : Work, k₂.Stores k x (ws ++ l'.flatMap turn) ∧ l'.foldlM step k₁ = .ok k₂ := by
    intro l'
    induction l' with
    | nil => exact fun ws k₁ _ _ h₁ => ⟨k₁, by simpa using h₁, rfl⟩
    | cons i l' ih =>
      intro ws k₁ hl hws h₁
      have hi := hl i List.mem_cons_self
      obtain ⟨k₂, h₂, heq⟩ := hstep i hi ws k₁ hws h₁
      obtain ⟨k₃, h₃, hrest⟩ := ih (ws ++ turn i) k₂ (fun p hp => hl p (List.mem_cons_of_mem _ hp))
        (fun v hv => (List.mem_append.1 hv).elim (hws v) fun hv => ⟨i, hi, hv⟩) h₂
      refine ⟨k₃, by simpa using h₃, ?_⟩
      rw [List.foldlM_cons, heq, ok_bind, hrest]
  simpa using key l [] k' (fun _ hi => hi) (fun _ hv => absurd hv List.not_mem_nil) h

end

/-! ### Issue -/

section
variable (i : Issued) (op : Nat) (plan : Bool) (hr : i.w.recs = []) (hl : i.w.late = [])
  (hf : (i.w.s.core i.x.c).faults = [])
include hr hl hf

/-- A reader in cycle `t` after the commit sees some writes of those that waited, and all that land before `t`. -/
theorem commit_lands (t : Nat) : ∃ l : List MWrite, (∀ v ∈ l, v ∈ (i.w.s.core i.x.c).mpend) ∧
    (∀ v ∈ (i.w.s.core i.x.c).mpend, v.land < t → v ∈ l) ∧
      ∀ n, (commit i op plan).byteAt i.x.c t n = landed l n (memByte i.w.s.mem n) := by
  obtain ⟨u, hu, hcommit⟩ := commit_eq_tidy i op plan hr hl
  have hcore := hu.core
  rw [State.core_updEngine_same] at hcore
  have hmem : u.mem = i.w.s.mem := by rw [hu.rest]; rfl
  have hpend : (u.core i.x.c).mpend = (i.w.s.core i.x.c).mpend := by rw [hcore]; exact Core.setEngine_mpend _ _ _
  have hfaults : (u.core i.x.c).faults = [] := by rw [hcore]; exact (Core.setEngine_faults _ _ _).trans hf
  obtain ⟨hsettled, hbytes⟩ := u.settle_eq i.x.c (u.core i.x.c).horizon
  rw [hpend] at hsettled hbytes
  refine ⟨((i.w.s.core i.x.c).mpend.filter fun w => decide (w.land < (u.core i.x.c).horizon)) ++
    ((i.w.s.core i.x.c).mpend.filter fun w => !decide (w.land < (u.core i.x.c).horizon)).filter fun w => decide (w.land < t),
    fun v hv => ?_, fun v hv hlt => ?_, fun n => ?_⟩
  · obtain hv | hv := List.mem_append.1 hv
    · exact List.mem_of_mem_filter hv
    · exact List.mem_of_mem_filter (List.mem_of_mem_filter hv)
  · by_cases hh : v.land < (u.core i.x.c).horizon
    · exact List.mem_append_left _ (List.mem_filter.2 ⟨hv, by simpa using hh⟩)
    · exact List.mem_append_right _ (List.mem_filter.2 ⟨List.mem_filter.2 ⟨hv, by simpa using hh⟩, by simpa using hlt⟩)
  · rw [hcommit, tidy_eq hfaults]
    refine (State.byteAt_updCore _ _ (by exact fun _ => rfl) _ _).trans ?_
    rw [State.byteAt, hsettled, hbytes, hmem, landed_append]

end

/-- Of the work of an instruction the state that it ends with: engine registers beside, the memory side is that of `k`. -/
structure Work.Ends (k'' k : Work) (x : Ctx) (q : Engine) : Prop where
  recs : k''.recs = k.recs
  late : k''.late = k.late
  mem : k''.s.mem = k.s.mem
  faults : (k''.s.core x.c).faults = (k.s.core x.c).faults
  pend : (k''.s.core x.c).mpend = (k.s.core x.c).mpend
  engine : ∃ aregs, k''.s.engine x.c x.e = { q with aregs := aregs }

theorem Work.ends_refl (k : Work) (x : Ctx) : k.Ends k x (k.s.engine x.c x.e) := ⟨rfl, rfl, rfl, rfl, rfl, _, rfl⟩

theorem Work.Ends.incA {k'' k : Work} {x : Ctx} {q : Engine} (h : k''.Ends k x q) (on : Bool) (i n : Nat) :
    (k''.incA x on i n).Ends k x q := by
  obtain ⟨aregs, hq⟩ := h.engine
  obtain ⟨regs, hengine, -⟩ := Work.engine_incA k'' x on i n
  exact ⟨(Work.recs_incA ..).trans h.recs, (Work.late_incA ..).trans h.late, (Work.mem_incA ..).trans h.mem,
    (Work.faults_incA ..).trans h.faults, (Work.mpend_incA ..).trans h.pend, regs, by rw [hengine, hq]⟩

theorem Work.Ends.incBoth {k'' k : Work} {x : Ctx} {q : Engine} (h : k''.Ends k x q) (on : Bool) (w : BitVec 48) (n : Nat) :
    (k''.incBoth x on w n).Ends k x q := (h.incA on _ n).incA _ _ n

section
variable {s : State} {c : CoreId} {e : Eng} {j : Job} {op : Nat} {plan : Bool} {body : Ctx → Work → Except Halt Issued}

/-- An instruction that ends with the writes `ws`: the queue has gone on, and a piece that stands alone among them is in memory
in the cycle after it lands, and once every write has landed. -/
structure Stored (s t : State) (c : CoreId) (e : Eng) (j : Job) (ws : List MWrite) : Prop where
  follow : Followed s t c e j
  readAt : ∀ w ∈ ws, w.Alone ws → t.readAt c.val (w.land + 1) w.addr w.data.length = w.data
  readNow : ∀ w ∈ ws, w.Alone ws → t.readNow c.val w.addr w.data.length = w.data

theorem map_landed_of_mem {l ws : List MWrite} (hsub : ∀ v ∈ l, v ∈ ws) {w : MWrite} (hw : w ∈ l) (ha : w.Alone ws)
    (f : Nat → Byte) : (List.range w.data.length).map (fun i => landed l (w.addr + i) (f (w.addr + i))) = w.data := by
  refine map_landed_of_alone hw rfl (fun v hv i hi hc => ?_) f
  exact (ha v (hsub v hv)).resolve_right fun hap => MWrite.not_covers_of_apart hap hi hc

theorem runInstr_stored (h : Ready s c e j) {k k'' : Work} {ws : List MWrite}
    (hk : k.Stores (s.work (s.head c e j).t) (s.head c e j) ws)
    (hends : k''.Ends k (s.head c e j) (k.s.engine c.val e))
    (hb : body (s.head c e j) (s.work (s.head c e j).t) = .ok (finish (s.head c e j) k'')) :
    Stored s (runInstr s c e op plan body) c e j ws := by
  have hcore : k.s.core c.val = _ := hk.core
  have hq : k.s.engine c.val e = s.engine c.val e := by
    rw [State.engine, State.engine, show (k.s.core c.val).engine e = _ from hk.core.engine e]
    rfl
  obtain ⟨aregs, hengine⟩ := hends.engine
  rw [hq] at hengine
  have hrecs := hends.recs.trans hk.recs
  have hlate := hends.late.trans hk.late
  have hfaults : (k''.s.core c.val).faults = [] := hends.faults.trans ((congrArg Core.faults hcore).trans h.faults)
  have key := engine_runInstr (op := op) (plan := plan) h hb rfl hrecs hlate hfaults hengine
  have hsub : ∀ v, v ∈ (k''.s.core c.val).mpend ↔ v ∈ ws := fun v => by
    rw [show (k''.s.core c.val).mpend = _ from hends.pend]
    exact hk.pend v
  refine ⟨moved_of_advance key, fun w hw ha => ?_, fun w hw ha => ?_⟩
  · obtain ⟨l, hl, hlt, hbytes⟩ := commit_lands (finish (s.head c e j) k'') op plan hrecs hlate hfaults (w.land + 1)
    rw [State.readAt_eq, runInstr_ok h hb le_rfl]
    refine (List.map_congr_left fun i _ => hbytes (w.addr + i)).trans ?_
    exact map_landed_of_mem (fun v hv => (hsub v).1 (hl v hv)) (hlt w ((hsub w).2 hw) (Nat.lt_succ_self _)) ha _
  · have hnow := (runInstr_bytes (op := op) (plan := plan) h hb (s.head_ofCore c e j) hrecs hlate hfaults
      ((congrArg Engine.mode hengine).trans h.running) ((congrArg landSorted hends.pend).trans hk.sorted)).2
    rw [State.readNow_eq]
    refine (List.map_congr_left fun i _ => hnow (w.addr + i)).trans ?_
    exact map_landed_of_mem (fun v hv => (hsub v).1 hv) ((hsub w).2 hw) ha _

end

end Sys2Proof.Machine
end


section
/-!
PROOFS. TCPY, TTILE and TSHUF within a core (R100, R102).
-/
namespace Sys2Proof.Machine

/-! ### Shuffles -/

theorem chunks_length {α : Type} {k : Nat} (hk : 0 < k) {n : Nat} {l : List α} (h : l.length = k * n) :
    (chunks k n l).length = n := by
  induction n generalizing l with
  | zero => rfl
  | succ n ih =>
    cases l with
    | nil =>
      have : 0 < k * (n + 1) := Nat.mul_pos hk (Nat.succ_pos n)
      simp at h
      omega
    | cons a l =>
      rw [chunks, List.length_cons, ih]
      · rw [List.length_drop, h, Nat.mul_succ, Nat.add_sub_cancel]
      · simp

@[simp] theorem shuffle8_length (g : List Byte) : (shuffle8 g).length = 16 := rfl
@[simp] theorem shuffle16_length (g : List Byte) : (shuffle16 g).length = 8 := rfl

/-- What TSHUF makes of a row. -/
def shufRow (half : Bool) (bs : List Byte) : List Byte :=
  if half then (chunks 8 32 bs).flatMap shuffle16 else (chunks 16 16 bs).flatMap shuffle8

theorem shufRow_length (half : Bool) {bs : List Byte} (h : bs.length = 256) : (shufRow half bs).length = 256 := by
  cases half
  · exact (flatMap_length_const shuffle8 shuffle8_length _).trans (by rw [chunks_length (by decide) h])
  · exact (flatMap_length_const shuffle16 shuffle16_length _).trans (by rw [chunks_length (by decide) h])

/-- What TTILE makes of a row or of a column (R102). -/
def tileRow (mode : Nat) (bs : List Byte) : List Byte :=
  match mode with
  | 2 => (List.range 4).flatMap fun t => ((chunks 16 16 bs).map shuffle8).flatMap fun g => (g.drop (4 * t)).take 4
  | 3 => (List.range 2).flatMap fun t => ((chunks 8 32 bs).map shuffle16).flatMap fun g => (g.drop (4 * t)).take 4
  | _ => bs

theorem flatMap_range_length {α : Type} (n : Nat) (f : Nat → List α) {k : Nat} (h : ∀ t < n, (f t).length = k) :
    ((List.range n).flatMap f).length = n * k := by
  rw [List.length_flatMap, List.map_congr_left fun t ht => h t (List.mem_range.1 ht)]
  simp

/-- One word out of each group of a row, of `n` groups. -/
theorem pick_length {f : List Byte → List Byte} {m t n : Nat} (hf : ∀ g, (f g).length = m) (ht : 4 * t + 4 ≤ m)
    {l : List (List Byte)} (hl : l.length = n) : ((l.map f).flatMap fun g => (g.drop (4 * t)).take 4).length = 4 * n := by
  rw [List.flatMap_map, flatMap_length_const _ fun b => ?_, hl]
  simp only [List.length_take, List.length_drop, hf]
  omega

theorem tileRow_length {mode : Nat} {bs : List Byte} (h : 2 ≤ mode → bs.length = 256) :
    (tileRow mode bs).length = bs.length := by
  unfold tileRow
  split
  · have hbs := h le_rfl
    rw [flatMap_range_length 4 _ (k := 4 * 16) fun t ht => ?_, hbs]
    exact pick_length shuffle8_length (by omega) (chunks_length (by decide) hbs)
  · have hbs := h (by decide)
    rw [flatMap_range_length 2 _ (k := 4 * 32) fun t ht => ?_, hbs]
    exact pick_length shuffle16_length (by omega) (chunks_length (by decide) hbs)
  · rfl

theorem tileRow_eq (mode : Nat) (bs : List Byte) : tileRow mode bs =
    if mode = 2 then (List.range 4).flatMap fun u => ((chunks 16 16 bs).map shuffle8).flatMap fun g => (g.drop (4 * u)).take 4
    else if mode = 3 then
      (List.range 2).flatMap fun u => ((chunks 8 32 bs).map shuffle16).flatMap fun g => (g.drop (4 * u)).take 4
    else bs := by
  unfold tileRow
  split
  · rfl
  · rfl
  · next h2 h3 => rw [if_neg (by simpa using h2), if_neg (by simpa using h3)]

/-! ### Addresses -/

/-- A place at an offset from a resolved address (R161). -/
theorem resolve_plus {s : State} {f : FnId} {a : MAddr} {n m k c d p q : Nat} (ha : s.resolve f a n = .ok (c, p))
    (hm : s.resolve f (plus a m) k = .ok (d, q)) (hlt : m < 2 ^ 31) : q = p + m := by
  obtain ⟨-, -, hoff, habs⟩ := resolve_ok ha
  obtain ⟨-, -, -, habs'⟩ := resolve_ok hm
  have hsize := spaceSize_le (aSpace a)
  obtain ⟨h1, h2, h3⟩ := aOff_add (a := a) (n := m) (by omega)
  rw [plus] at habs'
  rw [habs', habs, h1, h2, h3]
  unfold absAddr
  omega

theorem Work.moveCheck_ok {k : Work} {x : Ctx} (h : ((k.s.core x.c).engine x.e).upset = none) : k.moveCheck x = .ok () := by
  simp [Work.moveCheck, h, needF]

theorem gate_free {k : Work} {x : Ctx} (h : k.Ungated x) (rs : List Range) : gate x k rs = .ok (x, k) :=
  gate_open (fun r _ b hb => by rw [h.bobs] at hb; exact absurd hb List.not_mem_nil) h.read.le

/-! ### Equations -/

/-- The write of a turn that puts `d` at `dst`. -/
def Ctx.puts (x : Ctx) (l dst : Nat) (d : List Byte) : MWrite := { land := x.at l, addr := dst, data := d, eng := x.e.num }

section
variable {x : Ctx} {k : Work} (hk : k.Free x)
include hk

/-- A turn that reads `n` bytes and writes what `f` makes of them. -/
theorem Work.Stores.turn {k₁ : Work} {ws : List MWrite} (h : k₁.Stores k x ws) {a b : MAddr} {n n' src dst : Nat}
    {f : List Byte → List Byte} (ha : k.Reaches x a n false src) (hb : k.Reaches x b n' true dst)
    (hf : ∀ bs, bs.length = n → (f bs).length = n') (hd : ∀ v ∈ ws, v.Apart src n) (cyc l : Nat) :
    ∃ k₂ k₃ : Work, k₁.read x a n cyc = .ok (k.s.readAt x.c cyc src n, k₂) ∧
      k₂.write x b (f (k.s.readAt x.c cyc src n)) (x.at l) = .ok k₃ ∧
      k₃.Stores k x (ws ++ [x.puts l dst (f (k.s.readAt x.c cyc src n))]) := by
  obtain ⟨k₂, h₂, hread⟩ := h.read hk ha hd cyc
  obtain ⟨k₃, h₃, hwrite⟩ := h₂.write hk hb (hf _ (k.s.readAt_length _ _ _ _)) (x.at l)
  exact ⟨k₂, k₃, hread, hwrite, h₃⟩

/-- Rows read in cycle c + i, and written through `f` some cycles later, none of them where another is read; a turn may copy
marks at its end, of which there are none. -/
theorem copyRows_ok (f : List Byte → List Byte) {n n' rows l : Nat} (hf : ∀ bs, bs.length = n → (f bs).length = n')
    {a b : Nat → MAddr} {src dst : Nat → Nat} (hsrc : ∀ i < rows, k.Reaches x (a i) n false (src i))
    (hdst : ∀ i < rows, k.Reaches x (b i) n' true (dst i))
    (hapart : ∀ i < rows, ∀ r < rows, src i + n ≤ dst r ∨ dst r + n' ≤ src i) {last : Work → Nat → Work}
    (hlast : ∀ k i, k.s.ecc = [] → last k i = k) :
    ∃ k₂ : Work, k₂.Stores k x ((List.range rows).map fun i => x.puts (i + l) (dst i) (f (k.s.readAt x.c (x.at i) (src i) n))) ∧
      (List.range rows).foldlM (fun (k : Work) (i : Nat) => do
        let (bs, k) ← k.read x (a i) n (x.at i)
        let k ← k.write x (b i) (f bs) (x.at (i + l))
        pure (last k i)) k = .ok k₂ := by
  rw [List.map_eq_flatMap]
  refine foldlM_stores (List.range rows) _ _ (fun i hi ws k₁ hws h₁ => ?_) hk.stores
  have hi := List.mem_range.1 hi
  obtain ⟨k₂, k₃, hread, hwrite, h₃⟩ := h₁.turn hk (hsrc i hi) (hdst i hi) hf (fun v hv => by
    obtain ⟨p, hp, hvp⟩ := hws v hv
    obtain rfl := List.mem_singleton.1 hvp
    have hlen : (f (k.s.readAt x.c (x.at p) (src p) n)).length = n' := hf _ (k.s.readAt_length _ _ _ _)
    have := hapart i hi p (List.mem_range.1 hp)
    simp only [MWrite.Apart, Ctx.puts, hlen]
    omega) (x.at i) (i + l)
  refine ⟨k₃, h₃, ?_⟩
  simp only [hread, hwrite, ok_bind, hlast k₃ i (h₃.ecc.trans hk.ecc)]
  rfl

end

section
variable {m : Byte} {w : BitVec 48} {x : Ctx} {k : Work} (hk : k.Free x) (hr : k.Ungated x) {src dst : Nat → Nat}

/-- The source and destination addresses of a move, and its number of rows. -/
def moveSrc (w : BitVec 48) (x : Ctx) (k : Work) : MAddr := k.areg x (fld w 0 4)
def moveDst (w : BitVec 48) (x : Ctx) (k : Work) : MAddr := k.areg x (fld w 4 4)
def moveRows (w : BitVec 48) : Nat := fld w 8 8 + 1

/-- What TCPY and TSHUF of a row each ask of their addresses. -/
structure RowMove (w : BitVec 48) (x : Ctx) (k : Work) (src dst : Nat → Nat) : Prop where
  srcAligned : aOff (moveSrc w x k) % 256 = 0
  dstAligned : aOff (moveDst w x k) % 256 = 0
  srcSpace : aSpace (moveSrc w x k) = 1 ∨ aSpace (moveSrc w x k) = 2
  dstSpace : aSpace (moveDst w x k) = 1 ∨ aSpace (moveDst w x k) = 2
  srcAll : ∃ p, k.Reaches x (moveSrc w x k) (256 * moveRows w) false p
  dstAll : ∃ p, k.Reaches x (moveDst w x k) (256 * moveRows w) true p
  srcRow : ∀ i < moveRows w, k.Reaches x (plus (moveSrc w x k) (256 * i)) 256 false (src i)
  dstRow : ∀ i < moveRows w, k.Reaches x (plus (moveDst w x k) (256 * i)) 256 true (dst i)
  apart : ∀ i < moveRows w, ∀ r < moveRows w, src i + 256 ≤ dst r ∨ dst r + 256 ≤ src i

/-- The writes of a move row by row. -/
def rowWrites (w : BitVec 48) (x : Ctx) (k : Work) (src dst : Nat → Nat) (f : List Byte → List Byte) : List MWrite :=
  (List.range (moveRows w)).map fun i => x.puts (i + 5) (dst i) (f (k.s.readAt x.c (x.at i) (src i) 256))

variable (hm : RowMove w x k src dst)
include hk hr hm

theorem runTcpy_ok (hl : legalEng 0x60 m w = true) : ∃ k₂ : Work, k₂.Stores k x (rowWrites w x k src dst id) ∧
    runTcpy m w x k = .ok (finish x (k₂.incBoth x (bitAt w 17) w (256 * moveRows w))) := by
  obtain ⟨p, hp⟩ := hm.srcAll
  obtain ⟨q, hq⟩ := hm.dstAll
  obtain ⟨k₂, h₂, hloop⟩ := copyRows_ok hk id (l := 5) (fun _ h => h) hm.srcRow hm.dstRow hm.apart
    (last := fun k' i => k'.copyMarks x (plus (moveSrc w x k) (256 * i)) (plus (moveDst w x k) (256 * i)) 256)
    (fun _ _ he => Work.copyMarks_clear he _ _ _)
  refine ⟨k₂, h₂, ?_⟩
  have hspaces : ([1, 2].contains (aSpace (moveSrc w x k)) && [1, 2].contains (aSpace (moveDst w x k)) &&
      aligned (moveSrc w x k) 256 && aligned (moveDst w x k) 256) = true := by
    have h1 : aSpace (moveSrc w x k) ∈ [1, 2] := by simpa using hm.srcSpace
    have h2 : aSpace (moveDst w x k) ∈ [1, 2] := by simpa using hm.dstSpace
    simp [aligned, hm.srcAligned, hm.dstAligned, h1, h2]
  have hlocal : (aCore (moveSrc w x k) != x.c || aCore (moveDst w x k) != x.c) = false := by simp [hp.own, hq.own]
  have hplace := hp.place
  have hplace' := hq.place
  unfold moveRows at hplace hplace' hloop ⊢
  unfold moveSrc moveDst at *
  rw [runTcpy]
  simp only [needEng_ok hl, ok_bind, need_true hspaces, hplace, hplace', gate_free hr, hlocal]
  rw [need_true (by simp [hp.own])]
  simp only [ok_bind, Bool.false_and, Bool.false_eq_true, if_false]
  rw [copyLocal]
  simp only [id] at hloop
  rw [hloop]
  rfl

theorem runTshuf_ok (hl : legalEng 0x62 m w = true) (hu : ((k.s.core x.c).engine x.e).upset = none) :
    ∃ k₂ : Work, k₂.Stores k x (rowWrites w x k src dst (shufRow (bitAt w 16))) ∧
      runTshuf m w x k = .ok (finish x (k₂.incBoth x (bitAt w 17) w (256 * moveRows w))) := by
  obtain ⟨p, hp⟩ := hm.srcAll
  obtain ⟨q, hq⟩ := hm.dstAll
  obtain ⟨k₂, h₂, hloop⟩ := copyRows_ok hk (shufRow (bitAt w 16)) (l := 5) (fun _ h => shufRow_length _ h) hm.srcRow hm.dstRow
    hm.apart (last := fun k' _ => k') (fun _ _ _ => rfl)
  refine ⟨k₂, h₂, ?_⟩
  have h1 : aSpace (moveSrc w x k) ∈ [1, 2] := by simpa using hm.srcSpace
  have h2 : aSpace (moveDst w x k) ∈ [1, 2] := by simpa using hm.dstSpace
  have hspaces : (localAddr x (moveSrc w x k) [1, 2] && localAddr x (moveDst w x k) [1, 2] &&
      aligned (moveSrc w x k) 256 && aligned (moveDst w x k) 256) = true := by
    simp [aligned, hm.srcAligned, hm.dstAligned, localAddr_own hp.own h1, localAddr_own hq.own h2]
  unfold moveRows at hloop ⊢
  unfold moveSrc moveDst at *
  rw [runTshuf]
  simp only [needEng_ok hl, ok_bind, need_true hspaces, gate_free hr, Work.moveCheck_ok hu]
  unfold shufRow at hloop
  simp only [bind_pure] at hloop
  rw [hloop]
  rfl

end

/-! ### TTILE -/

/-- The tile of TTILE: its rows, columns, and row addresses (R102). -/
def tileRows (w : BitVec 48) : Nat := fld w 8 6 + 1
def tileCols (w : BitVec 48) : Nat := fld w 14 6 + 1
def tileSrc (w : BitVec 48) (x : Ctx) (k : Work) (r : Nat) : MAddr :=
  addA (moveSrc w x k) ((k.sreg x (fld w 22 5)).toInt * (r : Int))
def tileDst (w : BitVec 48) (x : Ctx) (k : Work) (r : Nat) : MAddr :=
  addA (moveDst w x k) ((k.sreg x (fld w 27 5)).toInt * (r : Int))

/-- What TTILE asks of its addresses in every mode. -/
structure TileMove (w : BitVec 48) (x : Ctx) (k : Work) : Prop where
  srcAligned : aOff (moveSrc w x k) % 256 = 0
  dstAligned : aOff (moveDst w x k) % 256 = 0
  srcPitch : (k.sreg x (fld w 22 5)).toNat % 256 = 0
  dstPitch : (k.sreg x (fld w 27 5)).toNat % 256 = 0
  srcOwn : aCore (moveSrc w x k) = x.c
  dstOwn : aCore (moveDst w x k) = x.c
  srcSpace : aSpace (moveSrc w x k) = 1 ∨ fld w 20 2 = 0 ∧ aSpace (moveSrc w x k) = 2
  dstSpace : aSpace (moveDst w x k) = 1 ∨ aSpace (moveDst w x k) = 2
  shape : 2 ≤ fld w 20 2 → tileRows w = 64 ∧ tileCols w = 64

/-- The turns of TTILE: a row each, or a column each. -/
def tileSteps (w : BitVec 48) : Nat := if fld w 20 2 = 0 then tileRows w else tileCols w
/-- The bytes that a turn of TTILE writes. -/
def tileWidth (w : BitVec 48) : Nat := 4 * if fld w 20 2 = 0 then tileCols w else tileRows w

/-- Every access lies at a place that the function may reach. -/
def TilePlaces (w : BitVec 48) (x : Ctx) (k : Work) (src dst : Nat → Nat) : Prop :=
  (∀ r < tileRows w, k.Reaches x (tileSrc w x k r) (4 * tileCols w) false (src r)) ∧
    ∀ r < tileSteps w, k.Reaches x (tileDst w x k r) (tileWidth w) true (dst r)

/-- The bytes of a column of the source. -/
def tileColumn (w : BitVec 48) (x : Ctx) (k : Work) (src : Nat → Nat) (i : Nat) : List Byte :=
  (List.range (tileRows w)).flatMap fun r => k.s.readAt x.c (x.at i) (src r + 4 * i) 4

theorem tileColumn_length (w : BitVec 48) (x : Ctx) (k : Work) (src : Nat → Nat) (i : Nat) :
    (tileColumn w x k src i).length = 4 * tileRows w := by
  rw [tileColumn, flatMap_length_const _ fun r => k.s.readAt_length _ _ _ _, List.length_range]

theorem tileRow_column_length {w : BitVec 48} {x : Ctx} {k : Work} (hm : TileMove w x k) (src : Nat → Nat) (i : Nat) :
    (tileRow (fld w 20 2) (tileColumn w x k src i)).length = 4 * tileRows w :=
  (tileRow_length fun h => (tileColumn_length ..).trans (by rw [(hm.shape h).1])).trans (tileColumn_length ..)

/-- Turn `j` of TTILE, with the addresses that the instruction has read in `k`. -/
def tileTurn (w : BitVec 48) (x : Ctx) (k k' : Work) (j : Nat) : Except Halt Work := do
  let (bs, k') ← (if fld w 20 2 = 0 then k'.read x (tileSrc w x k j) (4 * tileCols w) (x.at j)
    else k'.readPieces x ((List.range (tileRows w)).map fun r => (plus (tileSrc w x k r) (4 * j), 4)) (x.at j))
  let k' ← k'.write x (tileDst w x k j) (tileRow (fld w 20 2) bs) (x.at (j + 6))
  pure (match fld w 20 2 with
    | 0 => k'.copyMarks x (tileSrc w x k j) (tileDst w x k j) (4 * tileCols w)
    | 1 => (List.range (tileRows w)).foldl (fun (k' : Work) (r : Nat) =>
        k'.copyMarks x (plus (tileSrc w x k r) (4 * j)) (plus (tileDst w x k j) (4 * r)) 4) k'
    | _ => k')

/-- Without marks a turn ends with its write. -/
theorem tileTurn_eq {w : BitVec 48} {x : Ctx} {k k₁ k₂ k₃ : Work} {j : Nat} {bs : List Byte} (he : k₃.s.ecc = [])
    (hread : (if fld w 20 2 = 0 then k₁.read x (tileSrc w x k j) (4 * tileCols w) (x.at j)
      else k₁.readPieces x ((List.range (tileRows w)).map fun r => (plus (tileSrc w x k r) (4 * j), 4)) (x.at j)) = .ok (bs, k₂))
    (hwrite : k₂.write x (tileDst w x k j) (tileRow (fld w 20 2) bs) (x.at (j + 6)) = .ok k₃) :
    tileTurn w x k k₁ j = .ok k₃ := by
  unfold tileTurn
  simp only [hread, hwrite, ok_bind]
  refine congrArg Except.ok ?_
  split
  · exact Work.copyMarks_clear he _ _ _
  · induction List.range (tileRows w) with
    | nil => rfl
    | cons r l ih => rw [List.foldl_cons, Work.copyMarks_clear he, ih]
  · rfl

section
variable {m : Byte} {w : BitVec 48} {x : Ctx} {k : Work} (hk : k.Free x) (hr : k.Ungated x) {src dst : Nat → Nat}
  (hu : ((k.s.core x.c).engine x.e).upset = none) (hm : TileMove w x k) (hp : TilePlaces w x k src dst)
  (hl : legalEng 0x61 m w = true)
include hk hr hu hm hp hl

omit hk in
/-- TTILE is its loop once its checks have passed. -/
theorem runTtile_eq {k₂ : Work} (hloop : (List.range (tileSteps w)).foldlM (tileTurn w x k) k = .ok k₂) :
    runTtile m w x k = .ok (finish x k₂) := by
  have h1 : aSpace (moveSrc w x k) ∈ (if fld w 20 2 = 0 then [1, 2] else [1]) := by
    rcases hm.srcSpace with h | ⟨h, h'⟩
    · split <;> simp [h]
    · simp [h, h']
  have h2 : aSpace (moveDst w x k) ∈ [1, 2] := by simpa using hm.dstSpace
  have hspaces : (localAddr x (moveSrc w x k) (if fld w 20 2 = 0 then [1, 2] else [1]) && localAddr x (moveDst w x k) [1, 2] &&
      aligned (moveSrc w x k) 256 && aligned (moveDst w x k) 256 && (k.sreg x (fld w 22 5)).toNat % 256 == 0 &&
      (k.sreg x (fld w 27 5)).toNat % 256 == 0) = true := by
    simp [aligned, hm.srcAligned, hm.dstAligned, hm.srcPitch, hm.dstPitch, localAddr_own hm.srcOwn h1, localAddr_own hm.dstOwn h2]
  have hshape : (decide (fld w 20 2 < 2) || (tileRows w == 64 && tileCols w == 64)) = true := by
    by_cases h : fld w 20 2 < 2
    · simp [h]
    · obtain ⟨ha, hb⟩ := hm.shape (by omega)
      simp [ha, hb]
  obtain ⟨hps, hpd⟩ := hp
  unfold tileTurn tileRow tileSteps at hloop
  unfold tileSteps tileWidth at hpd
  unfold tileSrc tileDst tileRows tileCols at *
  unfold moveSrc moveDst at *
  rw [runTtile]
  simp only [needEng_ok hl, ok_bind, need_true hspaces, need_true hshape, gate_free hr, Work.moveCheck_ok hu]
  split
  · next d hd =>
    obtain ⟨p, hp', herr⟩ := List.exists_of_findSome?_eq_some hd
    rcases List.mem_append.1 hp' with hp' | hp'
    · obtain ⟨r, hr, rfl⟩ := List.mem_map.1 hp'
      rw [(hps r (List.mem_range.1 hr)).place] at herr
      exact absurd herr (Option.some_ne_none d).symm
    · obtain ⟨r, hr, rfl⟩ := List.mem_map.1 hp'
      rw [(hpd r (List.mem_range.1 hr)).place] at herr
      exact absurd herr (Option.some_ne_none d).symm
  · have hdone := Eq.trans (congrArg (fun r => r >>= fun k => pure (finish x k)) hloop) (ok_bind k₂ _)
    split
    · exact hdone
    · exact hdone

/-- The writes of TTILE row by row. -/
def tileCopyWrites (w : BitVec 48) (x : Ctx) (k : Work) (src dst : Nat → Nat) : List MWrite :=
  (List.range (tileRows w)).map fun r => x.puts (r + 6) (dst r) (k.s.readAt x.c (x.at r) (src r) (4 * tileCols w))

theorem runTtile_copy (h0 : fld w 20 2 = 0)
    (hapart : ∀ r < tileRows w, ∀ r' < tileRows w, src r + 4 * tileCols w ≤ dst r' ∨ dst r' + 4 * tileCols w ≤ src r) :
    ∃ k₂ : Work, k₂.Stores k x (tileCopyWrites w x k src dst) ∧ runTtile m w x k = .ok (finish x k₂) := by
  have hsteps : tileSteps w = tileRows w := if_pos h0
  have hwidth : tileWidth w = 4 * tileCols w := by rw [tileWidth, if_pos h0]
  have hdst := hp.2
  rw [hsteps, hwidth] at hdst
  refine Exists.imp (fun k₂ h₂ => ⟨h₂.1, runTtile_eq hr hu hm hp hl h₂.2⟩) (?_ : ∃ k₂ : Work, _ ∧ _)
  rw [hsteps, tileCopyWrites, List.map_eq_flatMap]
  refine foldlM_stores (List.range (tileRows w)) _ _ (fun i hi ws k₁ hws h₁ => ?_) hk.stores
  have hi := List.mem_range.1 hi
  obtain ⟨k₂, k₃, hread, hwrite, h₃⟩ := h₁.turn hk (f := id) (hp.1 i hi) (hdst i hi) (fun _ h => h) (fun v hv => by
    obtain ⟨p, hp, hvp⟩ := hws v hv
    obtain rfl := List.mem_singleton.1 hvp
    have := hapart i hi p (List.mem_range.1 hp)
    simp only [MWrite.Apart, Ctx.puts, State.readAt_length]
    omega) (x.at i) (i + 6)
  refine ⟨k₃, h₃, tileTurn_eq (h₃.ecc.trans hk.ecc) ((if_pos h0).trans hread) ?_⟩
  rw [h0]
  exact hwrite

/-- The writes of TTILE column by column. -/
def tileColumnWrites (w : BitVec 48) (x : Ctx) (k : Work) (src dst : Nat → Nat) : List MWrite :=
  (List.range (tileCols w)).map fun i => x.puts (i + 6) (dst i) (tileRow (fld w 20 2) (tileColumn w x k src i))

theorem runTtile_columns (h0 : fld w 20 2 ≠ 0)
    (hpieces : ∀ r < tileRows w, ∀ i < tileCols w, k.Reaches x (plus (tileSrc w x k r) (4 * i)) 4 false (src r + 4 * i))
    (hapart : ∀ r < tileRows w, ∀ i < tileCols w, src r + 4 * tileCols w ≤ dst i ∨ dst i + 4 * tileRows w ≤ src r) :
    ∃ k₂ : Work, k₂.Stores k x (tileColumnWrites w x k src dst) ∧ runTtile m w x k = .ok (finish x k₂) := by
  have hsteps : tileSteps w = tileCols w := if_neg h0
  have hwidth : tileWidth w = 4 * tileRows w := by rw [tileWidth, if_neg h0]
  have hdst := hp.2
  rw [hsteps, hwidth] at hdst
  have hlen := tileRow_column_length hm src
  refine Exists.imp (fun k₂ h₂ => ⟨h₂.1, runTtile_eq hr hu hm hp hl h₂.2⟩) (?_ : ∃ k₂ : Work, _ ∧ _)
  rw [hsteps, tileColumnWrites, List.map_eq_flatMap]
  refine foldlM_stores (List.range (tileCols w)) _ _ (fun i hi ws k₁ hws h₁ => ?_) hk.stores
  have hi := List.mem_range.1 hi
  obtain ⟨k₂, h₂, hread⟩ := h₁.readPieces hk (List.range (tileRows w)) (fun r => (plus (tileSrc w x k r) (4 * i), 4))
    (fun r => src r + 4 * i) (fun r hr => hpieces r (List.mem_range.1 hr) i hi) (fun r hr v hv => by
      obtain ⟨p, hp, hvp⟩ := hws v hv
      obtain rfl := List.mem_singleton.1 hvp
      have := hapart r (List.mem_range.1 hr) p (List.mem_range.1 hp)
      have := hlen p
      simp only [MWrite.Apart, Ctx.puts, this]
      omega) (x.at i)
  rw [← List.flatMap_def] at hread
  obtain ⟨k₃, h₃, hwrite⟩ := h₂.write hk (hdst i hi) (hlen i) (x.at (i + 6))
  exact ⟨k₃, h₃, tileTurn_eq (h₃.ecc.trans hk.ecc) ((if_neg h0).trans hread) hwrite⟩

end

/-! ### The obligation -/

/-- After a loop whose writes lie apart each of them is in memory. -/
theorem Stored.turn {s t : State} {c : CoreId} {e : Eng} {j : Job} {x : Ctx} {n size : Nat} {l dst : Nat → Nat}
    {d : Nat → List Byte} (h : Stored s t c e j ((List.range n).map fun i => x.puts (l i) (dst i) (d i)))
    (hlen : ∀ i < n, (d i).length = size)
    (hapart : ∀ i < n, ∀ r < n, i ≠ r → dst i + size ≤ dst r ∨ dst r + size ≤ dst i) {i : Nat} (hi : i < n) :
    t.readAt c.val (x.at (l i) + 1) (dst i) size = d i ∧ t.readNow c.val (dst i) size = d i := by
  have hmem : x.puts (l i) (dst i) (d i) ∈ (List.range n).map fun i => x.puts (l i) (dst i) (d i) :=
    List.mem_map.2 ⟨i, List.mem_range.2 hi, rfl⟩
  have halone : (x.puts (l i) (dst i) (d i)).Alone ((List.range n).map fun i => x.puts (l i) (dst i) (d i)) := by
    intro v hv
    obtain ⟨r, hr, rfl⟩ := List.mem_map.1 hv
    have hr := List.mem_range.1 hr
    by_cases h : i = r
    · exact .inl (by rw [h])
    · right
      have := hapart i hi r hr h
      simp only [MWrite.Apart, Ctx.puts, hlen i hi, hlen r hr]
      omega
  have hat := h.readAt _ hmem halone
  have hnow := h.readNow _ hmem halone
  rw [show (x.puts (l i) (dst i) (d i)).data.length = size from hlen i hi] at hat hnow
  exact ⟨hat, hnow⟩

/-- Rows at addresses 256 bytes apart lie apart. -/
theorem RowMove.dst_apart {w : BitVec 48} {x : Ctx} {k : Work} {src dst : Nat → Nat} (h : RowMove w x k src dst) :
    ∀ i < moveRows w, ∀ r < moveRows w, i ≠ r → dst i + 256 ≤ dst r ∨ dst r + 256 ≤ dst i := by
  obtain ⟨p, hp⟩ := h.dstAll
  have hrows : moveRows w ≤ 256 := by
    have : fld w 8 8 < 256 := Nat.mod_lt _ (by decide)
    unfold moveRows
    omega
  intro i hi r hr hne
  have h1 := resolve_plus hp.place (h.dstRow i hi).place (by omega)
  have h2 := resolve_plus hp.place (h.dstRow r hr).place (by omega)
  omega

/-- Settles O16: the equation of each instruction gives its writes, each of which stands alone among them. -/
theorem localMoves : Obligations.LocalMoves := by
  intro s c j m w src dst h hcl hw he hb x a b rows ps pd hh v tileS tileD
  have hfree : (s.work x.t).Free x := Work.free_of_ready hcl hw he
  have hbase : ∀ (a : MAddr) (p : W32), addA a (p.toInt * ((0 : Nat) : Int)) = a := fun a p => by simp [addA]
  refine ⟨fun ha1 hb1 ha2 hb2 hsa hsb hrows hapart => ?rows, fun hl ha1 hb1 hps hpd => ⟨fun h0 hsa hsb hplain hapart hdst => ?copy,
    fun h0 hshape hsa hsb hsrc hpieces hdst hapart hdsts => ?columns⟩⟩
  case rows =>
    have hm : RowMove w x (s.work x.t) src dst := ⟨ha1, hb1, ha2, hb2, hsa.imp fun p hp => hp.reaches hcl,
      hsb.imp fun p hp => hp.reaches hcl, fun i hi => (hrows i hi).1.reaches hcl, fun i hi => (hrows i hi).2.reaches hcl, hapart⟩
    refine ⟨fun hl => ?_, fun hl => ?_⟩
    · obtain ⟨k₂, h₂, hrun⟩ := runTcpy_ok hfree ⟨rfl, hb⟩ hm hl
      have done := runInstr_stored (op := 0x60) (plan := false) h h₂ ((k₂.ends_refl x).incBoth _ _ _) hrun
      exact ⟨_, rfl, done.follow, fun i hi => (done.turn (fun i _ => s.readAt_length _ _ _ _) hm.dst_apart hi).1⟩
    · obtain ⟨k₂, h₂, hrun⟩ := runTshuf_ok hfree ⟨rfl, hb⟩ hm hl h.upset
      have done := runInstr_stored (op := 0x62) (plan := false) h h₂ ((k₂.ends_refl x).incBoth _ _ _) hrun
      exact ⟨_, rfl, done.follow, fun i hi =>
        (done.turn (fun i _ => shufRow_length _ (s.readAt_length _ _ _ _)) hm.dst_apart hi).1⟩
  case copy =>
    have hown := hplain 0 (Nat.succ_pos _)
    have hm : TileMove w x (s.work x.t) := ⟨ha1, hb1, hps, hpd, (congrArg aCore (hbase a ps)).symm.trans hown.1.own,
      (congrArg aCore (hbase b pd)).symm.trans hown.2.own,
      hsa.imp id fun h => ⟨h0, h⟩, hsb, fun h => absurd h (by omega)⟩
    have hp : TilePlaces w x (s.work x.t) src dst := by
      rw [TilePlaces, tileSteps, tileWidth, if_pos h0, if_pos h0]
      exact ⟨fun r hr => (hplain r hr).1.reaches hcl, fun r hr => (hplain r hr).2.reaches hcl⟩
    obtain ⟨k₂, h₂, hrun⟩ := runTtile_copy hfree ⟨rfl, hb⟩ h.upset hm hp hl h0 hapart
    have done := runInstr_stored (op := 0x61) (plan := false) h h₂ (k₂.ends_refl x) hrun
    exact ⟨_, rfl, done.follow, fun r hr => (done.turn (fun i _ => s.readAt_length _ _ _ _) hdst hr).1⟩
  case columns =>
    have hm : TileMove w x (s.work x.t) := ⟨ha1, hb1, hps, hpd, (congrArg aCore (hbase a ps)).symm.trans (hsrc 0 (Nat.succ_pos _)).own,
      (congrArg aCore (hbase b pd)).symm.trans (hdst 0 (Nat.succ_pos _)).own, .inl hsa, hsb, hshape⟩
    have hp : TilePlaces w x (s.work x.t) src dst := by
      rw [TilePlaces, tileSteps, tileWidth, if_neg h0, if_neg h0]
      exact ⟨fun r hr => (hsrc r hr).reaches hcl, fun r hr => (hdst r hr).reaches hcl⟩
    obtain ⟨k₂, h₂, hrun⟩ := runTtile_columns hfree ⟨rfl, hb⟩ h.upset hm hp hl h0
      (fun r hr i hi => (hpieces r hr i hi).reaches hcl) hapart
    have done := runInstr_stored (op := 0x61) (plan := false) h h₂ (k₂.ends_refl x) hrun
    refine ⟨_, rfl, done.follow, fun i hi => ?_⟩
    exact (done.turn (fun i _ => tileRow_column_length hm src i) hdsts hi).1.trans (tileRow_eq _ _)

end Sys2Proof.Machine
end


section
/-!
PROOFS. TCVT and TQNT (R49, R50, R103): how many bytes a row has, and an equation for each instruction.
-/
namespace Sys2Proof.Machine

/-! ### Lengths -/

theorem chunks_length_ceil {α : Type} {k : Nat} (hk : 0 < k) {n : Nat} {l : List α} (h : ceilDiv l.length k ≤ n) :
    (chunks k n l).length = ceilDiv l.length k := by
  induction n generalizing l with
  | zero => exact (Nat.le_zero.1 h).symm
  | succ n ih =>
    cases l with
    | nil => simp [chunks, ceilDiv, Nat.div_eq_of_lt, hk]
    | cons a l =>
      have hceil : ceilDiv (a :: l).length k = ceilDiv ((a :: l).drop k).length k + 1 := by
        simp only [ceilDiv, List.length_drop, List.length_cons]
        rcases Nat.lt_or_ge l.length k with hlt | hge
        · rw [show l.length + 1 - k = 0 by omega, show l.length + 1 + k - 1 = l.length + k by omega, Nat.add_div_right _ hk,
            Nat.div_eq_of_lt hlt, Nat.div_eq_of_lt (by omega)]
        · rw [show l.length + 1 + k - 1 = l.length + 1 - k + k - 1 + k by omega, Nat.add_div_right _ hk]
      rw [chunks, List.length_cons, ih (by omega), hceil]
      exact fun h => by simp at h

theorem mem_chunks_length {α : Type} {k n : Nat} {l : List α} (h : k ∣ l.length) {q : List α} (hq : q ∈ chunks k n l) :
    q.length = k := by
  induction n generalizing l with
  | zero => exact absurd hq List.not_mem_nil
  | succ n ih =>
    cases l with
    | nil => exact absurd hq List.not_mem_nil
    | cons a l =>
      have hle : k ≤ (a :: l).length := Nat.le_of_dvd (Nat.succ_pos _) h
      obtain rfl | hq := List.mem_cons.1 hq
      · rw [List.length_take, min_eq_left hle]
      · refine ih ?_ hq
        rw [List.length_drop]
        exact Nat.dvd_sub h (dvd_refl k)

/-- Elements in `n` bytes. -/
def elemsIn (bits n : Nat) : Nat := if bits = 4 then 2 * n else if bits = 6 then 4 * ceilDiv n 3 else ceilDiv n (bits / 8)

theorem ceilDiv_le_self {a b : Nat} (h : 0 < b) : ceilDiv a b ≤ a := by
  unfold ceilDiv
  obtain ⟨b, rfl⟩ : ∃ c, b = c + 1 := ⟨b - 1, by omega⟩
  refine Nat.le_of_lt_succ (Nat.div_lt_of_lt_mul ?_)
  rw [show a + (b + 1) - 1 = a + b from rfl, Nat.succ_eq_add_one]
  nlinarith [Nat.zero_le (a * b)]

theorem unpack_length {bits : Nat} (hb : 8 ≤ bits ∨ bits = 4 ∨ bits = 6) (bs : List Byte) :
    (unpack bits bs).length = elemsIn bits bs.length := by
  unfold unpack elemsIn
  split_ifs with h4 h6
  · exact flatMap_length_const (n := 2) _ (fun _ => rfl) bs
  · rw [flatMap_length_const (n := 4) _ fun _ => rfl, chunks_length_ceil (by decide)]
    unfold ceilDiv
    omega
  · have hpos : 0 < bits / 8 := by omega
    rw [List.length_map, chunks_length_ceil hpos ((ceilDiv_le_self hpos).trans (Nat.le_succ _))]

/-- Elements of a row of 256 bytes (R103). -/
def rowCount (fmt : Nat) : Nat := if fmtBits fmt = 6 then 256 else 2048 / fmtBits fmt

theorem rowElems_length {fmt : Nat} (hf : fmt ≤ 8) {row : List Byte} (h : row.length = 256) :
    (rowElems fmt row).length = rowCount fmt := by
  unfold rowElems rowCount
  split_ifs with h6
  · rw [List.length_flatMap, List.map_congr_left (g := fun _ => 64) fun q hq => ?_]
    · rw [List.map_const', chunks_length (by decide) h]
      rfl
    · have hq := mem_chunks_length (by rw [h]; decide) hq
      rw [unpack_length (.inr (.inr rfl)), List.length_take, hq]
      rfl
  · rw [unpack_length (by interval_cases fmt <;> simp [fmtBits] at h6 ⊢), h]
    interval_cases fmt <;> simp [fmtBits, elemsIn, ceilDiv] at h6 ⊢

/-- Bytes of `n` elements of a format as a move writes them (R103). -/
def rowSize (fmt n : Nat) : Nat := if fmtBits fmt = 6 then 64 * ceilDiv n 64 else n * fmtBits fmt / 8

theorem outBytes_length {fmt : Nat} (hf : fmt ≤ 8) {l : List Nat} (h : l.length % 2 = 0) :
    (outBytes fmt l).length = rowSize fmt l.length := by
  unfold outBytes rowSize
  split_ifs with h6
  · rw [flatMap_length_const _ fun q => padTo_length 64 0 _,
      chunks_length_ceil (by decide) ((ceilDiv_le_self (by decide)).trans (Nat.le_succ _))]
  · unfold pack
    split_ifs with h4
    · rw [List.length_map, chunks_length_ceil (by decide) ((ceilDiv_le_self (by decide)).trans (Nat.le_succ _)), h4]
      unfold ceilDiv
      omega
    · rw [flatMap_length_const _ fun v => leBytes_length _ v]
      generalize l.length = n
      interval_cases fmt <;> simp [fmtBits] at h4 h6 ⊢ <;> omega

/-! ### Rows in pieces -/

/-- A range read in pieces of 256 bytes, the last of which may be shorter. -/
theorem readNow_pieces {s : State} {c a n : Nat} {d : List Byte} (hd : d.length = n)
    (h : ∀ p < ceilDiv n 256, s.readNow c (a + 256 * p) (min 256 (n - 256 * p)) = (d.drop (256 * p)).take 256) :
    s.readNow c a n = d := by
  rw [State.readNow_eq]
  refine List.ext_getElem (by simp [hd]) fun i hi hi' => ?_
  have hlt : i < n := by simpa using hi
  have hp : i / 256 < ceilDiv n 256 := by
    unfold ceilDiv
    omega
  have hpiece := h (i / 256) hp
  rw [State.readNow_eq] at hpiece
  have hin : i % 256 < min 256 (n - 256 * (i / 256)) := by omega
  have hget := congrArg (fun l => l[i % 256]?) hpiece
  simp only [List.getElem?_map, List.getElem?_range hin, Option.map_some, List.getElem?_take, List.getElem?_drop,
    Nat.mod_lt i (show 0 < 256 by decide), if_true] at hget
  rw [show a + 256 * (i / 256) + i % 256 = a + i by omega, show 256 * (i / 256) + i % 256 = i by omega,
    List.getElem?_eq_getElem hi', Option.some.injEq] at hget
  rw [List.getElem_map, List.getElem_range]
  exact hget

/-- The pieces of a list whose last one may be shorter. -/
theorem chunks_eq_map {α : Type} {k : Nat} (hk : 0 < k) {n : Nat} {l : List α} (h : ceilDiv l.length k = n) :
    chunks k n l = (List.range n).map fun p => (l.drop (k * p)).take k := by
  induction n generalizing l with
  | zero => rfl
  | succ n ih =>
    cases l with
    | nil =>
      rw [List.length_nil, ceilDiv, Nat.zero_add, Nat.div_eq_of_lt (by omega)] at h
      exact absurd h.symm (Nat.succ_ne_zero n)
    | cons a l =>
      have hdrop : ceilDiv ((a :: l).drop k).length k = n := by
        simp only [ceilDiv, List.length_drop, List.length_cons] at h ⊢
        rcases Nat.lt_or_ge l.length k with hlt | hge
        · rw [show l.length + 1 + k - 1 = l.length + k by omega, Nat.add_div_right _ hk, Nat.div_eq_of_lt hlt] at h
          rw [show l.length + 1 - k = 0 by omega, Nat.div_eq_of_lt (by omega)]
          omega
        · rw [show l.length + 1 + k - 1 = l.length + 1 - k + k - 1 + k by omega, Nat.add_div_right _ hk] at h
          omega
      rw [chunks, ih hdrop, List.range_succ_eq_map, List.map_cons, List.map_map]
      · simp only [Nat.mul_zero, List.drop_zero, List.cons.injEq, true_and]
        refine List.map_congr_left fun p _ => ?_
        simp only [Function.comp, List.drop_drop]
        rw [Nat.mul_succ, Nat.add_comm]
      · exact fun h => by simp at h

theorem zipIdx_map_range {α : Type} (f : Nat → α) (n : Nat) :
    ((List.range n).map f).zipIdx = (List.range n).map fun i => (f i, i) := by
  apply List.ext_getElem <;> simp

/-! ### TCVT -/

/-- Elements, bytes of output and cycles of a row of TCVT (R103). -/
def cvtElems (fs : Nat) : Nat := if fs = 9 then 8 else if fmtBits fs = 6 then 256 else 2048 / fmtBits fs
def cvtSize (fs fd : Nat) : Nat := if fmtBits fd = 6 then 64 * ceilDiv (cvtElems fs) 64 else cvtElems fs * fmtBits fd / 8
def cvtPace (fs fd : Nat) : Nat := max 1 (cvtSize fs fd / 256)

/-- The output of a row fills whole pieces of 256 bytes, or is one shorter piece. -/
theorem cvt_shape : ∀ fs ≤ 9, ∀ fd ≤ 8, cvtElems fs % 2 = 0 ∧ ceilDiv (cvtSize fs fd) 256 = cvtPace fs fd ∧
    ∀ p < cvtPace fs fd, min 256 (cvtSize fs fd - 256 * p) = min 256 (cvtSize fs fd) ∧
      256 * p + min 256 (cvtSize fs fd) ≤ cvtSize fs fd := by decide

/-- The elements of a source row of TCVT. -/
def cvtVals (fs : Nat) (bs : List Byte) : List Nat :=
  if fs = 9 then (chunks 32 8 bs).map fun g => leNat (g.take 24) else rowElems fs bs

theorem cvtVals_length {fs : Nat} (hf : fs ≤ 9) {bs : List Byte} (h : bs.length = 256) :
    (cvtVals fs bs).length = cvtElems fs := by
  unfold cvtVals cvtElems
  split_ifs with h9 h6
  · rw [List.length_map, chunks_length (by decide) h]
  · rw [rowElems_length (by omega) h, rowCount, if_pos h6]
  · rw [rowElems_length (by omega) h, rowCount, if_neg h6]

/-- What TCVT makes of the elements of row `i`, and the bytes that it writes of them. -/
def cvtOut (m : Byte) (w : BitVec 48) (x : Ctx) (k : Work) (i : Nat) (bs : List Byte) : List (Option Rounded) :=
  (cvtVals (fld w 16 4) bs).zipIdx.map fun v =>
    cvtElem (fld w 16 4) (fld w 20 4) (sext 10 (k.sreg x (fld w 29 5)).toNat) m (k.sreg64 x (fld w 24 5))
      (k.sreg64 x (fld w 24 5 + 2) + BitVec.ofNat 64 (i * cvtElems (fld w 16 4) + v.2)) v.1
def cvtBytes (m : Byte) (w : BitVec 48) (x : Ctx) (k : Work) (i : Nat) (bs : List Byte) : List Byte :=
  outBytes (fld w 20 4) ((cvtOut m w x k i bs).filterMap fun r => r.map Rounded.bits)

theorem filterMap_length_of_isSome {α β : Type} {f : α → β} {l : List (Option α)} (h : ∀ v ∈ l, v.isSome = true) :
    (l.filterMap fun r => r.map f).length = l.length := by
  induction l with
  | nil => rfl
  | cons a l ih =>
    obtain ⟨v, rfl⟩ := Option.isSome_iff_exists.1 (h a List.mem_cons_self)
    simp [ih fun v hv => h v (List.mem_cons_of_mem _ hv)]

theorem cvtBytes_length {m : Byte} {w : BitVec 48} {x : Ctx} {k : Work} {i : Nat} {bs : List Byte} (hs : fld w 16 4 ≤ 9)
    (hd : fld w 20 4 ≤ 8) (hb : bs.length = 256) (h : ∀ v ∈ cvtOut m w x k i bs, v.isSome = true) :
    (cvtBytes m w x k i bs).length = cvtSize (fld w 16 4) (fld w 20 4) := by
  have hlen : ((cvtOut m w x k i bs).filterMap fun r => r.map Rounded.bits).length = cvtElems (fld w 16 4) := by
    rw [filterMap_length_of_isSome h, cvtOut, List.length_map, List.length_zipIdx, cvtVals_length hs hb]
  rw [cvtBytes, outBytes_length hd (by rw [hlen]; exact (cvt_shape _ hs _ hd).1), hlen]
  rfl

/-- A turn of TCVT, with the registers that the instruction has read in `k`. -/
def cvtTurn (m : Byte) (w : BitVec 48) (x : Ctx) (k k' : Work) (i : Nat) : Except Halt Work := do
  let t := cvtPace (fld w 16 4) (fld w 20 4) * i
  let (bs, k') ← k'.read x (plus (moveSrc w x k) (256 * i)) 256 (x.at t)
  if (cvtOut m w x k i bs).any fun r => r.isNone then .error (.stop .accumRange 0x02 (some k'))
  else
    let rs := (cvtOut m w x k i bs).filterMap id
    let k' := k'.ev 0x07 (x.at (t + 6)) 1 (rs.filter fun r => r.overflow).length
    ((chunks 256 (cvtPace (fld w 16 4) (fld w 20 4)) (outBytes (fld w 20 4) (rs.map fun r => r.bits))).zipIdx).foldlM
      (fun (k' : Work) p => k'.write x (plus (moveDst w x k) (cvtSize (fld w 16 4) (fld w 20 4) * i + 256 * p.2)) p.1
        (x.at (t + 6 + p.2))) k'

/-- What TCVT asks of its addresses. -/
structure CvtMove (w : BitVec 48) (x : Ctx) (k : Work) (src dst : Nat → Nat) : Prop where
  grade : k.s.fuses.grade = .f
  srcSpace : if fld w 16 4 = 9 then aSpace (moveSrc w x k) = 2 else aSpace (moveSrc w x k) = 1 ∨ aSpace (moveSrc w x k) = 2
  dstSpace : aSpace (moveDst w x k) = 1 ∨ aSpace (moveDst w x k) = 2
  srcAligned : aOff (moveSrc w x k) % 256 = 0
  dstAligned : aOff (moveDst w x k) % 64 = 0
  srcRow : ∀ i < moveRows w, k.Reaches x (plus (moveSrc w x k) (256 * i)) 256 false (src i)
  dstOwn : aCore (moveDst w x k) = x.c
  dstPiece : ∀ i < moveRows w, ∀ p < cvtPace (fld w 16 4) (fld w 20 4),
    k.Reaches x (plus (moveDst w x k) (cvtSize (fld w 16 4) (fld w 20 4) * i + 256 * p))
      (min 256 (cvtSize (fld w 16 4) (fld w 20 4))) true (dst i + 256 * p)
  srcApart : ∀ i < moveRows w, ∀ r < moveRows w,
    src i + 256 ≤ dst r ∨ dst r + cvtSize (fld w 16 4) (fld w 20 4) ≤ src i
  dstApart : ∀ i < moveRows w, ∀ r < moveRows w, i ≠ r →
    dst i + cvtSize (fld w 16 4) (fld w 20 4) ≤ dst r ∨ dst r + cvtSize (fld w 16 4) (fld w 20 4) ≤ dst i

/-- The bytes that TCVT makes of row `i`, from the address `src i` on. -/
def cvtRow (m : Byte) (w : BitVec 48) (x : Ctx) (k : Work) (src : Nat → Nat) (i : Nat) : List Byte :=
  cvtBytes m w x k i (k.s.readAt x.c (x.at (cvtPace (fld w 16 4) (fld w 20 4) * i)) (src i) 256)

/-- The writes of a row of TCVT, piece by piece. -/
def cvtPiece (m : Byte) (w : BitVec 48) (x : Ctx) (k : Work) (src dst : Nat → Nat) (i p : Nat) : MWrite :=
  x.puts (cvtPace (fld w 16 4) (fld w 20 4) * i + 6 + p) (dst i + 256 * p) (((cvtRow m w x k src i).drop (256 * p)).take 256)
def cvtWrites (m : Byte) (w : BitVec 48) (x : Ctx) (k : Work) (src dst : Nat → Nat) (i : Nat) : List MWrite :=
  (List.range (cvtPace (fld w 16 4) (fld w 20 4))).map (cvtPiece m w x k src dst i)

section
variable {m : Byte} {w : BitVec 48} {x : Ctx} {k : Work} (hk : k.Free x) (hr : k.Ungated x) {src dst : Nat → Nat}
  (hu : ((k.s.core x.c).engine x.e).upset = none) (hm : CvtMove w x k src dst)

theorem legal_cvt (hl : legalEng 0x63 m w = true) : fld w 16 4 ≤ 9 ∧ fld w 20 4 ≤ 8 := by
  simp only [legalEng, Bool.and_eq_true, decide_eq_true_eq] at hl
  exact ⟨hl.1.1.1.2, hl.1.1.2⟩

include hr hu hm in
theorem runTcvt_eq (hl : legalEng 0x63 m w = true) {k₂ : Work} (hloop : (List.range (moveRows w)).foldlM (cvtTurn m w x k) k = .ok k₂) :
    runTcvt m w x k = .ok (finish x k₂) := by
  have hown : aCore (moveSrc w x k) = x.c := by simpa [plus] using (hm.srcRow 0 (Nat.succ_pos _)).own
  have h1 : aSpace (moveSrc w x k) ∈ (if fld w 16 4 = 9 then [2] else [1, 2]) := by
    have := hm.srcSpace
    split_ifs at this ⊢ <;> simpa using this
  have h2 : aSpace (moveDst w x k) ∈ [1, 2] := by simpa using hm.dstSpace
  have hspaces : (localAddr x (moveSrc w x k) (if fld w 16 4 = 9 then [2] else [1, 2]) && localAddr x (moveDst w x k) [1, 2] &&
      aligned (moveSrc w x k) 256 && aligned (moveDst w x k) 64) = true := by
    simp [aligned, hm.srcAligned, hm.dstAligned, localAddr_own hown h1, localAddr_own hm.dstOwn h2]
  have hpath : needPath k [fld w 16 4, fld w 20 4] = .ok () := by simp [needPath, needF, hm.grade]
  unfold cvtTurn cvtOut cvtVals cvtPace cvtSize cvtElems moveSrc moveDst moveRows at hloop
  unfold moveSrc moveDst at hspaces
  rw [runTcvt]
  simp only [hpath, needEng_ok hl, ok_bind, need_true hspaces, gate_free hr, Work.moveCheck_ok hu]
  rw [hloop]
  rfl

/-- Every element of every row has an encoding in the target. -/
def CvtFits (m : Byte) (w : BitVec 48) (x : Ctx) (k : Work) (src : Nat → Nat) : Prop :=
  ∀ i < moveRows w, ∀ v ∈ cvtOut m w x k i (k.s.readAt x.c (x.at (cvtPace (fld w 16 4) (fld w 20 4) * i)) (src i) 256),
    v.isSome = true

variable (hl : legalEng 0x63 m w = true) (hfit : CvtFits m w x k src)
include hl hfit

theorem CvtFits.length {i : Nat} (hi : i < moveRows w) : (cvtRow m w x k src i).length = cvtSize (fld w 16 4) (fld w 20 4) :=
  cvtBytes_length (legal_cvt hl).1 (legal_cvt hl).2 (k.s.readAt_length _ _ _ _) (hfit i hi)

theorem CvtFits.piece {i : Nat} (hi : i < moveRows w) {p : Nat} (hp : p < cvtPace (fld w 16 4) (fld w 20 4)) :
    (cvtPiece m w x k src dst i p).data.length = min 256 (cvtSize (fld w 16 4) (fld w 20 4)) := by
  rw [cvtPiece, Ctx.puts, List.length_take, List.length_drop, hfit.length hl hi]
  exact ((cvt_shape _ (legal_cvt hl).1 _ (legal_cvt hl).2).2.2 p hp).1

/-- The bytes that a row leaves lie apart from every source row. -/
theorem CvtMove.apart (hm : CvtMove w x k src dst) {i r : Nat} (hi : i < moveRows w) (hr : r < moveRows w) :
    ∀ v ∈ cvtWrites m w x k src dst r, v.Apart (src i) 256 := by
  intro v hv
  obtain ⟨p, hp, rfl⟩ := List.mem_map.1 hv
  have hp := List.mem_range.1 hp
  have h1 := hm.srcApart i hi r hr
  obtain ⟨-, h2⟩ := (cvt_shape _ (legal_cvt hl).1 _ (legal_cvt hl).2).2.2 p hp
  rw [MWrite.Apart, hfit.piece hl hr hp]
  simp only [cvtPiece, Ctx.puts]
  omega

include hk hm in
theorem cvtTurn_ok {i : Nat} (hi : i < moveRows w) {k₁ : Work}
    (h₁ : k₁.Stores k x ((List.range i).flatMap (cvtWrites m w x k src dst))) : ∃ k₂ : Work,
      k₂.Stores k x ((List.range (i + 1)).flatMap (cvtWrites m w x k src dst)) ∧ cvtTurn m w x k k₁ i = .ok k₂ := by
  obtain ⟨hs, hd⟩ := legal_cvt hl
  obtain ⟨k₂, h₂, hread⟩ := h₁.read hk (hm.srcRow i hi) (fun v hv => by
    obtain ⟨r, hr, hv⟩ := List.mem_flatMap.1 hv
    exact hm.apart hl hfit hi ((List.mem_range.1 hr).trans hi) v hv) (x.at (cvtPace (fld w 16 4) (fld w 20 4) * i))
  have hlen := hfit.length hl hi
  have hpiece := fun p hp => hfit.piece (dst := dst) hl hi (p := p) hp
  have hsome := hfit i hi
  have hrow : outBytes (fld w 20 4) (((cvtOut m w x k i (k.s.readAt x.c (x.at (cvtPace (fld w 16 4) (fld w 20 4) * i)) (src i)
      256)).filterMap id).map fun r => r.bits) = cvtRow m w x k src i := by
    rw [cvtRow, cvtBytes, List.map_filterMap]
    rfl
  generalize k.s.readAt x.c (x.at (cvtPace (fld w 16 4) (fld w 20 4) * i)) (src i) 256 = bs at hread hsome hrow
  have hnone : ((cvtOut m w x k i bs).any fun r => r.isNone) = false :=
    List.any_eq_false.2 fun v hv => by simp [Option.isSome_iff_ne_none.1 (hsome v hv)]
  obtain ⟨k₃, h₃, hloop⟩ := foldlM_range (n := cvtPace (fld w 16 4) (fld w 20 4)) (a := k₂.ev 0x07
      (x.at (cvtPace (fld w 16 4) (fld w 20 4) * i + 6)) 1 (((cvtOut m w x k i bs).filterMap id).filter fun r => r.overflow).length)
    (step := fun k' p => k'.write x (plus (moveDst w x k) (cvtSize (fld w 16 4) (fld w 20 4) * i + 256 * p))
      (((cvtRow m w x k src i).drop (256 * p)).take 256) (x.at (cvtPace (fld w 16 4) (fld w 20 4) * i + 6 + p)))
    (fun n k' => k'.Stores k x ((List.range i).flatMap (cvtWrites m w x k src dst) ++
      (List.range n).map (cvtPiece m w x k src dst i)))
    (fun p hp k' hk' => by
      obtain ⟨k₃, h₃, hwrite⟩ := hk'.write hk (hm.dstPiece i hi p hp) (hpiece p hp)
        (x.at (cvtPace (fld w 16 4) (fld w 20 4) * i + 6 + p))
      refine ⟨k₃, ?_, hwrite⟩
      rw [List.range_succ, List.map_append, ← List.append_assoc]
      exact h₃)
    (by simpa using h₂.of_state ⟨Work.s_ev .., Work.recs_ev .., Work.late_ev ..⟩)
  refine ⟨k₃, ?_, ?_⟩
  · rw [List.range_succ, List.flatMap_append, List.flatMap_singleton]
    exact h₃
  unfold cvtTurn
  simp only [hread, ok_bind, hnone, Bool.false_eq_true, if_false, hrow]
  rw [chunks_eq_map (by decide) (by rw [hlen]; exact (cvt_shape _ hs _ hd).2.1), zipIdx_map_range, List.foldlM_map]
  exact hloop

/-- Each piece that TCVT writes stands alone among its writes. -/
theorem CvtMove.alone (hm : CvtMove w x k src dst) {i p : Nat} (hi : i < moveRows w)
    (hp : p < cvtPace (fld w 16 4) (fld w 20 4)) :
    (cvtPiece m w x k src dst i p).Alone ((List.range (moveRows w)).flatMap (cvtWrites m w x k src dst)) := by
  intro v hv
  obtain ⟨r, hr, hv⟩ := List.mem_flatMap.1 hv
  obtain ⟨q, hq, rfl⟩ := List.mem_map.1 hv
  have hr := List.mem_range.1 hr
  have hq := List.mem_range.1 hq
  obtain ⟨-, h1⟩ := (cvt_shape _ (legal_cvt hl).1 _ (legal_cvt hl).2).2.2 p hp
  obtain ⟨-, h2⟩ := (cvt_shape _ (legal_cvt hl).1 _ (legal_cvt hl).2).2.2 q hq
  rw [MWrite.Apart, hfit.piece hl hi hp, hfit.piece hl hr hq]
  simp only [cvtPiece, Ctx.puts]
  by_cases hir : i = r
  · subst hir
    by_cases hpq : p = q
    · exact .inl (by rw [hpq])
    · omega
  · have := hm.dstApart i hi r hr hir
    omega

/-- After TCVT each row of its output is in memory. -/
theorem CvtMove.readNow (hm : CvtMove w x k src dst) {s t : State} {c : CoreId} {e : Eng} {j : Job}
    (h : Stored s t c e j ((List.range (moveRows w)).flatMap (cvtWrites m w x k src dst))) {i : Nat} (hi : i < moveRows w) :
    t.readNow c.val (dst i) (cvtSize (fld w 16 4) (fld w 20 4)) = cvtRow m w x k src i := by
  obtain ⟨-, hceil, hshape⟩ := cvt_shape _ (legal_cvt hl).1 _ (legal_cvt hl).2
  refine readNow_pieces (hfit.length hl hi) fun p hp => ?_
  rw [hceil] at hp
  have hmem : cvtPiece m w x k src dst i p ∈ (List.range (moveRows w)).flatMap (cvtWrites m w x k src dst) :=
    List.mem_flatMap.2 ⟨i, List.mem_range.2 hi, List.mem_map.2 ⟨p, List.mem_range.2 hp, rfl⟩⟩
  have hread := h.readNow _ hmem (hm.alone hl hfit hi hp)
  rw [hfit.piece hl hi hp] at hread
  rw [(hshape p hp).1]
  exact hread

end

end Sys2Proof.Machine
end


section
/-!
PROOFS. TQNT (R50, R65, R103): its rows, its scale words, and the two conversions' obligation.
-/
namespace Sys2Proof.Machine

/-! ### Rows and blocks -/

/-- Elements of a source row and bytes of an output row of TQNT, elements per vector, and vectors. -/
def qntElems (fs : Nat) : Nat := if fs = 8 then 64 else 128
def qntSize (fs fd : Nat) : Nat := if fmtBits fd = 6 then qntElems fs else qntElems fs * fmtBits fd / 8
def qntPer (fd : Nat) : Nat := if fmtClass fd = 128 then 128 else 64
def qntVectors (w : BitVec 48) : Nat := moveRows w * qntElems (fld w 16 4) / qntPer (fld w 20 4)

/-- The numbers of a row, the scale codes of its blocks, and what TQNT makes of them. -/
def qntNums (w : BitVec 48) (bs : List Byte) : List Num := (rowElems (fld w 16 4) bs).map (decodeElem (fld w 16 4))
def qntCodes (w : BitVec 48) (x : Ctx) (k : Work) (bs : List Byte) : List Nat :=
  (chunks 32 4 (qntNums w bs)).map (blockScale (fld w 20 4) (if bitAt w 38 then some (k.sreg x (fld w 39 5)) else none))
def qntOut (m : Byte) (w : BitVec 48) (x : Ctx) (k : Work) (i : Nat) (bs : List Byte) : List (Option Rounded) :=
  (List.zip (qntCodes w x k bs) (chunks 32 4 (qntNums w bs))).zipIdx.flatMap fun cb => cb.1.2.zipIdx.map fun v =>
    convertTo (fld w 20 4) (moveRnd m (k.sreg64 x (fld w 24 5))
      (k.sreg64 x (fld w 24 5 + 2) + BitVec.ofNat 64 (i * qntElems (fld w 16 4) + 32 * cb.2 + v.2))) (fld m 1 2) (scaled cb.1.1 v.1)

theorem legal_qnt {m : Byte} {w : BitVec 48} (hl : legalEng 0x64 m w = true) :
    (fld w 16 4 = 7 ∨ fld w 16 4 = 8) ∧ fld w 20 4 ≤ 6 := by
  simp only [legalEng, Bool.and_eq_true, Bool.or_eq_true, decide_eq_true_eq, beq_iff_eq] at hl
  exact ⟨hl.1.1.1.1.2, hl.1.1.1.2⟩

theorem qntNums_length {w : BitVec 48} (hs : fld w 16 4 = 7 ∨ fld w 16 4 = 8) {bs : List Byte} (h : bs.length = 256) :
    (qntNums w bs).length = qntElems (fld w 16 4) := by
  rw [qntNums, List.length_map, rowElems_length (by omega) h]
  rcases hs with hs | hs <;> rw [hs] <;> rfl

theorem qntCodes_length {w : BitVec 48} (hs : fld w 16 4 = 7 ∨ fld w 16 4 = 8) (x : Ctx) (k : Work) {bs : List Byte}
    (h : bs.length = 256) : (qntCodes w x k bs).length = qntElems (fld w 16 4) / 32 := by
  have hn := qntNums_length hs h
  rw [qntCodes, List.length_map, chunks_length_ceil (by decide), hn]
  all_goals rcases hs with hs | hs <;> simp [hn, hs, qntElems, ceilDiv]

theorem qntOut_length {m : Byte} {w : BitVec 48} (hs : fld w 16 4 = 7 ∨ fld w 16 4 = 8) (x : Ctx) (k : Work) (i : Nat)
    {bs : List Byte} (h : bs.length = 256) : (qntOut m w x k i bs).length = qntElems (fld w 16 4) := by
  have hn := qntNums_length hs h
  have hc := qntCodes_length hs x k h
  have hb : (chunks 32 4 (qntNums w bs)).length = qntElems (fld w 16 4) / 32 := by
    rw [← hc, qntCodes, List.length_map]
  rw [qntOut, List.length_flatMap, List.map_congr_left (g := fun _ => 32) fun cb hcb => ?_]
  · rw [List.map_const', List.length_zipIdx, List.length_zip, hc, hb, List.sum_replicate]
    rcases hs with hs | hs <;> simp [hs, qntElems]
  · have hmem := (List.of_mem_zip (List.fst_mem_of_mem_zipIdx hcb)).2
    rw [List.length_map, List.length_zipIdx]
    refine mem_chunks_length ?_ hmem
    rw [hn]
    rcases hs with hs | hs <;> simp [hs, qntElems]

/-! ### The loop over the rows -/

/-- The bytes of source row `i`, the scale codes and the output of it. -/
def qntSrc (x : Ctx) (k : Work) (src : Nat → Nat) (i : Nat) : List Byte := k.s.readAt x.c (x.at i) (src i) 256
def qntRow (m : Byte) (w : BitVec 48) (x : Ctx) (k : Work) (src : Nat → Nat) (i : Nat) : List Byte :=
  outBytes (fld w 20 4) ((qntOut m w x k i (qntSrc x k src i)).filterMap fun r => r.map Rounded.bits)
def qntWrite (m : Byte) (w : BitVec 48) (x : Ctx) (k : Work) (src dst : Nat → Nat) (i : Nat) : MWrite :=
  x.puts (i + 8) (dst i) (qntRow m w x k src i)
/-- The scale codes of the first `n` rows. -/
def qntAll (w : BitVec 48) (x : Ctx) (k : Work) (src : Nat → Nat) (n : Nat) : List Nat :=
  (List.range n).flatMap fun i => qntCodes w x k (qntSrc x k src i)

/-- The address of the scale words. -/
def moveScl (w : BitVec 48) (x : Ctx) (k : Work) : MAddr := k.areg x (fld w 34 4)

/-- A turn of TQNT's loop over rows, with the registers that the instruction has read in `k`. -/
def qntTurn (m : Byte) (w : BitVec 48) (x : Ctx) (k : Work) (o : Work × List Nat) (i : Nat) : Except Halt (Work × List Nat) := do
  let (bs, k') ← o.1.read x (plus (moveSrc w x k) (256 * i)) 256 (x.at i)
  if (qntNums w bs).any fun v => v == .nan then .error (.stop .accumRange 0x02 (some k'))
  else if (qntOut m w x k i bs).any fun r => r.isNone then .error (.stop .accumRange 0x02 (some k'))
  else
    let rs := (qntOut m w x k i bs).filterMap id
    let k' := k'.ev 0x07 (x.at (i + 8)) 1 (rs.filter fun r => r.overflow).length
    let k' ← k'.write x (plus (moveDst w x k) (qntSize (fld w 16 4) (fld w 20 4) * i)) (outBytes (fld w 20 4) (rs.map fun r => r.bits))
      (x.at (i + 8))
    pure (k', o.2 ++ qntCodes w x k bs)

/-- What TQNT asks of its addresses and of its elements. -/
structure QntMove (m : Byte) (w : BitVec 48) (x : Ctx) (k : Work) (src dst scl : Nat → Nat) : Prop where
  grade : k.s.fuses.grade = .f
  spaces : (aSpace (moveSrc w x k) = 1 ∨ aSpace (moveSrc w x k) = 2) ∧ (aSpace (moveDst w x k) = 1 ∨ aSpace (moveDst w x k) = 2) ∧
    aSpace (moveScl w x k) = 1 ∧ aOff (moveSrc w x k) % 256 = 0 ∧ aOff (moveDst w x k) % 64 = 0 ∧ aOff (moveScl w x k) % 4 = 0
  whole : fmtClass (fld w 20 4) = 128 → fld w 16 4 = 8 → moveRows w % 2 = 0
  srcRow : ∀ i < moveRows w, k.Reaches x (plus (moveSrc w x k) (256 * i)) 256 false (src i)
  dstRow : ∀ i < moveRows w, k.Reaches x (plus (moveDst w x k) (qntSize (fld w 16 4) (fld w 20 4) * i))
    (qntSize (fld w 16 4) (fld w 20 4)) true (dst i)
  sclWord : ∀ v < qntVectors w, k.Reaches x (plus (moveScl w x k) (4 * v)) 4 true (scl v)
  srcApart : ∀ i < moveRows w, ∀ r < moveRows w,
    src i + 256 ≤ dst r ∨ dst r + qntSize (fld w 16 4) (fld w 20 4) ≤ src i
  dstApart : ∀ i < moveRows w, ∀ r < moveRows w, i ≠ r →
    dst i + qntSize (fld w 16 4) (fld w 20 4) ≤ dst r ∨ dst r + qntSize (fld w 16 4) (fld w 20 4) ≤ dst i
  sclDst : ∀ i < moveRows w, ∀ v < qntVectors w, dst i + qntSize (fld w 16 4) (fld w 20 4) ≤ scl v ∨ scl v + 4 ≤ dst i
  sclApart : ∀ v < qntVectors w, ∀ u < qntVectors w, v ≠ u → scl v + 4 ≤ scl u ∨ scl u + 4 ≤ scl v
  fits : ∀ i < moveRows w, (∀ v ∈ qntNums w (qntSrc x k src i), v ≠ .nan) ∧
    ∀ v ∈ qntOut m w x k i (qntSrc x k src i), v.isSome = true

section
variable {m : Byte} {w : BitVec 48} {x : Ctx} {k : Work} (hk : k.Free x) (hr : k.Ungated x) {src dst scl : Nat → Nat}
  (hu : ((k.s.core x.c).engine x.e).upset = none) (hm : QntMove m w x k src dst scl) (hl : legalEng 0x64 m w = true)
include hm hl

theorem QntMove.row_length {i : Nat} (hi : i < moveRows w) :
    (qntRow m w x k src i).length = qntSize (fld w 16 4) (fld w 20 4) := by
  obtain ⟨hs, hd⟩ := legal_qnt hl
  have hlen : ((qntOut m w x k i (qntSrc x k src i)).filterMap fun r => r.map Rounded.bits).length = qntElems (fld w 16 4) := by
    exact (filterMap_length_of_isSome (hm.fits i hi).2).trans (qntOut_length hs x k i (k.s.readAt_length _ _ _ _))
  rw [qntRow, outBytes_length (by omega) (by rw [hlen]; rcases hs with hs | hs <;> simp [hs, qntElems]), hlen, rowSize, qntSize]
  rcases hs with hs | hs <;> simp [hs, qntElems, ceilDiv]

include hk in
theorem qntTurn_ok {i : Nat} (hi : i < moveRows w) {k₁ : Work}
    (h₁ : k₁.Stores k x ((List.range i).map (qntWrite m w x k src dst))) : ∃ k₂ : Work,
      k₂.Stores k x ((List.range (i + 1)).map (qntWrite m w x k src dst)) ∧
        qntTurn m w x k (k₁, qntAll w x k src i) i = .ok (k₂, qntAll w x k src (i + 1)) := by
  obtain ⟨k₂, h₂, hread⟩ := h₁.read hk (hm.srcRow i hi) (fun v hv => by
    obtain ⟨r, hr, rfl⟩ := List.mem_map.1 hv
    have hr := (List.mem_range.1 hr).trans hi
    have := hm.srcApart i hi r hr
    rw [MWrite.Apart, show (qntWrite m w x k src dst r).data.length = _ from hm.row_length hl hr]
    simp only [qntWrite, Ctx.puts]
    omega) (x.at i)
  have h₃ := h₂.of_state (k' := k₂.ev 0x07 (x.at (i + 8)) 1 (((qntOut m w x k i (qntSrc x k src i)).filterMap id).filter
    fun r => r.overflow).length) ⟨Work.s_ev .., Work.recs_ev .., Work.late_ev ..⟩
  obtain ⟨k₄, h₄, hwrite⟩ := h₃.write hk (hm.dstRow i hi) (hm.row_length hl hi) (x.at (i + 8))
  obtain ⟨hnum, hsome⟩ := hm.fits i hi
  have hnan : ((qntNums w (qntSrc x k src i)).any fun v => v == .nan) = false :=
    List.any_eq_false.2 fun v hv => by simpa using hnum v hv
  have hnone : ((qntOut m w x k i (qntSrc x k src i)).any fun r => r.isNone) = false :=
    List.any_eq_false.2 fun v hv => by simp [Option.isSome_iff_ne_none.1 (hsome v hv)]
  have hrow : outBytes (fld w 20 4) (((qntOut m w x k i (qntSrc x k src i)).filterMap id).map fun r => r.bits) =
      qntRow m w x k src i := by
    rw [qntRow, List.map_filterMap]
    rfl
  refine ⟨k₄, ?_, ?_⟩
  · rw [List.range_succ, List.map_append]
    exact h₄
  · unfold qntTurn
    rw [qntSrc] at hnan hnone hrow hwrite
    simp only [hread, ok_bind, hnan, hnone, Bool.false_eq_true, if_false, hrow, hwrite]
    rw [show qntAll w x k src (i + 1) = qntAll w x k src i ++ qntCodes w x k (qntSrc x k src i) by
      rw [qntAll, List.range_succ, List.flatMap_append, List.flatMap_singleton, qntAll]]
    rfl

include hk in
theorem qntRows_ok : ∃ k₂ : Work, k₂.Stores k x ((List.range (moveRows w)).map (qntWrite m w x k src dst)) ∧
    (List.range (moveRows w)).foldlM (qntTurn m w x k) (k, []) = .ok (k₂, qntAll w x k src (moveRows w)) := by
  obtain ⟨⟨k₂, codes⟩, ⟨h₂, hcodes⟩, hloop⟩ := foldlM_range (n := moveRows w) (step := qntTurn m w x k) (a := (k, []))
    (fun n o => o.1.Stores k x ((List.range n).map (qntWrite m w x k src dst)) ∧ o.2 = qntAll w x k src n)
    (fun i hi o ho => by
      obtain ⟨k₁, codes⟩ := o
      obtain ⟨h₁, rfl⟩ := ho
      obtain ⟨k₂, h₂, hturn⟩ := qntTurn_ok hk hm hl hi h₁
      exact ⟨_, ⟨h₂, rfl⟩, hturn⟩) ⟨hk.stores, rfl⟩
  obtain rfl := hcodes
  exact ⟨k₂, h₂, hloop⟩

/-! ### The loop over the scale words -/

omit hm in
theorem qntAll_length {n : Nat} : (qntAll w x k src n).length = n * qntElems (fld w 16 4) / 32 := by
  obtain ⟨hs, -⟩ := legal_qnt hl
  have hrow : ∀ i, (qntCodes w x k (qntSrc x k src i)).length = qntElems (fld w 16 4) / 32 := fun i =>
    qntCodes_length hs x k (k.s.readAt_length _ _ _ _)
  rw [qntAll, flatMap_length_const _ hrow, List.length_range]
  rcases hs with hs | hs <;> simp [hs, qntElems] <;> omega

/-- The codes fill the scale words of whole vectors. -/
theorem QntMove.words : ceilDiv (qntAll w x k src (moveRows w)).length (qntPer (fld w 20 4) / 32) = qntVectors w ∧
    (qntAll w x k src (moveRows w)).length = qntPer (fld w 20 4) / 32 * qntVectors w := by
  rw [qntAll_length hl]
  obtain ⟨hs, -⟩ := legal_qnt hl
  have hwhole := hm.whole
  unfold qntVectors qntPer ceilDiv
  rcases hs with hs | hs <;> by_cases hc : fmtClass (fld w 20 4) = 128 <;> simp [hs, hc, qntElems] at hwhole ⊢ <;> omega

theorem QntMove.vectors_pos : 0 < qntVectors w := by
  obtain ⟨hs, -⟩ := legal_qnt hl
  have hwhole := hm.whole
  have hrows : 0 < moveRows w := Nat.succ_pos _
  unfold qntVectors qntPer
  rcases hs with hs | hs <;> by_cases hc : fmtClass (fld w 20 4) = 128 <;> simp [hs, hc, qntElems] at hwhole ⊢ <;> omega

/-- The codes of vector `v`, and its scale word beyond which the free value `f` stands. -/
def qntWord (w : BitVec 48) (x : Ctx) (k : Work) (src : Nat → Nat) (v : Nat) : List Byte :=
  (((qntAll w x k src (moveRows w)).drop (qntPer (fld w 20 4) / 32 * v)).take (qntPer (fld w 20 4) / 32)).map fun c => BitVec.ofNat 8 c

theorem QntMove.word_length {v : Nat} (hv : v < qntVectors w) :
    (qntWord w x k src v).length = qntPer (fld w 20 4) / 32 := by
  have hall := (hm.words hl).2
  have : qntPer (fld w 20 4) / 32 * (v + 1) ≤ qntPer (fld w 20 4) / 32 * qntVectors w := Nat.mul_le_mul_left _ hv
  rw [qntWord, List.length_map, List.length_take, List.length_drop, hall, Nat.mul_succ] at *
  omega

/-- A turn of TQNT's loop over scale words. -/
def qntScale (w : BitVec 48) (x : Ctx) (k k' : Work) (p : List Nat × Nat) : Except Halt Work := do
  let (v, s) := k'.s.draw 1
  let word := (p.1.map fun (c : Nat) => BitVec.ofNat 8 c) ++ (leBytes 4 v.toNat).drop (qntPer (fld w 20 4) / 32)
  let t := x.at (((p.2 + 1) * qntPer (fld w 20 4) - 1) / qntElems (fld w 16 4) + 8)
  let k'' ← ({ k' with s := s }).write x (plus (moveScl w x k) (4 * p.2)) word t
  pure { k'' with evs := k'.evs }

/-- The write of scale word `v`. -/
def sclPut (w : BitVec 48) (x : Ctx) (k : Work) (src scl : Nat → Nat) (free : Nat → List Byte) (v : Nat) : MWrite :=
  x.puts (((v + 1) * qntPer (fld w 20 4) - 1) / qntElems (fld w 16 4) + 8) (scl v) (qntWord w x k src v ++ free v)

omit hm hl in
theorem sclPut_update (free : Nat → List Byte) (v : Nat) (d : List Byte) : sclPut w x k src scl (Function.update free v d) v =
    x.puts (((v + 1) * qntPer (fld w 20 4) - 1) / qntElems (fld w 16 4) + 8) (scl v) (qntWord w x k src v ++ d) := by
  rw [sclPut, Function.update_self]

omit hm hl in
theorem Work.Stores.fresh {k' : Work} {ws : List MWrite} (h : k'.Stores k x ws) (n : Nat) :
    { k' with s := { k'.s with fresh := n } }.Stores k x ws := by
  obtain ⟨h1, h2, h3, h4, h5, h6⟩ := h
  refine ⟨h1, h2, ?_, h4, h5, h6⟩
  simp only
  rw [h3]

include hk in
theorem qntScales_ok {k₁ : Work} {ws : List MWrite} (h₁ : k₁.Stores k x ws) : ∃ (k₂ : Work) (free : Nat → List Byte),
    (∀ v, (free v).length = 4 - qntPer (fld w 20 4) / 32) ∧
    k₂.Stores k x (ws ++ (List.range (qntVectors w)).map (sclPut w x k src scl free)) ∧
    ((chunks (qntPer (fld w 20 4) / 32) (qntVectors w) (qntAll w x k src (moveRows w))).zipIdx).foldlM (qntScale w x k) k₁ =
      .ok k₂ := by
  have hpos : 0 < qntPer (fld w 20 4) / 32 := by
    unfold qntPer
    split <;> decide
  rw [chunks_eq_map hpos (hm.words hl).1, zipIdx_map_range, List.foldlM_map]
  obtain ⟨k₂, ⟨free, hfree, h₂⟩, hloop⟩ := foldlM_range (n := qntVectors w) (a := k₁)
    (step := fun k' p => qntScale w x k k' (((qntAll w x k src (moveRows w)).drop (qntPer (fld w 20 4) / 32 * p)).take
      (qntPer (fld w 20 4) / 32), p))
    (fun n k' => ∃ free : Nat → List Byte, (∀ v, (free v).length = 4 - qntPer (fld w 20 4) / 32) ∧
      k'.Stores k x (ws ++ (List.range n).map (sclPut w x k src scl free)))
    (fun v hv k' hk' => by
      obtain ⟨free, hfree, hk'⟩ := hk'
      have hrest : ((leBytes 4 (k'.s.draw 1).1.toNat).drop (qntPer (fld w 20 4) / 32)).length = 4 - qntPer (fld w 20 4) / 32 := by
        rw [List.length_drop, leBytes_length]
      have hlen : (qntWord w x k src v ++ (leBytes 4 (k'.s.draw 1).1.toNat).drop (qntPer (fld w 20 4) / 32)).length = 4 := by
        rw [List.length_append, hm.word_length hl hv, hrest]
        unfold qntPer
        split <;> rfl
      obtain ⟨k₂, h₂, hwrite⟩ := (hk'.fresh (k'.s.fresh + 1)).write hk (hm.sclWord v hv) hlen
        (x.at (((v + 1) * qntPer (fld w 20 4) - 1) / qntElems (fld w 16 4) + 8))
      refine ⟨{ k₂ with evs := k'.evs }, ⟨Function.update free v ((leBytes 4 (k'.s.draw 1).1.toNat).drop (qntPer (fld w 20 4) / 32)), fun u => ?_, ?_⟩, ?_⟩
      · by_cases huv : u = v
        · rw [huv, Function.update_self, hrest]
        · rw [Function.update_of_ne huv, hfree]
      · rw [List.range_succ, List.map_append, ← List.append_assoc, List.map_congr_left (g := sclPut w x k src scl free) fun u hu => ?_]
        · rw [List.map_singleton, sclPut_update]
          exact h₂.of_state ⟨rfl, rfl, rfl⟩
        · simp only [sclPut, Function.update_of_ne (Nat.ne_of_lt (List.mem_range.1 hu))]
      · unfold qntScale
        unfold qntWord at hwrite
        rw [State.draw] at hwrite ⊢
        simp only [hwrite, ok_bind]
        rfl)
    ⟨fun _ => List.replicate (4 - qntPer (fld w 20 4) / 32) 0, fun _ => List.length_replicate, by simpa using h₁⟩
  exact ⟨k₂, free, hfree, h₂, hloop⟩

/-! ### The instruction -/

/-- The writes of TQNT. -/
def qntWrites (m : Byte) (w : BitVec 48) (x : Ctx) (k : Work) (src dst scl : Nat → Nat) (free : Nat → List Byte) : List MWrite :=
  (List.range (moveRows w)).map (qntWrite m w x k src dst) ++ (List.range (qntVectors w)).map (sclPut w x k src scl free)

include hk hr hu in
theorem runTqnt_ok (hz : aCore (moveScl w x k) = x.c) (hb : aCore (moveDst w x k) = x.c) : ∃ (k₂ : Work) (free : Nat → List Byte),
    (∀ v, (free v).length = 4 - qntPer (fld w 20 4) / 32) ∧ k₂.Stores k x (qntWrites m w x k src dst scl free) ∧
      runTqnt m w x k = .ok (finish x k₂) := by
  obtain ⟨k₁, h₁, hrows⟩ := qntRows_ok hk hm hl
  obtain ⟨k₂, free, hfree, h₂, hscales⟩ := qntScales_ok hk hm hl h₁
  refine ⟨k₂, free, hfree, h₂, ?_⟩
  obtain ⟨hsa, hsb, hsz, haa, hab, haz⟩ := hm.spaces
  have hown : aCore (moveSrc w x k) = x.c := by simpa [plus] using (hm.srcRow 0 (Nat.succ_pos _)).own
  have h1 : aSpace (moveSrc w x k) ∈ [1, 2] := by simpa using hsa
  have h2 : aSpace (moveDst w x k) ∈ [1, 2] := by simpa using hsb
  have h3 : aSpace (moveScl w x k) ∈ [1] := by simpa using hsz
  have hspaces : (localAddr x (moveSrc w x k) [1, 2] && localAddr x (moveDst w x k) [1, 2] && localAddr x (moveScl w x k) [1] &&
      aligned (moveSrc w x k) 256 && aligned (moveDst w x k) 64 && aligned (moveScl w x k) 4) = true := by
    simp [aligned, haa, hab, haz, localAddr_own hown h1, localAddr_own hb h2, localAddr_own hz h3]
  have hpath : needPath k [fld w 16 4, fld w 20 4] = .ok () := by simp [needPath, needF, hm.grade]
  have hwhole : (!(decide (fmtClass (fld w 20 4) = 128) && fld w 16 4 == 8 && moveRows w % 2 == 1)) = true := by
    have := hm.whole
    simp only [Bool.not_eq_true', Bool.and_eq_false_iff, decide_eq_false_iff_not, beq_eq_false_iff_ne, ne_eq]
    by_cases hc : fmtClass (fld w 20 4) = 128 <;> by_cases h8 : fld w 16 4 = 8 <;> simp_all
  unfold qntTurn qntOut qntCodes qntNums qntSize qntElems moveSrc moveDst moveRows at hrows
  unfold qntScale qntVectors qntPer qntElems moveScl moveRows at hscales
  unfold moveSrc moveDst moveScl at hspaces
  unfold moveRows at hwhole
  rw [runTqnt]
  simp only [hpath, needEng_ok hl, ok_bind, need_true hspaces, need_true hwhole, gate_free hr, Work.moveCheck_ok hu]
  rw [hrows]
  simp only [ok_bind]
  rw [hscales]
  rfl

theorem QntMove.sclPut_length {free : Nat → List Byte} (hfree : ∀ v, (free v).length = 4 - qntPer (fld w 20 4) / 32) {v : Nat}
    (hv : v < qntVectors w) : (sclPut w x k src scl free v).data.length = 4 := by
  rw [sclPut, Ctx.puts, List.length_append, hm.word_length hl hv, hfree]
  unfold qntPer
  split <;> rfl

/-- Each row and each scale word that TQNT writes stands alone among its writes. -/
theorem QntMove.alone {free : Nat → List Byte} (hfree : ∀ v, (free v).length = 4 - qntPer (fld w 20 4) / 32) :
    (∀ i < moveRows w, (qntWrite m w x k src dst i).Alone (qntWrites m w x k src dst scl free)) ∧
      ∀ v < qntVectors w, (sclPut w x k src scl free v).Alone (qntWrites m w x k src dst scl free) := by
  have hrow : ∀ i < moveRows w, (qntWrite m w x k src dst i).data.length = _ := fun i hi => hm.row_length hl hi
  have hscl : ∀ v < qntVectors w, (sclPut w x k src scl free v).data.length = 4 := fun v hv => hm.sclPut_length hl hfree hv
  refine ⟨fun i hi u hu => ?_, fun v hv u hu => ?_⟩
  all_goals rcases List.mem_append.1 hu with hu | hu
  · obtain ⟨r, hr, rfl⟩ := List.mem_map.1 hu
    have hr := List.mem_range.1 hr
    by_cases hir : i = r
    · exact .inl (by rw [hir])
    · right
      have := hm.dstApart i hi r hr hir
      rw [MWrite.Apart, hrow i hi, hrow r hr]
      simp only [qntWrite, Ctx.puts]
      omega
  · obtain ⟨v, hv, rfl⟩ := List.mem_map.1 hu
    have hv := List.mem_range.1 hv
    right
    have := hm.sclDst i hi v hv
    rw [MWrite.Apart, hrow i hi, hscl v hv]
    simp only [qntWrite, sclPut, Ctx.puts]
    omega
  · obtain ⟨r, hr, rfl⟩ := List.mem_map.1 hu
    have hr := List.mem_range.1 hr
    right
    have := hm.sclDst r hr v hv
    rw [MWrite.Apart, hrow r hr, hscl v hv]
    simp only [qntWrite, sclPut, Ctx.puts]
    omega
  · obtain ⟨q, hq, rfl⟩ := List.mem_map.1 hu
    have hq := List.mem_range.1 hq
    by_cases hvq : v = q
    · exact .inl (by rw [hvq])
    · right
      have := hm.sclApart v hv q hq hvq
      rw [MWrite.Apart, hscl v hv, hscl q hq]
      simp only [sclPut, Ctx.puts]
      omega

/-- After TQNT the rows of its output are in memory, and each scale word begins with its codes. -/
theorem QntMove.readNow {s t : State} {c : CoreId} {e : Eng} {j : Job} {free : Nat → List Byte}
    (hfree : ∀ v, (free v).length = 4 - qntPer (fld w 20 4) / 32)
    (h : Stored s t c e j (qntWrites m w x k src dst scl free)) :
    (∀ i < moveRows w, t.readNow c.val (dst i) (qntSize (fld w 16 4) (fld w 20 4)) = qntRow m w x k src i) ∧
      ∀ v < qntVectors w, t.readNow c.val (scl v) (qntPer (fld w 20 4) / 32) = qntWord w x k src v := by
  obtain ⟨hrow, hscl⟩ := hm.alone hl hfree
  refine ⟨fun i hi => ?_, fun v hv => ?_⟩
  · have hread := h.readNow _ (List.mem_append_left _ (List.mem_map_of_mem (List.mem_range.2 hi))) (hrow i hi)
    rw [show (qntWrite m w x k src dst i).data.length = _ from hm.row_length hl hi] at hread
    exact hread
  · have hread := h.readNow _ (List.mem_append_right _ (List.mem_map_of_mem (List.mem_range.2 hv))) (hscl v hv)
    rw [hm.sclPut_length hl hfree hv] at hread
    have htake := congrArg (List.take (qntPer (fld w 20 4) / 32)) hread
    have hle : qntPer (fld w 20 4) / 32 ≤ 4 := by
      unfold qntPer
      split <;> decide
    rw [show (sclPut w x k src scl free v).data = qntWord w x k src v ++ free v from rfl,
      List.take_left' (hm.word_length hl hv), State.readNow_eq, ← List.map_take, List.take_range, min_eq_left hle] at htake
    rw [State.readNow_eq]
    exact htake

end

/-- Settles O17: the equation of each instruction gives its writes, each of which stands alone among them. -/
theorem convertingMoves : Obligations.ConvertingMoves := by
  intro s c j m w src dst scl h hcl hw he hbobs hg x a b z rows fs fd reg seed base
  have hfree : (s.work x.t).Free x := Work.free_of_ready hcl hw he
  refine ⟨?cvt, ?qnt⟩
  case cvt =>
    intro hl elems size pace q row vals out hsa hsb ha hb hsrc hown hdst hapart hdsts hsome
    have hm : CvtMove w x (s.work x.t) src dst := ⟨hg, hsa, hsb, ha, hb, fun i hi => (hsrc i hi).reaches hcl, hown,
      fun i hi p hp => (hdst i hi p hp).reaches hcl, hapart, hdsts⟩
    have hfit : CvtFits m w x (s.work x.t) src := hsome
    obtain ⟨k₂, h₂, hloop⟩ := foldlM_range (n := moveRows w) (step := cvtTurn m w x (s.work x.t)) (a := s.work x.t)
      (fun n k' => k'.Stores (s.work x.t) x ((List.range n).flatMap (cvtWrites m w x (s.work x.t) src dst)))
      (fun i hi k' hk' => cvtTurn_ok hfree hm hl hfit hi hk') hfree.stores
    have done := runInstr_stored (op := 0x63) (plan := false) h h₂ (k₂.ends_refl x) (runTcvt_eq (k := s.work x.t) (x := x) ⟨rfl, hbobs⟩ h.upset hm hl hloop)
    exact ⟨_, rfl, done.follow, fun i hi => hm.readNow hl hfit done hi⟩
  case qnt =>
    intro hl elems size per vectors explicit nums codes out hspaces hwhole hrows hwords hapart hdsts hsd hscls hfit
    have hm : QntMove m w x (s.work x.t) src dst scl := ⟨hg, hspaces, hwhole, fun i hi => (hrows i hi).1.reaches hcl,
      fun i hi => (hrows i hi).2.reaches hcl, fun v hv => (hwords v hv).reaches hcl, hapart, hdsts, hsd, hscls, hfit⟩
    have hz : aCore (moveScl w x (s.work x.t)) = x.c := by simpa [plus] using (hm.sclWord 0 (hm.vectors_pos hl)).own
    have hown : aCore (moveDst w x (s.work x.t)) = x.c := by simpa [plus] using (hm.dstRow 0 (Nat.succ_pos _)).own
    obtain ⟨k₂, free, hfree', h₂, hrun⟩ := runTqnt_ok hfree ⟨rfl, hbobs⟩ h.upset hm hl hz hown
    have done := runInstr_stored (op := 0x64) (plan := false) h h₂ (k₂.ends_refl x) hrun
    obtain ⟨hrow, hscl⟩ := hm.readNow hl hfree' done
    exact ⟨_, rfl, done.follow, hrow, hscl⟩

end Sys2Proof.Machine
end


section
/-!
PROOFS. GROWS and GTOPK (R108 to R110): word arrays read row by row, and an equation for each instruction.
-/
namespace Sys2Proof.Machine

/-! ### Ranges in pieces -/

/-- A range in pieces of `k`, the last of which may be shorter. -/
theorem flatMap_pieces {α : Type} {k : Nat} (hk : 0 < k) (m : Nat) (g : Nat → α) :
    ((List.range (ceilDiv m k)).flatMap fun r => (List.range (min k (m - k * r))).map fun i => g (k * r + i)) =
      (List.range m).map g := by
  have key : ∀ q, ((List.range q).flatMap fun r => (List.range (min k (m - k * r))).map fun i => g (k * r + i)) =
      (List.range (min m (k * q))).map g := by
    intro q
    induction q with
    | zero => simp
    | succ q ih =>
      rw [List.range_succ, List.flatMap_append, List.flatMap_singleton, ih]
      have hsplit : min m (k * (q + 1)) = min m (k * q) + min k (m - k * q) := by
        rw [Nat.mul_succ]
        omega
      rw [hsplit, List.range_add, List.map_append, List.map_map]
      rcases Nat.lt_or_ge m (k * q) with hlt | hge
      · rw [show m - k * q = 0 by omega, Nat.min_zero]
        rfl
      · rw [min_eq_right hge]
        rfl
  have hle : m ≤ k * ceilDiv m k := by
    unfold ceilDiv
    have h1 := Nat.div_add_mod (m + k - 1) k
    have h2 := Nat.mod_lt (m + k - 1) hk
    omega
  rw [key, min_eq_left hle]

theorem readNow_flatMap (s : State) (c a m : Nat) {k : Nat} (hk : 0 < k) :
    ((List.range (ceilDiv m k)).flatMap fun r => s.readNow c (a + k * r) (min k (m - k * r))) = s.readNow c a m := by
  rw [State.readNow_eq, ← flatMap_pieces hk]
  refine List.flatMap_congr fun r _ => ?_
  rw [State.readNow_eq]
  simp only [Nat.add_assoc]

/-- Word `i` of an array. -/
def State.word (s : State) (c a i : Nat) : W32 := BitVec.ofNat 32 (leNat (s.readNow c (a + 4 * i) 4))

theorem words32_readNow (s : State) (c a n : Nat) : words32 (s.readNow c a (4 * n)) = (List.range n).map (s.word c a) := by
  have hceil : ceilDiv (4 * n) 4 = n := by
    unfold ceilDiv
    omega
  have hflat : s.readNow c a (4 * n) = ((List.range n).map fun i => s.readNow c (a + 4 * i) 4).flatten := by
    rw [← readNow_flatMap s c a (4 * n) (k := 4) (by decide), hceil, List.flatMap_def]
    congr 1
    refine List.map_congr_left fun i hi => ?_
    have := List.mem_range.1 hi
    rw [show min 4 (4 * n - 4 * i) = 4 by omega]
  rw [hflat, words32_flatten, List.map_map]
  · rfl
  · intro p hp
    obtain ⟨i, -, rfl⟩ := List.mem_map.1 hp
    rw [State.readNow_eq, List.length_map, List.length_range]

section
variable {k k' : Work} {x : Ctx} {ws : List MWrite}

/-- While no write waits every reader sees what memory holds. -/
theorem Work.Free.readAt (hk : k.Free x) (cyc a n : Nat) : k.s.readAt x.c cyc a n = k.s.readNow x.c a n := by
  rw [State.readAt, State.readNow, hk.pend]
  rfl

theorem Work.Stores.updCore {ws : List MWrite} (h : k'.Stores k x ws) {f : Core → Core} (hf : ∀ q, (f q).Accessed q)
    (hp : ∀ q, (f q).mpend = q.mpend) : { k' with s := k'.s.updCore x.c f }.Stores k x ws := by
  obtain ⟨h1, h2, h3, h4, h5, h6⟩ := h
  have hcore : (k'.s.updCore x.c f).core x.c = f (k'.s.core x.c) := State.core_updCore_same _ _ _
  refine ⟨h1, h2, ?_, ?_, ?_, fun v => ?_⟩
  · simp only [State.updCore, State.setCore]
    rw [h3]
  · simp only [hcore]
    exact h4.trans (hf _)
  · simp only [hcore, hp]
    exact h5
  · simp only [hcore, hp]
    exact h6 v

theorem Work.Stores.setIndex (h : k'.Stores k x ws) (l : List W32) : (k'.setIndex x l).Stores k x ws :=
  h.updCore (fun _ => rfl) fun _ => rfl

theorem Work.Stores.setKeys (h : k'.Stores k x ws) (l : List W32) : (k'.setKeys x l).Stores k x ws :=
  h.updCore (fun _ => rfl) fun _ => rfl

/-- A word array that the instruction reads row by row (R108). -/
structure Work.Array (k : Work) (x : Ctx) (a : MAddr) (n base : Nat) : Prop where
  whole : k.Reaches x a (4 * n) false base
  row : ∀ r < ceilDiv n 64, k.Reaches x (plus a (256 * r)) (min 256 (4 * n - 256 * r)) false (base + 256 * r)

theorem ceilDiv_words (n : Nat) : ceilDiv (4 * n) 256 = ceilDiv n 64 := by
  unfold ceilDiv
  omega

/-- Rows of a range read one after another, apart from every write of the instruction. -/
theorem readRows_ok (hk : k.Free x) (h : k'.Stores k x ws) {a : MAddr} {m base : Nat} {cyc : Nat → Nat}
    (hr : ∀ r < ceilDiv m 256, k.Reaches x (plus a (256 * r)) (min 256 (m - 256 * r)) false (base + 256 * r))
    (hd : ∀ v ∈ ws, v.Apart base m) : ∃ k₂ : Work, k₂.Stores k x ws ∧
      (List.range (ceilDiv m 256)).foldlM (fun (o : List Byte × Work) (i : Nat) => do
        let (b, k) ← o.2.read x (plus a (256 * i)) (min 256 (m - 256 * i)) (cyc i)
        pure (o.1 ++ b, k)) ([], k') = .ok (k.s.readNow x.c base m, k₂) := by
  obtain ⟨⟨bs, k₂⟩, ⟨hbs, h₂⟩, hloop⟩ := foldlM_range (n := ceilDiv m 256) (a := (([] : List Byte), k'))
    (step := fun (o : List Byte × Work) (i : Nat) => do
      let (b, k) ← o.2.read x (plus a (256 * i)) (min 256 (m - 256 * i)) (cyc i)
      pure (o.1 ++ b, k))
    (fun n o => o.1 = ((List.range n).flatMap fun r => k.s.readNow x.c (base + 256 * r) (min 256 (m - 256 * r))) ∧
      o.2.Stores k x ws)
    (fun i hi o ho => by
      obtain ⟨bs, k₁⟩ := o
      obtain ⟨rfl, h₁⟩ := ho
      have hin : 256 * i < m := by
        unfold ceilDiv at hi
        omega
      obtain ⟨k₂, h₂, hread⟩ := h₁.read hk (hr i hi) (fun v hv => by
        have := hd v hv
        unfold MWrite.Apart at *
        omega) (cyc i)
      rw [hk.readAt] at hread
      refine ⟨((List.range (i + 1)).flatMap fun r => k.s.readNow x.c (base + 256 * r) (min 256 (m - 256 * r)), k₂),
        ⟨rfl, h₂⟩, ?_⟩
      rw [List.range_succ, List.flatMap_append, List.flatMap_singleton]
      simp only [hread, ok_bind]
      rfl) ⟨rfl, h⟩
  rw [readNow_flatMap _ _ _ _ (by decide)] at hbs
  obtain rfl := hbs
  exact ⟨k₂, h₂, hloop⟩

theorem readWords_ok (hk : k.Free x) (h : k'.Stores k x ws) {a : MAddr} {n base : Nat} (ha : k.Array x a n base)
    (hd : ∀ v ∈ ws, v.Apart base (4 * n)) (l : Nat) : ∃ k₂ : Work, k₂.Stores k x ws ∧
      readWords k' x a n l = .ok ((List.range n).map (k.s.word x.c base), k₂) := by
  obtain ⟨k₂, h₂, hloop⟩ := readRows_ok hk h (cyc := fun i => x.at (l + i)) (by rw [ceilDiv_words]; exact ha.row) hd
  refine ⟨k₂, h₂, ?_⟩
  rw [ceilDiv_words] at hloop
  rw [readWords, hloop, ok_bind]
  exact congrArg (fun l => Except.ok (l, k₂)) (words32_readNow _ _ _ _)

theorem needAll_ok {rs : List (MAddr × Nat)} (h : ∀ p ∈ rs, ∃ r, k.s.resolve x.job.fn p.1 p.2 = .ok r) :
    needAll k x rs = .ok () := by
  unfold needAll
  split
  · next d hd =>
    obtain ⟨p, hp, herr⟩ := List.exists_of_findSome?_eq_some hd
    obtain ⟨r, hr⟩ := h p hp
    rw [hr] at herr
    exact absurd herr (Option.some_ne_none d).symm
  · rfl

end

/-! ### GROWS -/

/-- Fields and registers of GROWS (R109). -/
def gthCount (w : BitVec 48) : Nat := fld w 12 12 + 1
def gthLen (w : BitVec 48) : Nat := 64 * (fld w 24 5 + 1)
def gthLimit (w : BitVec 48) (x : Ctx) (k : Work) : Nat := (k.sreg x (fld w 29 5)).toNat
def gthAddr (w : BitVec 48) (x : Ctx) (k : Work) (i : Nat) : MAddr := k.areg x (fld w i 4)
def gthRow (w : BitVec 48) (x : Ctx) (k : Work) (v : W32) : MAddr := plus (gthAddr w x k 4) (v.toNat * gthLen w)
def gthWeight (w : BitVec 48) (x : Ctx) (k : Work) : Bool := aSpace (gthAddr w x k 4) == 0

/-- What GROWS asks of its addresses and of its indices. -/
structure Rows (w : BitVec 48) (x : Ctx) (k : Work) (ia : Nat) (tab dst : Nat → Nat) : Prop where
  idxSpace : aSpace (gthAddr w x k 0) = 1
  dstSpace : aSpace (gthAddr w x k 8) = 1
  idxAligned : aOff (gthAddr w x k 0) % 256 = 0
  dstAligned : aOff (gthAddr w x k 8) % 64 = 0
  tabOwn : aCore (gthAddr w x k 4) = x.c
  table : aSpace (gthAddr w x k 4) = 0 ∧ aOff (gthAddr w x k 4) % 2048 = 0 ∧ gatherRow (gthLen w) = true ∨
    aSpace (gthAddr w x k 4) = 1 ∧ aOff (gthAddr w x k 4) % 64 = 0
  array : k.Array x (gthAddr w x k 0) (gthCount w) ia
  dstAll : ∃ p, k.Reaches x (gthAddr w x k 8) (gthCount w * gthLen w) true p
  index : ∀ i < gthCount w, k.s.word x.c ia i ≠ 0xFFFFFFFF → (k.s.word x.c ia i).toNat < gthLimit w x k ∧
    (k.s.word x.c ia i).toNat < 2 ^ 31 ∧ k.Reaches x (gthRow w x k (k.s.word x.c ia i)) (gthLen w) false (tab i) ∧
    ∀ p < ceilDiv (gthLen w) 256,
      k.Reaches x (plus (gthRow w x k (k.s.word x.c ia i)) (256 * p)) (min 256 (gthLen w - 256 * p)) false (tab i + 256 * p)
  dstPiece : ∀ i < gthCount w, ∀ p < ceilDiv (gthLen w) 256,
    k.Reaches x (plus (gthAddr w x k 8) (i * gthLen w + 256 * p)) (min 256 (gthLen w - 256 * p)) true (dst i + 256 * p)
  tabApart : ∀ i < gthCount w, ∀ r < gthCount w, tab i + gthLen w ≤ dst r ∨ dst r + gthLen w ≤ tab i
  dstApart : ∀ i < gthCount w, ∀ r < gthCount w, i ≠ r → dst i + gthLen w ≤ dst r ∨ dst r + gthLen w ≤ dst i

/-- The bytes of slot `i`. -/
def gthData (w : BitVec 48) (x : Ctx) (k : Work) (ia : Nat) (tab : Nat → Nat) (i : Nat) : List Byte :=
  if k.s.word x.c ia i = 0xFFFFFFFF then List.replicate (gthLen w) 0 else k.s.readNow x.c (tab i) (gthLen w)

theorem gthData_length (w : BitVec 48) (x : Ctx) (k : Work) (ia : Nat) (tab : Nat → Nat) (i : Nat) :
    (gthData w x k ia tab i).length = gthLen w := by
  unfold gthData
  split
  · exact List.length_replicate
  · rw [State.readNow_eq, List.length_map, List.length_range]

/-- The cycle of slot `i` in which its row is read, and the writes of the slot. -/
def gthCyc (w : BitVec 48) (i : Nat) : Nat := ceilDiv (gthCount w) 64 + 4 + i * max 1 (ceilDiv (gthLen w) 256)
def gthPiece (w : BitVec 48) (x : Ctx) (k : Work) (ia : Nat) (tab dst : Nat → Nat) (i p : Nat) : MWrite :=
  x.puts (gthCyc w i + (if gthWeight w x k then 10 else 4) + 2 + p) (dst i + 256 * p)
    (((gthData w x k ia tab i).drop (256 * p)).take 256)
def gthWrites (w : BitVec 48) (x : Ctx) (k : Work) (ia : Nat) (tab dst : Nat → Nat) (i : Nat) : List MWrite :=
  (List.range (ceilDiv (gthLen w) 256)).map (gthPiece w x k ia tab dst i)

/-- A turn of GROWS, with the registers that the instruction has read in `k`. -/
def gthTurn (w : BitVec 48) (x : Ctx) (k k' : Work) (v : W32 × Nat) : Except Halt Work := do
  let t := gthCyc w v.2
  let (bs, k') ← (if v.1 = 0xFFFFFFFF then pure (List.replicate (gthLen w) (0 : Byte), k')
    else if gthWeight w x k then k'.read x (gthRow w x k v.1) (gthLen w) (x.at t)
    else (List.range (max 1 (ceilDiv (gthLen w) 256))).foldlM (fun (o : List Byte × Work) (j : Nat) => do
      let (b, k) ← o.2.read x (plus (gthRow w x k v.1) (256 * j)) (min 256 (gthLen w - 256 * j)) (x.at (t + j))
      pure (o.1 ++ b, k)) (([] : List Byte), k'))
  ((chunks 256 (max 1 (ceilDiv (gthLen w) 256)) bs).zipIdx).foldlM (fun (k' : Work) p => do
    let dst := plus (gthAddr w x k 8) (v.2 * gthLen w + 256 * p.2)
    let k' ← k'.write x dst p.1 (x.at (t + (if gthWeight w x k then 10 else 4) + 2 + p.2))
    pure (if gthWeight w x k || v.1 = 0xFFFFFFFF then k'
      else k'.copyMarks x (plus (gthRow w x k v.1) (256 * p.2)) dst p.1.length)) k'

section
variable {m : Byte} {w : BitVec 48} {x : Ctx} {k : Work} (hk : k.Free x) {ia : Nat} {tab dst : Nat → Nat}
  (hm : Rows w x k ia tab dst)

theorem gthPieces_pos (w : BitVec 48) : max 1 (ceilDiv (gthLen w) 256) = ceilDiv (gthLen w) 256 := by
  unfold ceilDiv gthLen
  omega

theorem gthPiece_length (i : Nat) {p : Nat} :
    (gthPiece w x k ia tab dst i p).data.length = min 256 (gthLen w - 256 * p) := by
  rw [gthPiece, Ctx.puts, List.length_take, List.length_drop, gthData_length]

include hm

theorem Rows.apart {i r : Nat} (hi : i < gthCount w) (hr : r < gthCount w) :
    ∀ v ∈ gthWrites w x k ia tab dst r, v.Apart (tab i) (gthLen w) := by
  intro v hv
  obtain ⟨p, hp, rfl⟩ := List.mem_map.1 hv
  have hp := List.mem_range.1 hp
  have := hm.tabApart i hi r hr
  rw [MWrite.Apart, gthPiece_length]
  simp only [gthPiece, Ctx.puts]
  unfold ceilDiv at hp
  omega

include hk in
/-- The bytes of a slot are read, or are zeros. -/
theorem Rows.read {i : Nat} (hi : i < gthCount w) {k₁ : Work} {ws : List MWrite} (h₁ : k₁.Stores k x ws)
    (hws : ∀ v ∈ ws, v.Apart (tab i) (gthLen w)) : ∃ k₂ : Work, k₂.Stores k x ws ∧
      (if k.s.word x.c ia i = 0xFFFFFFFF then pure (List.replicate (gthLen w) (0 : Byte), k₁)
        else if gthWeight w x k then k₁.read x (gthRow w x k (k.s.word x.c ia i)) (gthLen w) (x.at (gthCyc w i))
        else (List.range (max 1 (ceilDiv (gthLen w) 256))).foldlM (fun (o : List Byte × Work) (j : Nat) => do
          let (b, k) ← o.2.read x (plus (gthRow w x k (k.s.word x.c ia i)) (256 * j)) (min 256 (gthLen w - 256 * j))
            (x.at (gthCyc w i + j))
          pure (o.1 ++ b, k)) (([] : List Byte), k₁)) = .ok (gthData w x k ia tab i, k₂) := by
  unfold gthData
  by_cases hnone : k.s.word x.c ia i = 0xFFFFFFFF
  · exact ⟨k₁, h₁, by rw [if_pos hnone, if_pos hnone]; rfl⟩
  · obtain ⟨-, -, hrow, hpieces⟩ := hm.index i hi hnone
    simp only [if_neg hnone]
    split
    · obtain ⟨k₂, h₂, hread⟩ := h₁.read hk hrow hws (x.at (gthCyc w i))
      rw [hk.readAt] at hread
      exact ⟨k₂, h₂, hread⟩
    · rw [gthPieces_pos]
      exact readRows_ok hk h₁ hpieces hws

include hk in
theorem gthTurn_ok {i : Nat} (hi : i < gthCount w) {k₁ : Work}
    (h₁ : k₁.Stores k x ((List.range i).flatMap (gthWrites w x k ia tab dst))) : ∃ k₂ : Work,
      k₂.Stores k x ((List.range (i + 1)).flatMap (gthWrites w x k ia tab dst)) ∧
        gthTurn w x k k₁ (k.s.word x.c ia i, i) = .ok k₂ := by
  obtain ⟨k₂, h₂, hread⟩ := hm.read hk hi h₁ fun v hv => by
    obtain ⟨r, hr, hv⟩ := List.mem_flatMap.1 hv
    exact hm.apart hi ((List.mem_range.1 hr).trans hi) v hv
  have hlen := gthData_length w x k ia tab i
  obtain ⟨k₃, h₃, hloop⟩ := foldlM_range (n := ceilDiv (gthLen w) 256) (a := k₂)
    (step := fun (k' : Work) (p : Nat) => do
      let k' ← k'.write x (plus (gthAddr w x k 8) (i * gthLen w + 256 * p)) (((gthData w x k ia tab i).drop (256 * p)).take 256)
        (x.at (gthCyc w i + (if gthWeight w x k then 10 else 4) + 2 + p))
      pure (if gthWeight w x k || k.s.word x.c ia i = 0xFFFFFFFF then k'
        else k'.copyMarks x (plus (gthRow w x k (k.s.word x.c ia i)) (256 * p)) (plus (gthAddr w x k 8) (i * gthLen w + 256 * p))
          (((gthData w x k ia tab i).drop (256 * p)).take 256).length))
    (fun n k' => k'.Stores k x ((List.range i).flatMap (gthWrites w x k ia tab dst) ++
      (List.range n).map (gthPiece w x k ia tab dst i)))
    (fun p hp k' hk' => by
      obtain ⟨k₃, h₃, hwrite⟩ := hk'.write hk (hm.dstPiece i hi p hp) (gthPiece_length (k := k) (ia := ia) (tab := tab) (dst := dst) i)
        (x.at (gthCyc w i + (if gthWeight w x k then 10 else 4) + 2 + p))
      refine ⟨k₃, ?_, ?_⟩
      · rw [List.range_succ, List.map_append, ← List.append_assoc]
        exact h₃
      · simp only [gthPiece, Ctx.puts] at hwrite
        simp only [hwrite, ok_bind, h₃.copyMarks hk, ite_self]
        rfl)
    (by simpa using h₂)
  refine ⟨k₃, ?_, ?_⟩
  · rw [List.range_succ, List.flatMap_append, List.flatMap_singleton]
    exact h₃
  · unfold gthTurn
    simp only [hread, ok_bind]
    rw [gthPieces_pos, chunks_eq_map (by decide) (by rw [hlen]), zipIdx_map_range, List.foldlM_map]
    exact hloop

include hk in
theorem runGrows_ok (hl : legalEng 0x70 m w = true) (hr : k.Ungated x) :
    ∃ k₂ : Work, k₂.Stores k x ((List.range (gthCount w)).flatMap (gthWrites w x k ia tab dst)) ∧
      runGrows m w x k = .ok (finish x k₂) := by
  obtain ⟨k₁, h₁, hwords⟩ := readWords_ok hk hk.stores hm.array (fun v hv => absurd hv List.not_mem_nil) 0
  obtain ⟨k₂, h₂, hloop⟩ := foldlM_range (n := gthCount w) (a := k₁.setIndex x ((List.range (gthCount w)).map (k.s.word x.c ia)))
    (step := fun k' i => gthTurn w x k k' (k.s.word x.c ia i, i))
    (fun n k' => k'.Stores k x ((List.range n).flatMap (gthWrites w x k ia tab dst)))
    (fun i hi k' hk' => gthTurn_ok hk hm hi hk') (h₁.setIndex _)
  refine ⟨k₂, h₂, ?_⟩
  obtain ⟨p, hp⟩ := hm.dstAll
  have hspaces : (localAddr x (gthAddr w x k 0) [1] && localAddr x (gthAddr w x k 4) [0, 1] && localAddr x (gthAddr w x k 8) [1] &&
      aligned (gthAddr w x k 0) 256 && aligned (gthAddr w x k 8) 64 &&
      (if gthWeight w x k then aligned (gthAddr w x k 4) 2048 && gatherRow (gthLen w) else aligned (gthAddr w x k 4) 64)) = true := by
    have h0 := localAddr_own (l := [1]) hm.array.whole.own (by simp [hm.idxSpace])
    have h8 := localAddr_own (l := [1]) hp.own (by simp [hm.dstSpace])
    rcases hm.table with ⟨hs, ha, hg⟩ | ⟨hs, ha⟩
    · have h4 := localAddr_own (l := [0, 1]) hm.tabOwn (by simp [hs])
      simp [h0, h4, h8, aligned, hm.idxAligned, hm.dstAligned, gthWeight, hs, ha, hg]
    · have h4 := localAddr_own (l := [0, 1]) hm.tabOwn (by simp [hs])
      simp [h0, h4, h8, aligned, hm.idxAligned, hm.dstAligned, gthWeight, hs, ha]
  have hall : needAll k x [(gthAddr w x k 0, 4 * gthCount w), (gthAddr w x k 8, gthCount w * gthLen w)] = .ok () :=
    needAll_ok fun p' hp' => by
      simp only [List.mem_cons, List.not_mem_nil, or_false] at hp'
      rcases hp' with rfl | rfl
      · exact ⟨_, hm.array.whole.place⟩
      · exact ⟨_, hp.place⟩
  have hindex : ((List.range (gthCount w)).map (k.s.word x.c ia)).findIdx?
      (fun v => v != 0xFFFFFFFF && (bitAt v 31 || decide (gthLimit w x k ≤ v.toNat))) = none := by
    refine List.findIdx?_eq_none_iff.2 fun v hv => ?_
    obtain ⟨i, hi, rfl⟩ := List.mem_map.1 hv
    by_cases hnone : k.s.word x.c ia i = 0xFFFFFFFF
    · simp [hnone]
    · obtain ⟨hlim, hpos, -, -⟩ := hm.index i (List.mem_range.1 hi) hnone
      have hbit : bitAt (k.s.word x.c ia i) 31 = false := Nat.testBit_lt_two_pow hpos
      simp [hbit, hlim]
  have hrows : needAll (k₁.setIndex x ((List.range (gthCount w)).map (k.s.word x.c ia))) x
      ((((List.range (gthCount w)).map (k.s.word x.c ia)).filter fun v => v != 0xFFFFFFFF).map fun v =>
        (gthRow w x k v, gthLen w)) = .ok () := needAll_ok fun p' hp' => by
    obtain ⟨v, hv, rfl⟩ := List.mem_map.1 hp'
    obtain ⟨hv, hne⟩ := List.mem_filter.1 hv
    obtain ⟨i, hi, rfl⟩ := List.mem_map.1 hv
    obtain ⟨-, -, hrow, -⟩ := hm.index i (List.mem_range.1 hi) (by simpa using hne)
    exact ⟨_, ((h₁.setIndex _).reaches hrow).place⟩
  unfold gthRow at hrows
  unfold gthTurn gthRow gthCyc at hloop
  unfold gthWeight at hloop hspaces
  unfold gthAddr gthCount gthLen at *
  unfold gthLimit at hindex
  rw [runGrows]
  simp only [needEng_ok hl, ok_bind, need_true hspaces, hall, gate_free hr, hwords, hindex, hrows, zipIdx_map_range, List.foldlM_map]
  rw [hloop]
  rfl

end

/-- After GROWS each slot is in memory. -/
theorem Rows.readNow {w : BitVec 48} {x : Ctx} {k : Work} {ia : Nat} {tab dst : Nat → Nat} (hm : Rows w x k ia tab dst) {s t : State}
    {c : CoreId} {e : Eng} {j : Job}
    (h : Stored s t c e j ((List.range (gthCount w)).flatMap (gthWrites w x k ia tab dst))) {i : Nat} (hi : i < gthCount w) :
    t.readNow c.val (dst i) (gthLen w) = gthData w x k ia tab i := by
  refine readNow_pieces (gthData_length _ _ _ _ _ _) fun p hp => ?_
  have hmem : gthPiece w x k ia tab dst i p ∈ (List.range (gthCount w)).flatMap (gthWrites w x k ia tab dst) :=
    List.mem_flatMap.2 ⟨i, List.mem_range.2 hi, List.mem_map.2 ⟨p, List.mem_range.2 hp, rfl⟩⟩
  have hread := h.readNow _ hmem ?_
  · rw [gthPiece_length] at hread
    exact hread
  · intro v hv
    obtain ⟨r, hr, hv⟩ := List.mem_flatMap.1 hv
    obtain ⟨q, hq, rfl⟩ := List.mem_map.1 hv
    have hq := List.mem_range.1 hq
    rw [MWrite.Apart, gthPiece_length, gthPiece_length]
    simp only [gthPiece, Ctx.puts]
    by_cases hir : i = r
    · subst hir
      by_cases hpq : p = q
      · exact .inl (by rw [hpq])
      · omega
    · have := hm.dstApart i hi r (List.mem_range.1 hr) hir
      unfold ceilDiv at hp hq
      omega

/-! ### GTOPK -/

/-- Pieces written in one cycle, each with its address, its place and its bytes. -/
theorem Work.Stores.writePieces {k k' : Work} {x : Ctx} {ws : List MWrite} (h : k'.Stores k x ws) (hk : k.Free x)
    {l : List (MAddr × Nat × List Byte)} (hr : ∀ p ∈ l, k.Reaches x p.1 p.2.2.length true p.2.1) (land : Nat) : ∃ k₂ : Work,
      k₂.Stores k x (ws ++ l.map fun p => { land := land, addr := p.2.1, data := p.2.2, eng := x.e.num }) ∧
        k'.writePieces x (l.map fun p => (p.1, p.2.2)) land = .ok k₂ := by
  have key : ∀ (l : List (MAddr × Nat × List Byte)) (ws : List MWrite) (k₁ : Work), k₁.Stores k x ws →
      (∀ p ∈ l, k.Reaches x p.1 p.2.2.length true p.2.1) → ∃ k₂ : Work,
      k₂.Stores k x (ws ++ l.map fun p => { land := land, addr := p.2.1, data := p.2.2, eng := x.e.num }) ∧
        (l.map fun p => (p.1, p.2.2)).foldlM (m := Except Halt) (fun (a : Work) p => a.write x p.1 p.2 land) k₁ = .ok k₂ := by
    intro l
    induction l with
    | nil => exact fun ws k₁ h₁ _ => ⟨k₁, by simpa using h₁, rfl⟩
    | cons p l ih =>
      intro ws k₁ h₁ hreach
      obtain ⟨k₂, h₂, hwrite⟩ := h₁.write hk (hreach p List.mem_cons_self) rfl land
      obtain ⟨k₃, h₃, hrest⟩ := ih _ k₂ h₂ fun q hq => hreach q (List.mem_cons_of_mem _ hq)
      refine ⟨k₃, by simpa using h₃, ?_⟩
      rw [List.map_cons, List.foldlM_cons, hwrite, ok_bind, hrest]
  obtain ⟨k₂, h₂, hfold⟩ := key l ws k' h hr
  refine ⟨k'.oneAccess k₂, h₂.of_state ⟨rfl, rfl, rfl⟩, ?_⟩
  rw [Work.writePieces, hfold]
  rfl

/-- The operands of GTOPK (R110): candidates, results, whether the indices are given. -/
def topBest (w : BitVec 48) : Nat := fld w 24 6 + 1
def topGiven (w : BitVec 48) : Bool := bitAt w 37

/-- What GTOPK asks of its addresses. -/
structure Tops (w : BitVec 48) (x : Ctx) (k : Work) (ka ia va xa : Nat) : Prop where
  spaces : ∀ a ∈ [gthAddr w x k 0, gthAddr w x k 4, gthAddr w x k 8] ++ (if topGiven w then [gthAddr w x k 38] else []),
    aSpace a = 1 ∨ aSpace a = 2
  keyAligned : aOff (gthAddr w x k 0) % 256 = 0
  outAligned : aOff (gthAddr w x k 4) % 4 = 0
  posAligned : aOff (gthAddr w x k 8) % 4 = 0
  keys : k.Array x (gthAddr w x k 0) (gthCount w) ka
  index : topGiven w = true → aOff (gthAddr w x k 38) % 256 = 0 ∧ k.Array x (gthAddr w x k 38) (gthCount w) ia
  out : k.Reaches x (gthAddr w x k 4) (4 * topBest w) true va
  pos : k.Reaches x (gthAddr w x k 8) (4 * topBest w) true xa
  apart : va + 4 * topBest w ≤ xa ∨ xa + 4 * topBest w ≤ va

/-- The index of candidate `i`, and what GTOPK chooses. -/
def topIndex (w : BitVec 48) (x : Ctx) (k : Work) (ia i : Nat) : W32 :=
  if topGiven w then k.s.word x.c ia i else k.sreg x (fld w 32 5) + BitVec.ofNat 32 i
def topChosen (w : BitVec 48) (x : Ctx) (k : Work) (ka ia : Nat) : List (W32 × W32) :=
  topK (bitAt w 30) (bitAt w 31) (topBest w) ((List.range (gthCount w)).map fun i => (k.s.word x.c ka i, topIndex w x k ia i))

theorem topChosen_length (w : BitVec 48) (x : Ctx) (k : Work) (ka ia : Nat) : (topChosen w x k ka ia).length = topBest w :=
  padTo_length _ _ _

theorem bytes32_length (l : List W32) : (bytes32 l).length = 4 * l.length := flatMap_length_const _ (fun _ => leBytes_length 4 _) l

/-- The two writes of GTOPK, in one cycle. -/
def topWrites (w : BitVec 48) (x : Ctx) (k : Work) (ka ia va xa : Nat) : List MWrite :=
  let l := (if topGiven w then 2 * ceilDiv (gthCount w) 64 else ceilDiv (gthCount w) 64) + 20
  [x.puts l va (bytes32 ((topChosen w x k ka ia).map (·.1))), x.puts l xa (bytes32 ((topChosen w x k ka ia).map (·.2)))]

section
variable {m : Byte} {w : BitVec 48} {x : Ctx} {k : Work} (hk : k.Free x) {ka ia va xa : Nat} (hm : Tops w x k ka ia va xa)
  (hu : ((k.s.core x.c).engine x.e).upset = none)
include hk hm

/-- The indices of the candidates, read or counted. -/
theorem Tops.indices {k₁ : Work} (h₁ : k₁.Stores k x []) : ∃ k₂ : Work, k₂.Stores k x [] ∧
    (if topGiven w then readWords k₁ x (gthAddr w x k 38) (gthCount w) (ceilDiv (gthCount w) 64)
      else pure ((List.range (gthCount w)).map fun i => k.sreg x (fld w 32 5) + BitVec.ofNat 32 i, k₁)) =
        .ok ((List.range (gthCount w)).map (topIndex w x k ia), k₂) := by
  unfold topIndex
  by_cases hg : topGiven w = true
  · obtain ⟨k₂, h₂, hread⟩ := readWords_ok hk h₁ (hm.index hg).2 (fun v hv => absurd hv List.not_mem_nil) (ceilDiv (gthCount w) 64)
    simp only [hg, if_true]
    exact ⟨k₂, h₂, hread⟩
  · simp only [Bool.eq_false_iff.2 hg, Bool.false_eq_true, if_false]
    exact ⟨k₁, h₁, rfl⟩

include hu in
theorem runGtopk_ok (hl : legalEng 0x71 m w = true) (hr : k.Ungated x) :
    ∃ k₂ : Work, k₂.Stores k x (topWrites w x k ka ia va xa) ∧ runGtopk m w x k = .ok (finish x k₂) := by
  obtain ⟨k₁, h₁, hkeys⟩ := readWords_ok hk hk.stores hm.keys (fun v hv => absurd hv List.not_mem_nil) 0
  obtain ⟨k₂, h₂, hidx⟩ := hm.indices hk h₁
  have h₃ : (if topGiven w then (k₂.setKeys x ((List.range (gthCount w)).map (k.s.word x.c ka))).setIndex x
      ((List.range (gthCount w)).map (topIndex w x k ia)) else k₂.setKeys x ((List.range (gthCount w)).map (k.s.word x.c ka))).Stores
        k x [] := by
    split
    · exact (h₂.setKeys _).setIndex _
    · exact h₂.setKeys _
  have hlen : ∀ f : W32 × W32 → W32, (bytes32 ((topChosen w x k ka ia).map f)).length = 4 * topBest w := fun f => by
    rw [bytes32_length, List.length_map, topChosen_length]
  obtain ⟨k₄, h₄, hwrite⟩ := h₃.writePieces hk (l := [(gthAddr w x k 4, va, bytes32 ((topChosen w x k ka ia).map (·.1))),
    (gthAddr w x k 8, xa, bytes32 ((topChosen w x k ka ia).map (·.2)))]) (fun p hp => by
      simp only [List.mem_cons, List.not_mem_nil, or_false] at hp
      rcases hp with rfl | rfl
      · exact (hlen _).symm ▸ hm.out
      · exact (hlen _).symm ▸ hm.pos) (x.at ((if topGiven w then 2 * ceilDiv (gthCount w) 64 else ceilDiv (gthCount w) 64) + 20))
  refine ⟨k₄, h₄, ?_⟩
  have hclear : Work.clear (if topGiven w then (k₂.setKeys x ((List.range (gthCount w)).map (k.s.word x.c ka))).setIndex x
      ((List.range (gthCount w)).map (topIndex w x k ia)) else k₂.setKeys x ((List.range (gthCount w)).map (k.s.word x.c ka))) x
        .gatherCompare .residueMismatch 0x09 = .ok () := by
    rw [Work.clear, needF, h₃.core.engine x.e, hu]
    rfl
  have hspaces : (localAddr x (gthAddr w x k 0) [1, 2] && localAddr x (gthAddr w x k 4) [1, 2] &&
      localAddr x (gthAddr w x k 8) [1, 2] && aligned (gthAddr w x k 0) 256 && aligned (gthAddr w x k 4) 4 &&
      aligned (gthAddr w x k 8) 4 && (!topGiven w || (localAddr x (gthAddr w x k 38) [1, 2] && aligned (gthAddr w x k 38) 256))) =
        true := by
    have h1 := hm.spaces
    have hown : topGiven w = true → aCore (gthAddr w x k 38) = x.c := fun hg => (hm.index hg).2.whole.own
    have halign : topGiven w = true → aOff (gthAddr w x k 38) % 256 = 0 := fun hg => (hm.index hg).1
    have hlocal : ∀ a, aCore a = x.c → (aSpace a = 1 ∨ aSpace a = 2) → localAddr x a [1, 2] = true := fun a hc ha =>
      localAddr_own hc (by simpa using ha)
    have h0 := hlocal _ hm.keys.whole.own (h1 _ (by simp))
    have h4 := hlocal _ hm.out.own (h1 _ (by simp))
    have h8 := hlocal _ hm.pos.own (h1 _ (by simp))
    cases hg : topGiven w
    · simp [h0, h4, h8, aligned, hm.keyAligned, hm.outAligned, hm.posAligned]
    · have h38 := hlocal _ (hown hg) (h1 _ (by simp [hg]))
      simp [h0, h4, h8, h38, aligned, hm.keyAligned, hm.outAligned, hm.posAligned, halign hg]
  have hall : needAll k x ([(gthAddr w x k 0, 4 * gthCount w), (gthAddr w x k 4, 4 * topBest w), (gthAddr w x k 8, 4 * topBest w)] ++
      (if topGiven w then [(gthAddr w x k 38, 4 * gthCount w)] else [])) = .ok () := needAll_ok fun p hp => by
    rcases List.mem_append.1 hp with hp | hp
    · simp only [List.mem_cons, List.not_mem_nil, or_false] at hp
      rcases hp with rfl | rfl | rfl
      · exact ⟨_, hm.keys.whole.place⟩
      · exact ⟨_, hm.out.place⟩
      · exact ⟨_, hm.pos.place⟩
    · split at hp
      · next hg =>
        obtain rfl := List.mem_singleton.1 hp
        exact ⟨_, (hm.index hg).2.whole.place⟩
      · exact absurd hp List.not_mem_nil
  unfold topChosen at hwrite
  unfold topIndex at hclear hidx hwrite
  unfold gthAddr gthCount topBest topGiven at *
  rw [runGtopk]
  simp only [needEng_ok hl, ok_bind, need_true hspaces, hall, gate_free hr, hkeys, hidx, hclear, List.zip_map']
  simp only [List.map_cons, List.map_nil] at hwrite
  rw [hwrite]
  rfl

end

/-- After GTOPK the chosen keys and indices are in memory. -/
theorem Tops.readNow {w : BitVec 48} {x : Ctx} {k : Work} {ka ia va xa : Nat} (hm : Tops w x k ka ia va xa) {s t : State}
    {c : CoreId} {e : Eng} {j : Job} (h : Stored s t c e j (topWrites w x k ka ia va xa)) :
    t.readNow c.val va (4 * topBest w) = bytes32 ((topChosen w x k ka ia).map (·.1)) ∧
      t.readNow c.val xa (4 * topBest w) = bytes32 ((topChosen w x k ka ia).map (·.2)) := by
  have hlen : ∀ f : W32 × W32 → W32, (bytes32 ((topChosen w x k ka ia).map f)).length = 4 * topBest w := fun f => by
    rw [bytes32_length, List.length_map, topChosen_length]
  have hapart := hm.apart
  have h1 := h.readNow _ List.mem_cons_self fun v hv => by
    obtain rfl | hv := List.mem_cons.1 hv
    · exact .inl rfl
    · obtain rfl := List.mem_singleton.1 hv
      right
      simp only [MWrite.Apart, Ctx.puts, hlen]
      omega
  have h2 := h.readNow _ (List.mem_cons_of_mem _ List.mem_cons_self) fun v hv => by
    obtain rfl | hv := List.mem_cons.1 hv
    · right
      simp only [MWrite.Apart, Ctx.puts, hlen]
      omega
    · obtain rfl := List.mem_singleton.1 hv
      exact .inl rfl
  simp only [Ctx.puts, hlen] at h1 h2
  exact ⟨h1, h2⟩

end Sys2Proof.Machine
end


section
/-!
PROOFS. GDISP (R111): the dispatch keeps one entry list per expert, each expert's bobbin is filled by one write, and the
obligation of the gather engine.
-/
namespace Sys2Proof.Machine

/-! ### The dispatch -/

theorem setNth_length {α : Type} (a : α) (l : List α) (i : Nat) : (setNth a l i).length = l.length := by
  induction l generalizing i with
  | nil => rfl
  | cons b t ih =>
    cases i with
    | zero => rfl
    | succ i => simp [setNth, ih]

/-- A dispatch keeps the numbers of entry lists and of dropped counts. -/
theorem dispatch_length (first kc : Nat) (caps : List Nat) (choices gates : List W32) :
    (dispatch first kc caps choices gates).entries.length = caps.length ∧
      (dispatch first kc caps choices gates).dropped.length = caps.length := by
  have key : ∀ (l : List ((W32 × W32) × Nat)) (d : Dispatch), d.entries.length = caps.length → d.dropped.length = caps.length →
      (l.foldl (fun d c => d.choice first caps (c.2 / kc) c.1) d).entries.length = caps.length ∧
        (l.foldl (fun d c => d.choice first caps (c.2 / kc) c.1) d).dropped.length = caps.length := by
    intro l
    induction l with
    | nil => exact fun d h1 h2 => ⟨h1, h2⟩
    | cons c l ih =>
      intro d h1 h2
      refine ih _ ?_ ?_
      all_goals
        unfold Dispatch.choice
        simp only
        split
        · assumption
        · split <;> simp [setNth_length, h1, h2]
  exact key _ _ (by simp) (by simp)

/-! ### Bobbins -/

/-- Fields of the bobbins of a pass are within those of the descriptor (table "Bobbin descriptor"). -/
theorem bobs_fields {s : State} {j : Job} {b : Bob} (h : b ∈ s.bobs j) : b.space < 4 ∧ b.base < 2 ^ 32 := by
  unfold State.bobs at h
  split at h
  · obtain ⟨o, -, rfl⟩ := List.mem_map.1 h
    exact ⟨Nat.mod_lt _ (by decide), Nat.mod_lt _ (by decide)⟩
  · exact absurd h List.not_mem_nil

/-- The address at which a bobbin lies in a core. -/
def Bob.addr (b : Bob) (c : Nat) : MAddr := BitVec.ofNat 48 (absAddr b.space c b.base)

theorem Bob.addr_fields {b : Bob} (hs : b.space < 4) (hb : b.base < 2 ^ 32) {c : Nat} (hc : c < 1728) :
    aSpace (b.addr c) = b.space ∧ aOff (b.addr c) = b.base ∧ aCore (b.addr c) = c := by
  simp only [Bob.addr, aSpace, aOff, aCore, fld, absAddr, BitVec.toNat_ofNat, Nat.shiftRight_eq_div_pow]
  omega

/-- The range that GDISP fills of a bobbin. -/
def Bob.whole (b : Bob) : Range := { space := b.space, off := b.base, len := b.size, write := true }

theorem Bob.touched_whole {b : Bob} (hp : b.producer = 3) (hs : 0 < b.size) : b.touched 3 b.whole = true := by
  simp [Bob.touched, Bob.whole, common, hp, hs]

/-- An empty bobbin that has never changed. -/
structure Bobbin.Fresh (v : Bobbin) : Prop where
  state : v.state = .empty
  count : v.count = 0
  was : v.was = .empty
  trans : v.trans = []

theorem Bobbin.Fresh.view {v : Bobbin} (h : v.Fresh) (t : Nat) : v.view t = .empty := by
  rw [Bobbin.view, h.trans, h.was]
  rfl

theorem Bobbin.Fresh.settle {v : Bobbin} (h : v.Fresh) (t : Nat) : (v.settle t).Fresh :=
  ⟨h.state, h.count, h.view t, by rw [Bobbin.settle, h.trans]; rfl⟩

/-- A write of a whole bobbin makes an empty one full. -/
theorem bobCount_whole {b : Bob} {v : Bobbin} (h : v.Fresh) (cyc : Nat) (d : Byte) :
    bobCount b v true (common b.base b.size b.base b.size) cyc d = .ok ({ v with count := 0 }.enter cyc .full) := by
  have hc : common b.base b.size b.base b.size = b.size := by simp [common]
  unfold bobCount
  rw [hc, h.state, h.view, h.count]
  simp [permits]

/-- The state with a bobbin of a core replaced. -/
def State.fill (s : State) (c n : Nat) (v : Bobbin) : State :=
  s.updCore c fun k => { k with bobbins := AMap.set Bobbin.reset k.bobbins n v }

theorem bobbin_enter_full (v : Bobbin) (t : Nat) : (v.enter t .full).state = .full := by
  unfold Bobbin.enter
  split
  · next h => exact h
  · rfl

/-- Of the bobbins of a pass only `b` is touched by a write of all of it. -/
theorem touched_single {l : List Bob} {b : Bob} (hn : l.Nodup) (hb : b ∈ l) (hself : b.touched 3 b.whole = true)
    (hother : ∀ o ∈ l, o ≠ b → o.touched 3 b.whole = false) : l.filter (fun o => o.touched 3 b.whole) = [b] := by
  induction l with
  | nil => exact absurd hb List.not_mem_nil
  | cons o l ih =>
    obtain ⟨hnot, hn⟩ := List.nodup_cons.1 hn
    by_cases ho : o = b
    · subst ho
      rw [List.filter_cons, if_pos hself, List.filter_eq_nil_iff.2]
      intro p hp
      have := hother p (List.mem_cons_of_mem _ hp) fun h => hnot (h ▸ hp)
      simp [this]
    · rw [List.filter_cons_of_neg (by simp [hother o List.mem_cons_self ho])]
      exact ih hn ((List.mem_cons.1 hb).resolve_left (Ne.symm ho)) fun p hp => hother p (List.mem_cons_of_mem _ hp)

/-- A write of all of an empty bobbin is counted in that bobbin only, and makes it full. -/
theorem bobAccess_whole {s : State} {c : Nat} {j : Job} {b : Bob} (hb : b ∈ s.bobs j) (hn : (s.bobs j).Nodup)
    (hp : b.producer = 3) (hs : 0 < b.size) (hother : ∀ o ∈ s.bobs j, o ≠ b → o.touched 3 b.whole = false)
    (hf : (AMap.get Bobbin.reset (s.core c).bobbins b.num).Fresh) (cyc : Nat) (d : Byte) :
    ∃ v : Bobbin, v.state = .full ∧ s.bobAccess c j 3 b.whole cyc d = .ok (s.fill c b.num v) := by
  refine ⟨{ (AMap.get Bobbin.reset (s.core c).bobbins b.num).settle (s.core c).horizon with count := 0 }.enter cyc .full,
    bobbin_enter_full _ _, ?_⟩
  rw [State.bobAccess, touched_single hn hb (Bob.touched_whole hp hs) hother]
  simp only [List.foldlM_cons, List.foldlM_nil]
  rw [show bobCount b _ b.whole.write (common b.base b.size b.whole.off b.whole.len) cyc d = _ from
    bobCount_whole (hf.settle (s.core c).horizon) cyc d]
  rfl

/-- Writes to empty bobbins do not make an instruction wait (R184). -/
theorem gate_fresh {k : Work} {x : Ctx} {rs : List Range} (he : k.s.ecc = []) (hr : x.r = x.t)
    (h : ∀ o ∈ gateBobs x k rs, o.2.1 = true ∧ o.2.2.Fresh) : gate x k rs = .ok (x, k) := by
  have hrefuses : ∀ t, ∀ o ∈ gateBobs x k rs, refuses t o = false := fun t o ho => by
    rw [refuses, (h o ho).1, (h o ho).2.view]
    rfl
  have hfold : ∀ l : List (Bob × Bool × Bobbin),
      l.foldlM (m := Except Halt) (fun (w : Work) o => w.syncWord x (0x400 + 8 * o.1.num)) k = .ok k := by
    intro l
    induction l with
    | nil => rfl
    | cons o l ih => rw [List.foldlM_cons, Work.syncWord, he]; exact ih
  have htrans : ((gateBobs x k rs).flatMap fun o => o.2.2.trans.map (·.1)) = [] :=
    List.flatMap_eq_nil_iff.2 fun o ho => by rw [(h o ho).2.trans]; rfl
  have hany : ∀ t, ((gateBobs x k rs).any (refuses t)) = false := fun t =>
    List.any_eq_false.2 fun o ho => by simp [hrefuses t o ho]
  have hgrace : graceEnd x.head (gateBobs x k rs) = none := by
    rw [graceEnd, List.filter_eq_nil_iff.2 fun o ho => by simp [hrefuses _ o ho]]
  rw [gate]
  simp only [hfold, ok_bind, htrans, List.filter_nil, hany, Bool.not_false, List.filter_cons_of_pos, hgrace, Option.filter_none]
  simp [hr]

/-! ### GDISP -/

/-- Fields and registers of GDISP (R111). -/
def dspKc (w : BitVec 48) : Nat := fld w 24 3 + 1
def dspN (w : BitVec 48) : Nat := gthCount w * dspKc w
def dspExperts (w : BitVec 48) : Nat := fld w 27 6 + 1
def dspFirst (w : BitVec 48) (x : Ctx) (k : Work) : Nat := (k.sreg x (fld w 33 5)).toNat

/-- What GDISP asks of its addresses and of the bobbins that it fills. -/
structure Dispatches (w : BitVec 48) (x : Ctx) (k : Work) (bob : Nat → Bob) (babs : Nat → Nat) (ca ga na : Nat) : Prop where
  spaces : ∀ a ∈ [gthAddr w x k 0, gthAddr w x k 4, gthAddr w x k 8], aSpace a = 1 ∨ aSpace a = 2
  choiceAligned : aOff (gthAddr w x k 0) % 256 = 0
  gateAligned : aOff (gthAddr w x k 4) % 256 = 0
  outAligned : aOff (gthAddr w x k 8) % 4 = 0
  choices : k.Array x (gthAddr w x k 0) (dspN w) ca
  gates : k.Array x (gthAddr w x k 4) (dspN w) ga
  counts : k.Reaches x (gthAddr w x k 8) (8 * dspExperts w) true na
  found : ∀ e < dspExperts w, (k.s.bobs x.job).find? (fun b => b.num == fld w 38 8 + e) = some (bob e)
  producer : ∀ e < dspExperts w, (bob e).producer = 3
  size : ∀ e < dspExperts w, 0 < (bob e).size
  place : ∀ e < dspExperts w, k.s.resolve x.job.fn ((bob e).addr x.c) (bob e).size = .ok (x.c, babs e)
  fresh : ∀ b ∈ k.s.bobs x.job, (AMap.get Bobbin.reset (k.s.core x.c).bobbins b.num).Fresh
  others : ∀ b ∈ k.s.bobs x.job, ∀ e < dspExperts w, b ≠ bob e → b.touched 3 (bob e).whole = false
  nodup : (k.s.bobs x.job).Nodup
  apart : ∀ e < dspExperts w, ∀ f < dspExperts w, e ≠ f → babs e + (bob e).size ≤ babs f ∨ babs f + (bob f).size ≤ babs e
  countsApart : ∀ e < dspExperts w, na + 8 * dspExperts w ≤ babs e ∨ babs e + (bob e).size ≤ na
  engine : x.e = .gxe
  core : x.c < 1728

/-- The dispatch of the arrays in memory, and the bytes of a bobbin and of the counts. -/
def dspResult (w : BitVec 48) (x : Ctx) (k : Work) (bob : Nat → Bob) (ca ga : Nat) : Dispatch :=
  dispatch (dspFirst w x k) (dspKc w) ((List.range (dspExperts w)).map fun e => (bob e).capacity)
    ((List.range (dspN w)).map (k.s.word x.c ca)) ((List.range (dspN w)).map (k.s.word x.c ga))
def dspFill (w : BitVec 48) (x : Ctx) (k : Work) (bob : Nat → Bob) (ca ga e : Nat) : List Byte :=
  padTo (bob e).size 0 (bobbinFill (bob e).capacity (nth [] (dspResult w x k bob ca ga).entries e))
def dspCounts (w : BitVec 48) (x : Ctx) (k : Work) (bob : Nat → Bob) (ca ga : Nat) : List Byte :=
  bytes32 (((dspResult w x k bob ca ga).entries.map fun l => BitVec.ofNat 32 l.length) ++
    (dspResult w x k bob ca ga).dropped.map fun v => BitVec.ofNat 32 v)
/-- The cycle, counted from the issue, in which GDISP's writes land. -/
def dspLand (w : BitVec 48) : Nat := 2 + gthCount w + 16
def dspPut (w : BitVec 48) (x : Ctx) (k : Work) (bob : Nat → Bob) (babs : Nat → Nat) (ca ga e : Nat) : MWrite :=
  x.puts (dspLand w) (babs e) (dspFill w x k bob ca ga e)
def dspWrites (w : BitVec 48) (x : Ctx) (k : Work) (bob : Nat → Bob) (babs : Nat → Nat) (ca ga na : Nat) : List MWrite :=
  (List.range (dspExperts w)).map (dspPut w x k bob babs ca ga) ++ [x.puts (dspLand w) na (dspCounts w x k bob ca ga)]

theorem dspCounts_length (w : BitVec 48) (x : Ctx) (k : Work) (bob : Nat → Bob) (ca ga : Nat) :
    (dspCounts w x k bob ca ga).length = 8 * dspExperts w := by
  obtain ⟨h1, h2⟩ := dispatch_length (dspFirst w x k) (dspKc w) ((List.range (dspExperts w)).map fun e => (bob e).capacity)
    ((List.range (dspN w)).map (k.s.word x.c ca)) ((List.range (dspN w)).map (k.s.word x.c ga))
  rw [dspCounts, bytes32_length, List.length_append, List.length_map, List.length_map, dspResult, h1, h2, List.length_map,
    List.length_range]
  omega

theorem dspFill_length (w : BitVec 48) (x : Ctx) (k : Work) (bob : Nat → Bob) (ca ga e : Nat) :
    (dspFill w x k bob ca ga e).length = (bob e).size := padTo_length _ _ _

section
variable {m : Byte} {w : BitVec 48} {x : Ctx} {k : Work} (hk : k.Free x) {bob : Nat → Bob} {babs : Nat → Nat} {ca ga na : Nat}
  (hm : Dispatches w x k bob babs ca ga na)
include hm

theorem Dispatches.mem {e : Nat} (he : e < dspExperts w) : bob e ∈ k.s.bobs x.job := List.mem_of_find?_eq_some (hm.found e he)

theorem Dispatches.num {e : Nat} (he : e < dspExperts w) : (bob e).num = fld w 38 8 + e := by
  simpa using List.find?_some (hm.found e he)

/-- The bobbins that GDISP fills do not make it wait. -/
theorem Dispatches.gate (hr : x.r = x.t) (he : k.s.ecc = []) : gate x k (rangeOf x (gthAddr w x k 0) (4 * dspN w) false ++
    rangeOf x (gthAddr w x k 4) (4 * dspN w) false ++ rangeOf x (gthAddr w x k 8) (8 * dspExperts w) true ++
      (List.range (dspExperts w)).map fun e => (bob e).whole) = .ok (x, k) := by
  refine gate_fresh he hr fun o ho => ?_
  obtain ⟨b, hb, hob⟩ := List.mem_filterMap.1 ho
  split at hob
  · next r hfind =>
    obtain rfl := Option.some.inj hob
    refine ⟨?_, hm.fresh b hb⟩
    have htouch := List.find?_some hfind
    have hmem := List.mem_of_find?_eq_some hfind
    have hclear : ∀ {a : MAddr} {n base : Nat} {write : Bool}, k.Reaches x a n write base → r ∉ rangeOf x a n write := fun hreach hr => by
      have := rangeOf_clear hreach.bobbin r hr b hb
      rw [this] at htouch
      exact absurd htouch Bool.false_ne_true
    rcases List.mem_append.1 hmem with hmem | hmem
    · simp only [List.mem_append] at hmem
      rcases hmem with (hmem | hmem) | hmem
      · exact absurd hmem (hclear hm.choices.whole)
      · exact absurd hmem (hclear hm.gates.whole)
      · exact absurd hmem (hclear hm.counts)
    · obtain ⟨e, -, rfl⟩ := List.mem_map.1 hmem
      rfl
  · exact absurd hob (Option.some_ne_none o).symm

/-! ### Reading the choices -/

omit hm in
/-- A read keeps the bobbins of the core. -/
theorem dspRead_ok {k₁ : Work} (hk : k.Free x) (h₁ : k₁.Stores k x []) (hb : (k₁.s.core x.c).bobbins = (k.s.core x.c).bobbins)
    {a : MAddr} {n base : Nat} (hr : k.Reaches x a n false base) (cyc : Nat) : ∃ k₂ : Work, k₂.Stores k x [] ∧
      (k₂.s.core x.c).bobbins = (k.s.core x.c).bobbins ∧ k₁.read x a n cyc = .ok (k.s.readNow x.c base n, k₂) := by
  refine ⟨k₁.didRead (portsOf (aSpace a) (base % 2 ^ 32) n cyc x.e.num false) (aSpace a) cyc, h₁.of_state ⟨rfl, rfl, rfl⟩, hb, ?_⟩
  rw [Work.read, (h₁.reaches hr).readVia (by rw [h₁.ecc, hk.ecc]; rfl), h₁.readAt hk fun v hv => absurd hv List.not_mem_nil, hk.readAt]

/-- The cycle, counted from the issue, in which pair `p` of rows is read. -/
def dspAt (w : BitVec 48) (p : Nat) : Nat := if p = 0 then 0 else 2 + 64 * (p - 1) / dspKc w

/-- A turn of GDISP's reading loop, with the addresses that the instruction has read in `k`. -/
def dspTurn (w : BitVec 48) (x : Ctx) (k : Work) (o : List Byte × List Byte × Work) (p : Nat) :
    Except Halt (List Byte × List Byte × Work) := do
  let len := min 256 (4 * dspN w - 256 * p)
  let (c, k') ← o.2.2.read x (plus (gthAddr w x k 0) (256 * p)) len (x.at (dspAt w p))
  let (g, k') ← k'.read x (plus (gthAddr w x k 4) (256 * p)) len (x.at (dspAt w p + 1))
  pure (o.1 ++ c, o.2.1 ++ g, (k'.setIndex x (words32 c)).setKeys x (words32 g))

include hk in
theorem dspRows_ok : ∃ k₂ : Work, k₂.Stores k x [] ∧ (k₂.s.core x.c).bobbins = (k.s.core x.c).bobbins ∧
    (List.range (ceilDiv (dspN w) 64)).foldlM (dspTurn w x k) ([], [], k) =
      .ok (k.s.readNow x.c ca (4 * dspN w), k.s.readNow x.c ga (4 * dspN w), k₂) := by
  obtain ⟨⟨cs, gs, k₂⟩, ⟨hcs, hgs, h₂, hb⟩, hloop⟩ := foldlM_range (n := ceilDiv (dspN w) 64) (step := dspTurn w x k)
    (a := (([] : List Byte), ([] : List Byte), k))
    (fun n o => o.1 = ((List.range n).flatMap fun r => k.s.readNow x.c (ca + 256 * r) (min 256 (4 * dspN w - 256 * r))) ∧
      o.2.1 = ((List.range n).flatMap fun r => k.s.readNow x.c (ga + 256 * r) (min 256 (4 * dspN w - 256 * r))) ∧
      o.2.2.Stores k x [] ∧ (o.2.2.s.core x.c).bobbins = (k.s.core x.c).bobbins)
    (fun i hi o ho => by
      obtain ⟨cs, gs, k₁⟩ := o
      obtain ⟨rfl, rfl, h₁, hb₁⟩ := ho
      obtain ⟨k₂, h₂, hb₂, hc⟩ := dspRead_ok hk h₁ hb₁ (hm.choices.row i hi) (x.at (dspAt w i))
      obtain ⟨k₃, h₃, hb₃, hg⟩ := dspRead_ok hk h₂ hb₂ (hm.gates.row i hi) (x.at (dspAt w i + 1))
      refine ⟨((List.range (i + 1)).flatMap fun r => k.s.readNow x.c (ca + 256 * r) (min 256 (4 * dspN w - 256 * r)),
        (List.range (i + 1)).flatMap fun r => k.s.readNow x.c (ga + 256 * r) (min 256 (4 * dspN w - 256 * r)),
        (k₃.setIndex x (words32 (k.s.readNow x.c (ca + 256 * i) (min 256 (4 * dspN w - 256 * i))))).setKeys x
          (words32 (k.s.readNow x.c (ga + 256 * i) (min 256 (4 * dspN w - 256 * i))))),
        ⟨rfl, rfl, (h₃.setIndex _).setKeys _, ?_⟩, ?_⟩
      · simp only [Work.setKeys, Work.setIndex, State.core_updCore_same]
        exact hb₃
      · rw [List.range_succ, List.flatMap_append, List.flatMap_singleton, List.flatMap_append, List.flatMap_singleton]
        unfold dspTurn
        simp only [hc, hg, ok_bind]
        rfl) ⟨rfl, rfl, hk.stores, rfl⟩
  rw [← ceilDiv_words, readNow_flatMap _ _ _ _ (by decide)] at hcs hgs
  obtain rfl := hcs
  obtain rfl := hgs
  exact ⟨k₂, h₂, hb, hloop⟩

/-! ### Filling the bobbins -/

omit hm in
/-- A write that meets no bobbin keeps those of the core. -/
theorem Work.Stores.write_bobbins {k' : Work} {ws : List MWrite} (h : k'.Stores k x ws) (hk : k.Free x) {a : MAddr} {n abs : Nat}
    (hr : k.Reaches x a n true abs) {d : List Byte} (hd : d.length = n) (land : Nat) : ∃ k₂ : Work,
      k₂.Stores k x (ws ++ [{ land := land, addr := abs, data := d, eng := x.e.num }]) ∧
        (k₂.s.core x.c).bobbins = (k'.s.core x.c).bobbins ∧ k'.write x a d land = .ok k₂ := by
  refine ⟨k'.didWrite x (portsOf (aSpace a) (abs % 2 ^ 32) d.length land x.e.num true) (aSpace a) abs d land,
    h.didWrite hk _ _ d land, ?_, (h.reaches hr).writeVia hd _ land⟩
  rw [Work.core_didWrite]

/-- The work with a bobbin of its core replaced. -/
def Work.fill (k : Work) (x : Ctx) (n : Nat) (v : Bobbin) : Work := { k with s := k.s.fill x.c n v }

omit hm in
theorem Work.Stores.resolve {k' : Work} {ws : List MWrite} (h : k'.Stores k x ws) (f : FnId) (a : MAddr) (n : Nat) :
    k'.s.resolve f a n = k.s.resolve f a n := by
  rw [h.rest]
  rfl

omit hm in
theorem Work.Stores.fill {k' : Work} {ws : List MWrite} (h : k'.Stores k x ws) (n : Nat) (v : Bobbin) :
    (k'.fill x n v).Stores k x ws := h.updCore (fun _ => rfl) fun _ => rfl

/-- A bobbin that GDISP marks as full in a cycle. -/
def Bobbin.fullAt (v : Bobbin) (t : Nat) : Bobbin := Bobbin.enter { v with count := 0 } t .full
def Work.seal (k : Work) (x : Ctx) (n t : Nat) : Work :=
  { k with s := k.s.updCore x.c fun o => { o with bobbins := AMap.upd Bobbin.reset o.bobbins n fun v => v.fullAt t } }

omit hm in
/-- A write whose count makes bobbin `n` become `v`. -/
theorem writeFree_of_access {k₁ : Work} {a : MAddr} {d : List Byte} {size abs n land : Nat} {v : Bobbin} (hlen : d.length = size)
    (hplace : k₁.s.resolve x.job.fn a size = .ok (x.c, abs)) (hclaims : (k₁.s.core x.c).claims = [])
    (haccess : k₁.s.bobAccess x.c x.job x.e.num ⟨aSpace a, aOff a, size, true⟩ land 0x03 = .ok (k₁.s.fill x.c n v)) :
    k₁.writeFree x a d land = .ok ((k₁.fill x n v).didWrite x [] (aSpace a) abs d land) := by
  rw [Work.writeFree, Work.writeVia]
  simp only [hlen, hplace, Work.claim_free hclaims, ok_bind, haccess]
  rw [Work.didWrite, hlen]
  rfl

omit hm in
theorem Work.Stores.seal {k' : Work} {ws : List MWrite} (h : k'.Stores k x ws) (n t : Nat) :
    (k'.seal x n t).Stores k x ws := h.updCore (fun _ => rfl) fun _ => rfl

/-- The bobbins after the first `n` experts have been filled. -/
structure Filled (k k' : Work) (x : Ctx) (bob : Nat → Bob) (n total : Nat) : Prop where
  full : ∀ e < n, (AMap.get Bobbin.reset (k'.s.core x.c).bobbins (bob e).num).state = .full
  fresh : ∀ e, n ≤ e → e < total → (AMap.get Bobbin.reset (k'.s.core x.c).bobbins (bob e).num).Fresh

/-- A turn of the loop that fills the bobbins. -/
def dspStep (w : BitVec 48) (x : Ctx) (k' : Work) (p : Option Bob × Nat × List (W32 × W32)) : Except Halt Work :=
  match p.1 with
  | some b => do
    let k' ← k'.writeFree x (b.addr x.c) (padTo b.size 0 (bobbinFill p.2.1 p.2.2)) (x.at (dspLand w))
    let full (v : Bobbin) : Bobbin := Bobbin.enter { v with count := 0 } (x.at (dspLand w)) .full
    pure { k' with s := k'.s.updCore x.c fun o => { o with bobbins := AMap.upd Bobbin.reset o.bobbins b.num full } }
  | none => .ok k'

include hk in
theorem dspStep_ok {e : Nat} (he : e < dspExperts w) {k₁ : Work} {ws : List MWrite} (h₁ : k₁.Stores k x ws)
    (hf : Filled k k₁ x bob e (dspExperts w)) (l : List (W32 × W32)) : ∃ k₂ : Work,
      k₂.Stores k x (ws ++ [x.puts (dspLand w) (babs e) (padTo (bob e).size 0 (bobbinFill (bob e).capacity l))]) ∧
      Filled k k₂ x bob (e + 1) (dspExperts w) ∧ dspStep w x k₁ (some (bob e), (bob e).capacity, l) = .ok k₂ := by
  have hmem := hm.mem he
  obtain ⟨hspace, hbase⟩ := bobs_fields hmem
  obtain ⟨h1, h2, h3⟩ := Bob.addr_fields hspace hbase hm.core
  have hlen : (padTo (bob e).size (0 : Byte) (bobbinFill (bob e).capacity l)).length = (bob e).size := padTo_length _ _ _
  have hbobs : k₁.s.bobs x.job = k.s.bobs x.job := by rw [h₁.rest]; rfl
  have hplace := (h₁.resolve x.job.fn ((bob e).addr x.c) (bob e).size).trans (hm.place e he)
  have hclaims : (k₁.s.core x.c).claims = [] := by
    rw [h₁.core]
    exact hk.claims
  generalize hd : padTo (bob e).size (0 : Byte) (bobbinFill (bob e).capacity l) = d at hlen ⊢
  obtain ⟨v, hv, hbob⟩ := bobAccess_whole (hbobs ▸ hmem) (hbobs ▸ hm.nodup) (hm.producer e he) (hm.size e he)
    (fun o ho hne => hm.others o (hbobs ▸ ho) e he hne) (hf.fresh e le_rfl he) (x.at (dspLand w)) 0x03
  have haccess : k₁.s.bobAccess x.c x.job x.e.num ⟨aSpace ((bob e).addr x.c), aOff ((bob e).addr x.c), (bob e).size, true⟩
      (x.at (dspLand w)) 0x03 = .ok (k₁.s.fill x.c (bob e).num v) := by
    rw [h1, h2, hm.engine]
    exact hbob
  have h₂ := (h₁.fill (bob e).num v).didWrite (abs := babs e) hk [] (aSpace ((bob e).addr x.c)) d (x.at (dspLand w))
  have hwrite := writeFree_of_access hlen hplace hclaims haccess
  have hbobbins : ∀ n, AMap.get Bobbin.reset (((k₁.fill x (bob e).num v).didWrite x [] (aSpace ((bob e).addr x.c)) (babs e) d
      (x.at (dspLand w))).s.core x.c).bobbins n = AMap.get Bobbin.reset (AMap.set Bobbin.reset (k₁.s.core x.c).bobbins (bob e).num v) n :=
    fun n => by
      rw [Work.core_didWrite]
      simp only [Work.fill, State.fill, State.core_updCore_same]
  have hother : ∀ n, n ≠ (bob e).num → AMap.get Bobbin.reset (AMap.set Bobbin.reset (k₁.s.core x.c).bobbins (bob e).num v) n =
    AMap.get Bobbin.reset (k₁.s.core x.c).bobbins n := fun n hn => AMap.get_set_other _ _ _ hn
  refine ⟨_, h₂.seal (bob e).num (x.at (dspLand w)), ⟨fun f hf' => ?_, fun f hf' hlt => ?_⟩, ?_⟩
  · simp only [Work.seal, State.core_updCore_same]
    by_cases hfe : (bob f).num = (bob e).num
    · rw [hfe, AMap.get_upd_same]
      exact bobbin_enter_full _ _
    · have hlt : f < e := (Nat.lt_succ_iff_lt_or_eq.1 hf').resolve_right fun h => hfe (by rw [h])
      rw [AMap.get_upd_other _ _ _ hfe, hbobbins, hother _ hfe]
      exact hf.full f hlt
  · have hfe : (bob f).num ≠ (bob e).num := by
      rw [hm.num hlt, hm.num he]
      omega
    simp only [Work.seal, State.core_updCore_same]
    rw [AMap.get_upd_other _ _ _ hfe, hbobbins, hother _ hfe]
    exact hf.fresh f (by omega) hlt
  · unfold dspStep
    simp only [hd, hwrite, ok_bind]
    rfl

include hk in
/-- The loop over the experts fills every bobbin. -/
theorem dspFills_ok {k₁ : Work} (h₁ : k₁.Stores k x []) (hb : (k₁.s.core x.c).bobbins = (k.s.core x.c).bobbins) : ∃ k₂ : Work,
    k₂.Stores k x ((List.range (dspExperts w)).map (dspPut w x k bob babs ca ga)) ∧
    Filled k k₂ x bob (dspExperts w) (dspExperts w) ∧
    (List.zip ((List.range (dspExperts w)).map fun e => some (bob e)) (List.zip ((List.range (dspExperts w)).map fun e =>
      (bob e).capacity) (dspResult w x k bob ca ga).entries)).foldlM (dspStep w x) k₁ = .ok k₂ := by
  have hlen : (dspResult w x k bob ca ga).entries.length = dspExperts w :=
    (dispatch_length _ _ _ _ _).1.trans (by rw [List.length_map, List.length_range])
  have hzip : List.zip ((List.range (dspExperts w)).map fun e => some (bob e)) (List.zip ((List.range (dspExperts w)).map fun e =>
      (bob e).capacity) (dspResult w x k bob ca ga).entries) = (List.range (dspExperts w)).map fun e =>
        (some (bob e), (bob e).capacity, nth [] (dspResult w x k bob ca ga).entries e) := by
    apply List.ext_getElem
    · simp [hlen]
    · intro e h1 h2
      simp only [List.getElem_zip, List.getElem_map, List.getElem_range]
      rw [nth_eq_getElem _ _ _ (by simpa [hlen] using h2)]
  rw [hzip, List.foldlM_map]
  obtain ⟨k₂, ⟨h₂, hfull⟩, hloop⟩ := foldlM_range (n := dspExperts w) (a := k₁)
    (step := fun k' e => dspStep w x k' (some (bob e), (bob e).capacity, nth [] (dspResult w x k bob ca ga).entries e))
    (fun n k' => k'.Stores k x ((List.range n).map (dspPut w x k bob babs ca ga)) ∧ Filled k k' x bob n (dspExperts w))
    (fun e he k' hk' => by
      obtain ⟨k₂, h₂, hf, hstep⟩ := dspStep_ok hk hm he hk'.1 hk'.2 (nth [] (dspResult w x k bob ca ga).entries e)
      refine ⟨k₂, ⟨?_, hf⟩, hstep⟩
      rw [List.range_succ, List.map_append]
      exact h₂)
    ⟨h₁, fun e he => absurd he (Nat.not_lt_zero e), fun e _ he => by
      rw [hb]
      exact hm.fresh _ (hm.mem he)⟩
  exact ⟨k₂, h₂, hfull, hloop⟩

omit hm in
/-- The events of the dropped choices of each token. -/
def dspEvents (l : List Nat) (k : Work) (x : Ctx) : Work := l.zipIdx.foldl (fun (k : Work) t => k.ev 0x28 (x.at (2 + t.2)) 1 t.1) k

omit hm in
theorem dispatch_events (l : List Nat) (k : Work) (x : Ctx) : (dspEvents l k x).SameState k := by
  unfold dspEvents
  generalize l.zipIdx = z
  induction z generalizing k with
  | nil => exact ⟨rfl, rfl, rfl⟩
  | cons t z ih =>
    obtain ⟨h1, h2, h3⟩ := ih (k.ev 0x28 (x.at (2 + t.2)) 1 t.1)
    exact ⟨h1.trans (Work.s_ev ..), h2.trans (Work.recs_ev ..), h3.trans (Work.late_ev ..)⟩

include hk in
theorem runGdisp_ok (hl : legalEng 0x72 m w = true) (hr : x.r = x.t) (hu : ((k.s.core x.c).engine x.e).upset = none) :
    ∃ k₂ : Work, k₂.Stores k x (dspWrites w x k bob babs ca ga na) ∧ Filled k k₂ x bob (dspExperts w) (dspExperts w) ∧
      runGdisp m w x k = .ok (finish x k₂) := by
  obtain ⟨k₁, h₁, hb₁, hrows⟩ := dspRows_ok hk hm
  have h₂ := h₁.of_state (dispatch_events (dspResult w x k bob ca ga).perToken k₁ x)
  obtain ⟨k₃, h₃, hfull, hfills⟩ := dspFills_ok hk hm h₂ (by
    rw [(dispatch_events (dspResult w x k bob ca ga).perToken k₁ x).state]
    exact hb₁)
  have h₄ := h₃.of_state (k' := { k₃ with evs := (dspEvents (dspResult w x k bob ca ga).perToken k₁ x).evs }) ⟨rfl, rfl, rfl⟩
  obtain ⟨k₅, h₅, hb₅, hwrite⟩ := h₄.write_bobbins hk hm.counts (dspCounts_length w x k bob ca ga) (x.at (dspLand w))
  have h0 := localAddr_own (l := [1, 2]) hm.choices.whole.own (by simpa using hm.spaces _ (by simp))
  have h4 := localAddr_own (l := [1, 2]) hm.gates.whole.own (by simpa using hm.spaces _ (by simp))
  have h8 := localAddr_own (l := [1, 2]) hm.counts.own (by simpa using hm.spaces _ (by simp))
  have hspaces : (localAddr x (gthAddr w x k 0) [1, 2] && localAddr x (gthAddr w x k 4) [1, 2] &&
      localAddr x (gthAddr w x k 8) [1, 2] && aligned (gthAddr w x k 0) 256 && aligned (gthAddr w x k 4) 256 &&
      aligned (gthAddr w x k 8) 4) = true := by
    simp [h0, h4, h8, aligned, hm.choiceAligned, hm.gateAligned, hm.outAligned]
  have hall : needAll k x [(gthAddr w x k 0, 4 * dspN w), (gthAddr w x k 4, 4 * dspN w), (gthAddr w x k 8, 8 * dspExperts w)] =
      .ok () := needAll_ok fun p hp => by
    simp only [List.mem_cons, List.not_mem_nil, or_false] at hp
    rcases hp with rfl | rfl | rfl
    · exact ⟨_, hm.choices.whole.place⟩
    · exact ⟨_, hm.gates.whole.place⟩
    · exact ⟨_, hm.counts.place⟩
  have hbobs : ((List.range (dspExperts w)).map fun e => (k.s.bobs x.job).find? fun b => b.num == fld w 38 8 + e) =
      (List.range (dspExperts w)).map fun e => some (bob e) :=
    List.map_congr_left fun e he => hm.found e (List.mem_range.1 he)
  have hfill : (((List.range (dspExperts w)).map fun e => some (bob e)).filterMap id).map (fun b => Bob.whole b) =
      (List.range (dspExperts w)).map fun e => (bob e).whole := by
    rw [List.filterMap_map, show (id ∘ fun e => some (bob e)) = some ∘ bob from rfl, List.filterMap_eq_map, List.map_map]
    rfl
  have hgate := hm.gate hr hk.ecc
  have hclear : k₁.clear x .gatherCompare .residueMismatch 0x09 = .ok () := by
    rw [Work.clear, needF, h₁.core.engine x.e, hu]
    rfl
  refine ⟨k₅, h₅, ⟨fun e he => hb₅ ▸ hfull.full e he, fun e he hlt => hb₅ ▸ hfull.fresh e he hlt⟩, ?_⟩
  rw [← hfill] at hgate
  unfold dspTurn dspAt at hrows
  unfold dspStep dspLand Bob.addr dspResult dspEvents at hfills
  unfold dspCounts dspResult dspLand dspEvents at hwrite
  unfold gthAddr dspN dspExperts dspFirst dspKc gthCount at *
  unfold Bob.whole at hgate
  rw [runGdisp]
  simp only [needEng_ok hl, ok_bind, need_true hspaces, hall, hbobs, hgate]
  rw [hrows]
  simp only [ok_bind, hclear, words32_readNow, List.map_map]
  refine Eq.trans (congrArg (· >>= _) hfills) ?_
  simp only [ok_bind]
  refine Eq.trans (congrArg (· >>= _) hwrite) ?_
  rfl

end

/-- The writes of GDISP stand alone among each other. -/
theorem Dispatches.readNow {w : BitVec 48} {x : Ctx} {k : Work} {bob : Nat → Bob} {babs : Nat → Nat} {ca ga na : Nat}
    (hm : Dispatches w x k bob babs ca ga na) {s t : State} {c : CoreId} {e : Eng} {j : Job}
    (h : Stored s t c e j (dspWrites w x k bob babs ca ga na)) :
    t.readNow c.val na (8 * dspExperts w) = dspCounts w x k bob ca ga ∧
      ∀ e < dspExperts w, t.readNow c.val (babs e) (bob e).size = dspFill w x k bob ca ga e := by
  have hcounts := dspCounts_length w x k bob ca ga
  have hfill := dspFill_length w x k bob ca ga
  have hna := h.readNow _ (List.mem_append_right _ List.mem_cons_self) fun v hv => by
    rcases List.mem_append.1 hv with hv | hv
    · obtain ⟨f, hf, rfl⟩ := List.mem_map.1 hv
      have := hm.countsApart f (List.mem_range.1 hf)
      right
      simp only [MWrite.Apart, dspPut, Ctx.puts, hcounts, hfill]
      omega
    · exact .inl (List.mem_singleton.1 hv)
  simp only [Ctx.puts, hcounts] at hna
  refine ⟨hna, fun e he => ?_⟩
  have hbob := h.readNow _ (List.mem_append_left _ (List.mem_map_of_mem (List.mem_range.2 he))) fun v hv => by
    rcases List.mem_append.1 hv with hv | hv
    · obtain ⟨f, hf, rfl⟩ := List.mem_map.1 hv
      by_cases hef : e = f
      · exact .inl (by rw [hef])
      · have := hm.apart e he f (List.mem_range.1 hf) hef
        right
        simp only [MWrite.Apart, dspPut, Ctx.puts, hfill]
        omega
    · obtain rfl := List.mem_singleton.1 hv
      have := hm.countsApart e he
      right
      simp only [MWrite.Apart, dspPut, Ctx.puts, hcounts, hfill]
      omega
  simp only [dspPut, Ctx.puts, hfill] at hbob
  exact hbob

/-- The commit of an instruction that has stored keeps the bobbins. -/
theorem runInstr_bobbins {s : State} {c : CoreId} {e : Eng} {j : Job} {op : Nat} {plan : Bool}
    {body : Ctx → Work → Except Halt Issued} {k : Work} {ws : List MWrite} (h : Ready s c e j)
    (hk : k.Stores (s.work (s.head c e j).t) (s.head c e j) ws)
    (hb : body (s.head c e j) (s.work (s.head c e j).t) = .ok (finish (s.head c e j) k)) :
    ((runInstr s c e op plan body).core c.val).bobbins = (k.s.core c.val).bobbins := by
  have hfaults : (k.s.core c.val).faults = [] := (congrArg Core.faults hk.core).trans h.faults
  have done := (runInstr_committed (op := op) (plan := plan) h hb rfl le_rfl hk.recs hk.late hfaults).core
  refine (congrArg Core.bobbins done).trans ?_
  exact Core.setEngine_bobbins _ _ _

/-- Settles O19: the equation of each instruction gives its writes, each of which stands alone among them. -/
theorem gatherInstructions : Obligations.GatherInstructions := by
  intro s c j m w h hcl hw he x a0 a1 a2 array word
  have hfree : (s.work x.t).Free x := Work.free_of_ready hcl hw he
  have harray : ∀ a n base, array a n base → (s.work x.t).Array x a n base := fun a n base ha =>
    ⟨ha.1.reaches hcl, fun r hr => (ha.2 r hr).reaches hcl⟩
  refine ⟨?grows, ?gtopk, ?gdisp⟩
  case grows =>
    intro hl hb count len n limit row ia tab dst hs0 hs2 ha0 ha2 hown htable harr hdst hindex hpieces hapart hdsts
    have hm : Rows w x (s.work x.t) ia tab dst := ⟨hs0, hs2, ha0, ha2, hown, htable, harray _ _ _ harr,
      hdst.imp fun p hp => hp.reaches hcl, fun i hi hne => ?_, fun i hi p hp => (hpieces i hi p hp).reaches hcl, hapart, hdsts⟩
    · obtain ⟨k₂, h₂, hrun⟩ := runGrows_ok hfree hm hl ⟨rfl, hb⟩
      have done := runInstr_stored (op := 0x70) (plan := false) h h₂ (k₂.ends_refl x) hrun
      exact ⟨_, rfl, done.follow, fun i hi => hm.readNow done hi⟩
    · obtain ⟨h1, h2, h3, h4⟩ := hindex i hi hne
      exact ⟨h1, h2, h3.reaches hcl, fun p hp => (h4 p hp).reaches hcl⟩
  case gtopk =>
    intro hl hb n best a3 base ka ia va xa hspaces ha0 ha1 ha2 hkeys hgiven hva hxa hapart
    have hm : Tops w x (s.work x.t) ka ia va xa := ⟨hspaces, ha0, ha1, ha2, harray _ _ _ hkeys,
      fun hg => ⟨(hgiven hg).1, harray _ _ _ (hgiven hg).2⟩, hva.reaches hcl, hxa.reaches hcl, hapart⟩
    obtain ⟨k₂, h₂, hrun⟩ := runGtopk_ok hfree hm h.upset hl ⟨rfl, hb⟩
    have done := runInstr_stored (op := 0x71) (plan := false) h h₂ (k₂.ends_refl x) hrun
    exact ⟨_, rfl, done.follow, hm.readNow done⟩
  case gdisp =>
    intro hl kc n experts first bob babs ca ga na hspaces ha0 ha1 ha2 hca hga hna hbob hbobs hnodup hapart hcounts
    have hm : Dispatches w x (s.work x.t) bob babs ca ga na := ⟨hspaces, ha0, ha1, ha2, harray _ _ _ hca, harray _ _ _ hga,
      hna.reaches hcl, fun e he => (hbob e he).1, fun e he => (hbob e he).2.1, fun e he => (hbob e he).2.2.1,
      fun e he => (hbob e he).2.2.2.2, fun b hb => ?_, fun b hb e he hne => ?_, hnodup, hapart, hcounts, rfl, c.isLt⟩
    · obtain ⟨k₂, h₂, hfull, hrun⟩ := runGdisp_ok hfree hm hl rfl h.upset
      have done := runInstr_stored (op := 0x72) (plan := false) h h₂ (k₂.ends_refl x) hrun
      obtain ⟨hcount, hfill⟩ := hm.readNow done
      refine ⟨_, rfl, done.follow, hcount, fun e he => ⟨?_, hfill e he⟩⟩
      rw [runInstr_bobbins h h₂ hrun]
      exact hfull.full e he
    · obtain ⟨h1, h2, h3, h4, -⟩ := hbobs b hb
      exact ⟨h1, h2, h3, h4⟩
    · obtain ⟨-, -, -, -, h5⟩ := hbobs b hb
      exact h5 e he hne

end Sys2Proof.Machine
end


section
/-!
PROOFS. Instructions that leave faults behind them (R88, R460), and the matrix engine's wait for the vector path (R80): what is
the case after an issue whose faults all fall due later.
-/
namespace Sys2Proof.Machine

/-! ### Faults that fall due after the issue -/

theorem ripen_later {s : State} {c t : Nat} (h : ∀ f ∈ (s.core c).faults, t ≤ f.cyc) : s.ripen c t = s := by
  have hnone : ((s.core c).faults.filter fun f => decide (f.cyc < t)) = [] :=
    List.filter_eq_nil_iff.2 fun f hf => by simp [h f hf]
  unfold State.ripen
  cases (s.core c).faults.length with
  | zero => rfl
  | succ n => rw [State.ripenN, hnone]

/-- The state of an instruction that has issued, with its faults on their way, before its core lands and forgets. -/
theorem commit_eq_tidy_late (i : Issued) (op : Nat) (plan : Bool) (hr : i.w.recs = []) :
    ∃ u, Noted i.issued u i.x.c ∧ commit i op plan = u.tidy i.x.c := by
  obtain ⟨u, hu, -, hcommit⟩ := commit_eq_raiseRecs i op plan
  rw [hr] at hcommit
  exact ⟨u, hu, hcommit⟩

/-- Landing and forgetting at a core whose faults fall due later. -/
theorem tidy_eq_later {s : State} {c : Nat} (h : ∀ f ∈ (s.core c).faults, (s.core c).horizon ≤ f.cyc) : s.tidy c =
    (s.settle c (s.core c).horizon).updCore c fun k =>
      { k with claims := k.claims.filter fun o => decide ((s.core c).horizon ≤ o.last) } := by
  rw [State.tidy]
  refine ripen_later ?_
  rw [State.core_updCore_same, (settle_onlyLand s c _).core]
  exact h

/-- An instruction of engine `e` has issued with the work `k`, of which the core holds all but what landing, claims and
observation change; a reader sees some of the writes that waited, and each that lands before it reads. -/
structure Issues (k : Work) (y : Ctx) (t : State) : Prop where
  core : t.core y.c = { (k.s.core y.c).setEngine y.e ((k.s.engine y.c y.e).advance (finish y k)) with
    mpend := (t.core y.c).mpend, claims := (t.core y.c).claims, obs := (t.core y.c).obs,
    faults := (k.s.core y.c).faults ++ k.late }
  lands : ∀ n, ∃ l : List MWrite, (∀ v ∈ l, v ∈ (k.s.core y.c).mpend) ∧ (∀ v ∈ (k.s.core y.c).mpend, v.land < n → v ∈ l) ∧
    ∀ a, t.byteAt y.c n a = landed l a (memByte k.s.mem a)

theorem commit_issues {y : Ctx} {k : Work} (op : Nat) (plan : Bool) (hr : k.recs = [])
    (hm : (k.s.engine y.c y.e).mode = .running) (hf : ∀ f ∈ (k.s.core y.c).faults ++ k.late, y.at 1 ≤ f.cyc) :
    Issues k y (commit (finish y k) op plan) := by
  obtain ⟨u, hu, hcommit⟩ := commit_eq_tidy_late (finish y k) op plan hr
  have hcore := hu.core
  rw [Issued.issued] at hcore
  rw [State.core_updCore_same, State.core_updEngine_same] at hcore
  change u.core y.c = _ at hcore
  change commit (finish y k) op plan = u.tidy y.c at hcommit
  have hmem : u.mem = k.s.mem := by rw [hu.rest]; rfl
  have hpend : (u.core y.c).mpend = (k.s.core y.c).mpend := by rw [hcore]; exact Core.setEngine_mpend _ _ _
  have hfaults : (u.core y.c).faults = (k.s.core y.c).faults ++ k.late := by
    rw [hcore]
    exact congrArg (· ++ k.late) (Core.setEngine_faults _ _ _)
  have hengine : (u.core y.c).engine y.e = (k.s.engine y.c y.e).advance (finish y k) := by
    rw [hcore]
    exact Core.engine_setEngine_same _ _ _
  have hle : (u.core y.c).horizon ≤ y.at 1 := by
    have := Core.horizon_le (k := u.core y.c) (e := y.e) (by rw [hengine]; exact hm)
    rw [hengine] at this
    exact this
  rw [hcommit, tidy_eq_later fun f hf' => hle.trans (hf f (hfaults ▸ hf'))]
  refine ⟨?_, fun n => ?_⟩
  · rw [State.core_updCore_same, (settle_onlyLand u y.c _).core, hcore]
    simp only [Core.setEngine_faults]
    rfl
  · obtain ⟨hsettled, hbytes⟩ := u.settle_eq y.c (u.core y.c).horizon
    rw [hpend] at hsettled hbytes
    refine ⟨((k.s.core y.c).mpend.filter fun w => decide (w.land < (u.core y.c).horizon)) ++
      ((k.s.core y.c).mpend.filter fun w => !decide (w.land < (u.core y.c).horizon)).filter fun w => decide (w.land < n),
      fun v hv => ?_, fun v hv hlt => ?_, fun a => ?_⟩
    · obtain hv | hv := List.mem_append.1 hv
      · exact List.mem_of_mem_filter hv
      · exact List.mem_of_mem_filter (List.mem_of_mem_filter hv)
    · by_cases hh : v.land < (u.core y.c).horizon
      · exact List.mem_append_left _ (List.mem_filter.2 ⟨hv, by simpa using hh⟩)
      · exact List.mem_append_right _ (List.mem_filter.2 ⟨List.mem_filter.2 ⟨hv, by simpa using hh⟩, by simpa using hlt⟩)
    · refine (State.byteAt_updCore _ _ (by exact fun _ => rfl) _ _).trans ?_
      rw [State.byteAt, hsettled, hbytes, hmem, landed_append]

section
variable {k : Work} {y : Ctx} {t : State} (h : Issues k y t)
include h

theorem Issues.engine : t.engine y.c y.e = (k.s.engine y.c y.e).advance (finish y k) := by
  rw [State.engine, h.core]
  exact Core.engine_setEngine_same _ _ _

theorem Issues.mx : (t.core y.c).mx = (k.s.core y.c).mx := by
  rw [h.core]
  exact Core.setEngine_mx _ _ _

/-- A write that stands alone among those that the instruction has left is in memory in the cycle after it lands. -/
theorem Issues.readAt {ws : List MWrite} (hpend : ∀ v, v ∈ (k.s.core y.c).mpend ↔ v ∈ ws) {w : MWrite} (hw : w ∈ ws)
    (ha : w.Alone ws) : t.readAt y.c (w.land + 1) w.addr w.data.length = w.data := by
  obtain ⟨l, hl, hlt, hbytes⟩ := h.lands (w.land + 1)
  rw [State.readAt_eq]
  refine (List.map_congr_left fun i _ => hbytes (w.addr + i)).trans ?_
  exact map_landed_of_mem (fun v hv => (hpend v).1 (hl v hv)) (hlt w ((hpend w).2 hw) (Nat.lt_succ_self _)) ha _

end

/-! ### The vector path -/

/-- The context of a matrix instruction that has waited for the vector path until cycle `n`, with ledger column `col`. -/
def State.pathAt (s : State) (c : CoreId) (j : Job) (n col : Nat) : Ctx := { (s.head c .mxe j).movedTo n with col := col }

section
variable {s : State} {c : CoreId} {j : Job}

theorem waitPath_waits (hv : (s.core c.val).mx.vecs = []) (free : Nat) : ∃ col,
    waitPath (s.head c .mxe j) (s.work (s.head c .mxe j).t) free = (s.pathAt c j (s.pathCycle c j free) col,
      (s.work (s.head c .mxe j).t).ev 0x22 (s.head c .mxe j).t (s.pathCycle c j free - (s.head c .mxe j).t) 1) := by
  have hle : (s.head c .mxe j).t ≤ s.pathCycle c j free := (le_max_left _ _).trans (le_workAfter_zero _ _)
  obtain ⟨n, hn⟩ : ∃ n, n = s.pathCycle c j free := ⟨_, rfl⟩
  rw [← hn] at hle ⊢
  have hstate : ∀ t, s.vectors c.val t = s := fun t => vectors_later fun v h => by rw [hv] at h; exact absurd h List.not_mem_nil
  have hs : ∀ k : Work, k.s = s → ∀ t, ({ k with s := k.s.vectors c.val t } : Work) = k := by
    rintro k rfl t
    rw [hstate]
  have hwork : ((s.work (s.head c .mxe j).t).ev 0x22 (s.head c .mxe j).t (n - (s.head c .mxe j).t) 1).s = s := by
    rw [Work.s_ev]
    rfl
  have hwait : waitBusy (s.head c .mxe j) (s.work (s.head c .mxe j).t) free =
      (if (s.head c .mxe j).t < n then { s.head c .mxe j with
          t := n, r := max (s.head c .mxe j).r n, w := if n / 3200 = (s.head c .mxe j).t / 3200 then (s.head c .mxe j).w else 0,
          col := 3 } else s.head c .mxe j,
        (s.work (s.head c .mxe j).t).ev 0x22 (s.head c .mxe j).t (n - (s.head c .mxe j).t) 1) := by
    rw [hn]
    rfl
  rw [waitPath, hwait]
  by_cases hlt : (s.head c .mxe j).t < n
  · refine ⟨3, ?_⟩
    rw [if_pos hlt]
    refine Prod.ext ?_ (hs _ hwork _)
    simp only [State.pathAt, Ctx.movedTo]
    rw [max_eq_right (show (s.head c .mxe j).r ≤ n from hle)]
    rfl
  · refine ⟨2, ?_⟩
    rw [if_neg hlt]
    refine Prod.ext ?_ (hs _ hwork _)
    have heq : n = (s.head c .mxe j).t := by omega
    rw [heq]
    simp only [State.pathAt, Ctx.movedTo]
    rw [show (s.head c .mxe j).t / 3200 = (s.head c .mxe j).head / 3200 from rfl, if_pos rfl]
    rfl

end

/-- A matrix instruction of a ready engine whose faults fall due later. -/
theorem runInstr_issues {s : State} {c : CoreId} {j : Job} {op : Nat} {body : Ctx → Work → Except Halt Issued}
    (h : Ready s c .mxe j) {y : Ctx} {k : Work} (hb : body (s.head c .mxe j) (s.work (s.head c .mxe j).t) = .ok (finish y k))
    (hc : y.c = c.val) (he : y.e = .mxe) (hread : y.t ≤ y.r) (hr : k.recs = [])
    (hq : ∃ aregs free, k.s.engine c.val .mxe = { s.engine c.val .mxe with aregs := aregs, free := free })
    (hf : ∀ f ∈ (k.s.core c.val).faults ++ k.late, y.at 1 ≤ f.cyc) :
    Moved (runInstr s c .mxe op false body) c .mxe (y.at 1) ((s.engine c.val .mxe).pc + 1)
      (foldSig (s.engine c.val .mxe).sig (s.engine c.val .mxe).pc) ∧ Issues k y (runInstr s c .mxe op false body) := by
  obtain ⟨aregs, free, hq⟩ := hq
  have hi : Issues k y (runInstr s c .mxe op false body) := by
    rw [runInstr_ok h hb hread]
    rw [← hc] at hf
    exact commit_issues op false hr (by rw [hc, he, hq]; exact h.running) hf
  refine ⟨?_, hi⟩
  have hengine := hi.engine
  rw [hc, he, hq] at hengine
  exact moved_of_advance hengine

/-! ### The matrix engine's state -/

section
variable (k : Work) (x : Ctx) (f : Mxe → Mxe)

theorem Work.core_updMx : (k.updMx x f).s.core x.c = { k.s.core x.c with mx := f (k.s.core x.c).mx } :=
  State.core_updCore_same _ _ _

theorem Work.engine_updMx (e : Eng) : (k.updMx x f).s.engine x.c e = k.s.engine x.c e := by
  rw [State.engine, Work.core_updMx]
  cases e <;> rfl

/-- An engine without a latent fault has none for a check to catch (R82). -/
theorem Work.spot_none (h : (k.s.engine x.c x.e).upset = none) (cyc : Nat) (u : Upset) (d : Byte) : k.spot x cyc u d = k := by
  unfold Work.spot
  rw [show ((k.s.core x.c).engine x.e).upset = none from h]
  rfl

end

end Sys2Proof.Machine
end


section
/-!
PROOFS. MCFG, MDCFG and MCLR (R69, R70, R73, R82): an equation for each, and what their issue makes of it.
-/
namespace Sys2Proof.Machine

theorem needF_ok {b : Bool} (cause : Cause) (d : Byte) (h : b = true) : needF b cause d = .ok () := by simp [needF, h]

/-- The first `n` PSM rows from the one at an address on (R70). -/
theorem PsmRows.psmRows_ok {s : State} {c : CoreId} {j : Job} {a : MAddr} {n : Nat} {rows : List Nat} (h : PsmRows s c j a n rows)
    {k : Work} {x : Ctx} (hc : x.c = c.val) (hj : x.job = j) (hs : k.s = s) : psmRows k x a n = .ok rows := by
  obtain ⟨r, hr⟩ := h.place
  have hlocal : (ownAddr x a [2] && aligned a 1024) = true := by
    simp [ownAddr, aligned, h.space, h.own, h.start, hc]
  have hin : (rows.all fun r => decide (r < (s.regionOf j.fn 2).2 / 1024)) = true := by simpa using h.inside
  rw [psmRows, need_true hlocal, ok_bind, hj, hs, hr]
  simp only [← h.list, needF_ok _ _ hin, ok_bind]
  rfl

theorem Work.sreg64_toNat (k : Work) (x : Ctx) (i : Nat) :
    (k.sreg64 x i).toNat = (k.sreg x i).toNat + (k.sreg x (i + 1)).toNat * 2 ^ 32 := by
  have h1 := (k.sreg x i).isLt
  have h2 := (k.sreg x (i + 1)).isLt
  rw [Work.sreg64, BitVec.toNat_ofNat]
  omega

section
variable {s : State} {c : CoreId} {j : Job} {m : Byte} {w : BitVec 48}

/-- An instruction whose only effect, besides counted events, is on the matrix engine's state. -/
theorem runInstr_updMx {op : Nat} {body : Ctx → Work → Except Halt Issued} (h : Ready s c .mxe j) {y : Ctx} {k : Work}
    {f : Mxe → Mxe} (hb : body (s.head c .mxe j) (s.work (s.head c .mxe j).t) = .ok (finish y (k.updMx y f)))
    (hc : y.c = c.val) (he : y.e = .mxe) (hread : y.t ≤ y.r) (hs : k.s = s) (hr : k.recs = []) (hl : k.late = []) :
    Moved (runInstr s c .mxe op false body) c .mxe (y.at 1) ((s.engine c.val .mxe).pc + 1)
      (foldSig (s.engine c.val .mxe).sig (s.engine c.val .mxe).pc) ∧
      ((runInstr s c .mxe op false body).core c.val).mx = f (s.core c.val).mx := by
  have hcore := k.core_updMx y f
  have hengine := k.engine_updMx y f .mxe
  rw [hc, hs] at hcore hengine
  obtain ⟨hmoved, hi⟩ := runInstr_issues (op := op) h hb hc he hread hr ⟨_, _, hengine⟩ (by
    rw [hcore]
    intro v hv
    rw [show (k.updMx y f).late = [] from hl, List.append_nil, show Core.faults _ = [] from h.faults] at hv
    exact absurd hv List.not_mem_nil)
  refine ⟨hmoved, ?_⟩
  have hmx := hi.mx
  rw [hc, hcore] at hmx
  exact hmx

/-- The configuration that MCFG takes (R69, R73, R77). -/
def mcfgOf (k : Work) (x : Ctx) (w : BitVec 48) : MCfg :=
  { fw := fld w 0 4, fa := fld w 4 4, sw := bitAt w 8, sa := bitAt w 9, width := fld w 10 2, psm := bitAt w 12,
    q := anchorOf k x (bitAt w 23) (fld w 13 10) (fld w 24 5) }

/-- A latch entry without the rows of the DPUs that a narrower shape leaves out (R62). -/
def Latch.narrow (n : Nat) (l : Latch) : Latch := { l with rows := min l.rows n }

/-- The latch entries without those rows. -/
def narrowed (n : Nat) (t : AMap (TReg Latch)) : AMap (TReg Latch) :=
  t.map fun kv => (kv.1, { base := kv.2.base.narrow n, pend := kv.2.pend.map fun p => (p.1, p.2.narrow n) })

theorem runMcfg_ok {x : Ctx} {k : Work} (hl : legalEng 0x40 m w = true) (hg : k.s.fuses.grade = .f)
    (ha : (k.mx x).accOpen = []) (hr : (k.mx x).rowOpen = []) : runMcfg m w x k =
      .ok (finish x (k.updMx x fun o => { o with cfg := mcfgOf k x w, latch := narrowed (mcfgOf k x w).n o.latch })) := by
  rw [runMcfg]
  simp only [hg, needEng_ok hl, ok_bind, ha, hr]
  rfl

theorem runMdcfg_ok {x : Ctx} {k : Work} (hl : legalEng 0x41 m w = true) :
    runMdcfg m w x k = .ok (finish x (k.updMx x fun o => { o with dcfg :=
      { fmt := fld w 0 4, rnd := fld w 4 1, ovf := fld w 5 2,
        shift := sext 8 (if bitAt w 15 then (k.sreg x (fld w 16 5)).toNat else fld w 7 8),
        seed := k.sreg64 x (fld w 21 5), idx := k.sreg64 x (fld w 26 5),
        stok := k.sreg x (fld w 31 5), sdpu := k.sreg x (fld w 36 5) } })) := by
  rw [runMdcfg, needEng_ok hl]
  rfl

/-- MCLR closes what its mask or its address names once the path is free. -/
theorem runMclr_ok {x y : Ctx} {k k' : Work} (hl : legalEng 0x47 m w = true)
    (hwait : waitPath x k ((k.s.core x.c).engine x.e).free = (y, k')) (hu : (k'.s.engine y.c y.e).upset = none) {rows : List Nat}
    (hrows : (if (k'.mx y).cfg.psm then psmRows k' y (k'.areg y (fld w 0 4)) (fld w 4 8 + 1) else pure []) = .ok rows)
    (hopen : (if (k'.mx y).cfg.psm then rows.all fun r => (k'.mx y).rowOpen.contains r
      else (maskAccs m).all fun a => (k'.mx y).accOpen.contains a) = true) :
    runMclr m w x k = .ok (finish y (k'.closeReds y (k'.mx y).cfg (maskAccs m) rows)) := by
  rw [runMclr, needEng_ok hl, ok_bind, hwait]
  simp only [hrows, ok_bind, need_true hopen, Work.spot_none _ _ hu]
  rfl

end

/-- Settles O11: each instruction's equation, and what its issue leaves of the matrix engine. -/
theorem matrixConfiguration : Obligations.MatrixConfiguration := by
  intro s c j m w h hv x mx n
  have hpath : ∃ col k, waitPath x (s.work x.t) (s.engine c.val .mxe).free = (s.pathAt c j n col, k) ∧
      k.s = s ∧ k.recs = [] ∧ k.late = [] := by
    obtain ⟨col, hcol⟩ := waitPath_waits (j := j) hv (s.engine c.val .mxe).free
    exact ⟨col, _, hcol, Work.s_ev .., Work.recs_ev .., Work.late_ev ..⟩
  obtain ⟨col, k, hwait, hs, hr, hlate⟩ := hpath
  have hclear : legalEng 0x47 m w = true → ∀ rows,
      (if (k.mx (s.pathAt c j n col)).cfg.psm then
        psmRows k (s.pathAt c j n col) (k.areg (s.pathAt c j n col) (fld w 0 4)) (fld w 4 8 + 1) else pure []) = .ok rows →
      (if mx.cfg.psm then rows.all fun r => mx.rowOpen.contains r
        else (maskAccs m).all fun a => mx.accOpen.contains a) = true →
      ∃ t, exec (.mclr c m w) s = .next t ∧ FollowedFrom s t c .mxe j n ∧ (t.core c.val).mx =
        if mx.cfg.psm then { mx with rowOpen := mx.rowOpen.filter fun r => !rows.contains r }
        else { mx with accOpen := mx.accOpen.filter fun a => !(maskAccs m).contains a } := by
    intro hl rows hrows hopen
    have hb := runMclr_ok (m := m) (w := w) hl hwait (by rw [hs]; exact h.upset) hrows (by rw [Work.mx, hs]; exact hopen)
    rw [show (k.mx (s.pathAt c j n col)).cfg = mx.cfg by rw [Work.mx, hs]; rfl] at hb
    exact ⟨_, rfl, runInstr_updMx h hb rfl rfl le_rfl hs hr hlate⟩
  refine ⟨fun hl hg ha hro => ?mcfg, fun hl => ?mdcfg, fun hl hp hopen => ?mclr, fun rows hl hp hrows hopen => ?rows⟩
  case mcfg =>
    have hb := runMcfg_ok (x := x) (k := s.work x.t) hl hg ha hro
    obtain ⟨hmoved, hmx⟩ := runInstr_updMx (op := 0x40) h hb rfl rfl le_rfl rfl rfl rfl
    exact ⟨_, rfl, hmoved, congrArg Mxe.cfg hmx⟩
  case mdcfg =>
    obtain ⟨hmoved, hmx⟩ := runInstr_updMx (op := 0x41) h (runMdcfg_ok (x := x) (k := s.work x.t) hl) rfl rfl le_rfl rfl rfl rfl
    refine ⟨_, rfl, hmoved, ?_⟩
    intro d
    have hd : d = _ := congrArg Mxe.dcfg hmx
    rw [hd]
    exact ⟨rfl, rfl, rfl, rfl, Work.sreg64_toNat _ _ _, Work.sreg64_toNat _ _ _, rfl, rfl⟩
  case mclr =>
    have hpsm : (k.mx (s.pathAt c j n col)).cfg.psm = false := by rw [Work.mx, hs]; exact hp
    obtain ⟨t, ht, hmoved, hmx⟩ := hclear hl [] (by rw [hpsm]; rfl) (by rw [hp]; simpa [maskAccs] using hopen)
    rw [hp] at hmx
    exact ⟨t, ht, hmoved, hmx⟩
  case rows =>
    have hpsm : (k.mx (s.pathAt c j n col)).cfg.psm = true := by rw [Work.mx, hs]; exact hp
    have hfirst : k.areg (s.pathAt c j n col) (fld w 0 4) = s.areg c.val .mxe (fld w 0 4) n := by rw [Work.areg, hs]; rfl
    obtain ⟨t, ht, hmoved, hmx⟩ := hclear hl rows (by rw [hpsm, hfirst]; exact hrows.psmRows_ok rfl rfl hs)
      (by rw [hp]; simpa using hopen)
    rw [hp] at hmx
    exact ⟨t, ht, hmoved, hmx⟩

end Sys2Proof.Machine
end


section
/-!
PROOFS. MLW (R64, R79, R164): the two images of a latch entry are read in one cycle and meet a vector six cycles later.
-/
namespace Sys2Proof.Machine

/-! ### Later work cycles -/

theorem Ctx.lt_at {x : Ctx} {l : Nat} (h : 1 ≤ l) : x.t < x.at l := by
  unfold Ctx.at workAfter
  extract_lets room
  split_ifs
  · omega
  · have hroom : 0 ≤ (l - room) / 3136 := Nat.zero_le _
    have := Nat.div_add_mod x.t 3200
    have := Nat.mod_lt x.t (show 0 < 3200 by decide)
    omega

/-- No later work cycle comes before the next one (R139). -/
theorem Ctx.at_one_le {x : Ctx} {l : Nat} (h : 1 ≤ l) : x.at 1 ≤ x.at l := by
  have hlt := x.lt_at h
  revert hlt
  unfold Ctx.at workAfter
  extract_lets room
  split_ifs
  · omega
  · omega
  · omega
  · have h1 : (1 - room) / 3136 * 3136 + (1 - room) % 3136 = 1 - room := Nat.div_add_mod' _ _
    have h2 : (l - room) / 3136 * 3136 + (l - room) % 3136 = l - room := Nat.div_add_mod' _ _
    have h3 : (1 - room) / 3136 ≤ (l - room) / 3136 := Nat.div_le_div_right (by omega)
    omega

/-! ### Post-increment of two registers -/

section
variable (k : Work) (x : Ctx)

theorem Work.mx_incA (on : Bool) (i n : Nat) : ((k.incA x on i n).s.core x.c).mx = (k.s.core x.c).mx := by
  rw [Work.core_incA, Core.setEngine_mx]

/-- A post-increment of one address register leaves the others (R131). -/
theorem Work.areg_incA_other (on : Bool) {i i' : Nat} (h : i' ≠ i) (n t : Nat) :
    (k.incA x on i n).s.areg x.c x.e i' t = k.s.areg x.c x.e i' t := by
  cases on
  · rfl
  · have := k.engine_setA x i 1 (k.areg x i + BitVec.ofNat 48 n)
    rw [Work.incA, if_pos rfl, State.areg, this]
    rw [AMap.get_upd_other _ _ _ h]
    rfl

end

/-! ### The instruction -/

theorem Work.SameState.didRead {k' k : Work} (h : k'.SameState k) (ports : List Claim) (space cyc : Nat) :
    (k'.didRead ports space cyc).SameState k := ⟨h.state, h.recs, h.late⟩

section
variable {m : Byte} {w : BitVec 48} {x : Ctx} {k : Work} {a b : Nat}

/-- The contents that MLW gives a latch entry. -/
def mlwLatch (k : Work) (x : Ctx) (cfg : MCfg) (a b : Nat) : Latch :=
  { rows := cfg.n, rowBytes := rowBytesOf cfg.fw, checks := cfg.depth, codes := if cfg.sw then cfg.blocks else 0,
    elems := k.s.readAt x.c x.t a (cfg.n * rowBytesOf cfg.fw), side := k.s.readAt x.c x.t b cfg.sideBytes, stamp := k.s.fresh }

/-- MLW fills its entry, and leaves a fault behind where the side image's check words are wrong (R67, R68). -/
theorem runMlw_ok (hl : legalEng 0x42 m w = true) (hu : (k.s.engine x.c x.e).upset = none)
    (hs : aSpace (k.areg x (fld w 0 4)) = 0) (hs' : aSpace (k.areg x (fld w 4 4)) = 0)
    (ha : aOff (k.areg x (fld w 0 4)) % 64 = 0) (ha' : aOff (k.areg x (fld w 4 4)) % 64 = 0)
    (hread : k.Reaches x (k.areg x (fld w 0 4)) ((k.mx x).cfg.n * rowBytesOf (k.mx x).cfg.fw) false a)
    (hecc : eccWorst k.s.ecc (eccWord 0) a ((k.mx x).cfg.n * rowBytesOf (k.mx x).cfg.fw) = none)
    (hread' : k.Reaches x (k.areg x (fld w 4 4)) (k.mx x).cfg.sideBytes false b)
    (hecc' : eccWorst k.s.ecc (eccWord 0) b (k.mx x).cfg.sideBytes = none)
    (hrow : a % 2 ^ 32 / 2048 = (a % 2 ^ 32 + (k.mx x).cfg.n * rowBytesOf (k.mx x).cfg.fw - 1) / 2048)
    (hrow' : b % 2 ^ 32 / 2048 = (b % 2 ^ 32 + (k.mx x).cfg.sideBytes - 1) / 2048)
    (hlayer : a % 2 ^ 32 / 2048 % 3 ≠ b % 2 ^ 32 / 2048 % 3) :
    ∃ k' : Work, k'.s = { k.s with fresh := k.s.fresh + 1 } ∧ k'.recs = k.recs ∧
      (∀ f ∈ k'.late, f ∈ k.late ∨ f.cyc = x.at (9 + (k.mx x).cfg.n)) ∧
      runMlw m w x k = .ok (finish x (((k'.updMx x fun o => { o with
        latch := AMap.upd { base := Latch.zero, pend := [] } o.latch (fld m 0 2) fun r =>
          r.put x.t (x.at 6) (mlwLatch k x (k.mx x).cfg a b) }).incA x (bitAt w 8) (fld w 0 4)
            ((k.mx x).cfg.n * rowBytesOf (k.mx x).cfg.fw)).incA x (bitAt w 8 && fld w 0 4 != fld w 4 4) (fld w 4 4)
              (k.mx x).cfg.sideBytes)) := by
  have hlocal : (localAddr x (k.areg x (fld w 0 4)) [0] && localAddr x (k.areg x (fld w 4 4)) [0] &&
      aligned (k.areg x (fld w 0 4)) 64 && aligned (k.areg x (fld w 4 4)) 64) = true := by
    simp [localAddr_own hread.own, localAddr_own hread'.own, hs, hs', aligned, ha, ha']
  have hlayers : (a % 2 ^ 32 / 2048 == (a % 2 ^ 32 + (k.mx x).cfg.n * rowBytesOf (k.mx x).cfg.fw - 1) / 2048 &&
      b % 2 ^ 32 / 2048 == (b % 2 ^ 32 + (k.mx x).cfg.sideBytes - 1) / 2048 &&
      a % 2 ^ 32 / 2048 % 3 != b % 2 ^ 32 / 2048 % 3) = true := by
    rw [← hrow, ← hrow']
    simpa using hlayer
  have h1 := hread.readVia (k := k) (x := x) (by rw [hs]; exact hecc)
    (fun off => portsOf (aSpace (k.areg x (fld w 0 4))) off ((k.mx x).cfg.n * rowBytesOf (k.mx x).cfg.fw) x.t x.e.num false) x.t
  obtain ⟨k₁, hk₁, hd₁⟩ : ∃ k₁ : Work, k₁ = k.didRead (portsOf (aSpace (k.areg x (fld w 0 4))) (a % 2 ^ 32)
    ((k.mx x).cfg.n * rowBytesOf (k.mx x).cfg.fw) x.t x.e.num false) (aSpace (k.areg x (fld w 0 4))) x.t ∧ k₁.SameState k :=
      ⟨_, rfl, Work.SameState.didRead ⟨rfl, rfl, rfl⟩ ..⟩
  rw [← hk₁] at h1
  have h2 := (hread'.of_state hd₁.state).readVia (by rw [hs', hd₁.state]; exact hecc')
    (fun off => (portsOf (aSpace (k.areg x (fld w 4 4))) off (k.mx x).cfg.sideBytes x.t x.e.num false).map fun p =>
      if p.port = 4 then { p with port := 3 } else p) x.t
  obtain ⟨k₂, hk₂, hd₂⟩ : ∃ k₂ : Work, k₂ = k₁.didRead ((portsOf (aSpace (k.areg x (fld w 4 4))) (b % 2 ^ 32)
    (k.mx x).cfg.sideBytes x.t x.e.num false).map fun p => if p.port = 4 then { p with port := 3 } else p)
      (aSpace (k.areg x (fld w 4 4))) x.t ∧ k₂.SameState k :=
      ⟨_, rfl, hd₁.didRead ..⟩
  rw [← hk₂, hd₁.state] at h2
  have hspot := k₂.spot_none x (by rw [hd₂.state]; exact hu) (x.at 10) .stagger 0x02
  obtain ⟨bad, hbad⟩ : ∃ bad, bad = (words32 ((k.s.readAt x.c x.t b (k.mx x).cfg.sideBytes).take (4 * (k.mx x).cfg.depth))).any
    fun v => !checkParity v := ⟨_, rfl⟩
  obtain ⟨k₃, hk₃⟩ : ∃ k₃, k₃ = if bad then k₂.lateFault (x.at (9 + (k.mx x).cfg.n)) x.c (some x.e) .checkLaneMismatch 0x04
    else k₂ := ⟨_, rfl⟩
  refine ⟨{ k₃ with s := { k₃.s with fresh := k₃.s.fresh + 1 } }, ?_, ?_, ?_, ?_⟩
  · rw [show k₃.s = k₂.s by rw [hk₃]; cases bad <;> rfl, hd₂.state]
  · refine Eq.trans ?_ hd₂.recs
    rw [hk₃]
    cases bad <;> rfl
  · change ∀ f ∈ k₃.late, _
    rw [hk₃, ← hd₂.late]
    cases bad
    · exact fun f hf => .inl hf
    · intro f hf
      rcases List.mem_append.1 hf with hf | hf
      · exact .inl hf
      · obtain rfl := List.mem_singleton.1 hf
        exact .inr rfl
  · rw [runMlw, needEng_ok hl, ok_bind]
    simp only [need_true hlocal, ok_bind, hread.place, hread'.place, need_true hlayers, Work.read, Work.readSide, h1, h2, hspot,
      ← hbad, ← hk₃]
    have hfresh : k₃.s.fresh = k.s.fresh := by
      rw [show k₃.s = k₂.s by rw [hk₃]; cases bad <;> rfl, hd₂.state]
    rw [hfresh]
    rfl

end

/-- Settles O12: the equation of MLW, and what its issue leaves of the matrix engine and its address registers. -/
theorem latchFill : Obligations.LatchFill := by
  intro s c j m w a b h hcl hl x cfg aw ac n1 n2 hs hs' ha ha' hp hp' hrow hrow' hlayer
  have hsound := hp.sound
  have hsound' := hp'.sound
  rw [hs] at hsound
  rw [hs'] at hsound'
  obtain ⟨k, hk, hrecs, hlate, hb⟩ := runMlw_ok (m := m) (w := w) (x := x) (k := s.work x.t) hl h.upset hs hs' ha ha'
    (hp.reaches hcl) hsound (hp'.reaches hcl) hsound' hrow hrow' hlayer
  obtain ⟨fill, hfill⟩ : ∃ fill : Mxe → Mxe, fill = fun o => { o with
    latch := AMap.upd { base := Latch.zero, pend := [] } o.latch (fld m 0 2) fun r =>
      r.put x.t (x.at 6) (mlwLatch (s.work x.t) x cfg a b) } := ⟨_, rfl⟩
  obtain ⟨k₁, hk₁⟩ : ∃ k₁, k₁ = (k.updMx x fill).incA x (bitAt w 8) (fld w 0 4) n1 := ⟨_, rfl⟩
  obtain ⟨k₂, hk₂⟩ : ∃ k₂, k₂ = k₁.incA x (bitAt w 8 && fld w 0 4 != fld w 4 4) (fld w 4 4) n2 := ⟨_, rfl⟩
  have hb : runMlw m w x (s.work x.t) = .ok (finish x k₂) := by rw [hk₂, hk₁, hfill]; exact hb
  have hcore : (k.updMx x fill).s.core x.c = { s.core x.c with mx := fill (s.core x.c).mx } := by
    rw [Work.core_updMx, hk]
    rfl
  have hengine : (k.updMx x fill).s.engine x.c x.e = s.engine x.c x.e := by
    rw [Work.engine_updMx, hk]
    rfl
  obtain ⟨regs₁, hengine₁, hregs₁⟩ := Work.engine_incA (k.updMx x fill) x (bitAt w 8) (fld w 0 4) n1
  obtain ⟨regs₂, hengine₂, -⟩ := Work.engine_incA k₁ x (bitAt w 8 && fld w 0 4 != fld w 4 4) (fld w 4 4) n2
  rw [← hk₁, hengine] at hengine₁
  rw [← hk₂, hengine₁] at hengine₂
  have hfaults : (k₂.s.core x.c).faults = [] := by
    rw [hk₂, Work.faults_incA, hk₁, Work.faults_incA, hcore]
    exact h.faults
  have hlate₂ : ∀ f ∈ k₂.late, f.cyc = x.at (9 + cfg.n) := by
    rw [hk₂, Work.late_incA, hk₁, Work.late_incA]
    exact fun f hf => (hlate f hf).resolve_left List.not_mem_nil
  obtain ⟨hmoved, hi⟩ := runInstr_issues (op := 0x42) h hb rfl rfl le_rfl
    (by rw [hk₂, Work.recs_incA, hk₁, Work.recs_incA]; exact hrecs) ⟨_, _, hengine₂⟩ (by
      intro f hf
      rw [show (k₂.s.core c.val).faults = [] from hfaults, List.nil_append] at hf
      rw [hlate₂ f hf]
      exact Ctx.at_one_le (by omega))
  have hmx : ((runInstr s c .mxe 0x42 false (runMlw m w)).core c.val).mx = fill (s.core c.val).mx := by
    refine hi.mx.trans ?_
    rw [hk₂, Work.mx_incA, hk₁, Work.mx_incA, hcore]
    rfl
  refine ⟨_, rfl, hmoved, ?_⟩
  intro l
  have hlatch : l = mlwLatch (s.work x.t) x cfg a b := by
    refine (congrArg (fun o : Mxe => o.entry (fld m 0 2) (x.at 6)) hmx).trans ?_
    rw [hfill, Mxe.entry, AMap.get_upd_same, TReg.view_put_due]
  rw [hlatch]
  refine ⟨rfl, rfl, rfl, rfl, rfl, rfl, fun hinc => ?_⟩
  have hareg : ∀ i, (runInstr s c .mxe 0x42 false (runMlw m w)).areg c.val .mxe i (x.at 1) = k₂.s.areg x.c x.e i (x.at 1) := by
    intro i
    rw [State.areg, State.areg, show (runInstr s c .mxe 0x42 false (runMlw m w)).engine c.val .mxe = _ from hi.engine]
    rfl
  have hfirst : k₁.s.areg x.c x.e (fld w 0 4) (x.at 1) = aw + BitVec.ofNat 48 n1 := by
    rw [State.areg, hengine₁]
    refine hregs₁.trans ?_
    rw [hinc, if_pos rfl, Work.areg, State.areg, hengine]
    rfl
  rw [hareg, hk₂]
  by_cases hsame : fld w 0 4 = fld w 4 4
  · rw [show (bitAt w 8 && fld w 0 4 != fld w 4 4) = false by simp [hsame]]
    exact hfirst
  · rw [Work.areg_incA_other _ _ _ hsame]
    exact hfirst

end Sys2Proof.Machine
end


section
/-!
PROOFS. MMUL in a frame whose waits go beyond the guard (R79, R186): the vectors that issue in its last cycles come, by number, no
earlier than the seventh work cycle, and wait in the engine where the statement has them in their accumulators.
-/
namespace Sys2Proof.Machine

/-- An MXE queue in the last cycle of a frame in which it has waited for 68 cycles, with the first byte of activation memory in
A0. -/
def lateQueue : Engine :=
  { Engine.reset with mode := .running, next := 3199, waited := [(0, 68)],
                      aregs := [(0, { base := BitVec.ofNat 48 (absAddr 1 0 0), pend := [] })] }

def lateJob : Job := { fn := 0, pass := 7, vcore := 0, kernel := 0 }

/-- Eight DPUs with latched weights of zero. -/
def lateMxe : Mxe :=
  { Core.reset.mx with cfg := { fw := 0, fa := 0, sw := false, sa := false, width := 2, psm := false, q := 0 },
                       latch := [(0, { base := { Latch.zero with rows := 8 }, pend := [] })] }

def lateState : State :=
  { State.reset with cores := [(0, { Core.reset with mxeQ := lateQueue, job := some lateJob, mx := lateMxe })] }

/-- MMUL of four vectors at A0 that opens accumulators 0 to 3. -/
def lateMmul : BitVec 48 := 16#48

/-- A vector of zeros. -/
def lateVec : MVec :=
  { at' := 0, waited := 0, entry := 0, dest := 3, opens := true, elems := List.replicate 64 0, scale := 0, cfg := lateMxe.cfg,
    job := lateJob }

/-- Two blocks of zeros. -/
def zeroBlocks : List (List Int × Option Int) := List.replicate 2 (List.replicate 32 0, some 0)

theorem lateState_ready : Ready lateState 0 .mxe lateJob :=
  ⟨by decide, by decide, by decide, by decide, by decide, by decide, by decide, fun _ hv => absurd hv List.not_mem_nil⟩

theorem lateState_bobs : lateState.bobs lateJob = [] := by decide +kernel

/-- The queue cycle in which the vector path is free. -/
def latePath : Nat := lateState.pathCycle 0 lateJob (max (lateState.engine 0 .mxe).free (lateState.core 0).mx.stall)

theorem lateState_vectors (r : Nat) : addA (lateState.areg 0 .mxe (fld lateMmul 5 4) latePath)
    ((lateState.sreg 0 .mxe (fld lateMmul 9 5) latePath).toInt * (r : Int)) = BitVec.ofNat 48 (absAddr 1 0 0) := by
  have hstride : (lateState.sreg 0 .mxe (fld lateMmul 9 5) latePath).toInt = 0 := by decide +kernel
  rw [hstride, zero_mul]
  decide +kernel

theorem lateState_plain : Plain lateState 0 .mxe lateJob (BitVec.ofNat 48 (absAddr 1 0 0)) 64 false (absAddr 1 0 0) :=
  ⟨by decide +kernel, by decide +kernel, by decide +kernel, fun b hb => absurd hb (by rw [lateState_bobs]; exact List.not_mem_nil)⟩

/-- The vector for accumulator 3 still waits in the engine. -/
theorem lateState_mmul : ∀ t, exec (.mmul 0 3 lateMmul) lateState = .next t →
    (AMap.get Acc.zero (t.core 0).mx.acc (accKey 0 3)).terms = 0 := by
  intro t ht
  obtain rfl := Host.Outcome.next.inj ht
  decide +kernel

/-- Refutes O13: four vectors from cycle 3199 of a frame on, in which the engine has waited for 68 cycles; the fourth issues in
cycle 3202, as does the seventh work cycle after the first, and is left in the engine. -/
theorem not_matrixMultiply : ¬ Obligations.MatrixMultiply := by
  intro h
  have hreg := (h lateState 0 lateJob 3 lateMmul lateState_ready rfl rfl (by decide) (by decide +kernel) (fun _ => absAddr 1 0 0)
    (fun _ => 0) (fun r _ => ?vectors) (fun hsa => absurd hsa (by decide))).1 rfl (by decide) (fun ho => absurd ho (by decide))
  case vectors =>
    have ha := lateState_vectors r
    refine ⟨(congrArg aSpace ha).trans (by decide +kernel), (congrArg (fun a => aOff a % 64) ha).trans (by decide +kernel), ?_⟩
    have hplain := lateState_plain
    rw [← ha] at hplain
    exact hplain
  obtain ⟨t, ht, -, -, -, hacc⟩ := hreg
  have hterms := congrArg Acc.terms (hacc 3 (by decide) 0 (by decide) lateVec rfl (by decide +kernel) (fun hsa => absurd hsa (by decide))
    zeroBlocks zeroBlocks (by decide +kernel) (by decide +kernel) (by decide +kernel) (by decide +kernel) (by decide +kernel))
  exact absurd ((lateState_mmul t ht).symm.trans hterms) (by decide +kernel)

end Sys2Proof.Machine
end


section
/-!
PROOFS. What a matrix load or drain has changed so far (R75, R76, R80): the matrix engine's state, and the writes that wait.
-/
namespace Sys2Proof.Machine

/-- An instruction starts at a core without claims and waiting writes. -/
structure Work.Quiet (k : Work) (x : Ctx) : Prop where
  claims : (k.s.core x.c).claims = []
  pend : (k.s.core x.c).mpend = []

/-- What an instruction has changed that has set the matrix engine's state to `mx` and written `ws`; marks of code words that it
has written over are gone. -/
structure Work.Drains (k' k : Work) (x : Ctx) (mx : Mxe) (ws : List MWrite) : Prop where
  recs : k'.recs = k.recs
  late : k'.late = k.late
  rest : k'.s = { k.s with cores := k'.s.cores, ecc := k'.s.ecc }
  ecc : ∀ word a n, eccWorst k.s.ecc word a n = none → eccWorst k'.s.ecc word a n = none
  core : k'.s.core x.c = { k.s.core x.c with mx := mx, mpend := (k'.s.core x.c).mpend }
  pend : ∀ v, v ∈ (k'.s.core x.c).mpend ↔ v ∈ ws

theorem eccWorst_filter {l : AMap EccMark} (p : Nat × EccMark → Bool) {word a n : Nat} (h : eccWorst l word a n = none) :
    eccWorst (l.filter p) word a n = none := by
  unfold eccWorst at h ⊢
  extract_lets hit at h
  have hnil : hit = [] := by
    split_ifs at h with h1 h2
    exact List.isEmpty_iff.1 h2
  have hnone : (l.filter p).filter (fun kv => decide (a < kv.1 + word) && decide (kv.1 < a + n)) = [] := by
    refine List.filter_eq_nil_iff.2 fun kv hkv => ?_
    have := List.filter_eq_nil_iff.1 hnil kv (List.mem_of_mem_filter hkv)
    exact this
  rw [hnone]
  rfl

section
variable {k k' : Work} {x : Ctx} {mx : Mxe} {ws : List MWrite}

theorem Work.Quiet.drains (hk : k.Quiet x) : k.Drains k x (k.mx x) [] :=
  ⟨rfl, rfl, rfl, fun _ _ _ h => h, rfl, fun v => by rw [hk.pend]⟩

theorem Work.Drains.of_state {k₁ : Work} (h : k₁.Drains k x mx ws) (hs : k'.SameState k₁) : k'.Drains k x mx ws := by
  obtain ⟨h1, h2, h3, h4, h5, h6⟩ := h
  rw [← hs.state] at h3 h4 h5 h6
  exact ⟨hs.recs.trans h1, hs.late.trans h2, h3, h4, h5, h6⟩

theorem Work.Drains.mx_eq (h : k'.Drains k x mx ws) : k'.mx x = mx := by rw [Work.mx, h.core]

theorem Work.Drains.engine (h : k'.Drains k x mx ws) (e : Eng) : k'.s.engine x.c e = k.s.engine x.c e := by
  rw [State.engine, h.core]
  cases e <;> rfl

theorem Work.Drains.faults (h : k'.Drains k x mx ws) : (k'.s.core x.c).faults = (k.s.core x.c).faults := by rw [h.core]

theorem Work.Drains.reaches (h : k'.Drains k x mx ws) {a : MAddr} {n abs : Nat} {write : Bool} (hr : k.Reaches x a n write abs) :
    k'.Reaches x a n write abs := hr.of_rest h.rest (by rw [h.core])

theorem Work.Drains.readAt (h : k'.Drains k x mx ws) (hk : k.Quiet x) {abs n : Nat} (hd : ∀ v ∈ ws, v.Apart abs n) (cyc : Nat) :
    k'.s.readAt x.c cyc abs n = k.s.readAt x.c cyc abs n := by
  rw [State.readAt_eq, State.readAt_eq]
  refine List.map_congr_left fun i hi => ?_
  rw [State.byteAt, State.byteAt, show k'.s.mem = k.s.mem by rw [h.rest], hk.pend]
  refine landed_of_not_covers (fun v hv => ?_) _
  exact MWrite.not_covers_of_apart (hd v ((h.pend v).1 (List.mem_of_mem_filter hv))) (List.mem_range.1 hi)

/-- A read through ports that the instruction claims on its own, of bytes apart from every write of the instruction. -/
theorem Work.Drains.readFree (h : k'.Drains k x mx ws) (hk : k.Quiet x) {a : MAddr} {n abs : Nat} (hr : k.Reaches x a n false abs)
    (hecc : eccWorst k.s.ecc (eccWord (aSpace a)) abs n = none) (hd : ∀ v ∈ ws, v.Apart abs n) (cyc : Nat) :
    ∃ k₂ : Work, k₂.Drains k x mx ws ∧ k'.readFree x a n cyc = .ok (k.s.readAt x.c cyc abs n, k₂) := by
  refine ⟨k'.didRead [] (aSpace a) cyc, h.of_state (Work.SameState.didRead ⟨rfl, rfl, rfl⟩ ..), ?_⟩
  rw [Work.readFree, (h.reaches hr).readVia (h.ecc _ _ _ hecc), h.readAt hk hd]

/-- One more write. -/
theorem Work.Drains.write (h : k'.Drains k x mx ws) {a : MAddr} {n abs : Nat} (hr : k.Reaches x a n true abs) {d : List Byte}
    (hd : d.length = n) (land : Nat) : ∃ k₂ : Work,
      k₂.Drains k x mx (ws ++ [{ land := land, addr := abs, data := d, eng := x.e.num }]) ∧ k'.write x a d land = .ok k₂ := by
  refine ⟨_, ?_, (h.reaches hr).writeVia hd _ land⟩
  refine ⟨h.recs, h.late, ?_, fun word b m hm => eccWorst_filter _ (h.ecc word b m hm), ?_, fun v => ?_⟩
  · rw [Work.didWrite, State.clearEcc, State.writeAt, State.updCore, State.setCore]
    simp only
    rw [h.rest]
  · have hcore := k'.core_didWrite x (portsOf (aSpace a) (abs % 2 ^ 32) d.length land x.e.num true) (aSpace a) abs d land
    rw [h.core] at hcore
    exact hcore
  · rw [Work.mpend_didWrite, mem_insWrite, h.pend]
    simp

theorem Work.Drains.updMx (h : k'.Drains k x mx ws) (f : Mxe → Mxe) : (k'.updMx x f).Drains k x (f mx) ws := by
  have hcore := k'.core_updMx x f
  refine ⟨h.recs, h.late, ?_, h.ecc, ?_, fun v => ?_⟩
  · rw [Work.updMx, State.updCore, State.setCore]
    simp only
    rw [h.rest]
  · rw [hcore, h.core]
  · rw [hcore]
    exact h.pend v

/-- A loop over the numbers below `n` in which each turn `i` adds the write `turn i`, if any, and the element `f i`. -/
theorem Work.foldlM_drains {α : Type} {step : List α × Work → Nat → Except Halt (List α × Work)} (turn : Nat → List MWrite)
    (f : Nat → α) {n : Nat} (hstep : ∀ i < n, ∀ l k₁, Work.Drains k₁ k x mx (ws ++ (List.range i).flatMap turn) →
      ∃ k₂ : Work, k₂.Drains k x mx (ws ++ (List.range i).flatMap turn ++ turn i) ∧ step (l, k₁) i = .ok (l ++ [f i], k₂))
    (h : k'.Drains k x mx ws) : ∃ k₂ : Work, k₂.Drains k x mx (ws ++ (List.range n).flatMap turn) ∧
      (List.range n).foldlM step ([], k') = .ok ((List.range n).map f, k₂) := by
  have hturn : ∀ i < n, ∀ o : List α × Work, o.1 = (List.range i).map f ∧ o.2.Drains k x mx (ws ++ (List.range i).flatMap turn) →
      ∃ o' : List α × Work, (o'.1 = (List.range (i + 1)).map f ∧ o'.2.Drains k x mx (ws ++ (List.range (i + 1)).flatMap turn)) ∧
        step o i = .ok o' := by
    rintro i hi ⟨l, k₁⟩ ⟨rfl, h₁⟩
    obtain ⟨k₂, h₂, heq⟩ := hstep i hi _ k₁ h₁
    exact ⟨_, ⟨by simp [List.range_succ], by simpa [List.range_succ] using h₂⟩, heq⟩
  obtain ⟨⟨l, k₂⟩, ⟨hl, hk₂⟩, hfold⟩ := foldlM_range _ hturn (a := ([], k')) ⟨rfl, by simpa using h⟩
  obtain rfl := hl
  exact ⟨k₂, hk₂, hfold⟩

/-- Port cycles claimed at a core where no instruction has claimed any (R173). -/
theorem Work.claimRun_free (h : (k.s.core x.c).claims = []) (cl : List Claim) :
    k.claimRun x cl = { k with claims := k.claims ++ cl } := by
  unfold Work.claimRun
  rw [h]
  rfl

theorem Work.sameState_claimRun (h : (k.s.core x.c).claims = []) (cl : List Claim) : (k.claimRun x cl).SameState k := by
  rw [Work.claimRun_free h]
  exact ⟨rfl, rfl, rfl⟩

theorem Work.sameState_ev (k : Work) (code start len n : Nat) : (k.ev code start len n).SameState k :=
  ⟨Work.s_ev .., Work.recs_ev .., Work.late_ev ..⟩

theorem Work.SameState.trans {k₁ : Work} (h : k'.SameState k₁) (g : k₁.SameState k) : k'.SameState k :=
  ⟨h.state.trans g.state, h.recs.trans g.recs, h.late.trans g.late⟩

end

/-! ### What an instruction leaves behind -/

/-- The work of an instruction but for register increments, pass records and faults from its next work cycle on. -/
structure Work.Leaves (k' k : Work) (x : Ctx) : Prop where
  recs : k'.recs = k.recs
  late : ∀ f ∈ k'.late, f ∈ k.late ∨ x.at 1 ≤ f.cyc
  mem : k'.s.mem = k.s.mem
  core : ∃ aregs, k'.s.core x.c = (k.s.core x.c).setEngine x.e { k.s.engine x.c x.e with aregs := aregs }

section
variable {k k' : Work} {x : Ctx}

theorem Work.leaves_of_rest (hr : k'.recs = k.recs) (hl : ∀ f ∈ k'.late, f ∈ k.late ∨ x.at 1 ≤ f.cyc) (hm : k'.s.mem = k.s.mem)
    (hc : k'.s.core x.c = k.s.core x.c) : k'.Leaves k x :=
  ⟨hr, hl, hm, _, by rw [hc]; exact (Core.setEngine_engine _ _).symm⟩

theorem Work.leaves_of_state (h : k'.SameState k) : k'.Leaves k x :=
  Work.leaves_of_rest h.recs (by rw [h.late]; exact fun _ => .inl) (by rw [h.state]) (by rw [h.state])

theorem Work.Leaves.trans {k'' : Work} (h : k''.Leaves k' x) (g : k'.Leaves k x) : k''.Leaves k x := by
  obtain ⟨regs, hcore⟩ := h.core
  obtain ⟨regs', hcore'⟩ := g.core
  refine ⟨h.recs.trans g.recs, fun f hf => (h.late f hf).elim (g.late f) .inr, h.mem.trans g.mem, regs, ?_⟩
  rw [hcore, State.engine, hcore', Core.engine_setEngine_same]
  cases x.e <;> rfl

theorem Work.leaves_until (k : Work) (x : Ctx) (t : Nat) : (k.until t).Leaves k x := Work.leaves_of_state ⟨rfl, rfl, rfl⟩

theorem Work.leaves_setA (k : Work) (x : Ctx) (i l : Nat) (v : MAddr) : (k.setA x i l v).Leaves k x :=
  ⟨rfl, fun _ => .inl, rfl, _, State.core_updEngine_same _ _ _ _⟩

theorem Work.leaves_lateFault (k : Work) (x : Ctx) {cyc : Nat} (h : x.at 1 ≤ cyc) (core : Nat) (e : Option Eng) (cause : Cause) (d : Byte) :
    (k.lateFault cyc core e cause d).Leaves k x :=
  Work.leaves_of_rest rfl (fun f hf => by
    rcases List.mem_append.1 hf with hf | hf
    · exact .inl hf
    · obtain rfl := List.mem_singleton.1 hf
      exact .inr h) rfl rfl

/-- Faults of the datapath, each in a cycle from the next work cycle on (R460). -/
theorem Work.leaves_matrixFaults (k : Work) (x : Ctx) {fs : List MFault} (h : ∀ f ∈ fs, x.at 1 ≤ f.1) :
    (k.matrixFaults x fs).Leaves k x := by
  unfold Work.matrixFaults
  induction fs generalizing k with
  | nil => exact Work.leaves_of_state ⟨rfl, rfl, rfl⟩
  | cons f fs ih =>
    rw [List.foldl_cons]
    exact (ih _ fun g hg => h g (List.mem_cons_of_mem _ hg)).trans (Work.leaves_lateFault k x (h f List.mem_cons_self) _ _ _ _)

theorem State.updPass_rest (s : State) (k : Nat) (u : Pass → Pass) : s.updPass k u = { s with passes := (s.updPass k u).passes } := by
  unfold State.updPass
  split <;> rfl

/-- Check compares count, and raise faults in their own cycles (R82, R85). -/
theorem Work.leaves_compares (k : Work) (x : Ctx) (hu : (k.s.engine x.c x.e).upset = none) (cfg : MCfg) (vs : List Closed) :
    (k.compares x cfg vs).Leaves k x := by
  unfold Work.compares
  extract_lets k₁
  have hloop : k₁.Leaves k x ∧ (k₁.s.engine x.c x.e).upset = none := by
    unfold k₁
    clear k₁
    generalize vs.zipIdx = l
    induction l generalizing k with
    | nil => exact ⟨Work.leaves_of_state ⟨rfl, rfl, rfl⟩, hu⟩
    | cons p l ih =>
      rw [List.foldl_cons]
      extract_lets want have' k₂ k₃
      have h₃ : k₃.Leaves k x := by
        have hstate : k₂.SameState k := Work.sameState_ev ..
        have hpass := k₂.s.updPass_rest x.job.pass fun q => { q with checks := q.checks + 1 }
        rw [hstate.state] at hpass
        refine Work.leaves_of_rest hstate.recs (by rw [show k₃.late = k.late from hstate.late]; exact fun _ => .inl) ?_ ?_
        · rw [show k₃.s = _ from hstate.state ▸ hpass]
        · rw [show k₃.s = _ from hstate.state ▸ hpass]
          rfl
      have h₄ : (if want = have' then k₃ else k₃.lateFault (x.at (14 + cfg.n + p.2)) x.c (some x.e) .checkLaneMismatch 0x01).Leaves
          k x := by
        split
        · exact h₃
        · exact (Work.leaves_lateFault k₃ x (Ctx.at_one_le (by omega)) _ _ _ _).trans h₃
      obtain ⟨regs, hcore⟩ := h₄.core
      obtain ⟨h₅, hu₅⟩ := ih _ (by rw [State.engine, hcore, Core.engine_setEngine_same]; exact hu)
      exact ⟨h₅.trans h₄, hu₅⟩
  obtain ⟨hleaves, hup⟩ := hloop
  split
  · exact hleaves
  · rw [Work.spot_none k₁ x hup, Work.spot_none k₁ x hup]
    exact (k₁.leaves_until x _).trans hleaves

end

/-! ### Issue -/

section
variable {s : State} {c : CoreId} {j : Job} {op n col : Nat} {body : Ctx → Work → Except Halt Issued}

/-- What the issue of a matrix load or drain leaves: its queue has gone on, the matrix engine's state is `mx`, and a piece that
stands alone among the writes is in memory in the cycle after it lands. -/
structure Drained (s t : State) (c : CoreId) (j : Job) (n : Nat) (mx : Mxe) (ws : List MWrite) : Prop where
  follow : FollowedFrom s t c .mxe j n
  mx : (t.core c.val).mx = mx
  readAt : ∀ w ∈ ws, w.Alone ws → t.readAt c.val (w.land + 1) w.addr w.data.length = w.data

theorem runInstr_drained (h : Ready s c .mxe j) {k₀ k k' : Work} {mx : Mxe} {ws : List MWrite} (hs : k₀.SameState (s.work 0))
    (hk : k.Drains k₀ (s.pathAt c j n col) mx ws) (hleaves : k'.Leaves k (s.pathAt c j n col))
    (hb : body (s.head c .mxe j) (s.work (s.head c .mxe j).t) = .ok (finish (s.pathAt c j n col) k')) :
    Drained s (runInstr s c .mxe op false body) c j n mx ws := by
  obtain ⟨regs, hcore⟩ := hleaves.core
  have hq : k.s.engine c.val .mxe = s.engine c.val .mxe := by
    refine (hk.engine .mxe).trans ?_
    rw [hs.state]
    rfl
  have hengine : k'.s.engine c.val .mxe = { s.engine c.val .mxe with aregs := regs } := by
    rw [← hq, State.engine]
    refine (congrArg (fun o : Core => o.engine .mxe) hcore).trans ?_
    exact Core.engine_setEngine_same _ .mxe _
  have hlate : k.late = [] := hk.late.trans hs.late
  have hfaults : (k'.s.core c.val).faults = [] := by
    refine (congrArg Core.faults hcore).trans ?_
    rw [Core.setEngine_faults, hk.faults, hs.state]
    exact h.faults
  obtain ⟨hmoved, hi⟩ := runInstr_issues (op := op) h hb rfl rfl le_rfl (hleaves.recs.trans (hk.recs.trans hs.recs)) ⟨_, _, hengine⟩
    (by
      intro f hf
      rw [hfaults, List.nil_append] at hf
      exact (hleaves.late f hf).resolve_left (by rw [hlate]; exact List.not_mem_nil))
  refine ⟨hmoved, hi.mx.trans ?_, fun w hw ha => hi.readAt (fun v => ?_) hw ha⟩
  · rw [hcore, Core.setEngine_mx]
    exact hk.mx_eq
  · rw [hcore, Core.setEngine_mpend]
    exact hk.pend v

end

end Sys2Proof.Machine
end


section
/-!
PROOFS. MLDL (R42, R75): each accumulator of the mask is loaded from its row, DPU by DPU.
-/
namespace Sys2Proof.Machine

/-- An accumulator loaded with `num` at anchor `q` (R42). -/
def loadedAcc (lsum q num : Int) : Acc :=
  { num := num, exp := q, emin := if num = 0 then none else some (q - lsum), emax := if num = 0 then none else some (q - lsum),
    terms := 0, loaded := some q }

theorem mem_insNum {a n : Nat} {l : List Nat} : a ∈ insNum n l ↔ a ∈ l ∨ a = n := by
  unfold insNum
  split
  · next h =>
    refine ⟨.inl, fun ha => ha.elim id ?_⟩
    rintro rfl
    simpa using h
  · simp

theorem accKey_inj {d d' a a' : Nat} (ha : a < 4) (ha' : a' < 4) (h : accKey d a = accKey d' a') : d = d' ∧ a = a' := by
  unfold accKey at h
  omega

theorem nth_mem {α : Type} (d : α) {l : List α} {i : Nat} (h : i < l.length) : nth d l i ∈ l := by
  rw [nth_eq_getElem _ _ _ h]
  exact List.getElem_mem h

theorem mem_iff_nth {l : List Nat} {a : Nat} : a ∈ l ↔ ∃ i < l.length, nth 0 l i = a := by
  constructor
  · intro h
    obtain ⟨i, hi, rfl⟩ := List.mem_iff_getElem.1 h
    exact ⟨i, hi, nth_eq_getElem _ _ _ hi⟩
  · rintro ⟨i, hi, rfl⟩
    exact nth_mem 0 hi

theorem maskAccs_lt {m : Byte} {a : Nat} (h : a ∈ maskAccs m) : a < 4 := List.mem_range.1 (List.mem_of_mem_filter h)

/-- The mask names no accumulator twice. -/
theorem maskAccs_nth_inj {m : Byte} {i i' : Nat} (h : i < (maskAccs m).length) (h' : i' < (maskAccs m).length)
    (heq : nth 0 (maskAccs m) i = nth 0 (maskAccs m) i') : i = i' := by
  rw [nth_eq_getElem _ _ _ h, nth_eq_getElem _ _ _ h'] at heq
  exact (List.Nodup.getElem_inj_iff (List.nodup_range.filter _)).1 heq

theorem zip_zipIdx_eq {α β : Type} (d : α) (d' : β) (l : List α) (l' : List β) (h : l'.length = l.length) :
    (List.zip l l').zipIdx = (List.range l.length).map fun i => ((nth d l i, nth d' l' i), i) := by
  apply List.ext_getElem
  · simp [h]
  · intro i h1 h2
    have hi : i < l.length := by simpa using h2
    simp [nth_eq_getElem _ l i hi, nth_eq_getElem _ l' i (h ▸ hi)]

/-! ### The loops -/

/-- The matrix engine with accumulator `a` of the first `d` DPUs at the values `val`. -/
structure Mxe.Filled (mx mx₀ : Mxe) (a d : Nat) (val : Nat → Acc) : Prop where
  acc : ∀ e < d, AMap.get Acc.zero mx.acc (accKey e a) = val e
  others : ∀ key, (∀ e < d, key ≠ accKey e a) → AMap.get Acc.zero mx.acc key = AMap.get Acc.zero mx₀.acc key
  accOpen : mx.accOpen = mx₀.accOpen

theorem Mxe.Filled.succ {mx mx₀ : Mxe} {a d : Nat} {val : Nat → Acc} (h : mx.Filled mx₀ a d val) :
    Mxe.Filled { mx with acc := AMap.set Acc.zero mx.acc (accKey d a) (val d) } mx₀ a (d + 1) val := by
  refine ⟨fun e he => ?_, fun key hkey => ?_, h.accOpen⟩
  · by_cases hed : e = d
    · subst hed
      exact AMap.get_set_same _ _ _ _
    · have hne : accKey e a ≠ accKey d a := by
        unfold accKey
        omega
      exact (AMap.get_set_other _ _ _ hne).trans (h.acc e (by omega))
  · exact (AMap.get_set_other _ _ _ (hkey d (Nat.lt_succ_self d))).trans (h.others key fun e he => hkey e (by omega))

/-- One DPU's word of a row in the loop of MLDL: the work, the faults so far, the residue so far. -/
def mldlWord (x : Ctx) (cfg : MCfg) (q : Int) (a row i : Nat) (o : Work × List MFault × Nat) (d : Nat) :
    Except Halt (Work × List MFault × Nat) := do
  let (bs, k) ← o.1.readFree x (rowAddr x.c row d) 32 (x.at (d + i))
  let n := sext 192 (leNat (bs.take 24))
  let fs := if 2 ^ 155 ≤ n.natAbs then o.2.1 ++ [(x.at (4 + d + i), .accumRange, 0x03)] else o.2.1
  pure (k.updMx x fun o => { o with acc := AMap.set Acc.zero o.acc (accKey d a) (loadedAcc cfg.lsum q n) }, fs,
    (o.2.2 + residue n q) % mersenne)

/-- One row in the loop of MLDL. -/
def mldlRow (x : Ctx) (cfg : MCfg) (q : Int) (o : Work × List MFault) (p : (Nat × Nat) × Nat) : Except Halt (Work × List MFault) := do
  let (k, fs, rho) ← (List.range cfg.n).foldlM (mldlWord x cfg q p.1.1 p.1.2 p.2) (o.1, o.2, 0)
  pure (k.updMx x fun o => { o with chk := AMap.set 0 o.chk p.1.1 rho, accOpen := insNum p.1.1 o.accOpen }, fs)

theorem mldlWord_read {x : Ctx} {cfg : MCfg} {q : Int} {a row i d rho : Nat} {k k₂ : Work} {fs : List MFault} {bs : List Byte}
    (h : k.readFree x (rowAddr x.c row d) 32 (x.at (d + i)) = .ok (bs, k₂)) : mldlWord x cfg q a row i (k, fs, rho) d =
      .ok (k₂.updMx x fun o => { o with
          acc := AMap.set Acc.zero o.acc (accKey d a) (loadedAcc cfg.lsum q (sext 192 (leNat (bs.take 24)))) },
        if 2 ^ 155 ≤ (sext 192 (leNat (bs.take 24))).natAbs then fs ++ [(x.at (4 + d + i), .accumRange, 0x03)] else fs,
        (rho + residue (sext 192 (leNat (bs.take 24))) q) % mersenne) := by
  rw [mldlWord, h, ok_bind]
  rfl

theorem mldlRow_words {x : Ctx} {cfg : MCfg} {q : Int} {a row i rho : Nat} {k k₂ : Work} {fs fs₂ : List MFault}
    (h : (List.range cfg.n).foldlM (mldlWord x cfg q a row i) (k, fs, 0) = .ok (k₂, fs₂, rho)) :
    mldlRow x cfg q (k, fs) ((a, row), i) =
      .ok (k₂.updMx x fun o => { o with chk := AMap.set 0 o.chk a rho, accOpen := insNum a o.accOpen }, fs₂) := by
  rw [mldlRow, h, ok_bind]
  rfl

/-- The value that MLDL gives the accumulator of DPU `e` from the word at `abs` (R42). -/
def mldlValue (k : Work) (x : Ctx) (cfg : MCfg) (q : Int) (i e abs : Nat) : Acc :=
  loadedAcc cfg.lsum q (sext 192 (leNat ((k.s.readAt x.c (x.at (e + i)) abs 32).take 24)))

/-- The matrix engine with the accumulators of `accs` loaded from the first `i` rows. -/
structure Mxe.LoadedRows (mx mx₀ : Mxe) (accs : List Nat) (n i : Nat) (val : Nat → Nat → Acc) : Prop where
  acc : ∀ r < i, ∀ e < n, AMap.get Acc.zero mx.acc (accKey e (nth 0 accs r)) = val r e
  accOpen : ∀ a, a ∈ mx.accOpen ↔ a ∈ mx₀.accOpen ∨ ∃ r < i, nth 0 accs r = a

section
variable {k k' : Work} {x : Ctx} {q : Int} {cfg : MCfg} (hk : k.Quiet x)
include hk

theorem mldlWords_ok {abs : Nat → Nat} {mx : Mxe} (h : k'.Drains k x mx []) (a row i : Nat) {fs : List MFault}
    (hfs : ∀ f ∈ fs, x.at 1 ≤ f.1) (hr : ∀ e < cfg.n, k.Reaches x (rowAddr x.c row e) 32 false (abs e))
    (hecc : ∀ e < cfg.n, eccWorst k.s.ecc (eccWord (aSpace (rowAddr x.c row e))) (abs e) 32 = none) :
    ∃ (o : Work × List MFault × Nat) (mx₂ : Mxe), o.1.Drains k x mx₂ [] ∧ (∀ f ∈ o.2.1, x.at 1 ≤ f.1) ∧
      mx₂.Filled mx a cfg.n (fun e => mldlValue k x cfg q i e (abs e)) ∧
      (List.range cfg.n).foldlM (mldlWord x cfg q a row i) (k', fs, 0) = .ok o := by
  have hturn : ∀ d < cfg.n, ∀ o : Work × List MFault × Nat, (∃ mx₂, o.1.Drains k x mx₂ [] ∧ (∀ f ∈ o.2.1, x.at 1 ≤ f.1) ∧
      mx₂.Filled mx a d (fun e => mldlValue k x cfg q i e (abs e))) → ∃ o' : Work × List MFault × Nat,
      (∃ mx₂, o'.1.Drains k x mx₂ [] ∧ (∀ f ∈ o'.2.1, x.at 1 ≤ f.1) ∧
        mx₂.Filled mx a (d + 1) (fun e => mldlValue k x cfg q i e (abs e))) ∧ mldlWord x cfg q a row i o d = .ok o' := by
    rintro d hd ⟨k₁, fs₁, rho⟩ ⟨mx₁, h₁, hfs₁, hfill₁⟩
    obtain ⟨k₂, h₂, hread⟩ := h₁.readFree hk (hr d hd) (hecc d hd) (fun v hv => absurd hv List.not_mem_nil) (x.at (d + i))
    refine ⟨_, ⟨_, h₂.updMx fun o => { o with
      acc := AMap.set Acc.zero o.acc (accKey d a) (mldlValue k x cfg q i d (abs d)) }, ?_, hfill₁.succ⟩, mldlWord_read hread⟩
    intro f hf
    dsimp only at hf
    split at hf
    · rcases List.mem_append.1 hf with hf | hf
      · exact hfs₁ f hf
      · obtain rfl := List.mem_singleton.1 hf
        exact Ctx.at_one_le (by omega)
    · exact hfs₁ f hf
  obtain ⟨o, ⟨mx₂, h₂, hfs₂, hfill⟩, heq⟩ := foldlM_range _ hturn (a := (k', fs, 0))
    ⟨mx, h, hfs, fun e he => absurd he (Nat.not_lt_zero e), fun _ _ => rfl, rfl⟩
  exact ⟨o, mx₂, h₂, hfs₂, hfill, heq⟩

theorem mldlRows_ok {m : Byte} {rows : List Nat} {abs : Nat → Nat → Nat} {mx : Mxe} (h : k'.Drains k x mx [])
    (hlen : rows.length = (maskAccs m).length)
    (hr : ∀ i < (maskAccs m).length, ∀ e < cfg.n, k.Reaches x (rowAddr x.c (nth 0 rows i) e) 32 false (abs i e))
    (hecc : ∀ i < (maskAccs m).length, ∀ e < cfg.n,
      eccWorst k.s.ecc (eccWord (aSpace (rowAddr x.c (nth 0 rows i) e))) (abs i e) 32 = none) :
    ∃ (o : Work × List MFault) (mx₂ : Mxe), o.1.Drains k x mx₂ [] ∧ (∀ f ∈ o.2, x.at 1 ≤ f.1) ∧
      mx₂.LoadedRows mx (maskAccs m) cfg.n (maskAccs m).length (fun i e => mldlValue k x cfg q i e (abs i e)) ∧
      (List.zip (maskAccs m) rows).zipIdx.foldlM (mldlRow x cfg q) (k', []) = .ok o := by
  have hturn : ∀ i < (maskAccs m).length, ∀ o : Work × List MFault, (∃ mx₂, o.1.Drains k x mx₂ [] ∧ (∀ f ∈ o.2, x.at 1 ≤ f.1) ∧
      mx₂.LoadedRows mx (maskAccs m) cfg.n i (fun i e => mldlValue k x cfg q i e (abs i e))) → ∃ o' : Work × List MFault,
      (∃ mx₂, o'.1.Drains k x mx₂ [] ∧ (∀ f ∈ o'.2, x.at 1 ≤ f.1) ∧
        mx₂.LoadedRows mx (maskAccs m) cfg.n (i + 1) (fun i e => mldlValue k x cfg q i e (abs i e))) ∧
        mldlRow x cfg q o ((nth 0 (maskAccs m) i, nth 0 rows i), i) = .ok o' := by
    rintro i hi ⟨k₁, fs₁⟩ ⟨mx₁, h₁, hfs₁, hload⟩
    obtain ⟨⟨k₂, fs₂, rho⟩, mx₂, h₂, hfs₂, hfill, heq⟩ := mldlWords_ok (q := q) hk h₁ (nth 0 (maskAccs m) i) (nth 0 rows i) i hfs₁
      (hr i hi) (hecc i hi)
    refine ⟨_, ⟨_, h₂.updMx fun o => { o with
      chk := AMap.set 0 o.chk (nth 0 (maskAccs m) i) rho, accOpen := insNum (nth 0 (maskAccs m) i) o.accOpen }, hfs₂,
      fun r hrr e he => ?_, fun a => ?_⟩, mldlRow_words heq⟩
    · by_cases hri : r = i
      · subst hri
        exact hfill.acc e he
      · refine (hfill.others _ fun e' _ heq' => hri ?_).trans (hload.acc r (by omega) e he)
        obtain ⟨-, hsame⟩ := accKey_inj (maskAccs_lt (nth_mem 0 (by omega))) (maskAccs_lt (nth_mem 0 hi)) heq'
        exact maskAccs_nth_inj (by omega) hi hsame
    · refine mem_insNum.trans ?_
      rw [hfill.accOpen, hload.accOpen]
      constructor
      · rintro ((ha | ⟨r, hrr, ha⟩) | ha)
        · exact .inl ha
        · exact .inr ⟨r, by omega, ha⟩
        · exact .inr ⟨i, by omega, ha.symm⟩
      · rintro (ha | ⟨r, hrr, ha⟩)
        · exact .inl (.inl ha)
        · by_cases hri : r = i
          · exact .inr (hri ▸ ha.symm)
          · exact .inl (.inr ⟨r, by omega, ha⟩)
  obtain ⟨o, ⟨mx₂, h₂, hfs₂, hload⟩, heq⟩ := foldlM_range _ hturn (a := (k', []))
    ⟨mx, h, fun f hf => absurd hf List.not_mem_nil, fun r hr => absurd hr (Nat.not_lt_zero r), fun a => by simp⟩
  refine ⟨o, mx₂, h₂, hfs₂, hload, ?_⟩
  rw [zip_zipIdx_eq 0 0 _ _ hlen, List.foldlM_map]
  exact heq

end

/-! ### The instruction -/

/-- MLDL once the path is free (R42, R75). -/
theorem runMldl_ok {x y : Ctx} {k k' : Work} {m : Byte} {w : BitVec 48} {rows : List Nat} {abs : Nat → Nat → Nat}
    (hl : legalEng 0x44 m w = true) (hwait : waitPath x k ((k.s.core x.c).engine x.e).free = (y, k'))
    (hu : (k'.s.engine y.c y.e).upset = none) (hpsm : (k'.mx y).cfg.psm = false) (hk : k'.Quiet y) (hg : k'.Ungated y)
    (hrows : psmRows k' y (k'.areg y (fld w 0 4)) (maskAccs m).length = .ok rows) (hlen : rows.length = (maskAccs m).length)
    (hr : ∀ i < (maskAccs m).length, ∀ e < (k'.mx y).cfg.n, k'.Reaches y (rowAddr y.c (nth 0 rows i) e) 32 false (abs i e))
    (hecc : ∀ i < (maskAccs m).length, ∀ e < (k'.mx y).cfg.n,
      eccWorst k'.s.ecc (eccWord (aSpace (rowAddr y.c (nth 0 rows i) e))) (abs i e) 32 = none) :
    ∃ (k₂ k₃ : Work) (mx : Mxe), k₂.Drains k' y mx [] ∧ k₃.Leaves k₂ y ∧
      mx.LoadedRows (k'.mx y) (maskAccs m) (k'.mx y).cfg.n (maskAccs m).length (fun i e =>
        mldlValue k' y (k'.mx y).cfg (anchorOf k' y (bitAt w 14) (fld w 4 10) (fld w 15 5)) i e (abs i e)) ∧
      runMldl m w x k = .ok (finish y k₃) := by
  obtain ⟨k₁, hk₁, hs₁⟩ : ∃ k₁ : Work, k₁ = (if (maskAccs m).length = 0 then k' else
      k'.claimRun y ((List.range (k'.mx y).cfg.n).flatMap fun (d : Nat) =>
        runClaims y (10 + ((k'.s.regionOf y.job.fn 2).1 % 1024 / 32 + d) % 32) d (maskAccs m).length)) ∧ k₁.SameState k' := by
    refine ⟨_, rfl, ?_⟩
    split
    · exact ⟨rfl, rfl, rfl⟩
    · exact Work.sameState_claimRun hk.claims _
  obtain ⟨⟨k₂, fs⟩, mx, h₂, hfs, hload, hloop⟩ := mldlRows_ok (cfg := (k'.mx y).cfg)
    (q := anchorOf k' y (bitAt w 14) (fld w 4 10) (fld w 15 5)) hk (hk.drains.of_state hs₁) hlen hr hecc
  obtain ⟨k₃, hk₃, hs₃⟩ : ∃ k₃ : Work, k₃ = (if (maskAccs m).length = 0 then { k₂ with evs := k₁.evs } else
      Work.ev { k₂ with evs := k₁.evs } 0x12 y.t ((k'.mx y).cfg.n + (maskAccs m).length - 1) 1) ∧ k₃.SameState k₂ := by
    refine ⟨_, rfl, ?_⟩
    split
    · exact ⟨rfl, rfl, rfl⟩
    · exact (Work.sameState_ev ..).trans ⟨rfl, rfl, rfl⟩
  refine ⟨k₂, k₃.matrixFaults y fs, mx, h₂, (k₃.leaves_matrixFaults y hfs).trans (Work.leaves_of_state hs₃), hload, ?_⟩
  rw [runMldl, needEng_ok hl, ok_bind, hwait]
  simp only [need_true (show (!(k'.mx y).cfg.psm) = true by rw [hpsm]; rfl), ok_bind, hrows, gate_free hg, Work.spot_none _ _ hu, ← hk₁]
  refine Eq.trans (congrArg (· >>= _) hloop) ?_
  rw [hk₃]
  rfl

end Sys2Proof.Machine
end


section
/-!
PROOFS. What MDRN and MDRNL share (R75, R76, R80): the reductions that a drain closes, and the values that it reads.
-/
namespace Sys2Proof.Machine

/-- Reductions that a drain names: accumulators, or PSM rows. -/
def drainCount (cfg : MCfg) (accs rows : List Nat) : Nat := if cfg.psm then rows.length else accs.length

/-- Number `i` of what a drain closes. -/
def drainItem (cfg : MCfg) (accs rows : List Nat) (i : Nat) : Nat × Option Nat :=
  if cfg.psm then (i, some (nth 0 rows i)) else (nth 0 accs i, none)

theorem drainItems_zipIdx (cfg : MCfg) (accs rows : List Nat) : (drainItems cfg accs rows).zipIdx =
    (List.range (drainCount cfg accs rows)).map fun i => (drainItem cfg accs rows i, i) := by
  unfold drainItems drainCount drainItem
  cases cfg.psm
  · apply List.ext_getElem
    · simp
    · intro i h1 h2
      have hi : i < accs.length := by simpa using h1
      simp [nth_eq_getElem _ _ i hi]
  · apply List.ext_getElem
    · simp
    · intro i h1 h2
      have hi : i < rows.length := by simpa using h1
      simp [nth_eq_getElem _ _ i hi]

/-- The value of DPU `e` of a reduction: the accumulator's, or that of the word at `abs` as it is when the array reads it (R75). -/
def drainAcc (k : Work) (x : Ctx) (mx : Mxe) (cfg : MCfg) (accs : List Nat) (src : Nat → Nat → Nat) (i e : Nat) : Acc :=
  if cfg.psm then { Acc.zero with num := sext 192 (leNat ((k.s.readAt x.c (x.at (3 + e + i)) (src i e) 32).take 24)), exp := cfg.q }
  else AMap.get Acc.zero mx.acc (accKey e (nth 0 accs i))

/-- What a drain captures of reduction `i`. -/
def drainClosed (k : Work) (x : Ctx) (mx : Mxe) (cfg : MCfg) (accs rows : List Nat) (src : Nat → Nat → Nat) (i : Nat) : Closed :=
  { num := (drainItem cfg accs rows i).1, row := (drainItem cfg accs rows i).2,
    accs := (List.range cfg.n).map (drainAcc k x mx cfg accs src i) }

/-- The matrix engine with the reductions of a drain closed, and vectors held back behind it (R80). -/
def Mxe.drained (mx : Mxe) (x : Ctx) (cfg : MCfg) (accs rows : List Nat) : Mxe :=
  let mx := { mx with stall := max mx.stall (if cfg.psm then x.at (cfg.n + rows.length - 2) else x.at (cfg.n - 1)) }
  if cfg.psm then { mx with rowOpen := mx.rowOpen.filter fun r => !rows.contains r }
  else { mx with accOpen := mx.accOpen.filter fun a => !accs.contains a }

theorem Mxe.acc_drained (mx : Mxe) (x : Ctx) (cfg : MCfg) (accs rows : List Nat) : (mx.drained x cfg accs rows).acc = mx.acc := by
  unfold Mxe.drained
  split <;> rfl

/-- A drain has the path, and what it names is open. -/
structure Work.AtDrain (k : Work) (x : Ctx) (accs rows : List Nat) : Prop where
  upset : (k.s.engine x.c x.e).upset = none
  quiet : k.Quiet x
  ungated : k.Ungated x
  recs : k.recs = []
  late : k.late = []
  faults : (k.s.core x.c).faults = []
  opened : (if (k.mx x).cfg.psm then rows.all fun r => (k.mx x).rowOpen.contains r
    else accs.all fun a => (k.mx x).accOpen.contains a) = true

/-- Where the words of the rows of a PSM drain lie. -/
structure Work.RowWords (k : Work) (x : Ctx) (cfg : MCfg) (rows : List Nat) (src : Nat → Nat → Nat) : Prop where
  reaches : ∀ i < rows.length, ∀ e < cfg.n, k.Reaches x (rowAddr x.c (nth 0 rows i) e) 32 false (src i e)
  sound : ∀ i < rows.length, ∀ e < cfg.n, eccWorst k.s.ecc (eccWord (aSpace (rowAddr x.c (nth 0 rows i) e))) (src i e) 32 = none

section
variable {k k' : Work} {x : Ctx} {accs rows : List Nat} {cfg : MCfg} {src : Nat → Nat → Nat}

/-- What a drain captures of a reduction changes nothing. -/
theorem drainValue_ok (hk : k.Quiet x) {mx : Mxe} {ws : List MWrite} (h : k'.Drains k x mx ws)
    (hwords : cfg.psm = true → k.RowWords x cfg rows src) {i : Nat} (hi : i < drainCount cfg accs rows)
    (hapart : cfg.psm = true → ∀ e < cfg.n, ∀ v ∈ ws, v.Apart (src i e) 32) : ∃ k₂ : Work, k₂.Drains k x mx ws ∧
      drainValue x k' cfg (drainItem cfg accs rows i, i) = .ok (drainClosed k x mx cfg accs rows src i, k₂) := by
  cases hpsm : cfg.psm with
  | false =>
    refine ⟨k', h, ?_⟩
    have hitem : drainItem cfg accs rows i = (nth 0 accs i, none) := by simp [drainItem, hpsm]
    have hacc : drainAcc k x mx cfg accs src i = fun e => AMap.get Acc.zero mx.acc (accKey e (nth 0 accs i)) := by
      funext e
      simp [drainAcc, hpsm]
    rw [drainClosed, hitem, drainValue, hacc]
    simp only [h.mx_eq]
  | true =>
    have hitem : drainItem cfg accs rows i = (i, some (nth 0 rows i)) := by simp [drainItem, hpsm]
    have hrow : i < rows.length := by simpa [drainCount, hpsm] using hi
    obtain ⟨k₂, h₂, hloop⟩ := Work.foldlM_drains (n := cfg.n) (turn := fun _ => []) (f := drainAcc k x mx cfg accs src i)
      (step := fun (o : List Acc × Work) (d : Nat) => do
        let (bs, k) ← o.2.readFree x (rowAddr x.c (nth 0 rows i) d) 32 (x.at (3 + d + i))
        pure (o.1 ++ [{ Acc.zero with num := sext 192 (leNat (bs.take 24)), exp := cfg.q }], k))
      (fun e he l k₁ h₁ => by
        have hws : ws ++ (List.range e).flatMap (fun _ => ([] : List MWrite)) = ws := by simp
        rw [hws] at h₁ ⊢
        obtain ⟨k₂, h₂, hread⟩ := h₁.readFree hk ((hwords hpsm).reaches i hrow e he) ((hwords hpsm).sound i hrow e he)
          (hapart hpsm e he) (x.at (3 + e + i))
        refine ⟨k₂, by simpa using h₂, ?_⟩
        simp only [hread, ok_bind, drainAcc, hpsm, if_true]
        rfl) h
    have hws : ws ++ (List.range cfg.n).flatMap (fun _ => ([] : List MWrite)) = ws := by simp
    rw [hws] at h₂
    refine ⟨{ k₂ with evs := k'.evs }, h₂.of_state ⟨rfl, rfl, rfl⟩, ?_⟩
    rw [drainClosed, hitem, drainValue]
    exact Eq.trans (congrArg (· >>= _) hloop) rfl

/-- The path of a drain: what it names is open, its port cycles are claimed, its reductions close. -/
theorem startDrain_ok (h : k.AtDrain x accs rows) (writes : Ctx → List Range) : ∃ k₁ : Work,
    startDrain x k (k.mx x).cfg accs rows writes = .ok (x, k₁) ∧
      ((drainPorts x k₁ (k.mx x).cfg rows).closeReds x (k.mx x).cfg accs rows).Drains k x
        ((k.mx x).drained x (k.mx x).cfg accs rows) [] := by
  obtain ⟨k₁, hk₁⟩ : ∃ k₁, k₁ = k.updMx x fun o => { o with
    stall := max o.stall (if (k.mx x).cfg.psm then x.at ((k.mx x).cfg.n + rows.length - 2) else x.at ((k.mx x).cfg.n - 1)) } :=
      ⟨_, rfl⟩
  have h₁ := h.quiet.drains.updMx fun o => { o with
    stall := max o.stall (if (k.mx x).cfg.psm then x.at ((k.mx x).cfg.n + rows.length - 2) else x.at ((k.mx x).cfg.n - 1)) }
  rw [← hk₁] at h₁
  refine ⟨k₁, ?_, ?_⟩
  · rw [startDrain, need_true h.opened, ok_bind, gate_free h.ungated, ok_bind]
    simp only [Work.spot_none _ _ h.upset, ← hk₁]
    rfl
  · have hports : (drainPorts x k₁ (k.mx x).cfg rows).SameState k₁ := by
      unfold drainPorts
      split
      · exact (Work.sameState_ev ..).trans (Work.sameState_claimRun (by rw [h₁.core]; exact h.quiet.claims) _)
      · exact ⟨rfl, rfl, rfl⟩
    have hclosed := (h₁.of_state hports).updMx fun o => if (k.mx x).cfg.psm then
      { o with rowOpen := o.rowOpen.filter fun r => !rows.contains r }
      else { o with accOpen := o.accOpen.filter fun a => !accs.contains a }
    exact hclosed

/-- No arithmetic fault is on its way (R38, R83). -/
theorem Work.Drains.spoilt {mx : Mxe} {ws : List MWrite} (h : k'.Drains k x mx ws) (hk : k.AtDrain x accs rows) :
    k'.spoilt x = false := by
  rw [Work.spoilt, h.late, hk.late, h.faults, hk.faults]
  rfl

end

/-! ### MDRN -/

/-- The value of DPU `e` of a reduction, rounded once (R43 to R48, R82). -/
def drainRound (d : DCfg) (num e : Nat) (a : Acc) :=
  roundExact d.fmt (if d.rnd = 1 then .stoch (srand d.seed
    (d.idx + BitVec.ofInt 64 (d.stok.toInt * (num : Int) + d.sdpu.toInt * (e : Int)))) else .rne) d.ovf a.num (a.exp + d.shift)

/-- One reduction in the loop of MDRN. -/
def mdrnItem (x : Ctx) (cfg : MCfg) (d : DCfg) (dst : Nat → MAddr) (spoilt : Bool) (o : List Closed × Work)
    (p : (Nat × Option Nat) × Nat) : Except Halt (List Closed × Work) := do
  let (v, k) ← drainValue x o.2 cfg p
  if spoilt then pure (o.1, k)
  else
    let rs := v.accs.zipIdx.map fun a => drainRound d v.num a.2 a.1
    let t := x.at (9 + cfg.n + p.2)
    let k := k.ev 0x07 t 1 (rs.filter fun r => r.overflow).length
    let k ← k.write x (dst v.num) (rs.flatMap fun r => leBytes (fmtBits d.fmt / 8) r.bits) t
    pure (o.1 ++ [v], k)

/-- The bytes that MDRN writes for reduction `i`. -/
def mdrnBytes (k : Work) (x : Ctx) (mx : Mxe) (cfg : MCfg) (d : DCfg) (accs rows : List Nat) (src : Nat → Nat → Nat) (i : Nat) :
    List Byte :=
  (List.range cfg.n).flatMap fun e => leBytes (fmtBits d.fmt / 8)
    (drainRound d (drainItem cfg accs rows i).1 e (drainAcc k x mx cfg accs src i e)).bits

theorem mdrnBytes_length (k : Work) (x : Ctx) (mx : Mxe) (cfg : MCfg) (d : DCfg) (accs rows : List Nat) (src : Nat → Nat → Nat)
    (i : Nat) : (mdrnBytes k x mx cfg d accs rows src i).length = cfg.n * (fmtBits d.fmt / 8) := by
  rw [mdrnBytes, flatMap_length_const _ fun e => leBytes_length _ _, List.length_range, Nat.mul_comm]

/-- The write of reduction `i` (R80). -/
def Ctx.drains (x : Ctx) (n : Nat) (abs : Nat → Nat) (d : Nat → List Byte) (i : Nat) : MWrite :=
  { land := x.at (9 + n + i), addr := abs i, data := d i, eng := x.e.num }

section
variable {k k' : Work} {x : Ctx} {accs rows : List Nat} {cfg : MCfg} {d : DCfg} {dst : Nat → MAddr} {src : Nat → Nat → Nat}
  {abs : Nat → Nat} {mx : Mxe}

theorem mdrnItem_ok (hk : k.Quiet x) {ws : List MWrite} (h : k'.Drains k x mx ws) (hwords : cfg.psm = true → k.RowWords x cfg rows src)
    {i : Nat} (hi : i < drainCount cfg accs rows) (hapart : cfg.psm = true → ∀ e < cfg.n, ∀ v ∈ ws, v.Apart (src i e) 32)
    (hdst : k.Reaches x (dst (drainItem cfg accs rows i).1) (cfg.n * (fmtBits d.fmt / 8)) true (abs i)) (l : List Closed) :
    ∃ k₂ : Work, k₂.Drains k x mx (ws ++ [x.drains cfg.n abs (mdrnBytes k x mx cfg d accs rows src) i]) ∧
      mdrnItem x cfg d dst false (l, k') (drainItem cfg accs rows i, i) =
        .ok (l ++ [drainClosed k x mx cfg accs rows src i], k₂) := by
  obtain ⟨k₁, h₁, hvalue⟩ := drainValue_ok hk h hwords hi hapart
  have hrs : (((drainClosed k x mx cfg accs rows src i).accs.zipIdx.map fun a =>
      drainRound d (drainClosed k x mx cfg accs rows src i).num a.2 a.1).flatMap fun r => leBytes (fmtBits d.fmt / 8) r.bits) =
      mdrnBytes k x mx cfg d accs rows src i := by
    rw [drainClosed, zipIdx_map_range, List.map_map, List.flatMap_map]
    rfl
  obtain ⟨k₂, h₂, hwrite⟩ := (h₁.of_state (Work.sameState_ev k₁ 0x07 (x.at (9 + cfg.n + i)) 1
    (((drainClosed k x mx cfg accs rows src i).accs.zipIdx.map fun a =>
      drainRound d (drainClosed k x mx cfg accs rows src i).num a.2 a.1).filter fun r => r.overflow).length)).write hdst
    (mdrnBytes_length k x mx cfg d accs rows src i) (x.at (9 + cfg.n + i))
  refine ⟨k₂, h₂, ?_⟩
  rw [mdrnItem, hvalue, ok_bind]
  simp only [Bool.false_eq_true, if_false, hrs]
  rw [show (drainClosed k x mx cfg accs rows src i).num = (drainItem cfg accs rows i).1 from rfl] at hwrite ⊢
  rw [hwrite]
  rfl

/-- The loop of MDRN, whose sources lie apart from what it writes. -/
theorem mdrnItems_ok (hk : k.Quiet x) (h : k'.Drains k x mx []) (hwords : cfg.psm = true → k.RowWords x cfg rows src)
    (hapart : cfg.psm = true → ∀ i < rows.length, ∀ e < cfg.n, ∀ i' < rows.length,
      src i e + 32 ≤ abs i' ∨ abs i' + cfg.n * (fmtBits d.fmt / 8) ≤ src i e)
    (hdst : ∀ i < drainCount cfg accs rows,
      k.Reaches x (dst (drainItem cfg accs rows i).1) (cfg.n * (fmtBits d.fmt / 8)) true (abs i)) :
    ∃ k₂ : Work, k₂.Drains k x mx ((List.range (drainCount cfg accs rows)).map
        (x.drains cfg.n abs (mdrnBytes k x mx cfg d accs rows src))) ∧
      (drainItems cfg accs rows).zipIdx.foldlM (mdrnItem x cfg d dst false) ([], k') =
        .ok ((List.range (drainCount cfg accs rows)).map (drainClosed k x mx cfg accs rows src), k₂) := by
  obtain ⟨k₂, h₂, hloop⟩ := Work.foldlM_drains (ws := []) (n := drainCount cfg accs rows)
    (turn := fun i => [x.drains cfg.n abs (mdrnBytes k x mx cfg d accs rows src) i]) (f := drainClosed k x mx cfg accs rows src)
    (step := fun o i => mdrnItem x cfg d dst false o (drainItem cfg accs rows i, i))
    (fun i hi l k₁ h₁ => mdrnItem_ok hk h₁ hwords hi (fun hp e he v hv => by
      simp only [List.nil_append, List.mem_flatMap, List.mem_range, List.mem_singleton] at hv
      obtain ⟨i', hi', rfl⟩ := hv
      have hn : drainCount cfg accs rows = rows.length := by simp [drainCount, hp]
      rw [hn] at hi
      have := hapart hp i hi e he i' (by omega)
      unfold MWrite.Apart
      rw [show (x.drains cfg.n abs (mdrnBytes k x mx cfg d accs rows src) i').data.length = _ from mdrnBytes_length ..]
      exact this.symm) (hdst i hi) l) h
  refine ⟨k₂, ?_, ?_⟩
  · rw [List.nil_append, ← List.map_eq_flatMap] at h₂
    exact h₂
  · rw [drainItems_zipIdx, List.foldlM_map]
    exact hloop

end

/-- MDRN once the path is free. -/
theorem runMdrn_ok {x y : Ctx} {k k' : Work} {m : Byte} {w : BitVec 48} {rows : List Nat} {src : Nat → Nat → Nat} {abs : Nat → Nat}
    {dst : Nat → MAddr} {width : Nat} (hl : legalEng 0x45 m w = true)
    (hwait : waitPath x k ((k.s.core x.c).engine x.e).free = (y, k')) (hk : k'.AtDrain y (maskAccs m) rows)
    (hrows : (if (k'.mx y).cfg.psm then psmRows k' y (k'.areg y (fld w 9 4)) (fld w 13 8 + 1) else pure []) = .ok rows)
    (hlen : (k'.mx y).cfg.psm = true → rows.length = fld w 13 8 + 1)
    (hd : dst = fun r : Nat => addA (k'.areg y (fld w 0 4)) ((k'.sreg y (fld w 4 5)).toInt * (r : Int)))
    (hwidth : width = fmtBits (k'.mx y).dcfg.fmt / 8) (hwords : (k'.mx y).cfg.psm = true → k'.RowWords y (k'.mx y).cfg rows src)
    (hapart : (k'.mx y).cfg.psm = true → ∀ i < rows.length, ∀ e < (k'.mx y).cfg.n, ∀ i' < rows.length,
      src i e + 32 ≤ abs i' ∨ abs i' + (k'.mx y).cfg.n * width ≤ src i e)
    (hspace : ∀ i < drainCount (k'.mx y).cfg (maskAccs m) rows,
      aSpace (dst (drainItem (k'.mx y).cfg (maskAccs m) rows i).1) = 1 ∨ aSpace (dst (drainItem (k'.mx y).cfg (maskAccs m) rows i).1) = 2)
    (hdst : ∀ i < drainCount (k'.mx y).cfg (maskAccs m) rows,
      k'.Reaches y (dst (drainItem (k'.mx y).cfg (maskAccs m) rows i).1) ((k'.mx y).cfg.n * width) true (abs i)) :
    ∃ k₂ k₃ : Work, k₂.Drains k' y ((k'.mx y).drained y (k'.mx y).cfg (maskAccs m) rows)
        ((List.range (drainCount (k'.mx y).cfg (maskAccs m) rows)).map (y.drains (k'.mx y).cfg.n abs
          (mdrnBytes k' y ((k'.mx y).drained y (k'.mx y).cfg (maskAccs m) rows) (k'.mx y).cfg (k'.mx y).dcfg (maskAccs m) rows src))) ∧
      k₃.Leaves k₂ y ∧ runMdrn m w x k = .ok (finish y k₃) := by
  obtain ⟨cfg, hcfg⟩ : ∃ cfg, (k'.mx y).cfg = cfg := ⟨_, rfl⟩
  rw [hcfg] at hrows hlen hwords hapart hspace hdst ⊢
  subst hwidth
  obtain ⟨k₁, hstart, h₁⟩ := startDrain_ok hk fun x => (if cfg.psm then List.range (fld w 13 8 + 1) else maskAccs m).flatMap fun r =>
    rangeOf x (dst r) (cfg.n * (fmtBits (k'.mx y).dcfg.fmt / 8)) true
  rw [hcfg] at hstart h₁
  have hnums : (if cfg.psm then List.range (fld w 13 8 + 1) else maskAccs m) =
      (List.range (drainCount cfg (maskAccs m) rows)).map fun i => (drainItem cfg (maskAccs m) rows i).1 := by
    cases hp : cfg.psm with
    | false =>
      simp only [drainCount, drainItem, hp, Bool.false_eq_true, if_false]
      apply List.ext_getElem
      · simp
      · intro i h1 h2
        simp [nth_eq_getElem _ _ i h1]
    | true => simp [drainCount, drainItem, hp, hlen hp]
  have hlocal : ((if cfg.psm then List.range (fld w 13 8 + 1) else maskAccs m).all fun r => localAddr y (dst r) [1, 2]) = true := by
    rw [hnums]
    simp only [List.all_eq_true, List.mem_map, List.mem_range]
    rintro r ⟨i, hi, rfl⟩
    exact localAddr_own (hdst i hi).own (by simpa using hspace i hi)
  have hall : needAll k' y ((if cfg.psm then List.range (fld w 13 8 + 1) else maskAccs m).map fun r =>
      (dst r, cfg.n * (fmtBits (k'.mx y).dcfg.fmt / 8))) = .ok () := by
    rw [hnums]
    refine needAll_ok fun p hp => ?_
    simp only [List.map_map, List.mem_map, List.mem_range] at hp
    obtain ⟨i, hi, rfl⟩ := hp
    exact ⟨_, (hdst i hi).place⟩
  obtain ⟨k₂, h₂, hloop⟩ := mdrnItems_ok (d := (k'.mx y).dcfg) hk.quiet h₁ hwords hapart hdst
  rw [← h₁.spoilt hk] at hloop
  obtain ⟨vs, hvs⟩ : ∃ vs, vs = (List.range (drainCount cfg (maskAccs m) rows)).map
    (drainClosed k' y ((k'.mx y).drained y cfg (maskAccs m) rows) cfg (maskAccs m) rows src) := ⟨_, rfl⟩
  rw [← hvs] at hloop
  have hcompares := k₂.leaves_compares y (by rw [h₂.engine]; exact hk.upset) cfg vs
  obtain ⟨k₃, hk₃, hleaves⟩ : ∃ k₃, k₃ = (if bitAt w 21 then (k₂.compares y cfg vs).setA y (fld w 0 4) 1
      (addA (k'.areg y (fld w 0 4)) ((k'.sreg y (fld w 4 5)).toInt * ((if cfg.psm then fld w 13 8 + 1 else 4 : Nat) : Int)))
      else k₂.compares y cfg vs) ∧ k₃.Leaves k₂ y := by
    refine ⟨_, rfl, ?_⟩
    split
    · exact (Work.leaves_setA _ y _ _ _).trans hcompares
    · exact hcompares
  refine ⟨k₂, k₃, h₂, hleaves, ?_⟩
  subst hd
  rw [runMdrn, needEng_ok hl, ok_bind, hwait]
  simp only [hcfg, hrows, ok_bind, need_true hlocal, hall, hstart]
  refine Eq.trans (congrArg (· >>= _) hloop) ?_
  rw [hk₃]
  rfl

end Sys2Proof.Machine
end


section
/-!
PROOFS. MDRNL (R40, R75), and what the issue of a matrix load or drain leaves.
-/
namespace Sys2Proof.Machine

/-- One reduction in the first loop of MDRNL. -/
def mdrnlItem (x : Ctx) (cfg : MCfg) (o : List Closed × Work) (p : (Nat × Option Nat) × Nat) : Except Halt (List Closed × Work) := do
  let (v, k) ← drainValue x o.2 cfg p
  pure (o.1 ++ [v], k)

/-- One row in the second loop of MDRNL. -/
def mdrnlRow (x : Ctx) (cfg : MCfg) (k : Work) (p : (Nat × List (Option Int × Nat)) × Nat) : Except Halt Work := do
  let data := p.1.2.flatMap fun v => longWord (v.1.getD 0) v.2
  k.write x (rowAddr x.c p.1.1 0) data (x.at (9 + cfg.n + p.2))

/-- The bytes of the long values of accumulator number `i` of a mask. -/
def mdrnlBytes (mx : Mxe) (cfg : MCfg) (accs : List Nat) (val : Nat → Nat → Int) (i : Nat) : List Byte :=
  (List.range cfg.n).flatMap fun e => longWord (val i e) (AMap.get Acc.zero mx.acc (accKey e (nth 0 accs i))).terms

theorem longWord_length (n : Int) (terms : Nat) : (longWord n terms).length = 32 := by
  simp [longWord, leBytes_length]

theorem mdrnlBytes_length (mx : Mxe) (cfg : MCfg) (accs : List Nat) (val : Nat → Nat → Int) (i : Nat) :
    (mdrnlBytes mx cfg accs val i).length = 32 * cfg.n := by
  rw [mdrnlBytes, flatMap_length_const _ fun e => longWord_length _ _, List.length_range]

section
variable {k k' : Work} {x : Ctx} {accs rows : List Nat} {cfg : MCfg} {src : Nat → Nat → Nat} {abs : Nat → Nat} {mx : Mxe}

theorem mdrnlItems_ok (hk : k.Quiet x) (h : k'.Drains k x mx []) (hwords : cfg.psm = true → k.RowWords x cfg rows src) :
    ∃ k₂ : Work, k₂.Drains k x mx [] ∧ (drainItems cfg accs rows).zipIdx.foldlM (mdrnlItem x cfg) ([], k') =
      .ok ((List.range (drainCount cfg accs rows)).map (drainClosed k x mx cfg accs rows src), k₂) := by
  have hnone : ∀ i, ([] : List MWrite) ++ (List.range i).flatMap (fun _ => []) = [] := fun i => by simp
  obtain ⟨k₂, h₂, hloop⟩ := Work.foldlM_drains (ws := []) (n := drainCount cfg accs rows) (turn := fun _ => [])
    (f := drainClosed k x mx cfg accs rows src) (step := fun o i => mdrnlItem x cfg o (drainItem cfg accs rows i, i))
    (fun i hi l k₁ h₁ => by
      rw [hnone] at h₁ ⊢
      obtain ⟨k₂, h₂, hvalue⟩ := drainValue_ok hk h₁ hwords hi fun _ _ _ v hv => absurd hv List.not_mem_nil
      refine ⟨k₂, h₂, ?_⟩
      rw [mdrnlItem, hvalue, ok_bind]
      rfl) h
  rw [hnone] at h₂
  refine ⟨k₂, h₂, ?_⟩
  rw [drainItems_zipIdx, List.foldlM_map]
  exact hloop

/-- The long values go to their rows. -/
theorem mdrnlRows_ok (h : k'.Drains k x mx []) {out : List Nat} {val : Nat → Nat → Int} {ns : List (List (Option Int × Nat))}
    (hns : ns = (List.range accs.length).map fun i => (List.range cfg.n).map fun e =>
      (some (val i e), (AMap.get Acc.zero mx.acc (accKey e (nth 0 accs i))).terms)) (hlen : out.length = accs.length)
    (hdst : ∀ i < accs.length, k.Reaches x (rowAddr x.c (nth 0 out i) 0) (32 * cfg.n) true (abs i)) :
    ∃ k₂ : Work, k₂.Drains k x mx ((List.range accs.length).map (x.drains cfg.n abs (mdrnlBytes mx cfg accs val))) ∧
      (List.zip out ns).zipIdx.foldlM (mdrnlRow x cfg) k' = .ok k₂ := by
  have hdata : ∀ i < accs.length, ((nth [] ns i).flatMap fun v => longWord (v.1.getD 0) v.2) = mdrnlBytes mx cfg accs val i := by
    intro i hi
    rw [nth_eq_getElem _ _ _ (by simp [hns, hi])]
    simp only [hns, List.getElem_map, List.getElem_range, List.flatMap_map]
    rfl
  obtain ⟨k₂, h₂, hloop⟩ := foldlM_range (n := accs.length) (a := k')
    (step := fun k i => mdrnlRow x cfg k ((nth 0 out i, nth [] ns i), i))
    (fun i k₁ => Work.Drains k₁ k x mx ((List.range i).map (x.drains cfg.n abs (mdrnlBytes mx cfg accs val))))
    (fun i hi k₁ h₁ => by
      obtain ⟨k₂, h₂, hwrite⟩ := h₁.write (hdst i hi) (mdrnlBytes_length mx cfg accs val i) (x.at (9 + cfg.n + i))
      refine ⟨k₂, by rw [List.range_succ, List.map_append]; exact h₂, ?_⟩
      rw [mdrnlRow, hdata i hi, hwrite]) h
  refine ⟨k₂, h₂, ?_⟩
  rw [zip_zipIdx_eq 0 [] out ns (by simp [hns, hlen]), List.foldlM_map, hlen]
  exact hloop

end

section
variable {x y : Ctx} {k k' : Work} {m : Byte} {w : BitVec 48} (hl : legalEng 0x46 m w = true)
  (hwait : waitPath x k ((k.s.core x.c).engine x.e).free = (y, k'))
include hl hwait

/-- In PSM mode MDRNL only closes and checks its rows (R75). -/
theorem runMdrnl_rows {rows : List Nat} {src : Nat → Nat → Nat} (hpsm : (k'.mx y).cfg.psm = true)
    (hk : k'.AtDrain y (maskAccs m) rows)
    (hrows : psmRows k' y (k'.areg y (fld w 20 4)) (fld w 24 8 + 1) = .ok rows) (hwords : k'.RowWords y (k'.mx y).cfg rows src) :
    ∃ k₂ k₃ : Work, k₂.Drains k' y ((k'.mx y).drained y (k'.mx y).cfg (maskAccs m) rows) [] ∧ k₃.Leaves k₂ y ∧
      runMdrnl m w x k = .ok (finish y k₃) := by
  obtain ⟨k₁, hstart, h₁⟩ := startDrain_ok hk fun _ => rowRanges [] (k'.mx y).cfg.n true
  obtain ⟨k₂, h₂, hloop⟩ := mdrnlItems_ok (accs := maskAccs m) hk.quiet h₁ fun _ => hwords
  refine ⟨k₂, _, h₂, k₂.leaves_compares y (by rw [h₂.engine]; exact hk.upset) (k'.mx y).cfg
    ((List.range (drainCount (k'.mx y).cfg (maskAccs m) rows)).map
      (drainClosed k' y ((k'.mx y).drained y (k'.mx y).cfg (maskAccs m) rows) (k'.mx y).cfg (maskAccs m) rows src)), ?_⟩
  rw [runMdrnl, needEng_ok hl, ok_bind, hwait]
  simp only [hpsm, if_true, hrows, ok_bind, pure_bind, hstart]
  refine Eq.trans (congrArg (· >>= _) hloop) ?_
  rw [ok_bind]
  simp only [h₂.spoilt hk, Bool.false_eq_true, if_false]
  rfl

/-- Otherwise it writes the long values of the accumulators of its mask (R40). -/
theorem runMdrnl_accs {out : List Nat} {abs : Nat → Nat} {val : Nat → Nat → Int} (hpsm : (k'.mx y).cfg.psm = false)
    (hk : k'.AtDrain y (maskAccs m) [])
    (hout : psmRows k' y (k'.areg y (fld w 0 4)) (maskAccs m).length = .ok out) (hlen : out.length = (maskAccs m).length)
    (hval : ∀ i < (maskAccs m).length, ∀ e < (k'.mx y).cfg.n,
      longOf (k'.mx y).cfg.lsum (anchorOf k' y (bitAt w 14) (fld w 4 10) (fld w 15 5))
        (AMap.get Acc.zero (k'.mx y).acc (accKey e (nth 0 (maskAccs m) i))) = some (val i e))
    (hdst : ∀ i < (maskAccs m).length, k'.Reaches y (rowAddr y.c (nth 0 out i) 0) (32 * (k'.mx y).cfg.n) true (abs i)) :
    ∃ k₂ k₃ : Work, k₂.Drains k' y ((k'.mx y).drained y (k'.mx y).cfg (maskAccs m) [])
        ((List.range (maskAccs m).length).map (y.drains (k'.mx y).cfg.n abs (mdrnlBytes (k'.mx y) (k'.mx y).cfg (maskAccs m) val))) ∧
      k₃.Leaves k₂ y ∧ runMdrnl m w x k = .ok (finish y k₃) := by
  obtain ⟨k₁, hstart, h₁⟩ := startDrain_ok hk fun _ => rowRanges out (k'.mx y).cfg.n true
  have hcount : drainCount (k'.mx y).cfg (maskAccs m) [] = (maskAccs m).length := by simp [drainCount, hpsm]
  obtain ⟨k₂, h₂, hloop⟩ := mdrnlItems_ok (accs := maskAccs m) (src := fun _ _ => 0) hk.quiet h₁
    fun hp => absurd (hp.symm.trans hpsm) (by decide)
  obtain ⟨vs, hvs⟩ : ∃ vs, vs = (List.range (drainCount (k'.mx y).cfg (maskAccs m) [])).map
    (drainClosed k' y ((k'.mx y).drained y (k'.mx y).cfg (maskAccs m) []) (k'.mx y).cfg (maskAccs m) [] fun _ _ => 0) := ⟨_, rfl⟩
  rw [← hvs] at hloop
  obtain ⟨ns, hns⟩ : ∃ ns, ns = vs.map fun v => v.accs.map fun a =>
    (longOf (k'.mx y).cfg.lsum (anchorOf k' y (bitAt w 14) (fld w 4 10) (fld w 15 5)) a, a.terms) := ⟨_, rfl⟩
  have hns' : ns = (List.range (maskAccs m).length).map fun i => (List.range (k'.mx y).cfg.n).map fun e =>
      (some (val i e), (AMap.get Acc.zero (k'.mx y).acc (accKey e (nth 0 (maskAccs m) i))).terms) := by
    rw [hns, hvs, hcount, List.map_map]
    refine List.map_congr_left fun i hi => ?_
    have hacc : ∀ e, drainAcc k' y ((k'.mx y).drained y (k'.mx y).cfg (maskAccs m) []) (k'.mx y).cfg (maskAccs m) (fun _ _ => 0) i e =
        AMap.get Acc.zero (k'.mx y).acc (accKey e (nth 0 (maskAccs m) i)) := by
      intro e
      simp [drainAcc, hpsm, Mxe.acc_drained]
    simp only [Function.comp_apply, drainClosed, List.map_map]
    refine List.map_congr_left fun e he => ?_
    simp only [Function.comp_apply, hacc]
    rw [hval i (List.mem_range.1 hi) e (List.mem_range.1 he)]
  have hany : (ns.any fun l => l.any fun v => v.1.isNone) = false := by
    rw [hns']
    simp
  obtain ⟨k₃, h₃, hrows⟩ := mdrnlRows_ok (val := val) (ns := ns) h₂ (by rw [hns', Mxe.acc_drained]) hlen hdst
  refine ⟨k₃, _, ?_, k₃.leaves_compares y (by rw [h₃.engine]; exact hk.upset) (k'.mx y).cfg vs, ?_⟩
  · have hbytes : mdrnlBytes ((k'.mx y).drained y (k'.mx y).cfg (maskAccs m) []) (k'.mx y).cfg (maskAccs m) val =
        mdrnlBytes (k'.mx y) (k'.mx y).cfg (maskAccs m) val := by
      funext i
      rw [mdrnlBytes, Mxe.acc_drained]
      rfl
    rw [hbytes] at h₃
    exact h₃
  · rw [runMdrnl, needEng_ok hl, ok_bind, hwait]
    simp only [hpsm, Bool.false_eq_true, if_false, pure_bind, hout, ok_bind, hstart]
    refine Eq.trans (congrArg (· >>= _) hloop) ?_
    rw [ok_bind]
    simp only [h₂.spoilt hk, Bool.false_eq_true, if_false]
    rw [← hns]
    simp only [hany, Bool.false_eq_true, if_false]
    refine Eq.trans (congrArg (· >>= _) hrows) ?_
    rfl

end

end Sys2Proof.Machine
end


section
/-!
PROOFS. MLDL, MDRN and MDRNL issue (R42, R75, R76).
-/
namespace Sys2Proof.Machine

section
variable {s : State} {c : CoreId} {j : Job}

theorem Plain.reaches_path {a : MAddr} {n abs : Nat} {write : Bool} (h : Plain s c .mxe j a n write abs) (hcl : NoClaims s c)
    {k : Work} (hs : k.s = s) (t col : Nat) : k.Reaches (s.pathAt c j t col) a n write abs := by
  subst hs
  exact ⟨h.own, h.place, h.bobbin, hcl⟩

theorem PsmRows.length {a : MAddr} {n : Nat} {rows : List Nat} (h : PsmRows s c j a n rows) : rows.length = n := by
  rw [h.list, List.length_map, List.length_range]

theorem PsmRows.nth {a : MAddr} {n : Nat} {rows : List Nat} (h : PsmRows s c j a n rows) {i : Nat} (hi : i < n) :
    nth 0 rows i = (aOff a / 1024 + i) % 512 := by
  have hlen := h.length
  rw [nth_eq_getElem _ _ _ (by omega)]
  simp [h.list]

theorem mem_drained_accOpen {mx : Mxe} {x : Ctx} {cfg : MCfg} {accs rows : List Nat} (hpsm : cfg.psm = false) (a : Nat) :
    a ∈ (mx.drained x cfg accs rows).accOpen ↔ a ∈ mx.accOpen ∧ a ∉ accs := by
  simp [Mxe.drained, hpsm]

theorem mem_drained_rowOpen {mx : Mxe} {x : Ctx} {cfg : MCfg} {accs rows : List Nat} (hpsm : cfg.psm = true) (r : Nat) :
    r ∈ (mx.drained x cfg accs rows).rowOpen ↔ r ∈ mx.rowOpen ∧ r ∉ rows := by
  simp [Mxe.drained, hpsm]

/-- The pieces that a drain writes one per reduction are in memory in the cycle after they land, if they lie apart. -/
theorem Drained.readAt_drains {t : State} {n : Nat} {mx : Mxe} {x : Ctx} {d N len : Nat} {abs : Nat → Nat}
    {data : Nat → List Byte} (h : Drained s t c j n mx ((List.range N).map (x.drains d abs data))) (hlen : ∀ i, (data i).length = len)
    (hapart : ∀ i < N, ∀ i' < N, i ≠ i' → abs i + len ≤ abs i' ∨ abs i' + len ≤ abs i) {i : Nat} (hi : i < N) :
    t.readAt c.val (x.at (9 + d + i) + 1) (abs i) len = data i := by
  have hmem : ∀ i < N, x.drains d abs data i ∈ (List.range N).map (x.drains d abs data) :=
    fun i hi => List.mem_map_of_mem (List.mem_range.2 hi)
  have key := h.readAt _ (hmem i hi) fun v hv => by
    obtain ⟨i', hi', rfl⟩ := List.mem_map.1 hv
    by_cases heq : i' = i
    · exact .inl (by rw [heq])
    · refine .inr ?_
      have := hapart i' (List.mem_range.1 hi') i hi heq
      unfold MWrite.Apart
      simpa only [Ctx.drains, hlen] using this
  simpa only [Ctx.drains, hlen] using key

theorem MCfg.n_le (cfg : MCfg) : cfg.n ≤ 32 := by
  unfold MCfg.n
  split <;> decide

/-- A PSM row's first word lies at the row's offset. -/
theorem aOff_rowAddr (c : CoreId) {row : Nat} (h : row < 512) : aOff (rowAddr c.val row 0) = 1024 * row := by
  have hc := c.isLt
  simp only [rowAddr, absAddr, aOff, fld, BitVec.toNat_ofNat, Nat.shiftRight_eq_div_pow]
  omega

theorem aSpace_rowAddr (c : CoreId) {row : Nat} (h : row < 512) : aSpace (rowAddr c.val row 0) = 2 := by
  have hc := c.isLt
  simp only [rowAddr, absAddr, aSpace, fld, BitVec.toNat_ofNat, Nat.shiftRight_eq_div_pow]
  omega

/-- The rows that MDRNL writes lie apart. -/
theorem rows_apart {a : MAddr} {n : Nat} {out : List Nat} (h : PsmRows s c j a n out) (hn : n ≤ 4) {cfg : MCfg} {abs : Nat → Nat}
    (hp : ∀ i < n, s.resolve j.fn (rowAddr c.val (nth 0 out i) 0) (32 * cfg.n) = .ok (c.val, abs i)) :
    ∀ i < n, ∀ i' < n, i ≠ i' → abs i + 32 * cfg.n ≤ abs i' ∨ abs i' + 32 * cfg.n ≤ abs i := by
  have habs : ∀ i < n, abs i = absAddr 2 (aCore (rowAddr c.val (nth 0 out i) 0)) ((s.regionOf j.fn 2).1 + 1024 * ((aOff a / 1024 + i) % 512)) ∧
      c.val = aCore (rowAddr c.val (nth 0 out i) 0) := by
    intro i hi
    obtain ⟨hcore, -, -, hplace⟩ := resolve_ok (hp i hi)
    have hrow : nth 0 out i < 512 := by
      rw [h.nth hi]
      exact Nat.mod_lt _ (by decide)
    rw [aSpace_rowAddr c hrow, aOff_rowAddr c hrow, h.nth hi] at hplace
    rw [h.nth hi] at hcore ⊢
    exact ⟨hplace, hcore⟩
  intro i hi i' hi' hne
  obtain ⟨h1, hc1⟩ := habs i hi
  obtain ⟨h2, hc2⟩ := habs i' hi'
  rw [h1, h2, ← hc1, ← hc2]
  have hcfg := cfg.n_le
  have hoff : aOff a / 1024 % 512 < 512 := Nat.mod_lt _ (by decide)
  unfold absAddr
  omega

end

/-- Settles O15: the equation of each way in which one of the instructions ends, and what its issue leaves of the matrix engine and
of memory. -/
theorem matrixLoadAndDrain : Obligations.MatrixLoadAndDrain := by
  intro s c j m w h hcl hw hv hbobs x mx cfg d n y accs q width dst rounded
  have hpath : ∃ col k, waitPath x (s.work x.t) (s.engine c.val .mxe).free = (s.pathAt c j n col, k) ∧
      k.s = s ∧ k.recs = [] ∧ k.late = [] := by
    obtain ⟨col, hcol⟩ := waitPath_waits (j := j) hv (s.engine c.val .mxe).free
    exact ⟨col, _, hcol, Work.s_ev .., Work.recs_ev .., Work.late_ev ..⟩
  obtain ⟨col, k, hwait, hs, hr, hlate⟩ := hpath
  have hk : k.SameState (s.work 0) := ⟨hs, hr, hlate⟩
  have hup : (k.s.engine (s.pathAt c j n col).c (s.pathAt c j n col).e).upset = none := by rw [hs]; exact h.upset
  have hquiet : k.Quiet (s.pathAt c j n col) := ⟨by rw [hs]; exact hcl, by rw [hs]; exact hw c.val⟩
  have hfree : k.Ungated (s.pathAt c j n col) := ⟨rfl, by rw [hs]; exact hbobs⟩
  have hmx : k.mx (s.pathAt c j n col) = mx := by rw [Work.mx, hs]; rfl
  have hareg : ∀ i, k.areg (s.pathAt c j n col) i = s.areg c.val .mxe i n := fun i => by rw [Work.areg, hs]; rfl
  have hsreg : ∀ i, k.sreg (s.pathAt c j n col) i = s.sreg c.val .mxe i n := fun i => by rw [Work.sreg, hs]; rfl
  have hq : anchorOf k (s.pathAt c j n col) (bitAt w 14) (fld w 4 10) (fld w 15 5) = q := by rw [anchorOf, hsreg]
  have hdst : dst = fun r : Nat => addA (k.areg (s.pathAt c j n col) (fld w 0 4))
      ((k.sreg (s.pathAt c j n col) (fld w 4 5)).toInt * (r : Int)) := by rw [hareg, hsreg]
  have hatDrain : ∀ rows, (if mx.cfg.psm then rows.all fun r => mx.rowOpen.contains r
      else (maskAccs m).all fun a => mx.accOpen.contains a) = true → k.AtDrain (s.pathAt c j n col) (maskAccs m) rows :=
    fun rows hopen => ⟨hup, hquiet, hfree, hr, hlate, by rw [hs]; exact h.faults, by rw [hmx]; exact hopen⟩
  have hsound : ∀ {a : MAddr} {len abs : Nat} {write : Bool}, Plain s c .mxe j a len write abs →
      eccWorst k.s.ecc (eccWord (aSpace a)) abs len = none := fun hp => by rw [hs]; exact hp.sound
  refine ⟨fun rows abs hl hpsm hrows hp => ?mldl, fun abs hl hpsm hopen hp hapart => ?mdrn,
    fun rows src abs hl hpsm hrows hopen hsrc hp hapart hclear => ?mdrnRows, fun out abs val hl hpsm hout hopen hval hp => ?mdrnl,
    fun rows hl hpsm hrows hopen hp => ?mdrnlRows⟩
  case mldl =>
    obtain ⟨k₂, k₃, mx₂, h₂, hleaves, hload, hb⟩ := runMldl_ok (abs := abs) hl hwait hup (by rw [hmx]; exact hpsm) hquiet hfree
      (by rw [hareg]; exact hrows.psmRows_ok rfl rfl hs) hrows.length
      (by rw [hmx]; exact fun i hi e he => (hp i hi e he).reaches_path hcl hs _ _)
      (by rw [hmx]; exact fun i hi e he => hsound (hp i hi e he))
    have hd := runInstr_drained (op := 0x44) h hk h₂ hleaves hb
    rw [hmx, hq] at hload
    refine ⟨_, rfl, hd.follow, fun a => ?_, fun i hi e he => ?_⟩
    · rw [hd.mx, hload.accOpen, ← mem_iff_nth]
      rfl
    · intro a
      have ha : a = mldlValue k (s.pathAt c j n col) cfg q i e (abs i e) := by
        refine Eq.trans ?_ (hload.acc i hi e he)
        rw [← hd.mx]
        rfl
      rw [ha, mldlValue, hs]
      exact ⟨rfl, rfl, rfl, rfl⟩
  case mdrn =>
    have hpsm' : mx.cfg.psm = false := hpsm
    have hcount : drainCount mx.cfg (maskAccs m) [] = accs.length := by simp [drainCount, hpsm', accs, maskAccs]
    have hitem : ∀ i, (drainItem mx.cfg (maskAccs m) [] i).1 = nth 0 accs i := fun i => by simp [drainItem, hpsm', accs, maskAccs]
    have hno : cfg.psm = true → False := fun hp => absurd (hp.symm.trans hpsm) (by decide)
    obtain ⟨k₂, k₃, h₂, hleaves, hb⟩ := runMdrn_ok (rows := []) (src := fun _ _ => 0) (abs := fun i => abs (nth 0 accs i))
      (width := width) hl hwait (hatDrain [] (by rw [hpsm]; simpa [maskAccs] using hopen)) (by rw [hmx, hpsm]; rfl)
      (by rw [hmx]; exact fun hp => (hno hp).elim) hdst (by rw [hmx]) (by rw [hmx]; exact fun hp => (hno hp).elim)
      (by rw [hmx]; exact fun hp => (hno hp).elim)
      (by
        rw [hmx]
        intro i hi
        rw [hcount] at hi
        rw [hitem]
        exact (hp _ (nth_mem 0 hi)).1)
      (by
        rw [hmx]
        intro i hi
        rw [hcount] at hi
        rw [hitem]
        exact (hp _ (nth_mem 0 hi)).2.reaches_path hcl hs _ _)
    have hd := runInstr_drained (op := 0x45) h hk h₂ hleaves hb
    rw [hmx] at hd
    rw [hcount] at hd
    refine ⟨_, rfl, hd.follow, fun a => by rw [hd.mx]; exact mem_drained_accOpen hpsm a, fun i hi => ?_⟩
    refine (hd.readAt_drains (fun i => mdrnBytes_length ..) (fun i hi i' hi' hne =>
      hapart _ (nth_mem 0 hi) _ (nth_mem 0 hi') fun heq => hne (maskAccs_nth_inj hi hi' heq)) hi).trans ?_
    rw [mdrnBytes]
    have hacc : ∀ e, drainAcc k (s.pathAt c j n col) (mx.drained (s.pathAt c j n col) mx.cfg (maskAccs m) []) mx.cfg (maskAccs m)
        (fun _ _ => 0) i e = AMap.get Acc.zero mx.acc (accKey e (nth 0 accs i)) := by
      intro e
      simp [drainAcc, hpsm', Mxe.acc_drained, accs, maskAccs]
    simp only [hacc]
    rw [hitem]
    rfl
  case mdrnRows =>
    have hpsm' : mx.cfg.psm = true := hpsm
    have hcount : drainCount mx.cfg (maskAccs m) rows = rows.length := by simp [drainCount, hpsm']
    have hitem : ∀ i, (drainItem mx.cfg (maskAccs m) rows i).1 = i := fun i => by simp [drainItem, hpsm']
    obtain ⟨k₂, k₃, h₂, hleaves, hb⟩ := runMdrn_ok (rows := rows) (src := src) (abs := abs)
      (width := width) hl hwait (hatDrain rows (by rw [hpsm]; simpa using hopen))
      (by rw [hmx, hareg]; refine (if_pos hpsm).trans ?_; exact hrows.psmRows_ok rfl rfl hs)
      (fun _ => hrows.length) hdst (by rw [hmx])
      (by rw [hmx]; exact fun _ => ⟨fun i hi e he => (hsrc i hi e he).reaches_path hcl hs _ _, fun i hi e he => hsound (hsrc i hi e he)⟩)
      (by rw [hmx]; exact fun _ => hclear)
      (by
        rw [hmx]
        intro i hi
        rw [hcount] at hi
        rw [hitem]
        exact (hp i hi).1)
      (by
        rw [hmx]
        intro i hi
        rw [hcount] at hi
        rw [hitem]
        exact (hp i hi).2.reaches_path hcl hs _ _)
    have hd := runInstr_drained (op := 0x45) h hk h₂ hleaves hb
    rw [hmx] at hd
    rw [hcount] at hd
    refine ⟨_, rfl, hd.follow, fun r => by rw [hd.mx]; exact mem_drained_rowOpen hpsm r, fun i hi => ?_⟩
    refine (hd.readAt_drains (fun i => mdrnBytes_length ..) hapart hi).trans ?_
    rw [mdrnBytes]
    have hacc : ∀ e, drainAcc k (s.pathAt c j n col) (mx.drained (s.pathAt c j n col) mx.cfg (maskAccs m) rows) mx.cfg (maskAccs m)
        src i e = { Acc.zero with num := sext 192 (leNat ((s.readAt c.val (y.at (3 + e + i)) (src i e) 32).take 24)), exp := cfg.q } := by
      intro e
      rw [drainAcc, hs]
      exact if_pos hpsm
    simp only [hacc]
    rw [hitem]
    rfl
  case mdrnl =>
    obtain ⟨k₂, k₃, h₂, hleaves, hb⟩ := runMdrnl_accs (abs := abs) (val := val) hl hwait (by rw [hmx]; exact hpsm)
      (hatDrain [] (by rw [hpsm]; simpa [maskAccs] using hopen)) (by rw [hareg]; exact hout.psmRows_ok rfl rfl hs) hout.length
      (by rw [hmx, hq]; exact hval) (by rw [hmx]; exact fun i hi => (hp i hi).reaches_path hcl hs _ _)
    have hd := runInstr_drained (op := 0x46) h hk h₂ hleaves hb
    rw [hmx] at hd
    have hfour : accs.length ≤ 4 := (List.length_filter_le _ _).trans (List.length_range).le
    refine ⟨_, rfl, hd.follow, fun a => by rw [hd.mx]; exact mem_drained_accOpen hpsm a, fun i hi => ?_⟩
    exact (hd.readAt_drains (fun i => mdrnlBytes_length ..) (rows_apart hout hfour fun i hi => (hp i hi).place) hi).trans rfl
  case mdrnlRows =>
    choose src hsrc using hp
    have hplain : ∀ i < rows.length, ∀ e < cfg.n, ∃ p, Plain s c .mxe j (rowAddr c.val (nth 0 rows i) e) 32 false p :=
      fun i hi e he => ⟨_, hsrc (nth 0 rows i) (nth_mem 0 hi) e he⟩
    choose! abs habs using hplain
    obtain ⟨k₂, k₃, h₂, hleaves, hb⟩ := runMdrnl_rows (src := abs) hl hwait (by rw [hmx]; exact hpsm)
      (hatDrain rows (by rw [hpsm]; simpa using hopen)) (by rw [hareg]; exact hrows.psmRows_ok rfl rfl hs)
      (by rw [hmx]; exact ⟨fun i hi e he => (habs i hi e he).reaches_path hcl hs _ _, fun i hi e he => hsound (habs i hi e he)⟩)
    have hd := runInstr_drained (op := 0x46) h hk h₂ hleaves hb
    rw [hmx] at hd
    exact ⟨_, rfl, hd.follow, fun r => by rw [hd.mx]; exact mem_drained_rowOpen hpsm r⟩

end Sys2Proof.Machine
end


section
/-!
PROOFS. TNBR in a frame whose waits go beyond the guard (R104, R173, R186): two pairs of rows that land in one cycle of the
neighbour, of which the second does not take place.
-/
namespace Sys2Proof.Machine

/-- A move engine's queue shortly before the end of a frame in which it has waited for 66 cycles, with the first byte of
activation memory in A0. -/
def crowdedQueue : Engine :=
  { Engine.reset with mode := .running, next := 3194, waited := [(0, 66)],
                      aregs := [(0, { base := BitVec.ofNat 48 (absAddr 1 0 0), pend := [] })] }

/-- The third row of core 0's activation memory begins with a one. -/
def crowdedState : State :=
  { State.reset with
    scheduled := true
    mem := runCells (absAddr 1 0 512) [1]
    cores := [(0, { Core.reset with txeQ := crowdedQueue, job := some lateJob })] }

/-- TNBR of four rows from A0 to the same offset at the eastern neighbour. -/
def crowdedTnbr : BitVec 48 := BitVec.ofNat 48 (3 * 2 ^ 8 + 2 ^ 18)

theorem crowdedState_ready : Ready crowdedState 0 .txe lateJob :=
  ⟨by decide, by decide, by decide, by decide, by decide, by decide, by decide, fun _ hv => absurd hv List.not_mem_nil⟩

theorem crowdedState_core (b : Nat) (h : b ≠ 0) : crowdedState.core b = Core.reset := by
  simp [State.core, crowdedState, AMap.get, h.symm]

theorem crowdedState_serving (r : Nat) : crowdedState.serving r = true := by
  by_cases h : r = 0
  · subst h
    decide
  · rw [State.serving, crowdedState_core r h]
    decide

theorem crowdedState_noWrites : NoWrites crowdedState := by
  intro b
  by_cases h : b = 0
  · subst h
    rfl
  · rw [crowdedState_core b h]
    rfl

theorem crowdedState_plain {a : MAddr} {n abs : Nat} (h1 : aCore a = 0) (h2 : crowdedState.resolve 0 a n = .ok (0, abs)) :
    Plain crowdedState 0 .txe lateJob a n false abs :=
  ⟨h1, h2, rfl, fun b hb => absurd hb (by rw [show crowdedState.bobs lateJob = [] by decide +kernel]; exact List.not_mem_nil)⟩

/-- The second pair has not reached the neighbour's memory. -/
theorem crowdedState_tnbr : ∀ t, exec (.tnbr 0 0 crowdedTnbr) crowdedState = .next t →
    (t.readAt 1 ((crowdedState.head 0 .txe lateJob).at 8 + 1) (absAddr 1 1 512) 512).head? = some 0 := by
  intro t ht
  obtain rfl := Host.Outcome.next.inj ht
  decide +kernel

/-- Refutes O18: TNBR of two pairs of rows from cycle 3194 of a frame on, in which the engine has waited for 66 cycles; the sixth
and the eighth work cycle after it are both cycle 3200, and the second pair meets the first at the neighbour's port. -/
theorem not_meshMoves : ¬ Obligations.MeshMoves := by
  intro h
  have hrow : ∀ i < 4, aCore (plus (BitVec.ofNat 48 (absAddr 1 0 0)) (256 * i)) = 0 ∧
      crowdedState.resolve 0 (plus (BitVec.ofNat 48 (absAddr 1 0 0)) (256 * i)) 256 = .ok (0, absAddr 1 0 (256 * i)) := by
    decide +kernel
  have hpair : ∀ i < 2, (aCore (plus (BitVec.ofNat 48 (absAddr 1 0 0)) (512 * i)) = 0 ∧
      crowdedState.resolve 0 (plus (BitVec.ofNat 48 (absAddr 1 0 0)) (512 * i)) 512 = .ok (0, absAddr 1 0 (256 * (2 * i)))) ∧
      crowdedState.resolve 0 (BitVec.ofNat 48 (absAddr 1 1 (aOff (crowdedState.areg 0 .txe (fld crowdedTnbr 4 4) 3194) + 512 * i))) 512 = .ok (1, absAddr 1 1 (512 * i)) := by
    decide +kernel
  obtain ⟨t, ht, -, hread⟩ := (h crowdedState 0 lateJob 0 crowdedTnbr (fun i => absAddr 1 0 (256 * i)) crowdedState_ready rfl
    crowdedState_noWrites rfl (by decide +kernel) rfl crowdedState_serving rfl rfl rfl (by decide) (by decide)
    ⟨_, crowdedState_plain (by decide +kernel) (abs := absAddr 1 0 0) (by decide +kernel)⟩
    (fun i hi => crowdedState_plain (hrow i hi).1 (hrow i hi).2)).1 (by decide) (by decide) (by decide) (by decide) (by decide)
    (by decide) (by decide) 1 (by decide) rfl (fun k hk => nomatch (congrArg Core.job (crowdedState_core 1 (by decide))).symm.trans hk) (fun i => absAddr 1 1 (512 * i))
    ⟨(1, absAddr 1 1 0), by decide +kernel⟩
    (fun i hi => ⟨crowdedState_plain (hpair i hi).1.1 (hpair i hi).1.2, (hpair i hi).2⟩)
  have hbyte := (crowdedState_tnbr t ht).symm.trans (congrArg List.head? (hread 1 (by decide)))
  exact absurd hbyte (by decide +kernel)

end Sys2Proof.Machine
end


section
/-!
PROOFS. FSEND of a core whose job names no pass of the module (R229, R256): the flits of the entry are numbered from the current
frame while the engine launches them and from frame 0 once it is armed, and flits 100 slot groups apart meet.
-/
namespace Sys2Proof.Machine

/-- A header for a skein of one. -/
def bareHeader : ExeHeader :=
  { magic := 0, formatMajor := 1, formatMinor := 0, caps := 0, libAbi := 0, latVersion := 1, libManifest := 0,
    weightManifest := 0, gridW := 1, gridH := 1, skeinSize := 1, pcMin := 10, pcMax := 20, flags := 0, retries := 1, grace := 0,
    stall := 0, passLimit := 1000, kernels := 1, coresMin := 1, coresMax := 1, reserved := 0 }

/-- A send entry of one flit in each of 101 slot groups. -/
def longEntry : WarpEntry :=
  { vcore := 0, kind := 1, port := 0, peer := 0, frame := 1, firstSg := 0, firstPos := 0, flits := 101, perSg := 1, counter := 0xFF,
    latClass := 0, reserved := false, reduction := none }

/-- An executable of warp entries alone. -/
def bareExe (l : List WarpEntry) : Exe :=
  { file := [], header := bareHeader, sections := [], kernels := [], members := [], streams := [], images := [], bobbins := [],
    warps := l, colls := [], reds := [], barriers := [], outputs := [], inputs := [], persistent := [], retained := [],
    adjacency := [], tensors := [], blockUse := [], slotMapHash := 0 }

def longLoad : Loaded :=
  { exe := bareExe [longEntry], vmodule := 0, place := [(0, 0)], routes := [], stall := 65536, grace := 64, passLimit := 1000 }

/-- Frame 1, with no pass. -/
def longState : State :=
  { State.reset with
    scheduled := true
    clk := { State.reset.clk with frame := 1 }
    fns := [(0, { Func.reset0 with exe := some longLoad })]
    cores := [(0, { Core.reset with fxeQ := { Engine.reset with mode := .running }, job := some lateJob })] }

theorem longState_ready : Ready longState 0 .fxe lateJob :=
  ⟨by decide, by decide, by decide, by decide, by decide, by decide, by decide, fun _ hv => absurd hv List.not_mem_nil⟩

theorem longState_serving (r : Nat) : longState.serving r = true := by
  by_cases h : r = 0
  · subst h
    decide
  · have hcore : longState.core r = Core.reset := by simp [State.core, longState, AMap.get, Ne.symm h]
    rw [State.serving, hcore]
    decide

/-- The entry is armed with lost flits. -/
theorem longState_fsend : ∀ t, exec (.fsend 0 0 0) longState = .next t →
    ((t.core 0).armed.any fun a => a.lost.isEmpty) = false := by
  intro t ht
  obtain rfl := Host.Outcome.next.inj ht
  decide +kernel

/-- Refutes O20: in frame 1 the first flit of the entry meets the last of the same entry, and the entry is armed without it. -/
theorem not_warpEntries : ¬ Obligations.WarpEntries := by
  intro h
  obtain ⟨t, ht, -, harmed⟩ := ((h longState 0 lateJob 0 0 longLoad longState_ready rfl).1 (by decide) longEntry rfl).1 rfl rfl
    (by decide +kernel) longState_serving rfl
  have hlost := longState_fsend t ht
  rw [show (t.core 0).armed = _ from harmed] at hlost
  exact absurd hlost (by decide +kernel)

end Sys2Proof.Machine
end


section
/-!
PROOFS. A weft operation starts (R106, R235, R266): its flits wait in order behind those of earlier instructions, and enter the
injection queue as far as it has room for them and tags are free.
-/
namespace Sys2Proof.Machine

theorem bind_eq_ok {ε α β : Type} {a : Except ε α} {f : α → Except ε β} {b : β} (h : (a >>= f) = .ok b) :
    ∃ v, a = .ok v ∧ f v = .ok b := by
  cases a with
  | ok v => exact ⟨v, rfl, h⟩
  | error e => exact nomatch h

/-! ### The injection queue -/

/-- A flit as it enters the injection queue: with a tag of its own, if any (R266). -/
def OutFlit.Tagged (o o' : OutFlit) : Prop := ∃ tag, o' = { o with flit := { o.flit with tag := tag } }

theorem OutFlit.tagged_self (o : OutFlit) : o.Tagged o := ⟨o.flit.tag, rfl⟩

/-- What entering the injection queue may change: the two lists of the core, which together hold the same flits but for their
tags, and the transactions. -/
structure Entered (s t : State) (c : Nat) : Prop where
  rest : t = { s with cores := t.cores, txns := t.txns }
  core : t.core c = { s.core c with staged := (t.core c).staged, injq := (t.core c).injq, room := (t.core c).room }
  others : ∀ b, b ≠ c → t.core b = s.core b
  flits : ∃ l, (t.core c).injq ++ (t.core c).staged = (s.core c).injq ++ l ∧ List.Forall₂ OutFlit.Tagged (s.core c).staged l
  least : (s.core c).injq.length ≤ (t.core c).injq.length
  most : (t.core c).injq.length ≤ max 16 (s.core c).injq.length

theorem Entered.refl (s : State) (c : Nat) : Entered s s c :=
  ⟨rfl, rfl, fun _ _ => rfl, ⟨_, rfl, List.forall₂_same.2 fun o _ => o.tagged_self⟩, le_rfl, le_max_right _ _⟩

/-- One flit enters the queue, with or without a transaction. -/
theorem entered_step (s : State) (c : Nat) {o o' : OutFlit} {rest : List OutFlit} (hs : (s.core c).staged = o :: rest)
    (ho : o.Tagged o') (hroom : (s.core c).injq.length < 16) (txns : AMap (Option Txn)) (n : Nat) {u t : State}
    (hu : u = { s.updCore c fun k => { k with staged := rest, injq := k.injq ++ [o'], room := max k.room n } with txns := txns })
    (h : Entered u t c) : Entered s t c ∧ (s.core c).injq.length < (t.core c).injq.length := by
  have hcore : u.core c = { s.core c with staged := rest, injq := (s.core c).injq ++ [o'], room := max (s.core c).room n } := by
    rw [hu]
    exact State.core_updCore_same s c fun k => { k with staged := rest, injq := k.injq ++ [o'], room := max k.room n }
  obtain ⟨hrest, hc, hothers, ⟨l, hl, hl'⟩, hleast, hmost⟩ := h
  rw [hcore] at hc hl hl' hleast hmost
  simp only [List.length_append, List.length_singleton] at hleast hmost
  refine ⟨⟨?_, ?_, fun b hb => ?_, ⟨o' :: l, by simpa using hl, ?_⟩, by omega, by omega⟩, by omega⟩
  · rw [hrest, hu]
    rfl
  · exact hc
  · rw [hothers b hb, hu]
    exact State.core_updCore_other s (fun k => { k with staged := rest, injq := k.injq ++ [o'], room := max k.room n }) hb
  · rw [hs]
    exact List.Forall₂.cons ho hl'

/-- The first flit that waits may not enter the queue (R106, R235, R266). -/
def State.blocks (s : State) (c : CoreId) (t : Nat) (o : OutFlit) : Prop :=
  t < o.start ∨ 16 ≤ (s.core c.val).injq.length ∨ ((isRequest o.flit.kind && o.flit.attempt == 0) = true ∧ 16384 ≤ s.txns.length)

/-- The state in which the first flit that waits has entered the queue. -/
def State.enterOne (s : State) (c : CoreId) (t : Nat) (o : OutFlit) (rest : List OutFlit) : State :=
  let fresh := isRequest o.flit.kind && o.flit.attempt == 0
  let tag := freeKey s.txns 0
  let flit := if fresh then { o.flit with tag := BitVec.ofNat 14 tag } else o.flit
  let s := s.updCore c.val fun k => { k with staged := rest, injq := k.injq ++ [{ o with flit := flit }], room := max k.room t }
  let (fn, pass) := match (s.core c.val).job with
    | some j => (j.fn, j.pass)
    | none => (0, 0)
  let txn : Txn := { core := c, eng := o.eng, fn := fn, pass := pass, op := o.op, flit := flit, localAddr := o.localAddr,
                     sent := 0, at' := 0, replied := false, dead := false }
  if fresh then { s with txns := AMap.set none s.txns tag (some txn) } else s

theorem State.enterOne_eq (s : State) (c : CoreId) (t : Nat) (o : OutFlit) (rest : List OutFlit) : ∃ (o' : OutFlit) (txns : AMap (Option Txn)),
    o.Tagged o' ∧ s.enterOne c t o rest =
      { s.updCore c.val fun k => { k with staged := rest, injq := k.injq ++ [o'], room := max k.room t } with txns := txns } := by
  unfold State.enterOne
  cases isRequest o.flit.kind && o.flit.attempt == 0
  · exact ⟨o, s.txns, o.tagged_self, rfl⟩
  · exact ⟨{ o with flit := { o.flit with tag := BitVec.ofNat 14 (freeKey s.txns 0) } }, _, ⟨_, rfl⟩, rfl⟩

theorem State.enterQueueN_nil {s : State} {c : CoreId} (h : (s.core c.val).staged = []) (t n : Nat) : s.enterQueueN c t (n + 1) = s := by
  rw [State.enterQueueN]
  simp only [h]

theorem State.enterQueueN_cons {s : State} {c : CoreId} {o : OutFlit} {rest : List OutFlit} (h : (s.core c.val).staged = o :: rest)
    (t n : Nat) : (s.blocks c t o → s.enterQueueN c t (n + 1) = s) ∧
      (¬s.blocks c t o → s.enterQueueN c t (n + 1) = (s.enterOne c t o rest).enterQueueN c t n) := by
  rw [State.enterQueueN]
  simp only [h]
  exact ⟨fun hb => if_pos hb, fun hb => if_neg hb⟩

theorem enterQueueN_entered (c : CoreId) (t n : Nat) (s : State) : Entered s (s.enterQueueN c t n) c.val := by
  induction n generalizing s with
  | zero => exact .refl s _
  | succ n ih =>
    cases hs : (s.core c.val).staged with
    | nil =>
      rw [State.enterQueueN_nil hs]
      exact .refl s _
    | cons o rest =>
      obtain ⟨hstay, hgo⟩ := State.enterQueueN_cons hs t n
      by_cases hb : s.blocks c t o
      · rw [hstay hb]
        exact .refl s _
      · rw [hgo hb]
        obtain ⟨o', txns, ho, heq⟩ := s.enterOne_eq c t o rest
        unfold State.blocks at hb
        exact (entered_step s c.val hs ho (by omega) txns t heq (ih _)).1

/-- A first flit that may enter an injection queue with room does. -/
theorem enterQueue_grows (c : CoreId) (t : Nat) (s : State) {o : OutFlit} {rest : List OutFlit} (hs : (s.core c.val).staged = o :: rest)
    (ht : o.start ≤ t) (hroom : (s.core c.val).injq.length < 16) (htxns : s.txns.length < 16384) :
    (s.core c.val).injq.length < ((s.enterQueue c t).core c.val).injq.length := by
  have hb : ¬s.blocks c t o := by
    unfold State.blocks
    omega
  rw [State.enterQueue, hs, List.length_cons, (State.enterQueueN_cons hs t _).2 hb]
  obtain ⟨o', txns, ho, heq⟩ := s.enterOne_eq c t o rest
  exact (entered_step s c.val hs ho hroom txns t heq (enterQueueN_entered c t _ _)).2

/-! ### The operation -/

/-- What an instruction that has started a weft operation of the flits `fs` has done to the state. -/
structure Started (s t : State) (c : CoreId) (e : Eng) (fs : List (WeftFlit × Option MAddr)) (far : Nat) (counter : Option Nat)
    (start : Nat) : Prop where
  ops : AMap.get none t.ops s.nextOp = some { core := c, eng := e, left := fs.length, far := far, counter := counter, dye := none }
  mem : t.mem = s.mem
  core : t.core c.val = { (s.core c.val).setEngine e { s.engine c.val e with openOps := (s.engine c.val e).openOps ++ [s.nextOp] } with
    staged := (t.core c.val).staged, injq := (t.core c.val).injq, room := (t.core c.val).room }
  flits : ∃ l, (t.core c.val).injq ++ (t.core c.val).staged = (s.core c.val).injq ++ l ∧
    List.Forall₂ OutFlit.Tagged ((s.core c.val).staged ++
      fs.map fun f => { flit := f.1, start := start, eng := e, op := s.nextOp, localAddr := f.2 }) l
  most : (t.core c.val).injq.length ≤ max 16 (s.core c.val).injq.length
  grows : (s.core c.val).staged = [] → fs ≠ [] → (s.core c.val).injq.length < 16 → s.txns.length < 16384 →
    (s.core c.val).injq.length < (t.core c.val).injq.length

theorem startOp_started (s : State) (c : CoreId) (e : Eng) (fs : List (WeftFlit × Option MAddr)) (far : Nat) (counter : Option Nat)
    {start now : Nat} (h : start ≤ now) : Started s (s.startOp c e fs far counter start now).1 c e fs far counter start := by
  obtain ⟨n, hn⟩ : ∃ n, n = s.nextOp := ⟨_, rfl⟩
  obtain ⟨op, hop⟩ : ∃ op : WOp, op = { core := c, eng := e, left := fs.length, far := far, counter := counter, dye := none } := ⟨_, rfl⟩
  obtain ⟨s₂, hs₂⟩ : ∃ s₂, s₂ = ({ s with nextOp := n + 1, ops := AMap.set none s.ops n (some op) } : State).updCore c.val fun k =>
    { k with staged := k.staged ++ fs.map fun f => { flit := f.1, start := start, eng := e, op := n, localAddr := f.2 } } := ⟨_, rfl⟩
  obtain ⟨s₃, hs₃⟩ : ∃ s₃, s₃ = s₂.updEngine c.val e fun q => { q with openOps := q.openOps ++ [n] } := ⟨_, rfl⟩
  have h2 : s₂.core c.val = { s.core c.val with
      staged := (s.core c.val).staged ++ fs.map fun f => { flit := f.1, start := start, eng := e, op := n, localAddr := f.2 } } := by
    rw [hs₂]
    exact State.core_updCore_same _ _ _
  have hengine : s₂.engine c.val e = s.engine c.val e := by
    rw [State.engine, h2]
    cases e <;> rfl
  have hcore : s₃.core c.val = { (s.core c.val).setEngine e { s.engine c.val e with openOps := (s.engine c.val e).openOps ++ [n] } with
      staged := (s.core c.val).staged ++ fs.map fun f => { flit := f.1, start := start, eng := e, op := n, localAddr := f.2 } } := by
    rw [hs₃, State.core_updEngine_same, show (s₂.core c.val).engine e = _ from hengine, h2]
    cases e <;> rfl
  have hqueue : (s₃.core c.val).injq = (s.core c.val).injq := by
    rw [hcore]
    cases e <;> rfl
  have hstaged : (s₃.core c.val).staged = (s.core c.val).staged ++
      fs.map fun f => { flit := f.1, start := start, eng := e, op := n, localAddr := f.2 } := by rw [hcore]
  have hrest : s₃ = { s with nextOp := s₃.nextOp, ops := AMap.set none s.ops n (some op), cores := s₃.cores } := by
    rw [hs₃, hs₂]
    rfl
  have heq : (s.startOp c e fs far counter start now).1 = s₃.enterQueue c now := by
    rw [hs₃, hs₂, hop, hn]
    rfl
  rw [heq]
  subst hn
  have key : Entered s₃ (s₃.enterQueue c now) c.val := enterQueueN_entered ..
  obtain ⟨hr, hc, -, hflits, -, hmost⟩ := key
  rw [hqueue, hstaged] at hflits
  rw [hqueue] at hmost
  refine ⟨?_, ?_, ?_, hflits, hmost, fun hnil hfs hroom htxns => ?_⟩
  · rw [hr, hrest, ← hop]
    exact AMap.get_set_same none s.ops s.nextOp (some op)
  · rw [hr, hrest]
  · rw [hc, hcore]
  · cases hf : fs with
    | nil => exact absurd hf hfs
    | cons f fs' =>
      rw [← hqueue]
      refine enterQueue_grows c now s₃ (o := { flit := f.1, start := start, eng := e, op := s.nextOp, localAddr := f.2 })
        (by rw [hstaged, hnil, hf]; rfl) h (by rw [hqueue]; exact hroom) ?_
      rw [hrest]
      exact htxns

/-! ### Issue -/

/-- A committed instruction leaves the weft operations but for the dye of the one that it has started (R443). -/
theorem commit_ops (i : Issued) (op : Nat) (plan : Bool) (hr : i.w.recs = []) (hl : i.w.late = [])
    (hf : (i.w.s.core i.x.c).faults = []) {n : Nat} {o : WOp} (h : AMap.get none i.w.s.ops n = some o) :
    ∃ dye, AMap.get none (commit i op plan).ops n = some { o with dye := dye } := by
  have tidied : ∀ {u : State}, (u.core i.x.c).faults = [] → (∃ dye, AMap.get none u.ops n = some { o with dye := dye }) →
      ∃ dye, AMap.get none (u.tidy i.x.c).ops n = some { o with dye := dye } := by
    intro u hu hd
    rw [tidy_eq hu]
    rw [show ((u.settle i.x.c (u.core i.x.c).horizon).updCore i.x.c _).ops = (u.settle i.x.c (u.core i.x.c).horizon).ops from rfl,
      (settle_onlyLand u i.x.c _).rest]
    exact hd
  unfold commit
  simp only [hr, hl, List.foldl_nil, State.raiseRecs, List.append_nil]
  have h1 : ((i.w.s.updEngine i.x.c i.x.e fun q => q.advance i).updCore i.x.c fun k =>
      { k with claims := k.claims ++ i.w.claims }).ops = i.w.s.ops := rfl
  have hf1 : (((i.w.s.updEngine i.x.c i.x.e fun q => q.advance i).updCore i.x.c fun k =>
      { k with claims := k.claims ++ i.w.claims }).core i.x.c).faults = [] := by
    rw [State.core_updCore_same, State.core_updEngine_same]
    exact (Core.setEngine_faults _ _ _).trans hf
  generalize (State.updCore _ i.x.c _) = s1 at h1 hf1 ⊢
  have h2 : OnlyObs s1 ((((s1.ledger i.x.c i.x.e i.x.col i.x.head (i.x.t - i.x.head)).ledger i.x.c i.x.e
      (if plan then 1 else 0) i.x.t 1).ledger i.x.c i.x.e 1 (i.x.t + 1) (i.nxt - (i.x.t + 1)))) i.x.c :=
    (ledger_onlyObs _ _ _ _ _ _).trans ((ledger_onlyObs _ _ _ _ _ _).trans (ledger_onlyObs _ _ _ _ _ _))
  generalize (State.ledger _ i.x.c i.x.e 1 _ _) = s2 at h2 ⊢
  have h3 : OnlyObs s1 (i.w.evs.foldl (fun s v => s.count i.x.c (some i.x.e.num) v.code v.start v.len v.n) s2) i.x.c :=
    h2.trans (onlyObs_foldl _ _ _ _ fun s v => count_onlyObs _ _ _ _ _ _ _)
  generalize (List.foldl _ s2 i.w.evs) = s3 at h3 ⊢
  have hops : s3.ops = i.w.s.ops := by rw [h3.rest]; exact h1
  have hfaults : (s3.core i.x.c).faults = [] := by rw [h3.core]; exact hf1
  split
  · split
    · next remote r _ =>
      refine tidied hfaults ?_
      by_cases hn : r = n
      · subst hn
        have hsame := AMap.get_upd_same none s3.ops r fun v => v.map fun v => { v with
          dye := some (dyeBytes i.x op ((i.w.s.core i.x.c).engine i.x.e).pc (if i.remote.isSome then 2 else 0) (s3.pass i.x.job.pass) i.exec) }
        rw [hops, h] at hsame
        exact ⟨_, (congrArg (fun m => AMap.get none (AMap.upd none m r _) r) hops).trans hsame⟩
      · refine ⟨o.dye, (AMap.get_upd_other _ _ _ fun heq => hn heq.symm).trans ?_⟩
        rw [hops, h]
    · refine tidied ?_ ⟨o.dye, ?_⟩
      · rw [traceTo_only]
        exact hfaults
      · rw [traceTo_only]
        exact (congrArg (fun m => AMap.get none m n) hops).trans h
  · exact tidied hfaults ⟨o.dye, (congrArg (fun m => AMap.get none m n) hops).trans h⟩

/-- An instruction that waits at the head, and whichever cycle's registers it reads does not issue, goes on waiting. -/
theorem issueAt_waits {body : Ctx → Work → Except Halt Issued} {x : Ctx} {k : Work} {kind : WaitKind}
    (hb : body x k = .error (.hold kind)) (hno : ∀ r i, body { x with r := r } k ≠ .ok i) (l : List Nat) :
    issueAt body x k l = .error (.hold kind) := by
  have never : ∀ (l : List Nat) (r : Nat) (i : Issued), issueAt body { x with r := r } k l ≠ .ok i := by
    intro l
    induction l with
    | nil => exact hno
    | cons d l ih =>
      intro r i hi
      have hbody := hno r
      rw [issueAt] at hi
      cases hcase : body { x with r := r } k with
      | ok i' => exact hbody i' hcase
      | error e =>
        rw [hcase] at hi
        cases e with
        | stop c d p => exact nomatch hi
        | cut y v =>
          simp only at hi
          split_ifs at hi
          exact ih d i hi
        | hold kind =>
          simp only at hi
          split at hi
          · next i' hi' => exact ih d i' hi'
          · exact nomatch hi
  cases l with
  | nil => exact hb
  | cons d l =>
    simp only [issueAt, hb]
    split
    · next i hi => exact absurd hi (never l d i)
    · rfl

theorem runInstr_waits {s : State} {c : CoreId} {e : Eng} {j : Job} {op : Nat} {plan : Bool} {body : Ctx → Work → Except Halt Issued}
    (h : Ready s c e j) {kind : WaitKind} (hb : body (s.head c e j) (s.work (s.head c e j).t) = .error (.hold kind))
    (hno : ∀ r i, body { s.head c e j with r := r } (s.work (s.head c e j).t) ≠ .ok i) :
    ((runInstr s c e op plan body).engine c.val e).pc = (s.engine c.val e).pc ∧
      ((runInstr s c e op plan body).engine c.val e).wait ≠ none := by
  rw [runInstr_ready h, issueAt_waits hb hno]
  simp only [State.engine_updEngine_same]
  exact ⟨trivial, Option.some_ne_none _⟩

end Sys2Proof.Machine
end


section
/-!
PROOFS. FWPUT, FWGET and FWATM (R120, R265): an equation for each, and what its issue makes of it.
-/
namespace Sys2Proof.Machine

theorem OutFlit.Tagged.fields {o o' : OutFlit} (h : o.Tagged o') :
    o'.op = o.op ∧ o'.flit.kind = o.flit.kind ∧ o'.flit.dst = o.flit.dst := by
  obtain ⟨tag, rfl⟩ := h
  exact ⟨rfl, rfl, rfl⟩

theorem forall₂_exists_left {α β : Type} {R : α → β → Prop} {l : List α} {l' : List β} (h : List.Forall₂ R l l') {b : β} (hb : b ∈ l') :
    ∃ a ∈ l, R a b := by
  induction h with
  | nil => exact absurd hb List.not_mem_nil
  | cons hab _ ih =>
    obtain rfl | hb := List.mem_cons.1 hb
    · exact ⟨_, List.mem_cons_self, hab⟩
    · obtain ⟨a, ha, hR⟩ := ih hb
      exact ⟨a, List.mem_cons_of_mem _ ha, hR⟩

theorem State.weftBusy_false {s : State} {c : Nat} (h : s.weftBusy c = false) :
    (s.core c).staged = [] ∧ (s.core c).injq.length < 16 ∧ s.txns.length < 16384 := by
  simpa [State.weftBusy, and_assoc] using h

section
variable {s : State} {c : CoreId} {j : Job} {op : Nat} {body : Ctx → Work → Except Halt Issued}

/-- The address check of FWPUT and FWGET at a well-placed pair. -/
theorem fwLocal_ok {x : Ctx} {a b : MAddr} {n : Nat} (ho : aCore a = x.c) (ha : aSpace a = 1 ∨ aSpace a = 2) (hb : aSpace b = 1 ∨ aSpace b = 2)
    (han : aOff a % n = 0) (hbn : aOff b % n = 0) :
    (localAddr x a [1, 2] && aligned a n && [1, 2].contains (aSpace b) && aligned b n) = true := by
  simp [localAddr_own ho (by simpa using ha : aSpace a ∈ [1, 2]), aligned, han, hbn, hb]

/-- What an instruction leaves that starts one weft operation of the flits `fs`, while the core has room for them. -/
theorem runInstr_starts (h : Ready s c .fxe j) (hbusy : s.weftBusy c.val = false) {k : Work} (hr : k.recs = [])
    (hl : k.late = []) {fs : List (WeftFlit × Option MAddr)} {far n : Nat} {counter : Option Nat} (hfs : fs ≠ [])
    (hb : body (s.head c .fxe j) (s.work (s.head c .fxe j).t) = .ok { finish (s.head c .fxe j) { k with
      s := (s.startOp c .fxe fs far counter (s.head c .fxe j).t (s.head c .fxe j).t).1 } with remote := some n })
    {kind : WType} {module : BitVec 12} (hkind : ∀ f ∈ fs, f.1.kind = kind ∧ f.1.dst = module) :
    let t := runInstr s c .fxe op false body
    Followed s t c .fxe j ∧ (t.engine c.val .fxe).openOps = (s.engine c.val .fxe).openOps ++ [s.nextOp] ∧
      (∃ o, AMap.get none t.ops s.nextOp = some o ∧ o.left = fs.length ∧ o.core = c ∧ o.eng = .fxe ∧ o.counter = counter) ∧
      ∃ l, (t.core c.val).injq ++ (t.core c.val).staged = (s.core c.val).injq ++ l ∧ l.length = fs.length ∧
        (s.core c.val).injq.length < (t.core c.val).injq.length ∧ (t.core c.val).injq.length ≤ 16 ∧
        ∀ o ∈ l, o.flit.kind = kind ∧ o.flit.dst = module ∧ o.op = s.nextOp := by
  intro t
  obtain ⟨hstaged, hroom, htxns⟩ := State.weftBusy_false hbusy
  have hstart := startOp_started s c .fxe fs far counter (le_refl (s.head c .fxe j).t)
  obtain ⟨u, hu⟩ : ∃ u, u = (s.startOp c .fxe fs far counter (s.head c .fxe j).t (s.head c .fxe j).t).1 := ⟨_, rfl⟩
  rw [← hu] at hstart hb
  have hfaults : (u.core c.val).faults = [] := by
    rw [hstart.core]
    exact h.faults
  have hengine : u.engine c.val .fxe = { s.engine c.val .fxe with openOps := (s.engine c.val .fxe).openOps ++ [s.nextOp] } := by
    rw [State.engine, hstart.core]
    rfl
  have hops := commit_ops { finish (s.head c .fxe j) { k with s := u } with remote := some n } op false hr hl hfaults hstart.ops
  have hcore := (runInstr_committed (op := op) (plan := false) h hb rfl le_rfl hr hl hfaults).core
  have key := engine_runInstr (op := op) (plan := false) h hb rfl hr hl hfaults hengine
  have hinjq : (t.core c.val).injq = (u.core c.val).injq := (congrArg Core.injq hcore).trans rfl
  have hstage : (t.core c.val).staged = (u.core c.val).staged := (congrArg Core.staged hcore).trans rfl
  refine ⟨moved_of_advance key, congrArg Engine.openOps key, ?_, ?_⟩
  · obtain ⟨dye, hdye⟩ := hops
    exact ⟨_, (congrArg (fun v : State => AMap.get none v.ops s.nextOp) (runInstr_ok h hb le_rfl)).trans hdye, rfl, rfl, rfl, rfl⟩
  · obtain ⟨l, heq, htag⟩ := hstart.flits
    rw [hstaged, List.nil_append] at htag
    refine ⟨l, by rw [hinjq, hstage, heq], by rw [← htag.length_eq, List.length_map], ?_, ?_, fun o ho => ?_⟩
    · rw [hinjq]
      exact hstart.grows hstaged hfs hroom htxns
    · rw [hinjq]
      have := hstart.most
      omega
    · obtain ⟨o', ho', ht⟩ := forall₂_exists_left htag ho
      obtain ⟨f, hf, rfl⟩ := List.mem_map.1 ho'
      obtain ⟨hop, hk, hd⟩ := ht.fields
      exact ⟨hk.trans (hkind f hf).1, hd.trans (hkind f hf).2, hop⟩

end

/-! ### Equations -/

section
variable {x : Ctx} {k : Work}

/-- With room for its flits an instruction that has not waited goes on. -/
theorem waitRoom_ok (hbusy : k.s.weftBusy x.c = false) (hw : (k.s.engine x.c x.e).wait = none) : waitRoom x k = .ok (x, k) := by
  rw [waitRoom, hbusy]
  simp only [Bool.false_eq_true, if_false]
  rw [show ((k.s.core x.c).engine x.e).wait = none from hw]

theorem waitRoom_busy (hbusy : k.s.weftBusy x.c = true) : waitRoom x k = .error (.hold .busy) := by
  rw [waitRoom, hbusy]
  rfl

theorem needRemote_ok {module : BitVec 12} {a : MAddr} {n : Nat} (hc : aCore a < 1728) (hb : bitAt a 43 = false)
    (ho : aOff a + n ≤ spaceSize (aSpace a)) (hm : module = k.s.moduleId → ∃ r, k.s.resolve x.job.fn a n = .ok r) :
    needRemote k x module a n = .ok () := by
  rw [needRemote, needF_ok _ _ (by simp [hc, hb, ho]), ok_bind]
  by_cases h : module = k.s.moduleId
  · rw [if_pos (by simpa using h)]
    refine needAll_ok fun p hp => ?_
    obtain rfl := List.mem_singleton.1 hp
    exact hm h
  · rw [if_neg (by simpa using h)]
    rfl

variable {m : Byte} {w : BitVec 48} {p : Nat} (hg : k.Ungated x) (hw : (k.s.engine x.c x.e).wait = none)
  (hbit : bitAt (k.areg x (fld w 4 4)) 43 = false) (hcore : aCore (k.areg x (fld w 4 4)) < 1728)
include hg hw hbit hcore

/-- The flits that FWPUT sends. -/
def fwputSpan (w : BitVec 48) : Nat := 256 * ((fld w 26 6 + 1 - 1) / 5) + min (56 * ((fld w 26 6 + 1 - 1) % 5) + 56) 256

omit hg hw hbit hcore in
theorem ceilDiv_fwputSpan (w : BitVec 48) : fld w 26 6 + 1 ≤ 5 * ceilDiv (fwputSpan w) 256 := by
  unfold ceilDiv fwputSpan
  omega

/-- One granule of FWPUT. -/
def fwputTurn (w : BitVec 48) (x : Ctx) (k : Work) (o : List (WeftFlit × Option MAddr) × Work) (g : Nat) :
    Except Halt (List (WeftFlit × Option MAddr) × Work) := do
  let n := min 256 (fwputSpan w - 256 * g)
  let (bs, k') ← o.2.read x (plus (k.areg x (fld w 0 4)) (256 * g)) n (x.at g)
  let marks := k'.marks x (plus (k.areg x (fld w 0 4)) (256 * g)) n
  pure (o.1 ++ (granuleWrites k'.s x.c (fwModule k x w) (plus (k.areg x (fld w 4 4)) (256 * g)) bs marks).map fun f => (f, none), k')

omit hg hw hbit hcore in
/-- The granules' flits are writes to the module. -/
theorem fwputTurns_ok {n : Nat} (hecc : k.s.ecc = []) (hp : ∀ g < n, ∃ r,
      k.Reaches x (plus (k.areg x (fld w 0 4)) (256 * g)) (min 256 (fwputSpan w - 256 * g)) false r) :
    ∃ (fs : List (WeftFlit × Option MAddr)) (k' : Work), k'.SameState k ∧ fs.length = 5 * n ∧
      (∀ f ∈ fs, f.1.kind = .write ∧ f.1.dst = fwModule k x w) ∧ (List.range n).foldlM (fwputTurn w x k) ([], k) = .ok (fs, k') := by
  have hturn : ∀ g < n, ∀ o : List (WeftFlit × Option MAddr) × Work, (o.2.SameState k ∧ o.1.length = 5 * g ∧
      ∀ f ∈ o.1, f.1.kind = .write ∧ f.1.dst = fwModule k x w) → ∃ o' : List (WeftFlit × Option MAddr) × Work,
      (o'.2.SameState k ∧ o'.1.length = 5 * (g + 1) ∧ ∀ f ∈ o'.1, f.1.kind = .write ∧ f.1.dst = fwModule k x w) ∧
        fwputTurn w x k o g = .ok o' := by
    rintro g hgn ⟨fs, k₁⟩ ⟨h₁, hlen, hfs⟩
    obtain ⟨r, hr⟩ := hp g hgn
    have hread := (hr.of_state h₁.state).readVia (by rw [h₁.state, hecc]; rfl)
      (fun off => portsOf (aSpace (plus (k.areg x (fld w 0 4)) (256 * g))) off (min 256 (fwputSpan w - 256 * g)) (x.at g) x.e.num false)
      (x.at g)
    obtain ⟨k₂, h₂, hread⟩ : ∃ k₂ : Work, k₂.SameState k ∧ k₁.read x (plus (k.areg x (fld w 0 4)) (256 * g))
        (min 256 (fwputSpan w - 256 * g)) (x.at g) = .ok (k₁.s.readAt x.c (x.at g) r (min 256 (fwputSpan w - 256 * g)), k₂) :=
      ⟨_, h₁.didRead .., hread⟩
    refine ⟨(fs ++ (granuleWrites k₂.s x.c (fwModule k x w) (plus (k.areg x (fld w 4 4)) (256 * g)) _ _).map fun f => (f, none), k₂),
      ⟨h₂, ?_, ?_⟩, by rw [fwputTurn, hread, ok_bind]; rfl⟩
    · simp only [List.length_append, List.length_map, granuleWrites, List.length_range, hlen]
      omega
    · intro f hf
      obtain hf | hf := List.mem_append.1 hf
      · exact hfs f hf
      · simp only [granuleWrites, List.map_map, List.mem_map] at hf
        obtain ⟨i, -, rfl⟩ := hf
        exact ⟨rfl, rfl⟩
  obtain ⟨⟨fs, k'⟩, ⟨h', hlen, hfs⟩, heq⟩ := foldlM_range _ hturn (a := ([], k))
    ⟨⟨rfl, rfl, rfl⟩, rfl, fun f hf => absurd hf List.not_mem_nil⟩
  exact ⟨fs, k', h', hlen, hfs, heq⟩

/-- FWPUT starts an operation of its flits. -/
theorem runFwput_ok (hl : legalEng 0x7D m w = true) (hbusy : k.s.weftBusy x.c = false) (hecc : k.s.ecc = [])
    (hlocal : (localAddr x (k.areg x (fld w 0 4)) [1, 2] && aligned (k.areg x (fld w 0 4)) 256 &&
      [1, 2].contains (aSpace (k.areg x (fld w 4 4))) && aligned (k.areg x (fld w 4 4)) 256) = true)
    (hown : ∃ r, k.s.resolve x.job.fn (k.areg x (fld w 0 4)) (fwputSpan w) = .ok r)
    (hoff : aOff (k.areg x (fld w 4 4)) + fwputSpan w ≤ spaceSize (aSpace (k.areg x (fld w 4 4))))
    (hmine : fwModule k x w = k.s.moduleId → ∃ r, k.s.resolve x.job.fn (k.areg x (fld w 4 4)) (fwputSpan w) = .ok r)
    (hp : ∀ g < ceilDiv (fwputSpan w) 256, ∃ r,
      k.Reaches x (plus (k.areg x (fld w 0 4)) (256 * g)) (min 256 (fwputSpan w - 256 * g)) false r) :
    ∃ (fs : List (WeftFlit × Option MAddr)) (k' : Work) (far : Nat), k'.SameState k ∧ fs.length = fld w 26 6 + 1 ∧
      (∀ f ∈ fs, f.1.kind = .write ∧ f.1.dst = fwModule k x w) ∧
      runFwput m w x k = .ok { finish x { k' with
        s := (k.s.startOp (Fin.ofNat 1728 x.c) .fxe fs far (some (fld w 32 6)) x.t x.t).1 } with remote := some k.s.nextOp } := by
  obtain ⟨fs, k', h', hlen, hfs, hloop⟩ := fwputTurns_ok (n := ceilDiv (fwputSpan w) 256) hecc hp
  refine ⟨fs.take (fld w 26 6 + 1), k', scopeDist x.c k.s.moduleId (aCore (k.areg x (fld w 4 4))) (fwModule k x w), h', ?_, fun f hf => hfs f (List.mem_of_mem_take hf), ?_⟩
  rotate_left
  · have hall : needAll k x [(k.areg x (fld w 0 4), fwputSpan w)] = .ok () := needAll_ok fun q hq => by
      obtain rfl := List.mem_singleton.1 hq
      exact hown
    rw [runFwput, needEng_ok hl, ok_bind]
    simp only [need_true hlocal, ok_bind, show 256 * ((fld w 26 6 + 1 - 1) / 5) + min (56 * ((fld w 26 6 + 1 - 1) % 5) + 56) 256 =
      fwputSpan w from rfl, hall, needRemote_ok hcore hbit hoff hmine, waitRoom_ok hbusy hw, gate_free hg]
    refine Eq.trans (congrArg (· >>= _) hloop) ?_
    rw [ok_bind, ← h'.state]
    rfl
  · have := ceilDiv_fwputSpan w
    rw [List.length_take]
    omega

/-- FWGET starts an operation of its reads. -/
theorem runFwget_ok (hl : legalEng 0x7E m w = true) (hbusy : k.s.weftBusy x.c = false)
    (hlocal : (localAddr x (k.areg x (fld w 0 4)) [1, 2] && aligned (k.areg x (fld w 0 4)) 64 &&
      [1, 2].contains (aSpace (k.areg x (fld w 4 4))) && aligned (k.areg x (fld w 4 4)) 64) = true)
    (hown : ∃ r, k.s.resolve x.job.fn (k.areg x (fld w 0 4)) (64 * (fld w 26 6 + 1)) = .ok r)
    (hoff : aOff (k.areg x (fld w 4 4)) + 64 * (fld w 26 6 + 1) ≤ spaceSize (aSpace (k.areg x (fld w 4 4))))
    (hmine : fwModule k x w = k.s.moduleId → ∃ r, k.s.resolve x.job.fn (k.areg x (fld w 4 4)) (64 * (fld w 26 6 + 1)) = .ok r) :
    ∃ (fs : List (WeftFlit × Option MAddr)), fs.length = fld w 26 6 + 1 ∧
      (∀ f ∈ fs, f.1.kind = .readReq ∧ f.1.dst = fwModule k x w) ∧
      runFwget m w x k = .ok { finish x { k with
        s := (k.s.startOp (Fin.ofNat 1728 x.c) .fxe fs 0 (some (fld w 32 6)) x.t x.t).1 } with remote := some k.s.nextOp } := by
  refine ⟨(List.range (fld w 26 6 + 1)).map fun (j : Nat) =>
    (weftReadFlit k.s x.c (fwModule k x w) (plus (k.areg x (fld w 4 4)) (64 * j)) 64, some (plus (k.areg x (fld w 0 4)) (64 * j))),
    by simp, fun f hf => ?_, ?_⟩
  · obtain ⟨i, -, rfl⟩ := List.mem_map.1 hf
    exact ⟨rfl, rfl⟩
  · have hall : needAll k x [(k.areg x (fld w 0 4), 64 * (fld w 26 6 + 1))] = .ok () := needAll_ok fun q hq => by
      obtain rfl := List.mem_singleton.1 hq
      exact hown
    rw [runFwget, needEng_ok hl, ok_bind]
    simp only [need_true hlocal, ok_bind, hall, needRemote_ok hcore hbit hoff hmine, waitRoom_ok hbusy hw, gate_free hg]
    rfl

/-- FWATM starts an operation of one atomic. -/
theorem runFwatm_ok (hl : legalEng 0x7F m w = true) (hbusy : k.s.weftBusy x.c = false) (hecc : k.s.ecc = [])
    (hlocal : (localAddr x (k.areg x (fld w 0 4)) [1, 2] && aligned (k.areg x (fld w 0 4)) 32 &&
      aSpace (k.areg x (fld w 4 4)) == 1 && aligned (k.areg x (fld w 4 4)) 8) = true)
    (hown : ∃ r, k.s.resolve x.job.fn (k.areg x (fld w 0 4)) 24 = .ok r)
    (hoff : aOff (k.areg x (fld w 4 4)) + 8 ≤ spaceSize (aSpace (k.areg x (fld w 4 4))))
    (hmine : fwModule k x w = k.s.moduleId → ∃ r, k.s.resolve x.job.fn (k.areg x (fld w 4 4)) 8 = .ok r)
    (hp : k.Reaches x (k.areg x (fld w 0 4)) 16 false p) :
    ∃ (fs : List (WeftFlit × Option MAddr)) (k' : Work) (far : Nat), k'.SameState k ∧ fs.length = 1 ∧
      (∀ f ∈ fs, f.1.kind = .atomic ∧ f.1.dst = fwModule k x w) ∧
      runFwatm m w x k = .ok { finish x { k' with
        s := (k.s.startOp (Fin.ofNat 1728 x.c) .fxe fs far (some (fld w 32 6)) x.t x.t).1 } with remote := some k.s.nextOp } := by
  have hread := hp.readVia (k := k) (x := x) (by rw [hecc]; rfl)
    (fun off => portsOf (aSpace (k.areg x (fld w 0 4))) off 16 x.t x.e.num false) x.t
  obtain ⟨k', h', hread⟩ : ∃ k' : Work, k'.SameState k ∧ k.read x (k.areg x (fld w 0 4)) 16 x.t =
      .ok (k.s.readAt x.c x.t p 16, k') := ⟨_, Work.SameState.didRead ⟨rfl, rfl, rfl⟩ .., hread⟩
  have hall : needAll k x [(k.areg x (fld w 0 4), 24)] = .ok () := needAll_ok fun q hq => by
    obtain rfl := List.mem_singleton.1 hq
    exact hown
  refine ⟨[(weftRequest k.s x.c .atomic (fwModule k x w) (weftPayload ((k.areg x (fld w 4 4)).toNat + m.toNat * 2 ^ 54)
    (k.s.readAt x.c x.t p 16)), some (plus (k.areg x (fld w 0 4)) 16))], k',
    scopeDist x.c k.s.moduleId (aCore (k.areg x (fld w 4 4))) (fwModule k x w), h', rfl, fun f hf => ?_, ?_⟩
  rotate_left
  · rw [runFwatm, needEng_ok hl, ok_bind]
    simp only [need_true hlocal, ok_bind, hall, needRemote_ok hcore hbit hoff hmine, waitRoom_ok hbusy hw, gate_free hg, hread]
    rw [h'.state]
    rfl
  · obtain rfl := List.mem_singleton.1 hf
    exact ⟨rfl, rfl⟩

end

/-- While the staging buffer, the queue or the tag pool has no room FWPUT does not issue (R106, R235, R266). -/
theorem runFwput_busy {m : Byte} {w : BitVec 48} {x : Ctx} {k : Work} (hbusy : k.s.weftBusy x.c = true) (i : Issued) :
    runFwput m w x k ≠ .ok i := by
  intro h
  rw [runFwput] at h
  obtain ⟨_, -, h⟩ := bind_eq_ok h
  obtain ⟨_, -, h⟩ := bind_eq_ok h
  obtain ⟨_, -, h⟩ := bind_eq_ok h
  obtain ⟨_, -, h⟩ := bind_eq_ok h
  obtain ⟨_, hwait, -⟩ := bind_eq_ok h
  exact nomatch (waitRoom_busy hbusy).symm.trans hwait

/-- Settles O22: the equation of each instruction, and what its issue or its wait leaves. -/
theorem weftInstructions : Obligations.WeftInstructions := by
  intro s c j m w p h hcl hecc hbobs hwait x a b module flits span started mine hspace hcore hbit
  have hg : (s.work x.t).Ungated x := ⟨rfl, hbobs⟩
  have hc : Fin.ofNat 1728 x.c = c := Fin.ext (Nat.mod_eq_of_lt c.isLt)
  refine ⟨fun hl hb ha hbo hoff hm hp hps => ⟨fun hbusy => ?put, fun hbusy => ?busy⟩, fun hl hb ha hbo hoff hm hp hbusy => ?get,
    fun hl hb ha hbo hoff hm hp hp' hbusy => ?atm⟩
  case put =>
    obtain ⟨fs, k, far, hk, hlen, hfs, hrun⟩ := runFwput_ok (m := m) (w := w) (x := x) (k := s.work x.t) hg hwait hbit hcore hl hbusy hecc
      (fwLocal_ok hp.own hspace hb ha hbo) ⟨_, hp.place⟩ hoff hm
      (fun g hg' => (hps g hg').imp fun r hr => hr.reaches hcl)
    rw [hc] at hrun
    have key := runInstr_starts (op := 0x7D) h hbusy (k := k) hk.recs hk.late (by rintro rfl; simp at hlen) hrun hfs
    rw [hlen] at key
    exact ⟨_, rfl, key⟩
  case busy =>
    have hlocal : (localAddr x a [1, 2] && aligned a 256 && [1, 2].contains (aSpace b) && aligned b 256) = true :=
      fwLocal_ok hp.own hspace hb ha hbo
    have hall : needAll (s.work x.t) x [(a, span)] = .ok () := needAll_ok fun q hq => by
      obtain rfl := List.mem_singleton.1 hq
      exact ⟨_, hp.place⟩
    have hhold : runFwput m w x (s.work x.t) = .error (.hold .busy) := by
      rw [runFwput, needEng_ok hl, ok_bind]
      refine Eq.trans (congrArg (· >>= _) (need_true hlocal)) ?_
      rw [ok_bind]
      refine Eq.trans (congrArg (· >>= _) hall) ?_
      rw [ok_bind]
      refine Eq.trans (congrArg (· >>= _) (needRemote_ok hcore hbit hoff hm)) ?_
      rw [ok_bind, waitRoom_busy hbusy, error_bind]
    exact ⟨_, rfl, runInstr_waits (op := 0x7D) (plan := false) h hhold fun r i => runFwput_busy hbusy i⟩
  case get =>
    obtain ⟨fs, hlen, hfs, hrun⟩ := runFwget_ok (m := m) (w := w) (x := x) (k := s.work x.t) hg hwait hbit hcore hl hbusy
      (fwLocal_ok hp.own hspace hb ha hbo) ⟨_, hp.place⟩ hoff hm
    rw [hc] at hrun
    have key := runInstr_starts (op := 0x7E) h hbusy (k := s.work x.t) rfl rfl (by rintro rfl; simp at hlen) hrun hfs
    rw [hlen] at key
    exact ⟨_, rfl, key⟩
  case atm =>
    obtain ⟨fs, k, far, hk, hlen, hfs, hrun⟩ := runFwatm_ok (m := m) (w := w) (x := x) (k := s.work x.t) hg hwait hbit hcore hl hbusy hecc
      (by
        show (localAddr x a [1, 2] && aligned a 32 && aSpace b == 1 && aligned b 8) = true
        simp [localAddr_own (x := x) hp.own (by simpa using hspace : aSpace a ∈ [1, 2]), aligned, ha, hbo, hb]) ⟨_, hp.place⟩
      (by rw [show aSpace ((s.work x.t).areg x (fld w 4 4)) = 1 from hb]; exact hoff) hm (hp'.reaches hcl)
    rw [hc] at hrun
    have key := runInstr_starts (op := 0x7F) h hbusy (k := k) hk.recs hk.late (by rintro rfl; simp at hlen) hrun hfs
    rw [hlen] at key
    exact ⟨_, rfl, key⟩

end Sys2Proof.Machine
end


section
/-!
PROOFS. FRDC in a module whose list of cores holds a core twice (R118): a lookup finds the first, and the engine's drain of
arrived segments walks both.
-/
namespace Sys2Proof.Machine

/-- A canonical reduction of two cores of the module. -/
def pairedReduction : RedEntry := ⟨2, 0xFF, 2, [⟨0, 0, 0, 1⟩, ⟨0, 1, 1, 1⟩], 0, 0⟩

/-- The executable of the reduction, with a receive entry of one flit for it. -/
def pairedExe : Exe :=
  { bareExe [{ longEntry with kind := 2, flits := 1, reduction := some 0 }] with reds := [pairedReduction] }

/-- A segment of the reduction that carries its result. -/
def finalSegment : List Byte := [0, 0, 0, 0, 0, 0, 0, 2]

/-- Core 1 is in the list twice, the second time with a whole segment of the reduction. -/
def doubledState : State :=
  { State.reset with
    scheduled := true
    fns := [(0, { Func.reset0 with exe := some { longLoad with exe := pairedExe } })]
    cores := [(0, { Core.reset with
                      fxeQ := { Engine.reset with mode := .running, aregs := [(0, { base := BitVec.ofNat 48 (absAddr 1 0 0), pend := [] })] }
                      job := some lateJob }),
              (1, Core.reset), (1, { Core.reset with redBuf := [(0, [finalSegment])] })] }

theorem doubledState_ready : Ready doubledState 0 .fxe lateJob :=
  ⟨by decide, by decide, by decide, by decide, by decide, by decide, by decide, fun _ hv => absurd hv List.not_mem_nil⟩

theorem doubledState_quiet (b : Nat) : (doubledState.core b).redBuf = [] ∧ (doubledState.core b).mpend = [] := by
  by_cases h : b = 0
  · subst h
    exact ⟨rfl, rfl⟩
  · by_cases h1 : b = 1
    · subst h1
      exact ⟨rfl, rfl⟩
    · simp [State.core, doubledState, AMap.get, Ne.symm h, Ne.symm h1, Core.reset]

theorem doubledState_resolve : doubledState.resolve 0 (BitVec.ofNat 48 (absAddr 1 0 0)) 4 = .ok (0, absAddr 1 0 0) := by
  decide +kernel

theorem doubledState_plain (write : Bool) :
    Plain doubledState 0 .fxe lateJob (BitVec.ofNat 48 (absAddr 1 0 0)) 4 write (absAddr 1 0 0) :=
  ⟨by decide +kernel, doubledState_resolve, rfl,
    fun b hb => absurd hb (by rw [show doubledState.bobs lateJob = [] by decide +kernel]; exact List.not_mem_nil)⟩

/-- The reduction has its result, and the core no longer waits for it. -/
theorem doubledState_frdc : ∀ t, exec (.frdc 0 0 0) doubledState = .next t → (t.red 0 0).map (·.dest) = some [] := by
  intro t ht
  obtain rfl := Host.Outcome.next.inj ht
  decide +kernel

/-- Refutes O21: the segment that the doubled core holds ends the reduction as FRDC joins it, before the other core of the
module has contributed. -/
theorem not_collectivesAndReductions : ¬ Obligations.CollectivesAndReductions := by
  intro h
  have hfirst := h doubledState 0 lateJob 0 0 _ (absAddr 1 0 0) (absAddr 1 0 0) doubledState_ready rfl
    (fun b => (doubledState_quiet b).2) rfl (by decide +kernel) rfl (fun b => (doubledState_quiet b).1)
  obtain ⟨t, ht, -, r, hr, -, -, -, hdest⟩ := ((hfirst.2 pairedReduction ⟨0, 0, 0, 1⟩ rfl rfl rfl).2 (by decide) rfl
    (.inl (by decide +kernel)) (by decide +kernel) (by decide +kernel) (by decide +kernel)
    ⟨doubledState_plain false, doubledState_plain true, fun i hi => by
      obtain rfl : i = 0 := by
        have hlast : ceilDiv (4 * (fld (0 : BitVec 48) 8 14 + 1)) 256 = 1 := by decide
        omega
      exact ⟨doubledState_plain false, doubledState_resolve⟩⟩).2 (by decide)
  have hnone := doubledState_frdc t ht
  rw [show t.red 0 0 = some r from hr, Option.map_some, hdest] at hnone
  exact absurd hnone (by decide)

end Sys2Proof.Machine
end


section
/-!
PROOFS. RELEASE_APPLY (R134, R137, R196): the oldest pending release waits for its operations, increments a counter of its own core, or
sends an increment.
-/
namespace Sys2Proof.Machine

/-! ### Payloads -/

theorem leNat_append (l m : List Byte) : leNat (l ++ m) = leNat l + 256 ^ l.length * leNat m := by
  induction l with
  | nil => simp [leNat]
  | cons b l ih =>
    simp only [List.cons_append, leNat, ih, List.length_cons, pow_succ]
    ring

theorem leNat_leBytes (n v : Nat) : leNat (leBytes n v) = v % 256 ^ n := by
  induction n generalizing v with
  | zero => simp [leBytes, leNat, Nat.mod_one]
  | succ n ih =>
    rw [leBytes, leNat, ih, pow_succ', Nat.mod_mul]
    simp

/-- The number that the payload of a counter increment holds (R265). -/
theorem incrementPayload_toNat (r : PendRelease) {c : Nat} (hc : c < 2 ^ 16) (hi : r.inc < 2 ^ 16) :
    (incrementPayload r c).toNat = r.addr.toNat + r.scope.code * 2 ^ 56 + 2 ^ 64 * (r.inc + 2 ^ 16 * c) := by
  have hscope : r.scope.code ≤ 4 := by cases r.scope <;> decide
  have haddr := r.addr.isLt
  have hlen : (leBytes 8 (r.addr.toNat + r.scope.code * 2 ^ 56)).length = 8 := leBytes_length ..
  have hinc : (leBytes 2 r.inc).length = 2 := leBytes_length ..
  rw [incrementPayload, weftPayload, BitVec.toNat_ofNat, leNat_append, leNat_append, hlen, hinc]
  simp only [leNat_leBytes]
  omega

theorem incrementPayload_fields (r : PendRelease) {c : Nat} (hc : c < 2 ^ 16) (hi : r.inc < 2 ^ 16) :
    fld (incrementPayload r c) 0 48 = r.addr.toNat ∧ fld (incrementPayload r c) 56 3 = r.scope.code ∧
      fld (incrementPayload r c) 64 16 = r.inc ∧ fld (incrementPayload r c) 80 16 = c := by
  have hscope : r.scope.code ≤ 4 := by cases r.scope <;> decide
  have haddr := r.addr.isLt
  simp only [fld, incrementPayload_toNat r hc hi, Nat.shiftRight_eq_div_pow]
  omega

/-! ### The two outcomes -/

theorem lt_workAfter_one (w m : Nat) : m < workAfter w m 1 := by
  unfold workAfter
  simp only
  split
  · omega
  · have := Nat.div_add_mod m 3200
    have := Nat.mod_lt m (show 0 < 3200 by decide)
    have h : 3200 * (m / 3200 + 1 + (1 - (3136 + w - m % 3200)) / 3136) = 3200 * (m / 3200) + 3200 + 3200 * ((1 - (3136 + w - m % 3200)) / 3136) := by
      ring
    omega

theorem State.lt_releaseCycle (s : State) (c : Nat) (q : Engine) (r : PendRelease) :
    max (max r.ready r.issued) q.relAt < s.releaseCycle c q r := by
  have h := lt_workAfter_one (AMap.get 0 q.waited (max (max r.ready r.issued) q.relAt / 3200)) (max (max r.ready r.issued) q.relAt)
  unfold State.releaseCycle
  simp only
  split
  · exact h
  · exact lt_of_lt_of_le h (le_max_left _ _)

/-- A count as cycle `n` sees it, when one increment of cycle `t` waits. -/
theorem Counter.view_one (v : Counter) (u : CInc) (hn : v.count + u.amount ≤ 65535) (n : Nat) :
    let w := ({ v with pend := [u] } : Counter).view n
    if n ≤ u.cyc then w.count = v.count else w.count = v.count + u.amount ∧ w.scope = u.scope ∧ w.originCore = u.originCore := by
  rw [Counter.view_pend_singleton]
  by_cases h : n ≤ u.cyc
  · simp [h]
  · simp [h, Counter.take, hn]

/-- The state once the release `r`, which takes effect in cycle `t`, has left its engine and its wait has been counted. -/
def State.leaveRelease (s : State) (c : Nat) (e : Eng) (r : PendRelease) (t : Nat) : State :=
  let v := s.updEngine c e fun q => { q with releases := q.releases.drop 1, relAt := t }
  if r.signal then v else v.count c (some e.num) 0x23 (r.issued + 1) (t - (r.issued + 1)) 1

theorem State.leaveRelease_leaves (s : State) (c : Nat) (e : Eng) (r : PendRelease) (t : Nat) :
    s.leaveRelease c e r t = { s with cores := (s.leaveRelease c e r t).cores } ∧ ∃ o, (s.leaveRelease c e r t).core c =
      { (s.core c).setEngine e { s.engine c e with releases := (s.engine c e).releases.drop 1, relAt := t } with obs := o } := by
  have hcore : (s.updEngine c e fun q => { q with releases := q.releases.drop 1, relAt := t }).core c =
      (s.core c).setEngine e { s.engine c e with releases := (s.engine c e).releases.drop 1, relAt := t } :=
    State.core_updEngine_same ..
  have h := count_onlyObs (s.updEngine c e fun q => { q with releases := q.releases.drop 1, relAt := t }) c (some e.num) 0x23
    (r.issued + 1) (t - (r.issued + 1)) 1
  unfold State.leaveRelease
  cases r.signal
  · have hobs := h.core
    rw [hcore] at hobs
    exact ⟨h.rest, _, hobs⟩
  · exact ⟨rfl, _, hcore⟩

theorem State.applyRelease_eq (s : State) (c : CoreId) (e : Eng) (r : PendRelease) :
    let cyc := s.releaseCycle c.val (s.engine c.val e) r
    let u := s.leaveRelease c.val e r cyc
    let far := scopeDist c.val s.moduleId (aCore r.addr) r.module
    s.applyRelease c e r =
      if r.module = s.moduleId ∧ aCore r.addr = c.val then u.incCounter c.val (aOff r.addr / 8) r.inc r.scope c.val u.moduleId cyc e.num
      else (u.startOp c e [(weftRequest u c.val .increment r.module (incrementPayload r c.val), none)] far none cyc cyc).1.updEngine
        c.val e fun q => { q with releases := q.releases.map fun l => l.behind u.nextOp far } := by
  have hid := congrArg State.moduleId (s.leaveRelease_leaves c.val e r (s.releaseCycle c.val (s.engine c.val e) r)).1
  simp only
  rw [show s.moduleId = _ from hid.symm]
  rfl

section
variable {s : State} {c : CoreId} {e : Eng} {r : PendRelease} {rest : List PendRelease}

/-- A release to a counter of its own core. -/
theorem applyRelease_own (hq : (s.engine c.val e).releases = r :: rest) (hm : r.module = s.moduleId) (ha : aCore r.addr = c.val)
    (hp : (s.counter c.val (aOff r.addr / 8)).pend = []) (hn : (s.counter c.val (aOff r.addr / 8)).count + r.inc ≤ 65535) :
    let t := s.applyRelease c e r
    let cyc := s.releaseCycle c.val (s.engine c.val e) r
    (t.engine c.val e).releases = rest ∧ (t.engine c.val e).relAt = cyc ∧
      t.counter c.val (aOff r.addr / 8) = { s.counter c.val (aOff r.addr / 8) with pend :=
        [{ cyc := cyc, eng := e.num, amount := r.inc, scope := r.scope, originCore := c.val, originModule := s.moduleId }] } := by
  intro t cyc
  obtain ⟨hrest, o, hcore⟩ := s.leaveRelease_leaves c.val e r cyc
  have heq := s.applyRelease_eq c e r
  simp only at heq
  rw [if_pos ⟨hm, ha⟩] at heq
  generalize s.leaveRelease c.val e r (s.releaseCycle c.val (s.engine c.val e) r) = u at heq hrest hcore
  have hid : u.moduleId = s.moduleId := by
    have hmod := congrArg State.moduleId hrest
    exact hmod
  have hcounter : u.counter c.val (aOff r.addr / 8) = s.counter c.val (aOff r.addr / 8) := by
    rw [State.counter, hcore]
    cases e <;> rfl
  have hengine : u.engine c.val e = { s.engine c.val e with releases := rest, relAt := cyc } := by
    rw [State.engine, hcore, hq]
    cases e <;> rfl
  have ht : t = u.setCounter c.val (aOff r.addr / 8) { s.counter c.val (aOff r.addr / 8) with pend :=
      [{ cyc := cyc, eng := e.num, amount := r.inc, scope := r.scope, originCore := c.val, originModule := s.moduleId }] } := by
    rw [← hcounter, ← hid, ← incCounter_settled (by rw [hcounter]; exact hp) (by rw [hcounter]; exact hn)]
    exact heq
  rw [ht, State.engine_setCounter, hengine]
  exact ⟨rfl, rfl, State.counter_setCounter_same ..⟩

/-- A release to any other counter. -/
theorem applyRelease_remote (hq : (s.engine c.val e).releases = r :: rest) (hm : ¬(r.module = s.moduleId ∧ aCore r.addr = c.val))
    (hbusy : s.weftBusy c.val = false) :
    let t := s.applyRelease c e r
    (t.engine c.val e).releases = rest.map (fun l => l.behind s.nextOp (scopeDist c.val s.moduleId (aCore r.addr) r.module)) ∧
      (t.engine c.val e).openOps = (s.engine c.val e).openOps ++ [s.nextOp] ∧
      ∃ o, (t.core c.val).injq = (s.core c.val).injq ++ [o] ∧ o.flit.kind = .increment ∧ o.flit.dst = r.module ∧
        o.flit.payload = incrementPayload r c.val := by
  intro t
  obtain ⟨hstaged, hroom, htxns⟩ := State.weftBusy_false hbusy
  have heq := s.applyRelease_eq c e r
  simp only at heq
  rw [if_neg hm] at heq
  obtain ⟨cyc, hcyc⟩ : ∃ n, n = s.releaseCycle c.val (s.engine c.val e) r := ⟨_, rfl⟩
  rw [← hcyc] at heq
  obtain ⟨hrest, o, hcore⟩ := s.leaveRelease_leaves c.val e r cyc
  generalize s.leaveRelease c.val e r cyc = u at heq hrest hcore
  obtain ⟨f, hf⟩ : ∃ f, f = weftRequest u c.val .increment r.module (incrementPayload r c.val) := ⟨_, rfl⟩
  obtain ⟨far, hfar⟩ : ∃ n, n = scopeDist c.val s.moduleId (aCore r.addr) r.module := ⟨_, rfl⟩
  have hengine : u.engine c.val e = { s.engine c.val e with releases := rest, relAt := cyc } := by
    rw [State.engine, hcore, hq]
    cases e <;> rfl
  have hqueue : (u.core c.val).injq = (s.core c.val).injq ∧ (u.core c.val).staged = [] := by
    rw [hcore, ← hstaged]
    exact ⟨by cases e <;> rfl, by cases e <;> rfl⟩
  have hop : u.nextOp = s.nextOp ∧ u.txns = s.txns := by rw [hrest]; exact ⟨rfl, rfl⟩
  have hst := startOp_started u c e [(f, none)] far none (le_refl cyc)
  obtain ⟨v, hv⟩ : ∃ v, v = (u.startOp c e [(f, none)] far none cyc cyc).1 := ⟨_, rfl⟩
  rw [← hv] at hst
  have ht : t = v.updEngine c.val e fun q => { q with releases := q.releases.map fun l => l.behind s.nextOp far } := by
    rw [hv, ← hop.1, hf, hfar]
    exact heq
  have hvengine : v.engine c.val e = { u.engine c.val e with openOps := (u.engine c.val e).openOps ++ [u.nextOp] } := by
    rw [State.engine, hst.core]
    cases e <;> rfl
  have hinjq : (t.core c.val).injq = (v.core c.val).injq := by
    rw [ht, State.core_updEngine_same]
    cases e <;> rfl
  obtain ⟨l, heq, htag⟩ := hst.flits
  have hgrows := hst.grows hqueue.2 (by simp) (by rw [hqueue.1]; exact hroom) (by rw [hop.2]; exact htxns)
  rw [hqueue.1] at heq hgrows
  rw [hqueue.2, List.nil_append, List.map_singleton] at htag
  obtain ⟨o', l', ho', hl', rfl⟩ := List.forall₂_cons_left_iff.1 htag
  obtain rfl := List.forall₂_nil_left_iff.1 hl'
  have hfirst : (v.core c.val).injq = (s.core c.val).injq ++ [o'] := by
    have hlen := congrArg List.length heq
    simp only [List.length_append, List.length_singleton] at hlen
    have hnil : (v.core c.val).staged = [] := List.eq_nil_of_length_eq_zero (by omega)
    rwa [hnil, List.append_nil] at heq
  obtain ⟨tag, rfl⟩ := ho'
  rw [ht, State.engine_updEngine_same, ← ht, hvengine, hengine, hop.1, hfar]
  exact ⟨rfl, rfl, _, hinjq.trans hfirst, by rw [hf]; rfl, by rw [hf]; rfl, by rw [hf]; rfl⟩

/-- Settles O26: a release that waits, one to its own core, and one that is sent. -/
theorem releaseApply : Obligations.ReleaseApply := by
  intro s c e r rest hq
  refine ⟨fun ⟨o, ho, hopen⟩ => ?_, fun hcov => ⟨fun hm ha => ?_, fun hrem => ⟨fun hbusy => ?_, fun hbusy hi => ?_⟩⟩⟩
  · show execReleaseApply c e s = _
    simp only [execReleaseApply, hq]
    rw [if_pos]
    simp only [Bool.or_eq_true, List.any_eq_true]
    exact .inl ⟨o, ho, by simpa using hopen⟩
  · intro v hp hn
    have hexec : execReleaseApply c e s = .next (s.applyRelease c e r) := by
      simp only [execReleaseApply, hq]
      rw [if_neg]
      simp [hm, ha]
      exact hcov
    obtain ⟨h1, h2, h3⟩ := applyRelease_own hq hm ha hp hn
    have hlt := s.lt_releaseCycle c.val (s.engine c.val e) r
    refine ⟨_, _, hexec, h1, by omega, by omega, by omega, h2, fun n => ?_⟩
    rw [h3]
    exact v.view_one ⟨_, e.num, r.inc, r.scope, c.val, s.moduleId⟩ hn n
  · show execReleaseApply c e s = _
    simp only [execReleaseApply, hq]
    rw [if_pos]
    simp only [Bool.or_eq_true, Bool.and_eq_true, hbusy, and_true]
    refine .inr ?_
    simpa [or_iff_not_imp_left] using hrem
  · have hm : ¬(r.module = s.moduleId ∧ aCore r.addr = c.val) := fun h => hrem.elim (· h.1) (· h.2)
    have hexec : execReleaseApply c e s = .next (s.applyRelease c e r) := by
      simp only [execReleaseApply, hq]
      rw [if_neg]
      simp [hbusy]
      exact hcov
    obtain ⟨h1, h2, o, h3, h4, h5, h6⟩ := applyRelease_remote hq hm hbusy
    obtain ⟨f1, f2, f3, f4⟩ := incrementPayload_fields r (show c.val < 2 ^ 16 by omega) hi
    refine ⟨_, hexec, h1, h2, o, h3, h4, h5, ?_, ?_, ?_, ?_⟩
    · rw [flitAddr, h6, f1, BitVec.ofNat_toNat, BitVec.setWidth_eq]
    · rw [h6, f2]
    · rw [h6, f3]
    · rw [h6, f4]

end

end Sys2Proof.Machine
end


section
/-!
PROOFS. CORE_BARRIER_JOIN (R203, R216, R245): the core's join, the member's join with the last of its cores, and the join that a node
receives with a parity error.
-/
namespace Sys2Proof.Machine

/-! ### The end of a core's streams -/

theorem closeLedger_passes (s : State) (c t : Nat) : (s.closeLedger c t).passes = s.passes := by
  unfold State.closeLedger
  refine List.foldlRecOn (motive := fun u : State => u.passes = s.passes) _ _ rfl fun u hu e _ => ?_
  exact (congrArg State.passes (ledger_onlyObs u c e _ _ _).rest).trans hu

theorem settleAll_passes (s : State) (c : Nat) : (s.settleAll c).passes = s.passes := by
  unfold State.settleAll
  split <;> rfl

theorem chargeEnd_passes (s : State) (c : Nat) : (s.chargeEnd c).passes = s.passes := by
  unfold State.chargeEnd
  split <;> rfl

theorem releaseCores_passes (s : State) (k : Nat) : (s.releaseCores k).passes = s.passes := by
  unfold State.releaseCores
  refine List.foldlRecOn (motive := fun u : State => u.passes = s.passes) _ _ rfl fun u hu c _ => ?_
  exact (settleAll_passes _ c).trans ((closeLedger_passes _ c _).trans ((chargeEnd_passes u c).trans hu))

theorem fn_exe_traceTo (s : State) (f : FnId) (ty cause : Byte) (b : List Byte) (g : Nat) :
    ((s.traceTo f ty cause b).fn g).exe = (s.fn g).exe := by
  unfold State.traceTo
  split
  · rfl
  · split
    · by_cases h : g = f.val
      · subst h
        rw [State.fn_emit, State.fn_updFn_same]
      · rw [State.fn_emit, State.fn_updFn_other _ _ h]
    · rfl

/-! ### The member's join -/

section
variable {s : State} {k : Nat} {p : Pass}

/-- A clean barrier of a member alone resolves (R216). -/
theorem barrierResult_alone (hp : s.pass k = some p) (hs : s.inSkein p = false) :
    ∃ q, (s.barrierResult k true).pass k = some q ∧ q.joined = p.joined ∧ q.resolved = true ∧ q.cleanKernels = p.cleanKernels + 1 ∧
      q.state = if p.kernel + 1 < (s.kernelsOf p.fn).length then p.state else .gating := by
  unfold State.barrierResult
  rw [hp]
  simp only [Bool.not_true, Bool.false_eq_true, if_false]
  generalize leBytes 4 p.number.toNat ++ leBytes 1 p.attempt ++ _ ++ leBytes 2 p.kernel ++ leBytes 8 s.clk.frame.toNat = b
  have hskein : (s.traceTo p.fn 0x22 (BitVec.ofNat 8 p.fn.val) b).inSkein p = false := by
    rw [traceTo_only]
    exact hs
  have hkernels : ∀ q : Pass, ((s.traceTo p.fn 0x22 (BitVec.ofNat 8 p.fn.val) b).setPass k q).kernelsOf p.fn = s.kernelsOf p.fn := by
    intro q
    simp only [State.kernelsOf, State.loaded, State.fn_setPass, fn_exe_traceTo]
  rw [hskein]
  simp only [Bool.false_eq_true, if_false, hkernels]
  split
  · exact ⟨_, State.pass_setPass_same .., rfl, rfl, rfl, rfl⟩
  · obtain ⟨u, hu⟩ : ∃ u, u = (s.traceTo p.fn 0x22 (BitVec.ofNat 8 p.fn.val) b).setPass k
        { p with resolved := true, cleanKernels := p.cleanKernels + 1 } := ⟨_, rfl⟩
    have hpass : (u.releaseCores k).pass k = some { p with resolved := true, cleanKernels := p.cleanKernels + 1 } := by
      rw [State.pass, releaseCores_passes, hu]
      exact State.pass_setPass_same ..
    rw [← hu]
    exact ⟨_, pass_setPassState hpass .gating, rfl, rfl, rfl, rfl⟩

theorem joinTry_alone (hp : s.pass k = some p) (hst : p.state = .running) (hj : p.joined = true) (hr : p.resolved = false)
    (hs : s.inSkein p = false) : s.joinTry k = s.barrierResult k p.clean := by
  simp [State.joinTry, hp, Pass.hasJoined, hst, hj, hr, hs]

theorem joinTry_waits (hp : s.pass k = some p) (hs : s.inSkein p = true)
    (hw : ∃ c ∈ s.stitchChildren, ∀ i ∈ s.skein.joins, i.val ≠ c) : s.joinTry k = s := by
  have hall : (s.stitchChildren.all fun c => s.skein.joins.any fun j => j.val == c) = false := by
    obtain ⟨c, hc, hi⟩ := hw
    exact List.all_eq_false.2 ⟨c, hc, by simpa using hi⟩
  simp only [State.joinTry, hp, hs, hall]
  split <;> rfl

theorem joinTry_member (hp : s.pass k = some p) (hst : p.state = .running) (hj : p.joined = true) (hr : p.resolved = false)
    (hs : s.inSkein p = true) (hroot : s.stitchRoot = false) (hall : ∀ c ∈ s.stitchChildren, ∃ i ∈ s.skein.joins, i.val = c) :
    s.joinTry k = s.sendTo [s.stitchParent] (barrierMsg 0x01 p.number p.kernel p.attempt (p.clean && s.skein.joinsClean)) := by
  have hall' : (s.stitchChildren.all fun c => s.skein.joins.any fun j => j.val == c) = true :=
    List.all_eq_true.2 fun c hc => by simpa using hall c hc
  simp [State.joinTry, hp, Pass.hasJoined, hst, hj, hr, hs, hroot, hall', Pass.barrierNo]

end

/-! ### The event -/

section
variable {s : State} {c : CoreId} {j : Job} {p : Pass} (hj : (s.core c.val).job = some j) (hp : s.pass j.pass = some p)
  (hjoined : (s.core c.val).joined = false) (hbar : (s.core c.val).atBarrier = true) (hquiet : s.quiet c.val j.pass = true)
  (hvecs : (s.core c.val).mx.vecs = []) (hfaults : (s.core c.val).faults = [])
include hj hjoined hbar hquiet hvecs hfaults

/-- Before a core joins, its writes of the slot group land. -/
theorem execCoreBarrierJoin_eq (n : Option CoreId) : ∃ u, OnlyLand s u c.val ∧
    execCoreBarrierJoin ⟨c, n⟩ s =
      let v := match n with
        | some n => u.raise (.core' n.val) .controlParity 0x83 (some j.pass)
        | none => u
      if (v.core c.val).job.isNone then .next v
      else
        let v := v.updCore c.val fun k => { k with joined := true }
        if (v.memberCores j.fn).all fun d => (v.core d).joined then
          .next ((v.updPass j.pass fun p => { p with joined := true }).joinTry j.pass)
        else .next v := by
  have hland := settle_onlyLand s c.val (s.nowCycle c.val + 32)
  refine ⟨_, hland, ?_⟩
  have hv : s.vectors c.val (2 ^ 40) = s := vectors_later (by simp [hvecs])
  have hr := ripen_none (2 ^ 40) (show ((s.settle c.val (s.nowCycle c.val + 32)).core c.val).faults = [] by rw [hland.core]; exact hfaults)
  unfold execCoreBarrierJoin
  simp only [hj, hjoined, hbar, hquiet, hv, hr]
  cases n <;> rfl

include hp in
/-- The core's join with no parity error. -/
theorem execCoreBarrierJoin_sound : ∃ v : State, v = { s with cores := v.cores, mem := v.mem } ∧ (v.core c.val).joined = true ∧
    (∀ d, d ≠ c.val → v.core d = s.core d) ∧ execCoreBarrierJoin ⟨c, none⟩ s =
      .next (if (s.memberCores j.fn).all fun d => (v.core d).joined then
        (v.setPass j.pass { p with joined := true }).joinTry j.pass else v) := by
  obtain ⟨u, hu, heq⟩ := execCoreBarrierJoin_eq hj hjoined hbar hquiet hvecs hfaults none
  have hjob : ((u.core c.val).job).isNone = false := by
    rw [hu.core, hj]
    rfl
  refine ⟨u.updCore c.val fun k => { k with joined := true }, by rw [hu.rest]; rfl,
    congrArg Core.joined (State.core_updCore_same u c.val fun k => { k with joined := true }),
    fun d hd => (State.core_updCore_other u _ hd).trans (hu.others d hd), ?_⟩
  have hpass : (u.updCore c.val fun k => { k with joined := true }).pass j.pass = some p := by
    rw [State.pass_updCore, hu.rest]
    exact hp
  have hmembers : (u.updCore c.val fun k => { k with joined := true }).memberCores j.fn = s.memberCores j.fn := by
    rw [hu.rest]
    rfl
  rw [heq]
  simp only [hjob, hmembers, State.updPass, hpass]
  exact (apply_ite Host.Outcome.next _ _ _).symm

end

/-- Settles O27: the join with a parity error, the join of a core of several, and that of the last in its three cases. -/
theorem coreBarrierJoin : Obligations.CoreBarrierJoin := by
  intro s c j p hj hp hjoined hbar hquiet hvecs hfaults
  refine ⟨fun n hst hr => ?_, ?_⟩
  · obtain ⟨u, hu, heq⟩ := execCoreBarrierJoin_eq hj hjoined hbar hquiet hvecs hfaults (some n)
    have hends : EndsPass .controlParity 0x83 := ⟨fun _ => rfl, by decide⟩
    have hrep : ∀ m, u.reporter m = s.reporter m := fun m => by rw [hu.rest]; rfl
    have hjob : (u.core c.val).job = some j := by
      rw [hu.core]
      exact hj
    have hroom : (u.reporter (Src.core' n.val).reporter).length < 16 := by
      rw [hrep]
      exact hr
    have hraised := raise_raised hends hroom (some j.pass)
    rw [Raised, hrep, show u.clk = s.clk by rw [hu.rest]] at hraised
    obtain ⟨habandoned, hnone⟩ := raise_ends hends hroom hjob (show u.pass j.pass = some p by rw [hu.rest]; exact hp) hst
    refine ⟨_, heq.trans (if_pos ?_), hraised, habandoned, hnone⟩
    rw [hnone]
    rfl
  · obtain ⟨v, hv, hself, hothers, heq⟩ := execCoreBarrierJoin_sound hj hp hjoined hbar hquiet hvecs hfaults
    refine ⟨fun ⟨d, hd, hne, hno⟩ => ?_, fun hall hst hres => ?_⟩
    · rw [if_neg fun hall => absurd (List.all_eq_true.1 hall d hd) (by rw [hothers d hne, hno]; decide)] at heq
      refine ⟨_, heq, hself, ?_⟩
      rw [hv]
      exact hp
    · rw [if_pos (List.all_eq_true.2 fun d hd => by
        by_cases hne : d = c.val
        · rw [hne, hself]
        · rw [hothers d hne, hall d hd hne])] at heq
      obtain ⟨q, hq⟩ : ∃ q : Pass, q = { p with joined := true } := ⟨_, rfl⟩
      have hqst : q.state = .running ∧ q.joined = true ∧ q.resolved = false ∧ q.clean = p.clean ∧ q.cleanKernels = p.cleanKernels ∧
          q.kernel = p.kernel ∧ q.number = p.number ∧ q.attempt = p.attempt ∧ q.fn = p.fn := by
        rw [hq]
        exact ⟨hst, rfl, hres, rfl, rfl, rfl, rfl, rfl, rfl⟩
      obtain ⟨q1, q2, q3, q4, q5, q6, q7, q8, q9⟩ := hqst
      obtain ⟨w, hw⟩ : ∃ w, w = v.setPass j.pass q := ⟨_, rfl⟩
      have hpass : w.pass j.pass = some q := by
        rw [hw]
        exact State.pass_setPass_same ..
      have hsame : w.inSkein q = s.inSkein p ∧ w.skein = s.skein ∧ w.stitchChildren = s.stitchChildren ∧
          w.stitchRoot = s.stitchRoot ∧ w.stitchParent = s.stitchParent ∧ w.ports = s.ports ∧ w.kernelsOf q.fn = s.kernelsOf p.fn := by
        rw [hw, hv, State.inSkein, q9]
        exact ⟨rfl, rfl, rfl, rfl, rfl, rfl, rfl⟩
      obtain ⟨h0, h1, h2, h3, h4, h5, h6⟩ := hsame
      rw [← hq, ← hw] at heq
      refine ⟨fun hno hclean => ?_, fun hyes hroot hkids => ?_, fun hyes hwait => ?_⟩
      · obtain ⟨r, hr, hrj, hrr, hrc, hrs⟩ := barrierResult_alone hpass (h0.trans hno)
        rw [joinTry_alone hpass q1 q2 q3 (h0.trans hno), q4, hclean] at heq
        exact ⟨_, heq, r, hr, hrj.trans q2, hrr, by rw [hrc, q5], by rw [hrs, q6, q1, h6]⟩
      · rw [joinTry_member hpass q1 q2 q3 (h0.trans hyes) (h3.trans hroot) (by rw [h2, h1]; exact hkids), h4, h1, q4, q6, q7, q8] at heq
        refine ⟨_, heq, ?_⟩
        rw [State.sendTo, List.foldl_cons, List.foldl_nil, State.port_updPort_same, State.port, h5]
        rfl
      · rw [joinTry_waits hpass (h0.trans hyes) (by rw [h2, h1]; exact hwait)] at heq
        exact ⟨_, heq, h5, q, hpass, q2, q3⟩

end Sys2Proof.Machine
end


section
/-!
PROOFS. Weft flits on the mesh (R228, R233 to R239): what a crossing leaves unchanged, and that a flit arrives where no router is
bypassed and every output is free.
-/
namespace Sys2Proof.Machine

/-! ### What a crossing leaves unchanged -/

/-- Flits that cross the mesh, wait at ports or have arrived, and observation counters, are all that differs. -/
structure Passed (s t : State) : Prop where
  rest : t = { s with cores := t.cores, inflight := t.inflight, ports := t.ports }
  core : ∀ b, t.core b = { s.core b with obs := (t.core b).obs }

theorem Passed.refl (s : State) : Passed s s := ⟨rfl, fun _ => rfl⟩

theorem Passed.trans {s t u : State} (h : Passed s t) (g : Passed t u) : Passed s u := by
  refine ⟨?_, fun b => ?_⟩
  · have h1 := g.rest
    rw [h.rest] at h1
    exact h1
  · have h1 := g.core b
    rw [h.core b] at h1
    exact h1

/-- Observation counters are all that differs. -/
structure Counted (s t : State) : Prop where
  rest : t = { s with cores := t.cores }
  core : ∀ b, t.core b = { s.core b with obs := (t.core b).obs }

theorem Counted.refl (s : State) : Counted s s := ⟨rfl, fun _ => rfl⟩

theorem Counted.trans {s t u : State} (h : Counted s t) (g : Counted t u) : Counted s u := by
  refine ⟨?_, fun b => ?_⟩
  · have h1 := g.rest
    rw [h.rest] at h1
    exact h1
  · have h1 := g.core b
    rw [h.core b] at h1
    exact h1

theorem Counted.passed {s t : State} (h : Counted s t) : Passed s t := by
  refine ⟨?_, h.core⟩
  have h1 := h.rest
  rw [h1]

theorem OnlyObs.counted {s t : State} {c : Nat} (h : OnlyObs s t c) : Counted s t := by
  refine ⟨h.rest, fun b => ?_⟩
  by_cases hb : b = c
  · exact hb ▸ h.core
  · rw [h.others b hb]

theorem countAt_onlyObs (s : State) (c : Nat) (eng : Option Nat) (code start len n : Nat) :
    OnlyObs s (s.countAt c eng code start len n) c := by
  unfold State.countAt
  split
  · exact OnlyObs.refl s c
  · refine onlyObs_foldl _ s c _ fun s i => ?_
    exact OnlyObs.ite (onlyObs_updCore s c _ fun k => rfl)

theorem counted_countAt (s : State) (c : Nat) (eng : Option Nat) (code start len n : Nat) : Counted s (s.countAt c eng code start len n) :=
  (countAt_onlyObs s c eng code start len n).counted

theorem passed_countNow (s : State) (c code : Nat) : Passed s (s.countNow c code) := (counted_countAt ..).passed

theorem passed_updPort (s : State) (p : Nat) (f : Port → Port) : Passed s (s.updPort p f) := ⟨rfl, fun _ => rfl⟩

theorem passed_inflight (s : State) (l : List WeftFlit) : Passed s { s with inflight := l } := ⟨rfl, fun _ => rfl⟩

theorem passed_egress (s : State) (p : Nat) (f : WeftFlit) : Passed s (s.egress p f) := by
  unfold State.egress
  split <;> exact passed_updPort ..

theorem passed_noRoute (s : State) (dst : BitVec 12) : Passed s (s.noRoute dst) := passed_updPort ..

theorem passed_landFlit (s : State) (f : WeftFlit) : Passed s (s.landFlit f) := by
  unfold State.landFlit
  split
  · exact passed_inflight ..
  · split
    · exact passed_egress ..
    · exact passed_noRoute ..

theorem passed_ite {s t u : State} (p : Prop) [Decidable p] (h : Passed s t) (g : Passed s u) : Passed s (if p then t else u) := by
  split
  · exact h
  · exact g

theorem counted_ite_fst {β : Type} {s : State} {a b : State × β} (p : Prop) [Decidable p] (h : Counted s a.1) (g : Counted s b.1) :
    Counted s (if p then a else b).1 := by
  split
  · exact h
  · exact g

theorem counted_transit (d : MeshDest) (taken : List WarpHop) (f : Nat) (s : State) (t : Transit) (free : List (BitVec 5)) (n : Nat) :
    Counted s (s.transit d taken none f t free n).1 := by
  induction f generalizing s t free n with
  | zero =>
    have h := counted_countAt s (48 * t.y + t.x) none 0x33 n 1 1
    simpa only [State.transit] using h
  | succ f ih =>
    rw [State.transit]
    simp only [Option.any_none, Bool.false_eq_true, if_false]
    have h := counted_countAt s (48 * t.y + t.x) none 0x31 n 1 1
    generalize s.countAt (48 * t.y + t.x) none 0x31 n 1 1 = u at h ⊢
    generalize u.placeWeft t d (openOuts taken (free.headD 0x1F) (48 * t.y + t.x) n) = placed
    obtain ⟨t', named, choice⟩ := placed
    have hdrop := h.trans (counted_countAt u (48 * t.y + t.x) none 0x33 n 1 1)
    dsimp only
    refine counted_ite_fst _ h ?_
    cases choice with
    | none => exact hdrop
    | some c =>
      obtain ⟨o, defl⟩ := c
      dsimp only
      have hd : Counted s (if defl = true then u.countAt (48 * t.y + t.x) none 0x32 n 1 1 else u) := by
        split
        · exact h.trans (counted_countAt ..)
        · exact h
      refine counted_ite_fst _ hdrop (counted_ite_fst _ hd ?_)
      generalize State.landAt _ 40 _ _ o = land
      cases land with
      | none => exact hd
      | some p => exact hd.trans (ih ..)

theorem counted_cross (s : State) (src dst : Nat) (free : List (BitVec 5)) (n : Nat) : Counted s (s.cross src dst free n none).1 := by
  unfold State.cross
  split
  · exact .refl s
  · exact counted_transit ..

theorem passed_sendReply (s : State) (f : WeftFlit) (src : Nat) : Passed s (s.sendReply f src) := by
  unfold State.sendReply
  split
  · exact passed_ite _ (passed_countNow ..) (passed_noRoute ..)
  · next node _ =>
    have h := (counted_cross s src node [] s.meshNow).passed
    split
    · next heq => exact (by rw [heq] at h; exact h : Passed s _).trans (passed_landFlit ..)
    · next heq => rw [heq] at h; exact h

theorem passed_carry (s : State) (f : WeftFlit) (src node : Nat) (free : List (BitVec 5)) (n : Nat) :
    Passed s (s.carry f src node free n none).1 := by
  have h := (counted_cross s src node free n).passed
  unfold State.carry
  split
  · next heq => rw [heq] at h; exact h
  · next heq => rw [heq] at h; exact h
  · next heq =>
    rw [heq] at h
    exact passed_ite _ (h.trans (passed_sendReply ..)) h

theorem counted_carry {s : State} {f : WeftFlit} {src node : Nat} {free : List (BitVec 5)} {n : Nat}
    (h : (s.carry f src node free n none).2 = true) : Counted s (s.carry f src node free n none).1 := by
  have hc := counted_cross s src node free n
  unfold State.carry at h ⊢
  split at h
  · next heq => simp only [heq] at hc ⊢; exact hc
  · exact nomatch h
  · exact nomatch h

/-! ### Arrival -/

/-- An output leads to a router that lies one hop nearer to the destination. -/
def Transit.Nearer (t : Transit) (d : MeshDest) (o : Nat) : Prop :=
  o < 4 ∧ ∃ a b, stepOut t.x t.y o = some (a, b) ∧ a < 48 ∧ b < 36 ∧ dist a d.x + dist b d.y + 1 = dist t.x d.x + dist t.y d.y

section
variable {t : Transit} {d : MeshDest} (hx : t.x < 48) (hy : t.y < 36) (hdx : d.x < 48) (hdy : d.y < 36)
include hx hy

include hdx in
theorem closer_fst_nearer {o : Nat} (h : (closer t d).1 = some o) : t.Nearer d o := by
  simp only [closer] at h
  split_ifs at h with h1 h2
  · obtain rfl := Option.some.inj h
    exact ⟨by decide, t.x + 1, t.y, by simp [stepOut]; omega, by omega, hy, by simp only [dist]; omega⟩
  · obtain rfl := Option.some.inj h
    exact ⟨by decide, t.x - 1, t.y, by simp [stepOut]; omega, by omega, hy, by simp only [dist]; omega⟩

include hdy in
theorem closer_snd_nearer {o : Nat} (h : (closer t d).2 = some o) : t.Nearer d o := by
  simp only [closer] at h
  split_ifs at h with h1 h2
  · obtain rfl := Option.some.inj h
    exact ⟨by decide, t.x, t.y + 1, by simp [stepOut]; omega, hx, by omega, by simp only [dist]; omega⟩
  · obtain rfl := Option.some.inj h
    exact ⟨by decide, t.x, t.y - 1, by simp [stepOut]; omega, hx, by omega, by simp only [dist]; omega⟩

include hdx hdy in
/-- The output that a flit's order names brings it nearer, unless it is there. -/
theorem namedOut_step : (t.x = d.x ∧ t.y = d.y ∧ namedOut t d = d.out) ∨ ¬(t.x = d.x ∧ t.y = d.y) ∧ t.Nearer d (namedOut t d) := by
  have hfst := fun o => closer_fst_nearer hx hy hdx (d := d) (o := o)
  have hsnd := fun o => closer_snd_nearer hx hy hdy (d := d) (o := o)
  by_cases hend : t.x = d.x ∧ t.y = d.y
  · exact .inl ⟨hend.1, hend.2, by simp [namedOut, closer, hend.1, hend.2]⟩
  · refine .inr ⟨hend, ?_⟩
    have hsome : (closer t d).1 ≠ none ∨ (closer t d).2 ≠ none := by
      simp only [closer]
      split_ifs <;> simp
      omega
    rw [namedOut]
    generalize closer t d = p at hfst hsnd hsome ⊢
    obtain ⟨a, b⟩ := p
    cases a with
    | none => cases b with
      | none => simp at hsome
      | some b => exact hsnd b rfl
    | some a => cases b with
      | none => exact hfst a rfl
      | some b =>
        dsimp only
        split
        · exact hsnd b rfl
        · exact hfst a rfl

end

section
variable {s : State} (hs : ∀ b, (s.core b).svc ≠ .bypassed)
include hs

theorem State.bypassed_false (b : Nat) : s.bypassed b = false := by simpa [State.bypassed] using hs b

theorem State.landAt_free {x y o : Nat} (f : Nat) : s.landAt (f + 1) x y o = stepOut x y o := by
  rw [State.landAt]
  cases h : stepOut x y o with
  | none => rfl
  | some p => simp [State.bypassed_false hs]

theorem Passed.not_bypassed {u : State} (h : Passed s u) (b : Nat) : (u.core b).svc ≠ .bypassed := by
  rw [h.core]
  exact hs b

end

theorem openOuts_free (here n : Nat) {o : Nat} (h : o < 5) : openOuts [] 31#5 here n o = true := by
  have hmask : (31#5).getLsbD o = true := by
    interval_cases o <;> rfl
  rw [openOuts, hmask]
  rfl

/-- A flit that no other is in the way of arrives. -/
theorem transit_arrives {d : MeshDest} (hdx : d.x < 48) (hdy : d.y < 36) (hout : d.out < 5) (f : Nat) (s : State)
    (hs : ∀ b, (s.core b).svc ≠ .bypassed) (t : Transit) (hx : t.x < 48) (hy : t.y < 36) (n : Nat)
    (hf : dist t.x d.x + dist t.y d.y < f) : (s.transit d [] none f t [] n).2.1 = .arrived := by
  induction f generalizing s t n with
  | zero => exact absurd hf (Nat.not_lt_zero _)
  | succ f ih =>
    rw [State.transit]
    simp only [Option.any_none, Bool.false_eq_true, if_false, List.headD_nil, List.drop_nil]
    have hu := (counted_countAt s (48 * t.y + t.x) none 0x31 n 1 1).passed.not_bypassed hs
    generalize s.countAt (48 * t.y + t.x) none 0x31 n 1 1 = u at hu ⊢
    have hb := State.bypassed_false hu
    have hmeets : ∀ o, u.meetsBypassed t d o = false := by
      intro o
      simp [State.meetsBypassed, hb]
    have hplace : u.permitted t d (namedOut t d) = true → namedOut t d < 5 →
        u.placeWeft t d (openOuts [] 0x1F (48 * t.y + t.x) n) = (t, namedOut t d, some (namedOut t d, false)) := by
      intro hp ho
      have hblocked : ∀ a b, u.turnBlocked t d a b = false := by
        intro a b
        simp [State.turnBlocked, hb]
      simp [State.placeWeft, hblocked, openOuts_free _ _ ho, hp]
    obtain ⟨hex, hey, hend⟩ | ⟨hne, hlt, a, b, hstep, ha, hb', hdist⟩ := namedOut_step hx hy hdx hdy
    · rw [hplace (by simp [State.permitted, hend, hex, hey]) (by omega)]
      simp [hmeets, hend, hex, hey]
    · rw [hplace (by
        have h4 : namedOut t d ≠ 4 := by omega
        have hd : ¬(d.out = namedOut t d ∧ t.x = d.x ∧ t.y = d.y) := fun h => hne h.2
        simp [State.permitted, h4, hd, State.landAt_free hu, hstep]) (by omega)]
      have hd : ¬(namedOut t d = d.out ∧ t.x = d.x ∧ t.y = d.y) := fun h => hne h.2
      simp only [hmeets, Bool.false_eq_true, if_false, false_and, hd, State.landAt_free hu, hstep]
      exact ih u hu { t with x := a, y := b } ha hb' _ (by simp only; omega)

end Sys2Proof.Machine
end


section
/-!
PROOFS. WEFT_INJECTION (R106, R235, R246, R266): the crossing of a flit between two nodes, whether it may leave its core, and what its
leaving does.
-/
namespace Sys2Proof.Machine

/-! ### From node to node -/

theorem ioBase_le (io : Nat) : ioBase io ≤ 24 := by
  unfold ioBase
  split <;> omega

theorem nodeX_lt {n : Nat} : nodeX n < 48 := by
  unfold nodeX coreX
  have := ioBase_le (nodeIo n)
  split <;> omega

theorem nodeY_lt {n : Nat} : nodeY n < 36 := by
  unfold nodeY coreY
  split
  · omega
  · split <;> omega

theorem attachColumn_lt (s : State) (x io : Nat) : s.attachColumn x io < 48 := by
  have hb := ioBase_le io
  have hcol : max (ioBase io) (min x (ioBase io + 23)) < 48 := by omega
  unfold State.attachColumn
  simp only
  generalize max (ioBase io) (min x (ioBase io + 23)) = col at hcol
  generalize hl : (if col < ioBase io + 12 then _ else _ : List Nat) = l
  have hmem : ∀ c ∈ l, c < 48 := by
    intro c hc
    rw [← hl] at hc
    split at hc
    · obtain ⟨i, hi, rfl⟩ := List.mem_map.1 hc
      have := List.mem_range.1 hi
      omega
    · obtain ⟨i, -, rfl⟩ := List.mem_map.1 hc
      omega
  cases hf : l.find? fun c => !s.bypassed (48 * (if io < 2 then 0 else 35) + c) with
  | none => exact hcol
  | some c => exact hmem c (List.mem_of_find?_eq_some hf)

theorem meshDest_out_lt (n : Nat) : (meshDest n).out < 5 := by
  simp only [meshDest]
  split_ifs <;> decide

section
variable {s : State} (hs : ∀ b, (s.core b).svc ≠ .bypassed) (hw : s.warpInFlight = [])
include hs hw

/-- With no bypassed router and no warp flit in the way, a flit reaches its node. -/
theorem cross_arrives (src dst n : Nat) : (s.cross src dst [] n none).2.1 = .arrived := by
  unfold State.cross
  split
  · rfl
  · simp only [hw, List.flatMap_nil]
    refine transit_arrives nodeX_lt nodeY_lt (meshDest_out_lt dst) 256 s hs _ ?_ nodeY_lt _ ?_
    · dsimp only
      split
      · exact nodeX_lt
      · exact attachColumn_lt ..
    · have h1 : (if src < 1728 then nodeX src else s.attachColumn (meshDest dst).x (nodeIo src)) < 48 := by
        split
        · exact nodeX_lt
        · exact attachColumn_lt ..
      have h2 := nodeY_lt (n := src)
      have h3 : (meshDest dst).x < 48 := nodeX_lt
      have h4 : (meshDest dst).y < 36 := nodeY_lt
      simp only [dist]
      omega

theorem carry_arrives (f : WeftFlit) (src dst n : Nat) : (s.carry f src dst [] n none).2 = true := by
  have h := cross_arrives hs hw src dst n
  unfold State.carry
  split
  · rfl
  · next heq => rw [heq] at h; exact nomatch h
  · next heq => rw [heq] at h; exact nomatch h

end

/-! ### Whether a flit may leave -/

/-- Injection asks for the output that the order names alone (R235). -/
theorem mayInject_iff (s : State) (c : Nat) (d : MeshDest) (free : List (BitVec 5)) (n : Nat) : s.mayInject c d free n = true ↔
    let t : Transit := { x := coreX c, y := coreY c, yFirst := false, defl := 0 }
    let blocked := s.turnBlocked t d t.yFirst true
    let both := blocked && s.turnBlocked t d (!t.yFirst) false
    let t := if blocked && !both then { t with yFirst := !t.yFirst } else t
    s.meetsBypassed t d (namedOut t d) = true ∨
      both = false ∧ openOuts (s.warpInFlight.flatMap (·.hops)) (free.headD 0x1F) c n (namedOut t d) = true ∧
        s.permitted t d (namedOut t d) = true := by
  unfold State.mayInject State.placeWeft
  simp only
  generalize (s.turnBlocked _ d false true) = blocked
  generalize (blocked && s.turnBlocked _ d (!false) false) = both
  generalize (if (blocked && !both) = true then _ else _ : Transit) = t
  split
  · next h => simp_all
  · next h =>
    have hnone : ∀ o : Option Nat, ((o.map fun o => (o, true)).any fun p => !p.2) = false := by
      intro o
      cases o <;> rfl
    simp only [hnone, Bool.or_false]
    constructor
    · exact .inl
    · rintro (h1 | ⟨h1, h2, h3⟩)
      · exact h1
      · simp_all

/-- Fewer warp flits take no output that was free. -/
theorem openOuts_mono {l l' : List WarpHop} (h : ∀ x ∈ l', x ∈ l) (m : BitVec 5) (r n o : Nat) (ho : openOuts l m r n o = true) :
    openOuts l' m r n o = true := by
  simp only [openOuts, Bool.and_eq_true, Bool.not_eq_true', List.any_eq_false] at ho ⊢
  exact ⟨ho.1, fun x hx => ho.2 x (h x hx)⟩

/-- Warp flits of one core, and those of its armed send entries. -/
def State.runsOf (s : State) (ck : Nat × Core) : List WarpRun :=
  (ck.2.hold.map fun h => ({ core := ck.1, held := some h, entry := 0, flit := 0,
                             hops := (s.warpWay h.src ck.1 (s.passBase h.pass + h.inj)).1 } : WarpRun)) ++
  (match ck.2.job with
    | none => []
    | some j => match (s.fn j.fn.val).exe with
      | none => []
      | some l => (ck.2.armed.filter fun a => a.send).flatMap fun a => s.sendRuns l (s.passBase j.pass) ck.1 a.entry a.lost)

theorem warpInFlight_eq (s : State) : s.warpInFlight = s.cores.flatMap s.runsOf := rfl

/-- Two states agree in every router's service state. -/
def SameService (s t : State) : Prop := ∀ b, (t.core b).svc = (s.core b).svc

section
variable {s t : State} (h : SameService s t)
include h

theorem SameService.bypassed (b : Nat) : t.bypassed b = s.bypassed b := by rw [State.bypassed, h b, State.bypassed]

theorem SameService.serving (b : Nat) : t.serving b = s.serving b := by rw [State.serving, h b, State.serving]

theorem SameService.cutHops (turns : List Nat) (dst : Nat) (l : List WarpHop) : t.cutHops turns dst l = s.cutHops turns dst l := by
  induction l with
  | nil => rfl
  | cons a l ih =>
    cases l with
    | nil => simp only [State.cutHops, h.serving]
    | cons b l => simp only [State.cutHops, h b.router, ih]

theorem SameService.warpWay (src dst inj : Nat) : t.warpWay src dst inj = s.warpWay src dst inj := by
  unfold State.warpWay
  cases warpHops src dst inj with
  | nil => rfl
  | cons a l => simp only [h a.router, h.cutHops]

theorem SameService.runsOf (hp : t.passes = s.passes) (hf : t.fns = s.fns) (ck : Nat × Core) : t.runsOf ck = s.runsOf ck := by
  have hbase : ∀ k, t.passBase k = s.passBase k := fun k => by rw [State.passBase, State.pass, hp]; rfl
  have hfn : ∀ k, t.fn k = s.fn k := fun k => by rw [State.fn, hf]; rfl
  simp only [State.runsOf, State.sendRuns, h.warpWay, hbase, hfn]

theorem SameService.landAt (f x y o : Nat) : t.landAt f x y o = s.landAt f x y o := by
  induction f generalizing x y with
  | zero => rfl
  | succ f ih => simp only [State.landAt, h.bypassed, ih]

theorem SameService.mayInject (hwarp : ∀ r ∈ t.warpInFlight, r ∈ s.warpInFlight) {c : Nat} {d : MeshDest} {free : List (BitVec 5)}
    {n : Nat} (hs : s.mayInject c d free n = true) : t.mayInject c d free n = true := by
  rw [mayInject_iff] at hs ⊢
  have hblock : ∀ a b e, t.turnBlocked a d b e = s.turnBlocked a d b e := by
    intro a b e
    simp only [State.turnBlocked, h.bypassed]
  have hmeets : ∀ a o, t.meetsBypassed a d o = s.meetsBypassed a d o := by
    intro a o
    simp only [State.meetsBypassed, h.bypassed]
  have hperm : ∀ a o, t.permitted a d o = s.permitted a d o := by
    intro a o
    simp only [State.permitted, h.landAt]
  simp only [hblock, hmeets, hperm] at hs ⊢
  refine hs.imp id fun ⟨h1, h2, h3⟩ => ⟨h1, openOuts_mono (fun x hx => ?_) _ _ _ _ h2, h3⟩
  obtain ⟨r, hr, hx⟩ := List.mem_flatMap.1 hx
  exact List.mem_flatMap.2 ⟨r, hwarp r hr, hx⟩

end

/-- A core that changes nothing of its warp flits brings none into flight. -/
theorem warpInFlight_updCore {s : State} {c : Nat} {f : Core → Core} (hf : ∀ k, (f k).hold = k.hold ∧ (f k).armed = k.armed ∧
      (f k).job = k.job ∧ (f k).svc = k.svc) {t : State} (hc : t.cores = (s.updCore c f).cores) (hp : t.passes = s.passes)
    (hn : t.fns = s.fns) : ∀ r ∈ t.warpInFlight, r ∈ s.warpInFlight := by
  have hcore : ∀ b, t.core b = (s.updCore c f).core b := fun b => by rw [State.core, hc]; rfl
  have hsvc : SameService s t := by
    intro b
    rw [hcore]
    by_cases hb : b = c
    · rw [hb, State.core_updCore_same]
      exact (hf _).2.2.2
    · rw [State.core_updCore_other _ _ hb]
  intro r hr
  rw [warpInFlight_eq] at hr ⊢
  obtain ⟨ck, hck, hr⟩ := List.mem_flatMap.1 hr
  rw [hsvc.runsOf hp hn] at hr
  rw [hc] at hck
  have hmem : ck = (c, f (s.core c)) ∨ ck ∈ s.cores := by
    rw [State.updCore, State.setCore, AMap.set] at hck
    split at hck
    · exact .inr (AMap.erase_sub _ _ _ hck)
    · exact (AMap.mem_ins hck).imp id (AMap.erase_sub _ _ _)
  obtain rfl | hmem := hmem
  · obtain ⟨hhold, harmed, hjob, -⟩ := hf (s.core c)
    have hsame : s.runsOf (c, f (s.core c)) = s.runsOf (c, s.core c) := by simp only [State.runsOf, hhold, harmed, hjob]
    rw [hsame] at hr
    by_cases hreset : s.core c = Core.reset
    · rw [hreset] at hr
      exact absurd hr List.not_mem_nil
    · exact List.mem_flatMap.2 ⟨_, AMap.mem_of_get_ne hreset, hr⟩
  · exact List.mem_flatMap.2 ⟨ck, hmem, hr⟩

/-! ### Leaving -/

theorem Passed.serving {s t : State} (h : Passed s t) (b : Nat) : t.serving b = s.serving b := by
  rw [State.serving, h.core b, State.serving]

theorem Passed.same {s t : State} (h : Passed s t) : t.txns = s.txns ∧ t.ops = s.ops ∧ t.mem = s.mem ∧ t.clk = s.clk ∧ t.replay = s.replay := by
  rw [h.rest]
  exact ⟨rfl, rfl, rfl, rfl, rfl⟩

/-- A request's transaction notes its transmission. -/
theorem transmitted_eq (s : State) (f : WeftFlit) : ∃ m, s.transmitted f = { s with txns := m } ∧
    (isRequest f.kind = true → ∀ x, s.txn f.tag = some x →
      AMap.get none m f.tag.toNat = some { x with sent := max 1 x.sent, at' := s.clk.timebase.toNat }) := by
  unfold State.transmitted
  split
  · next t ht =>
    split
    · refine ⟨_, rfl, fun _ x hx => ?_⟩
      obtain rfl := Option.some.inj (ht.symm.trans hx)
      exact AMap.get_set_same ..
    · next hk => exact ⟨s.txns, rfl, fun h => absurd h hk⟩
  · next hn => exact ⟨s.txns, rfl, fun _ x hx => nomatch hn.symm.trans hx⟩

section
variable {s : State} {c : CoreId} {cycle : Nat} {free : List (BitVec 5)} {o : OutFlit} {rest : List OutFlit}

theorem enterQueue_nil (h : (s.core c.val).staged = []) (t : Nat) : s.enterQueue c t = s := by
  rw [State.enterQueue, h]
  rfl

/-- The oldest flit of an injection queue behind which no other waits, in a cycle in which the core may inject. -/
theorem execWeftInjection_front (hserve : s.serving c.val = true) (hturn : s.scheduled = true ∨ cycle % 4 = c.val % 4)
    {u : State} (hu : s.enterQueue c cycle = u) (hq : (u.core c.val).injq = o :: rest) (hst : (u.core c.val).staged = [])
    (hstart : o.start ≤ cycle) {node : Nat} (hnode : u.flitNode (coreX c.val) o.flit = some node) :
    execWeftInjection c cycle ⟨free, none⟩ s =
      if u.mayInject c.val (meshDest node) free (u.kernelBase c.val + cycle) then
        let r := ((u.updCore c.val fun k => { k with injq := rest }).transmitted o.flit).carry o.flit c.val node free
          (u.kernelBase c.val + cycle) none
        .next (if r.2 then r.1.landFlit o.flit else r.1)
      else .next (u.countAt c.val none 0x34 (u.kernelBase c.val + cycle) 1 1) := by
  have hgo : (!s.serving c.val || !s.scheduled && cycle % 4 != c.val % 4) = false := by
    rw [hserve]
    obtain h | h := hturn <;> simp [h]
  have htake : (u.updCore c.val fun k => { k with injq := rest }).enterQueue c cycle = u.updCore c.val fun k => { k with injq := rest } := by
    refine enterQueue_nil ?_ cycle
    rw [State.core_updCore_same]
    exact hst
  unfold execWeftInjection
  simp only [hgo, hu, hq, hnode, htake, Nat.not_lt.2 hstart, Bool.false_eq_true, if_false]
  cases u.mayInject c.val (meshDest node) free (u.kernelBase c.val + cycle) with
  | false => rfl
  | true =>
    simp only [Bool.not_true, Bool.false_eq_true, if_false, if_true]
    generalize State.carry _ o.flit c.val node free _ none = r
    obtain ⟨v, b⟩ := r
    cases b <;> rfl

/-- What is left once the flit has gone. -/
theorem carry_leaves (node n : Nat) :
    let r := ((s.updCore c.val fun k => { k with injq := rest }).transmitted o.flit).carry o.flit c.val node free n none
    let t := if r.2 then r.1.landFlit o.flit else r.1
    (t.core c.val).injq = rest ∧ (t.core c.val).staged = (s.core c.val).staged ∧
      (isRequest o.flit.kind = true → ∀ x, s.txn o.flit.tag = some x →
        t.txn o.flit.tag = some { x with sent := max 1 x.sent, at' := s.clk.timebase.toNat }) ∧
      (free = [] → (∀ b, (s.core b).svc ≠ .bypassed) → s.warpInFlight = [] → o.flit.dst = s.moduleId →
        t.inflight = s.inflight ++ [o.flit]) := by
  intro r t
  obtain ⟨m, hm, hsent⟩ := transmitted_eq (s.updCore c.val fun k => { k with injq := rest }) o.flit
  obtain ⟨v, hv⟩ : ∃ v, v = (s.updCore c.val fun k => { k with injq := rest }).transmitted o.flit := ⟨_, rfl⟩
  rw [← hv] at hm
  have hr : Passed v r.1 := hv ▸ passed_carry v o.flit c.val node free n
  have ht : Passed v t := by
    show Passed v (if r.2 then r.1.landFlit o.flit else r.1)
    split
    · exact hr.trans (passed_landFlit ..)
    · exact hr
  have hcore : v.core c.val = { s.core c.val with injq := rest } := by
    rw [hm]
    exact State.core_updCore_same s c.val fun k => { k with injq := rest }
  refine ⟨?_, ?_, fun hk x hx => ?_, fun hfree hs hw hdst => ?_⟩
  · rw [ht.core, hcore]
  · rw [ht.core, hcore]
  · rw [State.txn, ht.same.1, hm]
    exact hsent hk x hx
  · have hcores : v.cores = (s.updCore c.val fun k => { k with injq := rest }).cores := by rw [hm]
    have hwarp : v.warpInFlight = [] := List.eq_nil_iff_forall_not_mem.2 fun x hx => by
      have := warpInFlight_updCore (s := s) (c := c.val) (f := fun k => { k with injq := rest }) (fun k => ⟨rfl, rfl, rfl, rfl⟩) hcores
        (by rw [hm]; rfl) (by rw [hm]; rfl) x hx
      rw [hw] at this
      exact absurd this List.not_mem_nil
    have hbyp : ∀ b, (v.core b).svc ≠ .bypassed := by
      intro b
      by_cases hb : b = c.val
      · rw [hb, hcore]
        exact hs c.val
      · rw [hm]
        show ((s.updCore c.val fun k => { k with injq := rest }).core b).svc ≠ _
        rw [State.core_updCore_other _ _ hb]
        exact hs b
    have harr : r.2 = true := by
      subst hfree
      show (State.carry _ _ _ _ _ _ _).2 = true
      rw [← hv]
      exact carry_arrives hbyp hwarp o.flit c.val node n
    have hcount : Counted v r.1 :=
      hv ▸ counted_carry (s := v) (f := o.flit) (src := c.val) (node := node) (free := free) (n := n) (by rw [hv]; exact harr)
    have hland : t = r.1.landFlit o.flit := by
      show (if r.2 then r.1.landFlit o.flit else r.1) = _
      rw [harr]
      rfl
    have hid : r.1.moduleId = s.moduleId := by
      rw [hcount.rest, hm]
      rfl
    have hinf : r.1.inflight = s.inflight := by
      rw [hcount.rest, hm]
      rfl
    rw [hland, State.landFlit, if_pos (hdst.trans hid.symm), hinf]

end

end Sys2Proof.Machine
end


section
/-!
PROOFS. A request takes a free tag as it enters the injection queue, and leaves in the same cycle (R106, R266).
-/
namespace Sys2Proof.Machine

/-! ### Free tags -/

section
variable {α : Type}

theorem freeKey_le (l : AMap α) (n : Nat) : n ≤ freeKey l n ∧ freeKey l n ≤ n + l.length := by
  induction l generalizing n with
  | nil => simp [freeKey]
  | cons p l ih =>
    obtain ⟨k, v⟩ := p
    rw [freeKey]
    have h := ih (n + 1)
    simp only [List.length_cons]
    split <;> omega

theorem AMap.get_of_above {d : α} {m : AMap α} {k : Nat} (h : ∀ x ∈ m, k < x.1) : AMap.get d m k = d := by
  induction m with
  | nil => rfl
  | cons p m ih =>
    obtain ⟨k', v⟩ := p
    have hk : k < k' := h _ List.mem_cons_self
    rw [AMap.get, if_neg (by omega)]
    exact ih fun x hx => h x (List.mem_cons_of_mem _ hx)

/-- The lowest number that no key holds is free. -/
theorem get_freeKey [DecidableEq α] {d : α} {m : AMap α} {n : Nat} (hm : AMap.wf d m = true) (hn : ∀ x ∈ m, n ≤ x.1) :
    AMap.get d m (freeKey m n) = d := by
  induction m generalizing n with
  | nil => rfl
  | cons p m ih =>
    obtain ⟨k, v⟩ := p
    simp only [AMap.wf, Bool.and_eq_true] at hm
    obtain ⟨⟨habove, -⟩, hm⟩ := hm
    have habove := AMap.above_iff.1 habove
    rw [freeKey]
    split
    · next hk =>
      subst hk
      have hle := (freeKey_le m (k + 1)).1
      rw [AMap.get, if_neg (by omega)]
      exact ih hm fun x hx => habove x hx
    · next hk =>
      have hlt : n < k := lt_of_le_of_ne (hn _ List.mem_cons_self) (Ne.symm hk)
      exact AMap.get_of_above fun x hx => (List.mem_cons.1 hx).elim (fun h => h ▸ hlt) fun h => hlt.trans (habove x h)

end

/-! ### A request enters alone -/

section
variable {s : State} {c : CoreId} {cycle : Nat} {o : OutFlit}

/-- The tag that the next request gets. -/
def State.nextTag (s : State) : BitVec 14 := BitVec.ofNat 14 (freeKey s.txns 0)

theorem State.nextTag_toNat (h : s.txns.length < 16384) : s.nextTag.toNat = freeKey s.txns 0 := by
  have := (freeKey_le s.txns 0).2
  rw [State.nextTag, BitVec.toNat_ofNat, Nat.mod_eq_of_lt (by omega)]

/-- A request enters an empty queue with a tag of its own, and is an outstanding transaction. -/
theorem enterQueue_request (hst : (s.core c.val).staged = [o]) (hq : (s.core c.val).injq = []) (hr : isRequest o.flit.kind = true)
    (ha : o.flit.attempt = 0) (hstart : o.start ≤ cycle) (hlen : s.txns.length < 16384) :
    ∃ x : Txn, x.flit = { o.flit with tag := s.nextTag } ∧ x.core = c ∧ x.op = o.op ∧ x.localAddr = o.localAddr ∧ x.sent = 0 ∧
      x.replied = false ∧ s.enterQueue c cycle = { s.updCore c.val fun k => { k with
        staged := [], injq := k.injq ++ [{ o with flit := { o.flit with tag := s.nextTag } }], room := max k.room cycle } with
          txns := AMap.set none s.txns s.nextTag.toNat (some x) } := by
  have hb : ¬s.blocks c cycle o := by
    rw [State.blocks, hq, List.length_nil]
    omega
  rw [State.nextTag_toNat hlen, State.enterQueue, hst, List.length_singleton, (State.enterQueueN_cons hst cycle 0).2 hb, State.enterQueueN]
  unfold State.enterOne
  simp only [hr, ha, Bool.true_and, beq_self_eq_true, if_true]
  exact ⟨_, rfl, rfl, rfl, rfl, rfl, rfl, rfl⟩

/-- A request that finds no free tag stays where it is. -/
theorem enterQueue_full (hst : (s.core c.val).staged = [o]) (hr : isRequest o.flit.kind = true) (ha : o.flit.attempt = 0)
    (hlen : s.txns.length = 16384) : s.enterQueue c cycle = s := by
  rw [State.enterQueue, hst, List.length_singleton, (State.enterQueueN_cons hst cycle 0).1 ?_]
  exact .inr (.inr ⟨by simp [hr, ha], by omega⟩)

theorem execWeftInjection_empty (hq : (s.core c.val).injq = []) (hs : s.enterQueue c cycle = s) (free : List (BitVec 5)) :
    execWeftInjection c cycle ⟨free, none⟩ s = .next s := by
  unfold execWeftInjection
  split
  · rfl
  · simp only [hs, hq]

theorem kernelBase_congr {t : State} {b : Nat} (hj : (t.core b).job = (s.core b).job) (hp : t.passes = s.passes) (hk : t.clk = s.clk) :
    t.kernelBase b = s.kernelBase b := by
  simp only [State.kernelBase, State.pass, hj, hp, hk]

/-- A request's node does not depend on its tag. -/
theorem flitNode_tag {t : State} (hm : t.moduleId = s.moduleId) (hb : ∀ b, t.bypassed b = s.bypassed b) (hr : ∀ d, t.route d = s.route d)
    {f : WeftFlit} (hk : isRequest f.kind = true) (tag : BitVec 14) (x : Nat) :
    t.flitNode x { f with tag := tag } = s.flitNode x f := by
  have hcol : t.attachColumn = s.attachColumn := by
    funext x io
    simp only [State.attachColumn, hb]
  simp only [State.flitNode, hm, hk, hr, hcol, if_true]
  rfl

end

/-- Settles O28: the flit that waits in the queue, and the request that enters it in the same cycle. -/
theorem weftInjection : Obligations.WeftInjection := by
  intro s c cycle free o rest hserve
  refine ⟨fun hsched hcyc => ?_, fun hturn hstart node hnode => ⟨fun hq hst => ?_, fun hq hst hr ha => ⟨fun hlen => ?_, fun hlen hopen => ?_⟩⟩⟩
  · show execWeftInjection c cycle ⟨free, none⟩ s = _
    rw [execWeftInjection, if_pos]
    simp [hserve, hsched, hcyc]
  · have hexec := execWeftInjection_front (free := free) hserve hturn (enterQueue_nil hst cycle) hq hst hstart hnode
    refine ⟨fun hopen => hexec.trans ?_, fun hopen => ?_⟩
    · rw [if_neg (by rw [hopen]; decide)]
    · rw [if_pos hopen] at hexec
      obtain ⟨h1, -, h3, h4⟩ := carry_leaves (s := s) (c := c) (free := free) (o := o) (rest := rest) node (s.kernelBase c.val + cycle)
      exact ⟨_, hexec, h1, h3, fun hclear => h4 hclear.1 hclear.2.1 hclear.2.2.1 hclear.2.2.2.1⟩
  · have hfull := enterQueue_full (cycle := cycle) hst hr ha hlen
    exact execWeftInjection_empty hq hfull free
  · obtain ⟨x, hxf, hxc, hxo, hxl, hxs, hxr, hu⟩ := enterQueue_request hst hq hr ha hstart hlen
    obtain ⟨u, hu'⟩ : ∃ u, u = s.enterQueue c cycle := ⟨_, rfl⟩
    rw [← hu'] at hu
    have hcore : u.core c.val = { s.core c.val with staged := []
                                                    injq := (s.core c.val).injq ++ [{ o with flit := { o.flit with tag := s.nextTag } }]
                                                    room := max (s.core c.val).room cycle } := by
      rw [hu]
      exact State.core_updCore_same s c.val fun k => { k with
        staged := [], injq := k.injq ++ [{ o with flit := { o.flit with tag := s.nextTag } }], room := max k.room cycle }
    have hother : ∀ b, b ≠ c.val → u.core b = s.core b := by
      intro b hb
      rw [hu]
      exact State.core_updCore_other s (fun k => { k with
        staged := [], injq := k.injq ++ [{ o with flit := { o.flit with tag := s.nextTag } }], room := max k.room cycle }) hb
    have hsvc : SameService s u := by
      intro b
      by_cases hb : b = c.val
      · rw [hb, hcore]
      · rw [hother b hb]
    have hid : u.moduleId = s.moduleId ∧ (∀ d, u.route d = s.route d) ∧ u.passes = s.passes ∧ u.fns = s.fns ∧ u.clk = s.clk ∧
        u.inflight = s.inflight := by
      rw [hu]
      exact ⟨rfl, fun _ => rfl, rfl, rfl, rfl, rfl⟩
    obtain ⟨h1, h2, h3, h4, h5, h6⟩ := hid
    have hwarp : ∀ r ∈ u.warpInFlight, r ∈ s.warpInFlight := by
      refine warpInFlight_updCore (s := s) (c := c.val) (f := fun k => { k with
        staged := [], injq := k.injq ++ [{ o with flit := { o.flit with tag := s.nextTag } }], room := max k.room cycle })
        (fun k => ⟨rfl, rfl, rfl, rfl⟩) ?_ h3 h4
      rw [hu]
    have hbase : u.kernelBase c.val = s.kernelBase c.val :=
       kernelBase_congr (by rw [hcore]) h3 h5
    have hnode' : u.flitNode (coreX c.val) { o.flit with tag := s.nextTag } = some node :=
      (flitNode_tag h1 hsvc.bypassed h2 hr s.nextTag _).trans hnode
    have hexec := execWeftInjection_front (free := free) (o := { o with flit := { o.flit with tag := s.nextTag } }) (rest := []) hserve hturn
      hu'.symm (by rw [hcore, hq]; rfl) (by rw [hcore]) hstart hnode'
    rw [if_pos (hsvc.mayInject hwarp (by rw [hbase]; exact hopen))] at hexec
    obtain ⟨g1, g2, g3, g4⟩ := carry_leaves (s := u) (c := c) (free := free) (o := { o with flit := { o.flit with tag := s.nextTag } })
      (rest := []) node (u.kernelBase c.val + cycle)
    have htxn : u.txn s.nextTag = some x := by
      rw [State.txn, hu]
      exact AMap.get_set_same none s.txns s.nextTag.toNat (some x)
    refine ⟨_, hexec, g1, g2.trans (by rw [hcore]), s.nextTag, _, g3 hr x htxn, hxf, hxc, hxo, hxl, by rw [hxs]; rfl, hxr, fun hwf => ?_, fun hclear => ?_⟩
    · rw [State.txn, State.nextTag_toNat hlen]
      exact get_freeKey hwf fun y _ => Nat.zero_le _
    · obtain ⟨c1, c2, c3, c4, -⟩ := hclear
      rw [hxf, ← h6]
      exact g4 c1 (fun b => by rw [hsvc b]; exact c2 b)
        (List.eq_nil_iff_forall_not_mem.2 fun y hy => absurd (hwarp y hy) (by rw [c3]; exact List.not_mem_nil)) (c4.trans h1.symm)

end Sys2Proof.Machine
end


section
/-!
PROOFS. Weft requests at their target (R174, R205, R238, R269): the flit that a command takes, the replay record, and what each request
does.
-/
namespace Sys2Proof.Machine

/-! ### The flit of a command -/

theorem passed_carryTo {s : State} {f : WeftFlit} {src node : Nat} {free : List (BitVec 5)} {n : Nat} {r : State × Bool}
    (h : s.carry f src node free n none = r) : Passed s r.1 := h ▸ passed_carry ..

theorem passed_fromPort (s : State) (p : Nat) (f : WeftFlit) (free : List (BitVec 5)) : Passed s (s.fromPort p f free).1 := by
  unfold State.fromPort
  dsimp only
  split
  · split
    · exact passed_ite _ (.refl s) (passed_countNow ..)
    · exact passed_carry ..
  · split
    · exact passed_updPort ..
    · split
      · exact passed_updPort ..
      · split
        · next heq => exact (passed_carryTo heq).trans (passed_egress ..)
        · next heq => exact passed_carryTo heq

theorem passed_ingressAdd (s : State) (p : Nat) (f : WeftFlit) : Passed s (s.ingressAdd p f) :=
  passed_ite _ (passed_updPort ..) (passed_updPort ..)

theorem passed_atPort (s : State) (p : Nat) (f : WeftFlit) (free : List (BitVec 5)) : Passed s (s.atPort p f free).1 := by
  unfold State.atPort
  split
  · exact passed_ingressAdd ..
  · exact passed_fromPort ..

section
variable {s s' : State} {v : WeftVia} {ty : WType} {f : WeftFlit}

theorem State.Taken.passed (h : s.Taken v ty s' f) : Passed s s' := by
  obtain ⟨-, h⟩ := h
  cases v with
  | mesh g =>
    obtain ⟨-, -, rfl⟩ := h
    exact passed_inflight ..
  | port p hdr payload free =>
    obtain ⟨-, -, -, -, -, h⟩ := h
    have := passed_atPort s p.val f free
    rwa [h] at this

/-- The link flit of a usable port. -/
theorem linkFlit_sound {p : Nat} {hdr : W64} {payload : BitVec 512} (hu : (s.port p).usable = true) (hc : fld hdr 0 2 = 1)
    (hok : linkOk hdr payload = true) : s.linkFlit p hdr payload = some (s, some (weftOfLink hdr payload (1728 + 24 * (p / 8)))) := by
  have hd : ((s.port p).state == .disabled) = false := by
    unfold Port.usable at hu
    cases hst : (s.port p).state <;> simp_all
  simp [State.linkFlit, hd, hc, hok, hu]

theorem State.Taken.takeWeft (h : s.Taken v ty s' f) : s.takeWeft v ty = some (s', some f) := by
  obtain ⟨hk, h⟩ := h
  cases v with
  | mesh g =>
    obtain ⟨rfl, hmem, rfl⟩ := h
    simp [State.takeWeft, hmem, hk]
  | port p hdr payload free =>
    obtain ⟨hu, hc, hok, hf, hd, h⟩ := h
    simp only [State.takeWeft, linkFlit_sound hu hc hok, ← hf, hk, hd, h]
    simp

end

/-! ### What the passing of flits leaves -/

section
variable {s t : State} (h : Passed s t)
include h

theorem Passed.resolve (f : FnId) (a : MAddr) (n : Nat) : t.resolve f a n = s.resolve f a n := by
  rw [h.rest]
  rfl

theorem Passed.ownerOf (c : Nat) : t.ownerOf c = s.ownerOf c := by
  rw [h.rest]
  rfl

theorem Passed.moduleId : t.moduleId = s.moduleId := by
  rw [h.rest]
  rfl

theorem Passed.pass (k : Nat) : t.pass k = s.pass k := by
  rw [h.rest]
  rfl

theorem Passed.job (c : Nat) : (t.core c).job = (s.core c).job := by rw [h.core]

theorem Passed.queue (c : Nat) : (t.core c).queue = (s.core c).queue := by rw [h.core]

theorem Passed.injq (c : Nat) : (t.core c).injq = (s.core c).injq := by rw [h.core]

theorem Passed.counter (c n : Nat) : t.counter c n = s.counter c n := by rw [State.counter, h.core, State.counter]

theorem Passed.recorded (f : WeftFlit) : t.recorded f = s.recorded f := by
  rw [h.rest]
  rfl

theorem Passed.nowCycle (c : Nat) : t.nowCycle c = s.nowCycle c := by
  have hclk := h.same.2.2.2.1
  simp only [State.nowCycle, h.job, h.pass, hclk]

end

/-! ### The target -/

section
variable {s : State} {f : WeftFlit} {n : Nat} {spaces : List Nat} {via : WeftVia} {run : State → Nat → Nat → State}

/-- A core that is not in service answers a request with FENCED_TARGET. -/
theorem target_fenced (hc : aCore (flitAddr f) < 1728) (h5 : aSpace (flitAddr f) ≠ 5) (hs : s.serving (aCore (flitAddr f)) = false) :
    s.target f n spaces via run = s.sendReply (fencedReply s (aCore (flitAddr f)) f
      (if (s.core (aCore (flitAddr f))).svc = .fenced then 0x01 else 0x02)) (aCore (flitAddr f)) := by
  simp only [State.target, h5, if_false, Nat.not_le.2 hc, hs, Bool.not_false, if_true]

/-- A first attempt at a core in service, in a region of the pass that runs there, is carried out. -/
theorem target_runs (hc : aCore (flitAddr f) < 1728) (h5 : aSpace (flitAddr f) ≠ 5) (hs : s.serving (aCore (flitAddr f)) = true)
    (ha : f.attempt = 0) (hfull : s.recordFull f = false) {k : Nat} {p : Pass} (ho : s.ownerOf (aCore (flitAddr f)) = some (k, p))
    (hsp : aSpace (flitAddr f) ∈ spaces) (hoff : f.kind = .increment → aOff (flitAddr f) < 0x200) {r a : Nat}
    (hr : s.resolve p.fn (flitAddr f) n = .ok (r, a)) : s.target f n spaces via run = run s (aCore (flitAddr f)) a := by
  have hrep : ¬(f.attempt ≠ 0 ∧ f.kind ≠ .readReq) := fun h => h.1 ha
  have hden : (!spaces.contains (aSpace (flitAddr f)) || (f.kind == .increment && decide (0x200 ≤ aOff (flitAddr f)))) = false := by
    by_cases hk : f.kind = .increment
    · simp [hsp, hk, hoff hk]
    · simp [hsp, hk]
  simp only [State.target, h5, if_false, Nat.not_le.2 hc, hs, Bool.not_true, Bool.false_eq_true, hrep, hfull, Bool.and_false, ho, hden, hr]

end

/-! ### The replay record -/

section
variable {s : State} {f : WeftFlit}

theorem evictOne_length {give : Replay → Bool} {l : List Replay} (h : l.all (fun r => !give r) = false) :
    (evictOne give l).length + 1 = l.length := by
  induction l with
  | nil => exact nomatch h
  | cons r l ih =>
    rw [evictOne]
    split
    · rfl
    · next hr =>
      simp only [List.all_cons, hr, Bool.not_false, Bool.true_and] at h
      rw [List.length_cons, List.length_cons, ih h]

theorem mem_evictOne {give : Replay → Bool} {l : List Replay} {r : Replay} (h : r ∈ evictOne give l) : r ∈ l := by
  induction l with
  | nil => exact h
  | cons q l ih =>
    rw [evictOne] at h
    split at h
    · exact List.mem_cons_of_mem _ h
    · exact (List.mem_cons.1 h).elim (fun e => e ▸ List.mem_cons_self) fun h => List.mem_cons_of_mem _ (ih h)

/-- The entries that stay as one is stored. -/
def State.keptRecord (s : State) (f : WeftFlit) : List Replay :=
  if 4096 ≤ (s.unrecord f).replay.length then evictOne (s.unrecord f).evictable (s.unrecord f).replay else (s.unrecord f).replay

theorem record_eq (s : State) (f : WeftFlit) (keep : Bool) (reply : Option WeftFlit) : s.record f keep reply =
    if 4096 ≤ (s.keptRecord f).length then s.unrecord f
    else { s with replay := s.keptRecord f ++
             [{ src := f.src, tag := f.tag, keep := keep, reply := reply, at' := s.clk.timebase.toNat }] } := rfl

theorem record_rest (s : State) (f : WeftFlit) (keep : Bool) (reply : Option WeftFlit) :
    s.record f keep reply = { s with replay := (s.record f keep reply).replay } := by
  rw [record_eq]
  split <;> rfl

theorem unrecord_not_key {r : Replay} (h : r ∈ (s.unrecord f).replay) : (r.src == f.src && r.tag == f.tag) = false := by
  simpa only [Bool.not_eq_true'] using (List.mem_filter.1 h).2

theorem unrecorded (s : State) (f : WeftFlit) : (s.unrecord f).recorded f = none :=
  List.find?_eq_none.2 fun r hr => by simpa using unrecord_not_key hr

theorem keptRecord_sub {r : Replay} (h : r ∈ s.keptRecord f) : r ∈ (s.unrecord f).replay := by
  unfold State.keptRecord at h
  split at h
  · exact mem_evictOne h
  · exact h

/-- An entry that is stored is the one of its key. -/
theorem record_stored (hlen : (s.keptRecord f).length < 4096) (keep : Bool) (reply : Option WeftFlit) :
    (s.record f keep reply).recorded f =
      some { src := f.src, tag := f.tag, keep := keep, reply := reply, at' := s.clk.timebase.toNat } := by
  rw [record_eq, if_neg (Nat.not_le.2 hlen)]
  have hnone : (s.keptRecord f).find? (fun r => r.src == f.src && r.tag == f.tag) = none :=
    List.find?_eq_none.2 fun r hr => by simpa using unrecord_not_key (keptRecord_sub hr)
  simp [State.recorded, List.find?_append, hnone]

theorem unrecord_length (s : State) (f : WeftFlit) : (s.unrecord f).replay.length ≤ s.replay.length := List.length_filter_le ..

/-- With room, or an entry that may give way, an entry is stored. -/
theorem keptRecord_length (hlen : s.replay.length ≤ 4096) (hfull : s.recordFull f = false) : (s.keptRecord f).length < 4096 := by
  have hle := unrecord_length s f
  unfold State.keptRecord
  split
  · next h =>
    have hall : (s.unrecord f).replay.all (fun r => !(s.unrecord f).evictable r) = false := by
      simpa [State.recordFull, h] using hfull
    have := evictOne_length hall
    omega
  · omega

theorem keptRecord_length_of_lt (hlen : s.replay.length < 4096) : (s.keptRecord f).length < 4096 := by
  have hle := unrecord_length s f
  unfold State.keptRecord
  rw [if_neg (by omega)]
  omega

end

/-! ### Replies of a core -/

/-- A core in service with room in its queue takes the reply. -/
theorem reply_queued {s : State} {c : Nat} (hs : s.serving c = true) (hr : (s.core c).injq.length < 16) (f : WeftFlit) :
    s.reply c f = s.updCore c fun k => { k with injq := k.injq ++ [{ flit := f, start := 0, eng := .fxe, op := 0, localAddr := none }] } := by
  simp [State.reply, hs, Nat.not_le.2 hr]

/-! ### The queue of a core -/

section
variable {s : State} {c : Nat} (a : QAccess)

theorem enqueue_joins (h : (s.core c).queue.length < 8) : s.enqueue c a = s.updCore c fun k => { k with queue := k.queue ++ [a] } :=
  if_neg (by omega)

theorem enqueue_drops (h : (s.core c).queue.length = 8) : Passed s (s.enqueue c a) := by
  rw [State.enqueue, if_pos (by omega)]
  exact passed_countNow ..

end

/-- The access that a request asks for. -/
def accessOf (kind : QKind) (f : WeftFlit) (a : Nat) : QAccess :=
  match kind with
  | .write => { kind := .write, addr := a, data := flitBytes f 8 (min 56 (flitCount f)), len := min 56 (flitCount f), flit := some f, fn := 0 }
  | .read => { kind := .read, addr := a, data := [], len := flitCount f, flit := some f, fn := 0 }
  | _ => { kind := .atomic, addr := a, data := flitBytes f 8 16, len := 8, flit := some f, fn := 0 }

/-- Settles O29: a fenced target, an access that joins a core's queue or finds it full, and an increment. -/
theorem weftRequests : Obligations.WeftRequests := by
  intro s s' v f c hc
  refine ⟨fun i hi htaken h5 hs => ?_, fun k p r a hs ha ho => ⟨fun i hi htaken hfull hlen hsp hr => ?_, fun htaken hfull hlen hsp hoff hr => ?_⟩⟩
  · have hs' : s'.serving c = false := (htaken.passed.serving c).trans hs
    simp only [List.mem_cons, List.not_mem_nil, or_false] at hi
    obtain rfl | rfl | rfl | rfl := hi
    · show execWeftWrite v s = _
      simp only [execWeftWrite, htaken.takeWeft, target_fenced hc h5 hs']
      rfl
    · show execWeftReadRequest v s = _
      simp only [execWeftReadRequest, htaken.takeWeft, target_fenced hc h5 hs']
      rfl
    · show execWeftAtomic v s = _
      simp only [execWeftAtomic, htaken.takeWeft, target_fenced hc h5 hs']
      rfl
    · show execWeftCounterIncrement v s = _
      simp only [execWeftCounterIncrement, htaken.takeWeft, target_fenced hc h5 hs']
      rfl
  · have h := htaken.passed
    have h5 : aSpace (flitAddr f) ≠ 5 := by omega
    have hkind : f.kind ≠ .increment := by
      simp only [List.mem_cons, List.not_mem_nil, or_false] at hi
      obtain rfl | rfl | rfl := hi <;> exact fun hk => nomatch htaken.1.symm.trans hk
    have hlen' : s'.replay.length ≤ 4096 := by rw [h.same.2.2.2.2]; exact hlen
    have hq := h.queue c
    have hruns : ∀ (n : Nat) (l : List Nat), aSpace (flitAddr f) ∈ l → s.resolve p.fn (flitAddr f) n = .ok (r, a) →
        ∀ run, s'.target f n l v run = run s' c a := fun n l hl hn run =>
      target_runs hc h5 ((h.serving c).trans hs) ha hfull ((h.ownerOf c).trans ho) hl (fun hk => absurd hk hkind)
        ((h.resolve p.fn (flitAddr f) n).trans hn)
    simp only [List.mem_cons, List.not_mem_nil, or_false] at hi
    obtain rfl | rfl | rfl := hi
    · have hexec : exec (.weftWrite v) s = .next (s'.enqueue c (accessOf .write f a)) := by
        show execWeftWrite v s = _
        simp only [execWeftWrite, htaken.takeWeft]
        exact congrArg _ (hruns (flitCount f) [1, 2] (by simpa using hsp) hr _)
      refine ⟨fun hroom => ?_, fun hfl => ?_⟩
      · rw [enqueue_joins _ (by rw [hq]; exact hroom)] at hexec
        refine ⟨_, hexec, ⟨_, by rw [State.core_updCore_same, hq], rfl, rfl, rfl, fun _ => rfl, fun hk => ?_, fun hk => ?_⟩, fun hk => ?_⟩
        · exact nomatch hk
        · exact nomatch hk
        · exact nomatch hk
      · have hd := enqueue_drops (accessOf .write f a) (by rw [hq]; exact hfl : (s'.core c).queue.length = 8)
        exact ⟨_, hexec, (hd.queue c).trans hq, hd.same.2.2.2.2.trans h.same.2.2.2.2⟩
    · have hexec : exec (.weftReadRequest v) s = .next (s'.enqueue c (accessOf .read f a)) := by
        show execWeftReadRequest v s = _
        simp only [execWeftReadRequest, htaken.takeWeft]
        exact congrArg _ (hruns (flitCount f) [1, 2] (by simpa using hsp) hr _)
      refine ⟨fun hroom => ?_, fun hfl => ?_⟩
      · rw [enqueue_joins _ (by rw [hq]; exact hroom)] at hexec
        refine ⟨_, hexec, ⟨_, by rw [State.core_updCore_same, hq], rfl, rfl, rfl, fun hk => ?_, fun _ => rfl, fun hk => ?_⟩, fun hk => ?_⟩
        · exact nomatch hk
        · exact nomatch hk
        · exact nomatch hk
      · have hd := enqueue_drops (accessOf .read f a) (by rw [hq]; exact hfl : (s'.core c).queue.length = 8)
        exact ⟨_, hexec, (hd.queue c).trans hq, hd.same.2.2.2.2.trans h.same.2.2.2.2⟩
    · have hexec : exec (.weftAtomic v) s = .next (if 8 ≤ (s'.core c).queue.length then s'.enqueue c (accessOf .atomic f a)
          else (s'.enqueue c (accessOf .atomic f a)).record f true none) := by
        show execWeftAtomic v s = _
        simp only [execWeftAtomic, htaken.takeWeft]
        exact congrArg _ (hruns 8 [1] (by simpa using hsp) hr _)
      refine ⟨fun hroom => ?_, fun hfl => ?_⟩
      · rw [if_neg (by rw [hq]; omega), enqueue_joins _ (by rw [hq]; exact hroom)] at hexec
        have hkept : ((s'.updCore c fun k => { k with queue := k.queue ++ [accessOf .atomic f a] }).keptRecord f).length < 4096 :=
          keptRecord_length hlen' hfull
        refine ⟨_, hexec, ⟨accessOf .atomic f a, ?_, rfl, rfl, rfl, fun hk => ?_, fun hk => ?_, fun _ => ⟨rfl, rfl⟩⟩, fun _ => ?_⟩
        · rw [record_rest]
          show ((s'.updCore c fun k => { k with queue := k.queue ++ [accessOf .atomic f a] }).core c).queue = _
          rw [State.core_updCore_same, hq]
        · exact nomatch hk
        · exact nomatch hk
        · rw [record_stored hkept]
          show some ({ src := f.src, tag := f.tag, keep := true, reply := none, at' := s'.clk.timebase.toNat } : Replay) = _
          rw [h.same.2.2.2.1]
      · rw [if_pos (by rw [hq]; omega)] at hexec
        have hd := enqueue_drops (accessOf .atomic f a) (by rw [hq]; exact hfl : (s'.core c).queue.length = 8)
        exact ⟨_, hexec, (hd.queue c).trans hq, hd.same.2.2.2.2.trans h.same.2.2.2.2⟩
  · intro n v0 hp hn hroom
    have h := htaken.passed
    obtain ⟨amount, hamount⟩ : ∃ m, m = fld f.payload 64 16 := ⟨_, rfl⟩
    rw [← hamount] at hn
    obtain ⟨u, hu⟩ : ∃ u, u = s'.setCounter c n { v0 with pend := [{ cyc := s.nowCycle c, eng := 4, amount := amount, scope := scopeOf (fld f.payload 56 3), originCore := fld f.payload 80 16, originModule := f.src }] } := ⟨_, rfl⟩
    have hinc : s'.incCounter c n amount (scopeOf (fld f.payload 56 3)) (fld f.payload 80 16) f.src (s'.nowCycle c) 4 = u := by
      have hv := h.counter c n
      rw [incCounter_settled (by rw [hv]; exact hp) (by rw [hv]; exact hn), hv, h.nowCycle, hu]
    obtain ⟨x, hx⟩ : ∃ x, x = replyFlit u c f .ack 0 := ⟨_, rfl⟩
    have hux : x = replyFlit s c f .ack 0 := by
      rw [hx, hu, replyFlit, replyFlit, ← h.moduleId]
      rfl
    have hexec : exec (.weftCounterIncrement v) s = .next ((u.record f true (some x)).reply c x) := by
      show execWeftCounterIncrement v s = _
      simp only [execWeftCounterIncrement, htaken.takeWeft]
      refine congrArg _ ((target_runs hc (by omega) ((h.serving c).trans hs) ha hfull ((h.ownerOf c).trans ho) (by simpa using hsp) (fun _ => hoff)
        ((h.resolve p.fn (flitAddr f) 8).trans hr)).trans ?_)
      rw [hx, ← hinc, hamount]
    obtain ⟨w, hw⟩ : ∃ w, w = u.record f true (some x) := ⟨_, rfl⟩
    have hrest : w = { u with replay := w.replay } := by
      rw [hw]
      exact record_rest ..
    have hcore : w.core c = { s'.core c with counters := (u.core c).counters } := by
      rw [hrest, hu]
      show (s'.setCounter c n _).core c = _
      rw [State.setCounter, State.core_updCore_same]
    have hinjq : (w.core c).injq = (s.core c).injq := by
      rw [hcore]
      exact h.injq c
    have hserve : w.serving c = true := by
      rw [State.serving, hcore]
      exact (h.serving c).trans hs
    rw [← hw, reply_queued hserve (by rw [hinjq]; exact hroom)] at hexec
    refine ⟨_, hexec, fun k => ?_, ⟨_, by rw [State.core_updCore_same, hinjq], hux⟩, ?_⟩
    · have hcount : (w.updCore c fun k => { k with injq := k.injq ++ [{ flit := x, start := 0, eng := .fxe, op := 0, localAddr := none }] }).counter c n =
          { v0 with pend := [{ cyc := s.nowCycle c, eng := 4, amount := amount, scope := scopeOf (fld f.payload 56 3), originCore := fld f.payload 80 16, originModule := f.src }] } := by
        rw [State.counter, State.core_updCore_same, hcore, hu]
        exact State.counter_setCounter_same ..
      rw [hcount, ← hamount]
      have hview := Counter.view_one v0 ⟨s.nowCycle c, 4, amount, scopeOf (fld f.payload 56 3), fld f.payload 80 16, f.src⟩ hn k
      simp only at hview ⊢
      split_ifs at hview ⊢ with hk
      · exact hview
      · rw [Counter.view_pend_singleton, if_neg hk] at hview ⊢
        exact ⟨hview.1, rfl, rfl, rfl⟩
    · have hkept : (u.keptRecord f).length < 4096 := by
        rw [hu]
        exact keptRecord_length (s := s') (f := f) (by rw [h.same.2.2.2.2]; exact hlen) hfull
      have hrec := record_stored hkept true (some x)
      rw [← hw, hux] at hrec
      refine Eq.trans hrec ?_
      rw [hu]
      show some ({ src := f.src, tag := f.tag, keep := true, reply := _, at' := s'.clk.timebase.toNat } : Replay) = _
      rw [h.same.2.2.2.1]

end Sys2Proof.Machine
end


section
/-!
PROOFS. The core queue (R174, R191, R205): a write that lands, the access at the front of the queue, its timeout and the expiry of replay
entries.
-/
namespace Sys2Proof.Machine

/-! ### Bytes -/

theorem readAt_congr {s t : State} {c : Nat} (hm : t.mem = s.mem) (hp : (t.core c).mpend = (s.core c).mpend) (τ a n : Nat) :
    t.readAt c τ a n = s.readAt c τ a n := by
  simp only [State.readAt_eq, State.byteAt_congr hm hp]

theorem sameBytes_congr {s t : State} {c : CoreId} (hm : t.mem = s.mem) (hp : (t.core c.val).mpend = (s.core c.val).mpend) :
    SameBytes s t c := fun a => readNow_byte_iff.2 (State.byteNow_congr hm hp a)

/-- Bytes that a write has covered read as written. -/
theorem map_byteOn (w : MWrite) (f : Nat → Byte) : ((List.range w.data.length).map fun i => w.byteOn (w.addr + i) (f i)) = w.data := by
  apply List.ext_getElem
  · simp
  · intro i h _
    have hi : i < w.data.length := by simpa using h
    simp [w.byteOn_inside _ hi]

/-- What writing at a core changes: memory, the code's marks, and of the core the writes that wait and its claimed port cycles. -/
structure Put (s t : State) (c : Nat) : Prop where
  rest : t = { s with cores := t.cores, mem := t.mem, ecc := t.ecc }
  core : t.core c = { s.core c with mpend := (t.core c).mpend, claims := (t.core c).claims }

section
variable {s : State} {c : Nat}

/-- A write of a queue lands in its cycle (R191). -/
theorem queueWrite_puts (hsort : landSorted (s.core c).mpend = true) (hidle : (s.core c).job = none → (s.core c).mpend = [])
    (t a : Nat) (d : List Byte) (marks : List (Nat × EccMark)) :
    Put s (s.queueWrite c t a d marks) c ∧ (s.queueWrite c t a d marks).readAt c (t + 1) a d.length = d := by
  obtain ⟨u, hu⟩ : ∃ u, u = (s.clearEcc (a / 2 ^ 44) a d.length).putMarks a marks := ⟨_, rfl⟩
  have hcore : ∀ b, u.core b = s.core b := fun b => by rw [hu]; rfl
  have hput : Put s u c := ⟨by rw [hu]; rfl, by rw [hcore]⟩
  have hq : s.queueWrite c t a d marks = if (s.core c).job.isNone then u.writeNow a d
      else (u.writeAt c t a d 5).updCore c fun k => { k with claims := k.claims ++ queuePorts a d.length t true } := by
    rw [hu]
    rfl
  rw [hq]
  cases hj : (s.core c).job with
  | none =>
    refine ⟨⟨?_, hput.core⟩, ?_⟩
    · rw [hu]
      rfl
    · have hbyte : ∀ i, (u.writeNow a d).byteAt c (t + 1) (a + i) = MWrite.byteOn ⟨t, a, d, 5⟩ (a + i) (memByte u.mem (a + i)) := by
        intro i
        rw [State.byteAt, show ((u.writeNow a d).core c).mpend = [] by rw [State.core_writeNow, hcore]; exact hidle hj]
        exact memByte_memPut u.mem ⟨t, a, d, 5⟩ (a + i)
      rw [Option.isNone_none, if_pos rfl, State.readAt_eq]
      simp only [hbyte]
      exact map_byteOn ⟨t, a, d, 5⟩ _
  | some j =>
    rw [Option.isNone_some, if_neg (by decide)]
    refine ⟨⟨?_, ?_⟩, ?_⟩
    · rw [hu]
      rfl
    · rw [State.core_updCore_same, State.writeAt, State.core_updCore_same, hcore]
    · have hbyte : ∀ i, ((u.writeAt c t a d 5).updCore c fun k => { k with claims := k.claims ++ queuePorts a d.length t true }).byteAt c (t + 1) (a + i) =
          MWrite.byteOn ⟨t, a, d, 5⟩ (a + i) (u.byteAt c (t + 1) (a + i)) := by
        intro i
        refine (State.byteAt_updCore _ c (f := fun k => { k with claims := k.claims ++ queuePorts a d.length t true }) (fun k => rfl) _ _).trans ?_
        exact State.byteAt_writeAt (by rw [hcore]; exact hsort) t a d 5 (a + i)
      rw [State.readAt_eq]
      simp only [hbyte]
      exact map_byteOn ⟨t, a, d, 5⟩ _

theorem leNat_lt (l : List Byte) : leNat l < 256 ^ l.length := by
  induction l with
  | nil => simp [leNat]
  | cons b l ih =>
    have := b.isLt
    rw [leNat, List.length_cons, pow_succ']
    omega

theorem le_freeFrom (claims : List Claim) (ports : Nat → List Claim) (f t : Nat) : t ≤ freeFrom claims ports f t := by
  induction f generalizing t with
  | zero => exact le_rfl
  | succ f ih =>
    rw [freeFrom]
    split
    · exact (Nat.le_succ t).trans (ih (t + 1))
    · exact le_rfl

end

/-! ### The access at the front -/

section
variable {s : State} {c : CoreId} {a : QAccess} {rest : List QAccess} {cycle : Nat}

theorem landPosted_none {s : State} {f : FnId} {b : Nat} (h : ∀ x ∈ (s.core b).queue, x.kind = .hostWrite → x.fn ≠ f) (n : Nat) :
    s.landPosted f b n = s := by
  cases n with
  | zero => rfl
  | succ n =>
    rw [State.landPosted, if_neg]
    simpa using h

theorem postedLand_none {s : State} {f : FnId} {c : Nat} (h : ∀ b, b ≠ c → ∀ x ∈ (s.core b).queue, x.kind = .hostWrite → x.fn ≠ f) :
    s.postedLand f (some c) = s := by
  unfold State.postedLand
  refine List.foldlRecOn (motive := fun u : State => u = s) _ _ rfl fun u hu ck _ => ?_
  subst hu
  split
  · rfl
  · next hne => exact landPosted_none (h ck.1 fun e => hne (by rw [e])) 8

/-- Sound words carry no marks. -/
theorem eccWorst_none_marks {e : AMap EccMark} {sp a n : Nat} (h : eccWorst e (eccWord sp) a n = none) :
    (e.filter fun kv => decide (a ≤ kv.1) && decide (kv.1 < a + n)) = [] := by
  have hpos : 0 < eccWord sp := by
    unfold eccWord
    split <;> decide
  have hempty : (e.filter fun kv => decide (a < kv.1 + eccWord sp) && decide (kv.1 < a + n)) = [] := by
    unfold eccWorst at h
    simp only at h
    split at h
    · exact nomatch h
    · split at h
      · next he => exact List.isEmpty_iff.1 he
      · exact nomatch h
  refine List.filter_eq_nil_iff.2 fun kv hkv hin => ?_
  simp only [Bool.and_eq_true, decide_eq_true_eq] at hin
  refine List.filter_eq_nil_iff.1 hempty kv hkv ?_
  simp only [Bool.and_eq_true, decide_eq_true_eq]
  omega

/-- The access at the front of a queue, once its ports are free and its words are sound. -/
theorem execWeftAccessLand_lands (hq : (s.core c.val).queue = a :: rest)
    (hfree : s.portsFree c.val (max cycle (s.core c.val).horizon) a = true)
    (hecc : a.kind ≠ .write → a.kind ≠ .hostWrite → eccWorst s.ecc (eccWord (a.addr / 2 ^ 44)) a.addr a.len = none)
    (hpost : a.kind = .hostRead → ∀ b, b ≠ c.val → ∀ x ∈ (s.core b).queue, x.kind = .hostWrite → x.fn ≠ a.fn) :
    execWeftAccessLand ⟨c, cycle⟩ s =
      .next ((s.updCore c.val fun k => { k with queue := rest }).runAccess c.val (max cycle (s.core c.val).horizon) a) := by
  obtain ⟨u, hu⟩ : ∃ u, u = s.updCore c.val fun k => { k with queue := rest } := ⟨_, rfl⟩
  have hposted : (if a.kind = .hostRead then u.postedLand a.fn (some c.val) else u) = u := by
    split
    · next hk =>
      refine postedLand_none fun b hb x hx => hpost hk b hb x ?_
      rw [hu, State.core_updCore_other _ _ hb] at hx
      exact hx
    · rfl
  have hcheck : u.checkAccess c.val a = (u, true) := by
    unfold State.checkAccess
    by_cases hk : a.kind = .write ∨ a.kind = .hostWrite
    · simp only [hk, if_true]
    · have hnone : eccWorst u.ecc (eccWord (a.addr / 2 ^ 44)) a.addr a.len = none := by
        rw [hu]
        exact hecc (fun h => hk (.inl h)) fun h => hk (.inr h)
      simp only [hk, if_false, hnone]
  unfold execWeftAccessLand
  simp only [hq, hfree, Bool.not_true, Bool.false_eq_true, if_false, ← hu, hposted, hcheck, if_true]

end

theorem landSorted_of_inv {s : State} (h : s.inv = true) (c : Nat) : landSorted (s.core c).mpend = true := by
  simp only [State.inv, Bool.and_eq_true, List.all_eq_true] at h
  by_cases hr : s.core c = Core.reset
  · rw [hr]
    rfl
  · exact (h.2 _ (AMap.mem_of_get_ne hr)).1

/-! ### What each access does -/

theorem record_mem (s : State) (f : WeftFlit) (keep : Bool) (reply : Option WeftFlit) : (s.record f keep reply).mem = s.mem := by
  rw [record_rest]

theorem record_core (s : State) (f : WeftFlit) (keep : Bool) (reply : Option WeftFlit) (b : Nat) :
    (s.record f keep reply).core b = s.core b := by
  rw [record_rest]
  rfl

section
variable {s : State} {c : CoreId} {a : QAccess} {f : WeftFlit} (hserve : (s.core c.val).svc = .inService)
  (hroom : (s.core c.val).injq.length < 16) (hsort : landSorted (s.core c.val).mpend = true)
  (hidle : (s.core c.val).job = none → (s.core c.val).mpend = [])

/-- The core has queued a reply to a weft access. -/
def Replied (s t : State) (c : Nat) (r : WeftFlit) : Prop := ∃ o, (t.core c).injq = (s.core c).injq ++ [o] ∧ o.flit = r

section
include hserve hroom

/-- A reply leaves all of a state but its core's injection queue. -/
theorem reply_after {t : State} (hsvc : (t.core c.val).svc = (s.core c.val).svc) (hinjq : (t.core c.val).injq = (s.core c.val).injq) (r : WeftFlit) :
    Replied s (t.reply c.val r) c.val r ∧ ((t.reply c.val r).core c.val).queue = (t.core c.val).queue ∧
      ((t.reply c.val r).core c.val).mpend = (t.core c.val).mpend ∧ (t.reply c.val r).mem = t.mem ∧ (t.reply c.val r).replay = t.replay := by
  rw [reply_queued (by simp [State.serving, hsvc, hserve]) (by rw [hinjq]; exact hroom), Replied, State.core_updCore_same, hinjq]
  exact ⟨⟨_, rfl, rfl⟩, rfl, rfl, rfl, rfl⟩

include hsort hidle in
theorem runAccess_write (hk : a.kind = .write) (hf : a.flit = some f) (τ : Nat) :
    let t := s.runAccess c.val τ a
    (t.core c.val).queue = (s.core c.val).queue ∧ t.readAt c.val (τ + 1) a.addr a.data.length = a.data ∧
      Replied s t c.val (replyFlit s c.val f .ack 0) ∧ (s.replay.length < 4096 → t.recorded f =
        some { src := f.src, tag := f.tag, keep := false, reply := some (replyFlit s c.val f .ack 0), at' := s.clk.timebase.toNat }) := by
  intro t
  obtain ⟨hput, hread⟩ := queueWrite_puts hsort hidle τ a.addr a.data f.marks
  obtain ⟨u, hu⟩ : ∃ u, u = s.queueWrite c.val τ a.addr a.data f.marks := ⟨_, rfl⟩
  rw [← hu] at hput hread
  have hr : replyFlit u c.val f .ack 0 = replyFlit s c.val f .ack 0 := by
    rw [hput.rest]
    rfl
  have ht : t = (u.record f false (some (replyFlit s c.val f .ack 0))).reply c.val (replyFlit s c.val f .ack 0) := by
    rw [← hr, hu]
    simp only [t, State.runAccess, hk, hf]
  have hcore : (u.record f false (some (replyFlit s c.val f .ack 0))).core c.val = u.core c.val := record_core ..
  obtain ⟨h1, h2, h3, h4, h5⟩ := reply_after (s := s) (c := c) hserve hroom (t := u.record f false (some (replyFlit s c.val f .ack 0)))
    (by rw [hcore, hput.core]) (by rw [hcore, hput.core]) (replyFlit s c.val f .ack 0)
  rw [← ht] at h1 h2 h3 h4 h5
  refine ⟨by rw [h2, hcore, hput.core], ?_, h1, fun hlen => ?_⟩
  · have hmem : t.mem = u.mem := h4.trans (record_mem ..)
    rw [readAt_congr (s := u) (t := t) hmem (by rw [h3, hcore])]
    exact hread
  · have hkept : (u.keptRecord f).length < 4096 := keptRecord_length_of_lt (by rw [hput.rest]; exact hlen)
    have hstored := record_stored hkept false (some (replyFlit s c.val f .ack 0))
    rw [State.recorded, h5]
    refine Eq.trans hstored ?_
    rw [hput.rest]

/-- Reading claims port cycles. -/
theorem runAccess_read (hk : a.kind = .read) (hf : a.flit = some f) (hecc : eccWorst s.ecc (eccWord (a.addr / 2 ^ 44)) a.addr a.len = none) (τ : Nat) :
    let t := s.runAccess c.val τ a
    (t.core c.val).queue = (s.core c.val).queue ∧ SameBytes s t c ∧
      Replied s t c.val (replyFlit s c.val f .readReply (BitVec.ofNat 512 (leNat (s.readAt c.val τ a.addr a.len)))) := by
  intro t
  have hmarks : s.marksAt a.addr a.len = [] := by
    rw [State.marksAt, eccWorst_none_marks hecc, List.map_nil]
  obtain ⟨u, hu⟩ : ∃ u, u = s.updCore c.val fun k => { k with claims := k.claims ++ queuePorts a.addr a.len τ false } := ⟨_, rfl⟩
  have hcore : u.core c.val = { s.core c.val with claims := (s.core c.val).claims ++ queuePorts a.addr a.len τ false } := by
    rw [hu, State.core_updCore_same]
  have ht : t = u.reply c.val (replyFlit s c.val f .readReply (BitVec.ofNat 512 (leNat (s.readAt c.val τ a.addr a.len)))) := by
    rw [hu]
    simp only [t, State.runAccess, hk, hf, hmarks]
    rfl
  obtain ⟨h1, h2, h3, h4, -⟩ := reply_after (s := s) (c := c) hserve hroom (t := u) (by rw [hcore]) (by rw [hcore])
    (replyFlit s c.val f .readReply (BitVec.ofNat 512 (leNat (s.readAt c.val τ a.addr a.len))))
  rw [← ht] at h1 h2 h3 h4
  exact ⟨by rw [h2, hcore], sameBytes_congr (h4.trans (by rw [hu]; rfl)) (by rw [h3, hcore]), h1⟩

include hsort hidle in
theorem runAccess_atomic (hk : a.kind = .atomic) (hf : a.flit = some f) (τ : Nat) :
    let t := s.runAccess c.val τ a
    let old := leNat (s.readAt c.val τ a.addr 8)
    (t.core c.val).queue = (s.core c.val).queue ∧ (∃ u, τ < u ∧ leNat (t.readAt c.val (u + 1) a.addr 8) =
        atomicResult (fld f.payload 54 2) old (leNat (a.data.take 8)) (leNat (a.data.drop 8)) % 2 ^ 64) ∧
      Replied s t c.val (replyFlit s c.val f .atomicReply (BitVec.ofNat 512 old)) := by
  intro t old
  obtain ⟨d, hd⟩ : ∃ d, d = leBytes 8 (atomicResult (fld f.payload 54 2) old (leNat (a.data.take 8)) (leNat (a.data.drop 8))) := ⟨_, rfl⟩
  obtain ⟨n, hn⟩ : ∃ n, n = freeFrom (s.core c.val).claims (fun u => queuePorts a.addr 8 u true) 4096 (τ + 1) := ⟨_, rfl⟩
  obtain ⟨u, hu⟩ : ∃ u, u = s.updCore c.val fun k => { k with claims := k.claims ++ queuePorts a.addr a.len τ false } := ⟨_, rfl⟩
  have hcore : u.core c.val = { s.core c.val with claims := (s.core c.val).claims ++ queuePorts a.addr a.len τ false } := by
    rw [hu, State.core_updCore_same]
  have hlen : d.length = 8 := by
    rw [hd]
    exact leBytes_length ..
  obtain ⟨hput, hread⟩ := queueWrite_puts (s := u) (c := c.val) (by rw [hcore]; exact hsort) (by rw [hcore]; exact hidle) n a.addr d []
  obtain ⟨v, hv⟩ : ∃ v, v = u.queueWrite c.val n a.addr d [] := ⟨_, rfl⟩
  rw [← hv] at hput hread
  obtain ⟨w, hw⟩ : ∃ w, w = v.updCore c.val fun k => { k with atomicHold := some (a.addr / 256, n) } := ⟨_, rfl⟩
  obtain ⟨r, hr⟩ : ∃ r, r = replyFlit s c.val f .atomicReply (BitVec.ofNat 512 old) := ⟨_, rfl⟩
  have hwr : replyFlit w c.val f .atomicReply (BitVec.ofNat 512 old) = r := by
    rw [hr, hw, hput.rest, hu]
    rfl
  have hwc : w.core c.val = { v.core c.val with atomicHold := some (a.addr / 256, n) } := by
    rw [hw, State.core_updCore_same]
  have ht : t = (w.record f true (some r)).reply c.val r := by
    rw [← hwr, hw, hv, hu, hd, hn]
    simp only [t, State.runAccess, hk, hf]
    rfl
  have hrc : (w.record f true (some r)).core c.val = w.core c.val := record_core ..
  obtain ⟨h1, h2, h3, h4, -⟩ := reply_after (s := s) (c := c) hserve hroom (t := w.record f true (some r))
    (by rw [hrc, hwc, hput.core, hcore]) (by rw [hrc, hwc, hput.core, hcore]) r
  rw [← ht] at h1 h2 h3 h4
  refine ⟨by rw [h2, hrc, hwc, hput.core, hcore], ⟨n, ?_, ?_⟩, hr ▸ h1⟩
  · have := le_freeFrom (s.core c.val).claims (fun u => queuePorts a.addr 8 u true) 4096 (τ + 1)
    omega
  · have hmem : t.mem = v.mem := h4.trans ((record_mem ..).trans (by rw [hw]; rfl))
    rw [readAt_congr (s := v) (t := t) hmem (by rw [h3, hrc, hwc]), ← hlen, hread, hd, leNat_leBytes]
    rfl

end

/-- A host read sends the bytes. -/
theorem runAccess_hostRead (hk : a.kind = .hostRead) (τ : Nat) :
    let t := s.runAccess c.val τ a
    (t.core c.val).queue = (s.core c.val).queue ∧ SameBytes s t c ∧ t.out = .windowData a.fn (s.readAt c.val τ a.addr a.len) :: s.out := by
  intro t
  have ht : t = (s.updCore c.val fun k => { k with claims := k.claims ++ queuePorts a.addr a.len τ false }).emit
      (.windowData a.fn (s.readAt c.val τ a.addr a.len)) := by
    simp only [t, State.runAccess, hk]
  rw [ht]
  refine ⟨?_, sameBytes_congr rfl ?_, rfl⟩
  · rw [State.core_emit, State.core_updCore_same]
  · rw [State.core_emit, State.core_updCore_same]

include hsort hidle in
theorem runAccess_hostWrite (hk : a.kind = .hostWrite) (τ : Nat) :
    let t := s.runAccess c.val τ a
    (t.core c.val).queue = (s.core c.val).queue ∧ t.readAt c.val (τ + 1) a.addr a.data.length = a.data := by
  intro t
  obtain ⟨hput, hread⟩ := queueWrite_puts hsort hidle τ a.addr a.data []
  have ht : t = s.queueWrite c.val τ a.addr a.data [] := by
    simp only [t, State.runAccess, hk]
  rw [ht]
  exact ⟨by rw [hput.core], hread⟩

end

/-! ### The statement -/

theorem atomicResult_mod {op old x y : Nat} (ho : old < 2 ^ 64) (hx : x < 2 ^ 64) : atomicResult op old x y % 2 ^ 64 =
    if op = 0 then (old + x) % 2 ^ 64 else if op = 1 then x else if old = y then x else old := by
  unfold atomicResult
  split
  · simp
  · simpa using Nat.mod_eq_of_lt hx
  · next h0 h1 =>
    rw [if_neg h0, if_neg h1]
    split
    · exact Nat.mod_eq_of_lt hx
    · exact Nat.mod_eq_of_lt ho

theorem sameBytes_queue (s : State) (c : CoreId) (q : List QAccess) : (s.updCore c.val fun k => { k with queue := q }).readAt c.val = s.readAt c.val := by
  funext τ a n
  exact readAt_congr (s := s) (t := s.updCore c.val fun k => { k with queue := q }) rfl (by rw [State.core_updCore_same]) τ a n

/-- Settles O30: each kind of access, the timeout and the expiry. -/
theorem coreQueue : Obligations.CoreQueue := by
  intro s c cycle a rest hinv hserve hq hroom hidle τ run
  have hsort := landSorted_of_inv hinv c.val
  obtain ⟨u, hu⟩ : ∃ u, u = s.updCore c.val fun k => { k with queue := rest } := ⟨_, rfl⟩
  have hcore : u.core c.val = { s.core c.val with queue := rest } := by
    rw [hu, State.core_updCore_same]
  have hsame : u.moduleId = s.moduleId ∧ u.replay = s.replay ∧ u.clk = s.clk ∧ u.out = s.out ∧ u.ecc = s.ecc := by
    rw [hu]
    exact ⟨rfl, rfl, rfl, rfl, rfl⟩
  obtain ⟨hid, hreplay, hclk, hout, hecc'⟩ := hsame
  have hread : u.readAt c.val = s.readAt c.val := by
    rw [hu]
    exact sameBytes_queue s c rest
  have hreply : ∀ f k p, replyFlit u c.val f k p = replyFlit s c.val f k p := by
    intro f k p
    simp only [replyFlit, hid]
  have hanswered : ∀ (t : State) (r : WeftFlit), Replied u t c.val r → Replied s t c.val r := by
    rintro t r ⟨o, h1, h2⟩
    exact ⟨o, h1.trans (by rw [hcore]), h2⟩
  have hbytes : ∀ t, SameBytes u t c → SameBytes s t c := by
    intro t h b
    refine (h b).trans (readNow_byte_iff.2 (State.byteNow_congr (by rw [hu]; rfl) (by rw [hcore]) b))
  have hus : (u.core c.val).svc = .inService := by
    rw [hcore]
    simpa [State.serving] using hserve
  refine ⟨fun hbusy => ?_, fun hfree hecc => ?_⟩
  · show execWeftAccessLand ⟨c, cycle⟩ s = _
    simp only [execWeftAccessLand, hq]
    rw [if_pos]
    rw [hbusy]
    rfl
  have hlands : (a.kind = .hostRead → ∀ b, b ≠ c.val → ∀ x ∈ (s.core b).queue, x.kind = .hostWrite → x.fn ≠ a.fn) →
      run = .next (u.runAccess c.val τ a) := fun hpost => hu ▸ execWeftAccessLand_lands hq hfree hecc hpost
  refine ⟨fun f hf => ⟨fun hk => ?_, fun hk => ?_, fun hk => ?_, ?_⟩, fun hk hpost => ?_, fun hk => ?_, fun src tag => ?_⟩
  · obtain ⟨h1, h2, h3, h4⟩ := runAccess_write (s := u) (c := c) hus (by rw [hcore]; exact hroom) (by rw [hcore]; exact hsort)
      (by rw [hcore]; exact hidle) hk hf τ
    rw [hreply] at h3 h4
    rw [hreplay, hclk] at h4
    exact ⟨_, hlands (fun h => nomatch hk.symm.trans h), h1.trans (by rw [hcore]), h2, hanswered _ _ h3, h4⟩
  · obtain ⟨h1, h2, h3⟩ := runAccess_read (s := u) (c := c) hus (by rw [hcore]; exact hroom) hk hf
      (by rw [hecc']; exact hecc (fun h => nomatch hk.symm.trans h) fun h => nomatch hk.symm.trans h) τ
    rw [hreply, hread] at h3
    exact ⟨_, hlands (fun h => nomatch hk.symm.trans h), h1.trans (by rw [hcore]), hbytes _ h2, hanswered _ _ h3⟩
  · obtain ⟨h1, ⟨n, hn, h2⟩, h3⟩ := runAccess_atomic (s := u) (c := c) hus (by rw [hcore]; exact hroom) (by rw [hcore]; exact hsort)
      (by rw [hcore]; exact hidle) hk hf τ
    rw [hreply, hread] at h3
    rw [hread] at h2
    have hold : leNat (s.readAt c.val τ a.addr 8) < 2 ^ 64 := by
      have := leNat_lt (s.readAt c.val τ a.addr 8)
      rwa [State.readAt_length] at this
    have hx : leNat (a.data.take 8) < 2 ^ 64 := by
      refine (leNat_lt _).trans_le ?_
      rw [show (2 : Nat) ^ 64 = 256 ^ 8 by norm_num]
      exact Nat.pow_le_pow_right (by decide) (List.length_take_le ..)
    rw [atomicResult_mod hold hx] at h2
    exact ⟨_, n, hlands (fun h => nomatch hk.symm.trans h), h1.trans (by rw [hcore]), hn, h2, hanswered _ _ h3⟩
  · have hfirst : firstWeft (s.core c.val).queue = some (a, rest) := by
      rw [hq, firstWeft, hf]
      rfl
    have hcount : Passed u (u.countNow c.val 0x18) := passed_countNow ..
    have hexec : exec (.coreQueueTimeout c) s = .next (if a.kind = .atomic then (u.countNow c.val 0x18).unrecord f else u.countNow c.val 0x18) := by
      show execCoreQueueTimeout c s = _
      simp only [execCoreQueueTimeout, hfirst, hf, hu]
    refine ⟨_, hexec, ?_, fun hk => ?_, fun hk => ?_⟩
    · split
      · exact (hcount.queue c.val).trans (by rw [hcore])
      · exact (hcount.queue c.val).trans (by rw [hcore])
    · rw [if_pos hk]
      exact unrecorded _ f
    · rw [if_neg hk, hcount.same.2.2.2.2, hreplay]
  · obtain ⟨h1, h2, h3⟩ := runAccess_hostRead (s := u) (c := c) hk τ
    rw [hread, hout] at h3
    exact ⟨_, hlands fun _ => hpost, h1.trans (by rw [hcore]), hbytes _ h2, h3⟩
  · obtain ⟨h1, h2⟩ := runAccess_hostWrite (s := u) (c := c) (by rw [hcore]; exact hsort) (by rw [hcore]; exact hidle) hk τ
    exact ⟨_, hlands (fun h => nomatch hk.symm.trans h), h1.trans (by rw [hcore]), h2⟩
  · refine ⟨_, rfl, fun r => ?_⟩
    rw [List.mem_filter]
    simp
    intro _
    tauto

end Sys2Proof.Machine
end


section
/-!
PROOFS. Weft replies at their originator (R120, R198, R267, R268): the end of an operation and of a transaction, the data that a reply
writes, and its fault.
-/
namespace Sys2Proof.Machine

/-! ### The end of an operation -/

/-- What the end of a weft operation changes: its entry, its engine and counter, and a trace record. -/
structure Advanced (s t : State) : Prop where
  rest : t = { s with cores := t.cores, ops := t.ops, fns := t.fns, out := t.out, obs := t.obs }
  mpend : ∀ b, (t.core b).mpend = (s.core b).mpend

theorem Advanced.refl (s : State) : Advanced s s := ⟨rfl, fun _ => rfl⟩

theorem Advanced.trans {s t u : State} (h : Advanced s t) (g : Advanced t u) : Advanced s u := by
  refine ⟨?_, fun b => (g.mpend b).trans (h.mpend b)⟩
  have h1 := g.rest
  rw [h.rest] at h1
  exact h1

theorem advanced_updCore (s : State) (c : Nat) (f : Core → Core) (hf : ∀ k, (f k).mpend = k.mpend) : Advanced s (s.updCore c f) := by
  refine ⟨rfl, fun b => ?_⟩
  by_cases hb : b = c
  · rw [hb, State.core_updCore_same, hf]
  · rw [State.core_updCore_other _ _ hb]

theorem advanced_ops (s : State) (m : AMap (Option WOp)) : Advanced s { s with ops := m } := ⟨rfl, fun _ => rfl⟩

theorem advanced_traceTo (s : State) (f : FnId) (ty cause : Byte) (b : List Byte) : Advanced s (s.traceTo f ty cause b) := by
  have h := traceTo_only s f ty cause b
  refine ⟨?_, fun b => ?_⟩
  · rw [h]
  · rw [h]
    rfl

theorem advanced_setCounter (s : State) (c n : Nat) (v : Counter) : Advanced s (s.setCounter c n v) :=
  advanced_updCore s c (fun k => { k with counters := AMap.set Counter.reset k.counters n v }) fun _ => rfl

theorem advanced_addFault (s : State) (c : Nat) (f : TFault) : Advanced s (s.addFault c f) :=
  advanced_updCore s c (fun k => { k with faults := k.faults ++ [f] }) fun _ => rfl

theorem advanced_incCounter (s : State) (c n amount : Nat) (scope : Scope) (core : Nat) (module : BitVec 12) (t eng : Nat) :
    Advanced s (s.incCounter c n amount scope core module t eng) := by
  unfold State.incCounter
  dsimp only
  split
  · exact (advanced_setCounter ..).trans (advanced_addFault ..)
  · exact advanced_setCounter ..

/-- The state in which operation `n`, which was `o`, is no longer open. -/
def State.closeOp (s : State) (n : Nat) (o : WOp) : State :=
  ({ s with ops := AMap.erase n s.ops } : State).updEngine o.core.val o.eng fun q => { q with openOps := q.openOps.filter fun i => i != n }

/-- The state in which its counter has been incremented. -/
def State.countOp (s : State) (n : Nat) (o : WOp) (t0 : Nat) : State :=
  let s := s.closeOp n o
  match o.counter with
  | some i => s.incCounter o.core.val i 1 .skein o.core.val s.moduleId (max t0 (s.nowCycle o.core.val)) o.eng.num
  | none => s

section
variable {s : State} {n : Nat} {o : WOp}

theorem advanced_closeOp (s : State) (n : Nat) (o : WOp) : Advanced s (s.closeOp n o) :=
  (advanced_ops s _).trans (advanced_updCore _ o.core.val _ fun k => Core.setEngine_mpend k o.eng _)

theorem advanced_countOp (s : State) (n : Nat) (o : WOp) (t0 : Nat) : Advanced s (s.countOp n o t0) := by
  unfold State.countOp
  dsimp only
  split
  · exact (advanced_closeOp s n o).trans (advanced_incCounter ..)
  · exact advanced_closeOp s n o

theorem opEnd_traced (h : AMap.get none s.ops n = some o) (t0 : Nat) :
    s.opEnd n t0 = s.countOp n o t0 ∨ ∃ f ty cause b, s.opEnd n t0 = (s.countOp n o t0).traceTo f ty cause b := by
  unfold State.opEnd
  rw [h]
  dsimp only
  split
  · exact .inr ⟨_, _, _, _, rfl⟩
  · exact .inl rfl

theorem opEnd_counted (h : AMap.get none s.ops n = some o) (t0 : Nat) :
    (s.opEnd n t0).cores = (s.countOp n o t0).cores ∧ (s.opEnd n t0).ops = (s.countOp n o t0).ops := by
  obtain h | ⟨f, ty, cause, b, h⟩ := opEnd_traced h t0
  · rw [h]
    exact ⟨rfl, rfl⟩
  · rw [h, traceTo_only]
    exact ⟨rfl, rfl⟩

theorem advanced_opEnd (s : State) (n t0 : Nat) : Advanced s (s.opEnd n t0) := by
  cases h : AMap.get none s.ops n with
  | none =>
    rw [State.opEnd, h]
    exact .refl s
  | some o =>
    obtain h | ⟨f, ty, cause, b, h⟩ := opEnd_traced h t0
    · rw [h]
      exact advanced_countOp ..
    · rw [h]
      exact (advanced_countOp ..).trans (advanced_traceTo ..)

theorem advanced_opStep (s : State) (n : Nat) : Advanced s (s.opStep n) := by
  unfold State.opStep
  split
  · exact .refl s
  · split
    · exact advanced_opEnd ..
    · exact advanced_ops ..

theorem incCounter_rest (s : State) (c n amount : Nat) (scope : Scope) (core : Nat) (module : BitVec 12) (t eng : Nat) :
    s.incCounter c n amount scope core module t eng = { s with cores := (s.incCounter c n amount scope core module t eng).cores } ∧
      ∀ e, (s.incCounter c n amount scope core module t eng).engine c e = s.engine c e := by
  unfold State.incCounter
  dsimp only
  split
  · refine ⟨rfl, fun e => ?_⟩
    rw [State.engine, State.addFault, State.core_updCore_same]
    exact State.engine_setCounter s c n _ e
  · exact ⟨rfl, fun e => State.engine_setCounter s c n _ e⟩

/-- The last transaction of an operation ends it. -/
theorem opEnd_ends (h : AMap.get none s.ops n = some o) : AMap.get none (s.opEnd n).ops n = none ∧
    n ∉ ((s.opEnd n).engine o.core.val o.eng).openOps ∧
    ∀ i, o.counter = some i → (s.counter o.core.val i).pend = [] → (s.counter o.core.val i).count < 65535 → ∀ m,
      (((s.opEnd n).counter o.core.val i).view m).count = (s.counter o.core.val i).count + if m ≤ s.nowCycle o.core.val then 0 else 1 := by
  obtain ⟨hcores, hops⟩ := opEnd_counted h 0
  have hcore : ∀ b, (s.opEnd n).core b = (s.countOp n o 0).core b := fun b => by rw [State.core, hcores]; rfl
  have hclose : ((s.closeOp n o).engine o.core.val o.eng).openOps = (s.engine o.core.val o.eng).openOps.filter fun i => i != n := by
    rw [State.closeOp, State.engine_updEngine_same]
    rfl
  have hengine : (s.countOp n o 0).engine o.core.val o.eng = (s.closeOp n o).engine o.core.val o.eng := by
    unfold State.countOp
    dsimp only
    split
    · exact (incCounter_rest ..).2 o.eng
    · rfl
  have hcount : (s.countOp n o 0).ops = (s.closeOp n o).ops := by
    unfold State.countOp
    dsimp only
    split
    · rw [(incCounter_rest ..).1]
    · rfl
  refine ⟨?_, ?_, fun i hi hp hn m => ?_⟩
  · rw [hops, hcount]
    exact AMap.get_erase_same none s.ops n
  · rw [State.engine, hcore]
    show n ∉ ((s.countOp n o 0).engine o.core.val o.eng).openOps
    rw [hengine, hclose]
    simp
  · have hcounter : (s.closeOp n o).counter o.core.val i = s.counter o.core.val i := by
      rw [State.counter, State.closeOp, State.core_updEngine_same, Core.setEngine_counters]
      rfl
    have hnow : (s.closeOp n o).nowCycle o.core.val = s.nowCycle o.core.val := by
      simp only [State.nowCycle, State.closeOp, State.core_updEngine_same, Core.setEngine_job]
      rfl
    rw [State.counter, hcore]
    show (((s.countOp n o 0).counter o.core.val i).view m).count = _
    unfold State.countOp
    simp only [hi]
    rw [incCounter_settled (by rw [hcounter]; exact hp) (by rw [hcounter]; omega), State.counter_setCounter_same, hcounter, hnow, Nat.zero_max,
      Counter.view_pend_singleton]
    split
    · rfl
    · simp [Counter.take]
      omega

end

/-! ### The end of a transaction -/

section
variable {s : State} {f : WeftFlit} {x : Txn}

/-- What the end of a transaction changes. -/
structure Retired (s t : State) (tag : BitVec 14) : Prop where
  rest : t = { s with cores := t.cores, txns := t.txns, ops := t.ops, fns := t.fns, out := t.out, obs := t.obs }
  mpend : ∀ b, (t.core b).mpend = (s.core b).mpend
  txn : t.txn tag = none

/-- The state in which a transaction has gone, and its operation has still to advance. -/
def State.dropTxn (s : State) (tag : BitVec 14) (t : Txn) : State :=
  let keep := fun (o : OutFlit) => !(isRequest o.flit.kind && o.flit.attempt != 0 && o.flit.tag == tag)
  ({ s with txns := AMap.erase tag.toNat s.txns } : State).updCore t.core.val fun k =>
    { k with injq := k.injq.filter keep, staged := k.staged.filter keep }

theorem endTxn_eq (s : State) (tag : BitVec 14) (t : Txn) : s.endTxn tag t = (s.dropTxn tag t).opStep t.op := rfl

theorem endTxn_retires (s : State) (tag : BitVec 14) (x : Txn) : Retired s (s.endTxn tag x) tag := by
  have h := advanced_opStep (s.dropTxn tag x) x.op
  rw [← endTxn_eq] at h
  refine ⟨?_, fun b => (h.mpend b).trans ?_, ?_⟩
  · have hrest := h.rest
    rw [hrest]
    rfl
  · by_cases hb : b = x.core.val
    · rw [hb, State.dropTxn, State.core_updCore_same]
      rfl
    · rw [State.dropTxn, State.core_updCore_other _ _ hb]
      rfl
  · rw [State.txn, h.rest]
    exact AMap.get_erase_same none s.txns tag.toNat

theorem dropTxn_same (s : State) (tag : BitVec 14) (x : Txn) : (s.dropTxn tag x).ops = s.ops ∧
    (∀ c i, (s.dropTxn tag x).counter c i = s.counter c i) ∧ ∀ c, (s.dropTxn tag x).nowCycle c = s.nowCycle c := by
  have hcore : ∀ b, ((s.dropTxn tag x).core b).counters = (s.core b).counters ∧ ((s.dropTxn tag x).core b).job = (s.core b).job := by
    intro b
    by_cases hb : b = x.core.val
    · rw [hb, State.dropTxn, State.core_updCore_same]
      exact ⟨rfl, rfl⟩
    · rw [State.dropTxn, State.core_updCore_other _ _ hb]
      exact ⟨rfl, rfl⟩
  refine ⟨rfl, fun c i => ?_, fun c => ?_⟩
  · rw [State.counter, (hcore c).1, State.counter]
  · simp only [State.nowCycle, (hcore c).2]
    rfl

/-! ### The originator -/

theorem originator_replied (h : s.txn f.tag = some x) (hr : x.replied = true) (act : State → Txn → State) :
    s.originator f act = s.countNow x.core.val 0x39 := by
  simp only [State.originator, h, hr, if_true]

theorem originator_first (h : s.txn f.tag = some x) (hr : x.replied = false) (act : State → Txn → State) :
    s.originator f act = if x.sent ≤ 1 ∨ x.at' + weftLifetime ≤ (act s x).clk.timebase.toNat then (act s x).endTxn f.tag x
      else { act s x with txns := AMap.set none (act s x).txns f.tag.toNat (some { x with replied := true }) } := by
  simp only [State.originator, h, hr, Bool.false_eq_true, if_false]

/-- However a first reply ends, all but the transactions, operations and traces is what taking it has left. -/
theorem originator_leaves (h : s.txn f.tag = some x) (hr : x.replied = false) (act : State → Txn → State) :
    (s.originator f act).mem = (act s x).mem ∧ (s.originator f act).chk = (act s x).chk ∧
      ∀ b, ((s.originator f act).core b).mpend = ((act s x).core b).mpend := by
  rw [originator_first h hr]
  split
  · have hret := endTxn_retires (act s x) f.tag x
    refine ⟨?_, ?_, hret.mpend⟩
    · rw [hret.rest]
    · rw [hret.rest]
  · exact ⟨rfl, rfl, fun _ => rfl⟩

end

/-! ### The data of a reply -/

/-- The data of a reply lands in the first cycle that the core has still to reach. -/
theorem replyWrite_reads {s : State} {x : Txn} {a : MAddr} {d : List Byte} {r abs : Nat} (marks : List (Nat × EccMark))
    (hsort : landSorted (s.core x.core.val).mpend = true) (hidle : (s.core x.core.val).job = none → (s.core x.core.val).mpend = [])
    (ha : x.localAddr = some a) (hr : s.resolve x.fn a d.length = .ok (r, abs))
    (hfree : ∀ j, (s.core x.core.val).job = some j → NoBobbin s j x.eng (aSpace a) (aOff a) d.length true) :
    let u := s.replyWrite x d marks
    u.readAt x.core.val (max (s.nowCycle x.core.val) (s.core x.core.val).horizon + 1) abs d.length = d ∧ u.clk = s.clk := by
  intro u
  have hu : u = s.queueWrite x.core.val (max (s.nowCycle x.core.val) (s.core x.core.val).horizon) abs d marks := by
    show s.replyWrite x d marks = _
    cases hj : (s.core x.core.val).job with
    | none => simp only [State.replyWrite, ha, hr, hj]
    | some j => simp only [State.replyWrite, ha, hr, hj, State.bobAccess_none (hfree j hj)]
  obtain ⟨hput, hread⟩ := queueWrite_puts hsort hidle (max (s.nowCycle x.core.val) (s.core x.core.val).horizon) abs d marks
  rw [← hu] at hput hread
  exact ⟨hread, by rw [hput.rest]⟩

end Sys2Proof.Machine
end


section
/-!
PROOFS. The first reply to a weft transaction, and the later ones (R120, R198, R239, R267). The end of a pass
moves no clock, so the lifetime of a transaction whose reply faults is judged in the cycle in which it came.
-/
namespace Sys2Proof.Machine

/-! ### What the end of a pass changes -/

/-- The clocks, the configuration and all but the notice and the pass number of the skein are as before. -/
def Stopped (s t : State) : Prop :=
  t = { s with cores := t.cores, mem := t.mem, ecc := t.ecc, regions := t.regions, txns := t.txns, ops := t.ops, colls := t.colls,
               reds := t.reds, passes := t.passes, fns := t.fns, out := t.out, obs := t.obs, chk := t.chk,
               skein := { s.skein with abandonOut := t.skein.abandonOut, passNo := t.skein.passNo } }

theorem Stopped.refl (s : State) : Stopped s s := rfl

theorem Stopped.trans {s t u : State} (h : Stopped s t) (g : Stopped t u) : Stopped s u := by
  unfold Stopped at g
  rw [h] at g
  exact g

theorem Stopped.clk {s t : State} (h : Stopped s t) : t.clk = s.clk := by rw [h]

theorem Stopped.foldl {α : Type} (l : List α) (s : State) (f : State → α → State) (h : ∀ s a, Stopped s (f s a)) :
    Stopped s (l.foldl f s) :=
  List.foldlRecOn (motive := fun u : State => Stopped s u) _ _ (.refl s) fun u hu a _ => hu.trans (h u a)

theorem OnlyObs.stopped {s t : State} {c : Nat} (h : OnlyObs s t c) : Stopped s t := by
  rw [h.rest]
  rfl

theorem traceTo_stopped (s : State) (f : FnId) (ty cause : Byte) (b : List Byte) : Stopped s (s.traceTo f ty cause b) := by
  rw [traceTo_only]
  rfl

theorem haltCore_stopped (s : State) (c n : Nat) : Stopped s (s.haltCore c n) := by
  have charge : Stopped s (s.chargeEnd c) := by
    unfold State.chargeEnd
    split <;> rfl
  have close : ∀ u : State, Stopped u (u.closeLedger c (s.stopCycle c)) := fun u =>
    Stopped.foldl _ u _ fun _ _ => (ledger_onlyObs _ _ _ _ _ _).stopped
  have land : ∀ u : State, Stopped u (u.settleAll c) := fun u => by
    unfold State.settleAll
    split <;> rfl
  exact ((charge.trans (close _)).trans (land _)).trans rfl

theorem dyeAbandoned_stopped (s : State) (p : Pass) (l : List Nat) : Stopped s (s.dyeAbandoned p l) := by
  refine Stopped.foldl _ s _ fun s kv => ?_
  split
  · split
    · split
      · exact traceTo_stopped _ _ _ _ _
      · rfl
    · rfl
  · rfl

theorem setPassState_stopped (s : State) (k : Nat) (st : PassState) : Stopped s (s.setPassState k st) := by
  unfold State.setPassState
  split
  · rfl
  · exact traceTo_stopped _ _ _ _ _

/-- The state in which a pass that has begun has been abandoned, before its skein's notice is queued. -/
def State.quiesced (s : State) (k : Nat) (p : Pass) (st : Status) (noRetry : Bool) : State :=
  let before := if p.start.isSome then 3200 * (p.kernelStart.toNat - (p.start.getD 0).toNat) else 0
  let cores := s.jobCores k
  let s := cores.foldl (fun s c => s.haltCore c before) s
  let s := s.dyeAbandoned p cores
  let s := { s with
    txns := s.txns.filterMap fun (kv : Nat × Option Txn) => match kv.2 with
      | some t => if t.pass = k ∧ t.sent = 0 then none else some (kv.1, some (if t.pass = k then { t with dead := true } else t))
      | none => none
    ops := s.ops.filter fun (kv : Nat × Option WOp) => match kv.2 with
      | some o => !cores.contains o.core.val
      | none => false
    colls := s.colls.filter fun r => r.fn != p.fn
    reds := s.reds.filter fun r => r.fn != p.fn }
  let s := s.setPass k { p with clean := false, status := some st, noRetry := p.noRetry || noRetry || s.overtaken p,
                                abandonedAt := some (s.clk.frame, s.clk.sg), joined := false, cleanKernels := 0 }
  s.setPassState k .quiescing

/-- The notice that the members of a skein get of an abandoned attempt. -/
def State.noticed (s : State) (p : Pass) : State :=
  if s.skein.fn == p.fn && s.skein.multi && s.skein.state != .none then
    { s with skein := { s.skein with abandonOut := some (p.number, BitVec.ofNat 8 p.attempt) } }
  else s

theorem quiesced_stopped (s : State) (k : Nat) (p : Pass) (st : Status) (noRetry : Bool) : Stopped s (s.quiesced k p st noRetry) := by
  have halt := Stopped.foldl (s.jobCores k) s
    (fun s c => s.haltCore c (if p.start.isSome then 3200 * (p.kernelStart.toNat - (p.start.getD 0).toNat) else 0))
    fun s c => haltCore_stopped s c _
  unfold State.quiesced
  refine Stopped.trans (Stopped.trans (halt.trans (dyeAbandoned_stopped _ p (s.jobCores k))) ?_) (setPassState_stopped _ _ _)
  exact Eq.refl _

theorem noticed_stopped (s : State) (p : Pass) : Stopped s (s.noticed p) := by
  unfold State.noticed
  split <;> rfl

theorem abandon_begun {s : State} {k : Nat} {p : Pass} (hp : s.pass k = some p) (hq : p.state ≠ .queued) (hc : p.state ≠ .complete)
    (hu : p.state ≠ .quiescing) (st : Status) (noRetry : Bool) :
    s.abandon k st noRetry = (s.quiesced k p st noRetry).noticed p := by
  unfold State.abandon
  rw [hp]
  dsimp only
  split
  · next h => exact absurd h hq
  · next h => exact absurd h hc
  · next h => exact absurd h hu
  · rfl

theorem abandon_stopped (s : State) (k : Nat) (st : Status) (noRetry : Bool) : Stopped s (s.abandon k st noRetry) := by
  unfold State.abandon
  split
  · rfl
  · split
    · rfl
    · rfl
    · split_ifs <;> rfl
    · exact (quiesced_stopped ..).trans (noticed_stopped ..)

theorem queueRecord_stopped (s : State) (n : Nat) (r : FaultRecord) : Stopped s (s.queueRecord n r) := by
  unfold State.queueRecord
  dsimp only
  split <;> rfl

theorem raise_stopped {cause : Cause} {d : Byte} (hc : EndsPass cause d) (s : State) (src : Src) (touch : Option Nat) :
    Stopped s (s.raise src cause d touch) := by
  cases hp : touch.bind s.pass with
  | none =>
    rw [raise_untouched hc hp]
    exact queueRecord_stopped _ _ _
  | some p =>
    obtain ⟨k, rfl, hk⟩ := Option.bind_eq_some_iff.1 hp
    rw [raise_touched hc hk]
    exact (queueRecord_stopped _ _ _).trans (abandon_stopped _ k _ _)

/-! ### Writing the data of a reply -/

theorem bobCount_error {b : Bob} {v : Bobbin} {w : Bool} {n cyc : Nat} {d : Byte} {f : Cause × Byte}
    (h : bobCount b v w n cyc d = .error f) : EndsPass f.1 f.2 := by
  unfold bobCount at h
  split_ifs at h <;> cases h <;> exact ⟨fun _ => rfl, fun h => nomatch h⟩

/-- What an access to bobbins ends in is a state like before, or a contained fault. -/
def Metered (s : State) : Except (Cause × Byte) State → Prop
  | .ok t => Stopped s t
  | .error f => EndsPass f.1 f.2

theorem Metered.from {s t : State} {r : Except (Cause × Byte) State} (h : Stopped s t) (g : Metered t r) : Metered s r := by
  cases r with
  | error f => exact g
  | ok u => exact Stopped.trans h g

theorem bobAccess_metered (s : State) (c : Nat) (j : Job) (eng : Nat) (r : Range) (cyc : Nat) (d : Byte) :
    Metered s (s.bobAccess c j eng r cyc d) := by
  unfold State.bobAccess
  generalize (s.bobs j).filter (fun b => b.touched eng r) = l
  induction l generalizing s with
  | nil => exact Stopped.refl s
  | cons b l ih =>
    rw [List.foldlM_cons]
    cases hb : bobCount b ((AMap.get Bobbin.reset (s.core c).bobbins b.num).settle (s.core c).horizon) r.write
        (common b.base b.size r.off r.len) cyc d with
    | error f =>
      simp only [hb, error_bind]
      exact bobCount_error hb
    | ok v =>
      simp only [hb, ok_bind]
      exact Metered.from (Stopped.refl s) (ih _)

theorem queueWrite_stopped (s : State) (c t a : Nat) (d : List Byte) (marks : List (Nat × EccMark)) :
    Stopped s (s.queueWrite c t a d marks) := by
  unfold State.queueWrite
  dsimp only
  split <;> rfl

theorem replyWrite_stopped (s : State) (x : Txn) (d : List Byte) (marks : List (Nat × EccMark)) : Stopped s (s.replyWrite x d marks) := by
  unfold State.replyWrite
  split
  · rfl
  · split
    · exact raise_stopped (cause := .accessDenied) ⟨fun _ => rfl, fun h => nomatch h⟩ s _ _
    · dsimp only
      split
      case _ f hok =>
        have hf : EndsPass f.1 f.2 := by
          split at hok
          · next j _ =>
            have h : Metered s (.error f) := hok ▸ bobAccess_metered ..
            exact h
          · cases hok
        exact raise_stopped hf s _ _
      case _ u hok =>
        have hu : Stopped s u := by
          split at hok
          · next j _ =>
            have h : Metered s (.ok u) := hok ▸ bobAccess_metered ..
            exact h
          · cases hok
            rfl
        exact hu.trans (queueWrite_stopped ..)

/-! ### The originator -/

theorem State.txn_set (s : State) (tag : BitVec 14) (x : Txn) :
    ({ s with txns := AMap.set none s.txns tag.toNat (some x) } : State).txn tag = some x :=
  AMap.get_set_same none s.txns tag.toNat (some x)

section
variable {s s' : State} {v : WeftVia} {f : WeftFlit} {x : Txn}

/-- What each reply does at a first arrival. -/
def replyAct (f : WeftFlit) : WType → State → Txn → State
  | .readReply, s, t => s.replyWrite t (flitBytes f 0 (flitCount t.flit)) f.marks
  | .atomicReply, s, t => s.replyWrite t (flitBytes f 0 8) []
  | .fencedTarget, s, t => s.raise (.eng t.core.val t.eng) .fencedTarget (BitVec.ofNat 8 (fld f.payload 0 8)) (some t.pass)
  | _, s, _ => s

theorem replyAct_stopped (f : WeftFlit) (ty : WType) (s : State) (x : Txn) : Stopped s (replyAct f ty s x) := by
  cases ty
  case readReply => exact replyWrite_stopped ..
  case atomicReply => exact replyWrite_stopped ..
  case fencedTarget => exact raise_stopped (cause := .fencedTarget) ⟨fun _ => rfl, fun h => nomatch h⟩ s _ _
  all_goals exact Stopped.refl s

/-- The four replies and their types. -/
def replies (v : WeftVia) : List (Instr × WType) :=
  [(.weftReadReply v, .readReply), (.weftAtomicReply v, .atomicReply), (.weftAcknowledgement v, .ack), (.fencedTargetReply v, .fencedTarget)]

/-- A reply that its node has taken reaches its originator. -/
theorem exec_reply {i : Instr × WType} (hi : i ∈ replies v) (h : s.Taken v i.2 s' f) :
    exec i.1 s = .next (s'.originator f (replyAct f i.2)) := by
  have ht := h.takeWeft
  simp only [replies, List.mem_cons, List.not_mem_nil, or_false] at hi
  obtain rfl | rfl | rfl | rfl := hi
  · show execWeftReadReply v s = _
    simp only [execWeftReadReply, ht]
    rfl
  · show execWeftAtomicReply v s = _
    simp only [execWeftAtomicReply, ht]
    rfl
  · show execWeftAcknowledgement v s = _
    simp only [execWeftAcknowledgement, ht]
    rfl
  · show execFencedTargetReply v s = _
    simp only [execFencedTargetReply, ht]
    rfl

section
variable (hx : s.txn f.tag = some x) (h : Passed s s')
include hx h

theorem Passed.txn : s'.txn f.tag = some x := by
  rw [State.txn, h.same.1]
  exact hx

/-- A later reply is counted and discarded. -/
theorem originator_later (hr : x.replied = true) (act : State → Txn → State) : (s'.originator f act).txns = s.txns ∧
    (s'.originator f act).mem = s.mem ∧ (s'.originator f act).ops = s.ops := by
  rw [originator_replied (h.txn hx) hr act]
  obtain ⟨htxns, hops, hmem, -⟩ := (h.trans (passed_countNow s' x.core.val 0x39)).same
  exact ⟨htxns, hmem, hops⟩

/-- The first reply ends a transaction that was sent once or whose lifetime has passed, and marks any other. -/
theorem originator_txn (hr : x.replied = false) (ty : WType) :
    (x.sent ≤ 1 ∨ x.at' + weftLifetime ≤ s.clk.timebase.toNat → (s'.originator f (replyAct f ty)).txn f.tag = none) ∧
      (1 < x.sent → s.clk.timebase.toNat < x.at' + weftLifetime →
        (s'.originator f (replyAct f ty)).txn f.tag = some { x with replied := true }) := by
  have hclk : (replyAct f ty s' x).clk.timebase = s.clk.timebase :=
    (congrArg Clock.timebase (replyAct_stopped f ty s' x).clk).trans (congrArg Clock.timebase h.same.2.2.2.1)
  rw [originator_first (h.txn hx) hr, hclk]
  refine ⟨fun hend => ?_, fun hsent hlife => ?_⟩
  · rw [if_pos hend]
    exact (endTxn_retires ..).txn
  · rw [if_neg (by omega)]
    exact State.txn_set (replyAct f ty s' x) f.tag { x with replied := true }

/-- The data of a first reply is read back from where the request has named. -/
theorem originator_reads (hr : x.replied = false) (ty : WType) (d : List Byte) (marks : List (Nat × EccMark))
    (hact : replyAct f ty s' x = s'.replyWrite x d marks) (hinv : s.inv = true)
    (hidle : (s.core x.core.val).job = none → (s.core x.core.val).mpend = []) {a : MAddr} (ha : x.localAddr = some a) {r abs : Nat}
    (hres : s.resolve x.fn a d.length = .ok (r, abs))
    (hfree : ∀ j, (s.core x.core.val).job = some j → ∀ b ∈ s.bobs j,
      b.touched x.eng.num { space := aSpace a, off := aOff a, len := d.length, write := true } = false) :
    (s'.originator f (replyAct f ty)).readAt x.core.val (max (s.nowCycle x.core.val) (s.core x.core.val).horizon + 1) abs d.length = d := by
  obtain ⟨hmem, -, hpend⟩ := originator_leaves (h.txn hx) hr (replyAct f ty)
  rw [readAt_congr hmem (hpend _), hact]
  have hbobs : ∀ j, s'.bobs j = s.bobs j := fun j => by
    rw [h.rest]
    rfl
  have hhorizon : (s'.core x.core.val).horizon = (s.core x.core.val).horizon := by
    rw [h.core]
    rfl
  have hmpend : (s'.core x.core.val).mpend = (s.core x.core.val).mpend := by rw [h.core]
  have hread := (replyWrite_reads (s := s') (x := x) (d := d) marks (by rw [hmpend]; exact landSorted_of_inv hinv _)
    (by rw [hmpend, h.job]; exact hidle) ha (by rw [h.resolve]; exact hres) (fun j hj b hb => hfree j (by rw [← h.job]; exact hj) b (by
      rw [← hbobs]
      exact hb))).1
  rw [h.nowCycle, hhorizon] at hread
  exact hread

/-- FENCED_TARGET is recorded at the issuing engine. -/
theorem originator_fenced (hr : x.replied = false) (hroom : (s.reporter (coreDie x.core.val)).length < 16) :
    Raised s (s'.originator f (replyAct f .fencedTarget)) (.eng x.core.val x.eng) .fencedTarget (BitVec.ofNat 8 (fld f.payload 0 8)) := by
  have hrep : ∀ n, s'.reporter n = s.reporter n := fun n => by
    rw [h.rest]
    rfl
  obtain ⟨w, hw, hcore, heng, hcause, hdetail, htime, hframe⟩ := raise_raised (s := s') (src := .eng x.core.val x.eng) (cause := .fencedTarget)
    (d := BitVec.ofNat 8 (fld f.payload 0 8)) ⟨fun _ => rfl, fun h => nomatch h⟩ (by rw [hrep]; exact hroom) (some x.pass)
  have hclk := h.same.2.2.2.1
  refine ⟨w, ?_, hcore, heng, hcause, hdetail, htime.trans (by rw [hclk]), hframe.trans (by rw [hclk])⟩
  rw [← hrep, ← hw, State.reporter, (originator_leaves (h.txn hx) hr (replyAct f .fencedTarget)).2.1]
  rfl

/-- An acknowledged transaction that was sent once leaves its operation one transaction less, or ends it. -/
theorem originator_ack (hr : x.replied = false) (hsent : x.sent ≤ 1) :
    s'.originator f (replyAct f .ack) = (s'.dropTxn f.tag x).opStep x.op := by
  rw [originator_first (h.txn hx) hr, if_pos (.inl hsent)]
  rfl

end

theorem opStep_more {u : State} {n : Nat} {o : WOp} (ho : AMap.get none u.ops n = some o) (h : 1 < o.left) :
    AMap.get none (u.opStep n).ops n = some { o with left := o.left - 1 } := by
  have : ¬o.left ≤ 1 := by omega
  simp only [State.opStep, ho, this, if_false]
  exact AMap.get_set_same ..

theorem opStep_last {u : State} {n : Nat} {o : WOp} (ho : AMap.get none u.ops n = some o) (h : o.left = 1) : u.opStep n = u.opEnd n := by
  simp only [State.opStep, ho, h, le_refl, if_true]

/-- Settles O31: a reply that its node takes passes flits only; a first one does what its type says and ends or marks its
transaction, a later one is counted. -/
theorem weftReplies : Obligations.WeftReplies := by
  unfold Obligations.WeftReplies
  intro s s' v f x hx hinv hidle
  refine ⟨fun i hi htaken => ⟨fun hr => ?_, fun hr => ?_⟩, fun hr a r abs ha => ⟨fun htaken hres hfree => ?_, fun htaken hres hfree => ?_⟩,
    fun hr htaken hroom => ?_, fun hr hsent htaken o ho => ?_⟩
  · exact ⟨_, exec_reply hi htaken, originator_later hx htaken.passed hr _⟩
  · obtain ⟨hend, hmark⟩ := originator_txn hx htaken.passed hr i.2
    exact ⟨_, exec_reply hi htaken, hend, fun hs hl _ => hmark hs hl⟩
  · have hlen : (flitBytes f 0 (flitCount x.flit)).length = flitCount x.flit := leBytes_length _ _
    refine ⟨_, exec_reply (i := (.weftReadReply v, .readReply)) (.head _) htaken, ?_⟩
    have hread := originator_reads hx htaken.passed hr .readReply (flitBytes f 0 (flitCount x.flit)) f.marks rfl hinv hidle ha
      (by rw [hlen]; exact hres) (by rw [hlen]; exact hfree)
    rw [hlen] at hread
    exact hread
  · have hlen : (flitBytes f 0 8).length = 8 := leBytes_length _ _
    refine ⟨_, exec_reply (i := (.weftAtomicReply v, .atomicReply)) (.tail _ (.head _)) htaken, ?_⟩
    have hread := originator_reads hx htaken.passed hr .atomicReply (flitBytes f 0 8) [] rfl hinv hidle ha
      (by rw [hlen]; exact hres) (by rw [hlen]; exact hfree)
    rw [hlen] at hread
    exact hread
  · exact ⟨_, exec_reply (i := (.fencedTargetReply v, .fencedTarget)) (.tail _ (.tail _ (.tail _ (.head _)))) htaken,
      originator_fenced hx htaken.passed hr hroom⟩
  · have hp := htaken.passed
    have hrun := exec_reply (i := (.weftAcknowledgement v, .ack)) (.tail _ (.tail _ (.head _))) htaken
    rw [originator_ack hx hp hr hsent] at hrun
    obtain ⟨hops, hcounter, hnow⟩ := dropTxn_same s' f.tag x
    have hu : AMap.get none (s'.dropTxn f.tag x).ops x.op = some o := by rw [hops, hp.same.2.1, ho]
    refine ⟨fun hl => ⟨_, hrun, opStep_more hu hl⟩, fun hl => ?_⟩
    rw [opStep_last hu hl] at hrun
    obtain ⟨hgone, hclosed, hcount⟩ := opEnd_ends hu
    refine ⟨_, hrun, hgone, hclosed, fun i hi hc hpend hroom n => ?_⟩
    have hview := hcount i hi
    rw [hc, hcounter, hp.counter, hnow, hp.nowCycle] at hview
    exact hview hpend hroom n

end

end Sys2Proof.Machine
end


section
/-!
PROOFS. The timeout and the lifetime of a weft transaction, and a flit that a port passes on (R263, R264, R267, R268).
-/
namespace Sys2Proof.Machine

/-! ### The timeout and the lifetime -/

section
variable {s : State} {tag : BitVec 14} {x : Txn}

/-- A retransmission enters an injection queue that has room for it, with the tag that it has. -/
theorem enterQueue_again {c : CoreId} {cycle : Nat} {o : OutFlit} (hst : (s.core c.val).staged = [o])
    (hroom : (s.core c.val).injq.length < 16) (ha : o.flit.attempt ≠ 0) (hstart : o.start ≤ cycle) :
    s.enterQueue c cycle =
      s.updCore c.val fun k => { k with staged := [], injq := k.injq ++ [o], room := max k.room cycle } := by
  have hfresh : (isRequest o.flit.kind && o.flit.attempt == 0) = false := by rw [beq_false_of_ne ha, Bool.and_false]
  have hb : ¬s.blocks c cycle o := by
    rw [State.blocks, hfresh]
    rintro (h | h | ⟨h, -⟩)
    · omega
    · omega
    · exact nomatch h
  rw [State.enterQueue, hst, List.length_singleton, (State.enterQueueN_cons hst cycle 0).2 hb, State.enterQueueN]
  unfold State.enterOne
  simp only [hfresh, Bool.false_eq_true, if_false]

theorem weftRetries_countNow (c code : Nat) : (s.countNow c code).weftRetries = s.weftRetries := by
  rw [(passed_countNow s c code).rest]
  rfl

theorem timeout_late (hr : x.replied = false) (hup : x.sent ≠ 0 ∧ s.due (x.at' + s.weftTimeout) = true) :
    (x.replied || x.sent == 0 || !s.due (x.at' + s.weftTimeout)) = false := by
  simp [hr, hup.1, hup.2]

section
variable (hx : s.txn tag = some x)
include hx

theorem timeout_early (h : x.replied = true ∨ ¬(x.sent ≠ 0 ∧ s.due (x.at' + s.weftTimeout) = true)) :
    execWeftTimeoutExpiry tag s = .next s := by
  have hc : (x.replied || x.sent == 0 || !s.due (x.at' + s.weftTimeout)) = true := by
    obtain h | h := h
    · simp [h]
    · by_cases h0 : x.sent = 0
      · simp [h0]
      · simp only [ne_eq, h0, not_false_eq_true, true_and, Bool.not_eq_true] at h
        simp [h]
  simp only [execWeftTimeoutExpiry, hx, hc, if_true]

section
variable (hr : x.replied = false) (hup : x.sent ≠ 0 ∧ s.due (x.at' + s.weftTimeout) = true)
include hr hup

theorem timeout_dead (hd : x.dead = true) : execWeftTimeoutExpiry tag s = .next (s.countNow x.core.val 0x38) := by
  simp only [execWeftTimeoutExpiry, hx, timeout_late hr hup, Bool.false_eq_true, if_false, hd, if_true]

/-- The last attempt raises WEFT_TIMEOUT. -/
theorem timeout_raises (hd : x.dead = false) (hlast : s.weftRetries ≤ x.flit.attempt.toNat)
    (hroom : (s.reporter (coreDie x.core.val)).length < 16) :
    ∃ t, execWeftTimeoutExpiry tag s = .next t ∧ Raised s t (.eng x.core.val x.eng) .weftTimeout 0x01 := by
  have hp := passed_countNow s x.core.val 0x38
  have hrep : ∀ n, (s.countNow x.core.val 0x38).reporter n = s.reporter n := fun n => by
    rw [hp.rest]
    rfl
  obtain ⟨w, hw, hcore, heng, hcause, hdetail, htime, hframe⟩ := raise_raised (s := s.countNow x.core.val 0x38)
    (src := .eng x.core.val x.eng) (cause := .weftTimeout) (d := 0x01) ⟨fun _ => rfl, fun h => nomatch h⟩
    (by rw [hrep]; exact hroom) (some x.pass)
  refine ⟨(s.countNow x.core.val 0x38).raise (.eng x.core.val x.eng) .weftTimeout 0x01 (some x.pass), ?_, w, ?_, hcore, heng, hcause, hdetail, htime.trans (by rw [hp.same.2.2.2.1]), hframe.trans (by rw [hp.same.2.2.2.1])⟩
  · simp only [execWeftTimeoutExpiry, hx, timeout_late hr hup, Bool.false_eq_true, if_false, hd,
      weftRetries_countNow, hlast, if_true]
  · rw [← hrep]
    exact hw

/-- The next attempt. -/
def Txn.again (x : Txn) : WeftFlit := { x.flit with attempt := x.flit.attempt + 1 }

/-- An earlier attempt is sent again. -/
theorem timeout_retries (hd : x.dead = false) (hmore : x.flit.attempt.toNat < s.weftRetries) (hst : (s.core x.core.val).staged = [])
    (hroom : (s.core x.core.val).injq.length < 16) : ∃ t, execWeftTimeoutExpiry tag s = .next t ∧
      t.txn tag = some { x with flit := x.again, sent := x.sent + 1 } ∧
      ∃ o, (t.core x.core.val).injq = (s.core x.core.val).injq ++ [o] ∧ o.flit = x.again := by
  obtain ⟨u, hu⟩ : ∃ u, u = s.countNow x.core.val 0x38 := ⟨_, rfl⟩
  have hp : Passed s u := hu ▸ passed_countNow ..
  obtain ⟨o, ho⟩ : ∃ o : OutFlit, o = { flit := x.again, start := 0, eng := x.eng, op := x.op, localAddr := x.localAddr } := ⟨_, rfl⟩
  obtain ⟨w, hw⟩ : ∃ w : State, w = ({ u with txns := AMap.set none u.txns tag.toNat (some { x with flit := x.again, sent := x.sent + 1 }) } :
    State).updCore x.core.val fun k => { k with staged := k.staged ++ [o] } := ⟨_, rfl⟩
  have hcore : w.core x.core.val = { u.core x.core.val with staged := [o] } := by
    rw [hw, State.core_updCore_same]
    have : (u.core x.core.val).staged = [] := by rw [hp.core]; exact hst
    show ({ u.core x.core.val with staged := (u.core x.core.val).staged ++ [o] } : Core) = _
    rw [this]
    rfl
  have hinjq : (w.core x.core.val).injq = (s.core x.core.val).injq := by rw [hcore]; exact hp.injq _
  have hattempt : o.flit.attempt ≠ 0 := by
    have hlt : x.flit.attempt.toNat < 3 := hmore.trans_le (Nat.le_of_lt_succ (Nat.mod_lt _ (by decide)))
    rw [ho]
    intro h
    have h1 : (x.flit.attempt + 1).toNat = 0 := congrArg BitVec.toNat h
    rw [BitVec.toNat_add] at h1
    have h2 : (1 : BitVec 2).toNat = 1 := rfl
    omega
  have hrun : execWeftTimeoutExpiry tag s = .next (w.enterQueue x.core (u.nowCycle x.core.val)) := by
    have hnot : ¬s.weftRetries ≤ x.flit.attempt.toNat := by omega
    simp only [execWeftTimeoutExpiry, hx, timeout_late hr hup, Bool.false_eq_true, if_false, hd,
      weftRetries_countNow, hnot, hw, hu, ho]
    rfl
  rw [enterQueue_again (by rw [hcore]) (by rw [hinjq]; exact hroom) hattempt (by rw [ho]; exact Nat.zero_le _)] at hrun
  refine ⟨_, hrun, ?_, o, ?_, by rw [ho]⟩
  · rw [hw]
    exact State.txn_set u tag { x with flit := x.again, sent := x.sent + 1 }
  · rw [State.core_updCore_same]
    exact congrArg (· ++ [o]) hinjq

end

theorem lifetime_runs : execWeftLifetimeExpiry tag s =
    .next (if ((x.replied || x.dead) && s.due (x.at' + weftLifetime)) = true then s.endTxn tag x else s) := by
  simp only [execWeftLifetimeExpiry, hx]

end

end

/-! ### Forwarding -/

section
variable {s : State} {p : PortId} {hdr : W64} {payload : BitVec 512}

theorem weftForward_damaged (hu : (s.port p.val).usable = true) (hc : fld hdr 0 2 = 1) (h : linkOk hdr payload = false)
    (free : List (BitVec 5)) : execWeftForward (.port p hdr payload free) s = .next (s.portCount p.val 2) := by
  have hd : ((s.port p.val).state == .disabled) = false := by
    unfold Port.usable at hu
    cases hst : (s.port p.val).state <;> simp_all
  simp [execWeftForward, State.linkFlit, hd, hc, h]

theorem weftForward_sound (hu : (s.port p.val).usable = true) (hc : fld hdr 0 2 = 1) (h : linkOk hdr payload = true) {f : WeftFlit}
    (hf : f = weftOfLink hdr payload (1728 + 24 * (p.val / 8))) (hd : f.dst ≠ s.moduleId) (free : List (BitVec 5)) :
    execWeftForward (.port p hdr payload free) s = .next (s.atPort p.val f free).1 := by
  simp only [execWeftForward, linkFlit_sound hu hc h, ← hf, hd, if_false]

/-- Behind others a flit waits. -/
theorem atPort_behind {f : WeftFlit} (h : (s.port p.val).ingress ≠ []) (free : List (BitVec 5)) :
    s.atPort p.val f free = (s.ingressAdd p.val f, false) := by
  have he : (s.port p.val).ingress.isEmpty = false := by simpa using h
  simp [State.atPort, he]

theorem atPort_first {f : WeftFlit} (h : (s.port p.val).ingress = []) : s.atPort p.val f [] = s.fromPort p.val f [] := by
  have he : (s.port p.val).ingress.isEmpty = true := by simp [h]
  simp [State.atPort, he]

theorem attachColumn_base (s : State) (x io : Nat) : s.attachColumn x io - ioBase io < 24 := by
  have hcol : max (ioBase io) (min x (ioBase io + 23)) < ioBase io + 24 := by omega
  unfold State.attachColumn
  simp only
  generalize max (ioBase io) (min x (ioBase io + 23)) = col at hcol
  generalize hl : (if col < ioBase io + 12 then _ else _ : List Nat) = l
  have hmem : ∀ c ∈ l, c < ioBase io + 24 := by
    intro c hc
    rw [← hl] at hc
    split at hc
    · obtain ⟨i, hi, rfl⟩ := List.mem_map.1 hc
      have := List.mem_range.1 hi
      omega
    · obtain ⟨i, -, rfl⟩ := List.mem_map.1 hc
      omega
  cases hf : l.find? fun c => !s.bypassed (48 * (if io < 2 then 0 else 35) + c) with
  | none =>
    show col - _ < _
    omega
  | some c =>
    have := hmem c (List.mem_of_find?_eq_some hf)
    show c - _ < _
    omega

/-- Between nodes of one I/O die a flit does not enter the mesh. -/
theorem carry_within {src dst : Nat} (h : 1728 ≤ src ∧ 1728 ≤ dst ∧ nodeIo src = nodeIo dst) (f : WeftFlit) (free : List (BitVec 5)) (n : Nat) :
    s.carry f src dst free n none = (s, true) := by
  simp only [State.carry, State.cross, if_pos h]

/-- The node at which a flit for an egress port leaves the mesh. -/
def State.exitNode (s : State) (p q : Nat) : Nat :=
  ioNode (q / 8) (s.attachColumn (nodeX (1728 + 24 * (p / 8))) (q / 8) - ioBase (q / 8))

theorem exitNode_io (s : State) (p q : Nat) : 1728 ≤ s.exitNode p q ∧ nodeIo (s.exitNode p q) = q / 8 := by
  have := attachColumn_base s (nodeX (1728 + 24 * (p / 8))) (q / 8)
  rw [State.exitNode, nodeIo, ioNode]
  omega

/-- A flit with hops left and a route reaches the I/O die of its egress port. -/
theorem fromPort_leaves {f : WeftFlit} {p q : Nat} (hd : f.dst ≠ s.moduleId) (hh : f.hops ≠ 7) (hroute : s.route f.dst = some q)
    (hway : p / 8 = q / 8 ∨ (∀ b, (s.core b).svc ≠ .bypassed) ∧ s.warpInFlight = []) :
    ∃ u, Counted s u ∧ s.fromPort p f [] = (u.egress q { f with hops := f.hops + 1 }, false) := by
  have hh' : ¬f.hops.toNat = 7 := fun h => hh (BitVec.eq_of_toNat_eq (by rw [h]; rfl))
  have hcarry : (s.carry f (1728 + 24 * (p / 8)) (s.exitNode p q) [] s.meshNow none).2 = true := by
    obtain h | ⟨hb, hw⟩ := hway
    · have hio := exitNode_io s p q
      rw [carry_within ⟨by omega, hio.1, by rw [hio.2, ← h, nodeIo]; omega⟩]
    · exact carry_arrives hb hw ..
  have hcounted := counted_carry hcarry
  obtain ⟨⟨u, b⟩, hu⟩ : ∃ r, s.carry f (1728 + 24 * (p / 8)) (s.exitNode p q) [] s.meshNow none = r := ⟨_, rfl⟩
  rw [hu] at hcarry hcounted
  obtain rfl : b = true := hcarry
  refine ⟨u, hcounted, ?_⟩
  simp only [State.fromPort, hd, if_false, hh', hroute]
  show (match s.carry f (1728 + 24 * (p / 8)) (s.exitNode p q) [] s.meshNow none with
    | (s, true) => (s.egress q { f with hops := f.hops + 1 }, false)
    | (s, false) => (s, false)) = _
  rw [hu]

theorem fromPort_discards {f : WeftFlit} {p : Nat} (hd : f.dst ≠ s.moduleId) (h : f.hops = 7 ∨ s.route f.dst = none) :
    s.fromPort p f [] = (s.portCount p 6, false) := by
  unfold State.fromPort
  simp only [hd, if_false]
  obtain h | h := h
  · rw [h]
    rfl
  · rw [h]
    exact ite_self _

theorem egress_full {u : State} {q : Nat} {f : WeftFlit} (h : (u.port q).egress.length = 16) :
    ((u.egress q f).port q).egress = (u.port q).egress ∧
      AMap.get 0 ((u.egress q f).port q).counts 5 = AMap.get 0 (u.port q).counts 5 + 1 := by
  rw [State.egress, if_pos (by omega), State.portCount, State.port_updPort_same]
  exact ⟨rfl, AMap.get_upd_same 0 (u.port q).counts 5 (· + 1)⟩

theorem egress_joins {u : State} {q : Nat} {f : WeftFlit} (h : (u.port q).egress.length < 16) :
    ((u.egress q f).port q).egress = (u.port q).egress ++ [f] := by
  rw [State.egress, if_neg (by omega), State.port_updPort_same]

end

/-- Settles O32: at its timeout a request is sent again, gives up, or was abandoned; a flit for another module waits, leaves or is
discarded. -/
theorem weftTimers : Obligations.WeftTimers := by
  unfold Obligations.WeftTimers
  intro s tag x hx up
  refine ⟨fun hr hup => timeout_early hx (.inr hup), fun hr hup hd hmore hst hroom => timeout_retries hx hr hup hd hmore hst hroom,
    fun hr hup hd hlast hroom => timeout_raises hx hr hup hd hlast hroom, fun hend => ⟨?_, fun hdue => ?_⟩, fun hend => ?_,
    fun p hdr payload hu hc => ⟨fun hok => weftForward_damaged hu hc hok [], fun hok hd hq => ⟨fun hfull => ?_, fun hroom => ?_⟩,
      fun hok hd hq => ⟨fun hh => ?_, fun hh hroute => ?_, fun hh q hroute hway => ⟨fun hfull => ?_, fun hroom => ?_⟩⟩⟩⟩
  · by_cases hgo : x.replied = true ∨ ¬up
    · exact ⟨s, timeout_early hx hgo, rfl, rfl⟩
    · obtain ⟨hr, hup⟩ := not_or.1 hgo
      have hp := passed_countNow s x.core.val 0x38
      exact ⟨_, timeout_dead hx (Bool.eq_false_iff.2 hr) (not_not.1 hup) (hend.resolve_left hr), hp.same.1, hp.injq _⟩
  · refine ⟨s.endTxn tag x, ?_, (endTxn_retires s tag x).txn⟩
    show execWeftLifetimeExpiry tag s = _
    rw [lifetime_runs hx, if_pos]
    rw [hdue, Bool.and_true, Bool.or_eq_true]
    exact hend
  · show execWeftLifetimeExpiry tag s = _
    rw [lifetime_runs hx, if_neg]
    rintro h
    rw [Bool.and_eq_true, Bool.or_eq_true] at h
    obtain ⟨hr, hd⟩ | hnot := hend
    · rw [hr, hd] at h
      exact nomatch h.1
    · exact nomatch hnot.symm.trans h.2
  · show execWeftForward (.port p hdr payload []) s = _
    rw [weftForward_sound hu hc hok rfl hd, atPort_behind hq, State.ingressAdd, if_pos hfull]
  · refine ⟨_, weftForward_sound hu hc hok rfl hd [], ?_⟩
    rw [atPort_behind hq, State.ingressAdd, if_neg (by omega), State.port_updPort_same]
  · show execWeftForward (.port p hdr payload []) s = _
    rw [weftForward_sound hu hc hok rfl hd, atPort_first hq, fromPort_discards hd (.inl hh)]
  · show execWeftForward (.port p hdr payload []) s = _
    rw [weftForward_sound hu hc hok rfl hd, atPort_first hq, fromPort_discards hd (.inr hroute)]
  · obtain ⟨u, hcount, hrun⟩ := fromPort_leaves hd hh hroute hway
    have hport : u.port q = s.port q := by rw [hcount.rest]; rfl
    obtain ⟨hegress, hcounts⟩ := egress_full (u := u) (f := { weftOfLink hdr payload (1728 + 24 * (p.val / 8)) with
      hops := (weftOfLink hdr payload (1728 + 24 * (p.val / 8))).hops + 1 }) (by rw [hport]; exact hfull)
    rw [hport] at hegress hcounts
    refine ⟨_, weftForward_sound hu hc hok rfl hd [], ?_⟩
    rw [atPort_first hq, hrun]
    exact ⟨hegress, hcounts⟩
  · obtain ⟨u, hcount, hrun⟩ := fromPort_leaves hd hh hroute hway
    have hport : u.port q = s.port q := by rw [hcount.rest]; rfl
    refine ⟨_, weftForward_sound hu hc hok rfl hd [], ?_⟩
    rw [atPort_first hq, hrun, ← hport]
    exact egress_joins (by rw [hport]; exact hroom)

end Sys2Proof.Machine
end


section
/-!
PROOFS. Warp flits at a port and at a core (R185, R230, R254, R256, R258): the entry that a header fits, the deadline at which a flit goes
on to its core or is absent, and its delivery.
-/
namespace Sys2Proof.Machine

/-! ### At the port -/

section
variable {s : State} {p : PortId} {hdr : W64} {payload : BitVec 512}

/-- A flit that would land at this frame of its kernel comes too late. -/
def State.warpLateAt (s : State) (p : PortId) (hdr : W64) (u : WarpUse) (f : Nat) : Bool :=
  decide (slotCycle (f + u.w.latClass) (fld hdr 22 7) + 39 + fld hdr 29 6 < s.nowCycle u.c) ||
    (s.port p.val).passed.contains (f + u.w.latClass, fld hdr 22 7, fld hdr 29 6)

/-- The receive entries of a port, with the frames in which the position of a header may still come. -/
def State.warpCands (s : State) (p : PortId) (hdr : W64) : List (WarpUse × Nat) :=
  s.runningFns.flatMap fun fk =>
    ((s.warpUses fk.1 0x02).filter fun u => u.w.port == p.val).flatMap fun u =>
      (List.range u.w.flits).filterMap fun i =>
        let (f, g, q) := warpPlace u.w i
        if g = fld hdr 22 7 ∧ q = fld hdr 29 6 ∧ s.warpLateAt p hdr u f = false then some (u, f) else none

/-- The header names this candidate: its frame and the module that sends for it. -/
def State.warpNamed (s : State) (hdr : W64) (c : WarpUse × Nat) : Bool :=
  c.2 % 256 == fld hdr 14 8 && s.moduleOf c.1.w.peer == some (BitVec.ofNat 12 (fld hdr 2 12))

/-- The port holds a flit for its deadline. -/
def State.warpHeld (s : State) (p : PortId) (hdr : W64) (payload : BitVec 512) (c : WarpUse × Nat) : State :=
  s.updPort p.val fun q => { q with
    warp := q.warp ++ [{ frame := c.2 + c.1.w.latClass, sg := fld hdr 22 7, pos := fld hdr 29 6, payload := payload }] }

/-- The port discards a flit that fits no entry. -/
def State.warpDiscarded (s : State) (p : PortId) (hdr : W64) : State :=
  match s.warpCands p hdr with
  | [] => s.portCount p.val 4
  | c :: t =>
    let (u, f) := t.foldl (fun (m : WarpUse × Nat) (x : WarpUse × Nat) => if x.2 < m.2 then x else m) c
    s.warpMismatch p.val (f + u.w.latClass, fld hdr 22 7, fld hdr 29 6)

theorem warpFlitArrival_damaged (hs : (s.port p.val).state = .full) (hc : fld hdr 0 2 = 0) (h : linkOk hdr payload = false) :
    execWarpFlitArrival p hdr payload s = .next (s.portCount p.val 2) := by
  simp [execWarpFlitArrival, hs, hc, h]

theorem warpFlitArrival_sound (hs : (s.port p.val).state = .full) (hc : fld hdr 0 2 = 0) (h : linkOk hdr payload = true) :
    execWarpFlitArrival p hdr payload s = .next (match (s.warpCands p hdr).find? (s.warpNamed hdr) with
      | some c => s.warpHeld p hdr payload c
      | none => s.warpDiscarded p hdr) := by
  unfold execWarpFlitArrival
  rw [if_neg (by simp [hs, hc]), if_neg (by simp [h]), if_neg (by simp [hs])]
  show (match (s.warpCands p hdr).find? (s.warpNamed hdr) with
    | some (u, f) => Host.Outcome.next (s.warpHeld p hdr payload (u, f))
    | none => match s.warpCands p hdr with
      | [] => .next (s.portCount p.val 4)
      | c :: t =>
        let (u, f) := t.foldl (fun (m : WarpUse × Nat) (x : WarpUse × Nat) => if x.2 < m.2 then x else m) c
        .next (s.warpMismatch p.val (f + u.w.latClass, fld hdr 22 7, fld hdr 29 6))) = _
  unfold State.warpDiscarded
  cases (s.warpCands p hdr).find? (s.warpNamed hdr) with
  | some c => rfl
  | none =>
    cases s.warpCands p hdr with
    | nil => rfl
    | cons c t => rfl

/-- Flit `i` of a receive entry is one that this header may name, in time. -/
structure WarpFits (s : State) (p : PortId) (hdr : W64) (u : WarpUse) (i : Nat) : Prop where
  flit : i < u.w.flits
  port : u.w.port = p.val
  place : (warpPlace u.w i).2 = (fld hdr 22 7, fld hdr 29 6)
  now : s.nowCycle u.c ≤ slotCycle ((warpPlace u.w i).1 + u.w.latClass) (fld hdr 22 7) + 39 + fld hdr 29 6
  fresh : ((warpPlace u.w i).1 + u.w.latClass, fld hdr 22 7, fld hdr 29 6) ∉ (s.port p.val).passed

theorem warpLateAt_false {u : WarpUse} {f : Nat} : s.warpLateAt p hdr u f = false ↔
    s.nowCycle u.c ≤ slotCycle (f + u.w.latClass) (fld hdr 22 7) + 39 + fld hdr 29 6 ∧
      (f + u.w.latClass, fld hdr 22 7, fld hdr 29 6) ∉ (s.port p.val).passed := by
  simp [State.warpLateAt]

theorem mem_warpCands {c : WarpUse × Nat} : c ∈ s.warpCands p hdr ↔
    ∃ fk ∈ s.runningFns, c.1 ∈ s.warpUses fk.1 0x02 ∧ ∃ i, WarpFits s p hdr c.1 i ∧ c.2 = (warpPlace c.1.w i).1 := by
  unfold State.warpCands
  simp only [List.mem_flatMap, List.mem_filter, beq_iff_eq, List.mem_filterMap, List.mem_range, Option.ite_none_right_eq_some,
    Option.some.injEq, warpLateAt_false]
  constructor
  · rintro ⟨fk, hfk, u, ⟨hu, hport⟩, i, hi, ⟨hg, hq, hnow, hfresh⟩, rfl⟩
    exact ⟨fk, hfk, hu, i, ⟨hi, hport, Prod.ext hg hq, hnow, hfresh⟩, rfl⟩
  · rintro ⟨fk, hfk, hu, i, ⟨hi, hport, hplace, hnow, hfresh⟩, hf⟩
    exact ⟨fk, hfk, c.1, ⟨hu, hport⟩, i, hi, ⟨congrArg Prod.fst hplace, congrArg Prod.snd hplace, hnow, hfresh⟩, Prod.ext rfl hf.symm⟩

theorem warpNamed_iff {c : WarpUse × Nat} : s.warpNamed hdr c = true ↔
    c.2 % 256 = fld hdr 14 8 ∧ s.moduleOf c.1.w.peer = some (BitVec.ofNat 12 (fld hdr 2 12)) := by
  simp [State.warpNamed]

/-- A discarded flit is counted, and waits nowhere. -/
theorem warpDiscarded_counts : ((s.warpDiscarded p hdr).port p.val).warp = (s.port p.val).warp ∧
    AMap.get 0 ((s.warpDiscarded p hdr).port p.val).counts 4 = AMap.get 0 (s.port p.val).counts 4 + 1 := by
  have hcount := AMap.get_upd_same 0 (s.port p.val).counts 4 (· + 1)
  unfold State.warpDiscarded
  split
  · rw [State.portCount, State.port_updPort_same]
    exact ⟨rfl, hcount⟩
  · dsimp only
    rw [State.warpMismatch, State.port_updPort_same, State.portCount, State.port_updPort_same]
    exact ⟨rfl, hcount⟩

end

/-! ### The deadline -/

section
variable {s : State}

theorem cutHops_serving (hs : ∀ r, s.serving r = true) (turns : List Nat) (dst : Nat) (l : List WarpHop) :
    (s.cutHops turns dst l).2 = none := by
  have hb : ∀ r, ((s.core r).svc == .bypassed) = false := fun r => by
    have h : (s.core r).svc = .inService := by simpa [State.serving] using hs r
    rw [h]
    rfl
  induction l with
  | nil => rfl
  | cons h l ih =>
    cases l with
    | nil => simp [State.cutHops, hs]
    | cons n l => simpa [State.cutHops, hb] using ih

/-- Where every core is in service no router cuts a flit's way. -/
theorem warpWay_serving (hs : ∀ r, s.serving r = true) (src dst inj : Nat) : (s.warpWay src dst inj).2 = none := by
  have hb : ∀ r, ((s.core r).svc == .bypassed) = false := fun r => by
    have h : (s.core r).svc = .inService := by simpa [State.serving] using hs r
    rw [h]
    rfl
  unfold State.warpWay
  split
  · rfl
  · simp only [hb, Bool.false_and, Bool.false_eq_true, if_false]
    exact cutHops_serving hs _ _ _

/-- With no other warp flit on its way, a flit that starts on a whole way reaches its core's hold buffer. -/
theorem launch_alone (hw : s.warpInFlight = []) (r : WarpRun) {h : HeldWarp} (hr : r.held = some h) :
    (s.launch [(r, none)]).2 = [] ∧
      Counted (s.updCore r.core fun k => { k with hold := k.hold ++ [h] }) (s.launch [(r, none)]).1 := by
  have hmeets : runMeets [] [r] = [] := by simp [runMeets]
  unfold State.launch
  simp only [hw, List.map_cons, List.map_nil, List.filter_nil, hmeets, List.foldl_nil, realMeets, List.foldl_cons, hr,
    List.contains_nil, Bool.false_eq_true, if_false]
  refine ⟨rfl, ?_⟩
  exact List.foldlRecOn (motive := fun u : State => Counted (s.updCore r.core fun k => { k with hold := k.hold ++ [h] }) u) _ _ (.refl _)
    fun u hu x _ => hu.trans (counted_countAt ..)

/-- The flit that a port injects. -/
def warpHeldOf (s : State) (u : WarpUse) (l : Loaded) (pass i : Nat) (payload : BitVec 512) : HeldWarp :=
  let node := l.portNode u.w u.n u.c
  let (f, sg, p) := recvPlace u.w i
  let bob := match (s.core u.c).job, u.bobbin with
    | some j, some b => (s.bobs j).find? fun o => o.num == b
    | _, _ => none
  { src := node, inj := slotCycle f sg + 40 + p, due := slotCycle f sg + 64 + 16 * nodeSteps u.c node + p, pass := pass,
    addr := (match bob with | some b => bobAddr b u.c i | none => BitVec.ofNat 48 (absAddr 0 u.c 0)),
    data := leBytes 64 payload.toNat, bobbin := some ((u.bobbin.getD 256), i, u.w.flits - 1), entry := some u.n }

theorem portInject_holds (hsched : s.scheduled = true) (hs : ∀ r, s.serving r = true) (hw : s.warpInFlight = []) (u : WarpUse) (l : Loaded)
    (pass i : Nat) (payload : BitVec 512) :
    Counted (s.updCore u.c fun k => { k with hold := k.hold ++ [warpHeldOf s u l pass i payload] }) (s.portInject u l pass i payload) := by
  obtain ⟨h, hh⟩ : ∃ h, h = warpHeldOf s u l pass i payload := ⟨_, rfl⟩
  obtain ⟨w, hway⟩ : ∃ w, w = s.warpWay h.src u.c (s.passBase pass + h.inj) := ⟨_, rfl⟩
  have hnone : w.2 = none := by
    rw [hway]
    exact warpWay_serving hs _ _ _
  have heq : s.portInject u l pass i payload =
      (s.launch [({ core := u.c, held := some h, entry := 0, flit := 0, hops := w.1 }, w.2)]).1.warpFaults pass
        (s.launch [({ core := u.c, held := some h, entry := 0, flit := 0, hops := w.1 }, w.2)]).2 := by
    unfold State.portInject
    rw [hsched, hway, hh]
    rfl
  obtain ⟨hfaults, hcount⟩ := launch_alone hw { core := u.c, held := some h, entry := 0, flit := 0, hops := w.1 } rfl
  rw [heq, hnone, hfaults, ← hh]
  exact hcount

section
variable {p : PortId} {frame : Nat} {sg : Fin 100} {pos : Fin 44}

/-- Flit of an entry whose deadline is at this place. -/
def deadlineFlit (frame : Nat) (sg : Fin 100) (pos : Fin 44) (u : WarpUse) : Option Nat :=
  flitAt (recvPlace u.w) u.w.flits frame sg.val pos.val

/-- The armed entry of a port whose flit is due at this place. -/
def State.warpDue (s : State) (p : PortId) (frame : Nat) (sg : Fin 100) (pos : Fin 44) : Option ((FnId × Nat × Pass) × WarpUse) :=
  s.runningFns.findSome? fun fk =>
    ((s.warpUses fk.1 0x02).find? fun u => u.armed && u.w.port == p.val && (deadlineFlit frame sg pos u).isSome).map fun u => (fk, u)

/-- A flit that a port holds for this place. -/
def PortWarp.at (frame : Nat) (sg : Fin 100) (pos : Fin 44) (w : PortWarp) : Bool :=
  w.frame == frame && w.sg == sg.val && w.pos == pos.val

/-- The place has passed at the port. -/
def State.warpPassed (s : State) (p : PortId) (frame : Nat) (sg : Fin 100) (pos : Fin 44) : State :=
  s.updPort p.val fun q => { q with
    warp := q.warp.filter fun w => !w.at frame sg pos
    mismatched := q.mismatched.filter fun m => m != (frame, sg.val, pos.val)
    passed := q.passed ++ [(frame, sg.val, pos.val)] }

theorem warpInFlight_warpPassed (s : State) (p : PortId) (frame : Nat) (sg : Fin 100) (pos : Fin 44) :
    (s.warpPassed p frame sg pos).warpInFlight = s.warpInFlight := by
  have hsvc : SameService s (s.warpPassed p frame sg pos) := fun _ => rfl
  rw [warpInFlight_eq, warpInFlight_eq]
  exact congrArg (s.cores.flatMap ·) (funext fun ck => hsvc.runsOf rfl rfl ck)

theorem PortWarp.at_iff {w : PortWarp} : w.at frame sg pos = true ↔ w.frame = frame ∧ w.sg = sg.val ∧ w.pos = pos.val := by
  simp [PortWarp.at, and_assoc]

section
variable {fk : FnId × Nat × Pass} {u : WarpUse} {i : Nat}

theorem warpDue_unique (hfk : fk ∈ s.runningFns) (hu : u ∈ s.warpUses fk.1 0x02) (ha : u.armed = true) (hp : u.w.port = p.val)
    (hat : deadlineFlit frame sg pos u = some i)
    (honly : ∀ fk' ∈ s.runningFns, ∀ v ∈ s.warpUses fk'.1 0x02, v.armed = true → v.w.port = p.val →
      (deadlineFlit frame sg pos v).isSome = true → fk' = fk ∧ v = u) : s.warpDue p frame sg pos = some (fk, u) := by
  have hsome : (s.warpDue p frame sg pos).isSome = true := by
    refine List.findSome?_isSome_iff.2 ⟨fk, hfk, ?_⟩
    rw [Option.isSome_map, List.find?_isSome]
    exact ⟨u, hu, by simp [ha, hp, hat]⟩
  obtain ⟨⟨fk', v⟩, hdue⟩ := Option.isSome_iff_exists.1 hsome
  obtain ⟨fk'', hmem, hfind⟩ := List.exists_of_findSome?_eq_some hdue
  obtain ⟨v', hv, hpair⟩ := Option.map_eq_some_iff.1 hfind
  obtain ⟨rfl, rfl⟩ := Prod.mk.inj hpair
  have hcond := List.find?_some hv
  simp only [Bool.and_eq_true, beq_iff_eq] at hcond
  obtain ⟨rfl, rfl⟩ := honly fk'' hmem v' (List.mem_of_find?_eq_some hv) hcond.1.1 hcond.1.2 hcond.2
  exact hdue

theorem execWarpDeadline_eq : execWarpDeadline p frame sg pos s = match s.warpDue p frame sg pos with
    | none => .next (s.warpPassed p frame sg pos)
    | some (fk, u) => match (s.port p.val).warp.find? (PortWarp.at frame sg pos), s.loaded fk.1 with
      | some w, some l =>
        let t := (s.warpPassed p frame sg pos).portInject u l fk.2.1 ((deadlineFlit frame sg pos u).getD 0) w.payload
        .next (if ((deadlineFlit frame sg pos u).getD 0) + 1 = u.w.flits then
          t.updCore u.c fun k => { k with armed := k.armed.filter fun a => !(a.entry == u.n && !a.send) } else t)
      | _, _ => .next ((s.warpPassed p frame sg pos).raise (.eng u.c .fxe) .warpLate
          (if (s.port p.val).mismatched.contains (frame, sg.val, pos.val) then 0x02 else 0x01) (some fk.2.1)) := rfl

variable (hdue : s.warpDue p frame sg pos = some (fk, u)) (hat : deadlineFlit frame sg pos u = some i)
include hdue hat

theorem warpDeadline_held {l : Loaded} (hl : s.loaded fk.1 = some l) {w : PortWarp} (hw : w ∈ (s.port p.val).warp)
    (hwat : w.at frame sg pos = true) (honly : ∀ w' ∈ (s.port p.val).warp, w'.at frame sg pos = true → w' = w) :
    execWarpDeadline p frame sg pos s = .next (
      let t := (s.warpPassed p frame sg pos).portInject u l fk.2.1 i w.payload
      if i + 1 = u.w.flits then t.updCore u.c fun k => { k with armed := k.armed.filter fun a => !(a.entry == u.n && !a.send) } else t) := by
  have hfind : (s.port p.val).warp.find? (PortWarp.at frame sg pos) = some w := by
    obtain ⟨w', hw'⟩ := Option.isSome_iff_exists.1 (List.find?_isSome.2 ⟨w, hw, hwat⟩)
    rw [hw', honly w' (List.mem_of_find?_eq_some hw') (List.find?_some hw')]
  rw [execWarpDeadline_eq, hdue]
  simp only [hfind, hl, hat, Option.getD_some]

omit hat in
theorem warpDeadline_absent (hnone : ∀ w ∈ (s.port p.val).warp, w.at frame sg pos = false) :
    execWarpDeadline p frame sg pos s = .next ((s.warpPassed p frame sg pos).raise (.eng u.c .fxe) .warpLate
      (if (s.port p.val).mismatched.contains (frame, sg.val, pos.val) then 0x02 else 0x01) (some fk.2.1)) := by
  have hfind : (s.port p.val).warp.find? (PortWarp.at frame sg pos) = none :=
    List.find?_eq_none.2 fun w hw => by simp [hnone w hw]
  rw [execWarpDeadline_eq, hdue]
  simp only [hfind]

end

end

end

/-! ### The delivery -/

/-- Bytes that the one write of a core covers read as written. -/
theorem readNow_of_one {s : State} {c t a e : Nat} {d : List Byte} (h : (s.core c).mpend = [{ land := t, addr := a, data := d, eng := e }]) :
    s.readNow c a d.length = d := by
  rw [State.readNow_eq]
  simp only [State.byteNow, h]
  exact map_byteOn ⟨t, a, d, e⟩ _

section
variable {s : State} {c : CoreId} {n : Fin 128} {h : HeldWarp} {j : Job}

/-- The state in which a flit has left the hold buffer. -/
def State.leaveHold (s : State) (c : CoreId) (h : HeldWarp) : State := s.updCore c.val fun k => { k with hold := k.hold.erase h }

theorem core_leaveHold (s : State) (c : CoreId) (h : HeldWarp) :
    (s.leaveHold c h).core c.val = { s.core c.val with hold := (s.core c.val).hold.erase h } := State.core_updCore_same ..

theorem claimArrival_free {u : State} {c : Nat} (h : (u.core c).claims = []) (cyc : Nat) (cl : List Claim) :
    u.claimArrival c cyc cl = some (u.updCore c fun k => { k with claims := k.claims ++ cl }) := by
  simp [State.claimArrival, State.claim, h]

variable (hheld : (s.core c.val).hold.filter (fun h => h.due % 128 == n.val) = [h]) (hs : s.serving c.val = true)
  (hj : (s.core c.val).job = some j) (hp : j.pass = h.pass)
include hheld hs hj hp

/-- A flit for a plain address is written to it. -/
theorem warpDelivery_plain (hb : h.bobbin = none) : execWarpDelivery c ⟨n, none⟩ s =
    .next (State.arrived c.val h.due ((s.leaveHold c h).arrive c.val j.fn 5 h.addr h.data h.marks h.due
      (match (s.leaveHold c h).resolve j.fn h.addr h.data.length with
        | .ok (_, abs) => portsOf (aSpace h.addr) (abs % 2 ^ 32) h.data.length h.due 4 true
        | .error _ => []))) := by
  have hserve : (s.leaveHold c h).serving c.val = true := by
    rw [State.serving, core_leaveHold]
    exact hs
  have hjob : ((s.leaveHold c h).core c.val).job = some j := by rw [core_leaveHold, hj]
  unfold execWarpDelivery
  simp only [hheld, List.foldl_nil, Option.filter_none]
  show (if !(s.leaveHold c h).serving c.val then _ else match ((s.leaveHold c h).core c.val).job with
    | none => _
    | some j => _ : Host.Outcome State Fault Refusal) = _
  rw [hserve, hjob]
  simp only [Bool.not_true, Bool.false_eq_true, if_false, hp, ne_eq, not_true_eq_false, hb]
  rfl

/-- A flit of a receive entry lands in its bobbin. -/
theorem warpDelivery_recv {b i last m : Nat} (hb : h.bobbin = some (b, i, last)) (he : h.entry = some m) {l : Loaded}
    (hl : s.loaded j.fn = some l) {w : WarpEntry} (hw : l.exe.warps[m]? = some w) (hred : w.reduction = none) :
    execWarpDelivery c ⟨n, none⟩ s = .next ((s.leaveHold c h).landRecv c.val j h b i last) := by
  have hserve : (s.leaveHold c h).serving c.val = true := by
    rw [State.serving, core_leaveHold]
    exact hs
  have hjob : ((s.leaveHold c h).core c.val).job = some j := by rw [core_leaveHold, hj]
  have hload : (s.leaveHold c h).loaded j.fn = some l := hl
  unfold execWarpDelivery
  simp only [hheld, List.foldl_nil, Option.filter_none]
  show (if !(s.leaveHold c h).serving c.val then _ else match ((s.leaveHold c h).core c.val).job with
    | none => _
    | some j => _ : Host.Outcome State Fault Refusal) = _
  rw [hserve, hjob]
  simp only [Bool.not_true, Bool.false_eq_true, if_false, hp, ne_eq, not_true_eq_false, hb, he]
  show Host.Outcome.next (if (match (s.leaveHold c h).loaded j.fn with
    | some l => (match l.exe.warps[m]? with | some w => w.reduction.isSome | none => false)
    | none => false) then _ else _) = _
  rw [hload]
  simp only [hw, hred]
  rfl

end

section
variable {u : State} {c : Nat} {j : Job} {h : HeldWarp} {abs r : Nat} (hjob : (u.core c).job = some j) (hclaims : (u.core c).claims = [])
  (hpend : (u.core c).mpend = [])
include hjob hclaims hpend

theorem arrive_writes (hbobs : u.bobs j = []) (hr : u.resolve j.fn h.addr h.data.length = .ok (r, abs)) (cls : Nat) (ports : List Claim) :
    ∃ t, u.arrive c j.fn cls h.addr h.data h.marks h.due ports = (t, none) ∧ t.readNow c abs h.data.length = h.data ∧
      (t.core c).hold = (u.core c).hold := by
  obtain ⟨v, hv⟩ : ∃ v, v = u.updCore c fun k => { k with claims := k.claims ++ ports } := ⟨_, rfl⟩
  have hcore : v.core c = { u.core c with claims := (u.core c).claims ++ ports } := by
    rw [hv]
    exact State.core_updCore_same ..
  have hvbobs : v.bobs j = [] := by
    rw [hv]
    exact hbobs
  have hvjob : (v.core c).job = some j := by rw [hcore, hjob]
  refine ⟨((v.writeAt c h.due abs h.data 4).clearEcc (aSpace h.addr) abs h.data.length).putMarks abs h.marks, ?_, ?_, ?_⟩
  · unfold State.arrive
    simp only [hr, claimArrival_free hclaims, ← hv, hvjob, State.bobAccess, hvbobs, List.filter_nil, List.foldlM_nil]
    rfl
  · refine readNow_of_one (t := h.due) (e := 4) ?_
    show ((v.writeAt c h.due abs h.data 4).core c).mpend = _
    rw [State.mpend_writeAt, hcore]
    show insWrite _ (u.core c).mpend = _
    rw [hpend]
    rfl
  · show ((v.writeAt c h.due abs h.data 4).core c).hold = _
    rw [State.writeAt, State.core_updCore_same, hcore]

omit hjob in
/-- A flit that its bobbin expects is written, and the last one fills the bobbin. -/
theorem landRecv_writes {b i last m : Nat} (he : h.entry = some m) {l : Loaded} (hl : u.loaded j.fn = some l) {w : WarpEntry}
    (hw : l.exe.warps[m]? = some w) (hcounter : w.counter = 0xFF) {d : Bob} (hd : (u.bobs j).find? (fun o => o.num == b) = some d)
    (hlen : h.data.length = 64) (hr : u.resolve j.fn h.addr 64 = .ok (r, abs)) {v : Bobbin}
    (hv : AMap.get Bobbin.reset (u.core c).bobbins b = v) (htrans : v.trans = []) (hwas : v.was = v.state)
    (hstate : v.state = if i = 0 then .empty else .filling) :
    (u.landRecv c j h b i last).readNow c abs 64 = h.data ∧ ((u.landRecv c j h b i last).core c).hold = (u.core c).hold ∧
      (AMap.get Bobbin.reset ((u.landRecv c j h b i last).core c).bobbins b).state = if i = last then .full else .filling := by
  have hview : ∀ t, v.view t = v.state := fun t => by
    rw [Bobbin.view, htrans]
    exact hwas
  obtain ⟨v0, hv0⟩ : ∃ v0, v0 = v.settle (u.core c).horizon := ⟨_, rfl⟩
  have h0state : v0.state = v.state := by rw [hv0]; rfl
  have h0view : ∀ t, v0.view t = v.state := fun t => by
    rw [hv0, Bobbin.view, Bobbin.settle, htrans]
    exact hview _
  obtain ⟨v', hv'⟩ : ∃ v', v' = if i = last then { v0 with count := 0 }.enter h.due .full
    else { v0 with count := 64 * (i + 1) }.enter h.due .filling := ⟨_, rfl⟩
  have hentered : ∀ (x : Bobbin) (st : BobState), (x.enter h.due st).state = st := fun x st => by
    unfold Bobbin.enter
    split
    · assumption
    · rfl
  have hv'state : v'.state = if i = last then .full else .filling := by
    rw [hv']
    split
    · exact hentered _ _
    · exact hentered _ _
  obtain ⟨ports, hports⟩ : ∃ ports, ports = portsOf d.space (abs % 2 ^ 32) 64 h.due 4 true := ⟨_, rfl⟩
  obtain ⟨x, hx⟩ : ∃ x, x = (u.updCore c fun k => { k with claims := k.claims ++ ports }).updCore c fun k =>
    { k with bobbins := AMap.set Bobbin.reset k.bobbins b v' } := ⟨_, rfl⟩
  have hcore : x.core c = { u.core c with claims := (u.core c).claims ++ ports, bobbins := AMap.set Bobbin.reset (u.core c).bobbins b v' } := by
    rw [hx, State.core_updCore_same, State.core_updCore_same]
  have hrun : u.landRecv c j h b i last = (x.writeAt c h.due abs h.data 4).clearEcc d.space abs 64 := by
    have hwant : ¬(v0.state ≠ (if i = 0 then BobState.empty else .filling) ∨ v0.view h.due ≠ (if i = 0 then BobState.empty else .filling)) := by
      rw [h0state, h0view, hstate]
      simp
    unfold State.landRecv
    simp only [hl, he, hw, hd, hv, ← hv0, if_neg hwant, hr, ← hports, claimArrival_free hclaims, ← hv', ← hx, State.entryCounter, hcounter,
      if_true, ite_self]
  have hmem : ∀ y : State, y = (x.writeAt c h.due abs h.data 4).clearEcc d.space abs 64 →
      y.core c = { x.core c with mpend := insWrite { land := h.due, addr := abs, data := h.data, eng := 4 } (x.core c).mpend } := by
    rintro y rfl
    exact State.core_updCore_same x c fun k => { k with mpend := insWrite { land := h.due, addr := abs, data := h.data, eng := 4 } k.mpend }
  have hfin := hmem _ hrun
  refine ⟨?_, ?_, ?_⟩
  · rw [← hlen]
    refine readNow_of_one (t := h.due) (e := 4) ?_
    rw [hfin, hcore]
    show insWrite _ (u.core c).mpend = _
    rw [hpend]
    rfl
  · rw [hfin, hcore]
  · rw [hfin, hcore]
    show (AMap.get Bobbin.reset (AMap.set Bobbin.reset (u.core c).bobbins b v') b).state = _
    rw [AMap.get_set_same]
    exact hv'state

end

/-- Settles O33: a header that fits an entry in time is held, the flit goes on at its deadline or is absent, and it is delivered. -/
theorem warpArrival : Obligations.WarpArrival := by
  unfold Obligations.WarpArrival
  refine ⟨fun s p hdr payload hst hc => ⟨fun hok => warpFlitArrival_damaged hst hc hok, ?_⟩, ?_, ?_⟩
  · intro fits uses
    have hfits : ∀ u i, fits u i ↔ WarpFits s p hdr u i ∧ s.warpNamed hdr (u, (warpPlace u.w i).1) = true := by
      intro u i
      rw [warpNamed_iff]
      exact ⟨fun ⟨hi, hport, hplace, hframe, hmod, hnow, hfresh⟩ => ⟨⟨hi, hport, hplace, hnow, hfresh⟩, hframe, hmod⟩,
        fun ⟨⟨hi, hport, hplace, hnow, hfresh⟩, hframe, hmod⟩ => ⟨hi, hport, hplace, hframe, hmod, hnow, hfresh⟩⟩
    have hcand : ∀ c, c ∈ s.warpCands p hdr → s.warpNamed hdr c = true →
        ∃ u i, uses u ∧ fits u i ∧ c = (u, (warpPlace u.w i).1) := by
      intro c hmem hnamed
      obtain ⟨fk, hfk, hu, i, hfit, hf⟩ := mem_warpCands.1 hmem
      have hpair : c = (c.1, (warpPlace c.1.w i).1) := Prod.ext rfl hf
      exact ⟨c.1, i, ⟨fk, hfk, hu⟩, (hfits _ _).2 ⟨hfit, by rw [← hpair]; exact hnamed⟩, hpair⟩
    refine ⟨fun hok ⟨u, i, ⟨fk, hfk, hu⟩, hfit⟩ => ?_, fun hok hnone => ?_⟩
    · obtain ⟨hfit, hnamed⟩ := (hfits u i).1 hfit
      have hmem : (u, (warpPlace u.w i).1) ∈ s.warpCands p hdr := mem_warpCands.2 ⟨fk, hfk, hu, i, hfit, rfl⟩
      obtain ⟨c, hfind⟩ := Option.isSome_iff_exists.1 (List.find?_isSome.2 ⟨_, hmem, hnamed⟩)
      obtain ⟨v, k, huse, hfit', rfl⟩ := hcand c (List.mem_of_find?_eq_some hfind) (List.find?_some hfind)
      have hrun := warpFlitArrival_sound (payload := payload) hst hc hok
      rw [hfind] at hrun
      refine ⟨_, { frame := (warpPlace v.w k).1 + v.w.latClass, sg := fld hdr 22 7, pos := fld hdr 29 6, payload := payload }, hrun, ?_,
        rfl, rfl, rfl, v, k, huse, hfit', rfl⟩
      exact congrArg Port.warp (State.port_updPort_same ..)
    · have hfind : (s.warpCands p hdr).find? (s.warpNamed hdr) = none := by
        refine List.find?_eq_none.2 fun c hmem hnamed => ?_
        obtain ⟨v, k, huse, hfit', -⟩ := hcand c hmem hnamed
        exact hnone v k huse hfit'
      have hrun := warpFlitArrival_sound (payload := payload) hst hc hok
      rw [hfind] at hrun
      exact ⟨_, hrun, warpDiscarded_counts⟩
  · intro s p f g q fk u l i at' hfk hu ha hport hat hl honly node
    have hdue := warpDue_unique hfk hu ha hport hat honly
    obtain ⟨d, hd⟩ : ∃ d, d = s.warpPassed p f g q := ⟨_, rfl⟩
    have hat2 : recvPlace u.w i = (f, g.val, q.val) := by
      have hflit : (List.range u.w.flits).find? (fun k => decide (recvPlace u.w k = (f, g.val, q.val))) = some i := hat
      simpa using List.find?_some hflit
    refine ⟨fun w hw hf hg hq hone hsched hserve hflight => ?_, fun hnone hroom => ?_⟩
    · have hrun := warpDeadline_held hdue hat hl hw (PortWarp.at_iff.2 ⟨hf, hg, hq⟩) fun w' hw' h => by
        obtain ⟨hf, hg, hq⟩ := PortWarp.at_iff.1 h
        exact hone w' hw' hf hg hq
      rw [← hd] at hrun
      have hcount := portInject_holds (s := d) (by rw [hd]; exact hsched) (fun r => by rw [hd]; exact hserve r)
        (by rw [hd, warpInFlight_warpPassed]; exact hflight) u l fk.2.1 i w.payload
      obtain ⟨h, hh⟩ : ∃ h, h = warpHeldOf d u l fk.2.1 i w.payload := ⟨_, rfl⟩
      rw [← hh] at hcount
      obtain ⟨t, ht⟩ : ∃ t, t = d.portInject u l fk.2.1 i w.payload := ⟨_, rfl⟩
      rw [← ht] at hcount hrun
      have hhold : (t.core u.c).hold = (s.core u.c).hold ++ [h] := by
        rw [hcount.core, State.core_updCore_same, hd]
        rfl
      have hports : (t.port p.val).warp = (s.port p.val).warp.filter fun w => !w.at f g q := by
        have : t.port p.val = d.port p.val := by
          rw [hcount.rest]
          rfl
        rw [this, hd, State.warpPassed, State.port_updPort_same]
      have hgone : ∀ w' ∈ (t.port p.val).warp, ¬(w'.frame = f ∧ w'.sg = g.val ∧ w'.pos = q.val) := by
        intro w' hw' hplace
        rw [hports] at hw'
        have := (List.mem_filter.1 hw').2
        rw [PortWarp.at_iff.2 hplace] at this
        exact nomatch this
      have hheld : h.data = leBytes 64 w.payload.toNat ∧ h.inj = slotCycle f g.val + 40 + q.val ∧
          h.due = h.inj + 24 + 16 * nodeSteps u.c node ∧ h.entry = some u.n ∧ h.pass = fk.2.1 := by
        rw [hh, warpHeldOf, hat2]
        refine ⟨rfl, rfl, ?_, rfl, rfl⟩
        show slotCycle f g.val + 64 + 16 * nodeSteps u.c node + q.val = slotCycle f g.val + 40 + q.val + 24 + 16 * nodeSteps u.c node
        omega
      obtain ⟨hdata, hinj, hdue', hentry, hpass⟩ := hheld
      dsimp only at hrun
      split at hrun
      · refine ⟨_, h, hrun, ?_, hdata, hinj, hdue', hentry, hpass, hgone⟩
        rw [State.core_updCore_same]
        exact hhold
      · exact ⟨_, h, hrun, hhold, hdata, hinj, hdue', hentry, hpass, hgone⟩
    · have hrun := warpDeadline_absent hdue fun w hw => by
        rw [Bool.eq_false_iff, ne_eq, PortWarp.at_iff]
        exact hnone w hw
      have hcode : (if (s.port p.val).mismatched.contains (f, g.val, q.val) then (0x02 : Byte) else 0x01) =
          if (f, g.val, q.val) ∈ (s.port p.val).mismatched then 0x02 else 0x01 := by simp only [List.contains_iff_mem]
      rw [hcode] at hrun
      refine ⟨_, hrun, ?_⟩
      rw [← hd]
      have hraised := raise_raised (s := d) (src := .eng u.c .fxe) (cause := .warpLate)
        (d := if (f, g.val, q.val) ∈ (s.port p.val).mismatched then 0x02 else 0x01) ⟨fun _ => rfl, fun h => nomatch h⟩
        (by rw [hd]; exact hroom) (some fk.2.1)
      rw [hd] at hraised ⊢
      exact hraised
  · intro s c n h j abs r hheld hs hj hp hclaims hpend hr
    have hcore := core_leaveHold s c h
    have hjob : ((s.leaveHold c h).core c.val).job = some j := by rw [hcore, hj]
    have hclaims' : ((s.leaveHold c h).core c.val).claims = [] := by rw [hcore]; exact hclaims
    have hpend' : ((s.leaveHold c h).core c.val).mpend = [] := by rw [hcore]; exact hpend
    have hhold : ((s.leaveHold c h).core c.val).hold = (s.core c.val).hold.erase h := by rw [hcore]
    refine ⟨fun hb hbobs => ?_, ?_⟩
    · have hrun := warpDelivery_plain hheld hs hj hp hb
      obtain ⟨t, ht, hread, hkeep⟩ := arrive_writes hjob hclaims' hpend' hbobs hr 5 (match (s.leaveHold c h).resolve j.fn h.addr h.data.length with
        | .ok (_, abs) => portsOf (aSpace h.addr) (abs % 2 ^ 32) h.data.length h.due 4 true
        | .error _ => [])
      rw [ht] at hrun
      exact ⟨t, hrun, hread, hkeep.trans hhold⟩
    · intro b i last m l w d hb he hl hw hred hcounter hd hlen v htrans hwas hstate
      have hrun := warpDelivery_recv hheld hs hj hp hb he hl hw hred
      rw [hlen] at hr
      have hv : AMap.get Bobbin.reset ((s.leaveHold c h).core c.val).bobbins b = v := by rw [hcore]
      obtain ⟨hread, hkeep, hbob⟩ := landRecv_writes hclaims' hpend' he (u := s.leaveHold c h) hl hw hcounter hd hlen hr hv htrans hwas hstate (last := last)
      exact ⟨_, hrun, hread, hkeep.trans hhold, hbob⟩

end Sys2Proof.Machine
end


section
/-!
PROOFS. Stitch flits and abandon notices (R219 to R221, R254, R259, R262).
-/
namespace Sys2Proof.Machine

/-! ### Ending a pass -/

section
variable {s : State} {k : Nat} {p : Pass} (hp : s.pass k = some p) (hq : p.state ≠ .queued) (hc : p.state ≠ .complete)
  (hu : p.state ≠ .quiescing)
include hp hq hc hu

/-- A contained fault that touches a pass that has begun abandons it. -/
theorem raise_abandons {src : Src} {cause : Cause} {d : Byte} (he : EndsPass cause d) :
    Abandoned (s.raise src cause d (some k)) k .abandonedFault := by
  rw [raise_touched he hp]
  exact (abandon_ends (State.pass_setPass_same _ _ _) (by simpa [Pass.blame] using hq) (by simpa [Pass.blame] using hc)
    (by simpa [Pass.blame] using hu) .abandonedFault false).abandoned

omit hp hq hc hu in
theorem quiesced_pass (st : Status) (noRetry : Bool) : ∃ q, (s.quiesced k p st noRetry).pass k = some q ∧
    (noRetry = true → q.noRetry = true) := by
  refine ⟨_, pass_setPassState (State.pass_setPass_same _ k _) _, fun h => ?_⟩
  simp [h]

/-- Whether a retry may follow. -/
theorem abandon_noRetry (st : Status) : ∀ q, (s.abandon k st true).pass k = some q → q.noRetry = true := by
  intro q hq'
  obtain ⟨q', hq'', hno⟩ := quiesced_pass (s := s) (k := k) (p := p) st true
  rw [abandon_begun hp hq hc hu, State.noticed] at hq'
  have : (s.quiesced k p st true).pass k = some q := by
    split at hq'
    · exact hq'
    · exact hq'
  obtain rfl := Option.some.inj (hq''.symm.trans this)
  exact hno rfl

/-- The other members of its skein get a notice. -/
theorem abandon_notice (hin : s.inSkein p = true) (st : Status) (noRetry : Bool) :
    (s.abandon k st noRetry).skein.abandonOut = some (p.number, BitVec.ofNat 8 p.attempt) := by
  have hsk : (s.quiesced k p st noRetry).skein = { s.skein with
      abandonOut := (s.quiesced k p st noRetry).skein.abandonOut, passNo := (s.quiesced k p st noRetry).skein.passNo } := by
    have h := quiesced_stopped s k p st noRetry
    exact (by rw [h] : (s.quiesced k p st noRetry).skein = _)
  have hcond : ((s.quiesced k p st noRetry).skein.fn == p.fn && (s.quiesced k p st noRetry).skein.multi &&
      (s.quiesced k p st noRetry).skein.state != .none) = true := by
    rw [hsk]
    show (s.skein.fn == p.fn && s.skein.multi && s.skein.state != .none) = true
    simp only [State.inSkein, Bool.and_eq_true] at hin ⊢
    exact ⟨⟨hin.2, hin.1.1⟩, hin.1.2⟩
  rw [abandon_begun hp hq hc hu, State.noticed, if_pos hcond]

end

/-! ### Fields -/

theorem fld_lt {n : Nat} (w : BitVec n) (lo len : Nat) : fld w lo len < 2 ^ len := Nat.mod_lt _ (Nat.two_pow_pos _)

theorem toNat_fld {n : Nat} (w : BitVec n) (lo len : Nat) : (BitVec.ofNat len (fld w lo len)).toNat = fld w lo len := by
  rw [BitVec.toNat_ofNat, Nat.mod_eq_of_lt (fld_lt w lo len)]

theorem bitAt_fld {n : Nat} (w : BitVec n) (lo : Nat) {len i : Nat} (hi : i < len) :
    bitAt (BitVec.ofNat len (fld w lo len)) i = bitAt w (lo + i) := by
  simp [bitAt, BitVec.getLsbD, fld, hi, Nat.testBit_shiftRight]

/-! ### The flit -/

section
variable {s : State} {p : PortId} {hdr : W64} {v : BitVec 512} {ticks : Nat}

theorem stitchFlit_sound (hst : (s.port p.val).state = .full) (hc : fld hdr 0 2 = 2) (h : linkOk hdr v = true) :
    execStitchFlitReceive p ticks hdr v s = .next (s.takeStitch p hdr v (s.clk.timebase + BitVec.ofNat 64 ticks)) := by
  simp [execStitchFlitReceive, hst, hc, h]

theorem stitchFlit_damaged (hst : (s.port p.val).state = .full) (hc : fld hdr 0 2 = 2) (h : linkOk hdr v = false) :
    execStitchFlitReceive p ticks hdr v s = .next (match s.curPass s.skein.fn with
      | some (k, q) =>
        if s.inSkein q && s.treePorts.contains p.val && (q.state == PassState.running || q.state == PassState.gating)
          then (s.portCount p.val 2).raise (.io (p.val / 8)) .linkDown 0x92 (some k) else s.portCount p.val 2
      | none => s.portCount p.val 2) := by
  unfold execStitchFlitReceive
  rw [if_neg (by simp [hst, hc]), if_neg (by simp [hst]), if_neg (by simp [h])]
  show (match s.curPass s.skein.fn with
    | some (k, q) => Host.Outcome.next (if s.inSkein q && s.treePorts.contains p.val && (q.state == PassState.running || q.state == PassState.gating)
        then (s.portCount p.val 2).raise (.io (p.val / 8)) .linkDown 0x92 (some k) else s.portCount p.val 2)
    | none => .next (s.portCount p.val 2)) = _
  cases s.curPass s.skein.fn <;> rfl

/-- What a fault leaves of a port. -/
theorem raise_port {cause : Cause} {d : Byte} (he : EndsPass cause d) (s : State) (src : Src) (touch : Option Nat) (n : Nat) :
    (s.raise src cause d touch).port n = s.port n := by
  have h := raise_stopped he s src touch
  rw [h]
  rfl

theorem linkDown_ends {d : Byte} (h : d ≠ 0x80) (h' : d ≠ 0x91) : EndsPass .linkDown d :=
  ⟨fun _ => (if_neg h).trans (if_neg h'), fun h => nomatch h⟩

end

/-! ### The notice -/

section
variable {s : State} {p : PeerNotice} {k : Nat} {q : Pass} {a : Byte}

theorem abandonNotice_runs (hr : (s.port p.port.val).rxAbandon = some (q.number, a)) (ha : q.attempt = a.toNat)
    (hcur : s.curPass s.skein.fn = some (k, q)) (hin : s.inSkein q = true) (htree : p.port.val ∈ s.treePorts) :
    execAbandonNotice p s = .next ((s.updPort p.port.val fun q => { q with rxAbandon := none }).abandon k (peerStatus p.why).1
      (peerStatus p.why).2) := by
  unfold execAbandonNotice
  simp only [hr]
  show (match s.curPass s.skein.fn with
    | some (k, v) => Host.Outcome.next (if s.inSkein v && s.treePorts.contains p.port.val && v.number == q.number && v.attempt == a.toNat
        then (s.updPort p.port.val fun q => { q with rxAbandon := none }).abandon k (peerStatus p.why).1 (peerStatus p.why).2
        else s.updPort p.port.val fun q => { q with rxAbandon := none })
    | none => .next (s.updPort p.port.val fun q => { q with rxAbandon := none })) = _
  rw [hcur]
  simp [hin, htree, ha]

end

theorem peerStatus_eq (why : PeerStop) : peerStatus why = (if why = .watchdog then .timeout else .abandonedSkein, decide (why ≠ .fault)) := by
  cases why <;> rfl

/-- Settles O34: a sound flit leaves its fields at the port, a damaged one is counted and stops a running pass, and a notice abandons the
attempt and goes on. -/
theorem stitchFlits : Obligations.StitchFlits := by
  unfold Obligations.StitchFlits
  intro s p
  refine ⟨fun ticks hdr v hst hc => ⟨fun hok => ?_, fun hok => ?_⟩, fun n a k q hr hcur hp hin htree hnum hatt hrun why => ?_⟩
  · refine ⟨_, timeBlock v (s.clk.timebase + BitVec.ofNat 64 ticks), stitchFlit_sound hst hc hok, ?_⟩
    have hport : ∀ t2, ((s.takeStitch p hdr v t2).port p.val) = { s.port p.val with
        echo := some ((timeBlock v t2).t1, t2 - (timeBlock v t2).residence.setWidth 64), rxTime := some (timeBlock v t2)
        rxFlags := (timeBlock v t2).flags, rxSender := BitVec.ofNat 12 (fld hdr 2 12)
        rxAbandon := if bitAt (timeBlock v t2).flags 0 then some (BitVec.ofNat 32 (fld v 256 32), BitVec.ofNat 8 (fld v 288 8)) else none
        rxStep := if bitAt (timeBlock v t2).flags 1 then some (BitVec.ofNat 8 (fld v 296 8), BitVec.ofNat 32 (fld v 304 32)) else none
        childWish := if !bitAt (timeBlock v t2).flags 1 && !bitAt (timeBlock v t2).flags 3 then BitVec.ofNat 5 (fld v 296 8) else 0
        rxMsg := if 1 ≤ fld v 352 8 ∧ fld v 352 8 ≤ 7 then
          some { mtype := BitVec.ofNat 8 (fld v 352 8), msg := BitVec.ofNat 152 (fld v 360 152) } else none } :=
      fun t2 => State.port_updPort_same ..
    rw [hport]
    refine ⟨rfl, toNat_fld .., rfl, toNat_fld .., toNat_fld .., toNat_fld .., toNat_fld .., toNat_fld .., toNat_fld .., fun hb => ?_,
      fun hb => ?_, fun h1 h7 => ?_⟩
    · have hflag : bitAt (timeBlock v (s.clk.timebase + BitVec.ofNat 64 ticks)).flags 0 = true := (bitAt_fld v 232 (by decide)).trans hb
      exact ⟨_, _, if_pos hflag, toNat_fld .., toNat_fld ..⟩
    · have hflag : bitAt (timeBlock v (s.clk.timebase + BitVec.ofNat 64 ticks)).flags 1 = true := (bitAt_fld v 232 (by decide)).trans hb
      exact ⟨_, _, if_pos hflag, toNat_fld .., toNat_fld ..⟩
    · exact ⟨_, if_pos ⟨h1, h7⟩, toNat_fld .., toNat_fld ..⟩
  · have he : EndsPass .linkDown 0x92 := linkDown_ends (by decide) (by decide)
    have hcount : AMap.get 0 ((s.portCount p.val 2).port p.val).counts 2 = AMap.get 0 (s.port p.val).counts 2 + 1 := by
      rw [State.portCount, State.port_updPort_same]
      exact AMap.get_upd_same 0 (s.port p.val).counts 2 (· + 1)
    refine ⟨_, stitchFlit_damaged hst hc hok, ?_, fun k q hcur hp hrun hin htree hroom => ?_⟩
    · split
      · split
        · rw [raise_port he]
          exact hcount
        · exact hcount
      · exact hcount
    · have hcond : (s.inSkein q && s.treePorts.contains p.val && (q.state == PassState.running || q.state == PassState.gating)) = true := by
        simp [hin, htree, hrun]
      simp only [hcur, if_pos hcond]
      exact ⟨raise_raised (s := s.portCount p.val 2) (src := .io (p.val / 8)) he hroom (some k),
        raise_abandons (s := s.portCount p.val 2) hp (by simp [hrun]) (by simp [hrun]) (by simp [hrun]) he⟩
  · subst hnum
    have hb : q.state ≠ .queued ∧ q.state ≠ .complete ∧ q.state ≠ .quiescing := by simp [hrun]
    obtain ⟨hb1, hb2, hb3⟩ := hb
    have hp' : (s.updPort p.val fun q => { q with rxAbandon := none }).pass k = some q := hp
    have hrun' := abandonNotice_runs (p := ⟨p, why⟩) hr hatt hcur hin htree
    rw [peerStatus_eq] at hrun'
    refine ⟨_, hrun', (abandon_ends hp' hb1 hb2 hb3 _ _).abandoned, fun hw => ?_, abandon_notice hp' hb1 hb2 hb3 hin _ _⟩
    show ∀ r, (State.abandon _ k _ (decide (why ≠ .fault))).pass k = some r → r.noRetry = true
    rw [decide_eq_true hw]
    exact abandon_noRetry hp' hb1 hb2 hb3 _

end Sys2Proof.Machine
end


section
/-!
PROOFS. A step announcement that the module has noted as rejected (R294, R295): it is not taken again, whatever its code.
-/
namespace Sys2Proof.Machine

/-- A time child of port 3 whose parent announces code 16 for frame 1, which the child has noted as rejected. -/
def rejectingState : State :=
  { State.reset.setReg 0 .clkTimeCtrl 3 with
    power := { State.reset.power with phase := .ready }
    ports := [(3, { Port.reset with rxStep := some (16, 1) })]
    clk := { State.reset.clk with rejected := some (1, 16) } }

theorem rejectingState_keeps : ∀ t, exec (.stepAnnouncement 3) rejectingState = .next t → t.clk.pending.toNat = 0 := by
  intro t ht
  obtain rfl := Host.Outcome.next.inj ht
  decide +kernel

/-- Refutes O35: code 16 is a listed code that the module may run at, and it is not pending after the announcement. -/
theorem not_timeSamples : ¬ Obligations.TimeSamples := by
  intro h
  obtain ⟨-, -, hstep⟩ := h rejectingState 3 (by decide +kernel) (by decide +kernel)
  obtain ⟨t, ht, hpend, -⟩ := (hstep 16 1 (by decide +kernel) (by decide +kernel) (by decide +kernel) (by decide +kernel)
    (by decide +kernel)).1 (by decide) (by decide +kernel)
  exact absurd (hpend.symm.trans (rejectingState_keeps t ht)) (by decide)

end Sys2Proof.Machine
end


section
/-!
PROOFS. Descriptors (R350, R351, R354, R356): what ends one, what its end leaves of the others, and the operations that leave every
descriptor alone.
-/
namespace Sys2Proof.Machine

/-! ### Operations that leave the descriptors alone -/

/-- No descriptor, journal entry or completion ring has changed, and what had left the module has. -/
structure HostKept (s t : State) : Prop where
  fetched : ∀ f, (t.fn f).fetched = (s.fn f).fetched
  journal : ∀ f, (t.fn f).journal = (s.fn f).journal
  cq : ∀ f, (t.fn f).cq = (s.fn f).cq
  fuses : t.fuses = s.fuses
  setup : t.setup = s.setup
  out : ∀ o ∈ s.out, o ∈ t.out

theorem HostKept.refl (s : State) : HostKept s s := ⟨fun _ => rfl, fun _ => rfl, fun _ => rfl, rfl, rfl, fun _ h => h⟩

theorem HostKept.trans {s t u : State} (h : HostKept s t) (g : HostKept t u) : HostKept s u :=
  ⟨fun f => (g.fetched f).trans (h.fetched f), fun f => (g.journal f).trans (h.journal f), fun f => (g.cq f).trans (h.cq f),
    g.fuses.trans h.fuses, g.setup.trans h.setup, fun o ho => g.out o (h.out o ho)⟩

/-- Changes elsewhere in the state. -/
theorem HostKept.of_eq {s t : State} (hf : t.fns = s.fns) (hu : t.fuses = s.fuses) (hs : t.setup = s.setup) (ho : t.out = s.out) :
    HostKept s t := by
  have hfn : ∀ f, t.fn f = s.fn f := fun f => by rw [State.fn, hf, State.fn]
  exact ⟨fun f => by rw [hfn], fun f => by rw [hfn], fun f => by rw [hfn], hu, hs, fun o h => ho ▸ h⟩

theorem hostKept_updFn (s : State) (f : Nat) (g : Func → Func)
    (hg : ∀ u, (g u).fetched = u.fetched ∧ (g u).journal = u.journal ∧ (g u).cq = u.cq) : HostKept s (s.updFn f g) := by
  have hfn : ∀ b, ((s.updFn f g).fn b).fetched = (s.fn b).fetched ∧ ((s.updFn f g).fn b).journal = (s.fn b).journal ∧
      ((s.updFn f g).fn b).cq = (s.fn b).cq := by
    intro b
    by_cases hb : b = f
    · rw [hb, State.fn_updFn_same]
      exact hg _
    · rw [State.fn_updFn_other _ _ hb]
      exact ⟨rfl, rfl, rfl⟩
  exact ⟨fun b => (hfn b).1, fun b => (hfn b).2.1, fun b => (hfn b).2.2, rfl, rfl, fun _ h => h⟩

theorem hostKept_emit (s : State) (o : Out) : HostKept s (s.emit o) :=
  ⟨fun _ => rfl, fun _ => rfl, fun _ => rfl, rfl, rfl, fun _ h => List.mem_cons_of_mem _ h⟩

theorem hostKept_interrupt (s : State) (f : FnId) (v : Fin 128) : HostKept s (s.interrupt f v) := by
  unfold State.interrupt
  dsimp only
  split
  · refine HostKept.trans ?_ (hostKept_emit _ _)
    exact hostKept_updFn s _ _ fun u => ⟨rfl, rfl, rfl⟩
  · split
    · exact .refl s
    · exact hostKept_updFn s _ _ fun u => ⟨rfl, rfl, rfl⟩

theorem hostKept_traceTo (s : State) (f : FnId) (ty cause : Byte) (b : List Byte) : HostKept s (s.traceTo f ty cause b) := by
  unfold State.traceTo
  split
  · exact .of_eq rfl rfl rfl rfl
  · split
    · refine HostKept.trans ?_ (hostKept_emit _ _)
      exact hostKept_updFn s _ _ fun u => ⟨rfl, rfl, rfl⟩
    · exact .refl s

theorem hostKept_logTo (s : State) (f : FnId) (ty cause : Byte) (b : List Byte) : HostKept s (s.logTo f ty cause b) := by
  unfold State.logTo
  split
  · exact .of_eq rfl rfl rfl rfl
  · refine HostKept.trans (HostKept.trans ?_ (hostKept_emit _ _)) (hostKept_interrupt ..)
    exact hostKept_updFn s _ _ fun u => ⟨rfl, rfl, rfl⟩

theorem hostKept_setSkein (s : State) (st : SkeinState) : HostKept s (s.setSkein st) := by
  unfold State.setSkein
  dsimp only
  split
  · exact .refl s
  · refine HostKept.trans ?_ (hostKept_traceTo ..)
    exact .of_eq rfl rfl rfl rfl

theorem hostKept_queueRecord (s : State) (n : Nat) (r : FaultRecord) : HostKept s (s.queueRecord n r) := by
  unfold State.queueRecord
  dsimp only
  split <;> exact .of_eq rfl rfl rfl rfl

theorem HostKept.foldl {α : Type} (l : List α) (s : State) (f : State → α → State) (h : ∀ s a, HostKept s (f s a)) :
    HostKept s (l.foldl f s) :=
  List.foldlRecOn (motive := fun u : State => HostKept s u) _ _ (.refl s) fun u hu a _ => hu.trans (h u a)

theorem hostKept_updPort (s : State) (p : Nat) (f : Port → Port) : HostKept s (s.updPort p f) := .of_eq rfl rfl rfl rfl

theorem hostKept_sendTo (s : State) (l : List Nat) (m : StitchMsg) : HostKept s (s.sendTo l m) :=
  HostKept.foldl l s _ fun _ _ => hostKept_updPort ..

section
variable {s t : State} (h : HostKept s t)
include h

theorem HostKept.find (f : Nat) (r : RingId) (i : BitVec 12) : (t.fn f).find r i = (s.fn f).find r i := by
  rw [Func.find, h.fetched, Func.find]

theorem HostKept.lookup (f : Nat) (id : W64) : (t.fn f).lookup id = (s.fn f).lookup id := by
  rw [Func.lookup, h.journal, Func.lookup]

theorem HostKept.reg (f : FnId) (r : RegId) : t.reg f r = s.reg f r := by
  rw [State.reg, h.setup, h.fuses, State.reg]

theorem HostKept.cqFor (f : FnId) (r : RingId) : t.cqFor f r = s.cqFor f r := by
  rw [State.cqFor, h.reg, State.cqFor]

theorem HostKept.cqOf (f r : Nat) : (t.fn f).cqOf r = (s.fn f).cqOf r := by
  rw [Func.cqOf, h.cq, Func.cqOf]

end

/-! ### The end of a descriptor -/

/-- What the end of descriptors leaves: those that had ended before it, their status and their completions. -/
structure HostEnds (s t : State) : Prop where
  rest : t = { s with fns := t.fns, out := t.out }
  find : ∀ f r i, (s.fn f).find r i = none → (t.fn f).find r i = none
  lookup : ∀ f id (v : Status), (s.fn f).lookup id = some (some v) → (t.fn f).lookup id = some (some v)
  out : ∀ o ∈ s.out, o ∈ t.out

theorem HostEnds.refl (s : State) : HostEnds s s := ⟨rfl, fun _ _ _ h => h, fun _ _ _ h => h, fun _ h => h⟩

theorem HostEnds.trans {s t u : State} (h : HostEnds s t) (g : HostEnds t u) : HostEnds s u := by
  refine ⟨?_, fun f r i hn => g.find f r i (h.find f r i hn), fun f id v hl => g.lookup f id v (h.lookup f id v hl),
    fun o ho => g.out o (h.out o ho)⟩
  have h1 := g.rest
  rw [h.rest] at h1
  exact h1

theorem HostKept.ends {s t : State} (h : HostKept s t) (hrest : t = { s with fns := t.fns, out := t.out }) : HostEnds s t :=
  ⟨hrest, fun f r i hn => (h.find f r i).trans hn, fun f id _ hl => (h.lookup f id).trans hl, h.out⟩

theorem hostEnds_interrupt (s : State) (f : FnId) (v : Fin 128) : HostEnds s (s.interrupt f v) := by
  refine (hostKept_interrupt s f v).ends ?_
  unfold State.interrupt
  dsimp only
  split
  · rfl
  · split <;> rfl

/-- An update of a function that ends no more than it should. -/
theorem hostEnds_updFn (s : State) (f : Nat) (g : Func → Func) (hfind : ∀ r i, (s.fn f).find r i = none → (g (s.fn f)).find r i = none)
    (hlookup : ∀ id st, (s.fn f).lookup id = some (some st) → (g (s.fn f)).lookup id = some (some st)) : HostEnds s (s.updFn f g) := by
  refine ⟨rfl, fun b r i h => ?_, fun b id st h => ?_, fun _ h => h⟩
  · by_cases hb : b = f
    · subst hb
      rw [State.fn_updFn_same]
      exact hfind r i h
    · rw [State.fn_updFn_other _ _ hb]
      exact h
  · by_cases hb : b = f
    · subst hb
      rw [State.fn_updFn_same]
      exact hlookup id st h
    · rw [State.fn_updFn_other _ _ hb]
      exact h

theorem hostEnds_moderate (s : State) (f : FnId) (cq : RingId) : HostEnds s (s.moderate f cq) := by
  unfold State.moderate
  dsimp only
  split
  · exact (hostEnds_updFn s _ _ (fun _ _ h => h) fun _ _ h => h).trans (hostEnds_interrupt ..)
  · exact hostEnds_updFn s _ _ (fun _ _ h => h) fun _ _ h => h

/-- A status that stands in the journal stays. -/
theorem find_setJournal_kept {id id' : W64} {st st' : Status} {j : List (W64 × Option Status)}
    (h : (j.find? fun e => e.1 == id').map (·.2) = some (some st')) :
    ((setJournal id st j).find? fun e => e.1 == id').map (·.2) = some (some st') := by
  induction j with
  | nil => exact nomatch h
  | cons e j ih =>
    rw [setJournal, List.map_cons]
    by_cases he : e.1 = id'
    · rw [List.find?_cons_of_pos (by simpa using he)] at h
      have hsome : e.2 = some st' := Option.some.inj h
      have hkeep : (if (e.1 = id && e.2.isNone) = true then (e.1, some st) else e) = e := by simp [hsome]
      rw [hkeep, List.find?_cons_of_pos (by simpa using he)]
      exact h
    · rw [List.find?_cons_of_neg (by simpa using he)] at h
      rw [List.find?_cons_of_neg (by split <;> simpa using he)]
      exact ih h

/-- A pending status is set. -/
theorem find_setJournal_set {id : W64} {st : Status} {j : List (W64 × Option Status)}
    (h : (j.find? fun e => e.1 == id).map (·.2) = some none) :
    ((setJournal id st j).find? fun e => e.1 == id).map (·.2) = some (some st) := by
  induction j with
  | nil => exact nomatch h
  | cons e j ih =>
    rw [setJournal, List.map_cons]
    by_cases he : e.1 = id
    · rw [List.find?_cons_of_pos (by simpa using he)] at h
      have hnone : e.2 = none := Option.some.inj h
      simp [he, hnone]
    · rw [List.find?_cons_of_neg (by simpa using he)] at h
      rw [List.find?_cons_of_neg (by split <;> simpa using he)]
      exact ih h

/-- The function once a descriptor of its has ended. -/
def State.endedFn (s : State) (f : FnId) (r : RingId) (i : BitVec 12) (st : Status) (d : Fetched) : Func :=
  let u := s.fn f.val
  let cq := s.cqFor f r
  let q := u.cqOf cq.val
  let id := descId d.desc
  let u1 := { u with
    fetched := u.fetched.filter fun y => !(y.ring == r && y.index == i)
    tags := u.tags - 1
    journal := if st = Status.duplicate || id = 0 then u.journal else setJournal id st u.journal }
  let wrap := decide (q.tail.toNat + 1 = s.cqSize f cq)
  let u2 := u1.updCq cq.val fun q =>
    if q.state == .enabled || q.state == .draining then { q with
      reserved := q.reserved - 1, tail := if wrap then 0 else q.tail + 1, phase := if wrap then !q.phase else q.phase }
    else { q with reserved := q.reserved - 1 }
  { u2.drainRings with active := some s.clk.timebase }

/-- The completion entry that its ring gets. -/
def State.endedOut (s : State) (f : FnId) (r : RingId) (i : BitVec 12) (st : Status) (x : CplInfo) (d : Fetched) : Out :=
  let cq := s.cqFor f r
  let q := (s.fn f.val).cqOf cq.val
  .completion f cq q.tail (completionEntry d.desc r i st q.phase x)

section
variable {s : State} {f : FnId} {r : RingId} {i : BitVec 12} {st : Status} {x : CplInfo} {d : Fetched}

theorem complete1_none (h : (s.fn f.val).find r i = none) : s.complete1 f r i st x = s := by
  simp only [State.complete1, h]

theorem complete1_some (h : (s.fn f.val).find r i = some d) : s.complete1 f r i st x =
    let q := (s.fn f.val).cqOf (s.cqFor f r).val
    let t := s.setFn f.val (s.endedFn f r i st d)
    if q.state == .enabled || q.state == .draining then
      if dfld d.desc 1 1 % 2 = 1 then t.emit (s.endedOut f r i st x d) else (t.emit (s.endedOut f r i st x d)).moderate f (s.cqFor f r)
    else t := by
  unfold State.complete1
  simp only [h]
  rfl

theorem endedFn_find {r' : RingId} {i' : BitVec 12} (h : (s.fn f.val).find r' i' = none) : (s.endedFn f r i st d).find r' i' = none := by
  rw [Func.find, List.find?_eq_none] at h ⊢
  exact fun y hy => h y (List.mem_filter.1 hy).1

theorem endedFn_gone : (s.endedFn f r i st d).find r i = none := by
  rw [Func.find, List.find?_eq_none]
  intro y hy
  have := (List.mem_filter.1 hy).2
  rw [Bool.not_eq_true'] at this
  rw [this]
  decide

theorem endedFn_lookup {id : W64} {st' : Status} (h : (s.fn f.val).lookup id = some (some st')) :
    (s.endedFn f r i st d).lookup id = some (some st') := by
  show ((if (st = Status.duplicate || descId d.desc = 0) = true then (s.fn f.val).journal
    else setJournal (descId d.desc) st (s.fn f.val).journal).find? fun e => e.1 == id).map (·.2) = _
  split
  · exact h
  · exact find_setJournal_kept h

theorem endedFn_status (hd : st ≠ .duplicate) (hid : descId d.desc ≠ 0) (h : (s.fn f.val).lookup (descId d.desc) = some none) :
    (s.endedFn f r i st d).lookup (descId d.desc) = some (some st) := by
  show ((if (st = Status.duplicate || descId d.desc = 0) = true then (s.fn f.val).journal
    else setJournal (descId d.desc) st (s.fn f.val).journal).find? fun e => e.1 == descId d.desc).map (·.2) = _
  rw [if_neg (by rw [decide_eq_false hd, decide_eq_false hid]; decide)]
  exact find_setJournal_set h

theorem hostEnds_setEnded : HostEnds s (s.setFn f.val (s.endedFn f r i st d)) :=
  hostEnds_updFn s f.val (fun _ => s.endedFn f r i st d) (fun _ _ h => endedFn_find h) fun _ _ h => endedFn_lookup h

theorem hostEnds_emit (s : State) (o : Out) : HostEnds s (s.emit o) := (hostKept_emit s o).ends rfl

theorem hostEnds_complete1 (s : State) (f : FnId) (r : RingId) (i : BitVec 12) (st : Status) (x : CplInfo) :
    HostEnds s (s.complete1 f r i st x) := by
  cases h : (s.fn f.val).find r i with
  | none =>
    rw [complete1_none h]
    exact .refl s
  | some d =>
    rw [complete1_some h]
    dsimp only
    split
    · split
      · exact hostEnds_setEnded.trans (hostEnds_emit _ _)
      · exact (hostEnds_setEnded.trans (hostEnds_emit _ _)).trans (hostEnds_moderate _ _ _)
    · exact hostEnds_setEnded

theorem hostEnds_settleHost (n : Nat) (s : State) (f : FnId) : HostEnds s (settleHost n s f) := by
  induction n generalizing s with
  | zero => exact .refl s
  | succ n ih =>
    rw [settleHost]
    split
    · exact .refl s
    · exact (hostEnds_complete1 ..).trans (ih _)
    · exact (hostEnds_complete1 ..).trans (ih _)

theorem hostEnds_complete (s : State) (f : FnId) (r : RingId) (i : BitVec 12) (st : Status) (x : CplInfo) :
    HostEnds s (s.complete f r i st x) :=
  (hostEnds_complete1 ..).trans (hostEnds_settleHost ..)

/-- A descriptor has ended with a status; what happens later takes nothing of it back. -/
theorem Completed.later {t u : State} (h : Completed s t f r i st) (g : HostEnds t u) : Completed s u f r i st := by
  obtain ⟨hgone, hend⟩ := h
  refine ⟨g.find _ _ _ hgone, fun d hd => ?_⟩
  obtain ⟨hout, hstatus⟩ := hend d hd
  refine ⟨fun hq => ?_, fun hid hl => g.lookup _ _ _ (hstatus hid hl)⟩
  obtain ⟨k, phase, x, hx⟩ := hout hq
  exact ⟨k, phase, x, g.out _ hx⟩

theorem Completed.after {t u : State} (h : Completed s t f r i st) (g : HostKept t u) : Completed s u f r i st := by
  obtain ⟨hgone, hend⟩ := h
  refine ⟨(g.find _ _ _).trans hgone, fun d hd => ?_⟩
  obtain ⟨hout, hstatus⟩ := hend d hd
  refine ⟨fun hq => ?_, fun hid hl => (g.lookup _ _).trans (hstatus hid hl)⟩
  obtain ⟨k, phase, x, hx⟩ := hout hq
  exact ⟨k, phase, x, g.out _ hx⟩

theorem Completed.before {t u : State} (h : HostKept s t) (g : Completed t u f r i st) : Completed s u f r i st := by
  obtain ⟨hgone, hend⟩ := g
  refine ⟨hgone, fun d hd => ?_⟩
  obtain ⟨hout, hstatus⟩ := hend d ((h.find _ _ _).trans hd)
  rw [h.cqFor, h.cqOf] at hout
  rw [h.lookup] at hstatus
  exact ⟨hout, hstatus⟩

/-- The end of a descriptor: it has gone, with its completion entry where its ring takes one, and its status. -/
theorem complete1_completed (hd : st ≠ .duplicate) (x : CplInfo) : Completed s (s.complete1 f r i st x) f r i st := by
  cases h : (s.fn f.val).find r i with
  | none =>
    rw [complete1_none h]
    exact ⟨h, fun d hd => nomatch h.symm.trans hd⟩
  | some d =>
    obtain ⟨t, ht⟩ : ∃ t, t = s.setFn f.val (s.endedFn f r i st d) := ⟨_, rfl⟩
    have hfn : t.fn f.val = s.endedFn f r i st d := by
      rw [ht]
      exact State.fn_updFn_same s f.val fun _ => s.endedFn f r i st d
    have hgone : (t.fn f.val).find r i = none := by
      rw [hfn]
      exact endedFn_gone
    have hstatus : descId d.desc ≠ 0 → (s.fn f.val).lookup (descId d.desc) = some none →
        (t.fn f.val).lookup (descId d.desc) = some (some st) := fun hid hl => by
      rw [hfn]
      exact endedFn_status hd hid hl
    have hrun := complete1_some (st := st) (x := x) h
    dsimp only at hrun
    rw [← ht] at hrun
    have hends : HostEnds t (s.complete1 f r i st x) := by
      rw [hrun]
      split
      · split
        · exact hostEnds_emit _ _
        · exact (hostEnds_emit _ _).trans (hostEnds_moderate _ _ _)
      · exact .refl t
    refine ⟨hends.find _ _ _ hgone, fun d' hd' => ?_⟩
    obtain rfl : d = d' := Option.some.inj (h.symm.trans hd')
    refine ⟨fun hq => ?_, fun hid hl => hends.lookup _ _ _ (hstatus hid hl)⟩
    refine ⟨((s.fn f.val).cqOf (s.cqFor f r).val).tail, ((s.fn f.val).cqOf (s.cqFor f r).val).phase, x, ?_⟩
    rw [hrun, hq]
    show State.endedOut s f r i st x d ∈ _
    have hmem : s.endedOut f r i st x d ∈ (t.emit (s.endedOut f r i st x d)).out := List.mem_cons_self
    simp only [beq_self_eq_true, Bool.true_or, if_true]
    split
    · exact hmem
    · exact (hostEnds_moderate _ _ _).out _ hmem

theorem complete_completed (hd : st ≠ .duplicate) (x : CplInfo) : Completed s (s.complete f r i st x) f r i st :=
  (complete1_completed hd x).later (hostEnds_settleHost ..)

end

end Sys2Proof.Machine
end


section
/-!
PROOFS. Forming a skein (R304 to R308): the parts of agreement records, FORMED, REFUSED and the formation timeout.
-/
namespace Sys2Proof.Machine

/-! ### Messages of the ports -/

/-- Every port's queue of messages is as before. -/
def SameMsgs (s t : State) : Prop := ∀ c, (t.port c).msgs = (s.port c).msgs

theorem SameMsgs.refl (s : State) : SameMsgs s s := fun _ => rfl

theorem SameMsgs.trans {s t u : State} (h : SameMsgs s t) (g : SameMsgs t u) : SameMsgs s u := fun c => (g c).trans (h c)

theorem SameMsgs.of_ports {s t : State} (h : t.ports = s.ports) : SameMsgs s t := fun c => by rw [State.port, h, State.port]

theorem sameMsgs_updPort (s : State) (p : Nat) {f : Port → Port} (hf : ∀ q, (f q).msgs = q.msgs) : SameMsgs s (s.updPort p f) := by
  intro c
  by_cases hc : c = p
  · rw [hc, State.port_updPort_same, hf]
  · rw [State.port_updPort_other _ _ hc]

/-- Only ports differ. -/
def OnlyPorts (s t : State) : Prop := t = { s with ports := t.ports }

theorem OnlyPorts.trans {s t u : State} (h : OnlyPorts s t) (g : OnlyPorts t u) : OnlyPorts s u := by
  unfold OnlyPorts at g
  rw [h] at g
  exact g

theorem onlyPorts_foldl {α : Type} (l : List α) (s : State) (f : State → α → State) (h : ∀ s a, OnlyPorts s (f s a)) :
    OnlyPorts s (l.foldl f s) :=
  List.foldlRecOn (motive := fun u : State => OnlyPorts s u) _ _ rfl fun u hu a _ => hu.trans (h u a)

theorem onlyPorts_sendTo (s : State) (l : List Nat) (m : StitchMsg) : OnlyPorts s (s.sendTo l m) :=
  onlyPorts_foldl l s _ fun _ _ => rfl

theorem OnlyPorts.kept {s t : State} (h : OnlyPorts s t) : HostKept s t := by
  rw [h]
  exact .of_eq rfl rfl rfl rfl

/-- A port gets the message as often as it is named. -/
theorem msgs_sendTo (s : State) (l : List Nat) (m : StitchMsg) (c : Nat) :
    ((s.sendTo l m).port c).msgs = (s.port c).msgs ++ List.replicate (l.count c) m := by
  unfold State.sendTo
  induction l generalizing s with
  | nil => simp
  | cons p l ih =>
    rw [List.foldl_cons, ih]
    by_cases hc : c = p
    · rw [hc, State.port_updPort_same, List.count_cons_self, List.append_assoc, List.replicate_succ]
      rfl
    · rw [State.port_updPort_other _ _ hc, List.count_cons_of_ne (Ne.symm hc)]

theorem queued_once (s : State) {l : List Nat} {c : Nat} (h : l.count c = 1) (m : StitchMsg) : Queued s (s.sendTo l m) c [m] := by
  rw [Queued, msgs_sendTo, h]
  rfl

/-- Every one of different ports gets the message. -/
theorem queued_sendTo (s : State) {l : List Nat} (hl : l.Nodup) {c : Nat} (h : c ∈ l) (m : StitchMsg) : Queued s (s.sendTo l m) c [m] :=
  queued_once s (List.count_eq_one_of_mem hl h) m

/-- Messages join a port's queue in order. -/
theorem queued_sendAll (s : State) (p : Nat) (ms : List StitchMsg) :
    OnlyPorts s (s.sendAll [p] ms) ∧ Queued s (s.sendAll [p] ms) p ms := by
  refine ⟨onlyPorts_foldl ms s _ fun s m => onlyPorts_sendTo s _ m, ?_⟩
  unfold Queued State.sendAll
  induction ms generalizing s with
  | nil => simp
  | cons m ms ih =>
    rw [List.foldl_cons, ih, queued_sendTo s (List.nodup_singleton p) List.mem_cons_self m, List.append_assoc]
    rfl

theorem stitchChildren_nodup (s : State) : s.stitchChildren.Nodup := List.nodup_range.filter _

/-- A message that a port got is still there after operations that touch no queue. -/
theorem Queued.later {s t u : State} {c : Nat} {l : List StitchMsg} (h : Queued s t c l) (g : SameMsgs t u) : Queued s u c l :=
  (g c).trans h

theorem Queued.before {s t u : State} {c : Nat} {l : List StitchMsg} (h : SameMsgs s t) (g : Queued t u c l) : Queued s u c l :=
  Eq.trans g (by rw [h c])

/-! ### The descriptor of FORM -/

theorem FormEnded.before {s t u : State} {st : Status} (h : HostKept s t) (hd : t.skein.desc = s.skein.desc) (hf : t.skein.fn = s.skein.fn)
    (g : FormEnded t u st) : FormEnded s u st := by
  intro r i hdesc
  have := g r i (hd.trans hdesc)
  rw [hf] at this
  exact this.before h

theorem FormEnded.after {s t u : State} {st : Status} (g : FormEnded s t st) (h : HostKept t u) : FormEnded s u st :=
  fun r i hdesc => (g r i hdesc).after h

/-- The state in which the descriptor is no longer the skein's. -/
def State.undesc (s : State) : State := { s with skein := { s.skein with desc := none } }

theorem completeForm_ends (s : State) {st : Status} (hst : st ≠ .duplicate) :
    FormEnded s (s.completeForm st) st ∧ HostEnds s.undesc (s.completeForm st) := by
  cases hd : s.skein.desc with
  | none =>
    have hrun : s.completeForm st = s.undesc := by
      simp only [State.completeForm, hd, State.undesc]
      rw [← hd]
    rw [hrun]
    exact ⟨fun r i h => (nomatch hd.symm.trans h), .refl _⟩
  | some ri =>
    obtain ⟨r, i⟩ := ri
    have hrun : s.completeForm st = s.undesc.finish s.skein.fn r i st := by
      simp only [State.completeForm, hd]
      rfl
    rw [hrun]
    refine ⟨fun r' i' h => ?_, hostEnds_complete ..⟩
    obtain ⟨rfl, rfl⟩ := Prod.mk.inj (Option.some.inj (hd.symm.trans h))
    exact (complete_completed hst .plain).before (.of_eq rfl rfl rfl rfl)

/-! ### FORMED -/

/-- What starting warp service may change. -/
theorem resumeWarp_only (s : State) : s.resumeWarp = { s with ports := s.resumeWarp.ports, clk := s.resumeWarp.clk } ∧
    SameMsgs s s.resumeWarp := by
  unfold State.resumeWarp
  split
  · exact ⟨rfl, .refl s⟩
  · dsimp only
    obtain ⟨u, hu⟩ : ∃ u, u = (s.skeinPorts s.skein.fn).foldl (fun s p => s.updPort p fun q =>
      if q.state = .full then { q with warpOn := true } else q) s := ⟨_, rfl⟩
    have honly : OnlyPorts s u := hu ▸ onlyPorts_foldl _ s _ fun _ _ => rfl
    have hmsgs : SameMsgs s u := by
      rw [hu]
      refine List.foldlRecOn (motive := fun u : State => SameMsgs s u) _ _ (.refl s) fun u hu p _ => hu.trans ?_
      exact sameMsgs_updPort u p fun q => by split <;> rfl
    rw [← hu]
    refine ⟨?_, hmsgs⟩
    rw [honly]

theorem setSkein_only (s : State) (st : SkeinState) : ∃ fns out obs,
    s.setSkein st = { s with skein := { s.skein with state := st }, fns := fns, out := out, obs := obs } := by
  unfold State.setSkein
  dsimp only
  split
  · next h => exact ⟨s.fns, s.out, s.obs, by rw [← h]⟩
  · exact ⟨_, _, _, traceTo_only ..⟩

theorem formDone_forms (s : State) : s.formDone.skein = { s.skein with passNo := 0, state := .formed, desc := none } ∧ FormEnded s s.formDone .done ∧
    SameMsgs s s.formDone := by
  obtain ⟨u, hu⟩ : ∃ u : State, u = { s with skein := { s.skein with passNo := 0 } } := ⟨_, rfl⟩
  obtain ⟨fns, out, obs, hset⟩ := setSkein_only u .formed
  obtain ⟨honly, hmsgs⟩ := resumeWarp_only (u.setSkein .formed)
  obtain ⟨v, hv⟩ : ∃ v, v = (u.setSkein .formed).resumeWarp := ⟨_, rfl⟩
  have hrun : s.formDone = v.completeForm .done := by
    rw [hv, hu]
    rfl
  rw [← hv] at honly hmsgs
  have hskein : v.skein = { s.skein with passNo := 0, state := .formed } := by
    rw [honly, hset, hu]
  have hkept : HostKept s v := by
    have h1 : HostKept s u := hu ▸ .of_eq rfl rfl rfl rfl
    have h2 : HostKept (u.setSkein .formed) v := by
      rw [honly]
      exact .of_eq rfl rfl rfl rfl
    exact (h1.trans (hostKept_setSkein u _)).trans h2
  have hmsgs' : SameMsgs s v := by
    refine SameMsgs.trans ?_ hmsgs
    rw [hset, hu]
    exact .of_ports rfl
  obtain ⟨hended, hrest⟩ := completeForm_ends v (st := .done) (by decide)
  rw [hrun]
  refine ⟨?_, hended.before hkept (by rw [hskein]) (by rw [hskein]), hmsgs'.trans ?_⟩
  · rw [hrest.rest]
    show { v.skein with desc := none } = _
    rw [hskein]
  · rw [hrest.rest]
    exact .of_ports rfl

/-! ### Leaving -/

/-- A value that an update of every entry does not make the default is found, updated. -/
theorem AMap.get_each {α : Type} [DecidableEq α] {d : α} {f : α → α} (hd : f d = d) (m : AMap α) (k : Nat)
    (h : f (AMap.get d m k) ≠ d) : AMap.get d (AMap.each d f m) k = f (AMap.get d m k) := by
  induction m with
  | nil => exact absurd hd h
  | cons e m ih =>
    obtain ⟨k', v⟩ := e
    rw [AMap.each]
    by_cases hk : k' = k
    · rw [AMap.get, if_pos hk] at h ⊢
      rw [if_neg h, AMap.get, if_pos hk]
    · rw [AMap.get, if_neg hk] at h ⊢
      split
      · exact ih h
      · rw [AMap.get, if_neg hk]
        exact ih h

theorem leaveSkein_only (s : State) : ∃ fns out obs, s.leaveSkein = { s with
    skein := { Skein.reset with field := s.skein.field, module := s.skein.module, id := s.skein.id, passNo := s.skein.passNo,
                                abandonOut := s.skein.abandonOut }
    ports := AMap.each Port.reset (fun p => { p with warpOn := false }) s.ports, fns := fns, out := out, obs := obs } := by
  obtain ⟨fns, out, obs, h⟩ := setSkein_only s .none
  refine ⟨fns, out, obs, ?_⟩
  unfold State.leaveSkein
  rw [h]

theorem leaveSkein_kept (s : State) : HostKept s s.leaveSkein := by
  refine (hostKept_setSkein s .none).trans ?_
  exact .of_eq rfl rfl rfl rfl

/-- A message that waits at a port still waits there. -/
theorem leaveSkein_msgs (s : State) {c : Nat} (h : (s.port c).msgs ≠ []) : (s.leaveSkein.port c).msgs = (s.port c).msgs := by
  obtain ⟨fns, out, obs, hrun⟩ := leaveSkein_only s
  rw [hrun]
  show (AMap.get Port.reset (AMap.each Port.reset (fun p => { p with warpOn := false }) s.ports) c).msgs = _
  rw [AMap.get_each rfl]
  · rfl
  · intro he
    exact h (congrArg Port.msgs he)

/-- REFUSED from the parent ends the formation. -/
theorem formRefused_ends (s : State) (field : Byte) (m : BitVec 12) (hroom : (s.reporter 12).length < 16) :
    let t := s.formRefused field m
    t.skein.state = .none ∧ t.skein.field = field ∧ t.skein.module = m ∧ FormEnded s t .rejectedState ∧
      Raised s t .none' .skeinMismatch field ∧ ∀ c, (s.port c).msgs ≠ [] → (t.port c).msgs = (s.port c).msgs := by
  intro t
  have he : EndsPass .skeinMismatch field := ⟨fun _ => rfl, fun h => nomatch h⟩
  obtain ⟨u, hu⟩ : ∃ u : State, u = { s with skein := { s.skein with field := field, module := m } } := ⟨_, rfl⟩
  obtain ⟨v, hv⟩ : ∃ v, v = u.raise .none' .skeinMismatch field none := ⟨_, rfl⟩
  have hqueue : v = u.queueRecord Src.none'.reporter (u.mkRecord .none' .skeinMismatch field .contained none) := by
    rw [hv]
    exact raise_untouched he rfl
  have hrec : v = { u with chk := v.chk } := by
    rw [hqueue, queueRecord_of_room (by rw [hu]; exact hroom)]
  have hraised : Raised s v .none' .skeinMismatch field := by
    have h := raise_raised (s := u) (src := .none') he (by rw [hu]; exact hroom) none
    rw [← hv, hu] at h
    exact h
  have hkept : HostKept s v := by
    rw [hrec, hu]
    exact .of_eq rfl rfl rfl rfl
  obtain ⟨hended, hends⟩ := completeForm_ends v (st := .rejectedState) (by decide)
  obtain ⟨w, hw⟩ : ∃ w, w = v.completeForm .rejectedState := ⟨_, rfl⟩
  rw [← hw] at hended hends
  have hskein : w.skein = { s.skein with field := field, module := m, desc := none } := by
    rw [hends.rest]
    show { v.skein with desc := none } = _
    rw [hrec, hu]
  obtain ⟨fns, out, obs, hleave⟩ := leaveSkein_only w
  have hrun : t = w.leaveSkein := by
    rw [hw, hv, hu]
    rfl
  refine ⟨?_, ?_, ?_, ?_, ?_, fun c hc => ?_⟩
  · rw [hrun, hleave]
    rfl
  · rw [hrun, hleave]
    show w.skein.field = _
    rw [hskein]
  · rw [hrun, hleave]
    show w.skein.module = _
    rw [hskein]
  · rw [hrun]
    exact (hended.after (leaveSkein_kept w)).before hkept (by rw [hrec, hu]) (by rw [hrec, hu])
  · obtain ⟨x, hx, hrest⟩ := hraised
    refine ⟨x, ?_, hrest⟩
    rw [← hx, State.reporter, State.reporter]
    have : t.chk = v.chk := by
      rw [hrun, hleave, hends.rest]
      rfl
    rw [this]
  · have hport : ∀ c, w.port c = s.port c := fun c => by
      rw [hends.rest]
      show v.port c = _
      rw [hrec, hu]
      rfl
    rw [hrun, leaveSkein_msgs w (by rw [hport]; exact hc), hport]

theorem Raised.of_eq {s u t : State} {src : Src} {cause : Cause} {d : Byte} (h : Raised u t src cause d) (hc : u.chk = s.chk)
    (hk : u.clk = s.clk) : Raised s t src cause d := by
  obtain ⟨x, hx, hcore, heng, hcause, hdetail, htime, hframe⟩ := h
  refine ⟨x, ?_, hcore, heng, hcause, hdetail, htime.trans (by rw [hk]), hframe.trans (by rw [hk])⟩
  rw [hx, State.reporter, hc, State.reporter]

/-! ### Parts of a record -/

theorem fld_testBit {n : Nat} (w : BitVec n) (lo len i : Nat) : (fld w lo len).testBit i = (decide (i < len) && w.toNat.testBit (lo + i)) := by
  rw [fld, Nat.testBit_mod_two_pow, Nat.testBit_shiftRight]

/-- A part is that of the record when each of its bytes is. -/
theorem part_eq_iff {rec : BitVec 512} {part : Nat} {v : BitVec 128} : v = BitVec.ofNat 128 (fld rec (128 * part) 128) ↔
    ∀ j < 16, fld v (8 * j) 8 = fld rec (8 * (16 * part + j)) 8 := by
  constructor
  · rintro rfl j hj
    apply Nat.eq_of_testBit_eq
    intro i
    rw [fld_testBit, fld_testBit, toNat_fld, fld_testBit]
    by_cases hi : i < 8
    · rw [decide_eq_true (show 8 * j + i < 128 by omega), Bool.true_and]
      congr 2
      omega
    · simp [hi]
  · intro h
    apply BitVec.eq_of_toNat_eq
    rw [toNat_fld]
    apply Nat.eq_of_testBit_eq
    intro i
    rw [fld_testBit]
    by_cases hi : i < 128
    · have hb := congrArg (·.testBit (i % 8)) (h (i / 8) (by omega))
      simp only [fld_testBit] at hb
      rw [decide_eq_true (Nat.mod_lt _ (by decide)), Bool.true_and, Bool.true_and] at hb
      rw [decide_eq_true hi, Bool.true_and]
      have h1 : 8 * (i / 8) + i % 8 = i := by omega
      have h2 : 8 * (16 * part + i / 8) + i % 8 = 128 * part + i := by omega
      rw [h1, h2] at hb
      exact hb
    · rw [decide_eq_false hi, Bool.false_and]
      exact Nat.testBit_lt_two_pow (v.isLt.trans_le (Nat.pow_le_pow_right (by decide) (by omega)))

/-- A fold that always yields something yields nothing from an empty list alone. -/
theorem foldl_eq_none {α β : Type} {g : Option β → α → Option β} (hg : ∀ o a, g o a ≠ none) (l : List α) (o : Option β) :
    l.foldl g o = none ↔ o = none ∧ l = [] := by
  induction l generalizing o with
  | nil => simp
  | cons a l ih =>
    rw [List.foldl_cons, ih]
    simp [hg]

theorem recordFields_cover : ∀ b < 64, ∃ f ∈ recordFields, f.1 ≤ b ∧ b < f.1 + f.2.1 := by decide

/-- A part has no field that differs when it is that of the record. -/
theorem partDiffers_none {rec : BitVec 512} {part : Nat} (hp : part < 4) {v : BitVec 128} :
    partDiffers rec part v = none ↔ v = BitVec.ofNat 128 (fld rec (128 * part) 128) := by
  rw [part_eq_iff, partDiffers]
  dsimp only
  rw [foldl_eq_none (fun o f => by cases o <;> exact Option.some_ne_none _), List.filter_eq_nil_iff]
  simp only [true_and, List.any_eq_true, List.mem_range, Bool.and_eq_true, decide_eq_true_eq, bne_iff_ne, not_exists, not_and, not_not]
  constructor
  · intro h j hj
    obtain ⟨f, hf, hlo, hhi⟩ := recordFields_cover (16 * part + j) (by omega)
    have hb := h f hf (16 * part + j - f.1) (by omega) ⟨by omega, by omega⟩
    have h1 : f.1 + (16 * part + j - f.1) = 16 * part + j := by omega
    have h2 : 16 * part + j - 16 * part = j := by omega
    rw [h1, h2] at hb
    exact hb.symm
  · intro h f _ i _ hin
    have hb := h (f.1 + i - 16 * part) (by omega)
    have h1 : 16 * part + (f.1 + i - 16 * part) = f.1 + i := by omega
    rw [h1] at hb
    exact hb.symm

/-! ### A part arrives -/

section
variable {s : State} {p : PortId} {m : StitchMsg}

theorem port_takeMsg (s : State) (p : PortId) : SameMsgs s (s.takeMsg p.val) ∧ ((s.takeMsg p.val).port p.val).rxSender = (s.port p.val).rxSender :=
  ⟨sameMsgs_updPort s p.val fun _ => rfl, by rw [State.takeMsg, State.port_updPort_same]⟩

/-- Every child's four parts have matched. -/
def State.allParts (s : State) : Prop := ∀ c ∈ s.stitchChildren, ∀ i < 4, ∃ g ∈ s.skein.got, g.1.val = c ∧ g.2 = i

theorem allParts_iff : (s.stitchChildren.all fun c => [0, 1, 2, 3].all fun i => s.skein.got.any fun g => g.1.val == c && g.2 == i) = true ↔
    s.allParts := by
  have hfour : ∀ i : Nat, i ∈ [0, 1, 2, 3] ↔ i < 4 := fun i => by
    simp only [List.mem_cons, List.not_mem_nil, or_false]
    omega
  simp only [State.allParts, List.all_eq_true, hfour, List.any_eq_true, Bool.and_eq_true, beq_iff_eq]

section
variable {rec : BitVec 512} (hrec : s.skein.record = some rec) (hst : s.skein.state = .forming)
include hrec hst

theorem formTry_waits (h : ¬s.allParts) : s.formTry = s := by
  have hall := (Bool.eq_false_iff.2 (mt allParts_iff.1 h))
  simp only [State.formTry, hrec, hst, hall]
  rfl

theorem formTry_member (h : s.allParts) (hroot : s.stitchRoot = false) :
    s.formTry = s.sendAll [s.stitchParent] (recordParts s.skein.id rec false) := by
  have hall := allParts_iff.2 h
  simp only [State.formTry, hrec, hst, hall, hroot]
  rfl

theorem formTry_root (h : s.allParts) (hroot : s.stitchRoot = true) :
    s.formTry = (s.sendTo s.stitchChildren (controlMsg 0x01 s.skein.id s.moduleId 0 0)).formDone := by
  have hall := allParts_iff.2 h
  simp only [State.formTry, hrec, hst, hall, hroot]
  rfl

end

theorem agreementRecordPart_runs (hm : s.portMsg p.val 0x06 = some m) (hid : msgSkein m = s.skein.id) (hc : p.val ∈ s.stitchChildren)
    (hb : bitAt m.msg 2 = false) (hst : s.skein.state = .forming) :
    execAgreementRecordPart p s = .next ((s.takeMsg p.val).formPart p (s.port p.val).rxSender m) := by
  obtain ⟨u, hu⟩ : ∃ u, u = s.takeMsg p.val := ⟨_, rfl⟩
  have hskein : u.skein = s.skein := by rw [hu]; rfl
  have hchild : u.stitchChildren = s.stitchChildren := by rw [hu]; rfl
  have hsender : (u.port p.val).rxSender = (s.port p.val).rxSender := by rw [hu]; exact (port_takeMsg s p).2
  have hnot : ¬(msgSkein m ≠ u.skein.id ∨ u.skein.state = .none) := by
    rw [hskein, hid, hst]
    simp
  unfold execAgreementRecordPart
  simp only [hm, ← hu]
  rw [if_neg hnot, hchild, List.contains_iff_mem.2 hc, hb]
  simp only [Bool.not_true, Bool.false_eq_true, if_false, hskein, hst, if_true, hsender]

/-- The state that has counted a part that matches. -/
def State.gotPart (s : State) (p : PortId) (part : Nat) : State :=
  let u := s.takeMsg p.val
  { u with skein := { u.skein with got := u.skein.got ++ [(p, part)] } }

section
variable {rec : BitVec 512} (hrec : s.skein.record = some rec)
include hrec

theorem formPart_match (hv : BitVec.ofNat 128 (fld m.msg 24 128) = BitVec.ofNat 128 (fld rec (128 * fld m.msg 0 2) 128)) (sender : BitVec 12) :
    (s.takeMsg p.val).formPart p sender m = (s.gotPart p (fld m.msg 0 2)).formTry := by
  have hd := (partDiffers_none (rec := rec) (fld_lt m.msg 0 2)).2 hv
  have hrec' : (s.takeMsg p.val).skein.record = some rec := hrec
  unfold State.formPart
  dsimp only
  split
  · next h => exact nomatch hrec'.symm.trans h
  · next rec' h =>
    obtain rfl := Option.some.inj (hrec'.symm.trans h)
    simp only [hd]
    rfl

theorem formPart_differs (hv : BitVec.ofNat 128 (fld m.msg 24 128) ≠ BitVec.ofNat 128 (fld rec (128 * fld m.msg 0 2) 128)) (sender : BitVec 12) :
    ∃ code, partDiffers rec (fld m.msg 0 2) (BitVec.ofNat 128 (fld m.msg 24 128)) = some code ∧
      (s.takeMsg p.val).formPart p sender m = (s.takeMsg p.val).refuse code sender := by
  obtain ⟨code, hd⟩ := Option.ne_none_iff_exists'.1 (mt (partDiffers_none (rec := rec) (fld_lt m.msg 0 2)).1 hv)
  have hrec' : (s.takeMsg p.val).skein.record = some rec := hrec
  refine ⟨code, hd, ?_⟩
  simp only [State.formPart, hrec', hd]

end

theorem refuse_member (hroot : s.stitchRoot = false) (code : Byte) (w : BitVec 12) :
    s.refuse code w = s.sendTo [s.stitchParent] (controlMsg 0x02 s.skein.id w code 0) := by
  simp [State.refuse, hroot]

theorem refuse_root (hroot : s.stitchRoot = true) (hnone : s.skein.refusal = none) (code : Byte) (w : BitVec 12) :
    (s.refuse code w).skein.refusal = some (code, w) := by
  simp [State.refuse, hroot, hnone]

theorem refuse_state (code : Byte) (w : BitVec 12) : (s.refuse code w).skein.state = s.skein.state := by
  unfold State.refuse
  split
  · rw [onlyPorts_sendTo s [s.stitchParent] (controlMsg 0x02 s.skein.id w code 0)]
  · rfl

/-- A control message of the member's own skein runs. -/
theorem control_runs {op : Byte} (hm : s.portMsg p.val 0x07 = some m) (hop : fld m.msg 0 8 = op.toNat) (hid : msgSkein m = s.skein.id)
    (hst : s.skein.state ≠ .none) (run : State → StitchMsg → BitVec 12 → Byte → State) :
    s.control p op run = run (s.takeMsg p.val) m (BitVec.ofNat 12 (fld m.msg 24 12)) (BitVec.ofNat 8 (fld m.msg 40 8)) := by
  have hnot : ¬(msgSkein m ≠ (s.takeMsg p.val).skein.id ∨ (s.takeMsg p.val).skein.state = .none) := by
    show ¬(msgSkein m ≠ s.skein.id ∨ s.skein.state = .none)
    rw [hid]
    simp [hst]
  unfold State.control
  simp only [hm]
  rw [if_neg (by rw [hop]; simp), if_neg hnot]

end

/-- Settles O36: a part that matches is counted and the last one goes on, one that differs is refused, and FORMED, REFUSED and the
timeout end the formation. -/
theorem skeinFormation : Obligations.SkeinFormation := by
  unfold Obligations.SkeinFormation
  intro s p m hst
  have hne : s.skein.state ≠ .none := by simp [hst]
  obtain ⟨hmsgs, -⟩ := port_takeMsg s p
  have honly : OnlyPorts s (s.takeMsg p.val) := rfl
  refine ⟨fun hm hid hc hb rec hrec => ?_, fun hm hid hp => ⟨fun hop => ?_, fun hop hroom => ?_⟩, fun hlate => ?_⟩
  · intro part v sender whole
    have hrun := agreementRecordPart_runs hm hid hc hb hst
    refine ⟨fun hv => ?_, fun hv => ?_⟩
    · rw [formPart_match hrec hv] at hrun
      obtain ⟨w, hw⟩ : ∃ w, w = s.gotPart p part := ⟨_, rfl⟩
      have hwhole : whole ↔ w.allParts := by
        rw [hw]
        exact Iff.rfl
      have hkept : HostKept s w := by
        rw [hw]
        exact .of_eq rfl rfl rfl rfl
      have hwmsgs : SameMsgs s w := by
        rw [hw]
        exact hmsgs
      have hskein : w.skein = { s.skein with got := s.skein.got ++ [(p, part)] } := by rw [hw]; rfl
      have hrec' : w.skein.record = some rec := by rw [hskein]; exact hrec
      have hst' : w.skein.state = .forming := by rw [hskein]; exact hst
      have hroot' : w.stitchRoot = s.stitchRoot := by rw [hw]; rfl
      have hparent : w.stitchParent = s.stitchParent := by rw [hw]; rfl
      have hchild : w.stitchChildren = s.stitchChildren := by rw [hw]; rfl
      rw [show s.gotPart p (fld m.msg 0 2) = w from hw.symm] at hrun
      refine ⟨w.formTry, hrun, ?_, fun hnot => ?_, fun hall hroot => ?_, fun hall hroot => ?_⟩
      · by_cases hall : w.allParts
        · cases hroot : w.stitchRoot with
          | false =>
            rw [formTry_member hrec' hst' hall hroot, (queued_sendAll w w.stitchParent _).1]
            show w.skein.got = _
            rw [hskein]
          | true =>
            rw [formTry_root hrec' hst' hall hroot, (formDone_forms _).1, onlyPorts_sendTo w]
            show w.skein.got = _
            rw [hskein]
        · rw [formTry_waits hrec' hst' hall, hskein]
      · rw [formTry_waits hrec' hst' (mt hwhole.2 hnot)]
        refine ⟨hst', ?_⟩
        rw [hw]
        rfl
      · rw [formTry_member hrec' hst' (hwhole.1 hall) (hroot'.trans hroot), hparent]
        obtain ⟨hports, hqueued⟩ := queued_sendAll w s.stitchParent (recordParts w.skein.id rec false)
        refine ⟨?_, ?_⟩
        · rw [hports]
          exact hst'
        · have hid' : w.skein.id = s.skein.id := by rw [hskein]
          rw [hid'] at hqueued ⊢
          exact hqueued.before hwmsgs
      · rw [formTry_root hrec' hst' (hwhole.1 hall) (hroot'.trans hroot)]
        obtain ⟨y, hy⟩ : ∃ y, y = w.sendTo w.stitchChildren (controlMsg 0x01 w.skein.id w.moduleId 0 0) := ⟨_, rfl⟩
        have hports : OnlyPorts w y := hy ▸ onlyPorts_sendTo w _ _
        have hyskein : y.skein = w.skein := by rw [hports]
        obtain ⟨hdone, hended, hdmsgs⟩ := formDone_forms y
        rw [← hy]
        refine ⟨by rw [hdone], by rw [hdone], hended.before (hkept.trans hports.kept) (by rw [hyskein, hskein]) (by rw [hyskein, hskein]),
          fun c hcc => ?_⟩
        have hq := queued_sendTo w (stitchChildren_nodup w) (hchild ▸ hcc) (controlMsg 0x01 w.skein.id w.moduleId 0 0)
        rw [← hy] at hq
        have hid' : w.skein.id = s.skein.id := by rw [hskein]
        have hmod : w.moduleId = s.moduleId := by rw [hw]; rfl
        rw [hid', hmod] at hq
        exact (hq.later hdmsgs).before hwmsgs
    · obtain ⟨code, hd, hpart⟩ := formPart_differs (p := p) hrec hv (s.port p.val).rxSender
      rw [hpart] at hrun
      refine ⟨_, code, hrun, hd, (refuse_state code _).trans hst, fun hroot => ?_, fun hroot hnone => ?_⟩
      · rw [refuse_member (s := s.takeMsg p.val) hroot]
        exact (queued_sendTo (s.takeMsg p.val) (List.nodup_singleton _) List.mem_cons_self _).before hmsgs
      · exact refuse_root (s := s.takeMsg p.val) hroot hnone code _
  · obtain ⟨y, hy⟩ : ∃ y, y = (s.takeMsg p.val).sendTo s.stitchChildren m := ⟨_, rfl⟩
    have hports : OnlyPorts s y := hy ▸ honly.trans (onlyPorts_sendTo _ _ _)
    have hskein : y.skein = s.skein := by rw [hports]
    have hrun : exec (.formed p) s = .next y.formDone := by
      show Host.Outcome.next (s.control p 0x01 _) = _
      rw [control_runs (op := 0x01) hm hop hid hne, if_pos ⟨hst, hp⟩, hy]
      rfl
    obtain ⟨hdone, hended, hdmsgs⟩ := formDone_forms y
    refine ⟨_, hrun, by rw [hdone], by rw [hdone], hended.before hports.kept (by rw [hskein]) (by rw [hskein]), fun c hc => ?_⟩
    have hq := queued_sendTo (s.takeMsg p.val) (stitchChildren_nodup s) hc m
    rw [← hy] at hq
    exact (hq.later hdmsgs).before hmsgs
  · obtain ⟨y, hy⟩ : ∃ y, y = (s.takeMsg p.val).sendTo s.stitchChildren m := ⟨_, rfl⟩
    have hports : OnlyPorts s y := hy ▸ honly.trans (onlyPorts_sendTo _ _ _)
    have hskein : y.skein = s.skein := by rw [hports]
    have hrun : exec (.refused p) s = .next (y.formRefused (BitVec.ofNat 8 (fld m.msg 40 8)) (BitVec.ofNat 12 (fld m.msg 24 12))) := by
      have hst' : ¬(s.takeMsg p.val).skein.state ≠ .forming := not_not.2 hst
      show Host.Outcome.next (s.control p 0x02 _) = _
      have hp' : (s.takeMsg p.val).fromParent p = true := hp
      rw [control_runs (op := 0x02) hm hop hid hne, if_neg hst', if_pos hp', hy]
      rfl
    obtain ⟨hnone, hfield, hmodule, hended, hraised, hkeep⟩ := formRefused_ends y (BitVec.ofNat 8 (fld m.msg 40 8))
      (BitVec.ofNat 12 (fld m.msg 24 12)) (by rw [hports]; exact hroom)
    refine ⟨_, hrun, hnone, ?_, ?_, hended.before hports.kept (by rw [hskein]) (by rw [hskein]), ?_, fun c hc => ?_⟩
    · rw [hfield]
      exact toNat_fld ..
    · rw [hmodule]
      exact toNat_fld ..
    · exact hraised.of_eq (by rw [hports]) (by rw [hports])
    · have hq := queued_sendTo (s.takeMsg p.val) (stitchChildren_nodup s) hc m
      rw [← hy] at hq
      have hqs : Queued s y c [m] := hq.before hmsgs
      unfold Queued at hqs ⊢
      rw [hkeep c (by rw [hqs]; simp), hqs]
  · have hrun : exec .formationTimeout s = .next (s.completeForm .timeout).leaveSkein := by
      show Host.Outcome.next _ = _
      rw [if_pos ⟨by simp [hst], hlate⟩]
    obtain ⟨hended, -⟩ := completeForm_ends s (st := .timeout) (by decide)
    refine ⟨_, hrun, ?_, hended.after (leaveSkein_kept _)⟩
    obtain ⟨fns, out, obs, hleave⟩ := leaveSkein_only (s.completeForm .timeout)
    rw [hleave]
    rfl

end Sys2Proof.Machine
end


section
/-!
PROOFS. The control messages of a skein: LEAVE, READMIT, BROKEN, DISSOLVE and the rejoin (R312 to R317).
-/
namespace Sys2Proof.Machine

/-! ### The end of one pass leaves the others -/

theorem haltCore_passes (s : State) (c n : Nat) : (s.haltCore c n).passes = s.passes :=
  (settleAll_passes _ c).trans ((closeLedger_passes _ c _).trans (chargeEnd_passes s c))

theorem traceTo_passes (s : State) (f : FnId) (ty cause : Byte) (b : List Byte) : (s.traceTo f ty cause b).passes = s.passes := by
  rw [traceTo_only]

theorem dyeAbandoned_passes (s : State) (p : Pass) (l : List Nat) : (s.dyeAbandoned p l).passes = s.passes := by
  unfold State.dyeAbandoned
  refine List.foldlRecOn (motive := fun u : State => u.passes = s.passes) _ _ rfl fun u hu kv _ => ?_
  split
  · split
    · split
      · exact (traceTo_passes ..).trans hu
      · exact hu
    · exact hu
  · exact hu

theorem pass_setPassState_other (s : State) {j k : Nat} (h : j ≠ k) (st : PassState) : (s.setPassState k st).pass j = s.pass j := by
  unfold State.setPassState
  split
  · rfl
  · rw [State.pass, traceTo_passes]
    exact State.pass_setPass_other _ _ h

theorem pass_noticed (s : State) (p : Pass) (j : Nat) : (s.noticed p).pass j = s.pass j := by
  unfold State.noticed
  split <;> rfl

theorem pass_quiesced_other (s : State) {j k : Nat} (h : j ≠ k) (p : Pass) (st : Status) (noRetry : Bool) :
    (s.quiesced k p st noRetry).pass j = s.pass j := by
  have hhalt : ((s.jobCores k).foldl (fun s c => s.haltCore c (if p.start.isSome then 3200 * (p.kernelStart.toNat - (p.start.getD 0).toNat)
      else 0)) s).passes = s.passes :=
    List.foldlRecOn (motive := fun u : State => u.passes = s.passes) _ _ rfl fun u hu c _ => (haltCore_passes u c _).trans hu
  unfold State.quiesced
  refine (pass_setPassState_other _ h _).trans ((State.pass_setPass_other _ _ h).trans ?_)
  rw [State.pass]
  exact congrArg (AMap.get none · j) ((dyeAbandoned_passes _ p _).trans hhalt)

theorem pass_abandon_other (s : State) {j k : Nat} (h : j ≠ k) (st : Status) (noRetry : Bool) : (s.abandon k st noRetry).pass j = s.pass j := by
  cases hp : s.pass k with
  | none => simp only [State.abandon, hp]
  | some p =>
    cases hst : p.state with
    | queued => simp only [State.abandon, hp, hst]
    | complete => simp only [State.abandon, hp, hst]
    | quiescing =>
      simp only [State.abandon, hp, hst]
      split_ifs
      · exact State.pass_setPass_other _ _ h
      · exact State.pass_setPass_other _ _ h
      · rfl
    | _ =>
      rw [abandon_begun hp (by simp [hst]) (by simp [hst]) (by simp [hst]), pass_noticed]
      exact pass_quiesced_other s h p st noRetry

/-! ### A pass completes -/

theorem HostEnds.stopped {s t : State} (h : HostEnds s t) : Stopped s t := by
  rw [h.rest]
  rfl

theorem traceGen_stopped (s : State) (f : FnId) (g : W32) (old new : GenState) : Stopped s (s.traceGen f g old new) ∧
    (s.traceGen f g old new).passes = s.passes := by
  unfold State.traceGen
  split
  · exact ⟨.refl s, rfl⟩
  · exact ⟨traceTo_stopped .., traceTo_passes ..⟩

theorem retireOld_stopped (s : State) (f : FnId) : Stopped s (s.retireOld f) ∧ (s.retireOld f).passes = s.passes := by
  unfold State.retireOld
  dsimp only
  refine List.foldlRecOn (motive := fun u : State => Stopped s u ∧ u.passes = s.passes) _ _ ⟨rfl, rfl⟩ fun u hu g _ => ?_
  obtain ⟨h1, h2⟩ := traceGen_stopped u f g.gen g.state .retired
  exact ⟨hu.1.trans h1, h2.trans hu.2⟩

theorem settlePreempt_stopped (s : State) (f : FnId) : Stopped s (s.settlePreempt f) ∧ (s.settlePreempt f).passes = s.passes := by
  unfold State.settlePreempt
  dsimp only
  split
  · split
    · have h := hostEnds_complete s f
      rename_i d _
      have h := h d.ring d.index .done .plain
      exact ⟨h.stopped, by rw [State.finish, h.rest]⟩
    · exact ⟨rfl, rfl⟩
  · exact ⟨rfl, rfl⟩

theorem leaveSkein_passes (s : State) : s.leaveSkein.passes = s.passes := by
  obtain ⟨fns, out, obs, h⟩ := leaveSkein_only s
  rw [h]

theorem afterPass_passes (s : State) (p : Pass) : (s.afterPass p).passes = s.passes := by
  unfold State.afterPass
  refine (settlePreempt_stopped _ _).2.trans ?_
  split
  · exact (leaveSkein_passes _).trans (retireOld_stopped _ _).2
  · exact (retireOld_stopped _ _).2

theorem stopped_updFn (s : State) (f : Nat) (g : Func → Func) : Stopped s (s.updFn f g) := rfl

theorem afterPass_stopped {s : State} (h : s.skein.state ≠ .dissolving) (p : Pass) : Stopped s (s.afterPass p) := by
  obtain ⟨u, hu⟩ : ∃ u, u = (s.updFn p.fn.val fun u => { u with account := u.account + p.frames }).retireOld p.fn := ⟨_, rfl⟩
  have hs : Stopped s u := by
    rw [hu]
    exact (stopped_updFn s _ _).trans (retireOld_stopped _ _).1
  have hstate : u.skein.state = s.skein.state := by rw [hs]
  have hnot : ¬(u.skein.state == .dissolving && u.skein.fn == p.fn && !(u.allPasses.any fun kp => kp.2.fn == p.fn)) = true := by
    rw [hstate, beq_false_of_ne h]
    simp
  have hrun : s.afterPass p = u.settlePreempt p.fn := by
    unfold State.afterPass
    dsimp only
    rw [← hu, if_neg hnot]
  rw [hrun]
  exact hs.trans (settlePreempt_stopped u p.fn).1

/-- The state in which a pass's completion has left. -/
def State.completing (s : State) (k : Nat) (p : Pass) (st : Status) (summary : W64) (cert : Bool) : State :=
  let s := s.setPassState k .complete
  let s := if !p.agreed then s
    else if p.multi then { s with skein := { s.skein with passNo := s.skein.passNo + 1 } }
    else s.updFn p.fn.val fun u => { u with passNo := u.passNo + 1 }
  let info : CplInfo := {
    attempts := p.attempt + (if p.start.isSome then 1 else 0), orig := 0
    cause := (match p.fault with | some r => (if st = .abandonedFault then r.cause.code else 0) | none => 0)
    detail := (match p.fault with | some r => (if st = .abandonedFault then r.detail else 0) | none => 0)
    pass := if p.agreed then p.number else 0, summary := summary, cert := cert }
  s.complete p.fn p.ring p.index st info

/-- A pass that is complete, before what follows it. -/
def State.ceased (s : State) (k : Nat) (p : Pass) (st : Status) (summary : W64) (cert : Bool) : State :=
  let u := s.completing k p st summary cert
  { u with passes := AMap.set none u.passes k none }

section
variable {s : State} {k : Nat} {p : Pass}

theorem completePass_some (hp : s.pass k = some p) (st : Status) (summary : W64) (cert : Bool) :
    s.completePass k st summary cert = (s.ceased k p st summary cert).afterPass p := by
  unfold State.completePass
  rw [hp]
  rfl

theorem completePass_none (hp : s.pass k = none) (st : Status) (summary : W64) (cert : Bool) : s.completePass k st summary cert = s := by
  unfold State.completePass
  rw [hp]

theorem ceased_stopped (s : State) (k : Nat) (p : Pass) (st : Status) (summary : W64) (cert : Bool) :
    Stopped s (s.ceased k p st summary cert) := by
  have hcount : ∀ u : State, Stopped u (if !p.agreed then u
      else if p.multi then { u with skein := { u.skein with passNo := u.skein.passNo + 1 } }
      else u.updFn p.fn.val fun u => { u with passNo := u.passNo + 1 }) := by
    intro u
    split
    · rfl
    · split <;> rfl
  exact (((setPassState_stopped s k _).trans (hcount _)).trans (hostEnds_complete ..).stopped).trans rfl

theorem pass_ceased_other {j : Nat} (h : j ≠ k) (st : Status) (summary : W64) (cert : Bool) :
    (s.ceased k p st summary cert).pass j = s.pass j := by
  have hcount : ∀ u : State, (if !p.agreed then u
      else if p.multi then { u with skein := { u.skein with passNo := u.skein.passNo + 1 } }
      else u.updFn p.fn.val fun u => { u with passNo := u.passNo + 1 }).passes = u.passes := by
    intro u
    split
    · rfl
    · split <;> rfl
  refine (AMap.get_set_other (none : Option Pass) (s.completing k p st summary cert).passes none h).trans ?_
  unfold State.completing
  dsimp only
  rw [(hostEnds_complete ..).rest]
  exact (congrArg (AMap.get none · j) (hcount _)).trans (pass_setPassState_other s h _)

theorem pass_completePass_other {j : Nat} (h : j ≠ k) (st : Status) (summary : W64) (cert : Bool) :
    (s.completePass k st summary cert).pass j = s.pass j := by
  cases hp : s.pass k with
  | none => rw [completePass_none hp]
  | some p =>
    rw [completePass_some hp, State.pass, afterPass_passes]
    exact pass_ceased_other h st summary cert

theorem completePass_stopped (h : s.skein.state ≠ .dissolving) (st : Status) (summary : W64) (cert : Bool) :
    Stopped s (s.completePass k st summary cert) := by
  cases hp : s.pass k with
  | none =>
    rw [completePass_none hp]
    exact .refl s
  | some p =>
    have hs := ceased_stopped s k p st summary cert
    rw [completePass_some hp]
    refine hs.trans (afterPass_stopped ?_ p)
    rw [hs]
    exact h

end

/-! ### A skein breaks -/

/-- The end of the skein's pass with key `kp.1` when it breaks. -/
def State.breakPass (s : State) (kp : Nat × Pass) : State :=
  if kp.2.state == .queued || kp.2.state == .admitted then s.completePass kp.1 .rejectedState 0 false
  else s.abandon kp.1 .abandonedSkein true

/-- The skein is BROKEN and its neighbours know, with its passes still to end. -/
def State.broke (s : State) (field : Byte) (subject : BitVec 12) (from' : Option Nat) : State :=
  let k := s.skein
  let s := { s with skein := { k with field := field, module := subject } }
  let out := s.treePorts.filter fun p => from' != some p
  let s := if k.multi then s.sendTo out (controlMsg 0x05 k.id subject field 0) else s
  s.setSkein .broken

section
variable {s : State} {field : Byte} {subject : BitVec 12} {from' : Option Nat}

theorem breakSkein_breaks (hn : s.skein.state ≠ .none) (hb : s.skein.state ≠ .broken) : s.breakSkein field subject from' =
    ((s.broke field subject from').allPasses.filter fun kp => kp.2.fn == s.skein.fn).foldl State.breakPass (s.broke field subject from') := by
  have hlive : (s.skein.state == .forming || s.skein.state == .formed || s.skein.state == .detached || s.skein.state == .dissolving) = true := by
    cases hst : s.skein.state <;> simp_all
  unfold State.breakSkein
  rw [if_pos hlive]
  rfl

theorem breakSkein_broken (hb : s.skein.state = .broken) : s.breakSkein field subject from' = s := by
  unfold State.breakSkein
  simp [hb]

theorem breakPass_stopped {u : State} (h : u.skein.state = .broken) (kp : Nat × Pass) : Stopped u (u.breakPass kp) := by
  unfold State.breakPass
  split
  · exact completePass_stopped (by simp [h]) _ _ _
  · exact abandon_stopped ..

theorem breakPasses_stopped {u : State} (h : u.skein.state = .broken) (l : List (Nat × Pass)) : Stopped u (l.foldl State.breakPass u) := by
  refine List.foldlRecOn (motive := fun v : State => Stopped u v) _ _ (.refl u) fun v hv kp _ => hv.trans (breakPass_stopped ?_ kp)
  rw [hv]
  exact h

theorem pass_breakPass_other {u : State} {kp : Nat × Pass} {k : Nat} (h : k ≠ kp.1) : (u.breakPass kp).pass k = u.pass k := by
  unfold State.breakPass
  split
  · exact pass_completePass_other h _ _ _
  · exact pass_abandon_other u h _ _

theorem pass_breakPasses_other {u : State} {k : Nat} {l : List (Nat × Pass)} (h : ∀ kp ∈ l, k ≠ kp.1) :
    (l.foldl State.breakPass u).pass k = u.pass k :=
  List.foldlRecOn (motive := fun v : State => v.pass k = u.pass k) _ _ rfl fun _ hv kp hkp => (pass_breakPass_other (h kp hkp)).trans hv

/-- A pass that runs ends with ABANDONED_SKEIN and has no retry. -/
theorem breakPasses_abandon {k : Nat} {q : Pass} (hrun : q.state = .running) {l : List (Nat × Pass)} (hl : (l.map (·.1)).Nodup)
    (hmem : (k, q) ∈ l) {u : State} (hp : u.pass k = some q) : Abandoned (l.foldl State.breakPass u) k .abandonedSkein ∧
      ∀ r, (l.foldl State.breakPass u).pass k = some r → r.noRetry = true := by
  induction l generalizing u with
  | nil => exact nomatch hmem
  | cons kp l ih =>
    obtain ⟨hfirst, hl⟩ := List.nodup_cons.1 hl
    rw [List.foldl_cons]
    obtain rfl | hmem := List.mem_cons.1 hmem
    · have hothers : ∀ kp ∈ l, k ≠ kp.1 := fun kp hkp he => hfirst (List.mem_map.2 ⟨kp, hkp, he.symm⟩)
      have hstep : u.breakPass (k, q) = u.abandon k .abandonedSkein true := by simp [State.breakPass, hrun]
      have hpass : ((l.foldl State.breakPass (u.abandon k .abandonedSkein true))).pass k = (u.abandon k .abandonedSkein true).pass k :=
        pass_breakPasses_other hothers
      rw [hstep]
      obtain ⟨r, hr, hend⟩ := (abandon_ends hp (by simp [hrun]) (by simp [hrun]) (by simp [hrun]) .abandonedSkein true).abandoned
      refine ⟨⟨r, hpass.trans hr, hend⟩, fun r' hr' => ?_⟩
      exact abandon_noRetry hp (by simp [hrun]) (by simp [hrun]) (by simp [hrun]) .abandonedSkein r' (hpass.symm.trans hr')
    · have hne : k ≠ kp.1 := fun he => hfirst (List.mem_map.2 ⟨_, hmem, he⟩)
      exact ih hl hmem ((pass_breakPass_other hne).trans hp)

end

/-- Keys of passes are different. -/
theorem allPasses_nodup {s : State} (h : AMap.wf none s.passes = true) : (s.allPasses.map (·.1)).Nodup := by
  have hkeys : (s.passes.map (·.1)).Nodup := by
    refine List.Pairwise.imp (fun hab => Nat.ne_of_lt hab) (List.pairwise_map.2 (AMap.wf_iff.1 h).1)
  refine hkeys.sublist ?_
  unfold State.allPasses
  generalize s.passes = l
  induction l with
  | nil => exact List.Sublist.refl _
  | cons kv l ih =>
    obtain ⟨k, v⟩ := kv
    cases v with
    | none => exact ih.cons _
    | some p => exact ih.cons_cons _

theorem mem_allPasses {s : State} {f : FnId} {k : Nat} {q : Pass} (h : s.curPass f = some (k, q)) :
    (k, q) ∈ s.allPasses.filter fun kp => kp.2.fn == f := by
  have hcond := List.find?_some h
  simp only [Bool.and_eq_true] at hcond
  exact List.mem_filter.2 ⟨List.mem_of_find?_eq_some h, hcond.1⟩

/-! ### The other ports of the tree -/

/-- A child's port that is not the parent's stands once among the tree ports that a condition leaves. -/
theorem count_treePorts {s : State} {c : Nat} (hc : c ∈ s.stitchChildren) (hp : s.stitchRoot = false → c ≠ s.stitchParent) {f : Nat → Bool}
    (hf : f c = true) : (s.treePorts.filter f).count c = 1 := by
  have hchild : s.stitchChildren.count c = 1 := List.count_eq_one_of_mem (stitchChildren_nodup s) hc
  rw [List.count_filter hf, State.treePorts, List.count_append, hchild]
  cases hroot : s.stitchRoot with
  | true => rfl
  | false =>
    rw [if_neg Bool.false_ne_true, List.count_cons_of_ne (Ne.symm (hp hroot))]
    rfl

section
variable {s t : State} {p : PortId} {m : StitchMsg}

/-- A message goes on over the tree ports but that of its arrival. -/
theorem queued_otherPorts {c : Nat} (hc : c ∈ s.stitchChildren) (hcp : c ≠ p.val) (hp : s.stitchRoot = false → c ≠ s.stitchParent) :
    Queued s ((s.takeMsg p.val).sendTo ((s.takeMsg p.val).otherPorts p) m) c [m] :=
  (queued_once (s.takeMsg p.val) (count_treePorts (s := s.takeMsg p.val) hc hp (by simpa using hcp)) m).before (port_takeMsg s p).1

theorem Stopped.msgs (h : Stopped s t) : SameMsgs s t := by
  rw [h]
  exact .of_ports rfl

/-! ### LEAVE -/

/-- The state in which the member that has left is noted and its notice goes on. -/
def State.left (s : State) (p : PortId) (m : StitchMsg) (who : BitVec 12) : State :=
  let u := (s.takeMsg p.val).sendTo ((s.takeMsg p.val).otherPorts p) m
  { u with skein := { u.skein with away := (u.skein.away.filter (· != who)) ++ [who] } }

/-- The skein's pass, if it runs, ends with a member that has left. -/
def State.leaveEnd (w : State) : State :=
  match w.curPass w.skein.fn with
  | some (k, v) => if v.state = .running ∨ v.state = .gating then w.abandon k .abandonedSkein false else w
  | none => w

theorem leaveEnd_stopped (w : State) : Stopped w w.leaveEnd := by
  unfold State.leaveEnd
  split
  · split
    · exact abandon_stopped ..
    · exact .refl w
  · exact .refl w

theorem execLeave_leaves (hm : s.portMsg p.val 0x07 = some m) (hop : fld m.msg 0 8 = 3) (hid : msgSkein m = s.skein.id)
    (hst : s.skein.state ≠ .none) :
    execLeave p s = .next (s.left p m (BitVec.ofNat 12 (fld m.msg 24 12))).leaveEnd := by
  show Host.Outcome.next (s.control p 0x03 _) = _
  rw [control_runs (op := 0x03) hm hop hid hst]
  rfl

theorem left_curPass (who : BitVec 12) : (s.left p m who).curPass (s.left p m who).skein.fn = s.curPass s.skein.fn := by
  have h : OnlyPorts s ((s.takeMsg p.val).sendTo ((s.takeMsg p.val).otherPorts p) m) :=
    OnlyPorts.trans (t := s.takeMsg p.val) rfl (onlyPorts_sendTo _ _ _)
  unfold State.left
  dsimp only
  rw [h]
  rfl

theorem left_skein (who : BitVec 12) : (s.left p m who).skein = { s.skein with away := (s.skein.away.filter (· != who)) ++ [who] } := by
  have h : OnlyPorts s ((s.takeMsg p.val).sendTo ((s.takeMsg p.val).otherPorts p) m) :=
    OnlyPorts.trans (t := s.takeMsg p.val) rfl (onlyPorts_sendTo _ _ _)
  unfold State.left
  dsimp only
  rw [h]

theorem left_pass (who : BitVec 12) (k : Nat) : (s.left p m who).pass k = s.pass k := by
  have h : OnlyPorts s ((s.takeMsg p.val).sendTo ((s.takeMsg p.val).otherPorts p) m) :=
    OnlyPorts.trans (t := s.takeMsg p.val) rfl (onlyPorts_sendTo _ _ _)
  unfold State.left
  dsimp only
  rw [h]
  rfl

/-! ### BROKEN -/

theorem broke_only (s : State) (field : Byte) (subject : BitVec 12) (from' : Option Nat) : ∃ ports fns out obs,
    s.broke field subject from' = { s with skein := { s.skein with field := field, module := subject, state := .broken },
                                           ports := ports, fns := fns, out := out, obs := obs } := by
  obtain ⟨u, hu⟩ : ∃ u : State, u = { s with skein := { s.skein with field := field, module := subject } } := ⟨_, rfl⟩
  obtain ⟨v, hv⟩ : ∃ v, v = if s.skein.multi then u.sendTo (u.treePorts.filter fun p => from' != some p)
    (controlMsg 0x05 s.skein.id subject field 0) else u := ⟨_, rfl⟩
  have honly : OnlyPorts u v := by
    rw [hv]
    split
    · exact onlyPorts_sendTo _ _ _
    · rfl
  obtain ⟨fns, out, obs, hset⟩ := setSkein_only v .broken
  have hrun : s.broke field subject from' = v.setSkein .broken := by
    rw [hv, hu]
    rfl
  refine ⟨v.ports, fns, out, obs, ?_⟩
  rw [hrun, hset, honly, hu]

theorem broke_queued {field : Byte} {subject : BitVec 12} {from' : Option Nat} (hmulti : s.skein.multi = true) {c : Nat}
    (hc : c ∈ s.stitchChildren) (hcp : some c ≠ from') (hp : s.stitchRoot = false → c ≠ s.stitchParent) :
    Queued s (s.broke field subject from') c [controlMsg 0x05 s.skein.id subject field 0] := by
  obtain ⟨u, hu⟩ : ∃ u : State, u = { s with skein := { s.skein with field := field, module := subject } } := ⟨_, rfl⟩
  have hrun : s.broke field subject from' = (u.sendTo (u.treePorts.filter fun p => from' != some p)
      (controlMsg 0x05 s.skein.id subject field 0)).setSkein .broken := by
    rw [hu]
    unfold State.broke
    simp only [hmulti, if_true]
  obtain ⟨fns, out, obs, hset⟩ := setSkein_only (u.sendTo (u.treePorts.filter fun p => from' != some p)
    (controlMsg 0x05 s.skein.id subject field 0)) .broken
  have hq : Queued u (u.sendTo (u.treePorts.filter fun p => from' != some p) (controlMsg 0x05 s.skein.id subject field 0)) c
      [controlMsg 0x05 s.skein.id subject field 0] := by
    refine queued_once u (count_treePorts (s := u) (by rw [hu]; exact hc) (by rw [hu]; exact hp) ?_) _
    simpa using Ne.symm hcp
  rw [hrun, hset]
  unfold Queued at hq ⊢
  rw [hu] at hq
  exact (by rw [hu]; exact hq)

/-! ### DISSOLVE -/

theorem dissolveSelf_ends (h : s.skein.state = .broken ∨ s.skein.state = .forming) :
    s.dissolveSelf = (s.completeForm .rejectedState).leaveSkein := by
  unfold State.dissolveSelf
  obtain h | h := h <;> rw [h]

theorem dissolveSelf_later (h : s.skein.state = .formed ∨ s.skein.state = .detached) :
    s.dissolveSelf = if (s.allPasses.any fun kp => kp.2.fn == s.skein.fn) = true then s.setSkein .dissolving
      else (s.setSkein .dissolving).leaveSkein := by
  obtain ⟨fns, out, obs, hset⟩ := setSkein_only s .dissolving
  have hany : ((s.setSkein .dissolving).allPasses.any fun kp => kp.2.fn == (s.setSkein .dissolving).skein.fn) =
      s.allPasses.any fun kp => kp.2.fn == s.skein.fn := by
    rw [hset]
    rfl
  unfold State.dissolveSelf
  obtain h | h := h
  · rw [h, ← hany]
  · rw [h, ← hany]

theorem dissolveSelf_dissolving (h : s.skein.state = .dissolving) : s.dissolveSelf = s := by
  unfold State.dissolveSelf
  rw [h]

/-- Dissolving takes no message from a queue. -/
theorem dissolveSelf_msgs {c : Nat} (h : (s.port c).msgs ≠ []) : (s.dissolveSelf.port c).msgs = (s.port c).msgs := by
  have hform : ((s.completeForm .rejectedState).port c) = s.port c := by
    rw [(completeForm_ends s (st := .rejectedState) (by decide)).2.rest]
    rfl
  obtain ⟨fns, out, obs, hset⟩ := setSkein_only s .dissolving
  have hdiss : (s.setSkein .dissolving).port c = s.port c := by
    rw [hset]
    rfl
  unfold State.dissolveSelf
  split
  · rw [leaveSkein_msgs _ (by rw [hform]; exact h), hform]
  · rw [leaveSkein_msgs _ (by rw [hform]; exact h), hform]
  · dsimp only
    split
    · rw [hdiss]
    · rw [leaveSkein_msgs _ (by rw [hdiss]; exact h), hdiss]
  · dsimp only
    split
    · rw [hdiss]
    · rw [leaveSkein_msgs _ (by rw [hdiss]; exact h), hdiss]
  · rfl

end

/-- Settles O37: each control message of the skein goes on over the tree and has its effect, and a detached member sends its record
again. -/
theorem skeinControl : Obligations.SkeinControl := by
  unfold Obligations.SkeinControl
  intro s p
  refine ⟨fun m hm hid hst => ?_, fun hst hen htol => ?_⟩
  · intro who goesOn runs
    obtain ⟨hmsgs, -⟩ := port_takeMsg s p
    have hruns : ∀ {k q}, runs k q → s.curPass s.skein.fn = some (k, q) ∧ s.pass k = some q ∧ q.state = .running ∧
      AMap.wf none s.passes = true := id
    refine ⟨fun hop => ?_, fun hop => ?_, fun hop => ?_, fun hop => ?_⟩
    · obtain ⟨w, hw⟩ : ∃ w, w = s.left p m who := ⟨_, rfl⟩
      have hrun := execLeave_leaves hm hop hid hst
      rw [show s.left p m (BitVec.ofNat 12 (fld m.msg 24 12)) = w from hw.symm] at hrun
      have hskein : w.skein = { s.skein with away := (s.skein.away.filter (· != who)) ++ [who] } := hw ▸ left_skein who
      have hstop := leaveEnd_stopped w
      have hqueued : ∀ c ∈ s.stitchChildren, c ≠ p.val → (s.stitchRoot = false → c ≠ s.stitchParent) → Queued s w c [m] := by
        intro c hc hcp hpar
        rw [hw]
        exact queued_otherPorts hc hcp hpar
      refine ⟨w.leaveEnd, hrun, ?_, ?_, fun c hc hcp hpar => (hqueued c hc hcp hpar).later hstop.msgs, fun k q hkq => ?_⟩
      · rw [hstop]
        show who ∈ w.skein.away
        rw [hskein]
        simp
      · rw [hstop]
        show w.skein.state = _
        rw [hskein]
      · obtain ⟨hcur, hp, hrunning, -⟩ := hruns hkq
        have hcur' : w.curPass w.skein.fn = some (k, q) := by
          rw [hw]
          exact (left_curPass who).trans hcur
        have hp' : w.pass k = some q := by
          rw [hw]
          exact (left_pass who k).trans hp
        rw [State.leaveEnd, hcur']
        dsimp only
        rw [if_pos (.inl hrunning)]
        exact (abandon_ends hp' (by simp [hrunning]) (by simp [hrunning]) (by simp [hrunning]) _ _).abandoned
    · have hrun : exec (.readmit p) s = .next (if !(s.takeMsg p.val).fromParent p then s.takeMsg p.val
          else
            let u := (s.takeMsg p.val).sendTo s.stitchChildren m
            if who = u.moduleId then
              if u.skein.state = .detached then
                { u with skein := { u.skein with readmitAt := some (BitVec.ofNat 64 (fld m.msg 48 64)) } }
              else u
            else { u with skein := { u.skein with away := u.skein.away.filter (· != who) } }) := by
        show Host.Outcome.next (s.control p 0x04 _) = _
        rw [control_runs (op := 0x04) hm hop hid hst]
        rfl
      have hfrom : (s.takeMsg p.val).fromParent p = s.fromParent p := rfl
      rw [hfrom] at hrun
      cases hpar : s.fromParent p with
      | false =>
        rw [hpar] at hrun
        exact ⟨_, hrun, rfl, fun h => (nomatch h), fun _ => rfl⟩
      | true =>
        rw [hpar] at hrun
        obtain ⟨u, hu⟩ : ∃ u, u = (s.takeMsg p.val).sendTo s.stitchChildren m := ⟨_, rfl⟩
        have honly : OnlyPorts s u := hu ▸ OnlyPorts.trans (t := s.takeMsg p.val) rfl (onlyPorts_sendTo _ _ _)
        have hskein : u.skein = s.skein := by rw [honly]
        have hmod : u.moduleId = s.moduleId := by
          rw [honly]
          rfl
        have hq : ∀ c ∈ s.stitchChildren, Queued s u c [m] := fun c hc => by
          rw [hu]
          exact (queued_sendTo (s.takeMsg p.val) (stitchChildren_nodup s) hc m).before hmsgs
        dsimp only at hrun
        rw [← hu, hmod, hskein] at hrun
        by_cases hwho : who = s.moduleId
        · by_cases hdet : s.skein.state = .detached
          · rw [if_pos hwho, if_pos hdet] at hrun
            exact ⟨_, hrun, rfl, fun _ => ⟨hq, fun _ _ => ⟨_, rfl, toNat_fld ..⟩, fun hne => absurd hwho hne⟩, fun h => (nomatch h)⟩
          · rw [if_pos hwho, if_neg hdet] at hrun
            exact ⟨u, hrun, by rw [hskein], fun _ => ⟨hq, fun _ h => absurd h hdet, fun hne => absurd hwho hne⟩, fun h => (nomatch h)⟩
        · rw [if_neg hwho] at hrun
          refine ⟨_, hrun, rfl, fun _ => ⟨hq, fun h => absurd h hwho, fun _ => ?_⟩, fun h => (nomatch h)⟩
          simp
    · obtain ⟨u, hu⟩ : ∃ u, u = s.takeMsg p.val := ⟨_, rfl⟩
      obtain ⟨field, hfield⟩ : ∃ field : Byte, field = BitVec.ofNat 8 (fld m.msg 40 8) := ⟨_, rfl⟩
      have hskein : u.skein = s.skein := by rw [hu]; rfl
      have hrun : exec (.broken p) s = .next (u.breakSkein field who (some p.val)) := by
        show Host.Outcome.next (s.control p 0x05 _) = _
        rw [control_runs (op := 0x05) hm hop hid hst, hu, hfield]
      by_cases hb : s.skein.state = .broken
      · rw [breakSkein_broken (by rw [hskein]; exact hb)] at hrun
        exact ⟨u, hrun, by rw [hskein, hb], fun h => absurd hb h⟩
      · rw [breakSkein_breaks (by rw [hskein]; exact hst) (by rw [hskein]; exact hb)] at hrun
        obtain ⟨ports, fns, out, obs, hbroke⟩ := broke_only u field who (some p.val)
        obtain ⟨w, hw⟩ : ∃ w, w = u.broke field who (some p.val) := ⟨_, rfl⟩
        rw [← hw] at hrun hbroke
        have hwskein : w.skein = { s.skein with field := field, module := who, state := .broken } := by
          rw [hbroke, ← hskein]
        have hstop := breakPasses_stopped (u := w) (by rw [hwskein]) (w.allPasses.filter fun kp => kp.2.fn == u.skein.fn)
        obtain ⟨t, ht⟩ : ∃ t, t = (w.allPasses.filter fun kp => kp.2.fn == u.skein.fn).foldl State.breakPass w := ⟨_, rfl⟩
        rw [← ht] at hrun hstop
        have htfield : t.skein.field = field := by
          rw [hstop]
          show w.skein.field = _
          rw [hwskein]
        refine ⟨t, hrun, ?_, fun _ => ⟨?_, ?_, fun hmulti c hc hcp hpar => ?_, fun k q hkq => ?_⟩⟩
        · rw [hstop]
          show w.skein.state = _
          rw [hwskein]
        · rw [hstop]
          show w.skein.module = _
          rw [hwskein]
        · rw [htfield, hfield]
          exact toNat_fld ..
        · rw [htfield]
          have hq := broke_queued (s := u) (field := field) (subject := who) (from' := some p.val) (by rw [hskein]; exact hmulti)
            (c := c) (by rw [hu]; exact hc) (by simpa using hcp) (by rw [hu]; exact hpar)
          rw [← hw, hskein] at hq
          exact (hq.later hstop.msgs).before (hu ▸ hmsgs)
        · obtain ⟨hcur, hp, hrunning, hwf⟩ := hruns hkq
          have hpasses : w.passes = s.passes := by
            rw [hbroke, hu]
            rfl
          have hall : w.allPasses = s.allPasses := by rw [State.allPasses, hpasses, State.allPasses]
          have hmem : (k, q) ∈ w.allPasses.filter fun kp => kp.2.fn == u.skein.fn := by
            rw [hall, hskein]
            exact mem_allPasses hcur
          rw [ht]
          refine breakPasses_abandon hrunning ?_ hmem (by rw [State.pass, hpasses]; exact hp)
          rw [hall]
          exact (allPasses_nodup hwf).sublist (List.filter_sublist.map _)
    · obtain ⟨u, hu⟩ : ∃ u, u = (s.takeMsg p.val).sendTo ((s.takeMsg p.val).otherPorts p) m := ⟨_, rfl⟩
      have honly : OnlyPorts s u := hu ▸ OnlyPorts.trans (t := s.takeMsg p.val) rfl (onlyPorts_sendTo _ _ _)
      have hskein : u.skein = s.skein := by rw [honly]
      have hrun : exec (.dissolve p) s = .next u.dissolveSelf := by
        show Host.Outcome.next (s.control p 0x06 _) = _
        rw [control_runs (op := 0x06) hm hop hid hst, hu]
      refine ⟨_, hrun, fun c hc hcp hpar => ?_, fun h => ?_, fun h => ?_, fun h => ?_⟩
      · have hq : Queued s u c [m] := hu ▸ queued_otherPorts hc hcp hpar
        unfold Queued at hq ⊢
        rw [dissolveSelf_msgs (by rw [hq]; simp), hq]
      · rw [dissolveSelf_ends (by rw [hskein]; exact h)]
        obtain ⟨fns, out, obs, hleave⟩ := leaveSkein_only (u.completeForm .rejectedState)
        obtain ⟨hended, -⟩ := completeForm_ends u (st := .rejectedState) (by decide)
        refine ⟨?_, (hended.after (leaveSkein_kept _)).before honly.kept (by rw [hskein]) (by rw [hskein])⟩
        rw [hleave]
        rfl
      · rw [dissolveSelf_later (by rw [hskein]; exact h)]
        have hany : (u.allPasses.any fun kp => kp.2.fn == u.skein.fn) = true ↔ ∃ kp ∈ s.allPasses, kp.2.fn = s.skein.fn := by
          have hall : u.allPasses = s.allPasses := by
            rw [honly]
            rfl
          rw [hall, hskein]
          simp
        obtain ⟨fns, out, obs, hset⟩ := setSkein_only u .dissolving
        by_cases hp : ∃ kp ∈ s.allPasses, kp.2.fn = s.skein.fn
        · rw [if_pos (hany.2 hp), if_pos hp, hset]
        · rw [if_neg (mt hany.1 hp), if_neg hp]
          obtain ⟨fns', out', obs', hleave⟩ := leaveSkein_only (u.setSkein .dissolving)
          rw [hleave]
          rfl
      · rw [dissolveSelf_dissolving (by rw [hskein]; exact h), hskein]
  · have hgo : ¬(s.skein.state ≠ .detached ∨ s.pf .fabSkeinCfg 14 1 = 0 ∨ s.clk.tolFrames < 16) := by
      rw [hst, hen]
      simp
      omega
    cases hroot : s.stitchRoot with
    | true =>
      refine ⟨{ s with skein := { s.skein with rejoined := some s.moduleId } }, ?_, hst, fun h => (nomatch h), fun _ => rfl⟩
      show execAutoRejoin s = _
      rw [execAutoRejoin, if_neg hgo, if_pos hroot]
    | false =>
      obtain ⟨honly, hq⟩ := queued_sendAll s s.stitchParent (recordParts s.skein.id s.agreementRecord true)
      refine ⟨s.sendAll [s.stitchParent] (recordParts s.skein.id s.agreementRecord true), ?_, ?_, fun _ => hq, fun h => (nomatch h)⟩
      · show execAutoRejoin s = _
        rw [execAutoRejoin, if_neg hgo, if_neg (by simp [hroot])]
      · rw [honly]
        exact hst

end Sys2Proof.Machine
end


section
/-!
PROOFS. The result of a collective at a core whose port another access of the cycle has claimed (R115, R173): the write does not take
place.
-/
namespace Sys2Proof.Machine

/-- A collective without contributors of this module. -/
def emptyColl : CollEntry := { counter := 0xFF, group := [], op := 0, narrow := false, subtrees := [] }

/-- Where the core has asked for its result. -/
def claimedAddr : MAddr := BitVec.ofNat 48 (absAddr 1 0 0)

/-- The collective waits for its result. -/
def waitingColl : Coll := { Coll.start 0 0 0 false with dest := [(0, claimedAddr, 0)] }

/-- A pass of the skein that runs. -/
def skeinPass : Pass := { Pass.submitted 0 0 0 0 [] with state := .running }

/-- A member of a skein of two whose core has claimed the write port of its activation memory in cycle 0, with the result of the
collective at its parent port. -/
def claimedState : State :=
  { State.reset with
    fns := [(0, { Func.reset0 with exe := some { longLoad with exe := { bareExe [] with colls := [emptyColl] } } })]
    cores := [(0, { Core.reset with claims := [{ port := 1, start := 0, step := 1, n := 1, eng := 4 }] })]
    ports := [(0, { Port.reset with rxMsg := some (scolMsg 0x04 0 1) })]
    passes := [(0, some skeinPass)]
    skein := { Skein.reset with state := .formed, plan := [0, 1] }
    colls := [waitingColl] }

theorem claimedState_noWrites : NoWrites claimedState := by
  intro b
  by_cases h : b = 0
  · subst h
    rfl
  · simp [State.core, claimedState, AMap.get, Ne.symm h, Core.reset]

/-- The result has not been written. -/
theorem claimedState_result : ∀ t, exec (.fscolResult 0) claimedState = .next t → leNat (t.readNow 0 (absAddr 1 0 0) 16) = 0 := by
  intro t ht
  obtain rfl := Host.Outcome.next.inj ht
  decide +kernel

/-- Refutes O38: the claimed port keeps the result of the collective from its destination. -/
theorem not_stitchCombining : ¬ Obligations.StitchCombining := by
  intro h
  obtain ⟨-, -, -, hcoll, -⟩ := h claimedState 0 (scolMsg 0x04 0 1) 0 skeinPass rfl (by decide +kernel) rfl (by decide +kernel)
    (by decide +kernel)
  obtain ⟨t, ht, hread, -⟩ := (hcoll waitingColl (by decide +kernel) (by decide +kernel) _ emptyColl rfl (by decide +kernel)).2
    (by decide +kernel) (by decide +kernel) claimedState_noWrites 0 claimedAddr 0 0 (absAddr 1 0 0) rfl (by decide +kernel)
    (fun j hj => nomatch hj) rfl rfl
  exact absurd (hread.symm.trans (claimedState_result t ht)) (by decide +kernel)

end Sys2Proof.Machine
end


section
/-!
PROOFS. A slot group in which a port's ingress queue holds a flit for another module (R264): the flit crosses to its egress port after
that port's weft positions, and joins its queue.
-/
namespace Sys2Proof.Machine

/-- A flit for module 1. -/
def strayFlit : WeftFlit :=
  { kind := .ack, dst := 1, src := 0, srcNode := 0, tag := 0, attempt := 0, hops := 0, payload := 0, marks := [] }

/-- Port 0 carries weft and holds the flit, whose route is port 0. -/
def forwardingState : State :=
  { State.reset.setReg 0 (.fabWeftRoute 1) 0x20 with
    power := { State.reset.power with phase := .ready }
    clk := { State.reset.clk with sg := 0 }
    ports := [(0, { Port.reset with state := .weftOnly, ingress := [strayFlit] })] }

/-- Flits in the egress queue of port 0 after a step. -/
def egressAfter : Host.Outcome State Fault Refusal → Nat
  | .next t => (t.port 0).egress.length
  | _ => 0

theorem forwardingState_egress : egressAfter (exec .slotGroupStart forwardingState) = 1 := by decide +kernel

/-- Refutes O39: the flit joins the empty egress queue of port 0 after it has been served. -/
theorem not_slotGroupsAndFrames : ¬ Obligations.SlotGroupsAndFrames := by
  intro h
  obtain ⟨hslot, -⟩ := h forwardingState (by decide +kernel) (by decide +kernel) (by decide +kernel)
  obtain ⟨t, ht, -, -, -, -, hports⟩ := hslot (.inl (by decide)) rfl
  have hdrop := (hports 0).2 (by decide +kernel)
  have hone := forwardingState_egress
  rw [ht, egressAfter, show (t.port 0).egress = _ from hdrop] at hone
  exact absurd hone (by decide +kernel)

end Sys2Proof.Machine
end


section
/-!
PROOFS. Stretches, the lock monitors and the TIME pins (R282, R284, R286, R287, R456), and what a fatal fault does to the fault
collector (R376).
-/
namespace Sys2Proof.Machine

/-! ### The collector in the fatal state -/

theorem completePass_chk (s : State) (k : Nat) (st : Status) (summary : W64) (cert : Bool) :
    (s.completePass k st summary cert).chk = s.chk := by
  cases hp : s.pass k with
  | none => rw [completePass_none hp]
  | some p =>
    have hcount : ∀ u : State, (if !p.agreed then u
        else if p.multi then { u with skein := { u.skein with passNo := u.skein.passNo + 1 } }
        else u.updFn p.fn.val fun u => { u with passNo := u.passNo + 1 }).chk = u.chk := by
      intro u
      split
      · rfl
      · split <;> rfl
    have hcompleting : (s.completing k p st summary cert).chk = s.chk := by
      unfold State.completing
      dsimp only
      rw [(hostEnds_complete ..).rest]
      exact (hcount _).trans (setPassState_stilled s k .complete).chk
    obtain ⟨u, hu⟩ : ∃ u, u = s.ceased k p st summary cert := ⟨_, rfl⟩
    have huchk : u.chk = s.chk := hu ▸ hcompleting
    have hretire : ∀ v : State, (v.retireOld p.fn).chk = v.chk := by
      intro v
      unfold State.retireOld
      dsimp only
      refine List.foldlRecOn (motive := fun w : State => w.chk = v.chk) _ _ rfl fun w hw g _ => ?_
      unfold State.traceGen
      split
      · exact hw
      · rw [traceTo_only]
        exact hw
    have hpreempt : ∀ v : State, (v.settlePreempt p.fn).chk = v.chk := by
      intro v
      unfold State.settlePreempt
      dsimp only
      split
      · split
        · rw [State.finish, (hostEnds_complete ..).rest]
        · rfl
      · rfl
    have hleave : ∀ v : State, v.leaveSkein.chk = v.chk := by
      intro v
      obtain ⟨fns, out, obs, h⟩ := leaveSkein_only v
      rw [h]
    rw [completePass_some hp, ← hu, ← huchk]
    unfold State.afterPass
    refine (hpreempt _).trans ?_
    split
    · exact (hleave _).trans (hretire _)
    · exact hretire _

theorem breakSkein_chk (s : State) (field : Byte) (subject : BitVec 12) (from' : Option Nat) :
    (s.breakSkein field subject from').chk = s.chk := by
  by_cases hn : s.skein.state = .none
  · simp [State.breakSkein, hn]
  · by_cases hb : s.skein.state = .broken
    · rw [breakSkein_broken hb]
    · obtain ⟨ports, fns, out, obs, hbroke⟩ := broke_only s field subject from'
      rw [breakSkein_breaks hn hb]
      refine List.foldlRecOn (motive := fun u : State => u.chk = s.chk) _ _ (by rw [hbroke]) fun u hu kp _ => ?_
      unfold State.breakPass
      split
      · exact (completePass_chk ..).trans hu
      · exact (abandon_stilled ..).chk.trans hu

theorem updPass_chk (s : State) (k : Nat) (f : Pass → Pass) : (s.updPass k f).chk = s.chk := by
  unfold State.updPass
  split <;> rfl

theorem refuseFetched_chk (s : State) : s.refuseFetched.chk = s.chk := by
  unfold State.refuseFetched
  refine List.foldlRecOn (motive := fun u : State => u.chk = s.chk) _ _ rfl fun u hu kv _ => ?_
  refine List.foldlRecOn (motive := fun u : State => u.chk = s.chk) _ _ hu fun v hv d _ => ?_
  rw [State.finish, (hostEnds_complete ..).rest]
  exact hv

theorem sensed_chk (s : State) (x : PldmSensor) : (s.sensed x).chk = s.chk := by
  unfold State.sensed
  split <;> rfl

theorem fatalStop_chk (s : State) (r : FaultRecord) :
    (s.fatalStop r).chk = { s.chk with fatal := true, cause := r.cause.code, detail := r.detail } := by
  unfold State.fatalStop
  dsimp only
  rw [refuseFetched_chk, breakSkein_chk]
  refine List.foldlRecOn (motive := fun u : State => u.chk = { s.chk with fatal := true, cause := r.cause.code, detail := r.detail }) _ _
    ?_ fun u hu kp _ => ?_
  · rfl
  · dsimp only
    split
    · rw [completePass_chk, updPass_chk]
      exact hu
    · rw [updPass_chk, (abandon_stilled ..).chk, updPass_chk]
      exact hu

/-- A fatal fault is recorded and shown. -/
theorem raise_fatal {s : State} {src : Src} {cause : Cause} {d : Byte} (hc : ∀ multi, classOf cause d multi = .fatal)
    (hr : (s.reporter src.reporter).length < 16) (touch : Option Nat) :
    Raised s (s.raise src cause d touch) src cause d ∧ (s.raise src cause d touch).chk.fatal = true ∧
      (s.raise src cause d touch).chk.cause = cause.code ∧ (s.raise src cause d touch).chk.detail = d := by
  obtain ⟨r, hrec⟩ : ∃ r, r = s.mkRecord src cause d .fatal (touch.bind s.pass) := ⟨_, rfl⟩
  have hrun : s.raise src cause d touch = (s.queueRecord src.reporter r).fatalStop r := by
    unfold State.raise
    simp only [hc, hrec]
  have hchk := fatalStop_chk (s.queueRecord src.reporter r) r
  rw [queueRecord_of_room hr] at hchk hrun
  rw [hrun]
  refine ⟨⟨r, ?_, ?_⟩, ?_, ?_, ?_⟩
  · rw [State.reporter, hchk]
    exact AMap.get_set_same ..
  · rw [hrec]
    exact ⟨rfl, rfl, rfl, rfl, rfl, rfl⟩
  · rw [hchk]
  · rw [hchk, hrec]
    rfl
  · rw [hchk, hrec]
    rfl

/-! ### Stretches -/

section
variable {s : State} {r t : Nat}

/-- A stretched period of a region. -/
theorem stretchRegion_stretches (own : Bool) : ((s.stretchRegion r t own).region r).stretches = (s.region r).stretches + 1 ∧
    ((s.stretchRegion r t own).region r).last = some t ∧ ((s.stretchRegion r t own).region r).total = (s.region r).total + 1 := by
  obtain ⟨u, hu⟩ : ∃ u, u = s.updRegion r fun v => { v with stretches := v.stretches + 1, last := some t, total := v.total + 1 } := ⟨_, rfl⟩
  have hcount : Counted u (s.stretchRegion r t own) := by
    unfold State.stretchRegion
    rw [← hu]
    refine List.foldlRecOn (motive := fun v : State => Counted u v) _ _ (.refl u) fun v hv c _ => hv.trans ?_
    dsimp only
    split
    · exact (counted_countAt ..).trans (counted_countAt ..)
    · exact counted_countAt ..
  have hregion : (s.stretchRegion r t own).region r = { s.region r with
      stretches := (s.region r).stretches + 1, last := some t, total := (s.region r).total + 1 } := by
    have : (s.stretchRegion r t own).region r = u.region r := by
      rw [hcount.rest]
      rfl
    rw [this, hu]
    exact AMap.get_upd_same Region.reset s.regions r fun v => { v with stretches := v.stretches + 1, last := some t, total := v.total + 1 }
  rw [hregion]
  exact ⟨rfl, rfl, rfl⟩

theorem absorbs_last (h : (s.region r).last = some t) : s.absorbs r t = true := by
  simp [State.absorbs, h]

end

/-! ### The TIME pins -/

section
variable {s : State} {ticks high rise : Nat}

/-- The tick of an edge. -/
def State.edgeTick (s : State) (ticks : Nat) : W64 := s.clk.timebase + BitVec.ofNat 64 ticks

/-- The edge comes too soon after the previous one. -/
def State.edgeSoon (s : State) (ticks : Nat) : Bool :=
  match s.clk.lastEdge with
  | some t => decide ((s.edgeTick ticks - t).toNat < 4000000)
  | none => false

theorem edgeSoon_iff : s.edgeSoon ticks = false ↔ ∀ t0, s.clk.lastEdge = some t0 → 4000000 ≤ (s.edgeTick ticks - t0).toNat := by
  unfold State.edgeSoon
  cases s.clk.lastEdge with
  | none => simp
  | some t => simp

theorem interrupt_clk (s : State) (f : FnId) (v : Fin 128) : (s.interrupt f v).clk = s.clk := by
  unfold State.interrupt
  dsimp only
  split
  · rfl
  · split <;> rfl

theorem logTo_clk (s : State) (f : FnId) (ty cause : Byte) (b : List Byte) : (s.logTo f ty cause b).clk = s.clk := by
  unfold State.logTo
  split
  · rfl
  · rw [interrupt_clk]
    rfl

variable (hup : s.up = true) (hroot : s.timeRoot = true) (hpin : s.pf .clkTimeCtrl 6 1 = 1) (hh : 100 ≤ high) (hr : rise ≤ 10)
include hup hroot hpin hh hr

theorem timeInEdge_soon (h : s.edgeSoon ticks = true) : ∃ t, execTimeInEdge ticks high rise s = .next t ∧ t.clk = s.clk := by
  have hrun : execTimeInEdge ticks high rise s = .next ((s.draw 0x456).2.logTo pfn ((s.draw 0x456).1.setWidth 8) 0xFF []) := by
    unfold execTimeInEdge
    dsimp only
    rw [if_neg (by simp [hup, hroot, hpin, hh, hr])]
    unfold State.edgeSoon at h
    cases hl : s.clk.lastEdge with
    | none => simp [hl] at h
    | some t => exact if_pos (by rw [hl] at h; exact h)
  exact ⟨_, hrun, logTo_clk ..⟩

theorem timeInEdge_slews (h : s.edgeSoon ticks = false) (hlow : (s.edgeTick ticks).toNat % 8000000 ≤ 1024) :
    ∃ t, execTimeInEdge ticks high rise s = .next t ∧ t.clk.lastEdge = some (s.edgeTick ticks) ∧
      t.clk.integ = max (-100) (min 100 (s.clk.integ + (((s.edgeTick ticks).toNat % 8000000 : Nat) : Rat) / 4096)) := by
  obtain ⟨low, hlo⟩ : ∃ low, low = (s.edgeTick ticks).toNat % 8000000 := ⟨_, rfl⟩
  have habs : ¬1024 < absRat (low : Rat) := by
    have h0 : ¬((low : Nat) : Rat) < 0 := not_lt.2 (Nat.cast_nonneg low)
    rw [absRat, if_neg h0]
    have : ((low : Nat) : Rat) ≤ ((1024 : Nat) : Rat) := Nat.cast_le.2 (hlo ▸ hlow)
    exact not_lt.2 this
  have hclamp : ∀ v : Rat, clampRat (-100) 100 v = max (-100) (min 100 v) := by
    intro v
    unfold clampRat
    split
    · next h1 => rw [min_eq_right (by linarith), max_eq_left h1.le]
    · next h1 =>
      split
      · next h2 => rw [min_eq_left h2.le, max_eq_right (by norm_num)]
      · next h2 => rw [min_eq_right (not_lt.1 h2), max_eq_right (not_lt.1 h1)]
  have hrun : execTimeInEdge ticks high rise s = .next (
      let u : State := { s with clk := { s.clk with lastEdge := some (s.edgeTick ticks), theta := thetaField (low : Rat) } }
      { u with clk := u.clk.slew (low : Rat) 8000000 }) := by
    have hsmall : (s.edgeTick ticks).toNat % 8000000 < 4000000 := by omega
    unfold execTimeInEdge
    dsimp only
    rw [if_neg (by simp [hup, hroot, hpin, hh, hr])]
    refine (if_neg ?_).trans ?_
    · unfold State.edgeSoon at h
      cases hl : s.clk.lastEdge with
      | none => simp
      | some t => rw [hl] at h; exact fun hc => absurd (h.symm.trans hc) (by decide)
    have hs : (s.clk.timebase + BitVec.ofNat 64 ticks).toNat % 8000000 < 4000000 := hsmall
    rw [if_pos hs, show (s.clk.timebase + BitVec.ofNat 64 ticks).toNat % 8000000 = low from hlo.symm]
    rw [if_neg (by simp [habs])]
    rfl
  refine ⟨_, hrun, rfl, ?_⟩
  rw [← hlo]
  exact hclamp _

end

/-- Settles O40: a request stretches its region or is absorbed, a generator out of lock is fatal, and the TIME pins correct and
pulse. -/
theorem stretchAndTimePins : Obligations.StretchAndTimePins := by
  unfold Obligations.StretchAndTimePins
  intro s hup
  refine ⟨fun r cycle rep => ?_, fun hroom => ?_, fun ticks high rise hroot hpin hh hr => ?_, ?_⟩
  · intro t0
    have hstretch : ∀ rep, exec (.stretch r cycle rep) s = .next (if s.absorbs r.val t0 then
        if rep && (s.region r.val).last != some t0 then s.raise (regionSrc r.val) .marginCritical 0x01 (s.regionPass r.val) else s
        else s.stretchRegion r.val t0 true) := by
      intro rep
      show execStretch r cycle rep s = _
      unfold execStretch
      dsimp only
      rw [if_neg (by simp [hup])]
      exact (apply_ite _ _ _ _).symm
    refine ⟨fun ha => ?_, fun ha hlast hroom => ?_, fun hlast => ?_, fun ha => ?_, fun ha hpos n hadj hlast => ?_, fun hroom => ?_⟩
    · exact ⟨_, by rw [hstretch rep, ha]; rfl, stretchRegion_stretches true⟩
    · have hcond : (true && (s.region r.val).last != some t0) = true := by simpa using hlast
      refine ⟨_, by rw [hstretch true, ha, if_pos rfl, if_pos hcond], ?_⟩
      exact raise_raised (cause := .marginCritical) ⟨fun _ => rfl, fun h => nomatch h⟩ hroom _
    · have hcond : ¬(rep && (s.region r.val).last != some t0) = true := by simp [hlast]
      rw [hstretch rep, absorbs_last hlast, if_pos rfl, if_neg hcond]
    · rw [hstretch false, ha]
      rfl
    · have hsent : ((List.range 52).any fun q => adjacentRegions r.val q && (s.region q).last == some (t0 - 1) && t0 != 0) = true := by
        rw [List.any_eq_true]
        exact ⟨n.val, List.mem_range.2 n.isLt, by simp [hadj, hlast]; omega⟩
      refine ⟨s.stretchRegion r.val t0 false, ?_, (stretchRegion_stretches false).1, (stretchRegion_stretches false).2.1⟩
      show execStretchToken r cycle s = _
      unfold execStretchToken
      dsimp only
      rw [hsent, show s.absorbs r.val (s.clk.clocked.toNat + cycle) = false from ha, hup]
      rfl
    · refine ⟨_, ?_, raise_fatal (s := s) (src := regionSrc r.val) (cause := .clockFault) (d := 0x01) (fun _ => rfl) hroom (s.regionPass r.val)⟩
      show execLockMonitorFault (some r) s = _
      rw [execLockMonitorFault, if_neg (by simp [hup])]
  · refine ⟨_, ?_, raise_fatal (s := s) (src := .none') (cause := .clockFault) (d := 0x02) (fun _ => rfl) hroom none⟩
    show execLockMonitorFault none s = _
    rw [execLockMonitorFault, if_neg (by simp [hup])]
  · intro now late
    have hlate : late ↔ s.edgeSoon ticks = false := edgeSoon_iff.symm
    exact ⟨fun h hlow => timeInEdge_slews hup hroot hpin hh hr (hlate.1 h) hlow,
      fun h => timeInEdge_soon hup hroot hpin hh hr (by rwa [hlate, Bool.not_eq_false] at h)⟩
  · refine ⟨(s.emit (.timeOut true)).emit (.timeOut false), ?_, rfl⟩
    show execTimeOutPulse s = _
    rw [execTimeOutPulse, if_pos hup]

end Sys2Proof.Machine
end


section
/-!
PROOFS. Ports that go down, train and come up, and the change of the mesh mode (R246, R249 to R252, R313).
-/
namespace Sys2Proof

/-- An entry of a map in canonical form is what a read of its key gives. -/
theorem AMap.get_of_mem {α : Type} [DecidableEq α] {d : α} {m : AMap α} (h : AMap.wf d m = true) {k : Nat} {v : α} (hv : (k, v) ∈ m) :
    AMap.get d m k = v := by
  induction m with
  | nil => exact nomatch hv
  | cons x m ih =>
    obtain ⟨j, w⟩ := x
    rw [AMap.wf_iff, List.pairwise_cons] at h
    obtain ⟨⟨hfirst, hrest⟩, hne⟩ := h
    obtain he | hv := List.mem_cons.1 hv
    · obtain ⟨rfl, rfl⟩ := Prod.mk.inj he
      simp [AMap.get]
    · have hjk : j ≠ k := Nat.ne_of_lt (hfirst _ hv)
      rw [AMap.get, if_neg hjk]
      exact ih (AMap.wf_iff.2 ⟨hrest, fun x hx => hne x (List.mem_cons_of_mem _ hx)⟩) hv

end Sys2Proof

namespace Sys2Proof.Machine

theorem pass_of_mem_allPasses {s : State} (h : AMap.wf none s.passes = true) {k : Nat} {q : Pass} (hk : (k, q) ∈ s.allPasses) :
    s.pass k = some q := by
  obtain ⟨⟨j, v⟩, hmem, hv⟩ := List.mem_filterMap.1 hk
  obtain ⟨r, rfl, he⟩ := Option.map_eq_some_iff.1 hv
  obtain ⟨rfl, rfl⟩ := Prod.mk.inj he
  exact AMap.get_of_mem h hmem

/-! ### The map of passes stays in canonical form -/

section
variable {s : State} (h : AMap.wf none s.passes = true)
include h

theorem setPass_wf (k : Nat) (p : Pass) : AMap.wf none (s.setPass k p).passes = true := AMap.wf_set k (some p) h

theorem setPassState_wf (k : Nat) (st : PassState) : AMap.wf none (s.setPassState k st).passes = true := by
  unfold State.setPassState
  split
  · exact h
  · rw [traceTo_passes]
    exact setPass_wf h k _

theorem quiesced_wf (k : Nat) (p : Pass) (st : Status) (noRetry : Bool) : AMap.wf none (s.quiesced k p st noRetry).passes = true := by
  have hhalt : ((s.jobCores k).foldl (fun s c => s.haltCore c (if p.start.isSome then 3200 * (p.kernelStart.toNat - (p.start.getD 0).toNat)
      else 0)) s).passes = s.passes :=
    List.foldlRecOn (motive := fun u : State => u.passes = s.passes) _ _ rfl fun u hu c _ => (haltCore_passes u c _).trans hu
  unfold State.quiesced
  refine setPassState_wf (setPass_wf ?_ k _) k .quiescing
  exact (congrArg (AMap.wf none ·) ((dyeAbandoned_passes _ p _).trans hhalt)).trans h

theorem abandon_wf (k : Nat) (st : Status) (noRetry : Bool) : AMap.wf none (s.abandon k st noRetry).passes = true := by
  have hnoticed : ∀ (u : State) (p : Pass), (u.noticed p).passes = u.passes := by
    intro u p
    unfold State.noticed
    split <;> rfl
  unfold State.abandon
  split
  · exact h
  · split
    · exact h
    · exact h
    · split_ifs
      · exact setPass_wf h k _
      · exact setPass_wf h k _
      · exact h
    · next p _ _ _ _ _ =>
      refine (congrArg (AMap.wf none ·) (hnoticed (s.quiesced k p st noRetry) p)).trans ?_
      exact quiesced_wf h k p st noRetry

theorem raise_wf {cause : Cause} {d : Byte} (he : EndsPass cause d) (src : Src) (touch : Option Nat) :
    AMap.wf none (s.raise src cause d touch).passes = true := by
  have hq : ∀ n r, AMap.wf none (s.queueRecord n r).passes = true := by
    intro n r
    unfold State.queueRecord
    dsimp only
    split <;> exact h
  unfold State.raise
  simp only [he.contained]
  split
  · split
    · exact hq _ _
    · exact abandon_wf (setPass_wf (hq _ _) _ _) _ _ _
  · exact hq _ _

end

/-! ### The skein of a port breaks -/

section
variable {u : State} {k : Nat}

/-- A pass that a fault ends keeps its status when its skein breaks. -/
theorem abandon_faulted (h : Abandoned u k .abandonedFault) : Abandoned (u.abandon k .abandonedSkein true) k .abandonedFault := by
  obtain ⟨q, hq, hst, hclean, hstatus⟩ := h
  have hrank : ¬((q.abandonedAt == some (u.clk.frame, u.clk.sg)) &&
      (match q.status with | some old => decide (abandonRank old < abandonRank .abandonedSkein) | none => true)) = true := by
    rw [hstatus]
    simp [abandonRank]
  have hrun : u.abandon k .abandonedSkein true = u.setPass k { q with noRetry := true } := by
    unfold State.abandon
    rw [hq]
    dsimp only
    rw [hst]
    dsimp only
    rw [if_pos rfl]
    refine if_neg fun hc => hrank ?_
    simp [hstatus, abandonRank] at hc
  rw [hrun]
  exact ⟨_, State.pass_setPass_same _ _ _, hst, hclean, hstatus⟩

theorem breakPasses_faulted {l : List (Nat × Pass)} (hl : ∀ q, (k, q) ∈ l → q.state = .quiescing) (h : Abandoned u k .abandonedFault) :
    Abandoned (l.foldl State.breakPass u) k .abandonedFault := by
  refine List.foldlRecOn (motive := fun v : State => Abandoned v k .abandonedFault) _ _ h fun v hv kp hkp => ?_
  obtain ⟨j, q⟩ := kp
  by_cases hj : k = j
  · subst hj
    have hstep : v.breakPass (k, q) = v.abandon k .abandonedSkein true := by simp [State.breakPass, hl q hkp]
    rw [hstep]
    exact abandon_faulted hv
  · obtain ⟨r, hr, hrest⟩ := hv
    exact ⟨r, (pass_breakPass_other hj).trans hr, hrest⟩

theorem breakSkein_faulted (hwf : AMap.wf none u.passes = true) (h : Abandoned u k .abandonedFault) (field : Byte) (subject : BitVec 12)
    (from' : Option Nat) : Abandoned (u.breakSkein field subject from') k .abandonedFault := by
  by_cases hn : u.skein.state = .none
  · rwa [show u.breakSkein field subject from' = u by simp [State.breakSkein, hn]]
  by_cases hb : u.skein.state = .broken
  · rwa [breakSkein_broken hb]
  obtain ⟨ports, fns, out, obs, hbroke⟩ := broke_only u field subject from'
  have hpass : ∀ j, (u.broke field subject from').pass j = u.pass j := fun j => by rw [hbroke]; rfl
  rw [breakSkein_breaks hn hb]
  refine breakPasses_faulted (fun q hq => ?_) ?_
  · obtain ⟨r, hr, hst, -⟩ := h
    have hq' := pass_of_mem_allPasses (s := u.broke field subject from') (by rw [hbroke]; exact hwf) (List.mem_filter.1 hq).1
    rw [hpass, hr] at hq'
    exact Option.some.inj hq' ▸ hst
  · obtain ⟨r, hr, hrest⟩ := h
    exact ⟨r, (hpass k).trans hr, hrest⟩

theorem breakSkein_state (h : u.skein.state ≠ .none) (field : Byte) (subject : BitVec 12) (from' : Option Nat) :
    (u.breakSkein field subject from').skein.state = .broken := by
  by_cases hb : u.skein.state = .broken
  · rwa [breakSkein_broken hb]
  obtain ⟨ports, fns, out, obs, hbroke⟩ := broke_only u field subject from'
  have hst : (u.broke field subject from').skein.state = .broken := by rw [hbroke]
  rw [breakSkein_breaks h hb, breakPasses_stopped hst]
  exact hst

end

/-! ### The port itself -/

/-- A fault stays raised while the collector stands. -/
theorem Raised.later {s u t : State} {src : Src} {cause : Cause} {d : Byte} (h : Raised s u src cause d) (hc : t.chk = u.chk) :
    Raised s t src cause d := by
  obtain ⟨x, hx, hrest⟩ := h
  exact ⟨x, by rw [State.reporter, hc, ← hx, State.reporter], hrest⟩

section
variable {s : State} {p : PortId}

theorem portDown_port (s : State) (p : Nat) (absent : Bool) : ((s.portDown p absent).port p).state = .down ∧
    ((s.portDown p absent).port p).absent = absent ∧ ((s.portDown p absent).port p).warpOn = false ∧
    ((s.portDown p absent).port p).msgs = [] := by
  unfold State.portDown State.train
  rw [State.port_updPort_same, State.port_updPort_same]
  exact ⟨rfl, rfl, rfl, rfl⟩

/-- The fault of a port that goes down. -/
def State.portLost (s : State) (p : PortId) : State :=
  if s.portUsers p.val = [] then s.raise (.io (p.val / 8)) .linkDown 0x91 none
  else (s.portUsers p.val).foldl (fun s k => s.raise (.io (p.val / 8)) .linkDown 0x90 (some k)) s

/-- The stitch tree of a skein that runs has lost a port. -/
def State.treeLost (s : State) (p : PortId) : State :=
  if s.skein.multi && (s.skein.state == .formed || s.skein.state == .detached) && s.treePorts.contains p.val then
    s.breakSkein 0x16 s.moduleId (some p.val) else s

theorem portDown_runs (h : (s.port p.val).state = .full ∨ (s.port p.val).state = .weftOnly) :
    execPortDown p s = .next (((s.portLost p).treeLost p).portDown p.val false) := by
  have hon : ¬((s.port p.val).state = .disabled ∨ (s.port p.val).state = .down) ∧ (s.port p.val).state ≠ .training := by
    obtain h | h := h <;> simp [h]
  refine (if_neg hon.1).trans ((if_neg hon.2).trans ?_)
  unfold State.portLost
  cases s.portUsers p.val <;> rfl

theorem treeLost_chk (u : State) : (u.treeLost p).chk = u.chk := by
  unfold State.treeLost
  split
  · exact breakSkein_chk ..
  · rfl

theorem treeLost_faulted {u : State} {k : Nat} (hwf : AMap.wf none u.passes = true) (h : Abandoned u k .abandonedFault) :
    Abandoned (u.treeLost p) k .abandonedFault := by
  unfold State.treeLost
  split
  · exact breakSkein_faulted hwf h _ _ _
  · exact h

/-- A fault that no pass uses the port is recorded only. -/
theorem raise_unused (s : State) (src : Src) : s.raise src .linkDown 0x91 none =
    s.queueRecord src.reporter (s.mkRecord src .linkDown 0x91 .corrected none) := rfl

theorem portLost_stopped : Stopped s (s.portLost p) := by
  unfold State.portLost
  split
  · rw [raise_unused]
    exact queueRecord_stopped ..
  · exact Stopped.foldl _ _ _ fun u k => raise_stopped (linkDown_ends (by decide) (by decide)) u _ _

theorem portLost_broken (hmulti : s.skein.multi = true) (hp : p.val ∈ s.treePorts) (hst : s.skein.state = .formed) :
    ((s.portLost p).treeLost p).skein.state = .broken := by
  obtain ⟨u, hu⟩ : ∃ u, u = s.portLost p := ⟨_, rfl⟩
  have hs : Stopped s u := hu ▸ portLost_stopped
  have hskein : u.skein.multi = s.skein.multi ∧ u.skein.state = s.skein.state ∧ u.treePorts = s.treePorts := by
    rw [hs]
    exact ⟨rfl, rfl, rfl⟩
  obtain ⟨hm, hstate, htree⟩ := hskein
  rw [← hu, State.treeLost, hm, hstate, htree, hmulti, hst, if_pos (by simpa using hp)]
  exact breakSkein_state (by rw [hstate, hst]; decide) _ _ _

end

/-- Settles O41: what a port that goes down, trains or comes up leaves, and when a written mesh mode takes effect. -/
theorem portsAndMeshMode : Obligations.PortsAndMeshMode := by
  unfold Obligations.PortsAndMeshMode
  intro s p hwf
  refine ⟨fun hst hroom => ?_, fun hst => ?_, fun hst trip turn clean => ?_, fun v hv hup => ⟨fun hsg hidle => ?_, fun hsg => ?_⟩⟩
  · obtain ⟨u, hu⟩ : ∃ u, u = (s.portLost p).treeLost p := ⟨_, rfl⟩
    have hchk : u.chk = (s.portLost p).chk := hu ▸ treeLost_chk _
    obtain ⟨h1, h2, h3, h4⟩ := portDown_port u p.val false
    refine ⟨u.portDown p.val false, (portDown_runs hst).trans (by rw [hu]), h1, h2, h3, h4, fun hnone => ?_, fun k q hone hq hrun => ?_,
      fun hmulti hp hformed => ?_⟩
    · have hraise : Raised s (s.portLost p) (.io (p.val / 8)) .linkDown 0x91 := by
        refine ⟨s.mkRecord (.io (p.val / 8)) .linkDown 0x91 .corrected none, ?_, rfl, rfl, rfl, rfl, rfl, rfl⟩
        rw [State.portLost, if_pos hnone, raise_unused, queueRecord_of_room (n := (Src.io (p.val / 8)).reporter) hroom]
        exact AMap.get_set_same _ _ _ _
      exact hraise.later hchk
    · have he : EndsPass .linkDown 0x90 := linkDown_ends (by decide) (by decide)
      have hlost : s.portLost p = s.raise (.io (p.val / 8)) .linkDown 0x90 (some k) := by
        rw [State.portLost, hone, if_neg (List.cons_ne_nil _ _)]
        rfl
      refine ⟨(hlost ▸ raise_raised he hroom (some k) : Raised s (s.portLost p) _ _ _).later hchk, ?_⟩
      have hab : Abandoned u k .abandonedFault := by
        rw [hu]
        refine treeLost_faulted ?_ ?_
        · rw [hlost]
          exact raise_wf hwf he _ _
        · rw [hlost]
          exact raise_abandons hq (by simp [hrun]) (by simp [hrun]) (by simp [hrun]) he
      exact hab
    · exact (congrArg (fun v : State => v.skein.state) hu).trans (portLost_broken hmulti hp hformed)
  · obtain ⟨h1, h2, h3, h4⟩ := portDown_port s p.val true
    refine ⟨s.portDown p.val true, ?_, h1, h2, fun _ _ => rfl⟩
    show execPortDown p s = _
    unfold execPortDown
    simp only [hst]
    rfl
  · intro ns fit
    have hbound : (clean && decide (oneWay trip turn ≤ s.delayBound p)) = true ↔ fit := by
      rw [Bool.and_eq_true, decide_eq_true_iff]
      refine and_congr Iff.rfl ?_
      have hb : s.delayBound p = if s.pf (.fabPortCtrl p) 1 2 < 2 then 3800 else 7800 := by
        unfold State.delayBound
        split <;> rfl
      rw [hb]
      rfl
    refine ⟨s.updPort p.val fun q => { q with
      state := if (clean && decide (oneWay trip turn ≤ s.delayBound p)) && s.pf (.fabPortCtrl p) 3 1 == 1 then .full else .weftOnly,
      fit := clean && decide (oneWay trip turn ≤ s.delayBound p), absent := false,
      delay := BitVec.ofNat 16 (min (oneWay trip turn) 65535) }, ?_, ?_, ?_, ?_, ?_⟩
    · show execPortTrainingComplete p ⟨trip, turn⟩ clean s = _
      unfold execPortTrainingComplete
      exact if_neg fun hno => hst.elim hno.1 hno.2
    · rw [State.port_updPort_same]
      exact hbound
    · intro hns
      rw [State.port_updPort_same]
      show (BitVec.ofNat 16 (min ns 65535)).toNat = ns
      rw [BitVec.toNat_ofNat]
      omega
    · intro hfit hfull
      rw [State.port_updPort_same]
      simp only [hbound.2 hfit, hfull]
      rfl
    · intro hno
      rw [State.port_updPort_same]
      refine if_neg fun hc => ?_
      rw [Bool.and_eq_true, beq_iff_eq] at hc
      obtain h | h := hno
      · exact h (hbound.1 hc.1)
      · exact absurd (h.symm.trans hc.2) (by decide)
  · refine ⟨{ s with scheduled := v, modePending := none }, ?_, rfl, rfl⟩
    have hany : (s.allPasses.any fun kp => passBusy kp.2.state) = false := by
      rw [List.any_eq_false]
      intro kp hkp
      simp [hidle kp hkp]
    show execMeshModeChange s = _
    unfold execMeshModeChange
    simp only [hv, hup, hsg, hany]
    rfl
  · show execMeshModeChange s = _
    unfold execMeshModeChange
    simp [hv, hsg]

end Sys2Proof.Machine
end


section
/-!
PROOFS. Rings, the doorbell page, the fetch of a descriptor and interrupts (R347 to R356, R360).
-/
namespace Sys2Proof

section
variable {α : Type} {d : α} {g : Nat × α → Option (Nat × α)} {k : Nat}

theorem AMap.get_of_keys {m : AMap α} (h : ∀ x ∈ m, x.1 ≠ k) : AMap.get d m k = d := by
  induction m with
  | nil => rfl
  | cons x m ih =>
    obtain ⟨j, v⟩ := x
    have hj : j ≠ k := h (j, v) List.mem_cons_self
    rw [AMap.get, if_neg hj]
    exact ih fun x hx => h x (List.mem_cons_of_mem _ hx)

/-- What a pass over the entries leaves under the key that was written last. -/
theorem AMap.get_filterMap_ins (hg : ∀ x y, g x = some y → y.1 = x.1) {m : AMap α} (hm : ∀ x ∈ m, x.1 ≠ k) (v : α) :
    AMap.get d ((AMap.ins k v m).filterMap g) k = ((g (k, v)).map (·.2)).getD d := by
  have hgone : ∀ l : AMap α, (∀ x ∈ l, x.1 ≠ k) → AMap.get d (l.filterMap g) k = d := by
    intro l hl
    refine AMap.get_of_keys fun y hy => ?_
    obtain ⟨x, hx, hxy⟩ := List.mem_filterMap.1 hy
    rw [hg x y hxy]
    exact hl x hx
  have hfirst : ∀ l : AMap α, (∀ x ∈ l, x.1 ≠ k) → AMap.get d (((k, v) :: l).filterMap g) k = ((g (k, v)).map (·.2)).getD d := by
    intro l hl
    cases hkv : g (k, v) with
    | none =>
      rw [List.filterMap_cons_none hkv]
      exact hgone l hl
    | some y =>
      obtain ⟨j, w⟩ := y
      have hj : j = k := hg _ _ hkv
      rw [List.filterMap_cons_some hkv, AMap.get, if_pos hj]
      rfl
  induction m with
  | nil => exact hfirst [] hm
  | cons x m ih =>
    obtain ⟨j, w⟩ := x
    have hrest : ∀ x ∈ m, x.1 ≠ k := fun x hx => hm x (List.mem_cons_of_mem _ hx)
    by_cases hj : k < j
    · rw [AMap.ins, if_pos hj]
      exact hfirst _ hm
    · rw [AMap.ins, if_neg hj]
      cases hx : g (j, w) with
      | none =>
        rw [List.filterMap_cons_none hx]
        exact ih hrest
      | some y =>
        obtain ⟨i, w'⟩ := y
        have hi : i ≠ k := fun h => hm (j, w) List.mem_cons_self ((hg _ _ hx).symm.trans h)
        rw [List.filterMap_cons_some hx, AMap.get, if_neg hi]
        exact ih hrest

theorem AMap.get_filterMap_set [DecidableEq α] (hg : ∀ x y, g x = some y → y.1 = x.1) (m : AMap α) {v : α} (hv : v ≠ d) :
    AMap.get d ((AMap.set d m k v).filterMap g) k = ((g (k, v)).map (·.2)).getD d := by
  rw [AMap.set, if_neg hv]
  exact AMap.get_filterMap_ins hg (AMap.erase_keys m k) v

end

end Sys2Proof

namespace Sys2Proof.Machine

/-! ### Rings of a function -/

section
variable (u : Func) (r : Nat)

@[simp] theorem Func.sqOf_updSq_same (g : Sq → Sq) : (u.updSq r g).sqOf r = g (u.sqOf r) := AMap.get_upd_same ..
@[simp] theorem Func.cqOf_updCq_same (g : Cq → Cq) : (u.updCq r g).cqOf r = g (u.cqOf r) := AMap.get_upd_same ..
@[simp] theorem Func.cqOf_updSq (g : Sq → Sq) (q : Nat) : (u.updSq r g).cqOf q = u.cqOf q := rfl
@[simp] theorem Func.sqOf_updCq (g : Cq → Cq) (q : Nat) : (u.updCq r g).sqOf q = u.sqOf q := rfl

theorem Func.sqOf_updSq_other {q : Nat} (h : q ≠ r) (g : Sq → Sq) : (u.updSq r g).sqOf q = u.sqOf q := AMap.get_upd_other _ _ _ h
theorem Func.cqOf_updCq_other {q : Nat} (h : q ≠ r) (g : Cq → Cq) : (u.updCq r g).cqOf q = u.cqOf q := AMap.get_upd_other _ _ _ h

/-- The entry of a submission ring that `Func.drainRings` leaves. -/
def Func.drainSq (u : Func) (kv : Nat × Sq) : Option (Nat × Sq) :=
  if kv.2.state == .draining && !(u.fetched.any fun x => x.ring.val == kv.1) then
    if ({ kv.2 with state := .disabled } : Sq) = Sq.reset then none else some (kv.1, { kv.2 with state := .disabled })
  else some kv

/-- The entry of a completion ring that `Func.drainRings` leaves. -/
def drainCq (kv : Nat × Cq) : Option (Nat × Cq) :=
  if kv.2.state == .draining && kv.2.reserved == 0 then
    if ({ kv.2 with state := .disabled } : Cq) = Cq.reset then none else some (kv.1, { kv.2 with state := .disabled })
  else some kv

theorem drainSq_key {x y : Nat × Sq} (h : u.drainSq x = some y) : y.1 = x.1 := by
  unfold Func.drainSq at h
  split at h
  · split at h
    · exact nomatch h
    · exact (congrArg Prod.fst (Option.some.inj h)).symm
  · exact (congrArg Prod.fst (Option.some.inj h)).symm

theorem drainCq_key {x y : Nat × Cq} (h : drainCq x = some y) : y.1 = x.1 := by
  unfold drainCq at h
  split at h
  · split at h
    · exact nomatch h
    · exact (congrArg Prod.fst (Option.some.inj h)).symm
  · exact (congrArg Prod.fst (Option.some.inj h)).symm

/-- A submission ring that is left DRAINING goes on draining while a descriptor of it is fetched. -/
theorem sqOf_drained (g : Sq → Sq) (h : (g (u.sqOf r)).state = .draining) : ((u.updSq r g).drainRings.sqOf r).state =
    if (u.fetched.any fun x => x.ring.val == r) = true then .draining else .disabled := by
  have hne : g (u.sqOf r) ≠ Sq.reset := fun he => by rw [he] at h; exact nomatch h
  have hget : (u.updSq r g).drainRings.sqOf r = ((u.drainSq (r, g (u.sqOf r))).map (·.2)).getD Sq.reset :=
    AMap.get_filterMap_set (fun _ _ => drainSq_key u) u.sq hne
  rw [hget, Func.drainSq]
  dsimp only
  rw [h]
  by_cases hany : (u.fetched.any fun x => x.ring.val == r) = true
  · rw [hany]
    exact h
  · rw [Bool.not_eq_true] at hany
    rw [hany]
    refine (congrArg (fun x => ((Option.map Prod.snd x).getD Sq.reset).state) (if_pos rfl)).trans ?_
    split <;> rfl

/-- A completion ring that is left DRAINING goes on draining while entries of it are reserved. -/
theorem cqOf_drained (g : Cq → Cq) (h : (g (u.cqOf r)).state = .draining) : ((u.updCq r g).drainRings.cqOf r).state =
    if (g (u.cqOf r)).reserved = 0 then .disabled else .draining := by
  have hne : g (u.cqOf r) ≠ Cq.reset := fun he => by rw [he] at h; exact nomatch h
  have hget : (u.updCq r g).drainRings.cqOf r = ((drainCq (r, g (u.cqOf r))).map (·.2)).getD Cq.reset :=
    AMap.get_filterMap_set (fun _ _ => drainCq_key) u.cq hne
  rw [hget, drainCq]
  dsimp only
  by_cases hres : (g (u.cqOf r)).reserved = 0
  · rw [if_pos hres]
    refine (congrArg (fun x => ((Option.map Prod.snd x).getD Cq.reset).state) (if_pos (by simp [h, hres]))).trans ?_
    split <;> rfl
  · rw [if_neg hres]
    exact (congrArg (fun x => ((Option.map Prod.snd x).getD Cq.reset).state) (if_neg (by simp [hres]))).trans h

end

/-! ### Messages and logs leave the rings -/

/-- What a function keeps of its rings while the set-up and the clock stand. -/
structure RingsKept (s t : State) (f : Nat) : Prop where
  sq : ∀ r, (t.fn f).sqOf r = (s.fn f).sqOf r
  cq : ∀ r, (t.fn f).cqOf r = (s.fn f).cqOf r
  setup : t.setup = s.setup
  fuses : t.fuses = s.fuses
  polled : (t.fn f).polled = (s.fn f).polled

theorem ringsKept_interrupt (s : State) (f : FnId) (v : Fin 128) : RingsKept s (s.interrupt f v) f.val := by
  have hupd : ∀ g : Func → Func, (∀ r, (g (s.fn f.val)).sqOf r = (s.fn f.val).sqOf r) → (∀ r, (g (s.fn f.val)).cqOf r = (s.fn f.val).cqOf r) →
      (g (s.fn f.val)).polled = (s.fn f.val).polled → RingsKept s (s.updFn f.val g) f.val := by
    intro g h1 h2 h3
    refine ⟨?_, ?_, rfl, rfl, ?_⟩ <;> rw [State.fn_updFn_same]
    exacts [h1, h2, h3]
  unfold State.interrupt
  dsimp only
  split
  · obtain ⟨h1, h2, h3, h4, h5⟩ := hupd (fun u => { u with irqSent := u.irqSent + 1 }) (fun _ => rfl) (fun _ => rfl) rfl
    exact ⟨h1, h2, h3, h4, h5⟩
  · split
    · exact ⟨fun _ => rfl, fun _ => rfl, rfl, rfl, rfl⟩
    · exact hupd _ (fun _ => rfl) (fun _ => rfl) rfl

theorem RingsKept.trans {s t u : State} {f : Nat} (h : RingsKept s t f) (g : RingsKept t u f) : RingsKept s u f :=
  ⟨fun r => (g.sq r).trans (h.sq r), fun r => (g.cq r).trans (h.cq r), g.setup.trans h.setup, g.fuses.trans h.fuses,
    g.polled.trans h.polled⟩

theorem ringsKept_updFn (s : State) (f : Nat) (g : Func → Func) (hg : ∀ u, (g u).sq = u.sq ∧ (g u).cq = u.cq ∧ (g u).polled = u.polled) :
    RingsKept s (s.updFn f g) f := by
  obtain ⟨h1, h2, h3⟩ := hg (s.fn f)
  refine ⟨fun r => ?_, fun r => ?_, rfl, rfl, ?_⟩ <;> rw [State.fn_updFn_same]
  · rw [Func.sqOf, h1, Func.sqOf]
  · rw [Func.cqOf, h2, Func.cqOf]
  · exact h3

theorem ringsKept_logField (s : State) (f : FnId) (offset lsb w a : Nat) (ignored : Bool) :
    RingsKept s (s.logField f offset lsb w a ignored) f.val := by
  have hlog : ∀ (u : State) ty cause b, RingsKept u (u.logTo f ty cause b) f.val := by
    intro u ty cause b
    unfold State.logTo
    split
    · exact ⟨fun _ => rfl, fun _ => rfl, rfl, rfl, rfl⟩
    · next q _ =>
      refine .trans ?_ (ringsKept_interrupt _ f 1)
      obtain ⟨h1, h2, h3, h4, h5⟩ := ringsKept_updFn u f.val (fun v => { v with log := some { q with seq := q.seq + 1 } })
        fun _ => ⟨rfl, rfl, rfl⟩
      exact ⟨h1, h2, h3, h4, h5⟩
  unfold State.logField
  dsimp only
  refine RingsKept.trans ?_ (hlog _ _ _ _)
  exact ringsKept_updFn s f.val _ fun _ => ⟨rfl, rfl, rfl⟩

/-! ### Enable and disable -/

section
variable {s : State} {f : FnId} {r : RingId}

theorem fld_cleared (w : BitVec 128) : fld (w &&& ~~~((1 : BitVec 128) <<< 72)) 72 1 = 0 := by
  refine Nat.eq_of_testBit_eq fun i => ?_
  rw [fld_testBit, Nat.zero_testBit]
  by_cases hi : i < 1
  · obtain rfl : i = 0 := by omega
    rw [← BitVec.getLsbD]
    simp
  · simp [hi]

theorem enableRing_refused (h : ((s.fn f.val).sqOf r.val).state = .disabled)
    (hc : ((s.fn f.val).cqOf (s.cqFor f r).val).state ≠ .enabled) :
    (((s.enableRing f false r).fn f.val).sqOf r.val).state = .disabled ∧ fld ((s.enableRing f false r).reg f (.rngSq r)) 72 1 = 0 := by
  obtain ⟨u, hu⟩ : ∃ u, u = s.setReg f (.rngSq r) (s.reg f (.rngSq r) &&& ~~~((1 : BitVec 128) <<< 72)) := ⟨_, rfl⟩
  have hrun : s.enableRing f false r = u.logField f (regOffset (.rngSq r)) 72 1 0 false := by
    unfold State.enableRing
    dsimp only
    rw [if_neg Bool.false_ne_true, if_pos h, if_neg hc, hu]
  have hkept := ringsKept_logField u f (regOffset (.rngSq r)) 72 1 0 false
  rw [hrun]
  refine ⟨?_, ?_⟩
  · rw [hkept.sq, hu]
    exact h
  · rw [State.reg, hkept.setup, hkept.fuses, ← State.reg, hu]
    have hreg : (s.setReg f (.rngSq r) (s.reg f (.rngSq r) &&& ~~~((1 : BitVec 128) <<< 72))).reg f (.rngSq r) =
        s.reg f (.rngSq r) &&& ~~~((1 : BitVec 128) <<< 72) := AMap.get_set_same ..
    rw [hreg]
    exact fld_cleared _

end

/-! ### The doorbell page -/

/-- A submission ring after a read of its tail record. -/
def State.polledSq (s : State) (f : FnId) (r : RingId) (t : Nat) (q : Sq) : Sq :=
  if q.state = .enabled then (if s.sqSize f r ≤ t then { q with state := .error } else { q with tail := t }) else q

/-- A completion ring after a read of its head record. -/
def State.polledCq (s : State) (f : FnId) (r : RingId) (h : Nat) (q : Cq) : Cq :=
  if q.state = .enabled ∨ q.state = .draining then (if s.cqSize f r ≤ h then { q with state := .error } else { q with head := h }) else q

/-- What the read of ring `r`'s records does to the rings of a function. -/
structure Polled (f : FnId) (r : RingId) (t h : Nat) (s u : State) : Prop where
  sq : (u.fn f.val).sqOf r.val = s.polledSq f r t ((s.fn f.val).sqOf r.val)
  cq : (u.fn f.val).cqOf r.val = s.polledCq f r h ((s.fn f.val).cqOf r.val)
  sqOther : ∀ q, q ≠ r.val → (u.fn f.val).sqOf q = (s.fn f.val).sqOf q
  cqOther : ∀ q, q ≠ r.val → (u.fn f.val).cqOf q = (s.fn f.val).cqOf q
  setup : u.setup = s.setup
  fuses : u.fuses = s.fuses
  polled : (u.fn f.val).polled = (s.fn f.val).polled

section
variable {s : State} {f : FnId} {r : RingId}

theorem ringError_sq : ∃ u, RingsKept u (s.ringError f false r.val) f.val ∧
    u = s.updFn f.val fun u => u.updSq r.val fun q => { q with state := .error } :=
  ⟨_, ringsKept_interrupt _ f 3, rfl⟩

theorem ringError_cq : ∃ u, RingsKept u (s.ringError f true r.val) f.val ∧
    u = s.updFn f.val fun u => u.updCq r.val fun q => { q with state := .error } :=
  ⟨_, ringsKept_interrupt _ f 3, rfl⟩

/-- The submission ring's part of a read. -/
def State.pollSq (s : State) (f : FnId) (r : RingId) (t : Nat) : State :=
  if ((s.fn f.val).sqOf r.val).state = .enabled then
    if s.sqSize f r ≤ t then s.ringError f false r.val
    else s.updFn f.val fun u => u.updSq r.val fun q => { q with tail := t }
  else s

/-- The completion ring's part of a read. -/
def State.pollCq (s : State) (f : FnId) (r : RingId) (h : Nat) : State :=
  if ((s.fn f.val).cqOf r.val).state = .enabled ∨ ((s.fn f.val).cqOf r.val).state = .draining then
    if s.cqSize f r ≤ h then s.ringError f true r.val
    else s.updFn f.val fun u => u.updCq r.val fun q => { q with head := h }
  else s

theorem pollSq_polls (t : Nat) : ((s.pollSq f r t).fn f.val).sqOf r.val = s.polledSq f r t ((s.fn f.val).sqOf r.val) ∧
    (∀ q, q ≠ r.val → ((s.pollSq f r t).fn f.val).sqOf q = (s.fn f.val).sqOf q) ∧
    (∀ q, ((s.pollSq f r t).fn f.val).cqOf q = (s.fn f.val).cqOf q) ∧ (s.pollSq f r t).setup = s.setup ∧
    (s.pollSq f r t).fuses = s.fuses ∧ ((s.pollSq f r t).fn f.val).polled = (s.fn f.val).polled := by
  have hupd : ∀ (g : Sq → Sq) (u : State), RingsKept (s.updFn f.val fun u => u.updSq r.val g) u f.val →
      (u.fn f.val).sqOf r.val = g ((s.fn f.val).sqOf r.val) ∧ (∀ q, q ≠ r.val → (u.fn f.val).sqOf q = (s.fn f.val).sqOf q) ∧
      (∀ q, (u.fn f.val).cqOf q = (s.fn f.val).cqOf q) ∧ u.setup = s.setup ∧ u.fuses = s.fuses ∧
      (u.fn f.val).polled = (s.fn f.val).polled := by
    intro g u hu
    refine ⟨?_, fun q hq => ?_, fun q => ?_, hu.setup, hu.fuses, ?_⟩
    · rw [hu.sq, State.fn_updFn_same, Func.sqOf_updSq_same]
    · rw [hu.sq, State.fn_updFn_same, Func.sqOf_updSq_other _ _ hq]
    · rw [hu.cq, State.fn_updFn_same, Func.cqOf_updSq]
    · rw [hu.polled, State.fn_updFn_same]
      rfl
  unfold State.pollSq State.polledSq
  split
  · split
    · obtain ⟨u, hu, rfl⟩ := ringError_sq (s := s) (f := f) (r := r)
      exact hupd _ _ hu
    · exact hupd _ _ ⟨fun _ => rfl, fun _ => rfl, rfl, rfl, rfl⟩
  · exact ⟨rfl, fun _ _ => rfl, fun _ => rfl, rfl, rfl, rfl⟩

theorem pollCq_polls (h : Nat) : ((s.pollCq f r h).fn f.val).cqOf r.val = s.polledCq f r h ((s.fn f.val).cqOf r.val) ∧
    (∀ q, q ≠ r.val → ((s.pollCq f r h).fn f.val).cqOf q = (s.fn f.val).cqOf q) ∧
    (∀ q, ((s.pollCq f r h).fn f.val).sqOf q = (s.fn f.val).sqOf q) ∧ (s.pollCq f r h).setup = s.setup ∧
    (s.pollCq f r h).fuses = s.fuses ∧ ((s.pollCq f r h).fn f.val).polled = (s.fn f.val).polled := by
  have hupd : ∀ (g : Cq → Cq) (u : State), RingsKept (s.updFn f.val fun u => u.updCq r.val g) u f.val →
      (u.fn f.val).cqOf r.val = g ((s.fn f.val).cqOf r.val) ∧ (∀ q, q ≠ r.val → (u.fn f.val).cqOf q = (s.fn f.val).cqOf q) ∧
      (∀ q, (u.fn f.val).sqOf q = (s.fn f.val).sqOf q) ∧ u.setup = s.setup ∧ u.fuses = s.fuses ∧
      (u.fn f.val).polled = (s.fn f.val).polled := by
    intro g u hu
    refine ⟨?_, fun q hq => ?_, fun q => ?_, hu.setup, hu.fuses, ?_⟩
    · rw [hu.cq, State.fn_updFn_same, Func.cqOf_updCq_same]
    · rw [hu.cq, State.fn_updFn_same, Func.cqOf_updCq_other _ _ hq]
    · rw [hu.sq, State.fn_updFn_same, Func.sqOf_updCq]
    · rw [hu.polled, State.fn_updFn_same]
      rfl
  unfold State.pollCq State.polledCq
  split
  · split
    · obtain ⟨u, hu, rfl⟩ := ringError_cq (s := s) (f := f) (r := r)
      exact hupd _ _ hu
    · exact hupd _ _ ⟨fun _ => rfl, fun _ => rfl, rfl, rfl, rfl⟩
  · exact ⟨rfl, fun _ _ => rfl, fun _ => rfl, rfl, rfl, rfl⟩

theorem pollRing_polls (tail head : W64) : Polled f r (fld tail 0 16) (fld head 0 16) s (s.pollRing f r tail head) := by
  obtain ⟨hsq, hsqOther, hcq, hsetup, hfuses, hpolled⟩ := pollSq_polls (s := s) (f := f) (r := r) (fld tail 0 16)
  have hrun : s.pollRing f r tail head = (s.pollSq f r (fld tail 0 16)).pollCq f r (fld head 0 16) := by
    rw [State.pollCq, hcq]
    rfl
  obtain ⟨hcq', hcqOther', hsq', hsetup', hfuses', hpolled'⟩ :=
    pollCq_polls (s := s.pollSq f r (fld tail 0 16)) (f := f) (r := r) (fld head 0 16)
  have hsize : (s.pollSq f r (fld tail 0 16)).cqSize f r = s.cqSize f r := by
    rw [State.cqSize, State.reg, hsetup, hfuses, ← State.reg, ← State.cqSize]
  rw [hrun]
  refine ⟨(hsq' _).trans hsq, ?_, fun q hq => (hsq' q).trans (hsqOther q hq), fun q hq => (hcqOther' q hq).trans (hcq q),
    hsetup'.trans hsetup, hfuses'.trans hfuses, hpolled'.trans hpolled⟩
  rw [hcq', hcq, State.polledCq, hsize, ← State.polledCq]

/-- The reads of the rings of a list. -/
theorem pollRings_polls (tails heads : List W64) {l : List Nat} (hl : l.Nodup) (hlt : ∀ n ∈ l, n < 16) (s : State) :
    let u := l.foldl (fun s n => s.pollRing f (Fin.ofNat 16 n) (nth 0 tails n) (nth 0 heads n)) s
    (r.val ∈ l → (u.fn f.val).sqOf r.val = s.polledSq f r (fld (nth 0 tails r.val) 0 16) ((s.fn f.val).sqOf r.val) ∧
      (u.fn f.val).cqOf r.val = s.polledCq f r (fld (nth 0 heads r.val) 0 16) ((s.fn f.val).cqOf r.val)) ∧
    (r.val ∉ l → (u.fn f.val).sqOf r.val = (s.fn f.val).sqOf r.val ∧ (u.fn f.val).cqOf r.val = (s.fn f.val).cqOf r.val) ∧
    (u.fn f.val).polled = (s.fn f.val).polled := by
  induction l generalizing s with
  | nil => exact ⟨(fun h => nomatch h), fun _ => ⟨rfl, rfl⟩, rfl⟩
  | cons n l ih =>
    obtain ⟨hfirst, hl⟩ := List.nodup_cons.1 hl
    have hn : (Fin.ofNat 16 n).val = n := Nat.mod_eq_of_lt (hlt n List.mem_cons_self)
    have hstep := pollRing_polls (s := s) (f := f) (r := Fin.ofNat 16 n) (nth 0 tails n) (nth 0 heads n)
    obtain ⟨v, hv⟩ : ∃ v, v = s.pollRing f (Fin.ofNat 16 n) (nth 0 tails n) (nth 0 heads n) := ⟨_, rfl⟩
    rw [← hv] at hstep
    obtain ⟨hin, hout, hpolled⟩ := ih hl (fun m hm => hlt m (List.mem_cons_of_mem _ hm)) v
    dsimp only
    rw [List.foldl_cons, ← hv]
    refine ⟨fun hr => ?_, fun hr => ?_, hpolled.trans hstep.polled⟩
    · by_cases he : r.val = n
      · obtain ⟨h1, h2⟩ := hout (he ▸ hfirst)
        have hrn : Fin.ofNat 16 n = r := Fin.ext (hn.trans he.symm)
        rw [h1, h2]
        have h3 := hstep.sq
        have h4 := hstep.cq
        rw [hrn] at h3 h4
        rw [he] at h3 h4 ⊢
        exact ⟨h3, h4⟩
      · obtain ⟨h1, h2⟩ := hin ((List.mem_cons.1 hr).resolve_left he)
        have hother : r.val ≠ (Fin.ofNat 16 n).val := fun h => he (h.trans hn)
        have hsq : v.sqSize f r = s.sqSize f r := by
          rw [State.sqSize, State.reg, hstep.setup, hstep.fuses, ← State.reg, ← State.sqSize]
        have hcq : v.cqSize f r = s.cqSize f r := by
          rw [State.cqSize, State.reg, hstep.setup, hstep.fuses, ← State.reg, ← State.cqSize]
        rw [h1, h2, hstep.sqOther _ hother, hstep.cqOther _ hother, State.polledSq, State.polledCq, hsq, hcq]
        exact ⟨rfl, rfl⟩
    · obtain ⟨hne, hr⟩ := not_or.1 (fun h => hr (List.mem_cons.2 h))
      obtain ⟨h1, h2⟩ := hout hr
      have hother : r.val ≠ (Fin.ofNat 16 n).val := fun h => hne (h.trans hn)
      exact ⟨h1.trans (hstep.sqOther _ hother), h2.trans (hstep.cqOther _ hother)⟩

end

end Sys2Proof.Machine
end


section
/-!
PROOFS. The fetch of a descriptor (R351, R352, R356, R376) and the moderation of interrupts (R347, R360).
-/
namespace Sys2Proof.Machine

/-! ### Descriptors -/

section
variable (s : State) (f : FnId) (r : RingId) (d : BitVec 512)

/-- A descriptor whose identifier the journal knows. -/
def State.knownId : Bool := descId d != 0 && ((s.fn f.val).lookup (descId d)).isSome

/-- A descriptor that the fatal state refuses. -/
def State.refusedDesc : Bool := s.chk.fatal && descOp d != 0

/-- The descriptor as it is fetched. -/
def State.fetchedDesc : Fetched :=
  { ring := r, index := ((s.fn f.val).sqOf r.val).head, desc := d
    phase := if !s.refusedDesc d && descValid d && s.knownId f d then .duplicate else .fetched
    order := (s.fn f.val).fetchOrder }

/-- The function with a fetched descriptor. -/
def State.fetchedFn : Func :=
  let u := s.fn f.val
  let q := u.sqOf r.val
  let i := q.head
  let wrap := decide (i.toNat + 1 = s.sqSize f r)
  let u := (u.updSq r.val fun q => { q with head := if wrap then 0 else q.head + 1 }).updCq (s.cqFor f r).val fun q =>
    { q with reserved := q.reserved + 1 }
  { u with
    fetched := u.fetched ++ [s.fetchedDesc f r d], fetchOrder := u.fetchOrder + 1, tags := u.tags + 1, active := some s.clk.timebase
    journal := if descValid d && descId d != 0 && !s.knownId f d then ((descId d, none) :: u.journal).take 4096 else u.journal }

end

section
variable {s : State} {f : FnId} {r : RingId} {d : BitVec 512}

theorem fetch_runs (hl : s.live f = true) (hp : s.power.phase = .ready) (hm : s.mayFetch f r = true) :
    execDescriptorFetch f r d s = .next (
      let t := s.setFn f.val (s.fetchedFn f r d)
      if s.refusedDesc d then t.finish f r ((s.fn f.val).sqOf r.val).head .rejectedState
      else if !descValid d then t.finish f r ((s.fn f.val).sqOf r.val).head .rejectedFormat
      else if s.knownId f d then settleHost 1 t f else t) := by
  have hgo : ¬(!s.live f || s.power.phase != .ready || !s.mayFetch f r) = true := by simp [hl, hp, hm]
  refine (if_neg hgo).trans ?_
  rw [apply_ite Host.Outcome.next, apply_ite Host.Outcome.next, apply_ite Host.Outcome.next]
  rfl

theorem mayFetch_open (hm : s.mayFetch f r = true) : ((s.fn f.val).cqOf (s.cqFor f r).val).state = .enabled := by
  unfold State.mayFetch State.cqFree at hm
  simp only [Bool.and_eq_true, beq_iff_eq] at hm
  obtain ⟨⟨⟨⟨-, hq⟩, -⟩, -⟩, -⟩ := hm
  exact hq.1

/-- The state that a fetch leaves. -/
def State.fetching (s : State) (f : FnId) (r : RingId) (d : BitVec 512) : State := s.setFn f.val (s.fetchedFn f r d)

theorem fetching_fn : (s.fetching f r d).fn f.val = s.fetchedFn f r d := State.fn_setFn_same ..

theorem fetching_cqFor : (s.fetching f r d).cqFor f r = s.cqFor f r := rfl

theorem fetching_find (h : (s.fn f.val).find r ((s.fn f.val).sqOf r.val).head = none) :
    ((s.fetching f r d).fn f.val).find r ((s.fn f.val).sqOf r.val).head = some (s.fetchedDesc f r d) := by
  rw [fetching_fn]
  show (((s.fn f.val).fetched ++ [s.fetchedDesc f r d]).find? _) = _
  rw [List.find?_append, show (s.fn f.val).fetched.find? _ = none from h]
  simp [State.fetchedDesc]

theorem fetching_cq : ((s.fetching f r d).fn f.val).cqOf (s.cqFor f r).val =
    { (s.fn f.val).cqOf (s.cqFor f r).val with reserved := ((s.fn f.val).cqOf (s.cqFor f r).val).reserved + 1 } := by
  rw [fetching_fn]
  exact Func.cqOf_updCq_same ((s.fn f.val).updSq r.val fun q =>
    { q with head := if decide (((s.fn f.val).sqOf r.val).head.toNat + 1 = s.sqSize f r) then 0 else q.head + 1 }) (s.cqFor f r).val
    fun q => { q with reserved := q.reserved + 1 }

/-- A descriptor that ends while its completion ring takes entries: it is gone, and the entry has left. -/
theorem complete1_ended {i : BitVec 12} {x : Fetched} (h : (s.fn f.val).find r i = some x)
    (hq : ((s.fn f.val).cqOf (s.cqFor f r).val).state = .enabled) (st : Status) (c : CplInfo) :
    ((s.complete1 f r i st c).fn f.val).find r i = none ∧ s.endedOut f r i st c x ∈ (s.complete1 f r i st c).out := by
  obtain ⟨t, ht⟩ : ∃ t, t = (s.setFn f.val (s.endedFn f r i st x)).emit (s.endedOut f r i st c x) := ⟨_, rfl⟩
  have hgone : (t.fn f.val).find r i = none := by
    have hfn : t.fn f.val = s.endedFn f r i st x := by
      rw [ht]
      exact State.fn_setFn_same s f.val _
    rw [hfn]
    exact endedFn_gone
  have hout : s.endedOut f r i st c x ∈ t.out := ht ▸ List.mem_cons_self
  have hrun : s.complete1 f r i st c = if dfld x.desc 1 1 % 2 = 1 then t else t.moderate f (s.cqFor f r) := by
    rw [complete1_some h]
    dsimp only
    rw [hq, ht]
    exact if_pos rfl
  have hends : HostEnds t (s.complete1 f r i st c) := by
    rw [hrun]
    split
    · exact .refl t
    · exact hostEnds_moderate ..
  exact ⟨hends.find _ _ _ hgone, hends.out _ hout⟩

/-- The descriptor that has just been fetched ends, and what else ends leaves its entry. -/
theorem fetching_ended (hm : s.mayFetch f r = true) (hn : (s.fn f.val).find r ((s.fn f.val).sqOf r.val).head = none) {t : State}
    {st : Status} {c : CplInfo} (ht : HostEnds ((s.fetching f r d).complete1 f r ((s.fn f.val).sqOf r.val).head st c) t) :
    (t.fn f.val).find r ((s.fn f.val).sqOf r.val).head = none ∧
      ∃ k phase x, Out.completion f (s.cqFor f r) k (completionEntry d r ((s.fn f.val).sqOf r.val).head st phase x) ∈ t.out ∧
        x.orig = c.orig := by
  have hopen : (((s.fetching f r d).fn f.val).cqOf ((s.fetching f r d).cqFor f r).val).state = .enabled := by
    rw [fetching_cqFor, fetching_cq]
    exact mayFetch_open hm
  obtain ⟨hgone, hout⟩ := complete1_ended (fetching_find hn) hopen st c
  exact ⟨ht.find _ _ _ hgone, _, _, c, ht.out _ hout, rfl⟩

/-- The first duplicate whose original is final is ready to end. -/
theorem fetching_ready (hno : ∀ x ∈ (s.fn f.val).fetched, x.phase ≠ .duplicate) (hv : descValid d = true) (hid : descId d ≠ 0)
    (hf : s.chk.fatal = false) {st : Status} (hl : (s.fn f.val).lookup (descId d) = some (some st)) :
    (s.fetchedFn f r d).ready = some (s.fetchedDesc f r d, some st.code) := by
  have hknown : s.knownId f d = true := Bool.and_eq_true_iff.2 ⟨bne_iff_ne.2 hid, by rw [hl]; rfl⟩
  have hphase : (s.fetchedDesc f r d).phase = .duplicate := by simp [State.fetchedDesc, State.refusedDesc, hf, hv, hknown]
  have hlook : (s.fetchedFn f r d).lookup (descId d) = some (some st) := by
    rw [← hl]
    unfold Func.lookup State.fetchedFn
    simp only [hknown, Bool.not_true, Bool.and_false]
    rfl
  have hdup : (s.fetchedFn f r d).fetched.findSome? (fun x => if x.phase == .duplicate then
      match (s.fetchedFn f r d).lookup (descId x.desc) with
      | some (some st) => some (x, some st.code)
      | none => some (x, some 0)
      | _ => none
      else none) = some (s.fetchedDesc f r d, some st.code) := by
    show ((s.fn f.val).fetched ++ [s.fetchedDesc f r d]).findSome? _ = _
    rw [List.findSome?_append, List.findSome?_eq_none_iff.2 fun x hx => if_neg (by simpa using hno x hx)]
    have hdesc : (s.fetchedDesc f r d).desc = d := rfl
    simp only [List.findSome?_cons, hphase, hdesc, hlook]
    rfl
  unfold Func.ready
  dsimp only
  split
  · next x hx => exact hx.symm.trans hdup
  · next hx => exact absurd (hx.symm.trans hdup) (fun h => nomatch h)

end

/-! ### Interrupts -/

section
variable {s : State} {f : FnId}

theorem interrupt_allowed {v : Fin 128} (h : (s.fn f.val).irqSent < 4 * fld (s.fn f.val).qos 24 8) :
    s.interrupt f v = (s.updFn f.val fun u => { u with irqSent := u.irqSent + 1 }).emit (.msix f v) := if_pos h

/-- Held messages all leave while the allowance lasts. -/
theorem interrupts_leave {l : List (Fin 128)} {n : Nat} (hn : (s.fn f.val).irqSent = n) (hh : (s.fn f.val).irqHeld = [])
    (hq : n + l.length ≤ 4 * fld (s.fn f.val).qos 24 8) :
    let t := l.foldl (fun (s : State) v => s.interrupt f v) s
    (t.fn f.val).irqHeld = [] ∧ (t.fn f.val).irqSent = n + l.length ∧ (∀ v ∈ l, Out.msix f v ∈ t.out) ∧ ∀ o ∈ s.out, o ∈ t.out := by
  induction l generalizing s n with
  | nil => exact ⟨hh, hn, (fun _ h => nomatch h), fun _ h => h⟩
  | cons v l ih =>
    rw [List.length_cons] at hq ⊢
    obtain ⟨t, ht⟩ : ∃ t, t = s.interrupt f v := ⟨_, rfl⟩
    have hrun := ht.trans (interrupt_allowed (by rw [hn]; omega))
    have hfn : t.fn f.val = { s.fn f.val with irqSent := (s.fn f.val).irqSent + 1 } := by
      rw [hrun]
      exact State.fn_updFn_same s f.val fun u => { u with irqSent := u.irqSent + 1 }
    have hout : t.out = Out.msix f v :: s.out := by
      rw [hrun]
      rfl
    obtain ⟨h1, h2, h3, h4⟩ := ih (s := t) (n := n + 1) (by rw [hfn, ← hn]) (by rw [hfn]; exact hh) (by rw [hfn]; show n + 1 + l.length ≤ 4 * fld (s.fn f.val).qos 24 8; omega)
    dsimp only
    rw [List.foldl_cons, ← ht]
    refine ⟨h1, by rw [h2]; omega, fun w hw => ?_, fun o ho => h4 o (hout ▸ List.mem_cons_of_mem _ ho)⟩
    obtain rfl | hw := List.mem_cons.1 hw
    · exact h4 _ (hout ▸ List.mem_cons_self)
    · exact h3 w hw

/-- The completions of rings that are due are signalled. -/
theorem signalled_keeps (l : List RingId) (s : State) :
    let t := l.foldl (fun (s : State) r => s.updFn f.val fun u => u.updCq r.val fun q => { q with unsignalled := 0, oldest := none }) s
    (∀ r : RingId, r ∈ l ∨ ((s.fn f.val).cqOf r.val).unsignalled = 0 → ((t.fn f.val).cqOf r.val).unsignalled = 0) ∧
      (t.fn f.val).irqSent = (s.fn f.val).irqSent ∧ (t.fn f.val).qos = (s.fn f.val).qos := by
  induction l generalizing s with
  | nil => exact ⟨fun r h => h.resolve_left (fun h => nomatch h), rfl, rfl⟩
  | cons q l ih =>
    obtain ⟨t, ht⟩ : ∃ t, t = s.updFn f.val fun u => u.updCq q.val fun q => { q with unsignalled := 0, oldest := none } := ⟨_, rfl⟩
    have hfn : t.fn f.val = (s.fn f.val).updCq q.val fun q => { q with unsignalled := 0, oldest := none } := by
      rw [ht]
      exact State.fn_updFn_same ..
    obtain ⟨h1, h2, h3⟩ := ih t
    dsimp only
    rw [List.foldl_cons, ← ht]
    refine ⟨fun r hr => h1 r ?_, by rw [h2, hfn]; rfl, by rw [h3, hfn]; rfl⟩
    by_cases he : r = q
    · right
      rw [hfn, he, Func.cqOf_updCq_same]
    · have hne : r.val ≠ q.val := fun h => he (Fin.ext h)
      refine hr.imp (fun h => (List.mem_cons.1 h).resolve_left he) fun h => ?_
      rw [hfn, Func.cqOf_updCq_other _ _ hne]
      exact h

end

/-! ### Rings and interrupts -/

/-- Settles O42: rings follow enable, disable and the doorbell page, a descriptor is fetched or refused, and the messages that wait
leave in their time. -/
theorem ringsAndInterrupts : Obligations.RingsAndInterrupts := by
  unfold Obligations.RingsAndInterrupts
  intro s f r hl u
  have henable : ∀ cq, exec (.ringEnable f cq r) s = .next (s.enableRing f cq r) := fun cq => congrArg Host.Outcome.next (if_pos hl)
  have hdisable : ∀ cq, exec (.ringDisable f cq r) s = .next (s.disableRing f cq r) := fun cq => congrArg Host.Outcome.next (if_pos hl)
  refine ⟨fun hq => ?_, fun hq => ⟨fun hc => ?_, fun hc => ?_⟩, fun hq => ?_, fun hq => ?_, fun tails heads a n htl hhd hctrl hdue => ?_,
    fun d hp hm hn hno => ?_, fun v t0 hv hold hpos hwait => ?_, fun hheld => ?_⟩
  · have hfn : (s.enableRing f true r).fn f.val = u.updCq r.val fun q =>
        { q with state := .enabled, tail := 0, phase := true, head := 0, reserved := 0, unsignalled := 0, oldest := none } := by
      unfold State.enableRing
      dsimp only
      rw [if_pos rfl, if_pos hq]
      exact State.fn_updFn_same ..
    refine ⟨_, henable true, ?_⟩
    dsimp only
    rw [hfn, Func.cqOf_updCq_same]
    exact ⟨rfl, rfl, rfl, rfl, rfl⟩
  · have hfn : (s.enableRing f false r).fn f.val = u.updSq r.val fun q => { q with state := .enabled, head := 0, tail := 0 } := by
      unfold State.enableRing
      dsimp only
      rw [if_neg Bool.false_ne_true, if_pos hq, if_pos hc]
      exact State.fn_updFn_same ..
    refine ⟨_, henable false, ?_⟩
    rw [hfn, Func.sqOf_updSq_same]
    exact ⟨rfl, rfl⟩
  · exact ⟨_, henable false, enableRing_refused hq hc⟩
  · refine ⟨_, hdisable false, ?_⟩
    have hfn : (s.disableRing f false r).fn f.val = (u.updSq r.val fun q =>
        { q with state := if q.state = .enabled ∨ q.state = .error then .draining else q.state }).drainRings := State.fn_updFn_same ..
    rw [hfn, sqOf_drained u r.val _ (if_pos (.inl hq))]
    have hring : (fun x : Fetched => x.ring.val == r.val) = fun x => x.ring == r := by
      funext x
      exact Bool.eq_iff_iff.2 (by simp [Fin.ext_iff])
    rw [hring]
  · refine ⟨_, hdisable true, ?_⟩
    have hfn : (s.disableRing f true r).fn f.val = (u.updCq r.val fun q =>
        { q with state := if q.state = .enabled ∨ q.state = .error then .draining else q.state }).drainRings := State.fn_updFn_same ..
    rw [hfn, cqOf_drained u r.val _ (if_pos (.inl hq))]
  · obtain ⟨v, hv⟩ : ∃ v, v = s.updFn f.val fun u => { u with polled := some s.clk.timebase } := ⟨_, rfl⟩
    obtain ⟨w, hw⟩ : ∃ w, w = (List.range 16).foldl (fun s n => s.pollRing f (Fin.ofNat 16 n) (nth 0 tails n) (nth 0 heads n)) v := ⟨_, rfl⟩
    obtain ⟨x, hx⟩ : ∃ x, x = w.updFn f.val fun u => { u with pageAddr := a, pageSeq := n } := ⟨_, rfl⟩
    have hvfn : v.fn f.val = { u with polled := some s.clk.timebase } := by
      rw [hv]
      exact State.fn_updFn_same s f.val fun u => { u with polled := some s.clk.timebase }
    have hxfn : x.fn f.val = { w.fn f.val with pageAddr := a, pageSeq := n } := by
      rw [hx]
      exact State.fn_updFn_same w f.val fun u => { u with pageAddr := a, pageSeq := n }
    obtain ⟨hin, -, hpolled⟩ := pollRings_polls (f := f) (r := r) tails heads (l := List.range 16) List.nodup_range
      (fun n hn => List.mem_range.1 hn) v
    obtain ⟨hsq, hcq⟩ := hin (List.mem_range.2 r.isLt)
    rw [← hw] at hsq hcq hpolled
    have hrun : exec (.doorbellPoll f tails heads a n) s = .next
        (if (x.fn f.val).sq ≠ (v.fn f.val).sq ∨ (x.fn f.val).cq ≠ (v.fn f.val).cq ∨ (x.fn f.val).pageAddr ≠ (v.fn f.val).pageAddr ∨
          (x.fn f.val).pageSeq ≠ (v.fn f.val).pageSeq then x.updFn f.val fun u => { u with active := some x.clk.timebase } else x) := by
      show execDoorbellPoll f tails heads a n s = _
      unfold execDoorbellPoll
      dsimp only
      rw [if_neg (by simp [htl, hhd]), if_neg (by simp [hl, hctrl, hdue]), ← hv, ← hw, ← hx]
    have hactive : ∀ t, t = x ∨ (t = x.updFn f.val fun u => { u with active := some x.clk.timebase }) →
        (t.fn f.val).pageAddr = a ∧ (t.fn f.val).pageSeq = n ∧ (t.fn f.val).polled = some s.clk.timebase ∧
        (t.fn f.val).sqOf r.val = (w.fn f.val).sqOf r.val ∧ (t.fn f.val).cqOf r.val = (w.fn f.val).cqOf r.val := by
      have hw' : (w.fn f.val).polled = some s.clk.timebase := by rw [hpolled, hvfn]
      rintro t (rfl | rfl)
      · rw [hxfn]
        exact ⟨rfl, rfl, hw', rfl, rfl⟩
      · rw [State.fn_updFn_same, hxfn]
        exact ⟨rfl, rfl, hw', rfl, rfl⟩
    obtain ⟨h1, h2, h3, h4, h5⟩ := hactive (if (x.fn f.val).sq ≠ (v.fn f.val).sq ∨ (x.fn f.val).cq ≠ (v.fn f.val).cq ∨
      (x.fn f.val).pageAddr ≠ (v.fn f.val).pageAddr ∨ (x.fn f.val).pageSeq ≠ (v.fn f.val).pageSeq then
      x.updFn f.val fun u => { u with active := some x.clk.timebase } else x) (by split <;> simp)
    have hsize : v.sqSize f r = s.sqSize f r ∧ v.cqSize f r = s.cqSize f r := by
      rw [hv]
      exact ⟨rfl, rfl⟩
    refine ⟨_, hrun, h1, h2, h3, fun hq => ?_, fun hq => ?_⟩
    · rw [h4, hsq, hvfn, State.polledSq, hsize.1]
      refine (if_pos hq).trans ?_
      by_cases hle : s.sqSize f r ≤ fld (nth 0 tails r.val) 0 16
      · rw [if_pos hle, if_neg (by omega)]
        rfl
      · rw [if_neg hle, if_pos (by omega)]
        rfl
    · rw [h5, hcq, hvfn, State.polledCq, hsize.2]
      refine (if_pos (.inl hq)).trans ?_
      by_cases hle : s.cqSize f r ≤ fld (nth 0 heads r.val) 0 16
      · rw [if_pos hle, if_neg (by omega)]
        rfl
      · rw [if_neg hle, if_pos (by omega)]
        rfl
  · have hrun : exec (.descriptorFetch f r d) s = _ := fetch_runs hl hp hm
    intro i ended
    refine ⟨fun hf hop => ?_, fun hv hf => ?_, fun hv hid hlook hf => ?_, fun hv hid hf st hlook => ?_⟩
    · have hrefuse : s.refusedDesc d = true := by simp [State.refusedDesc, hf, hop]
      rw [hrun, hrefuse]
      exact ⟨_, rfl, fetching_ended hm hn (hostEnds_settleHost ..)⟩
    · have hrefuse : s.refusedDesc d = false := by simp [State.refusedDesc, hf]
      rw [hrun, hrefuse, hv]
      exact ⟨_, rfl, fetching_ended hm hn (hostEnds_settleHost ..)⟩
    · have hrefuse : s.refusedDesc d = false := by simp [State.refusedDesc, hf]
      have hknown : s.knownId f d = false := Bool.and_eq_false_imp.2 fun _ => by rw [hlook]; rfl
      have hid' : (descId d != 0) = true := bne_iff_ne.2 hid
      have hfn : (s.fetching f r d).fn f.val = s.fetchedFn f r d := fetching_fn
      have hjournal : (s.fetchedFn f r d).journal = ((descId d, none) :: u.journal).take 4096 := by
        unfold State.fetchedFn
        simp only [hv, hid', hknown]
        rfl
      rw [hrun, hrefuse, hv, hknown]
      refine ⟨s.fetching f r d, s.fetchedDesc f r d, rfl, ?_, rfl, rfl, rfl, ?_, ?_, ?_, ?_⟩
      · rw [hfn]
        rfl
      · simp [State.fetchedDesc, hknown]
      · rw [hfn]
        rfl
      · rw [hfn, Func.lookup, hjournal]
        simp
      · rw [fetching_cq]
    · have hrefuse : s.refusedDesc d = false := by simp [State.refusedDesc, hf]
      have hknown : s.knownId f d = true := Bool.and_eq_true_iff.2 ⟨bne_iff_ne.2 hid, by rw [hlook]; rfl⟩
      have hready := fetching_ready (r := r) hno hv hid hf hlook
      rw [hrun, hrefuse, hv, hknown]
      refine ⟨settleHost 1 (s.fetching f r d) f, rfl, ?_⟩
      have hsettle : settleHost 1 (s.fetching f r d) f = (s.fetching f r d).complete1 f r i .duplicate { CplInfo.plain with orig := st.code } := by
        rw [settleHost, fetching_fn, hready]
        rfl
      rw [hsettle]
      exact fetching_ended hm hn (.refl _)
  · obtain ⟨due, hdue⟩ : ∃ due, due = ((List.range 16).map (Fin.ofNat 16)).filter fun (q : RingId) =>
        s.cqVector f q == v && (match ((s.fn f.val).cqOf q.val).oldest with
          | some t => decide (8000 * fld (s.reg f (.irqMod v)) 8 10 ≤ (s.clk.timebase - t).toNat)
          | none => false) := ⟨_, rfl⟩
    have hmem : r ∈ due := by
      rw [hdue, List.mem_filter]
      refine ⟨List.mem_map.2 ⟨r.val, List.mem_range.2 r.isLt, Fin.ext (Nat.mod_eq_of_lt r.isLt)⟩, ?_⟩
      rw [show ((s.fn f.val).cqOf r.val).oldest = some t0 from hold, hv]
      simpa using hwait
    obtain ⟨t, ht⟩ : ∃ t, t = due.foldl (fun (s : State) r => s.updFn f.val fun u =>
        u.updCq r.val fun q => { q with unsignalled := 0, oldest := none }) s := ⟨_, rfl⟩
    obtain ⟨hsignal, hsent, hqos⟩ := signalled_keeps (f := f) due s
    rw [← ht] at hsignal hsent hqos
    have hrun : exec (.irqDelayExpiry f v) s = .next (t.interrupt f v) := by
      show execIrqDelayExpiry f v s = _
      rw [ht, hdue]
      refine if_neg ?_
      have hne : due.isEmpty = false := by
        rw [List.isEmpty_eq_false_iff_exists_mem]
        exact ⟨r, hmem⟩
      rw [hdue] at hne
      simp only [hl, Bool.not_true, Bool.false_or, Bool.or_eq_true, not_or]
      exact ⟨by simpa using Nat.pos_iff_ne_zero.1 hpos, fun h => absurd (h.symm.trans hne) (by decide)⟩
    refine ⟨_, hrun, ?_, fun hallow => ?_⟩
    · rw [(ringsKept_interrupt t f v).cq]
      exact hsignal r (.inl hmem)
    · rw [interrupt_allowed (by rw [hsent, hqos]; exact hallow)]
      exact List.mem_cons_self
  · obtain ⟨t, ht⟩ : ∃ t, t = s.updFn f.val fun u => { u with irqSent := 0, irqHeld := [] } := ⟨_, rfl⟩
    have hfn : t.fn f.val = { u with irqSent := 0, irqHeld := [] } := by
      rw [ht]
      exact State.fn_updFn_same s f.val fun u => { u with irqSent := 0, irqHeld := [] }
    obtain ⟨h1, h2, h3, -⟩ := interrupts_leave (s := t) (f := f) (l := u.irqHeld) (n := 0) (by rw [hfn]) (by rw [hfn])
      (by rw [hfn]; show 0 + _ ≤ 4 * fld u.qos 24 8; omega)
    refine ⟨_, ?_, h1, by rw [h2]; omega, h3⟩
    show execInterruptAllowanceRenewal f s = _
    rw [execInterruptAllowanceRenewal, hl, ht]
    rfl

end Sys2Proof.Machine
end


section
/-!
PROOFS. The descriptors whose effect is short: NOP, FENCE, PASS_SUBMIT, COPY, PREEMPT and RESUME (R345, R353).
-/
namespace Sys2Proof.Machine

/-! ### What the end of descriptors leaves of a function -/

/-- The functions' preempt identifiers, pass numbers and executables stand. -/
structure FnsHeld (s t : State) : Prop where
  preempt : ∀ f, (t.fn f).preempt = (s.fn f).preempt
  passNo : ∀ f, (t.fn f).passNo = (s.fn f).passNo
  exe : ∀ f, (t.fn f).exe = (s.fn f).exe

theorem FnsHeld.trans {s t u : State} (h : FnsHeld s t) (g : FnsHeld t u) : FnsHeld s u :=
  ⟨fun f => (g.preempt f).trans (h.preempt f), fun f => (g.passNo f).trans (h.passNo f),
    fun f => (g.exe f).trans (h.exe f)⟩

theorem FnsHeld.refl (s : State) : FnsHeld s s := ⟨fun _ => rfl, fun _ => rfl, fun _ => rfl⟩

theorem fnsHeld_updFn (s : State) (f : Nat) (g : Func → Func)
    (hg : (g (s.fn f)).preempt = (s.fn f).preempt ∧ (g (s.fn f)).passNo = (s.fn f).passNo ∧ (g (s.fn f)).exe = (s.fn f).exe) : FnsHeld s (s.updFn f g) := by
  have hfn : ∀ b, ((s.updFn f g).fn b).preempt = (s.fn b).preempt ∧ ((s.updFn f g).fn b).passNo = (s.fn b).passNo ∧
      ((s.updFn f g).fn b).exe = (s.fn b).exe := by
    intro b
    by_cases hb : b = f
    · rw [hb, State.fn_updFn_same]
      exact hg
    · rw [State.fn_updFn_other _ _ hb]
      exact ⟨rfl, rfl, rfl⟩
  exact ⟨fun b => (hfn b).1, fun b => (hfn b).2.1, fun b => (hfn b).2.2⟩

theorem fnsHeld_emit (s : State) (o : Out) : FnsHeld s (s.emit o) := ⟨fun _ => rfl, fun _ => rfl, fun _ => rfl⟩

theorem fnsHeld_interrupt (s : State) (f : FnId) (v : Fin 128) : FnsHeld s (s.interrupt f v) := by
  unfold State.interrupt
  dsimp only
  split
  · exact (fnsHeld_updFn s f.val (fun u => { u with irqSent := u.irqSent + 1 }) ⟨rfl, rfl, rfl⟩).trans (fnsHeld_emit ..)
  · split
    · exact .refl s
    · exact fnsHeld_updFn s f.val (fun u => { u with irqHeld := u.irqHeld ++ [v] }) ⟨rfl, rfl, rfl⟩

theorem fnsHeld_moderate (s : State) (f : FnId) (cq : RingId) : FnsHeld s (s.moderate f cq) := by
  unfold State.moderate
  dsimp only
  split
  · refine FnsHeld.trans ?_ (fnsHeld_interrupt ..)
    exact fnsHeld_updFn s f.val _ ⟨rfl, rfl, rfl⟩
  · exact fnsHeld_updFn s f.val _ ⟨rfl, rfl, rfl⟩

theorem fnsHeld_complete1 (s : State) (f : FnId) (r : RingId) (i : BitVec 12) (st : Status) (x : CplInfo) :
    FnsHeld s (s.complete1 f r i st x) := by
  cases h : (s.fn f.val).find r i with
  | none =>
    rw [complete1_none h]
    exact .refl s
  | some d =>
    have hset : FnsHeld s (s.setFn f.val (s.endedFn f r i st d)) := fnsHeld_updFn s f.val (fun _ => s.endedFn f r i st d) ⟨rfl, rfl, rfl⟩
    rw [complete1_some h]
    dsimp only
    split
    · split
      · exact hset.trans (fnsHeld_emit ..)
      · exact (hset.trans (fnsHeld_emit ..)).trans (fnsHeld_moderate ..)
    · exact hset

theorem fnsHeld_settleHost (n : Nat) (s : State) (f : FnId) : FnsHeld s (settleHost n s f) := by
  induction n generalizing s with
  | zero => exact .refl s
  | succ n ih =>
    rw [settleHost]
    split
    · exact .refl s
    · exact (fnsHeld_complete1 ..).trans (ih _)
    · exact (fnsHeld_complete1 ..).trans (ih _)

theorem fnsHeld_complete (s : State) (f : FnId) (r : RingId) (i : BitVec 12) (st : Status) (x : CplInfo) :
    FnsHeld s (s.complete f r i st x) := (fnsHeld_complete1 ..).trans (fnsHeld_settleHost ..)

theorem fnsHeld_finish (s : State) (f : FnId) (r : RingId) (i : BitVec 12) (st : Status) : FnsHeld s (s.finish f r i st) :=
  fnsHeld_complete ..

/-! ### A descriptor that is taken -/

section
variable {s : State} {f : FnId} {r : RingId} {i : BitVec 12} {d : Fetched} {op : Nat}

theorem taken_some (h : s.taken f r i op = some d) :
    (s.fn f.val).find r i = some d ∧ d.phase = .fetched ∧ descOp d.desc = op ∧ d.ring = r ∧ d.index = i := by
  unfold State.taken at h
  cases hf : (s.fn f.val).find r i with
  | none => rw [hf] at h; exact nomatch h
  | some x =>
    rw [hf] at h
    dsimp only at h
    split at h
    · next hc =>
      obtain rfl := Option.some.inj h
      simp only [Bool.and_eq_true, beq_iff_eq] at hc
      have hring := List.find?_some hf
      simp only [Bool.and_eq_true, beq_iff_eq] at hring
      exact ⟨rfl, hc.1.2, hc.2, hring.1, hring.2⟩
    · exact nomatch h

theorem finish_completed (s : State) (f : FnId) (r : RingId) (i : BitVec 12) {st : Status} (h : st ≠ .duplicate) :
    Completed s (s.finish f r i st) f r i st := complete_completed h _

/-- The mark of a descriptor that executes. -/
def executed (r : RingId) (i : BitVec 12) (d : Fetched) : Fetched :=
  if d.ring == r && d.index == i then { d with phase := .executing } else d

@[simp] theorem executed_ring (x : Fetched) : (executed r i x).ring = x.ring := by unfold executed; split <;> rfl
@[simp] theorem executed_index (x : Fetched) : (executed r i x).index = x.index := by unfold executed; split <;> rfl
@[simp] theorem executed_desc (x : Fetched) : (executed r i x).desc = x.desc := by unfold executed; split <;> rfl
@[simp] theorem executed_order (x : Fetched) : (executed r i x).order = x.order := by unfold executed; split <;> rfl

theorem executed_own {x : Fetched} (hr : x.ring = r) (hi : x.index = i) : executed r i x = { x with phase := .executing } := by
  simp [executed, hr, hi]

theorem executed_other {x : Fetched} (h : ¬(x.ring = r ∧ x.index = i)) : executed r i x = x := by
  unfold executed
  exact if_neg (by simpa using h)

theorem executing_fn : (s.executing f r i).fn f.val = { s.fn f.val with fetched := (s.fn f.val).fetched.map (executed r i) } :=
  State.fn_updFn_same s f.val fun u => { u with fetched := u.fetched.map (executed r i) }

theorem executing_find (h : (s.fn f.val).find r i = some d) :
    ((s.executing f r i).fn f.val).find r i = some { d with phase := .executing } := by
  have hd := List.find?_some h
  simp only [Bool.and_eq_true, beq_iff_eq] at hd
  rw [executing_fn]
  show ((s.fn f.val).fetched.map (executed r i)).find? _ = _
  rw [List.find?_map]
  have hp : ((fun x : Fetched => x.ring == r && x.index == i) ∘ executed r i) = fun x => x.ring == r && x.index == i := by
    funext x
    simp
  rw [hp, show (s.fn f.val).fetched.find? _ = some d from h, Option.map_some, executed_own hd.1 hd.2]

/-- The end of a descriptor that executes is the end of what was fetched. -/
theorem Completed.executing {t : State} {st : Status} (h : Completed (s.executing f r i) t f r i st) : Completed s t f r i st := by
  obtain ⟨hgone, hend⟩ := h
  refine ⟨hgone, fun d hd => ?_⟩
  obtain ⟨hout, hstatus⟩ := hend _ (executing_find hd)
  rw [show ((s.executing f r i).fn f.val).cqOf _ = (s.fn f.val).cqOf _ by rw [executing_fn]; rfl] at hout
  rw [show ((s.executing f r i).fn f.val).lookup _ = (s.fn f.val).lookup _ by rw [executing_fn]; rfl] at hstatus
  exact ⟨hout, hstatus⟩

end

/-! ### FENCE -/

/-- A fetched descriptor that a FENCE waits for. -/
def Func.blocks (u : Func) (d : Fetched) : Bool :=
  u.fetched.any fun e => decide (e.order < d.order) && (dfld d.desc 16 1 == 1 || e.ring == d.ring)

/-- A duplicate whose original is final or gone. -/
def Func.dupReady (u : Func) (x : Fetched) : Prop := x.phase = .duplicate ∧ u.lookup (descId x.desc) ≠ some none

/-- A FENCE that waits for nothing any more. -/
def Func.fenceReady (u : Func) (x : Fetched) : Bool := x.phase == .executing && descOp x.desc == 5 && !u.blocks x

/-- With no duplicate ready, the first FENCE is. -/
theorem ready_fence {u : Func} (h : ∀ x ∈ u.fetched, ¬u.dupReady x) : u.ready = (u.fetched.find? u.fenceReady).map fun d => (d, none) := by
  unfold Func.ready
  dsimp only
  split
  · next x hx =>
    obtain ⟨y, hy, hsome⟩ := List.exists_of_findSome?_eq_some hx
    exfalso
    refine h y hy ?_
    split at hsome
    · next hp =>
      refine ⟨by simpa using hp, fun hl => ?_⟩
      rw [hl] at hsome
      exact nomatch hsome
    · exact nomatch hsome
  · rfl

/-- Nothing is ready: no duplicate and no FENCE is. -/
theorem ready_none {u : Func} (h : u.ready = none) : (∀ x ∈ u.fetched, ¬u.dupReady x) ∧ ∀ x ∈ u.fetched, u.fenceReady x = false := by
  have hdup : ∀ x ∈ u.fetched, ¬u.dupReady x := by
    intro x hx ⟨hp, hl⟩
    unfold Func.ready at h
    dsimp only at h
    split at h
    · exact nomatch h
    · next hnone =>
      have := List.findSome?_eq_none_iff.1 hnone x hx
      rw [if_pos (by simpa using hp)] at this
      split at this
      · exact nomatch this
      · exact nomatch this
      · next h1 h2 =>
        cases hlook : u.lookup (descId x.desc) with
        | none => exact h2 hlook
        | some o =>
          cases o with
          | none => exact hl hlook
          | some st => exact h1 st hlook
  refine ⟨hdup, fun x hx => ?_⟩
  rw [ready_fence hdup, Option.map_eq_none_iff, List.find?_eq_none] at h
  simpa using h x hx

section
variable {s : State} {f : FnId} {r : RingId} {i : BitVec 12} {d : Fetched}

theorem executing_blocks (x : Fetched) : ((s.executing f r i).fn f.val).blocks (executed r i x) = (s.fn f.val).blocks x := by
  rw [executing_fn]
  show ((s.fn f.val).fetched.map (executed r i)).any _ = _
  rw [List.any_map, Func.blocks]
  congr 1
  funext e
  simp

variable (h : s.taken f r i 5 = some d) (hready : (s.fn f.val).ready = none)
  (hone : ∀ x ∈ (s.fn f.val).fetched, x.ring = r → x.index = i → x = d)
include h hready hone

/-- Of the descriptors of the function only the FENCE that now executes may be ready. -/
theorem executing_ready : ((s.executing f r i).fn f.val).ready =
    if (s.fn f.val).blocks d then none else some ({ d with phase := .executing }, none) := by
  obtain ⟨hfind, hphase, hop, hr, hi⟩ := taken_some h
  obtain ⟨hdup, hfence⟩ := ready_none hready
  have hown : executed r i d = { d with phase := .executing } := executed_own hr hi
  have hmem : d ∈ (s.fn f.val).fetched := List.mem_of_find?_eq_some hfind
  have hfetched : ((s.executing f r i).fn f.val).fetched = (s.fn f.val).fetched.map (executed r i) := by rw [executing_fn]
  have hdup' : ∀ x ∈ ((s.executing f r i).fn f.val).fetched, ¬((s.executing f r i).fn f.val).dupReady x := by
    intro y hy ⟨hp, hl⟩
    rw [hfetched] at hy
    obtain ⟨x, hx, rfl⟩ := List.mem_map.1 hy
    by_cases he : x.ring = r ∧ x.index = i
    · rw [executed_own he.1 he.2] at hp
      exact nomatch hp
    · rw [executed_other he] at hp hl
      refine hdup x hx ⟨hp, ?_⟩
      rw [executing_fn] at hl
      exact hl
  have hothers : ∀ x ∈ (s.fn f.val).fetched, ((s.executing f r i).fn f.val).fenceReady (executed r i x) = true → x = d := by
    intro x hx hfr
    by_cases he : x.ring = r ∧ x.index = i
    · exact hone x hx he.1 he.2
    · have hno := hfence x hx
      rw [Func.fenceReady, executing_blocks, executed_other he, ← Func.fenceReady, hno] at hfr
      exact nomatch hfr
  have hself : ((s.executing f r i).fn f.val).fenceReady (executed r i d) = !(s.fn f.val).blocks d := by
    rw [Func.fenceReady, executing_blocks, hown]
    simp [hop]
  rw [ready_fence hdup', hfetched, ← hown]
  cases hfd : ((s.fn f.val).fetched.map (executed r i)).find? ((s.executing f r i).fn f.val).fenceReady with
  | none =>
    have hno := List.find?_eq_none.1 hfd _ (List.mem_map.2 ⟨d, hmem, rfl⟩)
    rw [hself] at hno
    rw [if_pos (by simpa using hno)]
    rfl
  | some y =>
    have hy := List.find?_some hfd
    obtain ⟨x, hx, rfl⟩ := List.mem_map.1 (List.mem_of_find?_eq_some hfd)
    obtain rfl := hothers x hx hy
    rw [hself] at hy
    rw [if_neg (by simpa using hy)]
    rfl

theorem fence_waits (hb : (s.fn f.val).blocks d = true) : ∃ t, exec (.fence f r i) s = .next t ∧
    (t.fn f.val).find r i = some { d with phase := .executing } := by
  refine ⟨s.executing f r i, ?_, executing_find (taken_some h).1⟩
  show execFence f r i s = _
  unfold execFence
  rw [h]
  dsimp only
  rw [settleHost, executing_ready h hready hone, hb]
  rfl

theorem fence_ends (hb : (s.fn f.val).blocks d = false) : ∃ t, exec (.fence f r i) s = .next t ∧ Completed s t f r i .done := by
  obtain ⟨hfind, hphase, hop, hr, hi⟩ := taken_some h
  refine ⟨(s.executing f r i).complete1 f r i .done .plain, ?_, (complete1_completed (by decide) _).executing⟩
  show execFence f r i s = _
  unfold execFence
  rw [h]
  dsimp only
  rw [settleHost, executing_ready h hready hone, hb]
  show Host.Outcome.next ((s.executing f r i).complete1 f d.ring d.index .done .plain) = _
  rw [hr, hi]

end

/-! ### PASS_SUBMIT -/

section
variable {s : State} {f : FnId} {r : RingId} {i : BitVec 12} {d : Fetched} {bufs : List W64}

/-- The function whose account starts at its partition's smallest. -/
def State.accounted (s : State) (f : FnId) : State :=
  match if (s.allPasses.any fun kp => kp.2.fn == f && kp.2.state == .queued) then none else s.leastAccount f with
  | some a => s.updFn f.val fun u => { u with account := a }
  | none => s

variable (h : s.taken f r i 1 = some d) (hlen : bufs.length = dfld d.desc 24 2)
include h hlen

theorem passSubmit_runs {l : Loaded} (hl : s.loaded f = some l) : execPassSubmit f r i bufs s = .next (
    if bufs.length < Exe.buffers l.exe then s.finish f r i .rejectedFormat
    else if !s.scheduled || !(s.func f).enable || !s.skeinTakes f l.exe then s.finish f r i .rejectedState
    else { ((s.accounted f).executing f r i).setPass (s.accounted f).nextPass (.submitted f r i d.desc bufs) with
      nextPass := (s.accounted f).nextPass + 1 }) := by
  unfold execPassSubmit
  rw [h]
  dsimp only
  rw [if_neg (by simpa using hlen), hl]
  dsimp only
  rw [apply_ite Host.Outcome.next, apply_ite Host.Outcome.next]
  rfl

theorem passSubmit_unloaded (hl : s.loaded f = none) : execPassSubmit f r i bufs s = .next (s.finish f r i .rejectedState) := by
  unfold execPassSubmit
  rw [h]
  dsimp only
  rw [if_neg (by simpa using hlen), hl]

omit h hlen in
theorem accounted_next : (s.accounted f).nextPass = s.nextPass := by
  unfold State.accounted
  generalize (if (s.allPasses.any fun kp => kp.2.fn == f && kp.2.state == .queued) then none else s.leastAccount f) = o
  cases o <;> rfl

end

/-! ### COPY -/

section
variable {s : State} {c : Nat}

theorem settleAll_byte (k : Nat) : memByte (s.settleAll c).mem k = s.byteNow c k := by
  unfold State.settleAll State.byteNow
  cases (s.core c).mpend with
  | nil => rfl
  | cons w l => exact memByte_foldl_memPut (w :: l) s.mem k

theorem settleAll_mpend : ((s.settleAll c).core c).mpend = [] := by
  unfold State.settleAll
  cases h : (s.core c).mpend with
  | nil => exact h
  | cons w l => exact congrArg Core.mpend (State.core_updCore_same (s := s) c fun k => { k with mpend := [] })

/-- What memory holds once a core's writes have landed. -/
theorem settleAll_get (a n : Nat) : memGet (s.settleAll c).mem a n = s.readNow c a n := by
  rw [memGet_eq, State.readNow_eq]
  exact List.map_congr_left fun i _ => settleAll_byte (a + i)

theorem memGet_memPut (m : List Host.Cell) (a : Nat) (data : List Byte) : memGet (memPut m a data) a data.length = data := by
  rw [memGet_eq]
  refine List.ext_getElem (by simp) fun i h1 h2 => ?_
  rw [List.getElem_map, List.getElem_range]
  exact memPut_inside m a data i h2

/-- What was written at once is what is read. -/
theorem readNow_written {t : State} {m : List Host.Cell} {a : Nat} {data : List Byte} (ht : t.mem = memPut m a data)
    (hc : (t.core c).mpend = []) : t.readNow c a data.length = data := by
  rw [State.readNow, hc, ht]
  exact memGet_memPut m a data

variable {f : FnId} {r : RingId} {i : BitVec 12} {d : Fetched} {data : List Byte} {a : MAddr} {b z : Nat} (h : s.taken f r i 6 = some d)
  (ha : a = BitVec.ofNat 48 (dfld d.desc 24 6)) (hreg : s.regionOf f (aSpace a) = (b, z))
  (hlen : data.length = if dfld d.desc 36 1 = 0 then dfld d.desc 32 4 else 0)
include h ha hreg hlen

omit h ha hreg in
theorem copy_length : ¬data.length ≠ (if (dfld d.desc 36 1 == 0) = true then dfld d.desc 32 4 else 0) := by
  simpa using hlen

theorem copy_outside (ho : aOff a < b ∨ b + z < aOff a + dfld d.desc 32 4) :
    execCopy f r i data s = .next (s.finish f r i .rejectedFormat) := by
  have hl := copy_length hlen
  unfold execCopy
  rw [h]
  dsimp only
  rw [← ha, hreg]
  dsimp only
  rw [if_neg hl]
  refine if_pos ?_
  simp only [Bool.or_eq_true, decide_eq_true_eq]
  exact ho.elim (fun h => .inl (.inr h)) .inr

variable (hsp : aSpace a = 1 ∨ aSpace a = 2) (hbit : bitAt a 43 = false) (hpart : s.inPart f (aCore a) = true) (hlo : b ≤ aOff a)
  (hhi : aOff a + dfld d.desc 32 4 ≤ b + z) (hscrub : s.scrubbing f (aSpace a) = false)
include hsp hbit hpart hlo hhi hscrub

omit h ha hreg hlen hscrub in
theorem copy_inside : ¬(!(aSpace a == 1 || aSpace a == 2) || bitAt a 43 || !s.inPart f (aCore a) || decide (aOff a < b) ||
    decide (b + z < aOff a + dfld d.desc 32 4)) = true := by
  have : (aSpace a == 1 || aSpace a == 2) = true := by simpa using hsp
  simp [this, hbit, hpart, hlo, hhi]

theorem copy_busy (hb : s.partBusy f = true) : execCopy f r i data s = .next s := by
  have hl := copy_length hlen
  have hin := copy_inside hsp hbit hpart hlo hhi
  unfold execCopy
  rw [h]
  dsimp only
  rw [← ha, hreg]
  dsimp only
  rw [if_neg hl, if_neg hin, if_neg (by simp [hscrub]), if_pos hb]

theorem copy_in (hb : s.partBusy f = false) (hd : dfld d.desc 36 1 = 0) : execCopy f r i data s =
    .next ((((s.settleAll (aCore a)).writeNow (absAddr (aSpace a) (aCore a) (aOff a)) data).clearEcc (aSpace a)
      (absAddr (aSpace a) (aCore a) (aOff a)) (dfld d.desc 32 4)).finish f r i .done) := by
  have hl := copy_length hlen
  have hin := copy_inside hsp hbit hpart hlo hhi
  unfold execCopy
  rw [h]
  dsimp only
  rw [← ha, hreg]
  dsimp only
  rw [if_neg hl, if_neg hin, if_neg (by simp [hscrub]), if_neg (by simp [hb]), if_pos (by simpa using hd)]

theorem copy_out (hb : s.partBusy f = false) (hd : dfld d.desc 36 1 = 1)
    (hecc : eccWorst s.ecc (eccWord (aSpace a)) (absAddr (aSpace a) (aCore a) (aOff a)) (dfld d.desc 32 4) = none) : execCopy f r i data s =
    .next (((s.settleAll (aCore a)).emit (.hostWrite (BitVec.ofNat 64 (dfld d.desc 16 8))
      (memGet (s.settleAll (aCore a)).mem (absAddr (aSpace a) (aCore a) (aOff a)) (dfld d.desc 32 4)))).finish f r i .done) := by
  have hl := copy_length hlen
  have hin := copy_inside hsp hbit hpart hlo hhi
  have hecc' : (s.settleAll (aCore a)).ecc = s.ecc := by
    unfold State.settleAll
    split <;> rfl
  unfold execCopy
  rw [h]
  dsimp only
  rw [← ha, hreg]
  dsimp only
  rw [if_neg hl, if_neg hin, if_neg (by simp [hscrub]), if_neg (by simp [hb]), if_neg (by simp [hd]), hecc', hecc]

end

/-! ### PREEMPT -/

section
variable {s : State} {f : FnId} {r : RingId} {i : BitVec 12} {d : Fetched}

theorem settleAll_kept (s : State) (c : Nat) : HostKept s (s.settleAll c) := by
  unfold State.settleAll
  split
  · exact .refl s
  · exact .of_eq rfl rfl rfl rfl

theorem taken_filter {n : Nat} (h : s.taken f r i 7 = some d) (hn : dfld d.desc 16 1 = n) :
    ((s.taken f r i 7).filter fun d => dfld d.desc 16 1 == n) = some d := by
  rw [h]
  simp [hn]

/-- The function with a PREEMPT that executes. -/
def State.preempting (s : State) (f : FnId) (r : RingId) (i : BitVec 12) (id : W64) : State :=
  (s.updFn f.val fun u => { u with preempt := some id }).executing f r i

theorem preempting_kept (id : W64) : HostKept s (s.updFn f.val fun u => { u with preempt := some id }) :=
  hostKept_updFn s f.val _ fun _ => ⟨rfl, rfl, rfl⟩

theorem preempt_runs (h : s.taken f r i 7 = some d) (hn : dfld d.desc 16 1 = 3) : exec (.skeinCtlPreempt f r i) s =
    .next ((s.preempting f r i (BitVec.ofNat 64 (dfld d.desc 24 8))).settlePreempt f) := by
  show execSkeinCtlPreempt f r i s = _
  unfold execSkeinCtlPreempt
  rw [taken_filter h hn]
  rfl

theorem preempting_find (h : s.taken f r i 7 = some d) (id : W64) :
    ((s.preempting f r i id).fn f.val).find r i = some { d with phase := .executing } := by
  have hfind := (preempting_kept (s := s) (f := f) id).find f.val r i
  exact executing_find (hfind.trans (taken_some h).1)

theorem preempting_fn (id : W64) : (s.preempting f r i id).fn f.val =
    { s.fn f.val with preempt := some id, fetched := (s.fn f.val).fetched.map (executed r i) } := by
  rw [State.preempting, executing_fn, State.fn_updFn_same]

/-- With no other descriptor executing, it is the PREEMPT that ends when no pass of the function runs. -/
theorem settlePreempt_ends (h : s.taken f r i 7 = some d) (hn : dfld d.desc 16 1 = 3)
    (hno : ∀ x ∈ (s.fn f.val).fetched, x.phase ≠ .executing) (id : W64)
    (hidle : ∀ kp ∈ s.allPasses, kp.2.fn = f → passBusy kp.2.state = false) :
    (s.preempting f r i id).settlePreempt f = (s.preempting f r i id).finish f r i .done := by
  obtain ⟨hfind, hphase, hop, hr, hi⟩ := taken_some h
  have hany : ((s.preempting f r i id).allPasses.any fun kp => kp.2.fn == f && passBusy kp.2.state) = false := by
    rw [List.any_eq_false]
    intro kp hkp
    by_cases hf : kp.2.fn = f
    · simp [hidle kp hkp hf]
    · simp [hf]
  have hown : ∀ y ∈ (s.fn f.val).fetched.map (executed r i), y.phase = .executing → y.ring = r ∧ y.index = i := by
    intro y hy hp
    obtain ⟨x, hx, rfl⟩ := List.mem_map.1 hy
    by_cases he : x.ring = r ∧ x.index = i
    · simpa using he
    · rw [executed_other he] at hp
      exact absurd hp (hno x hx)
  have hmem : executed r i d ∈ (s.fn f.val).fetched.map (executed r i) := List.mem_map.2 ⟨d, List.mem_of_find?_eq_some hfind, rfl⟩
  unfold State.settlePreempt
  dsimp only
  rw [hany, preempting_fn]
  simp only [Bool.not_false, if_true]
  split
  · next y hy =>
    have hp := List.find?_some hy
    simp only [Bool.and_eq_true, beq_iff_eq] at hp
    obtain ⟨hyr, hyi⟩ := hown y (List.mem_of_find?_eq_some hy) hp.1.1
    rw [hyr, hyi]
  · next hnone =>
    have := List.find?_eq_none.1 hnone _ hmem
    rw [executed_own hr hi] at this
    simp [hop, hn] at this

theorem settlePreempt_waits (id : W64) (hbusy : ∃ kp ∈ s.allPasses, kp.2.fn = f ∧ passBusy kp.2.state = true) :
    (s.preempting f r i id).settlePreempt f = s.preempting f r i id := by
  have hany : ((s.preempting f r i id).allPasses.any fun kp => kp.2.fn == f && passBusy kp.2.state) = true := by
    obtain ⟨kp, hkp, hf, hb⟩ := hbusy
    exact List.any_eq_true.2 ⟨kp, hkp, by simp [hf, hb]⟩
  unfold State.settlePreempt
  dsimp only
  rw [hany]
  rfl

theorem settlePreempt_held (s : State) (f : FnId) : FnsHeld s (s.settlePreempt f) := by
  unfold State.settlePreempt
  dsimp only
  split
  · split
    · exact fnsHeld_finish ..
    · exact .refl s
  · exact .refl s

end

/-- Settles O43: each short descriptor ends with its status and effect, or waits. -/
theorem shortDescriptors : Obligations.ShortDescriptors := by
  unfold Obligations.ShortDescriptors
  intro s f r i d
  refine ⟨fun h => ?_, fun h hready hone => ?_, fun h bufs hlen => ⟨fun hl => ?_, fun l hl => ⟨fun hb => ?_, fun hb hno => ?_,
    fun hb hsched hen htakes => ?_⟩⟩, fun h hinv => ?_, fun h hn hno => ?_, fun h hn => ?_⟩
  · refine ⟨s.finish f r i .done, ?_, finish_completed _ _ _ _ (by decide)⟩
    show execNopDescriptor f r i s = _
    unfold execNopDescriptor
    rw [h]
  · intro earlier
    have hblocks : (s.fn f.val).blocks d = true ↔ ∃ e ∈ (s.fn f.val).fetched, earlier e := by
      rw [Func.blocks, List.any_eq_true]
      refine exists_congr fun e => and_congr_right fun _ => ?_
      rw [(taken_some h).2.2.2.1]
      simp only [Bool.and_eq_true, Bool.or_eq_true, decide_eq_true_eq, beq_iff_eq]
      rfl
    refine ⟨fun hno => fence_ends h hready hone ?_, fun hsome => fence_waits h hready hone (hblocks.2 hsome)⟩
    rw [Bool.eq_false_iff]
    intro hb
    obtain ⟨e, he, hearlier⟩ := hblocks.1 hb
    exact hno e he hearlier
  · exact ⟨_, passSubmit_unloaded h hlen hl, finish_completed _ _ _ _ (by decide)⟩
  · exact ⟨_, (passSubmit_runs h hlen hl).trans (by rw [if_pos hb]), finish_completed _ _ _ _ (by decide)⟩
  · have hno' : (!s.scheduled || !(s.func f).enable || !s.skeinTakes f l.exe) = true := by
      obtain hno | hno := hno <;> simp [hno]
    refine ⟨_, (passSubmit_runs h hlen hl).trans (by rw [if_neg (by omega), if_pos hno']), finish_completed _ _ _ _ (by decide)⟩
  · have hyes : ¬(!s.scheduled || !(s.func f).enable || !s.skeinTakes f l.exe) = true := by simp [hsched, hen, htakes]
    refine ⟨_, Pass.submitted f r i d.desc bufs, (passSubmit_runs h hlen hl).trans (by rw [if_neg (by omega), if_neg hyes]), ?_,
      rfl, rfl, rfl, rfl, rfl, ?_, rfl, rfl⟩
    · rw [accounted_next]
      exact State.pass_setPass_same _ _ _
    · exact toNat_fld d.desc (8 * 32) 64
  · intro a n reg abs hsp hbit hpart
    refine ⟨fun data hlen ho => ?_, fun hlo hhi hscrub => ⟨fun data hlen hb => ?_, fun hb hd data hlen => ?_, fun hb hd hecc => ?_⟩⟩
    · exact ⟨_, copy_outside h rfl rfl hlen ho, finish_completed _ _ _ _ (by decide)⟩
    · exact copy_busy h rfl rfl hlen hsp hbit hpart hlo hhi hscrub hb
    · have hlen' : data.length = if dfld d.desc 36 1 = 0 then dfld d.desc 32 4 else 0 := by rw [if_pos hd]; exact hlen
      obtain ⟨u, hu⟩ : ∃ u, u = ((s.settleAll (aCore a)).writeNow abs data).clearEcc (aSpace a) abs n := ⟨_, rfl⟩
      have hkept : HostKept s u := by
        rw [hu]
        exact (settleAll_kept s (aCore a)).trans (.of_eq rfl rfl rfl rfl)
      refine ⟨u.finish f r i .done, ?_, ?_, (finish_completed u f r i (by decide)).before hkept⟩
      · rw [hu]
        exact copy_in h rfl rfl hlen' hsp hbit hpart hlo hhi hscrub hb hd
      · rw [← hlen]
        have hrest : u.finish f r i .done = { u with fns := _, out := _ } := (hostEnds_complete ..).rest
        refine readNow_written (m := (s.settleAll (aCore a)).mem) ?_ ?_
        · rw [hrest, hu]
          rfl
        · rw [hrest, hu]
          exact settleAll_mpend
    · have hlen' : ([] : List Byte).length = if dfld d.desc 36 1 = 0 then dfld d.desc 32 4 else 0 := by simp [hd]
      obtain ⟨u, hu⟩ : ∃ u, u = (s.settleAll (aCore a)).emit (.hostWrite (BitVec.ofNat 64 (dfld d.desc 16 8)) (s.readNow (aCore a) abs n)) :=
        ⟨_, rfl⟩
      have hkept : HostKept s u := by
        rw [hu]
        exact (settleAll_kept s (aCore a)).trans (hostKept_emit ..)
      refine ⟨u.finish f r i .done, ?_, (hostEnds_complete ..).out _ (hu ▸ List.mem_cons_self),
        (finish_completed u f r i (by decide)).before hkept⟩
      rw [hu, ← settleAll_get]
      exact copy_out h rfl rfl hlen' hsp hbit hpart hlo hhi hscrub hb hd hecc
  · refine ⟨_, preempt_runs h hn, ?_, fun hidle => ?_, fun hbusy => ?_⟩
    · rw [(settlePreempt_held _ f).preempt, preempting_fn]
    · rw [settlePreempt_ends h hn hno _ hidle]
      exact ((finish_completed _ f r i (by decide)).executing).before (preempting_kept _)
    · rw [settlePreempt_waits _ hbusy]
      exact preempting_find h _
  · refine ⟨(s.updFn f.val fun u => { u with preempt := none }).finish f r i .done, ?_, ?_, ?_⟩
    · show execSkeinCtlResume f r i s = _
      unfold execSkeinCtlResume
      rw [taken_filter h hn]
    · rw [(fnsHeld_finish ..).preempt, State.fn_updFn_same]
    · refine (finish_completed _ f r i (by decide)).before ?_
      exact hostKept_updFn s f.val _ fun _ => ⟨rfl, rfl, rfl⟩

end Sys2Proof.Machine
end


section
/-!
PROOFS. The commands of a skein: FORM and DISSOLVE descriptors (R300, R303, R304, R317).
-/
namespace Sys2Proof.Machine

/-! ### FORM -/

section
variable {s : State} {f : FnId} {r : RingId} {i : BitVec 12} {d : Fetched} {plan : List (BitVec 12)}

/-- A formation that has begun. -/
def State.formBegun (s : State) (f : FnId) (r : RingId) (i : BitVec 12) (d : Fetched) (plan : List (BitVec 12)) : State :=
  { s.executing f r i with skein := { Skein.reset with
    plan := plan, id := BitVec.ofNat 16 (dfld d.desc 18 2), fn := f, desc := some (r, i), passNo := s.skein.passNo,
    field := s.skein.field, module := s.skein.module, formedAt := s.clk.timebase } }

variable (h : s.taken f r i 7 = some d) (hn : dfld d.desc 16 1 = 1) (hlen : plan.length = dfld d.desc 20 2)
include h hn hlen

theorem form_unnamed (hone : (plan.filter fun m => m == s.moduleId).length ≠ 1) :
    execSkeinCtlForm f r i plan s = .next (s.finish f r i .rejectedFormat) := by
  unfold execSkeinCtlForm
  rw [taken_filter h hn]
  dsimp only
  rw [if_neg (by simpa using hlen), if_pos hone]

theorem form_runs (hone : (plan.filter fun m => m == s.moduleId).length = 1) {l : Loaded} (hl : s.loaded f = some l) :
    execSkeinCtlForm f r i plan s = .next (
      if plan.length ≠ l.exe.header.skeinSize then s.finish f r i .rejectedFormat
      else if plan.length = 1 then (s.updFn f.val fun u => { u with passNo := 0 }).finish f r i .done
      else if !s.formReady f then s.finish f r i .rejectedState
      else
        let t := (s.formBegun f r i d plan).setSkein .forming
        if t.clk.announced then t else t.buildRecord) := by
  unfold execSkeinCtlForm
  rw [taken_filter h hn]
  dsimp only
  rw [if_neg (by simpa using hlen), if_neg (by simpa using hone), hl]
  simp only [apply_ite Host.Outcome.next]
  rfl

end

/-- Nothing that children sent waits. -/
theorem takeHeld_nothing {s : State} (h : s.skein.held = []) (ty : Byte) (take : State → PortId → BitVec 12 → StitchMsg → State) :
    s.takeHeld ty take = s := by
  unfold State.takeHeld
  rw [h]
  show ({ s with skein := { s.skein with held := [] } } : State) = s
  rw [← h]

/-- Whatever a member's record leads to, plan, function and identifier stand. -/
theorem formTry_plan (u : State) : u.formTry.skein.plan = u.skein.plan ∧ u.formTry.skein.fn = u.skein.fn ∧ u.formTry.skein.id = u.skein.id ∧
    u.formTry.skein.held = u.skein.held := by
  unfold State.formTry
  split
  · exact ⟨rfl, rfl, rfl, rfl⟩
  · next rec _ =>
    dsimp only
    split
    · exact ⟨rfl, rfl, rfl, rfl⟩
    · split
      · rw [(queued_sendAll u u.stitchParent (recordParts u.skein.id rec false)).1]
        exact ⟨rfl, rfl, rfl, rfl⟩
      · rw [(formDone_forms _).1, onlyPorts_sendTo u u.stitchChildren (controlMsg 0x01 u.skein.id u.moduleId 0 0)]
        exact ⟨rfl, rfl, rfl, rfl⟩

theorem buildRecord_plan {s : State} (hheld : s.skein.held = []) : s.buildRecord.skein.plan = s.skein.plan ∧
    s.buildRecord.skein.fn = s.skein.fn ∧ s.buildRecord.skein.id = s.skein.id := by
  obtain ⟨h1, h2, h3, h4⟩ := formTry_plan { s with skein := { s.skein with record := some s.agreementRecord } }
  have hrun : s.buildRecord = State.formTry { s with skein := { s.skein with record := some s.agreementRecord } } :=
    takeHeld_nothing (h4.trans hheld) _ _
  rw [hrun]
  exact ⟨h1, h2, h3⟩

/-- A FORM begins with no part of a child: a member without children sends its record, any other keeps it. -/
theorem buildRecord_builds {s : State} (hst : s.skein.state = .forming) (hgot : s.skein.got = []) (hheld : s.skein.held = [])
    (hroot : s.stitchRoot = false) : ∃ rec, s.buildRecord.skein = { s.skein with record := some rec } ∧
      (s.stitchChildren = [] → Queued s s.buildRecord s.stitchParent (recordParts s.skein.id rec false)) ∧
      (s.stitchChildren ≠ [] → s.buildRecord.ports = s.ports) := by
  obtain ⟨u, hu⟩ : ∃ u : State, u = { s with skein := { s.skein with record := some s.agreementRecord } } := ⟨_, rfl⟩
  have huk : u.skein = { s.skein with record := some s.agreementRecord } := by rw [hu]
  have hrun : s.buildRecord = u.formTry.takeHeld 0x06 State.formPart := by
    rw [hu]
    rfl
  have hall : (s.stitchChildren.all fun c => [0, 1, 2, 3].all fun i => u.skein.got.any fun g => g.1.val == c && g.2 == i) =
      s.stitchChildren.isEmpty := by
    rw [huk, hgot]
    cases s.stitchChildren <;> rfl
  have htry : u.formTry = if s.stitchChildren.isEmpty then u.sendAll [s.stitchParent] (recordParts s.skein.id s.agreementRecord false)
      else u := by
    have hroot' : u.stitchRoot = false := by rw [hu]; exact hroot
    have hchildren : u.stitchChildren = s.stitchChildren := by rw [hu]; rfl
    have hrec : u.skein.record = some s.agreementRecord := by rw [huk]
    have hstate : u.skein.state = .forming := by rw [huk]; exact hst
    unfold State.formTry
    rw [hrec]
    dsimp only
    rw [hchildren, hall, hstate]
    cases s.stitchChildren.isEmpty with
    | true =>
      rw [hroot']
      refine (if_neg (by decide)).trans ((if_pos rfl).trans ?_)
      rw [huk, hu]
      rfl
    | false => simp
  have hskein : u.formTry.skein = u.skein := by
    rw [htry]
    split
    · rw [(queued_sendAll u s.stitchParent (recordParts s.skein.id s.agreementRecord false)).1]
    · rfl
  have hrun' : s.buildRecord = u.formTry := hrun.trans (takeHeld_nothing (by rw [hskein, huk]; exact hheld) _ _)
  refine ⟨s.agreementRecord, by rw [hrun', hskein, huk], fun hnone => ?_, fun hsome => ?_⟩
  · rw [hrun', htry, if_pos (by rw [hnone]; rfl)]
    have hq := (queued_sendAll u s.stitchParent (recordParts s.skein.id s.agreementRecord false)).2
    exact hq.before (by rw [hu]; exact .of_ports rfl)
  · rw [hrun', htry, if_neg (by simpa using hsome), hu]

/-! ### DISSOLVE -/

theorem dissolveSelf_kept {s : State} (h : s.skein.desc = none) : HostKept s s.dissolveSelf := by
  have hform : s.completeForm .rejectedState = s := by simp only [State.completeForm, h]
  have hset : HostKept s (s.setSkein .dissolving) := hostKept_setSkein ..
  unfold State.dissolveSelf
  split
  · rw [hform]
    exact leaveSkein_kept s
  · rw [hform]
    exact leaveSkein_kept s
  · dsimp only
    split
    · exact hset
    · exact hset.trans (leaveSkein_kept _)
  · dsimp only
    split
    · exact hset
    · exact hset.trans (leaveSkein_kept _)
  · exact .refl s

section
variable {s : State} {f : FnId} {r : RingId} {i : BitVec 12} {d : Fetched}

/-- The member's part of a DISSOLVE that its host asks. -/
def State.dissolved (s : State) (f : FnId) : State :=
  if s.skein.fn == f && s.skein.state != .none && s.skein.state != .dissolving then
    (s.sendTo s.treePorts (controlMsg 0x06 s.skein.id s.moduleId 0 0)).dissolveSelf else s

theorem dissolve_runs (h : s.taken f r i 7 = some d) (hn : dfld d.desc 16 1 = 2) :
    exec (.skeinCtlDissolve f r i) s = .next ((s.dissolved f).finish f r i .done) := by
  show execSkeinCtlDissolve f r i s = _
  unfold execSkeinCtlDissolve
  rw [taken_filter h hn]
  rfl

theorem dissolved_kept (h : s.skein.desc = none) : HostKept s (s.dissolved f) := by
  unfold State.dissolved
  split
  · have honly := onlyPorts_sendTo s s.treePorts (controlMsg 0x06 s.skein.id s.moduleId 0 0)
    refine honly.kept.trans (dissolveSelf_kept ?_)
    rw [honly]
    exact h
  · exact .refl s

variable (hf : s.skein.fn = f) (hst : s.skein.state = .formed ∨ s.skein.state = .detached ∨ s.skein.state = .broken)
include hf hst

theorem dissolved_sends : s.dissolved f = (s.sendTo s.treePorts (controlMsg 0x06 s.skein.id s.moduleId 0 0)).dissolveSelf := by
  unfold State.dissolved
  refine if_pos ?_
  obtain hst | hst | hst := hst <;> simp [hf, hst]

theorem dissolved_queued {c : Nat} (hc : c ∈ s.stitchChildren) (hcp : s.stitchRoot = false → c ≠ s.stitchParent) :
    Queued s (s.dissolved f) c [controlMsg 0x06 s.skein.id s.moduleId 0 0] := by
  have hcount : s.treePorts.count c = 1 := by simpa using count_treePorts hc hcp (f := fun _ => true) rfl
  have hq := queued_once s hcount (controlMsg 0x06 s.skein.id s.moduleId 0 0)
  have hne : ((s.sendTo s.treePorts (controlMsg 0x06 s.skein.id s.moduleId 0 0)).port c).msgs ≠ [] := by
    rw [show _ = _ from hq]
    simp
  rw [dissolved_sends hf hst]
  exact (dissolveSelf_msgs hne).trans hq

theorem dissolved_broken (hb : s.skein.state = .broken) : (s.dissolved f).skein.state = .none := by
  have honly := onlyPorts_sendTo s s.treePorts (controlMsg 0x06 s.skein.id s.moduleId 0 0)
  rw [dissolved_sends hf hst, dissolveSelf_ends (by rw [honly]; exact .inl hb)]
  obtain ⟨fns, out, obs, hleave⟩ := leaveSkein_only ((s.sendTo s.treePorts (controlMsg 0x06 s.skein.id s.moduleId 0 0)).completeForm .rejectedState)
  rw [hleave]
  rfl

theorem dissolved_waits (hb : s.skein.state ≠ .broken) (hpass : ∃ kp ∈ s.allPasses, kp.2.fn = f ∧ passBusy kp.2.state = true) :
    (s.dissolved f).skein.state = .dissolving := by
  obtain ⟨u, hu⟩ : ∃ u, u = s.sendTo s.treePorts (controlMsg 0x06 s.skein.id s.moduleId 0 0) := ⟨_, rfl⟩
  have honly : OnlyPorts s u := hu ▸ onlyPorts_sendTo ..
  have hskein : u.skein = s.skein := by rw [honly]
  have hany : (u.allPasses.any fun kp => kp.2.fn == u.skein.fn) = true := by
    obtain ⟨kp, hkp, hfn, -⟩ := hpass
    rw [hskein, hf, honly]
    exact List.any_eq_true.2 ⟨kp, hkp, by simp [hfn]⟩
  have hstate : u.skein.state = .formed ∨ u.skein.state = .detached := by
    rw [hskein]
    obtain hst | hst | hst := hst
    exacts [.inl hst, .inr hst, absurd hst hb]
  obtain ⟨fns, out, obs, hset⟩ := setSkein_only u .dissolving
  rw [dissolved_sends hf hst, ← hu, dissolveSelf_later hstate, if_pos hany, hset]

end

/-- Settles O44: FORM is refused, ends or begins, and DISSOLVE goes over the tree and ends. -/
theorem skeinCommands : Obligations.SkeinCommands := by
  unfold Obligations.SkeinCommands
  intro s f r i d h
  refine ⟨fun hn plan hlen => ⟨fun hone => ⟨_, form_unnamed h hn hlen hone, finish_completed _ _ _ _ (by decide)⟩,
    fun l hone hl => ⟨fun hsize => ?_, fun hsize halone => ?_, fun hsize htwo hready => ?_, fun hsize htwo hready => ?_⟩⟩, fun hn hdesc => ?_⟩
  · exact ⟨_, (form_runs h hn hlen hone hl).trans (by rw [if_pos hsize]), finish_completed _ _ _ _ (by decide)⟩
  · refine ⟨_, (form_runs h hn hlen hone hl).trans (by rw [if_neg (by simpa using hsize), if_pos halone]), ?_, ?_⟩
    · refine (finish_completed _ f r i (by decide)).before ?_
      exact hostKept_updFn s f.val _ fun _ => ⟨rfl, rfl, rfl⟩
    · rw [(fnsHeld_finish ..).passNo, State.fn_updFn_same]
  · exact ⟨_, (form_runs h hn hlen hone hl).trans (by rw [if_neg (by simpa using hsize), if_neg (by omega), if_pos (by simp [hready])]),
      finish_completed _ _ _ _ (by decide)⟩
  · obtain ⟨v, hv⟩ : ∃ v, v = s.formBegun f r i d plan := ⟨_, rfl⟩
    obtain ⟨fns, out, obs, hset⟩ := setSkein_only v .forming
    obtain ⟨t, ht⟩ : ∃ t, t = v.setSkein .forming := ⟨_, rfl⟩
    have htk : t.skein = { v.skein with state := .forming } := by rw [ht, hset]
    have hrest : t = { s with skein := t.skein, fns := t.fns, out := t.out, obs := t.obs } := by
      rw [ht, hset, hv]
      rfl
    have hann : t.clk.announced = s.clk.announced := by rw [hrest]
    have hrun : exec (.skeinCtlForm f r i plan) s = .next (if t.clk.announced then t else t.buildRecord) := by
      refine (form_runs h hn hlen hone hl).trans ?_
      rw [if_neg (by simpa using hsize), if_neg (by omega), if_neg (by simp [hready]), ← hv, ← ht]
    have hid : v.skein.id.toNat = dfld d.desc 18 2 := by
      rw [hv]
      exact toNat_fld d.desc (8 * 18) 16
    have hwhole : ∀ u : State, (∃ rec, u.skein = { t.skein with record := rec }) → u.skein.plan = plan ∧ u.skein.fn = f ∧
        u.skein.id.toNat = dfld d.desc 18 2 ∧ u.skein.state = .forming ∧ u.skein.desc = some (r, i) := by
      rintro u ⟨rec, hu⟩
      rw [hu, htk]
      refine ⟨?_, ?_, hid, rfl, ?_⟩ <;> rw [hv] <;> rfl
    cases ha : s.clk.announced with
    | true =>
      obtain ⟨h1, h2, h3, h4, h5⟩ := hwhole t ⟨t.skein.record, rfl⟩
      refine ⟨t, hrun.trans (by rw [hann, ha]; rfl), h1, h2, h3, fun _ => ⟨h4, ?_, h5⟩, fun hno => nomatch hno⟩
      rw [htk, hv]
      rfl
    | false =>
      have hgot : t.skein.got = [] ∧ t.skein.held = [] := by
        rw [htk, hv]
        exact ⟨rfl, rfl⟩
      have htree : t.stitchRoot = s.stitchRoot ∧ t.stitchChildren = s.stitchChildren ∧ t.stitchParent = s.stitchParent ∧ t.ports = s.ports := by
        rw [hrest]
        exact ⟨rfl, rfl, rfl, rfl⟩
      obtain ⟨htr, htc, htp, hports⟩ := htree
      obtain ⟨h1, h2, h3, h4, h5⟩ := hwhole t ⟨t.skein.record, rfl⟩
      obtain ⟨hp1, hp2, hp3⟩ := buildRecord_plan hgot.2
      refine ⟨t.buildRecord, hrun.trans (by rw [hann, ha]; rfl), hp1.trans h1, hp2.trans h2, by rw [hp3]; exact h3,
        fun hno => (nomatch hno), fun _ hroot => ?_⟩
      obtain ⟨rec, hskein, hleaf, hinner⟩ := buildRecord_builds h4 hgot.1 hgot.2 (htr.trans hroot)
      obtain ⟨-, -, -, hstate, hdesc⟩ := hwhole t.buildRecord ⟨some rec, hskein⟩
      refine ⟨hstate, hdesc, rec, by rw [hskein], fun hnone => ?_, fun hsome => (hinner (by rwa [htc])).trans hports⟩
      have hq := hleaf (htc.trans hnone)
      rw [htp, ← hp3] at hq
      exact hq.before (.of_ports hports)
  · refine ⟨_, dissolve_runs h hn, (finish_completed _ f r i (by decide)).before (dissolved_kept hdesc), fun hf hst => ?_⟩
    obtain ⟨t, ht⟩ : ∃ t, t = (s.dissolved f).finish f r i .done := ⟨_, rfl⟩
    have hrest : t = { s.dissolved f with fns := t.fns, out := t.out } := by
      rw [ht]
      exact (hostEnds_complete ..).rest
    rw [← ht]
    refine ⟨fun c hc hcp => ?_, fun hb => ?_, fun hpass hb => ?_⟩
    · refine (dissolved_queued hf hst hc hcp).later ?_
      rw [hrest]
      exact .of_ports rfl
    · rw [hrest]
      exact dissolved_broken hf hst hb
    · rw [hrest]
      exact dissolved_waits hf hst hb hpass

end Sys2Proof.Machine
end


section
/-!
PROOFS. PROGRAM_LOAD: its checks in order, the placement, and what an accepted load leaves (R127, R213, R214).
-/
namespace Sys2Proof.Machine

/-! ### The checks -/

theorem pairsOk_iff {α : Type} {ok : α → α → Bool} {l : List α} : pairsOk ok l = true ↔ l.Pairwise fun a b => ok a b = true := by
  induction l with
  | nil => simp [pairsOk]
  | cons a l ih => simp [pairsOk, ih, List.all_eq_true]

section
variable {s : State} {f : FnId} {x : Exe} {len : Nat} {img : Option LoadImage}

theorem loadCheck_format (h : formatOk x = false ∨ s.structureOk x (imageModule img) = false) :
    s.loadCheck f x len img = .error .rejectedFormat := by
  unfold State.loadCheck
  refine if_pos ?_
  obtain h | h := h <;> simp [h]

theorem loadCheck_capability (h1 : formatOk x = true) (h2 : s.structureOk x (imageModule img) = true)
    (h : s.capsOk x (imageModule img) = false ∨ x.header.latVersion ≠ 1 ∨ s.clk.period.toNat < x.header.pcMin.toNat ∨
      x.header.pcMax.toNat < s.clk.period.toNat) : s.loadCheck f x len img = .error .rejectedCapability := by
  unfold State.loadCheck
  refine (if_neg (by simp [h1, h2])).trans (if_pos ?_)
  obtain h | h | h | h := h
  · simp [h]
  · have : (x.header.latVersion.toNat != capLatencyVer) = true := bne_iff_ne.2 fun he => h (BitVec.eq_of_toNat_eq he)
    simp [this]
  · simp [h]
  · simp [h]

theorem loadCheck_library (h1 : formatOk x = true) (h2 : s.structureOk x (imageModule img) = true)
    (h3 : s.capsOk x (imageModule img) = true) (h4 : x.header.latVersion = 1) (h5 : x.header.pcMin.toNat ≤ s.clk.period.toNat)
    (h6 : s.clk.period.toNat ≤ x.header.pcMax.toNat)
    (h : ∀ l, s.library = some l → l.abi ≠ x.header.libAbi ∨ l.manifestHash ≠ x.header.libManifest) :
    s.loadCheck f x len img = .error .rejectedLibrary := by
  have hlib : s.libraryOk x = false := by
    unfold State.libraryOk
    cases hl : s.library with
    | none => rfl
    | some l => obtain h | h := h l hl <;> simp [h]
  have hlat : (x.header.latVersion.toNat != capLatencyVer) = false := by rw [h4]; rfl
  unfold State.loadCheck
  exact (if_neg (by simp [h1, h2])).trans ((if_neg (by simp [h3, hlat, h5, h6])).trans (if_pos (by simp [hlib])))

/-- What a load that passes every check has met. -/
theorem loadCheck_ok {l : Loaded} (h : s.loadCheck f x len img = .ok l) : s.structureOk x (imageModule img) = true ∧
    s.partRuns f = false ∧ ∃ place, s.placement f x img = some place ∧ l = s.withColumns (loadedOf x img place) := by
  unfold State.loadCheck at h
  dsimp only at h
  split at h
  · exact nomatch h
  next hfs =>
  split at h
  · exact nomatch h
  split at h
  · exact nomatch h
  split at h
  · exact nomatch h
  split at h
  · exact nomatch h
  next place hplace =>
  split at h
  · exact nomatch h
  split at h
  · exact nomatch h
  split at h
  · exact nomatch h
  next hruns =>
  simp only [Bool.or_eq_true, Bool.not_eq_true', not_or, Bool.not_eq_false, Bool.not_eq_true] at hfs hruns
  exact ⟨hfs.2, hruns.1.1, place, hplace, (Except.ok.inj h).symm⟩

/-! ### The placement -/

theorem zip_fst_sublist {α β : Type} (l : List α) (m : List β) : ((l.zip m).map (·.1)).Sublist l := by
  induction l generalizing m with
  | nil => exact List.Sublist.refl _
  | cons a l ih =>
    cases m with
    | nil => exact List.nil_sublist _
    | cons b m => exact (ih m).cons_cons a

/-- A placement puts different virtual cores on different cores, all serving and of the function's partition. -/
theorem placement_ok {place : List (Nat × Nat)} (h : s.placement f x img = some place) : (place.map (·.1)).Nodup ∧
    ∀ v ∈ place, s.inPart f v.1 = true ∧ s.serving v.1 = true := by
  have hzip : ∀ (cores : List Nat) (vs : List Nat), cores.Nodup → (∀ c ∈ cores, s.inPart f c = true ∧ s.serving c = true) →
      ((cores.zip vs).map (·.1)).Nodup ∧ ∀ v ∈ cores.zip vs, s.inPart f v.1 = true ∧ s.serving v.1 = true := by
    intro cores vs hn hall
    refine ⟨?_, fun v hv => hall _ (List.of_mem_zip hv).1⟩
    exact hn.sublist (zip_fst_sublist cores vs)
  unfold State.placement at h
  split at h
  · dsimp only at h
    rw [Option.ite_none_right_eq_some] at h
    · obtain rfl := Option.some.inj h.2
      refine hzip _ _ ((List.nodup_range.filter _).sublist (List.take_sublist _ _)) fun c hc => ?_
      have := (List.mem_filter.1 (List.mem_of_mem_take hc)).2
      unfold State.available at this
      simp only [Bool.and_eq_true] at this
      exact this.1
  · dsimp only at h
    rw [Option.ite_none_right_eq_some] at h
    · obtain ⟨hright, h⟩ := h
      obtain rfl := Option.some.inj h
      simp only [Bool.and_eq_true, List.all_eq_true] at hright
      obtain ⟨⟨⟨-, hpairs⟩, -⟩, hall⟩ := hright
      refine hzip _ _ ?_ fun c hc => (hall c hc).1
      exact (pairsOk_iff.1 hpairs).imp fun h => by simpa using h

/-- No virtual core has more than 24,576 words. -/
theorem wordsOf_length (h : s.structureOk x (imageModule img) = true) (v : Nat) : (Exe.wordsOf x v).length ≤ 24576 := by
  have hshape : shapeOk x = true := by
    unfold State.structureOk at h
    simp only [Bool.and_eq_true] at h
    exact h.1.1.1.1.1.1
  have hsum : ∀ l : List (List W64), l.flatten.length = (l.map List.length).foldl (· + ·) 0 := by
    intro l
    rw [List.length_flatten, ← List.sum_eq_foldl]
  rw [Exe.wordsOf, hsum]
  by_cases hv : v < x.streams.length
  · unfold shapeOk at hshape
    rw [Bool.and_eq_true, List.all_eq_true] at hshape
    simpa using hshape.2 v (List.mem_range.2 hv)
  · rw [Exe.streamsOf, List.getElem?_eq_none (by omega)]
    decide

end

/-! ### What an accepted load leaves -/

theorem memGet_memPut_other (m : List Host.Cell) {a b n : Nat} {bs : List Byte} (h : b + n ≤ a ∨ a + bs.length ≤ b) :
    memGet (memPut m a bs) b n = memGet m b n := by
  rw [memGet_eq, memGet_eq]
  refine List.map_congr_left fun i hi => memPut_outside m a bs (b + i) ?_
  have := List.mem_range.1 hi
  omega

/-- The bytes of a virtual core's streams. -/
def streamBytes (l : Loaded) (v : Nat) : List Byte := (Exe.wordsOf l.exe v).flatMap fun w => leBytes 8 w.toNat

theorem streamBytes_length (l : Loaded) (v : Nat) : (streamBytes l v).length = 8 * (Exe.wordsOf l.exe v).length := by
  unfold streamBytes
  induction Exe.wordsOf l.exe v with
  | nil => rfl
  | cons w ws ih =>
    rw [List.flatMap_cons, List.length_append, ih, leBytes_length, List.length_cons]
    omega

section
variable {s : State} {f : FnId} {l : Loaded}

/-- One core's streams enter its program region. -/
def State.writeStream (l : Loaded) (s : State) (cv : Nat × Nat) : State :=
  (s.writeNow (absAddr 3 cv.1 0) (streamBytes l cv.2)).clearEcc 3 (absAddr 3 cv.1 0) (streamBytes l cv.2).length

theorem writeStreams_eq : s.writeStreams l = l.place.foldl (State.writeStream l) s := rfl

theorem writeStreams_kept : HostKept s (s.writeStreams l) :=
  HostKept.foldl l.place s (State.writeStream l) fun _ _ => .of_eq rfl rfl rfl rfl

theorem writeStreams_fns : (s.writeStreams l).fns = s.fns :=
  List.foldlRecOn (motive := fun u : State => u.fns = s.fns) l.place (State.writeStream l) rfl fun _ hu _ _ => hu

/-- Every placed core's program region holds the streams of its virtual core. -/
theorem writeStreams_holds (hlen : ∀ v, (Exe.wordsOf l.exe v).length ≤ 24576) {place : List (Nat × Nat)} (hn : (place.map (·.1)).Nodup)
    (s : State) : ∀ v ∈ place, memGet (place.foldl (State.writeStream l) s).mem (absAddr 3 v.1 0) (streamBytes l v.2).length = streamBytes l v.2 := by
  have hsmall : ∀ v, (streamBytes l v).length ≤ 196608 := fun v => by
    rw [streamBytes_length]
    have := hlen v
    omega
  have hother : ∀ (place : List (Nat × Nat)) (s : State) (v : Nat × Nat), v.1 ∉ place.map (·.1) →
      memGet (place.foldl (State.writeStream l) s).mem (absAddr 3 v.1 0) (streamBytes l v.2).length =
        memGet s.mem (absAddr 3 v.1 0) (streamBytes l v.2).length := by
    intro place s v hv
    refine List.foldlRecOn (motive := fun u : State => memGet u.mem (absAddr 3 v.1 0) (streamBytes l v.2).length =
      memGet s.mem (absAddr 3 v.1 0) (streamBytes l v.2).length) _ _ rfl fun u hu w hw => Eq.trans ?_ hu
    refine memGet_memPut_other u.mem ?_
    have hne : w.1 ≠ v.1 := fun he => hv (he ▸ List.mem_map.2 ⟨w, hw, rfl⟩)
    have h1 := hsmall v.2
    have h2 := hsmall w.2
    unfold absAddr
    omega
  induction place generalizing s with
  | nil => exact fun v hv => nomatch hv
  | cons w place ih =>
    obtain ⟨hfirst, hn⟩ := List.nodup_cons.1 hn
    intro v hv
    rw [List.foldl_cons]
    obtain rfl | hv := List.mem_cons.1 hv
    · rw [hother place _ v hfirst]
      exact memGet_memPut s.mem _ _
    · exact ih hn _ v hv

theorem logClamp_kept (s : State) (f : FnId) (lsb w a : Nat) : HostKept s (s.logClamp f lsb w a) := by
  unfold State.logClamp
  split
  · exact .refl s
  · unfold State.logField
    dsimp only
    refine HostKept.trans ?_ (hostKept_logTo ..)
    refine HostKept.trans (t := (s.draw 0x138).2) (.of_eq rfl rfl rfl rfl) ?_
    exact hostKept_updFn _ _ _ fun _ => ⟨rfl, rfl, rfl⟩

theorem interrupt_mem (s : State) (f : FnId) (v : Fin 128) : (s.interrupt f v).mem = s.mem := by
  unfold State.interrupt
  dsimp only
  split
  · rfl
  · split <;> rfl

theorem logTo_mem (s : State) (f : FnId) (ty cause : Byte) (b : List Byte) : (s.logTo f ty cause b).mem = s.mem := by
  unfold State.logTo
  split
  · rfl
  · exact interrupt_mem ..

theorem logTo_held (s : State) (f : FnId) (ty cause : Byte) (b : List Byte) : FnsHeld s (s.logTo f ty cause b) := by
  unfold State.logTo
  split
  · exact ⟨fun _ => rfl, fun _ => rfl, fun _ => rfl⟩
  · next r _ =>
    refine FnsHeld.trans (FnsHeld.trans ?_ (fnsHeld_emit ..)) (fnsHeld_interrupt ..)
    exact fnsHeld_updFn s f.val (fun u => { u with log := some { r with seq := r.seq + 1 } }) ⟨rfl, rfl, rfl⟩

theorem logClamp_leaves (s : State) (f : FnId) (lsb w a : Nat) : (s.logClamp f lsb w a).mem = s.mem ∧ FnsHeld s (s.logClamp f lsb w a) := by
  unfold State.logClamp
  split
  · exact ⟨rfl, .refl s⟩
  · unfold State.logField
    dsimp only
    refine ⟨logTo_mem .., FnsHeld.trans ?_ (logTo_held ..)⟩
    refine FnsHeld.trans (t := (s.draw 0x138).2) ⟨fun _ => rfl, fun _ => rfl, fun _ => rfl⟩ ?_
    exact fnsHeld_updFn _ _ _ ⟨rfl, rfl, rfl⟩

/-- With no generation LOADING, uncommitting shards ends no descriptor. -/
theorem uncommit_kept (hload : ∀ g ∈ (s.fn f.val).gens, g.state ≠ .loading) (bad : Gen → ShardEntry → Bool) (scrub : Bool) :
    HostKept s (s.uncommit f bad scrub) := by
  unfold State.uncommit
  dsimp only
  obtain ⟨u, hu⟩ : ∃ u : State, u = s.updFn f.val fun u => { u with gens := (s.fn f.val).gens.map fun g => g.uncommit (bad g) scrub } := ⟨_, rfl⟩
  have hfirst : HostKept s u := by
    rw [hu]
    exact hostKept_updFn s f.val _ fun _ => ⟨rfl, rfl, rfl⟩
  rw [← hu]
  refine List.foldlRecOn (motive := fun v : State => HostKept s v) _ _ hfirst fun v hv gn hgn => ?_
  have hne : gn.1.state ≠ .loading := hload _ (List.of_mem_zip hgn).1
  have htrace : HostKept s (v.traceGen f gn.1.gen gn.1.state gn.2.state) := by
    refine hv.trans ?_
    unfold State.traceGen
    split
    · exact .refl v
    · exact hostKept_traceTo ..
  rw [if_neg (by simp [hne])]
  exact htrace

theorem startScrub_kept (s : State) (f : FnId) (space : Nat) : HostKept s (s.startScrub f space) := by
  unfold State.startScrub
  dsimp only
  split
  · exact .refl s
  · exact .of_eq rfl rfl rfl rfl

/-- The state of a load before its streams are written. -/
def State.replacing (s : State) (f : FnId) (l : Loaded) : State :=
  let s := s.uncommit f (movedShard l) false
  let s := if (s.loaded f).isSome then (s.startScrub f 1).startScrub f 2 else s
  s.updFn f.val fun u => { u with exe := some l }

theorem install_leaves (hload : ∀ g ∈ (s.fn f.val).gens, g.state ≠ .loading) : HostKept s (s.install f l) ∧
    ((s.install f l).fn f.val).exe = some l ∧ (s.install f l).mem = ((s.replacing f l).writeStreams l).mem := by
  obtain ⟨u, hu⟩ : ∃ u, u = (s.replacing f l).writeStreams l := ⟨_, rfl⟩
  have hrun : s.install f l = ((u.logClamp f 0 l.exe.header.stall.toNat l.stall).logClamp f 0 l.exe.header.grace.toNat l.grace).logClamp f 0
      l.exe.header.passLimit.toNat l.passLimit := by
    rw [hu]
    rfl
  have hkept : HostKept s u := by
    rw [hu]
    refine HostKept.trans ?_ writeStreams_kept
    unfold State.replacing
    refine (uncommit_kept hload (movedShard l) false).trans (HostKept.trans ?_ (hostKept_updFn _ _ _ fun _ => ⟨rfl, rfl, rfl⟩))
    split
    · exact (startScrub_kept ..).trans (startScrub_kept ..)
    · exact .refl _
  have hexe : (u.fn f.val).exe = some l := by
    rw [hu, State.fn, writeStreams_fns]
    exact congrArg Func.exe (State.fn_updFn_same _ f.val fun u => { u with exe := some l })
  obtain ⟨m1, h1⟩ := logClamp_leaves u f 0 l.exe.header.stall.toNat l.stall
  obtain ⟨m2, h2⟩ := logClamp_leaves (u.logClamp f 0 l.exe.header.stall.toNat l.stall) f 0 l.exe.header.grace.toNat l.grace
  obtain ⟨m3, h3⟩ := logClamp_leaves ((u.logClamp f 0 l.exe.header.stall.toNat l.stall).logClamp f 0 l.exe.header.grace.toNat l.grace) f 0
    l.exe.header.passLimit.toNat l.passLimit
  rw [hrun]
  exact ⟨((hkept.trans (logClamp_kept ..)).trans (logClamp_kept ..)).trans (logClamp_kept ..),
    (((h1.trans h2).trans h3).exe _).trans hexe, by rw [m3, m2, m1, hu]⟩

end

/-- Settles O45: PROGRAM_LOAD ends with the status of the first check that fails, and a load that passes them all places its
executable and writes its streams. -/
theorem programLoad : Obligations.ProgramLoad := by
  unfold Obligations.ProgramLoad
  intro s f r i d x img h hfile himg hinv hload vm
  obtain ⟨info, hinfo⟩ : ∃ info : CplInfo, info = { CplInfo.plain with summary := (Exe.hash x).setWidth 64 } := ⟨_, rfl⟩
  have hform : ¬(x.file.length ≠ dfld d.desc 24 8 ∨ img.isNone ≠ (dfld d.desc 40 4 == 0)) := by
    have : img.isNone = (dfld d.desc 40 4 == 0) := Bool.eq_iff_iff.2 (by rw [Option.isNone_iff_eq_none, himg, beq_iff_eq])
    simp [hfile, this]
  have herror : ∀ st, s.loadCheck f x (dfld d.desc 40 4) img = .error st → exec (.programLoad f r i x img) s =
      .next (s.complete f r i st info) := by
    intro st hst
    show execProgramLoad f r i x img s = _
    unfold execProgramLoad
    rw [h]
    dsimp only
    rw [if_neg hform, hst, hinfo]
  have hends : ∀ st, st ≠ .duplicate → s.loadCheck f x (dfld d.desc 40 4) img = .error st →
      ∃ t, exec (.programLoad f r i x img) s = .next t ∧ Completed s t f r i st ∧ (t.fn f.val).exe = (s.fn f.val).exe :=
    fun st hd hst => ⟨_, herror st hst, complete_completed hd info, (fnsHeld_complete ..).exe _⟩
  refine ⟨fun hbad => hends _ (by decide) (loadCheck_format hbad), fun h1 h2 => ⟨fun hbad => hends _ (by decide) (loadCheck_capability h1 h2 hbad),
    fun h3 h4 h5 h6 hlib => ?_⟩, fun hst => hends _ (by decide) hst, fun l hl => ?_⟩
  · obtain ⟨t, ht, hc, -⟩ := hends .rejectedLibrary (by decide) (loadCheck_library h1 h2 h3 h4 h5 h6 hlib)
    exact ⟨t, ht, hc⟩
  · obtain ⟨hstructure, hruns, place, hplace, rfl⟩ := loadCheck_ok hl
    obtain ⟨hnodup, hmembers⟩ := placement_ok hplace
    obtain ⟨l, hleq⟩ : ∃ l, l = s.withColumns (loadedOf x img place) := ⟨_, rfl⟩
    have hlexe : l.exe = x ∧ l.place = place ∧ l.stall = max 256 (min (2 ^ 24) x.header.stall.toNat) ∧
        l.grace = min 1024 x.header.grace.toNat ∧ l.passLimit = max 1000 (min 1000000 x.header.passLimit.toNat) := by
      rw [hleq]
      exact ⟨rfl, rfl, rfl, rfl, rfl⟩
    rw [← hleq] at hl ⊢
    obtain ⟨hexe, hpl, hstall, hgrace, hpass⟩ := hlexe
    obtain ⟨hkept, hinst, hmem⟩ := install_leaves (s := s) (f := f) (l := l) hload
    have hrun : exec (.programLoad f r i x img) s = .next ((s.install f l).complete f r i .done info) := by
      show execProgramLoad f r i x img s = _
      unfold execProgramLoad
      rw [h]
      dsimp only
      rw [if_neg hform, hl, hinfo]
    have hlen : ∀ v, (Exe.wordsOf l.exe v).length ≤ 24576 := fun v => by
      rw [hexe]
      exact wordsOf_length hstructure v
    refine ⟨hruns, _, hrun, (complete_completed (by decide) info).before hkept, ?_, hexe, ?_, ?_, ?_, ?_, ?_, fun v hv => ?_⟩
    · rw [(fnsHeld_complete ..).exe]
      exact hinst
    · omega
    · omega
    · omega
    · omega
    · omega
    · rw [hpl] at hv
      obtain ⟨hpart, hserving⟩ := hmembers v hv
      refine ⟨hpart, hserving, ?_⟩
      have hholds := writeStreams_holds hlen hnodup (s.replacing f l) v hv
      rw [streamBytes_length] at hholds
      have hmem' : ((s.install f l).complete f r i .done info).mem = (place.foldl (State.writeStream l) (s.replacing f l)).mem := by
        rw [(hostEnds_complete ..).rest]
        exact hmem.trans (by rw [writeStreams_eq, hpl])
      rw [hmem', ← hexe]
      exact hholds

end Sys2Proof.Machine
end


section
/-!
PROOFS. Passes are admitted, loaded and agreed (R218, R309, R310, R330, R346).
-/
namespace Sys2Proof.Machine

/-! ### The end of a pass -/

section
variable {s : State}

theorem traceGen_kept (s : State) (f : FnId) (g : W32) (old new : GenState) : HostKept s (s.traceGen f g old new) := by
  unfold State.traceGen
  split
  · exact .refl s
  · exact hostKept_traceTo ..

theorem retireOld_kept (s : State) (f : FnId) : HostKept s (s.retireOld f) := by
  unfold State.retireOld
  dsimp only
  refine HostKept.trans ?_ (HostKept.foldl _ _ _ fun u g => traceGen_kept u f g.gen g.state .retired)
  exact hostKept_updFn s f.val _ fun _ => ⟨rfl, rfl, rfl⟩

theorem settlePreempt_ended (s : State) (f : FnId) : HostEnds s (s.settlePreempt f) := by
  unfold State.settlePreempt
  dsimp only
  split
  · split
    · exact hostEnds_complete ..
    · exact .refl s
  · exact .refl s

theorem setPassState_kept (s : State) (k : Nat) (st : PassState) : HostKept s (s.setPassState k st) := by
  unfold State.setPassState
  split
  · exact .refl s
  · refine HostKept.trans ?_ (hostKept_traceTo ..)
    exact .of_eq rfl rfl rfl rfl

/-- A pass that completes is gone, and its descriptor has ended with its status. -/
theorem completePass_completed {k : Nat} {q : Pass} (hq : s.pass k = some q) {st : Status} (hst : st ≠ .duplicate) (summary : W64) (cert : Bool) :
    (s.completePass k st summary cert).pass k = none ∧ Completed s (s.completePass k st summary cert) q.fn q.ring q.index st := by
  have hcount : ∀ u : State, HostKept u (if !q.agreed then u
      else if q.multi then { u with skein := { u.skein with passNo := u.skein.passNo + 1 } }
      else u.updFn q.fn.val fun u => { u with passNo := u.passNo + 1 }) := by
    intro u
    split
    · exact .refl u
    · split
      · exact .of_eq rfl rfl rfl rfl
      · exact hostKept_updFn u _ _ fun _ => ⟨rfl, rfl, rfl⟩
  obtain ⟨u, hu⟩ : ∃ u, u = s.ceased k q st summary cert := ⟨_, rfl⟩
  have hceased : Completed s u q.fn q.ring q.index st := by
    rw [hu]
    refine Completed.after (t := s.completing k q st summary cert) ?_ (.of_eq rfl rfl rfl rfl)
    refine Completed.before (setPassState_kept s k .complete) (Completed.before (hcount _) ?_)
    exact complete_completed hst _
  have hgone : u.pass k = none := by
    rw [hu]
    exact AMap.get_set_same (none : Option Pass) (s.completing k q st summary cert).passes k none
  rw [completePass_some hq, ← hu]
  refine ⟨by rw [State.pass, afterPass_passes]; exact hgone, ?_⟩
  unfold State.afterPass
  refine Completed.later ?_ (settlePreempt_ended _ _)
  have hretired : HostKept u ((u.updFn q.fn.val fun u => { u with account := u.account + q.frames }).retireOld q.fn) :=
    HostKept.trans (hostKept_updFn u q.fn.val (fun u => { u with account := u.account + q.frames }) fun _ => ⟨rfl, rfl, rfl⟩)
      (retireOld_kept _ _)
  split
  · exact (hceased.after hretired).after (leaveSkein_kept _)
  · exact hceased.after hretired

end

/-! ### Admission -/

/-- The smaller of two ratios, by cross multiplication. -/
theorem ratio_trans {a b c x y z : Nat} (h1 : a * y ≤ b * x) (h2 : b * z ≤ c * y) (hy : 0 < y) : a * z ≤ c * x := by
  refine Nat.le_of_mul_le_mul_right ?_ hy
  calc a * z * y = a * y * z := by ring
    _ ≤ b * x * z := Nat.mul_le_mul_right _ h1
    _ = b * z * x := by ring
    _ ≤ c * y * x := Nat.mul_le_mul_right _ h2
    _ = c * x * y := by ring

/-- The one of two functions whose ratio is smaller. -/
def lesser (a w : FnId → Nat) (m : Option FnId) (f : FnId) : Option FnId :=
  match m with
  | none => some f
  | some g => if a f * w g < a g * w f then some f else some g

/-- What a fold over functions finds has the smallest ratio. -/
theorem lesser_least {a w : FnId → Nat} {l : List FnId} (hl : ∀ g ∈ l, 0 < w g) {m : Option FnId} (hm : ∀ g ∈ m, 0 < w g) {f : FnId}
    (hf : l.foldl (lesser a w) m = some f) : (∀ g ∈ m, a f * w g ≤ a g * w f) ∧ ∀ g ∈ l, a f * w g ≤ a g * w f := by
  induction l generalizing m with
  | nil =>
    obtain rfl : m = some f := hf
    exact ⟨fun g hg => by obtain rfl := Option.some.inj hg; exact le_refl _, fun g hg => nomatch hg⟩
  | cons x l ih =>
    have hx : 0 < w x := hl x List.mem_cons_self
    have hl' : ∀ g ∈ l, 0 < w g := fun g hg => hl g (List.mem_cons_of_mem _ hg)
    rw [List.foldl_cons] at hf
    cases m with
    | none =>
      obtain ⟨h1, h2⟩ := ih hl' (m := some x) (fun g hg => by obtain rfl := Option.some.inj hg; exact hx) hf
      exact ⟨fun g hg => (nomatch hg), fun g hg => (List.mem_cons.1 hg).elim (fun h => h ▸ h1 x rfl) (h2 g)⟩
    | some y =>
      have hy : 0 < w y := hm y rfl
      rw [lesser] at hf
      by_cases hlt : a x * w y < a y * w x
      · rw [if_pos hlt] at hf
        obtain ⟨h1, h2⟩ := ih hl' (m := some x) (fun g hg => by obtain rfl := Option.some.inj hg; exact hx) hf
        have hfx := h1 x rfl
        refine ⟨fun g hg => ?_, fun g hg => (List.mem_cons.1 hg).elim (fun h => h ▸ hfx) (h2 g)⟩
        obtain rfl := Option.some.inj hg
        exact ratio_trans hfx hlt.le hx
      · rw [if_neg hlt] at hf
        obtain ⟨h1, h2⟩ := ih hl' (m := some y) (fun g hg => by obtain rfl := Option.some.inj hg; exact hy) hf
        have hfy := h1 y rfl
        exact ⟨fun g hg => by obtain rfl := Option.some.inj hg; exact hfy,
          fun g hg => (List.mem_cons.1 hg).elim (fun h => h ▸ ratio_trans hfy (not_lt.1 hlt) hy) (h2 g)⟩

section
variable {s : State} {p : PartId} {f : FnId}

theorem nextFn_least (h : s.nextFn p = some f) (hw : ∀ g ∈ s.admissible p, 0 < fld (s.fn g.val).qos 0 8) : ∀ g ∈ s.admissible p,
    (s.fn f.val).account * fld (s.fn g.val).qos 0 8 ≤ (s.fn g.val).account * fld (s.fn f.val).qos 0 8 := by
  have hrun : s.nextFn p = (s.admissible p).foldl (lesser (fun g => (s.fn g.val).account) fun g => fld (s.fn g.val).qos 0 8) none := by
    unfold State.nextFn
    congr 1
  exact (lesser_least hw (m := none) (fun g hg => nomatch hg) (hrun.symm.trans h)).2

variable {k : Nat} {n : Pass} {l : Loaded} (hup : s.up = true) (ha : s.admits p = true) (hn : s.nextFn p = some f)
  (hq : s.queuedPass f = some (k, n)) (hl : s.loaded f = some l) (htakes : s.skeinTakes f l.exe = true) (hen : (s.func f).enable = true)
include hup ha hn hq hl htakes hen

theorem passAdmit_runs : execPassAdmit p s = .next (
    if !((s.memberCores f).all s.serving) then s.completePass k .rejectedState 0 false
    else match s.pinned f l.exe with
      | none => s.completePass k .rejectedGeneration 0 false
      | some (g, copy) => (s.updPass k fun q => { q with gen := g, copy := copy, admittedAt := s.clk.timebase }).setPassState k .admitted) := by
  unfold execPassAdmit
  rw [hup, ha, Bool.and_true, if_pos rfl, hn]
  dsimp only
  rw [hq, hl]
  dsimp only
  rw [htakes, hen]
  simp only [Bool.not_true, Bool.or_false]
  split
  · rfl
  · cases s.pinned f l.exe <;> rfl

end

theorem pass_setState {s : State} {k : Nat} {q : Pass} (h : s.pass k = some q) (st : PassState) :
    (s.setPassState k st).pass k = some { q with state := st } := by
  unfold State.setPassState
  rw [h]
  dsimp only
  rw [State.pass, traceTo_passes]
  exact State.pass_setPass_same _ _ _

theorem pass_updPass {s : State} {k : Nat} {q : Pass} (h : s.pass k = some q) (g : Pass → Pass) : (s.updPass k g).pass k = some (g q) := by
  unfold State.updPass
  rw [h]
  exact State.pass_setPass_same _ _ _

/-! ### Inputs and images -/

/-- The state with other memory contents and marks. -/
def State.holding (s : State) (m : List Host.Cell) (e : AMap EccMark) : State := { s with mem := m, ecc := e }

section
variable {s : State} {f : FnId} {l : Loaded} {m : List Host.Cell} {e : AMap EccMark}

theorem bring_holds (hw : NoWrites s) (c space abs : Nat) (data : List Byte) :
    ∃ e', (s.holding m e).bring c space abs data = s.holding (memPut m abs data) e' := by
  have hsettle : (s.holding m e).settleAll c = s.holding m e := settleAll_none (hw c)
  unfold State.bring
  rw [hsettle]
  exact ⟨_, rfl⟩

theorem resolve_holding (a : MAddr) (n : Nat) : (s.holding m e).resolve f a n = s.resolve f a n := rfl

/-- An input, with the check of its address given. -/
def State.bringVia (s : State) (k : Nat) (l : Loaded) (x : InputEntry) (data : List Byte) (check : MAddr → Nat → Except Byte (Nat × Nat)) :
    State :=
  match l.coreOf x.vcore with
  | none => s
  | some c =>
    match check (BitVec.ofNat 48 (absAddr x.space c x.offset)) data.length with
    | .ok (_, abs) => s.bring c x.space abs data
    | .error d => s.raise (.core' c) .accessDenied d (some k)

theorem bringInput_eq (s : State) (k : Nat) (x : InputEntry) (data : List Byte) :
    s.bringInput k f l x data = s.bringVia k l x data (s.resolve f) := rfl

theorem bringVia_ok {k c v abs : Nat} {x : InputEntry} {data : List Byte} {check : MAddr → Nat → Except Byte (Nat × Nat)}
    (hc : l.coreOf x.vcore = some c) (hr : check (BitVec.ofNat 48 (absAddr x.space c x.offset)) data.length = .ok (v, abs)) :
    s.bringVia k l x data check = s.bring c x.space abs data := by
  unfold State.bringVia
  rw [hc]
  dsimp only
  rw [hr]

theorem bringVia_none {k : Nat} {x : InputEntry} {data : List Byte} {check : MAddr → Nat → Except Byte (Nat × Nat)}
    (hc : l.coreOf x.vcore = none) : s.bringVia k l x data check = s := by
  unfold State.bringVia
  rw [hc]

theorem bringInput_holds (hw : NoWrites s) (k : Nat) {x : InputEntry} {data : List Byte} (hlen : data.length = x.length)
    (hok : ∀ c, l.coreOf x.vcore = some c → ∃ v, s.resolve f (BitVec.ofNat 48 (absAddr x.space c x.offset)) x.length = .ok v) :
    ∃ m' e', (s.holding m e).bringInput k f l x data = s.holding m' e' := by
  rw [bringInput_eq]
  cases hc : l.coreOf x.vcore with
  | none => exact ⟨m, e, bringVia_none hc⟩
  | some c =>
    obtain ⟨⟨v, abs⟩, hv⟩ := hok c hc
    obtain ⟨e', he⟩ := bring_holds (m := m) (e := e) hw c x.space abs data
    exact ⟨_, e', (bringVia_ok hc (by rw [resolve_holding, hlen, hv])).trans he⟩

theorem bringInputs_hold (hw : NoWrites s) (k : Nat) {xs : List InputEntry} {ins : List (List Byte)}
    (hlen : ins.map List.length = xs.map InputEntry.length) (hok : ∀ x ∈ xs, ∀ c, l.coreOf x.vcore = some c →
      ∃ v, s.resolve f (BitVec.ofNat 48 (absAddr x.space c x.offset)) x.length = .ok v) (m : List Host.Cell) (e : AMap EccMark) :
    ∃ m' e', (xs.zip ins).foldl (fun s e => s.bringInput k f l e.1 e.2) (s.holding m e) = s.holding m' e' := by
  induction xs generalizing ins m e with
  | nil => exact ⟨m, e, rfl⟩
  | cons x xs ih =>
    cases ins with
    | nil => exact ⟨m, e, rfl⟩
    | cons d ins =>
      simp only [List.map_cons, List.cons.injEq] at hlen
      obtain ⟨m1, e1, h1⟩ := bringInput_holds (m := m) (e := e) hw k hlen.1 (hok x List.mem_cons_self)
      rw [List.zip_cons_cons, List.foldl_cons, h1]
      exact ih hlen.2 (fun y hy => hok y (List.mem_cons_of_mem _ hy)) m1 e1

/-- The entry of the image section may land. -/
def imageGood (s : State) (f : FnId) (l : Loaded) (x : ImageEntry) : Prop :=
  (l.coreOf x.vcore).isSome = true ∧ x.pastEnd = false ∧ (x.space = 1 ∨ x.space = 2) ∧ x.offset + x.data.length ≤ (s.regionOf f x.space).2

/-- Address of an entry of the image section. -/
def imageAt (s : State) (f : FnId) (l : Loaded) (x : ImageEntry) : Nat :=
  absAddr x.space ((l.coreOf x.vcore).getD 0) ((s.regionOf f x.space).1 + x.offset)

theorem bringImages_good (hw : NoWrites s) {x : ImageEntry} (hx : imageGood s f l x) (t : List ImageEntry) :
    ∃ e', (s.holding m e).bringImages f l (x :: t) = (s.holding (memPut m (imageAt s f l x) x.data) e').bringImages f l t := by
  obtain ⟨hcore, hend, hsp, hsize⟩ := hx
  obtain ⟨c, hc⟩ := Option.isSome_iff_exists.1 hcore
  have hreg : (s.holding m e).regionOf f x.space = ((s.regionOf f x.space).1, (s.regionOf f x.space).2) := rfl
  obtain ⟨e', he⟩ := bring_holds (m := m) (e := e) hw c x.space (absAddr x.space c ((s.regionOf f x.space).1 + x.offset)) x.data
  have hgo : ¬(x.pastEnd || !(x.space == 1 || x.space == 2) || decide ((s.regionOf f x.space).2 < x.offset + x.data.length)) = true := by
    have : (x.space == 1 || x.space == 2) = true := by simpa using hsp
    simp [hend, this, hsize]
  refine ⟨e', ?_⟩
  rw [State.bringImages, hreg]
  dsimp only
  rw [hc]
  dsimp only
  rw [if_neg hgo, he, imageAt, hc]
  rfl

theorem bringImages_bad (x : ImageEntry) (hx : ¬imageGood s f l x) (t : List ImageEntry) :
    (s.holding m e).bringImages f l (x :: t) = (s.holding m e, false) := by
  have hreg : (s.holding m e).regionOf f x.space = ((s.regionOf f x.space).1, (s.regionOf f x.space).2) := rfl
  rw [State.bringImages, hreg]
  dsimp only
  cases hc : l.coreOf x.vcore with
  | none => rfl
  | some c =>
    refine if_pos ?_
    by_contra hno
    simp only [Bool.or_eq_true, Bool.not_eq_true', decide_eq_true_eq, not_or, Bool.not_eq_true, Bool.not_eq_false, not_lt] at hno
    obtain ⟨⟨hend, hsp⟩, hsize⟩ := hno
    exact hx ⟨by rw [hc]; rfl, hend, by simpa using hsp, hsize⟩

/-- Entries that may all land do, in their order. -/
theorem bringImages_all (hw : NoWrites s) {xs : List ImageEntry} (hx : ∀ x ∈ xs, imageGood s f l x) (m : List Host.Cell) (e : AMap EccMark) :
    ∃ e', (s.holding m e).bringImages f l xs =
      (s.holding (xs.foldl (fun m x => memPut m (imageAt s f l x) x.data) m) e', true) := by
  induction xs generalizing m e with
  | nil => exact ⟨e, rfl⟩
  | cons x xs ih =>
    obtain ⟨e1, h1⟩ := bringImages_good (m := m) (e := e) hw (hx x List.mem_cons_self) xs
    obtain ⟨e2, h2⟩ := ih (fun y hy => hx y (List.mem_cons_of_mem _ hy)) (memPut m (imageAt s f l x) x.data) e1
    exact ⟨e2, h1.trans h2⟩

/-- One that may not land ends them. -/
theorem bringImages_some (hw : NoWrites s) {xs : List ImageEntry} (hx : ∃ x ∈ xs, ¬imageGood s f l x) (m : List Host.Cell) (e : AMap EccMark) :
    ∃ m' e', (s.holding m e).bringImages f l xs = (s.holding m' e', false) := by
  induction xs generalizing m e with
  | nil =>
    obtain ⟨x, hmem, -⟩ := hx
    exact nomatch hmem
  | cons x xs ih =>
    by_cases hg : imageGood s f l x
    · obtain ⟨e1, h1⟩ := bringImages_good (m := m) (e := e) hw hg xs
      obtain ⟨y, hmem, hy⟩ := hx
      have hrest : ∃ x ∈ xs, ¬imageGood s f l x := by
        obtain rfl | hmem := List.mem_cons.1 hmem
        · exact absurd hg hy
        · exact ⟨y, hmem, hy⟩
      obtain ⟨m2, e2, h2⟩ := ih hrest (memPut m (imageAt s f l x) x.data) e1
      exact ⟨m2, e2, h1.trans h2⟩
    · exact ⟨m, e, bringImages_bad x hg xs⟩

/-- A later entry elsewhere leaves an entry's bytes. -/
theorem images_get (hplace : ∀ v ∈ l.place, v.1 < 1728) {pre post : List ImageEntry} {x : ImageEntry} {c : Nat}
    (hg : ∀ y ∈ pre ++ x :: post, imageGood s f l y) (hc : l.coreOf x.vcore = some c)
    (ho : ∀ o ∈ post, l.coreOf o.vcore ≠ some c ∨ o.space ≠ x.space ∨ x.offset + x.data.length ≤ o.offset ∨
      o.offset + o.data.length ≤ x.offset) (m : List Host.Cell) :
    memGet ((pre ++ x :: post).foldl (fun m x => memPut m (imageAt s f l x) x.data) m)
      (absAddr x.space c ((s.regionOf f x.space).1 + x.offset)) x.data.length = x.data := by
  have hsmall : ∀ sp, sp = 1 ∨ sp = 2 → (s.regionOf f sp).1 < 2 ^ 30 ∧ (s.regionOf f sp).2 < 2 ^ 30 := by
    rintro sp (rfl | rfl)
    · have h1 := fld_lt (s.reg 0 (.setFunc f)) 8 6
      have h2 := fld_lt (s.reg 0 (.setFunc f)) 14 6
      exact ⟨by show fld (s.reg 0 (.setFunc f)) 8 6 * 0x10000 < 2 ^ 30; omega, by show fld (s.reg 0 (.setFunc f)) 14 6 * 0x10000 < 2 ^ 30; omega⟩
    · have h1 := fld_lt (s.reg 0 (.setFunc f)) 20 6
      have h2 := fld_lt (s.reg 0 (.setFunc f)) 26 6
      exact ⟨by show fld (s.reg 0 (.setFunc f)) 20 6 * 0x4000 < 2 ^ 30; omega, by show fld (s.reg 0 (.setFunc f)) 26 6 * 0x4000 < 2 ^ 30; omega⟩
  have hcore : ∀ v c, l.coreOf v = some c → c < 1728 := by
    intro v c h
    unfold Loaded.coreOf at h
    obtain ⟨w, hw, rfl⟩ := Option.map_eq_some_iff.1 h
    exact hplace w (List.mem_of_find?_eq_some hw)
  have hat : imageAt s f l x = absAddr x.space c ((s.regionOf f x.space).1 + x.offset) := by rw [imageAt, hc]; rfl
  obtain ⟨-, -, hxsp, hxsize⟩ := hg x (List.mem_append_right _ List.mem_cons_self)
  rw [List.foldl_append, List.foldl_cons, ← hat]
  refine List.foldlRecOn (motive := fun m => memGet m (imageAt s f l x) x.data.length = x.data) post _ (memGet_memPut _ _ _)
    fun m' hm' o ho' => Eq.trans ?_ hm'
  obtain ⟨hosome, -, hosp, hosize⟩ := hg o (List.mem_append_right _ (List.mem_cons_of_mem _ ho'))
  obtain ⟨c', hc'⟩ := Option.isSome_iff_exists.1 hosome
  have hoat : imageAt s f l o = absAddr o.space c' ((s.regionOf f o.space).1 + o.offset) := by rw [imageAt, hc']; rfl
  refine memGet_memPut_other m' ?_
  have h1 := hcore _ _ hc
  have h2 := hcore _ _ hc'
  have h3 := hsmall x.space hxsp
  have h4 := hsmall o.space hosp
  have h5 := ho o ho'
  rw [hc', ne_eq, Option.some.injEq] at h5
  rw [hat, hoat]
  unfold absAddr
  by_cases hsp : o.space = x.space
  · rw [hsp] at h4 hosize ⊢
    omega
  · have : x.space = 1 ∧ o.space = 2 ∨ x.space = 2 ∧ o.space = 1 := by omega
    omega

end

section
variable {s : State} {f : FnId} {k : Nat} {q : Pass} {l : Loaded}

/-- What MEMORY_IMAGE_LOAD leaves when every input may land. -/
theorem memoryImageLoad_runs (hcur : s.curPass f = some (k, q)) (hl : s.loaded f = some l) (hst : q.state = .admitted) (hload : q.loaded = false)
    {ins : List (List Byte)} {images : List ImageEntry} (hins : ins.map List.length = l.exe.inputs.map InputEntry.length) {u v : State} {good : Bool}
    (hu : (l.exe.inputs.zip ins).foldl (fun s e => s.bringInput k f l e.1 e.2) s = u) (hv : u.bringImages f l images = (v, good)) :
    execMemoryImageLoad f ins images s = .next (if good then v.updPass k fun p => { p with loaded := true }
      else v.raise .none' .controlParity 0x07 (some k)) := by
  unfold execMemoryImageLoad
  rw [hcur, hl]
  dsimp only
  rw [if_neg (by simpa using hins), if_neg (by simp [hst, hload]), hu, hv]

/-! ### Agreement -/

theorem agreed_only (s : State) (k : Nat) (g : Pass → Pass) (st : PassState) : ∃ passes fns out obs,
    (s.updPass k g).setPassState k st = { s with passes := passes, fns := fns, out := out, obs := obs } := by
  have hupd : s.updPass k g = { s with passes := (s.updPass k g).passes } := by
    unfold State.updPass
    split <;> rfl
  unfold State.setPassState
  split
  · exact ⟨(s.updPass k g).passes, s.fns, s.out, s.obs, hupd⟩
  · rw [hupd]
    exact ⟨_, _, _, _, traceTo_only ..⟩

theorem curPass_fn (h : s.curPass f = some (k, q)) : q.fn = f := by
  have := List.find?_some h
  simp only [Bool.and_eq_true, beq_iff_eq] at this
  exact this.1

variable (hcur : s.curPass f = some (k, q)) (hl : s.loaded f = some l) (hst : q.state = .admitted) (hload : q.loaded = true)
  (hstart : q.start = none)
include hcur hl hst hload

theorem passAgree_waits (hf : s.fenced q = true) : execPassAgree f s = .next s := by
  unfold execPassAgree
  rw [hcur, hl]
  exact if_pos (by simp [hst, hload, hf])

include hstart

theorem passAgree_runs (hf : s.fenced q = false) (hm : (decide (2 ≤ l.exe.header.skeinSize) && (s.skein.state != .formed || s.skein.fn != f ||
    s.skein.offered)) = false) : execPassAgree f s = .next (((s.updPass k fun p => { p with
      number := if decide (2 ≤ l.exe.header.skeinSize) then s.skein.passNo else (s.fn f.val).passNo
      multi := decide (2 ≤ l.exe.header.skeinSize) }).setPassState k .agreeing).makeOffer k) := by
  unfold execPassAgree
  rw [hcur, hl]
  refine (if_neg ?_).trans ?_
  · rw [hm]
    simp [hst, hload, hstart, hf]
  · rw [hst]
    rfl

end

section
variable {s : State} {k : Nat} {p : Pass} (hp : s.pass k = some p) (hst : p.state = .agreeing) (hstart : p.start = none)
include hp hst hstart

/-- A pass of one member agrees on the next frame. -/
theorem makeOffer_alone (hin : s.inSkein p = false) : (s.makeOffer k).pass k =
    some { p with start := some (BitVec.ofNat 64 (ceilDiv (s.slotCount + 1) 100)) } := by
  have hrun : s.makeOffer k = s.updPass k fun p => { p with start := some (BitVec.ofNat 64 (ceilDiv (s.slotCount + 1) 100)) } := by
    unfold State.makeOffer
    rw [hp]
    dsimp only
    rw [hin, Bool.not_false, if_pos rfl]
    unfold State.offerTry
    rw [hp]
    dsimp only
    rw [if_neg (by simp [hst, hstart]), hin, Bool.not_false, if_pos rfl]
  rw [hrun]
  exact pass_updPass hp _

/-- A member of a skein that is not its root makes its offer, a leaf sends it. -/
theorem makeOffer_member (hin : s.inSkein p = true) (hformed : s.skein.state = .formed) (hheld : s.skein.held = []) (hroot : s.stitchRoot = false) :
    (s.makeOffer k).pass k = some p ∧ (s.makeOffer k).skein.offered = true ∧
      (s.stitchChildren = [] → Queued s (s.makeOffer k) s.stitchParent [offerMsg p.number p.attempt p.gen p.reqId.toNat false]) := by
  obtain ⟨u, hu⟩ : ∃ u : State, u = { s with skein := { s.skein with offered := true } } := ⟨_, rfl⟩
  have hup : u.pass k = some p := by rw [hu]; exact hp
  have huin : u.inSkein p = true := by rw [hu]; exact hin
  have huroot : u.stitchRoot = false := by rw [hu]; exact hroot
  have huoff : u.skein.offered = true := by rw [hu]
  have hchildren : u.stitchChildren = s.stitchChildren := by rw [hu]; rfl
  have hparent : u.stitchParent = s.stitchParent := by rw [hu]; rfl
  have htry : u.offerTry k = if !(s.stitchChildren.all fun c => u.skein.offers.any fun o => o.val == c) then u
      else u.sendTo [s.stitchParent] (offerMsg p.number p.attempt p.gen p.reqId.toNat false) := by
    unfold State.offerTry
    rw [hup]
    dsimp only
    rw [if_neg (by simp [hst, hstart]), huin, huoff, huroot, hchildren, hparent]
    simp only [Bool.not_true, Bool.false_or, Bool.not_false, if_true]
    rfl
  have honly : OnlyPorts u (u.offerTry k) := by
    rw [htry]
    split
    · rfl
    · exact onlyPorts_sendTo ..
  have hrun : s.makeOffer k = u.offerTry k := by
    have hheld' : (u.offerTry k).skein.held = [] := by rw [honly, hu]; exact hheld
    unfold State.makeOffer
    rw [hp]
    dsimp only
    rw [hin, Bool.not_true, if_neg Bool.false_ne_true, if_neg (by simp [hformed]), ← hu]
    exact takeHeld_nothing hheld' _ _
  rw [hrun]
  refine ⟨by rw [honly]; exact hup, by rw [honly]; exact huoff, fun hnone => ?_⟩
  rw [htry, hnone, if_neg (by simp)]
  refine Queued.before (t := u) (by rw [hu]; exact .of_ports rfl) ?_
  exact queued_once u (by simp) _

end

/-- Settles O46: the smallest ratio is admitted or refused, inputs and images land or abandon the attempt, and the pass agrees or
offers. -/
theorem passStart : Obligations.PassStart := by
  unfold Obligations.PassStart
  intro s
  refine ⟨fun p f k q n hup ha hn hq hpass hst => ⟨nextFn_least hn, fun l hl htakes hen => ⟨fun hout => ?_, fun hall => ⟨fun hpin => ?_,
    fun g copy hpin => ?_⟩⟩⟩, fun f k q l hcur hpass hl hst => ⟨fun hload hinv hw ins images hins hplace hok => ?_, fun hload hstart hf =>
    passAgree_waits hcur hl hst hload hf, fun hload hstart hf => ⟨fun hone hin => ?_, fun htwo hin hformed hoff hheld hroot => ?_⟩⟩⟩
  · have hno : ((s.memberCores f).all s.serving) = false := by
      obtain ⟨c, hc, hs⟩ := hout
      rw [List.all_eq_false]
      exact ⟨c, hc, by simp [hs]⟩
    obtain ⟨hgone, hdone⟩ := completePass_completed hpass (st := .rejectedState) (by decide) 0 false
    exact ⟨_, (passAdmit_runs hup ha hn hq hl htakes hen).trans (congrArg Host.Outcome.next (if_pos (by rw [hno]; rfl))), hgone, hdone⟩
  · have hyes : ((s.memberCores f).all s.serving) = true := List.all_eq_true.2 hall
    obtain ⟨hgone, hdone⟩ := completePass_completed hpass (st := .rejectedGeneration) (by decide) 0 false
    refine ⟨_, (passAdmit_runs hup ha hn hq hl htakes hen).trans (congrArg Host.Outcome.next (if_neg (by rw [hyes]; decide))), ?_⟩
    rw [hpin]
    exact ⟨hgone, hdone⟩
  · have hyes : ((s.memberCores f).all s.serving) = true := List.all_eq_true.2 hall
    refine ⟨_, (passAdmit_runs hup ha hn hq hl htakes hen).trans (congrArg Host.Outcome.next (if_neg (by rw [hyes]; decide))), ?_⟩
    rw [hpin]
    exact pass_setState (pass_updPass hpass _) .admitted
  · intro good
    obtain ⟨m1, e1, h1⟩ := bringInputs_hold (f := f) (l := l) hw k hins hok s.mem s.ecc
    have hgood : ∀ x, imageGood s f l x ↔ good x := fun _ => Iff.rfl
    refine ⟨fun hall => ?_, fun hsome hroom => ?_⟩
    · obtain ⟨e2, h2⟩ := bringImages_all (f := f) (l := l) hw (xs := images) hall m1 e1
      refine ⟨_, memoryImageLoad_runs hcur hl hst hload hins h1 h2, ?_, fun pre e post c hsplit hc ho => ?_⟩
      · exact pass_updPass (s := s.holding _ e2) hpass _
      · rw [if_pos rfl]
        have hmem : ((s.holding (images.foldl (fun m x => memPut m (imageAt s f l x) x.data) m1) e2).updPass k fun p => { p with loaded := true }).mem =
            images.foldl (fun m x => memPut m (imageAt s f l x) x.data) m1 := by
          unfold State.updPass
          split <;> rfl
        have hcore : (((s.holding (images.foldl (fun m x => memPut m (imageAt s f l x) x.data) m1) e2).updPass k fun p => { p with loaded := true }).core c).mpend = [] := by
          unfold State.updPass
          split <;> exact hw c
        rw [State.readNow, hcore, hmem]
        subst hsplit
        exact images_get hplace hall hc ho m1
    · obtain ⟨m2, e2, h2⟩ := bringImages_some (f := f) (l := l) hw (xs := images) hsome m1 e1
      have he : EndsPass .controlParity 0x07 := ⟨fun _ => rfl, fun h => nomatch h⟩
      refine ⟨_, memoryImageLoad_runs hcur hl hst hload hins h1 h2, ?_, ?_⟩
      · exact (raise_raised (s := s.holding m2 e2) (src := .none') he hroom (some k)).of_eq rfl rfl
      · exact raise_abandons (s := s.holding m2 e2) hpass (by simp [hst]) (by simp [hst]) (by simp [hst]) he
  · have hmulti : decide (2 ≤ l.exe.header.skeinSize) = false := by simp [hone]
    have hrun := passAgree_runs hcur hl hst hload hstart hf (by rw [hmulti, Bool.false_and])
    rw [hmulti] at hrun
    obtain ⟨passes, fns, out, obs, honly⟩ := agreed_only s k (fun p => { p with number := (s.fn f.val).passNo, multi := false }) .agreeing
    have hv := pass_setState (pass_updPass hpass fun p => { p with number := (s.fn f.val).passNo, multi := false }) .agreeing
    have hend := makeOffer_alone hv rfl hstart (by rw [honly]; exact hin)
    refine ⟨_, _, hrun, hend, rfl, rfl, ?_⟩
    rw [honly]
    rfl
  · have hmulti : decide (2 ≤ l.exe.header.skeinSize) = true := by simpa using htwo
    have hfn : s.skein.fn = f := by
      unfold State.inSkein at hin
      simp only [Bool.and_eq_true, beq_iff_eq] at hin
      exact hin.2.trans (curPass_fn hcur)
    have hrun := passAgree_runs hcur hl hst hload hstart hf (by simp [hformed, hfn, hoff])
    rw [hmulti] at hrun
    obtain ⟨passes, fns, out, obs, honly⟩ := agreed_only s k (fun p => { p with number := s.skein.passNo, multi := true }) .agreeing
    have hv := pass_setState (pass_updPass hpass fun p => { p with number := s.skein.passNo, multi := true }) .agreeing
    obtain ⟨hend, hoffered, hleaf⟩ := makeOffer_member hv rfl hstart (by rw [honly]; exact hin) (by rw [honly]; exact hformed)
      (by rw [honly]; exact hheld) (by rw [honly]; exact hroot)
    refine ⟨_, _, hrun, hend, rfl, rfl, hoffered, fun hnone => ?_⟩
    have hq := hleaf (by rw [honly]; exact hnone)
    have hparent : ((s.updPass k fun p => { p with number := s.skein.passNo, multi := true }).setPassState k .agreeing).stitchParent = s.stitchParent := by
      rw [honly]
      rfl
    rw [hparent] at hq
    exact hq.before (by rw [honly]; exact .of_ports rfl)

end Sys2Proof.Machine
end


section
/-!
PROOFS. A quiescing pass whose status is DUPLICATE (R219, R356): its completion leaves the journal entry of its descriptor pending, as
that of a duplicate does.
-/
namespace Sys2Proof.Machine

/-- A PASS_SUBMIT descriptor with identifier 1. -/
def submitDesc : BitVec 512 := 1 + (1 <<< 64)

def submitFetched : Fetched := { ring := 0, index := 0, desc := submitDesc, phase := .executing, order := 0 }

/-- The pass of the descriptor, abandoned with the status of a duplicate. -/
def duplicatePass : Pass := { Pass.submitted 0 0 0 submitDesc [] with state := .quiescing, status := some .duplicate, clean := false }

def duplicateState : State :=
  { State.reset with
    fns := [(0, { Func.reset0 with exe := some longLoad, fetched := [submitFetched], tags := 1, journal := [(1, none)] })]
    passes := [(0, some duplicatePass)] }

/-- Status of identifier 1 after a step. -/
def statusAfter : Host.Outcome State Fault Refusal → Option (Option Status)
  | .next t => (t.fn 0).lookup 1
  | _ => none

theorem duplicateState_status : statusAfter (exec (.quiesceComplete 0) duplicateState) = some none := by decide +kernel

/-- Refutes O47: the pass ends with its status, and the journal does not say so. -/
theorem not_passEnd : ¬ Obligations.PassEnd := by
  intro h
  obtain ⟨-, -, -, hquiet, -⟩ := h duplicateState 0 0 duplicatePass longLoad rfl rfl rfl
  obtain ⟨t, ht, -, -, hend⟩ := (hquiet rfl fun _ hkv => absurd hkv List.not_mem_nil).2 .duplicate (by decide +kernel) rfl
  obtain ⟨-, hstatus⟩ := hend submitFetched (by decide +kernel)
  have hlookup := hstatus (by decide +kernel) (by decide +kernel)
  rw [show descId submitFetched.desc = 1 by decide +kernel] at hlookup
  have hnone := duplicateState_status
  rw [ht, statusAfter] at hnone
  exact absurd (hnone.symm.trans hlookup) (by decide)

end Sys2Proof.Machine
end


section
/-!
PROOFS. The fault collector: what the end of a pass leaves of it and of the cores' service states, the counts that fence a core
(R369 to R376), and the fatal state.
-/
namespace Sys2Proof.Machine

/-! ### What the end of a pass leaves -/

/-- The collector, the scheduler, the power manager and the service state of every core are as before. -/
structure Manned (s t : State) : Prop where
  chk : t.chk = s.chk
  scheduled : t.scheduled = s.scheduled
  power : t.power = s.power
  svc : ∀ c, (t.core c).svc = (s.core c).svc
  cause : ∀ c, (t.core c).cause = (s.core c).cause

theorem Manned.refl (s : State) : Manned s s := ⟨rfl, rfl, rfl, fun _ => rfl, fun _ => rfl⟩

theorem Manned.trans {s t u : State} (h : Manned s t) (g : Manned t u) : Manned s u :=
  ⟨g.chk.trans h.chk, g.scheduled.trans h.scheduled, g.power.trans h.power, fun c => (g.svc c).trans (h.svc c), fun c => (g.cause c).trans (h.cause c)⟩

theorem Manned.of_cores {s t : State} (hk : t.chk = s.chk) (hs : t.scheduled = s.scheduled) (hp : t.power = s.power)
    (hc : t.cores = s.cores) : Manned s t := by
  have hcore : ∀ c, t.core c = s.core c := fun c => by rw [State.core, hc, State.core]
  exact ⟨hk, hs, hp, fun c => by rw [hcore], fun c => by rw [hcore]⟩

theorem Manned.foldl {α : Type} (l : List α) (s : State) (f : State → α → State) (h : ∀ s a, Manned s (f s a)) :
    Manned s (l.foldl f s) :=
  List.foldlRecOn (motive := fun u : State => Manned s u) _ _ (.refl s) fun u hu a _ => hu.trans (h u a)

theorem manned_updCore (s : State) (c : Nat) (f : Core → Core) (hf : ∀ k, (f k).svc = k.svc ∧ (f k).cause = k.cause) :
    Manned s (s.updCore c f) := by
  have hcore : ∀ b, ((s.updCore c f).core b).svc = (s.core b).svc ∧ ((s.updCore c f).core b).cause = (s.core b).cause := by
    intro b
    by_cases hb : b = c
    · rw [hb, State.core_updCore_same]
      exact hf _
    · rw [State.core_updCore_other _ _ hb]
      exact ⟨rfl, rfl⟩
  exact ⟨rfl, rfl, rfl, fun b => (hcore b).1, fun b => (hcore b).2⟩

theorem OnlyObs.manned {s t : State} {c : Nat} (h : OnlyObs s t c) : Manned s t := by
  have hcore : ∀ b, (t.core b).svc = (s.core b).svc ∧ (t.core b).cause = (s.core b).cause := by
    intro b
    by_cases hb : b = c
    · rw [hb, h.core]
      exact ⟨rfl, rfl⟩
    · rw [h.others b hb]
      exact ⟨rfl, rfl⟩
  exact ⟨by rw [h.rest], by rw [h.rest], by rw [h.rest], fun b => (hcore b).1, fun b => (hcore b).2⟩

theorem Passed.manned {s t : State} (h : Passed s t) : Manned s t :=
  ⟨by rw [h.rest], by rw [h.rest], by rw [h.rest], fun c => by rw [h.core], fun c => by rw [h.core]⟩

theorem HostEnds.manned {s t : State} (h : HostEnds s t) : Manned s t :=
  .of_cores (by rw [h.rest]) (by rw [h.rest]) (by rw [h.rest]) (by rw [h.rest])

theorem manned_traceTo (s : State) (f : FnId) (ty cause : Byte) (b : List Byte) : Manned s (s.traceTo f ty cause b) := by
  rw [traceTo_only]
  exact .of_cores rfl rfl rfl rfl

theorem manned_updPass (s : State) (k : Nat) (f : Pass → Pass) : Manned s (s.updPass k f) := by
  unfold State.updPass
  split <;> exact .of_cores rfl rfl rfl rfl

theorem manned_setPassState (s : State) (k : Nat) (st : PassState) : Manned s (s.setPassState k st) := by
  unfold State.setPassState
  split
  · exact .refl s
  · refine Manned.trans ?_ (manned_traceTo ..)
    exact .of_cores rfl rfl rfl rfl

theorem manned_settleAll (s : State) (c : Nat) : Manned s (s.settleAll c) := by
  unfold State.settleAll
  split
  · exact .refl s
  · refine (manned_updCore s c (fun k => { k with mpend := [] }) fun _ => ⟨rfl, rfl⟩).trans ?_
    exact .of_cores rfl rfl rfl rfl

theorem manned_haltCore (s : State) (c n : Nat) : Manned s (s.haltCore c n) := by
  have charge : Manned s (s.chargeEnd c) := by
    unfold State.chargeEnd
    split
    · exact .of_cores rfl rfl rfl rfl
    · exact .refl s
  have close : ∀ u : State, Manned u (u.closeLedger c (s.stopCycle c)) := fun u =>
    Manned.foldl _ u _ fun _ _ => (ledger_onlyObs _ _ _ _ _ _).manned
  unfold State.haltCore
  exact ((charge.trans (close _)).trans (manned_settleAll _ c)).trans (manned_updCore _ c _ fun _ => ⟨rfl, rfl⟩)

theorem manned_dyeAbandoned (s : State) (p : Pass) (l : List Nat) : Manned s (s.dyeAbandoned p l) := by
  refine Manned.foldl _ s _ fun s kv => ?_
  split
  · split
    · split
      · exact manned_traceTo ..
      · exact .refl s
    · exact .refl s
  · exact .refl s

theorem manned_quiesced (s : State) (k : Nat) (p : Pass) (st : Status) (noRetry : Bool) : Manned s (s.quiesced k p st noRetry) := by
  have halt := Manned.foldl (s.jobCores k) s
    (fun s c => s.haltCore c (if p.start.isSome then 3200 * (p.kernelStart.toNat - (p.start.getD 0).toNat) else 0))
    fun s c => manned_haltCore s c _
  unfold State.quiesced
  refine Manned.trans (Manned.trans (halt.trans (manned_dyeAbandoned _ p (s.jobCores k))) ?_) (manned_setPassState _ _ _)
  exact .of_cores rfl rfl rfl rfl

theorem manned_abandon (s : State) (k : Nat) (st : Status) (noRetry : Bool) : Manned s (s.abandon k st noRetry) := by
  have hset : ∀ p, Manned s (s.setPass k p) := fun _ => .of_cores rfl rfl rfl rfl
  have hnoticed : ∀ (u : State) (p : Pass), Manned u (u.noticed p) := fun u p => by
    unfold State.noticed
    split
    · exact .of_cores rfl rfl rfl rfl
    · exact .refl u
  unfold State.abandon
  split
  · exact .refl s
  · split
    · exact .refl s
    · exact .refl s
    · split_ifs
      · exact hset _
      · exact hset _
      · exact .refl s
    · exact (manned_quiesced ..).trans (hnoticed ..)

theorem manned_leaveSkein (s : State) : Manned s s.leaveSkein := by
  obtain ⟨fns, out, obs, h⟩ := leaveSkein_only s
  rw [h]
  exact .of_cores rfl rfl rfl rfl

theorem manned_afterPass (s : State) (p : Pass) : Manned s (s.afterPass p) := by
  have hretire : ∀ v : State, Manned v (v.retireOld p.fn) := by
    intro v
    unfold State.retireOld
    dsimp only
    refine List.foldlRecOn (motive := fun w : State => Manned v w) _ _ (.of_cores rfl rfl rfl rfl) fun w hw g _ => hw.trans ?_
    unfold State.traceGen
    split
    · exact .refl w
    · exact manned_traceTo ..
  have hpreempt : ∀ v : State, Manned v (v.settlePreempt p.fn) := by
    intro v
    unfold State.settlePreempt
    dsimp only
    split
    · split
      · exact (hostEnds_complete ..).manned
      · exact .refl v
    · exact .refl v
  have haccount : Manned s (s.updFn p.fn.val fun u => { u with account := u.account + p.frames }) := .of_cores rfl rfl rfl rfl
  unfold State.afterPass
  refine Manned.trans ?_ (hpreempt _)
  split
  · exact (haccount.trans (hretire _)).trans (manned_leaveSkein _)
  · exact haccount.trans (hretire _)

theorem manned_completePass (s : State) (k : Nat) (st : Status) (summary : W64) (cert : Bool) :
    Manned s (s.completePass k st summary cert) := by
  cases hp : s.pass k with
  | none =>
    rw [completePass_none hp]
    exact .refl s
  | some p =>
    have hcount : ∀ u : State, Manned u (if !p.agreed then u
        else if p.multi then { u with skein := { u.skein with passNo := u.skein.passNo + 1 } }
        else u.updFn p.fn.val fun u => { u with passNo := u.passNo + 1 }) := by
      intro u
      split
      · exact .refl u
      · split <;> exact .of_cores rfl rfl rfl rfl
    have hceased : Manned s (s.ceased k p st summary cert) :=
      (((manned_setPassState s k _).trans (hcount _)).trans (hostEnds_complete ..).manned).trans (.of_cores rfl rfl rfl rfl)
    rw [completePass_some hp]
    exact hceased.trans (manned_afterPass ..)

theorem manned_breakSkein (s : State) (field : Byte) (subject : BitVec 12) (from' : Option Nat) :
    Manned s (s.breakSkein field subject from') := by
  by_cases hn : s.skein.state = .none
  · simpa [State.breakSkein, hn] using Manned.refl s
  · by_cases hb : s.skein.state = .broken
    · rw [breakSkein_broken hb]
      exact .refl s
    · obtain ⟨ports, fns, out, obs, hbroke⟩ := broke_only s field subject from'
      rw [breakSkein_breaks hn hb]
      refine Manned.trans (t := s.broke field subject from') ?_ (Manned.foldl _ _ _ fun u kp => ?_)
      · rw [hbroke]
        exact .of_cores rfl rfl rfl rfl
      · unfold State.breakPass
        split
        · exact manned_completePass ..
        · exact manned_abandon ..

theorem manned_refuseFetched (s : State) : Manned s s.refuseFetched :=
  Manned.foldl _ s _ fun _ _ => Manned.foldl _ _ _ fun _ _ => (hostEnds_complete ..).manned

/-! ### Fencing -/

/-- Discarding the accesses that wait at a core changes no service state. -/
theorem manned_dropQueued (s : State) (c : Nat) : Manned s (s.dropQueued c) := by
  unfold State.dropQueued
  refine (manned_updCore s c (fun k => { k with queue := k.queue.filter fun a => a.flit.isNone }) fun _ => ⟨rfl, rfl⟩).trans ?_
  refine Manned.foldl _ _ _ fun u a => ?_
  split
  · refine Manned.trans (t := if a.kind == .atomic then u.unrecord _ else u) ?_ (passed_sendReply ..).manned
    split
    · exact .of_cores rfl rfl rfl rfl
    · exact .refl u
  · exact .refl u

theorem fenceCore_chk (s : State) (c : Nat) (cause : Byte) : (s.fenceCore c cause).chk = s.chk := by
  unfold State.fenceCore
  split
  · rfl
  · dsimp only
    obtain ⟨st, hst⟩ : ∃ st, st = if cause = 0 then Status.abandonedSkein else .abandonedFault := ⟨_, rfl⟩
    rw [← hst]
    have habandon := Manned.foldl (s.allPasses.filter fun kp => passLive kp.2.state && (s.memberCores kp.2.fn).contains c) s
      (fun s kp => s.abandon kp.1 st true) fun _ _ => manned_abandon ..
    have hdrop := habandon.trans (manned_dropQueued _ c)
    split
    · exact (manned_breakSkein ..).chk.trans hdrop.chk
    · exact hdrop.chk

/-- A core in service that is fenced. -/
theorem fenceCore_fences {s : State} {c : Nat} (h : s.serving c = true) (cause : Byte) :
    ((s.fenceCore c cause).core c).svc = .fenced ∧ ((s.fenceCore c cause).core c).cause = cause := by
  unfold State.fenceCore
  rw [if_neg (by simp [h])]
  dsimp only
  have hleft : ∀ u : State, ((u.leaveService c .fenced cause).core c).svc = .fenced ∧ ((u.leaveService c .fenced cause).core c).cause = cause := by
    intro u
    rw [State.leaveService, State.core_updCore_same]
    exact ⟨rfl, rfl⟩
  obtain ⟨st, hst⟩ : ∃ st, st = if cause = 0 then Status.abandonedSkein else .abandonedFault := ⟨_, rfl⟩
  rw [← hst]
  split
  · rw [(manned_breakSkein ..).svc, (manned_breakSkein ..).cause]
    exact hleft _
  · exact hleft _

/-! ### The collector -/

theorem interrupt_chk (s : State) (f : FnId) (v : Fin 128) : (s.interrupt f v).chk = s.chk := by
  rw [(hostEnds_interrupt s f v).rest]

theorem manned_logTo (s : State) (f : FnId) (ty cause : Byte) (b : List Byte) : Manned s (s.logTo f ty cause b) := by
  unfold State.logTo
  split
  · exact .of_cores rfl rfl rfl rfl
  · refine Manned.trans ?_ (hostEnds_interrupt ..).manned
    exact .of_cores rfl rfl rfl rfl

theorem manned_logBoth (s : State) (f : Option FnId) (ty cause : Byte) (b : List Byte) : Manned s (s.logBoth f ty cause b) := by
  unfold State.logBoth
  split
  · dsimp only
    split
    · exact manned_logTo ..
    · exact (manned_logTo ..).trans (manned_logTo ..)
  · exact manned_logTo ..

theorem manned_faultVector (s : State) (f : FnId) : Manned s (s.faultVector f) := by
  unfold State.faultVector
  split
  · exact (hostEnds_interrupt ..).manned
  · exact .refl s

/-- The registers of the collector after a record. -/
def Chk.recorded (k : Chk) (r : FaultRecord) : Chk :=
  let r := { r with seq := k.seq }
  { (k.tally r.cls) with
    last := some r, first := (match k.first with | some f => some f | none => some r), seq := k.seq + 1 }

/-- The collector notes a record and changes nothing else of the module's service. -/
theorem collect_records (s : State) (r : FaultRecord) : Manned { s with chk := s.chk.recorded r } (s.collect r) := by
  unfold State.collect
  dsimp only
  split
  · split
    · exact (manned_logBoth ..).trans (manned_faultVector ..)
    · exact ((manned_logBoth ..).trans (manned_faultVector ..)).trans (manned_faultVector ..)
  · exact (manned_logBoth ..).trans (manned_faultVector ..)

theorem tally_keeps (k : Chk) (c : FaultClass) : (k.tally c).reporters = k.reporters ∧ (k.tally c).counting = k.counting := by
  cases c <;> exact ⟨rfl, rfl⟩

/-- The state in which a reporter's oldest record is gone. -/
def State.delivered (s : State) (d : Nat) (rest : List FaultRecord) : State :=
  { s with chk := { s.chk with reporters := AMap.set [] s.chk.reporters d rest } }

theorem execFaultRecordDelivery_eq {s : State} {d : Fin 16} {r : FaultRecord} {rest : List FaultRecord} (hup : s.up = true)
    (h : s.reporter d.val = r :: rest) : execFaultRecordDelivery d s = .next (
      let u := if r.cls == .contained then (s.delivered d.val rest).countFault r else (s.delivered d.val rest, false)
      if u.2 then (u.1.collect { r with cls := .persistent }).fenceCore r.core.toNat r.cause.code else u.1.collect r) := by
  unfold execFaultRecordDelivery
  rw [h]
  dsimp only
  rw [if_neg (by simp [hup])]
  exact (apply_ite _ _ _ _).symm

/-- What counting a record leaves: the cores, the queues and the collector's sequence number. -/
theorem countFault_leaves (s : State) (r : FaultRecord) : (s.countFault r).1.cores = s.cores ∧
    (s.countFault r).1.chk.reporters = s.chk.reporters ∧ (s.countFault r).1.chk.seq = s.chk.seq := by
  unfold State.countFault
  split <;> exact ⟨rfl, rfl, rfl⟩

theorem Chk.recorded_last (k : Chk) (r : FaultRecord) : (k.recorded r).last = some { r with seq := k.seq } := rfl

/-- A persistent fault: the count of its core has restarted. -/
theorem countFault_beyond {s : State} {r : FaultRecord} (hc : s.counts r = true) (hl : s.pf .chkFenceCfg 0 3 ≤ (s.counted r).length) :
    (s.countFault r).2 = true ∧ AMap.get [] (s.countFault r).1.chk.counting r.core.toNat = [] := by
  unfold State.countFault
  rw [if_neg (by simp [hc])]
  refine ⟨decide_eq_true hl, ?_⟩
  refine (AMap.get_set_same ..).trans ?_
  rw [if_pos (decide_eq_true hl)]

theorem countFault_within {s : State} {r : FaultRecord} (h : s.counts r = false ∨ (s.counted r).length < s.pf .chkFenceCfg 0 3) :
    (s.countFault r).2 = false := by
  unfold State.countFault
  split
  · rfl
  · next hc =>
    have hc : s.counts r = true := by simpa using hc
    exact decide_eq_false (not_le.2 (h.resolve_left (by simp [hc])))

/-! ### The fatal state -/

theorem fatalStop_stops (s : State) (r : FaultRecord) : (s.fatalStop r).scheduled = false ∧ (s.fatalStop r).power = s.power := by
  obtain ⟨u, hu⟩ : ∃ u : State, u = { s.sensed .moduleState with
    chk := { s.chk with fatal := true, cause := r.cause.code, detail := r.detail }, scheduled := false, modePending := none } := ⟨_, rfl⟩
  have hstop : Manned u (s.fatalStop r) := by
    unfold State.fatalStop
    dsimp only
    refine Manned.trans (Manned.trans ?_ (manned_breakSkein ..)) (manned_refuseFetched _)
    rw [hu]
    refine Manned.foldl _ _ _ fun v kp => ?_
    split
    · exact (manned_updPass ..).trans (manned_completePass ..)
    · exact ((manned_updPass ..).trans (manned_abandon ..)).trans (manned_updPass ..)
  refine ⟨by rw [hstop.scheduled, hu], ?_⟩
  rw [hstop.power, hu]
  show (s.sensed .moduleState).power = s.power
  unfold State.sensed
  split <;> rfl

/-- A die that leaves service leaves the collector and the scheduler. -/
theorem dieOut_leaves (s : State) (d : DieId) : (s.dieOut d).chk = s.chk ∧ (s.dieOut d).scheduled = s.scheduled := by
  have hparts : ∀ u : State, u.dropParts.chk = u.chk ∧ u.dropParts.scheduled = u.scheduled := by
    intro u
    unfold State.dropParts
    refine List.foldlRecOn (motive := fun v : State => v.chk = u.chk ∧ v.scheduled = u.scheduled) _ _ ⟨rfl, rfl⟩ fun v hv p _ => ?_
    dsimp only
    split
    · exact hv
    · exact hv
  unfold State.dieOut
  generalize (List.range 144).map (coreAt d.val) = l
  dsimp only
  refine ⟨(hparts _).1.trans ?_, (hparts _).2.trans ?_⟩
  · refine List.foldlRecOn (motive := fun v : State => v.chk = s.chk) _ _ rfl fun v hv c _ => ?_
    split
    · exact hv
    · exact (manned_dropQueued v c).chk.trans hv
  · refine List.foldlRecOn (motive := fun v : State => v.scheduled = s.scheduled) _ _ rfl fun v hv c _ => ?_
    split
    · exact hv
    · exact (manned_dropQueued v c).scheduled.trans hv

/-- A fatal fault of the table is recorded and stops the module. -/
theorem fatalFault_stops {s : State} {cause : Cause} {detail : Byte} {core : BitVec 16} (hup : s.up = true)
    (hc : classOf cause detail false = .fatal) (hr : (s.reporter (srcOf core).reporter).length < 16) :
    ∃ t, execFatalFault cause detail core s = .next t ∧ Raised s t (srcOf core) cause detail ∧ t.chk.fatal = true ∧
      t.chk.cause = cause.code ∧ t.chk.detail = detail ∧ t.scheduled = false := by
  obtain ⟨r, hrec⟩ : ∃ r, r = s.mkRecord (srcOf core) cause detail .fatal ((s.ownerOf (srcOf core).core.toNat).map (·.2)) := ⟨_, rfl⟩
  have hrun : execFatalFault cause detail core s = .next (if cause = .controlParity ∧ detail = 0x84 ∧ core.toNat < 1728 then
      ((s.queueRecord (srcOf core).reporter r).fatalStop r).dieOut (Fin.ofNat 12 (coreDie core.toNat))
      else (s.queueRecord (srcOf core).reporter r).fatalStop r) := by
    unfold execFatalFault
    rw [if_neg (by simp [hup, hc]), hrec]
    rfl
  have hchk := fatalStop_chk (s.queueRecord (srcOf core).reporter r) r
  have hsched := (fatalStop_stops (s.queueRecord (srcOf core).reporter r) r).1
  rw [queueRecord_of_room hr] at hchk hsched hrun
  have hshown : ∀ t : State, t.chk = { s.chk with
      reporters := AMap.set [] s.chk.reporters (srcOf core).reporter (s.reporter (srcOf core).reporter ++ [r])
      fatal := true, cause := r.cause.code, detail := r.detail } →
      Raised s t (srcOf core) cause detail ∧ t.chk.fatal = true ∧ t.chk.cause = cause.code ∧ t.chk.detail = detail := by
    intro t ht
    refine ⟨⟨r, ?_, ?_⟩, ?_, ?_, ?_⟩
    · rw [State.reporter, ht]
      exact AMap.get_set_same ..
    · rw [hrec]
      exact ⟨rfl, rfl, rfl, rfl, rfl, rfl⟩
    · rw [ht]
    · rw [ht, hrec]
      rfl
    · rw [ht, hrec]
      rfl
  refine ⟨_, hrun, ?_⟩
  split
  · obtain ⟨hk, hs⟩ := dieOut_leaves (State.fatalStop _ r) (Fin.ofNat 12 (coreDie core.toNat))
    obtain ⟨h1, h2, h3, h4⟩ := hshown _ (hk.trans hchk)
    exact ⟨h1, h2, h3, h4, hs.trans hsched⟩
  · obtain ⟨h1, h2, h3, h4⟩ := hshown _ hchk
    exact ⟨h1, h2, h3, h4, hsched⟩

/-! ### Delivery -/

section
variable {s : State} {d : Fin 16} {r : FaultRecord} {rest : List FaultRecord}

/-- What the collector shows of a record that it has taken from a state that `u` has counted it in. -/
theorem collected_shows {u t : State} {q : FaultRecord} (hseq : u.chk.seq = s.chk.seq)
    (hrep : u.chk.reporters = AMap.set [] s.chk.reporters d.val rest) (ht : t.chk = u.chk.recorded q)
    (hq : q.core = r.core ∧ q.cause = r.cause ∧ q.detail = r.detail ∧ q.timebase = r.timebase) :
    t.reporter d.val = rest ∧ t.chk.seq = s.chk.seq + 1 ∧ ∃ x, t.chk.last = some x ∧ x.seq = s.chk.seq ∧
      x.core = r.core ∧ x.cause = r.cause ∧ x.detail = r.detail ∧ x.timebase = r.timebase := by
  refine ⟨?_, ?_, { q with seq := u.chk.seq }, ?_, hseq, hq⟩
  · rw [State.reporter, ht]
    refine (congrArg (fun m => AMap.get [] m d.val) (tally_keeps u.chk q.cls).1).trans ?_
    rw [hrep]
    exact AMap.get_set_same ..
  · rw [ht, ← hseq]
    rfl
  · rw [ht, Chk.recorded_last]

end

/-- Settles O48: the collector takes a reporter's oldest record and fences a core whose count reaches the threshold; a silent
reporter and a fatal fault stop the module. -/
theorem faultCollector : Obligations.FaultCollector := by
  unfold Obligations.FaultCollector
  intro s hup
  refine ⟨fun d r rest h => ?_, fun d => ⟨?_, fun hsilent hfatal hroom => ?_⟩, fun cause detail core hc hr => ?_⟩
  · obtain ⟨u, hu⟩ : ∃ u, u = if r.cls == .contained then (s.delivered d.val rest).countFault r else (s.delivered d.val rest, false) :=
      ⟨_, rfl⟩
    have hleaves : u.1.cores = s.cores ∧ u.1.chk.reporters = AMap.set [] s.chk.reporters d.val rest ∧ u.1.chk.seq = s.chk.seq := by
      rw [hu]
      split
      · exact countFault_leaves (s.delivered d.val rest) r
      · exact ⟨rfl, rfl, rfl⟩
    obtain ⟨hcores, hrep, hseq⟩ := hleaves
    have hcore : ∀ c, u.1.core c = s.core c := fun c => by rw [State.core, hcores, State.core]
    have hrun : exec (.faultRecordDelivery d) s = .next (if u.2 then
        (u.1.collect { r with cls := .persistent }).fenceCore r.core.toNat r.cause.code else u.1.collect r) := by
      rw [hu]
      exact execFaultRecordDelivery_eq hup h
    cases hb : u.2 with
    | false =>
      rw [hb] at hrun
      have hcol := collect_records u.1 r
      obtain ⟨h1, h2, h3⟩ := collected_shows (r := r) hseq hrep hcol.chk ⟨rfl, rfl, rfl, rfl⟩
      refine ⟨_, hrun, h1, h2, h3, fun _ => ⟨?_, fun c => ?_⟩, fun hcls hcount hlen => ?_⟩
      · rw [if_neg Bool.false_ne_true, hcol.chk, Chk.recorded_last, hseq]
      · exact (hcol.svc c).trans (congrArg Core.svc (hcore c))
      · have hbeyond := (countFault_beyond (s := s.delivered d.val rest) hcount hlen).1
        rw [hu, hcls] at hb
        exact absurd (hbeyond.symm.trans hb) (by decide)
    | true =>
      rw [hb] at hrun
      have hcls : r.cls = .contained := by
        by_contra hne
        rw [hu, if_neg (by simpa using hne)] at hb
        exact nomatch hb
      have hu' : u = (s.delivered d.val rest).countFault r := by rw [hu, if_pos (by simp [hcls])]
      obtain ⟨v, hv⟩ : ∃ v, v = u.1.collect { r with cls := .persistent } := ⟨_, rfl⟩
      have hcol : Manned { u.1 with chk := u.1.chk.recorded { r with cls := .persistent } } v := hv ▸ collect_records ..
      rw [← hv, if_pos rfl] at hrun
      have hchk := (fenceCore_chk v r.core.toNat r.cause.code).trans hcol.chk
      obtain ⟨h1, h2, h3⟩ := collected_shows (r := r) hseq hrep hchk ⟨rfl, rfl, rfl, rfl⟩
      refine ⟨_, hrun, h1, h2, h3, fun hnot => ?_, fun _ hcount hlen => ⟨?_, ?_, fun hserve => ?_⟩⟩
      · have hwithin := countFault_within (s := s.delivered d.val rest) (hnot.resolve_left fun hne => hne hcls)
        rw [hu'] at hb
        exact absurd (hwithin.symm.trans hb) (by decide)
      · rw [hchk, Chk.recorded_last, hseq]
      · rw [hchk]
        refine (congrArg (fun m => AMap.get [] m r.core.toNat) (tally_keeps u.1.chk .persistent).2).trans ?_
        rw [hu']
        exact (countFault_beyond (s := s.delivered d.val rest) hcount hlen).2
      · refine fenceCore_fences ?_ r.cause.code
        rw [State.serving, hcol.svc, ← hserve, State.serving]
        exact congrArg (fun k : Core => k.svc == .inService) (hcore r.core.toNat)
  · refine ⟨{ s with chk := { s.chk with silent := AMap.set 0 s.chk.silent d.val 0 } }, ?_, ?_⟩
    · show execDieHeartbeat d s = _
      rw [execDieHeartbeat, if_pos hup]
    · exact AMap.get_set_same (0 : Nat) s.chk.silent d.val 0
  · obtain ⟨hraised, hshown, -⟩ := raise_fatal (s := s) (src := .none') (cause := .controlParity) (d := 0xA2) (fun _ => rfl) hroom none
    refine ⟨_, ?_, hraised, hshown⟩
    show execHeartbeatTimeout d s = _
    rw [execHeartbeatTimeout, if_pos (by simp [hup, hsilent, hfatal])]
  · exact fatalFault_stops hup hc hr

end Sys2Proof.Machine
end


section
/-!
PROOFS. What completions, messages, logs and traces change of a function, and the scrub reads (R178, R377, R378).
-/
namespace Sys2Proof.Machine

/-! ### What reporting changes of a function -/

/-- The functions differ in their rings, journals, messages and observation rings only. -/
structure Reported (s t : State) : Prop where
  fn : ∀ f, t.fn f = { s.fn f with
    sq := (t.fn f).sq, cq := (t.fn f).cq, fetched := (t.fn f).fetched, journal := (t.fn f).journal, tags := (t.fn f).tags
    active := (t.fn f).active, irqSent := (t.fn f).irqSent, irqHeld := (t.fn f).irqHeld, log := (t.fn f).log, trace := (t.fn f).trace }

theorem Reported.refl (s : State) : Reported s s := ⟨fun _ => rfl⟩

theorem Reported.trans {s t u : State} (h : Reported s t) (g : Reported t u) : Reported s u := by
  refine ⟨fun f => ?_⟩
  have h1 := g.fn f
  rw [h.fn f] at h1
  exact h1

theorem Reported.of_fns {s t : State} (h : t.fns = s.fns) : Reported s t := by
  refine ⟨fun f => ?_⟩
  have hfn : t.fn f = s.fn f := by rw [State.fn, h, State.fn]
  rw [hfn]

theorem Reported.gens {s t : State} (h : Reported s t) (f : Nat) : (t.fn f).gens = (s.fn f).gens := by rw [h.fn f]

theorem reported_updFn (s : State) (f : Nat) (g : Func → Func) (hg : g (s.fn f) = { s.fn f with
    sq := (g (s.fn f)).sq, cq := (g (s.fn f)).cq, fetched := (g (s.fn f)).fetched, journal := (g (s.fn f)).journal
    tags := (g (s.fn f)).tags, active := (g (s.fn f)).active, irqSent := (g (s.fn f)).irqSent, irqHeld := (g (s.fn f)).irqHeld
    log := (g (s.fn f)).log, trace := (g (s.fn f)).trace }) : Reported s (s.updFn f g) := by
  refine ⟨fun b => ?_⟩
  by_cases hb : b = f
  · rw [hb, State.fn_updFn_same]
    exact hg
  · rw [State.fn_updFn_other _ _ hb]

theorem reported_interrupt (s : State) (f : FnId) (v : Fin 128) : Reported s (s.interrupt f v) := by
  unfold State.interrupt
  dsimp only
  split
  · exact (reported_updFn s f.val (fun u => { u with irqSent := u.irqSent + 1 }) rfl).trans (.of_fns rfl)
  · split
    · exact .refl s
    · exact reported_updFn s f.val (fun u => { u with irqHeld := u.irqHeld ++ [v] }) rfl

theorem reported_moderate (s : State) (f : FnId) (cq : RingId) : Reported s (s.moderate f cq) := by
  unfold State.moderate
  dsimp only
  split
  · refine Reported.trans ?_ (reported_interrupt ..)
    exact reported_updFn s f.val _ rfl
  · exact reported_updFn s f.val _ rfl

theorem reported_complete1 (s : State) (f : FnId) (r : RingId) (i : BitVec 12) (st : Status) (x : CplInfo) :
    Reported s (s.complete1 f r i st x) := by
  cases h : (s.fn f.val).find r i with
  | none =>
    rw [complete1_none h]
    exact .refl s
  | some d =>
    have hset : Reported s (s.setFn f.val (s.endedFn f r i st d)) := reported_updFn s f.val (fun _ => s.endedFn f r i st d) rfl
    rw [complete1_some h]
    dsimp only
    split
    · split
      · exact hset.trans (.of_fns rfl)
      · refine Reported.trans ?_ (reported_moderate ..)
        exact hset.trans (.of_fns rfl)
    · exact hset

theorem reported_settleHost (n : Nat) (s : State) (f : FnId) : Reported s (settleHost n s f) := by
  induction n generalizing s with
  | zero => exact .refl s
  | succ n ih =>
    rw [settleHost]
    split
    · exact .refl s
    · exact (reported_complete1 ..).trans (ih _)
    · exact (reported_complete1 ..).trans (ih _)

theorem reported_complete (s : State) (f : FnId) (r : RingId) (i : BitVec 12) (st : Status) (x : CplInfo) :
    Reported s (s.complete f r i st x) := (reported_complete1 ..).trans (reported_settleHost ..)

theorem reported_finish (s : State) (f : FnId) (r : RingId) (i : BitVec 12) (st : Status) : Reported s (s.finish f r i st) :=
  reported_complete ..

theorem reported_traceTo (s : State) (f : FnId) (ty cause : Byte) (b : List Byte) : Reported s (s.traceTo f ty cause b) := by
  unfold State.traceTo
  split
  · exact .of_fns rfl
  · next r _ =>
    split
    · exact (reported_updFn s f.val (fun u => { u with trace := some { r with seq := r.seq + 1 } }) rfl).trans (.of_fns rfl)
    · exact .refl s

theorem reported_logTo (s : State) (f : FnId) (ty cause : Byte) (b : List Byte) : Reported s (s.logTo f ty cause b) := by
  unfold State.logTo
  split
  · exact .of_fns rfl
  · next r _ =>
    refine Reported.trans ?_ (reported_interrupt ..)
    exact (reported_updFn s f.val (fun u => { u with log := some { r with seq := r.seq + 1 } }) rfl).trans (.of_fns rfl)

theorem reported_logBoth (s : State) (f : Option FnId) (ty cause : Byte) (b : List Byte) : Reported s (s.logBoth f ty cause b) := by
  unfold State.logBoth
  split
  · dsimp only
    split
    · exact reported_logTo ..
    · exact (reported_logTo ..).trans (reported_logTo ..)
  · exact reported_logTo ..

theorem reported_traceGen (s : State) (f : FnId) (g : W32) (old new : GenState) : Reported s (s.traceGen f g old new) := by
  unfold State.traceGen
  split
  · exact .refl s
  · exact reported_traceTo ..

/-! ### A discarded generation -/

/-- Discarding the records of a generation reports their descriptors and leaves the collector. -/
theorem dropSlots_leaves (s : State) (f : FnId) (g : W32) : Reported s (s.dropSlots f g) ∧ (s.dropSlots f g).chk = s.chk := by
  unfold State.dropSlots
  refine List.foldlRecOn (motive := fun u : State => Reported s u ∧ u.chk = s.chk) _ _ ⟨.refl s, rfl⟩ fun u hu kv _ => ?_
  split
  · split
    · dsimp only
      split
      · next r i _ =>
        obtain ⟨v, hv⟩ : ∃ v, v = ((u.setSlot kv.1 none).freeRefusal).2 := ⟨_, rfl⟩
        have hfree : Reported u v ∧ v.chk = u.chk := by
          rw [hv]
          exact ⟨.of_fns rfl, rfl⟩
        rw [← hv]
        refine ⟨(hu.1.trans hfree.1).trans (reported_finish ..), ?_⟩
        rw [State.finish, (hostEnds_complete ..).rest]
        exact hfree.2.trans hu.2
      · exact ⟨hu.1.trans (.of_fns rfl), hu.2⟩
    · exact hu
  · exact hu

theorem discarded_leaves (s : State) (f : FnId) (g : Gen) : Reported s (s.discarded f g) ∧ (s.discarded f g).chk = s.chk := by
  have hdrop := dropSlots_leaves s f g.gen
  unfold State.discarded
  dsimp only
  split
  · obtain ⟨v, hv⟩ : ∃ v, v = ((s.dropSlots f g.gen).freeRefusal).2 := ⟨_, rfl⟩
    have hfree : Reported (s.dropSlots f g.gen) v ∧ v.chk = (s.dropSlots f g.gen).chk := by
      rw [hv]
      exact ⟨.of_fns rfl, rfl⟩
    rw [← hv]
    refine ⟨(hdrop.1.trans hfree.1).trans (reported_finish ..), ?_⟩
    rw [State.finish, (hostEnds_complete ..).rest]
    exact hfree.2.trans hdrop.2
  · exact hdrop

/-! ### Uncommitting shards -/

section
variable {g : Gen} {bad : ShardEntry → Bool} {scrub : Bool} {i : Nat}

/-- A generation of which a bad shard was committed is INCOMPLETE without it. -/
theorem Gen.uncommit_hit (ha : g.state = .active) {e : ShardEntry} (he : e ∈ g.entries) (hb : bad e = true) (hs : e.index ∈ g.shards) :
    (g.uncommit bad scrub).gen = g.gen ∧ (g.uncommit bad scrub).state = .incomplete ∧ e.index ∉ (g.uncommit bad scrub).shards := by
  have hhit : e ∈ g.entries.filter fun e => bad e && g.shards.contains e.index := by
    simp only [List.mem_filter, he, hb, true_and, Bool.true_and, List.contains_iff_mem, hs]
  have hne : (g.entries.filter fun e => bad e && g.shards.contains e.index).isEmpty = false := by
    rw [List.isEmpty_eq_false_iff]
    exact List.ne_nil_of_mem hhit
  have hrun : g.uncommit bad scrub = _ := (if_neg (by rw [ha, hne]; decide)).trans (if_neg (by rw [ha]; decide))
  rw [hrun]
  refine ⟨rfl, rfl, fun hmem => ?_⟩
  have hstay := (List.mem_filter.1 hmem).2
  rw [Bool.not_eq_true', List.any_eq_false] at hstay
  exact hstay e hhit (beq_self_eq_true _)

/-- A generation that has lost a shard does not gain it. -/
theorem Gen.uncommit_lost (hg : g.state = .incomplete) (hs : i ∉ g.shards) :
    (g.uncommit bad scrub).gen = g.gen ∧ (g.uncommit bad scrub).state = .incomplete ∧ i ∉ (g.uncommit bad scrub).shards := by
  unfold Gen.uncommit
  dsimp only
  split
  · exact ⟨rfl, hg, hs⟩
  · rw [if_neg (by rw [hg]; decide)]
    exact ⟨rfl, rfl, fun hmem => hs (List.mem_filter.1 hmem).1⟩

end

/-- Uncommitting shards of a function changes the generations of that function alone, and not the collector. -/
theorem uncommit_gens (s : State) (f : FnId) (bad : Gen → ShardEntry → Bool) (scrub : Bool) :
    ((s.uncommit f bad scrub).fn f.val).gens = (s.fn f.val).gens.map (fun g => g.uncommit (bad g) scrub) ∧
      (∀ b : FnId, b ≠ f → ((s.uncommit f bad scrub).fn b.val).gens = (s.fn b.val).gens) ∧ (s.uncommit f bad scrub).chk = s.chk := by
  obtain ⟨new, hnew⟩ : ∃ new, new = (s.fn f.val).gens.map fun g => g.uncommit (bad g) scrub := ⟨_, rfl⟩
  obtain ⟨u, hu⟩ : ∃ u : State, u = s.updFn f.val fun u => { u with gens := new } := ⟨_, rfl⟩
  have hleaves : Reported u (s.uncommit f bad scrub) ∧ (s.uncommit f bad scrub).chk = u.chk := by
    unfold State.uncommit
    dsimp only
    rw [← hnew, ← hu]
    refine List.foldlRecOn (motive := fun v : State => Reported u v ∧ v.chk = u.chk) _ _ ⟨.refl u, rfl⟩ fun v hv gn _ => ?_
    have htrace : Reported u (v.traceGen f gn.1.gen gn.1.state gn.2.state) ∧ (v.traceGen f gn.1.gen gn.1.state gn.2.state).chk = u.chk := by
      refine ⟨hv.1.trans (reported_traceGen ..), ?_⟩
      unfold State.traceGen
      split
      · exact hv.2
      · rw [traceTo_only]
        exact hv.2
    split
    · obtain ⟨h1, h2⟩ := discarded_leaves (v.traceGen f gn.1.gen gn.1.state gn.2.state) f gn.1
      exact ⟨htrace.1.trans h1, h2.trans htrace.2⟩
    · exact htrace
  refine ⟨?_, fun b hb => ?_, ?_⟩
  · rw [hleaves.1.gens, hu, ← hnew]
    exact congrArg Func.gens (State.fn_updFn_same s f.val fun u => { u with gens := new })
  · rw [hleaves.1.gens, hu]
    exact congrArg Func.gens (State.fn_updFn_other s (fun u => { u with gens := new }) fun h => hb (Fin.ext h))
  · rw [hleaves.2, hu]
    rfl

/-! ### Findings -/

section
variable {s : State} {c : Nat} {off : Nat} {f : FnId} {g : Gen} {e : ShardEntry}

theorem mem_holders (h : (f, g, e) ∈ s.holders c off) : g ∈ (s.fn f.val).gens ∧ e ∈ g.entries := by
  unfold State.holders at h
  obtain ⟨b, -, h⟩ := List.mem_flatMap.1 h
  split at h
  · obtain ⟨x, hx, h⟩ := List.mem_filterMap.1 h
    dsimp only at h
    split at h
    · exact nomatch h
    · obtain ⟨y, hy, h⟩ := Option.map_eq_some_iff.1 h
      cases h
      exact ⟨hx, List.mem_of_find?_eq_some hy⟩
  · exact absurd h List.not_mem_nil

/-- Function `f` has a generation of `g`'s number that is INCOMPLETE without shard `i`. -/
def LacksShard (t : State) (f : FnId) (g : Gen) (i : Nat) : Prop :=
  ∃ g' ∈ (t.fn f.val).gens, g'.gen = g.gen ∧ g'.state = .incomplete ∧ i ∉ g'.shards

theorem LacksShard.uncommit {i : Nat} (h : LacksShard s f g i) (b : FnId) (bad : Gen → ShardEntry → Bool) (scrub : Bool) :
    LacksShard (s.uncommit b bad scrub) f g i := by
  obtain ⟨g', hg', hgen, hstate, hshard⟩ := h
  obtain ⟨hown, hother, -⟩ := uncommit_gens s b bad scrub
  by_cases hb : f = b
  · obtain ⟨h1, h2, h3⟩ := Gen.uncommit_lost (bad := bad g') (scrub := scrub) hstate hshard
    refine ⟨g'.uncommit (bad g') scrub, ?_, h1.trans hgen, h2, h3⟩
    rw [hb, hown]
    rw [hb] at hg'
    exact List.mem_map_of_mem hg'
  · exact ⟨g', by rw [hother f hb]; exact hg', hgen, hstate, hshard⟩

/-- Uncommitting over all functions leaves a generation without each bad shard that it had committed. -/
theorem uncommitAll_lacks (bad : FnId → Gen → ShardEntry → Bool) (scrub : Bool) (hg : g ∈ (s.fn f.val).gens) (he : e ∈ g.entries)
    (ha : g.state = .active) (hs : e.index ∈ g.shards) (hb : bad f g e = true) (l : List FnId) (hf : f ∈ l) :
    LacksShard (l.foldl (fun s b => s.uncommit b (bad b) scrub) s) f g e.index := by
  induction l generalizing s with
  | nil => exact absurd hf List.not_mem_nil
  | cons b l ih =>
    obtain ⟨hown, hother, -⟩ := uncommit_gens s b (bad b) scrub
    by_cases hfb : f = b
    · obtain ⟨h1, h2, h3⟩ := Gen.uncommit_hit (scrub := scrub) ha he hb hs
      have hlacks : LacksShard (s.uncommit b (bad b) scrub) f g e.index := by
        refine ⟨g.uncommit (bad f g) scrub, ?_, h1, h2, h3⟩
        rw [hfb] at hg ⊢
        rw [hown]
        exact List.mem_map_of_mem hg
      exact List.foldlRecOn (motive := fun u : State => LacksShard u f g e.index) l _ hlacks fun u hu b' _ => hu.uncommit b' (bad b') scrub
    · refine ih ?_ ((List.mem_cons.1 hf).resolve_left hfb)
      rw [hother f hfb]
      exact hg

theorem uncommitAll_chk (bad : FnId → Gen → ShardEntry → Bool) (scrub : Bool) (l : List FnId) (s : State) :
    (l.foldl (fun s b => s.uncommit b (bad b) scrub) s).chk = s.chk :=
  List.foldlRecOn (motive := fun u : State => u.chk = s.chk) _ _ rfl fun u hu b _ => (uncommit_gens u b (bad b) scrub).2.2.trans hu

theorem mem_allFns (f : FnId) : f ∈ allFns :=
  List.mem_map.2 ⟨f.val, List.mem_range.2 f.isLt, Fin.ext (Nat.mod_eq_of_lt f.isLt)⟩

/-- A fault that stops nothing leaves its record at its reporter. -/
theorem queueRecord_raised {s u : State} {src : Src} {cause : Cause} {d : Byte} {cls : FaultClass} (hclk : u.clk = s.clk)
    (hrep : u.chk.reporters = s.chk.reporters) (hr : (s.reporter src.reporter).length < 16) :
    u.queueRecord src.reporter (u.mkRecord src cause d cls none) = { u with chk := { u.chk with
      reporters := AMap.set [] s.chk.reporters src.reporter (s.reporter src.reporter ++ [u.mkRecord src cause d cls none]) } } ∧
    ∀ t : State, t.chk.reporters =
        AMap.set [] s.chk.reporters src.reporter (s.reporter src.reporter ++ [u.mkRecord src cause d cls none]) →
      Raised s t src cause d := by
  have hsame : u.reporter src.reporter = s.reporter src.reporter := by rw [State.reporter, hrep, State.reporter]
  refine ⟨?_, fun t ht => ⟨u.mkRecord src cause d cls none, ?_, rfl, rfl, rfl, rfl, ?_, ?_⟩⟩
  · rw [queueRecord_of_room (hsame ▸ hr), hsame, hrep]
  · rw [State.reporter, ht]
    exact AMap.get_set_same ..
  · exact congrArg Clock.timebase hclk
  · exact congrArg Clock.frame hclk

theorem eccMark_cleanWord (s : State) (a : Nat) : (s.cleanWord a).eccMark a = none := by
  rw [State.eccMark, Option.map_eq_none_iff, List.find?_eq_none]
  intro kv hkv
  have := (List.mem_filter.1 hkv).2
  simpa using this

end

section
variable {s u : State} {c : Nat} {d : Byte} {a : Nat}

/-- A correctable word is corrected and reported (R177). -/
theorem corrected_raised (hu : Counted s u) (hr : (s.reporter (coreDie c)).length < 16) :
    Raised s ((u.cleanWord a).raise (.core' c) .eccCorrected d none) (.core' c) .eccCorrected d ∧
      ((u.cleanWord a).raise (.core' c) .eccCorrected d none).eccMark a = none := by
  obtain ⟨hqueue, hraised⟩ := queueRecord_raised (s := s) (u := u.cleanWord a) (src := .core' c) (cause := .eccCorrected) (d := d)
    (cls := .corrected) (by rw [hu.rest]; rfl) (by rw [hu.rest]; rfl) hr
  have hrun : (u.cleanWord a).raise (.core' c) .eccCorrected d none = (u.cleanWord a).queueRecord (coreDie c)
    ((u.cleanWord a).mkRecord (.core' c) .eccCorrected d .corrected none) := rfl
  rw [hrun]
  refine ⟨hraised _ ?_, ?_⟩
  · rw [show coreDie c = (Src.core' c).reporter from rfl, hqueue]
  · rw [show coreDie c = (Src.core' c).reporter from rfl, hqueue]
    exact eccMark_cleanWord u a

/-- A scrub finding is recorded and abandons no pass. -/
theorem finding_raised (hclk : u.clk = s.clk) (hrep : u.chk.reporters = s.chk.reporters) (hr : (s.reporter (coreDie c)).length < 16) :
    ∃ r, u.raise (.core' c) .eccUncorrectable d none = { u with chk := { u.chk with reporters := r } } ∧
      ∀ t : State, t.chk.reporters = r → Raised s t (.core' c) .eccUncorrectable d := by
  obtain ⟨hqueue, hraised⟩ := queueRecord_raised (s := s) (u := u) (src := .core' c) (cause := .eccUncorrectable) (d := d)
    (cls := .contained) hclk hrep hr
  exact ⟨_, hqueue, hraised⟩

end

/-- What CHK_SCRUB_ERR shows of a finding. -/
theorem scrubErr_shows (s : State) (c w : Nat) (h : Option (FnId × Gen × ShardEntry)) : (s.scrubErr c w h).chk.errValid = true ∧
    (s.scrubErr c w h).chk.errCore = BitVec.ofNat 11 c ∧ (s.scrubErr c w h).chk.errWord = BitVec.ofNat 21 w ∧
    (s.scrubErr c w h).chk.reporters = s.chk.reporters ∧ (s.scrubErr c w h).clk = s.clk ∧ (s.scrubErr c w h).fns = s.fns := by
  unfold State.scrubErr
  cases h with
  | none => exact ⟨rfl, rfl, rfl, rfl, rfl, rfl⟩
  | some h => exact ⟨rfl, rfl, rfl, rfl, rfl, rfl⟩

/-- Settles O49: a scrub read reports what it finds, corrects what it can, and uncommits the shards that hold a lost word of a
slice. -/
theorem scrubReads : Obligations.ScrubReads := by
  unfold Obligations.ScrubReads
  intro s c hup hroom
  obtain ⟨u, hu⟩ : ∃ u, u = s.countNow c.val 0x1A := ⟨_, rfl⟩
  have hcount : Counted s u := by
    rw [hu]
    exact counted_countAt ..
  have hmark : ∀ a, u.eccMark a = s.eccMark a := fun a => by rw [State.eccMark, hcount.rest]; rfl
  refine ⟨fun w => ?_, fun m w hw => ?_⟩
  · intro a
    have hrun : execWeightScrubRead c w s = (match u.eccMark a with
        | none => .next u
        | some .correctable => .next ((u.cleanWord a).raise (.core' c.val) .eccCorrected 0x70 none)
        | some .uncorrectable =>
          let hs := u.holders c.val (32 * w.val)
          let first := match hs.find? fun h => h.2.1.gen == (u.fn h.1.val).activeGen with
            | some h => some h
            | none => hs.head?
          .next (allFns.foldl (fun s f =>
            s.uncommit f (fun g e => hs.any fun h => h.1 == f && h.2.1.gen == g.gen && h.2.2.index == e.index) true)
            ((u.scrubErr c.val w.val first).raise (.core' c.val) .eccUncorrectable 0x75 none))) := by
      unfold execWeightScrubRead
      dsimp only
      rw [if_neg (by simp [hup]), ← hu] <;> rfl
    rw [hmark] at hrun
    refine ⟨fun h => ?_, fun h => ?_, fun h => ?_⟩
    · rw [h] at hrun
      exact ⟨u, hrun, by rw [hcount.rest], by rw [hcount.rest]⟩
    · rw [h] at hrun
      obtain ⟨h1, h2⟩ := corrected_raised (a := a) (d := 0x70) hcount hroom
      exact ⟨_, hrun, h2, h1⟩
    · rw [h] at hrun
      obtain ⟨first, hfirst⟩ : ∃ first, first = (match (u.holders c.val (32 * w.val)).find? fun h => h.2.1.gen == (u.fn h.1.val).activeGen with
        | some h => some h
        | none => (u.holders c.val (32 * w.val)).head?) := ⟨_, rfl⟩
      obtain ⟨bad, hbad⟩ : ∃ bad : FnId → Gen → ShardEntry → Bool, bad = fun f g e =>
        (u.holders c.val (32 * w.val)).any fun h => h.1 == f && h.2.1.gen == g.gen && h.2.2.index == e.index := ⟨_, rfl⟩
      obtain ⟨hvalid, hcore, hword, hrep, hclk, hfns⟩ := scrubErr_shows u c.val w.val first
      obtain ⟨r, hraise, hraised⟩ := finding_raised (s := s) (u := u.scrubErr c.val w.val first) (c := c.val) (d := 0x75)
        (by rw [hclk, hcount.rest]) (by rw [hrep, hcount.rest]) hroom
      obtain ⟨v, hv⟩ : ∃ v, v = (u.scrubErr c.val w.val first).raise (.core' c.val) .eccUncorrectable 0x75 none := ⟨_, rfl⟩
      have hrun : exec (.weightScrubRead c w) s = .next (allFns.foldl (fun s f => s.uncommit f (bad f) true) v) := by
        rw [hv, hfirst, hbad]
        exact hrun
      have hchk := uncommitAll_chk bad true allFns v
      rw [← hv] at hraise
      rw [show v.chk = { (u.scrubErr c.val w.val first).chk with reporters := r } by rw [hraise]] at hchk
      refine ⟨_, hrun, hraised _ (by rw [hchk]), ?_, ?_, ?_, fun f g e hmem hact hshard => ?_⟩
      · rw [hchk]
        exact hvalid
      · rw [hchk]
        refine (congrArg BitVec.toNat hcore).trans ?_
        have := c.isLt
        rw [BitVec.toNat_ofNat]
        omega
      · rw [hchk]
        refine (congrArg BitVec.toNat hword).trans ?_
        have := w.isLt
        rw [BitVec.toNat_ofNat]
        omega
      · have hfn : ∀ b, v.fn b = s.fn b := fun b => by
          rw [State.fn, hraise]
          dsimp only
          rw [hfns, hcount.rest]
          rfl
        have hhold : u.holders c.val (32 * w.val) = s.holders c.val (32 * w.val) := by
          rw [hcount.rest]
          rfl
        obtain ⟨hg, he⟩ := mem_holders hmem
        refine uncommitAll_lacks bad true (by rw [hfn]; exact hg) he hact hshard ?_ allFns (mem_allFns f)
        rw [hbad, hhold]
        exact List.any_eq_true.2 ⟨_, hmem, by simp⟩
  · intro a
    have hrun : execMemoryScrubRead c m w s = (match u.eccMark a with
        | none => .next u
        | some .correctable => .next ((u.cleanWord a).raise (.core' c.val) .eccCorrected (eccDetail (scrubSpace m)) none)
        | some .uncorrectable => .next (u.raise (.core' c.val) .eccUncorrectable 0x76 none)) := by
      unfold execMemoryScrubRead
      dsimp only
      rw [if_neg (not_le.2 hw), if_neg (by simp [hup]), ← hu] <;> rfl
    rw [hmark] at hrun
    refine ⟨fun h => ?_, fun h => ?_, fun h => ?_⟩
    · rw [h] at hrun
      exact ⟨u, hrun, by rw [hcount.rest], by rw [hcount.rest]⟩
    · rw [h] at hrun
      obtain ⟨h1, h2⟩ := corrected_raised (a := a) (d := eccDetail (scrubSpace m)) hcount hroom
      exact ⟨_, hrun, h2, h1⟩
    · rw [h] at hrun
      obtain ⟨r, hraise, hraised⟩ := finding_raised (s := s) (u := u) (c := c.val) (d := 0x76)
        (by rw [hcount.rest]) (by rw [hcount.rest]) hroom
      exact ⟨_, hrun, hraised _ (by rw [hraise])⟩

end Sys2Proof.Machine
end


section
/-!
PROOFS. Weight ingest: what the distribution trees, the slots and the generations share, and a shard record's way from its slot to
its commit (R322 to R334).
-/
namespace Sys2Proof.Machine

/-! ### Distribution entries go on asking -/

/-- The functions differ in their distribution entries only, and what has left the module has left it. -/
structure Pumped (s t : State) : Prop where
  rest : t = { s with fns := t.fns, out := t.out }
  fn : ∀ f, t.fn f = { s.fn f with dists := (t.fn f).dists }
  out : ∀ o ∈ s.out, o ∈ t.out

theorem Pumped.refl (s : State) : Pumped s s := ⟨rfl, fun _ => rfl, fun _ h => h⟩

theorem Pumped.trans {s t u : State} (h : Pumped s t) (g : Pumped t u) : Pumped s u := by
  refine ⟨?_, fun f => ?_, fun o ho => g.out o (h.out o ho)⟩
  · have h1 := g.rest
    rw [h.rest] at h1
    exact h1
  · have h1 := g.fn f
    rw [h.fn f] at h1
    exact h1

theorem Pumped.kept {s t : State} (h : Pumped s t) : HostKept s t :=
  ⟨fun f => by rw [h.fn], fun f => by rw [h.fn], fun f => by rw [h.fn], by rw [h.rest], by rw [h.rest], h.out⟩

theorem pumped_updDist (s : State) (f : FnId) (g : W32) (h : Dist → Dist) : Pumped s (s.updFn f.val fun u => u.updDist g h) := by
  refine ⟨rfl, fun b => ?_, fun _ h => h⟩
  by_cases hb : b = f.val
  · rw [hb, State.fn_updFn_same]
    rfl
  · rw [State.fn_updFn_other _ _ hb]

theorem pumped_emit (s : State) (o : Out) : Pumped s (s.emit o) := ⟨rfl, fun _ => rfl, fun _ h => List.mem_cons_of_mem _ h⟩

theorem pumped_notify (s : State) (m : BitVec 12) (ty slot : Nat) (g : W32) (i : Nat) : Pumped s (s.notify m ty slot g i) := pumped_emit ..

theorem pumped_unask (s : State) (f : FnId) (g : W32) (i : Nat) : Pumped s (s.unask f g i) := pumped_updDist ..

theorem pumped_askParent (n : Nat) (s : State) (f : FnId) (g : W32) : Pumped s (askParent n s f g) := by
  induction n generalizing s with
  | zero => exact .refl s
  | succ n ih =>
    rw [askParent]
    split
    · split
      · split
        · exact .refl s
        · split
          · exact .refl s
          · exact ((pumped_updDist ..).trans (pumped_notify ..)).trans (ih _)
      · exact .refl s
    · exact .refl s

theorem Pumped.foldl {α : Type} (l : List α) (s : State) (f : State → α → State) (h : ∀ s a, Pumped s (f s a)) : Pumped s (l.foldl f s) :=
  List.foldlRecOn (motive := fun u : State => Pumped s u) _ _ (.refl s) fun u hu a _ => hu.trans (h u a)

theorem pumped_pump (s : State) : Pumped s s.pump := Pumped.foldl _ s _ fun _ _ => Pumped.foldl _ _ _ fun _ _ => pumped_askParent ..

theorem pumped_serve (s : State) (v : ShardRec) (m : BitVec 12) (n : Nat) : Pumped s (s.serve v m n) :=
  (pumped_emit ..).trans (pumped_notify ..)

/-! ### Slots -/

theorem slot_setSlot (s : State) (k : Nat) (v : Option Slot) : (s.setSlot k v).slot k = v := AMap.get_set_same ..

theorem setSlot_kept (s : State) (k : Nat) (v : Option Slot) : HostKept s (s.setSlot k v) := .of_eq rfl rfl rfl rfl

theorem releaseSlot_held {s : State} {k : Nat} {x : Slot} (h : s.slot k = some x) (hp : ¬(x.phase = .kept ∧ x.waits = [])) :
    s.releaseSlot k = s := by
  unfold State.releaseSlot
  rw [h]
  exact if_neg hp

/-- A slot that is left ends its descriptor and changes nothing of a generation. -/
theorem releaseSlot_leaves (s : State) (k : Nat) : (∀ f, ((s.releaseSlot k).fn f).gens = (s.fn f).gens) ∧
    (∀ f, ((s.releaseSlot k).fn f).activeGen = (s.fn f).activeGen) ∧ (s.releaseSlot k).distFail = s.distFail ∧
    ∀ (u : State) (f : FnId) (r : RingId) (i : BitVec 12) (st : Status), Completed u s f r i st → Completed u (s.releaseSlot k) f r i st := by
  unfold State.releaseSlot
  split
  · next x _ =>
    split
    · obtain ⟨v, hv⟩ : ∃ v, v = s.setSlot k none := ⟨_, rfl⟩
      have hset : HostKept s v := by
        rw [hv]
        exact setSlot_kept ..
      have hfn : ∀ f, v.fn f = s.fn f := fun f => by rw [hv]; rfl
      have hfail : v.distFail = s.distFail := by rw [hv]; rfl
      dsimp only
      rw [← hv]
      split
      · next r i _ =>
        have hends : HostEnds v (v.finish x.fn r i .done) := hostEnds_complete ..
        have hpump := pumped_pump (v.finish x.fn r i .done)
        have hrep := reported_finish v x.fn r i .done
        refine ⟨fun f => ?_, fun f => ?_, ?_, fun u f r' i' st h => ((h.after hset).later hends).after hpump.kept⟩
        · rw [hpump.fn, hrep.fn, hfn]
        · rw [hpump.fn, hrep.fn, hfn]
        · rw [hpump.rest, hends.rest, ← hfail]
      · have hpump := pumped_pump v
        refine ⟨fun f => ?_, fun f => ?_, ?_, fun u f r' i' st h => (h.after hset).after hpump.kept⟩
        · rw [hpump.fn, hfn]
        · rw [hpump.fn, hfn]
        · rw [hpump.rest, ← hfail]
    · exact ⟨fun _ => rfl, fun _ => rfl, rfl, fun _ _ _ _ _ h => h⟩
  · exact ⟨fun _ => rfl, fun _ => rfl, rfl, fun _ _ _ _ _ h => h⟩

/-- A record that fails a step ends its descriptor and is shown in ING_DIST_FAIL; a freed slot is empty. -/
theorem shardFails_fails {s : State} {k : Nat} {x : Slot} {r : RingId} {i : BitVec 12} {st : Status} (hx : x.desc = some (r, i))
    (hst : st ≠ .duplicate) (reason : Nat) (free : Bool) : Completed s (s.shardFails k x reason st free) x.fn r i st ∧
      (free = true → (s.shardFails k x reason st free).slot k = none) ∧
      (s.shardFails k x reason st free).distFail = (s.ingestFail x.shard.index reason (x.parent.getD 0)).distFail := by
  obtain ⟨u, hu⟩ : ∃ u, u = s.ingestFail x.shard.index reason (x.parent.getD 0) := ⟨_, rfl⟩
  obtain ⟨v, hv⟩ : ∃ v, v = u.finish x.fn r i st := ⟨_, rfl⟩
  have hkept : HostKept s u := by
    rw [hu]
    exact .of_eq rfl rfl rfl rfl
  have hends : HostEnds u v := by
    rw [hv]
    exact hostEnds_complete ..
  have hdone : Completed s v x.fn r i st := .before hkept (hv ▸ finish_completed u x.fn r i hst)
  have hfail : v.distFail = u.distFail := by rw [hends.rest]
  have hrun : s.shardFails k x reason st free =
      if free then (v.setSlot k none).pump else (v.setSlot k (some { x with phase := .kept, desc := none })).releaseSlot k := by
    unfold State.shardFails
    rw [hx, hv, hu]
  rw [hrun, ← hu]
  cases free with
  | true =>
    have hpump := pumped_pump (v.setSlot k none)
    refine ⟨(hdone.after (setSlot_kept ..)).after hpump.kept, fun _ => ?_, ?_⟩
    · rw [if_pos rfl, State.slot, hpump.rest]
      exact slot_setSlot v k none
    · rw [if_pos rfl, hpump.rest]
      exact hfail
  | false =>
    rw [if_neg Bool.false_ne_true]
    obtain ⟨-, -, hdist, hdone'⟩ := releaseSlot_leaves (v.setSlot k (some { x with phase := .kept, desc := none })) k
    exact ⟨hdone' _ _ _ _ _ (hdone.after (setSlot_kept ..)), nofun, hdist.trans hfail⟩

/-! ### Generations -/

section
variable {u : Func} {n : W32} {x : Gen} {h : Gen → Gen}

theorem genOf_some (hx : u.genOf n = some x) : x.gen = n ∧ x.state ≠ .retired ∧ x ∈ u.gens := by
  have hp := List.find?_some hx
  rw [Bool.and_eq_true, beq_iff_eq, bne_iff_ne] at hp
  exact ⟨hp.1, hp.2, List.mem_of_find?_eq_some hx⟩

theorem mem_updGen (hx : u.genOf n = some x) : h x ∈ (u.updGen n h).gens := by
  obtain ⟨hgen, hstate, hmem⟩ := genOf_some hx
  refine List.mem_map.2 ⟨x, hmem, ?_⟩
  rw [if_pos (by simp [hgen, hstate])]

/-- An update that keeps the number of a generation and does not retire it updates what the number names. -/
theorem genOf_updGen (hx : u.genOf n = some x) (hh : ∀ y ∈ u.gens, y.gen = n → y.state ≠ .retired → (h y).gen = n ∧ (h y).state ≠ .retired) :
    (u.updGen n h).genOf n = some (h x) := by
  obtain ⟨hgen, hstate, -⟩ := genOf_some hx
  have hpred : ∀ y ∈ u.gens, ((fun y : Gen => y.gen == n && y.state != .retired) ∘
      fun y => if y.gen == n && y.state != .retired then h y else y) y = (y.gen == n && y.state != .retired) := by
    intro y hy
    simp only [Function.comp]
    split
    · next hc =>
      have hc' := hc
      rw [Bool.and_eq_true, beq_iff_eq, bne_iff_ne] at hc'
      obtain ⟨h1, h2⟩ := hh y hy hc'.1 hc'.2
      rw [h1, hc'.1, bne_iff_ne.2 h2, bne_iff_ne.2 hc'.2]
    · rfl
  have hcongr : ∀ (l : List Gen), (∀ y ∈ l, ((fun y : Gen => y.gen == n && y.state != .retired) ∘
      fun y => if y.gen == n && y.state != .retired then h y else y) y = (y.gen == n && y.state != .retired)) →
      l.find? ((fun y : Gen => y.gen == n && y.state != .retired) ∘ fun y => if y.gen == n && y.state != .retired then h y else y) =
      l.find? fun y => y.gen == n && y.state != .retired := by
    intro l
    induction l with
    | nil => exact fun _ => rfl
    | cons y l ih =>
      intro hl
      rw [List.find?_cons, List.find?_cons, hl y List.mem_cons_self, ih fun z hz => hl z (List.mem_cons_of_mem _ hz)]
  unfold Func.genOf Func.updGen
  dsimp only
  rw [List.find?_map, hcongr _ hpred]
  have hfind : u.gens.find? (fun y => y.gen == n && y.state != .retired) = some x := hx
  rw [hfind, Option.map_some, if_pos (by simp [hgen, hstate])]

end

section
variable {s : State} {f : FnId} {n : W32} {x : Gen}

theorem setGen_eq (hx : (s.fn f.val).genOf n = some x) (st : GenState) : s.setGen f n st =
    (s.updFn f.val fun u => u.updGen n fun x => { x with state := st }).traceGen f n x.state st := by
  unfold State.setGen
  rw [hx]

/-- A change of a generation's state reaches the function's generations and no other part of the host interface. -/
theorem setGen_sets (hx : (s.fn f.val).genOf n = some x) (st : GenState) : HostKept s (s.setGen f n st) ∧
    Reported (s.updFn f.val fun u => u.updGen n fun x => { x with state := st }) (s.setGen f n st) := by
  rw [setGen_eq hx]
  refine ⟨HostKept.trans ?_ (traceGen_kept ..), reported_traceGen ..⟩
  exact hostKept_updFn s f.val _ fun _ => ⟨rfl, rfl, rfl⟩

/-- Generations that are retired are not the active one. -/
theorem retireOld_leaves (s : State) (f : FnId) : ((s.retireOld f).fn f.val).activeGen = (s.fn f.val).activeGen ∧
    ((s.retireOld f).fn f.val).exe = (s.fn f.val).exe ∧
    (∀ y ∈ (s.fn f.val).gens, y.gen = (s.fn f.val).activeGen → y ∈ ((s.retireOld f).fn f.val).gens) ∧
    ((s.retireOld f).fn f.val).genOf (s.fn f.val).activeGen = (s.fn f.val).genOf (s.fn f.val).activeGen := by
  obtain ⟨gone, hgone⟩ : ∃ gone : Gen → Bool, gone = fun g => (g.state == .active || g.state == .incomplete) &&
    g.gen != (s.fn f.val).activeGen && !(s.allPasses.any fun kp => kp.2.fn == f && passLive kp.2.state && kp.2.gen == g.gen) := ⟨_, rfl⟩
  obtain ⟨u, hu⟩ : ∃ u : State, u = s.updFn f.val fun u => { u with gens := u.gens.map fun g => if gone g then { g with state := .retired } else g } :=
    ⟨_, rfl⟩
  have hrep : Reported u (s.retireOld f) := by
    have hrun : s.retireOld f = ((s.fn f.val).gens.filter gone).foldl (fun s g => s.traceGen f g.gen g.state .retired) u := by
      rw [hu, hgone]
      rfl
    rw [hrun]
    exact List.foldlRecOn (motive := fun v : State => Reported u v) _ _ (.refl u) fun v hv g _ => hv.trans (reported_traceGen ..)
  have hfn : u.fn f.val = { s.fn f.val with gens := (s.fn f.val).gens.map fun g => if gone g then { g with state := .retired } else g } := by
    rw [hu]
    exact State.fn_updFn_same s f.val fun u => { u with gens := u.gens.map fun g => if gone g then { g with state := .retired } else g }
  have hstays : ∀ y : Gen, y.gen = (s.fn f.val).activeGen → gone y = false := by
    intro y hgen
    rw [hgone]
    simp [hgen]
  refine ⟨?_, ?_, fun y hy hgen => ?_, ?_⟩
  · rw [hrep.fn, hfn]
  · rw [hrep.fn, hfn]
  · rw [hrep.gens, hfn]
    exact List.mem_map.2 ⟨y, hy, if_neg (by rw [hstays y hgen]; exact Bool.false_ne_true)⟩
  · unfold Func.genOf
    rw [hrep.gens, hfn]
    dsimp only
    induction (s.fn f.val).gens with
    | nil => rfl
    | cons y l ih =>
      by_cases hgen : y.gen = (s.fn f.val).activeGen
      · rw [List.map_cons, List.find?_cons, List.find?_cons, hstays y hgen, ih]
        rfl
      · have hne : ∀ z : Gen, z.gen = y.gen → (z.gen == (s.fn f.val).activeGen && z.state != .retired) = false := fun z hz => by
          rw [hz, beq_false_of_ne hgen, Bool.false_and]
        rw [List.map_cons, List.find?_cons, List.find?_cons, hne y rfl, hne _ (by split <;> rfl), ih]

/-- A generation whose last shard is committed is ACTIVE, and its commit has ended. -/
theorem settleGen_full (hx : (s.fn f.val).genOf n = some x) {vm : Nat} (hv : s.vmodule f = some vm) (hfull : x.full vm = true)
    (hstate : (x.state == .loading || x.state == .rolling || (x.state == .incomplete && !(s.fn f.val).retained)) = true) :
    ((s.settleGen f n).fn f.val).activeGen = n ∧
      ({ x with state := .active, back := none, lost := [], desc := none } : Gen) ∈ ((s.settleGen f n).fn f.val).gens ∧
      ∀ r i, x.desc = some (r, i) → Completed s (s.settleGen f n) f r i .done := by
  obtain ⟨hgen, -, -⟩ := genOf_some hx
  obtain ⟨v, hvs⟩ : ∃ v : State, v = (s.setGen f n .active).updFn f.val fun u =>
    { (u.updGen n fun x => { x with back := none, lost := [], desc := none }) with activeGen := n } := ⟨_, rfl⟩
  obtain ⟨w, hw⟩ : ∃ w, w = v.retireOld f := ⟨_, rfl⟩
  obtain ⟨hset, hrep⟩ := setGen_sets hx .active
  have hkept : HostKept s w := by
    rw [hw]
    refine (hset.trans ?_).trans (retireOld_kept v f)
    rw [hvs]
    exact hostKept_updFn _ f.val _ fun _ => ⟨rfl, rfl, rfl⟩
  have hgenset : ((s.setGen f n .active).fn f.val).genOf n = some { x with state := .active } := by
    rw [hrep.fn, State.fn_updFn_same]
    exact genOf_updGen (h := fun x => { x with state := .active }) hx fun y _ hy _ => ⟨hy, nofun⟩
  have hvfn : v.fn f.val = { (((s.setGen f n .active).fn f.val).updGen n fun x => { x with back := none, lost := [], desc := none }) with
      activeGen := n } := by
    rw [hvs, State.fn_updFn_same]
  obtain ⟨hactive, -, hmem, -⟩ := retireOld_leaves v f
  have hin : ({ x with state := .active, back := none, lost := [], desc := none } : Gen) ∈ (w.fn f.val).gens := by
    rw [hw]
    refine hmem _ ?_ (by rw [hvfn]; exact hgen)
    rw [hvfn]
    exact mem_updGen (h := fun x => { x with back := none, lost := [], desc := none }) hgenset
  have hwactive : (w.fn f.val).activeGen = n := by rw [hw, hactive, hvfn]
  have hrun : s.settleGen f n = match x.desc with
      | some (r, i) => w.finish f r i .done
      | none => w := by
    unfold State.settleGen
    rw [hx, hv]
    dsimp only
    rw [hfull, hstate, hw, hvs] <;> rfl
  rw [hrun]
  cases hd : x.desc with
  | none => exact ⟨hwactive, hin, nofun⟩
  | some ri =>
    obtain ⟨r, i⟩ := ri
    have hfin := reported_finish w f r i .done
    refine ⟨?_, ?_, fun r' i' h => ?_⟩
    · dsimp only
      rw [hfin.fn]
      exact hwactive
    · dsimp only
      rw [hfin.gens]
      exact hin
    · cases h
      exact .before hkept (finish_completed w f r i nofun)

/-- A generation that is not whole stays as it is. -/
theorem settleGen_open (hx : (s.fn f.val).genOf n = some x) (h : ¬∃ vm, s.vmodule f = some vm ∧ x.full vm = true) : s.settleGen f n = s := by
  unfold State.settleGen
  rw [hx]
  cases hv : s.vmodule f with
  | none => rfl
  | some vm =>
    have hopen : x.full vm = false := by
      cases hf : x.full vm with
      | false => rfl
      | true => exact absurd ⟨vm, hv, hf⟩ h
    dsimp only
    rw [hopen, Bool.and_false, if_neg Bool.false_ne_true]

/-- Settling a generation keeps its shards. -/
theorem settleGen_shards (hx : (s.fn f.val).genOf n = some x) : ∃ h ∈ ((s.settleGen f n).fn f.val).gens, h.gen = n ∧ h.shards = x.shards := by
  obtain ⟨hgen, -, hmem⟩ := genOf_some hx
  have hsame : s.settleGen f n = s → ∃ h ∈ ((s.settleGen f n).fn f.val).gens, h.gen = n ∧ h.shards = x.shards := fun h => by
    rw [h]
    exact ⟨x, hmem, hgen, rfl⟩
  cases hv : s.vmodule f with
  | none => exact hsame (by unfold State.settleGen; rw [hx, hv])
  | some vm =>
    cases hc : (x.state == .loading || x.state == .rolling || (x.state == .incomplete && !(s.fn f.val).retained)) && x.full vm with
    | false =>
      refine hsame ?_
      unfold State.settleGen
      rw [hx, hv]
      exact if_neg (by rw [hc]; exact Bool.false_ne_true)
    | true =>
      rw [Bool.and_eq_true] at hc
      obtain ⟨-, h, -⟩ := settleGen_full hx hv hc.2 hc.1
      exact ⟨_, h, hgen, rfl⟩

end

end Sys2Proof.Machine
end


section
/-!
PROOFS. A shard record from its slot to its commit (R322 to R326, R328, R332 to R334).
-/
namespace Sys2Proof.Machine

/-! ### Commits and rejections -/

theorem commit_keeps (g : Gen) (vm core : Nat) (e : ShardEntry) : (g.commit vm core e).gen = g.gen ∧ (g.commit vm core e).state = g.state ∧
    (g.commit vm core e).back = g.back ∧ (g.commit vm core e).desc = g.desc ∧ (g.commit vm core e).entries = g.entries ∧
    (g.commit vm core e).shards = if g.has e.index then g.shards else g.shards ++ [e.index] := by
  unfold Gen.commit
  dsimp only
  refine ⟨?_, ?_, ?_, ?_, ?_, ?_⟩ <;> split_ifs <;> rfl

theorem mem_commit {g : Gen} {vm core i : Nat} {e : ShardEntry} (h : i = e.index ∨ i ∈ g.shards) : i ∈ (g.commit vm core e).shards := by
  obtain ⟨-, -, -, -, -, hshards⟩ := commit_keeps g vm core e
  rw [hshards]
  split
  · next hhas =>
    obtain rfl | h := h
    · exact List.contains_iff_mem.1 hhas
    · exact h
  · obtain rfl | h := h
    · exact List.mem_append_right _ (List.mem_singleton_self _)
    · exact List.mem_append_left _ h

/-- Step 1 calls no record a duplicate. -/
theorem stepOne_notDuplicate {s : State} {d : Nat} {x : Slot} {st : Status} (h : s.stepOne d x = some st) :
    st ≠ .duplicate := by
  unfold State.stepOne at h
  dsimp only at h
  split_ifs at h
  · rw [← Option.some.inj h]
    nofun
  · split at h
    · split_ifs at h
      rw [← Option.some.inj h]
      nofun
    · rw [← Option.some.inj h]
      nofun

/-! ### WEIGHT_SHARD -/

section
variable {s : State} {f : FnId} {r : RingId} {i : BitVec 12} {d : Fetched} (h : s.taken f r i 3 = some d)
include h

theorem execWeightShard_free {x : ShardRec} {n : Nat} (hd : dfld d.desc 16 8 ≠ 0) (hl : x.ciphertext.length = shardBytes)
    (hn : s.freeSlot f (x.index % 4) = some n) : execWeightShard f r i (some x) s =
      .next (((s.executing f r i).writeNow (slotAddr (x.index % 4) n) (ShardRec.bytes x)).setSlot (slotKey (x.index % 4) n)
        (some { shard := x, phase := .staged, fn := f, desc := some (r, i), parent := none, waits := [] })) := by
  unfold execWeightShard
  rw [h]
  refine (if_neg (not_or.2 ⟨hd, not_not.2 hl⟩)).trans ?_
  rw [hn]

theorem execWeightShard_waits {x : ShardRec} (hd : dfld d.desc 16 8 ≠ 0) (hl : x.ciphertext.length = shardBytes)
    (hn : s.freeSlot f (x.index % 4) = none) : execWeightShard f r i (some x) s = .next s := by
  unfold execWeightShard
  rw [h]
  refine (if_neg (not_or.2 ⟨hd, not_not.2 hl⟩)).trans ?_
  rw [hn]

theorem execWeightShard_beyond (hd : dfld d.desc 16 8 = 0) (hn : 4 ≤ dfld d.desc 24 1 ∨ dfld d.desc 25 1 ∉ s.ownSlots f) :
    execWeightShard f r i none s = .next (s.finish f r i .rejectedFormat) := by
  unfold execWeightShard
  rw [h]
  dsimp only
  refine (if_neg (not_not.2 hd)).trans (if_pos (hn.imp_right fun hm => ?_))
  simpa using hm

theorem execWeightShard_named (hd : dfld d.desc 16 8 = 0) (hdie : dfld d.desc 24 1 < 4) (hown : dfld d.desc 25 1 ∈ s.ownSlots f)
    (hfree : s.slot (slotKey (dfld d.desc 24 1) (dfld d.desc 25 1)) = none) (hn : s.slotNamed (dfld d.desc 24 1) (dfld d.desc 25 1) = false) :
    execWeightShard f r i none s = .next ((s.executing f r i).setSlot (slotKey (dfld d.desc 24 1) (dfld d.desc 25 1))
      (some { shard := s.slotRecord (dfld d.desc 24 1) (dfld d.desc 25 1), phase := .staged, fn := f, desc := some (r, i),
              parent := none, waits := [] })) := by
  unfold execWeightShard
  rw [h]
  dsimp only
  refine (if_neg (not_not.2 hd)).trans ((if_neg ?_).trans (if_neg ?_))
  · rw [not_or]
    exact ⟨not_le.2 hdie, by simpa using hown⟩
  · rw [hfree, hn]
    decide

end

/-! ### Steps 1 to 4 -/

section
variable {s : State} {d : IoDie} {n : Fin 15} {x : Slot}

/-- The state in which a request for a shard of the parent is no longer outstanding. -/
def State.answered (s : State) (x : Slot) : State :=
  match x.parent with
  | some _ => s.unask x.fn x.shard.generation x.shard.index
  | none => s

/-- The state in which the parent of a record knows that its tag has verified. -/
def State.acknowledged (s : State) (x : Slot) : State :=
  match x.parent with
  | some m => (s.answered x).notify m 2 0 x.shard.generation x.shard.index
  | none => s

theorem pumped_answered (s : State) (x : Slot) : Pumped s (s.answered x) := by
  unfold State.answered
  split
  · exact pumped_unask ..
  · exact .refl s

theorem pumped_acknowledged (s : State) (x : Slot) : Pumped s (s.acknowledged x) := by
  unfold State.acknowledged
  split
  · exact (pumped_answered ..).trans (pumped_notify ..)
  · exact .refl s

/-- Withdrawing a request keeps an entry's children, failures and waiting requests. -/
theorem acknowledged_distOf {b : Dist} (hb : (s.fn x.fn.val).distOf x.shard.generation = some b) :
    ∃ b', ((s.acknowledged x).fn x.fn.val).distOf x.shard.generation = some b' ∧ b'.children = b.children ∧ b'.fails = b.fails ∧
      b'.wanted = b.wanted := by
  unfold State.acknowledged State.answered
  split
  · refine ⟨{ b with asked := b.asked.filter fun a => a.1 != x.shard.index }, ?_, rfl, rfl, rfl⟩
    have hfn : ((s.unask x.fn x.shard.generation x.shard.index).fn x.fn.val) = (s.fn x.fn.val).updDist x.shard.generation
        fun t => { t with asked := t.asked.filter fun a => a.1 != x.shard.index } :=
      State.fn_updFn_same s x.fn.val fun u => u.updDist x.shard.generation fun t => { t with asked := t.asked.filter fun a => a.1 != x.shard.index }
    show ((s.unask x.fn x.shard.generation x.shard.index).fn x.fn.val).distOf x.shard.generation = _
    rw [hfn]
    unfold Func.distOf Func.updDist
    dsimp only
    have hsame : ((fun t : Dist => t.gen == x.shard.generation) ∘ fun t =>
        if t.gen == x.shard.generation then { t with asked := t.asked.filter fun a => a.1 != x.shard.index } else t) =
        fun t => t.gen == x.shard.generation := by
      funext t
      simp only [Function.comp]
      split <;> rfl
    have hfind : (s.fn x.fn.val).dists.find? (fun t => t.gen == x.shard.generation) = some b := hb
    rw [List.find?_map, hsame, hfind, Option.map_some, if_pos (List.find?_some hfind)]
  · exact ⟨b, hb, rfl, rfl, rfl⟩

theorem mem_acknowledged {m : BitVec 12} (hm : x.parent = some m) :
    Out.notice m (Fin.ofNat 4 (x.shard.index % 4)) (noticeOf 2 0 s.moduleId x.shard.generation x.shard.index) ∈ (s.acknowledged x).out := by
  unfold State.acknowledged
  rw [hm]
  have hid : (s.answered x).moduleId = s.moduleId := by
    rw [(pumped_answered s x).rest]
    rfl
  exact hid ▸ List.mem_cons_self

/-- A shard that is sent on changes no slot but its own, and every child that has asked and may be served gets the record. -/
theorem offerShard_offers (s : State) (k : Nat) (x : Slot) (vm : Nat) (next : SlotPhase) :
    (∃ y, (s.offerShard k x vm next).slot k = some y ∧ y.phase = next ∧ y.shard = x.shard) ∧
    (∀ o ∈ s.out, o ∈ (s.offerShard k x vm next).out) ∧
    ∀ b, (s.fn x.fn.val).distOf x.shard.generation = some b → ∀ c ∈ b.children, c.lo ≤ vm → vm ≤ c.hi →
      ∀ w, (b.wanted.find? fun w => w.1 == c.module && w.2.2 == x.shard.index) = some w →
        AMap.get 0 b.fails ((c.module.toNat + 1) * 2 ^ 32 + x.shard.index) < 4 →
        Out.shard c.module (Fin.ofNat 4 (x.shard.index % 4)) w.2.1 (ShardRec.bytes x.shard) ∈ (s.offerShard k x vm next).out := by
  cases hb : (s.fn x.fn.val).distOf x.shard.generation with
  | none =>
    have hrun : s.offerShard k x vm next = s.setSlot k (some { x with phase := next }) := by
      unfold State.offerShard
      dsimp only
      rw [hb]
    rw [hrun]
    exact ⟨⟨_, slot_setSlot .., rfl, rfl⟩, fun _ h => h, nofun⟩
  | some b =>
    obtain ⟨waits, hwaits⟩ : ∃ waits, waits = ((b.children.filter fun c => DistChild.takes c vm).map fun c => (c.module,
        (b.wanted.find? fun w => w.1 == c.module && w.2.2 == x.shard.index).map fun w => w.2.1)).filter fun w =>
        decide (AMap.get 0 b.fails ((w.1.toNat + 1) * 2 ^ 32 + x.shard.index) < 4) := ⟨_, rfl⟩
    obtain ⟨u, hu⟩ : ∃ u : State, u = (s.setSlot k (some { x with phase := next, waits := waits })).updFn x.fn.val fun u =>
      u.updDist x.shard.generation fun t => { t with wanted := t.wanted.filter fun w => w.2.2 != x.shard.index } := ⟨_, rfl⟩
    have hslot : u.slot k = some { x with phase := next, waits := waits } := by
      rw [hu]
      exact slot_setSlot s k (some { x with phase := next, waits := waits })
    have hout : ∀ o ∈ s.out, o ∈ u.out := fun o h => by rw [hu]; exact h
    have hserve : ∀ (v : State) (w : BitVec 12 × Option Nat), Pumped v (match w.2 with
        | some n => v.serve x.shard w.1 n
        | none => v) := by
      intro v w
      cases w.2 with
      | none => exact .refl v
      | some n => exact pumped_serve ..
    have hrun : s.offerShard k x vm next = waits.foldl (fun s w => match w.2 with
        | some n => s.serve x.shard w.1 n
        | none => s) u := by
      unfold State.offerShard
      dsimp only
      rw [hb, hu, hwaits] <;> rfl
    have hpump : Pumped u (s.offerShard k x vm next) := by
      rw [hrun]
      exact Pumped.foldl _ _ _ hserve
    refine ⟨⟨{ x with phase := next, waits := waits }, ?_, rfl, rfl⟩, fun o h => hpump.out o (hout o h),
      fun b' hb' c hc hlo hhi w hw hfail => ?_⟩
    · rw [State.slot, hpump.rest]
      exact hslot
    · obtain rfl := Option.some.inj hb'
      have hmem : (c.module, some w.2.1) ∈ waits := by
        rw [hwaits]
        refine List.mem_filter.2 ⟨List.mem_map.2 ⟨c, List.mem_filter.2 ⟨hc, ?_⟩, ?_⟩, decide_eq_true hfail⟩
        · simp [DistChild.takes, hlo, hhi]
        · rw [hw]
          rfl
      obtain ⟨l1, l2, hsplit⟩ := List.append_of_mem hmem
      rw [hrun, hsplit, List.foldl_append, List.foldl_cons]
      refine (Pumped.foldl _ _ _ hserve).out _ ?_
      exact List.mem_cons_of_mem _ List.mem_cons_self

variable (hup : s.up = true) (hslot : s.slot (slotKey d.val n.val) = some x)
include hup hslot

theorem execShardRecordProcess_one (hp : x.phase = .staged) {st : Status} (hst : s.stepOne d.val x = some st) :
    execShardRecordProcess d n s = .next ((s.answered x).shardFails (slotKey d.val n.val) x 1 st true) := by
  unfold execShardRecordProcess
  dsimp only
  rw [hslot]
  dsimp only
  rw [if_neg (by simp [hup, hp]), if_neg (by simp [hp]), hst]
  unfold State.answered
  cases x.parent <;> rfl

section
variable {g : Gen} {e : ShardEntry} (hp : x.phase = .staged) (hone : s.stepOne d.val x = none)
  (hg : (s.fn x.fn.val).genOf x.shard.generation = some g) (he : g.entry x.shard.index = some e)
  (hbusy : s.shardBusy (slotKey d.val n.val) x = false) (hnew : x.shard.index ∉ g.shards)
include hp hone hg he hbusy hnew

theorem execShardRecordProcess_three (hopen : s.openShard x = none) (hpar : x.parent = none) :
    execShardRecordProcess d n s = .next (s.shardFails (slotKey d.val n.val) x 2 .rejectedFormat true) := by
  unfold execShardRecordProcess
  dsimp only
  rw [hslot]
  dsimp only
  rw [if_neg (by simp [hup, hp]), if_neg (by simp [hp]), hone, hg]
  dsimp only [Option.bind_some]
  rw [he]
  dsimp only
  refine (if_neg (by simp [hbusy])).trans ((if_neg (by simp [Gen.has, hnew])).trans ((if_pos (by simp [hopen])).trans ?_))
  rw [hpar]

theorem execShardRecordProcess_four (hopen : s.openShard x ≠ none) (hv : s.vmodule x.fn = some e.vmodule) :
    execShardRecordProcess d n s =
      .next ((((s.acknowledged x).offerShard (slotKey d.val n.val) x e.vmodule .verified).releaseSlot (slotKey d.val n.val)).pump) := by
  unfold execShardRecordProcess
  dsimp only
  rw [hslot]
  dsimp only
  rw [if_neg (by simp [hup, hp]), if_neg (by simp [hp]), hone, hg]
  dsimp only [Option.bind_some]
  rw [he]
  dsimp only
  refine (if_neg (by simp [hbusy])).trans ((if_neg (by simp [Gen.has, hnew])).trans ((if_neg (by simpa using hopen)).trans ?_))
  rw [hv]
  simp only [Option.any_some, beq_self_eq_true, Bool.true_or, ↓reduceIte]
  unfold State.acknowledged State.answered
  cases x.parent <;> rfl

end

/-! ### Steps 5 to 7 -/

section
variable {g : Gen} {e : ShardEntry} {l : Loaded} {c : Nat} (hg : (s.fn x.fn.val).genOf x.shard.generation = some g)
  (he : g.entry x.shard.index = some e) (hl : s.loaded x.fn = some l) (hc : l.coreOf e.vcore = some c)
include hg he hl hc

section
variable (hp : x.phase = .verified) (hvm : l.vmodule = e.vmodule) (hstate : g.state = .loading ∨ g.state = .rolling ∨ g.state = .incomplete)
include hp hvm hstate

theorem execShardWrite_waits (hw : s.blockFenced x.fn g e.block = true ∨ s.serving c = false) : execShardWrite d n s = .next s := by
  have hbind : ((s.loaded x.fn).bind fun l => if l.vmodule = e.vmodule then l.coreOf e.vcore else none) = some c := by
    rw [hl, Option.bind_some, if_pos hvm, hc]
  unfold execShardWrite
  dsimp only
  rw [hslot]
  dsimp only
  rw [hg, hp]
  dsimp only
  rw [he]
  dsimp only
  refine (if_neg ?_).trans ?_
  · obtain h | h | h := hstate <;> simp [hup, h]
  · rw [hbind]
    dsimp only
    exact if_pos (by obtain h | h := hw <;> simp [h])

theorem execShardWrite_writes (hfence : s.blockFenced x.fn g e.block = false) (hserve : s.serving c = true) {plain : List Byte}
    (hplain : s.openShard x = some plain) :
    let a := absAddr 0 c ((s.func x.fn).wBase + g.copy * (s.fn x.fn.val).copyLen + e.offset)
    let image := shardImage (s.fn x.fn.val).tensors e s.fresh plain
    ∃ t, execShardWrite d n s = .next t ∧ t.slot (slotKey d.val n.val) = some { x with phase := .written plain } ∧
      t.mem = memPut s.mem a image := by
  have hbind : ((s.loaded x.fn).bind fun l => if l.vmodule = e.vmodule then l.coreOf e.vcore else none) = some c := by
    rw [hl, Option.bind_some, if_pos hvm, hc]
  intro a image
  obtain ⟨u, hu⟩ : ∃ u : State, u = { (s.writeNow a image).clearEcc 0 a shardBytes with fresh := s.fresh + 1 } := ⟨_, rfl⟩
  obtain ⟨w, hw⟩ : ∃ w : State, w = u.updFn x.fn.val fun u => u.updGen g.gen fun g =>
    { g with begun := if g.begun.contains e.block then g.begun else g.begun ++ [e.block] } := ⟨_, rfl⟩
  refine ⟨w.setSlot (slotKey d.val n.val) (some { x with phase := .written plain }), ?_, slot_setSlot .., ?_⟩
  · unfold execShardWrite
    dsimp only
    rw [hslot]
    dsimp only
    rw [hg, hp]
    dsimp only
    rw [he]
    dsimp only
    refine (if_neg ?_).trans ?_
    · obtain h | h | h := hstate <;> simp [hup, h]
    · rw [hbind]
      dsimp only
      refine (if_neg (by simp [hfence, hserve])).trans ?_
      rw [hplain, hw, hu]
      rfl
  · have hmem : w.mem = u.mem := by rw [hw]; rfl
    exact hmem.trans (by rw [hu]; rfl)

end

section
variable {plain : List Byte} (hp : x.phase = .written plain)
include hp

theorem execShardCommit_hash (hsha : sha256n plain ≠ e.sha) :
    execShardCommit d n s = .next (s.shardFails (slotKey d.val n.val) x 3 .rejectedFormat false) := by
  unfold execShardCommit
  dsimp only
  rw [hslot]
  dsimp only
  rw [hp, hg, hl]
  dsimp only
  rw [he]
  dsimp only [Option.bind_some]
  rw [hc]
  dsimp only
  exact (if_neg (by simp [hup])).trans (if_pos hsha)

/-- The state in which a shard's commit has settled its generation. -/
def State.committed (s : State) (x : Slot) (g : Gen) (l : Loaded) (c : Nat) (e : ShardEntry) : State :=
  (s.updFn x.fn.val fun u => u.updGen g.gen fun _ => g.commit l.vmodule c e).settleGen x.fn g.gen

theorem execShardCommit_commits (hsha : sha256n plain = e.sha) (hzero : ∀ b ∈ checkAreas (s.fn x.fn.val).tensors e plain, b = 0)
    (hback : g.back = none) : execShardCommit d n s =
      .next (((s.committed x g l c e).setSlot (slotKey d.val n.val) (some { x with phase := .kept })).releaseSlot (slotKey d.val n.val)) := by
  have hany : ((checkAreas (s.fn x.fn.val).tensors e plain).any fun b => b != 0) = false := by
    rw [List.any_eq_false]
    intro b hb
    simp [hzero b hb]
  have hback' : (g.commit l.vmodule c e).back = none := (commit_keeps g l.vmodule c e).2.2.1.trans hback
  unfold execShardCommit
  dsimp only
  rw [hslot]
  dsimp only
  rw [hp, hg, hl]
  dsimp only
  rw [he]
  dsimp only [Option.bind_some]
  rw [hc]
  dsimp only
  refine (if_neg (by simp [hup])).trans ((if_neg (not_not.2 hsha)).trans ((if_neg (by rw [hany]; exact Bool.false_ne_true)).trans ?_))
  rw [hback']
  rfl

end

end

end

section
variable {s : State} {x : Slot} {g : Gen} {l : Loaded} {c : Nat} {e : ShardEntry}

/-- What the commit of a shard leaves of its generation. -/
theorem committed_commits (hg : (s.fn x.fn.val).genOf x.shard.generation = some g) (hl : s.loaded x.fn = some l) :
    (∃ h ∈ ((s.committed x g l c e).fn x.fn.val).gens, h.gen = g.gen ∧ e.index ∈ h.shards) ∧
    (g.state = .loading → (∀ o ∈ g.entries, o.vmodule = l.vmodule → o.index = e.index ∨ o.index ∈ g.shards) →
      ((s.committed x g l c e).fn x.fn.val).activeGen = g.gen ∧
      (∃ h ∈ ((s.committed x g l c e).fn x.fn.val).gens, h.gen = g.gen ∧ h.state = .active) ∧
      ∀ r i, g.desc = some (r, i) → Completed s (s.committed x g l c e) x.fn r i .done) := by
  obtain ⟨hgen, hlive, -⟩ := genOf_some hg
  obtain ⟨kgen, kstate, -, kdesc, kentries, -⟩ := commit_keeps g l.vmodule c e
  obtain ⟨u, hu⟩ : ∃ u : State, u = s.updFn x.fn.val fun u => u.updGen g.gen fun _ => g.commit l.vmodule c e := ⟨_, rfl⟩
  have hfn : u.fn x.fn.val = (s.fn x.fn.val).updGen g.gen fun _ => g.commit l.vmodule c e := by
    rw [hu]
    exact State.fn_updFn_same s x.fn.val fun u => u.updGen g.gen fun _ => g.commit l.vmodule c e
  have hof : (u.fn x.fn.val).genOf g.gen = some (g.commit l.vmodule c e) := by
    rw [hfn]
    refine genOf_updGen (h := fun _ => g.commit l.vmodule c e) (hgen.symm ▸ hg) fun y _ _ _ => ⟨kgen, ?_⟩
    rw [kstate]
    exact hlive
  have hvm : u.vmodule x.fn = some l.vmodule := by
    have hexe : u.loaded x.fn = some l := by
      rw [State.loaded, hfn]
      exact hl
    rw [State.vmodule, hexe]
    rfl
  have hkept : HostKept s u := by
    rw [hu]
    exact hostKept_updFn s x.fn.val _ fun _ => ⟨rfl, rfl, rfl⟩
  have hrun : s.committed x g l c e = u.settleGen x.fn g.gen := by
    rw [hu]
    rfl
  rw [hrun]
  refine ⟨?_, fun hload hall => ?_⟩
  · obtain ⟨h, hmem, h1, h2⟩ := settleGen_shards hof
    exact ⟨h, hmem, h1, by rw [h2]; exact mem_commit (.inl rfl)⟩
  · have hfull : (g.commit l.vmodule c e).full l.vmodule = true := by
      rw [Gen.full, List.all_eq_true, kentries]
      intro o ho
      by_cases hov : o.vmodule = l.vmodule
      · have : (g.commit l.vmodule c e).has o.index = true := List.contains_iff_mem.2 (mem_commit (hall o ho hov))
        rw [this, Bool.or_true]
      · rw [bne_iff_ne.2 hov, Bool.true_or]
    obtain ⟨h1, hmem, h4⟩ := settleGen_full hof hvm hfull (by rw [kstate, hload]; rfl)
    exact ⟨h1, ⟨_, hmem, kgen, rfl⟩, fun r i hd => .before hkept (h4 r i (kdesc.trans hd))⟩

end

/-- Settles O50: a record takes its slot, fails or passes the steps, is written to its core and committed. -/
theorem shardRecords : Obligations.ShardRecords := by
  unfold Obligations.ShardRecords
  intro s hup _ _
  refine ⟨fun f r i d h => ⟨fun x hd hl => ⟨?_, fun n hn => ?_⟩, fun hd => ?_⟩, fun d n x hslot => ?_⟩
  · exact execWeightShard_waits h hd hl
  · refine ⟨_, _, execWeightShard_free h hd hl hn, slot_setSlot .., rfl, rfl, rfl, rfl, ?_⟩
    exact memGet_memPut s.mem (slotAddr (x.index % 4) n) (ShardRec.bytes x)
  · intro k
    refine ⟨fun hn => ?_, fun hdie hown hfree hnamed => ?_⟩
    · exact ⟨_, execWeightShard_beyond h hd hn, finish_completed s f r i nofun⟩
    · exact ⟨_, _, execWeightShard_named h hd hdie hown hfree hnamed, slot_setSlot .., rfl, rfl, rfl⟩
  · intro k v u
    refine ⟨fun hp hpar r i hx => ⟨fun st hst => ?_, fun g e hone hg he hbusy hnew hopen => ?_⟩,
      fun hp g e hone hg he hbusy hnew hopen hv => ?_, fun g e l c hp hg he hl hvm hc hstate => ?_,
      fun g e l c plain hp hg he hl hc => ⟨fun r i hsha hx => ?_, fun hsha hzero hback => ?_⟩⟩
    · have hrun := execShardRecordProcess_one hup hslot hp hst
      rw [show s.answered x = s by unfold State.answered; rw [hpar]] at hrun
      obtain ⟨h1, h2, h3⟩ := shardFails_fails (s := s) (k := k) hx (stepOne_notDuplicate hst) 1 true
      exact ⟨_, hrun, h1, h2 rfl, by rw [h3]; rfl, by rw [h3]; rfl, by rw [h3]; rfl⟩
    · obtain ⟨h1, h2, h3⟩ := shardFails_fails (s := s) (k := k) (st := .rejectedFormat) hx nofun 2 true
      exact ⟨_, execShardRecordProcess_three hup hslot hp hone hg he hbusy hnew hopen hpar, h1, h2 rfl, by rw [h3]; rfl, by rw [h3]; rfl⟩
    · obtain ⟨⟨y, hy, hphase, hshard⟩, hout, hserve⟩ := offerShard_offers (s.acknowledged x) k x e.vmodule .verified
      obtain ⟨w, hw⟩ : ∃ w, w = (s.acknowledged x).offerShard k x e.vmodule .verified := ⟨_, rfl⟩
      rw [← hw] at hy hout hserve
      have hrun := execShardRecordProcess_four hup hslot hp hone hg he hbusy hnew hopen hv
      rw [← hw, releaseSlot_held hy (by rw [hphase]; nofun)] at hrun
      have hpump := pumped_pump w
      refine ⟨_, y, hrun, ?_, hphase, hshard, fun m hm => hpump.out _ (hout _ (mem_acknowledged hm)),
        fun b hb c hcm hlo hhi q hq hfail => hpump.out _ ?_⟩
      · rw [State.slot, hpump.rest]
        exact hy
      · obtain ⟨b', hb', hchild, hfails, hwant⟩ := acknowledged_distOf hb
        exact hserve b' hb' c (by rw [hchild]; exact hcm) hlo hhi q (by rw [hwant]; exact hq) (by rw [hfails]; exact hfail)
    · refine ⟨execShardWrite_waits hup hslot hg he hl hc hp hvm hstate, fun hfence hserve plain hplain => ?_⟩
      obtain ⟨t, hrun, hs, hmem⟩ := execShardWrite_writes hup hslot hg he hl hc hp hvm hstate hfence hserve hplain
      refine ⟨t, hrun, hs, ?_⟩
      intro image
      rw [hmem]
      exact memGet_memPut ..
    · obtain ⟨h1, -, h3⟩ := shardFails_fails (s := s) (k := k) (st := .rejectedFormat) hx nofun 3 false
      exact ⟨_, execShardCommit_hash hup hslot hg he hl hc hp hsha, h1, by rw [h3]; rfl, by rw [h3]; rfl⟩
    · obtain ⟨hshard, hactive⟩ := committed_commits (c := c) (e := e) hg hl
      obtain ⟨w, hw⟩ : ∃ w, w = s.committed x g l c e := ⟨_, rfl⟩
      rw [← hw] at hshard hactive
      have hset : HostKept w (w.setSlot k (some { x with phase := .kept })) := setSlot_kept ..
      obtain ⟨hgens, hact, -, hdone⟩ := releaseSlot_leaves (w.setSlot k (some { x with phase := .kept })) k
      have hrun := execShardCommit_commits hup hslot hg he hl hc hp hsha hzero hback
      rw [← hw] at hrun
      refine ⟨_, hrun, ?_, fun hload hall => ?_⟩
      · rw [hgens]
        exact hshard
      · obtain ⟨h1, h2, h3⟩ := hactive hload hall
        refine ⟨(hact _).trans h1, ?_, fun r i hd => hdone _ _ _ _ _ ((h3 r i hd).after hset)⟩
        rw [hgens]
        exact h2

end Sys2Proof.Machine
end


section
/-!
PROOFS. GEN_COMMIT in its three forms, the notices between parent and child, and zeroing (R327 to R333, R404).
-/
namespace Sys2Proof.Machine

/-! ### GEN_COMMIT -/

section
variable {s : State} {f : FnId} {r : RingId} {i : BitVec 12} {g : W32} {x : Gen}

theorem prepared_state (h : x.isPrepared = true) : x.state = .prepared := by
  unfold Gen.isPrepared at h
  simp only [Bool.and_eq_true, beq_iff_eq] at h
  exact h.1.1

/-- A commit that names no PREPARED generation is refused. -/
theorem commit_unprepared {op : Nat × Instr}
    (hop : op ∈ [(1, Instr.genCommitStaged f r i), (2, .genCommitRolling f r i), (3, .genCommitAbort f r i)])
    (h : s.commitOf f r i op.1 = some g)
    (hx : (s.fn f.val).genOf g = none ∨ ∃ x, (s.fn f.val).genOf g = some x ∧ x.state = .prepared ∧ x.isPrepared = false) :
    exec op.2 s = .next (s.finish f r i .rejectedGeneration) := by
  simp only [List.mem_cons, List.not_mem_nil, or_false] at hop
  obtain rfl | rfl | rfl := hop
  · show execGenCommitStaged f r i s = _
    unfold execGenCommitStaged
    rw [h]
    obtain hx | ⟨x, hx, -, hp⟩ := hx
    · dsimp only
      rw [hx]
    · dsimp only
      rw [hx]
      exact if_pos (by rw [hp]; rfl)
  · show execGenCommitRolling f r i s = _
    unfold execGenCommitRolling
    rw [h]
    obtain hx | ⟨x, hx, -, hp⟩ := hx
    · dsimp only
      rw [hx]
    · dsimp only
      rw [hx]
      exact if_pos (by rw [hp]; rfl)
  · show execGenCommitAbort f r i s = _
    unfold execGenCommitAbort
    rw [h]
    obtain hx | ⟨x, hx, hstate, hp⟩ := hx
    · dsimp only
      rw [hx]
    · dsimp only
      rw [hx]
      dsimp only
      rw [hstate]
      exact if_pos (by rw [hp]; rfl)

/-- While another commit is under way, a commit is refused. -/
theorem commit_busy {op : Nat × Instr} (hop : op ∈ [(1, Instr.genCommitStaged f r i), (2, .genCommitRolling f r i)])
    (h : s.commitOf f r i op.1 = some g) (hx : (s.fn f.val).genOf g = some x) (hp : x.isPrepared = true)
    (hfree : (s.fn f.val).commitFree g = false) : exec op.2 s = .next (s.finish f r i .rejectedState) := by
  simp only [List.mem_cons, List.not_mem_nil, or_false] at hop
  obtain rfl | rfl := hop
  · show execGenCommitStaged f r i s = _
    unfold execGenCommitStaged
    rw [h]
    dsimp only
    rw [hx]
    exact (if_neg (by rw [hp]; decide)).trans (if_pos (by rw [hfree]; rfl))
  · show execGenCommitRolling f r i s = _
    unfold execGenCommitRolling
    rw [h]
    dsimp only
    rw [hx]
    exact (if_neg (by rw [hp]; decide)).trans (if_pos (by rw [hfree]; rfl))

/-- The copy that a staged commit loads into. -/
def Func.otherCopy (u : Func) : Nat :=
  match u.activeCopy with
  | some c => 1 - c
  | none => 0

/-- The state in which a commit's generation has its mode and its copy, and its descriptor executes. -/
def State.committing (s : State) (f : FnId) (r : RingId) (i : BitVec 12) (g : W32) (mode : SwapMode) (copy : Nat) (active : W32) : State :=
  (s.executing f r i).updFn f.val fun u =>
    { (u.updGen g fun x => { x with mode := mode, copy := copy, desc := some (r, i) }) with activeGen := active }

/-- A generation whose commit has begun, in the state that the commit gives it. -/
def Gen.begunAs (x : Gen) (mode : SwapMode) (copy : Nat) (d : RingId × BitVec 12) (st : GenState) : Gen :=
  { x with mode := mode, copy := copy, desc := some d, state := st }

theorem execGenCommitStaged_begins (h : s.commitOf f r i 1 = some g) (hx : (s.fn f.val).genOf g = some x) (hp : x.isPrepared = true)
    (hfree : (s.fn f.val).commitFree g = true)
    (hidle : ∀ kp ∈ s.allPasses, kp.2.fn = f → passLive kp.2.state = true → kp.2.gen ≠ 0 → kp.2.copy ≠ (s.fn f.val).otherCopy)
    (hsize : 2 * (s.fn f.val).copyLen ≤ (s.func f).wSize) : execGenCommitStaged f r i s =
      .next (((s.committing f r i g .staged (s.fn f.val).otherCopy (s.fn f.val).activeGen).setGen f g .loading).settleGen f g) := by
  have hbusy : (s.allPasses.any fun kp => kp.2.fn == f && passLive kp.2.state && kp.2.gen != 0 && kp.2.copy == (s.fn f.val).otherCopy) = false := by
    rw [List.any_eq_false]
    intro kp hkp hc
    simp only [Bool.and_eq_true, beq_iff_eq, bne_iff_ne] at hc
    exact hidle kp hkp hc.1.1.1 hc.1.1.2 hc.1.2 hc.2
  have hrun : execGenCommitStaged f r i s =
      if !x.isPrepared then .next (s.finish f r i .rejectedGeneration)
      else if !(s.fn f.val).commitFree g || (s.allPasses.any fun kp => kp.2.fn == f && passLive kp.2.state && kp.2.gen != 0 &&
          kp.2.copy == (s.fn f.val).otherCopy) || decide ((s.func f).wSize < 2 * (s.fn f.val).copyLen) then
        .next (s.finish f r i .rejectedState)
      else .next (((((s.executing f r i).updFn f.val fun u => u.updGen g fun x =>
        { x with mode := .staged, copy := (s.fn f.val).otherCopy, desc := some (r, i) })).setGen f g .loading).settleGen f g) := by
    unfold execGenCommitStaged
    rw [h]
    dsimp only
    rw [hx] <;> rfl
  rw [hrun, if_neg (by rw [hp]; decide), hbusy, hfree, if_neg (by simpa using hsize)]
  have hsame : (s.committing f r i g .staged (s.fn f.val).otherCopy (s.fn f.val).activeGen) =
      (s.executing f r i).updFn f.val fun u => u.updGen g fun x =>
        { x with mode := .staged, copy := (s.fn f.val).otherCopy, desc := some (r, i) } := by
    unfold State.committing State.updFn
    refine congrArg ((s.executing f r i).setFn f.val) ?_
    rw [executing_fn]
    rfl
  rw [hsame]

theorem execGenCommitRolling_begins (h : s.commitOf f r i 2 = some g) (hx : (s.fn f.val).genOf g = some x) (hp : x.isPrepared = true)
    (hfree : (s.fn f.val).commitFree g = true) : execGenCommitRolling f r i s =
      .next ((((s.committing f r i g .rolling ((s.fn f.val).activeCopy.getD 0) g).setGen f g .rolling).retireOld f).settleGen f g) := by
  have hsame : s.committing f r i g .rolling ((s.fn f.val).activeCopy.getD 0) g = (s.executing f r i).updFn f.val fun u =>
      { (u.updGen g fun x => { x with mode := .rolling, copy := u.activeCopy.getD 0, desc := some (r, i) }) with activeGen := g } := by
    unfold State.committing State.updFn
    refine congrArg ((s.executing f r i).setFn f.val) ?_
    rw [executing_fn]
    rfl
  rw [hsame]
  unfold execGenCommitRolling
  rw [h]
  dsimp only
  rw [hx]
  dsimp only
  rw [if_neg (by rw [hp]; decide), if_neg (by rw [hfree]; decide)]

/-- What a commit that has begun shows before its generation is settled. -/
theorem committing_shows (hx : (s.fn f.val).genOf g = some x) (mode : SwapMode) (copy : Nat) (active : W32) {st : GenState}
    (hst : st ≠ .retired) :
    let v := (s.committing f r i g mode copy active).setGen f g st
    HostKept (s.executing f r i) v ∧ (v.fn f.val).genOf g = some (x.begunAs mode copy (r, i) st) ∧ (v.fn f.val).activeGen = active ∧
      (v.fn f.val).exe = (s.fn f.val).exe := by
  intro v
  obtain ⟨u, hu⟩ : ∃ u, u = s.committing f r i g mode copy active := ⟨_, rfl⟩
  obtain ⟨hgen, hlive, -⟩ := genOf_some hx
  have hfn : u.fn f.val = { (((s.executing f r i).fn f.val).updGen g fun x => { x with mode := mode, copy := copy, desc := some (r, i) }) with
      activeGen := active } := by
    rw [hu, State.committing, State.fn_updFn_same]
  have hex : ((s.executing f r i).fn f.val).genOf g = some x := by
    rw [executing_fn]
    exact hx
  have hof : (u.fn f.val).genOf g = some { x with mode := mode, copy := copy, desc := some (r, i) } := by
    rw [hfn]
    exact genOf_updGen (h := fun x => { x with mode := mode, copy := copy, desc := some (r, i) }) hex fun y _ hy hs => ⟨hy, hs⟩
  have hkept : HostKept (s.executing f r i) u := by
    rw [hu]
    exact hostKept_updFn _ f.val _ fun _ => ⟨rfl, rfl, rfl⟩
  have hv : v = u.setGen f g st := by rw [hu]
  obtain ⟨hset, hrep⟩ := setGen_sets hof st
  rw [hv]
  refine ⟨hkept.trans hset, ?_, ?_, ?_⟩
  · rw [hrep.fn, State.fn_updFn_same]
    exact genOf_updGen (h := fun x => { x with state := st }) hof fun y _ hy _ => ⟨hy, hst⟩
  · rw [hrep.fn, State.fn_updFn_same]
    show (u.fn f.val).activeGen = active
    rw [hfn]
  · rw [hrep.fn, State.fn_updFn_same]
    show (u.fn f.val).exe = (s.fn f.val).exe
    rw [hfn, executing_fn]
    rfl

/-- A generation whose shards are all here already is ACTIVE at its commit, any other one stays in the state of the swap. -/
theorem settleGen_begun {v : State} {mode : SwapMode} {copy : Nat} {st : GenState} (hkept : HostKept (s.executing f r i) v)
    (hx : x.gen = g) (hof : (v.fn f.val).genOf g = some (x.begunAs mode copy (r, i) st)) (hexe : (v.fn f.val).exe = (s.fn f.val).exe)
    (hst : st = .loading ∨ st = .rolling) : ∃ h ∈ ((v.settleGen f g).fn f.val).gens, h.gen = g ∧ h.copy = copy ∧ h.mode = mode ∧
      ((¬∃ vm, s.vmodule f = some vm ∧ x.full vm = true) → h.state = st ∧ ((v.settleGen f g).fn f.val).activeGen = (v.fn f.val).activeGen) ∧
      ((∃ vm, s.vmodule f = some vm ∧ x.full vm = true) → h.state = .active ∧ ((v.settleGen f g).fn f.val).activeGen = g ∧
        Completed s (v.settleGen f g) f r i .done) := by
  have hvm : v.vmodule f = s.vmodule f := by rw [State.vmodule, State.loaded, hexe, State.vmodule, State.loaded]
  by_cases hw : ∃ vm, s.vmodule f = some vm ∧ x.full vm = true
  · obtain ⟨vm, hv, hfull⟩ := hw
    obtain ⟨h1, h2, h3⟩ := settleGen_full hof (hvm.trans hv) hfull (by obtain rfl | rfl := hst <;> rfl)
    exact ⟨_, h2, hx, rfl, rfl, fun hn => absurd ⟨vm, hv, hfull⟩ hn,
      fun _ => ⟨rfl, h1, Completed.executing (.before hkept (h3 r i rfl))⟩⟩
  · rw [settleGen_open hof (by rw [hvm]; exact hw)]
    exact ⟨_, (genOf_some hof).2.2, hx, rfl, rfl, fun _ => ⟨rfl, rfl⟩, fun h => absurd h hw⟩

/-! ### GEN_COMMIT ABORT -/

theorem genOf_retired (u : Func) (n : W32) : (u.updGen n fun x => { x with state := .retired }).genOf n = none := by
  unfold Func.genOf Func.updGen
  rw [List.find?_eq_none]
  intro y hy
  obtain ⟨z, -, rfl⟩ := List.mem_map.1 hy
  split
  · simp
  · next h => simpa using h

theorem execGenCommitAbort_discards (h : s.commitOf f r i 3 = some g) (hx : (s.fn f.val).genOf g = some x)
    (hp : x.isPrepared = true ∨ x.state = .loading) :
    execGenCommitAbort f r i s = .next (((s.setGen f g .retired).discarded f x).finish f r i .done) := by
  unfold execGenCommitAbort
  rw [h]
  dsimp only
  rw [hx]
  dsimp only
  obtain hp | hp := hp
  · rw [prepared_state hp]
    exact if_neg (by rw [hp]; decide)
  · rw [hp]

theorem execGenCommitAbort_stops (h : s.commitOf f r i 3 = some g) (hx : (s.fn f.val).genOf g = some x) (hp : x.state = .rolling) :
    execGenCommitAbort f r i s = .next ((s.setGen f g .incomplete).finish f r i .done) := by
  unfold execGenCommitAbort
  rw [h]
  dsimp only
  rw [hx]
  dsimp only
  rw [hp]

/-- A generation and records without descriptors are discarded without a completion. -/
theorem discarded_kept {v : State} (hd : x.desc = none) (hs : ∀ kv ∈ v.slots, ∀ y, kv.2 = some y → y.desc = none) :
    HostKept v (v.discarded f x) := by
  have hdrop : HostKept v (v.dropSlots f x.gen) := by
    unfold State.dropSlots
    refine List.foldlRecOn (motive := fun u : State => HostKept v u) _ _ (.refl v) fun u hu kv hkv => ?_
    split
    · next y hy =>
      split
      · dsimp only
        rw [hs kv hkv y hy]
        exact hu.trans (setSlot_kept ..)
      · exact hu
    · exact hu
  unfold State.discarded
  dsimp only
  rw [hd]
  exact hdrop

theorem abort_discards (h : s.commitOf f r i 3 = some g) (hx : (s.fn f.val).genOf g = some x)
    (hp : x.isPrepared = true ∨ x.state = .loading) : ∃ t, execGenCommitAbort f r i s = .next t ∧ (t.fn f.val).genOf g = none ∧
      (x.desc = none → (∀ kv ∈ s.slots, ∀ y, kv.2 = some y → y.desc = none) → Completed s t f r i .done) := by
  obtain ⟨hset, hrep⟩ := setGen_sets hx .retired
  obtain ⟨hdis, -⟩ := discarded_leaves (s.setGen f g .retired) f x
  refine ⟨_, execGenCommitAbort_discards h hx hp, ?_, fun hd hs => ?_⟩
  · unfold Func.genOf
    rw [(reported_finish ..).gens, hdis.gens, hrep.gens, State.fn_updFn_same]
    exact genOf_retired (s.fn f.val) g
  · have hslots : (s.setGen f g .retired).slots = s.slots := by
      rw [setGen_eq hx]
      unfold State.traceGen
      split
      · rfl
      · rw [traceTo_only]
        rfl
    refine .before (hset.trans (discarded_kept hd ?_)) (finish_completed _ f r i nofun)
    rw [hslots]
    exact hs

theorem abort_stops (h : s.commitOf f r i 3 = some g) (hx : (s.fn f.val).genOf g = some x) (hp : x.state = .rolling) :
    ∃ t h, execGenCommitAbort f r i s = .next t ∧ h ∈ (t.fn f.val).gens ∧ h.gen = g ∧ h.state = .incomplete ∧ Completed s t f r i .done := by
  obtain ⟨hset, hrep⟩ := setGen_sets hx .incomplete
  refine ⟨_, { x with state := .incomplete }, execGenCommitAbort_stops h hx hp, ?_, (genOf_some hx).1, rfl, .before hset (finish_completed _ f r i nofun)⟩
  rw [(reported_finish ..).gens, hrep.gens, State.fn_updFn_same]
  exact mem_updGen (h := fun x => { x with state := .incomplete }) hx

end

/-! ### Slots that are left -/

section
variable {s : State} {k : Nat} {x : Slot} {m : BitVec 12}

theorem finish_rest (s : State) (f : FnId) (r : RingId) (i : BitVec 12) (st : Status) :
    s.finish f r i st = { s with fns := (s.finish f r i st).fns, out := (s.finish f r i st).out } := (hostEnds_complete ..).rest

/-- A record that is kept for nobody leaves its slot. -/
theorem releaseSlot_frees (h : s.slot k = some x) (hp : x.phase = .kept) (hw : x.waits = []) :
    (s.releaseSlot k).slot k = none ∧ (s.releaseSlot k).mem = s.mem ∧
      ∀ r i, x.desc = some (r, i) → Completed s (s.releaseSlot k) x.fn r i .done := by
  obtain ⟨v, hv⟩ : ∃ v, v = s.setSlot k none := ⟨_, rfl⟩
  have hkept : HostKept s v := by
    rw [hv]
    exact setSlot_kept ..
  have hslot : v.slot k = none := by
    rw [hv]
    exact slot_setSlot ..
  have hmem : v.mem = s.mem := by
    rw [hv]
    rfl
  have hrun : s.releaseSlot k = (match x.desc with
      | some (r, i) => v.finish x.fn r i .done
      | none => v).pump := by
    unfold State.releaseSlot
    rw [h, hv]
    exact if_pos ⟨hp, hw⟩
  rw [hrun]
  cases hd : x.desc with
  | none =>
    have hpump := pumped_pump v
    refine ⟨?_, ?_, nofun⟩
    · dsimp only
      rw [State.slot, hpump.rest]
      exact hslot
    · dsimp only
      rw [hpump.rest]
      exact hmem
  | some ri =>
    obtain ⟨r, i⟩ := ri
    have hpump := pumped_pump (v.finish x.fn r i .done)
    refine ⟨?_, ?_, fun r' i' h => ?_⟩
    · dsimp only
      rw [State.slot, hpump.rest, finish_rest]
      exact hslot
    · dsimp only
      rw [hpump.rest, finish_rest]
      exact hmem
    · cases h
      have hdone := finish_completed v x.fn r i (st := .done) (by decide)
      exact (Completed.before hkept hdone).after hpump.kept

/-- A child that is done is waited for no longer, and the last one frees the slot. -/
theorem childDone_done (s : State) (k : Nat) (x : Slot) (m : BitVec 12) : (s.childDone k x m).mem = s.mem ∧
    (∀ y, (s.childDone k x m).slot k = some y → ∀ w ∈ y.waits, w.1 ≠ m) ∧
    (x.phase = .kept → (∀ w ∈ x.waits, w.1 = m) → (s.childDone k x m).slot k = none ∧
      ∀ r i, x.desc = some (r, i) → Completed s (s.childDone k x m) x.fn r i .done) := by
  obtain ⟨y, hy⟩ : ∃ y : Slot, y = { x with waits := x.waits.filter fun w => w.1 != m } := ⟨_, rfl⟩
  obtain ⟨u, hu⟩ : ∃ u, u = s.setSlot k (some y) := ⟨_, rfl⟩
  have hslot : u.slot k = some y := by
    rw [hu]
    exact slot_setSlot ..
  have hmem : u.mem = s.mem := by
    rw [hu]
    rfl
  have hkept : HostKept s u := by
    rw [hu]
    exact setSlot_kept ..
  have hwaits : ∀ w ∈ y.waits, w.1 ≠ m := by
    intro w hw
    rw [hy] at hw
    exact bne_iff_ne.1 (List.mem_filter.1 hw).2
  have hrun : s.childDone k x m = u.releaseSlot k := by rw [State.childDone, hu, hy]
  rw [hrun]
  by_cases hc : y.phase = .kept ∧ y.waits = []
  · obtain ⟨h1, h2, h3⟩ := releaseSlot_frees hslot hc.1 hc.2
    refine ⟨h2.trans hmem, fun z hz => ?_, fun _ _ => ⟨h1, fun r i hd => .before hkept ?_⟩⟩
    · rw [h1] at hz
      exact nomatch hz
    · have := h3 r i (by rw [hy]; exact hd)
      rw [show y.fn = x.fn by rw [hy]] at this
      exact this
  · rw [releaseSlot_held hslot hc]
    refine ⟨hmem, fun z hz => ?_, fun hp hall => absurd ⟨by rw [hy]; exact hp, ?_⟩ hc⟩
    · rw [hslot] at hz
      rw [← Option.some.inj hz]
      exact hwaits
    · rw [hy, List.filter_eq_nil_iff]
      intro w hw
      simp [hall w hw]

/-- A record that is sent into a child's slot, and its READY. -/
theorem serveChild_sends (s : State) (k : Nat) (x : Slot) (m : BitVec 12) (slot : Nat) : (s.serveChild k x m slot).mem = s.mem ∧
    Out.shard m (Fin.ofNat 4 (x.shard.index % 4)) slot (ShardRec.bytes x.shard) ∈ (s.serveChild k x m slot).out ∧
    Out.notice m (Fin.ofNat 4 (x.shard.index % 4)) (noticeOf 4 slot s.moduleId x.shard.generation x.shard.index) ∈
      (s.serveChild k x m slot).out :=
  ⟨rfl, List.mem_cons_of_mem _ List.mem_cons_self, List.mem_cons_self⟩

end

/-! ### Notices -/

theorem distOf_updDist {u : Func} {g : W32} {h : Dist → Dist} {b : Dist} (hb : u.distOf g = some b) (hh : ∀ t, (h t).gen = t.gen) :
    (u.updDist g h).distOf g = some (h b) := by
  have hsame : ((fun t : Dist => t.gen == g) ∘ fun t => if t.gen == g then h t else t) = fun t => t.gen == g := by
    funext t
    simp only [Function.comp]
    split
    · rw [hh]
    · rfl
  have hfind : u.dists.find? (fun t => t.gen == g) = some b := hb
  unfold Func.distOf Func.updDist
  dsimp only
  rw [List.find?_map, hsame, hfind, Option.map_some, if_pos (List.find?_some hfind)]

section
variable {s : State} {d : IoDie} {n : BitVec 128}

/-- Address of the entry that a notice takes. -/
def State.noticeAddr (s : State) (d : IoDie) : Nat := absAddr 5 d.val (0x3F00000 + 16 * (AMap.get 0 s.notices d.val % 65536))

theorem noticeIn_area (s : State) (d : IoDie) (n : BitVec 128) : memGet (s.noticeIn d n).mem (s.noticeAddr d) 16 = leBytes 16 n.toNat := by
  have h := memGet_memPut s.mem (s.noticeAddr d) (leBytes 16 n.toNat)
  rw [leBytes_length] at h
  exact h

theorem noticeIn_kept (s : State) (d : IoDie) (n : BitVec 128) : HostKept s (s.noticeIn d n) := .of_eq rfl rfl rfl rfl

/-- No notice reaches a staging slot: the notice area lies above them. -/
theorem noticeIn_slotRecord (s : State) (d : IoDie) (n : BitVec 128) {j k : Nat} (hk : k < 15) :
    (s.noticeIn d n).slotRecord j k = s.slotRecord j k := by
  obtain ⟨p, hp⟩ : ∃ p, p = AMap.get 0 s.notices d.val % 65536 := ⟨_, rfl⟩
  have hpl : p < 65536 := by
    rw [hp]
    exact Nat.mod_lt _ (by decide)
  have hfar : ∀ o len, o + len ≤ 0x401000 → memGet (s.noticeIn d n).mem (slotAddr j k + o) len = memGet s.mem (slotAddr j k + o) len := by
    intro o len hol
    have hd := d.isLt
    refine memGet_memPut_other s.mem (a := absAddr 5 d.val (0x3F00000 + 16 * (AMap.get 0 s.notices d.val % 65536))) ?_
    rw [leBytes_length, ← hp]
    unfold slotAddr absAddr
    obtain h | h | h := Nat.lt_trichotomy j d.val
    · left
      omega
    · left
      omega
    · right
      omega
  have hbytes : shardBytes = 4194304 := rfl
  unfold State.slotRecord
  dsimp only
  simp only [hfar 0 4 (by omega), hfar 4 4 (by omega), hfar 8 4 (by omega), hfar 16 16 (by omega), hfar 32 12 (by omega),
    hfar 12 4 (by omega), hfar 44 20 (by omega), hfar 64 shardBytes (by omega), hfar (64 + shardBytes) 16 (by omega)]

section
variable (hup : s.up = true)
include hup

/-- What a request from a child does. -/
def State.requested (u : State) (f : FnId) (m : BitVec 12) (gen : W32) (i slot : Nat) : State :=
  u.updFn f.val fun v => v.updDist gen fun t =>
    { t with wanted := (t.wanted.filter fun w => !(w.1 == m && w.2.2 == i)) ++ [(m, slot, i)] }

variable {f : FnId}

theorem execIngestRequest_held (hf : s.childOf (noticeFrom n) (noticeGen n) (noticeShard n) = some f) (hty : fld n 0 8 = 1) {k : Nat}
    {x : Slot} (hx : s.heldAt f (noticeGen n) (noticeShard n) = some (k, x)) (hw : ∀ w ∈ x.waits, w.1 = noticeFrom n → w.2 = none) :
    execIngestRequest d n s = .next ((s.noticeIn d n).serveChild k x (noticeFrom n) (noticeSlot n)) := by
  obtain ⟨u, hu⟩ : ∃ u, u = s.noticeIn d n := ⟨_, rfl⟩
  have hf' : u.childOf (noticeFrom n) (noticeGen n) (noticeShard n) = some f := by rw [hu]; exact hf
  have hx' : u.heldAt f (noticeGen n) (noticeShard n) = some (k, x) := by rw [hu]; exact hx
  unfold execIngestRequest
  dsimp only
  rw [if_neg (by simp [hup]), ← hu, if_pos hty, hf']
  dsimp only
  rw [hx']
  refine if_neg ?_
  rw [Bool.not_eq_true, List.any_eq_false]
  intro w hwm hc
  rw [Bool.and_eq_true, beq_iff_eq] at hc
  rw [hw w hwm hc.1] at hc
  exact nomatch hc.2

theorem execIngestRequest_waits (hf : s.childOf (noticeFrom n) (noticeGen n) (noticeShard n) = some f) (hty : fld n 0 8 = 1)
    (hx : s.heldAt f (noticeGen n) (noticeShard n) = none)
    (hw : ∀ b, (s.fn f.val).distOf (noticeGen n) = some b → ∀ w ∈ b.wanted, ¬(w.1 = noticeFrom n ∧ w.2.2 = noticeShard n)) :
    execIngestRequest d n s = .next ((s.noticeIn d n).requested f (noticeFrom n) (noticeGen n) (noticeShard n) (noticeSlot n)) := by
  obtain ⟨u, hu⟩ : ∃ u, u = s.noticeIn d n := ⟨_, rfl⟩
  have hf' : u.childOf (noticeFrom n) (noticeGen n) (noticeShard n) = some f := by rw [hu]; exact hf
  have hx' : u.heldAt f (noticeGen n) (noticeShard n) = none := by rw [hu]; exact hx
  have hagain : (((u.fn f.val).distOf (noticeGen n)).any fun t => t.wanted.any fun w => w.1 == noticeFrom n && w.2.2 == noticeShard n) = false := by
    have hfn : u.fn f.val = s.fn f.val := by rw [hu]; rfl
    rw [hfn]
    cases hb : (s.fn f.val).distOf (noticeGen n) with
    | none => rfl
    | some b =>
      rw [Option.any_some, List.any_eq_false]
      intro w hwm hc
      rw [Bool.and_eq_true, beq_iff_eq, beq_iff_eq] at hc
      exact hw b hb w hwm hc
  unfold execIngestRequest
  dsimp only
  rw [if_neg (by simp [hup]), ← hu, if_pos hty, hf']
  dsimp only
  rw [hx']
  dsimp only
  rw [hagain] <;> rfl

theorem execIngestAck_done (hf : s.childOf (noticeFrom n) (noticeGen n) (noticeShard n) = some f) (hty : fld n 0 8 = 2) {k : Nat} {x : Slot}
    (hx : s.heldAt f (noticeGen n) (noticeShard n) = some (k, x)) :
    execIngestAck d n s = .next ((s.noticeIn d n).childDone k x (noticeFrom n)) := by
  obtain ⟨u, hu⟩ : ∃ u, u = s.noticeIn d n := ⟨_, rfl⟩
  have hf' : u.childOf (noticeFrom n) (noticeGen n) (noticeShard n) = some f := by rw [hu]; exact hf
  have hx' : u.heldAt f (noticeGen n) (noticeShard n) = some (k, x) := by rw [hu]; exact hx
  unfold execIngestAck
  dsimp only
  rw [if_neg (by simp [hup]), ← hu, if_pos hty, hf']
  dsimp only
  rw [hx']

/-- The state in which a child's failure is counted. -/
def State.childCounted (u : State) (f : FnId) (m : BitVec 12) (gen : W32) (i : Nat) : State := (u.childFailed f m gen i).1

theorem execIngestNack_counts (hf : s.childOf (noticeFrom n) (noticeGen n) (noticeShard n) = some f) (hty : fld n 0 8 = 3) {k : Nat}
    {x : Slot} {w : BitVec 12} {slot c : Nat} (hx : s.heldAt f (noticeGen n) (noticeShard n) = some (k, x))
    (hw : (x.waits.find? fun w => w.1 == noticeFrom n) = some (w, some slot))
    (hc : ((s.fn f.val).distOf (noticeGen n)).map (fun (b : Dist) =>
      AMap.get 0 b.fails (((noticeFrom n).toNat + 1) * 2 ^ 32 + noticeShard n)) = some c) :
    let v := (s.noticeIn d n).childCounted f (noticeFrom n) (noticeGen n) (noticeShard n)
    execIngestNack d n s = .next (if c < 3 then v.serveChild k x (noticeFrom n) slot else v.childDone k x (noticeFrom n)) := by
  intro v
  obtain ⟨u, hu⟩ : ∃ u, u = s.noticeIn d n := ⟨_, rfl⟩
  have hf' : u.childOf (noticeFrom n) (noticeGen n) (noticeShard n) = some f := by rw [hu]; exact hf
  have hx' : u.heldAt f (noticeGen n) (noticeShard n) = some (k, x) := by rw [hu]; exact hx
  have hcount : u.childFailed f (noticeFrom n) (noticeGen n) (noticeShard n) = (v, decide (c < 3)) := by
    refine Prod.ext (by rw [hu]; rfl) ?_
    show decide (((u.fn f.val).distOf (noticeGen n)).map (fun (b : Dist) =>
      AMap.get 0 b.fails (((noticeFrom n).toNat + 1) * 2 ^ 32 + noticeShard n)) |>.getD 0 |>.succ |> (· < 4)) = _
    rw [show u.fn f.val = s.fn f.val by rw [hu]; rfl, hc]
    exact decide_eq_decide.2 (by simp only [Option.getD_some]; omega)
  unfold execIngestNack
  dsimp only
  rw [if_neg (by simp [hup]), ← hu, if_pos hty, hf']
  dsimp only
  rw [hx']
  dsimp only
  rw [hcount, hw]
  dsimp only
  rw [show (if decide (c < 3) = true then v.serveChild k x (noticeFrom n) slot else v.childDone k x (noticeFrom n)) =
    if c < 3 then v.serveChild k x (noticeFrom n) slot else v.childDone k x (noticeFrom n) by simp only [decide_eq_true_eq]]

theorem execIngestReady_stages (hty : fld n 0 8 = 4) {b : Dist} {at' : W64} (hb : (s.fn f.val).distOf (noticeGen n) = some b)
    (hpar : b.parent = some (noticeFrom n)) (hask : (noticeShard n, noticeSlot n, at') ∈ b.asked)
    (hfree : s.slot (slotKey (noticeShard n % 4) (noticeSlot n)) = none) :
    ∃ g, execIngestReady d n s = .next ((s.noticeIn d n).setSlot (slotKey (noticeShard n % 4) (noticeSlot n))
      (some { shard := (s.noticeIn d n).slotRecord (noticeShard n % 4) (noticeSlot n), phase := .staged, fn := g, desc := none,
              parent := some (noticeFrom n), waits := [] })) := by
  obtain ⟨u, hu⟩ : ∃ u, u = s.noticeIn d n := ⟨_, rfl⟩
  have hhas : ((u.fn f.val).distOf (noticeGen n)).any (fun t =>
      t.parent == some (noticeFrom n) && t.asked.any fun a => a.1 == noticeShard n && a.2.1 == noticeSlot n) = true := by
    rw [show u.fn f.val = s.fn f.val by rw [hu]; rfl, hb, Option.any_some, hpar, beq_self_eq_true, Bool.true_and, List.any_eq_true]
    exact ⟨_, hask, by simp⟩
  cases hfind : allFns.find? fun f => ((u.fn f.val).distOf (noticeGen n)).any fun t =>
      t.parent == some (noticeFrom n) && t.asked.any fun a => a.1 == noticeShard n && a.2.1 == noticeSlot n with
  | none => exact absurd hhas (List.find?_eq_none.1 hfind f (mem_allFns f))
  | some g =>
    refine ⟨g, ?_⟩
    have hfree' : u.slot (slotKey (noticeShard n % 4) (noticeSlot n)) = none := by rw [hu]; exact hfree
    unfold execIngestReady
    dsimp only
    rw [if_neg (by simp [hup]), ← hu, if_pos hty, hfind]
    dsimp only
    rw [hfree']
    rfl

end

end

/-! ### Requests without an answer -/

section
variable {s : State} {f : FnId} {g : W32} {j slot : Nat} {b : Dist} {p : BitVec 12} {at' : W64}
  (hb : (s.fn f.val).distOf g = some b) (hpar : b.parent = some p) (hask : (b.asked.find? fun a => a.1 == j) = some (j, slot, at'))
  (hfree : s.slot (slotKey (j % 4) slot) = none)
include hb hpar hask

theorem execRequestTimeout_early (h : (s.clk.timebase - at').toNat < 8000000 * s.pf .ingDistCfg 0 10) :
    execRequestTimeout f g j s = .next s := by
  unfold execRequestTimeout
  rw [hb]
  dsimp only
  rw [hpar, hask]
  dsimp only
  have hlt : (s.clk.timebase - at').toNat < tickMilli * s.pf .ingDistCfg 0 10 := h
  exact if_pos (by rw [decide_eq_true hlt, Bool.or_true])

include hfree in
theorem execRequestTimeout_late (hup : s.up = true) (h : 8000000 * s.pf .ingDistCfg 0 10 ≤ (s.clk.timebase - at').toNat) :
    execRequestTimeout f g j s = .next (if (s.requestFailed f g j p).2 then (s.requestFailed f g j p).1.notify p 1 slot g j
      else (s.requestFailed f g j p).1.pump) := by
  unfold execRequestTimeout
  rw [hb]
  dsimp only
  rw [hpar, hask]
  dsimp only
  have hge : ¬(s.clk.timebase - at').toNat < tickMilli * s.pf .ingDistCfg 0 10 := not_lt.2 h
  rw [if_neg (by rw [hfree, hup, decide_eq_false hge]; decide)]

omit hpar hask in
/-- A request that has failed goes on below the limit, and ends with ING_DIST_FAIL at it. -/
theorem requestFailed_fails : (s.requestFailed f g j p).1.moduleId = s.moduleId ∧
    (AMap.get 0 b.fails j < 3 → (s.requestFailed f g j p).2 = true) ∧
    (3 ≤ AMap.get 0 b.fails j → (s.requestFailed f g j p).2 = false ∧
      (s.requestFailed f g j p).1.distFail = (s.ingestFail j 4 p).distFail) := by
  obtain ⟨n, hn⟩ : ∃ n, n = (((s.fn f.val).distOf g).map fun t => AMap.get 0 t.fails j).getD 0 + 1 := ⟨_, rfl⟩
  have hcount : n = AMap.get 0 b.fails j + 1 := by
    rw [hn, hb]
    rfl
  obtain ⟨u, hu⟩ : ∃ u : State, u = s.updFn f.val fun u => u.updDist g fun t =>
    { t with fails := AMap.set 0 t.fails j n
             asked := t.asked.map fun a => if a.1 = j then (a.1, a.2.1, s.clk.timebase) else a } := ⟨_, rfl⟩
  have hrun : s.requestFailed f g j p = if n < 4 then (u, true) else
      ((((u.unask f g j).ingestFail j 4 p).logBoth (some f) 0x04 (BitVec.ofNat 8 f.val)
        (leBytes 8 (DistFail.value ((u.unask f g j).ingestFail j 4 p).distFail))).interrupt f 2, false) := by
    unfold State.requestFailed
    dsimp only
    rw [← hn, ← hu]
  have hlog : ∀ (v : State) (c : FnId) (ty cause : Byte) (l : List Byte), (v.logTo c ty cause l).distFail = v.distFail ∧
      (v.logTo c ty cause l).moduleId = v.moduleId := by
    intro v c ty cause l
    unfold State.logTo
    split
    · exact ⟨rfl, rfl⟩
    · rw [(hostEnds_interrupt ..).rest]
      exact ⟨rfl, rfl⟩
  have hboth : ∀ (v : State) (ty cause : Byte) (l : List Byte), (v.logBoth (some f) ty cause l).distFail = v.distFail ∧
      (v.logBoth (some f) ty cause l).moduleId = v.moduleId := by
    intro v ty cause l
    unfold State.logBoth
    dsimp only
    split
    · exact hlog ..
    · exact ⟨(hlog ..).1.trans (hlog ..).1, (hlog ..).2.trans (hlog ..).2⟩
  rw [hrun]
  by_cases hlt : n < 4
  · rw [if_pos hlt]
    refine ⟨?_, fun _ => rfl, fun h => absurd h (by omega)⟩
    rw [hu]
    rfl
  · rw [if_neg hlt]
    refine ⟨?_, fun h => absurd h (by omega), fun _ => ⟨rfl, ?_⟩⟩
    · rw [(hostEnds_interrupt ..).rest]
      refine (hboth ..).2.trans ?_
      rw [hu]
      rfl
    · rw [(hostEnds_interrupt ..).rest]
      refine (hboth ..).1.trans ?_
      rw [hu]
      rfl

end

/-! ### Zeroing -/

section
variable {s : State} {c : CoreId} {v : Scrub} {o : Nat}

/-- The byte of a core at an offset of a space reads 0. -/
def ZeroAt (m : List Host.Cell) (space : Nat) (c : CoreId) (o : Nat) : Prop := ∀ x ∈ m, x.1 ≠ absAddr space c.val o

theorem ZeroAt.reads {m : List Host.Cell} {space : Nat} (h : ZeroAt m space c o) : memGet m (absAddr space c.val o) 1 = [0] := by
  have hzero : memByte m (absAddr space c.val o) = 0 := AMap.get_of_keys h
  rw [memGet_eq, List.range_one, List.map_cons, List.map_nil, Nat.add_zero, hzero]

theorem ZeroAt.memZero {m : List Host.Cell} {space : Nat} (h : ZeroAt m space c o) (a n : Nat) : ZeroAt (memZero m a n) space c o :=
  fun x hx => h x (List.mem_filter.1 hx).1

theorem ZeroAt.zeroCores {m : List Host.Cell} {space : Nat} (h : ZeroAt m space c o) (l : List Nat) (t : Scrub) :
    ZeroAt (l.foldl (fun m c => Machine.memZero m (absAddr t.space c t.base) t.size) m) space c o :=
  List.foldlRecOn (motive := fun m : List Host.Cell => ZeroAt m space c o) l _ h fun _ hm _ _ => hm.memZero _ _

theorem ZeroAt.zeroRegion {space : Nat} (h : ZeroAt s.mem space c o) (t : Scrub) : ZeroAt (s.zeroRegion t).mem space c o := by
  unfold State.zeroRegion
  generalize (List.range 1728).filter (fun c => (Part.of t.part).hasDie (coreDie c)) = l
  exact h.zeroCores l t

theorem memZero_zeroes (m : List Host.Cell) (lo : v.base ≤ o) (hi : o < v.base + v.size) :
    ZeroAt (memZero m (absAddr v.space c.val v.base) v.size) v.space c o := by
  intro x hx hne
  have h := (List.mem_filter.1 hx).2
  rw [hne, Bool.or_eq_true, decide_eq_true_eq, decide_eq_true_eq] at h
  unfold absAddr at h
  omega

/-- A region that is zeroed reads zero on every core of its partition. -/
theorem zeroRegion_zeroes (hdie : (Part.of v.part).hasDie (coreDie c.val) = true) (lo : v.base ≤ o) (hi : o < v.base + v.size) :
    ZeroAt (s.zeroRegion v).mem v.space c o := by
  have hmem : c.val ∈ (List.range 1728).filter fun c => (Part.of v.part).hasDie (coreDie c) :=
    List.mem_filter.2 ⟨List.mem_range.2 c.isLt, hdie⟩
  unfold State.zeroRegion
  obtain ⟨l, hl⟩ : ∃ l, l = (List.range 1728).filter fun c => (Part.of v.part).hasDie (coreDie c) := ⟨_, rfl⟩
  rw [← hl] at hmem ⊢
  obtain ⟨l1, l2, rfl⟩ := List.append_of_mem hmem
  dsimp only
  rw [List.foldl_append, List.foldl_cons]
  exact (memZero_zeroes _ lo hi).zeroCores l2 v

theorem zeroRegions_zeroes (hdie : (Part.of v.part).hasDie (coreDie c.val) = true) (lo : v.base ≤ o) (hi : o < v.base + v.size)
    {l : List Scrub} (hv : v ∈ l) : ZeroAt (l.foldl (fun s t => s.zeroRegion t) s).mem v.space c o := by
  obtain ⟨l1, l2, rfl⟩ := List.append_of_mem hv
  rw [List.foldl_append, List.foldl_cons]
  exact List.foldlRecOn (motive := fun u : State => ZeroAt u.mem v.space c o) l2 _ (zeroRegion_zeroes hdie lo hi)
    fun _ hu t _ => hu.zeroRegion t

/-- Regions of a function that one zeroing covers. -/
def zeroed (f : FnId) (weight : Bool) (t : Scrub) : Bool := t.fn == f && (t.space == 0) == weight

theorem execTeaselZeroingComplete_zeroes {f : FnId} {weight : Bool} (hup : s.up = true)
    (hidle : weight = true ∨ ∀ kp ∈ s.allPasses, passBusy kp.2.state = false) : execTeaselZeroingComplete f weight s =
      .next { ((s.teasel.filter (zeroed f weight)).foldl (fun s t => s.zeroRegion t) s) with
        teasel := s.teasel.filter fun t => !zeroed f weight t } := by
  have hbusy : (!weight && s.allPasses.any fun kp => passBusy kp.2.state &&
      s.teasel.any fun t => zeroed f weight t && (Part.of t.part).overlaps (s.partOf kp.2.fn)) = false := by
    obtain rfl | h := hidle
    · rfl
    · rw [show (s.allPasses.any fun kp => passBusy kp.2.state &&
          s.teasel.any fun t => zeroed f weight t && (Part.of t.part).overlaps (s.partOf kp.2.fn)) = false by
        rw [List.any_eq_false]
        intro kp hkp
        rw [h kp hkp, Bool.false_and]
        decide, Bool.and_false]
  unfold execTeaselZeroingComplete
  refine congrArg Host.Outcome.next (if_neg ?_)
  rw [hup]
  exact fun h => absurd (hbusy.symm.trans h) (by decide)

end

/-- Settles O51: commits begin, are refused, discarded and stopped; notices are answered, and zeroed regions read 0. -/
theorem generationsAndNotices : Obligations.GenerationsAndNotices := by
  unfold Obligations.GenerationsAndNotices
  refine ⟨fun s f r i g => ?_, fun s hup _ _ d n => ?_, fun s f weight hup _ hidle => ?_⟩
  · intro u whole
    refine ⟨fun op hop h hx => ⟨_, commit_unprepared hop h hx, finish_completed s f r i nofun⟩,
      fun op hop x h hx hp hfree => ⟨_, commit_busy hop h hx hp hfree, finish_completed s f r i nofun⟩,
      fun x h hx hp hfree => ?_, fun x h hx hp hfree => ?_, fun x h hx => ⟨fun hp => abort_discards h hx hp, fun hp => abort_stops h hx hp⟩⟩
    · intro copy hidle hsize
      obtain ⟨hkept, hof, hact, hexe⟩ := committing_shows (r := r) (i := i) hx .staged (s.fn f.val).otherCopy (s.fn f.val).activeGen
        (st := .loading) nofun
      obtain ⟨y, hy, hgen, hcopy, hmode, hopen, hwhole⟩ := settleGen_begun hkept (genOf_some hx).1 hof hexe (.inl rfl)
      have hcopies : copy = (s.fn f.val).otherCopy := rfl
      refine ⟨_, y, execGenCommitStaged_begins h hx hp hfree hidle hsize, hy, hgen, hcopy.trans hcopies.symm, hmode, fun hn => ?_, hwhole⟩
      obtain ⟨h1, h2⟩ := hopen hn
      exact ⟨h1, h2.trans hact⟩
    · obtain ⟨hkept, hof, hact, hexe⟩ := committing_shows (r := r) (i := i) hx .rolling ((s.fn f.val).activeCopy.getD 0) g
        (st := .rolling) nofun
      obtain ⟨v, hv⟩ : ∃ v, v = (s.committing f r i g .rolling ((s.fn f.val).activeCopy.getD 0) g).setGen f g .rolling := ⟨_, rfl⟩
      rw [← hv] at hkept hof hact hexe
      obtain ⟨ract, rexe, -, rof⟩ := retireOld_leaves v f
      rw [hact] at ract rof
      obtain ⟨y, hy, hgen, hcopy, -, hopen, hwhole⟩ := settleGen_begun (hkept.trans (retireOld_kept v f)) (genOf_some hx).1 (rof.trans hof)
        (rexe.trans hexe) (.inr rfl)
      have hrun := execGenCommitRolling_begins h hx hp hfree
      rw [← hv] at hrun
      refine ⟨_, y, hrun, hy, hgen, hcopy, ?_, fun hn => (hopen hn).1, fun hw => ⟨(hwhole hw).1, (hwhole hw).2.2⟩⟩
      by_cases hw : whole x
      · exact (hwhole hw).2.1
      · exact (hopen hw).2.trans ract
  · intro m gen i area sent fails
    refine ⟨fun f hf => ⟨fun hty => ⟨fun k x hx hw => ?_, fun hx hw => ?_⟩, fun hty k x hx => ?_, fun hty k x w slot hx hw c hc => ?_⟩,
      fun hty f b at' hb hpar hask hn hfree => ?_, fun f g j b p slot at' hb hpar hask hfree =>
        ⟨execRequestTimeout_early hb hpar hask, fun hlate => ?_⟩⟩
    · obtain ⟨hmem, hshard, hready⟩ := serveChild_sends (s.noticeIn d n) k x m (noticeSlot n)
      exact ⟨_, execIngestRequest_held hup hf hty hx hw, noticeIn_area s d n, hshard, hready⟩
    · have hdist : ∃ b, (s.fn f.val).distOf gen = some b := by
        have h := List.find?_some hf
        obtain ⟨b, hb, -⟩ := (Option.any_eq_true _ _).1 h
        exact ⟨b, hb⟩
      obtain ⟨b, hb⟩ := hdist
      refine ⟨_, { b with wanted := (b.wanted.filter fun w => !(w.1 == m && w.2.2 == i)) ++ [(m, noticeSlot n, i)] },
        execIngestRequest_waits hup hf hty hx hw, noticeIn_area s d n, ?_, List.mem_append_right _ (List.mem_singleton_self _)⟩
      rw [State.requested, State.fn_updFn_same]
      have hfind : ((s.noticeIn d n).fn f.val).dists.find? (fun t => t.gen == gen) = some b := hb
      exact distOf_updDist (h := fun t =>
        { t with wanted := (t.wanted.filter fun w => !(w.1 == m && w.2.2 == i)) ++ [(m, noticeSlot n, i)] }) hfind fun _ => rfl
    · obtain ⟨hmem, hwaits, hdone⟩ := childDone_done (s.noticeIn d n) k x m
      refine ⟨_, execIngestAck_done hup hf hty hx, ?_, hwaits, fun hp hall => ?_⟩
      · show memGet _ _ _ = _
        rw [hmem]
        exact noticeIn_area s d n
      · obtain ⟨h1, h2⟩ := hdone hp hall
        exact ⟨h1, fun r j hd => .before (noticeIn_kept s d n) (h2 r j hd)⟩
    · have hrun := execIngestNack_counts (d := d) hup hf hty hx hw hc
      dsimp only at hrun
      by_cases hlt : c < 3
      · rw [if_pos hlt] at hrun
        obtain ⟨hmem, hshard, hready⟩ := serveChild_sends ((s.noticeIn d n).childCounted f m gen i) k x m slot
        exact ⟨_, hrun, noticeIn_area s d n, fun _ => ⟨hshard, hready⟩, fun h => absurd hlt (not_lt.2 h)⟩
      · rw [if_neg hlt] at hrun
        obtain ⟨hmem, hwaits, -⟩ := childDone_done ((s.noticeIn d n).childCounted f m gen i) k x m
        refine ⟨_, hrun, ?_, fun h => absurd h hlt, fun _ => hwaits⟩
        show memGet _ _ _ = _
        rw [hmem]
        exact noticeIn_area s d n
    · obtain ⟨g, hrun⟩ := execIngestReady_stages hup hty hb hpar hask hfree
      exact ⟨_, _, hrun, noticeIn_area s d n, slot_setSlot .., rfl, rfl, noticeIn_slotRecord s d n hn⟩
    · obtain ⟨hid, hgo, hstop⟩ := requestFailed_fails (p := p) (j := j) hb
      have hrun := execRequestTimeout_late hb hpar hask hfree hup hlate
      refine ⟨_, hrun, fun h => ?_, fun h => ?_⟩
      · rw [if_pos (hgo h), ← hid]
        exact List.mem_cons_self
      · obtain ⟨hno, hfail⟩ := hstop h
        rw [if_neg (by rw [hno]; exact Bool.false_ne_true), (pumped_pump _).rest]
        dsimp only
        rw [hfail]
        exact ⟨rfl, rfl, rfl, rfl⟩
  · refine ⟨_, execTeaselZeroingComplete_zeroes hup hidle, fun v hv hf hspace => ?_⟩
    have hzeroed : zeroed f weight v = true := by
      unfold zeroed
      cases weight <;> simp [hf, hspace]
    refine ⟨fun hmem => ?_, fun c hdie o lo hi => ?_⟩
    · have := (List.mem_filter.1 hmem).2
      rw [hzeroed] at this
      exact nomatch this
    · exact ZeroAt.reads (zeroRegions_zeroes hdie lo hi (List.mem_filter.2 ⟨hv, hzeroed⟩))

end Sys2Proof.Machine
end


section
/-!
PROOFS. Samples of the input and of the dies, emergencies, trips, the power wish and rail excursions (R293, R297, R409 to R417).
-/
namespace Sys2Proof.Machine

/-! ### Steps that leave clock, collector and registers -/

/-- The clock, the collector, the fuses and the registers are as before. -/
structure Steady (s t : State) : Prop where
  clk : t.clk = s.clk
  chk : t.chk = s.chk
  fuses : t.fuses = s.fuses
  setup : t.setup = s.setup

theorem Steady.refl (s : State) : Steady s s := ⟨rfl, rfl, rfl, rfl⟩

theorem Steady.trans {s t u : State} (h : Steady s t) (g : Steady t u) : Steady s u :=
  ⟨g.clk.trans h.clk, g.chk.trans h.chk, g.fuses.trans h.fuses, g.setup.trans h.setup⟩

theorem Steady.pf {s t : State} (h : Steady s t) (r : RegId) (lsb len : Nat) : t.pf r lsb len = s.pf r lsb len := by
  rw [State.pf, State.reg, h.fuses, h.setup, State.pf, State.reg]

/-- Steady, with the power manager as before. -/
structure Powered (s t : State) : Prop extends Steady s t where
  power : t.power = s.power

theorem Powered.refl (s : State) : Powered s s := ⟨.refl s, rfl⟩

theorem Powered.trans {s t u : State} (h : Powered s t) (g : Powered t u) : Powered s u :=
  ⟨h.toSteady.trans g.toSteady, g.power.trans h.power⟩

theorem Powered.foldl {α : Type} (l : List α) (s : State) (f : State → α → State) (h : ∀ s a, Powered s (f s a)) : Powered s (l.foldl f s) :=
  List.foldlRecOn (motive := fun u : State => Powered s u) _ _ (.refl s) fun u hu a _ => hu.trans (h u a)

theorem powered_sensed (s : State) (x : PldmSensor) : Powered s (s.sensed x) := by
  unfold State.sensed
  split <;> exact ⟨⟨rfl, rfl, rfl, rfl⟩, rfl⟩

theorem powered_traceTo (s : State) (f : FnId) (ty cause : Byte) (b : List Byte) : Powered s (s.traceTo f ty cause b) := by
  rw [traceTo_only]
  exact ⟨⟨rfl, rfl, rfl, rfl⟩, rfl⟩

theorem powered_traceAll (s : State) (ty : Byte) (b : List Byte) : Powered s (s.traceAll ty b) :=
  Powered.foldl _ s _ fun _ _ => powered_traceTo ..

theorem powered_logTo (s : State) (f : FnId) (ty cause : Byte) (b : List Byte) : Powered s (s.logTo f ty cause b) := by
  unfold State.logTo
  split
  · exact ⟨⟨rfl, rfl, rfl, rfl⟩, rfl⟩
  · rw [(hostEnds_interrupt ..).rest]
    exact ⟨⟨rfl, rfl, rfl, rfl⟩, rfl⟩

theorem Counted.powered {s t : State} (h : Counted s t) : Powered s t := by
  rw [h.rest]
  exact ⟨⟨rfl, rfl, rfl, rfl⟩, rfl⟩

theorem powered_stretchRest (s : State) : Powered s s.stretchRest := by
  unfold State.stretchRest
  generalize List.range 52 = l
  refine Powered.foldl l s _ fun u r => ?_
  have hregion : ∀ g, Powered u (u.updRegion r g) := fun _ => ⟨⟨rfl, rfl, rfl, rfl⟩, rfl⟩
  dsimp only
  split
  · exact hregion _
  · exact (hregion _).trans (Powered.foldl _ _ _ fun _ _ => (counted_countAt ..).powered)

theorem Stopped.powered {s t : State} (h : Stopped s t) (hk : t.chk = s.chk) : Powered s t :=
  ⟨⟨h.clk, hk, by rw [h], by rw [h]⟩, by rw [h]⟩

theorem Powered.raised {s t u : State} {src : Src} {cause : Cause} {d : Byte} (h : Steady s t) (g : Raised t u src cause d) :
    Raised s u src cause d := by
  obtain ⟨x, hx, h1, h2, h3, h4, h5, h6⟩ := g
  exact ⟨x, by rw [hx, State.reporter, h.chk, State.reporter], h1, h2, h3, h4, h5.trans (by rw [h.clk]), h6.trans (by rw [h.clk])⟩

/-- A fault that is not fatal is recorded; the power manager and the clock go on. -/
theorem raise_recorded {s : State} {src : Src} {cause : Cause} {d : Byte} (hc : ∀ multi, classOf cause d multi ≠ .fatal)
    (hr : (s.reporter src.reporter).length < 16) (touch : Option Nat) : Raised s (s.raise src cause d touch) src cause d ∧
      (s.raise src cause d touch).power = s.power ∧ (s.raise src cause d touch).clk = s.clk := by
  obtain ⟨m, hm⟩ : ∃ m, m = (s.skein.multi && (s.skein.state == .formed || s.skein.state == .detached)) := ⟨_, rfl⟩
  obtain ⟨r, hrec⟩ : ∃ r, r = s.mkRecord src cause d (classOf cause d m) (touch.bind s.pass) := ⟨_, rfl⟩
  obtain ⟨u, hu⟩ : ∃ u, u = s.queueRecord src.reporter r := ⟨_, rfl⟩
  have hshown : ∀ t : State, t.chk = u.chk → Raised s t src cause d := by
    intro t ht
    refine ⟨r, ?_, by rw [hrec]; exact ⟨rfl, rfl, rfl, rfl, rfl, rfl⟩⟩
    rw [State.reporter, ht, hu, queueRecord_of_room hr]
    exact AMap.get_set_same ..
  have hsame : u.power = s.power ∧ u.clk = s.clk := by
    rw [hu, queueRecord_of_room hr]
    exact ⟨rfl, rfl⟩
  have hplain : ∀ t : State, t = u → Raised s t src cause d ∧ t.power = s.power ∧ t.clk = s.clk := fun t ht =>
    ⟨hshown t (by rw [ht]), by rw [ht]; exact hsame.1, by rw [ht]; exact hsame.2⟩
  unfold State.raise
  dsimp only
  rw [← hm, ← hrec, ← hu]
  split
  · exact hplain _ rfl
  · next h => exact absurd h (hc m)
  · split
    · next k p _ =>
      split
      · exact hplain _ rfl
      · have hstop := abandon_stopped (u.setPass k (p.blame r)) k .abandonedFault false
        have hchk := (abandon_stilled (u.setPass k (p.blame r)) k .abandonedFault false).chk
        exact ⟨hshown _ hchk, (by rw [hstop]; exact hsame.1), hstop.clk.trans hsame.2⟩
    · exact hplain _ rfl

/-! ### Emergencies -/

section
variable {s : State}

/-- Cause of an emergency by its source. -/
def emergencyCause (source : Nat) : Cause := if source = 3 then .thermalLimit else .powerLimit

/-- An emergency begins. -/
theorem emergency_begins (hr : (s.reporter 12).length < 16) (source : Nat) : (s.emergency source).power.emergency = true ∧
    (s.emergency source).power.source = source ∧ (s.emergency source).power.stepDue = some (s.clk.frame + 1) ∧
    Raised s (s.emergency source) .none' (emergencyCause source) 0x01 ∧
    (s.emergency source).power.voltage = s.power.voltage ∧ (s.emergency source).power.current = s.power.current ∧
    (s.emergency source).power.samples = s.power.samples ∧ (s.emergency source).power.phase = s.power.phase ∧
    (s.emergency source).power.temps = s.power.temps := by
  obtain ⟨again, hagain⟩ : ∃ again, again = s.power.emergencyAt.any fun t0 => decide ((s.clk.timebase - t0).toNat ≤ 10 * tickSecond) := ⟨_, rfl⟩
  obtain ⟨u, hu⟩ : ∃ u : State, u = ({ s.sensed .moduleState with power := { s.power with
    emergency := true, source := source, stepDue := some (s.clk.frame + 1), emergencyAt := some s.clk.timebase, below := 0,
    keptOut := s.power.keptOut || again } } : State).traceAll 0x26 [BitVec.ofNat 8 source, 1] := ⟨_, rfl⟩
  obtain ⟨v, hv⟩ : ∃ v, v = if u.inFormed then ({ u with power := { u.power with stretchAll := true } }).stretchRest else u := ⟨_, rfl⟩
  have hsensed := powered_sensed s .moduleState
  have hrun : s.emergency source = v.raise .none' (emergencyCause source) 0x01 v.skeinPass := by
    rw [hv, hu, hagain, ← hsensed.power, ← hsensed.clk]
    unfold State.emergency
    rw [hsensed.power, hsensed.clk]
    rfl
  have hupower : u.power = { s.power with
      emergency := true, source := source, stepDue := some (s.clk.frame + 1), emergencyAt := some s.clk.timebase, below := 0,
      keptOut := s.power.keptOut || again } := by
    rw [hu, (powered_traceAll ..).power]
  have hus : Steady s u := by
    rw [hu]
    refine Steady.trans ?_ (powered_traceAll ..).toSteady
    exact ⟨hsensed.clk, hsensed.chk, hsensed.fuses, hsensed.setup⟩
  have hvs : Steady u v ∧ ∃ b, v.power = { u.power with stretchAll := b } := by
    rw [hv]
    split
    · have h := powered_stretchRest { u with power := { u.power with stretchAll := true } }
      exact ⟨⟨h.clk, h.chk, h.fuses, h.setup⟩, true, h.power⟩
    · exact ⟨.refl u, u.power.stretchAll, rfl⟩
  obtain ⟨hvs, b, hvpower⟩ := hvs
  have hsv := hus.trans hvs
  have hclass : ∀ multi, classOf (emergencyCause source) 0x01 multi ≠ .fatal := by
    intro multi
    unfold emergencyCause
    split <;> cases multi <;> nofun
  obtain ⟨hraised, hpower, -⟩ := raise_recorded (s := v) (src := .none') hclass (by rw [State.reporter, hsv.chk]; exact hr) v.skeinPass
  rw [hrun, hpower, hvpower, hupower]
  exact ⟨rfl, rfl, rfl, Powered.raised hsv hraised, rfl, rfl, rfl, rfl, rfl⟩

/-- An emergency ends after 100 low samples in a row with every die cool. -/
theorem emergencyEnd_ends (he : s.power.emergency = true) : (s.emergencyEnd.power.emergency = false ↔
      100 ≤ s.power.below ∧ s.fiveBelow s.fuses.throttle.toNat = true) ∧
    s.emergencyEnd.power.voltage = s.power.voltage ∧ s.emergencyEnd.power.current = s.power.current ∧
    s.emergencyEnd.power.samples = s.power.samples ∧ s.emergencyEnd.power.phase = s.power.phase ∧
    s.emergencyEnd.power.temps = s.power.temps := by
  by_cases hc : (s.power.emergency && decide (100 ≤ s.power.below) && s.fiveBelow s.fuses.throttle.toNat) = true
  · have hc' := hc
    rw [he, Bool.true_and, Bool.and_eq_true, decide_eq_true_eq] at hc'
    obtain ⟨u, hu⟩ : ∃ u : State, u = ({ s.sensed .moduleState with power := { s.power with emergency := false } } : State).traceAll 0x26
      [BitVec.ofNat 8 s.power.source, 0] := ⟨_, rfl⟩
    have hupower : u.power = { s.power with emergency := false } := by
      rw [hu, (powered_traceAll ..).power]
    have hrun : ∃ b, s.emergencyEnd.power = { u.power with localStep := b } := by
      have hend : s.emergencyEnd = if u.power.keptOut then u else
          { (if bitAt u.power.hostTime 5 then u
            else u.setReg 0 .clkTimeCtrl (u.reg 0 .clkTimeCtrl &&& ~~~(0x20 : BitVec 128))) with power := { (if bitAt u.power.hostTime 5 then u
            else u.setReg 0 .clkTimeCtrl (u.reg 0 .clkTimeCtrl &&& ~~~(0x20 : BitVec 128))).power with localStep := false } } := by
        rw [hu, ← (powered_sensed s .moduleState).power]
        unfold State.emergencyEnd
        rw [if_pos hc, (powered_sensed s .moduleState).power]
      rw [hend]
      split
      · exact ⟨u.power.localStep, rfl⟩
      · split
        · exact ⟨false, rfl⟩
        · exact ⟨false, rfl⟩
    obtain ⟨b, hpower⟩ := hrun
    rw [hpower, hupower]
    exact ⟨⟨fun _ => hc', fun _ => rfl⟩, rfl, rfl, rfl, rfl, rfl⟩
  · have hend : s.emergencyEnd = s := if_neg hc
    rw [hend]
    refine ⟨⟨fun h => absurd (he.symm.trans h) (by decide), fun h => absurd ?_ hc⟩, rfl, rfl, rfl, rfl, rfl⟩
    rw [he, h.2, decide_eq_true h.1]
    rfl

theorem fiveBelow_iff {n : Nat} : s.fiveBelow n = true ↔ ∀ v ∈ s.power.temps, v + 5 ≤ (n : Int) := by
  simp [State.fiveBelow]

end

/-! ### Input samples -/

section
variable {s : State} {mv tenMa : Nat}

/-- The power manager after a sample of the input. -/
def State.sampledPower (s : State) (mv tenMa : Nat) : Power :=
  let p := { s.power with samples := (mv * tenMa :: s.power.samples).take 100 }
  { p with
    voltage := BitVec.ofNat 16 (min mv 65535), current := BitVec.ofNat 16 (min tenMa 65535),
    power := BitVec.ofNat 12 (min p.mean 4095),
    above := if s.fuses.plimit.toNat * 100000 < mv * tenMa then p.above + 1 else 0,
    below := if 10 * (mv * tenMa) < 9 * s.pf .pwrCap 0 12 * 100000 then p.below + 1 else 0 }

/-- The state in which a sample is shown. -/
def State.sampled (s : State) (mv tenMa : Nat) : State :=
  ({ s with power := s.sampledPower mv tenMa } : State).senseInput { s.power with samples := (mv * tenMa :: s.power.samples).take 100 }

theorem sampled_powered (s : State) (mv tenMa : Nat) : Powered { s with power := s.sampledPower mv tenMa } (s.sampled mv tenMa) := by
  unfold State.sampled State.senseInput
  dsimp only
  split
  · split
    · exact (powered_sensed ..).trans (powered_sensed ..)
    · exact powered_sensed ..
  · split
    · exact powered_sensed ..
    · exact .refl _

theorem execPowerSample_shows (hp : s.power.phase ≠ .unpowered) : execPowerSample mv tenMa s =
    .next (if !s.up || s.chk.fatal then s.sampled mv tenMa
      else if s.power.emergency then (s.sampled mv tenMa).emergencyEnd
      else if s.fuses.ilimit.toNat * 10 < tenMa then (s.sampled mv tenMa).emergency 2
      else if 3 ≤ (s.sampledPower mv tenMa).above then (s.sampled mv tenMa).emergency 1
      else s.sampled mv tenMa) := by
  obtain ⟨u, hu⟩ : ∃ u, u = s.sampled mv tenMa := ⟨_, rfl⟩
  have hpow := sampled_powered s mv tenMa
  rw [← hu] at hpow ⊢
  have hup : u.up = s.up := by
    have h : u.power.phase = s.power.phase := by rw [hpow.power]; rfl
    rw [State.up, h, State.up]
  have hfatal : u.chk.fatal = s.chk.fatal := by rw [hpow.chk]
  have hemer : u.power.emergency = s.power.emergency := by rw [hpow.power]; rfl
  have hfuses : u.fuses = s.fuses := hpow.fuses
  have habove : u.power.above = (s.sampledPower mv tenMa).above := by rw [hpow.power]
  have hrun : execPowerSample mv tenMa s = if !u.up || u.chk.fatal then .next u
      else if u.power.emergency then .next u.emergencyEnd
      else if u.fuses.ilimit.toNat * 10 < tenMa then .next (u.emergency 2)
      else if 3 ≤ u.power.above then .next (u.emergency 1)
      else .next u := by
    rw [hu]
    unfold execPowerSample
    rw [if_neg hp]
    rfl
  rw [hrun, hup, hfatal, hemer, hfuses, habove]
  simp only [apply_ite Host.Outcome.next]

/-- A sample of the input is shown, begins an emergency or ends one. -/
theorem powerSample_shows (hr : (s.reporter 12).length < 16) (hp : s.power.phase ≠ .unpowered) :
    ∃ t, execPowerSample mv tenMa s = .next t ∧
      t.power.voltage = BitVec.ofNat 16 (min mv 65535) ∧ t.power.current = BitVec.ofNat 16 (min tenMa 65535) ∧
      t.power.samples = (mv * tenMa :: s.power.samples).take 100 ∧
      (s.up = true ∧ s.chk.fatal = false → s.power.emergency = false →
        (10 * s.fuses.ilimit.toNat < tenMa → t.power.emergency = true ∧ t.power.source = 2 ∧
          t.power.stepDue = some (s.clk.frame + 1) ∧ Raised s t .none' .powerLimit 0x01) ∧
        (tenMa ≤ 10 * s.fuses.ilimit.toNat → 2 ≤ s.power.above → s.fuses.plimit.toNat * 100000 < mv * tenMa →
          t.power.emergency = true ∧ t.power.source = 1 ∧ t.power.stepDue = some (s.clk.frame + 1) ∧ Raised s t .none' .powerLimit 0x01) ∧
        (tenMa ≤ 10 * s.fuses.ilimit.toNat → mv * tenMa ≤ s.fuses.plimit.toNat * 100000 →
          t.power.emergency = false ∧ t.power.above = 0)) ∧
      (s.up = true ∧ s.chk.fatal = false → s.power.emergency = true → (t.power.emergency = false ↔
        99 ≤ s.power.below ∧ 10 * (mv * tenMa) < 9 * s.pf .pwrCap 0 12 * 100000 ∧
          ∀ v ∈ s.power.temps, v + 5 ≤ (s.fuses.throttle.toNat : Int))) := by
  obtain ⟨u, hu⟩ : ∃ u, u = s.sampled mv tenMa := ⟨_, rfl⟩
  have hpow := sampled_powered s mv tenMa
  rw [← hu] at hpow
  have hrun := execPowerSample_shows (mv := mv) (tenMa := tenMa) hp
  rw [← hu] at hrun
  have hs : Steady s u := ⟨hpow.clk, hpow.chk, hpow.fuses, hpow.setup⟩
  have hroom : (u.reporter 12).length < 16 := by
    rw [State.reporter, hs.chk]
    exact hr
  have hshown : u.power = s.sampledPower mv tenMa := hpow.power
  have hbegan : ∀ source, emergencyCause source = .powerLimit → (u.emergency source).power.emergency = true ∧
      (u.emergency source).power.source = source ∧ (u.emergency source).power.stepDue = some (s.clk.frame + 1) ∧
      Raised s (u.emergency source) .none' .powerLimit 0x01 := by
    intro source hcause
    obtain ⟨h1, h2, h3, h4, -⟩ := emergency_begins hroom source
    exact ⟨h1, h2, by rw [h3, hs.clk], hcause ▸ Powered.raised hs h4⟩
  have hfields : ∀ t : State, t.power.voltage = u.power.voltage → t.power.current = u.power.current → t.power.samples = u.power.samples →
      t.power.voltage = BitVec.ofNat 16 (min mv 65535) ∧ t.power.current = BitVec.ofNat 16 (min tenMa 65535) ∧
      t.power.samples = (mv * tenMa :: s.power.samples).take 100 := by
    intro t h1 h2 h3
    rw [h1, h2, h3, hshown]
    exact ⟨rfl, rfl, rfl⟩
  by_cases hcalm : s.up = true ∧ s.chk.fatal = false
  · rw [if_neg (by simp [hcalm.1, hcalm.2])] at hrun
    cases hemer : s.power.emergency with
    | true =>
      rw [hemer, if_pos rfl] at hrun
      obtain ⟨hiff, hv, hc, hsam, -⟩ := emergencyEnd_ends (s := u) (by rw [hshown]; exact hemer)
      obtain ⟨f1, f2, f3⟩ := hfields _ hv hc hsam
      refine ⟨_, hrun, f1, f2, f3, fun _ h => (nomatch h), fun _ _ => hiff.trans ?_⟩
      rw [fiveBelow_iff, hs.fuses, hshown]
      have hbelow : (s.sampledPower mv tenMa).below = if 10 * (mv * tenMa) < 9 * s.pf .pwrCap 0 12 * 100000 then s.power.below + 1 else 0 := rfl
      rw [hbelow]
      have htemps : (s.sampledPower mv tenMa).temps = s.power.temps := rfl
      rw [htemps]
      split
      · next h => exact ⟨fun ⟨h1, h2⟩ => ⟨by omega, h, h2⟩, fun ⟨h1, _, h2⟩ => ⟨by omega, h2⟩⟩
      · next h => exact ⟨fun ⟨h1, _⟩ => absurd h1 (by omega), fun ⟨_, h1, _⟩ => absurd h1 h⟩
    | false =>
      rw [hemer, if_neg Bool.false_ne_true] at hrun
      have habove : (s.sampledPower mv tenMa).above = if s.fuses.plimit.toNat * 100000 < mv * tenMa then s.power.above + 1 else 0 := rfl
      by_cases hi : s.fuses.ilimit.toNat * 10 < tenMa
      · rw [if_pos hi] at hrun
        obtain ⟨-, -, -, -, hv, hc, hsam, -⟩ := emergency_begins hroom 2
        obtain ⟨f1, f2, f3⟩ := hfields _ hv hc hsam
        exact ⟨_, hrun, f1, f2, f3, fun _ _ => ⟨fun _ => hbegan 2 rfl, fun h => absurd hi (by omega), fun h => absurd hi (by omega)⟩,
          fun _ h => (nomatch h)⟩
      · rw [if_neg hi] at hrun
        by_cases ha : 3 ≤ (s.sampledPower mv tenMa).above
        · rw [if_pos ha] at hrun
          obtain ⟨-, -, -, -, hv, hc, hsam, -⟩ := emergency_begins hroom 1
          obtain ⟨f1, f2, f3⟩ := hfields _ hv hc hsam
          refine ⟨_, hrun, f1, f2, f3, fun _ _ => ⟨fun h => absurd h (by omega), fun _ _ _ => hbegan 1 rfl, fun _ h => ?_⟩,
            fun _ h => (nomatch h)⟩
          rw [habove, if_neg (by omega)] at ha
          omega
        · rw [if_neg ha] at hrun
          obtain ⟨f1, f2, f3⟩ := hfields u rfl rfl rfl
          refine ⟨_, hrun, f1, f2, f3, fun _ _ => ⟨fun h => absurd h (by omega), fun _ h1 h2 => ?_, fun _ h => ?_⟩, fun _ h => (nomatch h)⟩
          · rw [habove, if_pos h2] at ha
            omega
          · rw [hshown, habove, if_neg (by omega)]
            exact ⟨hemer, rfl⟩
  · obtain ⟨f1, f2, f3⟩ := hfields u rfl rfl rfl
    have hnot : (!s.up || s.chk.fatal) = true := by
      cases h1 : s.up with
      | false => rfl
      | true =>
        cases h2 : s.chk.fatal with
        | true => rfl
        | false => exact absurd ⟨h1, h2⟩ hcalm
    rw [if_pos hnot] at hrun
    exact ⟨_, hrun, f1, f2, f3, fun h => absurd h hcalm, fun h => absurd h hcalm⟩

end

end Sys2Proof.Machine
end


section
/-!
PROOFS. Temperature samples and trips, the power wish, the local step and rail excursions (R293, R297, R409 to R417).
-/
namespace Sys2Proof.Machine

/-! ### Temperatures -/

section
variable {s : State} {r : List (Int × Int)}

/-- Higher readings of the dies. -/
def higher (r : List (Int × Int)) : List Int := r.map fun v => max v.1 v.2

theorem powered_senseTemps (s : State) (old new : List Int) : Powered s (s.senseTemps old new) := by
  unfold State.senseTemps
  dsimp only
  refine Powered.trans (t := if _ then s.sensed .maxTj else s) ?_ (Powered.foldl _ _ _ fun u v => ?_)
  · split
    · exact powered_sensed ..
    · exact .refl s
  · split
    · exact powered_sensed ..
    · exact .refl u

/-- How many readings in a row the sensors of a die have differed. -/
def differCount (m : AMap Nat) (q : (Int × Int) × Nat) : Nat :=
  if decide (8 < q.1.1 - q.1.2) || decide (8 < q.1.2 - q.1.1) then AMap.get 0 m q.2 + 1 else 0

/-- The two readings of a die are compared. -/
def State.noteDiffer (s : State) (q : (Int × Int) × Nat) : State :=
  let u := { s with power := { s.power with differ := AMap.set 0 s.power.differ q.2 (differCount s.power.differ q) } }
  if differCount s.power.differ q = 10 ∧ u.up = true then
    u.logTo pfn 0x06 0xFF [BitVec.ofNat 8 q.2, BitVec.ofInt 8 q.1.1, BitVec.ofInt 8 q.1.2]
  else u

theorem noteDiffer_notes (s : State) (q : (Int × Int) × Nat) : Steady s (s.noteDiffer q) ∧
    ∃ differ, (s.noteDiffer q).power = { s.power with differ := differ } := by
  unfold State.noteDiffer
  dsimp only
  split
  · have hlog := powered_logTo
      { s with power := { s.power with differ := AMap.set 0 s.power.differ q.2 (differCount s.power.differ q) } } pfn 0x06 0xFF
      [BitVec.ofNat 8 q.2, BitVec.ofInt 8 q.1.1, BitVec.ofInt 8 q.1.2]
    exact ⟨⟨hlog.clk, hlog.chk, hlog.fuses, hlog.setup⟩, _, hlog.power⟩
  · exact ⟨⟨rfl, rfl, rfl, rfl⟩, _, rfl⟩

/-- The readings are noted; nothing else of the power manager changes but the clocks of differing sensors. -/
theorem readTemps_reads (s : State) (r : List (Int × Int)) : Steady s (s.readTemps r) ∧
    ∃ tj differ, (s.readTemps r).power = { s.power with temps := higher r, tj := tj, differ := differ } := by
  obtain ⟨tj, htj⟩ : ∃ tj, tj = BitVec.ofNat 7 (min ((higher r).foldl max 0).toNat 127) := ⟨_, rfl⟩
  obtain ⟨u, hu⟩ : ∃ u : State, u = ({ s with power := { s.power with temps := higher r, tj := tj } } : State).senseTemps s.power.temps (higher r) :=
    ⟨_, rfl⟩
  have hsense : Powered { s with power := { s.power with temps := higher r, tj := tj } } u := by
    rw [hu]
    exact powered_senseTemps ..
  have hbase : Steady s u := ⟨hsense.clk, hsense.chk, hsense.fuses, hsense.setup⟩
  have hrun : s.readTemps r = r.zipIdx.foldl State.noteDiffer u := by
    rw [hu, htj]
    rfl
  rw [hrun]
  refine List.foldlRecOn (motive := fun v : State => Steady s v ∧
    ∃ tj differ, v.power = { s.power with temps := higher r, tj := tj, differ := differ }) _ _
    ⟨hbase, tj, s.power.differ, hsense.power⟩ fun v hv q _ => ?_
  obtain ⟨hv1, tj', differ, hv2⟩ := hv
  obtain ⟨hq1, differ', hq2⟩ := noteDiffer_notes v q
  exact ⟨hv1.trans hq1, tj', differ', by rw [hq2, hv2]⟩

theorem trip_trips (u : State) : u.trip.power.phase = .tripped ∧ u.trip.power.thermtrip = true ∧ u.trip.power.pwrGood = false ∧
    u.trip.chk.fatal = true ∧ u.trip.chk.detail = 0x02 ∧ u.trip.mem = [] := by
  have hmem : ∀ x, ((u.wiped .tripped).sensed x).mem = [] ∧ ((u.wiped .tripped).sensed x).power.phase = .tripped := by
    intro x
    unfold State.sensed
    split <;> exact ⟨rfl, rfl⟩
  exact ⟨(hmem .moduleState).2, rfl, rfl, rfl, rfl, (hmem .moduleState).1⟩

theorem execTemperatureSample_ready (hl : r.length = 64) (hp : s.power.phase = .ready) : execTemperatureSample r s =
    .next (if (higher r).any fun v => decide ((s.fuses.trip.toNat : Int) ≤ v) then (s.readTemps r).trip
      else if s.chk.fatal then s.readTemps r
      else if s.power.emergency then (s.readTemps r).emergencyEnd
      else if (higher r).all fun v => decide (v < (s.fuses.throttle.toNat : Int)) then s.readTemps r
      else (s.readTemps r).emergency 3) := by
  obtain ⟨hs, tj, differ, hpow⟩ := readTemps_reads s r
  obtain ⟨u, hu⟩ : ∃ u, u = s.readTemps r := ⟨_, rfl⟩
  rw [← hu] at hs hpow ⊢
  have hphase : u.power.phase = .ready := by rw [hpow]; exact hp
  have hup : u.up = true := by rw [State.up, hphase]
  have htemps : u.power.temps = higher r := by rw [hpow]
  have hemer : u.power.emergency = s.power.emergency := by rw [hpow]
  have hrun : execTemperatureSample r s = if u.power.temps.any fun v => decide ((u.fuses.trip.toNat : Int) ≤ v) then .next u.trip
      else if !u.up || u.chk.fatal then .next u
      else if u.power.emergency then .next u.emergencyEnd
      else if u.cool then .next u
      else .next (u.emergency 3) := by
    unfold execTemperatureSample
    rw [if_neg (not_not.2 hl), if_neg (by rw [hp]; nofun), ← hu]
    dsimp only
    rw [hphase]
  rw [hrun, State.cool, hup, htemps, hemer, hs.fuses, hs.chk, Bool.not_true, Bool.false_or]
  simp only [apply_ite Host.Outcome.next]

/-- A sample of the dies trips the module, begins an emergency, or is noted. -/
theorem temperatureSample_notes (hr : (s.reporter 12).length < 16) (hl : r.length = 64) (hp : s.power.phase = .ready) :
    ∃ t, execTemperatureSample r s = .next t ∧
      ((∃ v ∈ higher r, (s.fuses.trip.toNat : Int) ≤ v) → t.power.phase = .tripped ∧ t.power.thermtrip = true ∧
        t.power.pwrGood = false ∧ t.chk.fatal = true ∧ t.chk.detail = 0x02 ∧ t.mem = []) ∧
      ((∀ v ∈ higher r, v < (s.fuses.trip.toNat : Int)) → t.power.phase = .ready ∧ t.power.temps = higher r ∧
        (s.chk.fatal = false → s.power.emergency = false → (∃ v ∈ higher r, (s.fuses.throttle.toNat : Int) ≤ v) →
          t.power.emergency = true ∧ t.power.source = 3 ∧ t.power.stepDue = some (s.clk.frame + 1) ∧
          Raised s t .none' .thermalLimit 0x01) ∧
        (s.power.emergency = false → (∀ v ∈ higher r, v < (s.fuses.throttle.toNat : Int)) → t.power.emergency = false)) := by
  obtain ⟨hs, tj, differ, hpow⟩ := readTemps_reads s r
  have hrun := execTemperatureSample_ready hl hp
  obtain ⟨u, hu⟩ : ∃ u, u = s.readTemps r := ⟨_, rfl⟩
  rw [← hu] at hs hpow hrun
  have hroom : (u.reporter 12).length < 16 := by
    rw [State.reporter, hs.chk]
    exact hr
  have hphase : u.power.phase = .ready := by rw [hpow]; exact hp
  have htemps : u.power.temps = higher r := by rw [hpow]
  have hemer : u.power.emergency = s.power.emergency := by rw [hpow]
  by_cases htrip : ∃ v ∈ higher r, (s.fuses.trip.toNat : Int) ≤ v
  · obtain ⟨v, hv, hle⟩ := htrip
    rw [if_pos (List.any_eq_true.2 ⟨v, hv, decide_eq_true hle⟩)] at hrun
    exact ⟨_, hrun, fun _ => trip_trips u, fun h => absurd (h v hv) (not_lt.2 hle)⟩
  · rw [if_neg (fun h => htrip (by obtain ⟨v, hv, hc⟩ := List.any_eq_true.1 h; exact ⟨v, hv, of_decide_eq_true hc⟩))] at hrun
    cases hf : s.chk.fatal with
    | true =>
      rw [hf, if_pos rfl] at hrun
      exact ⟨u, hrun, fun h => absurd h htrip, fun _ => ⟨hphase, htemps, fun h => (nomatch h), fun h _ => hemer.trans h⟩⟩
    | false =>
      rw [hf, if_neg Bool.false_ne_true] at hrun
      cases he : s.power.emergency with
      | true =>
        rw [he, if_pos rfl] at hrun
        obtain ⟨-, -, -, -, h1, h2⟩ := emergencyEnd_ends (s := u) (hemer.trans he)
        exact ⟨_, hrun, fun h => absurd h htrip, fun _ => ⟨h1.trans hphase, h2.trans htemps, fun _ h => (nomatch h), fun h => (nomatch h)⟩⟩
      | false =>
        rw [he, if_neg Bool.false_ne_true] at hrun
        by_cases hcool : ∀ v ∈ higher r, v < (s.fuses.throttle.toNat : Int)
        · rw [if_pos (List.all_eq_true.2 fun v hv => decide_eq_true (hcool v hv))] at hrun
          refine ⟨u, hrun, fun h => absurd h htrip, fun _ => ⟨hphase, htemps, fun _ _ hex => ?_, fun _ _ => hemer.trans he⟩⟩
          obtain ⟨v, hv, hle⟩ := hex
          exact absurd (hcool v hv) (not_lt.2 hle)
        · rw [if_neg (fun h => hcool fun v hv => of_decide_eq_true (List.all_eq_true.1 h v hv))] at hrun
          obtain ⟨h1, h2, h3, h4, -, -, -, h5, h6⟩ := emergency_begins hroom 3
          exact ⟨_, hrun, fun h => absurd h htrip, fun _ => ⟨h5.trans hphase, h6.trans htemps,
            fun _ _ _ => ⟨h1, h2, by rw [h3, hs.clk], Powered.raised hs h4⟩, fun _ h => absurd h hcool⟩⟩

end

/-! ### The power wish -/

section
variable {s : State}

theorem execPowerWishEvaluation_wishes (hup : s.up = true) :
    let n := 100000 * s.power.samples.length
    let cap := s.pf .pwrCap 0 12
    let target : Nat := s.pf .pwrTempCfg 0 7
    ∃ t, execPowerWishEvaluation s = .next t ∧
      (97 * cap * n < 100 * s.power.sum ∨ (∃ v ∈ s.power.temps, (target : Int) < v) →
        t.power.wish = BitVec.ofNat 5 (codeUp s.power.wish.toNat)) ∧
      (100 * s.power.sum < 85 * cap * n → 99 ≤ s.power.lowMs → (∀ v ∈ s.power.temps, v + 5 ≤ (target : Int)) → s.stretchRule = false →
        t.power.wish = BitVec.ofNat 5 (max s.fuses.lowestCode.toNat (codeDown s.power.wish.toNat))) ∧
      (100 * s.power.sum ≤ 97 * cap * n → 85 * cap * n ≤ 100 * s.power.sum → (∀ v ∈ s.power.temps, v ≤ (target : Int)) →
        s.stretchRule = false → t.power.wish = s.power.wish) := by
  intro n cap target
  obtain ⟨up, hupw⟩ : ∃ up, up = (decide (97 * cap * n < 100 * s.power.sum) ||
    (s.power.temps.any fun v => decide ((target : Int) < v)) || s.stretchRule) := ⟨_, rfl⟩
  obtain ⟨calm, hcalm⟩ : ∃ calm, calm = (decide (100 * s.power.sum < 85 * cap * n) && s.fiveBelow target && !s.stretchRule) := ⟨_, rfl⟩
  have hrun : execPowerWishEvaluation s = .next { s with power := { s.power with
      lowMs := if calm then s.power.lowMs + 1 else 0
      wish := BitVec.ofNat 5 (if up then codeUp s.power.wish.toNat
        else if 100 ≤ (if calm then s.power.lowMs + 1 else 0) then max s.fuses.lowestCode.toNat (codeDown s.power.wish.toNat)
        else s.power.wish.toNat) } } := by
    rw [hupw, hcalm]
    unfold execPowerWishEvaluation
    rw [if_neg (by simp [hup])]
  have hnotup : 100 * s.power.sum ≤ 97 * cap * n → (∀ v ∈ s.power.temps, v ≤ (target : Int)) → s.stretchRule = false → up = false := by
    intro h1 h2 h3
    rw [hupw, h3, decide_eq_false (not_lt.2 h1), Bool.false_or, Bool.or_false, List.any_eq_false]
    intro v hv
    simpa using h2 v hv
  refine ⟨_, hrun, fun h => ?_, fun h1 h2 h3 h4 => ?_, fun h1 h2 h3 h4 => ?_⟩
  · have : up = true := by
      rw [hupw]
      obtain h | ⟨v, hv, hlt⟩ := h
      · rw [decide_eq_true h, Bool.true_or, Bool.true_or]
      · rw [List.any_eq_true.2 ⟨v, hv, decide_eq_true hlt⟩, Bool.or_true, Bool.true_or]
    dsimp only
    rw [this, if_pos rfl]
  · have hle : 85 * cap * n ≤ 97 * cap * n := Nat.mul_le_mul_right n (Nat.mul_le_mul_right cap (by decide))
    have hn := hnotup (h1.le.trans hle) (fun v hv => by have := h3 v hv; omega) h4
    have hc : calm = true := by
      rw [hcalm, decide_eq_true h1, fiveBelow_iff.2 h3, h4]
      rfl
    dsimp only
    rw [hn, hc, if_neg Bool.false_ne_true, if_pos rfl, if_pos (by omega)]
  · have hc : calm = false := by rw [hcalm, decide_eq_false (not_lt.2 h2), Bool.false_and, Bool.false_and]
    dsimp only
    rw [hnotup h1 h3 h4, hc, if_neg Bool.false_ne_true, if_neg Bool.false_ne_true, if_neg (by decide), BitVec.ofNat_toNat, BitVec.setWidth_eq]

end

/-! ### The local step -/

/-- What a member's record may change: messages, the skein, the functions' reports, and whether warp service was lost. -/
structure Recorded (s t : State) : Prop where
  power : t.power = s.power
  setup : t.setup = s.setup
  fuses : t.fuses = s.fuses
  clk : t.clk = { s.clk with warpLost := t.clk.warpLost }

theorem Recorded.refl (s : State) : Recorded s s := ⟨rfl, rfl, rfl, rfl⟩

theorem Recorded.trans {s t u : State} (h : Recorded s t) (g : Recorded t u) : Recorded s u := by
  refine ⟨g.power.trans h.power, g.setup.trans h.setup, g.fuses.trans h.fuses, ?_⟩
  have h1 := g.clk
  rw [h.clk] at h1
  exact h1

theorem Recorded.foldl {α : Type} (l : List α) (s : State) (f : State → α → State) (h : ∀ s a, Recorded s (f s a)) : Recorded s (l.foldl f s) :=
  List.foldlRecOn (motive := fun u : State => Recorded s u) _ _ (.refl s) fun u hu a _ => hu.trans (h u a)

theorem recorded_sendTo (s : State) (l : List Nat) (m : StitchMsg) : Recorded s (s.sendTo l m) :=
  Recorded.foldl l s _ fun _ _ => ⟨rfl, rfl, rfl, rfl⟩

theorem recorded_formDone (s : State) : Recorded s s.formDone := by
  obtain ⟨fns, out, obs, hset⟩ := setSkein_only { s with skein := { s.skein with passNo := 0 } } .formed
  obtain ⟨u, hu⟩ : ∃ u, u = ({ s with skein := { s.skein with passNo := 0 } } : State).setSkein .formed := ⟨_, rfl⟩
  have hfirst : Recorded s u := by
    rw [hu, hset]
    exact ⟨rfl, rfl, rfl, rfl⟩
  have hwarp : Recorded u u.resumeWarp := by
    unfold State.resumeWarp
    split
    · exact .refl u
    · refine Recorded.trans (Recorded.foldl (u.skeinPorts u.skein.fn) u (fun s p => s.updPort p fun q =>
        if q.state = .full then { q with warpOn := true } else q) fun _ _ => ⟨rfl, rfl, rfl, rfl⟩) ?_
      exact ⟨rfl, rfl, rfl, rfl⟩
  have hform : ∀ v : State, Recorded v (v.completeForm .done) := by
    intro v
    unfold State.completeForm
    split
    · rw [finish_rest]
      exact ⟨rfl, rfl, rfl, rfl⟩
    · exact .refl v
  have hrun : s.formDone = u.resumeWarp.completeForm .done := by
    rw [hu]
    rfl
  rw [hrun]
  exact (hfirst.trans hwarp).trans (hform _)

theorem recorded_formTry (s : State) : Recorded s s.formTry := by
  unfold State.formTry
  split
  · exact .refl s
  · dsimp only
    split
    · exact .refl s
    · split
      · exact Recorded.foldl _ s _ fun _ _ => recorded_sendTo ..
      · exact (recorded_sendTo ..).trans (recorded_formDone _)

theorem recorded_formPart (s : State) (p : PortId) (sender : BitVec 12) (m : StitchMsg) : Recorded s (s.formPart p sender m) := by
  unfold State.formPart
  dsimp only
  split
  · exact ⟨rfl, rfl, rfl, rfl⟩
  · split
    · unfold State.refuse
      split
      · exact recorded_sendTo ..
      · exact ⟨rfl, rfl, rfl, rfl⟩
    · refine Recorded.trans ?_ (recorded_formTry _)
      exact ⟨rfl, rfl, rfl, rfl⟩

theorem recorded_buildRecord (s : State) : Recorded s s.buildRecord := by
  unfold State.buildRecord State.takeHeld
  dsimp only
  obtain ⟨u, hu⟩ : ∃ u, u = State.formTry { s with skein := { s.skein with record := some s.agreementRecord } } := ⟨_, rfl⟩
  have htry : Recorded s u := by
    rw [hu]
    refine Recorded.trans ?_ (recorded_formTry _)
    exact ⟨rfl, rfl, rfl, rfl⟩
  rw [← hu]
  refine htry.trans (Recorded.trans ?_ (Recorded.foldl _ _ _ fun _ _ => recorded_formPart ..))
  exact ⟨rfl, rfl, rfl, rfl⟩

section
variable {s : State}

theorem traceAll_only (s : State) (ty : Byte) (b : List Byte) : ∃ fns out obs, s.traceAll ty b = { s with fns := fns, out := out, obs := obs } := by
  unfold State.traceAll
  refine List.foldlRecOn (motive := fun u : State => ∃ fns out obs, u = { s with fns := fns, out := out, obs := obs }) _ _
    ⟨s.fns, s.out, s.obs, rfl⟩ fun u hu f _ => ?_
  obtain ⟨fns, out, obs, hu⟩ := hu
  have h := traceTo_only u f ty 0xFF b
  rw [hu] at h ⊢
  exact ⟨_, _, _, h⟩

/-- A step changes the period and pauses the timebase; what leaves the module is all else that moves. -/
theorem stepTo_steps (s : State) (code : BitVec 5) (loc : Bool) : (s.stepTo code loc).clk = { s.clk with
      period := code, announced := false, pending := 0, frameStart := s.clk.frameStart + 8000, timebase := s.clk.frameStart + 8000 } ∧
    (s.stepTo code loc).skein = s.skein ∧ (s.stepTo code loc).setup = s.setup ∧ (s.stepTo code loc).fuses = s.fuses := by
  unfold State.stepTo
  dsimp only
  obtain ⟨fns, out, obs, h⟩ := traceAll_only { s with
    clk := { s.clk with period := code, announced := false, pending := 0, frameStart := s.clk.frameStart + 8000, timebase := s.clk.frameStart + 8000 }
    power := { s.power with rail := s.railOf code.toNat }
    obs := { s.obs with steps := ((s.clk.frame.setWidth 32, s.clk.period, code, loc) :: s.obs.steps).take 16,
                        agreed := if loc then s.obs.agreed else s.obs.agreed + 1,
                        localSteps := if loc then s.obs.localSteps + 1 else s.obs.localSteps } } 0x23
    (leBytes 8 s.clk.frame.toNat ++ leBytes 1 s.clk.period.toNat ++ leBytes 1 code.toNat ++ [if loc then 1 else 0])
  rw [h]
  exact ⟨rfl, rfl, rfl, rfl⟩

/-- Bit 5 of CLK_TIME_CTRL makes a module its own time root. -/
theorem timeRoot_set (s : State) : (s.setReg 0 .clkTimeCtrl (s.reg 0 .clkTimeCtrl ||| 0x20)).timeRoot = true := by
  have hreg : (s.setReg 0 .clkTimeCtrl (s.reg 0 .clkTimeCtrl ||| 0x20)).reg 0 .clkTimeCtrl = s.reg 0 .clkTimeCtrl ||| 0x20 :=
    AMap.get_set_same ..
  rw [State.timeRoot, State.pf, hreg, beq_iff_eq]
  have hlt := fld_lt (s.reg 0 .clkTimeCtrl ||| 0x20) 5 1
  have hbit : (fld (s.reg 0 .clkTimeCtrl ||| 0x20) 5 1).testBit 0 = true := by
    rw [fld_testBit, BitVec.toNat_or, Nat.testBit_or]
    have h32 : (0x20 : BitVec 128).toNat.testBit (5 + 0) = true := by decide
    rw [h32, Bool.or_true]
    rfl
  have hne : fld (s.reg 0 .clkTimeCtrl ||| 0x20) 5 1 ≠ 0 := fun h => by
    rw [h] at hbit
    exact nomatch hbit
  omega

theorem Recorded.timeRoot {t : State} (h : Recorded s t) : t.timeRoot = s.timeRoot := by
  rw [State.timeRoot, State.pf, State.reg, h.setup, h.fuses, State.timeRoot, State.pf, State.reg]

/-- A module that leaves warp service; a member of a formed skein is detached. -/
theorem detach_detaches (s : State) : s.detach.power = s.power ∧ s.detach.setup = s.setup ∧ s.detach.fuses = s.fuses ∧
    s.detach.clk = { s.clk with warpLost := true, tolFrames := 0 } ∧
    (s.skein.state = .formed → s.skein.multi = true → s.detach.skein.state = .detached) := by
  unfold State.detach
  dsimp only
  split
  · obtain ⟨v, hv⟩ : ∃ v, v = ({ s with clk := { s.clk with warpLost := true, tolFrames := 0 } } : State).sendTo
      (State.treePorts { s with clk := { s.clk with warpLost := true, tolFrames := 0 } })
      (controlMsg 0x03 s.skein.id (State.moduleId { s with clk := { s.clk with warpLost := true, tolFrames := 0 } }) 0 0) := ⟨_, rfl⟩
    have hports : OnlyPorts { s with clk := { s.clk with warpLost := true, tolFrames := 0 } } v := by
      rw [hv]
      exact onlyPorts_foldl _ _ _ fun _ _ => rfl
    obtain ⟨fns, out, obs, h⟩ := setSkein_only v .detached
    rw [← hv, h, hports]
    exact ⟨rfl, rfl, rfl, rfl, fun _ _ => rfl⟩
  · next hn => exact ⟨rfl, rfl, rfl, rfl, fun h1 h2 => absurd ⟨h1, h2⟩ hn⟩

/-- The step of an emergency: a larger period, the module's own time root, and no warp service. -/
theorem localStep_steps {f : W64} (hup : s.up = true) (hsg : s.clk.sg = 100) (hdue : s.power.stepDue = some f)
    (hf : f.toNat ≤ s.clk.frame.toNat) : ∃ t, execLocalStep s = .next t ∧
      t.clk.period = BitVec.ofNat 5 (max s.ownWish (codeUp2 s.clk.period.toNat)) ∧ t.power.stepDue = none ∧ t.timeRoot = true ∧
      t.clk.frameStart = s.clk.frameStart + 8000 ∧ (s.skein.multi = true → s.skein.state = .formed → t.skein.state = .detached) := by
  obtain ⟨code, hcode⟩ : ∃ code, code = BitVec.ofNat 5 (max s.ownWish (codeUp2 s.clk.period.toNat)) := ⟨_, rfl⟩
  obtain ⟨u, hu⟩ : ∃ u, u = s.stepTo code true := ⟨_, rfl⟩
  obtain ⟨v, hv⟩ : ∃ v, v = u.setReg 0 .clkTimeCtrl (u.reg 0 .clkTimeCtrl ||| 0x20) := ⟨_, rfl⟩
  obtain ⟨w, hw⟩ : ∃ w : State, w = { v with power := { v.power with
    stepDue := none, stretchAll := false, localStep := v.power.localStep || !s.timeRoot } } := ⟨_, rfl⟩
  obtain ⟨x, hx⟩ : ∃ x, x = if w.inFormed then w.detach else w := ⟨_, rfl⟩
  have hrun : execLocalStep s = .next (if x.skein.state = .forming ∧ x.skein.record.isNone = true then x.buildRecord else x) := by
    rw [hx, hw, hv, hu, hcode]
    unfold execLocalStep
    rw [if_neg (by simp [hup, hsg, hdue, hf])]
  obtain ⟨hclk, hskein, -⟩ := stepTo_steps s code true
  rw [← hu] at hclk hskein
  have hvroot : v.timeRoot = true := by
    rw [hv]
    exact timeRoot_set u
  have hwroot : w.timeRoot = true := by
    rw [hw]
    exact hvroot
  have hwclk : w.clk = u.clk := by
    rw [hw, hv]
    rfl
  have hwskein : w.skein = s.skein := by
    rw [hw, hv]
    exact hskein
  have hwdue : w.power.stepDue = none := by rw [hw]
  have hxall : x.power.stepDue = none ∧ x.timeRoot = true ∧ x.clk.period = code ∧ x.clk.frameStart = s.clk.frameStart + 8000 ∧
      (s.skein.multi = true → s.skein.state = .formed → x.skein.state = .detached) := by
    rw [hx]
    split
    · obtain ⟨h1, h2, h3, h4, h5⟩ := detach_detaches w
      refine ⟨by rw [h1]; exact hwdue, ?_, by rw [h4, hwclk, hclk], by rw [h4, hwclk, hclk], fun hm hs => h5 (by rw [hwskein]; exact hs)
        (by rw [hwskein]; exact hm)⟩
      rw [← hwroot, State.timeRoot, State.pf, State.reg, h2, h3, State.timeRoot, State.pf, State.reg]
    · next hn =>
      refine ⟨hwdue, hwroot, by rw [hwclk, hclk], by rw [hwclk, hclk], fun hm hs => absurd ?_ hn⟩
      rw [State.inFormed, hwskein, hm, hs]
      rfl
  obtain ⟨h1, h2, h3, h4, h5⟩ := hxall
  refine ⟨_, hrun, ?_⟩
  split
  · next hc =>
    have hrec := recorded_buildRecord x
    refine ⟨by rw [hrec.clk]; exact h3.trans hcode, by rw [hrec.power]; exact h1, hrec.timeRoot.trans h2, by rw [hrec.clk]; exact h4,
      fun hm hs => ?_⟩
    exact absurd ((h5 hm hs).symm.trans hc.1) (by decide)
  · exact ⟨h3.trans hcode, h1, h2, h4, h5⟩

end

/-! ### Rail excursions -/

/-- A rail outside regulation is fatal, and PWR_GOOD falls. -/
theorem railExcursion_stops {s : State} (rail : Fin 7) (hr : (s.reporter 12).length < 16) (hup : s.up = true) (hf : s.chk.fatal = false)
    (hg : s.power.pwrGood = true) : ∃ t, execRailExcursion rail s = .next t ∧ t.power.pwrGood = false ∧
      Raised s t .none' .powerLimit 0x02 ∧ t.chk.fatal = true ∧ t.chk.cause = Cause.powerLimit.code := by
  obtain ⟨u, hu⟩ : ∃ u : State, u = { s with power := { s.power with pwrGood := false } } := ⟨_, rfl⟩
  have hus : Steady s u := by
    rw [hu]
    exact ⟨rfl, rfl, rfl, rfl⟩
  have hoff : s.railsOff = false := by
    unfold State.up at hup
    unfold State.railsOff
    cases hp : s.power.phase with
    | ready => rfl
    | warmPending _ => rfl
    | _ => simp [hp] at hup
  have huup : u.up = true := by
    rw [hu]
    exact hup
  have hrun : execRailExcursion rail s = .next (u.raise .none' .powerLimit 0x02 none) := by
    unfold execRailExcursion
    rw [if_neg (by rw [hg, hoff, Bool.false_and]; decide)]
    refine congrArg Host.Outcome.next (Eq.trans (b := if u.up && !s.chk.fatal then u.raise .none' .powerLimit 0x02 none else u) ?_ ?_)
    · rw [hu]
    · rw [if_pos (by rw [huup, hf]; rfl)]
  obtain ⟨hraised, hfatal, hcause, -⟩ := raise_fatal (s := u) (src := .none') (cause := .powerLimit) (d := 0x02) (fun _ => rfl)
    (by rw [State.reporter, hus.chk]; exact hr) none
  refine ⟨_, hrun, ?_, Powered.raised hus hraised, hfatal, hcause⟩
  have hstop : u.raise .none' .powerLimit 0x02 none = (u.queueRecord 12 (u.mkRecord .none' .powerLimit 0x02 .fatal none)).fatalStop
    (u.mkRecord .none' .powerLimit 0x02 .fatal none) := rfl
  rw [hstop, (fatalStop_stops ..).2, queueRecord_of_room (by rw [State.reporter, hus.chk]; exact hr)]
  rw [hu]

/-- Settles O52: samples are shown, begin and end emergencies and trip the module; the wish, the local step and a rail excursion take
effect. -/
theorem powerAndEmergencies : Obligations.PowerAndEmergencies := by
  unfold Obligations.PowerAndEmergencies
  intro s hr p began calm
  exact ⟨fun mv tenMa hp => powerSample_shows hr hp, fun r hl hp => temperatureSample_notes hr hl hp,
    fun hup => execPowerWishEvaluation_wishes hup, fun f hup hsg hdue hf => localStep_steps hup hsg hdue hf,
    fun rail hcalm hg => railExcursion_stops rail hr hcalm.1 hcalm.2 hg⟩

end Sys2Proof.Machine
end


section
/-!
PROOFS. Start-up, what a reset leaves, and warm resets (R400, R401, R408, R417, R420 to R428, R455).
-/
namespace Sys2Proof.Machine

/-! ### The self-test -/

/-- The parts of a zeroised module that a fatal finding of the self-test does not move. -/
structure Checked (s t : State) : Prop where
  passes : t.passes = s.passes
  skein : t.skein = s.skein
  sec : t.sec = s.sec
  power : t.power = s.power
  clk : t.clk = s.clk
  mem : t.mem = s.mem
  diesOut : t.diesOut = s.diesOut
  setup : t.setup = s.setup
  cores : t.cores = s.cores
  jtag : t.side.jtag = s.side.jtag
  fuses : t.fuses = s.fuses

theorem Checked.refl (s : State) : Checked s s := ⟨rfl, rfl, rfl, rfl, rfl, rfl, rfl, rfl, rfl, rfl, rfl⟩

theorem Checked.trans {s t u : State} (h : Checked s t) (g : Checked t u) : Checked s u :=
  ⟨g.passes.trans h.passes, g.skein.trans h.skein, g.sec.trans h.sec, g.power.trans h.power, g.clk.trans h.clk, g.mem.trans h.mem,
    g.diesOut.trans h.diesOut, g.setup.trans h.setup, g.cores.trans h.cores, g.jtag.trans h.jtag, g.fuses.trans h.fuses⟩

theorem checked_refuseFetched (s : State) : Checked s s.refuseFetched := by
  have hfold : ∀ (f : FnId) (l : List Fetched) (u : State),
      Checked u (l.foldl (fun s d => s.finish f d.ring d.index .rejectedState) u) := by
    intro f l u
    refine List.foldlRecOn (motive := fun v : State => Checked u v) _ _ (.refl u) fun v hv d _ => hv.trans ?_
    rw [finish_rest]
    exact ⟨rfl, rfl, rfl, rfl, rfl, rfl, rfl, rfl, rfl, rfl, rfl⟩
  unfold State.refuseFetched
  exact List.foldlRecOn (motive := fun v : State => Checked s v) _ _ (.refl s) fun v hv kv _ => hv.trans (hfold _ _ v)

/-- With no pass and no skein, the fatal state refuses what was fetched and no more. -/
theorem checked_fatalStop {s : State} (hp : s.passes = []) (hs : s.skein.state = .none) (r : FaultRecord) : Checked s (s.fatalStop r) := by
  obtain ⟨u, hu⟩ : ∃ u : State, u = { s.sensed .moduleState with
    chk := { s.chk with fatal := true, cause := r.cause.code, detail := r.detail }, scheduled := false, modePending := none } := ⟨_, rfl⟩
  have hfirst : Checked s u := by
    rw [hu]
    unfold State.sensed
    split <;> exact ⟨rfl, rfl, rfl, rfl, rfl, rfl, rfl, rfl, rfl, rfl, rfl⟩
  have hbreak : ∀ (f : Byte) (m : BitVec 12) (p : Option Nat), u.breakSkein f m p = u := by
    intro f m p
    have hst : u.skein.state = .none := by
      rw [hfirst.skein]
      exact hs
    simp [State.breakSkein, hst]
  have hpasses : u.allPasses = [] := by
    rw [State.allPasses, hfirst.passes, hp]
    rfl
  have hrun : s.fatalStop r = u.refuseFetched := by
    unfold State.fatalStop
    dsimp only
    rw [← hu, hpasses, List.foldl_nil, hbreak]
  rw [hrun]
  exact hfirst.trans (checked_refuseFetched u)

theorem checked_queueRecord (s : State) (n : Nat) (r : FaultRecord) : Checked s (s.queueRecord n r) := by
  unfold State.queueRecord
  dsimp only
  split <;> exact ⟨rfl, rfl, rfl, rfl, rfl, rfl, rfl, rfl, rfl, rfl, rfl⟩

theorem checked_raiseFatal {s : State} (hp : s.passes = []) (hs : s.skein.state = .none) (src : Src) (c : Cause) (d : Byte) :
    Checked s (s.raiseFatal src c d) := by
  unfold State.raiseFatal
  have hq := checked_queueRecord s src.reporter (s.mkRecord src c d .fatal ((s.ownerOf src.core.toNat).map (·.2)))
  exact hq.trans (checked_fatalStop (hq.passes.trans hp) (by rw [hq.skein]; exact hs) _)

theorem checked_draw (s : State) (k : Nat) : Checked s (s.draw k).2 := ⟨rfl, rfl, rfl, rfl, rfl, rfl, rfl, rfl, rfl, rfl, rfl⟩

/-- A link beyond repair is fatal (R227). -/
def State.linkFinding (s : State) (st : SelfTest) : State := if st.linkBeyondRepair then s.raise .none' .linkDown 0x80 none else s

/-- A die identity that the self-test does not accept is fatal (R18). -/
def State.badDies (s : State) : Bool := decide (s.fuses.dies.length ≠ 64) || s.fuses.dies.zipIdx.any fun r => recordKind r.1 != kindOfDie r.2

theorem checked_linkFinding {s : State} (hp : s.passes = []) (hs : s.skein.state = .none) (st : SelfTest) :
    Checked s (s.linkFinding st) := by
  unfold State.linkFinding
  split
  · have hq := checked_queueRecord s 12 (s.mkRecord .none' .linkDown 0x80 .fatal none)
    exact hq.trans (checked_fatalStop (hq.passes.trans hp) (by rw [hq.skein]; exact hs) _)
  · exact .refl s

theorem fatalFindings_eq (s : State) (st : SelfTest) : s.fatalFindings st =
    let u := s.linkFinding st
    let v := if u.badDies then (u.draw 0x18).2.raiseFatal .none' .controlParity ((u.draw 0x18).1.setWidth 8) else u
    if st.io0HubFails then (v.draw 0x245).2.raiseFatal (.io 0) .controlParity ((v.draw 0x245).1.setWidth 8) else v := rfl

theorem checked_fatalFindings {s : State} (hp : s.passes = []) (hs : s.skein.state = .none) (st : SelfTest) :
    Checked s (s.fatalFindings st) := by
  rw [fatalFindings_eq]
  dsimp only
  obtain ⟨u, hu⟩ : ∃ u, u = s.linkFinding st := ⟨_, rfl⟩
  have hsu : Checked s u := by
    rw [hu]
    exact checked_linkFinding hp hs st
  have hstep : ∀ (w : State) (k : Nat) (src : Src) (d : Byte), Checked s w → Checked s ((w.draw k).2.raiseFatal src .controlParity d) := by
    intro w k src d hw
    refine (hw.trans (checked_draw w k)).trans (checked_raiseFatal ?_ ?_ ..)
    · exact hw.passes.trans hp
    · show w.skein.state = .none
      rw [hw.skein]
      exact hs
  obtain ⟨v, hv⟩ : ∃ v, v = if u.badDies then (u.draw 0x18).2.raiseFatal .none' .controlParity ((u.draw 0x18).1.setWidth 8) else u := ⟨_, rfl⟩
  have hsv : Checked s v := by
    rw [hv]
    split
    · exact hstep u _ _ _ hsu
    · exact hsu
  rw [← hu, ← hv]
  split
  · exact hstep v _ _ _ hsv
  · exact hsv

/-- A link beyond repair shows in CHK_STATUS where no other finding of the self-test is fatal. -/
theorem fatalFindings_link {s : State} {st : SelfTest} (hlink : st.linkBeyondRepair = true) (hbad : s.badDies = false)
    (hhub : st.io0HubFails = false) (hfuses : (s.linkFinding st).fuses = s.fuses) : (s.fatalFindings st).chk.fatal = true ∧
      (s.fatalFindings st).chk.cause = Cause.linkDown.code ∧ (s.fatalFindings st).chk.detail = 0x80 := by
  have hnot : (s.linkFinding st).badDies = false := by
    rw [State.badDies, hfuses]
    exact hbad
  have hrun : s.fatalFindings st = (s.queueRecord 12 (s.mkRecord .none' .linkDown 0x80 .fatal none)).fatalStop
      (s.mkRecord .none' .linkDown 0x80 .fatal none) := by
    rw [fatalFindings_eq]
    dsimp only
    rw [hnot, hhub, if_neg Bool.false_ne_true, if_neg Bool.false_ne_true, State.linkFinding, if_pos hlink]
    rfl
  rw [hrun, fatalStop_chk]
  exact ⟨rfl, rfl, rfl⟩

/-! ### Service states after the self-test -/

section
variable {s : State} {st : SelfTest} {c : Nat}

/-- Dies that the self-test takes out of service: those that it finds, and those with two bypassed cores. -/
def testDies (st : SelfTest) : List DieId :=
  ((List.range 12).map (Fin.ofNat 12)).filter fun (d : DieId) =>
    st.diesOut.contains d || decide (2 ≤ (st.bypassed.filter fun c => coreDie c.val == d.val).length)

/-- Service state that the self-test gives a core. -/
def testService (st : SelfTest) (c : Nat) : CoreSvc :=
  if st.bypassed.any fun b => b.val == c then .bypassed
  else if (testDies st).any fun d => d.val == coreDie c then .outOfService
  else if st.fenced.any fun b => b.val == c then .fenced else .inService

/-- Cores that a finding of the self-test names. -/
def testHit (st : SelfTest) : List Nat :=
  (st.bypassed.map fun c => c.val) ++ (st.fenced.map fun c => c.val) ++ (testDies st).flatMap fun d => (List.range 144).map fun i => coreAt d.val i

/-- Puts what the self-test found into the cores that it names. -/
def State.putFound (s : State) (st : SelfTest) : State :=
  (testHit st).foldl (fun (s : State) c => s.setCore c (Core.outWith (testService st c) 0)) { s with diesOut := testDies st }

theorem findings_eq (s : State) (st : SelfTest) : s.findings st = (s.putFound st).dropParts := by
  unfold State.findings State.putFound testHit testService testDies
  rfl

/-- Only the registers of partitions that hold a die out of service change. -/
theorem dropParts_drops (s : State) : s.dropParts = { s with setup := s.dropParts.setup } ∧ (s.diesOut = [] → s.dropParts.setup = s.setup) := by
  unfold State.dropParts
  generalize (List.range 12).map (Fin.ofNat 12) = l
  refine List.foldlRecOn (motive := fun u : State => u = { s with setup := u.setup } ∧ (s.diesOut = [] → u.setup = s.setup)) l _
    ⟨rfl, fun _ => rfl⟩ fun u hu p _ => ?_
  obtain ⟨hrest, hset⟩ := hu
  have hout : u.diesOut = s.diesOut := by rw [hrest]
  dsimp only
  split
  · next hc =>
    refine ⟨?_, fun hd => ?_⟩
    · rw [hrest]
      rfl
    · rw [hout, hd, List.any_nil, Bool.and_false] at hc
      exact nomatch hc
  · exact ⟨hrest, hset⟩

/-- A core that is named has what the self-test found. -/
theorem setCores_get (g : Nat → Core) {l : List Nat} (hc : c ∈ l) (s : State) : (l.foldl (fun s c => s.setCore c (g c)) s).core c = g c := by
  have hkeep : ∀ (l : List Nat) (u : State), u.core c = g c → (l.foldl (fun s c => s.setCore c (g c)) u).core c = g c := by
    intro l u hu
    refine List.foldlRecOn (motive := fun v : State => v.core c = g c) _ _ hu fun v hv b _ => ?_
    by_cases hb : c = b
    · rw [hb, State.core_setCore_same]
    · rw [State.core_setCore_other _ _ hb]
      exact hv
  obtain ⟨l1, l2, rfl⟩ := List.append_of_mem hc
  rw [List.foldl_append, List.foldl_cons]
  exact hkeep l2 _ (State.core_setCore_same ..)

theorem setCores_only (g : Nat → Core) (l : List Nat) (s : State) :
    l.foldl (fun s c => s.setCore c (g c)) s = { s with cores := (l.foldl (fun s c => s.setCore c (g c)) s).cores } :=
  List.foldlRecOn (motive := fun u : State => u = { s with cores := u.cores }) l _ rfl fun u hu b _ => by
    rw [hu]
    rfl

/-- The self-test moves the service states, the dies out of service and the partitions. -/
theorem findings_find (s : State) (st : SelfTest) :
    s.findings st = { s with cores := (s.findings st).cores, diesOut := testDies st, setup := (s.findings st).setup } ∧
    (testDies st = [] → (s.findings st).setup = s.setup) ∧ ∀ c ∈ testHit st, ((s.findings st).core c).svc = testService st c := by
  obtain ⟨u, hu⟩ : ∃ u : State, u = s.putFound st := ⟨_, rfl⟩
  have honly : u = { s with diesOut := testDies st, cores := u.cores } := by
    have h := setCores_only (fun c => Core.outWith (testService st c) 0) (testHit st) { s with diesOut := testDies st }
    rw [hu]
    exact h
  have hrun : s.findings st = u.dropParts := by
    rw [findings_eq, hu]
  obtain ⟨hrest, hset⟩ := dropParts_drops u
  have hout : u.diesOut = testDies st := by rw [honly]
  rw [hrun]
  refine ⟨?_, fun hd => ?_, fun c hc => ?_⟩
  · have hkept : u.dropParts.cores = u.cores := by rw [hrest]
    rw [hkept]
    refine hrest.trans ?_
    generalize u.dropParts.setup = x
    rw [honly]
  · rw [hset (hout.trans hd), honly]
  · rw [State.core, hrest]
    show (u.core c).svc = _
    rw [hu, State.putFound]
    exact congrArg Core.svc (setCores_get (fun c => Core.outWith (testService st c) 0) hc { s with diesOut := testDies st })

theorem service_bypassed {b : CoreId} (h : b ∈ st.bypassed) : b.val ∈ testHit st ∧ testService st b.val = .bypassed := by
  refine ⟨List.mem_append_left _ (List.mem_append_left _ (List.mem_map_of_mem h)), ?_⟩
  unfold testService
  have hany : (st.bypassed.any fun x => x.val == b.val) = true := List.any_eq_true.2 ⟨b, h, beq_self_eq_true b.val⟩
  exact if_pos hany

theorem service_fenced {b : CoreId} (h : b ∈ st.fenced) (hn : b ∉ st.bypassed) (hd : ∀ d ∈ testDies st, d.val ≠ coreDie b.val) :
    b.val ∈ testHit st ∧ testService st b.val = .fenced := by
  refine ⟨List.mem_append_left _ (List.mem_append_right _ (List.mem_map_of_mem h)), ?_⟩
  unfold testService
  rw [if_neg, if_neg]
  · have hany : (st.fenced.any fun x => x.val == b.val) = true := List.any_eq_true.2 ⟨b, h, beq_self_eq_true b.val⟩
    exact if_pos hany
  · rw [Bool.not_eq_true, List.any_eq_false]
    exact fun d hdm => by simpa using hd d hdm
  · rw [Bool.not_eq_true, List.any_eq_false]
    intro x hx he
    exact hn (Fin.ext (beq_iff_eq.1 he) ▸ hx)

theorem mem_dies {d : DieId} (h : d ∈ st.diesOut) : d ∈ testDies st := by
  refine List.mem_filter.2 ⟨List.mem_map.2 ⟨d.val, List.mem_range.2 d.isLt, Fin.ext (Nat.mod_eq_of_lt d.isLt)⟩, ?_⟩
  rw [List.contains_iff_mem.2 h, Bool.true_or]

end

/-! ### Start-up -/

/-- The security block with which the self-test starts. -/
def Sec.booted (k : Sec) (cause : ResetCause) (st : SelfTest) : Sec :=
  { k.turn with
    bootCount := k.bootCount + 1, kem := some st.kemSeed, trng := true,
    ready := k.copies.any id && decide (k.topLeaf < 2 ^ 20 ∨ k.leaf < 2 ^ 20),
    newTamper := cause == ResetCause.tamper,
    sensor := if cause = ResetCause.tamper then (k.tamperLog.getLast?.map fun (e : W64 × Byte × Byte) => e.2.1).getD 0 else 0 }

/-- The state from which the self-test starts. -/
def State.booted (s : State) (cause : ResetCause) (st : SelfTest) : State :=
  let s := s.wiped (if s.power.perst then .held else .ready)
  { s with
    sec := s.sec.booted cause st,
    power := { s.power with cause := cause, pwrGood := true, tripped := false, rail := s.railOf 20 },
    side := { s.side with tampered := false },
    clk := .started 0 0 }

theorem startUp_eq (s : State) (cause : ResetCause) (st : SelfTest) : s.startUp cause st = ((s.booted cause st).findings st).fatalFindings st := rfl

/-- What a module that has started shows. -/
theorem startUp_starts (s : State) (cause : ResetCause) (st : SelfTest) :
    let t := s.startUp cause st
    (t.power.cause = cause ∧ t.power.pwrGood = true ∧ t.sec.bootCount = s.sec.bootCount + 1 ∧ t.clk.period = 20 ∧ t.mem = [] ∧
      (t.diesOut = [] → t.setup = []) ∧ t.passes = [] ∧ t.skein.state = .none) ∧
    t.power.inputGood = s.power.inputGood ∧ t.power.phase = (if s.power.perst then .held else .ready) ∧
    (cause = .tamper → t.sec.newTamper = true) ∧ t.side.jtag = s.side.jtag ∧ t.diesOut = testDies st ∧
    (∀ c ∈ testHit st, (t.core c).svc = testService st c) ∧
    (st.linkBeyondRepair = true → t.chk.fatal = true ∧ t.chk.cause = Cause.linkDown.code ∧ t.chk.detail = 0x80 ∨
      s.badDies = true ∨ st.io0HubFails = true) := by
  intro t
  obtain ⟨b, hb⟩ : ∃ b, b = s.booted cause st := ⟨_, rfl⟩
  obtain ⟨v, hv⟩ : ∃ v, v = b.findings st := ⟨_, rfl⟩
  have ht : t = v.fatalFindings st := by
    rw [hv, hb]
    exact startUp_eq s cause st
  obtain ⟨hrest, hset, hcores⟩ := findings_find b st
  rw [← hv] at hrest hset hcores
  have hpasses : v.passes = [] := by rw [hrest, hb]; rfl
  have hskein : v.skein.state = .none := by rw [hrest, hb]; rfl
  have hc := checked_fatalFindings hpasses hskein st
  rw [← ht] at hc
  have hpower : t.power = b.power := by rw [hc.power, hrest]
  have hsec : t.sec = b.sec := by rw [hc.sec, hrest]
  have hdies : t.diesOut = testDies st := by rw [hc.diesOut, hrest]
  have hbsec : b.sec = s.sec.kept.booted cause st := by rw [hb]; rfl
  refine ⟨⟨?_, ?_, ?_, ?_, ?_, fun hd => ?_, hc.passes.trans hpasses, ?_⟩, ?_, ?_, fun htam => ?_, ?_, hdies, fun c hcm => ?_, fun hlink => ?_⟩
  · rw [hpower, hb]
    rfl
  · rw [hpower, hb]
    rfl
  · rw [hsec, hbsec]
    rfl
  · rw [hc.clk, hrest, hb]
    rfl
  · rw [hc.mem, hrest, hb]
    rfl
  · rw [hc.setup, hset (hdies.symm.trans hd), hb]
    rfl
  · rw [hc.skein]
    exact hskein
  · rw [hpower, hb]
    rfl
  · rw [hpower, hb]
    rfl
  · rw [hsec, hbsec, htam]
    rfl
  · rw [hc.jtag, hrest, hb]
    rfl
  · rw [State.core, hc.cores]
    exact hcores c hcm
  · have hfuses : v.fuses = s.fuses := by rw [hrest, hb]; rfl
    cases hbad : s.badDies with
    | true => exact .inr (.inl rfl)
    | false =>
      cases hhub : st.io0HubFails with
      | true => exact .inr (.inr rfl)
      | false =>
        left
        rw [ht]
        exact fatalFindings_link hlink (by rw [State.badDies, hfuses]; exact hbad) hhub (checked_linkFinding hpasses hskein st).fuses

end Sys2Proof.Machine
end


section
/-!
PROOFS. Function-level resets (R361, R362).
-/
namespace Sys2Proof.Machine

/-! ### Functions that a reset has emptied -/

/-- An emptied function: no executable, no session, no descriptor and no generation. -/
def Func.Emptied (u : Func) : Prop := u.exe = none ∧ u.session = none ∧ u.fetched = [] ∧ u.gens = []

/-- Functions that are emptied stay so, and no function comes or goes. -/
structure Quiet (s t : State) : Prop where
  numVfs : t.numVfs = s.numVfs
  empty : ∀ g, (s.fn g).Emptied → (t.fn g).Emptied

theorem Quiet.refl (s : State) : Quiet s s := ⟨rfl, fun _ h => h⟩

theorem Quiet.trans {s t u : State} (h : Quiet s t) (g : Quiet t u) : Quiet s u :=
  ⟨g.numVfs.trans h.numVfs, fun f hf => g.empty f (h.empty f hf)⟩

theorem Quiet.of_fns {s t : State} (hf : t.fns = s.fns) (hn : t.numVfs = s.numVfs) : Quiet s t := by
  refine ⟨hn, fun g h => ?_⟩
  rw [State.fn, hf]
  exact h

theorem Quiet.of_reported {s t : State} (h : Reported s t) (hf : ∀ g, (s.fn g).fetched = [] → (t.fn g).fetched = [])
    (hn : t.numVfs = s.numVfs) : Quiet s t := by
  refine ⟨hn, fun g hg => ?_⟩
  obtain ⟨hexe, hsession, hfetched, hgens⟩ := hg
  refine ⟨?_, ?_, hf g hfetched, ?_⟩
  · rw [h.fn g]
    exact hexe
  · rw [h.fn g]
    exact hsession
  · rw [h.fn g]
    exact hgens

theorem Quiet.of_kept {s t : State} (h : Reported s t) (hk : HostKept s t) (hn : t.numVfs = s.numVfs) : Quiet s t :=
  .of_reported h (fun g hg => (hk.fetched g).trans hg) hn

/-- The ends of descriptors. -/
theorem Quiet.of_ends {s t : State} (h : Reported s t) (he : HostEnds s t) : Quiet s t := by
  refine .of_reported h (fun g hg => ?_) (by rw [he.rest])
  refine List.eq_nil_iff_forall_not_mem.2 fun d hd => ?_
  have hnone : (t.fn g).find d.ring d.index = none := he.find g d.ring d.index (by rw [Func.find, hg]; rfl)
  exact absurd (List.find?_eq_none.1 hnone d hd) (by simp)

theorem quiet_updFn (s : State) (f : Nat) (g : Func → Func) (hg : (s.fn f).Emptied → (g (s.fn f)).Emptied) : Quiet s (s.updFn f g) := by
  refine ⟨rfl, fun b hb => ?_⟩
  by_cases he : b = f
  · subst he
    rw [State.fn_updFn_same]
    exact hg hb
  · rw [State.fn_updFn_other _ _ he]
    exact hb

theorem Quiet.foldl {α : Type} (l : List α) (s : State) (f : State → α → State) (h : ∀ s a, Quiet s (f s a)) : Quiet s (l.foldl f s) :=
  List.foldlRecOn (motive := fun u : State => Quiet s u) _ _ (.refl s) fun u hu a _ => hu.trans (h u a)

theorem quiet_traceTo (s : State) (f : FnId) (ty cause : Byte) (b : List Byte) : Quiet s (s.traceTo f ty cause b) :=
  .of_kept (reported_traceTo ..) (hostKept_traceTo ..) (by rw [traceTo_only])

theorem quiet_traceGen (s : State) (f : FnId) (g : W32) (old new : GenState) : Quiet s (s.traceGen f g old new) := by
  unfold State.traceGen
  split
  · exact .refl s
  · exact quiet_traceTo ..

theorem quiet_finish (s : State) (f : FnId) (r : RingId) (i : BitVec 12) (st : Status) : Quiet s (s.finish f r i st) :=
  .of_ends (reported_finish ..) (hostEnds_complete ..)

theorem quiet_setSkein (s : State) (st : SkeinState) : Quiet s (s.setSkein st) := by
  unfold State.setSkein
  dsimp only
  split
  · exact .refl s
  · refine Quiet.trans ?_ (quiet_traceTo ..)
    exact .of_fns rfl rfl

theorem quiet_setPassState (s : State) (k : Nat) (st : PassState) : Quiet s (s.setPassState k st) := by
  unfold State.setPassState
  split
  · exact .refl s
  · refine Quiet.trans ?_ (quiet_traceTo ..)
    exact .of_fns rfl rfl

theorem haltCore_fns (s : State) (c n : Nat) : (s.haltCore c n).fns = s.fns := by
  have hland : ∀ u : State, (u.settleAll c).fns = u.fns := fun u => by
    unfold State.settleAll
    split <;> rfl
  have hclose : ∀ (u : State) (t : Nat), (u.closeLedger c t).fns = u.fns := fun u t => by
    unfold State.closeLedger
    refine List.foldlRecOn (motive := fun v : State => v.fns = u.fns) _ _ rfl fun v hv e _ => ?_
    exact (congrArg State.fns (ledger_onlyObs v c e _ _ _).rest).trans hv
  have hcharge : (s.chargeEnd c).fns = s.fns := by
    unfold State.chargeEnd
    split <;> rfl
  exact (hland _).trans ((hclose _ _).trans hcharge)

theorem quiet_haltCore (s : State) (c n : Nat) : Quiet s (s.haltCore c n) :=
  .of_fns (haltCore_fns s c n) (by rw [haltCore_stopped s c n])

theorem quiet_dyeAbandoned (s : State) (p : Pass) (l : List Nat) : Quiet s (s.dyeAbandoned p l) := by
  unfold State.dyeAbandoned
  refine Quiet.foldl _ s _ fun u kv => ?_
  split
  · split
    · split
      · exact quiet_traceTo ..
      · exact .refl u
    · exact .refl u
  · exact .refl u

theorem quiet_quiesced (s : State) (k : Nat) (p : Pass) (st : Status) (noRetry : Bool) : Quiet s (s.quiesced k p st noRetry) := by
  have halt := Quiet.foldl (s.jobCores k) s
    (fun s c => s.haltCore c (if p.start.isSome then 3200 * (p.kernelStart.toNat - (p.start.getD 0).toNat) else 0))
    fun s c => quiet_haltCore s c _
  unfold State.quiesced
  refine Quiet.trans (Quiet.trans (halt.trans (quiet_dyeAbandoned _ p (s.jobCores k))) ?_) (quiet_setPassState _ _ _)
  exact .of_fns rfl rfl

theorem quiet_abandon (s : State) (k : Nat) (st : Status) (noRetry : Bool) : Quiet s (s.abandon k st noRetry) := by
  have hset : ∀ p, Quiet s (s.setPass k p) := fun _ => .of_fns rfl rfl
  have hnoticed : ∀ (u : State) (p : Pass), Quiet u (u.noticed p) := fun u p => by
    unfold State.noticed
    split <;> exact .of_fns rfl rfl
  unfold State.abandon
  split
  · exact .refl s
  · split
    · exact .refl s
    · exact .refl s
    · split_ifs
      · exact hset _
      · exact hset _
      · exact .refl s
    · next p _ _ _ _ _ => exact (quiet_quiesced s k p st noRetry).trans (hnoticed _ p)

theorem quiet_leaveSkein (s : State) : Quiet s s.leaveSkein := by
  refine (quiet_setSkein s .none).trans ?_
  exact .of_fns rfl rfl

theorem quiet_retireOld (s : State) (f : FnId) : Quiet s (s.retireOld f) := by
  unfold State.retireOld
  dsimp only
  refine Quiet.trans ?_ (Quiet.foldl _ _ _ fun _ _ => quiet_traceGen ..)
  refine quiet_updFn s f.val _ fun h => ?_
  obtain ⟨hexe, hsession, hfetched, hgens⟩ := h
  exact ⟨hexe, hsession, hfetched, by rw [hgens]; rfl⟩

theorem quiet_settlePreempt (s : State) (f : FnId) : Quiet s (s.settlePreempt f) := by
  unfold State.settlePreempt
  dsimp only
  split
  · split
    · exact quiet_finish ..
    · exact .refl s
  · exact .refl s

theorem quiet_afterPass (s : State) (p : Pass) : Quiet s (s.afterPass p) := by
  unfold State.afterPass
  have hcount : Quiet s (s.updFn p.fn.val fun u => { u with account := u.account + p.frames }) := quiet_updFn s _ _ fun h => h
  refine Quiet.trans (Quiet.trans (hcount.trans (quiet_retireOld _ p.fn)) ?_) (quiet_settlePreempt _ _)
  split
  · exact quiet_leaveSkein _
  · exact .refl _

theorem quiet_completePass (s : State) (k : Nat) (st : Status) (summary : W64) (cert : Bool) : Quiet s (s.completePass k st summary cert) := by
  cases hp : s.pass k with
  | none =>
    rw [completePass_none hp]
    exact .refl s
  | some p =>
    have hnum : ∀ u : State, Quiet u (if !p.agreed then u
        else if p.multi then { u with skein := { u.skein with passNo := u.skein.passNo + 1 } }
        else u.updFn p.fn.val fun u => { u with passNo := u.passNo + 1 }) := fun u => by
      split
      · exact .refl u
      · split
        · exact .of_fns rfl rfl
        · exact quiet_updFn u _ _ fun h => h
    rw [completePass_some hp]
    refine Quiet.trans ?_ (quiet_afterPass _ p)
    have hend : Quiet s (s.completing k p st summary cert) :=
      ((quiet_setPassState s k _).trans (hnum _)).trans (.of_ends (reported_complete ..) (hostEnds_complete ..))
    exact hend.trans (.of_fns rfl rfl)

theorem quiet_completeForm (s : State) (st : Status) : Quiet s (s.completeForm st) := by
  unfold State.completeForm
  split
  · refine Quiet.trans ?_ (quiet_finish ..)
    exact .of_fns rfl rfl
  · exact .refl s

theorem quiet_sendTo (s : State) (l : List Nat) (m : StitchMsg) : Quiet s (s.sendTo l m) := by
  rw [onlyPorts_sendTo s l m]
  exact .of_fns rfl rfl

/-! ### Passes that a reset removes -/

/-- A reset of a function empties no other, and leaves the passes of the others. -/
structure Flushed (f : FnId) (s t : State) : Prop where
  quiet : Quiet s t
  wf : AMap.wf none s.passes = true → AMap.wf none t.passes = true
  gone : ∀ j, s.pass j = none → t.pass j = none
  own : ∀ j, (∀ q, s.pass j = some q → q.fn = f) → ∀ q, t.pass j = some q → q.fn = f
  other : ∀ j q, s.pass j = some q → q.fn ≠ f → t.pass j = some q
  queued : ∀ j q, s.pass j = some q → q.fn = f → q.state = .queued → t.pass j = some q ∨ t.pass j = none

theorem Flushed.of_passes {f : FnId} {s t : State} (hq : Quiet s t) (h : t.passes = s.passes) : Flushed f s t := by
  have hpass : ∀ j, t.pass j = s.pass j := fun j => by rw [State.pass, h, State.pass]
  exact ⟨hq, fun hw => h ▸ hw, fun j hj => (hpass j).trans hj, fun j hj q hq => hj q ((hpass j).symm.trans hq),
    fun j q hj _ => (hpass j).trans hj, fun j q hj _ _ => .inl ((hpass j).trans hj)⟩

theorem Flushed.refl (f : FnId) (s : State) : Flushed f s s := .of_passes (.refl s) rfl

theorem Flushed.trans {f : FnId} {s t u : State} (h : Flushed f s t) (g : Flushed f t u) : Flushed f s u := by
  refine ⟨h.quiet.trans g.quiet, fun hw => g.wf (h.wf hw), fun j hj => g.gone j (h.gone j hj), fun j hj => g.own j (h.own j hj),
    fun j q hj hf => g.other j q (h.other j q hj hf) hf, fun j q hj hf hs => ?_⟩
  obtain hq | hq := h.queued j q hj hf hs
  · exact g.queued j q hq hf hs
  · exact .inr (g.gone j hq)

section
variable {f : FnId} {s : State} {k : Nat}

/-- A step that changes one pass of the function. -/
theorem Flushed.of_pass {t : State} (hq : Quiet s t) (hwf : AMap.wf none s.passes = true → AMap.wf none t.passes = true)
    (hother : ∀ j, j ≠ k → t.pass j = s.pass j) (hown : ∀ q, s.pass k = some q → q.fn = f) (hgone : s.pass k = none → t.pass k = none)
    (hafter : ∀ q, t.pass k = some q → q.fn = f)
    (hqueued : ∀ q, s.pass k = some q → q.state = .queued → t.pass k = some q ∨ t.pass k = none) : Flushed f s t := by
  refine ⟨hq, hwf, fun j hj => ?_, fun j hj q hq => ?_, fun j q hj hf => ?_, fun j q hj _ hs => ?_⟩ <;> by_cases he : j = k
  · subst he
    exact hgone hj
  · exact (hother j he).trans hj
  · subst he
    exact hafter q hq
  · exact hj q ((hother j he).symm.trans hq)
  · subst he
    exact absurd (hown q hj) hf
  · exact (hother j he).trans hj
  · subst he
    exact hqueued q hj hs
  · exact .inl ((hother j he).trans hj)

theorem abandon_fn {st : Status} {noRetry : Bool} (hown : ∀ q, s.pass k = some q → q.fn = f) :
    ∀ q, (s.abandon k st noRetry).pass k = some q → q.fn = f := by
  cases hp : s.pass k with
  | none =>
    have hrun : s.abandon k st noRetry = s := by simp only [State.abandon, hp]
    rw [hrun, hp]
    exact fun q h => nomatch h
  | some p =>
    have hpf := hown p hp
    have hset : ∀ p' : Pass, p'.fn = p.fn → ∀ q, (s.setPass k p').pass k = some q → q.fn = f := fun p' h q hq => by
      rw [State.pass_setPass_same] at hq
      exact (congrArg Pass.fn (Option.some.inj hq)).symm.trans (h.trans hpf)
    cases hst : p.state with
    | queued => simpa only [State.abandon, hp, hst] using hown
    | complete => simpa only [State.abandon, hp, hst] using hown
    | quiescing =>
      simp only [State.abandon, hp, hst]
      split_ifs
      · exact hset _ rfl
      · exact hset _ rfl
      · exact hown
    | _ =>
      rw [abandon_begun hp (by simp [hst]) (by simp [hst]) (by simp [hst]), pass_noticed]
      intro q hq
      have hafter := pass_setPassState (State.pass_setPass_same _ k _) _ |>.symm.trans hq
      exact (congrArg Pass.fn (Option.some.inj hafter)).symm.trans hpf

theorem abandon_queued {st : Status} {noRetry : Bool} {q : Pass} (hp : s.pass k = some q) (hq : q.state = .queued) :
    s.abandon k st noRetry = s := by simp only [State.abandon, hp, hq]

theorem flushed_abandon (hown : ∀ q, s.pass k = some q → q.fn = f) (st : Status) (noRetry : Bool) : Flushed f s (s.abandon k st noRetry) := by
  refine .of_pass (quiet_abandon ..) (fun h => abandon_wf h ..) (fun j hj => pass_abandon_other s hj st noRetry) hown (fun h => ?_)
    (abandon_fn hown) fun q hq hst => ?_
  · simp only [State.abandon, h]
  · rw [abandon_queued hq hst]
    exact .inl hq

theorem ceased_pass (s : State) (k : Nat) (p : Pass) (st : Status) (summary : W64) (cert : Bool) :
    (s.ceased k p st summary cert).pass k = none :=
  AMap.get_set_same (none : Option Pass) (s.completing k p st summary cert).passes k none

theorem completePass_pass (s : State) (k : Nat) (st : Status) (summary : W64) (cert : Bool) :
    (s.completePass k st summary cert).pass k = none := by
  cases hp : s.pass k with
  | none =>
    rw [completePass_none hp]
    exact hp
  | some p =>
    rw [completePass_some hp, State.pass, afterPass_passes]
    exact ceased_pass ..

theorem completePass_wf (h : AMap.wf none s.passes = true) (st : Status) (summary : W64) (cert : Bool) :
    AMap.wf none (s.completePass k st summary cert).passes = true := by
  cases hp : s.pass k with
  | none =>
    rw [completePass_none hp]
    exact h
  | some p =>
    have hnum : ∀ u : State, (if !p.agreed then u
        else if p.multi then { u with skein := { u.skein with passNo := u.skein.passNo + 1 } }
        else u.updFn p.fn.val fun u => { u with passNo := u.passNo + 1 }).passes = u.passes := by
      intro u
      split
      · rfl
      · split <;> rfl
    have hend : (s.completing k p st summary cert).passes = (s.setPassState k .complete).passes := by
      unfold State.completing
      dsimp only
      rw [(hostEnds_complete ..).rest]
      exact hnum _
    rw [completePass_some hp, afterPass_passes]
    exact AMap.wf_set k none (hend ▸ setPassState_wf h k _)

theorem flushed_completePass (hown : ∀ q, s.pass k = some q → q.fn = f) (st : Status) (summary : W64) (cert : Bool) :
    Flushed f s (s.completePass k st summary cert) := by
  have hnone := completePass_pass s k st summary cert
  refine .of_pass (quiet_completePass ..) (fun h => completePass_wf h ..) (fun j hj => pass_completePass_other hj st summary cert) hown
    (fun _ => hnone) (fun q hq => ?_) fun q _ _ => .inr hnone
  rw [hnone] at hq
  exact nomatch hq

/-- A pass that leaves without a trace. -/
def State.dropPass (s : State) (k : Nat) : State := { s with passes := AMap.set none s.passes k none }

theorem dropPass_pass (s : State) (k : Nat) : (s.dropPass k).pass k = none :=
  AMap.get_set_same (none : Option Pass) s.passes k none

theorem flushed_dropPass (hown : ∀ q, s.pass k = some q → q.fn = f) : Flushed f s (s.dropPass k) := by
  have hnone := dropPass_pass s k
  refine .of_pass (.of_fns rfl rfl) (AMap.wf_set k none) (fun j hj => AMap.get_set_other none s.passes none hj) hown
    (fun _ => hnone) (fun q hq => ?_) fun q _ _ => .inr hnone
  rw [hnone] at hq
  exact nomatch hq

end

theorem mem_allPasses_of_pass {s : State} {k : Nat} {q : Pass} (h : s.pass k = some q) : (k, q) ∈ s.allPasses := by
  have hne : AMap.get none s.passes k ≠ none := by
    rw [← State.pass, h]
    exact Option.some_ne_none q
  refine List.mem_filterMap.2 ⟨_, AMap.mem_of_get_ne hne, ?_⟩
  rw [← State.pass, h]
  rfl

/-- Steps on the passes of one function in turn. -/
theorem flushed_foldPasses {f : FnId} {s : State} (hwf : AMap.wf none s.passes = true) (step : State → Nat × Pass → State)
    (hstep : ∀ u kp, (kp.2.fn = f → ∀ q, u.pass kp.1 = some q → q.fn = f) → Flushed f u (step u kp)) {l : List (Nat × Pass)}
    (hl : ∀ kp ∈ l, kp ∈ s.allPasses) : Flushed f s (l.foldl step s) := by
  refine List.foldlRecOn (motive := fun u : State => Flushed f s u) _ _ (.refl f s) fun u hu kp hkp => hu.trans (hstep u kp fun hf => ?_)
  refine hu.own kp.1 fun q hq => ?_
  have hq' := (pass_of_mem_allPasses hwf (hl kp hkp)).symm.trans hq
  exact (congrArg Pass.fn (Option.some.inj hq')).symm.trans hf

/-! ### The reset of one function -/

/-- The end of a pass of the skein's function. -/
def State.resetPass (f : FnId) (s : State) (kp : Nat × Pass) : State :=
  if kp.2.fn = f then
    if kp.2.state = .queued then s.completePass kp.1 .abandonedReset 0 false else s.abandon kp.1 .abandonedReset true
  else s

theorem skeinReset_eq (s : State) (h : s.skein.state ≠ .none) : s.skeinReset =
    let u := s.allPasses.foldl (State.resetPass s.skein.fn) s
    let v := if s.skein.multi then u.sendTo u.treePorts (controlMsg 0x06 s.skein.id u.moduleId 0 0) else u
    (if s.skein.state = .forming then v.completeForm .rejectedState else v).leaveSkein := by
  unfold State.skeinReset
  exact if_neg h

theorem flushed_skeinReset {s : State} (hwf : AMap.wf none s.passes = true) : Flushed s.skein.fn s s.skeinReset := by
  by_cases h : s.skein.state = .none
  · have hrun : s.skeinReset = s := by
      unfold State.skeinReset
      exact if_pos h
    rw [hrun]
    exact .refl _ s
  · rw [skeinReset_eq s h]
    dsimp only
    have hfold : Flushed s.skein.fn s (s.allPasses.foldl (State.resetPass s.skein.fn) s) := by
      refine flushed_foldPasses hwf _ (fun u kp hown => ?_) fun _ h => h
      unfold State.resetPass
      split
      · next hf =>
        split
        · exact flushed_completePass (hown hf) ..
        · exact flushed_abandon (hown hf) ..
      · exact .refl _ u
    refine hfold.trans ?_
    generalize s.allPasses.foldl (State.resetPass s.skein.fn) s = u
    have hsend : Flushed s.skein.fn u (if s.skein.multi then u.sendTo u.treePorts (controlMsg 0x06 s.skein.id u.moduleId 0 0) else u) := by
      split
      · exact .of_passes (quiet_sendTo ..) (by rw [onlyPorts_sendTo u])
      · exact .refl _ u
    refine hsend.trans ?_
    generalize (if s.skein.multi then u.sendTo u.treePorts (controlMsg 0x06 s.skein.id u.moduleId 0 0) else u) = v
    have hform : Flushed s.skein.fn v (if s.skein.state = .forming then v.completeForm .rejectedState else v) := by
      split
      · refine .of_passes (quiet_completeForm ..) ?_
        rw [(completeForm_ends v (st := .rejectedState) (by decide)).2.rest]
        rfl
      · exact .refl _ v
    exact hform.trans (.of_passes (quiet_leaveSkein _) (leaveSkein_passes _))

/-- The end of a pass of the function that is reset. -/
def State.flushPass (f : FnId) (s : State) (kp : Nat × Pass) : State :=
  if kp.2.fn = f then if kp.2.state = .queued then s.dropPass kp.1 else s.abandon kp.1 .abandonedReset true else s

theorem flushed_flushPass (f : FnId) (s : State) (kp : Nat × Pass) (hown : kp.2.fn = f → ∀ q, s.pass kp.1 = some q → q.fn = f) :
    Flushed f s (s.flushPass f kp) := by
  unfold State.flushPass
  split
  · next hf =>
    split
    · exact flushed_dropPass (hown hf)
    · exact flushed_abandon (hown hf) ..
  · exact .refl _ s

theorem flushPass_none {f : FnId} {s : State} {j : Nat} (h : s.pass j = none) (kp : Nat × Pass) : (s.flushPass f kp).pass j = none := by
  by_cases hj : j = kp.1
  · subst hj
    unfold State.flushPass
    split_ifs
    · exact dropPass_pass s kp.1
    · simp only [State.abandon, h]
    · exact h
  · unfold State.flushPass
    split_ifs
    · exact (AMap.get_set_other none s.passes none hj).trans h
    · exact (pass_abandon_other s hj _ _).trans h
    · exact h

/-- A queued pass of the function leaves. -/
theorem flushPasses_drops {f : FnId} {s : State} {k : Nat} {q : Pass} (hq : s.pass k = some q) (hf : q.fn = f) (hst : q.state = .queued) :
    (s.allPasses.foldl (State.flushPass f) s).pass k = none := by
  obtain ⟨l1, l2, hl⟩ := List.append_of_mem (mem_allPasses_of_pass hq)
  rw [hl, List.foldl_append, List.foldl_cons]
  generalize l1.foldl (State.flushPass f) s = u
  have hdrop : u.flushPass f (k, q) = u.dropPass k := by
    unfold State.flushPass
    exact (if_pos hf).trans (if_pos hst)
  rw [hdrop]
  exact List.foldlRecOn (motive := fun v : State => v.pass k = none) _ _ (dropPass_pass u k) fun _ hv kp _ => flushPass_none hv kp

/-- What the FLR leaves of staging buffers, registers and copies. -/
def State.scrubbed (s : State) (f : FnId) (u : Func) : State :=
  let s := { s with slots := s.slots.filter fun kv => !(kv.2.any fun (x : Slot) => x.fn == f) }
  let s := { s with setup := s.setup.filter fun kv => decide (kv.1 ≤ f.val * 2 ^ 20 + 0x20000) || decide (f.val * 2 ^ 20 + 0x50000 < kv.1) }
  let s := s.scrubRetained u
  ((s.startScrub f 0).startScrub f 1).startScrub f 2

theorem scrubbed_only (s : State) (f : FnId) (u : Func) : (s.scrubbed f u).fns = s.fns ∧ (s.scrubbed f u).passes = s.passes ∧
    (s.scrubbed f u).numVfs = s.numVfs := by
  have hstart : ∀ (v : State) (n : Nat), (v.startScrub f n).fns = v.fns ∧ (v.startScrub f n).passes = v.passes ∧
      (v.startScrub f n).numVfs = v.numVfs := by
    intro v n
    unfold State.startScrub
    dsimp only
    split <;> exact ⟨rfl, rfl, rfl⟩
  have hret : ∀ v : State, (v.scrubRetained u).fns = v.fns ∧ (v.scrubRetained u).passes = v.passes ∧
      (v.scrubRetained u).numVfs = v.numVfs := by
    intro v
    unfold State.scrubRetained
    split
    · split <;> exact ⟨rfl, rfl, rfl⟩
    · exact ⟨rfl, rfl, rfl⟩
  unfold State.scrubbed
  dsimp only
  obtain ⟨f2, p2, n2⟩ := hstart _ 2
  obtain ⟨f1, p1, n1⟩ := hstart _ 1
  obtain ⟨f0, p0, n0⟩ := hstart _ 0
  obtain ⟨fr, pr, nr⟩ := hret _
  exact ⟨f2.trans (f1.trans (f0.trans fr)), p2.trans (p1.trans (p0.trans pr)), n2.trans (n1.trans (n0.trans nr))⟩

/-- The function without what its session had. -/
def State.blanked (s : State) (f : FnId) : State := s.setFn f.val (s.fn f.val).afterFlr

theorem flr_eq (s : State) (f : FnId) : s.flr f =
    let u := if (s.blanked f).skein.fn = f then (s.blanked f).skeinReset else s.blanked f
    (u.allPasses.foldl (State.flushPass f) u).scrubbed f (s.fn f.val) := rfl

theorem blanked_empty (s : State) (f : FnId) : ((s.blanked f).fn f.val).Emptied := by
  rw [State.blanked, State.fn_setFn_same]
  exact ⟨rfl, rfl, rfl, rfl⟩

/-- FLR of one function empties it, drops what it had queued and leaves the passes of the others (R361). -/
theorem flr_flushes {s : State} (hwf : AMap.wf none s.passes = true) (f : FnId) : Flushed f s (s.flr f) ∧ ((s.flr f).fn f.val).Emptied ∧
    ∀ k q, s.pass k = some q → q.fn = f → q.state = .queued → (s.flr f).pass k = none := by
  have hblank : Flushed f s (s.blanked f) := .of_passes (quiet_updFn s f.val (fun _ => (s.fn f.val).afterFlr) fun _ => ⟨rfl, rfl, rfl, rfl⟩) rfl
  obtain ⟨u, hu⟩ : ∃ u, u = if (s.blanked f).skein.fn = f then (s.blanked f).skeinReset else s.blanked f := ⟨_, rfl⟩
  have hskein : Flushed f (s.blanked f) u := by
    rw [hu]
    split
    · next hf =>
      have h := flushed_skeinReset (hblank.wf hwf)
      rw [hf] at h
      exact h
    · exact .refl f _
  have hsu := hblank.trans hskein
  have hfold : Flushed f u (u.allPasses.foldl (State.flushPass f) u) :=
    flushed_foldPasses (hsu.wf hwf) _ (fun v kp => flushed_flushPass f v kp) fun _ h => h
  obtain ⟨hfns, hpasses, hnum⟩ := scrubbed_only (u.allPasses.foldl (State.flushPass f) u) f (s.fn f.val)
  have hend : Flushed f (u.allPasses.foldl (State.flushPass f) u) (s.flr f) := by
    rw [flr_eq, ← hu]
    exact .of_passes (.of_fns hfns hnum) hpasses
  refine ⟨hsu.trans (hfold.trans hend), (hskein.trans (hfold.trans hend)).quiet.empty f.val (blanked_empty s f), fun k q hq hf hst => ?_⟩
  refine hend.gone k ?_
  obtain h | h := hsu.queued k q hq hf hst
  · exact flushPasses_drops h hf hst
  · exact hfold.gone k h

/-! ### The reset of every function -/

/-- The FLR of the PF reaches a function that exists. -/
def State.flrOf (s : State) (g : FnId) : State := if g.val ≤ s.numVfs then s.flr g else s

theorem flrOf_wf {s : State} (hwf : AMap.wf none s.passes = true) (g : FnId) : AMap.wf none (s.flrOf g).passes = true ∧
    Quiet s (s.flrOf g) ∧ (∀ j, s.pass j = none → (s.flrOf g).pass j = none) ∧
    ∀ j q, s.pass j = some q → q.fn ≠ g → (s.flrOf g).pass j = some q := by
  unfold State.flrOf
  split
  · obtain ⟨h, _, _⟩ := flr_flushes hwf g
    exact ⟨h.wf hwf, h.quiet, h.gone, h.other⟩
  · exact ⟨hwf, .refl s, fun _ h => h, fun _ _ h _ => h⟩

theorem flrAll_keeps {s : State} (hwf : AMap.wf none s.passes = true) (l : List FnId) : AMap.wf none (l.foldl State.flrOf s).passes = true ∧
    Quiet s (l.foldl State.flrOf s) ∧ (∀ j, s.pass j = none → (l.foldl State.flrOf s).pass j = none) ∧
    ∀ j q, s.pass j = some q → q.fn ∉ l → (l.foldl State.flrOf s).pass j = some q := by
  induction l generalizing s with
  | nil => exact ⟨hwf, .refl s, fun _ h => h, fun _ _ h _ => h⟩
  | cons g l ih =>
    obtain ⟨hw, hq, hn, ho⟩ := flrOf_wf hwf g
    obtain ⟨hw', hq', hn', ho'⟩ := ih hw
    refine ⟨hw', hq.trans hq', fun j hj => hn' j (hn j hj), fun j q hj hl => ?_⟩
    obtain ⟨hg, hl⟩ := List.ne_and_not_mem_of_not_mem_cons hl
    exact ho' j q (ho j q hj hg) hl

/-- Every function that exists is emptied, and what it had queued is dropped. -/
theorem flrAll_flushes {s : State} (hwf : AMap.wf none s.passes = true) {l : List FnId} (hl : l.Nodup) {g : FnId} (hg : g ∈ l) (hn : g.val ≤ s.numVfs) :
    ((l.foldl State.flrOf s).fn g.val).Emptied ∧
    ∀ k q, s.pass k = some q → q.fn = g → q.state = .queued → (l.foldl State.flrOf s).pass k = none := by
  obtain ⟨l1, l2, rfl⟩ := List.append_of_mem hg
  have hnot : g ∉ l1 := fun h => (List.nodup_append.1 hl).2.2 g h g (List.mem_cons_self ..) rfl
  rw [List.foldl_append, List.foldl_cons]
  obtain ⟨hw, hq, hgone, hother⟩ := flrAll_keeps hwf l1
  generalize l1.foldl State.flrOf s = u at *
  have hstep : u.flrOf g = u.flr g := by
    unfold State.flrOf
    exact if_pos (hq.numVfs.symm ▸ hn)
  obtain ⟨hf, hempty, hdrop⟩ := flr_flushes hw g
  rw [hstep]
  obtain ⟨_, hq2, hgone2, _⟩ := flrAll_keeps (hf.wf hw) l2
  refine ⟨hq2.empty g.val hempty, fun k q hk hkf hst => ?_⟩
  exact hgone2 k (hdrop k q (hother k q hk (hkf ▸ hnot)) hkf hst)

theorem allFns_nodup : allFns.Nodup := by decide

theorem execFlr_one {s : State} {f : FnId} (hready : s.power.phase = .ready) (hf : f.val ≤ s.numVfs) (hpf : f ≠ pfn) :
    exec (.flr f) s = .next (s.flr f) := by
  show execFlr f s = _
  unfold execFlr
  rw [if_neg (by simp [hready, hf]), if_neg hpf]

theorem execFlr_all {s : State} (hready : s.power.phase = .ready) :
    exec (.flr pfn) s = .next { allFns.foldl State.flrOf s with numVfs := 0 } := by
  show execFlr pfn s = _
  unfold execFlr
  rw [if_neg (by simp [hready, pfn]), if_pos rfl]
  rfl

theorem execVfEnable_runs {s : State} (hready : s.power.phase = .ready) (n : Fin 16) :
    ∃ t, exec (.vfEnable n) s = .next t ∧ t.numVfs = n.val := by
  refine ⟨_, (if_neg (by simp [hready]) : execVfEnable n s = _), rfl⟩

/-- FLR of a function, and of the PF of every one. -/
theorem flr_resets {s : State} (hwf : AMap.wf none s.passes = true) (hready : s.power.phase = .ready) {f : FnId} (hf : f.val ≤ s.numVfs) :
    ∃ t, exec (.flr f) s = .next t ∧ (f = pfn → t.numVfs = 0) ∧
      ∀ g : FnId, (g = f ∨ f = pfn ∧ g.val ≤ s.numVfs) → (t.fn g.val).Emptied ∧
        ∀ k q, s.pass k = some q → q.fn = g → q.state = .queued → t.pass k = none := by
  by_cases hpf : f = pfn
  · subst hpf
    obtain ⟨v, hv⟩ : ∃ v, v = allFns.foldl State.flrOf s := ⟨_, rfl⟩
    refine ⟨{ v with numVfs := 0 }, hv ▸ execFlr_all hready, fun _ => rfl, fun g hg => ?_⟩
    have hn : g.val ≤ s.numVfs := by
      obtain rfl | ⟨_, hn⟩ := hg
      · exact hf
      · exact hn
    have hall := flrAll_flushes hwf allFns_nodup (mem_allFns g) hn
    rw [← hv] at hall
    exact hall
  · refine ⟨_, execFlr_one hready hf hpf, fun h => absurd h hpf, fun g hg => ?_⟩
    obtain rfl | ⟨h, _⟩ := hg
    · exact (flr_flushes hwf g).2
    · exact absurd h hpf

end Sys2Proof.Machine
end


section
/-!
PROOFS. Start-up and resets (R400, R401, R408, R417, R420 to R428, R455).
-/
namespace Sys2Proof

/-- A pass over the entries, read under one key. -/
theorem AMap.rel_get_filterMap {α : Type} {d : α} {k : Nat} {g : Nat × α → Option (Nat × α)} {R : α → α → Prop} {m : AMap α}
    (hm : (m.map (·.1)).Nodup) (hg : ∀ x y, g x = some y → y.1 = x.1) (hd : R d d) (hv : ∀ v, R v (((g (k, v)).map (·.2)).getD d)) :
    R (AMap.get d m k) (AMap.get d (m.filterMap g) k) := by
  induction m with
  | nil => exact hd
  | cons x m ih =>
    obtain ⟨j, w⟩ := x
    obtain ⟨hj, hm⟩ := List.nodup_cons.1 hm
    by_cases h : j = k
    · subst h
      have hgone : AMap.get d (m.filterMap g) j = d := AMap.get_of_keys fun y hy => by
        obtain ⟨x, hx, hxy⟩ := List.mem_filterMap.1 hy
        rw [hg x y hxy]
        exact fun he => hj (List.mem_map.2 ⟨x, hx, he⟩)
      have hw := hv w
      rw [AMap.get, if_pos rfl]
      cases hx : g (j, w) with
      | none =>
        rw [hx] at hw
        rw [List.filterMap_cons_none hx, hgone]
        exact hw
      | some y =>
        rw [hx] at hw
        rw [List.filterMap_cons_some hx, AMap.get, if_pos (hg _ _ hx)]
        exact hw
    · rw [AMap.get, if_neg h]
      cases hx : g (j, w) with
      | none =>
        rw [List.filterMap_cons_none hx]
        exact ih hm
      | some y =>
        rw [List.filterMap_cons_some hx, AMap.get, if_neg (fun he => h ((hg _ _ hx).symm.trans he))]
        exact ih hm

/-- Values set under keys that differ. -/
theorem AMap.get_foldl_set {α β : Type} [DecidableEq α] {d : α} {key : β → Nat} {val : β → α} {l : List β} (hl : (l.map key).Nodup)
    {x : β} (hx : x ∈ l) (m : AMap α) : AMap.get d (l.foldl (fun m b => AMap.set d m (key b) (val b)) m) (key x) = val x := by
  obtain ⟨l1, l2, rfl⟩ := List.append_of_mem hx
  rw [List.map_append, List.map_cons] at hl
  have hafter : key x ∉ l2.map key := (List.nodup_cons.1 (List.nodup_append.1 hl).2.1).1
  rw [List.foldl_append, List.foldl_cons]
  refine List.foldlRecOn (motive := fun n : AMap α => AMap.get d n (key x) = val x) _ _ (AMap.get_set_same ..) fun n hn b hb => ?_
  rw [AMap.get_set_other _ _ _ fun he => hafter (List.mem_map.2 ⟨b, hb, he.symm⟩)]
  exact hn

end Sys2Proof

namespace Sys2Proof.Machine

section
variable {s : State}

/-! ### Loss of the input, PERST# and tamper events -/

/-- A module that has lost what a reset ends. -/
def Emptied (s t : State) : Prop := t.mem = [] ∧ t.cores = [] ∧ t.passes = [] ∧ t.setup = [] ∧ t.library = none ∧
  t.sec.kem = none ∧ t.sec.bootCount = s.sec.bootCount ∧ t.sec.tree = s.sec.tree ∧ t.sec.leaf = s.sec.leaf

theorem inputLost_empties (h : s.power.inputGood = true) : ∃ t, exec .inputLost s = .next t ∧ Emptied s t ∧ t.power.phase = .unpowered ∧
    t.power.inputGood = false ∧ t.power.pwrGood = false := by
  refine ⟨_, (if_neg (by simp [h]) : execInputLost s = _), ⟨rfl, rfl, rfl, rfl, rfl, rfl, rfl, rfl, rfl⟩, rfl, rfl, rfl⟩

/-- The state that PERST# leaves, with the cause of the next start-up. -/
def State.perstHeld (s : State) (c : ResetCause) : State :=
  let u := { s with power := { s.power with perst := true } }
  let w := u.wiped .held
  { w with power := { w.power with cause := c, thermtrip := false } }

theorem execPerstAssert_up (h : s.up = true) : exec .perstAssert s = .next (s.perstHeld .perst) := by
  show execPerstAssert s = _
  unfold State.up at h
  unfold execPerstAssert
  dsimp only
  cases hp : s.power.phase <;> rw [hp] at h
  case ready => rfl
  case warmPending keyed => rfl
  all_goals exact nomatch h

theorem execPerstAssert_tripped (h : s.power.phase = .tripped) : exec .perstAssert s = .next (s.perstHeld .trip) := by
  show execPerstAssert s = _
  unfold execPerstAssert
  dsimp only
  rw [h] <;> rfl

theorem execPerstAssert_other (h : s.up = false) (ht : s.power.phase ≠ .tripped) :
    exec .perstAssert s = .next { s with power := { s.power with perst := true } } := by
  show execPerstAssert s = _
  unfold State.up at h
  unfold execPerstAssert
  dsimp only
  cases hp : s.power.phase <;> rw [hp] at h ht
  case ready => exact nomatch h
  case warmPending keyed => exact nomatch h
  case tripped => exact absurd rfl ht

theorem perstAssert_holds : ∃ t, exec .perstAssert s = .next t ∧ t.power.perst = true ∧
    (s.up = true → Emptied s t ∧ t.power.phase = .held ∧ t.power.cause = .perst) ∧
    (s.power.phase = .tripped → Emptied s t ∧ t.power.phase = .held ∧ t.power.cause = .trip ∧ t.power.thermtrip = false) := by
  have hempty : ∀ c, Emptied s (s.perstHeld c) := fun c => ⟨rfl, rfl, rfl, rfl, rfl, rfl, rfl, rfl, rfl⟩
  have hboth : s.up = true → s.power.phase ≠ .tripped := fun h ht => by
    rw [State.up, ht] at h
    exact nomatch h
  by_cases ht : s.power.phase = .tripped
  · exact ⟨_, execPerstAssert_tripped ht, rfl, fun h => absurd ht (hboth h), fun _ => ⟨hempty _, rfl, rfl, rfl⟩⟩
  · cases hup : s.up with
    | true => exact ⟨_, execPerstAssert_up hup, rfl, fun _ => ⟨hempty _, rfl, rfl⟩, fun h => absurd h ht⟩
    | false => exact ⟨_, execPerstAssert_other hup ht, rfl, fun h => (nomatch h), fun h => absurd h ht⟩

theorem sensed_only (s : State) (x : PldmSensor) : s.sensed x = { s with side := (s.sensed x).side } := by
  unfold State.sensed
  split <;> rfl

theorem tamperEvent_empties (sensor : TamperSensor) (place : Byte) (hin : s.power.inputGood = true) (hp : s.power.phase ≠ .tampered)
    (hs : sensor ≠ .rail) : ∃ t, exec (.tamperEvent sensor place) s = .next t ∧
      Emptied s t ∧ t.power.phase = .tampered ∧ t.power.cause = .tamper ∧ t.sec.tamperCount = s.sec.tamperCount + 1 ∧
      t.sec.sensor = sensor.code ∧ t.sec.newTamper = true ∧ t.sec.tamperLog.getLast? = some (s.clk.timebase, sensor.code, place) := by
  have hrun : exec (.tamperEvent sensor place) s = .next (s.tamper sensor place) := if_neg (by simp [hin, hp, hs])
  refine ⟨_, hrun, ?_⟩
  unfold State.tamper
  dsimp only
  rw [sensed_only]
  refine ⟨⟨rfl, rfl, rfl, rfl, rfl, rfl, rfl, rfl, rfl⟩, rfl, rfl, rfl, rfl, rfl, ?_⟩
  show ((s.sec.tamperLog ++ [(s.clk.timebase, sensor.code, place)]).drop (s.sec.tamperLog.length - 255)).getLast? = _
  rw [List.getLast?_drop, if_neg (by simp)]
  exact List.getLast?_concat

/-! ### Warm resets -/

/-- The functions that a warm reset keeps, with their copies. -/
def State.keptFns (s : State) (keyed : Bool) : List (FnId × Func × Scrub) :=
  if keyed then allFns.filterMap fun f => (s.retainedOf f).map fun r => (f, r) else []

/-- What a warm reset keeps of one function. -/
def keptFn (r : FnId × Func × Scrub) : Func := if r.1 = pfn then { r.2.1 with qos := Func.reset0.qos } else r.2.1

/-- The entry of a core that a warm reset leaves. -/
def keptCore (kv : Nat × Core) : Option (Nat × Core) :=
  if kv.2.svc = .inService then none else some (kv.1, Core.outWith kv.2.svc kv.2.cause)

/-- The module after a warm reset, its partitions aside. -/
def State.warmed (s : State) (seed : BitVec 512) (keyed : Bool) : State :=
  let w := s.wiped .ready
  { w with
    numVfs := s.numVfs, diesOut := s.diesOut, cores := s.cores.filterMap keptCore
    fns := (s.keptFns keyed).foldl (fun (m : AMap Func) r => AMap.set Func.reset m r.1.val (keptFn r)) w.fns
    mem := s.mem.filter fun c => keptBytes ((s.keptFns keyed).map fun r => r.2.2) c.1
    ecc := s.ecc.filter fun c => keptBytes ((s.keptFns keyed).map fun r => r.2.2) c.1
    clk := .started s.clk.timebase s.clk.fraction
    sec := { w.sec.turn with ready := s.sec.ready, trng := s.sec.trng, debug := s.sec.debug, scopes := s.sec.scopes,
                             kem := if s.sec.trng then some seed else none }
    power := { w.power with cause := if keyed then .keyedWarm else .moduleWarm, rail := s.railOf 20,
                            voltage := s.power.voltage, current := s.power.current, samples := s.power.samples,
                            power := s.power.power, tj := s.power.tj }
    chk := { w.chk with fatal := s.chk.fatal, cause := s.chk.cause, detail := s.chk.detail } }

theorem execWarmResetStart_runs {keyed : Bool} (h : s.power.phase = .warmPending keyed) (seed : BitVec 512) :
    exec (.warmResetStart seed) s = .next (s.warmed seed keyed).dropParts := by
  show execWarmResetStart seed s = _
  unfold execWarmResetStart
  rw [h] <;> rfl

theorem warmed_core (hwf : AMap.wf Core.reset s.cores = true) (seed : BitVec 512) (keyed : Bool) (c : Nat) :
    ((s.warmed seed keyed).core c).svc = (s.core c).svc := by
  have hkeys : (s.cores.map (·.1)).Nodup := List.Pairwise.imp (fun hab => Nat.ne_of_lt hab) (List.pairwise_map.2 (AMap.wf_iff.1 hwf).1)
  refine AMap.rel_get_filterMap (R := fun a b : Core => b.svc = a.svc) (g := keptCore) hkeys (fun x y h => ?_) rfl fun v => ?_
  · unfold keptCore at h
    split at h
    · exact nomatch h
    · exact (congrArg Prod.fst (Option.some.inj h)).symm
  · unfold keptCore
    split
    · next h => exact h.symm
    · rfl

theorem warmed_fn {keyed : Bool} {r : FnId × Func × Scrub} (hr : r ∈ s.keptFns keyed) (seed : BitVec 512) :
    (s.warmed seed keyed).fn r.1.val = keptFn r := by
  refine AMap.get_foldl_set (key := fun r : FnId × Func × Scrub => r.1.val) (val := keptFn) ?_ hr _
  unfold State.keptFns
  split
  · have hsub : ∀ l : List FnId, ((l.filterMap fun f => (s.retainedOf f).map fun r => (f, r)).map fun r => r.1.val).Sublist (l.map Fin.val) := by
      intro l
      induction l with
      | nil => exact List.Sublist.refl _
      | cons f l ih =>
        cases h : s.retainedOf f with
        | none =>
          rw [List.filterMap_cons_none (by rw [h]; rfl)]
          exact ih.cons _
        | some x =>
          rw [List.filterMap_cons_some (b := (f, x)) (by rw [h]; rfl)]
          exact ih.cons_cons _
    exact List.Nodup.sublist (hsub allFns) (allFns_nodup.map Fin.val_injective)
  · exact List.nodup_nil

/-- KEYED_WARM keeps the generation that the retention record names, without its key. -/
theorem retainedOf_keeps {f : FnId} {r : Retention} {g : Gen} (hr : (s.fn f.val).retention = some r)
    (hg : ((s.fn f.val).gens.find? fun g => g.gen == r.gen && g.state != .retired && !g.blocks.isEmpty) = some g) :
    ∃ u home, s.retainedOf f = some (u, home) ∧ u.retained = true ∧ u.activeGen = g.gen ∧
      ∃ h, u.gens = [h] ∧ h.gen = g.gen ∧ h.shards = g.shards ∧ h.key = none := by
  unfold State.retainedOf
  dsimp only
  rw [hr]
  dsimp only
  rw [hg]
  exact ⟨_, _, rfl, rfl, rfl, _, rfl, rfl, rfl, rfl⟩

theorem warmed_keeps {f : FnId} {r : Retention} {g : Gen} (hr : (s.fn f.val).retention = some r)
    (hg : ((s.fn f.val).gens.find? fun g => g.gen == r.gen && g.state != .retired && !g.blocks.isEmpty) = some g) (seed : BitVec 512) :
    let u := (s.warmed seed true).fn f.val
    u.retained = true ∧ u.activeGen = g.gen ∧ ∃ h, u.gens = [h] ∧ h.gen = g.gen ∧ h.shards = g.shards ∧ h.key = none := by
  intro u
  obtain ⟨v, home, hkept, hret, hact, h, hgens, hfacts⟩ := retainedOf_keeps hr hg
  have hmem : (f, v, home) ∈ s.keptFns true := by
    refine List.mem_filterMap.2 ⟨f, mem_allFns f, ?_⟩
    rw [hkept]
    rfl
  have hu : u = keptFn (f, v, home) := warmed_fn hmem seed
  have hq : u = { v with qos := u.qos } := by
    rw [hu, keptFn]
    split <;> rfl
  rw [hq]
  exact ⟨hret, hact, h, hgens, hfacts⟩

theorem warmResetStart_warms (hwf : AMap.wf Core.reset s.cores = true) (seed : BitVec 512) {keyed : Bool}
    (h : s.power.phase = .warmPending keyed) : ∃ t, exec (.warmResetStart seed) s = .next t ∧ t.power.phase = .ready ∧
      t.power.cause = (if keyed then .keyedWarm else .moduleWarm) ∧ t.clk.timebase = s.clk.timebase ∧ t.passes = [] ∧
      (s.diesOut = [] → t.setup = []) ∧ (∀ c, (t.core c).svc = (s.core c).svc) ∧ (keyed = false → t.mem = []) ∧
      ∀ f r g, keyed = true → (s.fn f).retention = some r → f < 16 →
        ((s.fn f).gens.find? fun g => g.gen == r.gen && g.state != .retired && !g.blocks.isEmpty) = some g →
        (t.fn f).retained = true ∧ (t.fn f).activeGen = g.gen ∧ ∃ h, (t.fn f).gens = [h] ∧ h.gen = g.gen ∧ h.shards = g.shards ∧
          h.key = none := by
  obtain ⟨hrest, hset⟩ := dropParts_drops (s.warmed seed keyed)
  obtain ⟨t, ht⟩ : ∃ t, t = (s.warmed seed keyed).dropParts := ⟨_, rfl⟩
  rw [← ht] at hrest hset
  have hcore : ∀ c, t.core c = (s.warmed seed keyed).core c := fun c => by rw [State.core, hrest]; rfl
  have hfn : ∀ f, t.fn f = (s.warmed seed keyed).fn f := fun f => by rw [State.fn, hrest]; rfl
  refine ⟨t, ht ▸ execWarmResetStart_runs h seed, ?_, ?_, ?_, ?_, hset, fun c => ?_, fun hk => ?_, fun f r g hk hr hf hg => ?_⟩
  · rw [hrest]
    rfl
  · rw [hrest]
    rfl
  · rw [hrest]
    rfl
  · rw [hrest]
    rfl
  · rw [hcore]
    exact warmed_core hwf seed keyed c
  · subst hk
    rw [hrest]
    exact List.filter_eq_nil_iff.2 fun _ _ => Bool.false_ne_true
  · subst hk
    rw [hfn]
    exact warmed_keeps (f := ⟨f, hf⟩) hr hg seed

/-! ### Start-up from each cause -/

/-- A module that has started from a cause. -/
def BootedFrom (s t : State) (cause : ResetCause) : Prop := t.power.cause = cause ∧ t.power.pwrGood = true ∧
  t.sec.bootCount = s.sec.bootCount + 1 ∧ t.clk.period = 20 ∧ t.mem = [] ∧ (t.diesOut = [] → t.setup = []) ∧
  t.passes = [] ∧ t.skein.state = .none

theorem inputGood_starts (st : SelfTest) (ht : s.power.tripped = false) (hin : s.power.inputGood = false) :
    ∃ t, exec (.inputGood st) s = .next t ∧ BootedFrom s t .cold ∧ t.power.inputGood = true ∧
      t.power.phase = (if s.power.perst then .held else .ready) ∧
      (∀ c ∈ st.bypassed, (t.core c.val).svc = .bypassed) ∧
      (∀ c ∈ st.fenced, c ∉ st.bypassed → (∀ d ∈ t.diesOut, d.val ≠ coreDie c.val) → (t.core c.val).svc = .fenced) ∧
      (∀ d ∈ st.diesOut, d ∈ t.diesOut) ∧
      (st.linkBeyondRepair = true → t.chk.fatal = true ∧ t.chk.cause = Cause.linkDown.code ∧ t.chk.detail = 0x80 ∨
        s.fuses.dies.length ≠ 64 ∨ (s.fuses.dies.zipIdx.any fun r => recordKind r.1 != kindOfDie r.2) = true ∨
        st.io0HubFails = true) := by
  obtain ⟨u, hu⟩ : ∃ u, u = { s with power := { s.power with inputGood := true } } := ⟨_, rfl⟩
  have hrun : exec (.inputGood st) s = .next (u.startUp .cold st) := by
    show execInputGood st s = _
    subst hu
    exact (if_neg (by simp [hin])).trans (congrArg Host.Outcome.next (if_neg (by simp [ht])))
  obtain ⟨hstarted, hgood, hphase, _, _, hdies, hcores, hlink⟩ := startUp_starts u .cold st
  obtain ⟨t, htt⟩ : ∃ t, t = u.startUp .cold st := ⟨_, rfl⟩
  rw [← htt] at hrun hstarted hgood hphase hdies hcores hlink
  refine ⟨t, hrun, ?_, ?_, ?_, fun c hc => ?_, fun c hc hb hd => ?_, fun d hd => ?_, fun hl => ?_⟩
  · rw [hu] at hstarted
    exact hstarted
  · rw [hgood, hu]
  · rw [hphase, hu]
  · obtain ⟨hmem, hsvc⟩ := service_bypassed hc
    exact (hcores _ hmem).trans hsvc
  · obtain ⟨hmem, hsvc⟩ := service_fenced hc hb (hdies ▸ hd)
    exact (hcores _ hmem).trans hsvc
  · rw [hdies]
    exact mem_dies hd
  · refine (hlink hl).imp_right fun h => ?_
    rw [← or_assoc]
    refine h.imp_left fun hbad => ?_
    rw [hu, State.badDies, Bool.or_eq_true, decide_eq_true_eq] at hbad
    exact hbad

theorem perstDeassert_starts (st : SelfTest) (ht : s.power.tripped = false) (hp : s.power.phase = .held) (hc : s.power.cause = .perst) :
    ∃ t, exec (.perstDeassert st) s = .next t ∧ BootedFrom s t .perst ∧ t.power.phase = .ready := by
  obtain ⟨u, hu⟩ : ∃ u, u = { s with power := { s.power with perst := false } } := ⟨_, rfl⟩
  have hrun : exec (.perstDeassert st) s = .next (u.startUp .perst st) := by
    show execPerstDeassert st s = _
    subst hu
    exact (if_neg (by simp [hp])).trans ((if_neg (by simp [ht])).trans (if_pos hc))
  obtain ⟨hstarted, _, hphase, _⟩ := startUp_starts u .perst st
  refine ⟨_, hrun, ?_, ?_⟩
  · rw [hu] at hstarted ⊢
    exact hstarted
  · rw [hphase, hu]
    rfl

theorem perstDeassert_cold (st : SelfTest) (ht : s.power.tripped = false) (hp : s.power.phase = .held) (hc : s.power.cause = .cold) :
    exec (.perstDeassert st) s = .next { s with power := { s.power with perst := false, phase := .ready } } := by
  show execPerstDeassert st s = _
  exact (if_neg (by simp [hp])).trans ((if_neg (by simp [ht])).trans (if_neg (by simp [hc])))

theorem tamperConditionEnd_starts (st : SelfTest) (ht : s.power.tripped = false) (hp : s.power.phase = .tampered) :
    ∃ t, exec (.tamperConditionEnd st) s = .next t ∧ BootedFrom s t .tamper ∧
      t.power.phase = (if s.power.perst then .held else .ready) ∧ t.sec.newTamper = true := by
  have hrun : exec (.tamperConditionEnd st) s = .next (s.startUp .tamper st) := by
    show execTamperConditionEnd st s = _
    unfold execTamperConditionEnd
    rw [if_neg (by simp [hp]), ht, if_neg Bool.false_ne_true]
  obtain ⟨hstarted, _, hphase, htamper, _⟩ := startUp_starts s .tamper st
  exact ⟨_, hrun, hstarted, hphase, htamper rfl⟩

theorem tapReset_starts (st : SelfTest) (ht : s.power.tripped = false) (hp : s.power.phase = .jtagHeld) (hper : s.power.perst = false) (b : Bool) :
    ∃ t, exec (.tapReset b st) s = .next t ∧ BootedFrom s t .perst ∧ t.power.phase = .ready ∧
      t.side.jtag = if b then .idcode else .bypass := by
  obtain ⟨u, hu⟩ : ∃ u, u = { s with side := { s.side with jtag := if b then .idcode else .bypass } } := ⟨_, rfl⟩
  have hrun : exec (.tapReset b st) s = .next (u.startUp .perst st) := by
    show execTapReset b st s = _
    subst hu
    exact (if_neg (by simp [hp])).trans ((if_neg (by simp [hper])).trans (if_neg (by simp [ht])))
  obtain ⟨hstarted, _, hphase, _, hjtag, _⟩ := startUp_starts u .perst st
  refine ⟨_, hrun, ?_, ?_, ?_⟩
  · rw [hu] at hstarted ⊢
    exact hstarted
  · rw [hphase, hu]
    exact if_neg (by simp [hper])
  · rw [hjtag, hu]

/-! ### Signing trees -/

theorem treeGenerationComplete_advances (hp : s.power.phase ≠ .unpowered) (hn : s.sec.next = 0) (ht : s.sec.topLeaf < 2 ^ 20) (hc : true ∈ s.sec.copies) :
    ∃ t, exec .treeGenerationComplete s = .next t ∧ t.sec.topLeaf = s.sec.topLeaf + 1 ∧
      (s.sec.leaf < 2 ^ 20 → t.sec.next = 1 ∧ t.sec.tree = s.sec.tree) ∧
      (2 ^ 20 ≤ s.sec.leaf → t.sec.tree = s.sec.tree + 1 ∧ t.sec.leaf = 0) := by
  have hany : s.sec.copies.any id = true := List.any_eq_true.2 ⟨true, hc, rfl⟩
  have hrun : exec .treeGenerationComplete s = .next { s with sec := ({ s.sec with topLeaf := s.sec.topLeaf + 1, next := 1 } : Sec).turn } := by
    show execTreeGenerationComplete s = _
    unfold execTreeGenerationComplete
    dsimp only
    refine if_neg ?_
    rintro (h | h | h | h)
    · exact hp h
    · exact h hn
    · omega
    · rw [hany] at h
      exact nomatch h
  refine ⟨_, hrun, ?_, fun h => ?_, fun h => ?_⟩
  · show (Sec.turn _).topLeaf = _
    unfold Sec.turn
    split <;> rfl
  · show (Sec.turn _).next = _ ∧ (Sec.turn _).tree = _
    rw [Sec.turn, if_neg (by simp; omega)]
    exact ⟨rfl, rfl⟩
  · show (Sec.turn _).tree = _ ∧ (Sec.turn _).leaf = _
    rw [Sec.turn, if_pos ⟨h, rfl⟩]
    exact ⟨rfl, rfl⟩

theorem entropyHealthTest_sets (hup : s.up = true) (b : Bool) : ∃ t, exec (.entropyHealthTest b) s = .next t ∧ t.sec.trng = b := by
  refine ⟨_, rfl, ?_⟩
  rw [if_pos hup]

end

/-- Settles O53: start-up from each cause, what each reset leaves, and the FLR of one function and of all. -/
theorem startUpAndResets : Obligations.StartUpAndResets := by
  intro s hpasses hcores
  dsimp only
  refine ⟨fun st ht => ⟨inputGood_starts st ht, perstDeassert_starts st ht, tamperConditionEnd_starts st ht, tapReset_starts st ht⟩,
    fun st hp hc ht => perstDeassert_cold st ht hp hc, inputLost_empties, perstAssert_holds,
    fun sensor place hin hp hs => tamperEvent_empties sensor place hin hp hs, fun seed keyed h => warmResetStart_warms hcores seed h,
    fun hready => ⟨fun f hf => ?_, execVfEnable_runs hready⟩, treeGenerationComplete_advances, fun b hup => entropyHealthTest_sets hup b⟩
  obtain ⟨t, hrun, hnum, hall⟩ := flr_resets hpasses hready hf
  refine ⟨t, hrun, hnum, fun g hg => ?_⟩
  obtain ⟨⟨hexe, hsession, hfetched, hgens⟩, hqueued⟩ := hall g hg
  exact ⟨hexe, hsession, hfetched, hgens, hqueued⟩

end Sys2Proof.Machine
end


section
/-!
PROOFS. The gate of the mailbox, its responses, and the messages of identity, sessions and observation (R358, R359, R396, R445).
-/
namespace Sys2Proof.Machine

/-! ### Responses -/

section
variable {s : State} {q : Mbx}

/-- What a response changes: the mailbox of its function, its interrupts, and what has left the module. -/
structure Responded (s t : State) (q : Mbx) : Prop where
  rest : t = { s with fns := t.fns, out := t.out }
  fn : ∀ f, t.fn f = { s.fn f with
    mbxSeq := (t.fn f).mbxSeq, mbxStatus := (t.fn f).mbxStatus, mbxBusy := (t.fn f).mbxBusy, mbxCache := (t.fn f).mbxCache
    active := (t.fn f).active, irqSent := (t.fn f).irqSent, irqHeld := (t.fn f).irqHeld }
  seq : (t.fn q.f.val).mbxSeq = q.seq

theorem fn_interrupt (s : State) (f : FnId) (v : Fin 128) (g : Nat) : (s.interrupt f v).fn g =
    { s.fn g with irqSent := ((s.interrupt f v).fn g).irqSent, irqHeld := ((s.interrupt f v).fn g).irqHeld } := by
  have hupd : ∀ h : Func → Func, (∀ u, h u = { u with irqSent := (h u).irqSent, irqHeld := (h u).irqHeld }) →
      (s.updFn f.val h).fn g = { s.fn g with irqSent := ((s.updFn f.val h).fn g).irqSent, irqHeld := ((s.updFn f.val h).fn g).irqHeld } := by
    intro h hh
    by_cases hg : g = f.val
    · rw [hg, State.fn_updFn_same]
      exact hh _
    · rw [State.fn_updFn_other _ _ hg]
  unfold State.interrupt
  dsimp only
  split
  · exact hupd (fun u => { u with irqSent := u.irqSent + 1 }) fun _ => rfl
  · split
    · rfl
    · exact hupd (fun u => { u with irqHeld := u.irqHeld ++ [v] }) fun _ => rfl

/-- The status of a response, for which its buffer may be too short. -/
def mbxStatusOf (q : Mbx) (st : Status) (payload : List Byte) : Status :=
  if decide (q.respLen < 32 + payload.length) then .rejectedFormat else st

theorem respond_responded (s : State) (q : Mbx) (st : Status) (d : BitVec 16) (p : List Byte) :
    Responded s (s.respond q st d p) q ∧ ((s.respond q st d p).fn q.f.val).mbxStatus = (mbxStatusOf q st p).code := by
  have hsame : ((s.respond q st d p).fn q.f.val).mbxSeq = q.seq ∧
      ((s.respond q st d p).fn q.f.val).mbxStatus = (mbxStatusOf q st p).code := by
    unfold State.respond
    dsimp only
    rw [fn_interrupt, State.fn_emit, State.fn_updFn_same]
    exact ⟨rfl, rfl⟩
  refine ⟨⟨?_, fun f => ?_, hsame.1⟩, hsame.2⟩
  · unfold State.respond
    dsimp only
    rw [(hostEnds_interrupt ..).rest]
    rfl
  · unfold State.respond
    dsimp only
    rw [fn_interrupt, State.fn_emit]
    by_cases hf : f = q.f.val
    · rw [hf, State.fn_updFn_same]
    · rw [State.fn_updFn_other _ _ hf]

/-- A response that fits its buffer. -/
theorem respond_answered (s : State) {st : Status} {d : BitVec 16} {p : List Byte} (h : 32 + p.length ≤ q.respLen) :
    Answered (s.respond q st d p) q st d p := by
  have hshort : decide (q.respLen < 32 + p.length) = false := decide_eq_false (by omega)
  obtain ⟨hr, hst⟩ := respond_responded s q st d p
  refine ⟨?_, hr.seq, ?_⟩
  · unfold State.respond
    dsimp only
    rw [hshort]
    exact (hostKept_interrupt ..).out _ List.mem_cons_self
  · rw [hst, mbxStatusOf, hshort]
    rfl

theorem answer_answers (s : State) (q : Mbx) (st : Status) (d : BitVec 16) (p : List Byte) :
    Out.response q.f q.respAddr q.seq st d p ∈ (s.answer q st d p).out ∧ (s.answer q st d p).sec = s.sec ∧
      (s.answer q st d p).cores = s.cores ∧ (s.answer q st d p).mem = s.mem := by
  obtain ⟨u, hu⟩ : ∃ u, u = (s.emit (.response q.f q.respAddr q.seq st d p)).interrupt q.f 0 := ⟨_, rfl⟩
  have hrest := (hostEnds_interrupt (s.emit (.response q.f q.respAddr q.seq st d p)) q.f 0).rest
  have hout := (hostKept_interrupt (s.emit (.response q.f q.respAddr q.seq st d p)) q.f 0).out _ List.mem_cons_self
  unfold State.answer
  rw [← hu] at hrest hout ⊢
  refine ⟨hout, ?_, ?_, ?_⟩
  · rw [hrest]
    rfl
  · rw [hrest]
    rfl
  · rw [hrest]
    rfl

/-! ### The gate -/

theorem page_named (hpage : (s.fn q.f.val).pageAddr ≠ 0) (hname : (s.fn q.f.val).pageSeq.setWidth 32 = q.seq) :
    ¬(decide ((s.fn q.f.val).pageAddr = 0) || decide ((s.fn q.f.val).pageSeq.setWidth 32 ≠ q.seq)) = true := by
  rw [Bool.or_eq_true, decide_eq_true_eq, decide_eq_true_eq]
  exact fun h => h.elim hpage fun hn => hn hname

/-- A request in turn that its function may make, outside the fatal state, runs. -/
theorem vedihar_runs (h : Asked s q) (fam : Nat) {allowed : Bool} (ha : allowed = true) (run : State → State) :
    s.vedihar q fam allowed run = run s := by
  have hseq : q.seq ≠ (s.fn q.f.val).mbxSeq := by
    rw [h.next]
    bv_omega
  unfold State.vedihar State.mailbox
  rw [h.live, Bool.not_true, if_neg Bool.false_ne_true]
  dsimp only
  rw [h.idle, if_neg Bool.false_ne_true, if_neg (page_named h.page h.named), if_neg (by simp [hseq]), if_neg (by simp [h.next]),
    if_neg (by simp [h.major]), if_neg (by simp [ha, State.familyOpen, h.fatal])]

section
variable (hlive : s.live q.f = true) (hpage : (s.fn q.f.val).pageAddr ≠ 0) (hname : (s.fn q.f.val).pageSeq.setWidth 32 = q.seq)
  (hidle : (s.fn q.f.val).mbxBusy = false) (fam : Nat) (allowed : Bool) (run : State → State)
include hlive hpage hname hidle

theorem vedihar_again {st : Status} {d : BitVec 16} {p : List Byte} (hseq : q.seq = (s.fn q.f.val).mbxSeq)
    (hcache : (s.fn q.f.val).mbxCache = some (st, d, p)) : s.vedihar q fam allowed run = s.answer q st d p := by
  unfold State.vedihar State.mailbox
  rw [hlive, Bool.not_true, if_neg Bool.false_ne_true]
  dsimp only
  rw [hidle, if_neg Bool.false_ne_true, if_neg (page_named hpage hname), if_pos (by simp [hseq, hcache]), hcache]

theorem vedihar_astray (hseq : q.seq ≠ (s.fn q.f.val).mbxSeq) (hnext : q.seq ≠ (s.fn q.f.val).mbxSeq + 1) :
    s.vedihar q fam allowed run = s.answer q .rejectedState 0 [] := by
  unfold State.vedihar State.mailbox
  rw [hlive, Bool.not_true, if_neg Bool.false_ne_true]
  dsimp only
  rw [hidle, if_neg Bool.false_ne_true, if_neg (page_named hpage hname), if_neg (by simp [hseq]), if_pos hnext]

theorem vedihar_major (hnext : q.seq = (s.fn q.f.val).mbxSeq + 1) (hmajor : q.major ≠ 3) :
    s.vedihar q fam allowed run = s.respond q .rejectedCapability 0 [] := by
  have hseq : q.seq ≠ (s.fn q.f.val).mbxSeq := by
    rw [hnext]
    bv_omega
  unfold State.vedihar State.mailbox
  rw [hlive, Bool.not_true, if_neg Bool.false_ne_true]
  dsimp only
  rw [hidle, if_neg Bool.false_ne_true, if_neg (page_named hpage hname), if_neg (by simp [hseq]), if_neg (by simp [hnext]), if_pos hmajor]

theorem vedihar_denied (hnext : q.seq = (s.fn q.f.val).mbxSeq + 1) (hmajor : q.major = 3) (ha : allowed = false) :
    s.vedihar q fam allowed run = s.respond q .rejectedState 0 [] := by
  have hseq : q.seq ≠ (s.fn q.f.val).mbxSeq := by
    rw [hnext]
    bv_omega
  unfold State.vedihar State.mailbox
  rw [hlive, Bool.not_true, if_neg Bool.false_ne_true]
  dsimp only
  rw [hidle, if_neg Bool.false_ne_true, if_neg (page_named hpage hname), if_neg (by simp [hseq]), if_neg (by simp [hnext]),
    if_neg (by simp [hmajor]), if_pos (by simp [ha])]

end

/-! ### Every message passes the gate -/

/-- The messages of the PF alone (R359). -/
def pfMessages (q : Mbx) (img : LibImage) (gen : W32) (ct : List Byte) (chal : BitVec 256) (ser : W64) (mask : W32) (sig cert : List Byte) :
    List Instr :=
  [.libraryLoad q img, .libraryQuery q, .moduleWarm q, .retentionTicket q gen ct, .skeinReset q, .debugChallenge q,
    .debugUnlock q chal ser mask sig cert]

/-- The messages of every function (R359). -/
def fnMessages (q : Mbx) (nonce : BitVec 256) (fn : Byte) (key : List Byte) (man : Manifest) (doc : GenList) (gen : W32) (ct : List Byte)
    (parent : Option (BitVec 12)) (kids : List DistChild) (addr : W64) (slots log2 : Nat) (tm : Byte) : List Instr :=
  [.dieIdentityRecords q, .certificateChain q, .encapsulationKey q, .attestationReport q nonce fn, .weightSessionOpen q, .ownerKey q key,
    .weightManifest q man, .generationList q doc, .wrappedKey q gen ct, .distributionEntry q gen parent kids, .weightSessionClose q,
    .keyedWarm q, .dumpBufferSetup q addr slots, .logRingSetup q addr log2, .traceRingSetup q addr log2 tm, .observationQuery q]

theorem pfMessages_gated {img : LibImage} {gen : W32} {ct : List Byte} {chal : BitVec 256} {ser : W64} {mask : W32} {sig cert : List Byte}
    {i : Instr} (hi : i ∈ pfMessages q img gen ct chal ser mask sig cert) (s : State) :
    ∃ fam run, exec i s = .next (s.vedihar q fam (decide (q.f = pfn)) run) := by
  simp only [pfMessages, List.mem_cons, List.not_mem_nil, or_false] at hi
  obtain rfl | rfl | rfl | rfl | rfl | rfl | rfl := hi <;> exact ⟨_, _, rfl⟩

theorem fnMessages_gated {nonce : BitVec 256} {fn : Byte} {key : List Byte} {man : Manifest} {doc : GenList} {gen : W32} {ct : List Byte}
    {parent : Option (BitVec 12)} {kids : List DistChild} {addr : W64} {slots log2 : Nat} {tm : Byte} {i : Instr}
    (hi : i ∈ fnMessages q nonce fn key man doc gen ct parent kids addr slots log2 tm) (s : State) :
    ∃ fam allowed run, exec i s = .next (s.vedihar q fam allowed run) := by
  simp only [fnMessages, List.mem_cons, List.not_mem_nil, or_false] at hi
  obtain rfl | rfl | rfl | rfl | rfl | rfl | rfl | rfl | rfl | rfl | rfl | rfl | rfl | rfl | rfl | rfl := hi <;> exact ⟨_, _, _, rfl⟩

/-! ### Identity -/

section
variable (h : Asked s q)
include h

theorem dieIdentityRecords_answers (hl : 32 + s.dieRecords.length ≤ q.respLen) :
    ∃ t, exec (.dieIdentityRecords q) s = .next t ∧ Answered t q .done 0 s.dieRecords :=
  ⟨_, congrArg Host.Outcome.next (vedihar_runs h 1 rfl _), respond_answered s hl⟩

theorem certificateChain_answers (hl : 32 + (Config.moduleCert ++ Config.mfgCert).length ≤ q.respLen) :
    ∃ t, exec (.certificateChain q) s = .next t ∧ Answered t q .done 0 (Config.moduleCert ++ Config.mfgCert) :=
  ⟨_, congrArg Host.Outcome.next (vedihar_runs h 1 rfl _), respond_answered s hl⟩

theorem encapsulationKey_refuses (hk : s.sec.kem = none) :
    ∃ t, exec (.encapsulationKey q) s = .next t ∧ Answered t q .rejectedState 0 [] := by
  refine ⟨_, congrArg Host.Outcome.next (vedihar_runs h 1 rfl _), ?_⟩
  rw [hk]
  exact respond_answered s h.room

theorem encapsulationKey_answers {k : BitVec 512} (hk : s.sec.kem = some k) (hl : 32 + (Config.kemPublic k).length ≤ q.respLen) :
    ∃ t, exec (.encapsulationKey q) s = .next t ∧ Answered t q .done 0 (Config.kemPublic k) := by
  refine ⟨_, congrArg Host.Outcome.next (vedihar_runs h 1 rfl _), ?_⟩
  rw [hk]
  exact respond_answered s hl

theorem attestationReport_answers {nonce : BitVec 256} {fn : Byte} {k : BitVec 512} (hf : q.f = pfn ∨ fn.toNat = q.f.val) (hfn : fn.toNat ≤ 15)
    (hk : s.sec.kem = some k) (hc : true ∈ s.sec.copies) (hleaf : s.sec.leaf + 1 < 2 ^ 20) :
    let body := s.reportBytes nonce fn (sha256 (Config.kemPublic k))
    let report := body ++ Config.hssSign s.fuses.seed s.sec.tree s.sec.leaf body
    32 + report.length ≤ q.respLen → ∃ t, exec (.attestationReport q nonce fn) s = .next t ∧
      Answered t q .done 0 report ∧ t.sec.leaf = s.sec.leaf + 1 ∧ t.sec.tree = s.sec.tree := by
  intro body report hl
  have hturn : ∀ k : Sec, k.leaf < 2 ^ 20 → k.turn = k := fun k hk => by
    unfold Sec.turn
    exact if_neg (by omega)
  have hsign : s.sec.canSign = true := by
    have hany : s.sec.copies.any id = true := List.any_eq_true.2 ⟨true, hc, rfl⟩
    have hlt : s.sec.leaf < 2 ^ 20 := by omega
    rw [Sec.canSign, hany, decide_eq_true hlt]
    rfl
  have hattest : s.attest q nonce fn = ({ s with sec := { s.sec with leaf := s.sec.leaf + 1 } } : State).respond q .done 0 report := by
    unfold State.attest
    rw [if_neg (by omega), hsign, Bool.not_true, if_neg Bool.false_ne_true]
    dsimp only
    rw [hturn s.sec (by omega), if_neg (by omega), hk]
    dsimp only
    rw [State.sign]
    dsimp only
    rw [hturn _ hleaf, ← hk] <;> rfl
  have hallowed : (decide (q.f = pfn) || fn.toNat == q.f.val) = true := by simpa using hf
  refine ⟨_, congrArg Host.Outcome.next (vedihar_runs h 1 hallowed _), ?_⟩
  rw [hattest]
  obtain ⟨hr, _⟩ := respond_responded ({ s with sec := { s.sec with leaf := s.sec.leaf + 1 } } : State) q .done 0 report
  refine ⟨respond_answered _ hl, ?_, ?_⟩
  · rw [hr.rest]
  · rw [hr.rest]

/-! ### Observation -/

theorem dumpBufferSetup_sets {addr : W64} {slots : Nat} (hf : q.f = pfn ∨ s.pf .obsCtrl 16 1 = 1) (ha : addr.toNat % 4096 = 0) (hn : addr ≠ 0)
    (hlo : 1 ≤ slots) (hhi : slots ≤ 65535) : ∃ t, exec (.dumpBufferSetup q addr slots) s = .next t ∧ Answered t q .done 0 [] ∧
      (t.fn q.f.val).dump = some { addr := addr, slots := slots, seq := 0, skips := 0 } := by
  refine ⟨_, congrArg Host.Outcome.next (vedihar_runs h 6 rfl _), ?_⟩
  rw [if_neg ?_, if_neg (by omega), if_neg (by omega)]
  · refine ⟨respond_answered _ h.room, ?_⟩
    rw [(respond_responded ..).1.fn, State.fn_updFn_same, if_neg hn]
  · rintro ⟨hpf, hobs⟩
    obtain h1 | h1 := hf
    · exact hpf h1
    · omega

omit h in
theorem ringFault_none {addr : W64} {log2 : Nat} (ha : addr.toNat % 64 = 0) (hlo : 6 ≤ log2) (hhi : log2 ≤ 20) : ringFault addr log2 = none := by
  unfold ringFault
  rw [if_neg (by omega), if_neg (by omega)]

theorem logRingSetup_sets {addr : W64} {log2 : Nat} (ha : addr.toNat % 64 = 0) (hn : addr ≠ 0) (hlo : 6 ≤ log2) (hhi : log2 ≤ 20) :
    ∃ t, exec (.logRingSetup q addr log2) s = .next t ∧ Answered t q .done 0 [] ∧
      (t.fn q.f.val).log = some { addr := addr, log2 := log2, seq := 0, mask := 0 } := by
  refine ⟨_, congrArg Host.Outcome.next (vedihar_runs h 6 rfl _), ?_⟩
  rw [ringFault_none ha hlo hhi]
  refine ⟨respond_answered _ h.room, ?_⟩
  rw [(respond_responded ..).1.fn, State.fn_updFn_same, if_neg hn]

theorem traceRingSetup_sets {addr : W64} {log2 : Nat} (ha : addr.toNat % 64 = 0) (hn : addr ≠ 0) (hlo : 6 ≤ log2) (hhi : log2 ≤ 20) (mask : Byte) :
    ∃ t, exec (.traceRingSetup q addr log2 mask) s = .next t ∧ Answered t q .done 0 [] ∧
      (t.fn q.f.val).trace = some { addr := addr, log2 := log2, seq := 0, mask := mask } := by
  refine ⟨_, congrArg Host.Outcome.next (vedihar_runs h 6 rfl _), ?_⟩
  rw [ringFault_none ha hlo hhi]
  refine ⟨respond_answered _ h.room, ?_⟩
  rw [(respond_responded ..).1.fn, State.fn_updFn_same, if_neg hn]

theorem observationQuery_answers (hl : 56 ≤ q.respLen) : ∃ t p, exec (.observationQuery q) s = .next t ∧ Answered t q .done 0 p ∧
    p.length = 24 ∧ ∀ b, (s.fn q.f.val).dump = some b → b.seq < 2 ^ 64 → leNat (p.take 8) = b.seq := by
  refine ⟨_, _, congrArg Host.Outcome.next (vedihar_runs h 6 rfl _), respond_answered s ?_, ?_, fun b hb hlt => ?_⟩
  · simpa [leBytes_length] using hl
  · simp [leBytes_length]
  · rw [hb, List.append_assoc, List.take_left' (leBytes_length ..)]
    exact (leNat_leBytes 8 b.seq).trans (Nat.mod_eq_of_lt hlt)

end

end

end Sys2Proof.Machine
end


section
/-!
PROOFS. Weight sessions, content keys and distribution entries (R320 to R322, R327, R402, R403).
-/
namespace Sys2Proof.Machine

/-! ### Distribution entries keep their trees -/

/-- Every distribution entry still names its generation, its parent and its children. -/
structure TreesKept (s t : State) : Prop where
  dist : ∀ f b, b ∈ (s.fn f).dists → ∃ b' ∈ (t.fn f).dists, b'.gen = b.gen ∧ b'.parent = b.parent ∧ b'.children = b.children

theorem TreesKept.refl (s : State) : TreesKept s s := ⟨fun _ b hb => ⟨b, hb, rfl, rfl, rfl⟩⟩

theorem TreesKept.trans {s t u : State} (h : TreesKept s t) (g : TreesKept t u) : TreesKept s u := by
  refine ⟨fun f b hb => ?_⟩
  obtain ⟨b1, hb1, hgen, hparent, hkids⟩ := h.dist f b hb
  obtain ⟨b2, hb2, hgen2, hparent2, hkids2⟩ := g.dist f b1 hb1
  exact ⟨b2, hb2, hgen2.trans hgen, hparent2.trans hparent, hkids2.trans hkids⟩

theorem TreesKept.foldl {α : Type} (l : List α) (s : State) (f : State → α → State) (h : ∀ s a, TreesKept s (f s a)) :
    TreesKept s (l.foldl f s) :=
  List.foldlRecOn (motive := fun u : State => TreesKept s u) _ _ (.refl s) fun u hu a _ => hu.trans (h u a)

theorem treesKept_updDist (s : State) (f : FnId) (g : W32) {h : Dist → Dist}
    (hh : ∀ b, (h b).gen = b.gen ∧ (h b).parent = b.parent ∧ (h b).children = b.children) :
    TreesKept s (s.updFn f.val fun u => u.updDist g h) := by
  refine ⟨fun n b hb => ?_⟩
  by_cases hn : n = f.val
  · subst hn
    rw [State.fn_updFn_same]
    refine ⟨_, List.mem_map_of_mem hb, ?_⟩
    split
    · exact hh b
    · exact ⟨rfl, rfl, rfl⟩
  · rw [State.fn_updFn_other _ _ hn]
    exact ⟨b, hb, rfl, rfl, rfl⟩

theorem treesKept_notify (s : State) (m : BitVec 12) (ty slot : Nat) (g : W32) (i : Nat) : TreesKept s (s.notify m ty slot g i) :=
  ⟨fun _ b hb => ⟨b, hb, rfl, rfl, rfl⟩⟩

theorem treesKept_askParent (n : Nat) (s : State) (f : FnId) (g : W32) : TreesKept s (askParent n s f g) := by
  induction n generalizing s with
  | zero => exact .refl s
  | succ n ih =>
    rw [askParent]
    split
    · split
      · split
        · exact .refl s
        · split
          · exact .refl s
          · refine ((treesKept_updDist s f g ?_).trans (treesKept_notify ..)).trans (ih _)
            exact fun _ => ⟨rfl, rfl, rfl⟩
      · exact .refl s
    · exact .refl s

theorem treesKept_pump (s : State) : TreesKept s s.pump :=
  TreesKept.foldl _ s _ fun _ _ => TreesKept.foldl _ _ _ fun _ _ => treesKept_askParent ..

/-! ### Sessions -/

section
variable {s : State} {q : Mbx} (h : Asked s q)
include h

theorem weightSessionOpen_opens (hx : (s.fn q.f.val).session = none) : ∃ t x, exec (.weightSessionOpen q) s = .next t ∧ Answered t q .done 0 [] ∧
    (t.fn q.f.val).session = some x ∧ x.owner = [] ∧ x.manifest = none := by
  obtain ⟨u, hu⟩ : ∃ u, u = s.updFn q.f.val fun u => { u with session := some { owner := [], manifest := none, manifestHash := 0 } } := ⟨_, rfl⟩
  have hrun : exec (.weightSessionOpen q) s = .next (u.respond q .done 0 []) := by
    refine (congrArg Host.Outcome.next (vedihar_runs h 3 rfl _)).trans ?_
    rw [State.session, hx, hu]
  refine ⟨_, { owner := [], manifest := none, manifestHash := 0 }, hrun, respond_answered u h.room, ?_, rfl, rfl⟩
  rw [(respond_responded ..).1.fn, hu, State.fn_updFn_same]

section
variable {x : Session} (hx : (s.fn q.f.val).session = some x)
include hx

theorem weightSessionOpen_refuses : ∃ t, exec (.weightSessionOpen q) s = .next t ∧ Answered t q .rejectedState 0 [] := by
  refine ⟨s.respond q .rejectedState 0 [], (congrArg Host.Outcome.next (vedihar_runs h 3 rfl _)).trans ?_, respond_answered s h.room⟩
  rw [State.session, hx]

theorem ownerKey_sets {key : List Byte} (ho : x.owner = []) (hl : key.length = 60) : ∃ t, exec (.ownerKey q key) s = .next t ∧
    Answered t q .done 0 [] ∧ (t.fn q.f.val).session = some { x with owner := key } := by
  obtain ⟨u, hu⟩ : ∃ u, u = s.updFn q.f.val fun u => { u with session := some { x with owner := key } } := ⟨_, rfl⟩
  have hrun : exec (.ownerKey q key) s = .next (u.respond q .done 0 []) := by
    refine (congrArg Host.Outcome.next (vedihar_runs h 3 rfl _)).trans ?_
    rw [State.session, hx]
    dsimp only
    rw [if_neg (not_not_intro ho), if_neg (not_not_intro hl), hu]
  refine ⟨_, hrun, respond_answered u h.room, ?_⟩
  rw [(respond_responded ..).1.fn, hu, State.fn_updFn_same]

theorem weightManifest_sets {doc : Manifest} (ho : x.owner ≠ []) (hm : x.manifest = none) (hok : manifestOk doc = true)
    (hsig : Config.hssVerify x.owner doc.bytes doc.signature = true) : ∃ t, exec (.weightManifest q doc) s = .next t ∧ Answered t q .done 0 [] ∧
      (t.fn q.f.val).session = some { x with manifest := some doc, manifestHash := sha256n doc.bytes } := by
  obtain ⟨u, hu⟩ : ∃ u, u = s.updFn q.f.val fun u =>
    { u with session := some { x with manifest := some doc, manifestHash := sha256n doc.bytes } } := ⟨_, rfl⟩
  have hrun : exec (.weightManifest q doc) s = .next (u.respond q .done 0 []) := by
    refine (congrArg Host.Outcome.next (vedihar_runs h 3 rfl _)).trans ?_
    rw [State.session, hx]
    dsimp only
    rw [if_neg (by simp [ho, hm]), hok, hsig, Bool.not_true, Bool.or_self, if_neg Bool.false_ne_true, hu]
  refine ⟨_, hrun, respond_answered u h.room, ?_⟩
  rw [(respond_responded ..).1.fn, hu, State.fn_updFn_same]

theorem generationList_adds {m : Manifest} {doc : GenList} (hm : x.manifest = some m) (hok : listOk m x.manifestHash doc = true)
    (hsig : Config.hssVerify x.owner doc.bytes doc.signature = true) (hnew : (s.fn q.f.val).genOf doc.generation = none) :
    ∃ t, exec (.generationList q doc) s = .next t ∧ Answered t q .done 0 [] ∧ ∃ g ∈ (t.fn q.f.val).gens, g.gen = doc.generation ∧
      g.state = .prepared ∧ g.entries = doc.entries ∧ g.key = none ∧ g.isPrepared = false := by
  obtain ⟨u, hu⟩ : ∃ u, u = s.updFn q.f.val fun u => { u with gens := u.gens ++ [Gen.ofList doc] } := ⟨_, rfl⟩
  have hrun : exec (.generationList q doc) s = .next (u.respond q .done 0 []) := by
    refine (congrArg Host.Outcome.next (vedihar_runs h 3 rfl _)).trans ?_
    dsimp only
    rw [hx, Option.bind_some, hm, Option.map_some]
    dsimp only
    rw [hok, hsig, Bool.not_true, Bool.or_self, if_neg Bool.false_ne_true, hnew, hu]
  refine ⟨_, hrun, respond_answered u h.room, Gen.ofList doc, ?_, rfl, rfl, rfl, rfl, rfl⟩
  rw [(respond_responded ..).1.fn, hu, State.fn_updFn_same]
  exact List.mem_append_right _ List.mem_cons_self

theorem retentionTicket_presents {m : Manifest} {r : Retention} {kem : BitVec 512} {gen : W32} {ct key : List Byte} (hf : q.f = pfn)
    (hm : x.manifest = some m) (hr : (s.fn q.f.val).retention = some r) (hk : s.sec.kem = some kem) (hd : s.sec.debug = false)
    (hret : (s.fn q.f.val).retained = true) (hman : r.manifest = x.manifestHash) (hgen : r.gen = gen)
    (hun : unwrap kem x.manifestHash gen ct = some key) (hkey : sha256n key = r.ticketHash) :
    ∃ t, exec (.retentionTicket q gen ct) s = .next t ∧ Answered t q .done 0 [] ∧
      (t.fn q.f.val).retention = some { r with presented := true } := by
  obtain ⟨u, hu⟩ : ∃ u, u = s.updFn q.f.val fun u => { u with retention := some { r with presented := true } } := ⟨_, rfl⟩
  have hfilter : ((s.fn q.f.val).session.filter fun x => x.manifest.isSome) = some x := by
    rw [hx, Option.filter_some, hm]
    rfl
  have hrun : exec (.retentionTicket q gen ct) s = .next (u.respond q .done 0 []) := by
    refine (congrArg Host.Outcome.next (vedihar_runs h 4 (decide_eq_true hf) _)).trans ?_
    dsimp only
    rw [hfilter, hr, hk]
    dsimp only
    rw [if_neg (by simp [hd, hret, hman]), if_neg (not_not_intro hgen), hun, if_pos (by simp [hkey]), hu]
  refine ⟨_, hrun, respond_answered u h.room, ?_⟩
  rw [(respond_responded ..).1.fn, hu, State.fn_updFn_same]

theorem distributionEntry_replaces {gen : W32} {parent : Option (BitVec 12)} {kids : List DistChild} (hl : kids.length ≤ 16)
    (hg : (s.fn q.f.val).genOf gen ≠ none) : ∃ t b, exec (.distributionEntry q gen parent kids) s = .next t ∧ Answered t q .done 0 [] ∧
      b ∈ (t.fn q.f.val).dists ∧ b.gen = gen ∧ b.parent = parent ∧ b.children = kids := by
  obtain ⟨d, hd⟩ : ∃ d : Dist, d = {
    gen := gen, parent := parent, children := kids, next := 0, asked := [], fails := []
    wanted := (((s.fn q.f.val).distOf gen).map fun t => t.wanted.filter fun w => kids.any fun c => c.module == w.1).getD [] } := ⟨_, rfl⟩
  obtain ⟨u, hu⟩ : ∃ u, u = s.updFn q.f.val fun u => { u with dists := (u.dists.filter fun d => d.gen != gen) ++ [d] } := ⟨_, rfl⟩
  have hrun : exec (.distributionEntry q gen parent kids) s = .next (u.pump.respond q .done 0 []) := by
    refine (congrArg Host.Outcome.next (vedihar_runs h 3 rfl _)).trans ?_
    dsimp only
    rw [hx, if_neg (by simp), if_neg (by omega), if_neg (by simpa using hg), hu, hd]
  have hmem : d ∈ (u.fn q.f.val).dists := by
    rw [hu, State.fn_updFn_same]
    exact List.mem_append_right _ List.mem_cons_self
  obtain ⟨b, hb, hgen, hparent, hkids⟩ := (treesKept_pump u).dist q.f.val d hmem
  rw [hd] at hgen hparent hkids
  generalize u.pump = v at hrun hb
  refine ⟨_, b, hrun, respond_answered v h.room, ?_, hgen, hparent, hkids⟩
  rw [(respond_responded ..).1.fn]
  exact hb

/-! ### Content keys -/

/-- The state in which a function holds an accepted content key. -/
def State.keyed (s : State) (f : FnId) (hash : BitVec 256) (gen : W32) (key ticket : BitVec 256) : State :=
  s.updFn f.val fun u => { (u.updGen gen fun g => { g with key := some key, ticketKey := some (ticketKeyOf key hash gen) }) with
    retention := some {
      ticketHash := sha256n (leBytes 32 ticket.toNat), gen := gen, manifest := hash
      presented := (u.retention.map fun r => r.presented).getD false, home := u.retention.bind fun r => r.home } }

omit h hx in
theorem acceptKey_accepts {g : Gen} {gen : W32} {hash key : BitVec 256} (hg : (s.fn q.f.val).genOf gen = some g) :
    let t := s.acceptKey q hash gen key
    (t.fn q.f.val).mbxSeq = q.seq ∧ ∃ y ∈ (t.fn q.f.val).gens, y.gen = gen ∧ y.key = some key ∧
      ∃ r, (t.fn q.f.val).retention = some r ∧ r.gen = gen ∧ r.manifest = hash := by
  obtain ⟨v, hv⟩ : ∃ v, v = s.random.2.random.2.keyed q.f hash gen key s.random.1 := ⟨_, rfl⟩
  obtain ⟨d, p, hrun⟩ : ∃ d p, s.acceptKey q hash gen key = (v.prepared q.f gen).respond q .done d p := by
    rw [hv]
    exact ⟨_, _, rfl⟩
  have hfn : v.fn q.f.val = { ((s.fn q.f.val).updGen gen fun g => { g with key := some key, ticketKey := some (ticketKeyOf key hash gen) }) with
      retention := (v.fn q.f.val).retention } ∧ ∃ r, (v.fn q.f.val).retention = some r ∧ r.gen = gen ∧ r.manifest = hash := by
    rw [hv, State.keyed, State.fn_updFn_same]
    exact ⟨rfl, _, rfl, rfl, rfl⟩
  have hprep : Reported v (v.prepared q.f gen) := by
    unfold State.prepared
    split
    · split
      · exact reported_traceGen ..
      · exact .refl v
    · exact .refl v
  obtain ⟨hr, _⟩ := respond_responded (v.prepared q.f gen) q .done d p
  obtain ⟨hfn, r, hret, hrgen, hrman⟩ := hfn
  rw [hrun]
  refine ⟨hr.seq, { g with key := some key, ticketKey := some (ticketKeyOf key hash gen) }, ?_, (genOf_some hg).1, rfl, r, ?_, hrgen,
    hrman⟩
  · rw [hr.fn, hprep.fn, hfn]
    exact mem_updGen hg
  · rw [hr.fn, hprep.fn]
    exact hret

theorem wrappedKey_accepts {m : Manifest} {gen : W32} {ct : List Byte} {kem : BitVec 512} {g : Gen} {key : List Byte} (hm : x.manifest = some m)
    (hk : s.sec.kem = some kem) (hd : s.sec.debug = false) (ht : s.sec.trng = true) (hg : (s.fn q.f.val).genOf gen = some g)
    (hlisted : g.listed = true) (hun : unwrap kem x.manifestHash gen ct = some key) :
    ∃ t, exec (.wrappedKey q gen ct) s = .next t ∧ (t.fn q.f.val).mbxSeq = q.seq ∧
      ∃ y ∈ (t.fn q.f.val).gens, y.gen = gen ∧ y.key = some (BitVec.ofNat 256 (leNat key)) ∧
      ∃ r, (t.fn q.f.val).retention = some r ∧ r.gen = gen ∧ r.manifest = x.manifestHash := by
  have hfilter : ((s.fn q.f.val).session.filter fun x => x.manifest.isSome) = some x := by
    rw [hx, Option.filter_some, hm]
    rfl
  have hrun : exec (.wrappedKey q gen ct) s = .next (s.acceptKey q x.manifestHash gen (BitVec.ofNat 256 (leNat key))) := by
    refine (congrArg Host.Outcome.next (vedihar_runs h 3 rfl _)).trans ?_
    dsimp only
    rw [hfilter, hk]
    dsimp only
    rw [if_neg (by simp [hd, ht]), hg]
    dsimp only
    rw [if_neg (by simp [hlisted]), hun]
  exact ⟨_, hrun, acceptKey_accepts hg⟩

end

end

end Sys2Proof.Machine
end


section
/-!
PROOFS. The library, the end of a session, warm resets and debug unlock (R151, R400, R403, R405, R423, R426, R462).
-/
namespace Sys2Proof.Machine

/-! ### The library region -/

/-- Every core's library region holds the body. -/
theorem writeLibrary_holds (s : State) {body : List W64} (hl : 8 * body.length ≤ 65536) :
    s.writeLibrary body = { s with mem := (s.writeLibrary body).mem, ecc := (s.writeLibrary body).ecc } ∧
    ∀ c < 1728, memGet (s.writeLibrary body).mem (absAddr 3 c 0x30000) (8 * body.length) = body.flatMap fun w => leBytes 8 w.toNat := by
  obtain ⟨bs, hbs⟩ : ∃ bs, bs = body.flatMap fun w => leBytes 8 w.toNat := ⟨_, rfl⟩
  have hlen : bs.length = 8 * body.length := by
    rw [hbs]
    clear hl hbs
    induction body with
    | nil => rfl
    | cons w ws ih =>
      rw [List.flatMap_cons, List.length_append, ih, leBytes_length, List.length_cons]
      omega
  have hrun : s.writeLibrary body = (List.range 1728).foldl
      (fun s c => (s.writeNow (absAddr 3 c 0x30000) bs).clearEcc 3 (absAddr 3 c 0x30000) bs.length) s := by
    rw [hbs]
    rfl
  have hother : ∀ (l : List Nat) (u : State) (c : Nat), c ∉ l →
      memGet (l.foldl (fun s c => (s.writeNow (absAddr 3 c 0x30000) bs).clearEcc 3 (absAddr 3 c 0x30000) bs.length) u).mem
        (absAddr 3 c 0x30000) bs.length = memGet u.mem (absAddr 3 c 0x30000) bs.length := by
    intro l u c hc
    refine List.foldlRecOn (motive := fun v : State => memGet v.mem (absAddr 3 c 0x30000) bs.length =
      memGet u.mem (absAddr 3 c 0x30000) bs.length) _ _ rfl fun v hv b hb => Eq.trans ?_ hv
    refine memGet_memPut_other v.mem ?_
    have hne : b ≠ c := fun he => hc (he ▸ hb)
    unfold absAddr
    omega
  rw [hrun, ← hbs, ← hlen]
  generalize hr : List.range 1728 = l
  refine ⟨?_, fun c hc => ?_⟩
  · refine List.foldlRecOn (motive := fun u : State => u = { s with mem := u.mem, ecc := u.ecc }) l _ rfl fun u hu _ _ => ?_
    rw [hu]
    rfl
  · have hmem : c ∈ l := hr ▸ List.mem_range.2 hc
    have hnodup : l.Nodup := hr ▸ List.nodup_range
    obtain ⟨l1, l2, rfl⟩ := List.append_of_mem hmem
    have hafter : c ∉ l2 := (List.nodup_cons.1 (List.nodup_append.1 hnodup).2.1).1
    rw [List.foldl_append, List.foldl_cons, hother l2 _ c hafter]
    exact memGet_memPut ..

theorem libraryFits_body {s : State} {img : LibImage} (h : s.libraryFits img = true) : 8 * img.body.length ≤ 65536 := by
  have hshape : libraryShape img = true := by
    unfold State.libraryFits at h
    simp only [Bool.and_eq_true] at h
    exact h.1.1.1.1
  unfold libraryShape at hshape
  simp only [Bool.and_eq_true, beq_iff_eq, decide_eq_true_eq] at hshape
  obtain ⟨⟨⟨⟨⟨⟨-, hmod⟩, hlen⟩, hbody⟩, -⟩, -⟩, -⟩ := hshape
  omega

/-! ### The end of a session -/

/-- Slots, functions and what observation writes are all that has changed. -/
structure Shed (s t : State) : Prop where
  rest : t = { s with slots := t.slots, fns := t.fns, out := t.out, fresh := t.fresh, obs := t.obs }

theorem Shed.refl (s : State) : Shed s s := ⟨rfl⟩

theorem Shed.trans {s t u : State} (h : Shed s t) (g : Shed t u) : Shed s u := by
  have h1 := g.rest
  rw [h.rest] at h1
  exact ⟨h1⟩

theorem Shed.foldl {α : Type} (l : List α) (s : State) (f : State → α → State) (h : ∀ s a, Shed s (f s a)) : Shed s (l.foldl f s) :=
  List.foldlRecOn (motive := fun u : State => Shed s u) _ _ (.refl s) fun u hu a _ => hu.trans (h u a)

theorem shed_finish (s : State) (f : FnId) (r : RingId) (i : BitVec 12) (st : Status) : Shed s (s.finish f r i st) := by
  rw [finish_rest]
  exact ⟨rfl⟩

theorem shed_traceGen (s : State) (f : FnId) (g : W32) (old new : GenState) : Shed s (s.traceGen f g old new) := by
  unfold State.traceGen
  split
  · exact .refl s
  · rw [traceTo_only]
    exact ⟨rfl⟩

theorem shed_dropSlots (s : State) (f : FnId) (g : W32) : Shed s (s.dropSlots f g) := by
  unfold State.dropSlots
  refine Shed.foldl _ s _ fun u kv => ?_
  split
  · split
    · dsimp only
      split
      · refine Shed.trans ?_ (shed_finish ..)
        exact ⟨rfl⟩
      · exact ⟨rfl⟩
    · exact .refl u
  · exact .refl u

theorem shed_discarded (s : State) (f : FnId) (g : Gen) : Shed s (s.discarded f g) := by
  unfold State.discarded
  dsimp only
  split
  · refine (shed_dropSlots s f g.gen).trans (Shed.trans ?_ (shed_finish ..))
    exact ⟨rfl⟩
  · exact shed_dropSlots s f g.gen

/-- The module after every generation of a session has ended. -/
def State.gensEnded (s : State) (f : FnId) : State :=
  ((s.fn f.val).gens.filter fun g => g.state != .retired).foldl (fun s g => (s.traceGen f g.gen g.state .retired).discarded f g) s

theorem shed_gensEnded (s : State) (f : FnId) : Shed s (s.gensEnded f) :=
  Shed.foldl _ s _ fun u g => (shed_traceGen u f g.gen g.state .retired).trans (shed_discarded ..)

/-- The function after its session. -/
def State.sessionEnded (s : State) (f : FnId) : State :=
  (s.gensEnded f).updFn f.val fun u => { u with session := none, gens := [], activeGen := 0, retention := none, retained := false, dists := [] }

theorem shed_sessionEnded (s : State) (f : FnId) : Shed s (s.sessionEnded f) := by
  have h := shed_gensEnded s f
  unfold State.sessionEnded
  generalize s.gensEnded f = u at *
  exact h.trans ⟨rfl⟩

theorem sessionEnded_fn (s : State) (f : FnId) : ((s.sessionEnded f).fn f.val).session = none ∧ ((s.sessionEnded f).fn f.val).gens = [] ∧
    ((s.sessionEnded f).fn f.val).retention = none := by
  rw [State.sessionEnded, State.fn_updFn_same]
  exact ⟨rfl, rfl, rfl⟩

theorem closeSession_eq (s : State) (f : FnId) : s.closeSession f = ((s.sessionEnded f).scrubRetained (s.fn f.val)).startScrub f 0 := rfl

theorem scrubRetained_only (s : State) (u : Func) : s.scrubRetained u = { s with teasel := (s.scrubRetained u).teasel } := by
  unfold State.scrubRetained
  split
  · split <;> rfl
  · rfl

theorem startScrub_only (s : State) (f : FnId) (n : Nat) : s.startScrub f n = { s with teasel := (s.startScrub f n).teasel } := by
  unfold State.startScrub
  dsimp only
  split <;> rfl

/-- The region whose zeroing starts is in the queue. -/
theorem startScrub_queues (s : State) (f : FnId) (n : Nat) : ∃ v ∈ (s.startScrub f n).teasel, v.fn = f ∧ v.space = n ∧
    (v.base, v.size) = s.wholeRegion f n := by
  obtain ⟨v, hv⟩ : ∃ v : Scrub, v = {
    fn := f, space := n, part := s.reg 0 (.setPart (Fin.ofNat 12 (s.func f).part)), base := (s.wholeRegion f n).1
    size := (s.wholeRegion f n).2 } := ⟨_, rfl⟩
  have hmem : v ∈ (s.startScrub f n).teasel := by
    unfold State.startScrub
    dsimp only
    rw [← hv]
    split
    · next h => exact List.contains_iff_mem.1 h
    · exact List.mem_append_right _ List.mem_cons_self
  refine ⟨v, hmem, ?_⟩
  rw [hv]
  exact ⟨rfl, rfl, rfl⟩

/-- Closing a session leaves the rest of the module, and the zeroing of the weight region waits. -/
theorem closeSession_closes (s : State) (f : FnId) :
    s.closeSession f = { s with slots := (s.closeSession f).slots, fns := (s.closeSession f).fns, out := (s.closeSession f).out
                                fresh := (s.closeSession f).fresh, obs := (s.closeSession f).obs, teasel := (s.closeSession f).teasel } ∧
    (s.closeSession f).fns = (s.sessionEnded f).fns ∧
    ∃ v ∈ (s.closeSession f).teasel, v.fn = f ∧ v.space = 0 ∧ (v.base, v.size) = s.wholeRegion f 0 := by
  obtain ⟨u, hu⟩ : ∃ u, u = s.sessionEnded f := ⟨_, rfl⟩
  obtain ⟨w, hw⟩ : ∃ w, w = u.scrubRetained (s.fn f.val) := ⟨_, rfl⟩
  have hrun : s.closeSession f = w.startScrub f 0 := by
    rw [closeSession_eq, hw, hu]
  have hsu := (shed_sessionEnded s f).rest
  rw [← hu] at hsu
  have huw : w = { u with teasel := w.teasel } := by
    rw [hw]
    exact scrubRetained_only ..
  have hwt := startScrub_only w f 0
  obtain ⟨v, hv, hfn, hspace, hregion⟩ := startScrub_queues w f 0
  have hwhole : w.wholeRegion f 0 = s.wholeRegion f 0 := by
    rw [huw, hsu]
    rfl
  rw [hrun]
  refine ⟨?_, ?_, v, hv, hfn, hspace, hregion.trans hwhole⟩
  · generalize w.startScrub f 0 = t at *
    rw [hwt, huw, hsu]
  · rw [hwt, huw, hu]

section
variable {s : State} {q : Mbx} (h : Asked s q)
include h

theorem weightSessionClose_closes {x : Session} (hx : (s.fn q.f.val).session = some x) : ∃ t, exec (.weightSessionClose q) s = .next t ∧
    Answered t q .done 0 [] ∧ (t.fn q.f.val).session = none ∧ (t.fn q.f.val).gens = [] ∧ (t.fn q.f.val).retention = none ∧
    ∃ v ∈ t.teasel, v.fn = q.f ∧ v.space = 0 ∧ (v.base, v.size) = s.wholeRegion q.f 0 := by
  obtain ⟨u, hu⟩ : ∃ u, u = s.closeSession q.f := ⟨_, rfl⟩
  have hrun : exec (.weightSessionClose q) s = .next (u.respond q .done 0 []) := by
    refine (congrArg Host.Outcome.next (vedihar_runs h 3 rfl _)).trans ?_
    rw [State.session, hx, hu]
  obtain ⟨-, hfns, v, hv, hregion⟩ := closeSession_closes s q.f
  rw [← hu] at hfns hv
  have hfn : u.fn q.f.val = (s.sessionEnded q.f).fn q.f.val := by rw [State.fn, hfns, State.fn]
  obtain ⟨hsession, hgens, hret⟩ := sessionEnded_fn s q.f
  obtain ⟨hr, -⟩ := respond_responded u q .done 0 []
  refine ⟨_, hrun, respond_answered u h.room, ?_, ?_, ?_, v, ?_, hregion⟩
  · rw [hr.fn, hfn]
    exact hsession
  · rw [hr.fn, hfn]
    exact hgens
  · rw [hr.fn, hfn]
    exact hret
  · rw [hr.rest]
    exact hv

/-! ### The library -/

theorem libraryLoad_refuses {img : LibImage} (hf : q.f = pfn) (hexe : ∀ kv ∈ s.fns, kv.2.exe = none) (hsk : s.skein.state = .none)
    (hfit : s.libraryFits img = false) : ∃ t, exec (.libraryLoad q img) s = .next t ∧ Answered t q .rejectedLibrary 0 [] ∧
      t.library = s.library := by
  have hany : (s.fns.any fun kv => kv.2.exe.isSome) = false := List.any_eq_false.2 fun kv hkv => by simp [hexe kv hkv]
  have hrun : exec (.libraryLoad q img) s = .next (s.respond q .rejectedLibrary 0 []) := by
    refine (congrArg Host.Outcome.next (vedihar_runs h 2 (decide_eq_true hf) _)).trans ?_
    rw [if_neg (by simp [hany, hsk]), hfit] <;> rfl
  refine ⟨_, hrun, respond_answered s h.room, ?_⟩
  rw [(respond_responded ..).1.rest]

theorem libraryLoad_loads {img : LibImage} (hf : q.f = pfn) (hexe : ∀ kv ∈ s.fns, kv.2.exe = none) (hsk : s.skein.state = .none)
    (hfit : s.libraryFits img = true) : ∃ t, exec (.libraryLoad q img) s = .next t ∧ Answered t q .done 0 [] ∧
      t.library = some (LibImage.library img) ∧ ∀ c < 1728, memGet t.mem (absAddr 3 c 0x30000) (8 * img.body.length) =
        img.body.flatMap fun w => leBytes 8 w.toNat := by
  have hany : (s.fns.any fun kv => kv.2.exe.isSome) = false := List.any_eq_false.2 fun kv hkv => by simp [hexe kv hkv]
  obtain ⟨w, hw⟩ : ∃ w, w = s.writeLibrary img.body := ⟨_, rfl⟩
  obtain ⟨u, hu⟩ : ∃ u : State, u = { w with library := some (LibImage.library img) } := ⟨_, rfl⟩
  have hrun : exec (.libraryLoad q img) s = .next (u.respond q .done 0 []) := by
    refine (congrArg Host.Outcome.next (vedihar_runs h 2 (decide_eq_true hf) _)).trans ?_
    rw [if_neg (by simp [hany, hsk]), hfit, hu, hw] <;> rfl
  obtain ⟨-, hmem⟩ := writeLibrary_holds s (libraryFits_body hfit)
  rw [← hw] at hmem
  refine ⟨_, hrun, respond_answered u h.room, ?_, fun c hc => ?_⟩
  · rw [(respond_responded ..).1.rest, hu]
  · rw [(respond_responded ..).1.rest, hu]
    exact hmem c hc

theorem libraryQuery_answers (hf : q.f = pfn) (hl : 32 + (Config.libraryInfo s.fresh).length ≤ q.respLen) :
    ∃ t, exec (.libraryQuery q) s = .next t ∧ Answered t q .done 0 (Config.libraryInfo s.fresh) :=
  ⟨_, congrArg Host.Outcome.next (vedihar_runs h 2 (decide_eq_true hf) _), respond_answered { s with fresh := s.fresh + 1 } hl⟩

/-! ### Debug challenges -/

theorem debugChallenge_draws (hf : q.f = pfn) (ht : s.sec.trng = true) (hl : 64 ≤ q.respLen) : ∃ t v, exec (.debugChallenge q) s = .next t ∧
    t.sec.challenge = some v ∧ Answered t q .done 0 (leBytes 32 v.toNat) := by
  obtain ⟨v, hv⟩ : ∃ v, v = s.random.1 := ⟨_, rfl⟩
  obtain ⟨u, hu⟩ : ∃ u : State, u = { s.random.2 with sec := { s.random.2.sec with challenge := some v } } := ⟨_, rfl⟩
  have hrun : exec (.debugChallenge q) s = .next (u.respond q .done 0 (leBytes 32 v.toNat)) := by
    refine (congrArg Host.Outcome.next (vedihar_runs h 5 (decide_eq_true hf) _)).trans ?_
    rw [ht, Bool.not_true, if_neg Bool.false_ne_true, hu, hv]
  refine ⟨_, v, hrun, ?_, respond_answered u ?_⟩
  · rw [(respond_responded ..).1.rest, hu]
  · rw [leBytes_length]
    omega

end

end Sys2Proof.Machine
end


section
/-!
PROOFS. Warm resets and debug unlock end every pass (R405, R423, R426); the mailbox as a whole (R358, R359).
-/
namespace Sys2Proof

theorem AMap.each_filterMap {α : Type} [DecidableEq α] (d : α) (f : α → α) (m : AMap α) :
    AMap.each d f m = m.filterMap fun kv => if f kv.2 = d then none else some (kv.1, f kv.2) := by
  induction m with
  | nil => rfl
  | cons e m ih =>
    obtain ⟨k, v⟩ := e
    rw [AMap.each, List.filterMap_cons]
    dsimp only
    split <;> rw [ih]

end Sys2Proof

namespace Sys2Proof.Machine

/-! ### The end of every pass -/

/-- Every pass ends with ABANDONED_RESET (R423). -/
def State.passesEnded (s : State) : State :=
  let s := s.allPasses.foldl (fun s kp => s.abandon kp.1 .abandonedReset true) s
  s.allPasses.foldl (fun s kp => s.completePass kp.1 .abandonedReset 0 false) s

theorem completeAll_none (l : List (Nat × Pass)) {u : State} {k : Nat} (h : u.pass k = none ∨ ∃ q, (k, q) ∈ l) :
    (l.foldl (fun s kp => s.completePass kp.1 .abandonedReset 0 false) u).pass k = none := by
  induction l generalizing u with
  | nil =>
    obtain h | ⟨q, hq⟩ := h
    · exact h
    · exact nomatch hq
  | cons kp l ih =>
    rw [List.foldl_cons]
    refine ih ?_
    by_cases hk : k = kp.1
    · subst hk
      exact .inl (completePass_pass ..)
    · obtain h | ⟨q, hq⟩ := h
      · exact .inl ((pass_completePass_other hk _ _ _).trans h)
      · obtain rfl | hq := List.mem_cons.1 hq
        · exact absurd rfl hk
        · exact .inr ⟨q, hq⟩

theorem allPasses_nil {s : State} (hwf : AMap.wf none s.passes = true) (h : ∀ k, s.pass k = none) : s.allPasses = [] := by
  refine List.eq_nil_iff_forall_not_mem.2 fun kp hkp => ?_
  have hp := (pass_of_mem_allPasses hwf (k := kp.1) (q := kp.2) hkp).symm.trans (h kp.1)
  exact nomatch hp

theorem passesEnded_ends {s : State} (hwf : AMap.wf none s.passes = true) : s.passesEnded.allPasses = [] := by
  obtain ⟨u, hu⟩ : ∃ u, u = s.allPasses.foldl (fun s kp => s.abandon kp.1 .abandonedReset true) s := ⟨_, rfl⟩
  have huwf : AMap.wf none u.passes = true := by
    rw [hu]
    exact List.foldlRecOn (motive := fun v : State => AMap.wf none v.passes = true) _ _ hwf fun v hv kp _ => abandon_wf hv ..
  have hrun : s.passesEnded = u.allPasses.foldl (fun s kp => s.completePass kp.1 .abandonedReset 0 false) u := by
    rw [hu]
    rfl
  rw [hrun]
  refine allPasses_nil ?_ fun k => completeAll_none _ ?_
  · exact List.foldlRecOn (motive := fun v : State => AMap.wf none v.passes = true) _ _ huwf fun v hv kp _ => completePass_wf hv ..
  · cases hp : u.pass k with
    | none => exact .inl rfl
    | some q => exact .inr ⟨q, mem_allPasses_of_pass hp⟩

/-- Every fetched descriptor ends with REJECTED_STATE (R423). -/
def State.fetchedEnded (s : State) : State :=
  allFns.foldl (fun s f => (s.fn f.val).fetched.foldl (fun s d => s.finish f d.ring d.index .rejectedState) s) s

theorem windUp_eq (s : State) : s.windUp = s.passesEnded.fetchedEnded := rfl

theorem shed_fetchedEnded (s : State) : Shed s s.fetchedEnded :=
  Shed.foldl _ s _ fun _ _ => Shed.foldl _ _ _ fun _ _ => shed_finish ..

theorem windUp_ends {s : State} (hwf : AMap.wf none s.passes = true) : s.windUp.allPasses = [] := by
  have hend := passesEnded_ends hwf
  rw [windUp_eq]
  generalize s.passesEnded = u at *
  rw [State.allPasses, (shed_fetchedEnded u).rest]
  exact hend

/-! ### Warm resets -/

section
variable {s : State} {q : Mbx} (h : Asked s q)
include h

omit h in
theorem requestWarm_requests (hwf : AMap.wf none s.passes = true) (hroom : 32 ≤ q.respLen) (keyed : Bool) :
    Answered (s.requestWarm q keyed) q .done 0 [] ∧ (s.requestWarm q keyed).power.phase = .warmPending keyed ∧
      (s.requestWarm q keyed).allPasses = [] := by
  have hend := windUp_ends hwf
  unfold State.requestWarm
  generalize s.windUp = u at *
  refine ⟨respond_answered u hroom, rfl, ?_⟩
  dsimp only
  rw [State.allPasses, (respond_responded ..).1.rest]
  exact hend

theorem moduleWarm_requests (hwf : AMap.wf none s.passes = true) (hf : q.f = pfn) (hp : s.power.phase = .ready) :
    ∃ t, exec (.moduleWarm q) s = .next t ∧ Answered t q .done 0 [] ∧ t.power.phase = .warmPending false ∧ t.allPasses = [] := by
  refine ⟨s.requestWarm q false, (congrArg Host.Outcome.next (vedihar_runs h 4 (decide_eq_true hf) _)).trans ?_,
    requestWarm_requests hwf h.room false⟩
  rw [hp]

theorem keyedWarm_requests (hwf : AMap.wf none s.passes = true) (hf : q.f = pfn) (hp : s.power.phase = .ready) (hd : s.sec.debug = false)
    (hr : (s.fn q.f.val).retention ≠ none) :
    ∃ t, exec (.keyedWarm q) s = .next t ∧ Answered t q .done 0 [] ∧ t.power.phase = .warmPending true ∧ t.allPasses = [] := by
  have hne : AMap.get Func.reset s.fns q.f.val ≠ Func.reset := fun he => hr (congrArg Func.retention he)
  have hany : (s.fns.any fun kv => kv.2.retention.isSome) = true :=
    List.any_eq_true.2 ⟨_, AMap.mem_of_get_ne hne, Option.isSome_iff_ne_none.2 hr⟩
  have hw : s.warming = false := by
    rw [State.warming, hp]
  refine ⟨s.requestWarm q true, (congrArg Host.Outcome.next (vedihar_runs h 4 (by simp [hf]) _)).trans ?_,
    requestWarm_requests hwf h.room true⟩
  rw [hw, if_neg Bool.false_ne_true, if_neg (by simp [hp, hd, hany])]

theorem moduleWarm_takesOver (hf : q.f = pfn) (hp : s.power.phase = .warmPending true) :
    ∃ t, exec (.moduleWarm q) s = .next t ∧ Answered t q .done 0 [] ∧ t.power.phase = .warmPending false := by
  refine ⟨{ s.respond q .done 0 [] with power := { s.power with phase := .warmPending false } },
    (congrArg Host.Outcome.next (vedihar_runs h 4 (decide_eq_true hf) _)).trans ?_, respond_answered s h.room, rfl⟩
  rw [hp]
  rfl

omit h in
theorem warming_pending {keyed : Bool} (hp : s.power.phase = .warmPending keyed) : s.warming = true := by
  rw [State.warming, hp]

theorem keyedWarm_absorbed (hf : q.f = pfn) (hp : s.power.phase = .warmPending true) : exec (.keyedWarm q) s = .next s := by
  refine (congrArg Host.Outcome.next (vedihar_runs h 4 (by simp [hf]) _)).trans ?_
  rw [warming_pending hp, if_pos rfl]

theorem skeinReset_absorbed (hf : q.f = pfn) (hp : s.power.phase = .warmPending true) : exec (.skeinReset q) s = .next s := by
  refine (congrArg Host.Outcome.next (vedihar_runs h 4 (decide_eq_true hf) _)).trans ?_
  rw [warming_pending hp, if_pos rfl]

omit h in
theorem skeinReset_leaves (s : State) : s.skeinReset.skein.state = .none := by
  by_cases hk : s.skein.state = .none
  · have hrun : s.skeinReset = s := by
      unfold State.skeinReset
      exact if_pos hk
    rw [hrun, hk]
  · rw [skeinReset_eq s hk]
    dsimp only
    obtain ⟨fns, out, obs, hleave⟩ := leaveSkein_only (if s.skein.state = .forming then
      (if s.skein.multi then (s.allPasses.foldl (State.resetPass s.skein.fn) s).sendTo (s.allPasses.foldl (State.resetPass s.skein.fn) s).treePorts
          (controlMsg 0x06 s.skein.id (s.allPasses.foldl (State.resetPass s.skein.fn) s).moduleId 0 0)
        else s.allPasses.foldl (State.resetPass s.skein.fn) s).completeForm .rejectedState
      else if s.skein.multi then (s.allPasses.foldl (State.resetPass s.skein.fn) s).sendTo (s.allPasses.foldl (State.resetPass s.skein.fn) s).treePorts
          (controlMsg 0x06 s.skein.id (s.allPasses.foldl (State.resetPass s.skein.fn) s).moduleId 0 0)
        else s.allPasses.foldl (State.resetPass s.skein.fn) s)
    rw [hleave]
    rfl

theorem skeinReset_resets (hf : q.f = pfn) (hw : s.warming = false) :
    ∃ t, exec (.skeinReset q) s = .next t ∧ Answered t q .done 0 [] ∧ t.skein.state = .none := by
  refine ⟨s.skeinReset.respond q .done 0 [], (congrArg Host.Outcome.next (vedihar_runs h 4 (decide_eq_true hf) _)).trans ?_,
    respond_answered _ h.room, ?_⟩
  · rw [hw, if_neg Bool.false_ne_true]
  · rw [(respond_responded ..).1.rest]
    exact skeinReset_leaves s

end

/-! ### The map of cores stays in canonical form -/

/-- The map of cores stays in canonical form. -/
structure Canon (s t : State) : Prop where
  wf : AMap.wf Core.reset s.cores = true → AMap.wf Core.reset t.cores = true

theorem Canon.refl (s : State) : Canon s s := ⟨id⟩
theorem Canon.trans {s t u : State} (h : Canon s t) (g : Canon t u) : Canon s u := ⟨g.wf ∘ h.wf⟩
theorem Canon.of_cores {s t : State} (h : t.cores = s.cores) : Canon s t := ⟨fun hw => h ▸ hw⟩

theorem Canon.foldl {α : Type} (l : List α) (s : State) (f : State → α → State) (h : ∀ s a, Canon s (f s a)) : Canon s (l.foldl f s) :=
  List.foldlRecOn (motive := fun u : State => Canon s u) _ _ (.refl s) fun u hu a _ => hu.trans (h u a)

theorem canon_updCore (s : State) (c : Nat) (f : Core → Core) : Canon s (s.updCore c f) := ⟨AMap.wf_upd c f⟩

theorem Canon.ite {p : Prop} [Decidable p] {s t : State} (h : Canon s t) : Canon s (if p then t else s) := by
  split
  · exact h
  · exact .refl s

theorem canon_count (s : State) (c : Nat) (eng : Option Nat) (code start len n : Nat) : Canon s (s.count c eng code start len n) := by
  unfold State.count State.countAt
  split
  · exact .refl s
  · refine Canon.foldl _ s _ fun u i => ?_
    exact Canon.ite (canon_updCore ..)

theorem canon_haltCore (s : State) (c n : Nat) : Canon s (s.haltCore c n) := by
  have hcharge : Canon s (s.chargeEnd c) := by
    unfold State.chargeEnd
    split
    · exact .of_cores rfl
    · exact .refl s
  have hledger : ∀ (u : State) (e : Eng) (col start n : Nat), Canon u (u.ledger c e col start n) := by
    intro u e col start n
    unfold State.ledger
    split
    · exact .refl u
    · exact (canon_updCore ..).trans (canon_count ..)
  have hclose : ∀ (u : State) (t : Nat), Canon u (u.closeLedger c t) := fun u t => Canon.foldl _ u _ fun v e => hledger v e _ _ _
  have hland : ∀ u : State, Canon u (u.settleAll c) := fun u => by
    unfold State.settleAll
    split
    · exact .refl u
    · exact (canon_updCore u c fun k => { k with mpend := [] }).trans (.of_cores rfl)
  unfold State.haltCore
  exact (hcharge.trans ((hclose _ _).trans (hland _))).trans (canon_updCore ..)

theorem canon_abandon (s : State) (k : Nat) (st : Status) (noRetry : Bool) : Canon s (s.abandon k st noRetry) := by
  have htrace : ∀ (u : State) (f : FnId) (ty cause : Byte) (b : List Byte), Canon u (u.traceTo f ty cause b) :=
    fun u f ty cause b => .of_cores (by rw [traceTo_only])
  have hstate : ∀ (u : State) (st : PassState), Canon u (u.setPassState k st) := fun u st => by
    unfold State.setPassState
    split
    · exact .refl u
    · refine Canon.trans ?_ (htrace ..)
      exact .of_cores rfl
  have hdye : ∀ (u : State) (p : Pass) (l : List Nat), Canon u (u.dyeAbandoned p l) := fun u p l => by
    unfold State.dyeAbandoned
    refine Canon.foldl _ u _ fun v kv => ?_
    split
    · split
      · split
        · exact htrace ..
        · exact .refl v
      · exact .refl v
    · exact .refl v
  unfold State.abandon
  split
  · exact .refl s
  · split
    · exact .refl s
    · exact .refl s
    · split_ifs
      · exact .of_cores rfl
      · exact .of_cores rfl
      · exact .refl s
    · next p _ _ _ _ _ =>
      have hhalt : Canon s ((s.jobCores k).foldl (fun s c => s.haltCore c (if p.start.isSome then
          3200 * (p.kernelStart.toNat - (p.start.getD 0).toNat) else 0)) s) := Canon.foldl _ s _ fun u c => canon_haltCore u c _
      have hquiet : Canon s (s.quiesced k p st noRetry) := by
        unfold State.quiesced
        refine Canon.trans (Canon.trans (hhalt.trans (hdye _ p (s.jobCores k))) ?_) (hstate _ _)
        exact .of_cores rfl
      have hnotice : ∀ u : State, Canon u (u.noticed p) := fun u => by
        unfold State.noticed
        split <;> exact .of_cores rfl
      exact hquiet.trans (hnotice _)

theorem completePass_cores (s : State) (k : Nat) (st : Status) (summary : W64) (cert : Bool) :
    (s.completePass k st summary cert).cores = s.cores := by
  cases hp : s.pass k with
  | none => rw [completePass_none hp]
  | some p =>
    have hstate : (s.setPassState k .complete).cores = s.cores := by
      unfold State.setPassState
      split
      · rfl
      · rw [traceTo_only]
        rfl
    have hnum : ∀ u : State, (if !p.agreed then u
        else if p.multi then { u with skein := { u.skein with passNo := u.skein.passNo + 1 } }
        else u.updFn p.fn.val fun u => { u with passNo := u.passNo + 1 }).cores = u.cores := fun u => by
      split
      · rfl
      · split <;> rfl
    have hceased : (s.ceased k p st summary cert).cores = s.cores := by
      unfold State.ceased State.completing
      dsimp only
      rw [(hostEnds_complete ..).rest]
      exact (hnum _).trans hstate
    have hretire : ∀ v : State, (v.retireOld p.fn).cores = v.cores := fun v => by
      unfold State.retireOld
      dsimp only
      refine List.foldlRecOn (motive := fun w : State => w.cores = v.cores) _ _ rfl fun w hw g _ => Eq.trans ?_ hw
      rw [(shed_traceGen w p.fn g.gen g.state .retired).rest]
    have hpreempt : ∀ v : State, (v.settlePreempt p.fn).cores = v.cores := fun v => by
      rw [(settlePreempt_ended v p.fn).rest]
    have hafter : ∀ v : State, (v.afterPass p).cores = v.cores := fun v => by
      unfold State.afterPass
      refine (hpreempt _).trans ?_
      split
      · obtain ⟨fns, out, obs, hleave⟩ := leaveSkein_only ((v.updFn p.fn.val fun u => { u with account := u.account + p.frames }).retireOld p.fn)
        exact (congrArg State.cores hleave).trans (hretire _)
      · exact hretire _
    rw [completePass_some hp]
    exact (hafter _).trans hceased

theorem passesEnded_cores (s : State) : Canon s s.passesEnded ∧ Manned s s.passesEnded := by
  obtain ⟨u, hu⟩ : ∃ u, u = s.allPasses.foldl (fun s kp => s.abandon kp.1 .abandonedReset true) s := ⟨_, rfl⟩
  have hrun : s.passesEnded = u.allPasses.foldl (fun s kp => s.completePass kp.1 .abandonedReset 0 false) u := by
    rw [hu]
    rfl
  have hsu : Canon s u ∧ Manned s u := by
    rw [hu]
    exact ⟨Canon.foldl _ s _ fun _ _ => canon_abandon .., Manned.foldl _ s _ fun _ _ => manned_abandon ..⟩
  rw [hrun]
  exact ⟨hsu.1.trans (Canon.foldl _ u _ fun _ _ => .of_cores (completePass_cores ..)),
    hsu.2.trans (Manned.foldl _ u _ fun _ _ => manned_completePass ..)⟩

/-! ### Debug unlock -/

/-- The sessions and the retained weights of every function go. -/
def State.sessionsEnded (s : State) : State :=
  allFns.foldl (fun s f => if (s.session f).isSome || (s.fn f.val).retained then s.closeSession f else s) s

theorem sessionsEnded_only (s : State) : s.sessionsEnded.cores = s.cores ∧ s.sessionsEnded.passes = s.passes := by
  unfold State.sessionsEnded
  refine List.foldlRecOn (motive := fun u : State => u.cores = s.cores ∧ u.passes = s.passes) _ _ ⟨rfl, rfl⟩ fun u hu f _ => ?_
  split
  · rw [(closeSession_closes u f).1]
    exact hu
  · exact hu

theorem unlock_eq (s : State) (mask : W32) : s.unlock mask =
    { s.passesEnded.sessionsEnded.debugZero with
      teasel := [], sec := { s.passesEnded.sessionsEnded.debugZero.sec with debug := true, scopes := mask, kem := none } } := by
  simp only [State.unlock, State.passesEnded, State.sessionsEnded]

theorem each_noExe (m : AMap Func) (f : Nat) : (AMap.get Func.reset (AMap.each Func.reset (fun u => { u with exe := none }) m) f).exe = none := by
  induction m with
  | nil => rfl
  | cons e m ih =>
    obtain ⟨k, v⟩ := e
    rw [AMap.each]
    split
    · exact ih
    · rw [AMap.get]
      split
      · rfl
      · exact ih

/-- A core after the zeroisation of a debug unlock. -/
def Core.zeroed (k : Core) : Core := { Core.reset with svc := k.svc, cause := k.cause, obs := k.obs }

/-- The service state of a core is as before its zeroisation. -/
theorem each_svc {m : AMap Core} (hwf : AMap.wf Core.reset m = true) (c : Nat) :
    (AMap.get Core.reset (AMap.each Core.reset Core.zeroed m) c).svc = (AMap.get Core.reset m c).svc := by
  have hkeys : (m.map (·.1)).Nodup := List.Pairwise.imp (fun hab => Nat.ne_of_lt hab) (List.pairwise_map.2 (AMap.wf_iff.1 hwf).1)
  rw [AMap.each_filterMap]
  refine AMap.rel_get_filterMap (R := fun a b : Core => b.svc = a.svc) hkeys (fun x y h => ?_) rfl fun v => ?_
  · split at h
    · exact nomatch h
    · exact (congrArg Prod.fst (Option.some.inj h)).symm
  · dsimp only
    split
    · next hv => exact (congrArg Core.svc hv).symm
    · rfl

theorem unlock_zeroises {s : State} (hp : AMap.wf none s.passes = true) (hc : AMap.wf Core.reset s.cores = true) (mask : W32) (f : FnId) :
    let t := s.unlock mask
    t.sec.debug = true ∧ t.sec.scopes = mask ∧ t.sec.kem = none ∧ t.mem = [] ∧ t.library = none ∧ t.allPasses = [] ∧
      (t.fn f.val).exe = none ∧ ∀ c, (t.core c).svc = (s.core c).svc := by
  intro t
  have ht : t = s.unlock mask := rfl
  have hend := passesEnded_ends hp
  obtain ⟨hcanon, hman⟩ := passesEnded_cores s
  rw [unlock_eq] at ht
  generalize s.passesEnded = u at *
  obtain ⟨hcores, hpasses⟩ := sessionsEnded_only u
  generalize u.sessionsEnded = v at *
  refine ⟨by rw [ht], by rw [ht], by rw [ht], by rw [ht]; rfl, by rw [ht]; rfl, ?_, ?_, fun c => ?_⟩
  · rw [ht]
    show v.passes.filterMap _ = []
    rw [hpasses]
    exact hend
  · rw [ht]
    exact each_noExe v.fns f.val
  · rw [ht]
    refine (each_svc (m := v.cores) ?_ c).trans ?_
    · rw [hcores]
      exact hcanon.wf hc
    · rw [hcores]
      exact hman.svc c

section
variable {s : State} {q : Mbx} (h : Asked s q) {chal : BitVec 256} {ser : W64} {mask : W32} {sig cert : List Byte}
include h

theorem debugUnlock_refuses (hf : q.f = pfn) (hc : s.sec.challenge ≠ some chal) : ∃ t, exec (.debugUnlock q chal ser mask sig cert) s = .next t ∧
    Answered t q .rejectedFormat 0 [] ∧ t.sec = s.sec := by
  refine ⟨s.respond q .rejectedFormat 0 [], (congrArg Host.Outcome.next (vedihar_runs h 5 (decide_eq_true hf) _)).trans ?_,
    respond_answered s h.room, ?_⟩
  · dsimp only
    rw [if_pos hc]
  · rw [(respond_responded ..).1.rest]

theorem debugUnlock_unlocks (hp : AMap.wf none s.passes = true) (hf : q.f = pfn) (hc : s.sec.challenge = some chal) (hser : ser = s.fuses.serial)
    (hcores : AMap.wf Core.reset s.cores = true) {k : List Byte} (hk : s.certified 0x03 cert = some k)
    (hsig : Config.hssVerify k (leBytes 32 chal.toNat ++ leBytes 8 ser.toNat ++ leBytes 4 mask.toNat) sig = true) :
    ∃ t, exec (.debugUnlock q chal ser mask sig cert) s = .next t ∧ Answered t q .done 0 [] ∧ t.sec.debug = true ∧ t.sec.scopes = mask ∧
      t.sec.kem = none ∧ t.mem = [] ∧ t.library = none ∧ t.allPasses = [] ∧ (t.fn q.f.val).exe = none ∧
      ∀ c, (t.core c).svc = (s.core c).svc := by
  obtain ⟨u, hu⟩ : ∃ u, u = s.unlock mask := ⟨_, rfl⟩
  have hrun : exec (.debugUnlock q chal ser mask sig cert) s = .next (u.respond q .done 0 []) := by
    refine (congrArg Host.Outcome.next (vedihar_runs h 5 (decide_eq_true hf) _)).trans ?_
    dsimp only
    rw [if_neg (not_not_intro hc), if_neg (not_not_intro hser), hk, Option.any_some, hsig, if_pos rfl, hu]
  obtain ⟨hdebug, hscopes, hkem, hmem, hlib, hpasses, hexe, hsvc⟩ := unlock_zeroises hp hcores mask q.f
  rw [← hu] at hdebug hscopes hkem hmem hlib hpasses hexe hsvc
  obtain ⟨hr, -⟩ := respond_responded u q .done 0 []
  have hrest := hr.rest
  have hfn := hr.fn q.f.val
  have hans := respond_answered u (st := .done) (d := 0) (p := []) h.room
  generalize u.respond q .done 0 [] = t at *
  refine ⟨t, hrun, hans, ?_, ?_, ?_, ?_, ?_, ?_, ?_, fun c => ?_⟩
  · rw [hrest]
    exact hdebug
  · rw [hrest]
    exact hscopes
  · rw [hrest]
    exact hkem
  · rw [hrest]
    exact hmem
  · rw [hrest]
    exact hlib
  · rw [State.allPasses, hrest]
    exact hpasses
  · rw [hfn]
    exact hexe
  · rw [State.core, hrest]
    exact hsvc c

end

/-- Settles O54: each message passes the gate once, and has its effect and its response. -/
theorem vediharMessages : Obligations.VediharMessages := by
  intro s q hp _
  dsimp only
  refine ⟨?_, fun h => ⟨dieIdentityRecords_answers h, certificateChain_answers h, encapsulationKey_refuses h,
    fun k hk hl => encapsulationKey_answers h hk hl, fun nonce fn k hf hfn hk hc hleaf hl => attestationReport_answers h hf hfn hk hc hleaf hl,
    fun img hf hexe hsk => ⟨libraryLoad_refuses h hf hexe hsk, libraryLoad_loads h hf hexe hsk⟩, libraryQuery_answers h,
    weightSessionOpen_opens h, fun x hx => ⟨weightSessionOpen_refuses h hx, fun key ho hl => ownerKey_sets h hx ho hl,
      fun doc ho hm hok hsig => weightManifest_sets h hx ho hm hok hsig,
      fun m doc hm hok hsig hnew => generationList_adds h hx hm hok hsig hnew,
      fun m gen ct kem g key hm hk hd ht hg hl hun => wrappedKey_accepts h hx hm hk hd ht hg hl hun,
      fun gen parent kids hl hg => distributionEntry_replaces h hx hl hg, weightSessionClose_closes h hx,
      fun m r kem gen ct key hf hm hr hk hd hret hman hgen hun hkey => retentionTicket_presents h hx hf hm hr hk hd hret hman hgen hun hkey⟩,
    fun hf hready => ⟨moduleWarm_requests h hp hf hready, fun hd hr => keyedWarm_requests h hp hf hready hd hr⟩,
    fun hf hpend => ⟨moduleWarm_takesOver h hf hpend, keyedWarm_absorbed h hf hpend, skeinReset_absorbed h hf hpend⟩,
    fun hf hw => skeinReset_resets h hf hw, fun hf ht hl => debugChallenge_draws h hf ht hl,
    fun chal ser mask sig cert hf => ⟨debugUnlock_refuses h hf,
      fun hc hser hcores k hk hsig => debugUnlock_unlocks h hp hf hc hser hcores hk hsig⟩,
    fun addr slots hf ha hn hlo hhi => dumpBufferSetup_sets h hf ha hn hlo hhi,
    fun addr log2 ha hn hlo hhi => ⟨logRingSetup_sets h ha hn hlo hhi, fun mask => traceRingSetup_sets h ha hn hlo hhi mask⟩,
    observationQuery_answers h⟩⟩
  intro nonce fn img key man doc gen ct parent kids chal ser mask sig cert addr slots log2 tm i hi hlive hpage hname hroom hidle
  have hgate : ∃ fam allowed run, exec i s = .next (s.vedihar q fam allowed run) := by
    obtain hi | hi := List.mem_append.1 hi
    · obtain ⟨fam, run, hrun⟩ := pfMessages_gated (q := q) (img := img) (gen := gen) (ct := ct) (chal := chal) (ser := ser) (mask := mask)
        (sig := sig) (cert := cert) hi s
      exact ⟨fam, _, run, hrun⟩
    · exact fnMessages_gated (nonce := nonce) (fn := fn) (key := key) (man := man) (doc := doc) (gen := gen) (ct := ct) (parent := parent)
        (kids := kids) (addr := addr) (slots := slots) (log2 := log2) (tm := tm) hi s
  obtain ⟨fam, allowed, run, hrun⟩ := hgate
  refine ⟨fun st d p hseq hcache => ?_, fun hseq hnext => ?_, fun hnext => ⟨fun hmajor => ?_, fun hmajor hf hpf => ?_⟩⟩
  · exact ⟨_, hrun.trans (congrArg _ (vedihar_again hlive hpage hname hidle fam allowed run hseq hcache)), answer_answers ..⟩
  · exact ⟨_, hrun.trans (congrArg _ (vedihar_astray hlive hpage hname hidle fam allowed run hseq hnext)), answer_answers ..⟩
  · exact ⟨_, hrun.trans (congrArg _ (vedihar_major hlive hpage hname hidle fam allowed run hnext hmajor)), respond_answered s hroom⟩
  · obtain ⟨fam, run, hrun⟩ := pfMessages_gated (q := q) (img := img) (gen := gen) (ct := ct) (chal := chal) (ser := ser) (mask := mask)
      (sig := sig) (cert := cert) hpf s
    exact ⟨_, hrun.trans (congrArg _ (vedihar_denied hlive hpage hname hidle fam _ run hnext hmajor (decide_eq_false hf))),
      respond_answered s hroom⟩

end Sys2Proof.Machine
end


section
/-!
PROOFS. Fields of set-up registers, and the writes that reach them (R342 to R345).
-/
namespace Sys2Proof.Machine

/-! ### Fields -/

section
variable (r : BitVec 128) {l n : Nat} (a : Nat)

theorem getLsbD_putField (i : Nat) : (putField r l n a).getLsbD i =
    if l ≤ i ∧ i < l + n then decide (i < 128) && a.testBit (i - l) else r.getLsbD i := by
  have hmask : (BitVec.ofNat 128 ((2 ^ n - 1) * 2 ^ l)).getLsbD i = (decide (i < 128) && (decide (l ≤ i) && decide (i - l < n))) := by
    rw [BitVec.getLsbD_ofNat, Nat.testBit_mul_two_pow, Nat.testBit_two_pow_sub_one]
  have hval : (BitVec.ofNat 128 (a % 2 ^ n * 2 ^ l)).getLsbD i =
      (decide (i < 128) && (decide (l ≤ i) && (decide (i - l < n) && a.testBit (i - l)))) := by
    rw [BitVec.getLsbD_ofNat, Nat.testBit_mul_two_pow, Nat.testBit_mod_two_pow]
  rw [putField, BitVec.getLsbD_or, BitVec.getLsbD_and, BitVec.getLsbD_not, hmask, hval]
  have hout : 128 ≤ i → r.getLsbD i = false := fun h => BitVec.getLsbD_of_ge r i h
  by_cases hi : i < 128
  · by_cases hl : l ≤ i
    · by_cases hn : i < l + n
      · have : i - l < n := by omega
        simp [hi, hl, hn, this]
      · have : ¬i - l < n := by omega
        simp [hi, hl, hn, this]
    · simp [hi, hl]
  · simp [hi, hout (by omega)]

omit a in
theorem fld_getLsbD {m : Nat} (w : BitVec m) (lo len i : Nat) : (fld w lo len).testBit i = (decide (i < len) && w.getLsbD (lo + i)) :=
  fld_testBit w lo len i

theorem fld_putField_same (h : l + n ≤ 128) : fld (putField r l n a) l n = a % 2 ^ n := by
  refine Nat.eq_of_testBit_eq fun i => ?_
  rw [fld_getLsbD, getLsbD_putField, Nat.testBit_mod_two_pow]
  by_cases hi : i < n
  · rw [if_pos (by omega), decide_eq_true hi, decide_eq_true (by omega : l + i < 128), Nat.add_sub_cancel_left]
    simp
  · simp [hi]

theorem fld_putField_other {l' n' : Nat} (h : l' + n' ≤ l ∨ l + n ≤ l') : fld (putField r l n a) l' n' = fld r l' n' := by
  refine Nat.eq_of_testBit_eq fun i => ?_
  rw [fld_getLsbD, fld_getLsbD, getLsbD_putField]
  by_cases hi : i < n'
  · rw [if_neg (by omega)]
  · simp [hi]

theorem bitAt_fld_one (i : Nat) : bitAt r i = (fld r i 1 == 1) := by
  have h := fld_getLsbD r i 1 0
  have hlt := fld_lt r i 1
  rw [bitAt]
  rcases hf : fld r i 1 with _ | _ | m
  · rw [hf] at h
    simpa using h.symm
  · rw [hf] at h
    simpa using h.symm
  · omega

end

/-! ### Writes of fields -/

/-- What a write to a set-up register changes: the registers, and with a log entry its function's log. -/
structure Wrote (s t : State) : Prop where
  rest : t = { s with setup := t.setup, fns := t.fns, out := t.out, obs := t.obs }
  fn : ∀ f, t.fn f = { s.fn f with
    clampLog := (t.fn f).clampLog, clampSeq := (t.fn f).clampSeq, log := (t.fn f).log, irqSent := (t.fn f).irqSent, irqHeld := (t.fn f).irqHeld }

theorem Wrote.refl (s : State) : Wrote s s := ⟨rfl, fun _ => rfl⟩

theorem Wrote.trans {s t u : State} (h : Wrote s t) (g : Wrote t u) : Wrote s u := by
  refine ⟨?_, fun f => ?_⟩
  · have h1 := g.rest
    rw [h.rest] at h1
    exact h1
  · have h1 := g.fn f
    rw [h.fn f] at h1
    exact h1

theorem logTo_wrote (s : State) (f : FnId) (ty cause : Byte) (b : List Byte) : Wrote s (s.logTo f ty cause b) ∧
    (s.logTo f ty cause b).setup = s.setup := by
  unfold State.logTo
  split
  · exact ⟨⟨rfl, fun _ => rfl⟩, rfl⟩
  · next r _ =>
    obtain ⟨u, hu⟩ : ∃ u, u = (s.updFn f.val fun u => { u with log := some { r with seq := r.seq + 1 } }).emit
      (.ringEntry f false (r.seq % 2 ^ r.log2) (ringEntryBytes ty cause r.seq s.clk.timebase b)) := ⟨_, rfl⟩
    have hfn : ∀ g, u.fn g = { s.fn g with log := (u.fn g).log } := by
      intro g
      rw [hu, State.fn_emit]
      by_cases hg : g = f.val
      · rw [hg, State.fn_updFn_same]
      · rw [State.fn_updFn_other _ _ hg]
    have hrest := (hostEnds_interrupt u f 1).rest
    rw [← hu]
    refine ⟨⟨?_, fun g => ?_⟩, ?_⟩
    · rw [hrest, hu]
      rfl
    · rw [fn_interrupt u f 1 g, hfn g]
    · rw [hrest, hu]
      rfl

theorem logField_wrote (s : State) (f : FnId) (offset lsb w a : Nat) (ignored : Bool) : Wrote s (s.logField f offset lsb w a ignored) ∧
    (s.logField f offset lsb w a ignored).setup = s.setup := by
  unfold State.logField
  dsimp only
  obtain ⟨h, hset⟩ := logTo_wrote (s.updFn f.val fun u => { u with
    clampLog := ((offset, lsb, ignored, BitVec.ofNat 32 w, BitVec.ofNat 32 a, (s.fn f.val).clampSeq) :: u.clampLog).take 64
    clampSeq := u.clampSeq + 1 }) f 0x02 (BitVec.ofNat 8 f.val) (clampBytes offset lsb f.val ignored (w % 2 ^ 32) (a % 2 ^ 32) (s.fn f.val).clampSeq.toNat)
  refine ⟨Wrote.trans ⟨rfl, fun g => ?_⟩ h, hset⟩
  by_cases hg : g = f.val
  · rw [hg, State.fn_updFn_same]
  · rw [State.fn_updFn_other _ _ hg]

theorem logRefused_wrote (s : State) (f : FnId) (addr : Nat) (kind : Byte) : Wrote s (s.logRefused f addr kind) ∧
    (s.logRefused f addr kind).setup = s.setup := logTo_wrote ..

theorem setReg_wrote (s : State) (f : FnId) (r : RegId) (v : BitVec 128) : Wrote s (s.setReg f r v) := ⟨rfl, fun _ => rfl⟩

theorem Wrote.fuses {s t : State} (h : Wrote s t) : t.fuses = s.fuses := by rw [h.rest]

@[simp] theorem reg_setReg_same (s : State) (f : FnId) (r : RegId) (v : BitVec 128) : (s.setReg f r v).reg f r = v :=
  AMap.get_set_same (regReset s.fuses r) s.setup (regKey f r) v

theorem reg_setReg_other (s : State) {f g : FnId} {r q : RegId} (h : regKey g q ≠ regKey f r) (v : BitVec 128) :
    (s.setReg f r v).reg g q = s.reg g q := by
  show AMap.get (regReset s.fuses q) (AMap.set (regReset s.fuses r) s.setup (regKey f r) v) (regKey g q) = _
  unfold AMap.set
  split
  · exact AMap.get_erase_other _ _ h
  · rw [AMap.get_ins_other _ _ _ h]
    exact AMap.get_erase_other _ _ h

theorem Wrote.reg {s t : State} (h : Wrote s t) (hset : t.setup = s.setup) (f : FnId) (r : RegId) : t.reg f r = s.reg f r := by
  rw [State.reg, hset, h.fuses, State.reg]

section
variable {s : State} {f g : FnId} {r : RegId} {v : BitVec 128} {refuse locked : Bool} {x : Field}

/-- A field that refuses a write stays. -/
theorem writeField_refused (h : (refuse || (x.rwl && locked)) = true) : Wrote s (s.writeField f g r v refuse locked x) ∧
    (s.writeField f g r v refuse locked x).setup = s.setup := by
  unfold State.writeField
  dsimp only
  rw [if_pos h]
  exact logField_wrote ..

theorem writeFields_refused {l : List Field} (h : ∀ x ∈ l, (refuse || (x.rwl && locked)) = true) (s : State) :
    Wrote s (s.writeFields f g r v refuse locked l) ∧ (s.writeFields f g r v refuse locked l).setup = s.setup := by
  unfold State.writeFields
  refine List.foldlRecOn (motive := fun u : State => Wrote s u ∧ u.setup = s.setup) _ _ ⟨.refl s, rfl⟩ fun u hu x hx => ?_
  obtain ⟨hw, hset⟩ := writeField_refused (s := u) (f := f) (g := g) (r := r) (v := v) (h x hx)
  exact ⟨hu.1.trans hw, hset.trans hu.2⟩

/-- The rule of a field, with the upper end that other registers give it. -/
def State.ruleOf (s : State) (g : FnId) (r : RegId) (x : Field) : FieldRule := match x.rule with
  | .range lo hi => .range lo (s.fieldTop g r x.lsb hi)
  | y => y

/-- Value that a field takes. -/
def State.fieldValue (s : State) (g : FnId) (r : RegId) (v : BitVec 128) (x : Field) : Nat :=
  ({ x with rule := s.ruleOf g r x } : Field).apply s.fuses.lowestCode.toNat (fld (s.reg g r) x.lsb x.len) (fld v x.lsb x.len)

/-- The state with the log entry of a clamped field. -/
def State.clampLogged (s : State) (f g : FnId) (r : RegId) (v : BitVec 128) (x : Field) : State :=
  if s.fieldValue g r v x = fld v x.lsb x.len then s
  else s.logField f (regOffset r) x.lsb (fld v x.lsb x.len) (s.fieldValue g r v x) false

theorem clampLogged_wrote (s : State) (f g : FnId) (r : RegId) (v : BitVec 128) (x : Field) : Wrote s (s.clampLogged f g r v x) ∧
    (s.clampLogged f g r v x).setup = s.setup := by
  unfold State.clampLogged
  split
  · exact ⟨.refl s, rfl⟩
  · exact logField_wrote ..

/-- A field that takes a write. -/
theorem writeField_takes (h : (refuse || (x.rwl && locked)) = false) : s.writeField f g r v refuse locked x =
    (s.clampLogged f g r v x).setReg g r (putField (s.reg g r) x.lsb x.len (s.fieldValue g r v x)) := by
  have hreg : (s.clampLogged f g r v x).reg g r = s.reg g r := by
    obtain ⟨hw, hset⟩ := clampLogged_wrote s f g r v x
    exact hw.reg hset g r
  have hrun : s.writeField f g r v refuse locked x =
      (s.clampLogged f g r v x).setReg g r (putField ((s.clampLogged f g r v x).reg g r) x.lsb x.len (s.fieldValue g r v x)) := by
    unfold State.writeField
    dsimp only
    rw [if_neg (by rw [h]; exact Bool.false_ne_true)]
    obtain ⟨lsb, len, rule, rwl⟩ := x
    cases rule <;> rfl
  rw [hrun, hreg]

/-- A field takes the value that it is given, without a log entry. -/
theorem writeField_fits (h : (refuse || (x.rwl && locked)) = false) {lo hi : Nat} (hx : x.rule = .range lo hi) (hlo : lo ≤ fld v x.lsb x.len)
    (hhi : fld v x.lsb x.len ≤ s.fieldTop g r x.lsb hi) :
    s.writeField f g r v refuse locked x = s.setReg g r (putField (s.reg g r) x.lsb x.len (fld v x.lsb x.len)) := by
  have hvalue : s.fieldValue g r v x = fld v x.lsb x.len := by
    unfold State.fieldValue State.ruleOf
    rw [hx]
    exact (congrArg (max lo) (Nat.min_eq_right hhi)).trans (Nat.max_eq_right hlo)
  rw [writeField_takes h, State.clampLogged, if_pos hvalue, hvalue]

end

end Sys2Proof.Machine
end


section
/-!
PROOFS. Writes to SET_LOCK, SET_PART and SET_FUNC (R342 to R345).
-/
namespace Sys2Proof.Machine

/-! ### Writes that every field takes as given -/

/-- Every field of a write takes its value as given. -/
def State.fitsAll (s : State) (g : FnId) (r : RegId) (v : BitVec 128) : List Field → Prop
  | [] => True
  | x :: l => (match x.rule with
      | .range lo hi => lo ≤ fld v x.lsb x.len ∧ fld v x.lsb x.len ≤ s.fieldTop g r x.lsb hi
      | _ => False) ∧ (s.setReg g r (putField (s.reg g r) x.lsb x.len (fld v x.lsb x.len))).fitsAll g r v l

/-- The state after such a write. -/
def State.putAll (s : State) (g : FnId) (r : RegId) (v : BitVec 128) (l : List Field) : State :=
  l.foldl (fun s x => s.setReg g r (putField (s.reg g r) x.lsb x.len (fld v x.lsb x.len))) s

theorem writeFields_fits {f g : FnId} {r : RegId} {v : BitVec 128} {refuse locked : Bool} {l : List Field}
    (h : ∀ x ∈ l, (refuse || (x.rwl && locked)) = false) {s : State} (hfit : s.fitsAll g r v l) :
    s.writeFields f g r v refuse locked l = s.putAll g r v l := by
  induction l generalizing s with
  | nil => rfl
  | cons x l ih =>
    obtain ⟨hx, hrest⟩ := hfit
    have hstep : s.writeField f g r v refuse locked x = s.setReg g r (putField (s.reg g r) x.lsb x.len (fld v x.lsb x.len)) := by
      split at hx
      · next lo hi hrule => exact writeField_fits (h x List.mem_cons_self) hrule hx.1 hx.2
      · exact hx.elim
    have hrun := ih (fun y hy => h y (List.mem_cons_of_mem _ hy)) hrest
    unfold State.writeFields State.putAll at hrun ⊢
    rw [List.foldl_cons, List.foldl_cons, hstep, hrun]

/-- Only one register has changed. -/
structure OnlyReg (s t : State) (g : FnId) (r : RegId) : Prop where
  wrote : Wrote s t
  other : ∀ h q, regKey h q ≠ regKey g r → t.reg h q = s.reg h q

theorem OnlyReg.refl (s : State) (g : FnId) (r : RegId) : OnlyReg s s g r := ⟨.refl s, fun _ _ _ => rfl⟩

theorem OnlyReg.trans {s t u : State} {g : FnId} {r : RegId} (h : OnlyReg s t g r) (k : OnlyReg t u g r) : OnlyReg s u g r :=
  ⟨h.wrote.trans k.wrote, fun f q hk => (k.other f q hk).trans (h.other f q hk)⟩

theorem OnlyReg.of_setup {s t : State} {g : FnId} {r : RegId} (h : Wrote s t) (hset : t.setup = s.setup) : OnlyReg s t g r :=
  ⟨h, fun f q _ => h.reg hset f q⟩

theorem onlyReg_setReg (s : State) (g : FnId) (r : RegId) (v : BitVec 128) : OnlyReg s (s.setReg g r v) g r :=
  ⟨setReg_wrote s g r v, fun _ _ hk => reg_setReg_other s hk v⟩

theorem onlyReg_putAll (s : State) (g : FnId) (r : RegId) (v : BitVec 128) (l : List Field) : OnlyReg s (s.putAll g r v l) g r :=
  List.foldlRecOn (motive := fun u : State => OnlyReg s u g r) _ _ (.refl s g r) fun _ hu _ _ => hu.trans (onlyReg_setReg ..)

theorem forceOff_forces (s : State) (f : FnId) (r : RegId) (lsb : Nat) : OnlyReg s (s.forceOff f r lsb) 0 r ∧
    (s.forceOff f r lsb).reg 0 r = putField (s.reg 0 r) lsb 1 0 := by
  obtain ⟨hw, hset⟩ := logField_wrote (s.setReg 0 r (putField (s.reg 0 r) lsb 1 0)) f (regOffset r) lsb 1 0 false
  refine ⟨(onlyReg_setReg ..).trans (.of_setup hw hset), ?_⟩
  exact (hw.reg hset 0 r).trans (reg_setReg_same ..)

theorem OnlyReg.fn_exe {s t : State} {g : FnId} {r : RegId} (h : OnlyReg s t g r) (f : Nat) : (t.fn f).exe = (s.fn f).exe := by
  rw [h.wrote.fn f]

/-! ### SET_LOCK -/

section
variable {s : State} (hup : s.up = true)
include hup

theorem live_pf : s.live pfn = true := by
  rw [State.live, hup, Bool.true_and]
  exact decide_eq_true (Nat.zero_le _)

theorem setLockWrite_locks : ∃ t, exec (.setLockWrite pfn true) s = .next t ∧ t.lock = true := by
  have hrun : exec (.setLockWrite pfn true) s = .next (s.setReg 0 .setLock 1) := by
    show execSetLockWrite pfn true s = _
    unfold execSetLockWrite State.writeLock
    rw [live_pf hup] <;> rfl
  refine ⟨_, hrun, ?_⟩
  rw [State.lock, State.pf, reg_setReg_same]
  rfl

theorem setLockWrite_stays (hl : s.lock = true) : ∃ t, exec (.setLockWrite pfn false) s = .next t ∧ t.lock = true := by
  have hrun : exec (.setLockWrite pfn false) s = .next (s.logField pfn (regOffset .setLock) 0 0 1 true) := by
    show execSetLockWrite pfn false s = _
    unfold execSetLockWrite State.writeLock
    rw [live_pf hup, hl] <;> rfl
  obtain ⟨hw, hset⟩ := logField_wrote s pfn (regOffset .setLock) 0 0 1 true
  refine ⟨_, hrun, ?_⟩
  rw [State.lock, State.pf, hw.reg hset]
  exact hl

end

/-! ### SET_PART -/

section
variable {s : State} {p : PartId} {v : W32}

theorem regKey_part {p o : PartId} (h : o ≠ p) : regKey 0 (.setPart o) ≠ regKey 0 (.setPart p) := by
  have hval : o.val ≠ p.val := fun he => h (Fin.ext he)
  simp only [regKey, regPerFunction, regOffset]
  omega

theorem fitsAll_part (v : BitVec 128) (hcol : fld v 0 2 + fld v 2 2 ≤ 3) (hrow : fld v 4 2 + fld v 6 2 ≤ 2) :
    s.fitsAll 0 (.setPart p) v (regFields s.fuses (.setPart p)) := by
  have h0 := fld_lt v 0 2
  have h2 := fld_lt v 2 2
  have h4 := fld_lt v 4 2
  have h6 := fld_lt v 6 2
  have h8 := fld_lt v 8 1
  simp [State.fitsAll, regFields, Field.locked, State.fieldTop, fld_putField_same]
  omega

theorem part_putAll (v : BitVec 128) : (s.putAll 0 (.setPart p) v (regFields s.fuses (.setPart p))).part p = Part.of v := by
  have h0 := fld_lt v 0 2
  have h2 := fld_lt v 2 2
  have h4 := fld_lt v 4 2
  have h6 := fld_lt v 6 2
  have h8 := fld_lt v 8 1
  simp [State.part, State.putAll, regFields, Field.locked, Part.of, bitAt_fld_one, fld_putField_same, fld_putField_other]
  omega

theorem OnlyReg.overlapped {t : State} (h : OnlyReg s t 0 (.setPart p)) (w : Part) : t.overlapped p w = s.overlapped p w := by
  unfold State.overlapped
  refine List.filter_congr fun o _ => ?_
  by_cases ho : o = p
  · rw [ho, bne_self_eq_false, Bool.false_and, Bool.false_and, Bool.false_and, Bool.false_and]
  · rw [State.part, h.other 0 _ (regKey_part ho), State.part]

theorem overlapped_nonempty {w : Part} : (!(s.overlapped p w).isEmpty) = true ↔ s.overlapped p w ≠ [] := by
  cases s.overlapped p w <;> simp

theorem setPartWrite_runs (hup : s.up = true) (p : PartId) (v : W32) : exec (.setPartWrite pfn p v) s = .next (s.writePart pfn p v) := by
  show execSetPartWrite pfn p v s = _
  unfold execSetPartWrite
  rw [live_pf hup] <;> rfl

/-- A write to SET_PART forces an enabled partition off where it must not be on (R344). -/
theorem writePart_eq (hexe : ∀ f : FnId, (s.fn f.val).exe = none) : s.writePart pfn p v =
    let u := s.writeFields pfn 0 (.setPart p) (v.setWidth 128) false s.lock (regFields s.fuses (.setPart p))
    if (u.part p).enable && (!(u.overlapped p (u.part p)).isEmpty || u.diesOut.any fun d => (u.part p).hasDie d) then
      u.forceOff pfn (.setPart p) 8 else u := by
  have hloaded : ∀ hit : List PartId, (allFns.any fun g => (s.fn g.val).exe.isSome && hit.any fun o => o.val == (s.func g).part) = false :=
    fun hit => List.any_eq_false.2 fun g _ => by simp [hexe g]
  unfold State.writePart
  dsimp only
  rw [hloaded]

theorem part_forceOff (u : State) : (u.forceOff pfn (.setPart p) 8).part p = { u.part p with enable := false } := by
  rw [State.part, (forceOff_forces ..).2]
  simp [State.part, Part.of, bitAt_fld_one, fld_putField_same, fld_putField_other]

theorem setPartWrite_writes (hup : s.up = true) (hexe : ∀ f : FnId, (s.fn f.val).exe = none) (hl : s.lock = false)
    (hcol : (Part.of (v.setWidth 128)).col + (Part.of (v.setWidth 128)).ncols ≤ 3)
    (hrow : (Part.of (v.setWidth 128)).row + (Part.of (v.setWidth 128)).nrows ≤ 2) :
    let w := Part.of (v.setWidth 128)
    ∃ t, exec (.setPartWrite pfn p v) s = .next t ∧
      ((w.enable = true → s.overlapped p w = [] ∧ ∀ d ∈ s.diesOut, w.hasDie d.val = false) → t.part p = w) ∧
      (w.enable = true → (s.overlapped p w ≠ [] ∨ ∃ d ∈ s.diesOut, w.hasDie d.val = true) → t.part p = { w with enable := false }) := by
  intro w
  obtain ⟨u, hu⟩ : ∃ u, u = s.putAll 0 (.setPart p) (v.setWidth 128) (regFields s.fuses (.setPart p)) := ⟨_, rfl⟩
  have hput : s.writeFields pfn 0 (.setPart p) (v.setWidth 128) false s.lock (regFields s.fuses (.setPart p)) = u := by
    rw [hu, hl]
    exact writeFields_fits (fun x _ => by rw [Bool.and_false, Bool.or_false]) (fitsAll_part _ hcol hrow)
  have hpart : u.part p = w := by
    rw [hu]
    exact part_putAll _
  have honly : OnlyReg s u 0 (.setPart p) := by
    rw [hu]
    exact onlyReg_putAll ..
  have hdies : u.diesOut = s.diesOut := by rw [honly.wrote.rest]
  have hrun := setPartWrite_runs hup p v
  rw [writePart_eq hexe] at hrun
  dsimp only at hrun
  rw [hput, hpart, honly.overlapped, hdies] at hrun
  refine ⟨_, hrun, fun hfree => ?_, fun hon hclash => ?_⟩
  · rw [if_neg]
    · exact hpart
    · rw [Bool.and_eq_true, Bool.or_eq_true, overlapped_nonempty, List.any_eq_true]
      rintro ⟨hon, hno | ⟨d, hd, hdie⟩⟩
      · exact hno (hfree hon).1
      · exact absurd hdie (by rw [(hfree hon).2 d hd]; exact Bool.false_ne_true)
  · rw [if_pos]
    · rw [part_forceOff, hpart]
    · rw [Bool.and_eq_true, Bool.or_eq_true, overlapped_nonempty, List.any_eq_true]
      exact ⟨hon, hclash⟩

theorem setPartWrite_locked (hup : s.up = true) (hexe : ∀ f : FnId, (s.fn f.val).exe = none) (hl : s.lock = true)
    (hoff : (s.part p).enable = false) : ∃ t, exec (.setPartWrite pfn p v) s = .next t ∧ t.part p = s.part p := by
  have hrun := setPartWrite_runs hup p v
  rw [writePart_eq hexe] at hrun
  obtain ⟨hw, hset⟩ := writeFields_refused (f := pfn) (g := 0) (r := .setPart p) (v := v.setWidth 128) (refuse := false) (locked := s.lock)
    (l := regFields s.fuses (.setPart p)) (fun x hx => by
      simp only [regFields, Field.locked, List.mem_cons, List.not_mem_nil, or_false] at hx
      obtain rfl | rfl | rfl | rfl | rfl := hx <;> simp [hl]) s
  dsimp only at hrun
  generalize s.writeFields pfn 0 (.setPart p) (v.setWidth 128) false s.lock (regFields s.fuses (.setPart p)) = u at *
  have hpart : u.part p = s.part p := by rw [State.part, hw.reg hset, State.part]
  rw [hpart, hoff, Bool.false_and, if_neg Bool.false_ne_true] at hrun
  exact ⟨u, hrun, hpart⟩

end

/-! ### SET_FUNC -/

section
variable {s : State} {f : FnId} {v : W64}

theorem fld_setWidth (w : W64) {l n : Nat} : fld (w.setWidth 128) l n = fld w l n := by
  rw [fld, fld, BitVec.toNat_setWidth_of_le (by decide)]

theorem regKey_func {f g : FnId} (h : g ≠ f) : regKey 0 (.setFunc g) ≠ regKey 0 (.setFunc f) := by
  have hval : g.val ≠ f.val := fun he => h (Fin.ext he)
  simp only [regKey, regPerFunction, regOffset]
  omega

theorem regKey_part_func (p : PartId) (f : FnId) : regKey 0 (.setPart p) ≠ regKey 0 (.setFunc f) := by
  have hp := p.isLt
  simp only [regKey, regPerFunction, regOffset]
  omega

/-- Every field of SET_FUNC is in its range (R345). -/
def FuncFits (v : BitVec 128) : Prop := fld v 0 4 ≤ 11 ∧ fld v 8 6 ≤ 47 ∧ 1 ≤ fld v 14 6 ∧ fld v 8 6 + fld v 14 6 ≤ 48 ∧ fld v 20 6 ≤ 31 ∧
  1 ≤ fld v 26 6 ∧ fld v 20 6 + fld v 26 6 ≤ 32 ∧ fld v 32 4 ≤ 11 ∧ 1 ≤ fld v 36 4 ∧ fld v 32 4 + fld v 36 4 ≤ 12

theorem fitsAll_func {v : BitVec 128} (h : FuncFits v) : s.fitsAll 0 (.setFunc f) v (regFields s.fuses (.setFunc f)) := by
  obtain ⟨h1, h2, h3, h4, h5, h6, h7, h8, h9, h10⟩ := h
  have hb := fld_lt v 4 1
  have e1 := fld_lt v 8 6
  have e2 := fld_lt v 20 6
  have e3 := fld_lt v 32 4
  simp [State.fitsAll, regFields, Field.locked, State.fieldTop, fld_putField_same]
  omega

theorem func_putAll (v : BitVec 128) : (s.putAll 0 (.setFunc f) v (regFields s.fuses (.setFunc f))).func f = FuncCfg.of v := by
  have h0 := fld_lt v 0 4
  have h1 := fld_lt v 4 1
  have h2 := fld_lt v 8 6
  have h3 := fld_lt v 14 6
  have h4 := fld_lt v 20 6
  have h5 := fld_lt v 26 6
  have h6 := fld_lt v 32 4
  have h7 := fld_lt v 36 4
  simp [State.func, State.putAll, regFields, Field.locked, FuncCfg.of, bitAt_fld_one, fld_putField_same, fld_putField_other]
  omega

theorem func_forceOff (u : State) : (u.forceOff pfn (.setFunc f) 4).func f = { u.func f with enable := false } := by
  rw [State.func, (forceOff_forces ..).2]
  simp [State.func, FuncCfg.of, bitAt_fld_one, fld_putField_same, fld_putField_other]

theorem setFuncWrite_runs (hup : s.up = true) (f : FnId) (v : W64) : exec (.setFuncWrite pfn f v) s = .next (s.writeFunc pfn f v) := by
  show execSetFuncWrite pfn f v s = _
  unfold execSetFuncWrite
  rw [live_pf hup] <;> rfl

/-- The regions of a function meet those of another one of its partition (R345). -/
def State.regionClash (s : State) (f : FnId) (w : FuncCfg) : Bool :=
  allFns.any fun g => g != f && (s.func g).enable && (s.func g).part == w.part && (s.func g).meets w

theorem OnlyReg.regionClash {t : State} (h : OnlyReg s t 0 (.setFunc f)) (w : FuncCfg) : t.regionClash f w = s.regionClash f w := by
  have hfun : ∀ g : FnId, (g != f && (t.func g).enable && (t.func g).part == w.part && (t.func g).meets w) =
      (g != f && (s.func g).enable && (s.func g).part == w.part && (s.func g).meets w) := by
    intro g
    by_cases hg : g = f
    · rw [hg, bne_self_eq_false, Bool.false_and, Bool.false_and, Bool.false_and, Bool.false_and, Bool.false_and, Bool.false_and]
    · rw [State.func, h.other 0 _ (regKey_func hg), State.func]
  unfold State.regionClash
  exact congrArg (List.any allFns) (funext hfun)

/-- A write to SET_FUNC forces an enabled function off where it must not be on (R345). -/
theorem writeFunc_eq (hexe : (s.fn f.val).exe = none) (hret : (s.fn f.val).retained = false) : s.writeFunc pfn f v =
    let u := s.writeFields pfn 0 (.setFunc f) (v.setWidth 128) false s.lock (regFields s.fuses (.setFunc f))
    if (u.func f).enable && (!(u.partOf f).enable || u.regionClash f (u.func f)) then u.forceOff pfn (.setFunc f) 4 else u := by
  have hwrote : ∀ (refuse locked : Bool) (l : List Field) (u : State), Wrote u (u.writeFields pfn 0 (.setFunc f) (v.setWidth 128) refuse locked l) := by
    intro refuse locked l u
    unfold State.writeFields
    refine List.foldlRecOn (motive := fun w : State => Wrote u w) _ _ (.refl u) fun w hw x _ => hw.trans ?_
    cases hx : (refuse || (x.rwl && locked)) with
    | true => exact (writeField_refused hx).1
    | false =>
      rw [writeField_takes hx]
      exact (clampLogged_wrote ..).1.trans (setReg_wrote ..)
  obtain ⟨u, hu⟩ : ∃ u, u = s.writeFields pfn 0 (.setFunc f) (v.setWidth 128) false s.lock (regFields s.fuses (.setFunc f)) := ⟨_, rfl⟩
  have hur : (u.fn f.val).retained = false := by
    rw [hu, (hwrote ..).fn]
    exact hret
  have hnone : ((s.fn f.val).exe.isSome) = false := by rw [hexe]; rfl
  unfold State.writeFunc
  dsimp only
  rw [hnone, ← hu]
  obtain ⟨w, hw⟩ : ∃ w, w = if (u.func f).enable && (!(u.partOf f).enable || u.regionClash f (u.func f)) then u.forceOff pfn (.setFunc f) 4 else u := ⟨_, rfl⟩
  have hwr : (w.fn f.val).retained = false := by
    rw [hw]
    split
    · rw [(forceOff_forces ..).1.wrote.fn]
      exact hur
    · exact hur
  have hrun : (if (u.func f).enable && (!(u.partOf f).enable || (allFns.any fun g => g != f && (u.func g).enable && (u.func g).part == (u.func f).part &&
      (u.func g).meets (u.func f))) then u.forceOff pfn (.setFunc f) 4 else u) = w := hw.symm
  rw [← hw, hrun, hwr, Bool.false_and, if_neg Bool.false_ne_true]

theorem setFuncWrite_locked (hup : s.up = true) (hexe : (s.fn f.val).exe = none) (hret : (s.fn f.val).retained = false) (hl : s.lock = true)
    (hoff : (s.func f).enable = false) : ∃ t, exec (.setFuncWrite pfn f v) s = .next t ∧ t.func f = s.func f := by
  have hrun := setFuncWrite_runs hup f v
  rw [writeFunc_eq hexe hret] at hrun
  obtain ⟨hw, hset⟩ := writeFields_refused (f := pfn) (g := 0) (r := .setFunc f) (v := v.setWidth 128) (refuse := false) (locked := s.lock)
    (l := regFields s.fuses (.setFunc f)) (fun x hx => by
      simp only [regFields, Field.locked, List.mem_cons, List.not_mem_nil, or_false] at hx
      obtain rfl | rfl | rfl | rfl | rfl | rfl | rfl | rfl := hx <;> simp [hl]) s
  dsimp only at hrun
  generalize s.writeFields pfn 0 (.setFunc f) (v.setWidth 128) false s.lock (regFields s.fuses (.setFunc f)) = u at *
  have hfunc : u.func f = s.func f := by rw [State.func, hw.reg hset, State.func]
  rw [hfunc, hoff, Bool.false_and, if_neg Bool.false_ne_true] at hrun
  exact ⟨u, hrun, hfunc⟩

theorem setFuncWrite_writes (hup : s.up = true) (hexe : (s.fn f.val).exe = none) (hret : (s.fn f.val).retained = false) (hl : s.lock = false)
    (hfit : FuncFits (v.setWidth 128)) :
    let w := FuncCfg.of (v.setWidth 128)
    let free := (s.part (Fin.ofNat 12 w.part)).enable = true ∧
      ∀ g : FnId, g ≠ f → (s.func g).enable = true → (s.func g).part = w.part → (s.func g).meets w = false
    ∃ t, exec (.setFuncWrite pfn f v) s = .next t ∧ (w.enable = false ∨ free → t.func f = w) ∧
      (w.enable = true → ¬free → t.func f = { w with enable := false }) := by
  intro w free
  obtain ⟨u, hu⟩ : ∃ u, u = s.putAll 0 (.setFunc f) (v.setWidth 128) (regFields s.fuses (.setFunc f)) := ⟨_, rfl⟩
  have hput : s.writeFields pfn 0 (.setFunc f) (v.setWidth 128) false s.lock (regFields s.fuses (.setFunc f)) = u := by
    rw [hu, hl]
    exact writeFields_fits (fun x _ => by rw [Bool.and_false, Bool.or_false]) (fitsAll_func hfit)
  have hfunc : u.func f = w := by
    rw [hu]
    exact func_putAll _
  have honly : OnlyReg s u 0 (.setFunc f) := by
    rw [hu]
    exact onlyReg_putAll ..
  have hpart : u.partOf f = s.part (Fin.ofNat 12 w.part) := by
    rw [State.partOf, hfunc, State.part, honly.other 0 _ (regKey_part_func _ _), State.part]
  have hclash : s.regionClash f w = true ↔
      ¬∀ g : FnId, g ≠ f → (s.func g).enable = true → (s.func g).part = w.part → (s.func g).meets w = false := by
    unfold State.regionClash
    rw [List.any_eq_true]
    constructor
    · rintro ⟨g, -, hg⟩ hall
      simp only [Bool.and_eq_true, bne_iff_ne, beq_iff_eq] at hg
      obtain ⟨⟨⟨hne, hon⟩, hsame⟩, hmeet⟩ := hg
      rw [hall g hne hon hsame] at hmeet
      exact nomatch hmeet
    · intro hnot
      by_contra hnone
      refine hnot fun g hne hon hsame => ?_
      by_contra hmeet
      refine hnone ⟨g, mem_allFns g, ?_⟩
      simp only [Bool.and_eq_true, bne_iff_ne, beq_iff_eq]
      exact ⟨⟨⟨hne, hon⟩, hsame⟩, (Bool.not_eq_false _).mp hmeet⟩
  have hrun := setFuncWrite_runs hup f v
  rw [writeFunc_eq hexe hret] at hrun
  dsimp only at hrun
  rw [hput, hfunc, hpart, honly.regionClash] at hrun
  have hcond : (w.enable && (!(s.part (Fin.ofNat 12 w.part)).enable || s.regionClash f w)) = true ↔ w.enable = true ∧ ¬free := by
    rw [Bool.and_eq_true, Bool.or_eq_true, hclash, Bool.not_eq_true', not_and_or, Bool.not_eq_true]
  refine ⟨_, hrun, fun h => ?_, fun hon hnot => ?_⟩
  · rw [if_neg]
    · exact hfunc
    · rw [hcond]
      rintro ⟨hon, hnot⟩
      obtain hoff | hfree := h
      · rw [hon] at hoff
        exact nomatch hoff
      · exact hnot hfree
  · rw [if_pos (hcond.2 ⟨hon, hnot⟩), func_forceOff, hfunc]

end

end Sys2Proof.Machine
end


section
/-!
PROOFS. Register requests: plain fields, shares, cores, dies and ports, flags, latched reads and dumps (R241, R242, R251, R273, R275, R277,
R342, R347, R386, R434, R439).
-/
namespace Sys2Proof.Machine

section
variable {s : State}

/-! ### Plain registers -/

section
variable {f : FnId} (hlive : s.live f = true)
include hlive

theorem registerWrite_runs (r : RegId) (v : BitVec 128) : exec (.registerWrite f r v) s = .next (s.writeReg f r v) := by
  show execRegisterWrite f r v s = _
  unfold execRegisterWrite
  rw [hlive, if_pos rfl]

theorem writeScrub_clamps (hf : f = pfn) (hl : s.lock = false) (v : BitVec 128) : ∃ t, exec (.registerWrite f .chkScrub v) s = .next t ∧
    t.pf .chkScrub 0 13 = max 250 (min 4000 (fld v 0 13)) := by
  subst hf
  have hrun : s.writeReg pfn .chkScrub v = s.writeField pfn pfn .chkScrub v false false (.locked 0 13 250 4000) := by
    show s.writeField pfn pfn .chkScrub v false s.lock (.locked 0 13 250 4000) = _
    rw [hl]
  refine ⟨_, registerWrite_runs hlive .chkScrub v, ?_⟩
  rw [hrun, writeField_takes rfl, State.pf]
  refine (congrArg (fld · 0 13) (reg_setReg_same ..)).trans ((fld_putField_same _ _ (by decide)).trans ?_)
  show max 250 (min 4000 (fld v 0 13)) % 2 ^ 13 = _
  omega

theorem writeScrub_locked (hf : f = pfn) (hl : s.lock = true) (v : BitVec 128) : ∃ t, exec (.registerWrite f .chkScrub v) s = .next t ∧
    t.setup = s.setup := by
  subst hf
  refine ⟨_, registerWrite_runs hlive .chkScrub v, ?_⟩
  show (s.writeField pfn pfn .chkScrub v false s.lock (.locked 0 13 250 4000)).setup = _
  rw [hl]
  exact (writeField_refused rfl).2

theorem writeScrub_other (hf : f ≠ pfn) (v : BitVec 128) : exec (.registerWrite f .chkScrub v) s = .next s :=
  (registerWrite_runs hlive .chkScrub v).trans (congrArg Host.Outcome.next (if_pos ⟨hf, rfl⟩))

omit hlive in
theorem clampPeriod_le (lowest w : Nat) : clampPeriod lowest w ≤ 20 := by
  unfold clampPeriod
  cases h : periodCodes.find? fun c => decide (max lowest w ≤ c) with
  | none => exact Nat.le_refl 20
  | some c =>
    have hmem := List.mem_of_find?_eq_some h
    have hall : ∀ c ∈ periodCodes, c ≤ 20 := by decide
    exact hall c hmem

theorem writeStepReq_clamps (hf : f = pfn) (v : BitVec 128) : ∃ t, exec (.registerWrite f .clkStepReq v) s = .next t ∧
    t.pf .clkStepReq 0 5 = ((periodCodes.find? fun c => decide (max s.fuses.lowestCode.toNat (fld v 0 5) ≤ c)).getD 20) := by
  subst hf
  obtain ⟨x, hx⟩ : ∃ x : Field, x = { lsb := 0, len := 5, rule := .period, rwl := false } := ⟨_, rfl⟩
  obtain ⟨u, hu⟩ : ∃ u, u = s.writeField pfn pfn .clkStepReq v false s.lock x := ⟨_, rfl⟩
  have hrun : s.writeReg pfn .clkStepReq v = u.writeField pfn pfn .clkStepReq v false s.lock (.any 5 1) := by
    rw [hu, hx]
    rfl
  have htakes := writeField_takes (s := s) (f := pfn) (g := pfn) (r := .clkStepReq) (v := v) (refuse := false) (locked := s.lock) (x := x)
    (by rw [hx]; rfl)
  have hvalue : s.fieldValue pfn .clkStepReq v x = clampPeriod s.fuses.lowestCode.toNat (fld v 0 5) := by
    rw [hx]
    rfl
  have hle := clampPeriod_le s.fuses.lowestCode.toNat (fld v 0 5)
  refine ⟨_, registerWrite_runs hlive .clkStepReq v, ?_⟩
  rw [hrun, writeField_takes rfl, State.pf]
  refine (congrArg (fld · 0 5) (reg_setReg_same ..)).trans ((fld_putField_other _ _ (by decide)).trans ?_)
  rw [hu, htakes, reg_setReg_same, hvalue, hx]
  refine (fld_putField_same _ _ (by decide)).trans (Nat.mod_eq_of_lt ?_)
  exact Nat.lt_of_le_of_lt hle (by decide)

theorem writeModuleId_refused (hf : f = pfn) (hk : s.skein.state ≠ .none) (v : BitVec 128) : ∃ t, exec (.registerWrite f .fabModuleId v) s = .next t ∧
    t.setup = s.setup := by
  subst hf
  have hrun : s.writeReg pfn .fabModuleId v = s.logRefused pfn (regOffset .fabModuleId) 1 := by
    unfold State.writeReg
    have hmember : (skeinRegister .fabModuleId && s.skein.state != .none) = true := by
      rw [bne_iff_ne.2 hk]
      rfl
    rw [if_neg (fun h => h.1 rfl), if_pos hmember]
  refine ⟨_, registerWrite_runs hlive .fabModuleId v, ?_⟩
  rw [hrun]
  exact (logRefused_wrote ..).2

theorem writeModuleId_sets (hf : f = pfn) (hk : s.skein.state = .none) (v : BitVec 128) : ∃ t, exec (.registerWrite f .fabModuleId v) s = .next t ∧
    t.moduleId = BitVec.ofNat 12 (fld v 0 12) := by
  subst hf
  have hrun : s.writeReg pfn .fabModuleId v = s.writeField pfn pfn .fabModuleId v false s.lock (.any 0 12) := by
    unfold State.writeReg
    rw [if_neg (fun h => h.1 rfl), hk]
    rfl
  have hlt := fld_lt v 0 12
  refine ⟨_, registerWrite_runs hlive .fabModuleId v, ?_⟩
  rw [hrun, writeField_fits (lo := 0) (hi := 4095) rfl rfl (Nat.zero_le _) (Nat.le_of_lt_succ hlt), State.moduleId, State.pf]
  have hfld : fld ((s.setReg pfn .fabModuleId (putField (s.reg pfn .fabModuleId) 0 12 (fld v 0 12))).reg 0 .fabModuleId) 0 12 = fld v 0 12 :=
    (congrArg (fld · 0 12) (reg_setReg_same ..)).trans ((fld_putField_same _ _ (by decide)).trans (Nat.mod_eq_of_lt hlt))
  exact congrArg (BitVec.ofNat 12) hfld

end

section
variable (hup : s.up = true)
include hup

/-! ### Shares -/

omit hup in
/-- The written shares of a function take effect. -/
def State.applyQos (s : State) (f : FnId) : State := s.updFn f.val fun u => { u with qos := (s.reg 0 (.setQos f)).setWidth 64 }

theorem setQosApply_applies {p : PartId} (hidle : ∀ kp ∈ s.allPasses, passBusy kp.2.state = true → (s.func kp.2.fn).part ≠ p.val) :
    ∃ t, exec (.setQosApply p) s = .next t ∧
      ∀ f : FnId, (s.func f).part = p.val → (t.fn f.val).qos = (s.reg 0 (.setQos f)).setWidth 64 := by
  obtain ⟨mine, hmine⟩ : ∃ mine, mine = allFns.filter fun f => (s.func f).part == p.val := ⟨_, rfl⟩
  have hin : ∀ f, f ∈ mine ↔ (s.func f).part = p.val := fun f => by
    rw [hmine, List.mem_filter, beq_iff_eq]
    exact ⟨And.right, fun h => ⟨mem_allFns f, h⟩⟩
  have hnone : (s.allPasses.any fun kp => passBusy kp.2.state && mine.contains kp.2.fn) = false :=
    List.any_eq_false.2 fun kp hkp => by
      rw [Bool.and_eq_true, List.contains_iff_mem, hin]
      exact fun h => hidle kp hkp h.1 h.2
  have hrun : exec (.setQosApply p) s = .next
      (mine.foldl State.applyQos s) := by
    show execSetQosApply p s = _
    unfold execSetQosApply
    dsimp only
    rw [← hmine, hup, hnone, Bool.not_true, Bool.or_self, if_neg Bool.false_ne_true]
    rfl
  refine ⟨_, hrun, fun f hf => ?_⟩
  have hmem := (hin f).2 hf
  obtain ⟨l1, l2, hl⟩ := List.append_of_mem hmem
  have hset : ∀ (l : List FnId) (u : State), u.setup = s.setup → u.fuses = s.fuses →
      (l.foldl State.applyQos u).setup = s.setup ∧
      (l.foldl State.applyQos u).fuses = s.fuses := by
    intro l u h1 h2
    exact List.foldlRecOn (motive := fun v : State => v.setup = s.setup ∧ v.fuses = s.fuses) l _ ⟨h1, h2⟩ fun v hv _ _ => hv
  have hreg : ∀ u : State, u.setup = s.setup ∧ u.fuses = s.fuses → ∀ g : FnId, u.reg 0 (.setQos g) = s.reg 0 (.setQos g) := by
    intro u hu g
    rw [State.reg, hu.1, hu.2, State.reg]
  rw [hl, List.foldl_append, List.foldl_cons]
  have h1 := hset l1 s rfl rfl
  generalize l1.foldl State.applyQos s = u at *
  have hkeep : ∀ (l : List FnId) (v : State), v.setup = s.setup ∧ v.fuses = s.fuses → (v.fn f.val).qos = (s.reg 0 (.setQos f)).setWidth 64 →
      ((l.foldl State.applyQos v).fn f.val).qos =
        (s.reg 0 (.setQos f)).setWidth 64 := by
    intro l v hv hq
    refine (List.foldlRecOn (motive := fun w : State => (w.setup = s.setup ∧ w.fuses = s.fuses) ∧
      (w.fn f.val).qos = (s.reg 0 (.setQos f)).setWidth 64) l State.applyQos ⟨hv, hq⟩ fun w hw g _ => ⟨hw.1, ?_⟩).2
    by_cases hg : f = g
    · subst hg
      rw [State.applyQos, State.fn_updFn_same]
      exact congrArg (BitVec.setWidth 64) (hreg w hw.1 f)
    · rw [State.applyQos, State.fn_updFn_other _ _ fun he => hg (Fin.ext he)]
      exact hw.2
  refine hkeep l2 _ h1 ?_
  rw [State.applyQos, State.fn_updFn_same]
  exact congrArg (BitVec.setWidth 64) (hreg u h1 f)

omit hup in
theorem setQosApply_waits {p : PartId} (hbusy : ∃ kp ∈ s.allPasses, passBusy kp.2.state = true ∧ (s.func kp.2.fn).part = p.val) :
    exec (.setQosApply p) s = .next s := by
  obtain ⟨kp, hkp, hb, hpart⟩ := hbusy
  have hany : (s.allPasses.any fun kp => passBusy kp.2.state && (allFns.filter fun f => (s.func f).part == p.val).contains kp.2.fn) = true := by
    refine List.any_eq_true.2 ⟨kp, hkp, ?_⟩
    rw [Bool.and_eq_true, List.contains_iff_mem, List.mem_filter, beq_iff_eq]
    exact ⟨hb, mem_allFns _, hpart⟩
  show execSetQosApply p s = _
  unfold execSetQosApply
  dsimp only
  rw [hany, Bool.or_true, if_pos rfl]

/-! ### Cores, dies and ports -/

theorem fenceReq_fences {c : CoreId} (h : s.serving c.val = true) : ∃ t, exec (.fenceReq c) s = .next t ∧ (t.core c.val).svc = .fenced ∧
    (t.core c.val).cause = 0 := by
  refine ⟨_, congrArg Host.Outcome.next (if_pos hup), ?_⟩
  exact fenceCore_fences h 0

omit hup in
theorem dropQueued_diesOut (s : State) (c : Nat) : (s.dropQueued c).diesOut = s.diesOut := by
  unfold State.dropQueued
  refine List.foldlRecOn (motive := fun u : State => u.diesOut = s.diesOut) _ _ rfl fun u hu a _ => Eq.trans ?_ hu
  split
  · rw [(passed_sendReply ..).rest]
    dsimp only
    split <;> rfl
  · rfl

/-- One core of a die that leaves service. -/
def State.coreOut (s : State) (c : Nat) : State :=
  if (s.core c).svc = .bypassed then s else (s.dropQueued c).leaveService c .outOfService (s.core c).cause

omit hup in
theorem coreOut_leaves (s : State) (c : Nat) : (s.coreOut c).diesOut = s.diesOut ∧ (∀ b, b ≠ c → ((s.coreOut c).core b).svc = (s.core b).svc) ∧
    ((s.coreOut c).core c).svc = if (s.core c).svc = .bypassed then .bypassed else .outOfService := by
  unfold State.coreOut
  split
  · next h => exact ⟨rfl, fun _ _ => rfl, h⟩
  · refine ⟨dropQueued_diesOut s c, fun b hb => ?_, ?_⟩
    · rw [State.leaveService, State.core_updCore_other _ _ hb]
      exact (manned_dropQueued s c).svc b
    · rw [State.leaveService, State.core_updCore_same]

omit hup in
theorem coresOut_leave (l : List Nat) (s : State) : (l.foldl State.coreOut s).diesOut = s.diesOut ∧
    (∀ b, (s.core b).svc = .bypassed → ((l.foldl State.coreOut s).core b).svc = .bypassed) ∧
    ∀ b ∈ l, (s.core b).svc ≠ .bypassed → ((l.foldl State.coreOut s).core b).svc = .outOfService := by
  have hkeep : ∀ (l : List Nat) (u : State) (b : Nat) (x : CoreSvc), x = .bypassed ∨ x = .outOfService → (u.core b).svc = x →
      ((l.foldl State.coreOut u).core b).svc = x := by
    intro l u b x hx hu
    refine List.foldlRecOn (motive := fun v : State => (v.core b).svc = x) _ _ hu fun v hv c _ => ?_
    obtain ⟨-, hother, hsame⟩ := coreOut_leaves v c
    by_cases hb : b = c
    · subst hb
      rw [hsame, hv]
      obtain rfl | rfl := hx <;> rfl
    · exact (hother b hb).trans hv
  refine ⟨?_, fun b hb => hkeep l s b _ (.inl rfl) hb, fun b hb hn => ?_⟩
  · exact List.foldlRecOn (motive := fun v : State => v.diesOut = s.diesOut) _ _ rfl fun v hv c _ => (coreOut_leaves v c).1.trans hv
  · induction l generalizing s with
    | nil => exact nomatch hb
    | cons c l ih =>
      rw [List.foldl_cons]
      obtain ⟨-, hother, hsame⟩ := coreOut_leaves s c
      by_cases hbc : b = c
      · subst hbc
        refine hkeep l _ b _ (.inr rfl) ?_
        rw [hsame, if_neg hn]
      · exact ih (s.coreOut c) ((List.mem_cons.1 hb).resolve_left hbc) (by rw [hother b hbc]; exact hn)

omit hup in
theorem dieOut_eq (s : State) (d : DieId) : s.dieOut d =
    (let u := ((List.range 144).map (coreAt d.val)).foldl State.coreOut s
    ({ u with diesOut := if u.diesOut.contains d then u.diesOut else u.diesOut ++ [d] } : State).dropParts) := by
  unfold State.dieOut State.coreOut
  rfl

omit hup in
/-- A die that leaves service takes its cores with it, but for the bypassed ones (R241, R242). -/
theorem dieOut_takes (s : State) (d : DieId) : d ∈ (s.dieOut d).diesOut ∧
    (∀ b, (s.core b).svc = .bypassed → ((s.dieOut d).core b).svc = .bypassed) ∧
    ∀ i < 144, (s.core (coreAt d.val i)).svc ≠ .bypassed → ((s.dieOut d).core (coreAt d.val i)).svc = .outOfService := by
  obtain ⟨hdies, hby, hout⟩ := coresOut_leave ((List.range 144).map (coreAt d.val)) s
  rw [dieOut_eq]
  dsimp only
  have hmem : ∀ i < 144, coreAt d.val i ∈ (List.range 144).map (coreAt d.val) := fun i hi => List.mem_map_of_mem (List.mem_range.2 hi)
  generalize ((List.range 144).map (coreAt d.val)) = l at *
  generalize l.foldl State.coreOut s = u at *
  obtain ⟨hrest, -⟩ := dropParts_drops ({ u with diesOut := if u.diesOut.contains d then u.diesOut else u.diesOut ++ [d] } : State)
  generalize State.dropParts _ = t at *
  have hcore : ∀ b, t.core b = u.core b := fun b => by rw [State.core, hrest]; rfl
  refine ⟨?_, fun b hb => ?_, fun i hi hn => ?_⟩
  · rw [hrest]
    dsimp only
    split
    · next h => exact List.contains_iff_mem.1 h
    · exact List.mem_append_right _ List.mem_cons_self
  · rw [hcore]
    exact hby b hb
  · rw [hcore]
    exact hout _ (hmem i hi) hn

section
variable (hmode : s.scheduled = false) (hexe : ∀ kv ∈ s.fns, kv.2.exe = none)
include hmode hexe

omit hup in
theorem idleUniform_of : s.idleUniform = true := by
  have hany : (s.fns.any fun kv => kv.2.exe.isSome) = false := List.any_eq_false.2 fun kv hkv => by simp [hexe kv hkv]
  rw [State.idleUniform, hmode, hany]
  rfl

theorem oosReq_takes (d : DieId) : ∃ t, exec (.oosReq d) s = .next t ∧ d ∈ t.diesOut ∧ ∀ i < 144,
    (t.core (coreAt d.val i)).svc = if (s.core (coreAt d.val i)).svc = .bypassed then .bypassed else .outOfService := by
  have hrun : exec (.oosReq d) s = .next (s.dieOut d) := by
    show execOosReq d s = _
    unfold execOosReq
    rw [hup, idleUniform_of hmode hexe] <;> rfl
  obtain ⟨hd, hby, hout⟩ := dieOut_takes s d
  refine ⟨_, hrun, hd, fun i hi => ?_⟩
  split
  · next h => exact hby _ h
  · next h => exact hout i hi h

theorem bypassReq_bypasses {c : CoreId} (hc : (s.core c.val).svc ≠ .bypassed) : ∃ t, exec (.bypassReq c) s = .next t ∧
    (t.core c.val).svc = .bypassed ∧
    ((∃ i < 144, (s.core (coreAt (coreDie c.val) i)).svc = .bypassed) → ∃ d ∈ t.diesOut, d.val = coreDie c.val) ∧
    ((∀ i < 144, (s.core (coreAt (coreDie c.val) i)).svc ≠ .bypassed) → t.diesOut = s.diesOut) := by
  obtain ⟨u, hu⟩ : ∃ u, u = (s.dropQueued c.val).leaveService c.val .bypassed (s.core c.val).cause := ⟨_, rfl⟩
  obtain ⟨b, hb⟩ : ∃ b, b = (List.range 144).any fun i => (s.core (coreAt (coreDie c.val) i)).svc == .bypassed := ⟨_, rfl⟩
  have hrun : exec (.bypassReq c) s = .next (if b then u.dieOut (Fin.ofNat 12 (coreDie c.val)) else u) := by
    show execBypassReq c s = _
    unfold execBypassReq
    rw [hup, idleUniform_of hmode hexe, Bool.not_true, if_neg Bool.false_ne_true, if_neg Bool.false_ne_true, if_neg hc]
    dsimp only
    rw [← hu, ← hb]
  have hsvc : (u.core c.val).svc = .bypassed := by
    rw [hu, State.leaveService, State.core_updCore_same]
  have hdies : u.diesOut = s.diesOut := by
    rw [hu]
    exact dropQueued_diesOut s c.val
  have hdie : (Fin.ofNat 12 (coreDie c.val)).val = coreDie c.val := by
    have hlt := c.isLt
    refine Nat.mod_eq_of_lt ?_
    unfold coreDie coreX coreY
    omega
  have hiff : b = true ↔ ∃ i < 144, (s.core (coreAt (coreDie c.val) i)).svc = .bypassed := by
    rw [hb, List.any_eq_true]
    simp only [List.mem_range, beq_iff_eq]
  refine ⟨_, hrun, ?_, fun h => ?_, fun h => ?_⟩
  · split
    · exact (dieOut_takes u _).2.1 _ hsvc
    · exact hsvc
  · rw [if_pos (hiff.2 h)]
    exact ⟨_, (dieOut_takes u _).1, hdie⟩
  · rw [if_neg]
    · exact hdies
    · rw [hiff]
      rintro ⟨i, hi, hby⟩
      exact h i hi hby

end

theorem portRetrain_refused {p : PortId} (h : s.skein.state ≠ .none) : ∃ t, exec (.portRetrain p) s = .next t ∧ t.ports = s.ports := by
  have hrun : exec (.portRetrain p) s = .next (s.logRefused pfn (regOffset (.fabPortCtrl p)) 1) := by
    show execPortRetrain p s = _
    unfold execPortRetrain
    rw [hup, Bool.not_true, if_neg Bool.false_ne_true, if_pos h]
  refine ⟨_, hrun, ?_⟩
  rw [(logRefused_wrote ..).1.rest]

theorem portRetrain_trains {p : PortId} (h : s.skein.state = .none) (hp : (s.port p.val).state ≠ .disabled) :
    ∃ t, exec (.portRetrain p) s = .next t ∧ (t.port p.val).state = .training := by
  have hrun : exec (.portRetrain p) s = .next (s.train p.val) := by
    show execPortRetrain p s = _
    unfold execPortRetrain
    rw [hup, Bool.not_true, if_neg Bool.false_ne_true, if_neg (not_not_intro h), if_neg hp]
  refine ⟨_, hrun, ?_⟩
  rw [State.train, State.port_updPort_same]

/-! ### Flags and latched reads -/

theorem chkFaultClear_clears : exec .chkFaultClear s = .next { s with chk := { s.chk with first := none } } :=
  congrArg Host.Outcome.next (if_pos hup)

theorem w1cClear_runs (flag : W1c) : exec (.w1cClear flag) s = match flag with
    | .ingDistFailValid => .next { s with distFail := { s.distFail with valid := false, count := 0 } }
    | .chkScrubErrValid => .next { s with chk := { s.chk with errValid := false } }
    | .secTamperNew => .next { s with sec := { s.sec with newTamper := false } } := by
  show execW1cClear flag s = _
  unfold execW1cClear
  rw [hup, Bool.not_true, if_neg Bool.false_ne_true] <;> cases flag <;> rfl

theorem timebaseRead_runs (x : TimedRead) : exec (.timebaseRead x) s =
    let now := s.clk.timebase + BitVec.ofNat 64 x.ticks
    match x.reg with
    | .timebaseLo => .next (({ s with clk := { s.clk with tbHigh := (now >>> 32).setWidth 32 } }).emit (.readValue (now.setWidth 32)))
    | .timebaseHi => .next (s.emit (.readValue s.clk.tbHigh))
    | .frameLo => .next (({ s with clk := { s.clk with frHigh := (s.clk.frame >>> 32).setWidth 32 } }).emit (.readValue (s.clk.frame.setWidth 32)))
    | .frameHi => .next (s.emit (.readValue s.clk.frHigh)) := by
  show execTimebaseRead x s = _
  unfold execTimebaseRead
  obtain ⟨reg, ticks⟩ := x
  rw [hup, Bool.not_true, if_neg Bool.false_ne_true] <;> cases reg <;> rfl

theorem timebaseRead_latches (ticks later : Nat) : let now := s.clk.timebase + BitVec.ofNat 64 ticks
    (∃ t, exec (.timebaseRead ⟨.timebaseLo, ticks⟩) s = .next t ∧ t.out = .readValue (now.setWidth 32) :: s.out ∧
      ∃ t', exec (.timebaseRead ⟨.timebaseHi, later⟩) t = .next t' ∧ t'.out = .readValue ((now >>> 32).setWidth 32) :: t.out) ∧
    ∃ t, exec (.timebaseRead ⟨.frameLo, ticks⟩) s = .next t ∧ t.out = .readValue (s.clk.frame.setWidth 32) :: s.out ∧
      ∃ t', exec (.timebaseRead ⟨.frameHi, later⟩) t = .next t' ∧ t'.out = .readValue ((s.clk.frame >>> 32).setWidth 32) :: t.out := by
  intro now
  obtain ⟨u, hu⟩ : ∃ u, u = ({ s with clk := { s.clk with tbHigh := (now >>> 32).setWidth 32 } } : State).emit (.readValue (now.setWidth 32)) := ⟨_, rfl⟩
  obtain ⟨v, hv⟩ : ∃ v, v = ({ s with clk := { s.clk with frHigh := (s.clk.frame >>> 32).setWidth 32 } } : State).emit
    (.readValue (s.clk.frame.setWidth 32)) := ⟨_, rfl⟩
  have huup : u.up = true := by
    rw [hu]
    exact hup
  have hvup : v.up = true := by
    rw [hv]
    exact hup
  refine ⟨⟨u, (timebaseRead_runs hup ⟨.timebaseLo, ticks⟩).trans (by rw [hu]), by rw [hu]; rfl, _, timebaseRead_runs huup ⟨.timebaseHi, later⟩, ?_⟩,
    v, (timebaseRead_runs hup ⟨.frameLo, ticks⟩).trans (by rw [hv]), by rw [hv]; rfl, _, timebaseRead_runs hvup ⟨.frameHi, later⟩, ?_⟩
  · rw [hu]
    rfl
  · rw [hv]
    rfl

/-! ### Counter set-ups and dumps -/

theorem obsCntCfgApply_applies (hsg : s.clk.sg = 100) (hw : s.obs.written ≠ []) : ∃ t, exec .obsCntCfgApply s = .next t ∧ t.obs.written = [] ∧
    ∀ k ∈ s.obs.written, AMap.get 0x700 t.obs.cnt k =
      (s.reg 0 (.obsCntCfg (Fin.ofNat 12 (k / 6)) (Fin.ofNat 6 (k % 6)))).setWidth 32 := by
  have hne : s.obs.written.isEmpty = false := by
    cases h : s.obs.written with
    | nil => exact absurd h hw
    | cons => rfl
  refine ⟨_, (if_neg (by simp [hup, hsg, hne]) : execObsCntCfgApply s = _), rfl, fun k hk => ?_⟩
  dsimp only
  obtain ⟨l1, l2, hl⟩ := List.append_of_mem hk
  rw [hl, List.foldl_append, List.foldl_cons]
  refine List.foldlRecOn (motive := fun m : AMap W32 => AMap.get 0x700 m k =
    (s.reg 0 (.obsCntCfg (Fin.ofNat 12 (k / 6)) (Fin.ofNat 6 (k % 6)))).setWidth 32) l2 _ (AMap.get_set_same ..) fun m hm j _ => ?_
  by_cases hj : k = j
  · subst hj
    exact AMap.get_set_same ..
  · rw [AMap.get_set_other _ _ _ hj]
    exact hm

omit hup in
/-- The dumps of the functions that have a buffer, or their skips. -/
def State.dumpOwners (s : State) (owners : List FnId) : Host.Outcome State Fault Refusal :=
  if owners.isEmpty then .next s
  else if (owners.any fun f => (s.fn f.val).dump.any fun d => decide (0 < d.seq + d.skips)) && bitAt (s.draw 0x439).1 0 then
    .next (owners.foldl (fun s f => s.updFn f.val fun u => { u with dump := u.dump.map fun d => { d with skips := d.skips + 1 } }) (s.draw 0x439).2)
  else .next (owners.foldl (fun s' f => s'.dumpOne (s.draw 0x439).2 f) (s.draw 0x439).2).sinceDump

omit hup in
theorem dumpOne_dumps (u : State) (s0 : State) (f g : FnId) : (g ≠ f → (u.dumpOne s0 f).fn g.val = u.fn g.val) ∧
    (∀ o ∈ u.out, o ∈ (u.dumpOne s0 f).out) ∧
    ∀ b, (u.fn f.val).dump = some b → ((u.dumpOne s0 f).fn f.val).dump = some { b with seq := b.seq + 1 } ∧
      Out.dump f (b.seq % b.slots) (s0.dumpData f b) ∈ (u.dumpOne s0 f).out := by
  unfold State.dumpOne
  split
  · next h => exact ⟨fun _ => rfl, fun _ h => h, fun b hb => nomatch h.symm.trans hb⟩
  · next d h =>
    refine ⟨fun hg => ?_, fun o ho => List.mem_cons_of_mem _ ho, fun b hb => ?_⟩
    · rw [State.fn_emit, State.fn_updFn_other _ _ fun he => hg (Fin.ext he)]
    · obtain rfl := Option.some.inj (h.symm.trans hb)
      rw [State.fn_emit, State.fn_updFn_same]
      exact ⟨rfl, List.mem_cons_self⟩

theorem dumpLatch_dumps {f : FnId} {b : DumpBuf} (hsg : s.clk.sg = 100) (hn : s.pf .obsCtrl 0 16 ≠ 0)
    (hframe : s.clk.frame.toNat % s.pf .obsCtrl 0 16 = 0) (hlatched : s.obs.latched ≠ some s.clk.frame)
    (hfresh : ∀ g : FnId, ∀ o, (s.fn g.val).dump = some o → o.seq + o.skips = 0) (hb : (s.fn f.val).dump = some b) :
    ∃ t, exec .dumpLatch s = .next t ∧ (t.fn f.val).dump = some { b with seq := b.seq + 1 } ∧
      Out.dump f (b.seq % b.slots)
        (({ s with obs := { s.obs with latched := some s.clk.frame }, fresh := s.fresh + 1 } : State).dumpData f b) ∈ t.out := by
  obtain ⟨s0, hs0⟩ : ∃ s0 : State, s0 = { s with obs := { s.obs with latched := some s.clk.frame }, fresh := s.fresh + 1 } := ⟨_, rfl⟩
  obtain ⟨owners, howners⟩ : ∃ owners, owners = allFns.filter fun f => (s.fn f.val).dump.isSome := ⟨_, rfl⟩
  have hmem : f ∈ owners := by
    rw [howners]
    exact List.mem_filter.2 ⟨mem_allFns f, by rw [hb]; rfl⟩
  have hnodup : owners.Nodup := by
    rw [howners]
    exact allFns_nodup.filter _
  have hbefore : (owners.any fun f => (s.fn f.val).dump.any fun d => decide (0 < d.seq + d.skips)) = false := by
    refine List.any_eq_false.2 fun g _ => ?_
    cases hd : (s.fn g.val).dump with
    | none => exact Bool.false_ne_true
    | some o =>
      rw [Option.any_some, hfresh g o hd]
      exact Bool.false_ne_true
  have hrun : exec .dumpLatch s = .next (owners.foldl (fun s' f => s'.dumpOne s0 f) s0).sinceDump := by
    have hempty : owners.isEmpty = false := by
      cases h : owners with
      | nil => exact nomatch h ▸ hmem
      | cons => rfl
    obtain ⟨l, hl⟩ : ∃ l : State, l = { s with obs := { s.obs with latched := some s.clk.frame } } := ⟨_, rfl⟩
    have hgate : exec .dumpLatch s = l.dumpOwners (allFns.filter fun f => (l.fn f.val).dump.isSome) := by
      rw [hl]
      exact if_neg (by simp [hup, hsg, hn, hframe, hlatched])
    have hfn : ∀ f : FnId, l.fn f.val = s.fn f.val := fun f => by rw [hl]; rfl
    have hlow : (allFns.filter fun f => (l.fn f.val).dump.isSome) = owners := by
      rw [howners]
      exact List.filter_congr fun f _ => by rw [hfn]
    have hlbefore : (owners.any fun f => (l.fn f.val).dump.any fun d => decide (0 < d.seq + d.skips)) = false := by
      rw [← hbefore]
      exact congrArg (List.any owners) (funext fun f => by rw [hfn])
    have hdraw : (l.draw 0x439).2 = s0 := by
      rw [hl, hs0]
      rfl
    rw [hgate, hlow, State.dumpOwners, hempty, if_neg Bool.false_ne_true, hlbefore, Bool.false_and, if_neg Bool.false_ne_true, hdraw]
  refine ⟨_, hrun, ?_⟩
  rw [← hs0]
  have hb0 : (s0.fn f.val).dump = some b := by
    rw [hs0]
    exact hb
  obtain ⟨l1, l2, rfl⟩ := List.append_of_mem hmem
  obtain ⟨hn1, hn2, hdisj⟩ := List.nodup_append.1 hnodup
  have hf1 : f ∉ l1 := fun h => hdisj f h f List.mem_cons_self rfl
  have hf2 : f ∉ l2 := (List.nodup_cons.1 hn2).1
  have hkeep : ∀ (l : List FnId) (u : State), f ∉ l → (l.foldl (fun s' f => s'.dumpOne s0 f) u).fn f.val = u.fn f.val ∧
      ∀ o ∈ u.out, o ∈ (l.foldl (fun s' f => s'.dumpOne s0 f) u).out := by
    intro l u hl
    refine List.foldlRecOn (motive := fun v : State => v.fn f.val = u.fn f.val ∧ ∀ o ∈ u.out, o ∈ v.out) l _ ⟨rfl, fun _ h => h⟩
      fun v hv g hg => ?_
    obtain ⟨hother, hout, -⟩ := dumpOne_dumps v s0 g f
    exact ⟨(hother fun he => hl (he ▸ hg)).trans hv.1, fun o ho => hout o (hv.2 o ho)⟩
  rw [List.foldl_append, List.foldl_cons]
  have h1 := (hkeep l1 s0 hf1).1
  generalize l1.foldl (fun s' f => s'.dumpOne s0 f) s0 = u at *
  obtain ⟨-, -, hdump⟩ := dumpOne_dumps u s0 f f
  obtain ⟨hseq, hout⟩ := hdump b (by rw [h1]; exact hb0)
  obtain ⟨h2, hout2⟩ := hkeep l2 (u.dumpOne s0 f) hf2
  refine ⟨?_, hout2 _ hout⟩
  show (State.fn (List.foldl _ _ l2) f.val).dump = _
  rw [h2]
  exact hseq

end

end

/-- Settles O55: each write takes the nearest value or is refused, and each request has its effect. -/
theorem registerCommands : Obligations.RegisterCommands := by
  intro s hup
  refine ⟨setLockWrite_locks hup, setLockWrite_stays hup, fun p v hexe => ?_, fun f v hexe hret => ?_, fun f v hlive => ?_,
    fun p => ⟨setQosApply_applies hup, setQosApply_waits⟩, fun c h => fenceReq_fences hup h,
    fun hmode hexe => ⟨fun c hc => bypassReq_bypasses hup hmode hexe hc, oosReq_takes hup hmode hexe⟩,
    fun p => ⟨portRetrain_refused hup, portRetrain_trains hup⟩,
    ⟨chkFaultClear_clears hup, ⟨_, w1cClear_runs hup .ingDistFailValid, rfl⟩, ⟨_, w1cClear_runs hup .chkScrubErrValid, rfl⟩,
      ⟨_, w1cClear_runs hup .secTamperNew, rfl⟩⟩,
    timebaseRead_latches hup, obsCntCfgApply_applies hup,
    fun f b hsg hn hframe hlatched hfresh hb => dumpLatch_dumps hup hsg hn hframe hlatched hfresh hb⟩
  · exact ⟨fun hl hcol hrow => setPartWrite_writes hup hexe hl hcol hrow, fun hl hoff => setPartWrite_locked hup hexe hl hoff⟩
  · refine ⟨fun hl hoff => setFuncWrite_locked hup hexe hret hl hoff, fun hl h1 h2 h3 h4 h5 h6 h7 h8 h9 h10 => ?_⟩
    refine setFuncWrite_writes hup hexe hret hl ?_
    simp only [FuncFits, fld_setWidth]
    exact ⟨h1, h2, h3, h4, h5, h6, h7, h8, h9, h10⟩
  · exact ⟨fun hf hl => writeScrub_clamps hlive hf hl v, fun hf hl => writeScrub_locked hlive hf hl v, fun hf => writeStepReq_clamps hlive hf v,
      fun hf hk => writeModuleId_refused hlive hf hk v, fun hf hk => writeModuleId_sets hlive hf hk v, fun hf => writeScrub_other hlive hf v⟩

end Sys2Proof.Machine
end


section
/-!
PROOFS. Host accesses through BAR2 (R161, R174, R206, R323, R341, R347, R404).
-/
namespace Sys2Proof.Machine

/-! ### Where an access goes -/

section
variable {f : FnId} {offset : BitVec 36}

theorem bar2_ioDie {d o n : Nat} (hoff : offset.toNat = 0x4000000 * d + o) (hend : o + n ≤ 0x4000000) (ho : o < 0x4000000) (hd : d < 4) :
    bar2 f offset n = .ioDie d o := by
  have hdiv : offset.toNat / 0x4000000 = d := by omega
  have hmod : offset.toNat % 0x4000000 = o := by omega
  unfold bar2
  dsimp only
  rw [if_pos (by omega), hdiv, hmod, if_pos hend]

theorem bar2_outside (h : f ≠ pfn ∨ offset.toNat < 0x400000000) (hoff : 0x10000000 ≤ offset.toNat) {n : Nat} (hn : 0 < n) :
    bar2 f offset n = .outside := by
  unfold bar2
  dsimp only
  rw [if_neg (by omega), if_pos h]

theorem bar2_window {sp c o n : Nat} (hf : f = pfn) (hsp : 1 ≤ sp) (hc : c < 1728) (ho : o < 0x400000) (hhas : windowHas sp o n = true)
    (hoff : offset.toNat = 0x400000000 + 0x200000000 * (sp - 1) + 0x400000 * c + o) : bar2 f offset n = .window sp c o := by
  have hspace : (offset.toNat - 0x400000000) / 0x200000000 + 1 = sp := by omega
  have hcore : (offset.toNat - 0x400000000) % 0x200000000 / 0x400000 = c := by omega
  have hrest : (offset.toNat - 0x400000000) % 0x400000 = o := by omega
  unfold bar2
  dsimp only
  rw [if_neg (by omega), if_neg (by rintro (h | h); exacts [h hf, by omega]), hspace, hcore, hrest, if_pos ⟨hc, hhas⟩]

end

section
variable {s : State} {f : FnId} {offset : BitVec 36} (hlive : s.live f = true)
include hlive

/-! ### The I/O dies' space -/

theorem hostWindowRead_ioDie {d o n : Nat} (hoff : offset.toNat = 0x4000000 * d + o) (hend : o + n ≤ 0x4000000) (hd : d < 4)
    (hposted : ∀ b, ∀ a ∈ (s.core b).queue, a.kind ≠ .hostWrite ∨ a.fn ≠ f) : ∃ t, exec (.hostWindowRead f offset n) s = .next t ∧
      t.out = .windowData f (memGet s.mem (absAddr 5 d o) n) :: s.out := by
  have hnone : s.postedLand f none = s := by
    have hquiet : ∀ b, ∀ x ∈ (s.core b).queue, x.kind = .hostWrite → x.fn ≠ f := fun b x hx hk => (hposted b x hx).resolve_left (not_not_intro hk)
    unfold State.postedLand
    refine List.foldlRecOn (motive := fun u : State => u = s) _ _ rfl fun u hu ck _ => ?_
    rw [hu, if_neg (fun h => nomatch h)]
    exact landPosted_none (hquiet ck.1) 8
  obtain ⟨d', o', hbar, hmem⟩ : ∃ d' o', bar2 f offset n = .ioDie d' o' ∧ memGet s.mem (absAddr 5 d' o') n = memGet s.mem (absAddr 5 d o) n := by
    by_cases ho : o < 0x4000000
    · exact ⟨d, o, bar2_ioDie hoff hend ho hd, rfl⟩
    · obtain rfl : n = 0 := by omega
      refine ⟨offset.toNat / 0x4000000, offset.toNat % 0x4000000, ?_, by rw [memGet_eq, memGet_eq, List.range_zero, List.map_nil, List.map_nil]⟩
      unfold bar2
      dsimp only
      rw [if_pos (by omega), if_pos (by omega)]
  refine ⟨s.emit (.windowData f (memGet s.mem (absAddr 5 d o) n)), ?_, rfl⟩
  show execHostWindowRead f offset n s = _
  unfold execHostWindowRead
  rw [hlive, Bool.not_true, if_neg Bool.false_ne_true, hbar]
  dsimp only
  rw [hnone, hmem]

theorem hostWindowWrite_ioDie {d o : Nat} {data : List Byte} (hf : f = pfn) (hoff : offset.toNat = 0x4000000 * d + o)
    (hend : o + data.length ≤ 0x3C0F000) (hd : d < 4) : ∃ t, exec (.hostWindowWrite f offset data) s = .next t ∧
      memGet t.mem (absAddr 5 d o) data.length = data := by
  have hrun : exec (.hostWindowWrite f offset data) s = .next (s.writeIoDie d o data) := by
    show execHostWindowWrite f offset data s = _
    unfold execHostWindowWrite
    rw [hlive, Bool.not_true, if_neg Bool.false_ne_true, bar2_ioDie hoff (by omega) (by omega) hd]
    dsimp only
    rw [if_neg (fun h => h.1 hf)]
  have htake : data.take (0x3C0F000 - o) = data := List.take_of_length_le (by omega)
  have hdrop : data.drop (0x3F00000 - o) = [] := List.drop_eq_nil_of_le (by omega)
  have hmem : (s.writeIoDie d o data).mem = memPut (memPut s.mem (absAddr 5 d o) data) (absAddr 5 d (max o 0x3F00000)) [] := by
    unfold State.writeIoDie
    rw [htake, hdrop]
    rfl
  refine ⟨_, hrun, ?_⟩
  rw [hmem, memGet_memPut_other _ (by unfold absAddr; omega)]
  exact memGet_memPut ..

theorem hostWindowWrite_foreign {d o : Nat} {data : List Byte} (hf : f ≠ pfn) (hoff : offset.toNat = 0x4000000 * d + o)
    (hend : o + data.length ≤ 0x3C0F000) (hd : d < 4)
    (hslot : ∃ k < 15, k ∉ s.ownSlots f ∧ o < 0x401000 * k + 0x401000 ∧ 0x401000 * k < o + data.length) (hlen : 0 < data.length) :
    ∃ t, exec (.hostWindowWrite f offset data) s = .next t ∧ t.mem = s.mem := by
  obtain ⟨k, hk, hown, hlo, hhi⟩ := hslot
  have hany : (slotsTouched o data.length).any (fun k => !(s.ownSlots f).contains k) = true := by
    refine List.any_eq_true.2 ⟨k, List.mem_filter.2 ⟨List.mem_range.2 hk, ?_⟩, ?_⟩
    · simp only [rangesMeet, Bool.and_eq_true, decide_eq_true_eq]
      exact ⟨⟨⟨hlen, by decide⟩, hlo⟩, hhi⟩
    · simpa using hown
  have hrun : exec (.hostWindowWrite f offset data) s = .next (s.logRefused f offset.toNat 3) := by
    show execHostWindowWrite f offset data s = _
    unfold execHostWindowWrite
    rw [hlive, Bool.not_true, if_neg Bool.false_ne_true, bar2_ioDie hoff (by omega) (by omega) hd]
    dsimp only
    rw [if_pos ⟨hf, hany⟩]
  refine ⟨_, hrun, ?_⟩
  rw [(logRefused_wrote ..).1.rest]

/-! ### Beyond the regions -/

theorem hostWindowRead_outside {n : Nat} (h : bar2 f offset n = .outside) : ∃ t, exec (.hostWindowRead f offset n) s = .next t ∧
    Out.windowData f (List.replicate n 0) ∈ t.out ∧ t.mem = s.mem := by
  have hrun : exec (.hostWindowRead f offset n) s = .next ((s.emit (.windowData f (List.replicate n 0))).logRefused f offset.toNat 2) := by
    show execHostWindowRead f offset n s = _
    unfold execHostWindowRead
    rw [hlive, Bool.not_true, if_neg Bool.false_ne_true, h]
  refine ⟨_, hrun, (hostKept_logTo ..).out _ List.mem_cons_self, ?_⟩
  rw [(logRefused_wrote ..).1.rest]
  rfl

theorem hostWindowWrite_outside {data : List Byte} (h : bar2 f offset data.length = .outside) :
    ∃ t, exec (.hostWindowWrite f offset data) s = .next t ∧ t.mem = s.mem ∧ t.cores = s.cores := by
  have hrun : exec (.hostWindowWrite f offset data) s = .next (s.logRefused f offset.toNat 2) := by
    show execHostWindowWrite f offset data s = _
    unfold execHostWindowWrite
    rw [hlive, Bool.not_true, if_neg Bool.false_ne_true, h]
  refine ⟨_, hrun, ?_, ?_⟩
  · rw [(logRefused_wrote ..).1.rest]
  · rw [(logRefused_wrote ..).1.rest]

/-! ### The host window -/

section
variable {sp o : Nat} {c : CoreId} {n : Nat} {data : List Byte} (hdata : data.length = n) (hbar : bar2 f offset n = .window sp c.val o)
include hdata hbar

theorem hostWindow_spare (hs : s.windowSpare c.val = true) :
    (∃ t, exec (.hostWindowWrite f offset data) s = .next t ∧ t.cores = s.cores ∧ t.mem = s.mem) ∧
    ∃ t, exec (.hostWindowRead f offset n) s = .next t ∧ Out.windowData f (List.replicate n 0) ∈ t.out ∧ t.mem = s.mem := by
  have hwrite : exec (.hostWindowWrite f offset data) s = .next (s.logRefused f offset.toNat 2) := by
    show execHostWindowWrite f offset data s = _
    unfold execHostWindowWrite
    rw [hlive, Bool.not_true, if_neg Bool.false_ne_true, hdata, hbar]
    dsimp only
    rw [hs, if_pos rfl]
  have hread : exec (.hostWindowRead f offset n) s = .next ((s.emit (.windowData f (List.replicate n 0))).logRefused f offset.toNat 2) := by
    show execHostWindowRead f offset n s = _
    unfold execHostWindowRead
    rw [hlive, Bool.not_true, if_neg Bool.false_ne_true, hbar]
    dsimp only
    rw [hs, if_pos rfl]
  refine ⟨⟨_, hwrite, ?_, ?_⟩, _, hread, (hostKept_logTo ..).out _ List.mem_cons_self, ?_⟩
  · rw [(logRefused_wrote ..).1.rest]
  · rw [(logRefused_wrote ..).1.rest]
  · rw [(logRefused_wrote ..).1.rest]
    rfl

theorem hostWindow_scrubbed (hs : s.windowSpare c.val = false) (hz : s.windowScrubbed sp c.val o n = true) :
    (∃ t, exec (.hostWindowWrite f offset data) s = .next t ∧ t.cores = s.cores ∧ t.mem = s.mem) ∧
    ∃ t, exec (.hostWindowRead f offset n) s = .next t ∧ t.out = .windowData f (List.replicate n 0) :: s.out := by
  have hwrite : exec (.hostWindowWrite f offset data) s = .next (s.logRefused f offset.toNat 4) := by
    show execHostWindowWrite f offset data s = _
    unfold execHostWindowWrite
    rw [hlive, Bool.not_true, if_neg Bool.false_ne_true, hdata, hbar]
    dsimp only
    rw [hs, if_neg Bool.false_ne_true, hz, if_pos rfl]
  have hread : exec (.hostWindowRead f offset n) s = .next (s.emit (.windowData f (List.replicate n 0))) := by
    show execHostWindowRead f offset n s = _
    unfold execHostWindowRead
    rw [hlive, Bool.not_true, if_neg Bool.false_ne_true, hbar]
    dsimp only
    rw [hs, if_neg Bool.false_ne_true, hz, if_pos rfl]
  refine ⟨⟨_, hwrite, ?_, ?_⟩, _, hread, rfl⟩
  · rw [(logRefused_wrote ..).1.rest]
  · rw [(logRefused_wrote ..).1.rest]

omit hlive hdata hbar in
theorem enqueueHost_queues (hq : (s.core c.val).queue.length < 8) (a : QAccess) :
    ((s.enqueueHost c.val a).core c.val).queue = (s.core c.val).queue ++ [a] := by
  unfold State.enqueueHost
  rw [if_neg (by omega), State.core_updCore_same]

theorem hostWindow_queues (hserve : s.serving c.val = true) (hsp : sp ≠ 4) (hs : s.windowSpare c.val = false)
    (hz : s.windowScrubbed sp c.val o n = false) (hq : (s.core c.val).queue.length < 8) :
    (∃ t x, exec (.hostWindowRead f offset n) s = .next t ∧ (t.core c.val).queue = (s.core c.val).queue ++ [x] ∧
      x.kind = .hostRead ∧ x.addr = absAddr sp c.val o ∧ x.len = n ∧ x.fn = f) ∧
    ∃ t x, exec (.hostWindowWrite f offset data) s = .next t ∧ (t.core c.val).queue = (s.core c.val).queue ++ [x] ∧
      x.kind = .hostWrite ∧ x.addr = absAddr sp c.val o ∧ x.data = data := by
  obtain ⟨x, hx⟩ : ∃ x : QAccess, x = { kind := .hostRead, addr := absAddr sp c.val o, data := [], len := n, flit := none, fn := f } := ⟨_, rfl⟩
  obtain ⟨y, hy⟩ : ∃ y : QAccess, y = { kind := .hostWrite, addr := absAddr sp c.val o, data := data, len := data.length, flit := none, fn := f } := ⟨_, rfl⟩
  have hread : exec (.hostWindowRead f offset n) s = .next (s.enqueueHost c.val x) := by
    show execHostWindowRead f offset n s = _
    unfold execHostWindowRead
    rw [hlive, Bool.not_true, if_neg Bool.false_ne_true, hbar]
    dsimp only
    rw [hs, if_neg Bool.false_ne_true, hz, if_neg Bool.false_ne_true, hserve, Bool.not_true, if_neg Bool.false_ne_true, if_neg hsp, hx]
  have hwrite : exec (.hostWindowWrite f offset data) s = .next (s.enqueueHost c.val y) := by
    show execHostWindowWrite f offset data s = _
    unfold execHostWindowWrite
    rw [hlive, Bool.not_true, if_neg Bool.false_ne_true, hy, hdata, hbar]
    dsimp only
    rw [hs, if_neg Bool.false_ne_true, hz, if_neg Bool.false_ne_true, hserve, Bool.not_true, if_neg Bool.false_ne_true, if_neg hsp]
  refine ⟨⟨_, x, hread, enqueueHost_queues hq x, ?_, ?_, ?_, ?_⟩, _, y, hwrite, enqueueHost_queues hq y, ?_, ?_, ?_⟩
  · rw [hx]
  · rw [hx]
  · rw [hx]
  · rw [hx]
  · rw [hy]
  · rw [hy]
  · rw [hy]

end

end

/-! ### Sync counters -/

/-- Bytes written elsewhere leave a count. -/
theorem countWith_outside {count at' o : Nat} {data : List Byte} (hc : count ≤ 65535) (h : at' + 2 ≤ o ∨ o + data.length ≤ at') :
    countWith count at' o data = count := by
  have hkeep : ((leBytes 2 count).zipIdx.map fun b =>
      if o ≤ at' + b.2 ∧ at' + b.2 < o + data.length then nth 0 data (at' + b.2 - o) else b.1) = leBytes 2 count := by
    show [if o ≤ at' + 0 ∧ at' + 0 < o + data.length then nth 0 data (at' + 0 - o) else BitVec.ofNat 8 count,
      if o ≤ at' + (0 + 1) ∧ at' + (0 + 1) < o + data.length then nth 0 data (at' + (0 + 1) - o) else BitVec.ofNat 8 (count / 256)] = _
    rw [if_neg (by omega), if_neg (by omega)]
    rfl
  unfold countWith
  rw [hkeep, leNat_leBytes]
  exact Nat.mod_eq_of_lt (by omega)

/-- Both bytes of a count written. -/
theorem countWith_inside (count o : Nat) {data : List Byte} (h : data.length = 2) : countWith count o o data = leNat data := by
  obtain ⟨a, b, rfl⟩ := List.length_eq_two.1 h
  have hput : ((leBytes 2 count).zipIdx.map fun x =>
      if o ≤ o + x.2 ∧ o + x.2 < o + [a, b].length then nth 0 [a, b] (o + x.2 - o) else x.1) = [a, b] := by
    show [if o ≤ o + 0 ∧ o + 0 < o + 2 then nth 0 [a, b] (o + 0 - o) else BitVec.ofNat 8 count,
      if o ≤ o + (0 + 1) ∧ o + (0 + 1) < o + 2 then nth 0 [a, b] (o + (0 + 1) - o) else BitVec.ofNat 8 (count / 256)] = _
    rw [if_pos (by omega), if_pos (by omega), Nat.add_sub_cancel_left, Nat.add_sub_cancel_left]
    rfl
  unfold countWith
  rw [hput]

theorem Counter.view_count (v : Counter) (t w : Nat) : (({ v.view t with count := w } : Counter).view t).count = w := by
  have hnone : ({ v.view t with count := w } : Counter).pend.filter (fun u => decide (u.cyc < t)) = [] := by
    refine List.filter_eq_nil_iff.2 fun u hu => ?_
    have hge := (List.mem_filter.1 (show u ∈ v.pend.filter fun u => decide (t ≤ u.cyc) from hu)).2
    simpa using hge
  rw [Counter.view, hnone]
  rfl

/-- A write of one counter's word. -/
def State.writeCount (c o : Nat) (data : List Byte) (s : State) (i : Nat) : State :=
  let v := (s.counter c i).view (s.nowCycle c + 1)
  let w := countWith v.count (8 * i) o data
  if w = v.count then s else s.setCounter c i { v with count := w }

theorem writeSync_eq (s : State) (c o : Nat) (data : List Byte) : s.writeSync c o data = (List.range 64).foldl (State.writeCount c o data) s := rfl

theorem nowCycle_setCounter (s : State) (c n : Nat) (v : Counter) : (s.setCounter c n v).nowCycle c = s.nowCycle c := by
  have hjob : ((s.setCounter c n v).core c).job = (s.core c).job := by rw [State.setCounter, State.core_updCore_same]
  unfold State.nowCycle
  rw [hjob]
  rfl

section
variable {s : State} {c o : Nat} {data : List Byte} {i : Nat}

theorem writeCount_same (h : countWith ((s.counter c i).view (s.nowCycle c + 1)).count (8 * i) o data = ((s.counter c i).view (s.nowCycle c + 1)).count) :
    State.writeCount c o data s i = s := by
  unfold State.writeCount
  exact if_pos h

theorem writeCount_nowCycle : (State.writeCount c o data s i).nowCycle c = s.nowCycle c := by
  unfold State.writeCount
  dsimp only
  split
  · rfl
  · exact nowCycle_setCounter ..

theorem counter_setCounter_other (s : State) (c : Nat) {j n : Nat} (v : Counter) (h : j ≠ n) : (s.setCounter c n v).counter c j = s.counter c j := by
  rw [State.counter, State.setCounter, State.core_updCore_same]
  exact AMap.get_set_other _ _ _ h

theorem writeCount_other {j : Nat} (h : j ≠ i) : (State.writeCount c o data s i).counter c j = s.counter c j := by
  unfold State.writeCount
  dsimp only
  split
  · rfl
  · exact counter_setCounter_other _ _ _ h

theorem writeCount_view : ((((State.writeCount c o data s i).counter c i).view (s.nowCycle c + 1))).count =
    countWith ((s.counter c i).view (s.nowCycle c + 1)).count (8 * i) o data := by
  unfold State.writeCount
  dsimp only
  split
  · next h => exact h.symm
  · rw [State.counter_setCounter_same]
    exact Counter.view_count ..

end

/-- A write of a counter's count changes that counter alone. -/
theorem writeSync_writes {s : State} {c : Nat} {n : Fin 64} {data : List Byte} (hlen : data.length = 2)
    (hsmall : ∀ k, ((s.counter c k).view (s.nowCycle c + 1)).count ≤ 65535) : let t := s.writeSync c (8 * n.val) data
    ((t.counter c n.val).view (s.nowCycle c + 1)).count = leNat data ∧ ∀ k, k ≠ n.val → t.counter c k = s.counter c k := by
  intro t
  have hkeep : ∀ (u : State) (i : Nat), i ≠ n.val → u.nowCycle c = s.nowCycle c → (∀ k, k ≠ n.val → u.counter c k = s.counter c k) →
      State.writeCount c (8 * n.val) data u i = u := by
    intro u i hi hnow hc
    refine writeCount_same ?_
    rw [hc i hi, hnow]
    exact countWith_outside (hsmall i) (by omega)
  have hfold : ∀ (l : List Nat) (u : State), n.val ∉ l → u.nowCycle c = s.nowCycle c → (∀ k, k ≠ n.val → u.counter c k = s.counter c k) →
      l.foldl (State.writeCount c (8 * n.val) data) u = u := by
    intro l u hl hnow hc
    refine List.foldlRecOn (motive := fun v : State => v = u) _ _ rfl fun v hv i hi => ?_
    rw [hv]
    exact hkeep u i (fun he => hl (he ▸ hi)) hnow hc
  have ht : t = State.writeCount c (8 * n.val) data s n.val := by
    show s.writeSync c (8 * n.val) data = _
    have hmem : n.val ∈ List.range 64 := List.mem_range.2 n.isLt
    have hnodup : (List.range 64).Nodup := List.nodup_range
    rw [writeSync_eq]
    generalize List.range 64 = l at *
    obtain ⟨l1, l2, rfl⟩ := List.append_of_mem hmem
    obtain ⟨-, hn2, hdisj⟩ := List.nodup_append.1 hnodup
    rw [List.foldl_append, List.foldl_cons, hfold l1 s (fun h => hdisj _ h _ List.mem_cons_self rfl) rfl fun _ _ => rfl]
    exact hfold l2 _ (List.nodup_cons.1 hn2).1 writeCount_nowCycle fun k hk => writeCount_other hk
  rw [ht]
  exact ⟨writeCount_view.trans (countWith_inside _ _ hlen), fun k hk => writeCount_other hk⟩

section
variable {s : State} {f : FnId} {offset : BitVec 36} (hlive : s.live f = true)
include hlive

theorem hostWindowWrite_counter {c : CoreId} {n : Fin 64} {data : List Byte} (hf : f = pfn) (hserve : s.serving c.val = true)
    (hlen : data.length = 2) (hoff : offset.toNat = 0x400000000 + 0x600000000 + 0x400000 * c.val + 8 * n.val)
    (hz : s.windowScrubbed 4 c.val (8 * n.val) 2 = false) (hs : s.windowSpare c.val = false)
    (hsmall : ∀ k, ((s.counter c.val k).view (s.nowCycle c.val + 1)).count ≤ 65535) :
    ∃ t, exec (.hostWindowWrite f offset data) s = .next t ∧ ((t.counter c.val n.val).view (s.nowCycle c.val + 1)).count = leNat data ∧
      ∀ k : Fin 64, k ≠ n → t.counter c.val k.val = s.counter c.val k.val := by
  have hn := n.isLt
  have hhas : windowHas 4 (8 * n.val) 2 = true := by
    show syncValid (8 * n.val) 2 = true
    unfold syncValid
    rw [decide_eq_true (by omega : 8 * n.val + 2 ≤ 0x200)]
    rfl
  have hbar : bar2 f offset 2 = .window 4 c.val (8 * n.val) := bar2_window hf (by decide) c.isLt (by omega) hhas (by omega)
  have hrun : exec (.hostWindowWrite f offset data) s = .next (s.writeSync c.val (8 * n.val) data) := by
    show execHostWindowWrite f offset data s = _
    unfold execHostWindowWrite
    rw [hlive, Bool.not_true, if_neg Bool.false_ne_true, hlen, hbar]
    dsimp only
    rw [hs, if_neg Bool.false_ne_true, hz, if_neg Bool.false_ne_true, hserve, Bool.not_true, if_neg Bool.false_ne_true, if_pos rfl]
  obtain ⟨hcount, hother⟩ := writeSync_writes hlen hsmall (n := n)
  exact ⟨_, hrun, hcount, fun k hk => hother k.val fun he => hk (Fin.ext he)⟩

/-! ### Staging slots -/

theorem stagingSlotWrite_writes {d : IoDie} {n : Fin 15} {x : ShardRec} (hx : x.ciphertext.length = shardBytes)
    (hown : f = pfn ∨ n.val ∈ s.ownSlots f) : ∃ t, exec (.stagingSlotWrite f d n x) s = .next t ∧
      memGet t.mem (slotAddr d.val n.val) (ShardRec.bytes x).length = ShardRec.bytes x := by
  have hnot : ¬(f ≠ pfn ∧ (s.ownSlots f).contains n.val = false) := by
    rintro ⟨hf, hc⟩
    rw [List.contains_iff_mem.2 (hown.resolve_left hf)] at hc
    exact nomatch hc
  refine ⟨s.writeNow (slotAddr d.val n.val) (ShardRec.bytes x), ?_, memGet_memPut ..⟩
  show execStagingSlotWrite f d n x s = _
  unfold execStagingSlotWrite
  rw [if_neg (not_not_intro hx), hlive, Bool.not_true, if_neg Bool.false_ne_true, if_neg hnot]

theorem stagingSlotWrite_foreign {d : IoDie} {n : Fin 15} {x : ShardRec} (hx : x.ciphertext.length = shardBytes) (hf : f ≠ pfn)
    (hown : n.val ∉ s.ownSlots f) : ∃ t, exec (.stagingSlotWrite f d n x) s = .next t ∧ t.mem = s.mem := by
  have hnot : (s.ownSlots f).contains n.val = false := by simpa using hown
  refine ⟨s.logRefused f (0x4000000 * d.val + 0x401000 * n.val) 3, ?_, ?_⟩
  · show execStagingSlotWrite f d n x s = _
    unfold execStagingSlotWrite
    rw [if_neg (not_not_intro hx), hlive, Bool.not_true, if_neg Bool.false_ne_true, if_pos ⟨hf, hnot⟩]
  · rw [(logRefused_wrote ..).1.rest]

end

/-- Settles O56: where each access through BAR2 goes, and what it leaves. -/
theorem hostAccesses : Obligations.HostAccesses := by
  intro s f offset hlive _
  refine ⟨fun d o n hoff hend hd hposted => hostWindowRead_ioDie hlive hoff hend hd hposted,
    fun d o data hoff hend hd => ⟨fun hf => hostWindowWrite_ioDie hlive hf hoff hend hd,
      fun hf hslot hlen => hostWindowWrite_foreign hlive hf hoff hend hd hslot hlen⟩,
    fun h hoff n data hn hdata => ⟨hostWindowRead_outside hlive (bar2_outside h hoff hn),
      hostWindowWrite_outside hlive (bar2_outside h hoff (List.length_pos_iff.2 hdata))⟩,
    fun c sp o n data hf hsp hserve hoff hend hdata => ?_,
    fun c n data hf hserve hlen hoff hz hs => hostWindowWrite_counter hlive hf hserve hlen hoff hz hs,
    fun d n x hx => ⟨stagingSlotWrite_writes hlive hx, stagingSlotWrite_foreign hlive hx⟩⟩
  have hfits : 1 ≤ sp ∧ o < 0x400000 ∧ windowHas sp o n = true ∧ sp ≠ 4 := by
    obtain rfl | rfl := hsp
    · have h : o + n ≤ 0x300000 := hend
      exact ⟨by decide, by omega, decide_eq_true hend, by decide⟩
    · have h : o + n ≤ 0x80000 := hend
      exact ⟨by decide, by omega, decide_eq_true hend, by decide⟩
  obtain ⟨h1, ho, hhas, h4⟩ := hfits
  have hbar := bar2_window hf h1 c.isLt ho hhas hoff
  exact ⟨hostWindow_spare hlive hdata hbar, hostWindow_scrubbed hlive hdata hbar, hostWindow_queues hlive hdata hbar hserve h4⟩

end Sys2Proof.Machine
end


section
/-!
PROOFS. VST of a register whose pending result has more than 64 lanes (R94, R95): the model stores each lane that it is given,
and the last of them lies beyond the 256 bytes that the statement names.
-/
namespace Sys2Proof.Machine

/-- A VXE queue with the first byte of activation memory in A0. -/
def wideQueue : Engine :=
  { Engine.reset with mode := .running, aregs := [(0, { base := BitVec.ofNat 48 (absAddr 1 0 0), pend := [] })] }

/-- Register V0 with a result of 65 lanes that is due. -/
def wideReg : VReg := { base := [], pend := [{ due := 0, lane0 := false, lanes := List.replicate 65 0xFFFFFFFF }] }

def wideState : State :=
  { State.reset with cores := [(0, { Core.reset with vxeQ := wideQueue, vregs := [(0, wideReg)], job := some lateJob })] }

theorem wideState_ready : Ready wideState 0 .vxe lateJob :=
  ⟨by decide, by decide, by decide, by decide, by decide, by decide, by decide, fun _ hv => absurd hv List.not_mem_nil⟩

/-- The one piece of a store in row form. -/
theorem wideState_pieces : vecPieces (wideState.areg 0 .vxe (fld (0 : BitVec 48) 24 4) (wideState.head 0 .vxe lateJob).t) 0 =
    [(BitVec.ofNat 48 (absAddr 1 0 0), 256)] := by decide +kernel

theorem wideState_store : ∀ t, exec (.vst 0 0 0) wideState = .next t →
    t.chk = wideState.chk ∧ (t.core 0).faults = [] ∧ t.readNow 0 (absAddr 1 0 0 + 256) 1 = [0xFF] := by
  intro t ht
  obtain rfl := Host.Outcome.next.inj ht
  exact ⟨by decide +kernel, by decide +kernel, by decide +kernel⟩

/-- Refutes O24: a store of V0 with 65 lanes to the start of activation memory changes byte 256. -/
theorem not_frameOfMemoryForms : ¬ Obligations.FrameOfMemoryForms := by
  intro h
  obtain ⟨t, ht⟩ : ∃ t, exec (.vst 0 0 0) wideState = .next t := ⟨_, rfl⟩
  obtain ⟨hchk, hfaults, hbyte⟩ := wideState_store t ht
  obtain ⟨-, -, -, -, -, -, -, hvst, -⟩ :=
    h wideState t 0 .vxe lateJob 0 0 wideState_ready (by decide +kernel) (fun d => by rw [show wideState.reporter d = [] from rfl]; decide) hchk hfaults rfl (by decide +kernel)
  have hplace : ∀ (i : Nat) (a : MAddr × Nat), (vecPieces (wideState.areg 0 .vxe (fld (0 : BitVec 48) 24 4)
      (wideState.head 0 .vxe lateJob).t) 0)[i]? = some a → wideState.resolve lateJob.fn a.1 a.2 = .ok (0, absAddr 1 0 0) := by
    intro i a ha
    rw [wideState_pieces] at ha
    obtain rfl : (BitVec.ofNat 48 (absAddr 1 0 0), 256) = a := by
      cases i with
      | zero => exact Option.some.inj ha
      | succ i => exact absurd ha (by simp)
    decide +kernel
  obtain ⟨-, -, hout⟩ := hvst rfl ht (fun _ => absAddr 1 0 0) hplace
  have hpieces : ∀ p ∈ (vecPieces (wideState.areg 0 .vxe (fld (0 : BitVec 48) 24 4) (wideState.head 0 .vxe lateJob).t)
      0).zipIdx.map (fun a => (absAddr 1 0 0, a.1.2)), absAddr 1 0 0 + 256 < p.1 ∨ p.1 + p.2 ≤ absAddr 1 0 0 + 256 := by
    rw [wideState_pieces]
    exact fun p hp => .inr (by obtain rfl := List.mem_singleton.1 hp; exact le_rfl)
  have hsame := hbyte.symm.trans (hout (absAddr 1 0 0 + 256) hpieces)
  exact absurd hsame (by decide +kernel)

end Sys2Proof.Machine
end


section
/-!
PROOFS. Whoever raises a fault is heard (R369): a record more stands at a reporter, or a fault that has still to fall due. An
issue that leaves the fault block as it was, and no fault behind, has met no corrected error and left no fault.
-/
namespace Sys2Proof.Machine

/-! ### Records -/

/-- Every reporter has at least the records that it had. -/
def Heard (s t : State) : Prop := ∀ d, (s.reporter d).length ≤ (t.reporter d).length

/-- Some reporter has a record more. -/
def Louder (s t : State) : Prop := Heard s t ∧ ∃ d, (s.reporter d).length < (t.reporter d).length

theorem Heard.of_chk {s t : State} (h : t.chk = s.chk) : Heard s t := fun d => by rw [State.reporter, State.reporter, h]

theorem Heard.refl (s : State) : Heard s s := fun _ => le_rfl

theorem Heard.trans {s t u : State} (h : Heard s t) (g : Heard t u) : Heard s u := fun d => (h d).trans (g d)

theorem Heard.foldl {α : Type} (l : List α) (s : State) (f : State → α → State) (h : ∀ s a, Heard s (f s a)) :
    Heard s (l.foldl f s) := by
  induction l generalizing s with
  | nil => exact Heard.refl s
  | cons a l ih => exact (h s a).trans (ih _)

theorem Louder.heard {s t u : State} (h : Louder s t) (g : Heard t u) : Louder s u := by
  obtain ⟨hs, d, hd⟩ := h
  exact ⟨hs.trans g, d, hd.trans_le (g d)⟩

theorem Heard.louder {s t u : State} (h : Heard s t) (g : Louder t u) : Louder s u := by
  obtain ⟨ht, d, hd⟩ := g
  exact ⟨h.trans ht, d, (h d).trans_lt hd⟩

theorem Louder.chk_ne {s t : State} (h : Louder s t) : t.chk ≠ s.chk := by
  intro hc
  obtain ⟨-, d, hd⟩ := h
  rw [State.reporter, State.reporter, hc] at hd
  exact lt_irrefl _ hd

/-- Every reporter has room for a record. -/
def Roomy (s : State) : Prop := ∀ d, (s.reporter d).length < 16

theorem Roomy.of_chk {s t : State} (h : Roomy s) (hc : t.chk = s.chk) : Roomy t := fun d => by
  rw [State.reporter, hc]
  exact h d

theorem queueRecord_heard (s : State) (n : Nat) (r : FaultRecord) : Heard s (s.queueRecord n r) := by
  unfold State.queueRecord
  dsimp only
  split
  · exact fun d => le_rfl
  · intro d
    by_cases hd : d = n
    · subst hd
      simp [State.reporter]
    · simp only [State.reporter, AMap.get_set_other _ _ _ hd]
      exact le_rfl

theorem queueRecord_louder {s : State} (h : Roomy s) (n : Nat) (r : FaultRecord) : Louder s (s.queueRecord n r) := by
  refine ⟨queueRecord_heard s n r, n, ?_⟩
  rw [queueRecord_of_room (h n)]
  simp [State.reporter]

/-- After its record a fault changes no reporter. -/
theorem raise_reporters (s : State) (src : Src) (cause : Cause) (d : Byte) (touch : Option Nat) : ∃ r,
    (s.raise src cause d touch).chk.reporters = (s.queueRecord src.reporter r).chk.reporters := by
  refine ⟨s.mkRecord src cause d (classOf cause d (s.skein.multi && (s.skein.state == .formed || s.skein.state == .detached)))
    (touch.bind s.pass), ?_⟩
  unfold State.raise
  dsimp only
  split
  · rfl
  · rw [fatalStop_chk]
  · split
    · split_ifs
      · rfl
      · rw [(abandon_stilled ..).chk]
        rfl
    · rfl

theorem raise_heard (s : State) (src : Src) (cause : Cause) (d : Byte) (touch : Option Nat) :
    Heard s (s.raise src cause d touch) := by
  obtain ⟨r, hr⟩ := raise_reporters s src cause d touch
  intro n
  rw [State.reporter, State.reporter, hr]
  exact queueRecord_heard s src.reporter r n

theorem raise_louder {s : State} (h : Roomy s) (src : Src) (cause : Cause) (d : Byte) (touch : Option Nat) :
    Louder s (s.raise src cause d touch) := by
  obtain ⟨r, hr⟩ := raise_reporters s src cause d touch
  obtain ⟨-, n, hn⟩ := queueRecord_louder h src.reporter r
  refine ⟨raise_heard s src cause d touch, n, hn.trans_eq ?_⟩
  rw [State.reporter, State.reporter, hr]

theorem OnlyObs.chk {s t : State} {c : Nat} (h : OnlyObs s t c) : t.chk = s.chk := by rw [h.rest]

theorem raiseRecs_heard (s : State) (c : Nat) (e : Eng) (t : Nat) (recs : List (Cause × Byte)) : Heard s (s.raiseRecs c e t recs) :=
  Heard.foldl _ _ _ fun _ _ => (raise_heard _ _ _ _ _).trans (.of_chk (count_onlyObs _ _ _ _ _ _ _).chk)

theorem raiseRecs_louder {s : State} (h : Roomy s) (c : Nat) (e : Eng) (t : Nat) {recs : List (Cause × Byte)} (hr : recs ≠ []) :
    Louder s (s.raiseRecs c e t recs) := by
  cases recs with
  | nil => exact absurd rfl hr
  | cons r l =>
    exact ((raise_louder h _ _ _ _).heard (.of_chk (count_onlyObs _ _ _ _ _ _ _).chk)).heard (raiseRecs_heard _ c e t l)

/-! ### Faults that fall due -/

theorem raiseGroup_heard (s : State) (c : Nat) (pass : Option Nat) (l : List TFault) : Heard s (s.raiseGroup c pass l) := by
  cases l with
  | nil => exact Heard.refl s
  | cons f l =>
    refine Heard.trans (.of_chk ?_) (raise_heard _ _ _ _ _)
    cases f.eng with
    | none => rfl
    | some e => exact (count_onlyObs _ _ _ _ _ _ _).chk

theorem raiseGroup_louder {s : State} (h : Roomy s) (c : Nat) (pass : Option Nat) {l : List TFault} (hl : l ≠ []) :
    Louder s (s.raiseGroup c pass l) := by
  cases l with
  | nil => exact absurd rfl hl
  | cons f l =>
    have hcount : ∀ u : State, u = (match f.eng with
        | some e => s.count f.core (some e.num) 0x0C f.cyc 1 l.length
        | none => s) → u.chk = s.chk := by
      rintro u rfl
      cases f.eng with
      | none => rfl
      | some e => exact (count_onlyObs _ _ _ _ _ _ _).chk
    have hc := hcount _ rfl
    exact (Heard.of_chk hc).louder (raise_louder (h.of_chk hc) _ _ _ _)

theorem ripenN_heard (c t n : Nat) (s : State) : Heard s (s.ripenN c t n) := by
  induction n generalizing s with
  | zero => exact Heard.refl s
  | succ n ih =>
    unfold State.ripenN
    split
    · exact Heard.refl s
    · refine Heard.trans (.of_chk ?_) ((Heard.foldl _ _ _ fun _ _ => raiseGroup_heard _ _ _ _).trans (ih _))
      rfl

/-- The earliest cycle of some faults is the cycle of one of them. -/
theorem exists_first (f : TFault) (l : List TFault) : ∃ g ∈ f :: l, g.cyc = l.foldl (fun m g => min m g.cyc) f.cyc := by
  induction l generalizing f with
  | nil => exact ⟨f, List.mem_cons_self, rfl⟩
  | cons a l ih =>
    have hstep : min f.cyc a.cyc = f.cyc ∨ min f.cyc a.cyc = a.cyc := min_choice _ _
    rw [List.foldl_cons]
    rcases hstep with hm | hm <;> rw [hm]
    · obtain ⟨g, hg, hcyc⟩ := ih f
      exact ⟨g, (List.mem_cons.1 hg).elim (fun h => h ▸ List.mem_cons_self) fun h => by simp [h], hcyc⟩
    · obtain ⟨g, hg, hcyc⟩ := ih a
      exact ⟨g, List.mem_cons_of_mem _ hg, hcyc⟩

theorem faultGroups_cons {l : List TFault} (hl : l ≠ []) : ∃ g gs, faultGroups l = g :: gs ∧ g ≠ [] := by
  cases l with
  | nil => exact absurd rfl hl
  | cons f l =>
    refine ⟨_, _, by rw [faultGroups, List.map_cons, List.eraseDups_cons, List.map_cons], ?_⟩
    simp

theorem ripen_louder {s : State} (h : Roomy s) {c t : Nat} (hf : ∃ f ∈ (s.core c).faults, f.cyc < t) :
    Louder s (s.ripen c t) := by
  obtain ⟨f, hf, ht⟩ := hf
  have hmem : f ∈ (s.core c).faults.filter fun f => decide (f.cyc < t) := List.mem_filter.2 ⟨hf, by simpa using ht⟩
  obtain ⟨n, hn⟩ : ∃ n, (s.core c).faults.length = n + 1 := Nat.exists_eq_succ_of_ne_zero (List.length_pos_of_mem hf).ne'
  rw [State.ripen, hn, State.ripenN]
  split
  · next hnone => rw [hnone] at hmem; exact absurd hmem List.not_mem_nil
  · next a l hsome =>
    obtain ⟨b, hb, hcyc⟩ := exists_first a l
    obtain ⟨g, gs, hgroups, hg⟩ := faultGroups_cons
      (List.ne_nil_of_mem (List.mem_filter.2 ⟨hb, beq_iff_eq.2 hcyc⟩) :
        (a :: l).filter (fun g => g.cyc == l.foldl (fun m g => min m g.cyc) a.cyc) ≠ [])
    simp only [hgroups, List.foldl_cons]
    refine Louder.heard ?_ ((Heard.foldl _ _ _ fun _ _ => raiseGroup_heard _ _ _ _).trans (ripenN_heard _ _ _ _))
    exact (Heard.of_chk (State.updCore_chk s c _)).louder (raiseGroup_louder (h.of_chk (State.updCore_chk s c _)) _ _ hg)

/-! ### An issue -/

theorem OnlyLand.chk {s t : State} {c : Nat} (h : OnlyLand s t c) : t.chk = s.chk := by rw [h.rest]

/-- A core whose faults do not fall due keeps them. -/
theorem ripen_quiet {s : State} (h : Roomy s) {c t : Nat} (hq : (s.ripen c t).chk = s.chk) : s.ripen c t = s := by
  by_cases hf : ∃ f ∈ (s.core c).faults, f.cyc < t
  · exact absurd hq (ripen_louder h hf).chk_ne
  · exact ripen_later fun f hm => not_lt.1 fun hlt => hf ⟨f, hm, hlt⟩

/-- Landing and forgetting, said of the state that the faults that fall due then meet. -/
def State.landedAt (s : State) (c h : Nat) : State :=
  (s.settle c h).updCore c fun k => { k with claims := k.claims.filter fun o => decide (h ≤ o.last) }

theorem landedAt_chk (s : State) (c h : Nat) : (s.landedAt c h).chk = s.chk := (settle_onlyLand s c h).chk

theorem landedAt_faults (s : State) (c h : Nat) : ((s.landedAt c h).core c).faults = (s.core c).faults := by
  rw [State.landedAt, State.core_updCore_same, (settle_onlyLand s c h).core]

theorem tidy_heard (s : State) (c : Nat) : Heard s (s.tidy c) :=
  (Heard.of_chk (landedAt_chk s c _)).trans (ripenN_heard _ _ _ _)

theorem tidy_quiet {s : State} (h : Roomy s) {c : Nat} (hq : (s.tidy c).chk = s.chk) :
    s.tidy c = s.landedAt c (s.core c).horizon :=
  ripen_quiet (h.of_chk (landedAt_chk s c _)) (hq.trans (landedAt_chk s c _).symm)

theorem Noted.chk {s t : State} {c : Nat} (h : Noted s t c) : t.chk = s.chk := by rw [h.rest]

/-- An issue that no reporter has heard of and that leaves no fault on its way. -/
theorem commit_quiet {i : Issued} {op : Nat} {plan : Bool} (hroom : Roomy i.w.s) (hq : (commit i op plan).chk = i.w.s.chk)
    (hf : ((commit i op plan).core i.x.c).faults = []) :
    i.w.recs = [] ∧ i.w.late = [] ∧ (i.w.s.core i.x.c).faults = [] := by
  obtain ⟨u, hu, -, hcommit⟩ := commit_eq_raiseRecs i op plan
  have hchk : u.chk = i.w.s.chk := hu.chk
  have huroom := hroom.of_chk hchk
  have hrecs : i.w.recs = [] := by
    by_contra hr
    refine ((raiseRecs_louder huroom i.x.c i.x.e i.x.t hr).heard (tidy_heard _ i.x.c)).chk_ne ?_
    rw [← hcommit, hq, hchk]
  rw [hrecs] at hcommit
  change _ = u.tidy i.x.c at hcommit
  have hfaults : (u.core i.x.c).faults = (i.w.s.core i.x.c).faults ++ i.w.late := by
    rw [hu.core, Issued.issued, State.core_updCore_same, State.core_updEngine_same]
    exact congrArg (· ++ i.w.late) (Core.setEngine_faults _ _ _)
  rw [hcommit, tidy_quiet huroom (by rw [← hcommit, hq, hchk]), landedAt_faults, hfaults] at hf
  obtain ⟨h1, h2⟩ := List.append_eq_nil_iff.1 hf
  exact ⟨hrecs, h2, h1⟩

/-! ### An instruction that stops -/

theorem raiseEng_louder {s : State} (h : Roomy s) (c : Nat) (e : Eng) (cause : Cause) (d : Byte) :
    Louder s (s.raiseEng c e cause d) := raise_louder h _ _ _ _

theorem stopFault_heard (s : State) (c : Nat) (e : Eng) (t : Nat) (cause : Cause) (d : Byte) :
    Heard s (s.stopFault c e t cause d) := by
  unfold State.stopFault
  split
  · exact (Heard.of_chk (State.updCore_chk s c _)).trans (ripenN_heard _ _ _ _)
  · exact raise_heard _ _ _ _ _

theorem stopFault_louder {s : State} (h : Roomy s) (c : Nat) (e : Eng) (t : Nat) (cause : Cause) (d : Byte) :
    Louder s (s.stopFault c e t cause d) := by
  unfold State.stopFault
  split
  · refine (Heard.of_chk (State.updCore_chk s c _)).louder (ripen_louder (h.of_chk (State.updCore_chk s c _))
      ⟨{ cyc := t, core := c, eng := some e, cause := cause, detail := d }, ?_, Nat.lt_succ_self t⟩)
    rw [State.core_updCore_same]
    simp
  · exact raiseEng_louder h c e cause d

/-- An instruction that stops is heard, whatever it has done before. -/
theorem stopAt_louder {s : State} {c : Nat} {e : Eng} {op : Nat} {x : Ctx} {cause : Cause} {d : Byte} {part : Option Work}
    (h : Roomy s) (hp : ∀ p, part = some p → p.s.chk = s.chk) : Louder s (s.stopAt c e op x cause d part) := by
  unfold State.stopAt
  extract_lets q s1 s2 body s3
  have hchk : s3.chk = s1.chk := by
    have h2 : s2.chk = s1.chk := by
      simp only [s2]
      split <;> rfl
    simp only [s3]
    split
    · exact (traceTo_stilled _ _ _ _ _).chk.trans h2
    · exact h2
  have key : s1.chk = s.chk ∨ Louder s s1 := by
    cases hpart : part with
    | none =>
      left
      simp only [s1, hpart]
    | some p =>
      have hs : (p.s).chk = s.chk := hp p hpart
      have hcount : s1.chk = (p.s.raiseRecs c e q.next p.recs).chk := by
        simp only [s1, hpart]
        exact (onlyObs_foldl _ _ c _ fun s v => count_onlyObs _ _ _ _ _ _ _).chk
      by_cases hr : p.recs = []
      · left
        rw [hcount, hr]
        exact hs
      · right
        exact ((Heard.of_chk hs).louder (raiseRecs_louder (h.of_chk hs) c e q.next hr)).heard (.of_chk hcount)
  obtain hkey | hkey := key
  · exact (Heard.of_chk (hchk.trans hkey)).louder (stopFault_louder (h.of_chk (hchk.trans hkey)) _ _ _ _ _)
  · exact (hkey.heard (.of_chk hchk)).heard (stopFault_heard _ _ _ _ _ _)

end Sys2Proof.Machine
end


section
/-!
PROOFS. What an instruction without memory leaves behind, whichever way it ends: a predicate of states that writes to its own
engine keep, and for WAIT, ACQUIRE and SIGNAL writes to their counter, for the vector instructions writes to their register.
-/
namespace Sys2Proof.Machine

/-! ### Ways to end -/

/-- `Q` holds of what a step of an instruction gives, `H` of how it halts. -/
def Ends {α : Type} (H : Halt → Prop) (Q : α → Prop) : Except Halt α → Prop
  | .ok a => Q a
  | .error h => H h

section
variable {α β : Type} {H : Halt → Prop} {Q : α → Prop} {R : β → Prop}

theorem Ends.bind {a : Except Halt α} {f : α → Except Halt β} (h : Ends H Q a) (g : ∀ v, Q v → Ends H R (f v)) :
    Ends H R (a >>= f) := by
  cases a with
  | ok v => exact g v h
  | error e => exact h

theorem Ends.mono {Q' : α → Prop} {a : Except Halt α} (h : Ends H Q a) (g : ∀ v, Q v → Q' v) : Ends H Q' a := by
  cases a with
  | ok v => exact g v h
  | error e => exact h

theorem Ends.ite {p : Prop} [Decidable p] {a b : Except Halt α} (ha : Ends H Q a) (hb : Ends H Q b) :
    Ends H Q (if p then a else b) := by
  split
  · exact ha
  · exact hb

/-- A fold of steps keeps what each of them keeps. -/
theorem Ends.foldlM {l : List β} {f : α → β → Except Halt α} {a : α} (ha : Q a) (h : ∀ v, Q v → ∀ b ∈ l, Ends H Q (f v b)) :
    Ends H Q (l.foldlM f a) := by
  induction l generalizing a with
  | nil => exact ha
  | cons b l ih =>
    exact (h a ha b List.mem_cons_self).bind fun v hv => ih hv fun v hv b hb => h v hv b (List.mem_cons_of_mem _ hb)

end

/-- An instruction of engine `e` of core `c` that halts leaves `P` of the state of what it has done. -/
def Leaves (c : Nat) (e : Eng) (P : State → Prop) : Halt → Prop
  | .stop _ _ part => ∀ p, part = some p → P p.s
  | .cut x k => (x.c = c ∧ x.e = e) ∧ P k.s
  | .hold _ => True

/-- An instruction of engine `e` of core `c` that issues, and starts no weft operation, leaves `P`. -/
structure Gives (c : Nat) (e : Eng) (P : State → Prop) (i : Issued) : Prop where
  core : i.x.c = c
  eng : i.x.e = e
  here : i.remote = none
  keeps : P i.w.s

/-- `P` of the work of an instruction that has gone on to context `o.1`. -/
structure Onward (c : Nat) (e : Eng) (P : State → Prop) (x : Ctx) (k : Work) : Prop where
  core : x.c = c
  eng : x.e = e
  keeps : P k.s

section
variable {c : Nat} {e : Eng} {P : State → Prop}

theorem leaves_none {α : Type} {Q : α → Prop} (cause : Cause) (d : Byte) :
    Ends (Leaves c e P) Q (.error (.stop cause d none)) := fun _ h => nomatch h

theorem leaves_some {α : Type} {Q : α → Prop} {k : Work} (h : P k.s) (cause : Cause) (d : Byte) :
    Ends (Leaves c e P) Q (.error (.stop cause d (some k))) := fun _ hp => Option.some.inj hp ▸ h

theorem needCtl_ends (op : Nat) (m : Byte) (w : BitVec 48) : Ends (Leaves c e P) (fun _ => True) (needCtl op m w) := by
  unfold needCtl
  split
  · trivial
  · exact leaves_none _ _

theorem needEng_ends (e' : Eng) (op : Nat) (m : Byte) (w : BitVec 48) :
    Ends (Leaves c e P) (fun _ => True) (needEng e' op m w) := by
  unfold needEng
  split
  · trivial
  · exact leaves_none _ _

theorem need_ends (b : Bool) (d : Byte) : Ends (Leaves c e P) (fun _ => True) (need b d) := by
  unfold need
  split
  · trivial
  · exact leaves_none _ _

theorem needF_ends (b : Bool) (cause : Cause) (d : Byte) : Ends (Leaves c e P) (fun _ => True) (needF b cause d) := by
  unfold needF
  split
  · trivial
  · exact leaves_none _ _

theorem clear_ends (k : Work) (x : Ctx) (u : Upset) (cause : Cause) (d : Byte) :
    Ends (Leaves c e P) (fun _ => True) (k.clear x u cause d) := needF_ends _ _ _

theorem needs_ends {k : Work} (h : P k.s) (x : Ctx) (l : List (Bool × Cause × Byte)) :
    Ends (Leaves c e P) (fun _ => True) (k.needs x l) := by
  unfold Work.needs
  split
  · trivial
  · exact leaves_some ((Work.s_ev _ _ _ _ _).symm ▸ h) _ _

theorem syncWord_ends {k : Work} (h : P k.s) (x : Ctx) (off : Nat) :
    Ends (Leaves c e P) (fun v : Work => P v.s) (k.syncWord x off) := by
  unfold Work.syncWord
  split
  · exact leaves_none _ _
  · exact h
  · exact h

theorem Onward.gives {x : Ctx} {k : Work} (h : Onward c e P x k) : Gives c e P (finish x k) := ⟨h.core, h.eng, rfl, h.keeps⟩

theorem waitCounter_ends_onward {x : Ctx} {k : Work} (h : Onward c e P x k) (n th : Nat) :
    Ends (Leaves c e P) (fun o : Ctx × Work × Counter => Onward c e P o.1 o.2.1) (waitCounter x k n th) := by
  unfold waitCounter
  refine (syncWord_ends h.keeps _ _).bind fun v hv => ?_
  extract_lets u stall
  split
  · trivial
  · extract_lets t
    exact .ite (leaves_none _ _) ⟨h.core, h.eng, (Work.s_ev _ _ _ _ _).symm ▸ hv⟩

end

/-! ### Control and register instructions -/

section
variable {c : Nat} {e : Eng} {P : State → Prop} (hP : ∀ u f, P u → P (u.updEngine c e f)) {m : Byte} {w : BitVec 48}

theorem Onward.engine {x : Ctx} {k : Work} {P : State → Prop} (hP : ∀ u f, P u → P (u.updEngine c e f)) (h : Onward c e P x k)
    (f : Engine → Engine) : Onward c e P x { k with s := k.s.updEngine x.c x.e f } := by
  refine ⟨h.core, h.eng, ?_⟩
  rw [h.core, h.eng]
  exact hP _ _ h.keeps

variable {x : Ctx} {k : Work} (h : Onward c e P x k)
include h

theorem runNop_ends : Ends (Leaves c e P) (Gives c e P) (runNop m w x k) := (needCtl_ends _ _ _).bind fun _ _ => h.gives

theorem runPad_ends : Ends (Leaves c e P) (Gives c e P) (runPad m w x k) := by
  refine (needCtl_ends _ _ _).bind fun _ _ => ?_
  dsimp only
  have hgives := h.gives
  refine .ite ⟨hgives.core, hgives.eng, rfl, hgives.keeps⟩ (.ite (leaves_none _ _) (.ite hgives ?_))
  exact ⟨hgives.core, hgives.eng, rfl, hgives.keeps⟩

include hP

theorem Onward.setS (i l : Nat) (v : W32) : Onward c e P x (k.setS x i l v) := h.engine hP _

theorem Onward.setA (i l : Nat) (v : MAddr) : Onward c e P x (k.setA x i l v) := h.engine hP _

theorem Onward.setIter (iw : Option (Fin 32)) (v : W32) : Onward c e P x (k.setIter x iw v) := by
  cases iw with
  | none => exact h
  | some i => exact h.setS hP _ _ _

theorem runLoop_ends : Ends (Leaves c e P) (Gives c e P) (runLoop m w x k) := by
  by_cases hl : legalCtl 0x03 m w = true
  · rw [runLoop_eq x k hl]
    have hskip := (h.engine hP fun q => { q with sig := loopOuter m w (k.s.engine x.c x.e) })
    split_ifs
    · exact leaves_some hskip.keeps _ _
    · exact leaves_none _ _
    · exact ⟨h.core, h.eng, rfl, hskip.keeps⟩
    · refine (need_ends _ _).bind fun _ _ => ?_
      have hopen : Onward c e P x (loopOpened m w x k) := h.engine hP _
      exact ⟨h.core, h.eng, rfl, (hopen.setIter hP _ _).keeps⟩
  · rw [runLoop, needCtl_fails (by simpa using hl)]
    exact leaves_none _ _

theorem runEndloop_ends : Ends (Leaves c e P) (Gives c e P) (runEndloop m w x k) := by
  by_cases hl : legalCtl 0x04 m w = true
  · by_cases hbad : endloopFormed w = false ∨ (k.s.engine x.c x.e).loops = []
    · rw [runEndloop_malformed x k hl hbad]
      exact leaves_none _ _
    · obtain ⟨hform, hloops⟩ := not_or.1 hbad
      obtain ⟨f, rest, hq⟩ := List.exists_cons_of_ne_nil hloops
      rw [runEndloop_eq x k hl hq (by simpa using hform)]
      refine (need_ends _ _).bind fun _ _ => (needF_ends _ _ _).bind fun _ _ => .ite ?_ ?_
      · exact ⟨h.core, h.eng, rfl, (h.engine hP _).keeps⟩
      · have hturned : Onward c e P x (endloopTurned x k f rest) := h.engine hP _
        exact ⟨h.core, h.eng, rfl, (hturned.setIter hP _ _).keeps⟩
  · rw [runEndloop, needCtl_fails (by simpa using hl)]
    exact leaves_none _ _

theorem runCall_ends : Ends (Leaves c e P) (Gives c e P) (runCall m w x k) := by
  refine (needCtl_ends _ _ _).bind fun _ _ => (need_ends _ _).bind fun _ _ => ?_
  dsimp only
  split
  · exact leaves_none _ _
  · exact ⟨h.core, h.eng, rfl, (h.engine hP _).keeps⟩

theorem runRet_ends : Ends (Leaves c e P) (Gives c e P) (runRet m w x k) := by
  refine (needCtl_ends _ _ _).bind fun _ _ => ?_
  split
  · exact leaves_none _ _
  · exact ⟨h.core, h.eng, rfl, (h.engine hP _).keeps⟩

theorem Onward.pendRelease (r : PendRelease) : Onward c e P x (k.pendRelease x r) := h.engine hP _

theorem runRelease_ends : Ends (Leaves c e P) (Gives c e P) (runRelease m w x k) :=
  (needCtl_ends _ _ _).bind fun _ _ => (needs_ends h.keeps _ _).bind fun _ _ => (h.pendRelease hP _).gives

theorem runBarrier_ends : Ends (Leaves c e P) (Gives c e P) (runBarrier m w x k) := by
  refine (needCtl_ends _ _ _).bind fun _ _ => ?_
  dsimp only
  split
  · exact leaves_none _ _
  · exact (needF_ends _ _ _).bind fun _ _ => (h.engine hP _).gives

theorem runSset_ends : Ends (Leaves c e P) (Gives c e P) (runSset m w x k) :=
  (needCtl_ends _ _ _).bind fun _ _ => (h.setS hP _ _ _).gives

theorem runSop_ends : Ends (Leaves c e P) (Gives c e P) (runSop m w x k) :=
  (needCtl_ends _ _ _).bind fun _ _ => (h.setS hP _ _ _).gives

theorem runSopi_ends : Ends (Leaves c e P) (Gives c e P) (runSopi m w x k) :=
  (needCtl_ends _ _ _).bind fun _ _ => (h.setS hP _ _ _).gives

theorem runAset_ends : Ends (Leaves c e P) (Gives c e P) (runAset m w x k) :=
  (needCtl_ends _ _ _).bind fun _ _ => (h.setA hP _ _ _).gives

theorem runAadd_ends : Ends (Leaves c e P) (Gives c e P) (runAadd m w x k) :=
  (needCtl_ends _ _ _).bind fun _ _ => (h.setA hP _ _ _).gives

theorem runSrd_ends : Ends (Leaves c e P) (Gives c e P) (runSrd m w x k) := by
  refine (needCtl_ends _ _ _).bind fun _ _ => ?_
  dsimp only
  split
  iterate 4 exact (h.setS hP _ _ _).gives
  exact ((h.setS hP _ _ _).setS hP _ _ _).gives

end

/-! ### Counters -/

section
variable {c : Nat} {e : Eng} {P : State → Prop} {m : Byte} {w : BitVec 48} {x : Ctx} {k : Work} (h : Onward c e P x k)
  (hC : ∀ u v, P u → P (u.setCounter c (fld w 0 6) v))
include h hC

theorem Onward.consume (th : Nat) (keep : Bool) (v : Counter) : Onward c e P x (k.consume x (fld w 0 6) th keep v) := by
  unfold Work.consume
  split
  · exact h
  · refine ⟨h.core, h.eng, ?_⟩
    rw [h.core]
    exact hC _ _ h.keeps

theorem runWait_ends : Ends (Leaves c e P) (Gives c e P) (runWait m w x k) :=
  (needCtl_ends _ _ _).bind fun _ _ => (waitCounter_ends_onward h _ _).bind fun _ ho => (ho.consume hC _ _ _).gives

theorem runAcquire_ends : Ends (Leaves c e P) (Gives c e P) (runAcquire m w x k) :=
  (needCtl_ends _ _ _).bind fun _ _ => (waitCounter_ends_onward h _ _).bind fun _ ho =>
    (needs_ends ho.keeps _ _).bind fun _ _ => (ho.consume hC _ _ _).gives

theorem runSignal_ends (hP : ∀ u f, P u → P (u.updEngine c e f)) (hF : ∀ u f, P u → P (u.addFault c f)) :
    Ends (Leaves c e P) (Gives c e P) (runSignal m w x k) := by
  refine (needCtl_ends _ _ _).bind fun _ _ => ?_
  dsimp only
  split
  · refine ⟨h.core, h.eng, rfl, ?_⟩
    show P (State.incCounter ..)
    unfold State.incCounter
    rw [h.core]
    dsimp only
    split
    · exact hF _ _ (hC _ _ h.keeps)
    · exact hC _ _ h.keeps
  · exact (h.pendRelease hP _).gives

end

/-! ### Vector instructions -/

section
variable {c : Nat} {e : Eng} {P : State → Prop} (hP : ∀ u f, P u → P (u.updEngine c e f)) {m : Byte} {w : BitVec 48} {x : Ctx} {k : Work}

theorem Onward.ev (h : Onward c e P x k) (code start len n : Nat) : Onward c e P x (k.ev code start len n) :=
  ⟨h.core, h.eng, (Work.s_ev _ _ _ _ _).symm ▸ h.keeps⟩

theorem Onward.ieee (h : Onward c e P x k) (i : Ieee) : Onward c e P x (k.ieee x i) := (((h.ev _ _ _ _).ev _ _ _ _).ev _ _ _ _).ev _ _ _ _

theorem Onward.waitBusy (h : Onward c e P x k) (n : Nat) : Onward c e P (waitBusy x k n).1 (waitBusy x k n).2 := by
  refine ⟨?_, ?_, (h.ev _ _ _ _).keeps⟩ <;> unfold Machine.waitBusy <;> dsimp only <;> split
  iterate 2 exact h.core
  iterate 2 exact h.eng

section
include hP

theorem Onward.vland (h : Onward c e P x k) (v : Nat) : Onward c e P x (k.vland x v) := by
  unfold Work.vland
  dsimp only
  split
  · exact h
  · exact h.engine hP _

theorem vreg_ends (h : Onward c e P x k) (v : Nat) :
    Ends (Leaves c e P) (fun o : List W32 × Work => Onward c e P x o.2) (k.vreg x v) := by
  have hl := h.vland hP v
  unfold Work.vreg
  dsimp only
  split
  · split
    · exact ⟨hl.core, hl.eng, (hl.engine hP _).keeps⟩
    · exact hl
  · split
    · exact leaves_none _ _
    · exact hl
  · exact hl

theorem floatChecks_ends (h : Onward c e P x k) (l : Nat) :
    Ends (Leaves c e P) (fun v : Work => Onward c e P x v) (k.floatChecks x l) := by
  refine (clear_ends _ _ _ _ _).bind fun _ _ => ?_
  show Onward c e P x (if _ then _ else k)
  split
  · have ho := h.engine hP fun q => { q with upset := none }
    exact ⟨ho.core, ho.eng, ho.keeps⟩
  · exact h

end

section
variable (hV : ∀ u t p, P u → P (u.updCore c fun o =>
  { o with vregs := AMap.upd VReg.zero o.vregs (fld w 0 6) fun r => r.put t p }))
include hP hV

theorem Onward.setV (h : Onward c e P x k) (l : Nat) (lane0 : Bool) (lanes : List W32) :
    Onward c e P x (k.setV x (fld w 0 6) l lane0 lanes) := by
  have hl := h.vland hP (fld w 0 6)
  refine ⟨h.core, h.eng, ?_⟩
  have := hV _ x.t { due := x.at l, lane0 := lane0, lanes := lanes } hl.keeps
  rw [← h.core] at this
  exact this

variable (h : Onward c e P x k)
include h

theorem runArith_ends (code : Nat) (f : W32 → W32 → W32 × Ieee) : Ends (Leaves c e P) (Gives c e P) (runArith code f w x k) :=
  (needEng_ends _ _ _ _).bind fun _ _ => (vreg_ends hP h _).bind fun _ h1 => (vreg_ends hP h1 _).bind fun _ h2 =>
    (floatChecks_ends hP h2 _).bind fun _ h3 => ((h3.setV hP hV _ _ _).ieee _).gives

theorem runVfma_ends : Ends (Leaves c e P) (Gives c e P) (runVfma m w x k) :=
  (needEng_ends _ _ _ _).bind fun _ _ => (vreg_ends hP h _).bind fun _ h1 => (vreg_ends hP h1 _).bind fun _ h2 =>
    (vreg_ends hP h2 _).bind fun _ h3 => (floatChecks_ends hP h3 _).bind fun _ h4 => ((h4.setV hP hV _ _ _).ieee _).gives

theorem runVcmp_ends : Ends (Leaves c e P) (Gives c e P) (runVcmp m w x k) :=
  (needEng_ends _ _ _ _).bind fun _ _ => (vreg_ends hP h _).bind fun _ h1 => (vreg_ends hP h1 _).bind fun _ h2 =>
    ((h2.setV hP hV _ _ _).ieee _).gives

theorem runVsel_ends : Ends (Leaves c e P) (Gives c e P) (runVsel m w x k) :=
  (needEng_ends _ _ _ _).bind fun _ _ => (vreg_ends hP h _).bind fun _ h1 => (vreg_ends hP h1 _).bind fun _ h2 =>
    (vreg_ends hP h2 _).bind fun _ h3 => (h3.setV hP hV _ _ _).gives

theorem runVint_ends : Ends (Leaves c e P) (Gives c e P) (runVint m w x k) :=
  (needEng_ends _ _ _ _).bind fun _ _ => (vreg_ends hP h _).bind fun _ h1 => (vreg_ends hP h1 _).bind fun _ h2 =>
    (h2.setV hP hV _ _ _).gives

theorem runVcvt_ends : Ends (Leaves c e P) (Gives c e P) (runVcvt m w x k) :=
  (needEng_ends _ _ _ _).bind fun _ _ => (vreg_ends hP h _).bind fun _ h1 => (floatChecks_ends hP h1 _).bind fun _ h2 =>
    ((h2.setV hP hV _ _ _).ieee _).gives

theorem runVfn_ends : Ends (Leaves c e P) (Gives c e P) (runVfn m w x k) :=
  (needEng_ends _ _ _ _).bind fun _ _ => (vreg_ends hP (h.waitBusy _) _).bind fun _ h1 => (clear_ends _ _ _ _ _).bind fun _ _ =>
    (((h1.engine hP _).setV hP hV _ _ _).ieee _).gives

theorem runVred_ends : Ends (Leaves c e P) (Gives c e P) (runVred m w x k) :=
  (needEng_ends _ _ _ _).bind fun _ _ => (needs_ends h.keeps _ _).bind fun _ _ => (vreg_ends hP h _).bind fun _ h1 =>
    (floatChecks_ends hP h1 _).bind fun _ h2 => ((h2.setV hP hV _ _ _).ieee _).gives

theorem runVbcast_ends : Ends (Leaves c e P) (Gives c e P) (runVbcast m w x k) :=
  (needEng_ends _ _ _ _).bind fun _ _ => .ite ((vreg_ends hP h _).bind fun _ h1 => (h1.setV hP hV _ _ _).gives)
    (h.setV hP hV _ _ _).gives

end

theorem runVtos_ends (hP : ∀ u f, P u → P (u.updEngine c e f)) (h : Onward c e P x k) :
    Ends (Leaves c e P) (Gives c e P) (runVtos m w x k) :=
  (needEng_ends _ _ _ _).bind fun _ _ => (vreg_ends hP h _).bind fun _ h1 => (h1.setS hP _ _ _).gives

end

end Sys2Proof.Machine
end


section
/-!
PROOFS. The frame of an instruction without memory: what the engine's core keeps, whichever way the instruction ends, as long as
no fault has come of it.
-/
namespace Sys2Proof.Machine

/-! ### One core -/

theorem Core.setEngine_twice (k : Core) (e : Eng) (p q : Engine) : (k.setEngine e p).setEngine e q = k.setEngine e q := by
  cases e <;> rfl

/-- State `u` differs from `s` in core `c` alone, which is one of those that `R` allows but for its engine `e`. -/
structure Within (s : State) (c : Nat) (e : Eng) (R : Core → Prop) (u : State) : Prop where
  rest : u = { s with cores := u.cores }
  others : ∀ b, b ≠ c → u.core b = s.core b
  core : ∃ k, R k ∧ u.core c = k.setEngine e (u.engine c e)

section
variable {s u : State} {c : Nat} {e : Eng} {R : Core → Prop}

theorem Within.refl (h : R (s.core c)) : Within s c e R s := ⟨rfl, fun _ _ => rfl, _, h, (Core.setEngine_engine _ _).symm⟩

theorem Within.chk (h : Within s c e R u) : u.chk = s.chk := by rw [h.rest]

theorem Within.engine (h : Within s c e R u) (f : Engine → Engine) : Within s c e R (u.updEngine c e f) := by
  obtain ⟨k, hk, hcore⟩ := h.core
  refine ⟨?_, fun b hb => (State.core_updEngine_other u _ _ hb).trans (h.others b hb), k, hk, ?_⟩
  · have hrest := h.rest
    exact (congrArg (fun v : State => v.updEngine c e f) hrest).trans (by rw [hrest]; rfl)
  · rw [State.core_updEngine_same, State.engine_updEngine_same, hcore, Core.setEngine_twice, Core.engine_setEngine_same]

/-- A write to a part of the core that is no engine. -/
theorem Within.updCore (h : Within s c e R u) {f : Core → Core} (hf : ∀ k q, f (k.setEngine e q) = (f k).setEngine e q)
    (hR : ∀ k, R k → R (f k)) : Within s c e R (u.updCore c f) := by
  obtain ⟨k, hk, hcore⟩ := h.core
  refine ⟨?_, fun b hb => (State.core_updCore_other u f hb).trans (h.others b hb), f k, hR k hk, ?_⟩
  · have hrest := h.rest
    exact (congrArg (fun v : State => v.updCore c f) hrest).trans (by rw [hrest]; rfl)
  · rw [State.engine, State.core_updCore_same, hcore, hf, Core.engine_setEngine_same]

end

/-! ### Issue -/

/-- However often an instruction is begun anew, it ends in one of its ways. -/
theorem issueAt_ends {c : Nat} {e : Eng} {P : State → Prop} {Q : Issued → Prop} {body : Ctx → Work → Except Halt Issued} {x : Ctx}
    {k : Work} (hb : ∀ r, Ends (Leaves c e P) Q (body { x with r := r } k)) (l : List Nat) :
    Ends (Leaves c e P) Q (issueAt body x k l) := by
  induction l generalizing x with
  | nil => exact hb x.r
  | cons d l ih =>
    have hx := hb x.r
    have hagain := ih (x := { x with r := d }) hb
    change Ends _ _ (body x k) at hx
    rw [issueAt]
    cases hbody : body x k with
    | ok i =>
      rw [hbody] at hx
      exact .ite hagain hx
    | error halt =>
      rw [hbody] at hx
      cases halt with
      | stop cause d part => exact hx
      | cut y v => exact .ite hagain hx
      | hold kind =>
        dsimp only
        cases hrest : issueAt body { x with r := d } k l with
        | ok i =>
          rw [hrest] at hagain
          exact .ite hagain trivial
        | error _ => trivial

section
variable {s : State} {c : CoreId} {e : Eng} {j : Job} {op : Nat} {plan : Bool} {body : Ctx → Work → Except Halt Issued}
  {R : Core → Prop} (hR : ∀ k, R k → k.mpend = (s.core c.val).mpend) (hinv : s.inv = true) (hroom : Roomy s)

/-- What an instruction leaves as it was: everything but its core, and every byte. -/
structure Framed (s t : State) (c : CoreId) (e : Eng) (R : Core → Prop) : Prop where
  cores : OnlyCores s t
  others : OtherCores s t c
  bytes : SameBytes s t c
  core : ∃ k, R k ∧ k.faults = [] ∧ t.core c.val = { k.setEngine e (t.engine c.val e) with
    mpend := (t.core c.val).mpend, claims := (t.core c.val).claims, obs := (t.core c.val).obs }

include hR hinv hroom in
/-- An issue of which no fault has come. -/
theorem commit_framed {i : Issued} (hi : Gives c.val e (Within s c.val e R) i) (hq : (commit i op plan).chk = s.chk)
    (hf : ((commit i op plan).core c.val).faults = []) : Framed s (commit i op plan) c e R := by
  obtain ⟨hc, he, hhere, hw⟩ := hi
  obtain ⟨k, hk, hcore⟩ := hw.core
  have hchk := hw.chk
  rw [← hc] at hf
  obtain ⟨hrecs, hlate, hfaults⟩ := commit_quiet (hroom.of_chk hchk) (hq.trans hchk.symm) hf
  have hcommitted := commit_committed i op plan hrecs hlate hfaults
  obtain ⟨u, hu, hops, hcommit⟩ := commit_eq_raiseRecs i op plan
  have hpend : (i.w.s.core c.val).mpend = (s.core c.val).mpend := by
    rw [hcore, Core.setEngine_mpend]
    exact hR k hk
  have hsorted : landSorted (i.w.s.core i.x.c).mpend = true := by
    rw [hc, hpend]
    exact s.inv_mpend hinv c.val
  obtain ⟨-, -, -, hbytes⟩ := commit_bytes i op plan hrecs hlate hfaults hsorted
  have htidy : (commit i op plan).ops = i.w.s.ops := by
    have hufaults : (u.core i.x.c).faults = [] := by
      rw [hu.core, Issued.issued, State.core_updCore_same, State.core_updEngine_same, hlate, List.append_nil]
      exact (Core.setEngine_faults _ _ _).trans hfaults
    have hland : (u.tidy i.x.c).ops = u.ops := by
      rw [tidy_eq hufaults]
      show (u.settle i.x.c _).ops = u.ops
      rw [(settle_onlyLand u i.x.c _).rest]
    rw [hcommit, hrecs]
    exact hland.trans (hops hhere)
  refine ⟨?_, fun b hb => ?_, fun a => ?_, k, hk, ?_, ?_⟩
  · have h1 := hcommitted.rest
    rw [htidy, hw.rest] at h1
    exact h1
  · exact (hcommitted.others b (hc ▸ hb)).trans (hw.others b hb)
  · rw [readNow_byte_iff, ← hc, hbytes, hc]
    exact State.byteNow_congr (by rw [hw.rest]) hpend a
  · rw [hc, hcore, Core.setEngine_faults] at hfaults
    exact hfaults
  · have h1 := hcommitted.core
    have hengine := hcommitted.engine
    rw [hc, he] at h1 hengine
    rw [hengine]
    rw [hcore, Core.engine_setEngine_same, Core.setEngine_twice] at h1
    exact h1

include hR hinv hroom in
/-- The frame of an instruction of a ready engine that touches no memory, however it ends: it issues, it waits, or a fault comes
of it, which is heard. -/
theorem runInstr_framed (h : Ready s c e j) (hstart : R (s.core c.val)) (hb : ∀ x k, Onward c.val e (Within s c.val e R) x k →
      Ends (Leaves c.val e (Within s c.val e R)) (Gives c.val e (Within s c.val e R)) (body x k))
    (hq : (runInstr s c e op plan body).chk = s.chk) (hf : ((runInstr s c e op plan body).core c.val).faults = []) :
    Framed s (runInstr s c e op plan body) c e R := by
  have hself : Within s c.val e R s := .refl hstart
  have hends := issueAt_ends (x := s.head c e j) (k := s.work (s.head c e j).t) (fun r => hb _ _ ⟨rfl, rfl, hself⟩)
    ((s.engine c.val e).dues (s.engine c.val e).next)
  have hrun := runInstr_ready h op plan body
  cases hissue : issueAt body (s.head c e j) (s.work (s.head c e j).t) ((s.engine c.val e).dues (s.engine c.val e).next) with
  | ok i =>
    rw [hissue] at hends hrun
    rw [hrun] at hq hf ⊢
    exact commit_framed hR hinv hroom hends hq hf
  | error halt =>
    rw [hissue] at hends hrun
    cases halt with
    | stop cause d part =>
      rw [hrun] at hq
      exact absurd hq (stopAt_louder hroom fun p hp => (hends p hp).chk).chk_ne
    | cut y v =>
      obtain ⟨⟨hyc, hye⟩, hv⟩ := hends
      rw [hrun] at hq hf ⊢
      exact commit_framed hR hinv hroom ⟨hyc, hye, rfl, hv⟩ hq hf
    | hold kind =>
      rw [hrun]
      refine ⟨rfl, fun b hb => State.core_updEngine_other s _ _ hb, fun a => ?_, _, hstart, h.faults, ?_⟩
      · rw [readNow_byte_iff]
        exact State.byteNow_congr (s := s) (t := s.updEngine _ _ _) rfl
          (by rw [State.core_updEngine_same, Core.setEngine_mpend]) a
      · rw [State.engine_updEngine_same, State.core_updEngine_same] <;> rfl

end

/-! ### What the core keeps -/

/-- Core `k` with other counters, of which counter `n` alone has changed, and faults on their way. -/
def CounterOnly (k : Core) (n : Nat) (o : Core) : Prop :=
  ∃ cs fs, o = { k with counters := cs, faults := fs } ∧ ∀ i, i ≠ n → AMap.get Counter.reset cs i = AMap.get Counter.reset k.counters i

theorem CounterOnly.refl (k : Core) (n : Nat) : CounterOnly k n k := ⟨_, _, rfl, fun _ _ => rfl⟩

theorem CounterOnly.set {k o : Core} {n : Nat} (h : CounterOnly k n o) (v : Counter) :
    CounterOnly k n { o with counters := AMap.set Counter.reset o.counters n v } := by
  obtain ⟨cs, fs, rfl, hcs⟩ := h
  exact ⟨_, fs, rfl, fun i hi => (AMap.get_set_other _ _ _ hi).trans (hcs i hi)⟩

theorem CounterOnly.fault {k o : Core} {n : Nat} (h : CounterOnly k n o) (f : TFault) :
    CounterOnly k n { o with faults := o.faults ++ [f] } := by
  obtain ⟨cs, fs, rfl, hcs⟩ := h
  exact ⟨cs, _, rfl, hcs⟩

/-- Core `k` with other vector registers, of which register `d` alone has changed. -/
def RegisterOnly (k : Core) (d : Nat) (o : Core) : Prop :=
  ∃ vs, o = { k with vregs := vs } ∧ ∀ r, r ≠ d → AMap.get VReg.zero vs r = AMap.get VReg.zero k.vregs r

theorem RegisterOnly.refl (k : Core) (d : Nat) : RegisterOnly k d k := ⟨_, rfl, fun _ _ => rfl⟩

theorem RegisterOnly.upd {k o : Core} {d : Nat} (h : RegisterOnly k d o) (f : VReg → VReg) :
    RegisterOnly k d { o with vregs := AMap.upd VReg.zero o.vregs d f } := by
  obtain ⟨vs, rfl, hvs⟩ := h
  exact ⟨_, rfl, fun r hr => (AMap.get_upd_other _ _ _ hr).trans (hvs r hr)⟩

/-! ### The obligation -/

section
variable {s t : State} {c : CoreId} {e : Eng} {j : Job} {op : Nat} {plan : Bool} {body : Ctx → Work → Except Halt Issued}
  (h : Ready s c e j) (hinv : s.inv = true) (hroom : Roomy s) (hq : t.chk = s.chk) (hf : (t.core c.val).faults = [])
  (ht : Host.Outcome.next (φ := Fault) (ρ := Refusal) (runInstr s c e op plan body) = .next t)
include h hinv hroom hq hf ht

/-- An instruction that writes its engine alone. -/
theorem onlyEngine_of_ends (hb : ∀ (P : State → Prop), (∀ u f, P u → P (u.updEngine c.val e f)) → ∀ x k, Onward c.val e P x k →
      Ends (Leaves c.val e P) (Gives c.val e P) (body x k)) :
    (OnlyCores s t ∧ OtherCores s t c ∧ SameBytes s t c) ∧ OnlyEngine s t c e := by
  obtain rfl := Host.Outcome.next.inj ht
  obtain ⟨hcores, hothers, hbytes, k, rfl, -, hcore⟩ := runInstr_framed (R := fun k => k = s.core c.val) (fun k hk => hk ▸ rfl) hinv hroom
    h rfl (hb _ fun u f hu => hu.engine f) hq hf
  exact ⟨⟨hcores, hothers, hbytes⟩, hcore⟩

/-- An instruction that writes its engine and counter `n`. -/
theorem onlyCounter_of_ends {n : Nat} (hb : ∀ (P : State → Prop), (∀ u f, P u → P (u.updEngine c.val e f)) →
      (∀ u v, P u → P (u.setCounter c.val n v)) → (∀ u f, P u → P (u.addFault c.val f)) → ∀ x k, Onward c.val e P x k →
      Ends (Leaves c.val e P) (Gives c.val e P) (body x k)) :
    (OnlyCores s t ∧ OtherCores s t c ∧ SameBytes s t c) ∧
      t.core c.val = { (s.core c.val).setEngine e (t.engine c.val e) with
        mpend := (t.core c.val).mpend, claims := (t.core c.val).claims, obs := (t.core c.val).obs,
        counters := (t.core c.val).counters } ∧ ∀ i, i ≠ n → t.counter c.val i = s.counter c.val i := by
  obtain rfl := Host.Outcome.next.inj ht
  obtain ⟨hcores, hothers, hbytes, k, ⟨cs, fs, rfl, hcs⟩, hfs, hcore⟩ := runInstr_framed (R := CounterOnly (s.core c.val) n)
    (fun k ⟨cs, fs, hk, _⟩ => hk ▸ rfl) hinv hroom h (.refl _ _) (hb _ (fun u f hu => hu.engine f)
      (fun u v hu => hu.updCore (fun k q => by cases e <;> rfl) fun k hk => hk.set v)
      fun u f hu => hu.updCore (fun k q => by cases e <;> rfl) fun k hk => hk.fault f) hq hf
  change fs = [] at hfs
  subst hfs
  refine ⟨⟨hcores, hothers, hbytes⟩, ?_, fun i hi => ?_⟩
  · generalize runInstr s c e op plan body = t at hcore ⊢
    have hcounters := congrArg Core.counters hcore
    change _ = (Core.setEngine _ e _).counters at hcounters
    rw [Core.setEngine_counters] at hcounters
    rw [hcounters, hcore]
    have hfaults := h.faults
    generalize s.core c.val = k at hfaults
    cases k
    dsimp only at hfaults
    subst hfaults
    cases e <;> rfl
  · rw [State.counter, hcore]
    show AMap.get Counter.reset (Core.setEngine _ e _).counters i = _
    rw [Core.setEngine_counters]
    exact hcs i hi

/-- An instruction that writes its engine and vector register `d`. -/
theorem onlyRegister_of_ends {d : Nat} (hb : ∀ (P : State → Prop), (∀ u f, P u → P (u.updEngine c.val e f)) →
      (∀ u t p, P u → P (u.updCore c.val fun o => { o with vregs := AMap.upd VReg.zero o.vregs d fun r => r.put t p })) →
      ∀ x k, Onward c.val e P x k → Ends (Leaves c.val e P) (Gives c.val e P) (body x k)) :
    (OnlyCores s t ∧ OtherCores s t c ∧ SameBytes s t c) ∧
      t.core c.val = { (s.core c.val).setEngine e (t.engine c.val e) with
        mpend := (t.core c.val).mpend, claims := (t.core c.val).claims, obs := (t.core c.val).obs, vregs := (t.core c.val).vregs } ∧
      ∀ r, r ≠ d → AMap.get VReg.zero (t.core c.val).vregs r = AMap.get VReg.zero (s.core c.val).vregs r := by
  obtain rfl := Host.Outcome.next.inj ht
  obtain ⟨hcores, hothers, hbytes, k, ⟨vs, rfl, hvs⟩, -, hcore⟩ := runInstr_framed (R := RegisterOnly (s.core c.val) d)
    (fun k ⟨vs, hk, _⟩ => hk ▸ rfl) hinv hroom h (.refl _ _) (hb _ (fun u f hu => hu.engine f)
      fun u t p hu => hu.updCore (fun k q => by cases e <;> rfl) fun k hk => hk.upd _) hq hf
  have hregs : ((runInstr s c e op plan body).core c.val).vregs = vs := by
    rw [hcore]
    cases e <;> rfl
  refine ⟨⟨hcores, hothers, hbytes⟩, ?_, fun r hr => by rw [hregs]; exact hvs r hr⟩
  rw [hregs, hcore]
  cases e <;> rfl

end

/-- Settles O23: each instruction's ways to end keep what writes to its engine, its counter or its register keep. -/
theorem frameOfRegisterForms : Obligations.FrameOfRegisterForms := by
  intro s t c e j m w h hinv hroom hq hf elsewhere k v
  refine ⟨fun i hi ht => ?engine, fun i hi ht => ?counter, fun he i hi ht => ?vector, fun he ht => ?vtos⟩
  case engine =>
    simp only [List.mem_cons, List.not_mem_nil, or_false] at hi
    rcases hi with rfl | rfl | rfl | rfl | rfl | rfl | rfl | rfl | rfl | rfl | rfl | rfl | rfl | rfl
    · exact onlyEngine_of_ends h hinv hroom hq hf ht fun P hP x k ho => runNop_ends ho
    · exact onlyEngine_of_ends h hinv hroom hq hf ht fun P hP x k ho => runPad_ends ho
    · exact onlyEngine_of_ends h hinv hroom hq hf ht fun P hP x k ho => runLoop_ends hP ho
    · exact onlyEngine_of_ends h hinv hroom hq hf ht fun P hP x k ho => runEndloop_ends hP ho
    · exact onlyEngine_of_ends h hinv hroom hq hf ht fun P hP x k ho => runCall_ends hP ho
    · exact onlyEngine_of_ends h hinv hroom hq hf ht fun P hP x k ho => runRet_ends hP ho
    · exact onlyEngine_of_ends h hinv hroom hq hf ht fun P hP x k ho => runRelease_ends hP ho
    · exact onlyEngine_of_ends h hinv hroom hq hf ht fun P hP x k ho => runBarrier_ends hP ho
    · exact onlyEngine_of_ends h hinv hroom hq hf ht fun P hP x k ho => runSset_ends hP ho
    · exact onlyEngine_of_ends h hinv hroom hq hf ht fun P hP x k ho => runSop_ends hP ho
    · exact onlyEngine_of_ends h hinv hroom hq hf ht fun P hP x k ho => runSopi_ends hP ho
    · exact onlyEngine_of_ends h hinv hroom hq hf ht fun P hP x k ho => runAset_ends hP ho
    · exact onlyEngine_of_ends h hinv hroom hq hf ht fun P hP x k ho => runAadd_ends hP ho
    · exact onlyEngine_of_ends h hinv hroom hq hf ht fun P hP x k ho => runSrd_ends hP ho
  case counter =>
    simp only [List.mem_cons, List.not_mem_nil, or_false] at hi
    rcases hi with rfl | rfl | rfl
    · exact onlyCounter_of_ends h hinv hroom hq hf ht fun P hP hC hF x k ho => runWait_ends ho hC
    · exact onlyCounter_of_ends h hinv hroom hq hf ht fun P hP hC hF x k ho => runAcquire_ends ho hC
    · exact onlyCounter_of_ends h hinv hroom hq hf ht fun P hP hC hF x k ho => runSignal_ends ho hC hP hF
  case vector =>
    subst he
    simp only [List.mem_cons, List.not_mem_nil, or_false] at hi
    rcases hi with rfl | rfl | rfl | rfl | rfl | rfl | rfl | rfl | rfl | rfl | rfl | rfl | rfl
    iterate 5 exact onlyRegister_of_ends h hinv hroom hq hf ht fun P hP hV x k ho => runArith_ends hP hV ho _ _
    · exact onlyRegister_of_ends h hinv hroom hq hf ht fun P hP hV x k ho => runVfma_ends hP hV ho
    · exact onlyRegister_of_ends h hinv hroom hq hf ht fun P hP hV x k ho => runVcmp_ends hP hV ho
    · exact onlyRegister_of_ends h hinv hroom hq hf ht fun P hP hV x k ho => runVsel_ends hP hV ho
    · exact onlyRegister_of_ends h hinv hroom hq hf ht fun P hP hV x k ho => runVint_ends hP hV ho
    · exact onlyRegister_of_ends h hinv hroom hq hf ht fun P hP hV x k ho => runVcvt_ends hP hV ho
    · exact onlyRegister_of_ends h hinv hroom hq hf ht fun P hP hV x k ho => runVfn_ends hP hV ho
    · exact onlyRegister_of_ends h hinv hroom hq hf ht fun P hP hV x k ho => runVred_ends hP hV ho
    · exact onlyRegister_of_ends h hinv hroom hq hf ht fun P hP hV x k ho => runVbcast_ends hP hV ho
  case vtos =>
    subst he
    exact onlyEngine_of_ends h hinv hroom hq hf ht fun P hP x k ho => runVtos_ends hP ho

end Sys2Proof.Machine
end


section
/-!
PROOFS. The invariant as a predicate that each operation of the state keeps: memory in its canonical form, and in every core that
is listed the writes by landing cycle and the results of each vector register by due cycle (R94, R160, R188).
-/
namespace Sys2Proof.Machine

/-- The lists that wait in a core stand in order. -/
def Core.Ordered (k : Core) : Prop := landSorted k.mpend = true ∧ ∀ v ∈ k.vregs, dueSorted v.2.pend = true

/-- The invariant as a proposition: memory is canonical, and every listed core is in order. -/
structure State.Inv (s : State) : Prop where
  mem : Memory.wf s.mem = true
  cores : ∀ ck ∈ s.cores, ck.2.Ordered

theorem State.inv_iff_Inv {s : State} : s.inv = true ↔ s.Inv :=
  State.inv_iff.trans ⟨fun ⟨hm, hc⟩ => ⟨hm, hc⟩, fun ⟨hm, hc⟩ => ⟨hm, hc⟩⟩

/-! ### Cores -/

theorem Core.ordered_reset : Core.reset.Ordered := ⟨rfl, fun _ hv => absurd hv List.not_mem_nil⟩

/-- Every entry of a map of which one entry is replaced is the new one or an old one. -/
theorem AMap.mem_set {α : Type} [DecidableEq α] {d : α} {m : AMap α} {k : Nat} {v : α} {x : Nat × α} (hx : x ∈ AMap.set d m k v) :
    x = (k, v) ∨ x ∈ m := by
  unfold AMap.set at hx
  split at hx
  · exact .inr (AMap.erase_sub m k x hx)
  · exact (AMap.mem_ins hx).imp_right (AMap.erase_sub m k x)

/-- What a map reads as is listed, or is the default. -/
theorem AMap.get_ind {α : Type} {d : α} {m : AMap α} {P : α → Prop} (hd : P d) (hm : ∀ x ∈ m, P x.2) (k : Nat) : P (AMap.get d m k) := by
  by_cases h : AMap.get d m k = d
  · rw [h]
    exact hd
  · exact hm _ (AMap.mem_of_get_ne h)

namespace State.Inv

section
variable {s : State} (h : s.Inv)
include h

/-- A state with the memory and the cores of one that has the invariant. -/
theorem of_eq {t : State} (ht : (t.mem, t.cores) = (s.mem, s.cores)) : t.Inv :=
  have ⟨hm, hc⟩ := Prod.mk.inj ht
  ⟨hm ▸ h.mem, hc ▸ h.cores⟩

theorem core (c : Nat) : (s.core c).Ordered := AMap.get_ind Core.ordered_reset h.cores c

theorem setCore {c : Nat} {k : Core} (hk : k.Ordered) : (s.setCore c k).Inv := by
  refine ⟨h.mem, fun ck hck => ?_⟩
  obtain rfl | hck := AMap.mem_set hck
  · exact hk
  · exact h.cores ck hck

theorem updCore {c : Nat} {f : Core → Core} (hf : ∀ k : Core, k.Ordered → (f k).Ordered) : (s.updCore c f).Inv :=
  h.setCore (hf _ (h.core c))

theorem updEngine {c : Nat} {e : Eng} {f : Engine → Engine} : (s.updEngine c e f).Inv := by
  refine h.updCore fun k hk => ?_
  unfold Core.Ordered
  rw [Core.setEngine_mpend, Core.setEngine_vregs]
  exact hk

theorem writeAt {c land a : Nat} {d : List Byte} {eng : Nat} : (s.writeAt c land a d eng).Inv :=
  h.updCore fun _ hk => ⟨landSorted_insWrite _ hk.1, hk.2⟩

theorem writeNow {a : Nat} {d : List Byte} : (s.writeNow a d).Inv := ⟨memPut_wf a d h.mem, h.cores⟩

end

theorem foldl {α : Type} {l : List α} {s : State} {f : State → α → State} (h : s.Inv) (hf : ∀ u a, u.Inv → (f u a).Inv) :
    (l.foldl f s).Inv := by
  induction l generalizing s with
  | nil => exact h
  | cons a l ih => exact ih (hf s a h)

theorem ite {p : Prop} [Decidable p] {s t : State} (hs : s.Inv) (ht : t.Inv) : (if p then s else t).Inv := by
  split
  · exact hs
  · exact ht

end State.Inv

theorem landSorted_filter {l : List MWrite} (p : MWrite → Bool) (h : landSorted l = true) : landSorted (l.filter p) = true :=
  landSorted_iff.2 ((landSorted_iff.1 h).filter p)

/-! ### Landing -/

namespace State.Inv

section
variable {s : State} (h : s.Inv)
include h

theorem settle {c t : Nat} : (s.settle c t).Inv := by
  unfold State.settle
  rw [List.partition_eq_filter_filter]
  split
  next now later heq =>
  obtain ⟨-, rfl⟩ := Prod.mk.inj heq
  split
  · exact h
  · have hcores := h.updCore (c := c) (f := fun k => { k with mpend := (s.core c).mpend.filter (not ∘ fun w => decide (w.land < t)) })
      fun _ hk => ⟨landSorted_filter _ (h.core c).1, hk.2⟩
    exact ⟨land_wf _ h.mem, hcores.cores⟩

theorem settleAll {c : Nat} : (s.settleAll c).Inv := by
  unfold State.settleAll
  split
  · exact h
  · have hcores := h.updCore (c := c) (f := fun k => { k with mpend := [] }) fun _ hk => ⟨rfl, hk.2⟩
    exact ⟨land_wf _ h.mem, hcores.cores⟩

end

/-! ### Observation and what leaves the module -/

section
variable {s : State} (h : s.Inv)
include h

theorem updPass {k : Nat} {u : Pass → Pass} : (s.updPass k u).Inv := by
  unfold State.updPass
  split <;> exact h.of_eq (by rfl)

theorem interrupt {f : FnId} {v : Fin 128} : (s.interrupt f v).Inv := by
  unfold State.interrupt
  dsimp only
  split_ifs <;> exact h.of_eq (by rfl)

theorem logTo {f : FnId} {ty cause : Byte} {p : List Byte} : (s.logTo f ty cause p).Inv := by
  unfold State.logTo
  split
  · exact h.of_eq (by rfl)
  · exact interrupt (h.of_eq (by rfl))

theorem traceTo {f : FnId} {ty cause : Byte} {p : List Byte} : (s.traceTo f ty cause p).Inv := by
  rw [traceTo_only]
  exact h.of_eq (by rfl)

theorem logBoth {f : Option FnId} {ty cause : Byte} {p : List Byte} : (s.logBoth f ty cause p).Inv := by
  unfold State.logBoth
  dsimp only
  split
  · exact ite h.logTo h.logTo.logTo
  · exact h.logTo

theorem traceAll {ty : Byte} {p : List Byte} : (s.traceAll ty p).Inv := h.foldl fun _ _ hu => hu.traceTo

theorem logRefused {f : FnId} {a : Nat} {kind : Byte} : (s.logRefused f a kind).Inv := h.logTo

theorem sensed {x : PldmSensor} : (s.sensed x).Inv := by
  unfold State.sensed
  split_ifs <;> exact h.of_eq (by rfl)

theorem startScrub {f : FnId} {space : Nat} : (s.startScrub f space).Inv := ite (h.of_eq (by rfl)) (h.of_eq (by rfl))

theorem countAt {c : Nat} {eng : Option Nat} {code start len n : Nat} : (s.countAt c eng code start len n).Inv := by
  unfold State.countAt
  exact ite h (h.foldl fun u i hu => ite (hu.updCore (by exact fun _ => id)) hu)

theorem count {c : Nat} {eng : Option Nat} {code start len n : Nat} : (s.count c eng code start len n).Inv := h.countAt

theorem countNow {c code : Nat} : (s.countNow c code).Inv := h.countAt

theorem ledger {c : Nat} {e : Eng} {col start n : Nat} : (s.ledger c e col start n).Inv := by
  unfold State.ledger
  exact ite h (count (h.updCore (by exact fun _ => id)))

end

/-! ### Descriptors and passes -/

section
variable {s : State} (h : s.Inv)
include h

theorem moderate {f : FnId} {cq : RingId} : (s.moderate f cq).Inv := by
  unfold State.moderate
  exact ite (interrupt (h.of_eq (by rfl))) (h.of_eq (by rfl))

theorem complete1 {f : FnId} {r : RingId} {i : BitVec 12} {st : Status} {x : CplInfo} : (s.complete1 f r i st x).Inv := by
  unfold State.complete1
  dsimp only
  split
  · exact h.of_eq (by rfl)
  · split
    · split
      · exact h.of_eq (by rfl)
      · exact moderate (h.of_eq (by rfl))
    · exact h.of_eq (by rfl)

omit h in
theorem settleHost {n : Nat} {s : State} {f : FnId} (h : s.Inv) : (settleHost n s f).Inv := by
  induction n generalizing s with
  | zero => exact h
  | succ n ih =>
    unfold Machine.settleHost
    split
    · exact h.of_eq (by rfl)
    · exact ih h.complete1
    · exact ih h.complete1

theorem complete {f : FnId} {r : RingId} {i : BitVec 12} {st : Status} {x : CplInfo} : (s.complete f r i st x).Inv :=
  h.complete1.settleHost

theorem finish {f : FnId} {r : RingId} {i : BitVec 12} {st : Status} : (s.finish f r i st).Inv := h.complete

theorem respond {q : Mbx} {st : Status} {d : BitVec 16} {p : List Byte} : (s.respond q st d p).Inv := interrupt (h.of_eq (by rfl))

theorem answer {q : Mbx} {st : Status} {d : BitVec 16} {p : List Byte} : (s.answer q st d p).Inv :=
  (interrupt (s := s.emit (.response q.f q.respAddr q.seq st d p)) (h.of_eq (by rfl))).of_eq (by rfl)

theorem mailbox {q : Mbx} {allowed : Bool} {run : State → State} (hrun : (run s).Inv) : (s.mailbox q allowed run).Inv := by
  unfold State.mailbox
  refine ite (ite hrun h) (ite h ?_)
  split
  · split
    · exact h.answer
    · exact h.of_eq (by rfl)
  · exact ite h.answer (ite h.respond (ite h.respond hrun))

theorem setPassState {k : Nat} {st : PassState} : (s.setPassState k st).Inv := by
  unfold State.setPassState
  split
  · exact h.of_eq (by rfl)
  · exact traceTo (h.of_eq (by rfl))

theorem traceGen {f : FnId} {g : W32} {a b : GenState} : (s.traceGen f g a b).Inv := ite h h.traceTo

theorem retireOld {f : FnId} : (s.retireOld f).Inv := foldl (h.of_eq (by rfl)) fun _ _ hu => hu.traceGen

theorem freeRefusal : s.freeRefusal.2.Inv := h.of_eq (by rfl)

theorem dropSlots {f : FnId} {g : W32} : (s.dropSlots f g).Inv := by
  refine h.foldl fun u kv hu => ?_
  split
  · split_ifs
    · split
      · exact finish (hu.of_eq (by rfl))
      · exact hu.of_eq (by rfl)
    · exact hu.of_eq (by rfl)
  · exact hu.of_eq (by rfl)

theorem discarded {f : FnId} {g : Gen} : (s.discarded f g).Inv := by
  unfold State.discarded
  dsimp only
  split
  · exact finish (h.dropSlots.of_eq (by rfl))
  · exact h.dropSlots

theorem setSkein {st : SkeinState} : (s.setSkein st).Inv := ite h (traceTo (h.of_eq (by rfl)))

theorem leaveSkein : s.leaveSkein.Inv := (h.setSkein (st := .none)).of_eq (by rfl)

theorem settlePreempt {f : FnId} : (s.settlePreempt f).Inv := by
  unfold State.settlePreempt
  refine ite ?_ h
  split
  · exact h.finish
  · exact h.of_eq (by rfl)

theorem afterPass {p : Pass} : (s.afterPass p).Inv :=
  have hold : ((s.updFn p.fn.val fun u => { u with account := u.account + p.frames }).retireOld p.fn).Inv := retireOld (h.of_eq (by rfl))
  settlePreempt (ite hold.leaveSkein hold)

theorem passes {m : AMap (Option Pass)} : ({ s with passes := m } : State).Inv := h.of_eq (by rfl)

theorem completePass {k : Nat} {st : Status} {summary : W64} {cert : Bool} : (s.completePass k st summary cert).Inv := by
  unfold State.completePass
  split
  · exact h.of_eq (by rfl)
  · have hstate := h.setPassState (k := k) (st := .complete)
    exact afterPass (passes (complete (ite hstate (ite (hstate.of_eq (by rfl)) (hstate.of_eq (by rfl))))))

end

end State.Inv

end Sys2Proof.Machine
end


section
/-!
PROOFS. Raising a fault keeps the invariant (R219, R312, R369 to R376), whatever it ends: an engine, a pass, a skein, the module.
-/
namespace Sys2Proof.Machine
namespace State.Inv

section
variable {s : State} (h : s.Inv)
include h

theorem queueRecord {n : Nat} {r : FaultRecord} : (s.queueRecord n r).Inv := ite (h.of_eq (by rfl)) (h.of_eq (by rfl))

theorem sendTo {l : List Nat} {m : StitchMsg} : (s.sendTo l m).Inv := h.foldl fun _ _ hu => hu.of_eq (by rfl)

theorem closeLedger {c t : Nat} : (s.closeLedger c t).Inv := h.foldl fun _ _ hu => hu.ledger

theorem chargeEnd {c : Nat} : (s.chargeEnd c).Inv := by
  unfold State.chargeEnd
  split <;> exact h.of_eq (by rfl)

theorem haltCore {c n : Nat} : (s.haltCore c n).Inv := by
  unfold State.haltCore
  dsimp only
  exact updCore (settleAll (closeLedger h.chargeEnd)) (by exact fun _ => id)

theorem dyeAbandoned {p : Pass} {l : List Nat} : (s.dyeAbandoned p l).Inv := by
  refine h.foldl fun u kv hu => ?_
  split
  · split
    · exact ite hu.traceTo hu
    · exact hu
  · exact hu

theorem abandon {k : Nat} {st : Status} {noRetry : Bool} : (s.abandon k st noRetry).Inv := by
  unfold State.abandon
  split
  · exact h
  · next p _ =>
    split
    · exact h
    · exact h
    · exact ite (h.of_eq (by rfl)) (ite (h.of_eq (by rfl)) h)
    · extract_lets before cores s1 s2 s3 s4 s5
      have h2 : s2.Inv := dyeAbandoned (h.foldl fun _ _ hu => hu.haltCore)
      have h3 : s3.Inv := h2.of_eq (by rfl)
      have h5 : s5.Inv := setPassState (h3.of_eq (by rfl))
      exact ite (h5.of_eq (by rfl)) h5

theorem breakSkein {field : Byte} {subject : BitVec 12} {from' : Option Nat} : (s.breakSkein field subject from').Inv := by
  unfold State.breakSkein
  refine ite ?_ h
  extract_lets s1 out s2 s3 mine
  have h1 : s1.Inv := h.of_eq (by rfl)
  have h3 : s3.Inv := setSkein (ite h1.sendTo h1)
  exact h3.foldl fun u kp hu => ite hu.completePass hu.abandon

theorem refuseFetched : s.refuseFetched.Inv := h.foldl fun _ _ hu => hu.foldl fun _ _ hv => hv.finish

theorem fatalStop {r : FaultRecord} : (s.fatalStop r).Inv := by
  have h1 : ({ s.sensed .moduleState with
      chk := { s.chk with fatal := true, cause := r.cause.code, detail := r.detail }, scheduled := false, modePending := none } : State).Inv :=
    h.sensed.of_eq (by rfl)
  refine refuseFetched (breakSkein (h1.foldl fun u kp hu => ?_))
  exact ite (completePass hu.updPass) (updPass (abandon hu.updPass))

theorem raise {src : Src} {cause : Cause} {d : Byte} {touch : Option Nat} : (s.raise src cause d touch).Inv := by
  unfold State.raise
  dsimp only
  split
  · exact h.queueRecord
  · exact h.queueRecord.fatalStop
  · split
    · exact ite h.queueRecord (abandon (h.queueRecord.of_eq (by rfl)))
    · exact h.queueRecord

theorem raiseFatal {src : Src} {cause : Cause} {d : Byte} : (s.raiseFatal src cause d).Inv := h.queueRecord.fatalStop

theorem raiseEng {c : Nat} {e : Eng} {cause : Cause} {d : Byte} : (s.raiseEng c e cause d).Inv := h.raise

theorem raiseCore {c : Nat} {cause : Cause} {d : Byte} : (s.raiseCore c cause d).Inv := h.raise

theorem raiseGroup {c : Nat} {pass : Option Nat} {l : List TFault} : (s.raiseGroup c pass l).Inv := by
  cases l with
  | nil => exact h
  | cons f l =>
    unfold State.raiseGroup
    dsimp only
    split
    · exact h.count.raise
    · exact h.raise

theorem addFault {c : Nat} {f : TFault} : (s.addFault c f).Inv := h.updCore (by exact fun _ => id)

omit h in
theorem ripenN {c t n : Nat} {s : State} (h : s.Inv) : (s.ripenN c t n).Inv := by
  induction n generalizing s with
  | zero => exact h
  | succ n ih =>
    unfold State.ripenN
    split
    · exact h
    · exact ih (foldl (h.updCore (by exact fun _ => id)) fun _ _ hu => hu.raiseGroup)

theorem ripen {c t : Nat} : (s.ripen c t).Inv := h.ripenN

theorem stopFault {c : Nat} {e : Eng} {t : Nat} {cause : Cause} {d : Byte} : (s.stopFault c e t cause d).Inv :=
  ite h.addFault.ripen h.raiseEng

end

end State.Inv
end Sys2Proof.Machine
end


section
/-!
PROOFS. The invariant through the accesses of an instruction: bobbins, ports, local reads and writes (R161, R168 to R173, R177 to
R186), and what a halted instruction leaves.
-/
namespace Sys2Proof.Machine

/-- What an instruction that halts has done has the invariant. -/
def Halt.Inv : Halt → Prop
  | .stop _ _ part => ∀ p, part = some p → p.s.Inv
  | .cut _ k => k.s.Inv
  | .hold _ => True

theorem Leaves.inv {c : Nat} {e : Eng} {halt : Halt} (h : Leaves c e State.Inv halt) : halt.Inv := by
  cases halt with
  | stop cause d part => exact h
  | cut x v => exact h.2
  | hold kind => trivial

/-- A step that leaves and gives the invariant at one engine leaves and gives it. -/
theorem Ends.inv {α : Type} {c : Nat} {e : Eng} {Q : α → Prop} {a : Except Halt α} (h : Ends (Leaves c e State.Inv) Q a) :
    Ends Halt.Inv Q a := by
  cases a with
  | ok v => exact h
  | error halt => exact Leaves.inv h

theorem Ends.pure {α : Type} {H : Halt → Prop} {Q : α → Prop} {a : α} (h : Q a) : Ends H Q (Pure.pure a) := h

/-- A fold of steps that may fail keeps what each of them keeps. -/
theorem foldlM_ok {ε α β : Type} {Q : β → Prop} {l : List α} {f : β → α → Except ε β} {s t : β} (h : Q s)
    (hf : ∀ u a v, Q u → f u a = .ok v → Q v) (hok : l.foldlM f s = .ok t) : Q t := by
  induction l generalizing s with
  | nil =>
    cases hok
    exact h
  | cons a l ih =>
    rw [List.foldlM_cons] at hok
    cases ha : f s a with
    | error e =>
      rw [ha] at hok
      cases hok
    | ok v =>
      rw [ha] at hok
      exact ih (hf s a v h ha) hok

namespace State.Inv

/-! ### Work -/

section
variable {k : Work} (h : k.s.Inv)
include h

omit h in
theorem work {s : State} (h : s.Inv) : ({ k with s := s } : Work).s.Inv := h

theorem setS {x : Ctx} {i l : Nat} {v : W32} : (k.setS x i l v).s.Inv := by
  unfold Work.setS
  dsimp only
  exact h.updEngine

theorem setA {x : Ctx} {i l : Nat} {v : MAddr} : (k.setA x i l v).s.Inv := by
  unfold Work.setA
  dsimp only
  exact h.updEngine

theorem incA {x : Ctx} {on : Bool} {i n : Nat} : (k.incA x on i n).s.Inv := by
  unfold Work.incA
  split
  · exact h.setA
  · exact h

theorem ev {code start len n : Nat} : (k.ev code start len n).s.Inv := (Work.s_ev k _ _ _ _).symm ▸ h

theorem waitBusy {x : Ctx} {n : Nat} : (waitBusy x k n).2.s.Inv := h.ev

theorem lateFault {cyc core : Nat} {eng : Option Eng} {cause : Cause} {d : Byte} : (k.lateFault cyc core eng cause d).s.Inv := h

section
variable {α : Type} {Q : α → Prop}

theorem stopped {cause : Cause} {d : Byte} : Ends Halt.Inv Q (.error (.stop cause d (some k))) := fun _ hp => Option.some.inj hp ▸ h

omit h in
theorem refused {cause : Cause} {d : Byte} : Ends Halt.Inv Q (.error (.stop cause d none)) := fun _ hp => nomatch hp

theorem failed {x : Ctx} {cyc : Nat} {cause : Cause} {d : Byte} : Ends Halt.Inv Q (.error (k.fail x cyc cause d)) := by
  unfold Work.fail
  split
  · exact h.stopped
  · exact h

end

omit h in
theorem foldWork {α : Type} {l : List α} {f : Work → α → Work} {k : Work} (h : k.s.Inv) (hf : ∀ v a, v.s.Inv → (f v a).s.Inv) :
    (l.foldl f k).s.Inv := by
  induction l generalizing k with
  | nil => exact h
  | cons a l ih => exact ih (hf k a h)

end

/-! ### Bobbins and ports -/

section
variable {s t : State} (h : s.Inv)
include h

theorem bobAccess {c : Nat} {j : Job} {eng : Nat} {r : Range} {cyc : Nat} {d : Byte} (hok : s.bobAccess c j eng r cyc d = .ok t) :
    t.Inv := by
  refine foldlM_ok (Q := State.Inv) h (fun u b v hu hb => ?_) hok
  revert hb
  dsimp only
  generalize bobCount b _ r.write _ cyc d = o
  cases o with
  | error e => exact fun hb => nomatch hb
  | ok v' =>
    rintro ⟨⟩
    exact hu.updCore (by exact fun _ => id)

theorem dropWrites {c eng cyc port : Nat} : (s.dropWrites c eng cyc port).Inv :=
  h.updCore fun _ hk => ⟨landSorted_filter _ hk.1, hk.2⟩

theorem claimed {c cyc : Nat} {cl : List Claim} (hc : s.claim c cyc cl = some t) : t.Inv := by
  unfold State.claim at hc
  dsimp only at hc
  split at hc
  · cases hc
  · obtain rfl := Option.some.inj hc
    exact h.foldl fun u b hu => (count (dropWrites hu)).addFault

end

section
variable {k : Work} (h : k.s.Inv)
include h

theorem syncWord {x : Ctx} {off : Nat} : Ends Halt.Inv (fun v : Work => v.s.Inv) (k.syncWord x off) :=
  (syncWord_ends (c := x.c) (e := x.e) h x off).inv

theorem gate {x : Ctx} {rs : List Range} : Ends Halt.Inv (fun o => o.2.s.Inv) (gate x k rs) := by
  unfold Machine.gate
  dsimp only
  refine (Ends.foldlM (Q := fun v : Work => v.s.Inv) h fun v hv o _ => hv.syncWord).bind fun v hv => ?_
  split
  · trivial
  · split
    · exact refused
    · split
      · exact hv
      · exact hv.updEngine.work (k := v)

theorem claim {x : Ctx} {cyc : Nat} {cl : List Claim} : Ends Halt.Inv (fun v : Work => v.s.Inv) (k.claim x cyc cl) := by
  unfold Work.claim
  split
  · next s hs => exact h.claimed hs
  · exact h.ev.failed

theorem readVia {x : Ctx} {ports : Nat → List Claim} {a : MAddr} {n cyc : Nat} :
    Ends Halt.Inv (fun o => o.2.s.Inv) (k.readVia x ports a n cyc) := by
  unfold Work.readVia
  dsimp only
  split
  · exact h.stopped
  · refine (Ends.ite (Q := fun v : Work => v.s.Inv) (b := pure k) h.claim h).bind fun v hv => ?_
    split
    · exact hv.failed
    · refine (Ends.ite (Q := State.Inv) (b := .ok v.s) ?_ hv).bind fun s hs => hs
      split
      · next s hs => exact hv.bobAccess hs
      · exact hv.failed

theorem read {x : Ctx} {a : MAddr} {n cyc : Nat} : Ends Halt.Inv (fun o => o.2.s.Inv) (k.read x a n cyc) := h.readVia

theorem readFree {x : Ctx} {a : MAddr} {n cyc : Nat} : Ends Halt.Inv (fun o => o.2.s.Inv) (k.readFree x a n cyc) := h.readVia

theorem readSide {x : Ctx} {a : MAddr} {n cyc : Nat} : Ends Halt.Inv (fun o => o.2.s.Inv) (k.readSide x a n cyc) := h.readVia

theorem writeVia {x : Ctx} {ports : Nat → List Claim} {a : MAddr} {data : List Byte} {land : Nat} :
    Ends Halt.Inv (fun v : Work => v.s.Inv) (k.writeVia x ports a data land) := by
  unfold Work.writeVia
  dsimp only
  split
  · exact h.stopped
  · refine h.claim.bind fun v hv => ?_
    split
    · exact hv.failed
    · next s hs => exact of_eq (s := s.writeAt _ _ _ _ _) (hv.bobAccess hs).writeAt (by rfl)

theorem write {x : Ctx} {a : MAddr} {data : List Byte} {land : Nat} : Ends Halt.Inv (fun v : Work => v.s.Inv) (k.write x a data land) :=
  h.writeVia

theorem writeFree {x : Ctx} {a : MAddr} {data : List Byte} {land : Nat} :
    Ends Halt.Inv (fun v : Work => v.s.Inv) (k.writeFree x a data land) := h.writeVia

theorem claimRun {x : Ctx} {cl : List Claim} : (k.claimRun x cl).s.Inv := by
  unfold Work.claimRun
  dsimp only
  refine foldWork (k := { k with claims := k.claims ++ cl }) h fun v p hv => ?_
  dsimp only [Work.lateFault]
  refine count ?_
  split
  · exact hv
  · exact hv.dropWrites

theorem readPieces {x : Ctx} {ps : List (MAddr × Nat)} {cyc : Nat} : Ends Halt.Inv (fun o => o.2.s.Inv) (k.readPieces x ps cyc) :=
  by
  refine (Ends.foldlM (Q := fun a : List (List Byte) × Work => a.2.s.Inv) h fun a ha p _ => ha.read.bind ?_).bind fun _ ho => ho
  exact fun o ho => ho

theorem writePieces {x : Ctx} {ps : List (MAddr × List Byte)} {land : Nat} :
    Ends Halt.Inv (fun v : Work => v.s.Inv) (k.writePieces x ps land) :=
  (Ends.foldlM (Q := fun v : Work => v.s.Inv) h fun _ hv _ _ => hv.write).bind fun _ ho => ho

end

end State.Inv
end Sys2Proof.Machine
end


section
/-!
PROOFS. The invariant through the matrix datapath, the end of an instruction and its issue (R72 to R84, R128, R142, R173, R436, R443,
R460).
-/
namespace Sys2Proof.Machine
namespace State.Inv

/-! ### Vectors on their way through the array -/

/-- However an access of the datapath halts, the work stands as far as it got. -/
theorem getD_part {k : Work} (h : k.s.Inv) {p : Option Work} (hp : ∀ v, p = some v → v.s.Inv) : (p.getD k).s.Inv := by
  cases p with
  | none => exact h
  | some p => exact hp p rfl

theorem applyDpu {x : Ctx} {m : MVec} {l : Latch} {act : List (List Int × Option Int)} {k : Work} {fs : List MFault} {d : Nat}
    (h : k.s.Inv) : (applyDpu x m l act (k, fs) d).1.s.Inv := by
  unfold Machine.applyDpu
  split
  next v gs heq =>
  obtain ⟨rfl, rfl⟩ := Prod.mk.inj heq
  split
  · extract_lets scales bs due a old mx a0
    split
    · have hold : Ends Halt.Inv (fun a => a.2.s.Inv) old := .ite (a := .ok (List.replicate 32 0, k)) h h.readFree
      clear_value old
      cases old with
      | error halt =>
        cases halt with
        | stop c dd p => exact h.getD_part hold
        | cut y v => exact hold
        | hold kind => exact h
      | ok o =>
        obtain ⟨bytes, v⟩ := o
        have hv : v.s.Inv := hold
        split
        · cases ‹Except.ok _ = Except.error _›
        · cases ‹Except.ok _ = Except.error _›
        · cases ‹Except.ok _ = Except.error _›
        next b w heq =>
        obtain ⟨rfl, rfl⟩ := Prod.mk.inj (Except.ok.inj heq)
        split
        split
        next n terms bad hrow hbad =>
          have hw := hv.writeFree (x := x) (a := a) (data := longWord n terms) (land := x.at (10 + d))
          revert hw
          generalize v.writeFree x a _ _ = r
          intro hw
          cases r with
          | error halt =>
            cases halt with
            | stop c dd p => exact hv.getD_part hw
            | cut y v => exact hw
            | hold kind => exact hv
          | ok w => exact hw
        next => exact hv
    · split
      split
      · exact (h.updCore (by exact fun _ => id)).work (k := k)
      · exact h
  · exact h

theorem foldDpus {x : Ctx} {m : MVec} {l : Latch} {act : List (List Int × Option Int)} {ds : List Nat} {k : Work} {fs : List MFault}
    (h : k.s.Inv) : (ds.foldl (Machine.applyDpu x m l act) (k, fs)).1.s.Inv := by
  induction ds generalizing k fs with
  | nil => exact h
  | cons d ds ih => exact ih (k := (Machine.applyDpu x m l act (k, fs) d).1) h.applyDpu

theorem applyVector {k : Work} {fs : List MFault} {c : Nat} {m : MVec} (h : k.s.Inv) : (applyVector (k, fs) c m).1.s.Inv := by
  unfold Machine.applyVector
  split
  next v gs heq =>
  obtain ⟨rfl, rfl⟩ := Prod.mk.inj heq
  extract_lets x l k1 codes bad evs
  have h1 : k1.s.Inv := h.ev
  split
  · exact h1
  · split
    · exact h1
    · split
      next v gs hfold =>
      have hv : v.s.Inv := by
        have hall := foldDpus (x := x) (m := m) (l := l) (ds := List.range m.cfg.n) (fs := fs) h1 (act := ‹List (List Int × Option Int)›)
        rw [hfold] at hall
        exact hall
      exact (hv.updCore (by exact fun _ => id)).work (k := { v with evs := evs })

theorem foldVectors {c : Nat} {ms : List MVec} {k : Work} {fs : List MFault} (h : k.s.Inv) :
    (ms.foldl (fun o m => Machine.applyVector o c m) (k, fs)).1.s.Inv := by
  induction ms generalizing k fs with
  | nil => exact h
  | cons m ms ih => exact ih (k := (Machine.applyVector (k, fs) c m).1) h.applyVector

section
variable {s : State} (h : s.Inv)
include h

theorem vectors {c t : Nat} : (s.vectors c t).Inv := by
  unfold State.vectors
  split
  · exact h
  · next now later _ _ =>
    extract_lets u w
    have hu : u.Inv := h.updCore (by exact fun _ => id)
    have hw : w.s.Inv := hu
    split
    next v fs heq =>
    have hv : v.s.Inv := by
      have := foldVectors (c := c) (ms := now) (fs := []) hw
      rw [heq] at this
      exact this
    refine updCore ?_ (by exact fun _ => id)
    refine foldl (foldl hv fun _ _ hu => hu.count) fun _ _ hu => count hu.raiseEng

/-! ### Issue -/

theorem tidy {c : Nat} : (s.tidy c).Inv := ripen (h.settle.updCore (by exact fun _ => id))

theorem raiseRecs {c : Nat} {e : Eng} {t : Nat} {recs : List (Cause × Byte)} : (s.raiseRecs c e t recs).Inv :=
  h.foldl fun _ _ hu => count hu.raiseEng

omit h in
theorem commit {i : Issued} {op : Nat} {plan : Bool} (h : i.w.s.Inv) : (commit i op plan).Inv := by
  unfold Machine.commit
  extract_lets x c q0 s1 s2 s3 s4 s5 s6 body s7
  have h2 : s2.Inv := updCore (s := s1) h.updEngine (by exact fun _ => id)
  have h5 : s5.Inv := h2.ledger.ledger.ledger
  have h6 : s6.Inv := h5.foldl fun _ _ hu => hu.count
  refine tidy (raiseRecs ?_)
  refine ite ?_ h6
  split
  · exact h6.of_eq (by rfl)
  · exact h6.traceTo

theorem stopAt {c : Nat} {e : Eng} {op : Nat} {x : Ctx} {cause : Cause} {d : Byte} {part : Option Work}
    (hpart : (Halt.stop cause d part).Inv) : (s.stopAt c e op x cause d part).Inv := by
  unfold State.stopAt
  extract_lets q s1 s2 body s3
  have h1 : s1.Inv := by
    cases part with
    | none => exact h
    | some p => exact (hpart p rfl).raiseRecs.foldl fun _ _ hu => hu.count
  have h2 : s2.Inv := h1.updEngine.ite h1
  exact stopFault (ite h2.traceTo h2)

omit h in
/-- However often an instruction is begun anew, it ends as it does with its registers read in one of those cycles. -/
theorem issueAt {body : Ctx → Work → Except Halt Issued} {x : Ctx} {k : Work}
    (hb : ∀ r, Ends Halt.Inv (fun i => i.w.s.Inv) (body { x with r := r } k)) {l : List Nat} :
    Ends Halt.Inv (fun i => i.w.s.Inv) (issueAt body x k l) := by
  induction l generalizing x with
  | nil => exact hb x.r
  | cons d l ih =>
    have hx := hb x.r
    have hagain := ih (x := { x with r := d }) hb
    change Ends _ _ (body x k) at hx
    rw [Machine.issueAt]
    cases hbody : body x k with
    | ok i =>
      rw [hbody] at hx
      exact .ite hagain hx
    | error halt =>
      rw [hbody] at hx
      cases halt with
      | stop cause d part => exact hx
      | cut y v => exact .ite hagain hx
      | hold kind =>
        dsimp only
        cases hrest : Machine.issueAt body { x with r := d } k l with
        | ok i =>
          rw [hrest] at hagain
          exact .ite hagain trivial
        | error _ => trivial

theorem runInstr {c : CoreId} {e : Eng} {op : Nat} {plan : Bool} {body : Ctx → Work → Except Halt Issued}
    (hb : ∀ x k, k.s.Inv → Ends Halt.Inv (fun i => i.w.s.Inv) (body x k)) : (runInstr s c e op plan body).Inv := by
  unfold Machine.runInstr
  extract_lets s1 k q s2 s3 w
  have h1 : s1.Inv := h.vectors
  split
  · exact h1.raiseEng
  · split
    · exact h1
    · split
      · exact h1
      · split
        · have h2 : s2.Inv := h1.updEngine.ite h1
          exact stopFault (h2.count.ite h2)
        · extract_lets x
          have h3 : s3.Inv := h1.raiseRecs.ite h1
          have hw : w.s.Inv := h3
          have hends := issueAt (x := x) (k := w) (fun r => hb _ _ hw) (l := q.dues q.next)
          revert hends
          generalize Machine.issueAt body x w (q.dues q.next) = r
          intro hends
          clear_value x
          cases r with
          | ok i => exact commit hends
          | error halt =>
            cases halt with
            | stop cause d part => exact h3.stopAt hends
            | cut y v => exact commit (i := Machine.finish y v) hends
            | hold kind => exact h3.updEngine

end
end State.Inv
end Sys2Proof.Machine
end


section
/-!
PROOFS. The invariant through the mesh: warp flits on their way, arrivals at a core, weft requests on their way to the injection
queue (R106, R173, R185, R229 to R238, R265, R266).
-/
namespace Sys2Proof.Machine
namespace State.Inv

section
variable {s t : State} (h : s.Inv)
include h

theorem claimArrival {c cyc : Nat} {cl : List Claim} (hc : s.claimArrival c cyc cl = some t) : t.Inv := by
  obtain ⟨u, hu, rfl⟩ := Option.map_eq_some_iff.1 hc
  exact (h.claimed hu).updCore (by exact fun _ => id)

theorem dropRun {r : WarpRun} : (s.dropRun r).Inv := by
  unfold State.dropRun
  split <;> exact h.updCore (by exact fun _ => id)

theorem launch {ways : List (WarpRun × Option Nat)} : (s.launch ways).1.Inv := by
  unfold State.launch
  extract_lets new old meets gone s1 s2 through s3
  have h1 : s1.Inv := h.foldl fun _ _ hu => hu.dropRun
  have h2 : s2.Inv := by
    refine h1.foldl fun u w hu => ?_
    split
    · exact ite hu (hu.updCore (by exact fun _ => id))
    · exact ite hu.dropRun hu
    · exact hu
  exact h2.foldl fun _ _ hu => hu.countAt

theorem putMarks {a : Nat} {l : List (Nat × EccMark)} : (s.putMarks a l).Inv := h.of_eq (by rfl)

theorem clearEcc {space a n : Nat} : (s.clearEcc space a n).Inv := h.of_eq (by rfl)

theorem arrive {c : Nat} {fn : FnId} {cls : Nat} {a : MAddr} {data : List Byte} {marks : List (Nat × EccMark)} {cyc : Nat}
    {ports : List Claim} : (s.arrive c fn cls a data marks cyc ports).1.Inv := by
  unfold State.arrive
  split
  · exact h
  · split
    · dsimp only
      exact h.count
    · next u hu =>
      extract_lets r ok
      have hu := h.claimArrival hu
      have hok : ∀ v, ok = .ok v → v.Inv := by
        intro v hv
        dsimp only [ok] at hv
        split at hv
        · exact hu.bobAccess hv
        · cases hv
          exact hu
      clear_value ok
      cases ok with
      | error f => exact hu
      | ok v => exact putMarks (clearEcc (hok v rfl).writeAt)

omit h in
theorem arrived {c t : Nat} {r : State × Option (Cause × Byte)} (h : r.1.Inv) : (State.arrived c t r).Inv := by
  unfold State.arrived
  split
  · exact h.stopFault
  · exact h

omit h in
theorem enterQueueN {c : CoreId} {t n : Nat} {s : State} (h : s.Inv) : (s.enterQueueN c t n).Inv := by
  induction n generalizing s with
  | zero => exact h
  | succ n ih =>
    unfold State.enterQueueN
    split
    · exact h
    · extract_lets fresh tag src flit s1
      split
      · exact h
      · have h1 : s1.Inv := h.updCore (by exact fun _ => id)
        split
        exact ih (ite (h1.of_eq (by rfl)) h1)

theorem enterQueue {c : CoreId} {t : Nat} : (s.enterQueue c t).Inv := h.enterQueueN

theorem startOp {c : CoreId} {e : Eng} {fs : List (WeftFlit × Option MAddr)} {far : Nat} {counter : Option Nat} {start now : Nat} :
    (s.startOp c e fs far counter start now).1.Inv := by
  unfold State.startOp
  extract_lets n op s1 s2
  have h1 : s1.Inv := h.of_eq (by rfl)
  have h2 : s2.Inv := h1.updCore (by exact fun _ => id)
  exact h2.updEngine.enterQueue

theorem setCounter {c n : Nat} {v : Counter} : (s.setCounter c n v).Inv := h.updCore (by exact fun _ => id)

theorem incCounter {c n amount : Nat} {scope : Scope} {core : Nat} {module : BitVec 12} {t eng : Nat} :
    (s.incCounter c n amount scope core module t eng).Inv := by
  unfold State.incCounter
  extract_lets v u s1 told
  have h1 : s1.Inv := h.setCounter
  exact h1.addFault.ite h1

end

/-! ### Checks and waits of an instruction -/

section
variable {k : Work} (h : k.s.Inv) {x : Ctx}
include h

theorem warpSend {out : List (Nat × List HeldWarp)} : (k.warpSend x out).s.Inv := by
  unfold Work.warpSend
  split
  · exact h
  · extract_lets base ways
    split
    next u fs heq =>
    have hu : u.Inv := by
      have hl := h.launch (ways := ways)
      rw [heq] at hl
      exact hl
    exact foldWork (k := { k with s := u }) hu fun v _ hv => hv.lateFault

theorem warpRead {a : MAddr} {cyc : Nat} {fill : Bool} : Ends Halt.Inv (fun o => o.2.s.Inv) (k.warpRead x a cyc fill) := by
  unfold Work.warpRead
  split
  · exact h.stopped
  · split
    · refine Ends.pure ?_
      dsimp only
      exact h.count
    · refine (Ends.ite (Q := fun o : List Byte × Work => o.2.s.Inv) h.read ?_).bind fun o ho => ?_
      · split
        · exact h.failed
        · split
          · exact h.failed
          · next u hu => exact h.claimArrival hu
      · refine Ends.pure ?_
        dsimp only
        split
        · exact (ho.updCore (by exact fun _ => id)).work (k := o.2)
        · exact ho

theorem copyMarks {a b : MAddr} {n : Nat} : (k.copyMarks x a b n).s.Inv := by
  unfold Work.copyMarks
  split
  · exact h.putMarks
  · exact h

theorem waitRoom : Ends Halt.Inv (fun o => o.2.s.Inv) (waitRoom x k) := by
  unfold Machine.waitRoom
  split
  · trivial
  · unfold Ends
    dsimp only
    split
    · exact h.waitBusy
    · exact h

theorem waitStage : Ends Halt.Inv (fun o => o.2.s.Inv) (waitStage x k) := by
  unfold Machine.waitStage
  split
  · trivial
  · unfold Ends
    dsimp only
    split
    · exact h.waitBusy
    · exact h

end

section
variable {ok : Bool} {cause : Cause} {d m : Byte} {w : BitVec 48}

theorem needF : Ends Halt.Inv (fun _ => True) (needF ok cause d) := (needF_ends (c := 0) (e := .mxe) _ _ _).inv

theorem need : Ends Halt.Inv (fun _ => True) (need ok d) := (need_ends (c := 0) (e := .mxe) _ _).inv

theorem needEng {e : Eng} {op : Nat} : Ends Halt.Inv (fun _ => True) (needEng e op m w) :=
  (needEng_ends (c := 0) (e := .mxe) _ _ _ _).inv

end

end State.Inv
end Sys2Proof.Machine
end


section
/-!
PROOFS. The invariant through the move engine's instructions (R100 to R106).
-/
namespace Sys2Proof.Machine
namespace State.Inv

section
variable {k : Work} (h : k.s.Inv) {x : Ctx}
include h

theorem incBoth {on : Bool} {w : BitVec 48} {n : Nat} : (k.incBoth x on w n).s.Inv := h.incA.incA

theorem copyLocal {a b : MAddr} {rows : Nat} : Ends Halt.Inv (fun v : Work => v.s.Inv) (copyLocal x k a b rows) :=
  .foldlM h fun _ hv _ _ => hv.read.bind fun _ ho => (write ho).bind fun _ hu => .pure hu.copyMarks

theorem copyWarp {a b : MAddr} {rows : Nat} : Ends Halt.Inv (fun v : Work => v.s.Inv) (copyWarp x k a b rows) := by
  unfold Machine.copyWarp
  refine (Ends.foldlM (Q := fun o : Work × List HeldWarp => o.1.s.Inv) h fun o ho i _ => ?_).bind fun o ho => ?_
  · exact ho.warpRead.bind fun _ hv => .pure hv
  · refine .pure (warpSend ?_)
    exact ho

theorem copyWeft {a b : MAddr} {rows : Nat} : Ends Halt.Inv (fun o : Work × Nat => o.1.s.Inv) (copyWeft x k a b rows) := by
  unfold Machine.copyWeft
  extract_lets me c
  split
  · refine (Ends.foldlM (Q := fun o : Work × List (WeftFlit × Option MAddr) => o.1.s.Inv) h fun o ho i _ => ?_).bind fun o ho => ?_
    · exact ho.read.bind fun _ hv => .pure hv
    · exact .pure (startOp ho)
  · exact .pure h.startOp

omit h in
theorem moveCheck : Ends Halt.Inv (fun _ => True) (k.moveCheck x) := needF

variable {m : Byte} {w : BitVec 48}

theorem runTcpy : Ends Halt.Inv (fun i => i.w.s.Inv) (runTcpy m w x k) := by
  unfold Machine.runTcpy
  refine needEng.bind fun _ _ => ?_
  extract_lets a b rows n remote go
  have hgo : ∀ u, Ends Halt.Inv (fun i => i.w.s.Inv) (go u) := by
    refine fun _ => h.gate.bind fun ⟨y, v⟩ hv => ?_
    dsimp only
    split
    · refine (waitRoom hv).bind fun ⟨y, v⟩ hv => (copyWeft hv).bind fun ⟨v, n⟩ hv => .pure ?_
      exact incBoth hv
    · split
      · refine (waitStage hv).bind fun ⟨y, v⟩ hv => (copyWarp hv).bind fun v hv => .pure ?_
        exact incBoth hv
      · exact (copyLocal hv).bind fun v hv => .pure hv.incBoth
  refine need.bind fun _ _ => need.bind fun _ _ => ?_
  split
  · exact refused
  · exact refused
  · exact hgo ()

theorem runTtile : Ends Halt.Inv (fun i => i.w.s.Inv) (runTtile m w x k) := by
  unfold Machine.runTtile
  refine needEng.bind fun _ _ => ?_
  extract_lets a b rows cols mode ps pd src dst steps width reads writes go
  have hgo : ∀ u, Ends Halt.Inv (fun i => i.w.s.Inv) (go u) := by
    refine fun _ => h.gate.bind fun ⟨y, v⟩ hv => ?_
    dsimp -zeta only
    extract_lets turns
    have hturns : ∀ u, Ends Halt.Inv (fun i => i.w.s.Inv) (turns u) := by
      refine fun _ => (Ends.foldlM (Q := fun v : Work => v.s.Inv) hv fun v hv j _ => ?_).bind fun v hv => .pure hv
      refine (Ends.ite (Q := fun o : List Byte × Work => o.2.s.Inv) hv.read hv.readPieces).bind fun ⟨bs, v⟩ hv => ?_
      refine (write hv).bind fun v hv => .pure ?_
      generalize mode = kind
      split
      · exact hv.copyMarks
      · exact foldWork hv fun _ _ hu => hu.copyMarks
      · exact hv
    split
    · exact moveCheck.bind fun _ _ => hturns ()
    · exact hturns ()
  refine need.bind fun _ _ => need.bind fun _ _ => ?_
  split
  · exact refused
  · exact hgo ()

theorem runTshuf : Ends Halt.Inv (fun i => i.w.s.Inv) (runTshuf m w x k) := by
  unfold Machine.runTshuf
  refine needEng.bind fun _ _ => ?_
  extract_lets a b rows
  refine need.bind fun _ _ => h.gate.bind fun ⟨y, v⟩ hv => moveCheck.bind fun _ _ => ?_
  refine (Ends.foldlM (Q := fun v : Work => v.s.Inv) hv fun v hv i _ => ?_).bind fun v hv => .pure hv.incBoth
  exact hv.read.bind fun ⟨bs, v⟩ hv => write hv


omit h in
theorem needPath {l : List Nat} : Ends Halt.Inv (fun _ => True) (needPath k l) := needF

theorem runTcvt : Ends Halt.Inv (fun i => i.w.s.Inv) (runTcvt m w x k) := by
  unfold Machine.runTcvt
  extract_lets fs fd a b rows ss elems size pace
  refine needPath.bind fun _ _ => needEng.bind fun _ _ => need.bind fun _ _ => h.gate.bind fun ⟨y, v⟩ hv => moveCheck.bind fun _ _ => ?_
  refine (Ends.foldlM (Q := fun v : Work => v.s.Inv) hv fun v hv i _ => ?_).bind fun v hv => .pure hv
  refine hv.read.bind fun ⟨bs, v⟩ hv => ?_
  have hv : v.s.Inv := hv
  dsimp only
  exact .ite hv.stopped (.foldlM (Q := fun v : Work => v.s.Inv) hv.ev fun _ hv _ _ => hv.write)

theorem runTqnt : Ends Halt.Inv (fun i => i.w.s.Inv) (runTqnt m w x k) := by
  unfold Machine.runTqnt
  extract_lets fs fd a b sc rows ss wide elems size perVec vectors
  refine needPath.bind fun _ _ => needEng.bind fun _ _ => need.bind fun _ _ => need.bind fun _ _ => h.gate.bind fun ⟨y, v⟩ hv => moveCheck.bind fun _ _ => ?_
  extract_lets seed base explicit
  refine (Ends.foldlM (Q := fun o : Work × List Nat => o.1.s.Inv) hv fun o ho i _ => ?_).bind fun ⟨v, codes⟩ hv => ?_
  · refine ho.read.bind fun ⟨bs, v⟩ hv => ?_
    have hv : v.s.Inv := hv
    dsimp only
    exact .ite hv.stopped (.ite hv.stopped (hv.ev.write.bind fun _ hu => .pure hu))
  · refine (Ends.foldlM (Q := fun v : Work => v.s.Inv) hv fun v hv p _ => ?_).bind fun v hv => .pure hv
    exact (write (k := { v with s := _ }) (hv.of_eq (by rfl))).bind fun _ hu => .pure hu

theorem runTnbr : Ends Halt.Inv (fun i => i.w.s.Inv) (runTnbr m w x k) := by
  unfold Machine.runTnbr
  refine needEng.bind fun _ _ => ?_
  extract_lets a b rows claim
  refine need.bind fun _ _ => ?_
  split
  · exact refused
  next n _ =>
    refine need.bind fun _ _ => ?_
    extract_lets dst go
    have hgo : ∀ u, Ends Halt.Inv (fun i => i.w.s.Inv) (go u) := by
      refine fun _ => h.gate.bind fun ⟨y, v⟩ hv => need.bind fun _ _ => ?_
      refine (Ends.foldlM (Q := fun v : Work => v.s.Inv) hv fun v hv i _ => ?_).bind fun v hv => .pure ?_
      · refine hv.readVia.bind fun ⟨bs, u⟩ hu => ?_
        have hu : u.s.Inv := hu
        dsimp -zeta only
        extract_lets u1 t
        have hu1 : u1.s.Inv := ev (k := { u with evs := v.evs }) hu
        refine .ite (.pure hu1) ?_
        have harr := hu1.arrive (c := n) (fn := y.job.fn) (cls := 6) (a := dst i) (data := bs)
          (marks := u1.marks y (plus a (512 * i)) 512) (cyc := t) (ports := [claim t 4])
        revert harr
        generalize u1.s.arrive n y.job.fn 6 (dst i) bs (u1.marks y (plus a (512 * i)) 512) t [claim t 4] = o
        intro harr
        obtain ⟨s, f | f⟩ := o
        · have hs : s.Inv := harr
          exact .pure (hs.count.work (k := u1))
        · exact .pure (lateFault (k := { u1 with s := s }) harr)
      · exact incBoth (by exact hv)
    split
    · exact refused
    · exact refused
    · exact hgo ()

theorem runTmrd : Ends Halt.Inv (fun i => i.w.s.Inv) (runTmrd m w x k) := by
  unfold Machine.runTmrd
  refine needEng.bind fun _ _ => ?_
  extract_lets a b rows dx dy cores dst go
  have hgo : ∀ u, Ends Halt.Inv (fun i => i.w.s.Inv) (go u) := by
    refine fun _ => h.gate.bind fun ⟨y, v⟩ hv => (waitStage hv).bind fun ⟨y, v⟩ hv => ?_
    refine (Ends.foldlM (Q := fun o : Work × List (List Byte × List (Nat × EccMark)) => o.1.s.Inv) hv fun o ho i _ => ?_).bind
      fun ⟨v, bss⟩ hv => .pure (warpSend ?_)
    · exact ho.warpRead.bind fun _ hv => .pure hv
    · exact hv
  refine need.bind fun _ _ => needF.bind fun _ _ => need.bind fun _ _ => ?_
  split
  · exact refused
  · exact hgo ()

end
end State.Inv
end Sys2Proof.Machine
end


section
/-!
PROOFS. The invariant through the gather engine's instructions (R107 to R112).
-/
namespace Sys2Proof.Machine
namespace State.Inv

section
variable {k : Work} (h : k.s.Inv) {x : Ctx}

theorem needAll {l : List (MAddr × Nat)} : Ends Halt.Inv (fun _ => True) (needAll k x l) := by
  unfold Machine.needAll
  split
  · exact refused
  · trivial

include h

theorem setIndex {l : List W32} : (k.setIndex x l).s.Inv := (h.updCore (by exact fun _ => id)).work (k := k)

theorem setKeys {l : List W32} : (k.setKeys x l).s.Inv := (h.updCore (by exact fun _ => id)).work (k := k)

theorem readWords {a : MAddr} {n l : Nat} : Ends Halt.Inv (fun o => o.2.s.Inv) (readWords k x a n l) := by
  unfold Machine.readWords
  refine (Ends.foldlM (Q := fun o : List Byte × Work => o.2.s.Inv) h fun o ho i _ => ?_).bind fun ⟨bs, v⟩ hv => .pure hv
  exact ho.read.bind fun _ hv => .pure hv

variable {m : Byte} {w : BitVec 48}

theorem runGrows : Ends Halt.Inv (fun i => i.w.s.Inv) (runGrows m w x k) := by
  unfold Machine.runGrows
  extract_lets ai tb ad count len limit weight a row n ls
  refine needEng.bind fun _ _ => need.bind fun _ _ => needAll.bind fun _ _ => h.gate.bind fun ⟨y, v⟩ hv => ?_
  refine (readWords hv).bind fun ⟨idx, v⟩ hv => ?_
  dsimp -zeta only
  extract_lets v1 go
  have hv : v1.s.Inv := setIndex hv
  split
  · exact hv.failed
  · have hgo : ∀ u, Ends Halt.Inv (fun i => i.w.s.Inv) (go u) := by
      intro _
      dsimp -zeta only [go]
      refine (Ends.foldlM (Q := fun v : Work => v.s.Inv) hv fun v hv j _ => ?_).bind fun v hv => .pure hv
      extract_lets t
      refine Ends.bind (Q := fun o : List Byte × Work => o.2.s.Inv) (.ite hv (.ite hv.read (.foldlM hv fun o ho i _ => ?_))) fun ⟨bs, v⟩ hv => ?_
      · exact ho.read.bind fun _ hv => .pure hv
      refine .foldlM (Q := fun v : Work => v.s.Inv) hv fun v hv p _ => ?_
      refine hv.write.bind fun v hv => .pure ?_
      split
      · exact hv
      · exact hv.copyMarks
    have hall : Ends Halt.Inv (fun _ => True) (Machine.needAll v1 y ((idx.filter fun v => v != 0xFFFFFFFF).map fun v => (row v, len))) := needAll
    revert hall
    generalize Machine.needAll v1 y ((idx.filter fun v => v != 0xFFFFFFFF).map fun v => (row v, len)) = r
    intro hall
    cases r with
    | ok _ => exact hgo ()
    | error halt =>
      cases halt with
      | stop c d p => exact hv.stopped
      | cut z u => exact hall
      | hold kind => trivial

theorem runGtopk : Ends Halt.Inv (fun i => i.w.s.Inv) (runGtopk m w x k) := by
  unfold Machine.runGtopk
  extract_lets ak av ax n best given ai base rows
  refine needEng.bind fun _ _ => need.bind fun _ _ => needAll.bind fun _ _ => h.gate.bind fun ⟨y, v⟩ hv => ?_
  refine (readWords hv).bind fun ⟨keys, v⟩ hv => ?_
  dsimp -zeta only
  refine Ends.bind (Q := fun o : List W32 × Work => o.2.s.Inv) (.ite (readWords hv) hv) fun ⟨idx, v⟩ hv => ?_
  dsimp -zeta only
  extract_lets v1 v2
  have h1 : v1.s.Inv := setKeys hv
  have h2 : v2.s.Inv := by
    dsimp only [v2]
    split
    · exact h1.setIndex
    · exact h1
  exact needF.bind fun _ _ => h2.writePieces.bind fun _ hu => .pure hu

theorem runGdisp : Ends Halt.Inv (fun i => i.w.s.Inv) (runGdisp m w x k) := by
  unfold Machine.runGdisp
  extract_lets ac ag an tokens kc experts first b0 n all bobs fill at' caps
  refine needEng.bind fun _ _ => need.bind fun _ _ => needAll.bind fun _ _ => h.gate.bind fun ⟨y, v⟩ hv => ?_
  dsimp -zeta only
  extract_lets t full
  refine (Ends.foldlM (Q := fun o : List Byte × List Byte × Work => o.2.2.s.Inv) hv fun o ho p _ => ?_).bind
    fun ⟨cs, gs, v⟩ hv => needF.bind fun _ _ => ?_
  · refine ho.read.bind fun ⟨c, v⟩ hv => (read hv).bind fun ⟨g, v⟩ hv => .pure ?_
    exact setKeys (setIndex hv)
  · dsimp -zeta only
    extract_lets d v1 counts evs
    have h1 : v1.s.Inv := foldWork hv fun _ _ hu => hu.ev
    refine (Ends.foldlM (Q := fun v : Work => v.s.Inv) h1 fun v hv p _ => ?_).bind fun v hv => ?_
    · split
      · exact hv.writeFree.bind fun v hv => .pure ((hv.updCore (by exact fun _ => id)).work (k := v))
      · exact hv
    · exact (write (k := { v with evs := evs }) hv).bind fun _ hu => .pure hu

end
end State.Inv
end Sys2Proof.Machine
end


section
/-!
PROOFS. The invariant through the operations that other events complete, the collectives and the reductions, and the fabric engine's
instructions (R113 to R120, R196, R198, R259, R260, R265).
-/
namespace Sys2Proof.Machine
namespace State.Inv

section
variable {s t : State} (h : s.Inv)
include h

theorem opEnd {n t0 : Nat} : (s.opEnd n t0).Inv := by
  unfold State.opEnd
  split
  · exact h
  next o _ =>
    extract_lets c s1 s2 t s3
    have h1 : s1.Inv := h.of_eq (by rfl)
    have h2 : s2.Inv := h1.updEngine
    have h3 : s3.Inv := by
      dsimp only [s3]
      split
      · exact h2.incCounter
      · exact h2
    split
    · exact h3.traceTo
    · exact h3

theorem opStep {n : Nat} : (s.opStep n).Inv := by
  unfold State.opStep
  split
  · exact h
  · exact ite h.opEnd (h.of_eq (by rfl))

theorem entryCounter {c : Nat} {counter : Byte} {t : Nat} : (s.entryCounter c counter t).Inv := ite h h.incCounter

theorem fxeFault {c t : Nat} {cause : Cause} {d : Byte} : (s.fxeFault c t cause d).Inv := h.addFault

theorem fabricRow {c : Nat} {fn : FnId} {a : MAddr} {data : List Byte} {t : Nat} : (s.fabricRow c fn a data t).Inv := by
  unfold State.fabricRow
  split
  · exact h.fxeFault
  · split
    · exact h.count.fxeFault
    · next u hu =>
      extract_lets ok
      have hu := h.claimArrival hu
      have hok : ∀ v, ok = .ok v → v.Inv := by
        intro v hv
        dsimp only [ok] at hv
        split at hv
        · exact hu.bobAccess hv
        · cases hv
          exact hu
      clear_value ok
      cases ok with
      | error f => exact hu.fxeFault
      | ok v => exact clearEcc (hok v rfl).writeAt

theorem fabricWrite {c : Nat} {fn : FnId} {a : MAddr} {data : List Byte} {t : Nat} : (s.fabricWrite c fn a data t).Inv :=
  h.foldl fun _ _ hu => hu.fabricRow

/-! ### Collectives -/

theorem setColl {v : Coll} : (s.setColl v).Inv := h.of_eq (by rfl)

theorem collResult {c : Coll} {v : BitVec 128} {counter : Byte} {relay : Bool} {t0 : Nat} :
    (s.collResult c v counter relay t0).Inv := by
  unfold State.collResult
  extract_lets s1 s2
  have h1 : s1.Inv := h.of_eq (by rfl)
  have h2 : s2.Inv := h1.sendTo.ite h1
  exact h2.foldl fun _ _ hu => hu.fabricWrite.entryCounter.opEnd

theorem collTry {fn : FnId} {entry t0 : Nat} : (s.collTry fn entry t0).Inv := by
  unfold State.collTry
  split
  · split
    · exact h
    · extract_lets mine wide children v
      exact ite h (ite h.collResult h.sendTo)
  · exact h

/-! ### Reductions -/

theorem setRed {v : Red} : (s.setRed v).Inv := h.of_eq (by rfl)

theorem redFault {l : Loaded} {r : Red} {e : RedEntry} : (s.redFault l r e).Inv := ite h (h.foldl fun _ _ hu => hu.raise)

theorem redFaults : s.redFaults.Inv := by
  refine h.foldl fun u r hu => ?_
  split
  · split
    · exact hu.redFault
    · exact hu
  · exact hu

theorem redFinal {l : Loaded} {r : Red} {e : RedEntry} {v : List (BitVec 192)} {t0 : Nat} : (s.redFinal l r e v t0).Inv := by
  unfold State.redFinal
  extract_lets r' s1 writes out s2 s3
  have h1 : s1.Inv := h.setRed
  have h2 : s2.Inv := by
    refine h1.foldl fun u d hu => ?_
    extract_lets t u1 t'
    have hu1 : u1.Inv := hu.fabricWrite.ite hu
    exact hu1.entryCounter.opEnd
  have h3 : s3.Inv := h2.redFault
  exact ite h3 (h3.of_eq (by rfl))

theorem redTry {fn : FnId} {entry t0 : Nat} : (s.redTry fn entry t0).Inv := by
  unfold State.redTry
  split
  · split
    · exact h
    · extract_lets mine wide inputs
      refine ite h (ite h (ite h.redFinal ?_))
      split
      · exact h.redFinal
      · exact h
  · exact h

theorem redReceive {c : Nat} {fn : FnId} {entry : Nat} {bytes : List Byte} : (s.redReceive c fn entry bytes).Inv := by
  unfold State.redReceive
  split
  · split
    · exact h
    · extract_lets q flags w vs bad wrong r p
      exact ite h.raiseEng (ite h.redFinal h.setRed.redTry)
  · exact h

theorem redDrain {fn : FnId} : (s.redDrain fn).Inv := by
  unfold State.redDrain
  split
  · exact h
  · exact h.foldl fun u x hu => ite (redReceive (hu.updCore (by exact fun _ => id))) hu

end

/-! ### Instructions -/

section
variable {k : Work} (h : k.s.Inv) {x : Ctx} {m : Byte} {w : BitVec 48}

theorem warpEntry {n : Nat} {kind : Byte} : Ends Halt.Inv (fun _ => True) (warpEntry x k n kind) := by
  unfold Machine.warpEntry
  split
  · exact refused
  · split
    · exact refused
    · exact .ite trivial refused

include h

theorem needs {l : List (Bool × Cause × Byte)} : Ends Halt.Inv (fun _ => True) (k.needs x l) :=
  (needs_ends (c := x.c) (e := x.e) h x l).inv

theorem until' {t : Nat} : (k.until t).s.Inv := h

theorem runFsend : Ends Halt.Inv (fun i => i.w.s.Inv) (runFsend m w x k) := by
  unfold Machine.runFsend
  extract_lets n base
  refine needEng.bind fun _ _ => warpEntry.bind fun ⟨l, v⟩ _ => ?_
  dsimp -zeta only
  extract_lets node inj runs stop ways v1 v2 last
  have h1 : v1.s.Inv := by
    dsimp only [v1]
    refine foldWork ?_ fun _ _ hu => ?_
    · have harmed := h.updCore (c := x.c) (f := fun o => { o with armed := o.armed ++ [{ entry := n, send := true, bobbin := fld w 12 8 }] }) (by exact fun _ => id)
      exact (launch harmed).work (k := k)
    · exact hu.lateFault
  clear_value v1
  refine .pure ?_
  dsimp only [Machine.finish]
  exact h1.claimRun

theorem runFrecv : Ends Halt.Inv (fun i => i.w.s.Inv) (runFrecv m w x k) := by
  unfold Machine.runFrecv
  refine needEng.bind fun _ _ => warpEntry.bind fun ⟨l, v⟩ _ => .pure ?_
  dsimp only [Machine.finish, Work.until]
  exact h.updCore (by exact fun _ => id)

theorem openOp : (k.openOp x).1.s.Inv := by
  unfold Work.openOp
  exact h.startOp.work (k := k)

theorem runFscol : Ends Halt.Inv (fun i => i.w.s.Inv) (runFscol m w x k) := by
  unfold Machine.runFscol
  extract_lets a b n entry op
  refine needEng.bind fun _ _ => h.needs.bind fun _ _ => needAll.bind fun _ _ => h.gate.bind fun ⟨y, v⟩ hv => ?_
  refine (read hv).bind fun ⟨bs, v⟩ hv => ?_
  have ho := openOp (x := y) hv
  revert ho
  dsimp -zeta only
  generalize v.openOp y = o
  intro ho
  obtain ⟨u, i⟩ := o
  refine .pure ?_
  dsimp only [Machine.finish]
  exact collTry (setColl (s := u.s) ho)

theorem runReduce {kind op : Nat} {toRoot : Bool} {q : Int} {spaces out : List Nat} {align : Nat} {upset : Upset} :
    Ends Halt.Inv (fun i => i.w.s.Inv) (runReduce kind op toRoot q spaces out align upset w x k) := by
  unfold Machine.runReduce
  extract_lets a b count n found len
  refine h.needs.bind fun _ _ => ?_
  cases hfound : found with
  | none => exact refused
  | some node =>
    refine needAll.bind fun _ _ => h.gate.bind fun ⟨y, v⟩ hv => needF.bind fun _ _ => ?_
    refine (Ends.foldlM (Q := fun o : List Byte × Work => o.2.s.Inv) hv fun o ho i _ => ?_).bind fun ⟨bs, v⟩ hv => ?_
    · exact ho.read.bind fun _ hv => .pure hv
    · have ho := openOp (x := y) hv
      revert ho
      dsimp -zeta only
      generalize v.openOp y = o
      intro ho
      obtain ⟨u, i⟩ := o
      refine .pure ?_
      dsimp only [Machine.finish]
      exact redDrain (redTry (setRed (s := u.s) ho))

theorem runFrdx : Ends Halt.Inv (fun i => i.w.s.Inv) (runFrdx m w x k) := needEng.bind fun _ _ => h.runReduce

theorem runFrdc : Ends Halt.Inv (fun i => i.w.s.Inv) (runFrdc m w x k) := needEng.bind fun _ _ => h.runReduce

omit h in
theorem needRemote {module : BitVec 12} {a : MAddr} {n : Nat} : Ends Halt.Inv (fun _ => True) (needRemote k x module a n) :=
  needF.bind fun _ _ => .ite needAll (by exact trivial)

theorem runFwput : Ends Halt.Inv (fun i => i.w.s.Inv) (runFwput m w x k) := by
  unfold Machine.runFwput
  extract_lets al ar module flits span
  refine needEng.bind fun _ _ => need.bind fun _ _ => needAll.bind fun _ _ => needRemote.bind fun _ _ => h.waitRoom.bind fun ⟨y, v⟩ hv => ?_
  refine (gate hv).bind fun ⟨y, v⟩ hv => ?_
  refine (Ends.foldlM (Q := fun o : List (WeftFlit × Option MAddr) × Work => o.2.s.Inv) hv fun o ho g _ => ?_).bind fun ⟨fs, v⟩ hv => .pure ?_
  · exact ho.read.bind fun _ hv => .pure hv
  · exact (startOp hv).work (k := v)

theorem runFwget : Ends Halt.Inv (fun i => i.w.s.Inv) (runFwget m w x k) := by
  unfold Machine.runFwget
  extract_lets al ar module flits
  refine needEng.bind fun _ _ => need.bind fun _ _ => needAll.bind fun _ _ => needRemote.bind fun _ _ => h.waitRoom.bind fun ⟨y, v⟩ hv => ?_
  exact (gate hv).bind fun ⟨y, v⟩ hv => .pure ((startOp hv).work (k := v))

theorem runFwatm : Ends Halt.Inv (fun i => i.w.s.Inv) (runFwatm m w x k) := by
  unfold Machine.runFwatm
  extract_lets al ar module
  refine needEng.bind fun _ _ => need.bind fun _ _ => needAll.bind fun _ _ => needRemote.bind fun _ _ => h.waitRoom.bind fun ⟨y, v⟩ hv => ?_
  refine (gate hv).bind fun ⟨y, v⟩ hv => (read hv).bind fun ⟨bs, v⟩ hv => .pure ?_
  exact (startOp hv).work (k := v)

end
end State.Inv
end Sys2Proof.Machine
end


section
/-!
PROOFS. The invariant through the core events and the skein barrier (R138, R159, R184, R196, R203, R216, R217).
-/
namespace Sys2Proof.Machine

/-- What a command leaves has the invariant. -/
def Keeps (o : Host.Outcome State Fault Refusal) : Prop := ∀ t, o = .next t → t.Inv

namespace State.Inv

section
variable {s t : State} (h : s.Inv)
include h

theorem next : Keeps (.next s) := fun _ ht => Host.Outcome.next.inj ht ▸ h

omit h in
theorem keeps_ite {p : Prop} [Decidable p] {a b : Host.Outcome State Fault Refusal} (ha : Keeps a) (hb : Keeps b) :
    Keeps (if p then a else b) := by
  split
  · exact ha
  · exact hb

/-! ### Waits and releases -/

theorem absentEngineDelivery {c : CoreId} {e : Eng} {word : W64} : Keeps (execAbsentEngineDelivery c e word s) := by
  refine next (ite h.raiseEng ?_)
  split
  · exact h.runInstr fun _ _ _ => refused
  · exact h

theorem standUntil {c : Nat} {e : Eng} {t col code : Nat} : (s.standUntil c e t col code).Inv := by
  unfold State.standUntil
  exact h.ledger.count.updEngine

theorem stallLimitExpiry {c : CoreId} {e : Eng} : Keeps (execStallLimitExpiry c e s) := by
  unfold execStallLimitExpiry
  split
  · exact h.standUntil.raiseEng.next
  · exact h.next

theorem graceWindowExpiry {c : CoreId} {e : Eng} : Keeps (execGraceWindowExpiry c e s) := by
  unfold execGraceWindowExpiry
  split
  · exact (raiseEng h.standUntil.updEngine).next
  · exact h.next

theorem applyRelease {c : CoreId} {e : Eng} {r : PendRelease} : (s.applyRelease c e r).Inv := by
  unfold State.applyRelease
  extract_lets q t s1 s2 own far
  have h1 : s1.Inv := h.updEngine
  have h2 : s2.Inv := h1.ite h1.count
  refine ite h2.incCounter ?_
  have hop := h2.startOp (c := c) (e := e)
    (fs := [(weftRequest s2 c.val .increment r.module (incrementPayload r c.val), none)]) (far := far) (counter := none) (start := t) (now := t)
  revert hop
  generalize s2.startOp c e _ far none t t = o
  exact fun hop => updEngine hop

theorem releaseApply {c : CoreId} {e : Eng} : Keeps (execReleaseApply c e s) := by
  unfold execReleaseApply
  extract_lets q
  split
  · exact h.next
  · exact keeps_ite h.next h.applyRelease.next

/-! ### The skein barrier -/

theorem releaseCores {k : Nat} : (s.releaseCores k).Inv := by
  refine h.foldl fun u c hu => ?_
  extract_lets v
  have hv : v.Inv := settleAll (closeLedger hu.chargeEnd)
  exact hv.updCore (by exact fun _ => id)

theorem barrierResult {k : Nat} {clean : Bool} : (s.barrierResult k clean).Inv := by
  unfold State.barrierResult
  split
  · exact h
  · extract_lets s1 src s2 s3
    have h1 : s1.Inv := h.traceTo
    have h2 : s2.Inv := (h1.of_eq (by rfl)).ite h1
    have h3 : s3.Inv := h2.of_eq (by rfl)
    exact ite h2.abandon (ite h3 (setPassState h3.releaseCores))

theorem joinTry {k : Nat} : (s.joinTry k).Inv := by
  unfold State.joinTry
  split
  · exact h
  · extract_lets clean msg s1
    have h1 : s1.Inv := h.sendTo
    exact ite h (ite (ite h h.barrierResult) (ite h (ite h.sendTo (ite (h1.of_eq (by rfl)) h1.barrierResult))))

theorem coreBarrierJoin {c : CoreJoin} : Keeps (execCoreBarrierJoin c s) := by
  unfold execCoreBarrierJoin
  split
  · exact h.next
  next j _ =>
    extract_lets s1 s2 s3
    have h1 : s1.Inv := ripen h.vectors.settle
    have h2 : s2.Inv := by
      dsimp only [s2]
      split
      · exact h1.raise
      · exact h1
    have h3 : s3.Inv := h2.updCore (by exact fun _ => id)
    exact keeps_ite h.next (keeps_ite h2.next (keeps_ite h3.updPass.joinTry.next h3.next))

theorem takeMsg {p : Nat} : (s.takeMsg p).Inv := h.of_eq (by rfl)

theorem disagree {k : Nat} {code : Byte} {child : BitVec 12} : (s.disagree k code child).Inv := h.raise.breakSkein

theorem barrierJoin {p : PortId} : Keeps (execBarrierJoin p s) := by
  unfold execBarrierJoin
  split
  · exact h.next
  · extract_lets s1 child src s2
    have h1 : s1.Inv := h.takeMsg
    refine keeps_ite h1.next ?_
    split
    · exact h1.next
    · have h2 : s2.Inv := h1.of_eq (by rfl)
      exact keeps_ite h1.next (keeps_ite h1.disagree.next (keeps_ite h1.disagree.next (keeps_ite h1.disagree.next h2.joinTry.next)))

theorem barrierResultMessage {p : PortId} : Keeps (execBarrierResult p s) := by
  unfold execBarrierResult
  split
  · exact h.next
  · extract_lets s1 s2 clean
    have h1 : s1.Inv := h.takeMsg
    have h2 : s2.Inv := h1.sendTo
    refine keeps_ite h1.next ?_
    split
    · exact h2.next
    · exact keeps_ite h2.next (keeps_ite (next (h2.of_eq (by rfl))) (keeps_ite h2.barrierResult.next h2.next))

theorem barrierJoinDeadline {f : FnId} : Keeps (execBarrierJoinDeadline f s) := by
  unfold execBarrierJoinDeadline
  split
  · exact h.next
  · extract_lets late c src s1 msg
    have h1 : s1.Inv := h.raise
    exact keeps_ite h.next (keeps_ite h1.next (next (ite h1.sendTo h1.sendTo)))

end
end State.Inv
end Sys2Proof.Machine
end


section
/-!
PROOFS. The invariant through weft: mesh transit, the target side with the core queue and the replay record, and the originator's
side (R174, R205, R233 to R239, R263 to R269).
-/
namespace Sys2Proof.Machine
namespace State.Inv

section
variable {s t : State} (h : s.Inv)
include h

theorem fst {α : Type} {a : α} : (s, a).1.Inv := h

theorem portCount {p i : Nat} : (s.portCount p i).Inv := h.of_eq (by rfl)

theorem egress {p : Nat} {f : WeftFlit} : (s.egress p f).Inv := ite h.portCount (h.of_eq (by rfl))

theorem noRoute {dst : BitVec 12} : (s.noRoute dst).Inv := h.portCount

omit h in
theorem transit {d : MeshDest} {taken : List WarpHop} {bad : Option CoreId} {f : Nat} {s : State} (h : s.Inv) {t : Transit}
    {free : List (BitVec 5)} {n : Nat} : (s.transit d taken bad f t free n).1.Inv := by
  induction f generalizing s t free n with
  | zero =>
    unfold State.transit
    exact h.countAt.fst
  | succ f ih =>
    unfold State.transit
    extract_lets here s1
    have h1 : s1.Inv := h.countAt
    clear_value s1
    split
    · exact h.raiseCore.fst
    · split
      split
      · exact h1.fst
      · split
        · exact h1.countAt.fst
        · extract_lets s2 t2
          have h2 : s2.Inv := h1.countAt.ite h1
          split
          · exact h1.countAt.fst
          · split
            · exact h2.fst
            · split
              · exact h2.fst
              · exact ih h2

theorem landFlit {f : WeftFlit} : (s.landFlit f).Inv := by
  unfold State.landFlit
  refine ite (h.of_eq (by rfl)) ?_
  split
  · exact h.egress
  · exact h.noRoute

theorem cross {src dst : Nat} {free : List (BitVec 5)} {n : Nat} {bad : Option CoreId} : (s.cross src dst free n bad).1.Inv := by
  unfold State.cross
  split
  · exact h
  · exact h.transit

theorem sendReply {f : WeftFlit} {src : Nat} : (s.sendReply f src).Inv := by
  unfold State.sendReply
  split
  · exact ite h.countNow h.noRoute
  next node _ =>
    have hc := h.cross (src := src) (dst := node) (free := []) (n := s.meshNow) (bad := none)
    revert hc
    generalize s.cross src node [] s.meshNow none = o
    intro hc
    obtain ⟨u, e, r⟩ := o
    have hu : u.Inv := hc
    cases e with
    | arrived => exact hu.landFlit
    | fenced => exact hu
    | dropped => exact hu

theorem carry {f : WeftFlit} {src node : Nat} {free : List (BitVec 5)} {n : Nat} {bad : Option CoreId} :
    (s.carry f src node free n bad).1.Inv := by
  unfold State.carry
  have hc := h.cross (src := src) (dst := node) (free := free) (n := n) (bad := bad)
  revert hc
  generalize s.cross src node free n bad = o
  intro hc
  obtain ⟨u, e, r⟩ := o
  have hu : u.Inv := hc
  cases e with
  | arrived => exact hu
  | fenced => exact hu.sendReply.ite hu
  | dropped => exact hu

theorem transmitted {f : WeftFlit} : (s.transmitted f).Inv := by
  unfold State.transmitted
  split
  · exact ite (h.of_eq (by rfl)) h
  · exact h

theorem weftInjection {c : CoreId} {cycle : Nat} {outs : MeshOuts} : Keeps (execWeftInjection c cycle outs s) := by
  unfold execWeftInjection
  extract_lets s1 n
  have h1 : s1.Inv := h.enterQueue
  refine keeps_ite h.next ?_
  split
  · exact h1.next
  next o rest _ =>
    refine keeps_ite h1.next ?_
    extract_lets take
    have htake : ∀ u, u.Inv → (take u).Inv := fun u hu => enterQueue (hu.updCore (by exact fun _ => id))
    split
    · exact next (ite (htake _ h1) (transmitted (htake _ h1)).noRoute)
    next node _ =>
      refine keeps_ite h1.countAt.next ?_
      have hc := (transmitted (f := o.flit) (htake _ h1)).carry (f := o.flit) (src := c.val) (node := node) (free := outs.free) (n := n)
        (bad := outs.parity)
      revert hc
      generalize ((take s1).transmitted o.flit).carry o.flit c.val node outs.free n outs.parity = r
      intro hc
      obtain ⟨u, b⟩ := r
      have hu : u.Inv := hc
      cases b with
      | true => exact hu.landFlit.next
      | false => exact hu.next

/-! ### The target -/

theorem linkFlit {p : Nat} {hdr : W64} {payload : BitVec 512} {o : Option WeftFlit} (ho : s.linkFlit p hdr payload = some (t, o)) :
    t.Inv := by
  unfold State.linkFlit at ho
  split_ifs at ho
  · cases ho
    exact h.portCount
  · cases ho
    exact h

theorem ingressAdd {p : Nat} {f : WeftFlit} : (s.ingressAdd p f).Inv := ite h.portCount (h.of_eq (by rfl))

theorem fromPort {p : Nat} {f : WeftFlit} {free : List (BitVec 5)} : (s.fromPort p f free).1.Inv := by
  unfold State.fromPort
  extract_lets src
  split
  · split
    · exact ite h h.countNow
    · exact h.carry
  · split
    · exact h.portCount
    · split
      · exact h.portCount
      next q _ =>
        have hc := h.carry (f := f) (src := src) (node := ioNode (q / 8) (s.attachColumn (nodeX src) (q / 8) - ioBase (q / 8))) (free := free)
          (n := s.meshNow) (bad := none)
        revert hc
        generalize s.carry f src _ free s.meshNow none = r
        intro hc
        obtain ⟨u, b⟩ := r
        have hu : u.Inv := hc
        cases b with
        | true => exact hu.egress
        | false => exact hu

theorem atPort {p : Nat} {f : WeftFlit} {free : List (BitVec 5)} : (s.atPort p f free).1.Inv := by
  unfold State.atPort
  split
  · exact h.ingressAdd
  · exact h.fromPort

omit h in
theorem drainIngress {p n : Nat} {s : State} (h : s.Inv) : (s.drainIngress p n).Inv := by
  induction n generalizing s with
  | zero => exact h
  | succ n ih =>
    unfold State.drainIngress
    split
    · exact h
    next f rest _ =>
      have hr := (h.of_eq (t := s.updPort p fun q => { q with ingress := rest }) (by rfl)).fromPort (p := p) (f := f) (free := [])
      exact ih (hr.landFlit.ite hr)

theorem takeWeft {v : WeftVia} {ty : WType} {o : Option WeftFlit} (ho : s.takeWeft v ty = some (t, o)) : t.Inv := by
  unfold State.takeWeft at ho
  split at ho
  · split_ifs at ho
    cases ho
    exact h.of_eq (by rfl)
  · split at ho
    next u f hu =>
      split_ifs at ho
      cases ho
      exact (h.linkFlit hu).atPort
    next r _ =>
      exact h.linkFlit ho

theorem reply {c : Nat} {f : WeftFlit} : (s.reply c f).Inv := ite h.sendReply (ite h.countNow (h.updCore (by exact fun _ => id)))

theorem unrecord {f : WeftFlit} : (s.unrecord f).Inv := h.of_eq (by rfl)

theorem record {f : WeftFlit} {keep : Bool} {r : Option WeftFlit} : (s.record f keep r).Inv := ite h.unrecord (h.of_eq (by rfl))

theorem writeIoDie {d o : Nat} {data : List Byte} : (s.writeIoDie d o data).Inv := h.writeNow.writeNow

theorem ioTarget {f : WeftFlit} : (s.ioTarget f).Inv := by
  unfold State.ioTarget
  extract_lets d o n abs 
  refine ite h ?_
  split
  · split
    · split
      · exact h.sendReply
      · exact h
    · exact sendReply (record h.writeIoDie)
  · exact h.sendReply
  · exact h

theorem target {f : WeftFlit} {n : Nat} {spaces : List Nat} {via : WeftVia} {run : State → Nat → Nat → State}
    (hrun : ∀ c abs, (run s c abs).Inv) : (s.target f n spaces via run).Inv := by
  unfold State.target
  extract_lets c denied replayed
  have hdenied : ∀ d, (denied d).Inv := fun d => h.raiseCore
  refine ite h.ioTarget (ite h (ite h.sendReply ?_))
  generalize replayed = found
  split
  · split
    · exact h.reply
    · exact h.countNow
  · split
    · split
      · exact h.portCount
      · exact h.countNow
    · split
      · exact hdenied _
      · refine ite (hdenied _) ?_
        split
        · exact hdenied _
        · exact hrun _ _

theorem enqueue {c : Nat} {a : QAccess} : (s.enqueue c a).Inv := ite h.countNow (h.updCore (by exact fun _ => id))

/-- A command that takes a flit of a type leaves the invariant if what it does with the flit does. -/
theorem taken {v : WeftVia} {ty : WType} {act : State → WeftFlit → State} (hact : ∀ u f, u.Inv → (act u f).Inv) :
    Keeps (match s.takeWeft v ty with
      | none => .next s
      | some (s, none) => .next s
      | some (s, some f) => .next (act s f)) := by
  split
  · exact h.next
  · next ho => exact (h.takeWeft ho).next
  · next ho => exact (hact _ _ (h.takeWeft ho)).next

theorem weftWrite {v : WeftVia} : Keeps (execWeftWrite v s) := h.taken fun _ _ hu => hu.target fun _ _ => hu.enqueue

theorem weftReadRequest {v : WeftVia} : Keeps (execWeftReadRequest v s) := h.taken fun _ _ hu => hu.target fun _ _ => hu.enqueue

theorem weftAtomic {v : WeftVia} : Keeps (execWeftAtomic v s) :=
  h.taken fun _ _ hu => hu.target fun _ _ => ite hu.enqueue hu.enqueue.record

theorem weftCounterIncrement {v : WeftVia} : Keeps (execWeftCounterIncrement v s) :=
  h.taken fun _ _ hu => hu.target fun _ _ => reply (record hu.incCounter)

/-! ### The core queue -/

theorem queueWrite {c t a : Nat} {data : List Byte} {marks : List (Nat × EccMark)} : (s.queueWrite c t a data marks).Inv := by
  unfold State.queueWrite
  extract_lets s1
  have h1 : s1.Inv := h.clearEcc.putMarks
  exact ite h1.writeNow (updCore h1.writeAt (by exact fun _ => id))

theorem runAccess {c t : Nat} {a : QAccess} : (s.runAccess c t a).Inv := by
  unfold State.runAccess
  extract_lets rd
  have hrd : ∀ u, u.Inv → (rd u).Inv := fun u hu => hu.updCore (by exact fun _ => id)
  split
  · exact reply (record h.queueWrite)
  · exact reply (hrd _ h)
  · exact reply (record (updCore (queueWrite (hrd _ h)) (by exact fun _ => id)))
  · exact (hrd _ h).of_eq (by rfl)
  · exact h.queueWrite
  · exact h

theorem checkAccess {c : Nat} {a : QAccess} : (s.checkAccess c a).1.Inv := by
  unfold State.checkAccess
  dsimp only
  split
  · exact h
  · split
    · exact h
    · exact h.raiseCore.countNow.fst
    · exact h.raiseCore.fst

theorem landFront {c : Nat} : (s.landFront c).Inv := by
  unfold State.landFront
  split
  · exact h
  next a rest _ =>
    extract_lets write ports t r
    have hr : r.1.Inv := checkAccess (h.updCore (by exact fun _ => id))
    refine ite hr.runAccess ?_
    split
    · exact ite hr.unrecord hr
    · exact hr

omit h in
theorem landPosted {f : FnId} {c n : Nat} {s : State} (h : s.Inv) : (s.landPosted f c n).Inv := by
  induction n generalizing s with
  | zero => exact h
  | succ n ih => exact ite (ih h.landFront) h

theorem postedLand {f : FnId} {but : Option Nat} : (s.postedLand f but).Inv := h.foldl fun _ _ hu => ite hu hu.landPosted

theorem weftAccessLand {c : CoreCycle} : Keeps (execWeftAccessLand c s) := by
  unfold execWeftAccessLand
  split
  · exact h.next
  next a rest _ =>
    extract_lets t s1 s2
    have h1 : s1.Inv := h.updCore (by exact fun _ => id)
    have h2 : s2.Inv := h1.postedLand.ite h1
    refine keeps_ite h.next ?_
    have hc := h2.checkAccess (c := c.core.val) (a := a)
    revert hc
    generalize s2.checkAccess c.core.val a = o
    intro hc
    obtain ⟨u, ok⟩ := o
    have hu : u.Inv := hc
    refine next (ite hu.runAccess ?_)
    split
    · exact ite hu.unrecord hu
    · exact hu

theorem coreQueueTimeout {c : CoreId} : Keeps (execCoreQueueTimeout c s) := by
  unfold execCoreQueueTimeout
  split
  · exact h.next
  · extract_lets s1
    have h1 : s1.Inv := countNow (h.updCore (by exact fun _ => id))
    split
    · exact next (ite h1.unrecord h1)
    · exact h1.next

theorem replayEntryExpiry {src : BitVec 12} {tag : BitVec 14} : Keeps (execReplayEntryExpiry src tag s) := next (h.of_eq (by rfl))

/-! ### The originator -/

theorem endTxn {tag : BitVec 14} {t : Txn} : (s.endTxn tag t).Inv := by
  unfold State.endTxn
  extract_lets keep
  have h1 : ({ s with txns := AMap.erase tag.toNat s.txns } : State).Inv := h.of_eq (by rfl)
  exact opStep (h1.updCore (by exact fun _ => id))

theorem replyWrite {t : Txn} {data : List Byte} {marks : List (Nat × EccMark)} : (s.replyWrite t data marks).Inv := by
  unfold State.replyWrite
  split
  · exact h
  · extract_lets c n ok
    split
    · exact h.raiseEng
    · have hok : ∀ v, ok = .ok v → v.Inv := by
        intro v hv
        dsimp only [ok] at hv
        split at hv
        · exact h.bobAccess hv
        · cases hv
          exact h
      clear_value ok
      cases ok with
      | error f => exact h.raiseEng
      | ok v => exact (hok v rfl).queueWrite

theorem originator {f : WeftFlit} {act : State → Txn → State} (hact : ∀ t, (act s t).Inv) : (s.originator f act).Inv := by
  unfold State.originator
  split
  · exact h.countNow
  · exact ite h.countNow (ite (hact _).endTxn (of_eq (hact _) (by rfl)))

theorem weftReadReply {v : WeftVia} : Keeps (execWeftReadReply v s) := h.taken fun _ _ hu => hu.originator fun _ => hu.replyWrite

theorem weftAtomicReply {v : WeftVia} : Keeps (execWeftAtomicReply v s) := h.taken fun _ _ hu => hu.originator fun _ => hu.replyWrite

theorem weftAcknowledgement {v : WeftVia} : Keeps (execWeftAcknowledgement v s) := h.taken fun _ _ hu => hu.originator fun _ => hu

theorem fencedTargetReply {v : WeftVia} : Keeps (execFencedTargetReply v s) := h.taken fun _ _ hu => hu.originator fun _ => hu.raise

theorem weftTimeoutExpiry {tag : BitVec 14} : Keeps (execWeftTimeoutExpiry tag s) := by
  unfold execWeftTimeoutExpiry
  split
  · exact h.next
  · extract_lets c s1 src f s2
    have h1 : s1.Inv := h.countNow
    have h2 : s2.Inv := h1.of_eq (by rfl)
    exact keeps_ite h.next (keeps_ite h1.next (keeps_ite h1.raise.next (next (enterQueue (h2.updCore (by exact fun _ => id))))))

theorem weftLifetimeExpiry {tag : BitVec 14} : Keeps (execWeftLifetimeExpiry tag s) := by
  unfold execWeftLifetimeExpiry
  split
  · exact h.next
  · exact next (ite h.endTxn h)

theorem weftForward {v : WeftVia} : Keeps (execWeftForward v s) := by
  unfold execWeftForward
  split
  · exact h.next
  · split
    · exact h.next
    · next ho => exact (h.linkFlit ho).next
    · next ho => exact keeps_ite (h.linkFlit ho).next (h.linkFlit ho).atPort.next

end
end State.Inv
end Sys2Proof.Machine
end


section
/-!
PROOFS. The invariant through warp at a port and at a core: arrivals over a link, the receive deadline, delivery from the hold
buffer, and what send entries put on the wire (R114, R117, R185, R230, R256, R258).
-/
namespace Sys2Proof.Machine

namespace State.Inv

section
variable {s t : State} (h : s.Inv)
include h

theorem warpMismatch {p : Nat} {place : Nat × Nat × Nat} : (s.warpMismatch p place).Inv := of_eq (s := s.portCount p 4) h.portCount (by rfl)

theorem warpFlitArrival {p : PortId} {hdr : W64} {payload : BitVec 512} : Keeps (execWarpFlitArrival p hdr payload s) := by
  unfold execWarpFlitArrival
  refine keeps_ite h.next (keeps_ite h.portCount.next (keeps_ite h.next ?_))
  extract_lets sg pos late cand
  split
  · exact next (h.of_eq (by rfl))
  · generalize cand = l
    split
    · exact h.portCount.next
    · split
      exact h.warpMismatch.next

theorem warpFaults {pass : Nat} {l : List (Nat × Nat × Byte)} : (s.warpFaults pass l).Inv := h.foldl fun _ _ hu => hu.raise

theorem portInject {u : WarpUse} {l : Loaded} {pass i : Nat} {payload : BitVec 512} : (s.portInject u l pass i payload).Inv := by
  unfold State.portInject
  refine ite h ?_
  extract_lets node
  split
  exact warpFaults h.launch

theorem warpDeadline {p : PortId} {frame : Nat} {sg : Fin 100} {pos : Fin 44} : Keeps (execWarpDeadline p frame sg pos s) := by
  unfold execWarpDeadline
  extract_lets at' here q is' drop
  have hdrop : drop.Inv := h.of_eq (by rfl)
  clear_value drop
  generalize here = use
  split
  · exact hdrop.next
  · extract_lets i
    split
    · extract_lets s1
      have h1 : s1.Inv := hdrop.portInject
      exact next (ite (h1.updCore (by exact fun _ => id)) h1)
    · exact hdrop.raise.next

/-! ### Delivery -/

theorem landRecv {c : Nat} {j : Job} {w : HeldWarp} {b i last : Nat} : (s.landRecv c j w b i last).Inv := by
  unfold State.landRecv
  extract_lets v entry want v'
  split
  · exact h.stopFault
  · refine ite h.stopFault ?_
    split
    · exact h.stopFault
    · split
      · exact h.count.stopFault
      next u hu =>
        extract_lets s1 s2
        have h1 : s1.Inv := (h.claimArrival hu).updCore (by exact fun _ => id)
        have h2 : s2.Inv := clearEcc h1.writeAt
        clear_value s2 
        generalize entry = found
        split
        · exact ite h2.entryCounter h2
        · exact h2

theorem landRed {c : Nat} {j : Job} {n : Nat} {w : HeldWarp} : (s.landRed c j n w).Inv := redDrain (h.updCore (by exact fun _ => id))

theorem warpDelivery {c : CoreId} {entry : HoldEntry} : Keeps (execWarpDelivery c entry s) := by
  unfold execWarpDelivery
  extract_lets due
  generalize due = l
  split
  · exact h.next
  · extract_lets w s1
    have h1 : s1.Inv := h.updCore (by exact fun _ => id)
    split
    · exact h1.raiseCore.next
    · refine keeps_ite h1.raise.next ?_
      split
      · exact h1.next
      · refine keeps_ite h1.next ?_
        split
        · exact next (ite h1.landRed h1.landRecv)
        · exact next (arrived h1.arrive)

/-! ### Sending -/

theorem sendLink {p low : Nat} {payload : BitVec 512} : (s.sendLink p low payload).Inv := h.of_eq (by rfl)

theorem fetchFlit {c : Nat} {j : Job} {b i fetch : Nat} {o : List Byte × State} : s.fetchFlit c j b i fetch = .ok o → o.2.Inv := by
  unfold State.fetchFlit
  -- where an address lies plays no part: stated of any function, or the kernel computes with the addresses of the map
  generalize State.resolve = resolve
  revert resolve
  refine id fun resolve => ?_
  split
  · exact fun ho => nomatch ho
  · extract_lets v
    split
    · exact fun ho => nomatch ho
    · extract_lets t
      split
      · exact fun ho => nomatch ho
      · extract_lets data
        split
        · exact fun ho => nomatch ho
        · split
          · exact fun ho => nomatch ho
          · extract_lets s1
            have h1 : s1.Inv := h.updCore (by exact fun _ => id)
            exact fun ho => Except.ok.inj ho ▸ ite h1.raiseRecs h1

theorem sendFlit {l : Loaded} {pass : Nat} {p : Pass} {u : WarpUse} {i : Nat} : (s.sendFlit l pass p u i).Inv := by
  unfold State.sendFlit
  split
  extract_lets c d lost data
  have hdata : ∀ bs t, data = .ok (bs, t) → t.Inv := by
    intro bs t hok
    dsimp only [data] at hok
    split at hok
    · split at hok
      · split at hok
        · cases hok
          exact h
        · cases hok
      · cases hok
    · exact h.fetchFlit hok
    · cases hok
  clear_value data
  cases data with
  | error e => exact h.raise
  | ok o =>
    obtain ⟨bs, v⟩ := o
    have hv := hdata bs v rfl
    dsimp -zeta only
    extract_lets s1 s2
    have h1 : s1.Inv := hv.ite hv.sendLink.portCount
    have h2 : s2.Inv := h1.updCore (by exact fun _ => id)
    exact ite h2.entryCounter h1

theorem sendWarp : s.sendWarp.Inv := redFaults (h.foldl fun _ _ hu => hu.foldl fun _ _ hv => hv.sendFlit)

end
end State.Inv
end Sys2Proof.Machine
end


section
/-!
PROOFS. The invariant through skeins (R300 to R319): formation, the control messages, pass offers, collectives and gate
contributions on the stitch lane.
-/
namespace Sys2Proof.Machine
namespace State.Inv

section
variable {s t : State} (h : s.Inv)
include h

/-! ### State changes -/

theorem completeForm {st : Status} : (s.completeForm st).Inv := by
  unfold State.completeForm
  split
  · exact finish (h.of_eq (by rfl))
  · exact h

theorem resumeWarp : s.resumeWarp.Inv := by
  unfold State.resumeWarp
  extract_lets s1
  have h1 : s1.Inv := h.foldl fun _ _ hu => hu.of_eq (by rfl)
  exact ite h (h1.of_eq (by rfl))

theorem enterFormed : s.enterFormed.Inv := h.setSkein.resumeWarp

theorem formDone : s.formDone.Inv :=
  have h1 : ({ s with skein := { s.skein with passNo := 0 } } : State).Inv := h.of_eq (by rfl)
  h1.enterFormed.completeForm

theorem formRefused {field : Byte} {m : BitVec 12} : (s.formRefused field m).Inv :=
  have h1 : ({ s with skein := { s.skein with field := field, module := m } } : State).Inv := h.of_eq (by rfl)
  h1.raise.completeForm.leaveSkein

theorem detach : s.detach.Inv :=
  have h1 : ({ s with clk := { s.clk with warpLost := true, tolFrames := 0 } } : State).Inv := h.of_eq (by rfl)
  ite h1.sendTo.setSkein h1

theorem timeFault {c : Cause} {d : Byte} : (s.timeFault c d).Inv := h.raise.detach

/-! ### Agreement records -/

theorem sendAll {ports : List Nat} {ms : List StitchMsg} : (s.sendAll ports ms).Inv := h.foldl fun _ _ hu => hu.sendTo

theorem formTry : s.formTry.Inv := by
  unfold State.formTry
  split
  · exact h
  · exact ite h (ite h.sendAll h.sendTo.formDone)

theorem refuse {field : Byte} {m : BitVec 12} : (s.refuse field m).Inv := ite h.sendTo (h.of_eq (by rfl))

theorem rejoinPart {part : Nat} {v : BitVec 128} {from' : BitVec 12} : (s.rejoinPart part v from').Inv := by
  unfold State.rejoinPart
  extract_lets m
  split
  · exact h.raise.breakSkein
  · exact ite (h.of_eq (by rfl)) (h.of_eq (by rfl))

theorem formPart {p : PortId} {sender : BitVec 12} {m : StitchMsg} : (s.formPart p sender m).Inv := by
  unfold State.formPart
  extract_lets part v
  split
  · exact h.of_eq (by rfl)
  · split
    · exact h.refuse
    · exact formTry (h.of_eq (by rfl))

theorem takeHeld {ty : Byte} {take : State → PortId → BitVec 12 → StitchMsg → State}
    (htake : ∀ u p sender m, u.Inv → (take u p sender m).Inv) : (s.takeHeld ty take).Inv := by
  unfold State.takeHeld
  split
  exact foldl (h.of_eq (by rfl)) fun u _ hu => htake u _ _ _ hu

theorem buildRecord : s.buildRecord.Inv :=
  have h1 : ({ s with skein := { s.skein with record := some s.agreementRecord } } : State).Inv := h.of_eq (by rfl)
  h1.formTry.takeHeld fun _ _ _ _ hu => hu.formPart

/-! ### Pass offers -/

theorem agreeStart {k frame : Nat} : (s.agreeStart k frame).Inv := of_eq (s := s.updPass k _) h.updPass (by rfl)

theorem offerTry {k : Nat} : (s.offerTry k).Inv := by
  unfold State.offerTry
  split
  · exact h
  · exact ite h (ite h.updPass (ite h (ite h.sendTo h.sendTo.agreeStart)))

theorem childOffer {p : PortId} {sender : BitVec 12} {m : StitchMsg} : (s.childOffer p sender m).Inv := by
  unfold State.childOffer
  split
  · exact h.of_eq (by rfl)
  · exact ite (h.of_eq (by rfl)) (ite h.disagree (ite h.disagree (ite h.disagree (ite h.disagree (offerTry (h.of_eq (by rfl)))))))

theorem makeOffer {k : Nat} : (s.makeOffer k).Inv := by
  unfold State.makeOffer
  split
  · exact h
  · extract_lets src s1
    have h1 : s1.Inv := h.of_eq (by rfl)
    exact ite h.offerTry (ite h (h1.offerTry.takeHeld fun _ _ _ _ hu => hu.childOffer))

theorem passOffer {p : PortId} : Keeps (execPassOffer p s) := by
  unfold execPassOffer
  split
  · exact h.next
  · extract_lets s1 result s2
    have h1 : s1.Inv := h.takeMsg
    have h2 : s2.Inv := h1.sendTo
    refine keeps_ite (next (ite h1.childOffer h1)) (keeps_ite h1.next ?_)
    split
    · exact next (ite h2.agreeStart h2)
    · exact h2.next

/-! ### Records and control messages -/

theorem foreign {m : StitchMsg} : (s.foreign m).Inv := h.logBoth

theorem agreementRecordPart {p : PortId} : Keeps (execAgreementRecordPart p s) := by
  unfold execAgreementRecordPart
  split
  · exact h.next
  · extract_lets s1 sender
    have h1 : s1.Inv := h.takeMsg
    exact keeps_ite h1.foreign.next (keeps_ite h1.next (keeps_ite (next (ite h1.rejoinPart h1.sendTo)) (next (ite h1.formPart h1))))

theorem control {p : PortId} {op : Byte} {run : State → StitchMsg → BitVec 12 → Byte → State}
    (hrun : ∀ u m who field, u.Inv → (run u m who field).Inv) : (s.control p op run).Inv := by
  unfold State.control
  split
  · exact h
  · extract_lets s1
    have h1 : s1.Inv := h.takeMsg
    exact ite h (ite h1.foreign (hrun _ _ _ _ h1))

theorem formed {p : PortId} : Keeps (execFormed p s) := next (h.control fun _ _ _ _ hu => ite hu.sendTo.formDone hu)

theorem refusedMessage {p : PortId} : Keeps (execRefused p s) :=
  next (h.control fun _ _ _ _ hu => ite hu (ite hu.sendTo.formRefused hu.refuse))

theorem leave {p : PortId} : Keeps (execLeave p s) := by
  refine next (h.control fun u m who _ hu => ?_)
  extract_lets u1 src u2
  have h1 : u1.Inv := hu.sendTo
  have h2 : u2.Inv := h1.of_eq (by rfl)
  clear_value u2
  split
  · exact ite h2.abandon h2
  · exact h2

theorem readmit {p : PortId} : Keeps (execReadmit p s) := by
  refine next (h.control fun u m who _ hu => ?_)
  extract_lets u1
  have h1 : u1.Inv := hu.sendTo
  exact ite hu (ite (ite (h1.of_eq (by rfl)) h1) (h1.of_eq (by rfl)))

theorem broken {p : PortId} : Keeps (execBroken p s) := next (h.control fun _ _ _ _ hu => hu.breakSkein)

theorem dissolveSelf : s.dissolveSelf.Inv := by
  unfold State.dissolveSelf
  split
  · exact h.completeForm.leaveSkein
  · exact h.completeForm.leaveSkein
  · exact ite h.setSkein h.setSkein.leaveSkein
  · exact ite h.setSkein h.setSkein.leaveSkein
  · exact h

theorem dissolve {p : PortId} : Keeps (execDissolve p s) := next (h.control fun _ _ _ _ hu => hu.sendTo.dissolveSelf)

theorem formationTimeout : Keeps (execFormationTimeout s) := next (ite h.completeForm.leaveSkein h)

theorem autoRejoin : Keeps (execAutoRejoin s) := keeps_ite h.next (keeps_ite (next (h.of_eq (by rfl))) h.sendAll.next)

theorem readmitTry : s.readmitTry.Inv := by
  unfold State.readmitTry
  split
  · exact h
  · extract_lets frame s1 src k
    have h1 : s1.Inv := h.sendTo
    exact ite h (h1.of_eq (by rfl))

/-! ### Collectives and the final gate on the stitch lane -/

theorem gateValue {entry : Nat} {v : BitVec 128} : (s.gateValue entry v).Inv := ite (h.of_eq (by rfl)) (ite (h.of_eq (by rfl)) (h.of_eq (by rfl)))

theorem gateTry {f : FnId} {entry : Nat} : (s.gateTry f entry).Inv := by
  unfold State.gateTry
  split
  · exact h
  · extract_lets v s1
    have h1 : s1.Inv := h.of_eq (by rfl)
    exact ite h (ite h1.sendTo h1.sendTo.gateValue)

theorem gateOwn {f : FnId} {entry : Nat} {v : BitVec 128} : (s.gateOwn f entry v).Inv := h.setColl.gateTry

theorem fscolContribution {p : PortId} : Keeps (execFscolContribution p s) := by
  unfold execFscolContribution
  split
  · exact h.next
  · extract_lets s1 f entry v add
    have h1 : s1.Inv := h.takeMsg
    have hadd : ∀ c, (add c).Inv := fun _ => h1.setColl
    refine keeps_ite h1.next (keeps_ite (hadd _).gateTry.next ?_)
    split
    · exact (hadd _).collTry.next
    · exact (hadd _).collTry.next
    · exact h1.next

theorem fscolResult {p : PortId} : Keeps (execFscolResult p s) := by
  unfold execFscolResult
  split
  · exact h.next
  · extract_lets s1 f entry v s2
    have h1 : s1.Inv := h.takeMsg
    have h2 : s2.Inv := h1.sendTo
    refine keeps_ite h1.next (keeps_ite h2.gateValue.next ?_)
    split
    · exact h2.collResult.next
    · exact h2.next

end
end State.Inv
end Sys2Proof.Machine
end


section
/-!
PROOFS. The invariant through time (R259, R275 to R282, R294 to R297, R456): what a stitch flit brings, the correction law, steps
and the TIME pins.
-/
namespace Sys2Proof.Machine
namespace State.Inv

section
variable {s t : State} (h : s.Inv)
include h

theorem announce {code : BitVec 5} {frame : W64} : (s.announce code frame).Inv := h.of_eq (by rfl)

theorem stepTo {code : BitVec 5} {loc : Bool} : (s.stepTo code loc).Inv := traceAll (h.of_eq (by rfl))

theorem stepFrame : Keeps (execStepFrame s) := keeps_ite h.next (next (ite h.stepTo.buildRecord h.stepTo))

/-! ### What a stitch flit brings -/

theorem takeStitch {p : PortId} {hdr : W64} {v : BitVec 512} {t2 : W64} : (s.takeStitch p hdr v t2).Inv := h.of_eq (by rfl)

theorem stitchFlitReceive {p : PortId} {ticks : Nat} {hdr : W64} {payload : BitVec 512} :
    Keeps (execStitchFlitReceive p ticks hdr payload s) := by
  unfold execStitchFlitReceive
  extract_lets s1
  have h1 : s1.Inv := h.portCount
  refine keeps_ite h.next (keeps_ite (next (ite h h.portCount)) (keeps_ite h.takeStitch.next ?_))
  split
  · exact next (ite h1.raise h1)
  · exact h1.next

theorem abandonNotice {p : PeerNotice} : Keeps (execAbandonNotice p s) := by
  unfold execAbandonNotice
  split
  · exact h.next
  · extract_lets s1
    have h1 : s1.Inv := h.of_eq (by rfl)
    clear_value s1
    split
    · exact next (ite h1.abandon h1)
    · exact h1.next

theorem stepAnnouncement {p : PortId} : Keeps (execStepAnnouncement p s) := by
  unfold execStepAnnouncement
  split
  · exact h.next
  · extract_lets s1 ahead frame src
    have h1 : s1.Inv := h.of_eq (by rfl)
    exact keeps_ite h1.next (keeps_ite h1.next (keeps_ite (next (timeFault (h1.of_eq (by rfl)))) h1.announce.next))

/-! ### The correction law -/

theorem joinTime {b : TimeBlk} {theta : Rat} {epoch : W64} : (s.joinTime b theta epoch).Inv := h.of_eq (by rfl)

theorem sample {b : TimeBlk} {theta : Rat} : (s.sample b theta).Inv := by
  unfold State.sample
  extract_lets k a bad s1
  have h1 : s1.Inv := h.of_eq (by rfl)
  exact ite h1.timeFault h1

theorem timeSample {p : PeerTime} : Keeps (execTimeSample p s) := by
  unfold execTimeSample
  split
  · exact h.next
  next b _ =>
    extract_lets s1 check
    have h1 : s1.Inv := h.of_eq (by rfl)
    have hcheck : ∀ u, u.Inv → (check u).Inv := fun _ hu => ite hu.timeFault hu
    refine keeps_ite h1.next ?_
    split
    · exact (hcheck _ h1).next
    · exact next (ite (h1.of_eq (by rfl)) (hcheck _ h1.sample))

theorem timeSampleLoss : Keeps (execTimeSampleLoss s) := keeps_ite h.next (next (timeFault (h.of_eq (by rfl))))

/-! ### TIME pins -/

theorem draw {n : Nat} : (s.draw n).2.Inv := h.of_eq (by rfl)

theorem timeInEdge {ticks highNs riseNs : Nat} : Keeps (execTimeInEdge ticks highNs riseNs s) := by
  unfold execTimeInEdge
  extract_lets now low theta src s1
  have h1 : s1.Inv := h.of_eq (by rfl)
  exact keeps_ite h.next (keeps_ite (h.draw (n := 0x456)).logTo.next (next (ite (h1.of_eq (by rfl)) (h1.of_eq (by rfl)))))

theorem timeOutPulse : Keeps (execTimeOutPulse s) := next (ite (h.of_eq (by rfl)) h)

end
end State.Inv
end Sys2Proof.Machine
end


section
/-!
PROOFS. The invariant through slot groups and frames (R253, R255, R276, R289 to R294), kernel starts (R215, R218), stretches, lock
monitors, ports that train and fail, and the mesh mode.
-/
namespace Sys2Proof.Machine
namespace State.Inv

section
variable {s t : State} (h : s.Inv)
include h

theorem clock {k : Clock} : ({ s with clk := k } : State).Inv := h.of_eq (by rfl)

theorem portMap {m : AMap Port} : ({ s with ports := m } : State).Inv := h.of_eq (by rfl)

theorem check {k : Chk} : ({ s with chk := k } : State).Inv := h.of_eq (by rfl)

theorem skeins {k : Skein} : ({ s with skein := k } : State).Inv := h.of_eq (by rfl)

/-! ### Slot groups -/

theorem rootAnnounce : s.rootAnnounce.Inv := ite h.announce h

theorem sendStitch {p : Nat} : (s.sendStitch p).Inv := by
  unfold State.sendStitch
  extract_lets m v s1
  have h1 : s1.Inv := h.sendLink
  clear_value s1 m
  split
  · exact h1.of_eq (by rfl)
  · exact h1

theorem sendWeft {p : Nat} : (s.sendWeft p).Inv := by
  unfold State.sendWeft
  extract_lets q n s1
  have h1 : s1.Inv := h.of_eq (by rfl)
  exact ite h (h1.foldl fun _ _ hu => hu.sendLink.portCount)

theorem serveIngress {p : Nat} : (s.serveIngress p).Inv := ite h.drainIngress h

theorem ripenAll : s.ripenAll.Inv := by
  refine h.foldl fun u ck hu => ?_
  split
  · exact hu
  · exact hu.ripen

theorem train {p : Nat} : (s.train p).Inv := h.of_eq (by rfl)

theorem trainDown : s.trainDown.Inv := h.foldl fun _ _ hu => ite hu.train hu

theorem refuseDown : s.refuseDown.Inv := by
  unfold State.refuseDown
  split
  · exact h.sendTo.formRefused
  · exact h

theorem slotGroupStart : Keeps (execSlotGroupStart s) := by
  unfold execSlotGroupStart
  extract_lets s1 s2 src s3 s4 s5 full s6 s7 s8 s9
  have h1 : s1.Inv := ite h h.refuseDown
  have h2 : s2.Inv := h1.clock
  have h3 : s3.Inv := h2.clock
  have h4 : s4.Inv := h3.ripenAll.trainDown
  have h5 : s5.Inv := h4.portMap
  have h6 : s6.Inv := h5.readmitTry.rootAnnounce
  have h7 : s7.Inv := sendWarp (h6.foldl fun _ _ hu => hu.sendStitch)
  have h8 : s8.Inv := h7.foldl fun _ _ hu => hu.sendWeft
  have h9 : s9.Inv := h8.foldl fun _ _ hu => hu.serveIngress
  exact keeps_ite h.next (keeps_ite (next (h5.foldl fun _ _ hu => hu.sendStitch)) (next h9.skeins))

/-! ### Regions -/

theorem regionEnd {r : Nat} : (s.regionEnd r).1.Inv := h.of_eq (by rfl)

theorem countHolds : s.countHolds.Inv := by
  refine ite (h.foldl fun u ck hu => ?_) h
  split
  · exact hu.foldl fun _ _ hv => hv.count
  · exact hu

/-- The regions whose frames end, one after the other, with the list of those that overrun. -/
theorem regionEnds {l : List Nat} {o : List Nat} {f : State × List Nat → Nat → State × List Nat}
    (hf : ∀ a r, a.1.Inv → (f a r).1.Inv) : (l.foldl f (s, o)).1.Inv := by
  induction l generalizing s o with
  | nil => exact h
  | cons r l ih => exact ih (s := (f (s, o) r).1) (hf _ _ h) (o := (f (s, o) r).2)

theorem regionsEnd : s.regionsEnd.Inv := by
  unfold State.regionsEnd
  extract_lets s1 running
  have h1 : s1.Inv := h.countHolds
  split
  next u beyond heq =>
    have hu : u.Inv := by
      have hends := h1.regionEnds (l := List.range 52) (o := []) (f := fun (a : State × List Nat) r =>
        let (s, o) := a.1.regionEnd r
        (s, if o then a.2 ++ [r] else a.2)) fun _ _ ha => ha.regionEnd
      rw [heq] at hends
      exact hends
    exact hu.foldl fun _ _ hv => ite hv.raise (hv.foldl fun _ _ hw => hw.raise)

/-! ### Kernel starts -/

theorem coreStart {f : FnId} {k : Nat} {l : Loaded} {c vcore : Nat} : (s.coreStart f k l c vcore).Inv := by
  unfold State.coreStart
  extract_lets s1 j bobs
  have h1 : s1.Inv := h.settleAll
  exact h1.updCore fun _ hk => ⟨hk.1, fun _ hv => absurd hv List.not_mem_nil⟩

theorem coreNext {n t c : Nat} : (s.coreNext n t c).Inv := by
  unfold State.coreNext
  extract_lets s1
  have h1 : s1.Inv := settleAll (closeLedger h.ripen)
  refine h1.updCore fun k hk => ⟨hk.1, fun v hv => ?_⟩
  obtain ⟨w, -, rfl⟩ := List.mem_map.1 hv
  rfl

theorem traceKernel {p : Pass} {n : Nat} : (s.traceKernel p n).Inv := h.traceTo

theorem passStart {k : Nat} {p : Pass} {l : Loaded} : (s.passStart k p l).Inv := by
  unfold State.passStart
  extract_lets src s1 s2 s3 src2 s4
  have h1 : s1.Inv := h.of_eq (by rfl)
  have h2 : s2.Inv := h1.setPassState.updPass
  have h3 : s3.Inv := h2.foldl fun _ _ hu => hu.coreStart
  have h4 : s4.Inv := ite (h3.of_eq (by rfl)) h3
  exact h4.traceKernel

theorem kernelNext {k : Nat} {p : Pass} : (s.kernelNext k p).Inv :=
  traceKernel (updPass (h.foldl fun _ _ hu => hu.coreNext))

theorem startKernels {k : Nat} {p : Pass} : (s.startKernels k p).Inv := by
  unfold State.startKernels
  split
  · exact ite h.passStart h
  · exact ite h.kernelNext h
  · exact h

/-! ### Frame starts -/

theorem frameStart : Keeps (execFrameStart s) := by
  unfold execFrameStart
  extract_lets s1 s2 s3 s4 src s5
  have h1 : s1.Inv := h.clock.regionsEnd
  have h2 : s2.Inv := h1.foldl fun _ _ hu => ite hu.updPass hu
  have h3 : s3.Inv := h2.foldl fun _ _ hu => hu.startKernels
  have h4 : s4.Inv := ite h3.resumeWarp h3
  have h5 : s5.Inv := h4.check
  refine keeps_ite h.next ?_
  clear_value s5
  split
  · exact next (ite (enterFormed (h5.of_eq (by rfl))) h5)
  · exact h5.next

/-! ### Stretch -/

theorem stretchRegion {r t : Nat} {own : Bool} : (s.stretchRegion r t own).Inv :=
  have h1 : (s.updRegion r fun v => { v with stretches := v.stretches + 1, last := some t, total := v.total + 1 }).Inv := h.of_eq (by rfl)
  h1.foldl fun _ _ hu => ite hu.countAt.countAt hu.countAt

theorem stretch {r : RegionId} {cycle : Nat} {replica : Bool} : Keeps (execStretch r cycle replica s) :=
  keeps_ite h.next (keeps_ite (next (ite h.raise h)) h.stretchRegion.next)

theorem stretchToken {r : RegionId} {cycle : Nat} : Keeps (execStretchToken r cycle s) := keeps_ite h.next h.stretchRegion.next

theorem lockMonitorFault {r : Option RegionId} : Keeps (execLockMonitorFault r s) := by
  refine keeps_ite h.next ?_
  split
  · exact h.raise.next
  · exact h.raise.next

/-! ### Ports and the mesh mode -/

theorem portDown {p : Nat} {absent : Bool} : (s.portDown p absent).Inv := of_eq (s := s.train p) h.train (by rfl)

theorem portDownEvent {p : PortId} : Keeps (execPortDown p s) := by
  unfold execPortDown
  extract_lets st users s1 s2
  have h1 : s1.Inv := by
    dsimp only [s1]
    generalize users = l
    split
    · exact h.raise
    · exact h.foldl fun _ _ hu => hu.raise
  have h2 : s2.Inv := ite h1.breakSkein h1
  exact keeps_ite h.next (keeps_ite h.portDown.next h2.portDown.next)

theorem portTrainingComplete {p : PortId} {delay : Alignment} {fecClean : Bool} :
    Keeps (execPortTrainingComplete p delay fecClean s) := keeps_ite h.next (next (h.of_eq (by rfl)))

theorem meshModeChange : Keeps (execMeshModeChange s) := by
  unfold execMeshModeChange
  split
  · exact h.next
  · exact next (ite (h.of_eq (by rfl)) h)

end
end State.Inv
end Sys2Proof.Machine
end


section
/-!
PROOFS. The invariant through the control, register and vector instructions (R91 to R99, R130 to R159), whose ends are known, and
through those that load and store (R95, R132).
-/
namespace Sys2Proof.Machine

/-- An instruction that gives the invariant at its engineKept issues with the invariant. -/
theorem Ends.given {c : Nat} {e : Eng} {a : Except Halt Issued} (h : Ends (Leaves c e State.Inv) (Gives c e State.Inv) a) :
    Ends Halt.Inv (fun i => i.w.s.Inv) a := h.inv.mono fun _ hg => hg.keeps

namespace State.Inv

section
variable {s : State} (h : s.Inv)
include h

/-- A vector result joins those of its register by its due cycle. -/
theorem putV {c v t : Nat} {p : VPend} :
    (s.updCore c fun o => { o with vregs := AMap.upd VReg.zero o.vregs v fun r => r.put t p }).Inv := by
  refine h.updCore fun k hk => ⟨hk.1, fun r hr => ?_⟩
  obtain rfl | hr := AMap.mem_set hr
  · exact dueSorted_insVPend _ (dueSorted_iff.2 ((dueSorted_iff.1 (dueSorted_get hk.2 v)).filter _))
  · exact hk.2 r hr

end

section
variable {k : Work} (h : k.s.Inv) {m : Byte} {w : BitVec 48} {x : Ctx}
include h

theorem onward : Onward x.c x.e State.Inv x k := ⟨rfl, rfl, h⟩

/-! ### Control and register instructions -/

omit h in
theorem engineKept {c : Nat} {e : Eng} : ∀ (u : State) (f : Engine → Engine), u.Inv → (u.updEngine c e f).Inv := fun _ _ hu => hu.updEngine

omit h in
theorem counterKept {c n : Nat} : ∀ (u : State) (v : Counter), u.Inv → (u.setCounter c n v).Inv := fun _ _ hu => hu.setCounter

theorem runNop : Ends Halt.Inv (fun i => i.w.s.Inv) (runNop m w x k) := (runNop_ends h.onward).given

theorem runPad : Ends Halt.Inv (fun i => i.w.s.Inv) (runPad m w x k) := (runPad_ends h.onward).given

theorem runLoop : Ends Halt.Inv (fun i => i.w.s.Inv) (runLoop m w x k) := (runLoop_ends engineKept h.onward).given

theorem runEndloop : Ends Halt.Inv (fun i => i.w.s.Inv) (runEndloop m w x k) := (runEndloop_ends engineKept h.onward).given

theorem runCall : Ends Halt.Inv (fun i => i.w.s.Inv) (runCall m w x k) := (runCall_ends engineKept h.onward).given

theorem runRet : Ends Halt.Inv (fun i => i.w.s.Inv) (runRet m w x k) := (runRet_ends engineKept h.onward).given

theorem runWait : Ends Halt.Inv (fun i => i.w.s.Inv) (runWait m w x k) := (runWait_ends h.onward counterKept).given

theorem runSignal : Ends Halt.Inv (fun i => i.w.s.Inv) (runSignal m w x k) :=
  (runSignal_ends h.onward counterKept engineKept fun _ _ hu => hu.addFault).given

theorem runRelease : Ends Halt.Inv (fun i => i.w.s.Inv) (runRelease m w x k) := (runRelease_ends engineKept h.onward).given

theorem runAcquire : Ends Halt.Inv (fun i => i.w.s.Inv) (runAcquire m w x k) := (runAcquire_ends h.onward counterKept).given

theorem runBarrier : Ends Halt.Inv (fun i => i.w.s.Inv) (runBarrier m w x k) := (runBarrier_ends engineKept h.onward).given

theorem runSset : Ends Halt.Inv (fun i => i.w.s.Inv) (runSset m w x k) := (runSset_ends engineKept h.onward).given

theorem runSop : Ends Halt.Inv (fun i => i.w.s.Inv) (runSop m w x k) := (runSop_ends engineKept h.onward).given

theorem runSopi : Ends Halt.Inv (fun i => i.w.s.Inv) (runSopi m w x k) := (runSopi_ends engineKept h.onward).given

theorem runAset : Ends Halt.Inv (fun i => i.w.s.Inv) (runAset m w x k) := (runAset_ends engineKept h.onward).given

theorem runAadd : Ends Halt.Inv (fun i => i.w.s.Inv) (runAadd m w x k) := (runAadd_ends engineKept h.onward).given

theorem runSrd : Ends Halt.Inv (fun i => i.w.s.Inv) (runSrd m w x k) := (runSrd_ends engineKept h.onward).given

theorem runSld : Ends Halt.Inv (fun i => i.w.s.Inv) (runSld m w x k) :=
  (needCtl_ends (c := x.c) (e := x.e) _ _ _).inv.bind fun _ _ => h.needs.bind fun _ _ => h.gate.bind fun _ hv =>
    (read hv).bind fun _ hu => .pure (incA (setS hu))

theorem runSst : Ends Halt.Inv (fun i => i.w.s.Inv) (runSst m w x k) :=
  (needCtl_ends (c := x.c) (e := x.e) _ _ _).inv.bind fun _ _ => h.needs.bind fun _ _ => h.gate.bind fun _ hv =>
    (write hv).bind fun _ hu => .pure hu.incA

/-! ### Vector instructions -/

omit h in
theorem registerKept {c v : Nat} : ∀ (u : State) (t : Nat) (p : VPend), u.Inv → (u.updCore c fun o =>
    { o with vregs := AMap.upd VReg.zero o.vregs v fun r => r.put t p }).Inv := fun _ _ _ hu => hu.putV

theorem setV {v l : Nat} {lane0 : Bool} {lanes : List W32} : (k.setV x v l lane0 lanes).s.Inv :=
  ((h.onward (x := x)).vland engineKept v).keeps.putV

theorem vreg {v : Nat} : Ends Halt.Inv (fun o => o.2.s.Inv) (k.vreg x v) :=
  (vreg_ends engineKept (h.onward (x := x)) v).inv.mono fun _ ho => ho.keeps

theorem floatChecks {l : Nat} : Ends Halt.Inv (fun v : Work => v.s.Inv) (k.floatChecks x l) :=
  (floatChecks_ends engineKept (h.onward (x := x)) l).inv.mono fun _ ho => ho.keeps

theorem ieee {i : Ieee} : (k.ieee x i).s.Inv := h.ev.ev.ev.ev

theorem runVld : Ends Halt.Inv (fun i => i.w.s.Inv) (runVld m w x k) :=
  needEng.bind fun _ _ => need.bind fun _ _ => h.gate.bind fun _ hv => (readPieces hv).bind fun _ hu => .pure (incA (setV hu))

theorem runVst : Ends Halt.Inv (fun i => i.w.s.Inv) (runVst m w x k) :=
  needEng.bind fun _ _ => need.bind fun _ _ => h.gate.bind fun _ hv => (vreg hv).bind fun _ hr =>
    (Ends.ite (floatChecks hr) (.pure hr)).bind fun _ hu => (writePieces (by split; exacts [ieee hu, hu])).bind fun _ ht => .pure ht.incA

theorem runArith {code : Nat} {f : W32 → W32 → W32 × Ieee} : Ends Halt.Inv (fun i => i.w.s.Inv) (runArith code f w x k) :=
  (runArith_ends engineKept registerKept h.onward code f).given

theorem runVfma : Ends Halt.Inv (fun i => i.w.s.Inv) (runVfma m w x k) := (runVfma_ends engineKept registerKept h.onward).given

theorem runVcmp : Ends Halt.Inv (fun i => i.w.s.Inv) (runVcmp m w x k) := (runVcmp_ends engineKept registerKept h.onward).given

theorem runVsel : Ends Halt.Inv (fun i => i.w.s.Inv) (runVsel m w x k) := (runVsel_ends engineKept registerKept h.onward).given

theorem runVint : Ends Halt.Inv (fun i => i.w.s.Inv) (runVint m w x k) := (runVint_ends engineKept registerKept h.onward).given

theorem runVcvt : Ends Halt.Inv (fun i => i.w.s.Inv) (runVcvt m w x k) := (runVcvt_ends engineKept registerKept h.onward).given

theorem runVfn : Ends Halt.Inv (fun i => i.w.s.Inv) (runVfn m w x k) := (runVfn_ends engineKept registerKept h.onward).given

theorem runVred : Ends Halt.Inv (fun i => i.w.s.Inv) (runVred m w x k) := (runVred_ends engineKept registerKept h.onward).given

theorem runVbcast : Ends Halt.Inv (fun i => i.w.s.Inv) (runVbcast m w x k) := (runVbcast_ends engineKept registerKept h.onward).given

theorem runVtos : Ends Halt.Inv (fun i => i.w.s.Inv) (runVtos m w x k) := (runVtos_ends engineKept h.onward).given

end

end State.Inv
end Sys2Proof.Machine
end


section
/-!
PROOFS. The invariant through the matrix instructions (R69 to R88).
-/
namespace Sys2Proof.Machine
namespace State.Inv

section
variable {k : Work} (h : k.s.Inv) {m : Byte} {w : BitVec 48} {x : Ctx}
include h

/-! ### Steps of a matrix instruction -/

theorem updMx {f : Mxe → Mxe} : (k.updMx x f).s.Inv := by
  dsimp only [Work.updMx]
  exact h.updCore (by exact fun _ => id)

theorem spot {cyc : Nat} {u : Upset} {d : Byte} : (k.spot x cyc u d).s.Inv := by
  unfold Work.spot
  split
  · dsimp only [Work.lateFault]
    exact h.updEngine
  · exact h

theorem waitPath {n : Nat} : (waitPath x k n).2.s.Inv := vectors h.waitBusy

theorem matrixFaults {fs : List MFault} : (k.matrixFaults x fs).s.Inv := foldWork h fun _ _ hv => hv.lateFault

theorem closeReds {cfg : MCfg} {accs rows : List Nat} : (k.closeReds x cfg accs rows).s.Inv := h.updMx

omit h in
theorem psmRows {a : MAddr} {n : Nat} : Ends Halt.Inv (fun _ => True) (psmRows k x a n) := by
  unfold Machine.psmRows
  refine need.bind fun _ _ => ?_
  split
  · exact refused
  · exact needF.bind fun _ _ => trivial

omit h in
/-- The rows of partial sums that an instruction names, in PSM mode only. -/
theorem modeRows {p : Prop} [Decidable p] {a : MAddr} {n : Nat} {l : List Nat} :
    Ends Halt.Inv (fun _ => True) (if p then Machine.psmRows k x a n else pure l) := .ite psmRows trivial

omit h in
theorem otherRows {p : Prop} [Decidable p] {a : MAddr} {n : Nat} {l : List Nat} :
    Ends Halt.Inv (fun _ => True) (if p then pure l else Machine.psmRows k x a n) := .ite trivial psmRows

theorem drainPorts {cfg : MCfg} {rows : List Nat} : (drainPorts x k cfg rows).s.Inv := by
  unfold Machine.drainPorts
  split
  · exact h.claimRun.ev
  · exact h

theorem drainValue {cfg : MCfg} {p : (Nat × Option Nat) × Nat} : Ends Halt.Inv (fun o => o.2.s.Inv) (drainValue x k cfg p) := by
  unfold Machine.drainValue
  split
  · refine (Ends.foldlM (Q := fun o : List Acc × Work => o.2.s.Inv) h fun o ho d _ => ?_).bind fun o ho => ?_
    · exact (readFree ho).bind fun _ hv => .pure hv
    · exact .pure ho
  · exact h

theorem compares {cfg : MCfg} {vs : List Closed} : (k.compares x cfg vs).s.Inv := by
  unfold Work.compares
  extract_lets k1
  have h1 : k1.s.Inv := foldWork h fun v p hv => by
    extract_lets want got v1 v2
    have h2 : v2.s.Inv := (hv.ev (code := 0x06)).updPass
    split
    · exact h2
    · exact h2.lateFault
  split
  · exact h1
  · exact h1.spot.spot.until'

theorem startDrain {cfg : MCfg} {accs rows : List Nat} {writes : Ctx → List Range} :
    Ends Halt.Inv (fun o => o.2.s.Inv) (startDrain x k cfg accs rows writes) :=
  need.bind fun _ _ => h.gate.bind fun _ hv => .pure (updMx (spot hv))

/-! ### Configuration and latch fills -/

theorem runMcfg : Ends Halt.Inv (fun i => i.w.s.Inv) (runMcfg m w x k) :=
  needF.bind fun _ _ => needEng.bind fun _ _ => need.bind fun _ _ => .pure h.updMx

theorem runMdcfg : Ends Halt.Inv (fun i => i.w.s.Inv) (runMdcfg m w x k) := needEng.bind fun _ _ => .pure h.updMx

theorem runMlw : Ends Halt.Inv (fun i => i.w.s.Inv) (runMlw m w x k) := by
  unfold Machine.runMlw
  refine needEng.bind fun _ _ => ?_
  extract_lets aw ac cfg rb n1 n2 go
  have hgo : ∀ u, Ends Halt.Inv (fun i => i.w.s.Inv) (go u) := by
    intro u
    refine h.read.bind fun ⟨elems, k1⟩ h1 => (readSide h1).bind fun ⟨side, k2⟩ h2 => ?_
    dsimp -zeta only
    extract_lets k3 bad k4 l src k5 fill k6
    have h3 : k3.s.Inv := spot h2
    have h4 : k4.s.Inv := by
      dsimp only [k4]
      split
      · exact h3.lateFault
      · exact h3
    have h5 : k5.s.Inv := h4.of_eq (by rfl)
    have h6 : k6.s.Inv := h5.updMx
    exact .pure h6.incA.incA
  refine need.bind fun _ _ => ?_
  split
  · exact refused
  · exact refused
  · exact need.bind fun _ _ => hgo ()

/-! ### Vectors and accumulators -/

theorem runMldl : Ends Halt.Inv (fun i => i.w.s.Inv) (runMldl m w x k) := by
  unfold Machine.runMldl
  refine needEng.bind fun _ _ => ?_
  have hp := h.waitPath (x := x) (n := ((k.s.core x.c).engine x.e).free)
  revert hp
  generalize Machine.waitPath x k _ = o
  intro hp
  obtain ⟨y, k1⟩ := o
  have h1 : k1.s.Inv := hp
  dsimp -zeta only
  extract_lets cfg accs q
  refine need.bind fun _ _ => psmRows.bind fun rows _ => h1.gate.bind fun ⟨z, k2⟩ h2 => ?_
  dsimp -zeta only
  extract_lets k3 k4 evs
  have h3 : k3.s.Inv := spot h2
  have h4 : k4.s.Inv := by
    dsimp only [k4]
    split
    · exact h3
    · exact h3.claimRun
  refine (Ends.foldlM (Q := fun o : Work × List MFault => o.1.s.Inv) h4 fun o ho p _ => ?_).bind fun ⟨k5, fs⟩ h5 => ?_
  · refine (Ends.foldlM (Q := fun o : Work × List MFault × Nat => o.1.s.Inv) ho fun o ho d _ => ?_).bind fun ⟨v, fs, rho⟩ hv => ?_
    · exact (readFree ho).bind fun ⟨bs, v⟩ hv => .pure (updMx hv)
    · exact .pure (updMx hv)
  · refine .pure (matrixFaults ?_)
    have hk : ({ k5 with evs := evs } : Work).s.Inv := h5
    split
    · exact hk
    · exact hk.ev

theorem runMmul : Ends Halt.Inv (fun i => i.w.s.Inv) (runMmul m w x k) := by
  unfold Machine.runMmul
  refine needEng.bind fun _ _ => ?_
  have hp := h.waitPath (x := x) (n := max ((k.s.core x.c).engine x.e).free (k.mx x).stall)
  revert hp
  generalize Machine.waitPath x k _ = o
  intro hp
  obtain ⟨y, k1⟩ := o
  have h1 : k1.s.Inv := hp
  dsimp -zeta only
  extract_lets t cfg opens first av stride sc vb va
  refine need.bind fun _ _ => need.bind fun _ _ => need.bind fun _ _ => needAll.bind fun _ _ => modeRows.bind fun rows _ => ?_
  refine need.bind fun _ _ => h1.gate.bind fun ⟨z, k2⟩ h2 => ?_
  extract_lets readVec
  have hread : ∀ r v, v.s.Inv → Ends Halt.Inv (fun o => o.2.s.Inv) (readVec r v) := by
    intro r v hv
    refine hv.read.bind fun ⟨bs, v1⟩ hv1 => ?_
    refine Ends.bind (Q := fun o : List Byte × Work => o.2.s.Inv) (.ite (readFree hv1) (.pure hv1)) fun ⟨s4, v2⟩ hv2 => .pure ?_
    exact hv2
  clear_value readVec
  refine (Ends.foldlM (Q := fun o : List MVec × Work × Bool => o.2.1.s.Inv) h2 fun o ho r _ => ?_).bind fun ⟨vecs, k3, go⟩ h3 => ?_
  · refine .ite (.pure ho) ?_
    have hr := hread r o.2.1 ho
    revert hr
    generalize readVec r o.2.1 = e
    intro hr
    split
    · exact hr
    · exact hr
    · exact hr
  · dsimp -zeta only
    extract_lets k4 k5 base cl k6 k7 k8 k9 k10 k11
    have h5 : k5.s.Inv := (spot h3).updMx
    have h6 : k6.s.Inv := by
      dsimp only [k6]
      split
      · exact (until' h5.ev.ev).claimRun
      · exact h5
    have h7 : k7.s.Inv := h6.updEngine.work (k := k6)
    have h8 : k8.s.Inv := updMx (matrixFaults h7.foldVectors)
    have h9 : k9.s.Inv := h8.until'
    have h10 : k10.s.Inv := h9.setA
    have h11 : k11.s.Inv := by
      dsimp only [k11]
      split
      · split
        · exact h10
        · exact h10.setA
      · exact h9
    exact .pure h11

theorem runMclr : Ends Halt.Inv (fun i => i.w.s.Inv) (runMclr m w x k) :=
  needEng.bind fun _ _ => modeRows.bind fun _ _ => need.bind fun _ _ => .pure (closeReds (spot h.waitPath))

/-! ### Drains -/

theorem runMdrnl : Ends Halt.Inv (fun i => i.w.s.Inv) (runMdrnl m w x k) := by
  unfold Machine.runMdrnl
  refine needEng.bind fun _ _ => ?_
  have hp := h.waitPath (x := x) (n := ((k.s.core x.c).engine x.e).free)
  revert hp
  generalize Machine.waitPath x k _ = o
  intro hp
  obtain ⟨y, k1⟩ := o
  have h1 : k1.s.Inv := hp
  dsimp -zeta only
  extract_lets cfg accs q
  refine modeRows.bind fun rows _ => otherRows.bind fun out _ => h1.startDrain.bind fun ⟨z, k2⟩ h2 => ?_
  dsimp -zeta only
  extract_lets k3
  have h3 : k3.s.Inv := closeReds (drainPorts h2)
  refine (Ends.foldlM (Q := fun o : List Closed × Work => o.2.s.Inv) h3 fun o ho p _ => ?_).bind fun ⟨vs, k4⟩ h4 => ?_
  · exact (drainValue ho).bind fun _ hv => .pure hv
  · have h5 : k4.s.Inv := h4
    refine .ite (.pure h5) (.ite (.pure h5.compares) (.ite (.pure h5.lateFault) ?_))
    refine (Ends.foldlM (Q := fun v : Work => v.s.Inv) h5 fun v hv p _ => hv.write).bind fun v hv => .pure hv.compares

theorem runMdrn : Ends Halt.Inv (fun i => i.w.s.Inv) (runMdrn m w x k) := by
  unfold Machine.runMdrn
  refine needEng.bind fun _ _ => ?_
  have hp := h.waitPath (x := x) (n := ((k.s.core x.c).engine x.e).free)
  revert hp
  generalize Machine.waitPath x k _ = o
  intro hp
  obtain ⟨y, k1⟩ := o
  have h1 : k1.s.Inv := hp
  dsimp -zeta only
  extract_lets cfg d ad stride nrows accs width bytes nums dst
  refine modeRows.bind fun rows _ => need.bind fun _ _ => needAll.bind fun _ _ => h1.startDrain.bind fun ⟨z, k2⟩ h2 => ?_
  dsimp -zeta only
  extract_lets k3 spoilt
  have h3 : k3.s.Inv := closeReds (drainPorts h2)
  refine (Ends.foldlM (Q := fun o : List Closed × Work => o.2.s.Inv) h3 fun o ho p _ => ?_).bind fun ⟨vs, k4⟩ h4 => ?_
  · refine (drainValue ho).bind fun ⟨v, k5⟩ h5 => .ite (.pure h5) ?_
    exact (write (ev h5)).bind fun _ hu => .pure hu
  · refine .pure ?_
    have h5 : (k4.compares z cfg vs).s.Inv := h4.compares
    dsimp only [Machine.finish]
    split
    · exact h5.setA
    · exact h5

end
end State.Inv
end Sys2Proof.Machine
end


section
/-!
PROOFS. The invariant through rings, descriptors and interrupts (R347 to R360), and the descriptors whose effect is short.
-/
namespace Sys2Proof.Machine
namespace State.Inv

theorem keeps_refused {r : Refusal} : Keeps (.refused r) := fun _ ht => nomatch ht

section
variable {s t : State} (h : s.Inv)
include h

/-! ### Rings -/

theorem setReg {f : FnId} {r : RegId} {v : BitVec 128} : (s.setReg f r v).Inv := h.of_eq (by rfl)

theorem logField {f : FnId} {offset lsb w a : Nat} {ignored : Bool} : (s.logField f offset lsb w a ignored).Inv := logTo (h.of_eq (by rfl))

theorem ringError {f : FnId} {cq : Bool} {r : Nat} : (s.ringError f cq r).Inv := interrupt (h.of_eq (by rfl))

theorem enableRing {f : FnId} {cq : Bool} {r : RingId} : (s.enableRing f cq r).Inv := by
  unfold State.enableRing
  extract_lets u s1
  have h1 : s1.Inv := h.setReg
  clear_value s1
  exact ite (ite (h1.of_eq (by rfl)) h1) (ite (ite (h.of_eq (by rfl)) h.setReg.logField) h.setReg)

theorem disableRing {f : FnId} {cq : Bool} {r : RingId} : (s.disableRing f cq r).Inv := by
  unfold State.disableRing
  extract_lets drain s1
  have h1 : s1.Inv := ite h.setReg h.setReg
  clear_value s1
  exact h1.of_eq (by rfl)

theorem ringEnable {f : FnId} {cq : Bool} {r : RingId} : Keeps (execRingEnable f cq r s) := next (ite h.enableRing h)

theorem ringDisable {f : FnId} {cq : Bool} {r : RingId} : Keeps (execRingDisable f cq r s) := next (ite h.disableRing h)

theorem pollRing {f : FnId} {r : RingId} {tail head : W64} : (s.pollRing f r tail head).Inv := by
  unfold State.pollRing
  extract_lets u t head' s1
  have h1 : s1.Inv := ite (ite h.ringError (h.of_eq (by rfl))) h
  clear_value s1
  exact ite (ite h1.ringError (h1.of_eq (by rfl))) h1

theorem doorbellPoll {f : FnId} {tails heads : List W64} {a q : W64} : Keeps (execDoorbellPoll f tails heads a q s) := by
  unfold execDoorbellPoll
  extract_lets s1 old s2 s3 u
  have h1 : s1.Inv := h.of_eq (by rfl)
  have h2 : s2.Inv := h1.foldl fun _ _ hu => hu.pollRing
  clear_value s2
  have h3 : s3.Inv := h2.of_eq (by rfl)
  clear_value s3
  exact keeps_ite keeps_refused (keeps_ite h.next (next (ite (h3.of_eq (by rfl)) h3)))

/-! ### Descriptors -/

theorem setFn {f : Nat} {u : Func} : (s.setFn f u).Inv := h.of_eq (by rfl)

theorem executing {f : FnId} {r : RingId} {i : BitVec 12} : (s.executing f r i).Inv := h.of_eq (by rfl)

theorem descriptorFetch {f : FnId} {r : RingId} {d : BitVec 512} : Keeps (execDescriptorFetch f r d s) := by
  unfold execDescriptorFetch
  extract_lets u q i id known refused wrap x u1 s1
  have h1 : s1.Inv := h.setFn
  exact keeps_ite h.next (keeps_ite h1.finish.next (keeps_ite h1.finish.next (keeps_ite h1.settleHost.next h1.next)))

theorem nopDescriptor {f : FnId} {r : RingId} {i : BitVec 12} : Keeps (execNopDescriptor f r i s) := by
  unfold execNopDescriptor
  split
  · exact h.next
  · exact h.finish.next

theorem fence {f : FnId} {r : RingId} {i : BitVec 12} : Keeps (execFence f r i s) := by
  unfold execFence
  split
  · exact h.next
  · exact h.executing.settleHost.next

theorem passSubmit {f : FnId} {r : RingId} {i : BitVec 12} {bufs : List W64} : Keeps (execPassSubmit f r i bufs s) := by
  unfold execPassSubmit
  split
  · exact h.next
  · refine keeps_ite keeps_refused ?_
    split
    · exact h.finish.next
    · extract_lets own s1 s2
      have h1 : s1.Inv := by
        dsimp only [s1]
        split
        · exact h.of_eq (by rfl)
        · exact h
      clear_value s1
      have h2 : s2.Inv := h1.of_eq (by rfl)
      exact keeps_ite h.finish.next (keeps_ite h.finish.next (next (h2.of_eq (by rfl))))

theorem copy {f : FnId} {r : RingId} {i : BitVec 12} {data : List Byte} : Keeps (execCopy f r i data s) := by
  unfold execCopy
  split
  · exact h.next
  · extract_lets a n inward sp abs s1 s2
    have h1 : s1.Inv := h.settleAll
    have h2 : s2.Inv := by
      dsimp only [s2]
      split
      · exact h1.raiseCore
      · exact h1.raiseCore
      · exact h1
    split
    refine keeps_ite keeps_refused (keeps_ite h.finish.next (keeps_ite h.finish.next (keeps_ite h.next (keeps_ite ?_ ?_))))
    · exact next (finish h1.writeNow.clearEcc)
    · exact next (finish (h2.of_eq (by rfl)))

/-! ### SKEIN_CTL -/

theorem skeinCtlForm {f : FnId} {r : RingId} {i : BitVec 12} {plan : List (BitVec 12)} : Keeps (execSkeinCtlForm f r i plan s) := by
  unfold execSkeinCtlForm
  split
  · exact h.next
  · refine keeps_ite keeps_refused (keeps_ite h.finish.next ?_)
    split
    · exact h.finish.next
    · extract_lets k src reset s1 s2
      have h1 : s1.Inv := (h.executing (f := f) (r := r) (i := i)).of_eq (by rfl)
      have h2 : s2.Inv := h1.setSkein
      exact keeps_ite h.finish.next (keeps_ite (next (finish (h.of_eq (by rfl)))) (keeps_ite h.finish.next (next (ite h2 h2.buildRecord))))

theorem skeinCtlDissolve {f : FnId} {r : RingId} {i : BitVec 12} : Keeps (execSkeinCtlDissolve f r i s) := by
  unfold execSkeinCtlDissolve
  split
  · exact h.next
  · exact next (finish (ite h.sendTo.dissolveSelf h))

theorem skeinCtlPreempt {f : FnId} {r : RingId} {i : BitVec 12} : Keeps (execSkeinCtlPreempt f r i s) := by
  unfold execSkeinCtlPreempt
  split
  · exact h.next
  · exact next (settlePreempt (executing (h.of_eq (by rfl))))

theorem skeinCtlResume {f : FnId} {r : RingId} {i : BitVec 12} : Keeps (execSkeinCtlResume f r i s) := by
  unfold execSkeinCtlResume
  split
  · exact h.next
  · exact next (finish (h.of_eq (by rfl)))

/-! ### Interrupts -/

theorem irqDelayExpiry {f : FnId} {v : Fin 128} : Keeps (execIrqDelayExpiry f v s) :=
  keeps_ite h.next (next (interrupt (h.foldl fun _ _ hu => hu.of_eq (by rfl))))

theorem interruptAllowanceRenewal {f : FnId} : Keeps (execInterruptAllowanceRenewal f s) :=
  keeps_ite h.next (next (foldl (h.of_eq (by rfl)) fun _ _ hu => hu.interrupt))

end
end State.Inv
end Sys2Proof.Machine
end


section
/-!
PROOFS. The invariant through the pass lifecycle (R215, R218 to R221, R330, R333, R346) and the final gate (R19, R381 to R384).
-/
namespace Sys2Proof.Machine
namespace State.Inv

section
variable {s t : State} (h : s.Inv)
include h

/-! ### Admission -/

theorem preemptDeadline {f : FnId} : Keeps (execPreemptDeadline f s) := by
  unfold execPreemptDeadline
  split
  · exact next (ite h.abandon h)
  · exact h.next

theorem passAdmit {p : PartId} : Keeps (execPassAdmit p s) := by
  unfold execPassAdmit
  split
  · exact h.next
  · split
    · refine keeps_ite h.completePass.next ?_
      split
      · exact h.completePass.next
      · exact h.updPass.setPassState.next
    · exact h.completePass.next
    · exact h.next

/-! ### Inputs, memory images and agreement -/

theorem bring {c space abs : Nat} {data : List Byte} : (s.bring c space abs data).Inv := h.settleAll.writeNow.clearEcc

theorem bringInput {k : Nat} {f : FnId} {l : Loaded} {e : InputEntry} {data : List Byte} : (s.bringInput k f l e data).Inv := by
  unfold State.bringInput
  -- where an address lies plays no part: stated of any function, or the kernel computes with the addresses of the map
  generalize State.resolve = resolve
  revert resolve
  refine id fun resolve => ?_
  split
  · exact h
  · split
    · exact h.bring
    · exact h.raise

omit h in
theorem bringImages {f : FnId} {l : Loaded} {es : List ImageEntry} {s : State} (h : s.Inv) : (s.bringImages f l es).1.Inv := by
  induction es generalizing s with
  | nil => exact h
  | cons e es ih =>
    unfold State.bringImages
    split
    split
    · exact h
    · split
      · exact h
      · exact ih h.bring

theorem memoryImageLoad {f : FnId} {inputs : List (List Byte)} {images : List ImageEntry} :
    Keeps (execMemoryImageLoad f inputs images s) := by
  unfold execMemoryImageLoad
  split
  · extract_lets s1
    have h1 : s1.Inv := h.foldl fun _ _ hu => hu.bringInput
    refine keeps_ite keeps_refused (keeps_ite h.next ?_)
    split
    next u good heq =>
    have hu : u.Inv := by
      have hbrought := h1.bringImages (f := f) (l := ‹Loaded›) (es := images)
      rw [heq] at hbrought
      exact hbrought
    exact next (ite hu.updPass hu.raise)
  · exact h.next

theorem passAgree {f : FnId} : Keeps (execPassAgree f s) := by
  unfold execPassAgree
  split
  · extract_lets multi first n s1
    have h1 : s1.Inv := ite h.updPass.setPassState h
    exact keeps_ite h.next h1.makeOffer.next
  · exact h.next

/-! ### The final gate -/

theorem sendOutput {k : Nat} {p : Pass} {l : Loaded} {mine : List (Nat × List Byte)} {e : Nat × OutputEntry} :
    (s.sendOutput k p l mine e).1.Inv := by
  unfold State.sendOutput
  -- where an address lies plays no part: stated of any function, or the kernel computes with the addresses of the map
  generalize State.resolve = resolve
  revert resolve
  refine id fun resolve => ?_
  split
  · exact h
  · extract_lets a
    split
    · exact h.raise.fst
    · extract_lets data s1
      have h1 : s1.Inv := by
        dsimp only [s1]
        split
        · exact h.raise
        · exact h.raise
        · exact h
      clear_value s1
      exact fst (h1.of_eq (by rfl))

/-- The output ranges that are sent one after the other, with the list of what was sent. -/
theorem sendOutputs {k : Nat} {p : Pass} {l : Loaded} {es : List (Nat × OutputEntry)} {mine : List (Nat × List Byte)} :
    (es.foldl (fun (a : State × List (Nat × List Byte)) e => a.1.sendOutput k p l a.2 e) (s, mine)).1.Inv := by
  induction es generalizing s mine with
  | nil => exact h
  | cons e es ih => exact ih h.sendOutput

theorem setPass {k : Nat} {p : Pass} : (s.setPass k p).Inv := h.of_eq (by rfl)

theorem finalGate {f : FnId} : Keeps (execFinalGate f s) := by
  unfold execFinalGate
  split
  next k p l _ _ =>
    refine keeps_ite h.next ?_
    have hs := h.sendOutputs (k := k) (p := p) (l := l) (es := outputSpans 0 l.exe.outputs) (mine := [])
    revert hs
    generalize (outputSpans 0 l.exe.outputs).foldl _ (s, []) = o
    intro hs
    obtain ⟨s1, mine⟩ := o
    have h1 : s1.Inv := hs
    dsimp -zeta only
    extract_lets src s2
    have h2 : s2.Inv := by
      dsimp only [s2]
      split
      · exact raise (h1.of_eq (by rfl))
      · exact h1
    clear_value s2
    split
    · exact h2.next
    · extract_lets msg s3 s4 s5
      have h3 : s3.Inv := h2.setPass.joinTry
      have h4 : s4.Inv := h3.gateOwn
      have h5 : s5.Inv := h4.gateOwn
      exact keeps_ite (next (ite h2 (ite h2.sendTo h2.sendTo))) (next (ite h3 h5.gateOwn))
  · exact h.next

theorem gateResult {f : FnId} : Keeps (execGateResult f s) := by
  unfold execGateResult
  split
  · refine keeps_ite h.next ?_
    split
    · exact h.next
    · exact h.abandon.next
    · exact next (completePass (h.of_eq (by rfl)))
  · exact h.next

theorem outputWriteError {f : FnId} : Keeps (execOutputWriteError f s) := by
  unfold execOutputWriteError
  split
  · exact h.next
  · exact keeps_ite h.ringError.next (keeps_ite h.raise.next h.next)

/-! ### The end of an attempt -/

theorem dropOffers {p : Pass} : (s.dropOffers p).Inv := ite (h.of_eq (by rfl)) h

theorem quiesceComplete {f : FnId} : Keeps (execQuiesceComplete f s) := by
  unfold execQuiesceComplete
  split
  · exact h.next
  · exact keeps_ite h.next (keeps_ite (next (settlePreempt (updPass (setPassState h.dropOffers)))) (next (completePass h.dropOffers)))

theorem passWatchdog {f : FnId} : Keeps (execPassWatchdog f s) := by
  unfold execPassWatchdog
  split
  · exact keeps_ite h.next (keeps_ite h.setPass.next h.abandon.next)
  · exact h.next

end
end State.Inv
end Sys2Proof.Machine
end


section
/-!
PROOFS. The invariant through PROGRAM_LOAD (R213, R326), the fault collector (R369 to R376), fencing (R242) and scrub reads (R377,
R378).
-/
namespace Sys2Proof.Machine
namespace State.Inv

section
variable {s t : State} (h : s.Inv)
include h

/-! ### Loads -/

theorem uncommit {f : FnId} {bad : Gen → ShardEntry → Bool} {scrub : Bool} : (s.uncommit f bad scrub).Inv :=
  foldl (h.of_eq (by rfl)) fun _ _ hu => ite hu.traceGen.discarded hu.traceGen

theorem logClamp {f : FnId} {lsb w a : Nat} : (s.logClamp f lsb w a).Inv := by
  unfold State.logClamp
  exact ite h (h.draw (n := 0x138)).logField

theorem writeStreams {l : Loaded} : (s.writeStreams l).Inv := h.foldl fun _ _ hu => hu.writeNow.clearEcc

theorem install {f : FnId} {l : Loaded} : (s.install f l).Inv := by
  unfold State.install
  extract_lets s1 s2 s3 header
  have h1 : s1.Inv := h.uncommit
  have h2 : s2.Inv := ite h1.startScrub.startScrub h1
  clear_value s2
  have h3 : s3.Inv := writeStreams (h2.of_eq (by rfl))
  exact h3.logClamp.logClamp.logClamp

theorem programLoad {f : FnId} {r : RingId} {i : BitVec 12} {x : Exe} {img : Option LoadImage} :
    Keeps (execProgramLoad f r i x img s) := by
  unfold execProgramLoad
  split
  · exact h.next
  · refine keeps_ite keeps_refused ?_
    extract_lets info
    split
    · exact h.complete.next
    · exact h.install.complete.next

/-! ### Fencing -/

theorem dropQueued {c : Nat} : (s.dropQueued c).Inv := by
  refine (h.updCore (by exact fun _ => id)).foldl fun u a hu => ?_
  split
  · exact sendReply (ite hu.unrecord hu)
  · exact hu

theorem leaveService {c : Nat} {svc : CoreSvc} {cause : Byte} : (s.leaveService c svc cause).Inv := h.updCore (by exact fun _ => id)

theorem dropParts : s.dropParts.Inv := h.foldl fun _ _ hu => ite hu.setReg hu

theorem dieOut {d : DieId} : (s.dieOut d).Inv := by
  unfold State.dieOut
  extract_lets s1
  have h1 : s1.Inv := h.foldl fun _ _ hu => ite hu hu.dropQueued.leaveService
  clear_value s1
  exact dropParts (h1.of_eq (by rfl))

theorem fenceCore {c : Nat} {cause : Byte} : (s.fenceCore c cause).Inv := by
  unfold State.fenceCore
  extract_lets users st s1 s2
  have h1 : s1.Inv := h.foldl fun _ _ hu => hu.abandon
  have h2 : s2.Inv := h1.dropQueued.leaveService
  exact ite h (ite h2.breakSkein h2)

/-! ### The collector -/

theorem countFault {r : FaultRecord} : (s.countFault r).1.Inv := by
  unfold State.countFault
  split
  · exact h
  · exact fst (h.of_eq (by rfl))

theorem faultVector {f : FnId} : (s.faultVector f).Inv := ite h.interrupt h

theorem collect {r : FaultRecord} : (s.collect r).Inv := by
  unfold State.collect
  extract_lets r1 src s1 code s2
  have h1 : s1.Inv := h.check
  have h2 : s2.Inv := h1.logBoth.faultVector
  clear_value s2
  split
  · exact ite h2 h2.faultVector
  · exact h2

theorem faultRecordDelivery {d : Fin 16} : Keeps (execFaultRecordDelivery d s) := by
  unfold execFaultRecordDelivery
  split
  · exact h.next
  next r rest _ =>
    refine keeps_ite h.next ?_
    extract_lets src s1
    have h1 : s1.Inv := h.check
    clear_value s1
    have hc : (if r.cls == .contained then s1.countFault r else (s1, false)).1.Inv := by
      split
      · exact h1.countFault
      · exact h1
    revert hc
    generalize (if r.cls == .contained then s1.countFault r else (s1, false)) = o
    intro hc
    obtain ⟨u, beyond⟩ := o
    have hu : u.Inv := hc
    exact keeps_ite hu.collect.fenceCore.next hu.collect.next

theorem dieHeartbeat {d : Fin 16} : Keeps (execDieHeartbeat d s) := next (ite h.check h)

theorem heartbeatTimeout {d : Fin 16} : Keeps (execHeartbeatTimeout d s) := next (ite h.raise h)

theorem fatalFault {cause : Cause} {d : Byte} {core : BitVec 16} : Keeps (execFatalFault cause d core s) :=
  keeps_ite h.next (next (ite h.raiseFatal.dieOut h.raiseFatal))

/-! ### Scrub -/

theorem cleanWord {a : Nat} : (s.cleanWord a).Inv := h.of_eq (by rfl)

theorem scrubErr {c word : Nat} {o : Option (FnId × Gen × ShardEntry)} : (s.scrubErr c word o).Inv := by
  unfold State.scrubErr
  extract_lets put
  have hput : ∀ u g i f, u.Inv → (put u g i f).Inv := fun _ _ _ _ hu => hu.check
  clear_value put
  split
  · exact hput _ _ _ _ h
  · exact hput _ _ _ _ (h.draw (n := 0x377))

theorem weightScrubRead {c : CoreId} {word : Fin 1572864} : Keeps (execWeightScrubRead c word s) := by
  unfold execWeightScrubRead
  extract_lets off a s1
  have h1 : s1.Inv := h.countNow
  refine keeps_ite h.next ?_
  split
  · exact h1.next
  · exact h1.cleanWord.raise.next
  · exact next (foldl h1.scrubErr.raise fun _ _ hu => hu.uncommit)

theorem memoryScrubRead {c : CoreId} {mem : ScrubMem} {word : Nat} : Keeps (execMemoryScrubRead c mem word s) := by
  unfold execMemoryScrubRead
  extract_lets sp a s1
  have h1 : s1.Inv := h.countNow
  refine keeps_ite keeps_refused (keeps_ite h.next ?_)
  split
  · exact h1.next
  · exact h1.cleanWord.raise.next
  · exact h1.raise.next

end
end State.Inv
end Sys2Proof.Machine
end


section
/-!
PROOFS. The invariant through weight ingest: generations, distribution, shard records and notices (R322 to R334), and the zeroing of
regions (R404).
-/
namespace Sys2Proof.Machine
namespace State.Inv

section
variable {s t : State} (h : s.Inv)
include h

/-! ### Generations -/

theorem setGen {f : FnId} {g : W32} {st : GenState} : (s.setGen f g st).Inv := by
  unfold State.setGen
  split
  · exact traceGen (h.of_eq (by rfl))
  · exact h

theorem settleGen {f : FnId} {g : W32} : (s.settleGen f g).Inv := by
  unfold State.settleGen
  split
  · extract_lets s1 s2
    have h1 : s1.Inv := of_eq (s := s.setGen f g .active) h.setGen (by rfl)
    have h2 : s2.Inv := h1.retireOld
    refine ite ?_ h
    split
    · exact h2.finish
    · exact h2
  · exact h

theorem genCommitStaged {f : FnId} {r : RingId} {i : BitVec 12} : Keeps (execGenCommitStaged f r i s) := by
  unfold execGenCommitStaged
  split
  · exact h.next
  · extract_lets u copy busy s1
    split
    · exact h.finish.next
    · have h1 : s1.Inv := of_eq (s := s.executing f r i) h.executing (by rfl)
      exact keeps_ite h.finish.next (keeps_ite h.finish.next h1.setGen.settleGen.next)

theorem genCommitRolling {f : FnId} {r : RingId} {i : BitVec 12} : Keeps (execGenCommitRolling f r i s) := by
  unfold execGenCommitRolling
  split
  · exact h.next
  · extract_lets u s1
    split
    · exact h.finish.next
    · have h1 : s1.Inv := of_eq (s := s.executing f r i) h.executing (by rfl)
      exact keeps_ite h.finish.next (keeps_ite h.finish.next h1.setGen.retireOld.settleGen.next)

theorem genCommitAbort {f : FnId} {r : RingId} {i : BitVec 12} : Keeps (execGenCommitAbort f r i s) := by
  unfold execGenCommitAbort
  split
  · exact h.next
  · split
    · exact h.finish.next
    · split
      · exact keeps_ite h.finish.next h.setGen.discarded.finish.next
      · exact h.setGen.discarded.finish.next
      · exact h.setGen.finish.next
      · exact h.finish.next

/-! ### Failures, notices and requests -/

theorem ingestFail {index reason : Nat} {parent : BitVec 12} : (s.ingestFail index reason parent).Inv := h.of_eq (by rfl)

theorem notify {m : BitVec 12} {ty slot : Nat} {gen : W32} {index : Nat} : (s.notify m ty slot gen index).Inv := h.of_eq (by rfl)

theorem setSlot {k : Nat} {x : Option Slot} : (s.setSlot k x).Inv := h.of_eq (by rfl)

omit h in
theorem askParent {n : Nat} {s : State} {f : FnId} {gen : W32} (h : s.Inv) : (askParent n s f gen).Inv := by
  induction n generalizing s with
  | zero => exact h
  | succ n ih =>
    unfold Machine.askParent
    split
    · split
      · split
        · exact h
        · split
          · exact h
          · exact ih (notify (h.of_eq (by rfl)))
      · exact h
    · exact h

theorem pump : s.pump.Inv := h.foldl fun _ _ hu => hu.foldl fun _ _ hv => hv.askParent

theorem unask {f : FnId} {gen : W32} {index : Nat} : (s.unask f gen index).Inv := h.of_eq (by rfl)

theorem requestFailed {f : FnId} {gen : W32} {index : Nat} {parent : BitVec 12} : (s.requestFailed f gen index parent).1.Inv := by
  unfold State.requestFailed
  extract_lets n s1 s2
  have h1 : s1.Inv := h.of_eq (by rfl)
  have h2 : s2.Inv := h1.unask.ingestFail
  split
  · exact h1
  · exact h2.logBoth.interrupt.fst

theorem releaseSlot {k : Nat} : (s.releaseSlot k).Inv := by
  unfold State.releaseSlot
  split
  · refine ite ?_ h
    extract_lets s1
    have h1 : s1.Inv := h.setSlot
    refine pump ?_
    split
    · exact h1.finish
    · exact h1
  · exact h

theorem shardFails {k : Nat} {x : Slot} {reason : Nat} {st : Status} {free : Bool} : (s.shardFails k x reason st free).Inv := by
  unfold State.shardFails
  extract_lets s1 s2
  have h1 : s1.Inv := h.ingestFail
  have h2 : s2.Inv := by
    dsimp only [s2]
    split
    · exact h1.finish
    · exact h1
  exact ite h2.setSlot.pump h2.setSlot.releaseSlot

/-! ### Records -/

theorem weightShard {f : FnId} {r : RingId} {i : BitVec 12} {rec : Option ShardRec} : Keeps (execWeightShard f r i rec s) := by
  unfold execWeightShard
  split
  · exact h.next
  · split
    · refine keeps_ite keeps_refused ?_
      split
      · exact h.next
      · exact h.executing.writeNow.setSlot.next
    · exact keeps_ite keeps_refused (keeps_ite h.finish.next (keeps_ite h.next h.executing.setSlot.next))

theorem serve {v : ShardRec} {child : BitVec 12} {slot : Nat} : (s.serve v child slot).Inv := h.of_eq (by rfl)

theorem offerShard {k : Nat} {x : Slot} {vm : Nat} {phase : SlotPhase} : (s.offerShard k x vm phase).Inv := by
  unfold State.offerShard
  extract_lets v
  split
  · exact h.setSlot
  · extract_lets kids slotOf waits s1 s2
    have h1 : s1.Inv := h.setSlot
    clear_value s1
    have h2 : s2.Inv := h1.of_eq (by rfl)
    refine h2.foldl fun u w hu => ?_
    split
    · exact hu.serve
    · exact hu

theorem shardRecordProcess {d : IoDie} {slot : Fin 15} : Keeps (execShardRecordProcess d slot s) := by
  unfold execShardRecordProcess
  extract_lets k
  split
  · exact h.next
  next x _ =>
    extract_lets v beyond already s1 s2
    have hb : ∀ u, u.Inv → (beyond u).Inv := by
      intro u hu
      dsimp only [beyond]
      split
      · exact hu.unask
      · exact hu
    have h1 : s1.Inv := by
      dsimp only [s1]
      split
      · exact (hb _ h).notify
      · exact h
    have h2 : s2.Inv := h1
    clear_value s1 s2 beyond
    refine keeps_ite h.next ?_
    split
    · exact (hb _ h).shardFails.next
    · exact (hb _ h).shardFails.next
    · refine keeps_ite h.setSlot.next (keeps_ite h1.setSlot.releaseSlot.next (keeps_ite ?_ ?_))
      · split
        · exact h.shardFails.next
        · exact next (pump (requestFailed h.ingestFail.setSlot.notify))
      · exact h2.offerShard.releaseSlot.pump.next

theorem shardWrite {d : IoDie} {slot : Fin 15} : Keeps (execShardWrite d slot s) := by
  unfold execShardWrite
  extract_lets k
  split
  · exact h.next
  · extract_lets u
    split
    · split
      · exact h.next
      · refine keeps_ite h.next ?_
        split
        · exact h.shardFails.next
        · refine keeps_ite h.next ?_
          split
          · exact h.shardFails.next
          · extract_lets a s1 s2 s3
            have h1 : s1.Inv := h.writeNow.clearEcc
            clear_value s1
            have h3 : s3.Inv := h1.of_eq (by rfl)
            exact h3.setSlot.next
    · exact h.next

theorem shardCommit {d : IoDie} {slot : Fin 15} : Keeps (execShardCommit d slot s) := by
  unfold execShardCommit
  extract_lets k
  split
  · exact h.next
  next x _ =>
    extract_lets u
    split
    next plain g l _ _ _ =>
      split
      · extract_lets g' s1 s2 s3
        have h1 : s1.Inv := h.of_eq (by rfl)
        clear_value s1
        have h2 : s2.Inv := by
          dsimp only [s2]
          split
          next st _ => exact ite (of_eq (s := s1.setGen x.fn g.gen st) h1.setGen (by rfl)) h1
          · exact h1
        have h3 : s3.Inv := h2.settleGen
        exact keeps_ite h.next (keeps_ite h.shardFails.next (keeps_ite h.shardFails.next h3.setSlot.releaseSlot.next))
      · exact h.shardFails.next
    · exact h.shardFails.next
    · exact h.next

/-! ### Notices -/

theorem noticeIn {d : IoDie} {n : BitVec 128} : (s.noticeIn d n).Inv :=
  of_eq (s := s.writeNow (absAddr 5 d.val (0x3F00000 + 16 * (AMap.get 0 s.notices d.val % 65536))) (leBytes 16 n.toNat)) h.writeNow (by rfl)

theorem childFailed {f : FnId} {m : BitVec 12} {gen : W32} {index : Nat} : (s.childFailed f m gen index).1.Inv := h.of_eq (by rfl)

theorem childDone {k : Nat} {x : Slot} {m : BitVec 12} : (s.childDone k x m).Inv := h.setSlot.releaseSlot

theorem serveChild {k : Nat} {x : Slot} {m : BitVec 12} {slot : Nat} : (s.serveChild k x m slot).Inv := h.setSlot.serve

theorem ingestRequest {d : IoDie} {notice : BitVec 128} : Keeps (execIngestRequest d notice s) := by
  unfold execIngestRequest
  extract_lets m gen i s1
  have h1 : s1.Inv := h.noticeIn
  clear_value s1
  refine keeps_ite h.next ?_
  split
  · exact h1.next
  · split
    · refine keeps_ite ?_ h1.serveChild.next
      exact next (ite h1.childFailed.serveChild h1.childFailed.childDone)
    · extract_lets again
      split
      next u go heq =>
      have hu : u.Inv := by
        split at heq
        · cases heq
          exact h1.childFailed
        · cases heq
          exact h1
      exact next (hu.of_eq (by rfl))

theorem ingestReady {d : IoDie} {notice : BitVec 128} : Keeps (execIngestReady d notice s) := by
  unfold execIngestReady
  extract_lets i n s1
  have h1 : s1.Inv := h.noticeIn
  clear_value s1
  refine keeps_ite h.next ?_
  split
  · exact h1.next
  · exact next (ite h1 h1.setSlot)

theorem ingestAck {d : IoDie} {notice : BitVec 128} : Keeps (execIngestAck d notice s) := by
  unfold execIngestAck
  extract_lets m s1
  have h1 : s1.Inv := h.noticeIn
  clear_value s1
  refine keeps_ite h.next ?_
  split
  · exact h1.next
  · split
    · exact h1.childDone.next
    · exact h1.next

theorem ingestNack {d : IoDie} {notice : BitVec 128} : Keeps (execIngestNack d notice s) := by
  unfold execIngestNack
  extract_lets m s1
  have h1 : s1.Inv := h.noticeIn
  clear_value s1
  refine keeps_ite h.next ?_
  split
  · exact h1.next
  · split
    next f _ _ _ _ _ =>
      have hc := h1.childFailed (f := f) (m := m) (gen := noticeGen notice) (index := noticeShard notice)
      revert hc
      generalize s1.childFailed f m (noticeGen notice) (noticeShard notice) = o
      intro hc
      obtain ⟨u, go⟩ := o
      have hu : u.Inv := hc
      dsimp -zeta only
      split
      · exact next (ite hu.serveChild hu.childDone)
      · exact hu.next
    · exact h1.next

theorem requestTimeout {f : FnId} {gen : W32} {index : Nat} : Keeps (execRequestTimeout f gen index s) := by
  unfold execRequestTimeout
  split
  · exact h.next
  · split
    · refine keeps_ite h.next ?_
      exact next (ite h.requestFailed.notify h.requestFailed.pump)
    · exact h.next

/-! ### Zeroing -/

omit h in
/-- Zeroing places one after the other keeps memory canonical. -/
theorem zeroed {α : Type} {l : List α} {m : List Host.Cell} {a n : α → Nat} (hm : Memory.wf m = true) :
    Memory.wf (l.foldl (fun m c => memZero m (a c) (n c)) m) = true := by
  induction l generalizing m with
  | nil => exact hm
  | cons c l ih => exact ih (memZero_wf _ _ hm)

theorem zeroRegion {x : Scrub} : (s.zeroRegion x).Inv := by
  unfold State.zeroRegion
  extract_lets cores
  clear_value cores
  exact ⟨zeroed h.mem, h.cores⟩

theorem teaselZeroingComplete {f : FnId} {weight : Bool} : Keeps (execTeaselZeroingComplete f weight s) := by
  unfold execTeaselZeroingComplete
  extract_lets done busy
  have hz : ((s.teasel.filter done).foldl (fun s x => s.zeroRegion x) s).Inv := h.foldl fun _ _ hu => hu.zeroRegion
  exact next (ite h (hz.of_eq (by rfl)))

end
end State.Inv
end Sys2Proof.Machine
end


section
/-!
PROOFS. The invariant through power, thermal limits, start-up, resets and tamper (R361, R394 to R429): what a reset leaves is empty,
and what it retains of memory stays in order.
-/
namespace Sys2Proof.Machine

theorem Core.ordered_outWith {svc : CoreSvc} {cause : Byte} : (Core.outWith svc cause).Ordered :=
  ⟨rfl, fun _ hv => absurd hv List.not_mem_nil⟩

namespace State.Inv

/-! ### What a reset leaves -/

theorem wiped {s : State} {ph : Phase} : (s.wiped ph).Inv := ⟨rfl, fun _ hc => absurd hc List.not_mem_nil⟩

section
variable {s t : State} (h : s.Inv)
include h

theorem power {p : Power} : ({ s with power := p } : State).Inv := h.of_eq (by rfl)

theorem security {k : Sec} : ({ s with sec := k } : State).Inv := h.of_eq (by rfl)

theorem functions {n : Nat} : ({ s with numVfs := n } : State).Inv := h.of_eq (by rfl)

theorem findings {st : SelfTest} : (s.findings st).Inv := by
  unfold State.findings
  extract_lets twice out svc hit s1
  have h1 : s1.Inv := foldl (h.of_eq (by rfl)) fun u c hu => hu.setCore Core.ordered_outWith
  exact h1.dropParts

theorem fatalFindings {st : SelfTest} : (s.fatalFindings st).Inv := by
  unfold State.fatalFindings
  extract_lets s1 bad s2
  have h1 : s1.Inv := ite h.raise h
  clear_value s1
  have h2 : s2.Inv := ite (h1.draw (n := 0x18)).raiseFatal h1
  clear_value s2
  exact ite (h2.draw (n := 0x245)).raiseFatal h2

omit h in
theorem startUp {s : State} {cause : ResetCause} {st : SelfTest} : (s.startUp cause st).Inv := by
  unfold State.startUp
  extract_lets s1 k src src2 src3 s2
  have h1 : s1.Inv := wiped
  clear_value s1
  have h2 : s2.Inv := h1.of_eq (by rfl)
  exact h2.findings.fatalFindings

/-! ### Input, PERST#, JTAG and tamper -/

theorem startCool {cause : ResetCause} {st : SelfTest} : (s.startCool cause st).Inv := ite startUp h.power

theorem inputGood {st : SelfTest} : Keeps (execInputGood st s) := keeps_ite h.next (next (ite h.power.startCool startUp))

theorem inputLost : Keeps (execInputLost s) := keeps_ite h.next (next (of_eq (wiped (s := s) (ph := .unpowered)) (by rfl)))

theorem perstAssert : Keeps (execPerstAssert s) := by
  unfold execPerstAssert
  extract_lets src s1 hold
  have h1 : s1.Inv := h.power
  have hhold : ∀ u c, u.Inv → (hold u c).Inv := fun _ _ hu => hu.power
  clear_value hold s1
  split
  · exact (hhold _ _ wiped).next
  · exact (hhold _ _ wiped).next
  · exact (hhold _ _ wiped).next
  · exact h1.next

theorem perstDeassert {st : SelfTest} : Keeps (execPerstDeassert st s) := by
  unfold execPerstDeassert
  extract_lets src s1
  have h1 : s1.Inv := h.power
  exact keeps_ite h1.next (keeps_ite h1.startCool.next (keeps_ite (next startUp) h1.power.next))

theorem jtagReset : s.jtagReset.Inv := by
  unfold State.jtagReset
  split
  · exact wiped
  · exact wiped
  · exact wiped
  · exact h

theorem tapReset {idcode : Bool} {st : SelfTest} : Keeps (execTapReset idcode st s) := by
  unfold execTapReset
  extract_lets src s1
  have h1 : s1.Inv := h.of_eq (by rfl)
  exact keeps_ite h1.next (keeps_ite h1.power.next (keeps_ite h1.startCool.next (next startUp)))

omit h in
theorem tamper {s : State} {sensor : TamperSensor} {place : Byte} : (s.tamper sensor place).Inv := by
  unfold State.tamper
  extract_lets t s1
  have h1 : s1.Inv := wiped.sensed
  exact h1.of_eq (by rfl)

theorem tamperEvent {sensor : TamperSensor} {place : Byte} : Keeps (execTamperEvent sensor place s) := keeps_ite h.next tamper.next

theorem tamperConditionEnd {st : SelfTest} : Keeps (execTamperConditionEnd st s) :=
  keeps_ite h.next (keeps_ite h.startCool.next (next startUp))

/-! ### Emergencies -/

theorem stretchRest : s.stretchRest.Inv := by
  refine h.foldl fun u r hu => ?_
  extract_lets u1
  have h1 : u1.Inv := hu.of_eq (by rfl)
  exact ite h1 (h1.foldl fun _ _ hv => hv.countAt)

theorem emergency {source : Nat} : (s.emergency source).Inv := by
  unfold State.emergency
  extract_lets t again sensed src s1 s2 src2 s3
  have h1 : s1.Inv := h.sensed.power
  have h2 : s2.Inv := h1.traceAll
  clear_value s2
  have h3 : s3.Inv := ite h2.power.stretchRest h2
  exact h3.raise

theorem localStep : Keeps (execLocalStep s) := by
  unfold execLocalStep
  extract_lets left s1 s2 src s3 s4
  have h1 : s1.Inv := h.stepTo
  have h2 : s2.Inv := h1.setReg
  have h3 : s3.Inv := h2.power
  have h4 : s4.Inv := ite h3.detach h3
  exact keeps_ite h.next (next (ite h4.buildRecord h4))

theorem emergencyEnd : s.emergencyEnd.Inv := by
  unfold State.emergencyEnd
  extract_lets sensed src s1 s2 s3
  have h1 : s1.Inv := h.sensed.power
  have h2 : s2.Inv := h1.traceAll
  have h3 : s3.Inv := ite h2 h2.setReg
  exact ite (ite h2 h3.power) h

theorem senseInput {old : Power} : (s.senseInput old).Inv := by
  unfold State.senseInput
  extract_lets z p s1
  have h1 : s1.Inv := ite h.sensed h
  exact ite h1.sensed h1

theorem powerSample {mv tenMa : Nat} : Keeps (execPowerSample mv tenMa s) := by
  unfold execPowerSample
  extract_lets w cap src p s1 s2
  have h1 : s1.Inv := h.power
  have h2 : s2.Inv := h1.senseInput
  exact keeps_ite h.next (keeps_ite h2.next (keeps_ite h2.emergencyEnd.next (keeps_ite h2.emergency.next (keeps_ite h2.emergency.next h2.next))))

omit h in
theorem trip {s : State} : s.trip.Inv := by
  unfold State.trip
  extract_lets s1
  have h1 : s1.Inv := wiped.sensed
  exact h1.of_eq (by rfl)

theorem senseTemps {old new : List Int} : (s.senseTemps old new).Inv := by
  unfold State.senseTemps
  extract_lets top s1
  have h1 : s1.Inv := ite h.sensed h
  exact h1.foldl fun _ _ hu => ite hu.sensed hu

theorem readTemps {l : List (Int × Int)} : (s.readTemps l).Inv := by
  unfold State.readTemps
  extract_lets temps top src s1
  have h1 : s1.Inv := h.power.senseTemps
  refine h1.foldl fun u r hu => ?_
  extract_lets far n src u1
  have hu1 : u1.Inv := hu.power
  exact ite hu1.logTo hu1

theorem temperatureSample {l : List (Int × Int)} : Keeps (execTemperatureSample l s) := by
  unfold execTemperatureSample
  extract_lets s1
  have h1 : s1.Inv := h.readTemps
  refine keeps_ite keeps_refused (keeps_ite h.next ?_)
  split
  · exact h1.next
  · exact next (ite startUp h1)
  · exact keeps_ite trip.next (keeps_ite h1.next (keeps_ite h1.emergencyEnd.next (keeps_ite h1.next h1.emergency.next)))

theorem powerWishEvaluation : Keeps (execPowerWishEvaluation s) := keeps_ite h.next h.power.next

theorem railExcursion {rail : Fin 7} : Keeps (execRailExcursion rail s) := keeps_ite h.next (next (ite h.power.raise h.power))

/-! ### Resets of a function, a skein and the module -/

theorem skeinReset : s.skeinReset.Inv := by
  unfold State.skeinReset
  extract_lets k s1 s2
  have h1 : s1.Inv := h.foldl fun _ _ hu => ite (ite hu.completePass hu.abandon) hu
  have h2 : s2.Inv := ite h1.sendTo h1
  exact ite h (leaveSkein (ite h2.completeForm h2))

theorem scrubRetained {u : Func} : (s.scrubRetained u).Inv := by
  unfold State.scrubRetained
  split
  · exact ite (h.of_eq (by rfl)) h
  · exact h

theorem flr {f : FnId} : (s.flr f).Inv := by
  unfold State.flr
  extract_lets u s1 s2 s3 s4 s5 s6
  have h1 : s1.Inv := h.setFn
  have h2 : s2.Inv := ite h1.skeinReset h1
  have h3 : s3.Inv := h2.foldl fun _ _ hu => ite (ite hu.passes hu.abandon) hu
  clear_value s3
  have h4 : s4.Inv := h3.of_eq (by rfl)
  have h5 : s5.Inv := h4.of_eq (by rfl)
  have h6 : s6.Inv := h5.scrubRetained
  exact h6.startScrub.startScrub.startScrub

theorem flrEvent {f : FnId} : Keeps (execFlr f s) := by
  have hall : (allFns.foldl (fun s g => if g.val ≤ s.numVfs then s.flr g else s) s).Inv := h.foldl fun _ _ hu => ite hu.flr hu
  exact keeps_ite h.next (keeps_ite (next hall.functions) h.flr.next)

theorem vfEnable {n : Fin 16} : Keeps (execVfEnable n s) := by
  have hall : (allFns.foldl (fun s g => if n.val < g.val && decide (g.val ≤ s.numVfs) then s.flr g else s) s).Inv :=
    h.foldl fun _ _ hu => ite hu.flr hu
  exact keeps_ite h.next (next hall.functions)

theorem windUp : s.windUp.Inv := by
  unfold State.windUp
  extract_lets s1 s2
  have h1 : s1.Inv := h.foldl fun _ _ hu => hu.abandon
  have h2 : s2.Inv := h1.foldl fun _ _ hu => hu.completePass
  exact h2.foldl fun _ _ hu => hu.foldl fun _ _ hv => hv.finish

theorem warmResetStart {seed : BitVec 512} : Keeps (execWarmResetStart seed s) := by
  unfold execWarmResetStart
  split
  · extract_lets kept homes w cores fns
    have hcores : ∀ ck ∈ cores, ck.2.Ordered := by
      intro ck hck
      obtain ⟨kv, -, hkv⟩ := List.mem_filterMap.1 hck
      split at hkv
      · cases hkv
      · cases hkv
        exact Core.ordered_outWith
    exact next (dropParts ⟨AMap.wf_filter _ h.mem, hcores⟩)
  · exact h.next

/-! ### Signing trees and the entropy source -/

theorem treeGenerationComplete : Keeps (execTreeGenerationComplete s) := keeps_ite h.next h.security.next

theorem entropyHealthTest {passes : Bool} : Keeps (execEntropyHealthTest passes s) := next (ite h.security h)

end
end State.Inv
end Sys2Proof.Machine
end


section
/-!
PROOFS. The invariant through the Vedihar messages (R151, R320 to R322, R358, R359, R388 to R405, R423, R445).
-/
namespace Sys2Proof.Machine

/-- Every entry of a map after an update of each is the update of an entry. -/
theorem AMap.mem_each {α : Type} [DecidableEq α] {d : α} {f : α → α} {m : AMap α} {x : Nat × α} (hx : x ∈ AMap.each d f m) :
    ∃ y ∈ m, x.2 = f y.2 := by
  induction m with
  | nil => exact absurd hx List.not_mem_nil
  | cons y m ih =>
    unfold AMap.each at hx
    have hrest : x ∈ AMap.each d f m → ∃ z ∈ y :: m, x.2 = f z.2 := fun hr =>
      (ih hr).imp fun z hz => ⟨List.mem_cons_of_mem _ hz.1, hz.2⟩
    split at hx
    · exact hrest hx
    · obtain rfl | hr := List.mem_cons.1 hx
      · exact ⟨y, List.mem_cons_self, rfl⟩
      · exact hrest hr

namespace State.Inv

section
variable {s t : State} (h : s.Inv)
include h

theorem eachCore {f : Core → Core} (hf : ∀ k : Core, k.Ordered → (f k).Ordered) :
    ({ s with cores := AMap.each Core.reset f s.cores } : State).Inv := by
  refine ⟨h.mem, fun ck hck => ?_⟩
  obtain ⟨kv, hkv, heq⟩ := AMap.mem_each hck
  rw [heq]
  exact hf _ (h.cores kv hkv)

/-! ### The gate -/

theorem vedihar {q : Mbx} {fam : Nat} {allowed : Bool} {run : State → State} (hrun : (run s).Inv) :
    Keeps (.next (s.vedihar q fam allowed run)) := next (ite h (h.mailbox hrun))

theorem badDocument {q : Mbx} : (s.badDocument q).Inv := (h.draw (n := 0x358)).respond

omit h in
theorem drawBytes {kind n : Nat} {s : State} (h : s.Inv) : (s.drawBytes kind n).2.Inv := by
  induction n generalizing s with
  | zero => exact h
  | succ n ih => exact ih (h.draw (n := kind))

theorem random : s.random.2.Inv := h.security

/-! ### Identity -/

theorem dieIdentityRecords {q : Mbx} : Keeps (execDieIdentityRecords q s) := h.vedihar h.respond

theorem certificateChain {q : Mbx} : Keeps (execCertificateChain q s) := h.vedihar h.respond

theorem encapsulationKey {q : Mbx} : Keeps (execEncapsulationKey q s) := by
  refine h.vedihar ?_
  split
  · exact h.respond
  · exact h.respond

theorem sign {msg : List Byte} : (s.sign msg).2.Inv := h.security

theorem attest {q : Mbx} {nonce : BitVec 256} {fn : Byte} : (s.attest q nonce fn).Inv := by
  unfold State.attest
  extract_lets s1
  refine ite h.respond (ite h.respond ?_)
  have h1 : s1.Inv := h.security
  refine ite (h1.of_eq (by rfl)) ?_
  split
  next ek u heq =>
  have hu : u.Inv := by
    split at heq
    · cases heq
      exact h1
    · have hd := h1.drawBytes (kind := 0x396) (n := 4)
      rw [heq] at hd
      exact hd
  exact (hu.sign (msg := u.reportBytes nonce fn ek)).respond

theorem attestationReport {q : Mbx} {nonce : BitVec 256} {fn : Byte} : Keeps (execAttestationReport q nonce fn s) := h.vedihar h.attest

/-! ### The library -/

theorem writeLibrary {body : List W64} : (s.writeLibrary body).Inv := h.foldl fun _ _ hu => hu.writeNow.clearEcc

theorem withLibrary {l : Option Library} : ({ s with library := l } : State).Inv := h.of_eq (by rfl)

theorem libraryLoad {q : Mbx} {img : LibImage} : Keeps (execLibraryLoad q img s) :=
  h.vedihar (ite h.respond (ite h.respond h.writeLibrary.withLibrary.respond))

theorem drawn {n : Nat} : ({ s with fresh := n } : State).Inv := h.of_eq (by rfl)

theorem libraryQuery {q : Mbx} : Keeps (execLibraryQuery q s) := h.vedihar h.drawn.respond

/-! ### Weight sessions -/

theorem updFn {f : Nat} {u : Func → Func} : (s.updFn f u).Inv := h.of_eq (by rfl)

theorem weightSessionOpen {q : Mbx} : Keeps (execWeightSessionOpen q s) := by
  refine h.vedihar ?_
  split
  · exact h.respond
  · exact h.updFn.respond

theorem ownerKey {q : Mbx} {key : List Byte} : Keeps (execOwnerKey q key s) := by
  refine h.vedihar ?_
  split
  · exact ite h.respond (ite h.respond h.updFn.respond)
  · exact h.respond

theorem weightManifest {q : Mbx} {doc : Manifest} : Keeps (execWeightManifest q doc s) := by
  refine h.vedihar ?_
  split
  · exact ite h.respond (ite h.badDocument h.updFn.respond)
  · exact h.respond

theorem prepared {f : FnId} {g : W32} : (s.prepared f g).Inv := by
  unfold State.prepared
  split
  · exact ite h.traceGen h
  · exact h

theorem bind {f : FnId} {doc : GenList} {home : Scrub} : (s.bind f doc home).Inv := by
  unfold State.bind
  extract_lets ts s1 s0 s2
  have h1 : s1.Inv := h.updFn
  have h2 : s2.Inv := h1.uncommit
  exact h2.updFn.settleGen

theorem generationList {q : Mbx} {doc : GenList} : Keeps (execGenerationList q doc s) := by
  refine h.vedihar ?_
  extract_lets u
  split
  · exact h.respond
  · refine ite h.badDocument ?_
    split
    · exact h.updFn.respond
    · refine ite h.respond ?_
      split
      · exact ite h.respond h.bind.respond
      · exact h.respond

theorem acceptKey {q : Mbx} {hash : BitVec 256} {gen : W32} {key : BitVec 256} : (s.acceptKey q hash gen key).Inv := by
  have h1 : s.random.2.random.2.Inv := h.random.random
  exact h1.updFn.prepared.respond

theorem wrappedKey {q : Mbx} {gen : W32} {ct : List Byte} : Keeps (execWrappedKey q gen ct s) := by
  refine h.vedihar ?_
  extract_lets u
  split
  · refine ite h.respond ?_
    split
    · exact h.respond
    · refine ite h.respond ?_
      split
      · exact h.badDocument
      · exact h.acceptKey
  · exact h.respond

theorem distributionEntry {q : Mbx} {gen : W32} {parent : Option (BitVec 12)} {children : List DistChild} :
    Keeps (execDistributionEntry q gen parent children s) :=
  h.vedihar (ite h.respond (ite h.badDocument (ite h.respond h.updFn.pump.respond)))

theorem closeSession {f : FnId} : (s.closeSession f).Inv := by
  unfold State.closeSession
  extract_lets u s1 s2
  have h1 : s1.Inv := h.foldl fun _ _ hu => hu.traceGen.discarded
  have h2 : s2.Inv := h1.updFn
  exact h2.scrubRetained.startScrub

theorem weightSessionClose {q : Mbx} : Keeps (execWeightSessionClose q s) := by
  refine h.vedihar ?_
  split
  · exact h.closeSession.respond
  · exact h.respond

/-! ### Resets -/

theorem requestWarm {q : Mbx} {keyed : Bool} : (s.requestWarm q keyed).Inv := h.windUp.respond.power

theorem moduleWarm {q : Mbx} : Keeps (execModuleWarm q s) := by
  refine h.vedihar ?_
  split
  · exact h.requestWarm
  · exact ite h.respond.power h
  · exact h.respond

theorem keyedWarm {q : Mbx} : Keeps (execKeyedWarm q s) := h.vedihar (ite h (ite h.respond h.requestWarm))

theorem retentionTicket {q : Mbx} {gen : W32} {ct : List Byte} : Keeps (execRetentionTicket q gen ct s) := by
  refine h.vedihar ?_
  extract_lets u
  split
  · exact ite h.respond (ite h.respond (ite h.updFn.respond h.badDocument))
  · exact h.respond

theorem skeinResetMessage {q : Mbx} : Keeps (execSkeinReset q s) := h.vedihar (ite h h.skeinReset.respond)

/-! ### Debug unlock -/

theorem debugChallenge {q : Mbx} : Keeps (execDebugChallenge q s) := h.vedihar (ite h.respond h.random.security.respond)

theorem debugZero : s.debugZero.Inv := by
  have hcores := (h.eachCore (f := fun k => { Core.reset with svc := k.svc, cause := k.cause, obs := k.obs })
    fun _ _ => Core.ordered_reset).cores
  exact ⟨rfl, hcores⟩

theorem unlock {mask : W32} : (s.unlock mask).Inv := by
  unfold State.unlock
  extract_lets s1 s2 s3 s4
  have h1 : s1.Inv := h.foldl fun _ _ hu => hu.abandon
  have h2 : s2.Inv := h1.foldl fun _ _ hu => hu.completePass
  have h3 : s3.Inv := h2.foldl fun _ _ hu => ite hu.closeSession hu
  have h4 : s4.Inv := h3.debugZero
  clear_value s4
  exact h4.of_eq (by rfl)

theorem debugUnlock {q : Mbx} {challenge : BitVec 256} {serial : W64} {mask : W32} {sig cert : List Byte} :
    Keeps (execDebugUnlock q challenge serial mask sig cert s) :=
  h.vedihar (ite h.respond (ite h.respond (ite h.unlock.respond h.badDocument)))

/-! ### Observation -/

theorem dumpBufferSetup {q : Mbx} {addr : W64} {slots : Nat} : Keeps (execDumpBufferSetup q addr slots s) :=
  h.vedihar (ite h.respond (ite h.respond (ite h.respond h.updFn.respond)))

theorem logRingSetup {q : Mbx} {addr : W64} {log2 : Nat} : Keeps (execLogRingSetup q addr log2 s) := by
  refine h.vedihar ?_
  split
  · exact h.respond
  · exact h.updFn.respond

theorem traceRingSetup {q : Mbx} {addr : W64} {log2 : Nat} {mask : Byte} : Keeps (execTraceRingSetup q addr log2 mask s) := by
  refine h.vedihar ?_
  split
  · exact h.respond
  · exact h.updFn.respond

theorem observationQuery {q : Mbx} : Keeps (execObservationQuery q s) := h.vedihar h.respond

end
end State.Inv
end Sys2Proof.Machine
end


section
/-!
PROOFS. The invariant through register writes (R342 to R350, R273, R298), requests (R241, R242), flags and latched reads (R275,
R386), BAR2 (R161, R206, R341) and staging slots (R323).
-/
namespace Sys2Proof.Machine
namespace State.Inv

section
variable {s t : State} (h : s.Inv)
include h

/-! ### Set-up registers -/

theorem writeField {f g : FnId} {r : RegId} {v : BitVec 128} {refuse locked : Bool} {x : Field} :
    (s.writeField f g r v refuse locked x).Inv :=
  ite h.logField (setReg (ite h h.logField))

theorem writeFields {f g : FnId} {r : RegId} {v : BitVec 128} {refuse locked : Bool} {l : List Field} :
    (s.writeFields f g r v refuse locked l).Inv := h.foldl fun _ _ hu => hu.writeField

theorem writePlain {f : FnId} {r : RegId} {v : BitVec 128} : (s.writePlain f r v).Inv := h.writeFields

theorem writeLock {f : FnId} {v : Bool} : (s.writeLock f v).Inv := ite h.setReg (ite h.logField h)

theorem forceOff {f : FnId} {r : RegId} {lsb : Nat} : (s.forceOff f r lsb).Inv := h.setReg.logField

theorem writePart {f : FnId} {p : PartId} {v : W32} : (s.writePart f p v).Inv := by
  unfold State.writePart
  extract_lets r put want hit loaded s1 now
  have h1 : s1.Inv := h.writeFields
  exact ite h1.forceOff h1

theorem loseRetained {f : FnId} : (s.loseRetained f).Inv := by
  unfold State.loseRetained
  extract_lets u s1
  have h1 : s1.Inv := by
    dsimp only [s1]
    split
    · exact h.zeroRegion
    · exact h
  exact h1.updFn

theorem writeFunc {w f : FnId} {v : W64} : (s.writeFunc w f v).Inv := by
  unfold State.writeFunc
  extract_lets r old s1 now clash s2
  have h1 : s1.Inv := h.writeFields
  have h2 : s2.Inv := ite h1.forceOff h1
  exact ite h2.loseRetained h2

theorem setLockWrite {f : FnId} {v : Bool} : Keeps (execSetLockWrite f v s) := next (ite h.writeLock h)

theorem setPartWrite {f : FnId} {p : PartId} {v : W32} : Keeps (execSetPartWrite f p v s) := next (ite h.writePart h)

theorem setFuncWrite {w f : FnId} {v : W64} : Keeps (execSetFuncWrite w f v s) := next (ite h.writeFunc h)

theorem setQosApply {p : PartId} : Keeps (execSetQosApply p s) := keeps_ite h.next (next (h.foldl fun _ _ hu => hu.updFn))

/-! ### Rings, fabric and clock registers -/

theorem writeRing {f : FnId} {cq : Bool} {n : RingId} {v : BitVec 128} : (s.writeRing f cq n v).Inv := by
  unfold State.writeRing
  extract_lets u r busy bit s1
  have h1 : s1.Inv := h.foldl fun _ _ hu => hu.writeField
  exact ite h1.enableRing h1.disableRing

theorem writeTimeCtrl {f : FnId} {v : BitVec 128} : (s.writeTimeCtrl f v).Inv := by
  unfold State.writeTimeCtrl
  extract_lets was s1 src s2 e
  have h1 : s1.Inv := h.writePlain
  have h2 : s2.Inv := h1.power
  exact ite h2.clock (ite h2.clock h2)

theorem updPort {p : Nat} {u : Port → Port} : (s.updPort p u).Inv := h.portMap

theorem writePort {f : FnId} {p : PortId} {v : BitVec 128} : (s.writePort f p v).Inv := by
  unfold State.writePort
  extract_lets s1 on off
  have h1 : s1.Inv := h.writePlain
  exact ite h1.train (ite h1.train.updPort h1.updPort)

theorem observation {o : ObsBlock} : ({ s with obs := o } : State).Inv := h.of_eq (by rfl)

theorem writeReg {f : FnId} {r : RegId} {v : BitVec 128} : (s.writeReg f r v).Inv := by
  unfold State.writeReg
  refine ite h (ite h.logRefused ?_)
  split
  · exact h.writeLock
  · exact h.writePart
  · exact h.writeFunc
  · exact h.writeRing
  · exact h.writeRing
  · exact h.writeTimeCtrl
  · exact h.of_eq (by rfl)
  · exact h.writePort
  · exact h.writePlain.observation
  · exact h.writePlain

theorem registerWrite {f : FnId} {r : RegId} {v : BitVec 128} : Keeps (execRegisterWrite f r v s) := next (ite h.writeReg h)

/-! ### Requests -/

theorem fenceReq {c : CoreId} : Keeps (execFenceReq c s) := next (ite h.fenceCore h)

theorem bypassReq {c : CoreId} : Keeps (execBypassReq c s) := by
  refine keeps_ite h.next (keeps_ite h.logRefused.next (keeps_ite h.next (next ?_)))
  exact ite h.dropQueued.leaveService.dieOut h.dropQueued.leaveService

theorem oosReq {d : DieId} : Keeps (execOosReq d s) := keeps_ite h.next (keeps_ite h.logRefused.next h.dieOut.next)

theorem portRetrain {p : PortId} : Keeps (execPortRetrain p s) := keeps_ite h.next (keeps_ite h.logRefused.next (next (ite h h.train)))

/-! ### Flags and latched reads -/

theorem chkFaultClear : Keeps (execChkFaultClear s) := next (ite h.check h)

theorem w1cClear {flag : W1c} : Keeps (execW1cClear flag s) := by
  refine keeps_ite h.next ?_
  cases flag with
  | ingDistFailValid => exact next (h.of_eq (by rfl))
  | chkScrubErrValid => exact h.check.next
  | secTamperNew => exact h.security.next

theorem emit {o : Out} : (s.emit o).Inv := h.of_eq (by rfl)

theorem timebaseRead {reg : TimedRead} : Keeps (execTimebaseRead reg s) := by
  refine keeps_ite h.next ?_
  dsimp only
  split
  · exact h.clock.emit.next
  · exact h.emit.next
  · exact h.clock.emit.next
  · exact h.emit.next

/-! ### BAR2 -/

theorem writeSync {c o : Nat} {data : List Byte} : (s.writeSync c o data).Inv := h.foldl fun _ _ hu => ite hu hu.setCounter

theorem readSync {f : FnId} {c o n : Nat} : (s.readSync f c o n).Inv := by
  unfold State.readSync
  split
  · exact h.raiseCore
  · exact emit (ite h.raiseCore.countNow h)

theorem enqueueHost {c : Nat} {a : QAccess} : (s.enqueueHost c a).Inv := ite h.countNow (h.updCore (by exact fun _ => id))

theorem hostWindowRead {f : FnId} {offset : BitVec 36} {len : Nat} : Keeps (execHostWindowRead f offset len s) := by
  refine keeps_ite h.next ?_
  split
  · exact h.emit.logRefused.next
  · exact h.postedLand.emit.next
  · exact keeps_ite h.emit.logRefused.next (keeps_ite h.emit.next
      (keeps_ite h.drawBytes.emit.next (keeps_ite h.postedLand.readSync.next h.enqueueHost.next)))

theorem hostWindowWrite {f : FnId} {offset : BitVec 36} {data : List Byte} : Keeps (execHostWindowWrite f offset data s) := by
  refine keeps_ite h.next ?_
  split
  · exact h.logRefused.next
  · exact keeps_ite h.logRefused.next h.writeIoDie.next
  · exact keeps_ite h.logRefused.next (keeps_ite h.logRefused.next
      (keeps_ite h.next (keeps_ite h.writeSync.next h.enqueueHost.next)))

theorem stagingSlotWrite {f : FnId} {d : IoDie} {slot : Fin 15} {rec : ShardRec} : Keeps (execStagingSlotWrite f d slot rec s) :=
  keeps_ite keeps_refused (keeps_ite h.next (keeps_ite h.logRefused.next h.writeNow.next))

end
end State.Inv
end Sys2Proof.Machine
end


section
/-!
PROOFS. The invariant through counter configurations and dumps (R435, R438, R439), the sideband (R453, R454) and JTAG (R455).
-/
namespace Sys2Proof.Machine

theorem Core.ordered_clearCounters {k : Core} (hk : k.Ordered) {sel : Nat → Bool} {l : List Nat} :
    (l.foldl (fun k i => if sel i then k.clearCounter (i % 6) else k) k).Ordered := by
  induction l generalizing k with
  | nil => exact hk
  | cons i l ih =>
    refine ih ?_
    beta_reduce
    split
    · exact hk
    · exact hk

namespace State.Inv

section
variable {s t : State} (h : s.Inv)
include h

/-! ### Observation -/

theorem obsCntCfgApply : Keeps (execObsCntCfgApply s) := by
  refine keeps_ite h.next (next ⟨h.mem, fun ck hck => ?_⟩)
  obtain ⟨kv, hkv, heq⟩ := AMap.mem_each hck
  obtain ⟨kv', hkv', rfl⟩ := List.mem_map.1 hkv
  rw [heq]
  exact Core.ordered_clearCounters (h.cores kv' hkv')

theorem dumpOne {s0 : State} {f : FnId} : (s.dumpOne s0 f).Inv := by
  unfold State.dumpOne
  split
  · exact h
  · exact h.updFn.emit

theorem regionMap {m : AMap Region} : ({ s with regions := m } : State).Inv := h.of_eq (by rfl)

theorem sinceDump : s.sinceDump.Inv :=
  (h.eachCore (f := fun k => { k with obs := { k.obs with ovf := [] } }) fun _ hk => hk).regionMap

theorem dumpLatch : Keeps (execDumpLatch s) := by
  unfold execDumpLatch
  extract_lets n src s1 owners before
  have h1 : s1.Inv := h.observation
  clear_value s1
  exact keeps_ite h.next (keeps_ite h1.next (keeps_ite (next ((h1.draw (n := 0x439)).foldl fun _ _ hu => hu.updFn))
    (sinceDump ((h1.draw (n := 0x439)).foldl fun _ _ hu => hu.dumpOne)).next))

/-! ### Sideband -/

theorem sideState {x : Side} : ({ s with side := x } : State).Inv := h.of_eq (by rfl)

theorem pldmSensorRead {x : PldmSensor} : Keeps (execPldmSensorRead x s) := by
  refine keeps_ite h.next ?_
  dsimp only
  split
  · exact h.sideState.emit.next
  · exact (h.sideState.draw (n := 0x453)).emit.next

theorem pldmFruRead : Keeps (execPldmFruRead s) := next (ite h.emit h)

theorem pldmEventSubscription {x : PldmSensor} : Keeps (execPldmEventSubscription x s) := next (ite h.sideState h)

theorem channelSelectorWrite {b : Byte} : Keeps (execChannelSelectorWrite b s) := next (ite h.sideState h)

/-! ### JTAG -/

theorem loadJtag {i : JtagInstr} : (s.loadJtag i).Inv := h.sideState

theorem loadExtest {i : JtagInstr} : (s.loadExtest i).Inv := ite h.jtagReset.loadJtag h

theorem bypass : Keeps (execBypass s) := next (ite h.loadJtag h)

theorem idcode : Keeps (execIdcode s) := next (ite h.loadJtag.emit h)

theorem samplePreload : Keeps (execSamplePreload s) := next (ite h.loadJtag h)

end
end State.Inv
end Sys2Proof.Machine
end


section
/-!
PROOFS. Every command keeps the invariant, and so every step.
-/
namespace Sys2Proof.Machine

/-- Every command keeps the invariant, each by the lemma of its meaning. -/
theorem State.Inv.exec {s : State} (h : s.Inv) (i : Instr) : Keeps (exec i s) := by
  cases i with
  -- Matrix engine (R69)
  | mcfg _ _ _ => exact (h.runInstr fun _ _ hk => hk.runMcfg).next
  | mdcfg _ _ _ => exact (h.runInstr fun _ _ hk => hk.runMdcfg).next
  | mlw _ _ _ => exact (h.runInstr fun _ _ hk => hk.runMlw).next
  | mmul _ _ _ => exact (h.runInstr fun _ _ hk => hk.runMmul).next
  | mldl _ _ _ => exact (h.runInstr fun _ _ hk => hk.runMldl).next
  | mdrn _ _ _ => exact (h.runInstr fun _ _ hk => hk.runMdrn).next
  | mdrnl _ _ _ => exact (h.runInstr fun _ _ hk => hk.runMdrnl).next
  | mclr _ _ _ => exact (h.runInstr fun _ _ hk => hk.runMclr).next
  -- Vector engine (R93)
  | vld _ _ _ => exact (h.runInstr fun _ _ hk => hk.runVld).next
  | vst _ _ _ => exact (h.runInstr fun _ _ hk => hk.runVst).next
  | vadd _ _ => exact (h.runInstr fun _ _ hk => hk.runArith).next
  | vsub _ _ => exact (h.runInstr fun _ _ hk => hk.runArith).next
  | vmul _ _ => exact (h.runInstr fun _ _ hk => hk.runArith).next
  | vmin _ _ => exact (h.runInstr fun _ _ hk => hk.runArith).next
  | vmax _ _ => exact (h.runInstr fun _ _ hk => hk.runArith).next
  | vfma _ _ _ => exact (h.runInstr fun _ _ hk => hk.runVfma).next
  | vcmp _ _ _ => exact (h.runInstr fun _ _ hk => hk.runVcmp).next
  | vsel _ _ _ => exact (h.runInstr fun _ _ hk => hk.runVsel).next
  | vint _ _ _ => exact (h.runInstr fun _ _ hk => hk.runVint).next
  | vcvt _ _ _ => exact (h.runInstr fun _ _ hk => hk.runVcvt).next
  | vfn _ _ _ => exact (h.runInstr fun _ _ hk => hk.runVfn).next
  | vred _ _ _ => exact (h.runInstr fun _ _ hk => hk.runVred).next
  | vbcast _ _ _ => exact (h.runInstr fun _ _ hk => hk.runVbcast).next
  | vtos _ _ _ => exact (h.runInstr fun _ _ hk => hk.runVtos).next
  -- Move engine (R100)
  | tcpy _ _ _ => exact (h.runInstr fun _ _ hk => hk.runTcpy).next
  | ttile _ _ _ => exact (h.runInstr fun _ _ hk => hk.runTtile).next
  | tshuf _ _ _ => exact (h.runInstr fun _ _ hk => hk.runTshuf).next
  | tcvt _ _ _ => exact (h.runInstr fun _ _ hk => hk.runTcvt).next
  | tqnt _ _ _ => exact (h.runInstr fun _ _ hk => hk.runTqnt).next
  | tnbr _ _ _ => exact (h.runInstr fun _ _ hk => hk.runTnbr).next
  | tmrd _ _ _ => exact (h.runInstr fun _ _ hk => hk.runTmrd).next
  -- Gather engine (R108)
  | grows _ _ _ => exact (h.runInstr fun _ _ hk => hk.runGrows).next
  | gtopk _ _ _ => exact (h.runInstr fun _ _ hk => hk.runGtopk).next
  | gdisp _ _ _ => exact (h.runInstr fun _ _ hk => hk.runGdisp).next
  -- Fabric engine (R113)
  | fsend _ _ _ => exact (h.runInstr fun _ _ hk => hk.runFsend).next
  | frecv _ _ _ => exact (h.runInstr fun _ _ hk => hk.runFrecv).next
  | fscol _ _ _ => exact (h.runInstr fun _ _ hk => hk.runFscol).next
  | frdx _ _ _ => exact (h.runInstr fun _ _ hk => hk.runFrdx).next
  | frdc _ _ _ => exact (h.runInstr fun _ _ hk => hk.runFrdc).next
  | fwput _ _ _ => exact (h.runInstr fun _ _ hk => hk.runFwput).next
  | fwget _ _ _ => exact (h.runInstr fun _ _ hk => hk.runFwget).next
  | fwatm _ _ _ => exact (h.runInstr fun _ _ hk => hk.runFwatm).next
  -- Control instructions (R133), for any engine
  | nop _ _ _ _ => exact (h.runInstr fun _ _ hk => hk.runNop).next
  | pad _ _ _ _ => exact (h.runInstr fun _ _ hk => hk.runPad).next
  | loop _ _ _ _ => exact (h.runInstr fun _ _ hk => hk.runLoop).next
  | endloop _ _ _ _ => exact (h.runInstr fun _ _ hk => hk.runEndloop).next
  | call _ _ _ _ => exact (h.runInstr fun _ _ hk => hk.runCall).next
  | ret _ _ _ _ => exact (h.runInstr fun _ _ hk => hk.runRet).next
  | wait _ _ _ _ => exact (h.runInstr fun _ _ hk => hk.runWait).next
  | signal _ _ _ _ => exact (h.runInstr fun _ _ hk => hk.runSignal).next
  | release _ _ _ _ => exact (h.runInstr fun _ _ hk => hk.runRelease).next
  | acquire _ _ _ _ => exact (h.runInstr fun _ _ hk => hk.runAcquire).next
  | barrier _ _ _ _ => exact (h.runInstr fun _ _ hk => hk.runBarrier).next
  -- Register instructions (R131), for any engine
  | sset _ _ _ _ => exact (h.runInstr fun _ _ hk => hk.runSset).next
  | sop _ _ _ _ => exact (h.runInstr fun _ _ hk => hk.runSop).next
  | sopi _ _ _ _ => exact (h.runInstr fun _ _ hk => hk.runSopi).next
  | aset _ _ _ _ => exact (h.runInstr fun _ _ hk => hk.runAset).next
  | aadd _ _ _ _ => exact (h.runInstr fun _ _ hk => hk.runAadd).next
  | sld _ _ _ _ => exact (h.runInstr fun _ _ hk => hk.runSld).next
  | sst _ _ _ _ => exact (h.runInstr fun _ _ hk => hk.runSst).next
  | srd _ _ _ _ => exact (h.runInstr fun _ _ hk => hk.runSrd).next
  -- Core events
  | absentEngineDelivery _ _ _ => exact h.absentEngineDelivery
  | stallLimitExpiry _ _ => exact h.stallLimitExpiry
  | graceWindowExpiry _ _ => exact h.graceWindowExpiry
  | releaseApply _ _ => exact h.releaseApply
  | coreBarrierJoin _ => exact h.coreBarrierJoin
  -- Mesh, weft and warp events
  | weftInjection _ _ _ => exact h.weftInjection
  | warpDelivery _ _ => exact h.warpDelivery
  | weftAccessLand _ => exact h.weftAccessLand
  | coreQueueTimeout _ => exact h.coreQueueTimeout
  | warpFlitArrival _ _ _ => exact h.warpFlitArrival
  | warpDeadline _ _ _ _ => exact h.warpDeadline
  | weftWrite _ => exact h.weftWrite
  | weftReadRequest _ => exact h.weftReadRequest
  | weftReadReply _ => exact h.weftReadReply
  | weftAtomic _ => exact h.weftAtomic
  | weftAtomicReply _ => exact h.weftAtomicReply
  | weftAcknowledgement _ => exact h.weftAcknowledgement
  | weftCounterIncrement _ => exact h.weftCounterIncrement
  | fencedTargetReply _ => exact h.fencedTargetReply
  | weftTimeoutExpiry _ => exact h.weftTimeoutExpiry
  | weftLifetimeExpiry _ => exact h.weftLifetimeExpiry
  | replayEntryExpiry _ _ => exact h.replayEntryExpiry
  -- Stitch and skein events
  | stitchFlitReceive _ _ _ _ => exact h.stitchFlitReceive
  | timeSample _ => exact h.timeSample
  | timeSampleLoss => exact h.timeSampleLoss
  | abandonNotice _ => exact h.abandonNotice
  | stepAnnouncement _ => exact h.stepAnnouncement
  | barrierJoin _ => exact h.barrierJoin
  | barrierResult _ => exact h.barrierResultMessage
  | fscolContribution _ => exact h.fscolContribution
  | fscolResult _ => exact h.fscolResult
  | passOffer _ => exact h.passOffer
  | agreementRecordPart _ => exact h.agreementRecordPart
  | formed _ => exact h.formed
  | refused _ => exact h.refusedMessage
  | leave _ => exact h.leave
  | readmit _ => exact h.readmit
  | broken _ => exact h.broken
  | dissolve _ => exact h.dissolve
  | formationTimeout => exact h.formationTimeout
  | autoRejoin => exact h.autoRejoin
  -- Clock, time and port events
  | slotGroupStart => exact h.slotGroupStart
  | frameStart => exact h.frameStart
  | barrierJoinDeadline _ => exact h.barrierJoinDeadline
  | stepFrame => exact h.stepFrame
  | stretch _ _ _ => exact h.stretch
  | stretchToken _ _ => exact h.stretchToken
  | lockMonitorFault _ => exact h.lockMonitorFault
  | timeInEdge _ _ _ => exact h.timeInEdge
  | timeOutPulse => exact h.timeOutPulse
  | portDown _ => exact h.portDownEvent
  | portTrainingComplete _ _ _ => exact h.portTrainingComplete
  | meshModeChange => exact h.meshModeChange
  -- Host rings and descriptors
  | doorbellPoll _ _ _ _ _ => exact h.doorbellPoll
  | descriptorFetch _ _ _ => exact h.descriptorFetch
  | nopDescriptor _ _ _ => exact h.nopDescriptor
  | passSubmit _ _ _ _ => exact h.passSubmit
  | programLoad _ _ _ _ _ => exact h.programLoad
  | weightShard _ _ _ _ => exact h.weightShard
  | genCommitStaged _ _ _ => exact h.genCommitStaged
  | genCommitRolling _ _ _ => exact h.genCommitRolling
  | genCommitAbort _ _ _ => exact h.genCommitAbort
  | fence _ _ _ => exact h.fence
  | copy _ _ _ _ => exact h.copy
  | skeinCtlForm _ _ _ _ => exact h.skeinCtlForm
  | skeinCtlDissolve _ _ _ => exact h.skeinCtlDissolve
  | skeinCtlPreempt _ _ _ => exact h.skeinCtlPreempt
  | skeinCtlResume _ _ _ => exact h.skeinCtlResume
  -- Pass lifecycle
  | preemptDeadline _ => exact h.preemptDeadline
  | passAdmit _ => exact h.passAdmit
  | passAgree _ => exact h.passAgree
  | memoryImageLoad _ _ _ => exact h.memoryImageLoad
  | finalGate _ => exact h.finalGate
  | gateResult _ => exact h.gateResult
  | outputWriteError _ => exact h.outputWriteError
  | quiesceComplete _ => exact h.quiesceComplete
  | passWatchdog _ => exact h.passWatchdog
  -- Integrity
  | faultRecordDelivery _ => exact h.faultRecordDelivery
  | dieHeartbeat _ => exact h.dieHeartbeat
  | heartbeatTimeout _ => exact h.heartbeatTimeout
  | fatalFault _ _ _ => exact h.fatalFault
  | weightScrubRead _ _ => exact h.weightScrubRead
  | memoryScrubRead _ _ _ => exact h.memoryScrubRead
  -- Weight ingest
  | shardRecordProcess _ _ => exact h.shardRecordProcess
  | shardWrite _ _ => exact h.shardWrite
  | shardCommit _ _ => exact h.shardCommit
  | ingestRequest _ _ => exact h.ingestRequest
  | ingestReady _ _ => exact h.ingestReady
  | ingestAck _ _ => exact h.ingestAck
  | ingestNack _ _ => exact h.ingestNack
  | requestTimeout _ _ _ => exact h.requestTimeout
  | teaselZeroingComplete _ _ => exact h.teaselZeroingComplete
  -- Power, start-up and resets
  | powerSample _ _ => exact h.powerSample
  | temperatureSample _ => exact h.temperatureSample
  | powerWishEvaluation => exact h.powerWishEvaluation
  | localStep => exact h.localStep
  | railExcursion _ => exact h.railExcursion
  | tamperEvent _ _ => exact h.tamperEvent
  | inputGood _ => exact h.inputGood
  | inputLost => exact h.inputLost
  | perstAssert => exact h.perstAssert
  | perstDeassert _ => exact h.perstDeassert
  | flr _ => exact h.flrEvent
  | warmResetStart _ => exact h.warmResetStart
  | treeGenerationComplete => exact h.treeGenerationComplete
  | dumpLatch => exact h.dumpLatch
  | irqDelayExpiry _ _ => exact h.irqDelayExpiry
  -- Vedihar messages
  | dieIdentityRecords _ => exact h.dieIdentityRecords
  | certificateChain _ => exact h.certificateChain
  | encapsulationKey _ => exact h.encapsulationKey
  | attestationReport _ _ _ => exact h.attestationReport
  | libraryLoad _ _ => exact h.libraryLoad
  | libraryQuery _ => exact h.libraryQuery
  | weightSessionOpen _ => exact h.weightSessionOpen
  | ownerKey _ _ => exact h.ownerKey
  | weightManifest _ _ => exact h.weightManifest
  | generationList _ _ => exact h.generationList
  | wrappedKey _ _ _ => exact h.wrappedKey
  | distributionEntry _ _ _ _ => exact h.distributionEntry
  | weightSessionClose _ => exact h.weightSessionClose
  | moduleWarm _ => exact h.moduleWarm
  | keyedWarm _ => exact h.keyedWarm
  | retentionTicket _ _ _ => exact h.retentionTicket
  | skeinReset _ => exact h.skeinResetMessage
  | debugChallenge _ => exact h.debugChallenge
  | debugUnlock _ _ _ _ _ _ => exact h.debugUnlock
  | dumpBufferSetup _ _ _ => exact h.dumpBufferSetup
  | logRingSetup _ _ _ => exact h.logRingSetup
  | traceRingSetup _ _ _ _ => exact h.traceRingSetup
  | observationQuery _ => exact h.observationQuery
  -- Host register and window accesses
  | setLockWrite _ _ => exact h.setLockWrite
  | setPartWrite _ _ _ => exact h.setPartWrite
  | setFuncWrite _ _ _ => exact h.setFuncWrite
  | setQosApply _ => exact h.setQosApply
  | ringEnable _ _ _ => exact h.ringEnable
  | ringDisable _ _ _ => exact h.ringDisable
  | fenceReq _ => exact h.fenceReq
  | bypassReq _ => exact h.bypassReq
  | oosReq _ => exact h.oosReq
  | portRetrain _ => exact h.portRetrain
  | chkFaultClear => exact h.chkFaultClear
  | w1cClear _ => exact h.w1cClear
  | timebaseRead _ => exact h.timebaseRead
  | obsCntCfgApply => exact h.obsCntCfgApply
  | registerWrite _ _ _ => exact h.registerWrite
  | hostWindowRead _ _ _ => exact h.hostWindowRead
  | hostWindowWrite _ _ _ => exact h.hostWindowWrite
  | stagingSlotWrite _ _ _ _ => exact h.stagingSlotWrite
  -- Sideband and JTAG
  | pldmSensorRead _ => exact h.pldmSensorRead
  | pldmFruRead => exact h.pldmFruRead
  | pldmEventSubscription _ => exact h.pldmEventSubscription
  | channelSelectorWrite _ => exact h.channelSelectorWrite
  | bypass => exact h.bypass
  | idcode => exact h.idcode
  | samplePreload => exact h.samplePreload
  | extest => exact h.loadExtest.next
  | clamp => exact h.loadExtest.next
  | highz => exact h.loadExtest.next
  | extestPulse => exact h.loadExtest.next
  | extestTrain => exact h.loadExtest.next
  -- Further steps
  | weftForward _ => exact h.weftForward
  | interruptAllowanceRenewal _ => exact h.interruptAllowanceRenewal
  | entropyHealthTest _ => exact h.entropyHealthTest
  | tamperConditionEnd _ => exact h.tamperConditionEnd
  | tapReset _ _ => exact h.tapReset
  | vfEnable _ => exact h.vfEnable

/-- A step runs the command at the front of the queue with the queue's rest, or idles. -/
theorem State.Inv.step {s : State} (h : s.Inv) : Keeps (step s) := by
  unfold Machine.step
  split
  · exact h.next
  · exact (h.of_eq (by rfl) : State.Inv { s with pending := _ }).exec _

end Sys2Proof.Machine

namespace Sys2Proof
open Machine

/-- Settles O60: every command keeps the invariant, and a step is a command or nothing. -/
theorem stepKeepsInvariant : Obligations.StepKeepsInvariant := by
  unfold Obligations.StepKeepsInvariant
  intro s t hs hst
  exact State.inv_iff_Inv.2 ((State.inv_iff_Inv.1 hs).step t hst)

end Sys2Proof
end
